-- ==== Sys2Proof/Word.lean ====
section
/-!
DEFINITION. The word types and their plainest arithmetic: a register is 32 bits (R9), a byte is 8 bits, and a signed
reading of the low bits of a number is two's complement.
-/

namespace Sys2Proof

/-- A register word (R9). -/
abbrev Word := BitVec 32

/-- A byte. -/
abbrev Byte := BitVec 8

end Sys2Proof
end

