-- ==== Sys2Proof/Syntax.lean ====
section
/-!
DEFINITION. The commands the block takes, one constructor per row of spec/opcode_table.json, and the types of their
operands, with the identifier widths of R16. A register write carries the path it arrives by (R518); a host command carries its submission entry (Table:
Submission entry); an event of the machine the block controls carries what the block's sensors report of it.
-/

namespace Sys2Proof

/-- The path by which a host command or a register access arrives (R518). -/
inductive Path where
  | session (id : BitVec 14)
  | service
deriving DecidableEq, Repr

/-- A submission entry without its OPCODE byte (Table: Submission entry). -/
structure Entry where
  flags : BitVec 8 := 0
  cid : BitVec 16 := 0
  wait : BitVec 32 := 0
  addr : BitVec 64 := 0
  rkey : BitVec 32 := 0
  len : BitVec 32 := 0
  objKey : BitVec 64 := 0
  offset : BitVec 64 := 0
  objVer : BitVec 32 := 0
  cqHead : BitVec 16 := 0
  rsv : BitVec 16 := 0
  arg0 : BitVec 32 := 0
  arg1 : BitVec 32 := 0
  arg2 : BitVec 64 := 0
deriving DecidableEq, Repr

/-- The length that discipline gives a tick: 1,600, 1,599 or 1,601 CE cycles (R57, R61). -/
inductive Slew where
  | none | shorter | longer
deriving DecidableEq, Repr

/-- What a leg of a spindle bridge shows at a tick boundary: whether its high side conducts, and the current of its shunt in mA
(R221). -/
structure LegRead where
  high : Bool := false
  shunt : BitVec 16 := 0
deriving DecidableEq, Repr

/-- What a buck reports of a tick: its output voltage in 10 mV and current in mA, and the power it has taken in, in mW (R620). -/
structure RailRead where
  v : BitVec 12 := 0
  i : BitVec 12 := 0
  pin : BitVec 20 := 0
deriving DecidableEq, Repr

/-- What the converters and monitors report at a tick boundary (R31, R68): the raw servo ADC results by channel, the
front-monitor results of each pickup gated by the write encoder, the bus voltage in 0.1 V and
current in mA, and the measured power of each consumer in mW (R425). Lists may be short: what is missing reads 0. -/
structure Samples where
  adc : List (BitVec 14) := []
  wrMon : List (BitVec 14) := []
  /-- The length the tick generator chooses for the tick that begins (R61). -/
  slew : Slew := .none
  /-- The count of each encoder, 4,096 to a period of its sin and cos (R226), from where it stood at power-on. -/
  encoder : List (BitVec 17) := []
  vbus : BitVec 16 := 0
  ibus : BitVec 16 := 0
  consumers : List (BitVec 20) := []
  /-- VIN in 0.1 V, the current out of VIN and the chopper's in mA, the 12 V and the 3.3 V buck, and the junction temperatures of the
  shell and the core in °C (R614, R619, R620, R625). -/
  vin : BitVec 16 := 0
  reverse : BitVec 16 := 0
  chop : BitVec 16 := 0
  rail12 : RailRead := {}
  rail33 : RailRead := {}
  tjShell : BitVec 8 := 0
  tjCore : BitVec 8 := 0
  /-- Encoder speed and observer speed of each station in 0.125 rpm, and the observer's angle in 0.01° electrical. -/
  speed : List (BitVec 16) := []
  obsSpeed : List (BitVec 16) := []
  obsAngle : List (BitVec 16) := []
  /-- The legs of the bridges, leg k of station s at 3s + k, and the CE cycles for which two legs of each have been high at once
  (R221). -/
  legs : List LegRead := []
  twoHigh : List (BitVec 12) := []
  /-- The current residual of each observer in mA (R232), and its back-EMF amplitude in mV line-to-line peak (R245). -/
  obsRes : List (BitVec 16) := []
  bemf : List (BitVec 16) := []
  /-- The levels of HOME, EOT_NEG and EOT_POS of each axis in bits 0 to 2 (R280). -/
  switches : List (BitVec 3) := []
  /-- Of each host port, the codewords that its FEC has corrected in the tick and those it could not correct, and in bit p whether port
  p shows a high symbol-error ratio (R339). -/
  fecCorr : List (BitVec 16) := []
  fecUncorr : List (BitVec 16) := []
  hiSer : BitVec 2 := 0
  /-- The refresh-rate code that the DRAM gives (R464). -/
  mr4 : BitVec 5 := 0
  /-- The debounced GRIP_DISC and CLAMP inputs. -/
  grip : Bool := false
  clamp : BitVec 2 := 0
  /-- The collector's test message arrived whole and no severity entry was uncorrectable (R563). -/
  checkOk : Bool := true
deriving DecidableEq, Repr

/-- What a spot reads of one servo field (Table: Servo field layout): the field's number since the encoder index, the CE cycle
within the tick of its reference, its channel bits 0 to 71 with bit 0 foremost, how many channel bits from the predicted position
the address mark was found, the channel bits measured since the spot's last field (R167), and the measured distances of timing
pairs A and B in 1/16 channel bit. -/
structure FieldRead where
  field : BitVec 12
  cycle : BitVec 12 := 0
  bits : BitVec 72
  markOfs : BitVec 9 := 0
  gap : BitVec 12 := 0
  dA : BitVec 12
  dB : BitVec 12
deriving DecidableEq, Repr

/-- The header of a peer message (Table: Peer message header), and whether its TAG verifies (R318). -/
structure PeerHdr where
  domain : BitVec 64 := 0
  epoch : BitVec 32 := 0
  tag : BitVec 64 := 0
  src : BitVec 9
  dst : BitVec 9 := 0
  xid : BitVec 32 := 0
  /-- Whether TAG verifies: DESIGN CHOICE (notes/assumptions/9.md, safe). -/
  auth : Bool := true
deriving DecidableEq, Repr

/-- A unit named in a peer message: tenant, object key, version, unit. -/
structure UnitRef where
  tenant : BitVec 12
  key : BitVec 64
  ver : BitVec 32
  unit : BitVec 32
deriving DecidableEq, Repr

/-- What a spot reads of a frame position (R187 to R192): the modulation of the RF envelope over its channel bits 0 to 207 in
percent of the layer's calibrated modulation, the ticks since its first channel bit passed, the samples, and the hard
decisions, channel bit i in bit i. -/
structure FrameRead where
  env : BitVec 8 := 100
  age : BitVec 16 := 0
  samples : List (BitVec 8) := []
  bits : BitVec 55616 := 0
deriving DecidableEq, Repr

/-- The end of an LDPC attempt (R190, R196): convergence, unsatisfied checks after the first iteration, iterations, hard
decisions changed, and the 4,096 bytes decoded. -/
structure LdpcResult where
  ok : Bool
  unsat : BitVec 13 := 0
  iter : BitVec 5 := 0
  flips : BitVec 16 := 0
  payload : List Byte := []
deriving DecidableEq, Repr

/-- What read spot 0 measures of a written frame (R207): the best scores of the sync marks within 2 channel bits of their
expected positions, convergence of the LDPC decoder and its iterations, the hard decisions that differ from the written
codeword, and the ticks from the frame's last channel bit to this verdict. -/
structure FrameCheck where
  scoreA : BitVec 6 := 48
  scoreB : BitVec 6 := 48
  converged : Bool := true
  iter : BitVec 5 := 1
  errors : BitVec 16 := 0
  late : BitVec 6 := 0
deriving DecidableEq, Repr

/-- A frame position that does not read blank, as a search reads it (R182, R186): the payload that it decrypts to under the
domain key, empty where it does not decode. -/
structure FrameSeen where
  frame : BitVec 24
  payload : List Byte := []
deriving DecidableEq, Repr

/-- The frame positions of a layer that a search finds not blank; every other position that it comes to reads blank. -/
structure LayerSeen where
  side : Fin 2 := 0
  layer : BitVec 5 := 0
  reads : List FrameSeen := []
deriving DecidableEq, Repr

/-- What a rebuild attempt reads of a disc (R170, R326 to R328). -/
structure DiscFound where
  /-- The attempt failed: no clamp, no speed or no focus. -/
  failed : Bool := false
  /-- A frame of the layer control area. -/
  control : List Byte := [0x53, 0x50, 0x58, 0x44, 0x00, 0x01]
  layers : List LayerSeen := []
  /-- Units whose index record names an extent that the search cannot confirm (R327). -/
  lost : List UnitRef := []
deriving DecidableEq, Repr

/-- What a frame on a host port is, as far as the device acts on it (R340, R343, R345, R347, R357 to R359, R362, R373): an
IPv4 address stands in its IPv6-mapped form. -/
inductive FrameKind where
  | other
  /-- A PAUSE frame; a PFC frame, whose content PFC_FRAME_RX gives. -/
  | pause
  | pfc
  /-- A RoCEv2 packet of a session; an operation that the device does not support, with whether it is an RDMA operation aimed
  at the device. -/
  | roce (sid : BitVec 14)
  | roceBad (sid : BitVec 14) (access : Bool)
  /-- A Neighbour Solicitation or ARP request for an address; an advertisement or ARP reply that gives the sender's. -/
  | solicit (target : BitVec 128)
  | neighbour (addr : BitVec 128)
  /-- A Sync or Delay_Req; over UDP on IPv4 with a non-zero checksum. -/
  | ptpEvent (v4sum : Bool)
deriving DecidableEq, Repr

/-- A frame that arrives on a host port, with its tag (VID and PCP), its ECN field, the received KiB of the priority PRIO that the
buffer of its port holds then, and the time in 0.1 ns from its ingress to its egress timestamp. -/
structure Frame where
  dst : BitVec 48
  src : BitVec 48
  tag : Option (BitVec 12 × BitVec 3) := none
  len : BitVec 16 := 64
  fcsOk : Bool := true
  ecn : BitVec 2 := 0
  kind : FrameKind := .other
  rxOcc : BitVec 12 := 0
  residence : BitVec 32 := 0
deriving DecidableEq, Repr

/-- A message for the time client: an Announce with its data set, a Sync with the offset it gives in ns, a Delay_Resp that
ends an exchange (R360, R361). -/
inductive PtpMsg where
  | announce (domain prio1 cls acc : BitVec 8) (var : BitVec 16) (prio2 : BitVec 8) (id : BitVec 64) (steps : BitVec 16)
  | sync (offset : BitVec 32)
  | delayResp
deriving DecidableEq, Repr

/-- An answer to the device's RDMA operations (R362): ACK, and NAK for a sequence error, for a receiver not ready, and for a
remote access error on the host buffer of a command. -/
inductive AckKind where
  | ack | seqErr | rnr
  | access (cid : BitVec 16)
deriving DecidableEq, Repr

/-- A connection request (Table: Connection request private data), with what its transport part asks for, the sender's MAC
address, and whether PROOF is the one R367 gives. -/
structure ConnReq where
  mac : BitVec 48
  /-- The host's IP address: an IPv4 address in its IPv6-mapped form. -/
  ip : BitVec 128 := 0
  /-- Every transport option asked for is one of Table: Transport subset. -/
  options : Bool := true
  /-- MTU offered, in bytes, and the retry counts. -/
  mtu : BitVec 13
  retry : BitVec 3 := 7
  rnr : BitVec 3 := 7
  version : BitVec 16 := 1
  kind : BitVec 8
  zero : BitVec 8 := 0
  tenant : BitVec 16 := 0
  depth : BitVec 16
  cqAddr : BitVec 64 := 0
  cqEntries : BitVec 32 := 16
  proof : BitVec 128 := 0
  /-- Whether the proof verifies: DESIGN CHOICE (notes/assumptions/9.md, safe). -/
  proofOk : Bool := false
deriving DecidableEq, Repr

/-- The 64-bit pairs whose LO register latches the HI register (R59 and the register tables).
DEDUCED (notes/assumptions/13.md, unsafe). -/
inductive PairReg where
  | tickCount | epochTick | epochPtp | seenTag | meterBus | meterSum | activation | busEnergy | refreshLast
deriving DecidableEq, Repr

/-- The index-data registers whose accesses advance their index register (R519). -/
inductive IndexReg where
  | mapEntry | contract | tenantState | sessionState | meterNow | faultSource
deriving DecidableEq, Repr

/-- The commands of the block: one constructor per row of spec/opcode_table.json.
DESIGN CHOICE (notes/assumptions/1.md, safe). -/
inductive Instr where
  /-- POWER_ON_RESET (R493). -/
  | powerOnReset
  /-- RESET_PIN (R493). -/
  | resetPin
  /-- WATCHDOG_RESET (R496). -/
  | watchdogReset
  /-- BROWNOUT (R493). -/
  | brownout
  /-- POWER_GOOD (R497). -/
  | powerGood (a b : Bool)
  /-- JACK_STAGE_DONE (R502). -/
  | jackStageDone (ok : List Bool) (board : List Byte)
  /-- BOOT_COMPLETE (R506). -/
  | bootComplete
  /-- PORT_LINK_UP (R339). -/
  | portLinkUp (port : Fin 2)
  /-- PORT_LINK_DOWN (R339). -/
  | portLinkDown (port : Fin 2)
  /-- LINK_HI_SER (R339). -/
  | linkHiSer (port : Fin 2)
  /-- PORT_ENABLE (R339). -/
  | portEnable (p : Path) (port : Fin 2) (en : Bool)
  /-- D2D_FLIT_CRC_FAIL (R19). -/
  | d2dFlitCrcFail (side : Fin 2) (failed : Fin 5)
  /-- D2D_LINK_LOSS (R21). -/
  | d2dLinkLoss (side : Fin 2)
  /-- TICK_BOUNDARY (R31). -/
  | tickBoundary (x : Samples)
  /-- TICK_OVERRUN (R103). -/
  | tickOverrun (arg : BitVec 8)
  /-- FOLLOW_ERR (R96). -/
  | followErr (n : Fin 48)
  /-- PTP_SECOND (R60). -/
  | ptpSecond (phase rate : BitVec 32) (sec : BitVec 48)
  /-- PTP_VALIDITY_CHANGE (R64). -/
  | ptpValidityChange (valid : Bool)
  /-- EPOCH_BOUNDARY (R67). -/
  | epochBoundary
  /-- METER_MINUTE_CLOSE (R424). -/
  | meterMinuteClose
  /-- SYNC_IN_PULSE (R97). -/
  | syncInPulse (frac : BitVec 11) (falling : Bool)
  /-- SYNC_TIMEOUT (R98). -/
  | syncTimeout
  /-- CE_AUX_ENABLE (R100). -/
  | ceAuxEnable (p : Path) (slot : BitVec 6) (en : Bool)
  /-- CE_PAGE_WRITE (R113). -/
  | cePageWrite (p : Path) (n : Fin 48) (w : Fin 64) (v : Word)
  /-- WBUF_GATE (R114). -/
  | wbufGate (p : Path) (gate : Bool)
  /-- TRACE_ARM (R110). -/
  | traceArm (p : Path) (n : Fin 4)
  /-- TRACE_FORCE (R109). -/
  | traceForce (p : Path) (n : Fin 4)
  /-- TRACE_ACK (R111). -/
  | traceAck (p : Path) (n : Fin 4)
  /-- TRACE_DONE (R111). -/
  | traceDone (n : Fin 4)
  /-- TRACE_RDATA_READ (R112). -/
  | traceRdataRead (p : Path) (n : Fin 4)
  /-- LATCHED_PAIR_READ (R59). -/
  | latchedPairRead (p : Path) (pair : PairReg)
  /-- INDEX_DATA_ACCESS (R519). -/
  | indexDataAccess (p : Path) (reg : IndexReg) (write : Option Word)
  /-- MODE_REQ_PROVISION (R34). -/
  | modeReqProvision (p : Path)
  /-- MODE_REQ_SERVE (R34). -/
  | modeReqServe (p : Path)
  /-- MODE_REQ_DRAIN (R36). -/
  | modeReqDrain (p : Path)
  /-- MODE_REQ_MAINTAIN (R36). -/
  | modeReqMaintain (p : Path)
  /-- MODE_REQ_OTHER (R35). -/
  | modeReqOther (p : Path) (target : BitVec 4)
  /-- MODE_REQUEST_DECIDE (R51). -/
  | modeRequestDecide
  /-- DRAIN_COMPLETE (R44). -/
  | drainComplete
  /-- ACTIVATION_INSTANT (R38). -/
  | activationInstant
  /-- ACT_DRAIN_TMO (R417). -/
  | actDrainTmo
  /-- SAFE_STOP_BRIDGES_OFF (R565). -/
  | safeStopBridgesOff
  /-- SYS_RST (R55). -/
  | sysRst (p : Path) (key : BitVec 16) (devRst : Bool)
  /-- RECOVERING_END (R49). -/
  | recoveringEnd
  /-- ACQUIRE (R138). -/
  | acquire (p : Path) (n : Fin 4) (layer : BitVec 5) (turn : BitVec 18)
  /-- LAYER_JUMP (R141). -/
  | layerJump (p : Path) (n : Fin 4) (layer : BitVec 5)
  /-- SEEK (R149). -/
  | seek (p : Path) (n : Fin 4) (turn : BitVec 18)
  /-- OPU_PARK (R161). -/
  | opuPark (p : Path) (n : Fin 4)
  /-- READ_MODE (R133). -/
  | readMode (p : Path) (n : Fin 4)
  /-- WRITE_MODE (R133). -/
  | writeMode (p : Path) (n : Fin 4)
  /-- OPU_ENABLE (R134). -/
  | opuEnable (p : Path) (n : Fin 4) (en : Bool)
  /-- WI_FORCE (R155). -/
  | wiForce (p : Path) (n : Fin 4)
  /-- FOCUS_CAPTURE (R119). -/
  | focusCapture (n : Fin 4)
  /-- FOCUS_SWEEP_END (R138). -/
  | focusSweepEnd (n : Fin 4)
  /-- SA_SETTLE_DONE (R121). -/
  | saSettleDone (n : Fin 4)
  /-- LJ_CAPTURE (R143). -/
  | ljCapture (n : Fin 4)
  /-- LAYER_JUMP_DONE (R144). -/
  | layerJumpDone (n : Fin 4)
  /-- LJ_TIMEOUT (R146). -/
  | ljTimeout (n : Fin 4)
  /-- SEEK_COMPLETE (R150). -/
  | seekComplete (n : Fin 4)
  /-- SERVO_FIELD (R123). -/
  | servoField (n k : Fin 4) (r : FieldRead)
  /-- SFIELD_LOSS (R125). -/
  | sfieldLoss (n : Fin 4)
  /-- DEFECT_DROPOUT_START (R151). -/
  | defectDropoutStart (n : Fin 4) (env : BitVec 14)
  /-- DEFECT_DROPOUT_END (R151). -/
  | defectDropoutEnd (n : Fin 4) (env : BitVec 14)
  /-- DEFECT_HOLD_EXPIRY (R152). -/
  | defectHoldExpiry (n : Fin 4)
  /-- REACQ_DONE (R153). -/
  | reacqDone (n : Fin 4)
  /-- LENS_RANGE (R132). -/
  | lensRange (n : Fin 4)
  /-- WRITE_INHIBIT (R156). -/
  | writeInhibit (n : Fin 4) (pp : BitVec 16) (shockX shockY : BitVec 12)
  /-- WRITE_INHIBIT_REARM (R157). -/
  | writeInhibitRearm (n : Fin 4)
  /-- LASER_FAULT (R160). -/
  | laserFault (n : Fin 4) (write : Bool)
  /-- PU_OVERTEMP (R160). -/
  | puOvertemp (n : Fin 4)
  /-- FRAME_RECEIVED (R190). -/
  | frameReceived (k : Fin 16) (frame : BitVec 24) (r : FrameRead)
  /-- LDPC_ATTEMPT_DONE (R196). -/
  | ldpcAttemptDone (k : Fin 16) (e : Fin 2) (r : LdpcResult)
  /-- LADDER_RUNG_DONE (R212). -/
  | ladderRungDone (n : Fin 4) (first : BitVec 24)
  /-- RELOCATION_WRITE (R216). -/
  | relocationWrite (n : Fin 4)
  /-- EXTENT_WRITE_START (R203). -/
  | extentWriteStart (n : Fin 4)
  /-- OPC_DONE (R206). -/
  | opcDone (n : Fin 4) (errors : List (BitVec 16)) (area : Bool) (control : List Byte)
  /-- OPC_ACK (R206). -/
  | opcAck (p : Path) (n : Fin 4)
  /-- OPC_STAT_READ (R206). -/
  | opcStatRead (p : Path) (n : Fin 4)
  /-- VERIFY_VERDICT (R207). -/
  | verifyVerdict (n : Fin 4) (frame : BitVec 11) (r : FrameCheck)
  /-- COMMIT_RECORD_VERDICT (R210). -/
  | commitRecordVerdict (n : Fin 4) (r : FrameCheck)
  /-- WRITE_FRONT_SEARCH (R186). -/
  | writeFrontSearch (n : Fin 4) (layer : BitVec 5) (reads : List FrameSeen)
  /-- INDEX_FRAME_WRITE (R184). -/
  | indexFrameWrite (n : Fin 4) (layer : BitVec 5) (r : FrameCheck)
  /-- INDEX_AGE_EXPIRY (R184). -/
  | indexAgeExpiry (slot : BitVec 5) (side : Fin 2) (layer : BitVec 5)
  /-- SPIN (R645). -/
  | spin (p : Path) (st : Fin 2) (target : BitVec 16)
  /-- SPN_STOP (R645). -/
  | spnStop (p : Path) (st : Fin 2)
  /-- COAST (R645). -/
  | coast (p : Path) (st : Fin 2)
  /-- SPN_ENABLE (R236). -/
  | spnEnable (p : Path) (st : Fin 2) (en : Bool)
  /-- ALIGN_DONE (R229). -/
  | alignDone (st : Fin 2) (slopes : Vector (BitVec 16) 6)
  /-- ENCODER_INDEX (R227). -/
  | encoderIndex (st : Fin 2) (count : BitVec 17)
  /-- ENC_LOST (R226). -/
  | encLost (st : Fin 2)
  /-- OBSERVER_INVALID (R232). -/
  | observerInvalid (st : Fin 2)
  /-- ROTOR_DISAGREE (R233). -/
  | rotorDisagree (st : Fin 2)
  /-- ROTOR_LOST (R246). -/
  | rotorLost (st : Fin 2)
  /-- RECATCH_SUCCESS (R246). -/
  | recatchSuccess (st : Fin 2) (speeds : Vector (BitVec 16) 3) (agree : BitVec 8)
  /-- RECATCH_TIMEOUT (R246). -/
  | recatchTimeout (st : Fin 2)
  /-- SHORT_BRAKE_START (R246). -/
  | shortBrakeStart (st : Fin 2)
  /-- SHORT_BRAKE_END (R246). -/
  | shortBrakeEnd (st : Fin 2)
  /-- SPN_OVERCURRENT (R224). -/
  | spnOvercurrent (st : Fin 2) (leg : Fin 3)
  /-- AT_SPEED (R241). -/
  | atSpeed (st : Fin 2)
  /-- STOPPED (R236). -/
  | stopped (st : Fin 2)
  /-- SPIN_TMO (R243). -/
  | spinTmo (st : Fin 2)
  /-- KE_CHECK (R245). -/
  | keCheck (st : Fin 2)
  /-- VBUS_THRESHOLD (R250). -/
  | vbusThreshold (vbus : BitVec 16)
  /-- VBUS_90V (R250). -/
  | vbus90v (vbus : BitVec 16)
  /-- UVLO (R253). -/
  | uvlo (vbus : BitVec 16)
  /-- HOLDUP_END (R253). -/
  | holdupEnd (st : Fin 2)
  /-- CHOPPER_TEST_PULSE (R251). -/
  | chopperTestPulse (ma : BitVec 16)
  /-- BRK_STUCK (R252). -/
  | brkStuck (ma : BitVec 16)
  /-- VIN_REVERSE (R614). -/
  | vinReverse
  /-- VIN_REVERSE_CLEAR (R614). -/
  | vinReverseClear
  /-- BRK_HOT (R617). -/
  | brkHot
  /-- RAIL_FAULT (R619). -/
  | railFault (rail : Fin 2)
  /-- TJ_THRESHOLD (R625). -/
  | tjThreshold (die : Fin 2) (temp : BitVec 8)
  /-- TJ_HW_TRIP (R625). -/
  | tjHwTrip (die : Fin 2)
  /-- AX_START (R271). -/
  | axStart (p : Path) (a : Fin 7)
  /-- AX_STOP (R272). -/
  | axStop (p : Path) (a : Fin 7)
  /-- ESTOP (R272). -/
  | estop (p : Path) (a : Fin 7)
  /-- AX_HOME (R282). -/
  | axHome (p : Path) (a : Fin 7)
  /-- AX_PARK (R275). -/
  | axPark (p : Path) (a : Fin 7)
  /-- AX_MODE (R273). -/
  | axMode (p : Path) (a : Fin 7) (mode : BitVec 2)
  /-- AX_ENABLE (R272). -/
  | axEnable (p : Path) (a : Fin 7) (en : Bool)
  /-- AX_PROFILE_WRITE (R269). -/
  | axProfileWrite (p : Path) (a : Fin 7) (w : Fin 5) (v : Word)
  /-- AX_MOVE_DONE (R266). -/
  | axMoveDone (a : Fin 7)
  /-- AX_OVERCURRENT (R262). -/
  | axOvercurrent (a : Fin 7)
  /-- LIMIT_SWITCH_CHANGE (R280). -/
  | limitSwitchChange (a : Fin 7) (input : Fin 3) (active : Bool)
  /-- LIMIT_CHATTER (R280). -/
  | limitChatter (a : Fin 7) (input : Fin 3)
  /-- AX_DETENT (R265). -/
  | axDetent (a : Fin 7)
  /-- GEAR_CHANGE (R274). -/
  | gearChange (a : Fin 4)
  /-- HOME_ALL (R643). -/
  | homeAll (p : Path)
  /-- MOVE_ZX (R277). -/
  | moveZx (p : Path)
  /-- LOAD (R643). -/
  | load (p : Path) (st : Fin 2) (slot : BitVec 5)
  /-- UNLOAD (R643). -/
  | unload (p : Path) (st : Fin 2)
  /-- EXCHANGE (R286). -/
  | exchange (p : Path) (st : Fin 2) (slot : BitVec 5)
  /-- RECOVER (R290). -/
  | recover (p : Path)
  /-- EXCHANGE_STEP_DONE (R286). -/
  | exchangeStepDone
  /-- GRIP_FAIL (R288). -/
  | gripFail
  /-- PICKER_WDOG (R293). -/
  | pickerWdog
  /-- UNIT_PLACE (R299). -/
  | unitPlace
  /-- HINT_REQ (R321). -/
  | hintReq (h : PeerHdr) (asks : List UnitRef)
  /-- HINT (R322). -/
  | hint (h : PeerHdr) (held : Bool) (ver seq : BitVec 32) (energy : BitVec 48) (start : BitVec 32)
  /-- BID_REQ (R304). -/
  | bidReq (h : PeerHdr) (u : UnitRef) (policy : BitVec 32)
  /-- BID (R306). -/
  | bid (h : PeerHdr) (refusal : Option (BitVec 16)) (energy : BitVec 48) (start : BitVec 32)
  /-- BID_TIMEOUT (R306). -/
  | bidTimeout (xid : BitVec 32)
  /-- AWARD (R308). -/
  | award (h : PeerHdr)
  /-- PEER_DATA (R319). -/
  | peerData (h : PeerHdr) (seg total : BitVec 13) (data : List Byte) (len : BitVec 23) (flags : BitVec 8)
  /-- DATA_ACK (R319). -/
  | dataAck (h : PeerHdr) (segs : List (BitVec 13))
  /-- DATA_RETRANSMIT (R319). -/
  | dataRetransmit (xid : BitVec 32)
  /-- PROGRESS (R308). -/
  | progress (h : PeerHdr)
  /-- PEER_COMMITTED (R310). -/
  | peerCommitted (h : PeerHdr) (hdr : BitVec 32)
  /-- PEER_FAILED (R309). -/
  | peerFailed (h : PeerHdr) (reason : BitVec 16)
  /-- PROG_TMO (R308). -/
  | progTmo (xid : BitVec 32) (dev : BitVec 9)
  /-- READ_REQ (R43). -/
  | readReq (h : PeerHdr) (u : UnitRef) (start len : BitVec 23)
  /-- NACK (R315). -/
  | nack (h : PeerHdr) (reason : BitVec 16)
  /-- TOMB (R330). -/
  | tomb (h : PeerHdr) (u : UnitRef) (whole : Bool)
  /-- TOMB_ACK (R330). -/
  | tombAck (h : PeerHdr)
  /-- HINT_TIMEOUT (R320). -/
  | hintTimeout (xid : BitVec 32)
  /-- PEER_DOWN_HOLD_EXPIRY (R320). -/
  | peerDownHoldExpiry (dev : BitVec 9)
  /-- REREPLICATION_START (R311). -/
  | rereplicationStart
  /-- REBUILD_DISC (R326). -/
  | rebuildDisc (slot : BitVec 5) (r : DiscFound)
  /-- UNREACHED_SLOT_REBUILD (R328). -/
  | unreachedSlotRebuild (slot : BitVec 5)
  /-- MIGRATION_START (R333). -/
  | migrationStart (p : Path) (slot : BitVec 5)
  /-- MIGRATION_STOP (R333). -/
  | migrationStop (p : Path)
  /-- HOST_FRAME_RX (R347). -/
  | hostFrameRx (port : Fin 2) (f : Frame)
  /-- PFC_FRAME_RX (R374). -/
  | pfcFrameRx (port : Fin 2) (prio : BitVec 3) (quanta : BitVec 16)
  /-- LEARN_AGE_OUT (R353). -/
  | learnAgeOut (mac : BitVec 48)
  /-- NEIGHBOUR_AGE_OUT (R344). -/
  | neighbourAgeOut (addr : BitVec 128)
  /-- ANNOUNCE_TIMER (R354). -/
  | announceTimer
  /-- PTP_MESSAGE_RX (R360). -/
  | ptpMessageRx (port : Fin 2) (m : PtpMsg)
  /-- PTP_ANNOUNCE_TIMEOUT (R361). -/
  | ptpAnnounceTimeout (port : Fin 2)
  /-- ROCE_SEND (R363). -/
  | roceSend (sid : BitVec 14) (len : BitVec 16) (items : List (BitVec 8 × Entry))
  /-- ROCE_ACK_RX (R362). -/
  | roceAckRx (sid : BitVec 14) (k : AckKind)
  /-- RDMA_READ_RESPONSE (R362). -/
  | rdmaReadResponse (sid : BitVec 14) (cid : BitVec 16) (data : List Byte) (ok : Bool)
  /-- ROCE_RETRY_EXHAUSTED (R370). -/
  | roceRetryExhausted (sid : BitVec 14)
  /-- CNP_RX (R373). -/
  | cnpRx (sid : BitVec 14)
  /-- DCQCN_ALPHA_TIMER (R373). -/
  | dcqcnAlphaTimer (sid : BitVec 14)
  /-- DCQCN_RATE_TIMER (R373). -/
  | dcqcnRateTimer (sid : BitVec 14) (mib10 : BitVec 8)
  /-- CM_REQ (R368). -/
  | cmReq (r : ConnReq)
  /-- CM_RTU (R365). -/
  | cmRtu (sid : BitVec 14)
  /-- CM_DREQ (R415). -/
  | cmDreq (sid : BitVec 14)
  /-- CM_DREP (R365). -/
  | cmDrep (sid : BitVec 14)
  /-- SVC_PLCA (R379). -/
  | svcPlca (clash : Bool)
  /-- PUT (R402). -/
  | put (p : Path) (e : Entry)
  /-- GET (R404). -/
  | get (p : Path) (e : Entry)
  /-- SEAL (R406). -/
  | seal (p : Path) (e : Entry)
  /-- DELETE (R407). -/
  | delete (p : Path) (e : Entry)
  /-- DELETE_TENANT (R331). -/
  | deleteTenant (p : Path) (e : Entry)
  /-- FLUSH (R400). -/
  | flush (p : Path) (e : Entry)
  /-- FLUSH_ALL (R401). -/
  | flushAll (p : Path) (e : Entry)
  /-- STAT (R408). -/
  | stat (p : Path) (e : Entry)
  /-- LIST (R408). -/
  | list (p : Path) (e : Entry)
  /-- RESERVE (R409). -/
  | reserve (p : Path) (e : Entry)
  /-- QUEUE_RESTART (R411). -/
  | queueRestart (p : Path) (e : Entry)
  /-- IDENTIFY (R41). -/
  | identify (p : Path) (e : Entry)
  /-- SELF_TEST_SHORT (R418). -/
  | selfTestShort (p : Path) (e : Entry)
  /-- SELF_TEST_EXTENDED (R418). -/
  | selfTestExtended (p : Path) (e : Entry)
  /-- SELF_TEST_ABORT (R418). -/
  | selfTestAbort (p : Path) (e : Entry)
  /-- SELF_TEST_STEP (R419). -/
  | selfTestStep (ok : Bool) (src : BitVec 10) (finished : Bool) (bad : List UnitRef)
  /-- SELF_TEST_ACK (R420). -/
  | selfTestAck (p : Path)
  /-- GET_LOG (R412). -/
  | getLog (p : Path) (e : Entry)
  /-- METER_READ (R428). -/
  | meterRead (p : Path) (e : Entry)
  /-- METER_ACK (R428). -/
  | meterAck (p : Path) (e : Entry)
  /-- ATTEST_REQUEST (R588). -/
  | attestRequest (p : Path) (e : Entry) (nonce : BitVec 256)
  /-- ATTEST_FETCH (R592). -/
  | attestFetch (p : Path) (e : Entry)
  /-- QUOTE_SIGNED (R590). -/
  | quoteSigned (signature : List Byte)
  /-- REG_READ (R519). -/
  | regRead (p : Path) (e : Entry)
  /-- REG_WRITE (R13). -/
  | regWrite (p : Path) (e : Entry)
  /-- TXN_BEGIN (R521). -/
  | txnBegin (p : Path) (e : Entry)
  /-- TXN_COMMIT (R524). -/
  | txnCommit (p : Path) (e : Entry)
  /-- TXN_APPLY (R526). -/
  | txnApply (d : Fin 4)
  /-- TXN_ROLLBACK (R527). -/
  | txnRollback (p : Path) (e : Entry)
  /-- TXN_TIMEOUT (R528). -/
  | txnTimeout (d : Fin 4)
  /-- KEY_LOAD (R594). -/
  | keyLoad (p : Path) (e : Entry) (blob : List Byte)
  /-- CAL_SAVE (R544). -/
  | calSave (p : Path) (e : Entry)
  /-- CAL_LOAD (R545). -/
  | calLoad (p : Path) (e : Entry) (blob : List Byte)
  /-- CAL_LOAD_APPLY (R548). -/
  | calLoadApply (st : Fin 2)
  /-- ACTIVATE_AT (R602). -/
  | activateAt (p : Path) (e : Entry)
  /-- DEFERRED_COMMAND_START (R394). -/
  | deferredCommandStart (st : Fin 2)
  /-- JOB_END (R431). -/
  | jobEnd (st : Fin 2) (delivered : List (Option Word))
  /-- PARK_TIMEOUT (R445). -/
  | parkTimeout (st : Fin 2)
  /-- STN_WDOG (R447). -/
  | stnWdog (st : Fin 2)
  /-- INV_LINE (R455). -/
  | invLine (p : Path)
  /-- INV_RANGE (R458). -/
  | invRange (p : Path)
  /-- INV_ALL (R455). -/
  | invAll (p : Path)
  /-- LOCK (R454). -/
  | lock (p : Path)
  /-- UNLOCK (R456). -/
  | unlock (p : Path)
  /-- UNLOCK_ALL (R455). -/
  | unlockAll (p : Path)
  /-- CCH_MAINT_DONE (R456). -/
  | cchMaintDone
  /-- CACHE_READ (R450). -/
  | cacheRead (addr : BitVec 34)
  /-- CACHE_WRITE (R451). -/
  | cacheWrite (addr : BitVec 34) (bytes : List Byte)
  /-- CACHE_FILL_DONE (R452). -/
  | cacheFillDone
  /-- DRAM_READ (R469). -/
  | dramRead (addr : BitVec 34) (upset : BitVec 272)
  /-- DRAM_PARTIAL_WRITE (R467). -/
  | dramPartialWrite (addr : BitVec 34) (bytes : List Byte) (upset : BitVec 272)
  /-- SRAM_READ (R462). -/
  | sramRead (id : Fin 9) (offset : BitVec 24) (upset : BitVec 13)
  /-- WRITE_RAW (R473). -/
  | writeRaw (p : Path) (target : BitVec 4)
  /-- READ_RAW (R473). -/
  | readRaw (p : Path) (target : BitVec 4)
  /-- READ_CORR (R473). -/
  | readCorr (p : Path) (target : BitVec 4)
  /-- FLASH_READ (R477). -/
  | flashRead (by_ : Option Path) (tag : BitVec 8) (addr : BitVec 24) (len : BitVec 25)
  /-- FLASH_CHECK (R477). -/
  | flashCheck (by_ : Option Path) (tag : BitVec 8) (addr : BitVec 24) (len : BitVec 25)
  /-- FLASH_BLANK_CHECK (R477). -/
  | flashBlankCheck (by_ : Option Path) (tag : BitVec 8) (addr : BitVec 24) (len : BitVec 25)
  /-- FLASH_PROGRAM (R479). -/
  | flashProgram (urgent : Bool) (addr : BitVec 24) (data : List Byte)
  /-- FLASH_ERASE (R484). -/
  | flashErase (addr : BitVec 24)
  /-- FLASH_OP_DONE (R478). -/
  | flashOpDone (reading ok : Bool) (upset : List (BitVec 24 × BitVec 137))
  /-- FL_CMPL_READ (R477). -/
  | flCmplRead (p : Path)
  /-- FL_REFRESH_START (R490). -/
  | flRefreshStart (p : Path)
  /-- FL_REFRESH_STOP (R491). -/
  | flRefreshStop (p : Path)
  /-- FLASH_REFRESH_DUE (R489). -/
  | flashRefreshDue
  /-- CAL_START (R539). -/
  | calStart (p : Path) (mask : BitVec 10) (autoEn : Bool) (stn : Fin 2)
  /-- CAL_ABORT (R542). -/
  | calAbort (p : Path)
  /-- CAL_ACK (R543). -/
  | calAck (p : Path)
  /-- CAL_PROCEDURE_DONE (R536). -/
  | calProcedureDone (proc : Fin 10) (stn : Fin 2) (words : List Word) (offs : List (BitVec 16))
  /-- AUTO_CAMPAIGN_START (R547). -/
  | autoCampaignStart (st : Fin 2)
  /-- FAULT_MESSAGE (R552). -/
  | faultMessage (src : BitVec 10) (kind : BitVec 6) (arg : BitVec 16)
  /-- STN_HOLD_EXPIRY (R560). -/
  | stnHoldExpiry (st : Fin 2)
  /-- FLT_STN_REL (R560). -/
  | fltStnRel (p : Path) (st : Fin 2)
  /-- FLT_INJECT (R562). -/
  | fltInject (p : Path)
  /-- FLT_SEV_WRITE (R555). -/
  | fltSevWrite (p : Path) (v : Word)
  /-- FALLBACK_MESSAGE (R564). -/
  | fallbackMessage (src : BitVec 10) (kind : BitVec 6) (arg : BitVec 16)
  /-- HEDGEHOG_SLICE (R567). -/
  | hedgehogSlice (ok : Bool) (msgs : List (BitVec 6 × BitVec 16))
  /-- HEDGEHOG_CYCLE_START (R567). -/
  | hedgehogCycleStart
  /-- RUN_NOW (R567). -/
  | runNow (p : Path)
  /-- BIST_SCAN_START (R572). -/
  | bistScanStart (p : Path)
  /-- OWL_FREEZE (R574). -/
  | owlFreeze
  /-- OWL_RELEASE (R574). -/
  | owlRelease (p : Path)
  /-- OWL_FLUSH_ACK (R577). -/
  | owlFlushAck (p : Path)
  /-- OWL_MARK (R573). -/
  | owlMark (p : Path) (v : Word)
  /-- GET_CHALLENGE (R581). -/
  | getChallenge
  /-- TO_FIELD (R580). -/
  | toField (confirm : Word) (fuseOk : Bool)
  /-- ISSUE (R586). -/
  | issue (fuseOk : Bool)
  /-- RETURN (R583). -/
  | returnPart (fuseOk : Bool)
  /-- DEBUG_OPEN (R584). -/
  | debugOpen
  /-- REVOKE_SLOT (R599). -/
  | revokeSlot (fuseOk : Bool)
  /-- META (R377). -/
  | metaMessage
  /-- UPD_CHUNK (R598). -/
  | updChunk (bundle index count : Word) (dataLen : BitVec 16) (data : List Byte)
  /-- BUNDLE_VERDICT (R601). -/
  | bundleVerdict
  /-- ACTIVATION_WRITE_START (R605). -/
  | activationWriteStart
  /-- COMPONENT_WRITTEN (R606). -/
  | componentWritten
  /-- TRNG_FAIL (R610). -/
  | trngFail (test : BitVec 16)
  /-- LOGIC_SCAN_END (R572). -/
  | logicScanEnd (fail : Bool) (patterns : BitVec 29)
  /-- PEER_READ_TIMEOUT (R323). -/
  | peerReadTimeout (xid : BitVec 32)
  /-- AUTO_NEGOTIATION_DONE (R337). -/
  | autoNegotiationDone (port : Fin 2) (ok : Bool)
  /-- LINK_TRAINING_DONE (R339). -/
  | linkTrainingDone (port : Fin 2)
  /-- SERVICE_PHY_LINK_CHANGE (R375). -/
  | servicePhyLinkChange (up : Bool)
  /-- ACK_TIMEOUT_RETRY (R370). -/
  | ackTimeoutRetry (sid : BitVec 14)
  /-- CAL_RES_READ (R543). -/
  | calResRead (p : Path)
  /-- BIST_SCAN_STAT_READ (R420). -/
  | bistScanStatRead (p : Path)
deriving DecidableEq, Repr

end Sys2Proof
end

