-- ==== Sys2Proof/Decode.lean ====
section
/-!
DEFINITION. Commands as words. The block has no instruction encoding: no row of spec/opcode_table.json gives bits
("fields" is empty in each), so no word spells a command.
-/

namespace Sys2Proof

/-- The command that a word spells by the table's bits: none, because no row of the table gives bits.
DESIGN CHOICE (notes/assumptions/3.md, safe). -/
def decodeTableWord (_nbits _w : Nat) : Option Instr := none

end Sys2Proof
end

