-- ==== Sys2Proof/Config.lean ====
section
/-!
DEFINITION. What an implementation fixes and what the spec leaves open. A free value is an opaque constant: nothing can
prove a value of it, so a statement about it holds for every value. The cryptographic functions the spec names by their
standards are opaque too: their outputs are not computed here.
-/

namespace Sys2Proof.Config

/-- The n-th free value of a run, as a word (notes/assumptions).
DESIGN CHOICE (notes/assumptions/8.md, safe).
PRESUMED (notes/assumptions/22.md, safe). -/
opaque freeWord : Nat → Word

/-- The first 512 bits that SHAKE256 gives of a byte string, first byte in bits 7:0. A shorter output is its low bits.
DESIGN CHOICE (notes/assumptions/9.md, safe). -/
opaque shake256 (data : List Byte) : BitVec 512

/-- The serial number and the MAC address fused at the factory (R640).
DESIGN CHOICE (notes/assumptions/10.md, safe). -/
opaque fuseSerial : Nat → Word
opaque fuseMac : BitVec 48

/-- The version words of the factory release, by component type, with the minimum interface levels and CAL_FORMAT that its
headers state: not fixed by the manual (R640).
DESIGN CHOICE (notes/assumptions/6.md, unsafe). -/
opaque factoryVersion : Nat → BitVec 64
opaque factoryMin : Nat → Nat → BitVec 16
opaque factoryCalFormat : BitVec 16

/-- The bytes of the flash that the factory wrote: twins, images and the certificate record.
DESIGN CHOICE (notes/assumptions/6.md, unsafe). -/
opaque factoryByte : Nat → Byte

/-- The encapsulation key of the n-th ephemeral key pair (R593).
DESIGN CHOICE (notes/assumptions/9.md, safe). -/
opaque ekBytes : Nat → List Byte

/-- The shared secret that decapsulation under the n-th ephemeral key pair gives of a ciphertext (R594).
DESIGN CHOICE (notes/assumptions/9.md, safe). -/
opaque decaps : Nat → List Byte → List Byte

/-- AES key unwrap under a key-encryption key (R594): the key, or none when the integrity check fails.
DESIGN CHOICE (notes/assumptions/9.md, safe). -/
opaque keyUnwrap : BitVec 256 → List Byte → Option (BitVec 256)

/-- AES-256-XTS of one data unit under a key with a tweak, and its inverse (R181).
DESIGN CHOICE (notes/assumptions/9.md, safe). -/
opaque xtsEnc : BitVec 256 → BitVec 128 → List Byte → List Byte
opaque xtsDec : BitVec 256 → BitVec 128 → List Byte → List Byte

/-- The digests in the boot ROM: the image keys by slot, and the authorisation key as slot 4 (R599).
DESIGN CHOICE (notes/assumptions/9.md, safe). -/
opaque romKey : Nat → BitVec 256

/-- Verification of an SLH-DSA-SHAKE-256s signature: public key, message, signature (R601).
DESIGN CHOICE (notes/assumptions/9.md, safe). -/
opaque sigVerify : List Byte → List Byte → List Byte → Bool

/-- What a front-monitor gain word stands for in 0.1 µA per mW, and what an offset of shunt amplifier `k` stands for in mA:
the manual bounds both and gives no scale (Table: Calibration procedures).
DESIGN CHOICE (notes/assumptions/10.md, safe). -/
opaque monitorGain : Word → Nat
opaque shuntOffset : Nat → Int → Int

/-- The correction added to a forwarded PTP event message, in 0.1 ns: the time from its ingress to its egress timestamp and
the two ports' NET_PORT_ASYM enter it, and the manual does not state with which sign (R358).
DESIGN CHOICE (notes/assumptions/10.md, safe). -/
opaque residence : Nat → Int → Int → Int

/-- The tilt slope of a pickup in mrad: the manual names it and gives no register that holds it (Table: Derived pickup
measurements).
DESIGN CHOICE (notes/assumptions/10.md, safe). -/
opaque tiltSlope : Nat → Rat

/-- What one unit of a corrected front-monitor result stands for in mW: no scale is given (Table: Derived pickup measurements).
DESIGN CHOICE (notes/assumptions/10.md, safe). -/
opaque monitorScale : Rat

/-- Pickup temperature in 0.1 °C that a corrected thermistor result stands for, by the B value of the board descriptor: the
thermistor's curve is not given (R115, R510).
DESIGN CHOICE (notes/assumptions/10.md, safe). -/
opaque pickupTemp : Nat → Rat → BitVec 16

/-- The calibrated start and end currents of a pickup's focus coil, the current for 1 µm of its lens, and how far a local ramp has come
after some ticks, from -1 to 1: the manual names them and gives no register and no course (Focus acquisition, R153).
DESIGN CHOICE (notes/assumptions/10.md, safe). -/
opaque focusEnds : Nat → Rat × Rat
opaque focusPerUm : Nat → Rat
opaque localRamp : Nat → Rat

/-- One step of the low pass of the tracking coil current, and the lens offset in 0.01 µm that its result stands for: neither
the filter nor the scale is given (R132).
DESIGN CHOICE (notes/assumptions/10.md, safe). -/
opaque lensLowPass : Word → Word → Word
opaque lensOffset : Word → BitVec 16

/-- The sine of an angle in degrees, as the reference of a leg uses it: its precision is not given (R222).
DESIGN CHOICE (notes/assumptions/10.md, safe). -/
opaque sine : Rat → Rat

/-- One adaptation of a spot's equaliser taps towards the PR(1,2,2,1) target by least mean squares: step exponent, taps,
samples; and of the crosstalk canceller's coefficients: step exponent, coefficients, the spot's samples and those, aligned to them,
of the inner and the outer neighbour. The arithmetic is not given (Table: Detection chain per spot).
DESIGN CHOICE (notes/assumptions/10.md, safe). -/
opaque equaliserStep : Nat → List Word → List Nat → List Word
opaque cancellerStep : Nat → List Word → List Nat → List Nat → List Nat → List Word

end Sys2Proof.Config
end

