-- ==== Sys2Proof/Machine/RegMap.lean ====
section
/-!
DEFINITION. The register map (R9 to R12, R637 to R639): the address of every register and the place of every field,
under the spec's own names, and the table of rows from which a register's reset word and its fields' access codes are
read. Each block's names and rows follow the register tables of that block's chapter; the reset words agree with
17_register_index.md. The two CE_PAGE rows give the reset word of every page word; what a write of a page word does is
said in Machine/Ce.lean (R113, R641). Each block's registers lie in its own register block (R24); SYS_ID and SYS_STEP read
what every part of step B0 reads (R5, R6).
-/

namespace Sys2Proof.Machine

/-- The access codes of R11. -/
inductive Access where
  | ro | rw | rws | w1c | wo
deriving DecidableEq, Repr

/-- The place of one field: the address of its register and its highest and lowest bit. -/
structure Fld where
  addr : Nat
  hi : Nat
  lo : Nat
deriving DecidableEq, Repr

/-- The bits of a field and its access code. -/
structure FieldRow where
  hi : Nat
  lo : Nat
  acc : Access
deriving DecidableEq, Repr

/-- A field of `n` flags that a written 1 clears one by one (R11). -/
def bitRows (n : Nat) : List FieldRow := (List.range n).map fun k => ⟨k, k, .w1c⟩

/-- One row of the register map: first address, strides and counts of its instances (greatest stride first), reset
word (R638) and the fields that a write can act on. Bits of no listed field are RO. -/
structure RegRow where
  name : String
  base : Nat
  dims : List (Nat × Nat)
  reset : Nat
  fields : List FieldRow
deriving DecidableEq, Repr


/-! ### SYS registers -/

abbrev SYS_ID : Nat := 0x0
abbrev SYS_ID_ID : Fld := ⟨SYS_ID, 31, 0⟩
abbrev SYS_STEP : Nat := 0x4
abbrev SYS_STEP_STEP : Fld := ⟨SYS_STEP, 7, 0⟩
abbrev SYS_MODE : Nat := 0x8
abbrev SYS_MODE_CAUSE : Fld := ⟨SYS_MODE, 11, 8⟩
abbrev SYS_MODE_PREV : Fld := ⟨SYS_MODE, 7, 4⟩
abbrev SYS_MODE_MODE : Fld := ⟨SYS_MODE, 3, 0⟩
abbrev SYS_MODE_REQ : Nat := 0xC
abbrev SYS_MODE_REQ_TARGET : Fld := ⟨SYS_MODE_REQ, 3, 0⟩
abbrev SYS_MODE_RES : Nat := 0x10
abbrev SYS_MODE_RES_SUP_SEQ : Fld := ⟨SYS_MODE_RES, 31, 24⟩
abbrev SYS_MODE_RES_COND : Fld := ⟨SYS_MODE_RES, 23, 16⟩
abbrev SYS_MODE_RES_TARGET : Fld := ⟨SYS_MODE_RES, 15, 12⟩
abbrev SYS_MODE_RES_RESULT : Fld := ⟨SYS_MODE_RES, 11, 8⟩
abbrev SYS_MODE_RES_SEQ : Fld := ⟨SYS_MODE_RES, 7, 0⟩
abbrev SYS_STAT : Nat := 0x14
abbrev SYS_STAT_REBUILT : Fld := ⟨SYS_STAT, 20, 16⟩
abbrev SYS_STAT_BOOT_WAIT : Fld := ⟨SYS_STAT, 15, 12⟩
abbrev SYS_STAT_DRAIN_DONE : Fld := ⟨SYS_STAT, 10, 10⟩
abbrev SYS_STAT_ACT_PENDING : Fld := ⟨SYS_STAT, 9, 9⟩
abbrev SYS_STAT_D2D_UP : Fld := ⟨SYS_STAT, 8, 8⟩
abbrev SYS_STAT_LINK_B : Fld := ⟨SYS_STAT, 7, 7⟩
abbrev SYS_STAT_LINK_A : Fld := ⟨SYS_STAT, 6, 6⟩
abbrev SYS_STAT_CAL_STN_1 : Fld := ⟨SYS_STAT, 5, 5⟩
abbrev SYS_STAT_CAL_STN_0 : Fld := ⟨SYS_STAT, 4, 4⟩
abbrev SYS_STAT_TENANTS : Fld := ⟨SYS_STAT, 3, 3⟩
abbrev SYS_STAT_DOMAIN_MAP : Fld := ⟨SYS_STAT, 2, 2⟩
abbrev SYS_STAT_DOMAIN_KEY : Fld := ⟨SYS_STAT, 1, 1⟩
abbrev SYS_STAT_RECOVERING : Fld := ⟨SYS_STAT, 0, 0⟩
abbrev SYS_RST_CAUSE : Nat := 0x18
abbrev SYS_RST_CAUSE_UPDATE : Fld := ⟨SYS_RST_CAUSE, 5, 5⟩
abbrev SYS_RST_CAUSE_BROWNOUT : Fld := ⟨SYS_RST_CAUSE, 4, 4⟩
abbrev SYS_RST_CAUSE_WDOG : Fld := ⟨SYS_RST_CAUSE, 3, 3⟩
abbrev SYS_RST_CAUSE_SOFT : Fld := ⟨SYS_RST_CAUSE, 2, 2⟩
abbrev SYS_RST_CAUSE_PIN : Fld := ⟨SYS_RST_CAUSE, 1, 1⟩
abbrev SYS_RST_CAUSE_POR : Fld := ⟨SYS_RST_CAUSE, 0, 0⟩
abbrev SYS_RST : Nat := 0x1C
abbrev SYS_RST_KEY : Fld := ⟨SYS_RST, 31, 16⟩
abbrev SYS_RST_DEV_RST : Fld := ⟨SYS_RST, 0, 0⟩
abbrev SYS_D2D_CNT : Nat := 0x20
abbrev SYS_D2D_CNT_REPLAY : Fld := ⟨SYS_D2D_CNT, 31, 16⟩
abbrev SYS_D2D_CNT_CRC_ERR : Fld := ⟨SYS_D2D_CNT, 15, 0⟩
abbrev SYS_SCRATCH : Nat := 0x24
abbrev SYS_SCRATCH_VALUE : Fld := ⟨SYS_SCRATCH, 31, 0⟩

def rowsSYS0 : List RegRow := [
  ⟨"SYS_ID", 0x0, [], 0x4D482404, []⟩,
  ⟨"SYS_STEP", 0x4, [], 0xB0, []⟩,
  ⟨"SYS_MODE", 0x8, [], 0x1, []⟩,
  ⟨"SYS_MODE_REQ", 0xC, [], 0x0, [⟨3, 0, .wo⟩]⟩,
  ⟨"SYS_MODE_RES", 0x10, [], 0x0, []⟩,
  ⟨"SYS_STAT", 0x14, [], 0x0, []⟩,
  ⟨"SYS_RST_CAUSE", 0x18, [], 0x0, [⟨5, 5, .w1c⟩, ⟨4, 4, .w1c⟩, ⟨3, 3, .w1c⟩, ⟨2, 2, .w1c⟩, ⟨1, 1, .w1c⟩, ⟨0, 0, .w1c⟩]⟩,
  ⟨"SYS_RST", 0x1C, [], 0x0, [⟨31, 16, .wo⟩, ⟨0, 0, .wo⟩]⟩,
  ⟨"SYS_D2D_CNT", 0x20, [], 0x0, [⟨31, 16, .w1c⟩, ⟨15, 0, .w1c⟩]⟩,
  ⟨"SYS_SCRATCH", 0x24, [], 0x0, [⟨31, 0, .rw⟩]⟩]

/-- The rows of the SYS block. -/
def rowsSYS : List RegRow := rowsSYS0

/-! ### TICK registers -/

abbrev TICK_CTL : Nat := 0x10000
abbrev TICK_CTL_LOCK_THR : Fld := ⟨TICK_CTL, 17, 8⟩
abbrev TICK_CTL_STEP_EN : Fld := ⟨TICK_CTL, 1, 1⟩
abbrev TICK_CTL_DISC_EN : Fld := ⟨TICK_CTL, 0, 0⟩
abbrev TICK_STAT : Nat := 0x10004
abbrev TICK_STAT_EP_REPHASE : Fld := ⟨TICK_STAT, 4, 4⟩
abbrev TICK_STAT_STEPPED : Fld := ⟨TICK_STAT, 3, 3⟩
abbrev TICK_STAT_HOLDOVER : Fld := ⟨TICK_STAT, 2, 2⟩
abbrev TICK_STAT_LOCKED : Fld := ⟨TICK_STAT, 1, 1⟩
abbrev TICK_STAT_PTP_VALID : Fld := ⟨TICK_STAT, 0, 0⟩
abbrev TICK_COUNT_LO : Nat := 0x10008
abbrev TICK_COUNT_LO_COUNT : Fld := ⟨TICK_COUNT_LO, 31, 0⟩
abbrev TICK_COUNT_HI : Nat := 0x1000C
abbrev TICK_COUNT_HI_COUNT : Fld := ⟨TICK_COUNT_HI, 31, 0⟩
abbrev TICK_PHASE : Nat := 0x10010
abbrev TICK_PHASE_PHASE : Fld := ⟨TICK_PHASE, 31, 0⟩
abbrev TICK_RATE : Nat := 0x10014
abbrev TICK_RATE_PPB : Fld := ⟨TICK_RATE, 31, 0⟩
abbrev TICK_EPOCH : Nat := 0x10018
abbrev TICK_EPOCH_EPOCH : Fld := ⟨TICK_EPOCH, 31, 0⟩
abbrev TICK_EP_TC_LO : Nat := 0x1001C
abbrev TICK_EP_TC_LO_TC : Fld := ⟨TICK_EP_TC_LO, 31, 0⟩
abbrev TICK_EP_TC_HI : Nat := 0x10020
abbrev TICK_EP_TC_HI_TC : Fld := ⟨TICK_EP_TC_HI, 31, 0⟩
abbrev TICK_EP_PTP_LO : Nat := 0x10024
abbrev TICK_EP_PTP_LO_SEC : Fld := ⟨TICK_EP_PTP_LO, 31, 0⟩
abbrev TICK_EP_PTP_HI : Nat := 0x10028
abbrev TICK_EP_PTP_HI_SEC : Fld := ⟨TICK_EP_PTP_HI, 31, 0⟩

def rowsTICK0 : List RegRow := [
  ⟨"TICK_CTL", 0x10000, [], 0x2803, [⟨17, 8, .rw⟩, ⟨1, 1, .rw⟩, ⟨0, 0, .rw⟩]⟩,
  ⟨"TICK_STAT", 0x10004, [], 0x0, [⟨4, 4, .w1c⟩, ⟨3, 3, .w1c⟩]⟩,
  ⟨"TICK_COUNT_LO", 0x10008, [], 0x0, []⟩,
  ⟨"TICK_COUNT_HI", 0x1000C, [], 0x0, []⟩,
  ⟨"TICK_PHASE", 0x10010, [], 0x0, []⟩,
  ⟨"TICK_RATE", 0x10014, [], 0x0, []⟩,
  ⟨"TICK_EPOCH", 0x10018, [], 0x0, []⟩,
  ⟨"TICK_EP_TC_LO", 0x1001C, [], 0x0, []⟩,
  ⟨"TICK_EP_TC_HI", 0x10020, [], 0x0, []⟩,
  ⟨"TICK_EP_PTP_LO", 0x10024, [], 0x0, []⟩,
  ⟨"TICK_EP_PTP_HI", 0x10028, [], 0x0, []⟩]

/-- The rows of the TICK block. -/
def rowsTICK : List RegRow := rowsTICK0

/-! ### CE registers -/

abbrev CE_PAGE (n : Nat) : Nat := 0x24000 + 0x100 * n
abbrev CE_PAGE_LAYER_PU (n : Nat) : Fld := ⟨(CE_PAGE n), 27, 26⟩
abbrev CE_PAGE_LAYER_SCHED (n : Nat) : Fld := ⟨(CE_PAGE n), 25, 25⟩
abbrev CE_PAGE_HOLD_EN (n : Nat) : Fld := ⟨(CE_PAGE n), 24, 24⟩
abbrev CE_PAGE_OUT_SEL (n : Nat) : Fld := ⟨(CE_PAGE n), 23, 16⟩
abbrev CE_PAGE_IN_SEL (n : Nat) : Fld := ⟨(CE_PAGE n), 15, 8⟩
abbrev CE_PAGE_SP_SRC (n : Nat) : Fld := ⟨(CE_PAGE n), 7, 5⟩
abbrev CE_PAGE_EN (n : Nat) : Fld := ⟨(CE_PAGE n), 4, 4⟩
abbrev CE_PAGE_TYPE (n : Nat) : Fld := ⟨(CE_PAGE n), 3, 0⟩
abbrev CE_SCHED_LEN : Nat := 0x20000
abbrev CE_SCHED_LEN_LEN : Fld := ⟨CE_SCHED_LEN, 5, 0⟩
abbrev CE_BUDGET : Nat := 0x20004
abbrev CE_BUDGET_OUT_END : Fld := ⟨CE_BUDGET, 31, 16⟩
abbrev CE_BUDGET_TOTAL : Fld := ⟨CE_BUDGET, 15, 0⟩
abbrev CE_CYC : Nat := 0x20008
abbrev CE_CYC_MAX : Fld := ⟨CE_CYC, 31, 16⟩
abbrev CE_CYC_LAST : Fld := ⟨CE_CYC, 15, 0⟩
abbrev CE_OVR : Nat := 0x2000C
abbrev CE_OVR_VALID : Fld := ⟨CE_OVR, 31, 31⟩
abbrev CE_OVR_SLOT : Fld := ⟨CE_OVR, 23, 16⟩
abbrev CE_OVR_COUNT : Fld := ⟨CE_OVR, 15, 0⟩
abbrev CE_SAT_LO : Nat := 0x20010
abbrev CE_SAT_LO_SAT : Fld := ⟨CE_SAT_LO, 31, 0⟩
abbrev CE_SAT_HI : Nat := 0x20014
abbrev CE_SAT_HI_SAT : Fld := ⟨CE_SAT_HI, 31, 0⟩
abbrev CE_FE_MASK_LO : Nat := 0x20018
abbrev CE_FE_MASK_LO_MASK : Fld := ⟨CE_FE_MASK_LO, 31, 0⟩
abbrev CE_FE_MASK_HI : Nat := 0x2001C
abbrev CE_FE_MASK_HI_MASK : Fld := ⟨CE_FE_MASK_HI, 31, 0⟩
abbrev CE_SYNC_CTL : Nat := 0x20030
abbrev CE_SYNC_CTL_EDGE : Fld := ⟨CE_SYNC_CTL, 1, 1⟩
abbrev CE_SYNC_CTL_EN : Fld := ⟨CE_SYNC_CTL, 0, 0⟩
abbrev CE_SYNC_TGT : Nat := 0x20034
abbrev CE_SYNC_TGT_TGT : Fld := ⟨CE_SYNC_TGT, 31, 0⟩
abbrev CE_SYNC_TS : Nat := 0x20038
abbrev CE_SYNC_TS_TS : Fld := ⟨CE_SYNC_TS, 31, 0⟩
abbrev CE_SYNC_PER : Nat := 0x2003C
abbrev CE_SYNC_PER_PER : Fld := ⟨CE_SYNC_PER, 31, 0⟩
abbrev CE_SYNC_STAT : Nat := 0x20040
abbrev CE_SYNC_STAT_VALID : Fld := ⟨CE_SYNC_STAT, 31, 31⟩
abbrev CE_SYNC_STAT_FRAC : Fld := ⟨CE_SYNC_STAT, 26, 16⟩
abbrev CE_SYNC_STAT_PULSES : Fld := ⟨CE_SYNC_STAT, 15, 0⟩
abbrev CE_AUX_CTL : Nat := 0x20050
abbrev CE_AUX_CTL_SLOT : Fld := ⟨CE_AUX_CTL, 13, 8⟩
abbrev CE_AUX_CTL_EN : Fld := ⟨CE_AUX_CTL, 0, 0⟩
abbrev CE_AUX_GAIN : Nat := 0x20054
abbrev CE_AUX_GAIN_OFFS : Fld := ⟨CE_AUX_GAIN, 31, 0⟩
abbrev CE_AUX_OFFS : Nat := 0x20058
abbrev CE_AUX_OFFS_OFFS : Fld := ⟨CE_AUX_OFFS, 31, 0⟩
abbrev CE_AUX_VAL : Nat := 0x2005C
abbrev CE_AUX_VAL_VAL : Fld := ⟨CE_AUX_VAL, 13, 0⟩
abbrev CE_LAT (n : Nat) : Nat := 0x20100 + 0x4 * n
abbrev CE_LAT_MAX (n : Nat) : Fld := ⟨(CE_LAT n), 31, 16⟩
abbrev CE_LAT_LAST (n : Nat) : Fld := ⟨(CE_LAT n), 15, 0⟩
abbrev CE_KST_W0 (n : Nat) : Nat := 0x20200 + 0x10 * n
abbrev CE_KST_W0_E (n : Nat) : Fld := ⟨(CE_KST_W0 n), 31, 0⟩
abbrev CE_KST_W1 (n : Nat) : Nat := 0x20204 + 0x10 * n
abbrev CE_KST_W1_S (n : Nat) : Fld := ⟨(CE_KST_W1 n), 31, 0⟩
abbrev CE_KST_W2 (n : Nat) : Nat := 0x20208 + 0x10 * n
abbrev CE_KST_W2_OUT (n : Nat) : Fld := ⟨(CE_KST_W2 n), 31, 0⟩
abbrev CE_KST_W3 (n : Nat) : Nat := 0x2020C + 0x10 * n
abbrev CE_KST_W3_FE_CNT (n : Nat) : Fld := ⟨(CE_KST_W3 n), 31, 16⟩
abbrev CE_KST_W3_MASKED (n : Nat) : Fld := ⟨(CE_KST_W3 n), 5, 5⟩
abbrev CE_KST_W3_HOLD (n : Nat) : Fld := ⟨(CE_KST_W3 n), 4, 4⟩
abbrev CE_KST_W3_CLAMP (n : Nat) : Fld := ⟨(CE_KST_W3 n), 3, 3⟩
abbrev CE_KST_W3_SAT (n : Nat) : Fld := ⟨(CE_KST_W3 n), 2, 2⟩
abbrev CE_KST_W3_RAN (n : Nat) : Fld := ⟨(CE_KST_W3 n), 1, 1⟩
abbrev CE_KST_W3_Q (n : Nat) : Fld := ⟨(CE_KST_W3 n), 0, 0⟩
abbrev CE_TRC_CTL (n : Nat) : Nat := 0x20600 + 0x40 * n
abbrev CE_TRC_CTL_DECIM (n : Nat) : Fld := ⟨(CE_TRC_CTL n), 31, 16⟩
abbrev CE_TRC_CTL_ACK (n : Nat) : Fld := ⟨(CE_TRC_CTL n), 2, 2⟩
abbrev CE_TRC_CTL_FORCE (n : Nat) : Fld := ⟨(CE_TRC_CTL n), 1, 1⟩
abbrev CE_TRC_CTL_ARM (n : Nat) : Fld := ⟨(CE_TRC_CTL n), 0, 0⟩
abbrev CE_TRC_NODE (n : Nat) : Nat := 0x20604 + 0x40 * n
abbrev CE_TRC_NODE_NODE (n : Nat) : Fld := ⟨(CE_TRC_NODE n), 15, 0⟩
abbrev CE_TRC_TRIG (n : Nat) : Nat := 0x20608 + 0x40 * n
abbrev CE_TRC_TRIG_COND (n : Nat) : Fld := ⟨(CE_TRC_TRIG n), 31, 28⟩
abbrev CE_TRC_TRIG_SRC (n : Nat) : Fld := ⟨(CE_TRC_TRIG n), 27, 16⟩
abbrev CE_TRC_TRIG_NODE (n : Nat) : Fld := ⟨(CE_TRC_TRIG n), 15, 0⟩
abbrev CE_TRC_LEVEL (n : Nat) : Nat := 0x2060C + 0x40 * n
abbrev CE_TRC_LEVEL_LEVEL (n : Nat) : Fld := ⟨(CE_TRC_LEVEL n), 22, 0⟩
abbrev CE_TRC_MASK (n : Nat) : Nat := 0x20610 + 0x40 * n
abbrev CE_TRC_MASK_MASK (n : Nat) : Fld := ⟨(CE_TRC_MASK n), 22, 0⟩
abbrev CE_TRC_PRE (n : Nat) : Nat := 0x20614 + 0x40 * n
abbrev CE_TRC_PRE_PRE (n : Nat) : Fld := ⟨(CE_TRC_PRE n), 13, 0⟩
abbrev CE_TRC_STAT (n : Nat) : Nat := 0x20618 + 0x40 * n
abbrev CE_TRC_STAT_RES (n : Nat) : Fld := ⟨(CE_TRC_STAT n), 31, 30⟩
abbrev CE_TRC_STAT_STATE (n : Nat) : Fld := ⟨(CE_TRC_STAT n), 29, 28⟩
abbrev CE_TRC_STAT_TRIG_IDX (n : Nat) : Fld := ⟨(CE_TRC_STAT n), 13, 0⟩
abbrev CE_TRC_RDPTR (n : Nat) : Nat := 0x2061C + 0x40 * n
abbrev CE_TRC_RDPTR_RDPTR (n : Nat) : Fld := ⟨(CE_TRC_RDPTR n), 13, 0⟩
abbrev CE_TRC_RDATA (n : Nat) : Nat := 0x20620 + 0x40 * n
abbrev CE_TRC_RDATA_DATA (n : Nat) : Fld := ⟨(CE_TRC_RDATA n), 31, 0⟩
abbrev CE_WBUF_CTL : Nat := 0x20060
abbrev CE_WBUF_CTL_USED : Fld := ⟨CE_WBUF_CTL, 22, 16⟩
abbrev CE_WBUF_CTL_GATE : Fld := ⟨CE_WBUF_CTL, 0, 0⟩
abbrev CE_PAGE_W (n : Nat) (w : Nat) : Nat := 0x24004 + 0x100 * n + 0x4 * w
abbrev CE_PAGE_W_WORD (n : Nat) (w : Nat) : Fld := ⟨(CE_PAGE_W n w), 31, 0⟩

def rowsCE0 : List RegRow := [
  ⟨"CE_PAGE", 0x24000, [(0x100, 48)], 0xFFFF00, [⟨27, 26, .rws⟩, ⟨25, 25, .rws⟩, ⟨24, 24, .rws⟩, ⟨23, 16, .rws⟩, ⟨15, 8, .rws⟩, ⟨7, 5, .rws⟩, ⟨4, 4, .rw⟩, ⟨3, 0, .rws⟩]⟩,
  ⟨"CE_SCHED_LEN", 0x20000, [], 0x0, [⟨5, 0, .rws⟩]⟩,
  ⟨"CE_BUDGET", 0x20004, [], 0xA000A0, []⟩,
  ⟨"CE_CYC", 0x20008, [], 0x0, [⟨31, 16, .w1c⟩]⟩,
  ⟨"CE_OVR", 0x2000C, [], 0x0, [⟨31, 31, .w1c⟩, ⟨15, 0, .w1c⟩]⟩,
  ⟨"CE_SAT_LO", 0x20010, [], 0x0, bitRows 32⟩,
  ⟨"CE_SAT_HI", 0x20014, [], 0x0, bitRows 16⟩,
  ⟨"CE_FE_MASK_LO", 0x20018, [], 0x0, [⟨31, 0, .rw⟩]⟩,
  ⟨"CE_FE_MASK_HI", 0x2001C, [], 0x0, [⟨15, 0, .rw⟩]⟩,
  ⟨"CE_SYNC_CTL", 0x20030, [], 0x0, [⟨1, 1, .rw⟩, ⟨0, 0, .rw⟩]⟩,
  ⟨"CE_SYNC_TGT", 0x20034, [], 0x0, [⟨31, 0, .rw⟩]⟩,
  ⟨"CE_SYNC_TS", 0x20038, [], 0x0, []⟩,
  ⟨"CE_SYNC_PER", 0x2003C, [], 0x0, []⟩,
  ⟨"CE_SYNC_STAT", 0x20040, [], 0x0, []⟩,
  ⟨"CE_AUX_CTL", 0x20050, [], 0x0, [⟨13, 8, .rw⟩, ⟨0, 0, .rw⟩]⟩,
  ⟨"CE_AUX_GAIN", 0x20054, [], 0x0, [⟨22, 0, .rw⟩]⟩,
  ⟨"CE_AUX_OFFS", 0x20058, [], 0x0, [⟨22, 0, .rw⟩]⟩,
  ⟨"CE_AUX_VAL", 0x2005C, [], 0x0, []⟩,
  ⟨"CE_LAT", 0x20100, [(0x4, 48)], 0x0, [⟨31, 16, .w1c⟩]⟩,
  ⟨"CE_KST_W0", 0x20200, [(0x10, 48)], 0x0, []⟩,
  ⟨"CE_KST_W1", 0x20204, [(0x10, 48)], 0x0, []⟩,
  ⟨"CE_KST_W2", 0x20208, [(0x10, 48)], 0x0, []⟩,
  ⟨"CE_KST_W3", 0x2020C, [(0x10, 48)], 0x0, []⟩,
  ⟨"CE_TRC_CTL", 0x20600, [(0x40, 4)], 0x0, [⟨31, 16, .rw⟩, ⟨2, 2, .wo⟩, ⟨1, 1, .wo⟩, ⟨0, 0, .wo⟩]⟩]

def rowsCE1 : List RegRow := [
  ⟨"CE_TRC_NODE", 0x20604, [(0x40, 4)], 0x0, [⟨15, 0, .rw⟩]⟩,
  ⟨"CE_TRC_TRIG", 0x20608, [(0x40, 4)], 0x0, [⟨31, 28, .rw⟩, ⟨27, 16, .rw⟩, ⟨15, 0, .rw⟩]⟩,
  ⟨"CE_TRC_LEVEL", 0x2060C, [(0x40, 4)], 0x0, [⟨22, 0, .rw⟩]⟩,
  ⟨"CE_TRC_MASK", 0x20610, [(0x40, 4)], 0x7FFFFF, [⟨22, 0, .rw⟩]⟩,
  ⟨"CE_TRC_PRE", 0x20614, [(0x40, 4)], 0x0, [⟨13, 0, .rw⟩]⟩,
  ⟨"CE_TRC_STAT", 0x20618, [(0x40, 4)], 0x0, []⟩,
  ⟨"CE_TRC_RDPTR", 0x2061C, [(0x40, 4)], 0x0, [⟨13, 0, .rw⟩]⟩,
  ⟨"CE_TRC_RDATA", 0x20620, [(0x40, 4)], 0x0, []⟩,
  ⟨"CE_WBUF_CTL", 0x20060, [], 0x0, [⟨0, 0, .rw⟩]⟩,
  ⟨"CE_PAGE_W", 0x24004, [(0x100, 48), (0x4, 63)], 0x0, []⟩]

/-- The rows of the CE block. -/
def rowsCE : List RegRow := rowsCE0 ++ rowsCE1

/-! ### OPU registers -/

abbrev OPU_CTL (n : Nat) : Nat := 0x30000 + 0x4000 * n
abbrev OPU_CTL_WI_FORCE (n : Nat) : Fld := ⟨(OPU_CTL n), 2, 2⟩
abbrev OPU_CTL_WRITE_EN (n : Nat) : Fld := ⟨(OPU_CTL n), 1, 1⟩
abbrev OPU_CTL_ENABLE (n : Nat) : Fld := ⟨(OPU_CTL n), 0, 0⟩
abbrev OPU_STAT (n : Nat) : Nat := 0x30004 + 0x4000 * n
abbrev OPU_STAT_WRITE_MODE (n : Nat) : Fld := ⟨(OPU_STAT n), 11, 11⟩
abbrev OPU_STAT_WI_ACTIVE (n : Nat) : Fld := ⟨(OPU_STAT n), 10, 10⟩
abbrev OPU_STAT_HOLD (n : Nat) : Fld := ⟨(OPU_STAT n), 9, 9⟩
abbrev OPU_STAT_GATE (n : Nat) : Fld := ⟨(OPU_STAT n), 8, 8⟩
abbrev OPU_STAT_WRITE_READY (n : Nat) : Fld := ⟨(OPU_STAT n), 7, 7⟩
abbrev OPU_STAT_SA_READY (n : Nat) : Fld := ⟨(OPU_STAT n), 6, 6⟩
abbrev OPU_STAT_ON_LAYER (n : Nat) : Fld := ⟨(OPU_STAT n), 5, 5⟩
abbrev OPU_STAT_STATE (n : Nat) : Fld := ⟨(OPU_STAT n), 3, 0⟩
abbrev OPU_CMD (n : Nat) : Nat := 0x30008 + 0x4000 * n
abbrev OPU_CMD_TURN (n : Nat) : Fld := ⟨(OPU_CMD n), 31, 14⟩
abbrev OPU_CMD_LAYER (n : Nat) : Fld := ⟨(OPU_CMD n), 13, 9⟩
abbrev OPU_CMD_OP (n : Nat) : Fld := ⟨(OPU_CMD n), 3, 0⟩
abbrev OPU_CMD_STAT (n : Nat) : Nat := 0x3000C + 0x4000 * n
abbrev OPU_CMD_STAT_SEQ (n : Nat) : Fld := ⟨(OPU_CMD_STAT n), 31, 24⟩
abbrev OPU_CMD_STAT_RESULT (n : Nat) : Fld := ⟨(OPU_CMD_STAT n), 23, 20⟩
abbrev OPU_CMD_STAT_OP (n : Nat) : Fld := ⟨(OPU_CMD_STAT n), 19, 16⟩
abbrev OPU_CMD_STAT_CFG_BAD (n : Nat) : Fld := ⟨(OPU_CMD_STAT n), 0, 0⟩
abbrev OPU_LAYER (n : Nat) : Nat := 0x30010 + 0x4000 * n
abbrev OPU_LAYER_TARGET (n : Nat) : Fld := ⟨(OPU_LAYER n), 20, 16⟩
abbrev OPU_LAYER_SA (n : Nat) : Fld := ⟨(OPU_LAYER n), 12, 8⟩
abbrev OPU_LAYER_CUR (n : Nat) : Fld := ⟨(OPU_LAYER n), 4, 0⟩
abbrev OPU_FA_CFG (n : Nat) : Nat := 0x30014 + 0x4000 * n
abbrev OPU_FA_CFG_SWEEP (n : Nat) : Fld := ⟨(OPU_FA_CFG n), 31, 16⟩
abbrev OPU_FA_CFG_XTHR (n : Nat) : Fld := ⟨(OPU_FA_CFG n), 15, 8⟩
abbrev OPU_FA_CFG_LOCAL (n : Nat) : Fld := ⟨(OPU_FA_CFG n), 7, 4⟩
abbrev OPU_FA_CFG_RETRY (n : Nat) : Fld := ⟨(OPU_FA_CFG n), 3, 0⟩
abbrev OPU_LJ_PROF (n : Nat) : Nat := 0x30018 + 0x4000 * n
abbrev OPU_LJ_PROF_VMAX (n : Nat) : Fld := ⟨(OPU_LJ_PROF n), 31, 16⟩
abbrev OPU_LJ_PROF_ACC (n : Nat) : Fld := ⟨(OPU_LJ_PROF n), 15, 0⟩
abbrev OPU_LJ_CFG (n : Nat) : Nat := 0x3001C + 0x4000 * n
abbrev OPU_LJ_CFG_TMO (n : Nat) : Fld := ⟨(OPU_LJ_CFG n), 31, 16⟩
abbrev OPU_LJ_CFG_SETTLE (n : Nat) : Fld := ⟨(OPU_LJ_CFG n), 15, 8⟩
abbrev OPU_LJ_CFG_FE_OK (n : Nat) : Fld := ⟨(OPU_LJ_CFG n), 7, 3⟩
abbrev OPU_LJ_CFG_RETRY (n : Nat) : Fld := ⟨(OPU_LJ_CFG n), 2, 0⟩
abbrev OPU_LJ_STAT (n : Nat) : Nat := 0x30020 + 0x4000 * n
abbrev OPU_LJ_STAT_DUR (n : Nat) : Fld := ⟨(OPU_LJ_STAT n), 31, 16⟩
abbrev OPU_LJ_STAT_XING (n : Nat) : Fld := ⟨(OPU_LJ_STAT n), 15, 11⟩
abbrev OPU_LJ_STAT_OUTCOME (n : Nat) : Fld := ⟨(OPU_LJ_STAT n), 10, 8⟩
abbrev OPU_LJ_STAT_COUNT (n : Nat) : Fld := ⟨(OPU_LJ_STAT n), 7, 0⟩
abbrev OPU_TS_PROF (n : Nat) : Nat := 0x30024 + 0x4000 * n
abbrev OPU_TS_PROF_VMAX (n : Nat) : Fld := ⟨(OPU_TS_PROF n), 31, 16⟩
abbrev OPU_TS_PROF_ACC (n : Nat) : Fld := ⟨(OPU_TS_PROF n), 15, 8⟩
abbrev OPU_TS_PROF_TJ_MAX (n : Nat) : Fld := ⟨(OPU_TS_PROF n), 7, 0⟩
abbrev OPU_TRK_CFG (n : Nat) : Nat := 0x30028 + 0x4000 * n
abbrev OPU_TRK_CFG_TRK_SETTLE (n : Nat) : Fld := ⟨(OPU_TRK_CFG n), 31, 24⟩
abbrev OPU_TRK_CFG_TRK_OK (n : Nat) : Fld := ⟨(OPU_TRK_CFG n), 23, 16⟩
abbrev OPU_TRK_CFG_SPOT_MASK (n : Nat) : Fld := ⟨(OPU_TRK_CFG n), 15, 12⟩
abbrev OPU_SF_CFG (n : Nat) : Nat := 0x3002C + 0x4000 * n
abbrev OPU_SF_CFG_MISS_MAX (n : Nat) : Fld := ⟨(OPU_SF_CFG n), 31, 24⟩
abbrev OPU_SF_CFG_SUM_TOL (n : Nat) : Fld := ⟨(OPU_SF_CFG n), 23, 16⟩
abbrev OPU_SF_CFG_WIN (n : Nat) : Fld := ⟨(OPU_SF_CFG n), 7, 0⟩
abbrev OPU_SF_STAT (n : Nat) : Nat := 0x30030 + 0x4000 * n
abbrev OPU_SF_STAT_VALID (n : Nat) : Fld := ⟨(OPU_SF_STAT n), 31, 31⟩
abbrev OPU_SF_STAT_PAR_OK (n : Nat) : Fld := ⟨(OPU_SF_STAT n), 23, 23⟩
abbrev OPU_SF_STAT_LAYER (n : Nat) : Fld := ⟨(OPU_SF_STAT n), 22, 18⟩
abbrev OPU_SF_STAT_TURN (n : Nat) : Fld := ⟨(OPU_SF_STAT n), 17, 0⟩
abbrev OPU_SPOT_POS (n : Nat) (k : Nat) : Nat := 0x30034 + 0x4000 * n + 0x4 * k
abbrev OPU_SPOT_POS_VALID (n : Nat) (k : Nat) : Fld := ⟨(OPU_SPOT_POS n k), 31, 31⟩
abbrev OPU_SPOT_POS_TURN (n : Nat) (k : Nat) : Fld := ⟨(OPU_SPOT_POS n k), 25, 8⟩
abbrev OPU_SPOT_POS_FINE (n : Nat) (k : Nat) : Fld := ⟨(OPU_SPOT_POS n k), 7, 0⟩
abbrev OPU_SF_CNT (n : Nat) : Nat := 0x30044 + 0x4000 * n
abbrev OPU_SF_CNT_INVALID (n : Nat) : Fld := ⟨(OPU_SF_CNT n), 31, 16⟩
abbrev OPU_SF_CNT_VALID (n : Nat) : Fld := ⟨(OPU_SF_CNT n), 15, 0⟩
abbrev OPU_DEF_CFG (n : Nat) : Nat := 0x30048 + 0x4000 * n
abbrev OPU_DEF_CFG_THR (n : Nat) : Fld := ⟨(OPU_DEF_CFG n), 23, 16⟩
abbrev OPU_DEF_CFG_HYS (n : Nat) : Fld := ⟨(OPU_DEF_CFG n), 15, 8⟩
abbrev OPU_DEF_CFG_MAXHOLD (n : Nat) : Fld := ⟨(OPU_DEF_CFG n), 7, 0⟩
abbrev OPU_DEF_STAT (n : Nat) : Nat := 0x3004C + 0x4000 * n
abbrev OPU_DEF_STAT_DROPOUTS (n : Nat) : Fld := ⟨(OPU_DEF_STAT n), 31, 16⟩
abbrev OPU_DEF_STAT_LONGEST (n : Nat) : Fld := ⟨(OPU_DEF_STAT n), 15, 8⟩
abbrev OPU_DEF_STAT_REACQ (n : Nat) : Fld := ⟨(OPU_DEF_STAT n), 7, 0⟩
abbrev OPU_WI_CFG (n : Nat) : Nat := 0x30050 + 0x4000 * n
abbrev OPU_WI_CFG_REARM (n : Nat) : Fld := ⟨(OPU_WI_CFG n), 31, 24⟩
abbrev OPU_WI_CFG_REP_MAX (n : Nat) : Fld := ⟨(OPU_WI_CFG n), 23, 16⟩
abbrev OPU_WI_CFG_SHOCK (n : Nat) : Fld := ⟨(OPU_WI_CFG n), 15, 8⟩
abbrev OPU_WI_CFG_PES (n : Nat) : Fld := ⟨(OPU_WI_CFG n), 7, 0⟩
abbrev OPU_WI_STAT (n : Nat) : Nat := 0x30054 + 0x4000 * n
abbrev OPU_WI_STAT_CAUSE (n : Nat) : Fld := ⟨(OPU_WI_STAT n), 29, 24⟩
abbrev OPU_WI_STAT_COUNT (n : Nat) : Fld := ⟨(OPU_WI_STAT n), 15, 0⟩
abbrev OPU_WI_TS (n : Nat) : Nat := 0x30058 + 0x4000 * n
abbrev OPU_WI_TS_TS (n : Nat) : Fld := ⟨(OPU_WI_TS n), 31, 0⟩
abbrev OPU_LENS (n : Nat) : Nat := 0x3005C + 0x4000 * n
abbrev OPU_LENS_LIM (n : Nat) : Fld := ⟨(OPU_LENS n), 31, 16⟩
abbrev OPU_LENS_OFFS (n : Nat) : Fld := ⟨(OPU_LENS n), 15, 0⟩
abbrev OPU_SA_CFG (n : Nat) : Nat := 0x30060 + 0x4000 * n
abbrev OPU_SA_CFG_SETTLE (n : Nat) : Fld := ⟨(OPU_SA_CFG n), 31, 16⟩
abbrev OPU_SA_CFG_FREQ (n : Nat) : Fld := ⟨(OPU_SA_CFG n), 7, 6⟩
abbrev OPU_LASER_CFG (n : Nat) : Nat := 0x30064 + 0x4000 * n
abbrev OPU_LASER_CFG_HF_FREQ (n : Nat) : Fld := ⟨(OPU_LASER_CFG n), 31, 24⟩
abbrev OPU_LASER_CFG_HF_AMP (n : Nat) : Fld := ⟨(OPU_LASER_CFG n), 23, 16⟩
abbrev OPU_LASER_CFG_RD_ILIM (n : Nat) : Fld := ⟨(OPU_LASER_CFG n), 15, 8⟩
abbrev OPU_LASER_CFG_WR_ILIM (n : Nat) : Fld := ⟨(OPU_LASER_CFG n), 7, 0⟩
abbrev OPU_LASER_STAT (n : Nat) : Nat := 0x30068 + 0x4000 * n
abbrev OPU_LASER_STAT_RD_I (n : Nat) : Fld := ⟨(OPU_LASER_STAT n), 31, 16⟩
abbrev OPU_LASER_STAT_WR_ON (n : Nat) : Fld := ⟨(OPU_LASER_STAT n), 3, 3⟩
abbrev OPU_LASER_STAT_RD_ON (n : Nat) : Fld := ⟨(OPU_LASER_STAT n), 2, 2⟩
abbrev OPU_LASER_STAT_WR_LIM (n : Nat) : Fld := ⟨(OPU_LASER_STAT n), 1, 1⟩
abbrev OPU_LASER_STAT_RD_LIM (n : Nat) : Fld := ⟨(OPU_LASER_STAT n), 0, 0⟩
abbrev OPU_TEMP (n : Nat) : Nat := 0x3006C + 0x4000 * n
abbrev OPU_TEMP_LIM (n : Nat) : Fld := ⟨(OPU_TEMP n), 31, 16⟩
abbrev OPU_TEMP_TEMP (n : Nat) : Fld := ⟨(OPU_TEMP n), 15, 0⟩
abbrev OPU_SPIRAL (n : Nat) : Nat := 0x30070 + 0x4000 * n
abbrev OPU_SPIRAL_SKIPPED (n : Nat) : Fld := ⟨(OPU_SPIRAL n), 31, 24⟩
abbrev OPU_SPIRAL_TURN (n : Nat) : Fld := ⟨(OPU_SPIRAL n), 17, 0⟩
abbrev OPU_TILT_OFS (n : Nat) (l : Nat) : Nat := 0x30100 + 0x4000 * n + 0x4 * l
abbrev OPU_TILT_OFS_OFS (n : Nat) (l : Nat) : Fld := ⟨(OPU_TILT_OFS n l), 15, 0⟩
abbrev OPU_DEPTH (n : Nat) (l : Nat) : Nat := 0x30180 + 0x4000 * n + 0x4 * l
abbrev OPU_DEPTH_DEPTH (n : Nat) (l : Nat) : Fld := ⟨(OPU_DEPTH n l), 19, 0⟩
abbrev OPU_SA (n : Nat) (l : Nat) (k : Nat) : Nat := 0x30200 + 0x4000 * n + 0x10 * l + 0x4 * k
abbrev OPU_SA_ZONE_HI (n : Nat) (l : Nat) (k : Nat) : Fld := ⟨(OPU_SA n l k), 27, 16⟩
abbrev OPU_SA_ZONE_LO (n : Nat) (l : Nat) (k : Nat) : Fld := ⟨(OPU_SA n l k), 11, 0⟩

def rowsOPU0 : List RegRow := [
  ⟨"OPU_CTL", 0x30000, [(0x4000, 4)], 0x3, [⟨2, 2, .wo⟩, ⟨1, 1, .rw⟩, ⟨0, 0, .rw⟩]⟩,
  ⟨"OPU_STAT", 0x30004, [(0x4000, 4)], 0x0, []⟩,
  ⟨"OPU_CMD", 0x30008, [(0x4000, 4)], 0x0, [⟨31, 14, .wo⟩, ⟨13, 9, .wo⟩, ⟨3, 0, .wo⟩]⟩,
  ⟨"OPU_CMD_STAT", 0x3000C, [(0x4000, 4)], 0x0, []⟩,
  ⟨"OPU_LAYER", 0x30010, [(0x4000, 4)], 0x0, []⟩,
  ⟨"OPU_FA_CFG", 0x30014, [(0x4000, 4)], 0x61A81E43, [⟨31, 16, .rw⟩, ⟨15, 8, .rw⟩, ⟨7, 4, .rw⟩, ⟨3, 0, .rw⟩]⟩,
  ⟨"OPU_LJ_PROF", 0x30018, [(0x4000, 4)], 0x12C0019, [⟨31, 16, .rw⟩, ⟨15, 0, .rw⟩]⟩,
  ⟨"OPU_LJ_CFG", 0x3001C, [(0x4000, 4)], 0x5DC6429, [⟨31, 16, .rw⟩, ⟨15, 8, .rw⟩, ⟨7, 3, .rw⟩, ⟨2, 0, .rw⟩]⟩,
  ⟨"OPU_LJ_STAT", 0x30020, [(0x4000, 4)], 0x0, []⟩,
  ⟨"OPU_TS_PROF", 0x30024, [(0x4000, 4)], 0x1F46440, [⟨31, 16, .rw⟩, ⟨15, 8, .rw⟩, ⟨7, 0, .rw⟩]⟩,
  ⟨"OPU_TRK_CFG", 0x30028, [(0x4000, 4)], 0x3C05F000, [⟨31, 24, .rw⟩, ⟨23, 16, .rw⟩, ⟨15, 12, .rw⟩]⟩,
  ⟨"OPU_SF_CFG", 0x3002C, [(0x4000, 4)], 0x40080004, [⟨31, 24, .rw⟩, ⟨23, 16, .rw⟩, ⟨7, 0, .rw⟩]⟩,
  ⟨"OPU_SF_STAT", 0x30030, [(0x4000, 4)], 0x0, []⟩,
  ⟨"OPU_SPOT_POS", 0x30034, [(0x4000, 4), (0x4, 4)], 0x0, []⟩,
  ⟨"OPU_SF_CNT", 0x30044, [(0x4000, 4)], 0x0, [⟨31, 16, .w1c⟩]⟩,
  ⟨"OPU_DEF_CFG", 0x30048, [(0x4000, 4)], 0x320A28, [⟨23, 16, .rw⟩, ⟨15, 8, .rw⟩, ⟨7, 0, .rw⟩]⟩,
  ⟨"OPU_DEF_STAT", 0x3004C, [(0x4000, 4)], 0x0, [⟨31, 16, .w1c⟩, ⟨15, 8, .w1c⟩, ⟨7, 0, .w1c⟩]⟩,
  ⟨"OPU_WI_CFG", 0x30050, [(0x4000, 4)], 0x32109650, [⟨31, 24, .rws⟩, ⟨23, 16, .rws⟩, ⟨15, 8, .rws⟩, ⟨7, 0, .rws⟩]⟩,
  ⟨"OPU_WI_STAT", 0x30054, [(0x4000, 4)], 0x0, [⟨15, 0, .w1c⟩]⟩,
  ⟨"OPU_WI_TS", 0x30058, [(0x4000, 4)], 0x0, []⟩,
  ⟨"OPU_LENS", 0x3005C, [(0x4000, 4)], 0x960000, [⟨31, 16, .rw⟩]⟩,
  ⟨"OPU_SA_CFG", 0x30060, [(0x4000, 4)], 0x12C0040, [⟨31, 16, .rw⟩, ⟨7, 6, .rw⟩]⟩,
  ⟨"OPU_LASER_CFG", 0x30064, [(0x4000, 4)], 0xC80064C8, [⟨31, 24, .rw⟩, ⟨23, 16, .rw⟩, ⟨15, 8, .rw⟩, ⟨7, 0, .rw⟩]⟩,
  ⟨"OPU_LASER_STAT", 0x30068, [(0x4000, 4)], 0x0, []⟩]

def rowsOPU1 : List RegRow := [
  ⟨"OPU_TEMP", 0x3006C, [(0x4000, 4)], 0x2BC0000, [⟨31, 16, .rw⟩]⟩,
  ⟨"OPU_SPIRAL", 0x30070, [(0x4000, 4)], 0x0, [⟨31, 24, .w1c⟩]⟩,
  ⟨"OPU_TILT_OFS", 0x30100, [(0x4000, 4), (0x4, 24)], 0x0, [⟨15, 0, .rw⟩]⟩,
  ⟨"OPU_DEPTH", 0x30180, [(0x4000, 4), (0x4, 24)], 0x0, [⟨19, 0, .rw⟩]⟩,
  ⟨"OPU_SA", 0x30200, [(0x4000, 4), (0x10, 24), (0x4, 4)], 0x0, [⟨27, 16, .rw⟩, ⟨11, 0, .rw⟩]⟩]

/-- The rows of the OPU block. -/
def rowsOPU : List RegRow := rowsOPU0 ++ rowsOPU1

/-! ### CHN registers -/

abbrev CHN_SPOT_CTL (s : Nat) : Nat := 0x40000 + 0x800 * s
abbrev CHN_SPOT_CTL_EQ_SET (s : Nat) : Fld := ⟨(CHN_SPOT_CTL s), 7, 6⟩
abbrev CHN_SPOT_CTL_EQ_ADAPT (s : Nat) : Fld := ⟨(CHN_SPOT_CTL s), 5, 5⟩
abbrev CHN_SPOT_CTL_PREV_EN (s : Nat) : Fld := ⟨(CHN_SPOT_CTL s), 4, 4⟩
abbrev CHN_SPOT_CTL_XTC_EN (s : Nat) : Fld := ⟨(CHN_SPOT_CTL s), 3, 3⟩
abbrev CHN_SPOT_CTL_SINGLE (s : Nat) : Fld := ⟨(CHN_SPOT_CTL s), 2, 2⟩
abbrev CHN_SPOT_CTL_GATE (s : Nat) : Fld := ⟨(CHN_SPOT_CTL s), 1, 1⟩
abbrev CHN_SPOT_CTL_ENABLE (s : Nat) : Fld := ⟨(CHN_SPOT_CTL s), 0, 0⟩
abbrev CHN_SPOT_STAT (s : Nat) : Nat := 0x40004 + 0x800 * s
abbrev CHN_SPOT_STAT_UNUSABLE (s : Nat) : Fld := ⟨(CHN_SPOT_STAT s), 31, 31⟩
abbrev CHN_SPOT_STAT_BLANK (s : Nat) : Fld := ⟨(CHN_SPOT_STAT s), 30, 30⟩
abbrev CHN_SPOT_STAT_LOCK (s : Nat) : Fld := ⟨(CHN_SPOT_STAT s), 29, 29⟩
abbrev CHN_SPOT_STAT_ZONE (s : Nat) : Fld := ⟨(CHN_SPOT_STAT s), 27, 24⟩
abbrev CHN_SPOT_STAT_FRAME (s : Nat) : Fld := ⟨(CHN_SPOT_STAT s), 23, 0⟩
abbrev CHN_SYNC_CFG (s : Nat) : Nat := 0x40008 + 0x800 * s
abbrev CHN_SYNC_CFG_FRM_SUSP (s : Nat) : Fld := ⟨(CHN_SYNC_CFG s), 23, 16⟩
abbrev CHN_SYNC_CFG_THR (s : Nat) : Fld := ⟨(CHN_SYNC_CFG s), 13, 8⟩
abbrev CHN_SYNC_CFG_WIN (s : Nat) : Fld := ⟨(CHN_SYNC_CFG s), 6, 0⟩
abbrev CHN_SYNC_LAST (s : Nat) : Nat := 0x4000C + 0x800 * s
abbrev CHN_SYNC_LAST_A_SCORE (s : Nat) : Fld := ⟨(CHN_SYNC_LAST s), 31, 26⟩
abbrev CHN_SYNC_LAST_B_SCORE (s : Nat) : Fld := ⟨(CHN_SYNC_LAST s), 25, 20⟩
abbrev CHN_SYNC_LAST_A_OFS (s : Nat) : Fld := ⟨(CHN_SYNC_LAST s), 19, 12⟩
abbrev CHN_SYNC_LAST_B_OFS (s : Nat) : Fld := ⟨(CHN_SYNC_LAST s), 11, 4⟩
abbrev CHN_SYNC_LAST_INCONS (s : Nat) : Fld := ⟨(CHN_SYNC_LAST s), 3, 3⟩
abbrev CHN_SYNC_LAST_B_MISS (s : Nat) : Fld := ⟨(CHN_SYNC_LAST s), 2, 2⟩
abbrev CHN_SYNC_LAST_A_MISS (s : Nat) : Fld := ⟨(CHN_SYNC_LAST s), 1, 1⟩
abbrev CHN_SYNC_LAST_REFRAMED (s : Nat) : Fld := ⟨(CHN_SYNC_LAST s), 0, 0⟩
abbrev CHN_LDPC_CFG (s : Nat) : Nat := 0x40010 + 0x800 * s
abbrev CHN_LDPC_CFG_ITER_MAX (s : Nat) : Fld := ⟨(CHN_LDPC_CFG s), 4, 0⟩
abbrev CHN_LDPC_LAST (s : Nat) : Nat := 0x40014 + 0x800 * s
abbrev CHN_LDPC_LAST_FLIPS (s : Nat) : Fld := ⟨(CHN_LDPC_LAST s), 31, 16⟩
abbrev CHN_LDPC_LAST_SEED (s : Nat) : Fld := ⟨(CHN_LDPC_LAST s), 9, 8⟩
abbrev CHN_LDPC_LAST_ATTEMPTS (s : Nat) : Fld := ⟨(CHN_LDPC_LAST s), 7, 5⟩
abbrev CHN_LDPC_LAST_ITER (s : Nat) : Fld := ⟨(CHN_LDPC_LAST s), 4, 0⟩
abbrev CHN_FRM_CNT_0 (s : Nat) : Nat := 0x40020 + 0x800 * s
abbrev CHN_FRM_CNT_0_OK (s : Nat) : Fld := ⟨(CHN_FRM_CNT_0 s), 31, 0⟩
abbrev CHN_FRM_CNT_1 (s : Nat) : Nat := 0x40024 + 0x800 * s
abbrev CHN_FRM_CNT_1_REFRAMED (s : Nat) : Fld := ⟨(CHN_FRM_CNT_1 s), 31, 16⟩
abbrev CHN_FRM_CNT_1_FAILED (s : Nat) : Fld := ⟨(CHN_FRM_CNT_1 s), 15, 0⟩
abbrev CHN_FRM_CNT_2 (s : Nat) : Nat := 0x40028 + 0x800 * s
abbrev CHN_FRM_CNT_2_A_MISS (s : Nat) : Fld := ⟨(CHN_FRM_CNT_2 s), 31, 16⟩
abbrev CHN_FRM_CNT_2_B_MISS (s : Nat) : Fld := ⟨(CHN_FRM_CNT_2 s), 15, 0⟩
abbrev CHN_FRM_CNT_3 (s : Nat) : Nat := 0x4002C + 0x800 * s
abbrev CHN_FRM_CNT_3_ERASED (s : Nat) : Fld := ⟨(CHN_FRM_CNT_3 s), 31, 16⟩
abbrev CHN_SKEW (s : Nat) : Nat := 0x40030 + 0x800 * s
abbrev CHN_SKEW_SKEW (s : Nat) : Fld := ⟨(CHN_SKEW s), 11, 0⟩
abbrev CHN_EQ_CFG (s : Nat) : Nat := 0x40034 + 0x800 * s
abbrev CHN_EQ_CFG_XTC_MU (s : Nat) : Fld := ⟨(CHN_EQ_CFG s), 7, 4⟩
abbrev CHN_EQ_CFG_EQ_MU (s : Nat) : Fld := ⟨(CHN_EQ_CFG s), 3, 0⟩
abbrev CHN_EQ_TAP (s : Nat) (k : Nat) : Nat := 0x40040 + 0x800 * s + 0x4 * k
abbrev CHN_EQ_TAP_TAP (s : Nat) (k : Nat) : Fld := ⟨(CHN_EQ_TAP s k), 31, 0⟩
abbrev CHN_EQ_PRE (s : Nat) (j : Nat) (k : Nat) : Nat := 0x40060 + 0x800 * s + 0x20 * j + 0x4 * k
abbrev CHN_EQ_PRE_TAP (s : Nat) (j : Nat) (k : Nat) : Fld := ⟨(CHN_EQ_PRE s j k), 31, 0⟩
abbrev CHN_XTC_COEF (s : Nat) (j : Nat) : Nat := 0x400E0 + 0x800 * s + 0x4 * j
abbrev CHN_XTC_COEF_COEF (s : Nat) (j : Nat) : Fld := ⟨(CHN_XTC_COEF s j), 31, 0⟩
abbrev CHN_WR_CTL (n : Nat) : Nat := 0x48000 + 0x800 * n
abbrev CHN_WR_CTL_REWR_MAX (n : Nat) : Fld := ⟨(CHN_WR_CTL n), 5, 0⟩
abbrev CHN_WR_STAT (n : Nat) : Nat := 0x48004 + 0x800 * n
abbrev CHN_WR_STAT_ACTIVE (n : Nat) : Fld := ⟨(CHN_WR_STAT n), 31, 31⟩
abbrev CHN_WR_STAT_WS_VALID (n : Nat) : Fld := ⟨(CHN_WR_STAT n), 30, 30⟩
abbrev CHN_WR_STAT_TAIL (n : Nat) : Fld := ⟨(CHN_WR_STAT n), 29, 24⟩
abbrev CHN_WR_STAT_FRONT (n : Nat) : Fld := ⟨(CHN_WR_STAT n), 23, 0⟩
abbrev CHN_VER_CFG (n : Nat) : Nat := 0x48008 + 0x800 * n
abbrev CHN_VER_CFG_VER_ERR (n : Nat) : Fld := ⟨(CHN_VER_CFG n), 23, 16⟩
abbrev CHN_VER_CFG_VER_SYNC (n : Nat) : Fld := ⟨(CHN_VER_CFG n), 15, 8⟩
abbrev CHN_VER_CFG_VER_ITER (n : Nat) : Fld := ⟨(CHN_VER_CFG n), 4, 0⟩
abbrev CHN_VER_CNT (n : Nat) : Nat := 0x4800C + 0x800 * n
abbrev CHN_VER_CNT_FAILED (n : Nat) : Fld := ⟨(CHN_VER_CNT n), 31, 16⟩
abbrev CHN_VER_CNT_PASSED (n : Nat) : Fld := ⟨(CHN_VER_CNT n), 15, 0⟩
abbrev CHN_EXT_CNT (n : Nat) : Nat := 0x48010 + 0x800 * n
abbrev CHN_EXT_CNT_ABORTED (n : Nat) : Fld := ⟨(CHN_EXT_CNT n), 31, 16⟩
abbrev CHN_EXT_CNT_COMMITTED (n : Nat) : Fld := ⟨(CHN_EXT_CNT n), 15, 0⟩
abbrev CHN_OPC_STAT (n : Nat) : Nat := 0x48014 + 0x800 * n
abbrev CHN_OPC_STAT_RES (n : Nat) : Fld := ⟨(CHN_OPC_STAT n), 31, 30⟩
abbrev CHN_OPC_STAT_FAILED (n : Nat) : Fld := ⟨(CHN_OPC_STAT n), 29, 29⟩
abbrev CHN_OPC_STAT_LAYER (n : Nat) : Fld := ⟨(CHN_OPC_STAT n), 28, 24⟩
abbrev CHN_OPC_STAT_STEP (n : Nat) : Fld := ⟨(CHN_OPC_STAT n), 23, 20⟩
abbrev CHN_OPC_STAT_ERRORS (n : Nat) : Fld := ⟨(CHN_OPC_STAT n), 15, 0⟩
abbrev CHN_OPC_ACK (n : Nat) : Nat := 0x48018 + 0x800 * n
abbrev CHN_OPC_ACK_ACK (n : Nat) : Fld := ⟨(CHN_OPC_ACK n), 0, 0⟩
abbrev CHN_WS_W0 (n : Nat) (l : Nat) : Nat := 0x48100 + 0x800 * n + 0x20 * l
abbrev CHN_WS_W0_PB (n : Nat) (l : Nat) : Fld := ⟨(CHN_WS_W0 n l), 31, 16⟩
abbrev CHN_WS_W0_PW (n : Nat) (l : Nat) : Fld := ⟨(CHN_WS_W0 n l), 15, 0⟩
abbrev CHN_WS_W1 (n : Nat) (l : Nat) : Nat := 0x48104 + 0x800 * n + 0x20 * l
abbrev CHN_WS_W1_PC (n : Nat) (l : Nat) : Fld := ⟨(CHN_WS_W1 n l), 15, 0⟩
abbrev CHN_WS_W2 (n : Nat) (l : Nat) : Nat := 0x48108 + 0x800 * n + 0x20 * l
abbrev CHN_WS_W2_TFP_N (n : Nat) (l : Nat) : Fld := ⟨(CHN_WS_W2 n l), 23, 16⟩
abbrev CHN_WS_W2_TFP_2 (n : Nat) (l : Nat) : Fld := ⟨(CHN_WS_W2 n l), 15, 8⟩
abbrev CHN_WS_W2_DFP (n : Nat) (l : Nat) : Fld := ⟨(CHN_WS_W2 n l), 7, 0⟩
abbrev CHN_WS_W3 (n : Nat) (l : Nat) : Nat := 0x4810C + 0x800 * n + 0x20 * l
abbrev CHN_WS_W3_TCL (n : Nat) (l : Nat) : Fld := ⟨(CHN_WS_W3 n l), 23, 16⟩
abbrev CHN_WS_W3_TLP (n : Nat) (l : Nat) : Fld := ⟨(CHN_WS_W3 n l), 15, 8⟩
abbrev CHN_WS_W3_TMP (n : Nat) (l : Nat) : Fld := ⟨(CHN_WS_W3 n l), 7, 0⟩
abbrev CHN_WS_W4 (n : Nat) (l : Nat) : Nat := 0x48110 + 0x800 * n + 0x20 * l
abbrev CHN_WS_W5 (n : Nat) (l : Nat) : Nat := 0x48114 + 0x800 * n + 0x20 * l
abbrev CHN_WS_W6 (n : Nat) (l : Nat) : Nat := 0x48118 + 0x800 * n + 0x20 * l
abbrev CHN_WS_W7 (n : Nat) (l : Nat) : Nat := 0x4811C + 0x800 * n + 0x20 * l
abbrev CHN_FMT : Nat := 0x4A000
abbrev CHN_FMT_ZONES : Fld := ⟨CHN_FMT, 23, 16⟩
abbrev CHN_FMT_VERSION : Fld := ⟨CHN_FMT, 15, 0⟩
abbrev CHN_RL_CFG : Nat := 0x4A004
abbrev CHN_RL_CFG_RPM : Fld := ⟨CHN_RL_CFG, 15, 8⟩
abbrev CHN_RL_CFG_SKIP : Fld := ⟨CHN_RL_CFG, 3, 0⟩
abbrev CHN_RL_CNT (r : Nat) : Nat := 0x4A010 + 0x4 * r
abbrev CHN_RL_CNT_COUNT (r : Nat) : Fld := ⟨(CHN_RL_CNT r), 31, 0⟩
abbrev CHN_RL_FIRST : Nat := 0x4A028
abbrev CHN_RL_FIRST_COUNT : Fld := ⟨CHN_RL_FIRST, 31, 0⟩
abbrev CHN_RL_LOST : Nat := 0x4A02C
abbrev CHN_RL_LOST_COUNT : Fld := ⟨CHN_RL_LOST, 31, 0⟩
abbrev CHN_RELOC : Nat := 0x4A030
abbrev CHN_RELOC_PENDING : Fld := ⟨CHN_RELOC, 31, 16⟩
abbrev CHN_RELOC_DONE : Fld := ⟨CHN_RELOC, 15, 0⟩
abbrev CHN_IDX_CFG : Nat := 0x4A034
abbrev CHN_IDX_CFG_AGE : Fld := ⟨CHN_IDX_CFG, 15, 0⟩

def rowsCHN0 : List RegRow := [
  ⟨"CHN_SPOT_CTL", 0x40000, [(0x800, 16)], 0x39, [⟨7, 6, .rw⟩, ⟨5, 5, .rw⟩, ⟨4, 4, .rw⟩, ⟨3, 3, .rw⟩, ⟨0, 0, .rw⟩]⟩,
  ⟨"CHN_SPOT_STAT", 0x40004, [(0x800, 16)], 0x0, []⟩,
  ⟨"CHN_SYNC_CFG", 0x40008, [(0x800, 16)], 0x142818, [⟨23, 16, .rw⟩, ⟨13, 8, .rw⟩, ⟨6, 0, .rw⟩]⟩,
  ⟨"CHN_SYNC_LAST", 0x4000C, [(0x800, 16)], 0x0, []⟩,
  ⟨"CHN_LDPC_CFG", 0x40010, [(0x800, 16)], 0x14, [⟨4, 0, .rw⟩]⟩,
  ⟨"CHN_LDPC_LAST", 0x40014, [(0x800, 16)], 0x0, []⟩,
  ⟨"CHN_FRM_CNT_0", 0x40020, [(0x800, 16)], 0x0, []⟩,
  ⟨"CHN_FRM_CNT_1", 0x40024, [(0x800, 16)], 0x0, [⟨31, 16, .w1c⟩, ⟨15, 0, .w1c⟩]⟩,
  ⟨"CHN_FRM_CNT_2", 0x40028, [(0x800, 16)], 0x0, [⟨31, 16, .w1c⟩, ⟨15, 0, .w1c⟩]⟩,
  ⟨"CHN_FRM_CNT_3", 0x4002C, [(0x800, 16)], 0x0, [⟨31, 16, .w1c⟩]⟩,
  ⟨"CHN_SKEW", 0x40030, [(0x800, 16)], 0x0, [⟨11, 0, .rw⟩]⟩,
  ⟨"CHN_EQ_CFG", 0x40034, [(0x800, 16)], 0xAA, [⟨7, 4, .rw⟩, ⟨3, 0, .rw⟩]⟩,
  ⟨"CHN_EQ_TAP", 0x40040, [(0x800, 16), (0x4, 7)], 0x0, []⟩,
  ⟨"CHN_EQ_PRE", 0x40060, [(0x800, 16), (0x20, 4), (0x4, 7)], 0x0, [⟨22, 0, .rw⟩]⟩,
  ⟨"CHN_XTC_COEF", 0x400E0, [(0x800, 16), (0x4, 10)], 0x0, []⟩,
  ⟨"CHN_WR_CTL", 0x48000, [(0x800, 4)], 0x20, [⟨5, 0, .rws⟩]⟩,
  ⟨"CHN_WR_STAT", 0x48004, [(0x800, 4)], 0x0, []⟩,
  ⟨"CHN_VER_CFG", 0x48008, [(0x800, 4)], 0x4A2C06, [⟨23, 16, .rws⟩, ⟨15, 8, .rws⟩, ⟨4, 0, .rws⟩]⟩,
  ⟨"CHN_VER_CNT", 0x4800C, [(0x800, 4)], 0x0, [⟨31, 16, .w1c⟩]⟩,
  ⟨"CHN_EXT_CNT", 0x48010, [(0x800, 4)], 0x0, [⟨31, 16, .w1c⟩]⟩,
  ⟨"CHN_OPC_STAT", 0x48014, [(0x800, 4)], 0x0, []⟩,
  ⟨"CHN_OPC_ACK", 0x48018, [(0x800, 4)], 0x0, [⟨0, 0, .wo⟩]⟩,
  ⟨"CHN_WS_W0", 0x48100, [(0x800, 4), (0x20, 24)], 0x0, [⟨31, 16, .rw⟩, ⟨15, 0, .rw⟩]⟩,
  ⟨"CHN_WS_W1", 0x48104, [(0x800, 4), (0x20, 24)], 0x0, [⟨15, 0, .rw⟩]⟩]

def rowsCHN1 : List RegRow := [
  ⟨"CHN_WS_W2", 0x48108, [(0x800, 4), (0x20, 24)], 0x0, [⟨23, 16, .rw⟩, ⟨15, 8, .rw⟩, ⟨7, 0, .rw⟩]⟩,
  ⟨"CHN_WS_W3", 0x4810C, [(0x800, 4), (0x20, 24)], 0x0, [⟨23, 16, .rw⟩, ⟨15, 8, .rw⟩, ⟨7, 0, .rw⟩]⟩,
  ⟨"CHN_WS_W4", 0x48110, [(0x800, 4), (0x20, 24)], 0x0, []⟩,
  ⟨"CHN_WS_W5", 0x48114, [(0x800, 4), (0x20, 24)], 0x0, []⟩,
  ⟨"CHN_WS_W6", 0x48118, [(0x800, 4), (0x20, 24)], 0x0, []⟩,
  ⟨"CHN_WS_W7", 0x4811C, [(0x800, 4), (0x20, 24)], 0x0, []⟩,
  ⟨"CHN_FMT", 0x4A000, [], 0x100100, []⟩,
  ⟨"CHN_RL_CFG", 0x4A004, [], 0x2400, [⟨15, 8, .rw⟩, ⟨3, 0, .rw⟩]⟩,
  ⟨"CHN_RL_CNT", 0x4A010, [(0x4, 6)], 0x0, [⟨31, 0, .w1c⟩]⟩,
  ⟨"CHN_RL_FIRST", 0x4A028, [], 0x0, [⟨31, 0, .w1c⟩]⟩,
  ⟨"CHN_RL_LOST", 0x4A02C, [], 0x0, [⟨31, 0, .w1c⟩]⟩,
  ⟨"CHN_RELOC", 0x4A030, [], 0x0, []⟩,
  ⟨"CHN_IDX_CFG", 0x4A034, [], 0x3C, [⟨15, 0, .rw⟩]⟩]

/-- The rows of the CHN block. -/
def rowsCHN : List RegRow := rowsCHN0 ++ rowsCHN1

/-! ### SPN registers -/

abbrev SPN_CTL (s : Nat) : Nat := 0x50000 + 0x8000 * s
abbrev SPN_CTL_ENABLE (s : Nat) : Fld := ⟨(SPN_CTL s), 0, 0⟩
abbrev SPN_STAT (s : Nat) : Nat := 0x50004 + 0x8000 * s
abbrev SPN_STAT_BRAKE (s : Nat) : Fld := ⟨(SPN_STAT s), 19, 16⟩
abbrev SPN_STAT_SRC (s : Nat) : Fld := ⟨(SPN_STAT s), 15, 14⟩
abbrev SPN_STAT_INDEXED (s : Nat) : Fld := ⟨(SPN_STAT s), 13, 13⟩
abbrev SPN_STAT_OBS_VALID (s : Nat) : Fld := ⟨(SPN_STAT s), 12, 12⟩
abbrev SPN_STAT_ENC_VALID (s : Nat) : Fld := ⟨(SPN_STAT s), 11, 11⟩
abbrev SPN_STAT_AT_SPEED (s : Nat) : Fld := ⟨(SPN_STAT s), 10, 10⟩
abbrev SPN_STAT_STOPPED (s : Nat) : Fld := ⟨(SPN_STAT s), 9, 9⟩
abbrev SPN_STAT_UV_HOLD (s : Nat) : Fld := ⟨(SPN_STAT s), 8, 8⟩
abbrev SPN_STAT_ENC_UNUSABLE (s : Nat) : Fld := ⟨(SPN_STAT s), 7, 7⟩
abbrev SPN_STAT_OBS_UNUSABLE (s : Nat) : Fld := ⟨(SPN_STAT s), 6, 6⟩
abbrev SPN_STAT_STATE (s : Nat) : Fld := ⟨(SPN_STAT s), 3, 0⟩
abbrev SPN_CMD (s : Nat) : Nat := 0x50008 + 0x8000 * s
abbrev SPN_CMD_TARGET (s : Nat) : Fld := ⟨(SPN_CMD s), 31, 16⟩
abbrev SPN_CMD_OP (s : Nat) : Fld := ⟨(SPN_CMD s), 3, 0⟩
abbrev SPN_CMD_STAT (s : Nat) : Nat := 0x5000C + 0x8000 * s
abbrev SPN_CMD_STAT_SEQ (s : Nat) : Fld := ⟨(SPN_CMD_STAT s), 31, 24⟩
abbrev SPN_CMD_STAT_RESULT (s : Nat) : Fld := ⟨(SPN_CMD_STAT s), 23, 20⟩
abbrev SPN_CMD_STAT_OP (s : Nat) : Fld := ⟨(SPN_CMD_STAT s), 19, 16⟩
abbrev SPN_SPEED (s : Nat) : Nat := 0x50010 + 0x8000 * s
abbrev SPN_SPEED_TARGET (s : Nat) : Fld := ⟨(SPN_SPEED s), 31, 16⟩
abbrev SPN_SPEED_MEAS (s : Nat) : Fld := ⟨(SPN_SPEED s), 15, 0⟩
abbrev SPN_ANGLE (s : Nat) : Nat := 0x50014 + 0x8000 * s
abbrev SPN_ANGLE_REVS (s : Nat) : Fld := ⟨(SPN_ANGLE s), 31, 24⟩
abbrev SPN_ANGLE_COUNT (s : Nat) : Fld := ⟨(SPN_ANGLE s), 16, 0⟩
abbrev SPN_OBS (s : Nat) : Nat := 0x50018 + 0x8000 * s
abbrev SPN_OBS_SPEED (s : Nat) : Fld := ⟨(SPN_OBS s), 31, 16⟩
abbrev SPN_OBS_DIFF (s : Nat) : Fld := ⟨(SPN_OBS s), 15, 0⟩
abbrev SPN_LIM (s : Nat) : Nat := 0x5001C + 0x8000 * s
abbrev SPN_LIM_OVERSPEED (s : Nat) : Fld := ⟨(SPN_LIM s), 31, 16⟩
abbrev SPN_LIM_SPD_MAX (s : Nat) : Fld := ⟨(SPN_LIM s), 15, 0⟩
abbrev SPN_ILIM (s : Nat) : Nat := 0x50020 + 0x8000 * s
abbrev SPN_ILIM_BAND (s : Nat) : Fld := ⟨(SPN_ILIM s), 23, 16⟩
abbrev SPN_ILIM_ZV (s : Nat) : Fld := ⟨(SPN_ILIM s), 15, 8⟩
abbrev SPN_ILIM_RUN (s : Nat) : Fld := ⟨(SPN_ILIM s), 7, 0⟩
abbrev SPN_INIT (s : Nat) : Nat := 0x50024 + 0x8000 * s
abbrev SPN_INIT_ALIGN_I (s : Nat) : Fld := ⟨(SPN_INIT s), 31, 24⟩
abbrev SPN_INIT_MIN_DIFF (s : Nat) : Fld := ⟨(SPN_INIT s), 23, 16⟩
abbrev SPN_INIT_I_MAX (s : Nat) : Fld := ⟨(SPN_INIT s), 7, 0⟩
abbrev SPN_INIT_STAT (s : Nat) : Nat := 0x50028 + 0x8000 * s
abbrev SPN_INIT_STAT_VALID (s : Nat) : Fld := ⟨(SPN_INIT_STAT s), 31, 31⟩
abbrev SPN_INIT_STAT_FALLBACK (s : Nat) : Fld := ⟨(SPN_INIT_STAT s), 30, 30⟩
abbrev SPN_INIT_STAT_QUALITY (s : Nat) : Fld := ⟨(SPN_INIT_STAT s), 23, 16⟩
abbrev SPN_INIT_STAT_ANGLE (s : Nat) : Fld := ⟨(SPN_INIT_STAT s), 8, 0⟩
abbrev SPN_ENC_CFG (s : Nat) : Nat := 0x5002C + 0x8000 * s
abbrev SPN_ENC_CFG_AMP_HI (s : Nat) : Fld := ⟨(SPN_ENC_CFG s), 23, 16⟩
abbrev SPN_ENC_CFG_AMP_LO (s : Nat) : Fld := ⟨(SPN_ENC_CFG s), 15, 8⟩
abbrev SPN_ENC_CFG_INDEX_TOL (s : Nat) : Fld := ⟨(SPN_ENC_CFG s), 7, 0⟩
abbrev SPN_COMM (s : Nat) : Nat := 0x50030 + 0x8000 * s
abbrev SPN_COMM_ADV (s : Nat) : Fld := ⟨(SPN_COMM s), 31, 16⟩
abbrev SPN_COMM_OFFS (s : Nat) : Fld := ⟨(SPN_COMM s), 15, 0⟩
abbrev SPN_KE (s : Nat) : Nat := 0x50034 + 0x8000 * s
abbrev SPN_KE_MEAS (s : Nat) : Fld := ⟨(SPN_KE s), 31, 16⟩
abbrev SPN_KE_NOM (s : Nat) : Fld := ⟨(SPN_KE s), 15, 0⟩
abbrev SPN_KE_STAT (s : Nat) : Nat := 0x50038 + 0x8000 * s
abbrev SPN_KE_STAT_CHECKS (s : Nat) : Fld := ⟨(SPN_KE_STAT s), 15, 8⟩
abbrev SPN_KE_STAT_DEV (s : Nat) : Fld := ⟨(SPN_KE_STAT s), 7, 0⟩
abbrev SPN_MAR_CTL (s : Nat) : Nat := 0x50040 + 0x8000 * s
abbrev SPN_MAR_CTL_EN (s : Nat) : Fld := ⟨(SPN_MAR_CTL s), 0, 0⟩
abbrev SPN_MAR_CFG (s : Nat) : Nat := 0x50044 + 0x8000 * s
abbrev SPN_MAR_CFG_TRIM (s : Nat) : Fld := ⟨(SPN_MAR_CFG s), 15, 8⟩
abbrev SPN_MAR_CFG_TOL (s : Nat) : Fld := ⟨(SPN_MAR_CFG s), 7, 0⟩
abbrev SPN_MAR_STAT (s : Nat) : Nat := 0x50048 + 0x8000 * s
abbrev SPN_MAR_STAT_LOCKED (s : Nat) : Fld := ⟨(SPN_MAR_STAT s), 31, 31⟩
abbrev SPN_MAR_STAT_RATE_MISMATCH (s : Nat) : Fld := ⟨(SPN_MAR_STAT s), 30, 30⟩
abbrev SPN_MAR_STAT_ERR (s : Nat) : Fld := ⟨(SPN_MAR_STAT s), 15, 0⟩
abbrev SPN_HOLD (s : Nat) : Nat := 0x50050 + 0x8000 * s
abbrev SPN_HOLD_MIN_RPM (s : Nat) : Fld := ⟨(SPN_HOLD s), 31, 16⟩
abbrev SPN_HOLD_VSET (s : Nat) : Fld := ⟨(SPN_HOLD s), 9, 0⟩
abbrev SPN_LOST_STAT (s : Nat) : Nat := 0x50054 + 0x8000 * s
abbrev SPN_LOST_STAT_OUTCOME (s : Nat) : Fld := ⟨(SPN_LOST_STAT s), 31, 30⟩
abbrev SPN_LOST_STAT_SPEED (s : Nat) : Fld := ⟨(SPN_LOST_STAT s), 15, 0⟩
abbrev SPN_CNT (s : Nat) : Nat := 0x50058 + 0x8000 * s
abbrev SPN_CNT_ZV_ENTRIES (s : Nat) : Fld := ⟨(SPN_CNT s), 31, 16⟩
abbrev SPN_CNT_SPINUPS (s : Nat) : Fld := ⟨(SPN_CNT s), 15, 0⟩
abbrev SPN_DIS_CNT (s : Nat) : Nat := 0x5005C + 0x8000 * s
abbrev SPN_DIS_CNT_DISAGREE (s : Nat) : Fld := ⟨(SPN_DIS_CNT s), 15, 0⟩

def rowsSPN0 : List RegRow := [
  ⟨"SPN_CTL", 0x50000, [(0x8000, 2)], 0x1, [⟨0, 0, .rw⟩]⟩,
  ⟨"SPN_STAT", 0x50004, [(0x8000, 2)], 0x0, []⟩,
  ⟨"SPN_CMD", 0x50008, [(0x8000, 2)], 0x0, [⟨31, 16, .wo⟩, ⟨3, 0, .wo⟩]⟩,
  ⟨"SPN_CMD_STAT", 0x5000C, [(0x8000, 2)], 0x0, []⟩,
  ⟨"SPN_SPEED", 0x50010, [(0x8000, 2)], 0x0, []⟩,
  ⟨"SPN_ANGLE", 0x50014, [(0x8000, 2)], 0x0, []⟩,
  ⟨"SPN_OBS", 0x50018, [(0x8000, 2)], 0x0, []⟩,
  ⟨"SPN_LIM", 0x5001C, [(0x8000, 2)], 0x1E781D4C, [⟨31, 16, .rws⟩, ⟨15, 0, .rws⟩]⟩,
  ⟨"SPN_ILIM", 0x50020, [(0x8000, 2)], 0x143C50, [⟨23, 16, .rws⟩, ⟨15, 8, .rws⟩, ⟨7, 0, .rws⟩]⟩,
  ⟨"SPN_INIT", 0x50024, [(0x8000, 2)], 0x1E040050, [⟨31, 24, .rw⟩, ⟨23, 16, .rw⟩, ⟨7, 0, .rw⟩]⟩,
  ⟨"SPN_INIT_STAT", 0x50028, [(0x8000, 2)], 0x0, []⟩,
  ⟨"SPN_ENC_CFG", 0x5002C, [(0x8000, 2)], 0x8C3C10, [⟨23, 16, .rw⟩, ⟨15, 8, .rw⟩, ⟨7, 0, .rw⟩]⟩,
  ⟨"SPN_COMM", 0x50030, [(0x8000, 2)], 0x0, [⟨31, 16, .rw⟩, ⟨15, 0, .rw⟩]⟩,
  ⟨"SPN_KE", 0x50034, [(0x8000, 2)], 0x0, []⟩,
  ⟨"SPN_KE_STAT", 0x50038, [(0x8000, 2)], 0x0, []⟩,
  ⟨"SPN_MAR_CTL", 0x50040, [(0x8000, 2)], 0x0, [⟨0, 0, .rw⟩]⟩,
  ⟨"SPN_MAR_CFG", 0x50044, [(0x8000, 2)], 0xA32, [⟨15, 8, .rws⟩, ⟨7, 0, .rws⟩]⟩,
  ⟨"SPN_MAR_STAT", 0x50048, [(0x8000, 2)], 0x0, []⟩,
  ⟨"SPN_HOLD", 0x50050, [(0x8000, 2)], 0x258012C, [⟨31, 16, .rw⟩, ⟨9, 0, .rws⟩]⟩,
  ⟨"SPN_LOST_STAT", 0x50054, [(0x8000, 2)], 0x0, []⟩,
  ⟨"SPN_CNT", 0x50058, [(0x8000, 2)], 0x0, [⟨31, 16, .w1c⟩]⟩,
  ⟨"SPN_DIS_CNT", 0x5005C, [(0x8000, 2)], 0x0, [⟨15, 0, .w1c⟩]⟩]

/-- The rows of the SPN block. -/
def rowsSPN : List RegRow := rowsSPN0

/-! ### AX registers -/

abbrev AX_CTL (a : Nat) : Nat := 0x60000 + 0x1000 * a
abbrev AX_CTL_MODE (a : Nat) : Fld := ⟨(AX_CTL a), 9, 8⟩
abbrev AX_CTL_PARK (a : Nat) : Fld := ⟨(AX_CTL a), 5, 5⟩
abbrev AX_CTL_HOME (a : Nat) : Fld := ⟨(AX_CTL a), 4, 4⟩
abbrev AX_CTL_ESTOP (a : Nat) : Fld := ⟨(AX_CTL a), 3, 3⟩
abbrev AX_CTL_STOP (a : Nat) : Fld := ⟨(AX_CTL a), 2, 2⟩
abbrev AX_CTL_START (a : Nat) : Fld := ⟨(AX_CTL a), 1, 1⟩
abbrev AX_CTL_ENABLE (a : Nat) : Fld := ⟨(AX_CTL a), 0, 0⟩
abbrev AX_STAT (a : Nat) : Nat := 0x60004 + 0x1000 * a
abbrev AX_STAT_LEAD (a : Nat) : Fld := ⟨(AX_STAT a), 14, 14⟩
abbrev AX_STAT_INTERP (a : Nat) : Fld := ⟨(AX_STAT a), 13, 13⟩
abbrev AX_STAT_HOME_REV (a : Nat) : Fld := ⟨(AX_STAT a), 12, 12⟩
abbrev AX_STAT_CHATTER (a : Nat) : Fld := ⟨(AX_STAT a), 11, 11⟩
abbrev AX_STAT_HOME_SW (a : Nat) : Fld := ⟨(AX_STAT a), 10, 10⟩
abbrev AX_STAT_LIM_POS (a : Nat) : Fld := ⟨(AX_STAT a), 9, 9⟩
abbrev AX_STAT_LIM_NEG (a : Nat) : Fld := ⟨(AX_STAT a), 8, 8⟩
abbrev AX_STAT_DETENT (a : Nat) : Fld := ⟨(AX_STAT a), 7, 7⟩
abbrev AX_STAT_DEC_HELD (a : Nat) : Fld := ⟨(AX_STAT a), 6, 6⟩
abbrev AX_STAT_STRONG (a : Nat) : Fld := ⟨(AX_STAT a), 5, 5⟩
abbrev AX_STAT_HOMED (a : Nat) : Fld := ⟨(AX_STAT a), 4, 4⟩
abbrev AX_STAT_STATE (a : Nat) : Fld := ⟨(AX_STAT a), 3, 0⟩
abbrev AX_RES (a : Nat) : Nat := 0x60008 + 0x1000 * a
abbrev AX_RES_SEQ (a : Nat) : Fld := ⟨(AX_RES a), 31, 24⟩
abbrev AX_RES_RESULT (a : Nat) : Fld := ⟨(AX_RES a), 23, 20⟩
abbrev AX_RES_OP (a : Nat) : Fld := ⟨(AX_RES a), 19, 16⟩
abbrev AX_POS (a : Nat) : Nat := 0x6000C + 0x1000 * a
abbrev AX_POS_POS (a : Nat) : Fld := ⟨(AX_POS a), 31, 0⟩
abbrev AX_TGT (a : Nat) : Nat := 0x60010 + 0x1000 * a
abbrev AX_TGT_TGT (a : Nat) : Fld := ⟨(AX_TGT a), 31, 0⟩
abbrev AX_VEL (a : Nat) : Nat := 0x60014 + 0x1000 * a
abbrev AX_VEL_VEL (a : Nat) : Fld := ⟨(AX_VEL a), 31, 0⟩
abbrev AX_VSS (a : Nat) : Nat := 0x60018 + 0x1000 * a
abbrev AX_VSS_V_STOP (a : Nat) : Fld := ⟨(AX_VSS a), 31, 16⟩
abbrev AX_VSS_V_START (a : Nat) : Fld := ⟨(AX_VSS a), 15, 0⟩
abbrev AX_VBM (a : Nat) : Nat := 0x6001C + 0x1000 * a
abbrev AX_VBM_VMAX (a : Nat) : Fld := ⟨(AX_VBM a), 31, 16⟩
abbrev AX_VBM_V_BREAK (a : Nat) : Fld := ⟨(AX_VBM a), 15, 0⟩
abbrev AX_ACC (a : Nat) : Nat := 0x60020 + 0x1000 * a
abbrev AX_ACC_ACC_2 (a : Nat) : Fld := ⟨(AX_ACC a), 31, 16⟩
abbrev AX_ACC_ACC_1 (a : Nat) : Fld := ⟨(AX_ACC a), 15, 0⟩
abbrev AX_DEC (a : Nat) : Nat := 0x60024 + 0x1000 * a
abbrev AX_DEC_DEC_2 (a : Nat) : Fld := ⟨(AX_DEC a), 31, 16⟩
abbrev AX_DEC_DEC_1 (a : Nat) : Fld := ⟨(AX_DEC a), 15, 0⟩
abbrev AX_EDEC (a : Nat) : Nat := 0x60028 + 0x1000 * a
abbrev AX_EDEC_EMERG_DEC (a : Nat) : Fld := ⟨(AX_EDEC a), 15, 0⟩
abbrev AX_CUR (a : Nat) : Nat := 0x6002C + 0x1000 * a
abbrev AX_CUR_AUTO_OFF (a : Nat) : Fld := ⟨(AX_CUR a), 28, 28⟩
abbrev AX_CUR_HYS (a : Nat) : Fld := ⟨(AX_CUR a), 27, 24⟩
abbrev AX_CUR_SW_V (a : Nat) : Fld := ⟨(AX_CUR a), 23, 12⟩
abbrev AX_CUR_FORCE (a : Nat) : Fld := ⟨(AX_CUR a), 11, 9⟩
abbrev AX_CUR_RUN (a : Nat) : Fld := ⟨(AX_CUR a), 8, 0⟩
abbrev AX_HOME_CFG (a : Nat) : Nat := 0x60030 + 0x1000 * a
abbrev AX_HOME_CFG_DIR (a : Nat) : Fld := ⟨(AX_HOME_CFG a), 31, 31⟩
abbrev AX_HOME_CFG_BACK (a : Nat) : Fld := ⟨(AX_HOME_CFG a), 30, 24⟩
abbrev AX_HOME_CFG_HOME_VS (a : Nat) : Fld := ⟨(AX_HOME_CFG a), 23, 12⟩
abbrev AX_HOME_CFG_HOME_V (a : Nat) : Fld := ⟨(AX_HOME_CFG a), 11, 0⟩
abbrev AX_HOME_POS (a : Nat) : Nat := 0x60034 + 0x1000 * a
abbrev AX_HOME_POS_HOME_POS (a : Nat) : Fld := ⟨(AX_HOME_POS a), 31, 0⟩
abbrev AX_LIM_CFG (a : Nat) : Nat := 0x60038 + 0x1000 * a
abbrev AX_LIM_CFG_POL (a : Nat) : Fld := ⟨(AX_LIM_CFG a), 18, 16⟩
abbrev AX_LIM_CFG_CHAT_N (a : Nat) : Fld := ⟨(AX_LIM_CFG a), 11, 8⟩
abbrev AX_LIM_CFG_LIM_DEB (a : Nat) : Fld := ⟨(AX_LIM_CFG a), 7, 0⟩
abbrev AX_SW (a : Nat) : Nat := 0x6003C + 0x1000 * a
abbrev AX_SW_CHAT_CNT (a : Nat) : Fld := ⟨(AX_SW a), 31, 16⟩
abbrev AX_SW_TRANS (a : Nat) : Fld := ⟨(AX_SW a), 15, 8⟩
abbrev AX_SW_DEB (a : Nat) : Fld := ⟨(AX_SW a), 6, 4⟩
abbrev AX_SW_RAW (a : Nat) : Fld := ⟨(AX_SW a), 2, 0⟩
abbrev AX_SLIM_LO (a : Nat) : Nat := 0x60040 + 0x1000 * a
abbrev AX_SLIM_LO_LIM (a : Nat) : Fld := ⟨(AX_SLIM_LO a), 31, 0⟩
abbrev AX_SLIM_HI (a : Nat) : Nat := 0x60044 + 0x1000 * a
abbrev AX_SLIM_HI_LIM (a : Nat) : Fld := ⟨(AX_SLIM_HI a), 31, 0⟩
abbrev AX_GEAR_RATIO (a : Nat) : Nat := 0x60048 + 0x1000 * a
abbrev AX_GEAR_RATIO_RATIO (a : Nat) : Fld := ⟨(AX_GEAR_RATIO a), 31, 0⟩
abbrev AX_GEAR_NEXT (a : Nat) : Nat := 0x6004C + 0x1000 * a
abbrev AX_GEAR_NEXT_NEXT (a : Nat) : Fld := ⟨(AX_GEAR_NEXT a), 31, 0⟩
abbrev AX_GEAR_AT (a : Nat) : Nat := 0x60050 + 0x1000 * a
abbrev AX_GEAR_AT_ARM (a : Nat) : Fld := ⟨(AX_GEAR_AT a), 31, 31⟩
abbrev AX_GEAR_AT_REVS (a : Nat) : Fld := ⟨(AX_GEAR_AT a), 24, 17⟩
abbrev AX_GEAR_AT_COUNT (a : Nat) : Fld := ⟨(AX_GEAR_AT a), 16, 0⟩

def rowsAX0 : List RegRow := [
  ⟨"AX_CTL", 0x60000, [(0x1000, 7)], 0x1, [⟨9, 8, .rw⟩, ⟨5, 5, .wo⟩, ⟨4, 4, .wo⟩, ⟨3, 3, .wo⟩, ⟨2, 2, .wo⟩, ⟨1, 1, .wo⟩, ⟨0, 0, .rw⟩]⟩,
  ⟨"AX_STAT", 0x60004, [(0x1000, 7)], 0x0, []⟩,
  ⟨"AX_RES", 0x60008, [(0x1000, 7)], 0x0, []⟩,
  ⟨"AX_POS", 0x6000C, [(0x1000, 7)], 0x0, []⟩,
  ⟨"AX_TGT", 0x60010, [(0x1000, 7)], 0x0, [⟨31, 0, .rw⟩]⟩,
  ⟨"AX_VEL", 0x60014, [(0x1000, 7)], 0x0, []⟩,
  ⟨"AX_VSS", 0x60018, [(0x1000, 7)], 0x0, [⟨31, 16, .rw⟩, ⟨15, 0, .rw⟩]⟩,
  ⟨"AX_VBM", 0x6001C, [(0x1000, 7)], 0x0, [⟨31, 16, .rw⟩, ⟨15, 0, .rw⟩]⟩,
  ⟨"AX_ACC", 0x60020, [(0x1000, 7)], 0x0, [⟨31, 16, .rw⟩, ⟨15, 0, .rw⟩]⟩,
  ⟨"AX_DEC", 0x60024, [(0x1000, 7)], 0x0, [⟨31, 16, .rw⟩, ⟨15, 0, .rw⟩]⟩,
  ⟨"AX_EDEC", 0x60028, [(0x1000, 7)], 0x0, [⟨15, 0, .rw⟩]⟩,
  ⟨"AX_CUR", 0x6002C, [(0x1000, 7)], 0x1A078000, [⟨28, 28, .rw⟩, ⟨27, 24, .rw⟩, ⟨23, 12, .rw⟩, ⟨11, 9, .rw⟩, ⟨8, 0, .rw⟩]⟩,
  ⟨"AX_HOME_CFG", 0x60030, [(0x1000, 7)], 0x80C8000, [⟨31, 31, .rw⟩, ⟨30, 24, .rw⟩, ⟨23, 12, .rw⟩, ⟨11, 0, .rw⟩]⟩,
  ⟨"AX_HOME_POS", 0x60034, [(0x1000, 7)], 0x0, [⟨31, 0, .rw⟩]⟩,
  ⟨"AX_LIM_CFG", 0x60038, [(0x1000, 7)], 0x810, [⟨11, 8, .rw⟩, ⟨7, 0, .rw⟩]⟩,
  ⟨"AX_SW", 0x6003C, [(0x1000, 7)], 0x0, [⟨31, 16, .w1c⟩]⟩,
  ⟨"AX_SLIM_LO", 0x60040, [(0x1000, 7)], 0x0, [⟨31, 0, .rw⟩]⟩,
  ⟨"AX_SLIM_HI", 0x60044, [(0x1000, 7)], 0x0, [⟨31, 0, .rw⟩]⟩,
  ⟨"AX_GEAR_RATIO", 0x60048, [(0x1000, 7)], 0x0, [⟨31, 0, .rw⟩]⟩,
  ⟨"AX_GEAR_NEXT", 0x6004C, [(0x1000, 7)], 0x0, [⟨31, 0, .rw⟩]⟩,
  ⟨"AX_GEAR_AT", 0x60050, [(0x1000, 7)], 0x0, [⟨31, 31, .rw⟩, ⟨24, 17, .rw⟩, ⟨16, 0, .rw⟩]⟩]

/-- The rows of the AX block. -/
def rowsAX : List RegRow := rowsAX0

/-! ### MAG registers -/

abbrev MAG_CMD : Nat := 0x70000
abbrev MAG_CMD_SLOT : Fld := ⟨MAG_CMD, 20, 16⟩
abbrev MAG_CMD_STN : Fld := ⟨MAG_CMD, 8, 8⟩
abbrev MAG_CMD_OP : Fld := ⟨MAG_CMD, 3, 0⟩
abbrev MAG_CMD_STAT : Nat := 0x70004
abbrev MAG_CMD_STAT_SEQ : Fld := ⟨MAG_CMD_STAT, 31, 24⟩
abbrev MAG_CMD_STAT_RESULT : Fld := ⟨MAG_CMD_STAT, 23, 20⟩
abbrev MAG_CMD_STAT_OP : Fld := ⟨MAG_CMD_STAT, 19, 16⟩
abbrev MAG_CMD_STAT_REASON : Fld := ⟨MAG_CMD_STAT, 3, 0⟩
abbrev MAG_STAT : Nat := 0x70008
abbrev MAG_STAT_IN_CORR : Fld := ⟨MAG_STAT, 15, 15⟩
abbrev MAG_STAT_CLAMP_1 : Fld := ⟨MAG_STAT, 14, 14⟩
abbrev MAG_STAT_CLAMP_0 : Fld := ⟨MAG_STAT, 13, 13⟩
abbrev MAG_STAT_GRIP_DISC : Fld := ⟨MAG_STAT, 12, 12⟩
abbrev MAG_STAT_STEP : Fld := ⟨MAG_STAT, 7, 4⟩
abbrev MAG_STAT_STATE : Fld := ⟨MAG_STAT, 3, 0⟩
abbrev MAG_INV_PRES : Nat := 0x70010
abbrev MAG_INV_PRES_PRES : Fld := ⟨MAG_INV_PRES, 23, 0⟩
abbrev MAG_INV_KNOWN : Nat := 0x70014
abbrev MAG_INV_KNOWN_KNOWN : Fld := ⟨MAG_INV_KNOWN, 23, 0⟩
abbrev MAG_STN_SRC : Nat := 0x70018
abbrev MAG_STN_SRC_VALID_1 : Fld := ⟨MAG_STN_SRC, 15, 15⟩
abbrev MAG_STN_SRC_SLOT_1 : Fld := ⟨MAG_STN_SRC, 12, 8⟩
abbrev MAG_STN_SRC_VALID_0 : Fld := ⟨MAG_STN_SRC, 7, 7⟩
abbrev MAG_STN_SRC_SLOT_0 : Fld := ⟨MAG_STN_SRC, 4, 0⟩
abbrev MAG_EXCH_CFG : Nat := 0x70050
abbrev MAG_EXCH_CFG_SETTLE : Fld := ⟨MAG_EXCH_CFG, 15, 0⟩
abbrev MAG_EXCH_STAT : Nat := 0x70054
abbrev MAG_EXCH_STAT_OUTCOME : Fld := ⟨MAG_EXCH_STAT, 31, 30⟩
abbrev MAG_EXCH_STAT_STEP : Fld := ⟨MAG_EXCH_STAT, 29, 26⟩
abbrev MAG_EXCH_STAT_REASON : Fld := ⟨MAG_EXCH_STAT, 19, 16⟩
abbrev MAG_EXCH_STAT_DUR : Fld := ⟨MAG_EXCH_STAT, 15, 0⟩
abbrev MAG_SLOT_Z0 : Nat := 0x70020
abbrev MAG_SLOT_Z0_SLOT_Z0 : Fld := ⟨MAG_SLOT_Z0, 31, 0⟩
abbrev MAG_SLOT_PITCH : Nat := 0x70024
abbrev MAG_SLOT_PITCH_SLOT_PITCH : Fld := ⟨MAG_SLOT_PITCH, 31, 0⟩
abbrev MAG_STN_Z_0 : Nat := 0x70028
abbrev MAG_STN_Z_0_STN_Z_0 : Fld := ⟨MAG_STN_Z_0, 31, 0⟩
abbrev MAG_STN_Z_1 : Nat := 0x7002C
abbrev MAG_STN_Z_1_STN_Z_1 : Fld := ⟨MAG_STN_Z_1, 31, 0⟩
abbrev MAG_X_SLOT : Nat := 0x70030
abbrev MAG_X_SLOT_X_SLOT : Fld := ⟨MAG_X_SLOT, 31, 0⟩
abbrev MAG_X_STN : Nat := 0x70034
abbrev MAG_X_STN_X_STN : Fld := ⟨MAG_X_STN, 31, 0⟩
abbrev MAG_X_CORR_LO : Nat := 0x70038
abbrev MAG_X_CORR_LO_X_CORR_LO : Fld := ⟨MAG_X_CORR_LO, 31, 0⟩
abbrev MAG_X_CORR_HI : Nat := 0x7003C
abbrev MAG_X_CORR_HI_X_CORR_HI : Fld := ⟨MAG_X_CORR_HI, 31, 0⟩
abbrev MAG_G_OPEN : Nat := 0x70040
abbrev MAG_G_OPEN_G_OPEN : Fld := ⟨MAG_G_OPEN, 31, 0⟩
abbrev MAG_G_GRIP : Nat := 0x70044
abbrev MAG_G_GRIP_G_GRIP : Fld := ⟨MAG_G_GRIP, 31, 0⟩

def rowsMAG0 : List RegRow := [
  ⟨"MAG_CMD", 0x70000, [], 0x0, [⟨20, 16, .wo⟩, ⟨8, 8, .wo⟩, ⟨3, 0, .wo⟩]⟩,
  ⟨"MAG_CMD_STAT", 0x70004, [], 0x0, []⟩,
  ⟨"MAG_STAT", 0x70008, [], 0x0, []⟩,
  ⟨"MAG_INV_PRES", 0x70010, [], 0x0, []⟩,
  ⟨"MAG_INV_KNOWN", 0x70014, [], 0x0, []⟩,
  ⟨"MAG_STN_SRC", 0x70018, [], 0x0, []⟩,
  ⟨"MAG_EXCH_CFG", 0x70050, [], 0x2710, [⟨15, 0, .rw⟩]⟩,
  ⟨"MAG_EXCH_STAT", 0x70054, [], 0x0, []⟩,
  ⟨"MAG_SLOT_Z0", 0x70020, [], 0x0, []⟩,
  ⟨"MAG_SLOT_PITCH", 0x70024, [], 0x0, []⟩,
  ⟨"MAG_STN_Z_0", 0x70028, [], 0x0, []⟩,
  ⟨"MAG_STN_Z_1", 0x7002C, [], 0x0, []⟩,
  ⟨"MAG_X_SLOT", 0x70030, [], 0x0, []⟩,
  ⟨"MAG_X_STN", 0x70034, [], 0x0, []⟩,
  ⟨"MAG_X_CORR_LO", 0x70038, [], 0x0, []⟩,
  ⟨"MAG_X_CORR_HI", 0x7003C, [], 0x0, []⟩,
  ⟨"MAG_G_OPEN", 0x70040, [], 0x0, []⟩,
  ⟨"MAG_G_GRIP", 0x70044, [], 0x0, []⟩]

/-- The rows of the MAG block. -/
def rowsMAG : List RegRow := rowsMAG0

/-! ### PLC registers -/

abbrev PLC_STAT : Nat := 0x80000
abbrev PLC_STAT_DM_VALID : Fld := ⟨PLC_STAT, 31, 31⟩
abbrev PLC_STAT_STALE : Fld := ⟨PLC_STAT, 30, 30⟩
abbrev PLC_STAT_CONFLICT : Fld := ⟨PLC_STAT, 29, 29⟩
abbrev PLC_STAT_PLACE_OK : Fld := ⟨PLC_STAT, 28, 28⟩
abbrev PLC_STAT_DOWN : Fld := ⟨PLC_STAT, 25, 16⟩
abbrev PLC_STAT_ACTIVE : Fld := ⟨PLC_STAT, 9, 0⟩
abbrev PLC_DM_ID_LO : Nat := 0x80010
abbrev PLC_DM_ID_LO_ID : Fld := ⟨PLC_DM_ID_LO, 31, 0⟩
abbrev PLC_DM_ID_HI : Nat := 0x80014
abbrev PLC_DM_ID_HI_ID : Fld := ⟨PLC_DM_ID_HI, 31, 0⟩
abbrev PLC_DM_EPOCH : Nat := 0x80018
abbrev PLC_DM_EPOCH_EPOCH : Fld := ⟨PLC_DM_EPOCH, 31, 0⟩
abbrev PLC_DM_TAG_LO : Nat := 0x8001C
abbrev PLC_DM_TAG_LO_TAG : Fld := ⟨PLC_DM_TAG_LO, 31, 0⟩
abbrev PLC_DM_TAG_HI : Nat := 0x80020
abbrev PLC_DM_TAG_HI_TAG : Fld := ⟨PLC_DM_TAG_HI, 31, 0⟩
abbrev PLC_DM_SELF : Nat := 0x80024
abbrev PLC_DM_SELF_SELF : Fld := ⟨PLC_DM_SELF, 8, 0⟩
abbrev PLC_DM_SEEN : Nat := 0x80028
abbrev PLC_DM_SEEN_EPOCH : Fld := ⟨PLC_DM_SEEN, 31, 0⟩
abbrev PLC_DM_SEEN_TAG : Nat := 0x8002C
abbrev PLC_DM_SEEN_TAG_TAG : Fld := ⟨PLC_DM_SEEN_TAG, 31, 9⟩
abbrev PLC_DM_SEEN_TAG_SRC : Fld := ⟨PLC_DM_SEEN_TAG, 8, 0⟩
abbrev PLC_DM_SEEN_TAG_LO : Nat := 0x80088
abbrev PLC_DM_SEEN_TAG_LO_TAG : Fld := ⟨PLC_DM_SEEN_TAG_LO, 31, 0⟩
abbrev PLC_DM_SEEN_TAG_HI : Nat := 0x8008C
abbrev PLC_DM_SEEN_TAG_HI_TAG : Fld := ⟨PLC_DM_SEEN_TAG_HI, 31, 0⟩
abbrev PLC_DM_IDX : Nat := 0x80030
abbrev PLC_DM_IDX_ENTRY : Fld := ⟨PLC_DM_IDX, 11, 3⟩
abbrev PLC_DM_IDX_WORD : Fld := ⟨PLC_DM_IDX, 2, 0⟩
abbrev PLC_DM_DATA : Nat := 0x80034
abbrev PLC_DM_DATA_DATA : Fld := ⟨PLC_DM_DATA, 31, 0⟩
abbrev PLC_POL_IDX : Nat := 0x80040
abbrev PLC_POL_IDX_TENANT : Fld := ⟨PLC_POL_IDX, 11, 0⟩
abbrev PLC_POL_DATA : Nat := 0x80044
abbrev PLC_POL_DATA_VALID : Fld := ⟨PLC_POL_DATA, 31, 31⟩
abbrev PLC_POL_DATA_REPL_WAIT : Fld := ⟨PLC_POL_DATA, 27, 24⟩
abbrev PLC_POL_DATA_KEEP_VER : Fld := ⟨PLC_POL_DATA, 23, 20⟩
abbrev PLC_POL_DATA_LATENCY : Fld := ⟨PLC_POL_DATA, 19, 18⟩
abbrev PLC_POL_DATA_SEPARATION : Fld := ⟨PLC_POL_DATA, 17, 16⟩
abbrev PLC_POL_DATA_GROUPING : Fld := ⟨PLC_POL_DATA, 15, 15⟩
abbrev PLC_POL_DATA_ACK : Fld := ⟨PLC_POL_DATA, 7, 4⟩
abbrev PLC_POL_DATA_REPLICAS : Fld := ⟨PLC_POL_DATA, 3, 0⟩
abbrev PLC_E_EXCH : Nat := 0x80050
abbrev PLC_E_EXCH_E_EXCH : Fld := ⟨PLC_E_EXCH, 15, 0⟩
abbrev PLC_E_SPIN : Nat := 0x80054
abbrev PLC_E_SPIN_E_SPIN : Fld := ⟨PLC_E_SPIN, 15, 0⟩
abbrev PLC_E_RW : Nat := 0x80058
abbrev PLC_E_RW_E_WR : Fld := ⟨PLC_E_RW, 31, 16⟩
abbrev PLC_E_RW_E_RD : Fld := ⟨PLC_E_RW, 15, 0⟩
abbrev PLC_T_EXCH : Nat := 0x8005C
abbrev PLC_T_EXCH_T_EXCH : Fld := ⟨PLC_T_EXCH, 15, 0⟩
abbrev PLC_W : Nat := 0x80060
abbrev PLC_W_W_ECON : Fld := ⟨PLC_W, 23, 16⟩
abbrev PLC_W_W_FAST : Fld := ⟨PLC_W, 15, 8⟩
abbrev PLC_W_W_STD : Fld := ⟨PLC_W, 7, 0⟩
abbrev PLC_PEER_CFG : Nat := 0x80070
abbrev PLC_PEER_CFG_PORT : Fld := ⟨PLC_PEER_CFG, 31, 16⟩
abbrev PLC_PEER_CFG_CAND : Fld := ⟨PLC_PEER_CFG, 15, 12⟩
abbrev PLC_PEER_CFG_PROG_TMO : Fld := ⟨PLC_PEER_CFG, 11, 0⟩
abbrev PLC_PEER_TMO : Nat := 0x80074
abbrev PLC_PEER_TMO_HINT : Fld := ⟨PLC_PEER_TMO, 31, 24⟩
abbrev PLC_PEER_TMO_BID : Fld := ⟨PLC_PEER_TMO, 23, 16⟩
abbrev PLC_PEER_TMO_HINT_AGE : Fld := ⟨PLC_PEER_TMO, 15, 8⟩
abbrev PLC_PEER_TMO_DOWN_HOLD : Fld := ⟨PLC_PEER_TMO, 7, 0⟩
abbrev PLC_PEER_CNT : Nat := 0x80078
abbrev PLC_PEER_CNT_BAD_TAG : Fld := ⟨PLC_PEER_CNT, 31, 16⟩
abbrev PLC_PEER_CNT_FOREIGN : Fld := ⟨PLC_PEER_CNT, 15, 0⟩
abbrev PLC_CNT : Nat := 0x8007C
abbrev PLC_CNT_FAILOVER : Fld := ⟨PLC_CNT, 15, 0⟩
abbrev PLC_MAP_STAT : Nat := 0x80080
abbrev PLC_MAP_STAT_USED : Fld := ⟨PLC_MAP_STAT, 24, 0⟩
abbrev PLC_TOMB : Nat := 0x80084
abbrev PLC_TOMB_COPIES : Fld := ⟨PLC_TOMB, 1, 0⟩
abbrev PLC_MIG_CTL : Nat := 0x80090
abbrev PLC_MIG_CTL_STOP : Fld := ⟨PLC_MIG_CTL, 8, 8⟩
abbrev PLC_MIG_CTL_SLOT : Fld := ⟨PLC_MIG_CTL, 4, 0⟩
abbrev PLC_MIG_STAT : Nat := 0x80094
abbrev PLC_MIG_STAT_STATE : Fld := ⟨PLC_MIG_STAT, 31, 30⟩
abbrev PLC_MIG_STAT_NOKEY : Fld := ⟨PLC_MIG_STAT, 29, 16⟩
abbrev PLC_MIG_STAT_MOVED : Fld := ⟨PLC_MIG_STAT, 15, 0⟩
abbrev PLC_REREPL : Nat := 0x80098
abbrev PLC_REREPL_PENDING : Fld := ⟨PLC_REREPL, 31, 16⟩
abbrev PLC_REREPL_DONE : Fld := ⟨PLC_REREPL, 15, 0⟩
abbrev PLC_PEER_DOWN (w : Nat) : Nat := 0x80100 + 0x4 * w
abbrev PLC_PEER_DOWN_DOWN (w : Nat) : Fld := ⟨(PLC_PEER_DOWN w), 31, 0⟩
abbrev PLC_SLOT_W0 (s : Nat) : Nat := 0x80200 + 0x10 * s
abbrev PLC_SLOT_W0_STATE (s : Nat) : Fld := ⟨(PLC_SLOT_W0 s), 2, 0⟩
abbrev PLC_SLOT_W1 (s : Nat) : Nat := 0x80204 + 0x10 * s
abbrev PLC_SLOT_W1_FREE (s : Nat) : Fld := ⟨(PLC_SLOT_W1 s), 31, 0⟩
abbrev PLC_SLOT_W2 (s : Nat) : Nat := 0x80208 + 0x10 * s
abbrev PLC_SLOT_W2_LIVE (s : Nat) : Fld := ⟨(PLC_SLOT_W2 s), 31, 0⟩
abbrev PLC_SLOT_W3 (s : Nat) : Nat := 0x8020C + 0x10 * s
abbrev PLC_SLOT_W3_DEAD (s : Nat) : Fld := ⟨(PLC_SLOT_W3 s), 31, 0⟩

def rowsPLC0 : List RegRow := [
  ⟨"PLC_STAT", 0x80000, [], 0x0, []⟩,
  ⟨"PLC_DM_ID_LO", 0x80010, [], 0x0, [⟨31, 0, .rws⟩]⟩,
  ⟨"PLC_DM_ID_HI", 0x80014, [], 0x0, [⟨31, 0, .rws⟩]⟩,
  ⟨"PLC_DM_EPOCH", 0x80018, [], 0x0, [⟨31, 0, .rws⟩]⟩,
  ⟨"PLC_DM_TAG_LO", 0x8001C, [], 0x0, []⟩,
  ⟨"PLC_DM_TAG_HI", 0x80020, [], 0x0, []⟩,
  ⟨"PLC_DM_SELF", 0x80024, [], 0x0, [⟨8, 0, .rws⟩]⟩,
  ⟨"PLC_DM_SEEN", 0x80028, [], 0x0, []⟩,
  ⟨"PLC_DM_SEEN_TAG", 0x8002C, [], 0x0, []⟩,
  ⟨"PLC_DM_SEEN_TAG_LO", 0x80088, [], 0x0, []⟩,
  ⟨"PLC_DM_SEEN_TAG_HI", 0x8008C, [], 0x0, []⟩,
  ⟨"PLC_DM_IDX", 0x80030, [], 0x0, [⟨11, 3, .rw⟩, ⟨2, 0, .rw⟩]⟩,
  ⟨"PLC_DM_DATA", 0x80034, [], 0x0, [⟨31, 0, .rws⟩]⟩,
  ⟨"PLC_POL_IDX", 0x80040, [], 0x0, [⟨11, 0, .rw⟩]⟩,
  ⟨"PLC_POL_DATA", 0x80044, [], 0x5108011, [⟨31, 31, .rws⟩, ⟨27, 24, .rws⟩, ⟨23, 20, .rws⟩, ⟨19, 18, .rws⟩, ⟨17, 16, .rws⟩, ⟨15, 15, .rws⟩, ⟨7, 4, .rws⟩, ⟨3, 0, .rws⟩]⟩,
  ⟨"PLC_E_EXCH", 0x80050, [], 0x190, [⟨15, 0, .rw⟩]⟩,
  ⟨"PLC_E_SPIN", 0x80054, [], 0xFA, [⟨15, 0, .rw⟩]⟩,
  ⟨"PLC_E_RW", 0x80058, [], 0xE60021, [⟨31, 16, .rw⟩, ⟨15, 0, .rw⟩]⟩,
  ⟨"PLC_T_EXCH", 0x8005C, [], 0x1D4C, [⟨15, 0, .rw⟩]⟩,
  ⟨"PLC_W", 0x80060, [], 0x1640A, [⟨23, 16, .rw⟩, ⟨15, 8, .rw⟩, ⟨7, 0, .rw⟩]⟩,
  ⟨"PLC_PEER_CFG", 0x80070, [], 0xC2288064, [⟨31, 16, .rws⟩, ⟨15, 12, .rws⟩, ⟨11, 0, .rws⟩]⟩,
  ⟨"PLC_PEER_TMO", 0x80074, [], 0x205643C, [⟨31, 24, .rw⟩, ⟨23, 16, .rw⟩, ⟨15, 8, .rw⟩, ⟨7, 0, .rw⟩]⟩,
  ⟨"PLC_PEER_CNT", 0x80078, [], 0x0, [⟨31, 16, .w1c⟩, ⟨15, 0, .w1c⟩]⟩,
  ⟨"PLC_CNT", 0x8007C, [], 0x0, [⟨15, 0, .w1c⟩]⟩]

def rowsPLC1 : List RegRow := [
  ⟨"PLC_MAP_STAT", 0x80080, [], 0x0, []⟩,
  ⟨"PLC_TOMB", 0x80084, [], 0x2, [⟨1, 0, .rw⟩]⟩,
  ⟨"PLC_MIG_CTL", 0x80090, [], 0x0, [⟨8, 8, .wo⟩, ⟨4, 0, .wo⟩]⟩,
  ⟨"PLC_MIG_STAT", 0x80094, [], 0x0, []⟩,
  ⟨"PLC_REREPL", 0x80098, [], 0x0, []⟩,
  ⟨"PLC_PEER_DOWN", 0x80100, [(0x4, 16)], 0x0, []⟩,
  ⟨"PLC_SLOT_W0", 0x80200, [(0x10, 24)], 0x0, []⟩,
  ⟨"PLC_SLOT_W1", 0x80204, [(0x10, 24)], 0x0, []⟩,
  ⟨"PLC_SLOT_W2", 0x80208, [(0x10, 24)], 0x0, []⟩,
  ⟨"PLC_SLOT_W3", 0x8020C, [(0x10, 24)], 0x0, []⟩]

/-- The rows of the PLC block. -/
def rowsPLC : List RegRow := rowsPLC0 ++ rowsPLC1

/-! ### NET registers -/

abbrev NET_PORT_CTL (p : Nat) : Nat := 0x90000 + 0x1000 * p
abbrev NET_PORT_CTL_PMD (p : Nat) : Fld := ⟨(NET_PORT_CTL p), 7, 4⟩
abbrev NET_PORT_CTL_ENABLE (p : Nat) : Fld := ⟨(NET_PORT_CTL p), 0, 0⟩
abbrev NET_PORT_STAT (p : Nat) : Nat := 0x90004 + 0x1000 * p
abbrev NET_PORT_STAT_PFC_HELD (p : Nat) : Fld := ⟨(NET_PORT_STAT p), 7, 7⟩
abbrev NET_PORT_STAT_HI_SER (p : Nat) : Fld := ⟨(NET_PORT_STAT p), 6, 6⟩
abbrev NET_PORT_STAT_AN_FAIL (p : Nat) : Fld := ⟨(NET_PORT_STAT p), 5, 5⟩
abbrev NET_PORT_STAT_FEC_LOCK (p : Nat) : Fld := ⟨(NET_PORT_STAT p), 4, 4⟩
abbrev NET_PORT_STAT_PCS_LOCK (p : Nat) : Fld := ⟨(NET_PORT_STAT p), 3, 3⟩
abbrev NET_PORT_STAT_STATE (p : Nat) : Fld := ⟨(NET_PORT_STAT p), 2, 0⟩
abbrev NET_PORT_FEC (p : Nat) : Nat := 0x90008 + 0x1000 * p
abbrev NET_PORT_FEC_UNCORR (p : Nat) : Fld := ⟨(NET_PORT_FEC p), 31, 16⟩
abbrev NET_PORT_FEC_CORR (p : Nat) : Fld := ⟨(NET_PORT_FEC p), 15, 0⟩
abbrev NET_PORT_EQ (p : Nat) : Nat := 0x9000C + 0x1000 * p
abbrev NET_PORT_EQ_POST (p : Nat) : Fld := ⟨(NET_PORT_EQ p), 15, 12⟩
abbrev NET_PORT_EQ_PRE2 (p : Nat) : Fld := ⟨(NET_PORT_EQ p), 11, 8⟩
abbrev NET_PORT_EQ_PRE1 (p : Nat) : Fld := ⟨(NET_PORT_EQ p), 7, 4⟩
abbrev NET_PORT_DROP (p : Nat) : Nat := 0x90010 + 0x1000 * p
abbrev NET_PORT_DROP_PAUSE (p : Nat) : Fld := ⟨(NET_PORT_DROP p), 31, 24⟩
abbrev NET_PORT_DROP_STOMPED (p : Nat) : Fld := ⟨(NET_PORT_DROP p), 23, 16⟩
abbrev NET_PORT_DROP_DOWN (p : Nat) : Fld := ⟨(NET_PORT_DROP p), 15, 8⟩
abbrev NET_PORT_DROP_FULL (p : Nat) : Fld := ⟨(NET_PORT_DROP p), 7, 0⟩
abbrev NET_PORT_DOWNS (p : Nat) : Nat := 0x90014 + 0x1000 * p
abbrev NET_PORT_DOWNS_COUNT (p : Nat) : Fld := ⟨(NET_PORT_DOWNS p), 15, 0⟩
abbrev NET_PORT_ASYM (p : Nat) : Nat := 0x90018 + 0x1000 * p
abbrev NET_PORT_ASYM_ASYM (p : Nat) : Fld := ⟨(NET_PORT_ASYM p), 15, 0⟩
abbrev NET_MAC_LO : Nat := 0x92000
abbrev NET_MAC_LO_MAC : Fld := ⟨NET_MAC_LO, 31, 0⟩
abbrev NET_MAC_HI : Nat := 0x92004
abbrev NET_MAC_HI_MAC : Fld := ⟨NET_MAC_HI, 15, 0⟩
abbrev NET_VLAN : Nat := 0x92008
abbrev NET_VLAN_VID : Fld := ⟨NET_VLAN, 11, 0⟩
abbrev NET_QOS : Nat := 0x9200C
abbrev NET_QOS_DSCP_CNP : Fld := ⟨NET_QOS, 31, 26⟩
abbrev NET_QOS_DSCP_DATA : Fld := ⟨NET_QOS, 25, 20⟩
abbrev NET_QOS_PCP_CNP : Fld := ⟨NET_QOS, 8, 6⟩
abbrev NET_QOS_PCP_DATA : Fld := ⟨NET_QOS, 5, 3⟩
abbrev NET_IP6 (k : Nat) : Nat := 0x92010 + 0x4 * k
abbrev NET_IP6_ADDR (k : Nat) : Fld := ⟨(NET_IP6 k), 31, 0⟩
abbrev NET_IP_CFG : Nat := 0x92020
abbrev NET_IP_CFG_PFX4 : Fld := ⟨NET_IP_CFG, 15, 8⟩
abbrev NET_IP_CFG_PFX6 : Fld := ⟨NET_IP_CFG, 7, 0⟩
abbrev NET_IP4 : Nat := 0x92024
abbrev NET_IP4_ADDR : Fld := ⟨NET_IP4, 31, 0⟩
abbrev NET_GW6 (k : Nat) : Nat := 0x92030 + 0x4 * k
abbrev NET_GW6_ADDR (k : Nat) : Fld := ⟨(NET_GW6 k), 31, 0⟩
abbrev NET_GW4 : Nat := 0x92040
abbrev NET_GW4_ADDR : Fld := ⟨NET_GW4, 31, 0⟩
abbrev NET_FWD_CFG : Nat := 0x92050
abbrev NET_FWD_CFG_PRIMARY : Fld := ⟨NET_FWD_CFG, 31, 31⟩
abbrev NET_FWD_CFG_AGE : Fld := ⟨NET_FWD_CFG, 24, 16⟩
abbrev NET_FWD_CFG_ECN_THR : Fld := ⟨NET_FWD_CFG, 8, 0⟩
abbrev NET_FWD_STAT : Nat := 0x92054
abbrev NET_FWD_STAT_LOOP : Fld := ⟨NET_FWD_STAT, 31, 16⟩
abbrev NET_FWD_STAT_LEARNED : Fld := ⟨NET_FWD_STAT, 12, 0⟩
abbrev NET_MTU : Nat := 0x92058
abbrev NET_MTU_MTU : Fld := ⟨NET_MTU, 1, 0⟩
abbrev NET_PTP_CFG : Nat := 0x92060
abbrev NET_PTP_CFG_DOMAIN : Fld := ⟨NET_PTP_CFG, 31, 24⟩
abbrev NET_PTP_CFG_VALID_THR : Fld := ⟨NET_PTP_CFG, 23, 8⟩
abbrev NET_PTP_CFG_CLIENT_EN : Fld := ⟨NET_PTP_CFG, 1, 1⟩
abbrev NET_PTP_CFG_TC_EN : Fld := ⟨NET_PTP_CFG, 0, 0⟩
abbrev NET_PTP_STAT : Nat := 0x92064
abbrev NET_PTP_STAT_VALID : Fld := ⟨NET_PTP_STAT, 31, 31⟩
abbrev NET_PTP_STAT_PORT : Fld := ⟨NET_PTP_STAT, 30, 30⟩
abbrev NET_PTP_OFS : Nat := 0x92068
abbrev NET_PTP_OFS_OFS : Fld := ⟨NET_PTP_OFS, 31, 0⟩
abbrev NET_PTP_GM_LO : Nat := 0x9206C
abbrev NET_PTP_GM_LO_ID : Fld := ⟨NET_PTP_GM_LO, 31, 0⟩
abbrev NET_PTP_GM_HI : Nat := 0x92070
abbrev NET_PTP_GM_HI_ID : Fld := ⟨NET_PTP_GM_HI, 31, 0⟩
abbrev NET_PTP_CNT : Nat := 0x92074
abbrev NET_PTP_CNT_V4_UNCORR : Fld := ⟨NET_PTP_CNT, 15, 0⟩
abbrev NET_RC_CFG : Nat := 0x92080
abbrev NET_RC_CFG_CNP_INT : Fld := ⟨NET_RC_CFG, 31, 24⟩
abbrev NET_RC_CFG_G_SHIFT : Fld := ⟨NET_RC_CFG, 23, 20⟩
abbrev NET_RC_CFG_ALPHA_T : Fld := ⟨NET_RC_CFG, 19, 10⟩
abbrev NET_RC_CFG_RATE_T : Fld := ⟨NET_RC_CFG, 9, 0⟩
abbrev NET_RC_RATE : Nat := 0x92084
abbrev NET_RC_RATE_HAI : Fld := ⟨NET_RC_RATE, 31, 24⟩
abbrev NET_RC_RATE_AI : Fld := ⟨NET_RC_RATE, 23, 16⟩
abbrev NET_RC_RATE_MIN : Fld := ⟨NET_RC_RATE, 15, 0⟩
abbrev NET_PFC_CFG : Nat := 0x92088
abbrev NET_PFC_CFG_EN : Fld := ⟨NET_PFC_CFG, 31, 31⟩
abbrev NET_PFC_CFG_PRIO : Fld := ⟨NET_PFC_CFG, 30, 28⟩
abbrev NET_PFC_CFG_XOFF : Fld := ⟨NET_PFC_CFG, 23, 12⟩
abbrev NET_PFC_CFG_XON : Fld := ⟨NET_PFC_CFG, 11, 0⟩
abbrev NET_SESS : Nat := 0x92090
abbrev NET_SESS_MGMT_VALID : Fld := ⟨NET_SESS, 31, 31⟩
abbrev NET_SESS_OPEN : Fld := ⟨NET_SESS, 30, 16⟩
abbrev NET_SESS_MGMT_ID : Fld := ⟨NET_SESS, 13, 0⟩
abbrev NET_CM_CNT : Nat := 0x92094
abbrev NET_CM_CNT_TRANSPORT : Fld := ⟨NET_CM_CNT, 31, 16⟩
abbrev NET_CM_CNT_REJ : Fld := ⟨NET_CM_CNT, 15, 0⟩
abbrev NET_SVC_CFG : Nat := 0x920A0
abbrev NET_SVC_CFG_NODE_ID : Fld := ⟨NET_SVC_CFG, 31, 24⟩
abbrev NET_SVC_CFG_NODE_CNT : Fld := ⟨NET_SVC_CFG, 23, 16⟩
abbrev NET_SVC_CFG_TO_TMR : Fld := ⟨NET_SVC_CFG, 15, 8⟩
abbrev NET_SVC_CFG_BURST : Fld := ⟨NET_SVC_CFG, 7, 0⟩
abbrev NET_SVC_STAT : Nat := 0x920A4
abbrev NET_SVC_STAT_UP : Fld := ⟨NET_SVC_STAT, 31, 31⟩
abbrev NET_SVC_STAT_PLCA : Fld := ⟨NET_SVC_STAT, 30, 30⟩
abbrev NET_SVC_STAT_RX_MSG : Fld := ⟨NET_SVC_STAT, 15, 0⟩
abbrev NET_SVC_MAC_LO : Nat := 0x920A8
abbrev NET_SVC_MAC_LO_MAC : Fld := ⟨NET_SVC_MAC_LO, 31, 0⟩
abbrev NET_SVC_MAC_HI : Nat := 0x920AC
abbrev NET_SVC_MAC_HI_MAC : Fld := ⟨NET_SVC_MAC_HI, 15, 0⟩

def rowsNET0 : List RegRow := [
  ⟨"NET_PORT_CTL", 0x90000, [(0x1000, 2)], 0x1, [⟨7, 4, .rws⟩, ⟨0, 0, .rw⟩]⟩,
  ⟨"NET_PORT_STAT", 0x90004, [(0x1000, 2)], 0x0, []⟩,
  ⟨"NET_PORT_FEC", 0x90008, [(0x1000, 2)], 0x0, [⟨31, 16, .w1c⟩, ⟨15, 0, .w1c⟩]⟩,
  ⟨"NET_PORT_EQ", 0x9000C, [(0x1000, 2)], 0x20, [⟨15, 12, .rw⟩, ⟨11, 8, .rw⟩, ⟨7, 4, .rw⟩]⟩,
  ⟨"NET_PORT_DROP", 0x90010, [(0x1000, 2)], 0x0, [⟨31, 24, .w1c⟩, ⟨23, 16, .w1c⟩, ⟨15, 8, .w1c⟩, ⟨7, 0, .w1c⟩]⟩,
  ⟨"NET_PORT_DOWNS", 0x90014, [(0x1000, 2)], 0x0, [⟨15, 0, .w1c⟩]⟩,
  ⟨"NET_PORT_ASYM", 0x90018, [(0x1000, 2)], 0x0, [⟨15, 0, .rws⟩]⟩,
  ⟨"NET_MAC_LO", 0x92000, [], 0x0, [⟨31, 0, .rws⟩]⟩,
  ⟨"NET_MAC_HI", 0x92004, [], 0x0, [⟨15, 0, .rws⟩]⟩,
  ⟨"NET_VLAN", 0x92008, [], 0x0, [⟨11, 0, .rws⟩]⟩,
  ⟨"NET_QOS", 0x9200C, [], 0xC1A00198, [⟨31, 26, .rws⟩, ⟨25, 20, .rws⟩, ⟨8, 6, .rws⟩, ⟨5, 3, .rws⟩]⟩,
  ⟨"NET_IP6", 0x92010, [(0x4, 4)], 0x0, [⟨31, 0, .rws⟩]⟩,
  ⟨"NET_IP_CFG", 0x92020, [], 0x40, [⟨15, 8, .rws⟩, ⟨7, 0, .rws⟩]⟩,
  ⟨"NET_IP4", 0x92024, [], 0x0, [⟨31, 0, .rws⟩]⟩,
  ⟨"NET_GW6", 0x92030, [(0x4, 4)], 0x0, [⟨31, 0, .rws⟩]⟩,
  ⟨"NET_GW4", 0x92040, [], 0x0, [⟨31, 0, .rws⟩]⟩,
  ⟨"NET_FWD_CFG", 0x92050, [], 0x12C0080, [⟨31, 31, .rws⟩, ⟨24, 16, .rws⟩, ⟨8, 0, .rws⟩]⟩,
  ⟨"NET_FWD_STAT", 0x92054, [], 0x0, [⟨31, 16, .w1c⟩]⟩,
  ⟨"NET_MTU", 0x92058, [], 0x2, [⟨1, 0, .rws⟩]⟩,
  ⟨"NET_PTP_CFG", 0x92060, [], 0x6403, [⟨31, 24, .rws⟩, ⟨23, 8, .rws⟩, ⟨1, 1, .rws⟩, ⟨0, 0, .rws⟩]⟩,
  ⟨"NET_PTP_STAT", 0x92064, [], 0x0, []⟩,
  ⟨"NET_PTP_OFS", 0x92068, [], 0x0, []⟩,
  ⟨"NET_PTP_GM_LO", 0x9206C, [], 0x0, []⟩,
  ⟨"NET_PTP_GM_HI", 0x92070, [], 0x0, []⟩]

def rowsNET1 : List RegRow := [
  ⟨"NET_PTP_CNT", 0x92074, [], 0x0, [⟨15, 0, .w1c⟩]⟩,
  ⟨"NET_RC_CFG", 0x92080, [], 0x3280DD2C, [⟨31, 24, .rws⟩, ⟨23, 20, .rws⟩, ⟨19, 10, .rws⟩, ⟨9, 0, .rws⟩]⟩,
  ⟨"NET_RC_RATE", 0x92084, [], 0x32050064, [⟨31, 24, .rws⟩, ⟨23, 16, .rws⟩, ⟨15, 0, .rws⟩]⟩,
  ⟨"NET_PFC_CFG", 0x92088, [], 0x301000C0, [⟨31, 31, .rws⟩, ⟨30, 28, .rws⟩, ⟨23, 12, .rws⟩, ⟨11, 0, .rws⟩]⟩,
  ⟨"NET_SESS", 0x92090, [], 0x0, []⟩,
  ⟨"NET_CM_CNT", 0x92094, [], 0x0, [⟨31, 16, .w1c⟩, ⟨15, 0, .w1c⟩]⟩,
  ⟨"NET_SVC_CFG", 0x920A0, [], 0x82000, [⟨31, 24, .rws⟩, ⟨23, 16, .rws⟩, ⟨15, 8, .rws⟩, ⟨7, 0, .rws⟩]⟩,
  ⟨"NET_SVC_STAT", 0x920A4, [], 0x0, []⟩,
  ⟨"NET_SVC_MAC_LO", 0x920A8, [], 0x0, []⟩,
  ⟨"NET_SVC_MAC_HI", 0x920AC, [], 0x0, []⟩]

/-- The rows of the NET block. -/
def rowsNET : List RegRow := rowsNET0 ++ rowsNET1

/-! ### CMD registers -/

abbrev CMD_OUT : Nat := 0xA0000
abbrev CMD_OUT_COUNT : Fld := ⟨CMD_OUT, 16, 0⟩
abbrev CMD_DEFERRED : Nat := 0xA0004
abbrev CMD_DEFERRED_COUNT : Fld := ⟨CMD_DEFERRED, 16, 0⟩
abbrev CMD_ADM_CFG : Nat := 0xA0008
abbrev CMD_ADM_CFG_REHINT_MS : Fld := ⟨CMD_ADM_CFG, 31, 16⟩
abbrev CMD_ADM_CFG_DEFER_MS : Fld := ⟨CMD_ADM_CFG, 15, 0⟩
abbrev CMD_ADM_CFG2 : Nat := 0xA000C
abbrev CMD_ADM_CFG2_DEF_CLAMP : Fld := ⟨CMD_ADM_CFG2, 31, 16⟩
abbrev CMD_ADM_CFG2_RETRY_FULL : Fld := ⟨CMD_ADM_CFG2, 15, 0⟩
abbrev CMD_CNT_ACC : Nat := 0xA0010
abbrev CMD_CNT_ACC_COUNT : Fld := ⟨CMD_CNT_ACC, 31, 0⟩
abbrev CMD_CNT_DEF : Nat := 0xA0014
abbrev CMD_CNT_DEF_COUNT : Fld := ⟨CMD_CNT_DEF, 31, 0⟩
abbrev CMD_CNT_REF : Nat := 0xA0018
abbrev CMD_CNT_REF_COUNT : Fld := ⟨CMD_CNT_REF, 31, 0⟩
abbrev CMD_LOG_NEXT : Nat := 0xA0020
abbrev CMD_LOG_NEXT_SEQ : Fld := ⟨CMD_LOG_NEXT, 31, 0⟩
abbrev CMD_LOG_OLD : Nat := 0xA0024
abbrev CMD_LOG_OLD_SEQ : Fld := ⟨CMD_LOG_OLD, 31, 0⟩
abbrev CMD_TC_IDX : Nat := 0xA0040
abbrev CMD_TC_IDX_TENANT : Fld := ⟨CMD_TC_IDX, 13, 2⟩
abbrev CMD_TC_IDX_WORD : Fld := ⟨CMD_TC_IDX, 1, 0⟩
abbrev CMD_TC_DATA : Nat := 0xA0044
abbrev CMD_TC_DATA_DATA : Fld := ⟨CMD_TC_DATA, 31, 0⟩
abbrev CMD_SS_IDX : Nat := 0xA0060
abbrev CMD_SS_IDX_SESSION : Fld := ⟨CMD_SS_IDX, 15, 2⟩
abbrev CMD_SS_IDX_WORD : Fld := ⟨CMD_SS_IDX, 1, 0⟩
abbrev CMD_ST_STAT : Nat := 0xA0070
abbrev CMD_ST_STAT_RES : Fld := ⟨CMD_ST_STAT, 31, 30⟩
abbrev CMD_ST_STAT_KIND : Fld := ⟨CMD_ST_STAT, 29, 28⟩
abbrev CMD_ST_STAT_OUTCOME : Fld := ⟨CMD_ST_STAT, 27, 26⟩
abbrev CMD_ST_STAT_PROGRESS : Fld := ⟨CMD_ST_STAT, 23, 16⟩
abbrev CMD_ST_STAT_FAIL_SRC : Fld := ⟨CMD_ST_STAT, 9, 0⟩
abbrev CMD_ST_ACK : Nat := 0xA0074
abbrev CMD_ST_ACK_ACK : Fld := ⟨CMD_ST_ACK, 0, 0⟩
abbrev CMD_TS_DATA : Nat := 0xA0054
abbrev CMD_TS_DATA_DATA : Fld := ⟨CMD_TS_DATA, 31, 0⟩
abbrev CMD_TS_IDX : Nat := 0xA0050
abbrev CMD_TS_IDX_TENANT : Fld := ⟨CMD_TS_IDX, 13, 2⟩
abbrev CMD_TS_IDX_WORD : Fld := ⟨CMD_TS_IDX, 1, 0⟩
abbrev CMD_SS_DATA : Nat := 0xA0064
abbrev CMD_SS_DATA_DATA : Fld := ⟨CMD_SS_DATA, 31, 0⟩

def rowsCMD0 : List RegRow := [
  ⟨"CMD_OUT", 0xA0000, [], 0x0, []⟩,
  ⟨"CMD_DEFERRED", 0xA0004, [], 0x0, []⟩,
  ⟨"CMD_ADM_CFG", 0xA0008, [], 0x1F40064, [⟨31, 16, .rws⟩, ⟨15, 0, .rws⟩]⟩,
  ⟨"CMD_ADM_CFG2", 0xA000C, [], 0x27100064, [⟨31, 16, .rws⟩, ⟨15, 0, .rws⟩]⟩,
  ⟨"CMD_CNT_ACC", 0xA0010, [], 0x0, []⟩,
  ⟨"CMD_CNT_DEF", 0xA0014, [], 0x0, []⟩,
  ⟨"CMD_CNT_REF", 0xA0018, [], 0x0, []⟩,
  ⟨"CMD_LOG_NEXT", 0xA0020, [], 0x0, []⟩,
  ⟨"CMD_LOG_OLD", 0xA0024, [], 0x0, []⟩,
  ⟨"CMD_TC_IDX", 0xA0040, [], 0x0, [⟨13, 2, .rw⟩, ⟨1, 0, .rw⟩]⟩,
  ⟨"CMD_TC_DATA", 0xA0044, [], 0x0, [⟨31, 0, .rws⟩]⟩,
  ⟨"CMD_SS_IDX", 0xA0060, [], 0x0, [⟨15, 2, .rw⟩, ⟨1, 0, .rw⟩]⟩,
  ⟨"CMD_ST_STAT", 0xA0070, [], 0x0, []⟩,
  ⟨"CMD_ST_ACK", 0xA0074, [], 0x0, [⟨0, 0, .wo⟩]⟩,
  ⟨"CMD_TS_DATA", 0xA0054, [], 0x0, []⟩,
  ⟨"CMD_TS_IDX", 0xA0050, [], 0x0, [⟨13, 2, .rw⟩, ⟨1, 0, .rw⟩]⟩,
  ⟨"CMD_SS_DATA", 0xA0064, [], 0x0, []⟩]

/-- The rows of the CMD block. -/
def rowsCMD : List RegRow := rowsCMD0

/-! ### ARB registers -/

abbrev ARB_CFG : Nat := 0xB0000
abbrev ARB_CFG_JOB_MAX : Fld := ⟨ARB_CFG, 7, 0⟩
abbrev ARB_HOUSE : Nat := 0xB0004
abbrev ARB_HOUSE_REREPL : Fld := ⟨ARB_HOUSE, 10, 8⟩
abbrev ARB_HOUSE_RELOC : Fld := ⟨ARB_HOUSE, 6, 4⟩
abbrev ARB_HOUSE_SELFTEST : Fld := ⟨ARB_HOUSE, 2, 0⟩
abbrev ARB_HOUSE2 : Nat := 0xB0008
abbrev ARB_HOUSE2_REBUILD : Fld := ⟨ARB_HOUSE2, 2, 0⟩
abbrev ARB_EST : Nat := 0xB000C
abbrev ARB_EST_OVH_WR : Fld := ⟨ARB_EST, 15, 8⟩
abbrev ARB_EST_OVH_RD : Fld := ⟨ARB_EST, 7, 0⟩
abbrev ARB_STN_WDOG : Nat := 0xB0010
abbrev ARB_STN_WDOG_STN_WDOG : Fld := ⟨ARB_STN_WDOG, 15, 0⟩
abbrev ARB_PK_WDOG : Nat := 0xB0014
abbrev ARB_PK_WDOG_PK_WDOG : Fld := ⟨ARB_PK_WDOG, 15, 0⟩
abbrev ARB_PARK : Nat := 0xB0018
abbrev ARB_PARK_PARK_TMO : Fld := ⟨ARB_PARK, 15, 0⟩
abbrev ARB_STN_W0 (s : Nat) : Nat := 0xB0020 + 0x10 * s
abbrev ARB_STN_W0_TENANT (s : Nat) : Fld := ⟨(ARB_STN_W0 s), 27, 16⟩
abbrev ARB_STN_W0_CLASS (s : Nat) : Fld := ⟨(ARB_STN_W0 s), 10, 8⟩
abbrev ARB_STN_W0_KIND (s : Nat) : Fld := ⟨(ARB_STN_W0 s), 5, 4⟩
abbrev ARB_STN_W0_STATE (s : Nat) : Fld := ⟨(ARB_STN_W0 s), 2, 0⟩
abbrev ARB_STN_W1 (s : Nat) : Nat := 0xB0024 + 0x10 * s
abbrev ARB_STN_W1_HELD_MS (s : Nat) : Fld := ⟨(ARB_STN_W1 s), 31, 0⟩
abbrev ARB_STN_W2 (s : Nat) : Nat := 0xB0028 + 0x10 * s
abbrev ARB_STN_W2_WAITING (s : Nat) : Fld := ⟨(ARB_STN_W2 s), 16, 0⟩
abbrev ARB_STN_W3 (s : Nat) : Nat := 0xB002C + 0x10 * s
abbrev ARB_STN_W3_REMAIN_MS (s : Nat) : Fld := ⟨(ARB_STN_W3 s), 31, 0⟩
abbrev ARB_PK_STAT : Nat := 0xB0040
abbrev ARB_PK_STAT_HELD_MS : Fld := ⟨ARB_PK_STAT, 31, 16⟩
abbrev ARB_PK_STAT_OWNER : Fld := ⟨ARB_PK_STAT, 3, 2⟩
abbrev ARB_PK_STAT_STATE : Fld := ⟨ARB_PK_STAT, 1, 0⟩
abbrev ARB_SLOT_CUR : Nat := 0xB0044
abbrev ARB_SLOT_CUR_L : Fld := ⟨ARB_SLOT_CUR, 27, 8⟩
abbrev ARB_SLOT_CUR_SLOT : Fld := ⟨ARB_SLOT_CUR, 7, 0⟩
abbrev ARB_CNT_GRANT : Nat := 0xB0050
abbrev ARB_CNT_GRANT_COUNT : Fld := ⟨ARB_CNT_GRANT, 31, 0⟩
abbrev ARB_CNT_EVT : Nat := 0xB0054
abbrev ARB_CNT_EVT_PARK_REL : Fld := ⟨ARB_CNT_EVT, 31, 16⟩
abbrev ARB_CNT_EVT_WDOG : Fld := ⟨ARB_CNT_EVT, 15, 0⟩
abbrev ARB_SLOT (k : Nat) : Nat := 0xB0400 + 0x4 * k
abbrev ARB_SLOT_SPILL_1 (k : Nat) : Fld := ⟨(ARB_SLOT k), 21, 21⟩
abbrev ARB_SLOT_SPILL_0 (k : Nat) : Fld := ⟨(ARB_SLOT k), 20, 20⟩
abbrev ARB_SLOT_HOUSE_1 (k : Nat) : Fld := ⟨(ARB_SLOT k), 17, 17⟩
abbrev ARB_SLOT_HOUSE_0 (k : Nat) : Fld := ⟨(ARB_SLOT k), 16, 16⟩
abbrev ARB_SLOT_CLASS_1 (k : Nat) : Fld := ⟨(ARB_SLOT k), 15, 8⟩
abbrev ARB_SLOT_CLASS_0 (k : Nat) : Fld := ⟨(ARB_SLOT k), 7, 0⟩

def rowsARB0 : List RegRow := [
  ⟨"ARB_CFG", 0xB0000, [], 0x40, [⟨7, 0, .rws⟩]⟩,
  ⟨"ARB_HOUSE", 0xB0004, [], 0x112, [⟨10, 8, .rws⟩, ⟨6, 4, .rws⟩, ⟨2, 0, .rws⟩]⟩,
  ⟨"ARB_HOUSE2", 0xB0008, [], 0x7, [⟨2, 0, .rws⟩]⟩,
  ⟨"ARB_EST", 0xB000C, [], 0xF04, [⟨15, 8, .rws⟩, ⟨7, 0, .rws⟩]⟩,
  ⟨"ARB_STN_WDOG", 0xB0010, [], 0x3C, [⟨15, 0, .rws⟩]⟩,
  ⟨"ARB_PK_WDOG", 0xB0014, [], 0x1E, [⟨15, 0, .rws⟩]⟩,
  ⟨"ARB_PARK", 0xB0018, [], 0x14, [⟨15, 0, .rws⟩]⟩,
  ⟨"ARB_STN_W0", 0xB0020, [(0x10, 2)], 0x3, []⟩,
  ⟨"ARB_STN_W1", 0xB0024, [(0x10, 2)], 0x0, []⟩,
  ⟨"ARB_STN_W2", 0xB0028, [(0x10, 2)], 0x0, []⟩,
  ⟨"ARB_STN_W3", 0xB002C, [(0x10, 2)], 0x0, []⟩,
  ⟨"ARB_PK_STAT", 0xB0040, [], 0x0, []⟩,
  ⟨"ARB_SLOT_CUR", 0xB0044, [], 0x7A12000, []⟩,
  ⟨"ARB_CNT_GRANT", 0xB0050, [], 0x0, []⟩,
  ⟨"ARB_CNT_EVT", 0xB0054, [], 0x0, [⟨31, 16, .w1c⟩, ⟨15, 0, .w1c⟩]⟩,
  ⟨"ARB_SLOT", 0xB0400, [(0x4, 256)], 0x33FFFF, [⟨31, 22, .rws⟩, ⟨21, 21, .rws⟩, ⟨20, 20, .rws⟩, ⟨19, 18, .rws⟩, ⟨17, 17, .rws⟩, ⟨16, 16, .rws⟩, ⟨15, 8, .rws⟩, ⟨7, 0, .rws⟩]⟩]

/-- The rows of the ARB block. -/
def rowsARB : List RegRow := rowsARB0

/-! ### CCH registers -/

abbrev CCH_MAINT : Nat := 0xC0000
abbrev CCH_MAINT_OP : Fld := ⟨CCH_MAINT, 3, 0⟩
abbrev CCH_MAINT_ADDR : Nat := 0xC0004
abbrev CCH_MAINT_ADDR_LINE : Fld := ⟨CCH_MAINT_ADDR, 27, 0⟩
abbrev CCH_MAINT_END : Nat := 0xC0008
abbrev CCH_MAINT_END_LINE : Fld := ⟨CCH_MAINT_END, 27, 0⟩
abbrev CCH_MAINT_STAT : Nat := 0xC000C
abbrev CCH_MAINT_STAT_BUSY : Fld := ⟨CCH_MAINT_STAT, 31, 31⟩
abbrev CCH_MAINT_STAT_RESULT : Fld := ⟨CCH_MAINT_STAT, 30, 28⟩
abbrev CCH_MAINT_STAT_OP : Fld := ⟨CCH_MAINT_STAT, 27, 24⟩
abbrev CCH_MAINT_STAT_LINES : Fld := ⟨CCH_MAINT_STAT, 23, 0⟩
abbrev CCH_HIT : Nat := 0xC0010
abbrev CCH_HIT_COUNT : Fld := ⟨CCH_HIT, 31, 0⟩
abbrev CCH_MISS : Nat := 0xC0014
abbrev CCH_MISS_COUNT : Fld := ⟨CCH_MISS, 31, 0⟩
abbrev CCH_HUM : Nat := 0xC0018
abbrev CCH_HUM_COUNT : Fld := ⟨CCH_HUM, 31, 0⟩
abbrev CCH_STALL : Nat := 0xC001C
abbrev CCH_STALL_COUNT : Fld := ⟨CCH_STALL, 31, 0⟩
abbrev CCH_INV_LOCKED_CNT : Nat := 0xC0020
abbrev CCH_INV_LOCKED_CNT_COUNT : Fld := ⟨CCH_INV_LOCKED_CNT, 31, 0⟩
abbrev CCH_ECC_CNT : Nat := 0xC0024
abbrev CCH_ECC_CNT_UNCORR : Fld := ⟨CCH_ECC_CNT, 31, 16⟩
abbrev CCH_ECC_CNT_CORR : Fld := ⟨CCH_ECC_CNT, 15, 0⟩
abbrev CCH_LOCKED : Nat := 0xC0028
abbrev CCH_LOCKED_MAX_SET : Fld := ⟨CCH_LOCKED, 19, 16⟩
abbrev CCH_LOCKED_TOTAL : Fld := ⟨CCH_LOCKED, 15, 0⟩
abbrev CCH_REGION_W0 (r : Nat) : Nat := 0xC0040 + 0x8 * r
abbrev CCH_REGION_W0_BASE (r : Nat) : Fld := ⟨(CCH_REGION_W0 r), 31, 0⟩
abbrev CCH_REGION_W1 (r : Nat) : Nat := 0xC0044 + 0x8 * r
abbrev CCH_REGION_W1_SIZE (r : Nat) : Fld := ⟨(CCH_REGION_W1 r), 31, 0⟩

def rowsCCH0 : List RegRow := [
  ⟨"CCH_MAINT", 0xC0000, [], 0x0, [⟨3, 0, .wo⟩]⟩,
  ⟨"CCH_MAINT_ADDR", 0xC0004, [], 0x0, [⟨27, 0, .rw⟩]⟩,
  ⟨"CCH_MAINT_END", 0xC0008, [], 0x0, [⟨27, 0, .rw⟩]⟩,
  ⟨"CCH_MAINT_STAT", 0xC000C, [], 0x0, []⟩,
  ⟨"CCH_HIT", 0xC0010, [], 0x0, []⟩,
  ⟨"CCH_MISS", 0xC0014, [], 0x0, []⟩,
  ⟨"CCH_HUM", 0xC0018, [], 0x0, []⟩,
  ⟨"CCH_STALL", 0xC001C, [], 0x0, []⟩,
  ⟨"CCH_INV_LOCKED_CNT", 0xC0020, [], 0x0, [⟨31, 0, .w1c⟩]⟩,
  ⟨"CCH_ECC_CNT", 0xC0024, [], 0x0, [⟨31, 16, .w1c⟩, ⟨15, 0, .w1c⟩]⟩,
  ⟨"CCH_LOCKED", 0xC0028, [], 0x0, []⟩,
  ⟨"CCH_REGION_W0", 0xC0040, [(0x8, 6)], 0x0, []⟩,
  ⟨"CCH_REGION_W1", 0xC0044, [(0x8, 6)], 0x0, []⟩]

/-- The rows of the CCH block. -/
def rowsCCH : List RegRow := rowsCCH0

/-! ### FL registers -/

abbrev FL_INFO : Nat := 0xD0000
abbrev FL_INFO_SECTORS : Fld := ⟨FL_INFO, 15, 8⟩
abbrev FL_INFO_SIZE_MIB : Fld := ⟨FL_INFO, 7, 0⟩
abbrev FL_STAT : Nat := 0xD0004
abbrev FL_STAT_MOD_BUSY : Fld := ⟨FL_STAT, 31, 31⟩
abbrev FL_STAT_SUSPENDED : Fld := ⟨FL_STAT, 30, 30⟩
abbrev FL_STAT_NESTED : Fld := ⟨FL_STAT, 29, 29⟩
abbrev FL_STAT_SUSP_CNT : Fld := ⟨FL_STAT, 28, 24⟩
abbrev FL_STAT_OP : Fld := ⟨FL_STAT, 23, 20⟩
abbrev FL_STAT_SECTOR : Fld := ⟨FL_STAT, 7, 0⟩
abbrev FL_XIP_EN : Nat := 0xD0008
abbrev FL_XIP_EN_BANK1 : Fld := ⟨FL_XIP_EN, 1, 1⟩
abbrev FL_XIP_EN_BANK0 : Fld := ⟨FL_XIP_EN, 0, 0⟩
abbrev FL_DESC (w : Nat) : Nat := 0xD0010 + 0x4 * w
abbrev FL_DESC_WORD (w : Nat) : Fld := ⟨(FL_DESC w), 31, 0⟩
abbrev FL_DESC_PUSH : Nat := 0xD0020
abbrev FL_DESC_PUSH_PUSH : Fld := ⟨FL_DESC_PUSH, 0, 0⟩
abbrev FL_Q_STAT : Nat := 0xD0024
abbrev FL_Q_STAT_USED : Fld := ⟨FL_Q_STAT, 20, 16⟩
abbrev FL_Q_STAT_HOST_USED : Fld := ⟨FL_Q_STAT, 10, 8⟩
abbrev FL_Q_STAT_CMPL_AVAIL : Fld := ⟨FL_Q_STAT, 2, 0⟩
abbrev FL_CMPL : Nat := 0xD0028
abbrev FL_CMPL_VALID : Fld := ⟨FL_CMPL, 31, 31⟩
abbrev FL_CMPL_TAG : Fld := ⟨FL_CMPL, 23, 16⟩
abbrev FL_CMPL_OP : Fld := ⟨FL_CMPL, 15, 12⟩
abbrev FL_CMPL_STATUS : Fld := ⟨FL_CMPL, 3, 0⟩
abbrev FL_ECC_CNT : Nat := 0xD0030
abbrev FL_ECC_CNT_UNCORR : Fld := ⟨FL_ECC_CNT, 31, 16⟩
abbrev FL_ECC_CNT_CORR : Fld := ⟨FL_ECC_CNT, 15, 0⟩
abbrev FL_ECC_LAST : Nat := 0xD0034
abbrev FL_ECC_LAST_KIND : Fld := ⟨FL_ECC_LAST, 31, 30⟩
abbrev FL_ECC_LAST_ADDR : Fld := ⟨FL_ECC_LAST, 23, 0⟩
abbrev FL_JRNL_STAT : Nat := 0xD0038
abbrev FL_JRNL_STAT_CUR : Fld := ⟨FL_JRNL_STAT, 31, 31⟩
abbrev FL_JRNL_STAT_USED : Fld := ⟨FL_JRNL_STAT, 26, 16⟩
abbrev FL_JRNL_STAT_REERASED : Fld := ⟨FL_JRNL_STAT, 7, 0⟩
abbrev FL_TWIN : Nat := 0xD003C
abbrev FL_TWIN_ACTIVE : Fld := ⟨FL_TWIN, 1, 1⟩
abbrev FL_TWIN_VALID : Fld := ⟨FL_TWIN, 0, 0⟩
abbrev FL_REFRESH_CTL : Nat := 0xD0040
abbrev FL_REFRESH_CTL_STOP : Fld := ⟨FL_REFRESH_CTL, 1, 1⟩
abbrev FL_REFRESH_CTL_START : Fld := ⟨FL_REFRESH_CTL, 0, 0⟩
abbrev FL_REFRESH_STAT : Nat := 0xD0044
abbrev FL_REFRESH_STAT_STATE : Fld := ⟨FL_REFRESH_STAT, 31, 30⟩
abbrev FL_REFRESH_STAT_DUE : Fld := ⟨FL_REFRESH_STAT, 29, 29⟩
abbrev FL_REFRESH_STAT_SECTOR : Fld := ⟨FL_REFRESH_STAT, 15, 8⟩
abbrev FL_REFRESH_STAT_PROGRESS : Fld := ⟨FL_REFRESH_STAT, 7, 0⟩
abbrev FL_REFRESH_LAST_LO : Nat := 0xD0048
abbrev FL_REFRESH_LAST_LO_SEC : Fld := ⟨FL_REFRESH_LAST_LO, 31, 0⟩
abbrev FL_REFRESH_LAST_HI : Nat := 0xD004C
abbrev FL_REFRESH_LAST_HI_SEC : Fld := ⟨FL_REFRESH_LAST_HI, 31, 0⟩
abbrev FL_RBUF (k : Nat) : Nat := 0xD0100 + 0x4 * k
abbrev FL_RBUF_DATA (k : Nat) : Fld := ⟨(FL_RBUF k), 31, 0⟩
abbrev FL_DIGEST (k : Nat) : Nat := 0xD0200 + 0x4 * k
abbrev FL_DIGEST_DATA (k : Nat) : Fld := ⟨(FL_DIGEST k), 31, 0⟩

def rowsFL0 : List RegRow := [
  ⟨"FL_INFO", 0xD0000, [], 0x8810, []⟩,
  ⟨"FL_STAT", 0xD0004, [], 0x0, []⟩,
  ⟨"FL_XIP_EN", 0xD0008, [], 0x1, []⟩,
  ⟨"FL_DESC", 0xD0010, [(0x4, 4)], 0x0, [⟨31, 0, .rw⟩]⟩,
  ⟨"FL_DESC_PUSH", 0xD0020, [], 0x0, [⟨0, 0, .wo⟩]⟩,
  ⟨"FL_Q_STAT", 0xD0024, [], 0x0, []⟩,
  ⟨"FL_CMPL", 0xD0028, [], 0x0, []⟩,
  ⟨"FL_ECC_CNT", 0xD0030, [], 0x0, [⟨31, 16, .w1c⟩, ⟨15, 0, .w1c⟩]⟩,
  ⟨"FL_ECC_LAST", 0xD0034, [], 0x0, []⟩,
  ⟨"FL_JRNL_STAT", 0xD0038, [], 0x0, []⟩,
  ⟨"FL_TWIN", 0xD003C, [], 0x0, []⟩,
  ⟨"FL_REFRESH_CTL", 0xD0040, [], 0x0, [⟨1, 1, .wo⟩, ⟨0, 0, .wo⟩]⟩,
  ⟨"FL_REFRESH_STAT", 0xD0044, [], 0x0, []⟩,
  ⟨"FL_REFRESH_LAST_LO", 0xD0048, [], 0x0, []⟩,
  ⟨"FL_REFRESH_LAST_HI", 0xD004C, [], 0x0, []⟩,
  ⟨"FL_RBUF", 0xD0100, [(0x4, 64)], 0x0, []⟩,
  ⟨"FL_DIGEST", 0xD0200, [(0x4, 8)], 0x0, []⟩]

/-- The rows of the FL block. -/
def rowsFL : List RegRow := rowsFL0

/-! ### MEM registers -/

abbrev MEM_DRAM_INFO : Nat := 0xE0000
abbrev MEM_DRAM_INFO_RATE : Fld := ⟨MEM_DRAM_INFO, 23, 16⟩
abbrev MEM_DRAM_INFO_DATA_GIB : Fld := ⟨MEM_DRAM_INFO, 15, 8⟩
abbrev MEM_DRAM_INFO_SIZE_GIB : Fld := ⟨MEM_DRAM_INFO, 7, 0⟩
abbrev MEM_DRAM_STAT : Nat := 0xE0004
abbrev MEM_DRAM_STAT_MR4 : Fld := ⟨MEM_DRAM_STAT, 12, 8⟩
abbrev MEM_DRAM_STAT_TRAINED : Fld := ⟨MEM_DRAM_STAT, 1, 1⟩
abbrev MEM_DRAM_STAT_READY : Fld := ⟨MEM_DRAM_STAT, 0, 0⟩
abbrev MEM_SCRUB_CTL : Nat := 0xE0010
abbrev MEM_SCRUB_CTL_SRAM_RATE : Fld := ⟨MEM_SCRUB_CTL, 23, 16⟩
abbrev MEM_SCRUB_CTL_DRAM_RATE : Fld := ⟨MEM_SCRUB_CTL, 15, 8⟩
abbrev MEM_SCRUB_CTL_SRAM_EN : Fld := ⟨MEM_SCRUB_CTL, 1, 1⟩
abbrev MEM_SCRUB_CTL_DRAM_EN : Fld := ⟨MEM_SCRUB_CTL, 0, 0⟩
abbrev MEM_SCRUB_STAT : Nat := 0xE0014
abbrev MEM_SCRUB_STAT_SRAM_PASSES : Fld := ⟨MEM_SCRUB_STAT, 31, 16⟩
abbrev MEM_SCRUB_STAT_DRAM_PASSES : Fld := ⟨MEM_SCRUB_STAT, 15, 0⟩
abbrev MEM_SCRUB_POS : Nat := 0xE0018
abbrev MEM_SCRUB_POS_GRANULE : Fld := ⟨MEM_SCRUB_POS, 28, 0⟩
abbrev MEM_ECC_DRAM_CNT : Nat := 0xE0020
abbrev MEM_ECC_DRAM_CNT_UNCORR : Fld := ⟨MEM_ECC_DRAM_CNT, 31, 16⟩
abbrev MEM_ECC_DRAM_CNT_CORR : Fld := ⟨MEM_ECC_DRAM_CNT, 15, 0⟩
abbrev MEM_ECC_DRAM_LAST : Nat := 0xE0024
abbrev MEM_ECC_DRAM_LAST_KIND : Fld := ⟨MEM_ECC_DRAM_LAST, 31, 30⟩
abbrev MEM_ECC_DRAM_LAST_SCRUB : Fld := ⟨MEM_ECC_DRAM_LAST, 29, 29⟩
abbrev MEM_ECC_DRAM_LAST_GRANULE : Fld := ⟨MEM_ECC_DRAM_LAST, 28, 0⟩
abbrev MEM_ECC_SRAM_LAST : Nat := 0xE0028
abbrev MEM_ECC_SRAM_LAST_KIND : Fld := ⟨MEM_ECC_SRAM_LAST, 31, 30⟩
abbrev MEM_ECC_SRAM_LAST_SCRUB : Fld := ⟨MEM_ECC_SRAM_LAST, 29, 29⟩
abbrev MEM_ECC_SRAM_LAST_ID : Fld := ⟨MEM_ECC_SRAM_LAST, 27, 24⟩
abbrev MEM_ECC_SRAM_LAST_OFFSET : Fld := ⟨MEM_ECC_SRAM_LAST, 23, 0⟩
abbrev MEM_ECC_SRAM_CNT (i : Nat) : Nat := 0xE0040 + 0x4 * i
abbrev MEM_ECC_SRAM_CNT_UNCORR (i : Nat) : Fld := ⟨(MEM_ECC_SRAM_CNT i), 31, 16⟩
abbrev MEM_ECC_SRAM_CNT_CORR (i : Nat) : Fld := ⟨(MEM_ECC_SRAM_CNT i), 15, 0⟩
abbrev MEM_CHK_CTL : Nat := 0xE0080
abbrev MEM_CHK_CTL_OP : Fld := ⟨MEM_CHK_CTL, 7, 4⟩
abbrev MEM_CHK_CTL_TARGET : Fld := ⟨MEM_CHK_CTL, 3, 0⟩
abbrev MEM_CHK_ADDR : Nat := 0xE0084
abbrev MEM_CHK_ADDR_INDEX : Fld := ⟨MEM_CHK_ADDR, 6, 0⟩
abbrev MEM_CHK_CODE : Nat := 0xE0088
abbrev MEM_CHK_CODE_CODE : Fld := ⟨MEM_CHK_CODE, 19, 0⟩
abbrev MEM_CHK_RES : Nat := 0xE008C
abbrev MEM_CHK_RES_KIND : Fld := ⟨MEM_CHK_RES, 31, 30⟩
abbrev MEM_CHK_RES_SYND : Fld := ⟨MEM_CHK_RES, 29, 21⟩
abbrev MEM_CHK_RES_ASYND : Fld := ⟨MEM_CHK_RES, 20, 15⟩
abbrev MEM_CHK_RES_PAR : Fld := ⟨MEM_CHK_RES, 14, 14⟩
abbrev MEM_CHK_RES_BIT : Fld := ⟨MEM_CHK_RES, 11, 0⟩
abbrev MEM_CHK_DATA (k : Nat) : Nat := 0xE00A0 + 0x4 * k
abbrev MEM_CHK_DATA_DATA (k : Nat) : Fld := ⟨(MEM_CHK_DATA k), 31, 0⟩

def rowsMEM0 : List RegRow := [
  ⟨"MEM_DRAM_INFO", 0xE0000, [], 0x4B0F10, []⟩,
  ⟨"MEM_DRAM_STAT", 0xE0004, [], 0x0, []⟩,
  ⟨"MEM_SCRUB_CTL", 0xE0010, [], 0x80403, [⟨23, 16, .rw⟩, ⟨15, 8, .rw⟩, ⟨1, 1, .rw⟩, ⟨0, 0, .rw⟩]⟩,
  ⟨"MEM_SCRUB_STAT", 0xE0014, [], 0x0, []⟩,
  ⟨"MEM_SCRUB_POS", 0xE0018, [], 0x0, []⟩,
  ⟨"MEM_ECC_DRAM_CNT", 0xE0020, [], 0x0, [⟨31, 16, .w1c⟩, ⟨15, 0, .w1c⟩]⟩,
  ⟨"MEM_ECC_DRAM_LAST", 0xE0024, [], 0x0, []⟩,
  ⟨"MEM_ECC_SRAM_LAST", 0xE0028, [], 0x0, []⟩,
  ⟨"MEM_ECC_SRAM_CNT", 0xE0040, [(0x4, 9)], 0x0, [⟨31, 16, .w1c⟩, ⟨15, 0, .w1c⟩]⟩,
  ⟨"MEM_CHK_CTL", 0xE0080, [], 0x0, [⟨7, 4, .wo⟩, ⟨3, 0, .rw⟩]⟩,
  ⟨"MEM_CHK_ADDR", 0xE0084, [], 0x0, [⟨6, 0, .rw⟩]⟩,
  ⟨"MEM_CHK_CODE", 0xE0088, [], 0x0, [⟨19, 0, .rw⟩]⟩,
  ⟨"MEM_CHK_RES", 0xE008C, [], 0x0, []⟩,
  ⟨"MEM_CHK_DATA", 0xE00A0, [(0x4, 8)], 0x0, [⟨31, 0, .rw⟩]⟩]

/-- The rows of the MEM block. -/
def rowsMEM : List RegRow := rowsMEM0

/-! ### FLT registers -/

abbrev FLT_STAT : Nat := 0xF0000
abbrev FLT_STAT_FALLBACK : Fld := ⟨FLT_STAT, 31, 31⟩
abbrev FLT_STAT_LAST_DEV : Fld := ⟨FLT_STAT, 21, 0⟩
abbrev FLT_CFG : Nat := 0xF0004
abbrev FLT_CFG_STN_HOLD : Fld := ⟨FLT_CFG, 31, 16⟩
abbrev FLT_CFG_STN_RETRY : Fld := ⟨FLT_CFG, 15, 12⟩
abbrev FLT_CFG_SS_TMO : Fld := ⟨FLT_CFG, 11, 8⟩
abbrev FLT_CFG_LOG_GAP : Fld := ⟨FLT_CFG, 7, 0⟩
abbrev FLT_SEV_IDX : Nat := 0xF0010
abbrev FLT_SEV_IDX_SRC : Fld := ⟨FLT_SEV_IDX, 15, 6⟩
abbrev FLT_SEV_IDX_KIND : Fld := ⟨FLT_SEV_IDX, 5, 0⟩
abbrev FLT_SEV_DATA : Nat := 0xF0014
abbrev FLT_SEV_DATA_FIXED : Fld := ⟨FLT_SEV_DATA, 7, 7⟩
abbrev FLT_SEV_DATA_DEFAULT : Fld := ⟨FLT_SEV_DATA, 6, 4⟩
abbrev FLT_SEV_DATA_SEV : Fld := ⟨FLT_SEV_DATA, 2, 0⟩
abbrev FLT_INJ : Nat := 0xF0018
abbrev FLT_INJ_MSG : Fld := ⟨FLT_INJ, 31, 0⟩
abbrev FLT_FORCE : Nat := 0xF001C
abbrev FLT_FORCE_FORCE : Fld := ⟨FLT_FORCE, 0, 0⟩
abbrev FLT_SRC_IDX : Nat := 0xF0020
abbrev FLT_SRC_IDX_SRC : Fld := ⟨FLT_SRC_IDX, 11, 2⟩
abbrev FLT_SRC_IDX_WORD : Fld := ⟨FLT_SRC_IDX, 1, 0⟩
abbrev FLT_STN (s : Nat) : Nat := 0xF0030 + 0x4 * s
abbrev FLT_STN_HELD (s : Nat) : Fld := ⟨(FLT_STN s), 31, 31⟩
abbrev FLT_STN_LOCKED (s : Nat) : Fld := ⟨(FLT_STN s), 30, 30⟩
abbrev FLT_STN_REL (s : Nat) : Fld := ⟨(FLT_STN s), 16, 16⟩
abbrev FLT_STN_COUNT (s : Nat) : Fld := ⟨(FLT_STN s), 15, 8⟩
abbrev FLT_STN_REMAIN (s : Nat) : Fld := ⟨(FLT_STN s), 7, 0⟩
abbrev FLT_UNUSABLE (w : Nat) : Nat := 0xF0040 + 0x4 * w
abbrev FLT_UNUSABLE_UNUSABLE (w : Nat) : Fld := ⟨(FLT_UNUSABLE w), 31, 0⟩
abbrev FLT_FB (n : Nat) : Nat := 0xF1000 + 0x4 * n
abbrev FLT_FB_PEND (n : Nat) : Fld := ⟨(FLT_FB n), 31, 31⟩
abbrev FLT_FB_KIND (n : Nat) : Fld := ⟨(FLT_FB n), 21, 16⟩
abbrev FLT_FB_ARG (n : Nat) : Fld := ⟨(FLT_FB n), 15, 0⟩
abbrev FLT_SRC_DATA : Nat := 0xF0024
abbrev FLT_SRC_DATA_DATA : Fld := ⟨FLT_SRC_DATA, 31, 0⟩

def rowsFLT0 : List RegRow := [
  ⟨"FLT_STAT", 0xF0000, [], 0x0, []⟩,
  ⟨"FLT_CFG", 0xF0004, [], 0x3C35FA, [⟨31, 16, .rw⟩, ⟨15, 12, .rw⟩, ⟨11, 8, .rw⟩, ⟨7, 0, .rw⟩]⟩,
  ⟨"FLT_SEV_IDX", 0xF0010, [], 0x0, [⟨15, 6, .rw⟩, ⟨5, 0, .rw⟩]⟩,
  ⟨"FLT_SEV_DATA", 0xF0014, [], 0x0, [⟨2, 0, .rw⟩]⟩,
  ⟨"FLT_INJ", 0xF0018, [], 0x0, [⟨31, 0, .rw⟩]⟩,
  ⟨"FLT_FORCE", 0xF001C, [], 0x0, [⟨0, 0, .wo⟩]⟩,
  ⟨"FLT_SRC_IDX", 0xF0020, [], 0x0, [⟨11, 2, .rw⟩, ⟨1, 0, .rw⟩]⟩,
  ⟨"FLT_STN", 0xF0030, [(0x4, 2)], 0x0, [⟨16, 16, .wo⟩]⟩,
  ⟨"FLT_UNUSABLE", 0xF0040, [(0x4, 32)], 0x0, []⟩,
  ⟨"FLT_FB", 0xF1000, [(0x4, 1024)], 0x0, [⟨31, 31, .w1c⟩]⟩,
  ⟨"FLT_SRC_DATA", 0xF0024, [], 0x0, []⟩]

/-- The rows of the FLT block. -/
def rowsFLT : List RegRow := rowsFLT0

/-! ### BIST registers -/

abbrev BIST_CTL : Nat := 0x100000
abbrev BIST_CTL_RUN_NOW : Fld := ⟨BIST_CTL, 2, 2⟩
abbrev BIST_CTL_READMIT_EN : Fld := ⟨BIST_CTL, 1, 1⟩
abbrev BIST_CTL_EN : Fld := ⟨BIST_CTL, 0, 0⟩
abbrev BIST_CFG : Nat := 0x100004
abbrev BIST_CFG_CYCLE : Fld := ⟨BIST_CFG, 31, 16⟩
abbrev BIST_CFG_GAP : Fld := ⟨BIST_CFG, 15, 8⟩
abbrev BIST_CFG_FAST_GAP : Fld := ⟨BIST_CFG, 7, 0⟩
abbrev BIST_STAT : Nat := 0x100008
abbrev BIST_STAT_STATE : Fld := ⟨BIST_STAT, 31, 30⟩
abbrev BIST_STAT_UNIT : Fld := ⟨BIST_STAT, 29, 23⟩
abbrev BIST_STAT_PROGRESS : Fld := ⟨BIST_STAT, 22, 16⟩
abbrev BIST_STAT_CYCLES : Fld := ⟨BIST_STAT, 15, 0⟩
abbrev BIST_UNIT_IDX : Nat := 0x100010
abbrev BIST_UNIT_IDX_UNIT : Fld := ⟨BIST_UNIT_IDX, 6, 0⟩
abbrev BIST_UNIT_DATA : Nat := 0x100014
abbrev BIST_UNIT_DATA_STATE : Fld := ⟨BIST_UNIT_DATA, 31, 30⟩
abbrev BIST_UNIT_DATA_READMIT : Fld := ⟨BIST_UNIT_DATA, 29, 28⟩
abbrev BIST_UNIT_DATA_LATE : Fld := ⟨BIST_UNIT_DATA, 27, 24⟩
abbrev BIST_UNIT_DATA_FAILS : Fld := ⟨BIST_UNIT_DATA, 23, 0⟩
abbrev BIST_SCAN_CTL : Nat := 0x100020
abbrev BIST_SCAN_CTL_START : Fld := ⟨BIST_SCAN_CTL, 0, 0⟩
abbrev BIST_SCAN_STAT : Nat := 0x100024
abbrev BIST_SCAN_STAT_RES : Fld := ⟨BIST_SCAN_STAT, 31, 30⟩
abbrev BIST_SCAN_STAT_FAIL : Fld := ⟨BIST_SCAN_STAT, 29, 29⟩
abbrev BIST_SCAN_STAT_PATTERNS : Fld := ⟨BIST_SCAN_STAT, 28, 0⟩

def rowsBIST0 : List RegRow := [
  ⟨"BIST_CTL", 0x100000, [], 0x3, [⟨2, 2, .wo⟩, ⟨1, 1, .rw⟩, ⟨0, 0, .rw⟩]⟩,
  ⟨"BIST_CFG", 0x100004, [], 0x2583205, [⟨31, 16, .rw⟩, ⟨15, 8, .rw⟩, ⟨7, 0, .rw⟩]⟩,
  ⟨"BIST_STAT", 0x100008, [], 0x0, []⟩,
  ⟨"BIST_UNIT_IDX", 0x100010, [], 0x0, [⟨6, 0, .rw⟩]⟩,
  ⟨"BIST_UNIT_DATA", 0x100014, [], 0x0, []⟩,
  ⟨"BIST_SCAN_CTL", 0x100020, [], 0x0, [⟨0, 0, .wo⟩]⟩,
  ⟨"BIST_SCAN_STAT", 0x100024, [], 0x0, []⟩]

/-- The rows of the BIST block. -/
def rowsBIST : List RegRow := rowsBIST0

/-! ### OWL registers -/

abbrev OWL_CTL : Nat := 0x110000
abbrev OWL_CTL_FLUSH_ACK : Fld := ⟨OWL_CTL, 1, 1⟩
abbrev OWL_CTL_RELEASE : Fld := ⟨OWL_CTL, 0, 0⟩
abbrev OWL_CFG : Nat := 0x110004
abbrev OWL_CFG_POST : Fld := ⟨OWL_CFG, 7, 0⟩
abbrev OWL_STAT : Nat := 0x110008
abbrev OWL_STAT_FROZEN : Fld := ⟨OWL_STAT, 31, 31⟩
abbrev OWL_STAT_MISSED : Fld := ⟨OWL_STAT, 30, 16⟩
abbrev OWL_STAT_SEQ : Fld := ⟨OWL_STAT, 15, 0⟩
abbrev OWL_MARK : Nat := 0x11000C
abbrev OWL_MARK_VALUE : Fld := ⟨OWL_MARK, 31, 0⟩
abbrev OWL_FLUSH : Nat := 0x110010
abbrev OWL_FLUSH_RES : Fld := ⟨OWL_FLUSH, 31, 30⟩
abbrev OWL_FLUSH_COUNT : Fld := ⟨OWL_FLUSH, 26, 16⟩
abbrev OWL_FLUSH_FIRST_SEQ : Fld := ⟨OWL_FLUSH, 15, 0⟩

def rowsOWL0 : List RegRow := [
  ⟨"OWL_CTL", 0x110000, [], 0x0, [⟨1, 1, .wo⟩, ⟨0, 0, .wo⟩]⟩,
  ⟨"OWL_CFG", 0x110004, [], 0x40, [⟨7, 0, .rw⟩]⟩,
  ⟨"OWL_STAT", 0x110008, [], 0x0, [⟨30, 16, .w1c⟩]⟩,
  ⟨"OWL_MARK", 0x11000C, [], 0x0, [⟨31, 0, .wo⟩]⟩,
  ⟨"OWL_FLUSH", 0x110010, [], 0x0, []⟩]

/-- The rows of the OWL block. -/
def rowsOWL : List RegRow := rowsOWL0

/-! ### SEC registers -/

abbrev SEC_LC : Nat := 0x120000
abbrev SEC_LC_SVN : Fld := ⟨SEC_LC, 22, 16⟩
abbrev SEC_LC_REVOKED : Fld := ⟨SEC_LC, 15, 12⟩
abbrev SEC_LC_DEBUG : Fld := ⟨SEC_LC, 9, 8⟩
abbrev SEC_LC_STATE : Fld := ⟨SEC_LC, 2, 0⟩
abbrev SEC_KEYS : Nat := 0x120004
abbrev SEC_KEYS_DOMAIN : Fld := ⟨SEC_KEYS, 31, 31⟩
abbrev SEC_KEYS_EK_VALID : Fld := ⟨SEC_KEYS, 30, 30⟩
abbrev SEC_KEYS_COUNT : Fld := ⟨SEC_KEYS, 13, 0⟩
abbrev SEC_ATT : Nat := 0x120008
abbrev SEC_ATT_LAST_MS : Fld := ⟨SEC_ATT, 31, 16⟩
abbrev SEC_ATT_PENDING : Fld := ⟨SEC_ATT, 14, 0⟩
abbrev SEC_CNT : Nat := 0x12000C
abbrev SEC_CNT_UNWRAP_FAIL : Fld := ⟨SEC_CNT, 31, 16⟩
abbrev SEC_CNT_QUOTES : Fld := ⟨SEC_CNT, 15, 0⟩
abbrev SEC_CHAL (k : Nat) : Nat := 0x120020 + 0x4 * k
abbrev SEC_CHAL_DATA (k : Nat) : Fld := ⟨(SEC_CHAL k), 31, 0⟩
abbrev SEC_SERIAL (k : Nat) : Nat := 0x120040 + 0x4 * k
abbrev SEC_SERIAL_DATA (k : Nat) : Fld := ⟨(SEC_SERIAL k), 31, 0⟩
abbrev SEC_MSR (n : Nat) (k : Nat) : Nat := 0x120100 + 0x40 * n + 0x4 * k
abbrev SEC_MSR_DATA (n : Nat) (k : Nat) : Fld := ⟨(SEC_MSR n k), 31, 0⟩

def rowsSEC0 : List RegRow := [
  ⟨"SEC_LC", 0x120000, [], 0x2, []⟩,
  ⟨"SEC_KEYS", 0x120004, [], 0x0, []⟩,
  ⟨"SEC_ATT", 0x120008, [], 0x0, []⟩,
  ⟨"SEC_CNT", 0x12000C, [], 0x0, [⟨31, 16, .w1c⟩]⟩,
  ⟨"SEC_CHAL", 0x120020, [(0x4, 8)], 0x0, []⟩,
  ⟨"SEC_SERIAL", 0x120040, [(0x4, 4)], 0x0, []⟩,
  ⟨"SEC_MSR", 0x120100, [(0x40, 8), (0x4, 16)], 0x0, []⟩]

/-- The rows of the SEC block.
DESIGN CHOICE (notes/assumptions/5.md, unsafe). -/
def rowsSEC : List RegRow := rowsSEC0

/-! ### UPD registers -/

abbrev UPD_STAT : Nat := 0x130000
abbrev UPD_STAT_STATE : Fld := ⟨UPD_STAT, 31, 28⟩
abbrev UPD_STAT_REASON : Fld := ⟨UPD_STAT, 27, 24⟩
abbrev UPD_STAT_TOKEN : Fld := ⟨UPD_STAT, 16, 16⟩
abbrev UPD_STAT_CHUNKS : Fld := ⟨UPD_STAT, 15, 0⟩
abbrev UPD_BUNDLE : Nat := 0x130004
abbrev UPD_BUNDLE_ID : Fld := ⟨UPD_BUNDLE, 31, 0⟩
abbrev UPD_COUNT : Nat := 0x130008
abbrev UPD_COUNT_COUNT : Fld := ⟨UPD_COUNT, 15, 0⟩
abbrev UPD_ACT_LO : Nat := 0x130010
abbrev UPD_ACT_LO_VALUE : Fld := ⟨UPD_ACT_LO, 31, 0⟩
abbrev UPD_ACT_HI : Nat := 0x130014
abbrev UPD_ACT_HI_VALUE : Fld := ⟨UPD_ACT_HI, 31, 0⟩
abbrev UPD_ACT_NS : Nat := 0x130018
abbrev UPD_ACT_NS_VALUE : Fld := ⟨UPD_ACT_NS, 31, 0⟩
abbrev UPD_ACT_TMO : Nat := 0x13001C
abbrev UPD_ACT_TMO_ACT_DRAIN_TMO : Fld := ⟨UPD_ACT_TMO, 15, 0⟩
abbrev UPD_ACT_STAT : Nat := 0x130020
abbrev UPD_ACT_STAT_OUTCOME : Fld := ⟨UPD_ACT_STAT, 31, 28⟩
abbrev UPD_ACT_STAT_TMO_EXPIRED : Fld := ⟨UPD_ACT_STAT, 27, 27⟩
abbrev UPD_ACT_STAT_ABORTED : Fld := ⟨UPD_ACT_STAT, 15, 0⟩
abbrev UPD_PROG : Nat := 0x130024
abbrev UPD_PROG_COMP : Fld := ⟨UPD_PROG, 31, 28⟩
abbrev UPD_PROG_PERCENT : Fld := ⟨UPD_PROG, 7, 0⟩

def rowsUPD0 : List RegRow := [
  ⟨"UPD_STAT", 0x130000, [], 0x0, []⟩,
  ⟨"UPD_BUNDLE", 0x130004, [], 0x0, []⟩,
  ⟨"UPD_COUNT", 0x130008, [], 0x0, []⟩,
  ⟨"UPD_ACT_LO", 0x130010, [], 0x0, []⟩,
  ⟨"UPD_ACT_HI", 0x130014, [], 0x0, []⟩,
  ⟨"UPD_ACT_NS", 0x130018, [], 0x0, []⟩,
  ⟨"UPD_ACT_TMO", 0x13001C, [], 0x78, [⟨15, 0, .rw⟩]⟩,
  ⟨"UPD_ACT_STAT", 0x130020, [], 0x0, []⟩,
  ⟨"UPD_PROG", 0x130024, [], 0xF0000000, []⟩]

/-- The rows of the UPD block. -/
def rowsUPD : List RegRow := rowsUPD0

/-! ### TXN registers -/

abbrev TXN_STAT_W0 (d : Nat) : Nat := 0x140000 + 0x10 * d
abbrev TXN_STAT_W0_STATE (d : Nat) : Fld := ⟨(TXN_STAT_W0 d), 31, 30⟩
abbrev TXN_STAT_W0_SVC (d : Nat) : Fld := ⟨(TXN_STAT_W0 d), 29, 29⟩
abbrev TXN_STAT_W0_WRITES (d : Nat) : Fld := ⟨(TXN_STAT_W0 d), 28, 16⟩
abbrev TXN_STAT_W0_SESSION (d : Nat) : Fld := ⟨(TXN_STAT_W0 d), 13, 0⟩
abbrev TXN_STAT_W1 (d : Nat) : Nat := 0x140004 + 0x10 * d
abbrev TXN_STAT_W1_SEQ (d : Nat) : Fld := ⟨(TXN_STAT_W1 d), 31, 0⟩
abbrev TXN_STAT_W2 (d : Nat) : Nat := 0x140008 + 0x10 * d
abbrev TXN_STAT_W2_LAST (d : Nat) : Fld := ⟨(TXN_STAT_W2 d), 31, 28⟩
abbrev TXN_STAT_W2_REASON (d : Nat) : Fld := ⟨(TXN_STAT_W2 d), 15, 0⟩
abbrev TXN_STAT_W3 (d : Nat) : Nat := 0x14000C + 0x10 * d
abbrev TXN_STAT_W3_ADDR (d : Nat) : Fld := ⟨(TXN_STAT_W3 d), 31, 0⟩
abbrev TXN_CFG : Nat := 0x140040
abbrev TXN_CFG_TMO : Fld := ⟨TXN_CFG, 15, 0⟩
abbrev TXN_PEEK_ADDR : Nat := 0x140050
abbrev TXN_PEEK_ADDR_SHADOW : Fld := ⟨TXN_PEEK_ADDR, 31, 31⟩
abbrev TXN_PEEK_ADDR_ADDR : Fld := ⟨TXN_PEEK_ADDR, 23, 0⟩
abbrev TXN_PEEK_IDX : Nat := 0x140054
abbrev TXN_PEEK_IDX_IDX : Fld := ⟨TXN_PEEK_IDX, 31, 0⟩
abbrev TXN_PEEK_DATA : Nat := 0x140058
abbrev TXN_PEEK_DATA_DATA : Fld := ⟨TXN_PEEK_DATA, 31, 0⟩

def rowsTXN0 : List RegRow := [
  ⟨"TXN_STAT_W0", 0x140000, [(0x10, 4)], 0x0, []⟩,
  ⟨"TXN_STAT_W1", 0x140004, [(0x10, 4)], 0x0, []⟩,
  ⟨"TXN_STAT_W2", 0x140008, [(0x10, 4)], 0x0, []⟩,
  ⟨"TXN_STAT_W3", 0x14000C, [(0x10, 4)], 0x0, []⟩,
  ⟨"TXN_CFG", 0x140040, [], 0x78, [⟨15, 0, .rw⟩]⟩,
  ⟨"TXN_PEEK_ADDR", 0x140050, [], 0x0, [⟨23, 0, .rw⟩]⟩,
  ⟨"TXN_PEEK_IDX", 0x140054, [], 0x0, [⟨31, 0, .rw⟩]⟩,
  ⟨"TXN_PEEK_DATA", 0x140058, [], 0x0, []⟩]

/-- The rows of the TXN block. -/
def rowsTXN : List RegRow := rowsTXN0

/-! ### CAL registers -/

abbrev CAL_CTL : Nat := 0x150000
abbrev CAL_CTL_MASK : Fld := ⟨CAL_CTL, 25, 16⟩
abbrev CAL_CTL_AUTO_EN : Fld := ⟨CAL_CTL, 8, 8⟩
abbrev CAL_CTL_STN : Fld := ⟨CAL_CTL, 4, 4⟩
abbrev CAL_CTL_ABORT : Fld := ⟨CAL_CTL, 1, 1⟩
abbrev CAL_CTL_START : Fld := ⟨CAL_CTL, 0, 0⟩
abbrev CAL_STAT : Nat := 0x150004
abbrev CAL_STAT_STATE : Fld := ⟨CAL_STAT, 31, 30⟩
abbrev CAL_STAT_PROC : Fld := ⟨CAL_STAT, 29, 26⟩
abbrev CAL_STAT_STN : Fld := ⟨CAL_STAT, 25, 25⟩
abbrev CAL_STAT_AUTO : Fld := ⟨CAL_STAT, 24, 24⟩
abbrev CAL_STAT_PROGRESS : Fld := ⟨CAL_STAT, 23, 16⟩
abbrev CAL_STAT_PENDING_1 : Fld := ⟨CAL_STAT, 1, 1⟩
abbrev CAL_STAT_PENDING_0 : Fld := ⟨CAL_STAT, 0, 0⟩
abbrev CAL_VALID : Nat := 0x150008
abbrev CAL_VALID_STN_1 : Fld := ⟨CAL_VALID, 16, 10⟩
abbrev CAL_VALID_STN_0 : Fld := ⟨CAL_VALID, 9, 3⟩
abbrev CAL_VALID_DEV : Fld := ⟨CAL_VALID, 2, 0⟩
abbrev CAL_RES : Nat := 0x15000C
abbrev CAL_RES_RES : Fld := ⟨CAL_RES, 31, 30⟩
abbrev CAL_RES_OUTCOME : Fld := ⟨CAL_RES, 29, 28⟩
abbrev CAL_RES_FAIL_PROC : Fld := ⟨CAL_RES, 27, 24⟩
abbrev CAL_RES_STN : Fld := ⟨CAL_RES, 23, 23⟩
abbrev CAL_RES_AUTO : Fld := ⟨CAL_RES, 22, 22⟩
abbrev CAL_RES_PASSED : Fld := ⟨CAL_RES, 9, 0⟩
abbrev CAL_ACK : Nat := 0x150010
abbrev CAL_ACK_ACK : Fld := ⟨CAL_ACK, 0, 0⟩
abbrev CAL_FMT : Nat := 0x150014
abbrev CAL_FMT_BLOB_LEN : Fld := ⟨CAL_FMT, 31, 16⟩
abbrev CAL_FMT_FORMAT : Fld := ⟨CAL_FMT, 15, 0⟩
abbrev CAL_LOAD_STAT : Nat := 0x150018
abbrev CAL_LOAD_STAT_OUT_1 : Fld := ⟨CAL_LOAD_STAT, 7, 4⟩
abbrev CAL_LOAD_STAT_OUT_0 : Fld := ⟨CAL_LOAD_STAT, 3, 0⟩
abbrev CAL_CNT : Nat := 0x15001C
abbrev CAL_CNT_FAIL : Fld := ⟨CAL_CNT, 31, 16⟩
abbrev CAL_CNT_CAMPAIGNS : Fld := ⟨CAL_CNT, 15, 0⟩
abbrev CAL_ADC (c : Nat) : Nat := 0x150100 + 0x4 * c
abbrev CAL_ADC_GAIN (c : Nat) : Fld := ⟨(CAL_ADC c), 31, 16⟩
abbrev CAL_ADC_OFS (c : Nat) : Fld := ⟨(CAL_ADC c), 15, 0⟩
abbrev CAL_RF (s : Nat) : Nat := 0x150200 + 0x4 * s
abbrev CAL_RF_GAIN (s : Nat) : Fld := ⟨(CAL_RF s), 31, 16⟩
abbrev CAL_RF_OFS (s : Nat) : Fld := ⟨(CAL_RF s), 15, 0⟩
abbrev CAL_MON (k : Nat) : Nat := 0x150240 + 0x4 * k
abbrev CAL_MON_GAIN (k : Nat) : Fld := ⟨(CAL_MON k), 31, 16⟩
abbrev CAL_MON_OFS (k : Nat) : Fld := ⟨(CAL_MON k), 15, 0⟩
abbrev CAL_ENC_W0 (s : Nat) : Nat := 0x150300 + 0x10 * s
abbrev CAL_ENC_W0_GAIN (s : Nat) : Fld := ⟨(CAL_ENC_W0 s), 31, 16⟩
abbrev CAL_ENC_W0_OFS (s : Nat) : Fld := ⟨(CAL_ENC_W0 s), 15, 0⟩
abbrev CAL_ENC_W1 (s : Nat) : Nat := 0x150304 + 0x10 * s
abbrev CAL_ENC_W1_GAIN (s : Nat) : Fld := ⟨(CAL_ENC_W1 s), 31, 16⟩
abbrev CAL_ENC_W1_OFS (s : Nat) : Fld := ⟨(CAL_ENC_W1 s), 15, 0⟩
abbrev CAL_ENC_W2 (s : Nat) : Nat := 0x150308 + 0x10 * s
abbrev CAL_ENC_W2_QUAD (s : Nat) : Fld := ⟨(CAL_ENC_W2 s), 15, 0⟩
abbrev CAL_ENC_W3 (s : Nat) : Nat := 0x15030C + 0x10 * s
abbrev CAL_ENC_W3_AMP (s : Nat) : Fld := ⟨(CAL_ENC_W3 s), 15, 0⟩
abbrev CAL_PU_W0 (n : Nat) : Nat := 0x150400 + 0x200 * n
abbrev CAL_PU_W0_GAIN (n : Nat) : Fld := ⟨(CAL_PU_W0 n), 31, 16⟩
abbrev CAL_PU_W0_OFS (n : Nat) : Fld := ⟨(CAL_PU_W0 n), 15, 0⟩
abbrev CAL_PU_W1 (n : Nat) : Nat := 0x150404 + 0x200 * n
abbrev CAL_PU_W1_GAIN (n : Nat) : Fld := ⟨(CAL_PU_W1 n), 31, 16⟩
abbrev CAL_PU_W1_OFS (n : Nat) : Fld := ⟨(CAL_PU_W1 n), 15, 0⟩
abbrev CAL_PU_RSV (n : Nat) (w : Nat) : Nat := 0x150408 + 0x200 * n + 0x4 * w
abbrev CAL_PU_LAYER (n : Nat) (l : Nat) (w : Nat) : Nat := 0x150420 + 0x200 * n + 0x10 * l + 0x4 * w
abbrev CAL_PU_LAYER_WORD (n : Nat) (l : Nat) (w : Nat) : Fld := ⟨(CAL_PU_LAYER n l w), 31, 0⟩

def rowsCAL0 : List RegRow := [
  ⟨"CAL_CTL", 0x150000, [], 0x3FF0100, [⟨25, 16, .rw⟩, ⟨8, 8, .rw⟩, ⟨4, 4, .rw⟩, ⟨1, 1, .wo⟩, ⟨0, 0, .wo⟩]⟩,
  ⟨"CAL_STAT", 0x150004, [], 0x0, []⟩,
  ⟨"CAL_VALID", 0x150008, [], 0x0, []⟩,
  ⟨"CAL_RES", 0x15000C, [], 0x0, []⟩,
  ⟨"CAL_ACK", 0x150010, [], 0x0, [⟨0, 0, .wo⟩]⟩,
  ⟨"CAL_FMT", 0x150014, [], 0xDA00001, []⟩,
  ⟨"CAL_LOAD_STAT", 0x150018, [], 0x0, []⟩,
  ⟨"CAL_CNT", 0x15001C, [], 0x0, [⟨31, 16, .w1c⟩]⟩,
  ⟨"CAL_ADC", 0x150100, [(0x4, 48)], 0x80000000, []⟩,
  ⟨"CAL_RF", 0x150200, [(0x4, 16)], 0x80000000, []⟩,
  ⟨"CAL_MON", 0x150240, [(0x4, 22)], 0x80000000, []⟩,
  ⟨"CAL_ENC_W0", 0x150300, [(0x10, 2)], 0x80000000, []⟩,
  ⟨"CAL_ENC_W1", 0x150304, [(0x10, 2)], 0x80000000, []⟩,
  ⟨"CAL_ENC_W2", 0x150308, [(0x10, 2)], 0x0, []⟩,
  ⟨"CAL_ENC_W3", 0x15030C, [(0x10, 2)], 0x0, []⟩,
  ⟨"CAL_PU_W0", 0x150400, [(0x200, 4)], 0x80000000, []⟩,
  ⟨"CAL_PU_W1", 0x150404, [(0x200, 4)], 0x80000000, []⟩,
  ⟨"CAL_PU_RSV", 0x150408, [(0x200, 4), (0x4, 6)], 0x0, []⟩,
  ⟨"CAL_PU_LAYER", 0x150420, [(0x200, 4), (0x10, 24), (0x4, 4)], 0x0, []⟩]

/-- The rows of the CAL block. -/
def rowsCAL : List RegRow := rowsCAL0

/-! ### PWR registers -/

abbrev PWR_STAT : Nat := 0x160000
abbrev PWR_STAT_BAND : Fld := ⟨PWR_STAT, 11, 9⟩
abbrev PWR_STAT_TJ_WARN : Fld := ⟨PWR_STAT, 8, 8⟩
abbrev PWR_STAT_VIN_REVERSE : Fld := ⟨PWR_STAT, 7, 7⟩
abbrev PWR_STAT_ILIM_ACTIVE : Fld := ⟨PWR_STAT, 6, 6⟩
abbrev PWR_STAT_BRK_HOT : Fld := ⟨PWR_STAT, 5, 5⟩
abbrev PWR_STAT_BRK_STUCK : Fld := ⟨PWR_STAT, 4, 4⟩
abbrev PWR_STAT_BRK_FAULT : Fld := ⟨PWR_STAT, 3, 3⟩
abbrev PWR_STAT_BRK_ON : Fld := ⟨PWR_STAT, 2, 2⟩
abbrev PWR_STAT_UVLO : Fld := ⟨PWR_STAT, 1, 1⟩
abbrev PWR_STAT_UV_WARN : Fld := ⟨PWR_STAT, 0, 0⟩
abbrev PWR_VBUS : Nat := 0x160004
abbrev PWR_VBUS_VIN : Fld := ⟨PWR_VBUS, 31, 16⟩
abbrev PWR_VBUS_VBUS : Fld := ⟨PWR_VBUS, 15, 0⟩
abbrev PWR_IBUS : Nat := 0x160008
abbrev PWR_IBUS_PEAK : Fld := ⟨PWR_IBUS, 31, 16⟩
abbrev PWR_IBUS_IBUS : Fld := ⟨PWR_IBUS, 15, 0⟩
abbrev PWR_ILIM : Nat := 0x16000C
abbrev PWR_ILIM_ILIM : Fld := ⟨PWR_ILIM, 15, 0⟩
abbrev PWR_BRK : Nat := 0x160010
abbrev PWR_BRK_I_EXP : Fld := ⟨PWR_BRK, 31, 16⟩
abbrev PWR_BRK_I_MEAS : Fld := ⟨PWR_BRK, 15, 0⟩
abbrev PWR_BRK_CFG : Nat := 0x160014
abbrev PWR_BRK_CFG_RES : Fld := ⟨PWR_BRK_CFG, 31, 16⟩
abbrev PWR_BRK_CFG_RATING : Fld := ⟨PWR_BRK_CFG, 15, 8⟩
abbrev PWR_BRK_E : Nat := 0x160018
abbrev PWR_BRK_E_E60 : Fld := ⟨PWR_BRK_E, 31, 16⟩
abbrev PWR_BRK_E_TESTS : Fld := ⟨PWR_BRK_E, 15, 0⟩
abbrev PWR_RAIL_12 : Nat := 0x160020
abbrev PWR_RAIL_12_EFF : Fld := ⟨PWR_RAIL_12, 31, 24⟩
abbrev PWR_RAIL_12_I : Fld := ⟨PWR_RAIL_12, 23, 12⟩
abbrev PWR_RAIL_12_V : Fld := ⟨PWR_RAIL_12, 11, 0⟩
abbrev PWR_RAIL_33 : Nat := 0x160024
abbrev PWR_RAIL_33_EFF : Fld := ⟨PWR_RAIL_33, 31, 24⟩
abbrev PWR_RAIL_33_I : Fld := ⟨PWR_RAIL_33, 23, 12⟩
abbrev PWR_RAIL_33_V : Fld := ⟨PWR_RAIL_33, 11, 0⟩
abbrev PWR_TEMP : Nat := 0x160030
abbrev PWR_TEMP_STOP : Fld := ⟨PWR_TEMP, 31, 24⟩
abbrev PWR_TEMP_WARN : Fld := ⟨PWR_TEMP, 23, 16⟩
abbrev PWR_TEMP_TJ_CORE : Fld := ⟨PWR_TEMP, 15, 8⟩
abbrev PWR_TEMP_TJ_SHELL : Fld := ⟨PWR_TEMP, 7, 0⟩
abbrev PWR_TJ_MAX : Nat := 0x160034
abbrev PWR_TJ_MAX_CORE : Fld := ⟨PWR_TJ_MAX, 15, 8⟩
abbrev PWR_TJ_MAX_SHELL : Fld := ⟨PWR_TJ_MAX, 7, 0⟩
abbrev PWR_CNT : Nat := 0x160038
abbrev PWR_CNT_ILIM_MS : Fld := ⟨PWR_CNT, 31, 16⟩
abbrev PWR_CNT_UV_WARNS : Fld := ⟨PWR_CNT, 15, 8⟩
abbrev PWR_CNT_OV_82 : Fld := ⟨PWR_CNT, 7, 0⟩
abbrev PWR_E_LO : Nat := 0x160040
abbrev PWR_E_LO_MJ : Fld := ⟨PWR_E_LO, 31, 0⟩
abbrev PWR_E_HI : Nat := 0x160044
abbrev PWR_E_HI_MJ : Fld := ⟨PWR_E_HI, 31, 0⟩

def rowsPWR0 : List RegRow := [
  ⟨"PWR_STAT", 0x160000, [], 0x0, []⟩,
  ⟨"PWR_VBUS", 0x160004, [], 0x0, []⟩,
  ⟨"PWR_IBUS", 0x160008, [], 0x0, [⟨31, 16, .w1c⟩]⟩,
  ⟨"PWR_ILIM", 0x16000C, [], 0x9C4, [⟨15, 0, .rw⟩]⟩,
  ⟨"PWR_BRK", 0x160010, [], 0x0, []⟩,
  ⟨"PWR_BRK_CFG", 0x160014, [], 0x0, []⟩,
  ⟨"PWR_BRK_E", 0x160018, [], 0x0, []⟩,
  ⟨"PWR_RAIL_12", 0x160020, [], 0x0, []⟩,
  ⟨"PWR_RAIL_33", 0x160024, [], 0x0, []⟩,
  ⟨"PWR_TEMP", 0x160030, [], 0x0, []⟩,
  ⟨"PWR_TJ_MAX", 0x160034, [], 0x0, [⟨15, 8, .w1c⟩, ⟨7, 0, .w1c⟩]⟩,
  ⟨"PWR_CNT", 0x160038, [], 0x0, [⟨31, 16, .w1c⟩, ⟨15, 8, .w1c⟩, ⟨7, 0, .w1c⟩]⟩,
  ⟨"PWR_E_LO", 0x160040, [], 0x0, []⟩,
  ⟨"PWR_E_HI", 0x160044, [], 0x0, []⟩]

/-- The rows of the PWR block. -/
def rowsPWR : List RegRow := rowsPWR0

/-! ### MTR registers -/

abbrev MTR_STAT : Nat := 0x170000
abbrev MTR_STAT_PTP : Fld := ⟨MTR_STAT, 31, 31⟩
abbrev MTR_STAT_EPOCH : Fld := ⟨MTR_STAT, 6, 0⟩
abbrev MTR_MINUTE : Nat := 0x170004
abbrev MTR_MINUTE_MINUTE : Fld := ⟨MTR_MINUTE, 31, 0⟩
abbrev MTR_CUR_IDX : Nat := 0x170010
abbrev MTR_CUR_IDX_TENANT : Fld := ⟨MTR_CUR_IDX, 15, 4⟩
abbrev MTR_CUR_IDX_WORD : Fld := ⟨MTR_CUR_IDX, 3, 0⟩
abbrev MTR_CUR_DATA : Nat := 0x170014
abbrev MTR_CUR_DATA_DATA : Fld := ⟨MTR_CUR_DATA, 31, 0⟩
abbrev MTR_BUS_LO : Nat := 0x170020
abbrev MTR_BUS_LO_MJ : Fld := ⟨MTR_BUS_LO, 31, 0⟩
abbrev MTR_BUS_HI : Nat := 0x170024
abbrev MTR_BUS_HI_MJ : Fld := ⟨MTR_BUS_HI, 31, 0⟩
abbrev MTR_SUM_LO : Nat := 0x170028
abbrev MTR_SUM_LO_MJ : Fld := ⟨MTR_SUM_LO, 31, 0⟩
abbrev MTR_SUM_HI : Nat := 0x17002C
abbrev MTR_SUM_HI_MJ : Fld := ⟨MTR_SUM_HI, 31, 0⟩
abbrev MTR_LOST : Nat := 0x170030
abbrev MTR_LOST_COUNT : Fld := ⟨MTR_LOST, 31, 0⟩
abbrev MTR_CONS (k : Nat) : Nat := 0x170100 + 0x4 * k
abbrev MTR_CONS_OWNER (k : Nat) : Fld := ⟨(MTR_CONS k), 31, 20⟩
abbrev MTR_CONS_POWER (k : Nat) : Fld := ⟨(MTR_CONS k), 19, 0⟩

def rowsMTR0 : List RegRow := [
  ⟨"MTR_STAT", 0x170000, [], 0x0, []⟩,
  ⟨"MTR_MINUTE", 0x170004, [], 0x0, []⟩,
  ⟨"MTR_CUR_IDX", 0x170010, [], 0x0, [⟨15, 4, .rw⟩, ⟨3, 0, .rw⟩]⟩,
  ⟨"MTR_CUR_DATA", 0x170014, [], 0x0, []⟩,
  ⟨"MTR_BUS_LO", 0x170020, [], 0x0, []⟩,
  ⟨"MTR_BUS_HI", 0x170024, [], 0x0, []⟩,
  ⟨"MTR_SUM_LO", 0x170028, [], 0x0, []⟩,
  ⟨"MTR_SUM_HI", 0x17002C, [], 0x0, []⟩,
  ⟨"MTR_LOST", 0x170030, [], 0x0, [⟨31, 0, .w1c⟩]⟩,
  ⟨"MTR_CONS", 0x170100, [(0x4, 21)], 0x0, []⟩]

/-- The rows of the MTR block. -/
def rowsMTR : List RegRow := rowsMTR0

/-- The rows of the block at base `0x10000 * b` (Table: Block bases). -/
def blockRows (b : Nat) : List RegRow :=
  match b with
  | 0 => rowsSYS
  | 1 => rowsTICK
  | 2 => rowsCE
  | 3 => rowsOPU
  | 4 => rowsCHN
  | 5 => rowsSPN
  | 6 => rowsAX
  | 7 => rowsMAG
  | 8 => rowsPLC
  | 9 => rowsNET
  | 10 => rowsCMD
  | 11 => rowsARB
  | 12 => rowsCCH
  | 13 => rowsFL
  | 14 => rowsMEM
  | 15 => rowsFLT
  | 16 => rowsBIST
  | 17 => rowsOWL
  | 18 => rowsSEC
  | 19 => rowsUPD
  | 20 => rowsTXN
  | 21 => rowsCAL
  | 22 => rowsPWR
  | 23 => rowsMTR
  | _ => []

/-- Whether offset `r` is the offset of an instance of a register with instances `dims`. -/
def matchDims : List (Nat × Nat) → Nat → Bool
  | [], r => r == 0
  | (st, c) :: ds, r => decide (r / st < c) && matchDims ds (r % st)

/-- The row of the register at address `a`, if one is listed (R637). -/
def findRow (a : Nat) : Option RegRow :=
  (blockRows (a / 0x10000)).find? fun r => decide (r.base ≤ a) && matchDims r.dims (a - r.base)

/-- Whether `a` is the address of a listed register (R637). -/
def isMapped (a : Nat) : Bool := (findRow a).isSome

end Sys2Proof.Machine
end

