-- ==== Sys2Proof/Machine/Sparse.lean ====
section
/-!
DEFINITION. Sparse stores. A register file, a memory or a table whose most entries hold their reset contents is a list
of (key, value) pairs in one canonical form: keys strictly rising, and no pair whose value is what an unlisted key reads
as. Reading and writing go through `sget` and `sput`; `swf` says the canonical form.
-/

namespace Sys2Proof.Machine

/-- The value held at key `k`, where an unlisted key holds `d k`. -/
def sget {α : Type} (d : Nat → α) : List (Nat × α) → Nat → α
  | [], k => d k
  | (k', v) :: t, k => if k' = k then v else sget d t k

/-- The store without key `k`. -/
def sdel {α : Type} (k : Nat) : List (Nat × α) → List (Nat × α)
  | [] => []
  | (k', v) :: t => if k' = k then sdel k t else (k', v) :: sdel k t

/-- The store with `(k, v)` put in before the first greater key. -/
def sins {α : Type} (k : Nat) (v : α) : List (Nat × α) → List (Nat × α)
  | [] => [(k, v)]
  | (k', v') :: t => if k < k' then (k, v) :: (k', v') :: t else (k', v') :: sins k v t

/-- The store with `v` written at key `k`: writing what an unlisted key holds removes the entry. -/
def sput {α : Type} [DecidableEq α] (d : Nat → α) (l : List (Nat × α)) (k : Nat) (v : α) : List (Nat × α) :=
  if v = d k then sdel k l else sins k v (sdel k l)

/-- Every key of the store is greater than `k`. -/
def sabove {α : Type} (k : Nat) (l : List (Nat × α)) : Bool := l.all fun e => decide (k < e.1)

/-- The canonical form. -/
def swf {α : Type} [DecidableEq α] (d : Nat → α) : List (Nat × α) → Bool
  | [] => true
  | (k, v) :: t => decide (v ≠ d k) && sabove k t && swf d t

end Sys2Proof.Machine
end

