-- ==== Sys2Proof/Machine/State.lean ====
section
/-!
DEFINITION. The state of the block, as plain data. Every register of 17_register_index.md has its home in `regs`, a
sparse store keyed by address in which an unlisted register reads as its reset word (R638); index-data tables have theirs
there too, under keys above the register space (Machine/RegMap.lean, Machine/Ops.lean). What the spec gives the machine
beside its registers is held in the records of this file.
DESIGN CHOICE (notes/assumptions/4.md, unsafe): Records that the spec names beside the registers start empty or at zero after reset; the spec states the registers' reset values and R1, R14 for the rest.
-/

namespace Sys2Proof.Machine

open Sys2Proof

/-- Reasons a step stops with a fault. No command of the spec is one that the spec gives no effect, so nothing raises
the one reason there is; it is kept so that the interface has a reason to name. -/
inductive Fault where
  /-- Raised by nothing. Safe: no state is lost by it. -/
  | none
deriving DecidableEq, Repr

/-- Reasons a command is refused by the model. -/
inductive Refusal where
  /-- Raised by an arm of `exec` whose command has no meaning yet. Safe: the run stops. -/
  | notModelled (mnemonic : String)
deriving DecidableEq, Repr

/-! ### Servo tick and control engine (02) -/

/-- What a kernel slot keeps beside its CE_KST words (R85 to R92, R95, R96). -/
structure KSlot where
  /-- Timestamp of the previous sample, in CE cycles since reset (R85). -/
  ts : Nat := 0
  /-- The input stage of the last run: the measurement, a parameter word (R78, R80). -/
  inp : List Word := []
  /-- de/dt of the last run, a parameter word. -/
  dedt : Word := 0
  /-- The next run takes de/dt as zero (R87 to R89). -/
  fresh : Bool := true
  /-- The kernel has run since EN was set (R87). -/
  started : Bool := false
  /-- The hold was active in the last run (R89). -/
  held : Bool := false
  /-- Layer index of the last run (R88). -/
  layer : Nat := 0
  /-- Working set-point of SPD_SMC, a parameter word (R90). -/
  work : Word := 0
  /-- Set-point supplied by the owning block's sequencer, a parameter word (SP_SRC 0x1). -/
  seqSp : Word := 0
  /-- Supervision is masked by the owning block's sequencer (R95). -/
  seqMask : Bool := false
  /-- The hold is forced by the owning block's sequencer (R141). -/
  seqHold : Bool := false
  /-- Zone amplitudes of SA_SET, parameter words in mV, zone 0 first (R92); a missing one is 0. -/
  zones : List Word := []
  /-- FOLLOW_ERR has been raised and the count has not returned to 0 since (R96). -/
  feRaised : Bool := false
  /-- The speed estimate of a BEMF_OBS slot, a parameter word in rpm, and its validity (R70, R72). -/
  est : Word := 0
  estOk : Bool := false
deriving DecidableEq, Repr

/-- What a trace unit keeps beside its registers (R106 to R112). -/
structure Trace where
  /-- Samples taken since arming, oldest first. -/
  samples : List Word := []
  /-- Ticks until the next sample. -/
  wait : Nat := 0
  /-- Samples still to be taken after the trigger. -/
  left : Nat := 0
  /-- Trigger-node value of the last tick, for the edge conditions. -/
  last : Option Word := none
  /-- The unit has taken its trigger since the last tick boundary (COND 0x7). -/
  fired : Bool := false
deriving DecidableEq, Repr

/-- What a visited slot held before its run of the current tick: an abandoned run leaves it so (R103). -/
structure SlotPrev where
  slot : Nat
  kept : KSlot
  /-- CE_KST words 0 to 3 and CE_LAT. -/
  w0 : Word
  w1 : Word
  w2 : Word
  w3 : Word
  lat : Word
  /-- The slot's output, where it was driven. -/
  out : Option Word
  /-- The slot's bit in CE_SAT. -/
  sat : Bool
deriving DecidableEq, Repr

/-- The control engine and the tick generator beside their registers. -/
structure CeSt where
  slots : Vector KSlot 48 := Vector.replicate 48 {}
  traces : Vector Trace 4 := Vector.replicate 4 {}
  /-- The page write buffer: page word addresses and values, oldest first (R113). -/
  wbuf : List (Nat × Word) := []
  /-- Page words whose REG_WRITE waits for the buffer to empty (R113): path, address, value. -/
  wwait : List (Path × Nat × Word) := []
  /-- Slots whose EN was cleared in this tick by a sequencer or a reaction (R77). -/
  enClr : List Nat := []
  /-- Driven outputs by output ID, as parameter words (R93). An output that is not listed is off: a bridge high-impedance, a
  sled correction, a laser current and a liquid-crystal drive at 0 (Table: Kernel types). -/
  outs : List (Nat × Word) := []
  /-- The visited slots before their runs of the current tick (R103). -/
  before : List SlotPrev := []
  /-- Length of the current tick in CE cycles, and CE cycles from reset to the boundary that began it (R57). -/
  tickLen : Nat := 1600
  cycles : Nat := 0
  /-- TICK_COUNT of the last slewed tick (R61). -/
  slewAt : Option Nat := none
  /-- Length of the coming tick where a phase step lengthens it (R62). -/
  stepLen : Option Nat := none
  /-- Raw servo ADC results of the last boundary. -/
  adc : List (BitVec 14) := []
  /-- Consecutive in-range and out-of-range SYNC_IN periods (R98). -/
  syncGood : Nat := 0
  syncBad : Nat := 0
  /-- CE-cycle time of the last SYNC_IN pulse captured (R97, R98). -/
  syncAt : Option Nat := none
  /-- Consecutive PTP seconds at or below LOCK_THR (R63). -/
  lockRun : Nat := 0
  /-- A re-phase of the epochs has been made since reset (R66). -/
  rephased : Bool := false
  /-- A re-phase is due at the next PTP second (R66). -/
  rephaseDue : Bool := false
  /-- PTP seconds of the last PTP second and its TICK_COUNT. -/
  ptpSec : Nat := 0
  secTick : Nat := 0
  /-- TICK_COUNT of the last epoch boundary and its PTP seconds (TICK_EP_TC, TICK_EP_PTP). -/
  epTick : Nat := 0
  epPtp : Nat := 0
  /-- TICK_COUNT of a tick boundary to come at which a PTP second ends the epoch (R66, R67). -/
  epochAt : Option Nat := none
  /-- Cycles that corrected reads of the microcode memory have cost the coming tick (R463). -/
  fixed : Nat := 0
deriving DecidableEq, Repr

/-! ### Faults, Hedgehog and the Owl (14) -/

/-- One event of the Owl ring (Table: Owl event). -/
structure OwlEvent where
  tick : Nat
  kind : BitVec 8
  flags : BitVec 8
  seq : BitVec 16
  data : Word
deriving DecidableEq, Repr

/-- A fault message held in its source's slot (R551, R552). -/
structure Msg where
  src : Nat
  kind : Nat
  arg : Nat
  injected : Bool := false
  test : Bool := false
deriving DecidableEq, Repr

/-- The collector beside its registers. -/
structure FltSt where
  /-- The slots filled in this tick, one per source (R552). -/
  slots : List Msg := []
  /-- The messages collected in the last tick, with the severity they were collected at: their reactions are due (R32). -/
  due : List (Msg × Nat) := []
  /-- TICK_COUNT of the last captured LOG event by source and kind, key `64 * src + kind` (R573). -/
  logAt : List (Nat × Nat) := []
  /-- TICK_COUNT of each STATION reaction of the last 3,600 s, newest first, by station (R560). -/
  reacts : Vector (List Nat) 2 := Vector.replicate 2 []
  /-- Consecutive ticks in which the self-check failed (R563). -/
  checkFails : Nat := 0
  /-- FLT_SEV_DATA.SEV of the pairs whose severity differs from its default, key `64 * src + kind`. -/
  sev : List (Nat × Nat) := []
  /-- The severity table as it applies to the messages of this tick (R556). -/
  sevNow : List (Nat × Nat) := []
deriving DecidableEq, Repr

/-- Hedgehog beside its registers (R567 to R572).
DESIGN CHOICE (notes/assumptions/21.md, unsafe). -/
structure BistSt where
  /-- A cycle runs, at FAST_GAP. -/
  running : Bool := false
  fast : Bool := false
  /-- Units of the cycle not yet reached, and units passed over that are tried again. -/
  rest : List Nat := []
  skipped : List Nat := []
  /-- The unit that has failed once and is tested again in the next slice (R570). -/
  retest : Option Nat := none
  /-- TICK_COUNT of the last slice and of the last start of a cycle. -/
  last : Option Nat := none
  start : Option Nat := none
  /-- Units that have passed since their source was marked. -/
  passed : List Nat := []
  /-- TICK_COUNT of the re-admissions of each source, newest first. -/
  returns : List (Nat × Nat) := []
  /-- The 64 KiB of the twin and images in use that unit 112 checks next. -/
  flashAt : Nat := 0
  /-- A logic scan runs (R572). -/
  scanning : Bool := false
deriving DecidableEq, Repr

/-- The Owl beside its registers (R573 to R577). -/
structure OwlSt where
  /-- The ring, oldest first, at most 4,096 events. -/
  ring : List OwlEvent := []
  /-- Events still to be captured before the ring freezes (R574). -/
  post : Option Nat := none
  /-- VBUS of the last 256 ticks, oldest first, 0.1 V (Table: Owl flush header). -/
  vbus : List (BitVec 16) := []
  /-- A flush on input loss starts at the next tick boundary (R575). -/
  flushDue : Bool := false
  /-- Programs of the flush still to complete; none while no flush runs. -/
  flushing : Option Nat := none
  /-- The housekeeper has reported the flush complete (R253). -/
  flushed : Bool := false
  /-- The two sectors have been checked since the start (R576). -/
  checked : Bool := false
deriving DecidableEq, Repr

/-! ### Modes and start-up (01, 12) -/

/-- Why the device is in DRAIN (R36, R38, R42). -/
inductive DrainCause where
  | none | host | flushAll | activation
deriving DecidableEq, Repr

/-- Where the start-up stands (R493 to R506). -/
inductive BootAt where
  /-- Reset is held until power-good. -/
  | held
  /-- Neither twin passed and the ROM stopped (R498). -/
  | stopped
  /-- Jack runs stage `n`, 1 to 7 (R502). -/
  | stage (n : Nat)
  /-- Stage 7 has ended. -/
  | done
deriving DecidableEq, Repr

/-- Modes and start-up beside the SYS registers. -/
structure SysSt where
  /-- Held until POWER_GOOD: DESIGN CHOICE (notes/assumptions/2.md, safe). -/
  boot : BootAt := .held
  drain : DrainCause := .none
  /-- SERVE has been reached since the last reset (R35). -/
  served : Bool := false
  /-- PROVISION has been entered since the last reset (R45). -/
  provisioned : Bool := false
  /-- A host request is PENDING and has its TARGET. -/
  reqPending : Bool := false
  /-- A PENDING request for MAINTAIN waits for the drain in progress (R36). -/
  maintainWaits : Bool := false
  /-- SAFE_STOP is due at the next tick boundary, with the SYS_MODE.CAUSE code. -/
  safeStopDue : Option Nat := none
  /-- TICK_COUNT of the boundary of the last mode change (R37). -/
  changedAt : Option Nat := none
  /-- TICK_COUNT of the entry to SAFE_STOP, and whether its bridges are off (R565). -/
  safeStopAt : Option Nat := none
  bridgesOff : Bool := false
  /-- Consecutive failed replays of a flit on the die-to-die link (R19). -/
  replayFails : Nat := 0
  /-- The device has prepared for the Jack overwrite in MAINTAIN (R605). -/
  overwrite : Bool := false
  /-- The housekeeper watchdog is armed (R496). -/
  wdogArmed : Bool := false
  /-- The boot ROM has started twin B (R498). -/
  twinB : Bool := false
  /-- Components, by their place in the image state record, whose sectors were erased again at start and not restored (R486). -/
  lostImgs : List Nat := []
  /-- The board descriptor as Jack has read it (R508); empty before. -/
  board : List Byte := []
deriving DecidableEq, Repr

/-! ### Optical pickup servo (03) -/

/-- The sequences of a pickup. -/
inductive PuOp where
  | acquire | jump | seek | park | readMode | writeMode | reacq
deriving DecidableEq, Repr

/-- What the OPU of one pickup keeps beside its registers. -/
structure PuSt where
  /-- The sequence running. -/
  op : Option PuOp := none
  /-- The sequence was ordered by OPU_CMD and reports in OPU_CMD_STAT. -/
  byCmd : Bool := false
  layer : Nat := 0
  turn : Nat := 0
  /-- Attempts made beyond the first (R138, R145, R146). -/
  tries : Nat := 0
  /-- TICK_COUNT of the first tick of the sequence. -/
  start : Nat := 0
  /-- Focus has been captured in this attempt. -/
  captured : Bool := false
  /-- Valid fields with the target's layer code since capture (R144). -/
  fields : Nat := 0
  /-- The layer an acquisition ends on by a further jump (R139). -/
  thenJump : Option Nat := none
  /-- The running jump belongs to an acquisition (R139). -/
  acqJump : Bool := false
  /-- Layer the current jump started from, and whether it was retried. -/
  origin : Nat := 0
  /-- Seek attempts (R150). -/
  seeks : Nat := 0
  /-- A host write cleared the tilt slot's EN during the jump (R148). -/
  tiltCleared : Bool := false
  /-- A dropout is present; a dropout was present at some moment of this tick (R151). -/
  dropout : Bool := false
  dropSeen : Bool := false
  /-- Consecutive ticks the hold has been active (R152). -/
  hold : Nat := 0
  /-- The read gates of the pickup's spots are closed (R141). -/
  gatesClosed : Bool := false
  /-- Consecutive invalid fields by spot (R125). -/
  miss : Vector Nat 4 := Vector.replicate 4 0
  /-- Consecutive ticks with the focus error within FE_OK (R138, R144). -/
  feOk : Nat := 0
  /-- The fields have confirmed the layer after capture (R144). -/
  confirmed : Bool := false
  /-- Turn reported by the last valid field of spot 0. -/
  seen : Nat := 0
  /-- CE-cycle time of the last valid servo field since the last boundary, and the spots that read one (R85, R124). -/
  fieldAt : Option Nat := none
  freshAt : Vector Bool 4 := Vector.replicate 4 false
  /-- Push-pull displacement of the pickup, in tp, that the fill of each spot counts from (R124). -/
  ppRef : Vector Rat 4 := Vector.replicate 4 0
  /-- Layers crossed in this attempt, TICK_COUNT of the last crossing, depth from the origin of the layer then crossed, and
  the speed between the last two crossings, in µm and µm per tk (R142). -/
  xings : Nat := 0
  xAt : Nat := 0
  xDepth : Rat := 0
  xSpeed : Option Rat := none
  /-- The pinhole sum stands above the crossing threshold. -/
  peak : Bool := false
  /-- Pinhole peaks counted in this sweep (step 3 of focus acquisition). -/
  peaks : Nat := 0
  /-- The estimated depth at the boundary, in µm from the origin layer (R142). -/
  estDepth : Rat := 0
  /-- The focus sum exceeds the calibrated minimum (Table: Derived pickup measurements). -/
  sumOk : Bool := false
  /-- Sign of the focus error at the last boundary, and a zero crossing at this one (step 4). -/
  feNeg : Bool := false
  feZero : Bool := false
  /-- Consecutive ticks with the radial error within TRK_OK (R144, R150). -/
  trkOk : Nat := 0
  /-- Consecutive ticks with the lens offset beyond OPU_LENS.LIM (R132), and the low-passed tracking coil current. -/
  lensRun : Nat := 0
  lensLp : Word := 0
  /-- Consecutive ticks with the read, write laser current at its limit and the power below its set-point (R160). -/
  rdLimRun : Nat := 0
  wrLimRun : Nat := 0
  /-- TICK_COUNT at which the present ramp of the focus coil began (SWEEP, LOCAL). -/
  rampAt : Nat := 0
  /-- The focus coil is driven by the ramp (step 2 of focus acquisition, R153), and its current when REACQ was entered. -/
  rampOut : Bool := false
  heldI : Rat := 0
  /-- The last valid field of spot 0 lay beyond WI_PES of its target (R155); the threshold of PES_A, refreshed each tick. -/
  pesF : Bool := false
  pesDac : Rat := 0
  /-- Where the index field lies after the encoder index, in fields, once it has become the angular reference (R126). -/
  indexRef : Nat := 0
  /-- A coarse move of the sled is awaited by the seek (R149). -/
  sledWait : Bool := false
  /-- The push-pull displacement was negative at the last boundary (R149). -/
  ppNeg : Bool := false
  /-- The spiral jump of this revolution runs (R128). -/
  jumped : Bool := false
  /-- Failed local attempts of a re-acquisition, and whether it runs a full acquisition (R153). -/
  localFails : Nat := 0
  full : Bool := false
  /-- Layer that CUR takes at the next boundary (R119). -/
  curNext : Option Nat := none
  /-- The order that starts at the next boundary after an abort: OP, layer, turn (R161). -/
  next : Option (Nat × Nat × Nat) := none
  /-- The set-point profile in progress: distance to go to, position and speed per tick (R128, R142, R149). -/
  spTo : Rat := 0
  spAt : Rat := 0
  spV : Rat := 0
  /-- Encoder count at the last field 0 (R133). -/
  zeroAt : Nat := 0
  /-- TICK_COUNT of the first tick of the running attempt (R146). -/
  attempt : Nat := 0
  /-- Mode to take at the next field 0: write mode or read mode (R133). -/
  modeNext : Option Bool := none
  /-- The hold was active at field 2,856 of this revolution (R130). -/
  skipJump : Bool := false
  /-- TICK_COUNT since which every zone amplitude equals its target (R121). -/
  saSince : Option Nat := none
  /-- Inhibit conditions present, by cause bit (R155). -/
  inhibit : Nat := 0
  /-- TICK_COUNT since which no inhibit condition is present (R157). -/
  clearSince : Nat := 0
  /-- Gate drops in this revolution (R157). -/
  drops : Nat := 0
  /-- A frame of the write stream is marked for rewrite (R154, R156). -/
  rewriteMark : Bool := false
  /-- TICK_COUNT of the gate's last drop. -/
  dropAt : Nat := 0
deriving DecidableEq, Repr

/-! ### Configuration transactions (13) -/

/-- A configuration domain beside its TXN_STAT words (R521 to R532). -/
structure TxnSt where
  /-- The shadow words the owner has written, by key; every other shadow word equals the applied word (R522). -/
  shadow : List (Nat × Word) := []
  /-- TICK_COUNT of the owner's last write, commit or rollback (R528). -/
  lastAt : Nat := 0
  /-- A commit that passed validation and waits for its boundary: the number of its TXN_COMMIT (R526). -/
  commit : Option Nat := none
  /-- The words the commit changed, ascending: key and new value (R532). -/
  changed : List (Nat × Word) := []
deriving DecidableEq, Repr

/-! ### Calibration (13) -/

/-- A calibration campaign (R540). -/
structure CalCamp where
  stn : Nat
  mask : Nat
  auto : Bool := false
  /-- Procedures still to run, the running one first; those that passed. -/
  left : List Nat
  passed : List Nat := []
  /-- The campaign has spun the station. -/
  spun : Bool := false
deriving DecidableEq, Repr

/-- A CAL_LOAD whose blob has passed and that waits to be loaded: its command, station and blob (R548). -/
structure CalLoad where
  cmd : Nat
  stn : Nat
  blob : List Byte
deriving DecidableEq, Repr

/-- Calibration beside the CAL registers. -/
structure CalSt where
  camp : Option CalCamp := none
  /-- Device procedures that run outside campaigns, the running one first (R538). -/
  dev : List Nat := []
  loads : List CalLoad := []
  /-- PTP seconds of the last passing station procedure, by station; temperature at the last FOC, by pickup (R544). -/
  ptp : Vector Nat 2 := Vector.replicate 2 0
  temps : Vector Nat 4 := Vector.replicate 4 0
deriving DecidableEq, Repr
/-! ### Axes and the picker (06) -/

/-- Where the homing of an axis stands (R282, R283). -/
inductive HomeAt where
  /-- Not homing. -/
  | no
  /-- Searching for the flag (step 1). -/
  | search
  /-- Stopping with DEC_1 after the flag was met (step 2). -/
  | stopping
  /-- Stopping with EMERG_DEC at an end switch, to search the other way (R283). -/
  | turning
  /-- Clearing the flag against HOME_DIR (step 3). -/
  | clearing
  /-- The further BACK full steps (step 4). -/
  | backing
  /-- The approach in HOME_DIR at HOME_VS (step 5). -/
  | approach
deriving DecidableEq, Repr

/-- What a stepper bridge puts on its two phases: nothing, in quiet mode the share of VBUS of each, in strong mode the current of each in
A (R264). -/
inductive PhaseDrive where
  | off
  | quiet (a b : Rat)
  | strong (a b : Rat)
deriving DecidableEq, Repr

/-- What is kept of one switch input (R280): its raw level, TICK_COUNT and position in microsteps of its last raw edge, and
TICK_COUNT of its raw transitions of the last 4,096 ticks. -/
structure SwitchSt where
  raw : Bool := false
  at_ : Nat := 0
  x : Rat := 0
  edges : List Nat := []
deriving DecidableEq, Repr

/-- The line that the following axis of a MOVE_ZX keeps (R277): the leader, where both started in microsteps, and the follower's
distance over the leader's. -/
structure ZxLine where
  lead : Nat
  start : Rat
  leadStart : Rat
  ratio : Rat
deriving DecidableEq, Repr

/-- What the profile unit keeps of an axis beside its registers. -/
structure AxSt where
  /-- Position in microsteps and speed in full steps per second, exact. -/
  x : Rat := 0
  v : Rat := 0
  /-- Target of the move in progress. -/
  dest : Option Int := none
  /-- Speed limit of the homing step in progress, full steps per second. -/
  cap : Option Nat := none
  /-- The stop in progress takes EMERG_DEC. -/
  emerg : Bool := false
  /-- The bridge's phases (R264). -/
  phases : PhaseDrive := .off
  /-- The bridge is switched off at standstill. -/
  offAfter : Bool := false
  home : HomeAt := .no
  /-- The homing search runs against HOME_DIR (R283). -/
  rev : Bool := false
  /-- The order reported RUNNING in AX_RES. -/
  running : Bool := false
  /-- Profile words in force during the move in progress: VSS, VBM, ACC, DEC, EDEC (R268, R269). -/
  prof : List Word := []
  /-- A profile register was written during the move and waits for the boundary (R268). -/
  latched : Bool := false
  /-- The end that tripped outside homing: only a move away from it is accepted until homing (R281). -/
  tripped : Option Bool := none
  /-- TICK_COUNT since which the axis stands (R265), or at which its move was ordered. -/
  since : Nat := 0
  /-- The bridge comes on from detent: the first step follows one tick later (R265). -/
  wake : Bool := false
  /-- The bridge is off after an over-current, until ENABLE is written 1 (R262). -/
  blown : Bool := false
  /-- The line of the MOVE_ZX in progress, of its following axis (R277). -/
  line : Option ZxLine := none
  /-- The inputs HOME, EOT_NEG and EOT_POS. -/
  sw : Vector SwitchSt 3 := Vector.replicate 3 {}
  /-- Microstep position at which gearing was engaged, counts since then, and the count last seen (R273). -/
  gearBase : Rat := 0
  gearD : Int := 0
  gearLast : Nat := 0
  /-- The sled error input 0x44 + n formed at the last boundary. -/
  err : Word := 0
  /-- A coarse move asked for by a seek runs; GEARED is engaged again at its end (R275). -/
  coarse : Bool := false
deriving DecidableEq, Repr

/-- Who ordered what the picker does. -/
inductive Requester where
  | stn0 | stn1 | maint
deriving DecidableEq, Repr

/-- An order of the picker: OP of MAG_CMD, station, slot to load from. -/
structure MagOrder where
  by_ : Requester
  op : Nat
  stn : Nat := 0
  slot : Nat := 0
  /-- Speed that the job that asked for the exchange needs (R287). -/
  rpm : Nat := 7200
  /-- Class of the job that caused the request and the tick of the request (R291); an order of MAG_CMD has no job and takes
  the highest class.
  DEDUCED (notes/assumptions/26.md, unsafe). -/
  prio : Nat := 7
  at_ : Nat := 0
deriving DecidableEq, Repr

/-- What the picker is doing. -/
inductive MagStage where
  | idle
  /-- Homing: the axes still to home, in order; whether a disc is carried to a slot before G homes (R284). -/
  | homing (left : List Nat) (carry : Bool)
  /-- The held disc is on its way to a slot (R284). -/
  | carry (slot : Nat)
  /-- The held disc is on its way to a station whose clamp is clear (R644). -/
  | toStation (st : Nat)
  /-- A MOVE_ZX order runs (R277). -/
  | moveZx
  /-- A slot is probed for being empty before the running order's first step (R644). -/
  | probe (slot : Nat)
  /-- The gripper leaves a probed slot, which was full or empty (R644). -/
  | probed (full : Bool)
  /-- An exchange runs at MAG_STAT.STEP. -/
  | exchange
deriving DecidableEq, Repr

/-- One move of Badger: Z and X together, or one axis. -/
inductive MagMove where
  | zx (z x : Int)
  | axis (a : Nat) (dest : Int)
deriving DecidableEq, Repr

/-- What the MAG block keeps beside its registers. -/
structure MagSt where
  /-- The requests that wait for the picker grant, at most one per requester. -/
  waiting : List MagOrder := []
  /-- The order that runs. -/
  run : Option MagOrder := none
  /-- Its first move has started. -/
  started : Bool := false
  /-- TICK_COUNT of the start of its first step. -/
  start : Nat := 0
  /-- The moves still to make before the step or stage is over. -/
  plan : List MagMove := []
  /-- The grip of step 14 has been repeated (R288). -/
  regripped : Bool := false
  /-- The exchange returns without a disc to load (R288, steps 10 and 14), with its REASON. -/
  failing : Option Nat := none
  /-- The source slot of the disc in the gripper, when known. -/
  held : Option Nat := none
  /-- A disc is in the gripper, as the exchange knows it. -/
  holding : Bool := false
  /-- A DEGRADE has arrived during an exchange or RECOVER (R295). -/
  degrade : Bool := false
  stage : MagStage := .idle
  /-- The stage belongs to a RECOVER (R290). -/
  recovering : Bool := false
  /-- The slot an unload returns the station's disc to. -/
  ret : Option Nat := none
  /-- TICK_COUNT of the start of the exchange whose pickups are awaited. -/
  focusAt : Nat := 0
  /-- The exchange has ended its steps and waits for both pickups (R287). -/
  focusing : Option Nat := none
deriving DecidableEq, Repr

/-! ### Spindles (05) -/

/-- What the SPN block of one station keeps beside its registers. -/
structure StnSt where
  /-- TICK_COUNT of the spin order that has not yet produced AT_SPEED (R243). -/
  orderAt : Option Nat := none
  /-- The order reported RUNNING in SPN_CMD_STAT. -/
  running : Bool := false
  /-- TICK_COUNT of the last change of the target (R245). -/
  changedAt : Nat := 0
  /-- An index check has failed since the last stop (R226). -/
  indexBad : Bool := false
  /-- ALIGN is in its second pass of vectors (R230). -/
  pass2 : Bool := false
  /-- TICK_COUNT at which the loss of both sources was found (R246). -/
  lostAt : Nat := 0
  /-- SPIN_DOWN was entered from RECATCH, so STOPPED leads to UNUSABLE. -/
  recaught : Bool := false
  /-- UNUSABLE was entered through RECATCH or SHORT_BRAKE: only device reset leaves it. -/
  forGood : Bool := false
  /-- Observer speed of the last boundary, 0.125 rpm (R232). -/
  obsLast : Nat := 0
  /-- The observer's speed is in its range, and consecutive ticks with its residual beyond 25% of the limit (R232). -/
  obsIn : Bool := false
  resRun : Nat := 0
  /-- Consecutive revolutions within TOL (R257). -/
  marRun : Nat := 0
  /-- The phase term applied at the last boundary (R256, R257). -/
  marOn : Bool := false
  /-- A stop order of this tick (R238). -/
  stopAt : Option Nat := none
  /-- Target of an accepted spin order that waits in OFF for the homing of the station's sleds (R276). -/
  spinAt : Option Nat := none
  /-- The re-catch interval has passed (R246). -/
  noRecatch : Bool := false
  /-- Hold-up generation runs (R253). -/
  holdup : Bool := false
  /-- OVERSPEED has been raised and the speed has not fallen below the threshold since. -/
  fast : Bool := false
  /-- The phase error supplied to the speed slot, degrees mechanical (R255). -/
  marErr : Rat := 0
  /-- Consecutive ticks with the encoder amplitude out of its range (R226), with encoder and observer 15° apart (R233), with the
  speed within 0.1% of the target (R241), and below 30 rpm (R236). -/
  ampRun : Nat := 0
  disRun : Nat := 0
  nearRun : Nat := 0
  slowRun : Nat := 0
  /-- The vectors of the present pass that have ended, TICK_COUNT at which the present vector or its high impedance began, and whether
  it is the latter (R229); TICK_COUNT at which the alignment of the fallback began (R230). -/
  vec : Nat := 0
  vecAt : Nat := 0
  vecOff : Bool := false
  fallAt : Option Nat := none
  /-- What the encoder's count stood at where the first index set COUNT to 0 (R227). -/
  indexOfs : Nat := 0
  /-- Encoder count at which ALIGN ended (R231), and the observer's angle in 0.01° electrical. -/
  alignCount : Nat := 0
  obsAngle : Nat := 0
  /-- The Ke window in progress: ticks, back-EMF amplitudes in mV and encoder speeds in 0.125 rpm summed over them (R245). -/
  keN : Nat := 0
  keE : Nat := 0
  keV : Nat := 0
  /-- The current references of the legs in A, their currents in mA, their switch states (high), whether the whole bridge is
  high-impedance, and the leg forced low (R221, R222). -/
  refs : Vector Rat 3 := Vector.replicate 3 0
  legs : Vector Int 3 := Vector.replicate 3 0
  high : Vector Bool 3 := Vector.replicate 3 false
  hiz : Bool := true
  forced : Option (Fin 3) := none
deriving DecidableEq, Repr

/-! ### Power (16) -/

/-- What the power block keeps beside its registers. -/
structure PwrSt where
  /-- The row of Table: Braking by VBUS in force above 74 V: 0 none, 1 from 76 V, 2 from 77 V, 3 from 78 V, 4 from 82 V,
  each until its lower threshold (R249). -/
  zone : Nat := 0
  /-- Chopper energy in 0.2 nJ of the last 59 whole seconds, newest first, and of the running second (R617). -/
  chop : List Nat := []
  chopNow : Nat := 0
  /-- TICK_COUNT of the last ILIM_ACTIVE fault, and ticks of the running ms of ILIM_ACTIVE (R618). -/
  ilimAt : Option Nat := none
  ilimTicks : Nat := 0
  /-- The factor that scales each station's torque limit in this tick; 1 where the input current does not limit it (R618). -/
  factor : Vector Rat 2 := Vector.replicate 2 1
  /-- VBUS x IBUS summed since reset, in 0.2 nJ (PWR_E). -/
  energy : Nat := 0
  /-- Consecutive ticks in which the chopper current was out of its band (R251). -/
  badChop : Nat := 0
  /-- TICK_COUNT of the last reverse current, its value in mA, and the ticks for which it has exceeded 200 mA (R614). -/
  reverseAt : Nat := 0
  reverse : Nat := 0
  reverseFor : Nat := 0
  /-- Ticks for which the 12 V and the 3.3 V rail have been outside ±10% of nominal (R619). -/
  railBad : Vector Nat 2 := Vector.replicate 2 0
  /-- The chopper has conducted in the running second, and in the one before it (R251). -/
  chopped : Bool := false
  choppedLast : Bool := true
deriving DecidableEq, Repr


/-! ### Memories, the cache and the flash (10, 11) -/

/-- What the memories hold beside their registers. -/
structure MemSt where
  /-- The DRAM by byte address: the 15 GiB data space, then two check bytes for each granule (R465, R466). A byte not
  listed reads as `dramDefault` (Machine/MemOps.lean). -/
  dram : List (Nat × Byte) := []
  /-- The SRAM test rows, 13 bits a byte (data, then five check bits), key `64 * SRAM + byte`; 0 where not listed.
DESIGN CHOICE (notes/assumptions/11.md, unsafe). -/
  rows : List (Nat × BitVec 13) := []
  /-- Cells of the SRAMs that have upset and stand uncorrected (R461): for byte `o` of SRAM `i`, key `2^24 * i + o`, what its 13 bits
  (data, then five check bits) differ by from a codeword; 0 where not listed. -/
  sram : List (Nat × BitVec 13) := []
  /-- Next 8-byte word of the SRAM scrubber (R470). -/
  sramPos : Nat := 0
  /-- Granule that the last DRAM access returned, none when it returned an error (R467, R469). -/
  last : Option (BitVec 256) := none
deriving DecidableEq, Repr

/-- A way of the context cache that is valid or locked. -/
structure CLine where
  set : Nat
  way : Nat
  /-- Address bits 33:6. -/
  tag : Nat
  valid : Bool := true
  locked : Bool := false
  data : BitVec 512 := 0
deriving DecidableEq, Repr

/-- An access that waits: its address, and the bytes of a write. -/
structure CAccess where
  addr : Nat
  bytes : Option (List Byte) := none
deriving DecidableEq, Repr

/-- The context and map cache beside its registers (R448 to R458). -/
structure CchSt where
  lines : List CLine := []
  /-- Replacement bits of a set, 0 where not listed: bit `i` of node `i` points to its right half. -/
  plru : List (Nat × Nat) := []
  /-- Address bits 33:6 of the outstanding miss. -/
  miss : Option Nat := none
  /-- Accesses that wait for the line under fill. -/
  waiters : List CAccess := []
  /-- Accesses stalled behind a second miss, oldest first. -/
  stalled : List CAccess := []
  /-- Accesses whose line lies in the range of a running INV_RANGE (R458). -/
  held : List CAccess := []
  /-- Lines of the last read served. -/
  out : List (BitVec 512) := []
deriving DecidableEq, Repr

/-- A flash descriptor (Table: Flash descriptor). -/
structure FlDesc where
  host : Bool
  urgent : Bool := false
  tag : Nat := 0
  op : Nat
  addr : Nat
  len : Nat := 0
  buf : Word := 0
  data : List Byte := []
  /-- Verifications that have failed (R484). -/
  fails : Nat := 0
  /-- A program of the Owl flush, a step of a refresh pass: the data it moves is not held here (R490, R575). -/
  owl : Bool := false
  refresh : Bool := false
deriving DecidableEq, Repr

/-- An entry of the erase journal (R484): TYPE, SECTOR and SEQ. -/
structure JEntry where
  kind : Nat
  sector : Nat
  seq : Nat
deriving DecidableEq, Repr

/-- An image state record (R487): SEQ, twin B active, and for each component first sector, sector count, complete. -/
structure ImgRec where
  seq : Nat
  twinB : Bool
  comps : List (Nat × Nat × Bool)
deriving DecidableEq, Repr

/-- An entry of the refresh record (R489). -/
structure RefrRec where
  seq : Nat
  state : Nat
  sector : Nat
  ptp : Nat
deriving DecidableEq, Repr

/-- The record flushed at input loss (R575): the events, and what the header holds of the servo state. -/
structure OwlFlush where
  events : List OwlEvent
  tick : Nat
  ptp : Nat
  mode : Nat
  frozen : Bool
  ce : List Word := []
  spn : List Word := []
  opu : List Word := []
  ax : List Word := []
  vbus : List (BitVec 16) := []
deriving DecidableEq, Repr

/-- The embedded flash beside its registers. Its contents survive every reset (R514). -/
structure FlashSt where
  /-- The bytes of the sectors that hold no structured record; 0xFF where not listed (blank).
DESIGN CHOICE (notes/assumptions/11.md, unsafe). -/
  cells : List (Nat × Byte) := []
  /-- The sectors that still hold what the factory wrote: the twins, the certificate record and the image sectors (R640).
DESIGN CHOICE (notes/assumptions/6.md, unsafe). -/
  factory : List Nat := [0, 1, 8] ++ (List.range 48).map (· + 10) ++ [72, 73] ++ (List.range 12).map (· + 76) ++ [100, 101, 102, 103]
  /-- The entries of journal sectors 2 and 3, in the order of their positions. -/
  jrnl : Vector (List JEntry) 2 := Vector.replicate 2 []
  /-- The records of image state sectors 4 and 5. -/
  imgs : Vector (List ImgRec) 2 := Vector.replicate 2 []
  refr : List RefrRec := []
  /-- The flush whose valid header stands in the Owl sectors. -/
  flush : Option OwlFlush := none
  /-- Owl flush sectors A and B are not blank. -/
  owlA : Bool := false
  owlB : Bool := false
  /-- The flush whose programs run. -/
  flushing : Option OwlFlush := none
  /-- Cells that have upset since their erase or program: of word `a / 16`, what its 137 bits (128 of data, then the check bits)
  differ by from the codeword programmed (R476); 0 where not listed. -/
  upset : List (Nat × BitVec 137) := []
  /-- The descriptors queued, in queue order; the modifying one that runs; the erase that is suspended; the reading one
  that runs. -/
  queue : List FlDesc := []
  run : Option FlDesc := none
  susp : Option FlDesc := none
  rd : Option FlDesc := none
  /-- Host completions waiting: TAG, OP, STATUS. -/
  cmpl : List (Nat × Nat × Nat) := []
  /-- The last completion of a device core's descriptor: OP, STATUS. -/
  coreDone : Option (Nat × Nat) := none
  /-- PTP seconds at the start of the refresh pass, and its halt after the current sector (R490, R491). -/
  refreshPtp : Nat := 0
  stopRefresh : Bool := false
deriving DecidableEq, Repr

/-! ### Placement (07) -/

/-- Identity of a unit: tenant, object key, version, unit index. -/
structure UnitId where
  tenant : Nat
  key : Nat
  ver : Nat
  unit : Nat
deriving DecidableEq, Repr

/-- An entry of the unit map (Table: Unit map entry). -/
structure MapEnt where
  id : UnitId
  hdr : Nat
  /-- 0 live, 1 superseded, 2 tombstoned, 3 index pending. -/
  state : Nat := 0
  slot : Nat
  repl : Nat := 0x10
  len : Nat
  flags : Nat := 0
  keyGen : Nat := 15
  ptp : Nat := 0
  tail : Nat := 0
  /-- The rewrite table of its record, where it is known: logical frame and the address at which it lies, in order (R183). -/
  moved : List (Nat × Nat) := []
  /-- EXT_SEQ of its header. -/
  seq : Nat := 0
  /-- Relocated blocks: block number and the address of its first frame. -/
  reloc : List (Nat × Nat) := []
  /-- The entry counts DEAD: abandoned, replaced or of an abandoned version (R332, R402). -/
  dead : Bool := false
deriving DecidableEq, Repr

/-- A version this device holds open (R298). -/
structure OpenVer where
  tenant : Nat
  key : Nat
  ver : Nat
  session : Path
  /-- Units placed and units counted as committed (R402). -/
  placed : Nat := 0
  counted : Nat := 0
  /-- Object bytes of the counted units; the last unit is known. -/
  bytes : Nat := 0
  last : Option Nat := none
  /-- Length of the last counted unit, the devices that hold it and its bytes; its header seals the version (R300, R301). -/
  lastLen : Nat := 0
  lastDevs : List Nat := []
  lastData : List Byte := []
deriving DecidableEq, Repr

/-- A device's best local target for a unit (R304). -/
structure Target where
  slot : Nat
  side : Nat
  layer : Nat
  station : Nat
  /-- 0 spinning, 1 loaded and stopped, 2 in the magazine. -/
  loaded : Nat
deriving DecidableEq, Repr

/-- A bid: energy in nJ and start in ms (R305). -/
structure BidRec where
  dev : Nat
  energy : Nat
  start : Nat
  target : Option Target := none
deriving DecidableEq, Repr

inductive AttState where
  | running | committed | failed
deriving DecidableEq, Repr

/-- An attempt to write a copy of a unit (R308, R309). -/
structure Attempt where
  dev : Nat
  xid : Nat
  st : AttState := .running
  /-- TICK_COUNT of the last PROGRESS, or of the award. -/
  seen : Nat
  target : Option Target := none
  /-- The attempt replaces a failed one. -/
  repl : Bool := false
deriving DecidableEq, Repr

inductive UnitPhase where
  /-- The host's data is being fetched by RDMA READ. -/
  | fetch
  /-- The data is in the write buffer and the unit waits to be placed. -/
  | ready
  /-- A bid round runs. -/
  | bidding
  /-- Awarded; copies are being written. -/
  | placed
  /-- Complete under R310. -/
  | complete
  /-- Ended with no committed copy, not placed, or abandoned. -/
  | failed
deriving DecidableEq, Repr

/-- A unit being placed by this device for a command, a re-replication or a migration. -/
structure UnitSt where
  n : Nat := 0
  id : UnitId
  /-- The command it belongs to; none for a house job. -/
  cmd : Option Nat
  len : Nat
  flags : Nat
  phase : UnitPhase := .fetch
  /-- Bytes fetched so far: their number, and the bytes; of a re-replication read from a peer, the segments that hold them. -/
  got : Nat := 0
  data : List Byte := []
  parts : List (Nat × List Byte) := []
  /-- Candidates not yet used, the XID of the bid round, devices asked and not answered, bids held. -/
  cands : List Nat := []
  xid : Nat := 0
  asked : List Nat := []
  bids : List BidRec := []
  bidAt : Nat := 0
  /-- The round re-places a failed copy. -/
  again : Bool := false
  /-- Re-placements made for failed copies (R309): the devices whose copy was re-placed. -/
  replaced : List Nat := []
  /-- Devices asked in any round. -/
  used : List Nat := []
  /-- Counted as committed (R402). -/
  counted : Bool := false
  /-- The sealing copy of a SEAL (R301). -/
  sealing : Bool := false
  atts : List Attempt := []
  /-- REPLICAS and ACK_COPIES of the policy when the unit came to be placed (R314). -/
  reps : Nat := 1
  ack : Nat := 1
  /-- A re-replication; a migration. -/
  rerepl : Bool := false
  mig : Bool := false
deriving DecidableEq, Repr

/-- A tombstone (R329). -/
structure Tomb where
  tenant : Nat
  key : Nat
  ver : Nat
  whole : Bool := false
  keyGen : Nat := 0
deriving DecidableEq, Repr

/-- A peer of the domain as this device sees it (R320). -/
structure PeerSt where
  dev : Nat
  misses : Nat := 0
  downAt : Option Nat := none
  /-- Tombstones to be sent again once it is tried again (R330). -/
  owed : List Tomb := []
deriving DecidableEq, Repr

/-- An answer to a lookup: who answered, held or not, the version and the highest sequence held for unit 0, energy in nJ
and start in ms of serving it, and when it came (R322, R323). -/
structure HintRec where
  dev : Nat
  held : Bool
  ver : Nat := 0
  seq : Nat := 0
  energy : Nat := 0
  start : Nat := 0
  at_ : Nat := 0
deriving DecidableEq, Repr

/-- A HINT_REQ outstanding: whom it went to, its exchange, the search it belongs to, and when it was sent. -/
structure HintAsk where
  dev : Nat
  xid : Nat
  srch : Nat
  at_ : Nat
deriving DecidableEq, Repr

/-- What a location search is for. -/
inductive SearchFor where
  /-- A PUT that opens a version, a GET's unit, a DELETE's holders, a RESERVE's holder: the command. -/
  | put (cmd : Nat) | get (cmd unit : Nat) | del (cmd : Nat) | res (cmd : Nat)
deriving DecidableEq, Repr

/-- A location search (R321): version 0 asks for the newest sealed one. -/
structure Search where
  n : Nat
  for_ : SearchFor
  id : UnitId
  /-- The tier under search, 2 to 4. -/
  tier : Nat := 2
  /-- Devices not asked: holders that have failed the read. -/
  skip : List Nat := []
  found : List HintRec := []
deriving DecidableEq, Repr

/-- A unit this device holds for a peer, from its AWARD on (R308). -/
structure Incoming where
  src : Nat
  xid : Nat
  id : UnitId
  len : Nat
  flags : Nat
  repl : Nat
  target : Target
  /-- Segments received, their bytes, and how many there are. -/
  segs : List Nat := []
  parts : List (Nat × List Byte) := []
  total : Nat := 0
  /-- TICK_COUNT of the last PROGRESS sent. -/
  progAt : Nat := 0
deriving DecidableEq, Repr

/-- Segments sent and not yet acknowledged (R319): exchange, receiver, segment numbers, TICK_COUNT of the last sending. -/
structure Sending where
  xid : Nat
  dev : Nat
  segs : List Nat
  at_ : Nat
deriving DecidableEq, Repr

/-- A peer message sent: receiver, type (Table: Peer message types), exchange, content as numbers. -/
structure PeerMsg where
  dst : Nat
  type : Nat
  xid : Nat
  body : List Nat := []
deriving DecidableEq, Repr

/-- A tombstone whose frames are still to be verified: for which command or peer, and the sides left (R330). -/
structure TombJob where
  tomb : Tomb
  cmd : Option Nat
  peer : Option (Nat × Nat)
  /-- Disc sides whose index frame is still to be verified: slot and side. -/
  left : List (Nat × Nat)
deriving DecidableEq, Repr

/-- A record pending for an index area (Table: Index record). -/
structure IdxRec where
  type : Nat
  id : UnitId
  hdr : Nat := 0
  frames : Nat := 0
  seq : Nat := 0
  len : Nat := 0
  flags : Nat := 0
  repl : Nat := 0
  block : Nat := 0
  addr : Nat := 0
  digest : BitVec 256 := 0
  at_ : Nat := 0
deriving DecidableEq, Repr

/-- What the device knows of a layer of a disc side. -/
structure LayerSt where
  slot : Nat
  side : Nat
  layer : Nat
  /-- Frame number of the write front. -/
  front : Nat := 196608
  /-- The front has been located since the disc was loaded (R186). -/
  found : Bool := false
  /-- Lowest frame that holds a relocated block. -/
  spareLow : Nat := 12035044
  /-- OPC has run since the disc was loaded; OPC has failed (R205, R206). -/
  opcDone : Bool := false
  unwritable : Bool := false
  /-- Power calibration turns used. -/
  pca : Nat := 0
  /-- Records pending for the next index frame, oldest first; checkpoints and frame positions used. -/
  pending : List IdxRec := []
  idxSeq : Nat := 0
  idxUsed : Nat := 0
  idxFull : Bool := false
  /-- Address of the last index frame written (PREV_IDX, R185). -/
  idxPrev : Option Nat := none
  /-- An index frame is due (R184). -/
  due : Bool := false
  /-- Header address of the last extent of the layer. -/
  prev : Option Nat := none
  /-- Committed extents of the layer (R171). -/
  exts : Nat := 0
  /-- Frame positions found not blank that no extent, record or relocated block is known to hold (R187). -/
  marked : List Nat := []
deriving DecidableEq, Repr

/-- A read that a peer has asked for and this device serves (READ_REQ). -/
structure PeerRead where
  src : Nat
  xid : Nat
  id : UnitId
  from_ : Nat
  len : Nat
deriving DecidableEq, Repr

/-- Squirrel beside its registers. -/
structure PlcSt where
  map : List MapEnt := []
  opens : List OpenVer := []
  units : List UnitSt := []
  layers : List LayerSt := []
  /-- Extent sequence number of each disc side: slot, side, last number. -/
  extSeq : List (Nat × Nat × Nat) := []
  peers : List PeerSt := []
  searches : List Search := []
  nextSearch : Nat := 1
  asks : List HintAsk := []
  /-- Bid requests answered for peers, awaiting an AWARD: source, XID, unit, length, flags, target. -/
  offers : List Incoming := []
  held : List Incoming := []
  sending : List Sending := []
  reads : List PeerRead := []
  /-- Replies of the last second: source, XID, the reply, TICK_COUNT (R319). -/
  answered : List (Nat × Nat × PeerMsg × Nat) := []
  tombs : List Tomb := []
  tombJobs : List TombJob := []
  /-- Copies queued for re-replication: the unit as it was placed, with its committed copies (R311). -/
  rerepl : List UnitSt := []
  /-- Migration: the source slot, and the units passed over (R333). -/
  mig : Option Nat := none
  migSkip : List UnitId := []
  /-- Failed rebuild attempts, by slot (R328). -/
  rebuildFails : List Nat := []
  /-- MAP_TAG of the applied map, and of the map last seen. -/
  seenTag : BitVec 64 := 0
  migStop : Bool := false
  /-- Exchange identifier of the next request. -/
  nextXid : Nat := 1
  nextUnit : Nat := 1
  /-- Peer messages sent, oldest first. -/
  out : List PeerMsg := []
deriving DecidableEq, Repr

/-! ### Read and write channel (04) -/

/-- A framing: offsets of both marks from their expected places and their scores, 0 for a mark placed from the other. -/
structure Framing where
  a : Int
  b : Int
  sa : Nat
  sb : Nat
deriving DecidableEq, Repr

/-- The frame a spot decodes (R190 to R197). -/
structure FrameSt where
  frame : Nat
  candA : List (Int × Nat) := []
  candB : List (Int × Nat) := []
  seed : Nat := 0
  /-- No seed pattern was recognised: seeds 0 to 3 are tried in turn (R191). -/
  trySeeds : Bool := false
  /-- Framings tried, the one under way first. -/
  tried : List Framing := []
  attempts : Nat := 1
  /-- Further framings tried, once a failure was framing-suspect (R196). -/
  extra : Nat := 0
  suspect : Bool := false
  /-- TICK_COUNT of the tick at which the attempt under way starts (R190). -/
  at_ : Nat := 0
  /-- An uncorrectable byte of the working memory was met in the attempt under way, which fails (R461). -/
  broken : Bool := false
deriving DecidableEq, Repr

/-- A block being read: its first frame, frames converged and frames failed of it, and its ladder rung (R198 to R216). -/
structure BlockSt where
  pu : Nat
  first : Nat
  ok : List Nat := []
  failed : List Nat := []
  /-- 0 while on the first pass. -/
  rung : Nat := 0
  /-- The payloads of the frames converged, by their place in the block. -/
  data : List (Nat × List Byte) := []
  /-- Revolutions read on this rung; rung 5 waits for the extent record of the station's other pickup (R213). -/
  revs : Nat := 0
  waits : Bool := false
deriving DecidableEq, Repr

/-- The extent a write channel writes (R203 to R210). -/
structure ExtSt where
  id : UnitId
  slot : Nat
  side : Nat
  layer : Nat
  hdr : Nat
  seq : Nat
  len : Nat
  flags : Nat
  repl : Nat
  /-- Frames still to pass verification; the logical frames rewritten so far, in order. -/
  left : Nat := 1154
  tail : List Nat := []
  /-- Copies of the commit or abort record written, judged and passed; an abort record is being written. -/
  copies : Nat := 0
  judged : Nat := 0
  passed : Nat := 0
  /-- The extent is given up at the next frame: an abort record closes it. -/
  doomed : Bool := false
  /-- Issuing device and its exchange; this device itself when none. -/
  peer : Option (Nat × Nat) := none
  /-- Frame positions of the run that have been judged. -/
  at_ : Nat := 0
  /-- The payloads of logical frames 2 to 1,153: the unit's ciphertext and its parity (R179, R181, R211); the digest of the
  ciphertext, and KEY_GEN of the key. -/
  cipher : List (List Byte) := []
  digest : BitVec 256 := 0
  keyGen : Nat := 0
deriving DecidableEq, Repr

/-- A block delivered by the channel: its unit, header address and extent sequence number, its number and the sixteen data
payloads (R198 to R200, R212). -/
structure Delivered where
  id : UnitId
  hdr : Nat
  seq : Nat
  block : Nat
  data : List (List Byte)
deriving DecidableEq, Repr

/-- A relocation queued: the block's side and layer, its extent header and block number (R216). -/
structure RelocSt where
  slot : Nat
  side : Nat
  layer : Nat
  hdr : Nat
  block : Nat
  id : UnitId
  /-- The eighteen payloads, unchanged. -/
  data : List (List Byte) := []
deriving DecidableEq, Repr

structure ChnSt where
  /-- The frame each LDPC engine decodes, engine e of spot k at 2k + e, and the frames that wait for one (R190). -/
  frames : Vector (Option FrameSt) 32 := Vector.replicate 32 none
  queued : Vector (List FrameSt) 16 := Vector.replicate 16 []
  /-- Channel bits between the last fields of each spot, newest first (R167). -/
  gaps : Vector (List Nat) 16 := Vector.replicate 16 []
  /-- TICK_COUNT since which each spot's read gate has been open (R188). -/
  gateAt : Vector (Option Nat) 16 := Vector.replicate 16 none
  /-- The last 16,384 samples of each spot, newest last (R189). -/
  samples : Vector (List (BitVec 8)) 16 := Vector.replicate 16 []
  /-- The previous-turn decisions of each pickup, while they are valid: turn, place in the turn, decided channel bits (R189). -/
  prev : Vector (List (Nat × Nat × BitVec 55616)) 4 := Vector.replicate 4 []
  /-- The blocks delivered of the units that jobs read. -/
  delivered : List Delivered := []
  blocks : List BlockSt := []
  ext : Vector (Option ExtSt) 4 := Vector.replicate 4 none
  /-- OPC runs on a write channel: its layer. -/
  opc : Vector (Option Nat) 4 := Vector.replicate 4 none
  reloc : List RelocSt := []
  /-- Units of which a block has been lost since their job took its station (R215). -/
  lost : List UnitId := []
  /-- Write channels that have failed (WRITE_CHAN_FAULT, R218). -/
  noWrite : Vector Bool 4 := Vector.replicate 4 false
  /-- Layers whose strategy has been calibrated for the loaded disc, by write channel (R220). -/
  wsValid : Vector (List Nat) 4 := Vector.replicate 4 []
deriving DecidableEq, Repr

/-! ### Media arbitration (10) -/

inductive JobKind where
  | tenant | peer | rebuild | selftest | reloc | rerepl | mig | maint | cal
deriving DecidableEq, Repr

/-- One unit of a job: the unit, the side and the zone of its frames. -/
structure JobUnit where
  id : UnitId
  side : Nat
  layer : Nat
  zone : Nat
  turn : Nat := 0
deriving DecidableEq, Repr

/-- A job (R431 to R433). -/
structure Job where
  id : Nat
  kind : JobKind
  tenant : Nat
  cls : Nat
  /-- The command it serves. -/
  cmd : Option Nat := none
  /-- Admission tick of its command: its age. -/
  at_ : Nat
  station : Nat
  /-- Disc slot it works on; none for a job on whatever is loaded. -/
  slot : Option Nat
  write : Bool
  units : List JobUnit := []
  /-- It stands in the queue; a later job of a command joins when the one before it ends. -/
  joined : Bool := true
  /-- HOLD of a RESERVE, in seconds. -/
  hold : Option Nat := none
deriving DecidableEq, Repr

/-- What the arbiter keeps of a station. -/
structure StnArb where
  /-- The job that holds the grant. -/
  job : Option Job := none
  /-- TICK_COUNT of the grant or the park. -/
  since : Nat := 0
  /-- Owner of a parked grant: the tenant, 0 for the house account; its HOLD in seconds (R443, R445). -/
  parked : Option Nat := none
  hold : Option Nat := none
  /-- The disc exchange of the holder has been asked for. -/
  asked : Bool := false
  /-- The spin order of the holder has been given. -/
  ordered : Bool := false
  /-- The unit for which the pickup of each side has been positioned. -/
  at0 : Option JobUnit := none
  at1 : Option JobUnit := none
  /-- Units of the holder written or read since the grant. -/
  done : List UnitId := []
deriving DecidableEq, Repr

structure ArbSt where
  jobs : List Job := []
  nextJob : Nat := 1
  stn : Vector StnArb 2 := Vector.replicate 2 {}
  /-- Ticks held by each tenant's jobs in this epoch (R396). -/
  used : List (Nat × Nat) := []
  /-- Deficits in µs (R396). -/
  deficit : List (Nat × Int) := []
  /-- TICK_COUNT of the picker grant. -/
  pkAt : Nat := 0
deriving DecidableEq, Repr
/-! ### Measurements, keys, quotes and updates (12, 15) -/

/-- A quote (R588 to R592). -/
structure Quote where
  path : Path
  nonce : BitVec 256
  /-- 0 waiting, 1 being signed, 2 READY, 3 CONSUMED. -/
  state : Nat := 0
  reqAt : Nat
  /-- Bytes 0x000 to 0x8BF, captured when signing starts, and the signature. -/
  body : List Byte := []
  sig : List Byte := []
  /-- The next piece over the service port. -/
  piece : Nat := 0
  /-- The result is to be discarded: a REQUEST of the path arrived while this quote was being signed (R591). -/
  dropped : Bool := false
deriving DecidableEq, Repr

/-- What the header of a component says: TYPE, version word, minimum interface levels, CAL_FORMAT. -/
structure CompInfo where
  type : Nat
  ver : BitVec 64
  mins : List (BitVec 16) := []
  calFormat : BitVec 16 := 0
deriving DecidableEq, Repr

/-- A component of a bundle: its header, offset and length in the bundle. -/
structure BundleComp where
  info : CompInfo
  off : Nat
  len : Nat
deriving DecidableEq, Repr

/-- A bundle that has verified. -/
structure Bundle where
  token : Bool
  svn : Nat
  advance : Bool
  comps : List BundleComp := []
  op : Nat := 0
  arg : Nat := 0
  challenge : BitVec 256 := 0
deriving DecidableEq, Repr

/-- A tenant key held (R596). -/
structure TenantKey where
  tenant : Nat
  gen : Nat
  key : BitVec 256
deriving DecidableEq, Repr

structure SecSt where
  /-- The key store (R596). -/
  keys : List TenantKey := []
  /-- The domain key. -/
  domain : Option (BitVec 256) := none
  /-- MSR_0 to MSR_7 (R500). -/
  msr : Vector (BitVec 512) 8 := Vector.replicate 8 0
  /-- The ephemeral key pair, by the number it was drawn with (R593). -/
  ek : Option Nat := none
  quotes : List Quote := []
  /-- The identity fuses, as ISSUE has drawn them; those of a part that the factory issued are not held here (R586). -/
  ident : List Word := []
  /-- The challenge, while it is valid (R581). -/
  challenge : Option (BitVec 256) := none
  /-- What an update has written into each boot twin; none where the factory release stands. -/
  jack : Vector (Option CompInfo) 2 := Vector.replicate 2 none
  /-- The components written by updates; of every other type the factory release stands. -/
  comps : List CompInfo := []
  /-- Chunks held of the staged bundle: index and bytes (R598). -/
  chunks : List (Nat × List Byte) := []
  bundle : Option Bundle := none
  /-- Components still to be overwritten (R606). -/
  writing : List BundleComp := []
  /-- TICK_COUNT of the activation instant's drain. -/
  actAt : Option Nat := none
deriving DecidableEq, Repr

/-! ### Network (08) -/

/-- What the device sends on a host port, beside the data and completion entries of the transport. -/
inductive NetOut where
  /-- A transit frame: length, CE set on the way, ended with the complement of its FCS, and the correction added to its
  correctionField where it is a PTP event message. -/
  | fwd (len : Nat) (ce stomped : Bool) (corr : Option Int)
  /-- An unsolicited or solicited Neighbour Advertisement of an IPv6 address; an ARP frame of the IPv4 address. -/
  | advert (addr : BitVec 128) (solicited : Bool)
  | arp (addr : BitVec 32) (reply : Bool)
  /-- A question for the MAC address of an IP address: Neighbour Solicitation, or ARP for a mapped IPv4 address (R344). -/
  | solicit (addr : BitVec 128)
  /-- Retransmission, NAK and CNP of a session; access false: invalid request. -/
  | retransmit (sid : BitVec 14)
  | nak (sid : BitVec 14) (access : Bool)
  | cnp (sid : BitVec 14)
  /-- A PFC frame for PRIO: hold, or release. -/
  | pfc (hold : Bool)
  /-- Connection management: REP with session ID and depth, REJ with its reason, DREQ, DREP. -/
  | rep (sid : BitVec 14) (depth : Nat)
  | rej (reason : Nat)
  | dreq (sid : BitVec 14)
  | drep (sid : BitVec 14)
  /-- A Delay_Req of the time client. -/
  | delayReq
deriving DecidableEq, Repr

/-- A frame that waits to leave or has left: the port, its priority when tagged, what it is, whether it is a transit PTP event message, and the DSCP and ECT(0) mark of a frame of the device's own
(Table: Traffic classes). -/
structure Sent where
  port : Nat
  prio : Option Nat := none
  what : NetOut
  event : Bool := false
  dscp : Nat := 0
  ect : Bool := false
deriving DecidableEq, Repr

/-- A master heard on a port: the data set of its last Announce message (R360). -/
structure Master where
  port : Nat
  prio1 : Nat
  cls : Nat
  acc : Nat
  var : Nat
  prio2 : Nat
  id : BitVec 64
  steps : Nat
deriving DecidableEq, Repr

/-- A REQ that was answered with REP and waits for its RTU, or an open session's transport (R365, R370, R373). -/
structure Conn where
  sid : BitVec 14
  mgmt : Bool
  tenant : Nat
  depth : Nat
  cqEntries : Nat
  cqAddr : BitVec 64
  mac : BitVec 48
  /-- The host's IP address (an IPv4 address in its IPv6-mapped form). -/
  ip : BitVec 128 := 0
  mtu : Nat
  /-- Retry counts of the REQ, and retries used since the last ACK. -/
  retry : Nat
  rnr : Nat
  used : Nat := 0
  rnrUsed : Nat := 0
  opened : Bool := false
  /-- Sending rate and target in Mb/s, α, stages of the timer and of the byte counter, TICK_COUNT of the last CNP sent. -/
  rate : Rat := 100000
  target : Rat := 100000
  alpha : Rat := 1
  tStage : Nat := 0
  bStage : Nat := 0
  cnpAt : Option Nat := none
  /-- TICK_COUNT from which ALPHA_T runs, the last CNP received or the last step of α, and from which RATE_T runs. -/
  alphaAt : Nat := 0
  rateAt : Nat := 0
deriving DecidableEq, Repr

structure NetSt where
  /-- The learning table: address, port, TICK_COUNT of the last use (R353). -/
  learn : List (BitVec 48 × Nat × Nat) := []
  /-- The neighbour cache: IP address (an IPv4 address in its IPv6-mapped form), MAC address, TICK_COUNT of the last use. -/
  neigh : List (BitVec 128 × BitVec 48 × Nat) := []
  /-- Frames that wait to leave, oldest first; the frames that have left; and whether the last frame that a port sent of those that
  alternate was a transit frame (R349, R350). -/
  out : List Sent := []
  sent : List Sent := []
  lastTransit : Vector Bool 2 := Vector.replicate 2 false
  /-- Frames that wait for the MAC address of a neighbour: its IP address, the priority, the frame (R344). -/
  wait : List (BitVec 128 × Option Nat × NetOut) := []
  /-- TICK_COUNT of the last FWD_LOOP, by port (R352). -/
  loopAt : Option Nat := none
  /-- TICK_COUNT of the last port change, and announcements sent since (R354). -/
  annAt : Nat := 0
  annDone : Nat := 4
  /-- Ticks in a row for which each port has shown a high symbol-error ratio (R339). -/
  serRun : Vector Nat 2 := Vector.replicate 2 0
  /-- An uncorrectable byte of the frame buffer was met in the frame that leaves by each port (R461). -/
  ramBad : Vector Bool 2 := Vector.replicate 2 false
  /-- Learning entries of a port are flushed at the next tick boundary. -/
  flush : Vector Bool 2 := Vector.replicate 2 false
  /-- TICK_COUNT until which a received PFC holds the port, and a PFC hold that the device has sent (R374). -/
  pfcUntil : Vector Nat 2 := Vector.replicate 2 0
  pfcSent : Vector Bool 2 := Vector.replicate 2 false
  /-- The time client: the masters heard, the one chosen, Delay_Req exchanges still to be made, Sync offsets in a row within
  VALID_THR (R360, R361). -/
  masters : List Master := []
  master : Option Master := none
  delays : Nat := 0
  good : Nat := 0
  conns : List Conn := []
  /-- Session IDs freed, with TICK_COUNT; IDs whose DREQ has no DREP yet. -/
  freed : List (BitVec 14 × Nat) := []
  closing : List (BitVec 14) := []
  /-- TICK_COUNT of the network commit whose disconnection falls due at the next tick boundary (R346). -/
  closeDue : Option Nat := none
deriving DecidableEq, Repr


/-! ### Commands, queues, admission and metering (09) -/

/-- A session (R365, R381 to R385, R410). -/
structure Session where
  id : BitVec 14
  mgmt : Bool
  tenant : Nat
  depth : Nat
  cqEntries : Nat := 1
  cqAddr : BitVec 64 := 0
  /-- Index of the next completion entry and the pass's PHASE (R384). -/
  cqIdx : Nat := 0
  phase : Bool := true
  /-- The host's consumer index, as last reported (R385). -/
  cqHead : Nat := 0
  hintDrop : Nat := 0
  frozen : Bool := false
  frozenCid : Nat := 0
  frozenLog : Nat := 0
  /-- Entries that have arrived and have no admission outcome, oldest first: opcode and entry (R389). -/
  arrivals : List (Nat × Entry) := []
deriving DecidableEq, Repr

/-- A completion entry written by the device (Table: Completion entry), with the path it went to and the bytes
delivered to the host buffer or in the reply payload. -/
structure Completion where
  path : Path
  cid : BitVec 16
  status : Nat
  phase : Bool := false
  interim : Bool := false
  logged : Bool := false
  rstate : Nat := 0
  prio : Nat := 0
  sqFree : Nat := 0
  res0 : Nat := 0
  res1 : Nat := 0
  time : Nat := 0
  aux : Nat := 0
  data : List Byte := []
deriving DecidableEq, Repr

/-- A unit a GET reads (R404, R321 to R323). -/
structure RdUnit where
  unit : Nat
  /-- Bytes of the unit before the range, and of the range in it. -/
  before : Nat
  len : Nat
  /-- Holders still to be tried, best first; the one that serves it; its exchange when that is a peer. -/
  holders : List Nat := []
  now : Option Nat := none
  xid : Nat := 0
  sentAt : Nat := 0
  /-- Segments of a peer's reply received, and their bytes. -/
  segs : List Nat := []
  got : Nat := 0
  /-- Holders that have failed it; TICK_COUNT of the hints in use (R323). -/
  tried : List Nat := []
  hintAt : Nat := 0
  /-- Its header carries FLAGS bit 0: the object ends with it. -/
  isLast : Bool := false
  done : Bool := false
  failed : Bool := false
deriving DecidableEq, Repr

/-- A command with an admission outcome that has not ended. -/
structure Cmd where
  id : Nat
  path : Path
  op : Nat
  e : Entry
  tenant : Nat
  prio : Nat
  at_ : Nat
  started : Bool := false
  /-- Accepted-deferred and not started; deferred behind the rebuild. -/
  deferred : Bool := false
  recov : Bool := false
  est : Nat := 0
  pos : Nat := 0
  /-- TICK_EPOCH of the last REHINT (R399). -/
  hinted : Option Nat := none
  ver : Nat := 0
  /-- First unit and number of units of a PUT. -/
  first : Nat := 0
  units : Nat := 0
  /-- The class 0x4 code of the unit that failed first. -/
  cause : Nat := 0
  /-- Ended by a reaction: with nothing done it completes with INTERNAL (R447, R559). -/
  killed : Bool := false
  reads : List RdUnit := []
  /-- FLUSH: earlier commands waited for. -/
  waited : Nat := 0
  /-- DELETE: own tombstone frames to be verified; holders asked and their exchanges; acknowledgements; holders not reached. -/
  tombLeft : Nat := 0
  /-- Its own tombstone has been ordered. -/
  tombed : Bool := false
  asked : List (Nat × Nat) := []
  acks : Nat := 0
  missed : Nat := 0
  /-- RESERVE: TICK_COUNT at which staging began; the station staged. -/
  stageAt : Nat := 0
  staged : Option Nat := none
deriving DecidableEq, Repr

/-- A record of the error log (Table: Error log record). -/
structure LogRec where
  seq : Nat
  type : Nat
  status : Nat := 0
  session : Nat := 0
  tenant : Nat := 0
  cid : Nat := 0
  opcode : Nat := 0
  copies : Nat := 0
  tick : Nat := 0
  key : Nat := 0
  ver : Nat := 0
  unit : Nat := 0
  offset : Nat := 0
  hdr : Nat := 0
  device : Nat := 0
  arg : Nat := 0
deriving DecidableEq, Repr

/-- A part of a self-test (Table: Self-test content). -/
inductive TestPart where
  /-- One full Hedgehog cycle. -/
  | cycle
  /-- The index and control areas of a layer: of the disc loaded in a station, or of the disc of a magazine slot. -/
  | read (st : Nat) (slot : Option Nat) (side layer : Nat)
  /-- An axis: to its upper limit, to its lower limit, home. -/
  | axis (a step : Nat)
  /-- A station at SPD_MAX. -/
  | spin (st : Nat)
deriving DecidableEq, Repr

/-- A self-test (R418): its kind, the parts left of it, the first of them under way, and the source of its first failure. -/
structure SelfTest where
  kind : Nat
  left : List TestPart := []
  fail : Option Nat := none
deriving DecidableEq, Repr

structure CmdSt where
  sessions : List Session := []
  cmds : List Cmd := []
  nextId : Nat := 1
  /-- Completion entries written, oldest first. -/
  done : List Completion := []
  log : List LogRec := []
  /-- Deferred errors pending by tenant: number, and LOG_SEQ of the first (R414). -/
  deferredErr : List (Nat × Nat × Nat) := []
  test : Option SelfTest := none
  /-- The self-test result, as CMD_ST_STAT shows it once READY. -/
  testWord : Nat := 0
  /-- TICK_COUNT of the last ADM_FULL fault (R429). -/
  fullAt : Option Nat := none
deriving DecidableEq, Repr

/-- Counters of an account in a metering minute (Table: Meter record); energy in µJ, exact. -/
structure MeterAcc where
  tenant : Nat
  bytesIn : Nat := 0
  bytesOut : Nat := 0
  /-- Ticks held on each station. -/
  held0 : Nat := 0
  held1 : Nat := 0
  energy : Rat := 0
  commands : Nat := 0
  deferrals : Nat := 0
  refusals : Nat := 0
deriving DecidableEq, Repr

/-- A closed record: minute, PTP flag, epochs, counters, energy in whole mJ, result state (1 READY, 2 CONSUMED). -/
structure MeterRec where
  minute : Nat
  ptp : Bool
  epochs : Nat
  acc : MeterAcc
  mj : Nat
  res : Nat := 1
deriving DecidableEq, Repr

structure MtrSt where
  cur : List MeterAcc := []
  recs : List MeterRec := []
  /-- Metering has started (R45). -/
  on : Bool := false
  /-- Bus energy of the minute in µJ, and the remainder carried of each account. -/
  bus : Rat := 0
  carry : List (Nat × Rat) := []
deriving DecidableEq, Repr

/-- The state of the block. -/
structure State where
  /-- The register store: every entry an address and a word that is not the register's reset word. -/
  regs : List (Nat × Word) := []
  /-- TICK_COUNT (R58). -/
  tick : Nat := 0
  /-- The commands waiting, first in, first out: the model's own, DESIGN CHOICE (notes/assumptions/7.md, unsafe). -/
  pending : List Instr := []
  /-- The model's own: how many free values have been drawn.
DESIGN CHOICE (notes/assumptions/7.md, unsafe). -/
  free : Nat := 0
  /-- The model's own: status code of the last register access and the words the last register read delivered.
DESIGN CHOICE (notes/assumptions/7.md, unsafe). -/
  wstat : Nat := 0
  rdata : List Word := []
  /-- The HI words latched by reads of LO registers, by the address of the HI register (R59). -/
  latch : List (Nat × Word) := []
  sys : SysSt := {}
  ce : CeSt := {}
  pu : Vector PuSt 4 := Vector.replicate 4 {}
  flt : FltSt := {}
  bist : BistSt := {}
  owl : OwlSt := {}
  txn : Vector TxnSt 4 := Vector.replicate 4 {}
  cal : CalSt := {}
  ax : Vector AxSt 7 := Vector.replicate 7 {}
  mag : MagSt := {}
  stn : Vector StnSt 2 := Vector.replicate 2 {}
  pwr : PwrSt := {}
  net : NetSt := {}
  cmd : CmdSt := {}
  mem : MemSt := {}
  cch : CchSt := {}
  flash : FlashSt := {}
  plc : PlcSt := {}
  chn : ChnSt := {}
  arb : ArbSt := {}
  mtr : MtrSt := {}
  sec : SecSt := {}
deriving DecidableEq, Repr

/-- The image state record that the factory wrote (R487, R640): twin A active, every component complete.
DESIGN CHOICE (notes/assumptions/6.md, unsafe). -/
def factoryImages : ImgRec :=
  { seq := 1, twinB := false, comps := [(10, 48, true), (72, 2, true), (76, 12, true), (100, 4, true)] }

/-- The machine right after power-on reset: reset is held until power-good, SYS_RST_CAUSE shows POR, every other register
reads its reset word, the flash holds what the factory wrote.
DESIGN CHOICE (notes/assumptions/5.md, unsafe). -/
def State.reset : State :=
  { regs := [(0x18, 0x1)], flash := { imgs := Vector.ofFn fun i : Fin 2 => if i.val = 0 then [factoryImages] else [] } }

end Sys2Proof.Machine
end

