-- ==== Sys2Proof/Machine/Ops.lean ====
section
/-!
DEFINITION. The named operations over registers, over the Owl ring and over fault messages, and the gate that every
register write passes.
-/

namespace Sys2Proof.Machine

open Sys2Proof

/-! ### Registers -/

/-- Key of word `w` of domain map entry `d` (Table: Domain map entry). -/
abbrev keyDm (d w : Nat) : Nat := 0x1000000 + 0x20 * d + 4 * w
/-- Key of the placement policy of tenant `t` (PLC_POL_DATA). -/
abbrev keyPol (t : Nat) : Nat := 0x1100000 + 4 * t
/-- Key of word `w` of the contract of tenant `t` (Table: Tenant contract). -/
abbrev keyTc (t w : Nat) : Nat := 0x1200000 + 0x10 * t + 4 * w
/-- Key of the BIST_UNIT_DATA word of Hedgehog unit `u`. -/
abbrev keyBist (u : Nat) : Nat := 0x1300000 + 4 * u
/-- Key of word `w` of the FLT_SRC_DATA words of source `src`: 0 COUNT, 1 LAST, 2 TICK. -/
abbrev keySrc (src w : Nat) : Nat := 0x1400000 + 0x10 * src + 4 * w

/-- The words of CCH_REGION_r: base and size of each cacheable region, as Table: Cacheable regions gives them. -/
def cchRegionWords : List Word :=
  [0x40, 0x40, 0x4000, 0x2000, 0x6000, 0x800, 0x6800, 0x800, 0x7000, 0x80, 0x7080, 0x80]

/-- The factory address plus one, which is the address of the service port. -/
def serviceMac : BitVec 48 := Config.fuseMac + 1

/-- Reset words that no column gives as a number: the fuses, the factory address and the cacheable regions. -/
def fusedWord (a : Nat) : Option Word :=
  if a = NET_MAC_LO then some (Config.fuseMac.setWidth 32)
  else if a = NET_MAC_HI then some ((Config.fuseMac >>> 32).setWidth 32)
  else if a = NET_SVC_MAC_LO then some (serviceMac.setWidth 32)
  else if a = NET_SVC_MAC_HI then some ((serviceMac >>> 32).setWidth 32)
  else if 0xC0040 ≤ a ∧ a < 0xC0070 ∧ a % 4 = 0 then cchRegionWords[(a - 0xC0040) / 4]?
  else if 0x120040 ≤ a ∧ a < 0x120050 ∧ a % 4 = 0 then some (Config.fuseSerial ((a - 0x120040) / 4))
  else none

/-- The reset word at a key: that of the register map, the reset policy of a tenant (17_register_index.md), and 0 for
every other table word. -/
def resetWord (a : Nat) : Word :=
  if a < 0x180000 then
    match fusedWord a with
    | some w => w
    | none =>
      match findRow a with
      | some r => BitVec.ofNat 32 r.reset
      | none => 0
  else if 0x1100000 ≤ a ∧ a < 0x1104000 then 0x05108011
  else 0

/-- The word held at a key of the register store. -/
def State.reg (s : State) (a : Nat) : Word := sget resetWord s.regs a

/-- The state with a word written at a key of the register store. -/
def State.setReg (s : State) (a : Nat) (v : Word) : State := { s with regs := sput resetWord s.regs a v }

/-- Bits `hi` down to `lo` of a number. -/
def bitsOf (n hi lo : Nat) : Nat := n / 2 ^ lo % 2 ^ (hi + 1 - lo)

/-- A number with bits `hi` down to `lo` replaced. -/
def putBits (n hi lo v : Nat) : Nat :=
  n / 2 ^ (hi + 1) * 2 ^ (hi + 1) + v % 2 ^ (hi + 1 - lo) * 2 ^ lo + n % 2 ^ lo

/-- The two's complement reading of an `n`-bit number. -/
def signedOf (n v : Nat) : Int := if v < 2 ^ (n - 1) then v else (v : Int) - 2 ^ n

/-- The `n`-bit two's complement of an integer, as a number. -/
def unsignedOf (n : Nat) (i : Int) : Nat := (i % 2 ^ n).toNat

/-- The content of a field. -/
def State.get (s : State) (f : Fld) : Nat := bitsOf (s.reg f.addr).toNat f.hi f.lo

/-- The state with a field's content replaced; the register's other bits stay. -/
def State.set (s : State) (f : Fld) (v : Nat) : State :=
  s.setReg f.addr (BitVec.ofNat 32 (putBits (s.reg f.addr).toNat f.hi f.lo v))

/-- Whether a one-bit field is 1. -/
def State.flag (s : State) (f : Fld) : Bool := s.get f == 1

/-- The signed content of a field. -/
def State.getInt (s : State) (f : Fld) : Int := signedOf (f.hi + 1 - f.lo) (s.get f)

/-- The state with a signed field's content replaced. -/
def State.setInt (s : State) (f : Fld) (i : Int) : State := s.set f (unsignedOf (f.hi + 1 - f.lo) i)

/-- The state with a one-bit field set from a Bool. -/
def State.setFlag (s : State) (f : Fld) (b : Bool) : State := s.set f (if b then 1 else 0)

/-- The greatest content of a field. -/
def Fld.top (f : Fld) : Nat := 2 ^ (f.hi + 1 - f.lo) - 1

/-- A counter field that saturates, raised by `n`. -/
def State.addSat (s : State) (f : Fld) (n : Nat) : State := s.set f (min f.top (s.get f + n))

/-- A counter field that wraps, raised by one. -/
def State.incWrap (s : State) (f : Fld) : State := s.set f ((s.get f + 1) % (f.top + 1))

/-- A field that keeps the greatest content it has held. -/
def State.maxIn (s : State) (f : Fld) (v : Nat) : State := s.set f (max (s.get f) (min f.top v))

/-- The next free value of the run, and the state that has drawn it.
DESIGN CHOICE (notes/assumptions/8.md, safe). -/
def State.draw (s : State) : Word × State := (Config.freeWord s.free, { s with free := s.free + 1 })

/-! ### Modes -/

abbrev modeBoot : Nat := 1
abbrev modeProvision : Nat := 2
abbrev modeServe : Nat := 3
abbrev modeDrain : Nat := 4
abbrev modeMaintain : Nat := 5
abbrev modeSafeStop : Nat := 6

/-- The current mode (R8). -/
def State.mode (s : State) : Nat := s.get SYS_MODE_MODE

/-! ### The Owl ring (R573, R574) -/

/-- The ring with one event more; the 4,096 newest are kept. -/
def owlPush (ring : List OwlEvent) (e : OwlEvent) : List OwlEvent :=
  if ring.length < 4096 then ring ++ [e] else ring.drop (ring.length + 1 - 4096) ++ [e]

/-- An event is captured, or counted in MISSED while the ring is frozen. During a count started by a DEVICE reaction it
is one of the counted events, and the last of them freezes the ring. -/
def State.capture (s : State) (kind : Nat) (flags : Nat) (data : Word) : State :=
  if s.flag OWL_STAT_FROZEN then s.addSat OWL_STAT_MISSED 1
  else
    let e : OwlEvent :=
      { tick := s.tick, kind := BitVec.ofNat 8 kind, flags := BitVec.ofNat 8 flags,
        seq := BitVec.ofNat 16 (s.get OWL_STAT_SEQ), data := data }
    let s1 := { s with owl := { s.owl with ring := owlPush s.owl.ring e } }.incWrap OWL_STAT_SEQ
    match s.owl.post with
    | none => s1
    | some n =>
      if n ≤ 1 then { s1 with owl := { s1.owl with post := none } }.set OWL_STAT_FROZEN 1
      else { s1 with owl := { s1.owl with post := some (n - 1) } }

/-- The Owl event types (Table: Owl event types). -/
abbrev evFault : Nat := 1
abbrev evMode : Nat := 2
abbrev evLink : Nat := 3
abbrev evBrake : Nat := 4
abbrev evWriteDrop : Nat := 5
abbrev evVbus : Nat := 6
abbrev evReset : Nat := 7
abbrev evMarker : Nat := 8
abbrev evTxn : Nat := 9
abbrev evHedgehog : Nat := 10

/-! ### Fault messages (R551 to R556) -/

/-- The severities of R554. -/
abbrev sevLog : Nat := 0
abbrev sevDegrade : Nat := 1
abbrev sevSession : Nat := 2
abbrev sevStation : Nat := 3
abbrev sevDevice : Nat := 4

/-- Default severity of a pair of source and kind, and whether it is fixed; none for a pair that Table: Fault sources
and the fault tables of the chapters (R105, R259, R459, R492, R550, R636) do not list. -/
def pairDefault (src kind : Nat) : Option (Nat × Bool) :=
  let pick (l : List Nat) : Option (Nat × Bool) := if kind = 0 then none else (l[kind - 1]?).map fun v => (v, false)
  if src = 0x001 then pick [0]
  else if src = 0x002 then pick [4, 3, 0, 1]
  else if 0x010 ≤ src ∧ src ≤ 0x013 then pick [1, 1, 0, 0, 0, 0, 0, 0, 1, 0, 3, 1, 3]
  else if 0x020 ≤ src ∧ src ≤ 0x02F then pick [0, 1]
  else if 0x030 ≤ src ∧ src ≤ 0x033 then pick [0, 1]
  else if 0x034 ≤ src ∧ src ≤ 0x035 then pick [0, 0, 0, 0, 0, 0]
  else if 0x040 ≤ src ∧ src ≤ 0x041 then pick [1, 1, 1, 0, 3, 3, 0, 3, 3, 3, 0]
  else if 0x050 ≤ src ∧ src ≤ 0x053 then pick [3, 3, 3, 3]
  else if 0x054 ≤ src ∧ src ≤ 0x056 then pick [1, 1, 1, 1]
  else if src = 0x057 then pick [0, 0, 1]
  else if src = 0x060 then pick [0, 0, 0, 0, 0, 0]
  else if src = 0x070 then pick [0, 0, 0, 0, 0]
  else if src = 0x080 then pick [2, 0, 0]
  else if src = 0x081 then pick [0]
  else if src = 0x090 then pick [3]
  else if src = 0x091 then pick [0]
  else if 0x0A1 ≤ src ∧ src ≤ 0x0A8 then
    if kind = 1 then (sramSeverity (src - 0x0A0)).map fun v => (v, false) else none
  else if src = 0x0A9 then pick [4]
  else if src = 0x0AA then pick [4, 0, 0]
  else if src = 0x0B0 then pick [0]
  else if src = 0x0B1 then pick [0]
  else if src = 0x0C0 then
    if kind = 4 ∨ kind = 5 then some (0, true) else pick [1, 4, 0, 0, 0, 0, 0, 0, 0, 4, 4]
  else if src = 0x0D0 then if kind = 1 then some (0, true) else none
  else if src = 0x0D1 then pick [1, 4, 0]
  else if src = 0x0D2 then pick [0]
  else if src = 0x0E0 then pick [0, 0, 4]
  else if src = 0x0E1 then pick [0, 0, 0]
  else if src = 0x0F0 then if kind = 1 then some (4, true) else none
  else none
where
  /-- Severity of SRAM_UNCORR by SRAM ID (Table: On-chip SRAMs). -/
  sramSeverity (i : Nat) : Option Nat := if 1 ≤ i ∧ i ≤ 4 then some 4 else if 5 ≤ i ∧ i ≤ 8 then some 0 else none

/-- The default severity as a number; an unlisted pair counts as LOG. -/
def defaultSev (key : Nat) : Nat := ((pairDefault (key / 64) (key % 64)).map (·.1)).getD sevLog

/-- FLT_SEV_DATA.SEV of a pair. -/
def State.sevOf (s : State) (src kind : Nat) : Nat := sget defaultSev s.flt.sev (64 * src + kind)

/-- The severity that acts on a message of this tick: the programmed one, or the default one in fall-back (R564). A
message raised by a unit's source during its Hedgehog slice is collected at LOG (R569). -/
def State.sevInForce (s : State) (m : Msg) : Nat :=
  if m.test then sevLog
  else if s.flag FLT_STAT_FALLBACK then defaultSev (64 * m.src + m.kind)
  else sget defaultSev s.flt.sevNow (64 * m.src + m.kind)

/-- The 32 bits of a message (R551). -/
def Msg.word (m : Msg) : Word := BitVec.ofNat 32 (m.src % 1024 * 0x400000 + m.kind % 64 * 0x10000 + m.arg % 0x10000)

/-- A message takes its source's slot: an empty slot is filled, a filled one only by a higher severity (R552). -/
def State.fillSlot (s : State) (m : Msg) : List Msg :=
  match s.flt.slots.find? fun o => o.src == m.src with
  | none => s.flt.slots ++ [m]
  | some o =>
    if s.sevInForce o < s.sevInForce m then s.flt.slots.map fun x => if x.src = m.src then m else x
    else s.flt.slots

/-- A source sends a fault message. Its COUNT rises, its slot of this tick takes the message under R552, and in
fall-back the source latches it in FLT_FB (R564). Kind 0x3F causes no count (R551). The slot's reaction is taken at the
boundary that ends the tick (R32, R557).
DEDUCED (notes/assumptions/19.md, unsafe). -/
def State.send (s : State) (m : Msg) : State :=
  if m.kind = 0x3F then s
  else
    let s1 := s.setReg (keySrc m.src 0) (BitVec.ofNat 32 (min 0xFFFFFFFF ((s.reg (keySrc m.src 0)).toNat + 1)))
    let s2 := { s1 with flt := { s1.flt with slots := s.fillSlot m } }
    if s.flag FLT_STAT_FALLBACK then
      ((s2.set (FLT_FB_PEND m.src) 1).set (FLT_FB_KIND m.src) m.kind).set (FLT_FB_ARG m.src) m.arg
    else s2

/-- A source raises a fault. -/
def State.raise (s : State) (src kind arg : Nat) : State := s.send { src := src, kind := kind, arg := arg % 0x10000 }

/-! ### The gate of a register write (R41, R377, R378, R518) -/

abbrev stOk : Nat := 0x0000
abbrev stMode : Nat := 0x4001
abbrev stBadOpcode : Nat := 0x8001
abbrev stBadField : Nat := 0x8002
abbrev stNotPermitted : Nat := 0x8003
abbrev stBadAddress : Nat := 0x8006
abbrev stRegRefused : Nat := 0x8007

/-- The open session of an ID. -/
def State.session? (s : State) (id : BitVec 14) : Option Session := s.cmd.sessions.find? fun x => x.id == id

/-- A management session is open. -/
def State.mgmtOpen (s : State) : Bool := s.cmd.sessions.any fun x => x.mgmt

/-- A host port is UP. -/
def State.portUp (s : State) : Bool := s.flag SYS_STAT_LINK_A || s.flag SYS_STAT_LINK_B

/-- Only Jack answers the service port: in BOOT, and while the Jack overwrite writes (R378, R605). -/
def State.jackOnly (s : State) : Bool := s.mode == modeBoot || s.get UPD_STAT_STATE == 5

/-- The service port stays silent: reset is held, or the boot ROM has stopped (R498). -/
def State.silent (s : State) (p : Path) : Bool := match p with
  | .service => s.sys.boot == .held || s.sys.boot == .stopped
  | .session _ => false

/-- The status that refuses a register write by its path and the mode, if any does. -/
def State.writeRefusal (s : State) (p : Path) : Option Nat :=
  match p with
  | .session id =>
    match s.session? id with
    | some x =>
      if !x.mgmt then some stNotPermitted
      else if s.mode = modeBoot then some stMode
      else if s.mode = modeSafeStop then some stRegRefused
      else none
    | none => some stNotPermitted
  | .service =>
    if s.jackOnly then some stMode
    else if s.mode = modeSafeStop then some stRegRefused
    else if s.mgmtOpen && s.portUp then some stRegRefused
    else none

/-- The state with the status of the register access recorded. -/
def State.status (s : State) (code : Nat) : State := { s with wstat := code }

/-- A message over the service port is counted when it is accepted; in BOOT, Jack answers only some (R377, R378). -/
def State.rxMessage (s : State) (p : Path) (inBoot : Bool) : State := match p with
  | .service => if s.jackOnly = true ∧ inBoot = false then s else s.incWrap NET_SVC_STAT_RX_MSG
  | .session _ => s

/-- A register write by a path: refused by the gate, or refused with class 0x8 unless `ok`, or made.
DESIGN CHOICE (notes/assumptions/12.md, safe). -/
def State.writeBy (s : State) (p : Path) (ok : Bool) (f : State → State) : State :=
  if s.silent p then s else
  match s.writeRefusal p with
  | some code => (s.rxMessage p false).status code
  | none => if ok then (f (s.rxMessage p false)).status stOk else (s.rxMessage p false).status stRegRefused

end Sys2Proof.Machine
end

