-- ==== Sys2Proof/Machine/Geometry.lean ====
section
/-!
DEFINITION. The geometry of a Sprinsel layer: zones, turns, frames and areas, and where the bits of a turn's data stream lie
(04_channel_and_media.md: R163 to R171).
-/

namespace Sys2Proof.Machine

open Sys2Proof

/-- F_z and the first frame of each zone (Table: Sprinsel zones). -/
def zoneTable : List (Nat × Nat) :=
  [(48, 0), (53, 424992), (58, 894254), (63, 1407786), (68, 1965588), (73, 2567660), (78, 3214002), (83, 3904614),
   (88, 4639496), (92, 5418648), (97, 6233216), (102, 7092054), (107, 7995162), (112, 8942540), (117, 9934188),
   (122, 10970106)]

/-- N_z, the channel bits of a field interval in each zone (Table: Sprinsel zones). -/
def intervalBits : List Nat :=
  [1099, 1197, 1294, 1392, 1489, 1586, 1684, 1781, 1879, 1976, 2073, 2171, 2268, 2366, 2463, 2560]

def intervalOf (z : Nat) : Nat := (intervalBits[z]?).getD 0

def framesPerTurn (z : Nat) : Nat := ((zoneTable[z]?).getD (48, 0)).1

/-- The first frame FF_z of a zone. -/
def zoneFirst (z : Nat) : Nat := ((zoneTable[z]?).getD (48, 0)).2

/-- The last turn of the recording band (R163). -/
abbrev lastTurn : Nat := 141666

/-- The zone of a turn: 8,854 turns each, three more in zone 15 (R166). -/
def zoneOfTurn (t : Nat) : Nat := min 15 (t / 8854)

/-- The zone of a frame number. -/
def zoneOf (frame : Nat) : Nat := (zoneTable.filter fun e => decide (e.2 ≤ frame)).length - 1

/-- The turn of a frame number (R169). -/
def turnOf (frame : Nat) : Nat :=
  let z := zoneOf frame
  8854 * z + (frame - zoneFirst z) / framesPerTurn z

/-- The number of frame `j` of turn `t` (R169). -/
def frameNumber (t j : Nat) : Nat := zoneFirst (zoneOfTurn t) + (t - 8854 * zoneOfTurn t) * framesPerTurn (zoneOfTurn t) + j

/-- The place of a frame in its turn (R169). -/
def frameInTurn (f : Nat) : Nat := (f - zoneFirst (zoneOf f)) % framesPerTurn (zoneOf f)

/-- The radius of a turn's start in 10 nm, where the turn lies in the band (R163). -/
def radiusOf (t : Nat) : Option Nat := if t ≤ lastTurn then some (2400000 + 24 * t) else none

/-- The channel clock of a zone in Hz at a speed in rpm (R166): 2,880 intervals of N_z bits a revolution. -/
def channelClock (z rpm : Nat) : Nat := 48 * rpm * intervalOf z

/-- Data channel bits of a turn of zone `z`: intervals 4 to 2,851, without the 160 bits of each field (R164, R167). -/
def streamBits (z : Nat) : Nat := 2848 * (intervalOf z - 160)

/-- The field interval and the channel bit in it of data-stream position `p` of a turn of zone `z`: positions count the bits
after those of the servo field from interval 4 on, and none lies beyond interval 2,851 (R164, R167, R168). -/
def streamPlace (z p : Nat) : Option (Nat × Nat) :=
  let n := intervalOf z - 160
  if p < streamBits z then some (4 + p / n, 160 + p % n) else none

/-- What stands at a data-stream position of a turn: a bit of a frame, or a bit of the runout that ends the turn, the
pattern 0b1000 repeated (R168). -/
inductive StreamBit where
  | frame (j i : Nat)
  | runout (bit : Bool)
deriving DecidableEq, Repr

def streamBit (z p : Nat) : Option StreamBit :=
  if streamBits z ≤ p then none
  else if p / 55616 < framesPerTurn z then some (.frame (p / 55616) (p % 55616))
  else some (.runout ((p - 55616 * framesPerTurn z) % 4 == 0))

/-- The areas of a layer by frame number (R170). -/
inductive Area where
  | powerCal | control | index | user | leadOut
deriving DecidableEq, Repr

def areaOf (f : Nat) : Area :=
  if f < 49152 then .powerCal else if f < 49536 then .control else if f < 196608 then .index
  else if f < 12035044 then .user else .leadOut

/-- Frames of a layer, and the extents it holds with no rewritten frame, aborted extent or relocated block (R169, R171). -/
abbrev layerFrames : Nat := 12050660
abbrev layerExtents : Nat := 9922

/-- A spot's skew lies within 4 field intervals of its spot 0 (R165). -/
def skewOk (intervals : Int) : Bool := decide (-4 ≤ intervals) && decide (intervals ≤ 4)

end Sys2Proof.Machine
end

