-- ==== Sys2Proof/Machine/Bytes.lean ====
section
/-!
DEFINITION. Byte strings as numbers, and the TLVs of a board descriptor (R509, R510).
-/

namespace Sys2Proof.Machine

open Sys2Proof

/-- Little-endian bytes as a number. -/
def ofBytes (l : List Byte) : Nat := l.foldr (fun b n => b.toNat + 256 * n) 0

/-- The low `n` bytes of a number, lowest first. -/
def toBytes (n v : Nat) : List Byte := (List.range n).map fun i => BitVec.ofNat 8 (v / 256 ^ i)

/-- Bytes `off` to `off + n - 1` of a byte string. -/
def slice (l : List Byte) (off n : Nat) : List Byte := (l.drop off).take n

/-- A little-endian number of `n` bytes at an offset, and the same as a signed number. -/
def fieldAt (l : List Byte) (off n : Nat) : Nat := ofBytes (slice l off n)
def signedAt (l : List Byte) (off n : Nat) : Int := signedOf (8 * n) (fieldAt l off n)

/-- The bytes of numbered segments, in the order of their numbers. -/
def joinParts (n : Nat) (parts : List (Nat × List Byte)) : List Byte :=
  (List.range n).flatMap fun i => ((parts.find? fun p => p.1 == i).map (·.2)).getD []

/-- The bytes are all zero. -/
def zeroBytes (l : List Byte) : Bool := l.all fun b => b == 0

/-- The TLVs of a byte string: type and value, each value padded with zero bytes to a multiple of 4; none where the bytes
do not end with a TLV. -/
def tlvsOf : Nat → List Byte → Option (List (Nat × List Byte))
  | _, [] => some []
  | 0, _ => none
  | fuel + 1, l =>
    let n := fieldAt l 2 2
    let pad := (4 - n % 4) % 4
    if l.length < 4 + n + pad ∨ zeroBytes (slice l (4 + n) pad) = false then none
    else match tlvsOf fuel (l.drop (4 + n + pad)) with
      | some t => some ((fieldAt l 0 2, slice l 4 n) :: t)
      | none => none

/-- The TLVs of a descriptor fill the space from 0x10 to its digest. -/
def boardTlvs (b : List Byte) : Option (List (Nat × List Byte)) :=
  tlvsOf (b.length / 4) ((b.take (b.length - 32)).drop 16)

/-- The value of a TLV type in a descriptor, of an instance where the type has several. -/
def boardValue (b : List Byte) (ty inst : Nat) : Option (List Byte) := match boardTlvs b with
  | none => none
  | some t => (t.find? fun e => e.1 == ty && (fieldAt e.2 0 1 == inst || !(ty == 0x0010 || ty == 0x0020 || ty == 0x0030))).map (·.2)

end Sys2Proof.Machine
end

