-- ==== Sys2Proof/Machine/Bfp.lean ====
section
/-!
DEFINITION. Block floating point (R78 to R84): the value of a parameter word, and the writing of a stage of values with
one shared exponent, rounded to nearest with ties to even and saturated at the ends of the range. Between the words it
reads and the stage it writes a kernel's arithmetic is exact, as in accumulators wide enough for it (R80).
DEDUCED (notes/assumptions/23.md, safe): Block floating point is computed exactly over rationals and rounded once where R78 to R83 round.
-/

namespace Sys2Proof.Machine

open Sys2Proof

/-- 2 to an integer power. -/
def pow2 (e : Int) : Rat := if 0 ≤ e then ((2 ^ e.toNat : Nat) : Rat) else 1 / ((2 ^ (-e).toNat : Nat) : Rat)

/-- The value of a parameter word: mantissa bits 22:5, exponent bits 4:0, both two's complement (R79, R83). -/
def bfpVal (w : Word) : Rat :=
  ((w.extractLsb 22 5).toInt : Rat) * pow2 ((w.extractLsb 4 0).toInt - 17)

/-- Rounding to nearest, ties to even (R80). -/
def roundEven (q : Rat) : Int :=
  let f := q.floor
  let r := q - f
  if r < 1 / 2 then f else if 1 / 2 < r then f + 1 else if f % 2 = 0 then f else f + 1

/-- The mantissa of a value at an exponent. -/
def mantAt (e : Int) (q : Rat) : Int := roundEven (q * pow2 (17 - e))

/-- The mantissa fits in 18 bits (R79). -/
def mantFits (m : Int) : Bool := decide (-131072 ≤ m) && decide (m ≤ 131071)

/-- The smallest exponent from -16 to +15 at which every element of a stage fits (R81). -/
def stageExp (qs : List Rat) : Option Int :=
  ((List.range 32).map fun i => (i : Int) - 16).find? fun e => qs.all fun q => mantFits (mantAt e q)

/-- A parameter word from mantissa and exponent. -/
def packWord (m e : Int) : Word := BitVec.ofNat 32 ((m % 262144).toNat * 32 + (e % 32).toNat)

/-- The nearest mantissa of the range. -/
def clampMant (m : Int) : Int := if m < -131072 then -131072 else if 131071 < m then 131071 else m

/-- A stage written at the smallest exponent at which every element fits, or at +15 with the elements that do not fit
saturated; the second component says that one saturated (R81, R82). -/
def writeStage (qs : List Rat) : List Word × Bool :=
  match stageExp qs with
  | some e => (qs.map fun q => packWord (mantAt e q) e, false)
  | none => (qs.map fun q => packWord (clampMant (mantAt 15 q)) 15, true)

/-- One value written as a stage of its own. -/
def bfpWord (q : Rat) : Word := ((writeStage [q]).1[0]?).getD 0

/-- One value clamped between two others (R84). -/
def clampRat (lo hi q : Rat) : Rat := if hi < q then hi else if q < lo then lo else q

end Sys2Proof.Machine
end

