-- ==== Sys2Proof/Machine/Regs.lean ====
section
/-!
DEFINITION. Register access: the access codes of R11 on a write of a whole register, the shadow of an open transaction
(R13, R520 to R523), the value ranges that a write must keep, and reads.
-/

namespace Sys2Proof.Machine

open Sys2Proof

/-! ### Transactions as register writes see them -/

/-- The domain to which the RWS fields of a register belong (Table: Configuration domains). -/
def domainOf (a : Nat) : Option Nat :=
  if a = PLC_POL_DATA ∨ a = CMD_ADM_CFG ∨ a = CMD_ADM_CFG2 ∨ a = CMD_TC_DATA then some 0
  else if 0x1100000 ≤ a ∧ a < 0x1300000 then some 0
  else if 0x1000000 ≤ a ∧ a < 0x1100000 then some 1
  else if 0x80000 ≤ a ∧ a < 0x90000 ∨ 0x40000 ≤ a ∧ a < 0x50000 ∨ 0xB0000 ≤ a ∧ a < 0xC0000 then some 1
  else if 0x20000 ≤ a ∧ a < 0x40000 ∨ 0x50000 ≤ a ∧ a < 0x60000 then some 2
  else if 0x90000 ≤ a ∧ a < 0xA0000 then some 3
  else none

/-- Domain `d`'s transaction. -/
def State.txnOf (s : State) (d : Nat) : TxnSt := (s.txn[d]?).getD {}

/-- The state with domain `d`'s transaction replaced. -/
def State.setTxn (s : State) (d : Nat) (t : TxnSt) : State := { s with txn := s.txn.setIfInBounds d t }

/-- TXN_STAT STATE: 0 IDLE, 1 OPEN, 2 PENDING_EPOCH. -/
def State.txnState (s : State) (d : Nat) : Nat := s.get (TXN_STAT_W0_STATE d)

/-- The path owns the domain's transaction (R521). -/
def State.ownsTxn (s : State) (p : Path) (d : Nat) : Bool :=
  s.txnState d != 0 &&
  match p with
  | .service => s.flag (TXN_STAT_W0_SVC d)
  | .session id => !s.flag (TXN_STAT_W0_SVC d) && s.get (TXN_STAT_W0_SESSION d) == id.toNat

/-- The path owns an OPEN transaction that has passed no commit: it takes shadow writes (R522). -/
def State.takesShadow (s : State) (p : Path) (d : Nat) : Bool :=
  s.ownsTxn p d && s.txnState d == 1 && (s.txnOf d).commit.isNone

/-- The shadow word at a key: what the owner wrote, or the applied word (R522). -/
def State.shadowWord (s : State) (d key : Nat) : Word :=
  match (s.txnOf d).shadow.find? fun e => e.1 == key with
  | some e => e.2
  | none => s.reg key

/-- An association list with the value of a key replaced, or added in ascending order. -/
def assocPut (l : List (Nat × Word)) (k : Nat) (v : Word) : List (Nat × Word) := sins k v (sdel k l)

/-- The RWS fields of a word of the tables behind PLC_DM_DATA, PLC_POL_DATA and CMD_TC_DATA (Table: Domain map entry, the
register table of PLC_POL_DATA, Table: Tenant contract); the tables' other bits are reserved and stay 0 (R12). -/
def tableFields (key : Nat) : List FieldRow :=
  if key < 0x1000000 then []
  else if key < 0x1100000 then
    let w := key % 0x20 / 4
    if w = 0 then [⟨31, 13, .rws⟩, ⟨8, 0, .rws⟩] else if w = 1 then [⟨15, 0, .rws⟩] else if w ≤ 5 then [⟨31, 0, .rws⟩] else []
  else if key < 0x1200000 then [⟨31, 31, .rws⟩, ⟨27, 15, .rws⟩, ⟨7, 0, .rws⟩]
  else if key < 0x1300000 then
    let w := key % 0x10 / 4
    if w = 0 then [⟨31, 31, .rws⟩, ⟨18, 16, .rws⟩, ⟨7, 0, .rws⟩] else if w = 1 then [⟨15, 0, .rws⟩] else if w = 2 then [⟨31, 0, .rws⟩]
    else []
  else []

/-- The RWS fields of a word of the store: of a table word those of its table, of words 8 to 15 of a page SUP_k (R641), of a
register those of its row. -/
def rwsFields (key : Nat) : List FieldRow :=
  if 0x180000 ≤ key then tableFields key
  else if 0x24000 ≤ key ∧ key < 0x27000 ∧ key % 0x100 ≠ 0 then [⟨7, 7, .rws⟩, ⟨5, 0, .rws⟩]
  else match findRow key with
    | some r => r.fields.filter fun f => f.acc == .rws
    | none => []

/-- The word of the store with its RWS fields taken from a shadow word. -/
def State.withRws (s : State) (key : Nat) (v : Word) : Word :=
  BitVec.ofNat 32 ((rwsFields key).foldl (fun w f => putBits w f.hi f.lo (bitsOf v.toNat f.hi f.lo)) (s.reg key).toNat)

/-- A shadow word counts: a word of a page other than its first does while the shadow makes the slot FE_SUP (R641). -/
def State.shadowCounts (s : State) (d key : Nat) : Bool :=
  if 0x24000 ≤ key ∧ key < 0x27000 ∧ key % 0x100 ≠ 0 then bitsOf (s.shadowWord d (key - key % 0x100)).toNat 3 0 == 6 else true

/-- The words of a domain's shadow that differ from the applied ones, in ascending key, with the values they would take. -/
def State.txnChanges (s : State) (d : Nat) : List (Nat × Word) :=
  ((s.txnOf d).shadow.map fun (e : Nat × Word) => (e.1, s.withRws e.1 e.2)).filter fun (e : Nat × Word) =>
    s.shadowCounts d e.1 && e.2 != s.reg e.1

/-- The owner's shadow word is written, WRITES counts the shadow words that differ from the applied ones, and the time-out
restarts. -/
def State.putShadow (s : State) (d key : Nat) (v : Word) : State :=
  let t := s.txnOf d
  let s1 := s.setTxn d { t with shadow := assocPut t.shadow key v, lastAt := s.tick }
  s1.set (TXN_STAT_W0_WRITES d) (min 8191 (s1.txnChanges d).length)

/-! ### Calibration campaigns -/

/-- A campaign holds the station: orders to its pickups, its spindle and its sleds are refused (R542). -/
def State.calHolds (s : State) (st : Nat) : Bool := match s.cal.camp with
  | some c => c.stn == st && decide (8 ≤ c.mask)
  | none => false

/-! ### Writing a register -/

/-- The bits of `v` at the fields of one access code replace those of `old`. -/
def mergeBy (acc : Access) (fs : List FieldRow) (old v : Nat) : Nat :=
  fs.foldl (fun w f => if f.acc = acc then putBits w f.hi f.lo (bitsOf v f.hi f.lo) else w) old

/-- A 1 in any bit of a W1C field clears the whole field (R11). -/
def clearBy (fs : List FieldRow) (old v : Nat) : Nat :=
  fs.foldl (fun w f => if f.acc = .w1c ∧ bitsOf v f.hi f.lo ≠ 0 then putBits w f.hi f.lo 0 else w) old

/-- The write would change an RWS field's applied value (R13). -/
def changesRws (fs : List FieldRow) (old v : Nat) : Bool :=
  fs.any fun f => f.acc == .rws && bitsOf old f.hi f.lo != bitsOf v f.hi f.lo

/-- The register has an RWS field. -/
def hasRws (fs : List FieldRow) : Bool := fs.any fun f => f.acc == .rws

/-- A write by a path acts on a register's fields: RW fields take their bits, W1C fields are cleared, RWS fields go to
the owner's shadow or refuse the write whole (R11, R13, R522, R523). -/
def State.writeFields (s : State) (p : Path) (a : Nat) (fs : List FieldRow) (v : Word) : State :=
  let old := (s.reg a).toNat
  let plain := BitVec.ofNat 32 (mergeBy .rw fs (clearBy fs old v.toNat) v.toNat)
  match domainOf a with
  | some d =>
    if hasRws fs then
      if s.takesShadow p d then
        let sh := BitVec.ofNat 32 (mergeBy .rws fs (s.shadowWord d a).toNat v.toNat)
        ((s.putShadow d a sh).setReg a plain).status stOk
      else if changesRws fs old v.toNat then s.status stRegRefused
      else (s.setReg a plain).status stOk
    else (s.setReg a plain).status stOk
  | none => (s.setReg a plain).status stOk

/-- Fields whose value a write must keep within a range, or be refused with class 0x8: the field, the least and the
greatest value, as the field's chapter states.
DEDUCED (notes/assumptions/39.md, unsafe). -/
def rangeRules (a : Nat) : List (Nat × Nat × Nat × Nat) :=
  if 0x30000 ≤ a ∧ a < 0x40000 then
    -- OPU_DEF_CFG.MAXHOLD (R152)
    if a % 0x4000 = 0x048 then [(7, 0, 1, 40)] else []
  else if 0x40000 ≤ a ∧ a < 0x48000 then
    -- CHN_SYNC_CFG WIN and THR (R219)
    if a % 0x800 = 0x008 then [(6, 0, 4, 64), (13, 8, 32, 48)]
    else if a % 0x800 = 0x010 then [(4, 0, 4, 31)]
    else []
  else if a = CHN_IDX_CFG then [(15, 0, 1, 3600)]
  else if 0x60000 ≤ a ∧ a < 0x67000 then
    -- AX_CUR FORCE, and RUN of the sleds and of the magazine axes
    if a % 0x1000 = 0x02C then [(11, 9, 0, 2), (8, 0, 0, if a < 0x64000 then 150 else 300)] else []
  else if a = MEM_SCRUB_CTL then [(23, 16, 1, 255), (15, 8, 1, 255)]
  else if a = PLC_TOMB then [(1, 0, 1, 3)]
  else if a = TXN_CFG then [(15, 0, 10, 3600)]
  else if a = BIST_CFG then [(15, 8, 1, 255), (7, 0, 1, 255)]
  else if a = UPD_ACT_TMO then [(15, 0, 10, 3600)]
  else if a = PWR_ILIM then [(15, 0, 500, 4000)]
  else []

/-- The written value keeps the ranges of its register.
DEDUCED (notes/assumptions/39.md, unsafe). -/
def inRange (a : Nat) (v : Word) : Bool :=
  (rangeRules a).all fun (hi, lo, least, most) =>
    decide (least ≤ bitsOf v.toNat hi lo) && decide (bitsOf v.toNat hi lo ≤ most)

/-! ### Reading a register -/

/-- The word a tenant contract, policy or map access names, by its index register: the key of the word. -/
def State.indexKey (s : State) (a : Nat) : Option Nat :=
  if a = PLC_DM_DATA then some (keyDm (bitsOf (s.reg PLC_DM_IDX).toNat 11 3) (bitsOf (s.reg PLC_DM_IDX).toNat 2 0))
  else if a = PLC_POL_DATA then some (keyPol (bitsOf (s.reg PLC_POL_IDX).toNat 11 0))
  else if a = CMD_TC_DATA then some (keyTc (s.get CMD_TC_IDX_TENANT) (s.get CMD_TC_IDX_WORD))
  else if a = FLT_SRC_DATA then some (keySrc (s.get FLT_SRC_IDX_SRC) (s.get FLT_SRC_IDX_WORD))
  else if a = BIST_UNIT_DATA then some (keyBist (s.get BIST_UNIT_IDX_UNIT))
  else none

end Sys2Proof.Machine
end

