-- ==== Sys2Proof/Machine/CeOps.lean ====
section
/-!
DEFINITION. The control engine: its slots and parameter pages, the EN bit of a slot, the page write buffer, and one run
of the schedule (02_servo_tick.md, R68 to R96, R113, R114, R641).
PRESUMED (notes/assumptions/22.md, safe): Numerics of BEMF_OBS (type 0x5) and of Ke page units are free values.
DEDUCED (notes/assumptions/23.md, safe): Block floating point is computed exactly over rationals and rounded once where R78 to R83 round.
-/

namespace Sys2Proof.Machine

open Sys2Proof

/-! ### Slots and pages -/

abbrev tyEmpty : Nat := 0
abbrev tyPos : Nat := 1
abbrev tySpd : Nat := 2
abbrev tyLpc : Nat := 3
abbrev tySa : Nat := 4
abbrev tyObs : Nat := 5
abbrev tySup : Nat := 6

/-- Address of word `w` of the page of slot `n`. -/
abbrev pageAddr (n w : Nat) : Nat := 0x24000 + 0x100 * n + 4 * w

/-- The applied word `w` of the page of slot `n`. -/
def State.page (s : State) (n w : Nat) : Word := s.reg (pageAddr n w)

/-- The value of a numeric page word. -/
def State.pageVal (s : State) (n w : Nat) : Rat := bfpVal (s.page n w)

/-- What a slot keeps beside its registers. -/
def State.slot (s : State) (n : Nat) : KSlot := (s.ce.slots[n]?).getD {}

def State.setSlot (s : State) (n : Nat) (k : KSlot) : State :=
  { s with ce := { s.ce with slots := s.ce.slots.setIfInBounds n k } }

/-- Cycles of a kernel type, counted as enabled (Table: Kernel types, R69). -/
def typeCycles (ty : Nat) : Nat :=
  match ty with
  | 1 => 40 | 2 => 52 | 3 => 28 | 4 => 16 | 5 => 72 | 6 => 24 | _ => 2

/-- A kernel type that drives an output. -/
def drives (ty : Nat) : Bool := ty == tyPos || ty == tySpd || ty == tyLpc || ty == tySa

/-- The EN bit as it reads: 1 for FE_SUP (R71). -/
def State.slotEn (s : State) (n : Nat) : Bool := s.get (CE_PAGE_TYPE n) == tySup || s.flag (CE_PAGE_EN n)

/-- The visited slots (R69). -/
def State.visited (s : State) : List Nat := List.range (min 48 (s.get CE_SCHED_LEN_LEN))

/-- The visited slot whose OUT_SEL is an output (R117). -/
def State.slotOf (s : State) (out : Nat) : Option Nat :=
  s.visited.find? fun n => s.get (CE_PAGE_TYPE n) != tyEmpty && s.get (CE_PAGE_OUT_SEL n) == out

/-- A sequencer or a reaction clears EN of a slot; the clear stands against any set in the same tick (R77). -/
def State.clearEn (s : State) (n : Nat) : State :=
  let s1 := if s.get (CE_PAGE_TYPE n) = tySup then s else s.set (CE_PAGE_EN n) 0
  { s1.setSlot n { s1.slot n with started := false, fresh := true } with
    ce := { (s1.setSlot n { s1.slot n with started := false, fresh := true }).ce with enClr := n :: s1.ce.enClr } }

/-- A sequencer sets EN of a slot, unless EN was cleared in the same tick (R77). -/
def State.setEn (s : State) (n : Nat) : State :=
  if s.ce.enClr.contains n || s.slotEn n then s
  else (s.set (CE_PAGE_EN n) 1).setSlot n { s.slot n with started := false, fresh := true }

/-- Clearing and setting EN of the slot of an output, where there is one. -/
def State.clearOut (s : State) (out : Nat) : State :=
  match s.slotOf out with
  | some n => s.clearEn n
  | none => s

def State.enableOut (s : State) (out : Nat) : State :=
  match s.slotOf out with
  | some n => s.setEn n
  | none => s

/-- Changes what the slot of an output keeps, where there is one. -/
def State.withOut (s : State) (out : Nat) (f : KSlot → KSlot) : State :=
  match s.slotOf out with
  | some n => s.setSlot n (f (s.slot n))
  | none => s

/-! ### Page writes (R76, R113, R114, R641) -/

/-- Word `w` is listed for a kernel type (Table: Parameter page of each kernel type); words 8 to 63 that are not are
reserved for it. -/
def wordListed (ty w : Nat) : Bool :=
  match ty with
  | 1 => w == 8 || w == 9 || (16 ≤ w && w ≤ 63)
  | 2 => 8 ≤ w && w ≤ 16
  | 3 => w == 8 || w == 9 || (16 ≤ w && w ≤ 39)
  | 4 => w == 8
  | 5 => 8 ≤ w && w ≤ 12
  | 6 => 8 ≤ w && w ≤ 15
  | _ => false

/-- The value a page word will have at the next boundary: the buffered one, or the applied one. -/
def State.pageAhead (s : State) (n w : Nat) : Word :=
  match s.ce.wbuf.find? fun e => e.1 == pageAddr n w with
  | some e => e.2
  | none => s.page n w

/-- USED follows the buffer. -/
def State.wbufUsed (s : State) : State := s.set CE_WBUF_CTL_USED s.ce.wbuf.length

/-- The write buffer takes a word of the page: it holds the word already, or has room for it (R113). -/
def State.bufRoom (s : State) (a : Nat) : Bool :=
  s.ce.wbuf.any (fun e : Nat × Word => e.1 == a) || decide (s.ce.wbuf.length < 64)

/-- A page word enters the write buffer, in place when it is held already (R113). -/
def State.bufferPage (s : State) (a : Nat) (v : Word) : State :=
  let l := if s.ce.wbuf.any (fun e : Nat × Word => e.1 == a) then s.ce.wbuf.map (fun e : Nat × Word => if e.1 = a then (a, v) else e)
    else s.ce.wbuf ++ [(a, v)]
  ({ s with ce := { s.ce with wbuf := l } }.wbufUsed).status stOk

/-- A page write for which the buffer has no room: refused while GATE is 1 (R114), and kept waiting, whole, while GATE is 0
(R113). -/
def State.noRoom (s : State) (p : Path) (a : Nat) (v : Word) : State :=
  if s.flag CE_WBUF_CTL_GATE then s.status stRegRefused
  else { s with ce := { s.ce with wwait := s.ce.wwait ++ [(p, a, v)] } }

/-- The bits that a page word other than word 0 holds: of a numeric word mantissa and exponent (R83), of an integer word all
(R75). -/
def pageBits (ty w : Nat) (v : Word) : Word := if w = 3 ∨ (ty = tySpd ∧ w = 16) then v else v &&& 0x7FFFFF

/-- A write of EN = 1 that R76 refuses: outside MAINTAIN, on a POS_SMC or SPD_SMC slot, from EN 0, with FE_TMO 0. -/
def State.enRefused (s : State) (n : Nat) (v : Word) : Bool :=
  let ty := s.get (CE_PAGE_TYPE n)
  s.mode != modeMaintain && (ty == tyPos || ty == tySpd) && bitsOf v.toNat 4 4 == 1 &&
    bitsOf (s.pageAhead n 0).toNat 4 4 == 0 && (s.pageAhead n 3).toNat == 0

/-- The fields of page word 0. -/
def cfgFields : List FieldRow :=
  [⟨27, 26, .rws⟩, ⟨25, 25, .rws⟩, ⟨24, 24, .rws⟩, ⟨23, 16, .rws⟩, ⟨15, 8, .rws⟩, ⟨7, 5, .rws⟩, ⟨4, 4, .rw⟩, ⟨3, 0, .rws⟩]

/-- An RWS word of the servo domain: the owner's write goes to the shadow, any other change is refused. The third
component says whether the write stands. -/
def State.writeRws (s : State) (p : Path) (key : Nat) (fs : List FieldRow) (v : Word) : State × Bool :=
  match domainOf key with
  | none => (s, false)
  | some d =>
    if s.takesShadow p d then
      (s.putShadow d key (BitVec.ofNat 32 (mergeBy .rws fs (s.shadowWord d key).toNat v.toNat)), true)
    else (s, !changesRws fs (s.reg key).toNat v.toNat)

/-- The TYPE that decides which words of a page a write finds reserved: the shadow TYPE for the owner of an open servo
transaction, the applied TYPE for any other (R641). -/
def State.decidingType (s : State) (p : Path) (n : Nat) : Nat :=
  if s.takesShadow p 2 then bitsOf (s.shadowWord 2 (pageAddr n 0)).toNat 3 0 else s.get (CE_PAGE_TYPE n)

/-- A write of word `w` of the page of slot `n` that the gate has passed. A write that finds no room has no effect before the
buffer takes it; the rule of R76 is judged then. -/
def State.writePage (s : State) (p : Path) (n w : Nat) (v : Word) : State :=
  let ty := s.decidingType p n
  let a := pageAddr n w
  if w = 0 then
    let r := s.writeRws p a cfgFields v
    if !r.2 then s.status stRegRefused
    else if s.get (CE_PAGE_TYPE n) = tySup then r.1.status stOk
    else if !s.bufRoom a then s.noRoom p a v
    else if s.enRefused n v then s.status stRegRefused
    else
      -- the buffer holds the word's RW bit; its RWS bits are settled at the commit
      r.1.bufferPage a (BitVec.ofNat 32 (bitsOf v.toNat 4 4 * 16))
  else if w ≤ 5 then if s.bufRoom a then s.bufferPage a (pageBits ty w v) else s.noRoom p a v
  else if w ≤ 7 then s.status stOk
  else
    if !wordListed ty w then
      if v = 0 then s.status stOk else s.status stRegRefused
    else if ty = tySup then
      let r := s.writeRws p a [⟨7, 7, .rws⟩, ⟨5, 0, .rws⟩] v
      if r.2 then r.1.status stOk else s.status stRegRefused
    else if s.bufRoom a then s.bufferPage a (pageBits ty w v)
    else s.noRoom p a v

/-- A page word as a register read gives it: EN of a FE_SUP slot reads 1 (R71), and the words that the applied TYPE reserves
read zero (R641). -/
def State.readPage (s : State) (n w : Nat) : Word :=
  let ty := s.get (CE_PAGE_TYPE n)
  if w = 0 then (if ty = tySup then s.page n 0 ||| 0x10 else s.page n 0)
  else if w = 6 ∨ w = 7 ∨ (8 ≤ w ∧ wordListed ty w = false) then 0
  else s.page n w

/-- A host write that clears EN of a tilt slot during its pickup's layer jump stands at DONE (R148). -/
def State.noteTilt (s : State) (n : Nat) : State :=
  let o := s.get (CE_PAGE_OUT_SEL n)
  let k := (s.pu[o / 3]?).getD {}
  if o < 12 ∧ o % 3 = 2 ∧ k.op = some .jump then
    { s with pu := s.pu.setIfInBounds (o / 3) { k with tiltCleared := true } }
  else s

/-- One buffered page word is applied: for word 0 its EN bit, where a set gives way to a clear of the same tick
(R77); for any other word its value. -/
def State.applyPage (s : State) (a : Nat) (v : Word) : State :=
  let n := (a - 0x24000) / 0x100
  if (a - 0x24000) % 0x100 = 0 then
    if bitsOf v.toNat 4 4 = 0 then (s.clearEn n).noteTilt n
    else s.setEn n
  else s.setReg a v

/-- The buffer is applied at a boundary; while GATE is 1 it is held. -/
def State.applyWbuf (s : State) : State :=
  if s.flag CE_WBUF_CTL_GATE then s
  else
    -- clears first, so that a clear stands against a set of the same tick
    let clears := s.ce.wbuf.filter fun e => (e.1 - 0x24000) % 0x100 == 0 && bitsOf e.2.toNat 4 4 == 0
    let rest := s.ce.wbuf.filter fun e => !((e.1 - 0x24000) % 0x100 == 0 && bitsOf e.2.toNat 4 4 == 0)
    let s1 := clears.foldl (fun t e => t.applyPage e.1 e.2) s
    let s2 := rest.foldl (fun t e => t.applyPage e.1 e.2) s1
    { s2 with ce := { s2.ce with wbuf := [] } }.wbufUsed

/-! ### Inputs (R68, R84, R122 to R124, R534) -/

/-- A converter result corrected by its CAL entry: (raw - OFS) * GAIN / 32,768 (R534). -/
def corrected (entry : Word) (raw : Rat) : Rat :=
  (raw - ((signedOf 16 (bitsOf entry.toNat 15 0) : Int) : Rat)) * ((bitsOf entry.toNat 31 16 : Nat) : Rat) / 32768

/-- A corrected result as the converter's own width of `n` bits holds it: the nearest value below, within its range. -/
def correctedWord (n : Nat) (entry : Word) (raw : Nat) : Nat := min (2 ^ n - 1) (corrected entry (raw : Rat)).floor.toNat

/-- VBUS in 0.1 V and IBUS in mA of the tick, each corrected by its CAL_MON entry (R534). -/
def State.vbusOf (s : State) (x : Samples) : Nat := correctedWord 16 (s.reg (CAL_MON 0)) x.vbus.toNat
def State.ibusOf (s : State) (x : Samples) : Nat := correctedWord 16 (s.reg (CAL_MON 1)) x.ibus.toNat

/-- The raw result of servo ADC channel `c` at the boundary. -/
def rawAdc (x : Samples) (c : Nat) : Nat := ((x.adc[c]?).getD 0).toNat

/-- The corrected result of servo ADC channel `c`. -/
def State.adcVal (s : State) (x : Samples) (c : Nat) : Rat := corrected (s.reg (CAL_ADC c)) ((rawAdc x c : Nat) : Rat)

/-- Sum of the four quadrants of pickup `n`. -/
def State.quadSum (s : State) (x : Samples) (n : Nat) : Rat :=
  s.adcVal x (10 * n) + s.adcVal x (10 * n + 1) + s.adcVal x (10 * n + 2) + s.adcVal x (10 * n + 3)

/-- The focus error of pickup `n` (Table: Derived pickup measurements): ((A + C) - (B + D)) / sum x slope of the
current layer; during the traverse of a layer jump the estimated depth (R141, R142). -/
def State.focusError (s : State) (x : Samples) (n : Nat) : Rat :=
  if ((s.pu[n]?).getD {}).op = some .jump ∧ ((s.pu[n]?).getD {}).captured = false then ((s.pu[n]?).getD {}).estDepth
  else
    let a := s.adcVal x (10 * n)
    let b := s.adcVal x (10 * n + 1)
    let c := s.adcVal x (10 * n + 2)
    let d := s.adcVal x (10 * n + 3)
    ((a + c) - (b + d)) / (a + b + c + d) * bfpVal (s.reg (CAL_PU_LAYER n (s.get (OPU_LAYER_CUR n)) 0))

/-- The target turn of spot `k` of pickup `n`, which follows turn T + k (R127, R129).
DEDUCED (notes/assumptions/44.md, unsafe): in write mode too. -/
def State.spotTarget (s : State) (n k : Nat) : Nat := s.get (OPU_SPIRAL_TURN n) + k

/-- The push-pull displacement of pickup `n` in tp: ((A + D) - (B + C)) / sum over the push-pull slope of the current layer (R124,
R155). -/
def State.pushPull (s : State) (x : Samples) (n : Nat) : Rat :=
  (s.adcVal x (10 * n) + s.adcVal x (10 * n + 3) - s.adcVal x (10 * n + 1) - s.adcVal x (10 * n + 2)) / s.quadSum x n
    / bfpVal (s.reg (CAL_PU_LAYER n (s.get (OPU_LAYER_CUR n)) 2))

/-- The spots of pickup `n` that tracking averages (R131). -/
def State.trackSpots (s : State) (n : Nat) : List Nat :=
  (List.range 4).filter fun k =>
    (s.get (OPU_TRK_CFG_SPOT_MASK n)).testBit k && s.flag (OPU_SPOT_POS_VALID n k) &&
      !(s.get (FLT_UNUSABLE_UNUSABLE ((0x20 + 4 * n + k) / 32))).testBit ((0x20 + 4 * n + k) % 32)

/-- The tracking offset in tp of a ladder's third rung: +4/256 on its first revolution, then -4/256 (R212). -/
def State.ladderOffset (s : State) (n : Nat) : Rat := match s.chn.blocks.find? fun b => b.pu == n && b.rung == 3 with
  | some b => if b.revs = 0 then 4 / 256 else -4 / 256
  | none => 0

/-- The radial position error of pickup `n`: the mean of P_k - target_k over the averaged spots, each P_k carried on by the
push-pull change since its field (R124, R131).
DEDUCED (notes/assumptions/44.md, unsafe): the change counts from the boundary that follows the field. -/
def State.radialError (s : State) (x : Samples) (n : Nat) : Rat :=
  let ks := s.trackSpots n
  let pp := s.pushPull x n
  let sum := ks.foldl (fun (q : Rat) k =>
    q + ((256 * s.get (OPU_SPOT_POS_TURN n k) + s.get (OPU_SPOT_POS_FINE n k) : Nat) : Rat) / 256
      + (pp - ((((s.pu[n]?).getD {}).ppRef.toList[k]?).getD 0)) - ((s.spotTarget n k : Nat) : Rat)) 0
  if ks.length = 0 then 0 else sum / ((ks.length : Nat) : Rat) - s.ladderOffset n

/-- The tilt error of pickup `n` in mrad (Table: Derived pickup measurements): (SD4 - SD5) / (SD4 + SD5) x tilt slope, less
OPU_TILT_OFS_L of the current layer. -/
def State.tiltError (s : State) (x : Samples) (n : Nat) : Rat :=
  let a := s.adcVal x (10 * n + 4)
  let b := s.adcVal x (10 * n + 5)
  (a - b) / (a + b) * Config.tiltSlope n - ((s.getInt (OPU_TILT_OFS_OFS n (s.get (OPU_LAYER_CUR n))) : Int) : Rat) / 1000

/-- Read-laser power of pickup `n` in mW: the front monitor, ADC channel 10·n + 8, by its gain entry for reading. -/
def State.readPower (s : State) (x : Samples) (n : Nat) : Rat :=
  corrected (s.reg (CAL_PU_W0 n)) (s.adcVal x (10 * n + 8)) * Config.monitorScale

/-- Write-laser power of pickup `n` in mW: the front monitor sampled in the write pulses, by its gain entry for writing. -/
def State.writePower (s : State) (x : Samples) (n : Nat) : Rat :=
  corrected (s.reg (CAL_PU_W1 n)) (corrected (s.reg (CAL_ADC (10 * n + 8))) ((((x.wrMon[n]?).getD 0).toNat : Nat) : Rat))
    * Config.monitorScale

/-- The measurement a slot takes by its IN_SEL (Table: CE input IDs). -/
def State.input (s : State) (x : Samples) (id : Nat) : Rat :=
  if id < 0x30 then s.adcVal x id
  else if id < 0x34 then s.focusError x (id - 0x30)
  else if id < 0x38 then s.radialError x (id - 0x34)
  else if id < 0x3C then s.tiltError x (id - 0x38)
  else if id < 0x40 then s.readPower x (id - 0x3C)
  else if id < 0x44 then s.writePower x (id - 0x40)
  else if id < 0x48 then bfpVal ((s.ax[id - 0x44]?).getD {}).err
  else if id < 0x4A then ((((x.speed[id - 0x48]?).getD 0).toNat : Nat) : Rat) / 8
  else 0

/-- What a slot measures: its input, but for the speed law of a station whose source is the observer, which takes the latest
speed estimate of its BEMF_OBS slot (R72, Table: Commutation source).
DEDUCED (notes/assumptions/44.md, unsafe). -/
def State.measure (s : State) (x : Samples) (n : Nat) : Rat :=
  let id := s.get (CE_PAGE_IN_SEL n)
  let o := s.slot (s.page n 16).toNat
  if s.get (CE_PAGE_TYPE n) = tySpd ∧ s.get (SPN_STAT_SRC (id - 0x48)) = 3 ∧ o.estOk = true then bfpVal o.est else s.input x id

/-- CE-cycle time of the latest sample of a slot's input: of radial position the field that has arrived since the last boundary,
else the boundary (R85, R124). -/
def State.sampleAt (s : State) (n : Nat) : Nat :=
  let id := s.get (CE_PAGE_IN_SEL n)
  if 0x34 ≤ id ∧ id < 0x38 then (((s.pu[id - 0x34]?).getD {}).fieldAt).getD s.ce.cycles else s.ce.cycles

/-- The corrected AUX_AIN sample as a signed fraction of full scale about mid-scale (R101). -/
def State.auxFraction (s : State) (x : Samples) : Rat := (s.adcVal x 46 - 8192) / 16384

/-! ### One run of a slot -/

/-- Index of the per-layer entry (R88). -/
def State.slotLayer (s : State) (n : Nat) : Nat :=
  if s.flag (CE_PAGE_LAYER_SCHED n) then s.get (OPU_LAYER_CUR (s.get (CE_PAGE_LAYER_PU n))) else 0

/-- The pickup whose hold acts on a slot: that of its coil output, or LAYER_PU's. -/
def State.slotPickup (s : State) (n : Nat) : Nat :=
  let o := s.get (CE_PAGE_OUT_SEL n)
  if o < 12 then o / 3 else s.get (CE_PAGE_LAYER_PU n)

/-- The slot is the focus slot of a pickup that runs a layer jump. -/
def State.jumpFocus (s : State) (n : Nat) : Bool :=
  let o := s.get (CE_PAGE_OUT_SEL n)
  decide (o < 12) && o % 3 == 0 && ((s.pu[o / 3]?).getD {}).op == some .jump

/-- The hold is active on a slot (R89, R141); a layer jump ignores the defect detector for its focus slot (R148). -/
def State.slotHeld (s : State) (n : Nat) : Bool :=
  (s.flag (CE_PAGE_HOLD_EN n) && s.flag (OPU_STAT_HOLD (s.slotPickup n)) && !s.jumpFocus n) || (s.slot n).seqHold

/-- Supervision of a slot is masked by CE_FE_MASK or by a sequencer (R95). -/
def State.slotMasked (s : State) (n : Nat) : Bool :=
  (if n < 32 then (s.get CE_FE_MASK_LO_MASK).testBit n else (s.get CE_FE_MASK_HI_MASK).testBit (n - 32)) ||
    (s.slot n).seqMask

/-- The set-point of a slot is replaced by AUX_AIN (R101). -/
def State.auxOn (s : State) (n : Nat) : Bool := s.flag CE_AUX_CTL_EN && s.get CE_AUX_CTL_SLOT == n

/-- The set-point of a slot in the input's unit (SP_SRC, R99, R101); `base` is what SP_SRC 0x0 names. -/
def State.setPoint (s : State) (x : Samples) (n : Nat) (base : Rat) : Rat :=
  if s.auxOn n then
    bfpVal (s.reg CE_AUX_OFFS) + bfpVal (s.reg CE_AUX_GAIN) * s.auxFraction x
  else
    let src := s.get (CE_PAGE_SP_SRC n)
    if src = 0 then base
    else if src = 2 && s.flag CE_SYNC_STAT_VALID then
      let stn := s.get (CE_PAGE_OUT_SEL n) - 0x10
      bfpVal (s.slot n).seqSp + s.pageVal n 14 * ((s.stn[stn]?).getD {}).marErr
    else bfpVal (s.slot n).seqSp

/-- The error of a run from its set-point, its input stage as written, and whether a value of either saturated (R78, R80, R82).
DEDUCED (notes/assumptions/23.md, safe): the input stage is the measurement alone, and the set-point a value of its own. -/
def State.errorOf (s : State) (x : Samples) (n : Nat) (sp : Rat) : Rat × List Word × Bool :=
  let i := writeStage [s.measure x n]
  let w := writeStage [sp]
  (bfpVal ((w.1[0]?).getD 0) - bfpVal ((i.1[0]?).getD 0), i.1, i.2 || w.2)

/-- Saturation in a run is recorded and raised (R82). -/
def State.saturated (s : State) (n : Nat) : State :=
  let s1 :=
    if n < 32 then s.setReg CE_SAT_LO (s.reg CE_SAT_LO ||| BitVec.ofNat 32 (2 ^ n))
    else s.setReg CE_SAT_HI (s.reg CE_SAT_HI ||| BitVec.ofNat 32 (2 ^ (n - 32)))
  s1.raise 0x002 3 n

/-- The CE_KST words of a slot after a run: error, sliding variable, applied output, and the flags of word 3. -/
def State.putKst (s : State) (n : Nat) (e sl out : Word) (hold clamp sat q : Bool) : State :=
  let s1 := ((s.setReg (CE_KST_W0 n) e).setReg (CE_KST_W1 n) sl).setReg (CE_KST_W2 n) out
  let s2 := (((s1.setFlag (CE_KST_W3_HOLD n) hold).setFlag (CE_KST_W3_CLAMP n) clamp).setFlag (CE_KST_W3_SAT n) sat)
  let s3 := ((s2.setFlag (CE_KST_W3_Q n) q).set (CE_KST_W3_RAN n) 1).setFlag (CE_KST_W3_MASKED n) (s.slotMasked n)
  if sat then s3.saturated n else s3

/-- An output ID takes a new value the moment the run ends (R93). -/
def State.drive (s : State) (out : Nat) (v : Word) : State :=
  { s with ce := { s.ce with outs := assocPut s.ce.outs out v } }

/-- An output goes off (Table: Kernel types). -/
def State.undrive (s : State) (out : Nat) : State := { s with ce := { s.ce with outs := sdel out s.ce.outs } }

/-- The range of the converter that drives an output (R84, Table: Pickup signal set): coil currents and laser currents in mA,
liquid-crystal zones in mV rms; none for the outputs that no converter of that table drives.
DEDUCED (notes/assumptions/44.md, unsafe). -/
def dacRange (out : Nat) : Option (Rat × Rat) :=
  if out < 12 then
    (if out % 3 = 0 then some (-500, 500) else if out % 3 = 1 then some (-400, 400) else some (-250, 250))
  else if 0x18 ≤ out ∧ out < 0x1C then some (0, 150)
  else if 0x1C ≤ out ∧ out < 0x20 then some (0, 400)
  else if 0x20 ≤ out ∧ out < 0x24 then some (0, 4095)
  else none

/-- The lower limit of a slot's output: OUT_MIN, a quarter of it for a spindle whose regenerative torque is reduced (Table: Braking
by VBUS). -/
def State.outMin (s : State) (n : Nat) : Rat :=
  let o := s.get (CE_PAGE_OUT_SEL n)
  if 0x10 ≤ o ∧ o < 0x12 ∧ s.get (SPN_STAT_BRAKE (o - 0x10)) = 2 then s.pageVal n 4 / 4 else s.pageVal n 4

/-- Output conversion: clamped to OUT_MIN and OUT_MAX, then to the range of the driven converter (R84). -/
def State.clampOut (s : State) (n : Nat) (raw : Rat) : Rat :=
  let a := clampRat (s.outMin n) (s.pageVal n 5) raw
  match dacRange (s.get (CE_PAGE_OUT_SEL n)) with
  | some r => clampRat r.1 r.2 a
  | none => a

/-- The sliding-surface law (R85 to R89): from the error of the run, level and band to the new state and output.
DESIGN CHOICE (notes/assumptions/45.md, unsafe): a slot enabled while its hold is active runs the law in its first tick (R87) and
keeps its output from then on (R89). -/
def State.smc (s : State) (x : Samples) (n : Nat) (sp : Rat) (u b : Word) : State :=
  let k := s.slot n
  let layer := s.slotLayer n
  if s.slotHeld n && k.started then
    -- q and output are kept, and the derivative memory is not updated
    (((s.set (CE_KST_W3_HOLD n) 1).set (CE_KST_W3_RAN n) 1).setFlag (CE_KST_W3_MASKED n) (s.slotMasked n)).setSlot n
      { k with held := true, fresh := true }
  else
    let r := s.errorOf x n sp
    let e := r.1
    let fresh := k.fresh || !k.started || k.held || decide (layer ≠ k.layer)
    let at_ := s.sampleAt n
    let gap : Rat := ((at_ - k.ts : Nat) : Rat) / 1600
    let dt : Rat := if gap < 1 then 1 else gap
    let dedt := if fresh then 0 else (e - bfpVal (s.reg (CE_KST_W0 n))) / dt
    let st := writeStage [e, e + s.pageVal n 8 * dedt, dedt]
    let we := (st.1[0]?).getD 0
    let ws := (st.1[1]?).getD 0
    let wd := (st.1[2]?).getD 0
    let sv := bfpVal ws
    let bv := bfpVal b
    let qn := if !k.started then decide (0 ≤ sv)
      else if bv < sv then true else if sv < -bv then false else s.flag (CE_KST_W3_Q n)
    let raw := s.pageVal n 9 + (if qn then bfpVal u else -bfpVal u)
    let lim := s.clampOut n raw
    let ow := writeStage [lim]
    let out := (ow.1[0]?).getD 0
    let s1 := s.putKst n we ws out false (decide (lim ≠ raw)) (r.2.2 || st.2 || ow.2) qn
    let k1 := { k with ts := at_, inp := r.2.1, dedt := wd, fresh := false, started := true, held := false, layer := layer }
    (s1.setSlot n k1).drive (s.get (CE_PAGE_OUT_SEL n)) out

/-- The working set-point moves toward the target by at most RAMP_ACC up or RAMP_DEC down (R90). -/
def ramp (work target up down : Rat) : Rat :=
  if work < target then (if work + up < target then work + up else target)
  else if target < work - down then work - down else target

/-- LPC (R91). The laser current is held at 0 where the laser is not allowed (R136), and to its limit of OPU_LASER_CFG.
DESIGN CHOICE (notes/assumptions/46.md, unsafe): in the first run after enable out_(n-1) and e_(n-1) are 0. -/
def State.runLpc (s : State) (x : Samples) (n : Nat) : State :=
  let k := s.slot n
  let sp := if s.flag (CE_PAGE_LAYER_SCHED n) && !s.auxOn n then s.pageVal n (16 + s.slotLayer n) else s.setPoint x n (s.pageVal n 1)
  let r := s.errorOf x n sp
  let e := r.1
  let prevE := if k.started then bfpVal (s.reg (CE_KST_W0 n)) else 0
  let prevO := if k.started then bfpVal (s.reg (CE_KST_W2 n)) else 0
  let raw := prevO + s.pageVal n 8 * e + s.pageVal n 9 * (e - prevE)
  let lim := s.clampOut n raw
  let st := writeStage [e]
  let ow := writeStage [lim]
  let we := (st.1[0]?).getD 0
  let out := (ow.1[0]?).getD 0
  let o := s.get (CE_PAGE_OUT_SEL n)
  let reading := decide (o < 0x1C)
  let allowed := if reading then s.flag (OPU_LASER_STAT_RD_ON (o - 0x18)) else s.flag (OPU_LASER_STAT_WR_ON (o - 0x1C))
  let most : Rat := if reading then ((s.get (OPU_LASER_CFG_RD_ILIM (o - 0x18)) : Nat) : Rat)
    else ((2 * s.get (OPU_LASER_CFG_WR_ILIM (o - 0x1C)) : Nat) : Rat)
  let cur := if !allowed then 0 else if most < bfpVal out then bfpWord most else out
  let s1 := s.putKst n we (s.reg (CE_KST_W1 n)) out false (decide (lim ≠ raw)) (r.2.2 || st.2 || ow.2) (s.flag (CE_KST_W3_Q n))
  (s1.setSlot n { k with ts := s.ce.cycles, inp := r.2.1, started := true, fresh := false }).drive o cur

/-- The target of zone `z` of pickup `n` at layer `l`, in mV (OPU_SA_L_k). -/
def State.saTarget (s : State) (n l z : Nat) : Nat :=
  if z % 2 = 0 then s.get (OPU_SA_ZONE_LO n l (z / 2)) else s.get (OPU_SA_ZONE_HI n l (z / 2))

/-- SA_SET moves each of the eight zones toward its target by at most SLEW (R92), within the output range (R84). -/
def State.runSa (s : State) (n : Nat) : State :=
  let k := s.slot n
  let pu := s.get (CE_PAGE_OUT_SEL n) - 0x20
  let l := s.get (OPU_LAYER_SA pu)
  let slew := s.pageVal n 8
  let raw := (List.range 8).map fun z => ramp (bfpVal ((k.zones[z]?).getD 0)) ((s.saTarget pu l z : Nat) : Rat) slew slew
  let lim := raw.map (s.clampOut n)
  let st := writeStage lim
  let s1 := s.putKst n (s.reg (CE_KST_W0 n)) (s.reg (CE_KST_W1 n)) ((st.1[0]?).getD 0) false (decide (lim ≠ raw)) st.2
    (s.flag (CE_KST_W3_Q n))
  (s1.setSlot n { k with zones := st.1, started := true }).drive (s.get (CE_PAGE_OUT_SEL n)) ((st.1[0]?).getD 0)

/-- The observer's state is free values: the spec gives its parameters and no formula. Its speed estimate is what the station
reports of it (SPN_OBS.SPEED), valid from the run on. -/
def State.runObs (s : State) (x : Samples) (n : Nat) : State :=
  let (e, s1) := s.draw
  let (sl, s2) := s1.draw
  let (out, s3) := s2.draw
  let v := ((x.obsSpeed[s.get (CE_PAGE_IN_SEL n) - 0x50]?).getD 0).toNat
  (s3.setSlot n { s3.slot n with est := bfpWord (((v : Nat) : Rat) / 8), estOk := true }).putKst n e sl out false false false
    (s.flag (CE_KST_W3_Q n))

/-- One supervised slot's following-error count (R95). The count reaching FE_TMO is the event FOLLOW_ERR (R96). -/
def State.superviseSlot (s : State) (n : Nat) : State :=
  let cnt := s.get (CE_KST_W3_FE_CNT n)
  let tmo := (s.page n 3).toNat
  let e := bfpVal (s.reg (CE_KST_W0 n))
  let k := s.slot n
  let cnt' :=
    if tmo = 0 ∨ s.slotEn n = false then 0
    else if s.slotHeld n ∨ s.slotMasked n then cnt
    else if s.pageVal n 2 < e ∨ s.pageVal n 2 < -e then min 65535 (cnt + 1)
    else 0
  let s1 := s.set (CE_KST_W3_FE_CNT n) cnt'
  if cnt' = 0 then s1.setSlot n { k with feRaised := false } else s1

/-- FE_SUP supervises the slots of its valid SUP_k words. -/
def State.runSup (s : State) (n : Nat) : State :=
  let s1 := (List.range 8).foldl (fun (t : State) k =>
    let w := (s.page n (8 + k)).toNat
    if w.testBit 7 then t.superviseSlot (w % 64) else t) s
  s1.set (CE_KST_W3_RAN n) 1

/-- A visited slot whose kernel is not enabled goes to its off state (Table: Kernel types): its output off, the zones of SA_SET
at 0 V, the estimates of BEMF_OBS invalid. -/
def State.slotOff (s : State) (n : Nat) : State :=
  ((s.set (CE_KST_W3_RAN n) 0).undrive (s.get (CE_PAGE_OUT_SEL n))).setSlot n { s.slot n with zones := [], estOk := false }

/-- The run of an enabled slot by its kernel type. -/
def State.runKernel (s : State) (x : Samples) (n : Nat) : State :=
  let ty := s.get (CE_PAGE_TYPE n)
  if ty = tyPos then
    s.smc x n (s.setPoint x n (s.pageVal n 1)) (s.page n (16 + 2 * s.slotLayer n)) (s.page n (17 + 2 * s.slotLayer n))
  else if ty = tySpd then
    let w := writeStage [ramp (bfpVal (s.slot n).work) (s.setPoint x n (s.pageVal n 1)) (s.pageVal n 12) (s.pageVal n 13)]
    let work := (w.1[0]?).getD 0
    let s1 := (s.setSlot n { s.slot n with work := work }).smc x n (bfpVal work) (s.page n 10) (s.page n 11)
    if w.2 then (s1.set (CE_KST_W3_SAT n) 1).saturated n else s1
  else if ty = tyLpc then s.runLpc x n
  else if ty = tySa then s.runSa n
  else if ty = tyObs then s.runObs x n
  else if ty = tySup then s.runSup n
  else s

/-- One visited slot: what it does, the cycle at which it ends and the slot that did not finish, if one did not (R69 to R72, R93,
R94). A slot that would not end within the tick is abandoned, with every later one, and keeps its output and state (R103).
DEDUCED (notes/assumptions/43.md, unsafe). -/
def State.runSlot (x : Samples) (acc : State × Nat × Option Nat) (n : Nat) : State × Nat × Option Nat :=
  let s := acc.1
  let ty := s.get (CE_PAGE_TYPE n)
  let idle := ty = tyEmpty ∨ s.slotEn n = false
  let fin := acc.2.1 + (if idle then 2 else typeCycles ty)
  if acc.2.2.isSome = true ∨ s.ce.tickLen < fin then (s.set (CE_KST_W3_RAN n) 0, s.ce.tickLen, some (acc.2.2.getD n))
  else if idle then (s.slotOff n, fin, none)
  else (((s.runKernel x n).set (CE_LAT_LAST n) fin).maxIn (CE_LAT_MAX n) fin, fin, none)

/-- What a slot holds before its run. -/
def State.slotPrev (s : State) (n : Nat) : SlotPrev :=
  { slot := n, kept := s.slot n, w0 := s.reg (CE_KST_W0 n), w1 := s.reg (CE_KST_W1 n), w2 := s.reg (CE_KST_W2 n),
    w3 := s.reg (CE_KST_W3 n), lat := s.reg (CE_LAT n), out := (s.ce.outs.find? fun e => e.1 == s.get (CE_PAGE_OUT_SEL n)).map (·.2),
    sat := if n < 32 then (s.reg CE_SAT_LO).getLsbD n else (s.reg CE_SAT_HI).getLsbD (n - 32) }

/-- An overrun is recorded in CE_OVR and raised, with the unfinished slot or 0x80 as argument (R104). -/
def State.overrun (s : State) (arg : Nat) : State :=
  (((s.set CE_OVR_VALID 1).set CE_OVR_SLOT arg).addSat CE_OVR_COUNT 1).raise 0x002 1 arg

/-- The schedule of one tick: the boundary stage of 160 cycles, then the visited slots in order (R68). Corrected reads of
the microcode memory have lengthened it (R463); a schedule that does not end within the tick is an overrun (R103, R104).
DEDUCED (notes/assumptions/43.md, unsafe). -/
def State.runSchedule (s : State) (x : Samples) : State :=
  let s0 := { s with ce := { s.ce with fixed := 0, adc := x.adc, before := s.visited.map s.slotPrev } }.set CE_AUX_VAL_VAL (rawAdc x 46)
  let r := s.visited.foldl (State.runSlot x) (s0, 160 + s.ce.fixed, none)
  let s1 := (r.1.set CE_CYC_LAST r.2.1).maxIn CE_CYC_MAX r.2.1
  let s2 := { s1 with pu := s1.pu.map fun (k : PuSt) => { k with fieldAt := none, freshAt := Vector.replicate 4 false } }
  match r.2.2 with
  | some n => s2.overrun n
  | none => s2

/-- A visited FE_SUP slot at index `n` or above supervises slot `m`. -/
def State.supervisedFrom (s : State) (n m : Nat) : Bool :=
  s.visited.any fun f => decide (n ≤ f) && s.get (CE_PAGE_TYPE f) == tySup && (List.range 8).any fun k =>
    (s.page f (8 + k)).toNat.testBit 7 && (s.page f (8 + k)).toNat % 64 == m

/-- The run of a slot at index `n` or above is undone, and so is the count that a supervisor there has taken of a slot (R103). -/
def State.undoRun (n : Nat) (s : State) (u : SlotPrev) : State :=
  let m := u.slot
  let k := s.slot m
  let late := s.supervisedFrom n m
  let fe := s.get (CE_KST_W3_FE_CNT m)
  let old := bitsOf u.w3.toNat 31 16
  let s1 :=
    if n ≤ m then
      let t := (((((s.setReg (CE_KST_W0 m) u.w0).setReg (CE_KST_W1 m) u.w1).setReg (CE_KST_W2 m) u.w2).setReg (CE_KST_W3 m) u.w3).setReg
        (CE_LAT m) u.lat).set (CE_KST_W3_RAN m) 0
      let t1 := match u.out with
        | some w => t.drive (s.get (CE_PAGE_OUT_SEL m)) w
        | none => t.undrive (s.get (CE_PAGE_OUT_SEL m))
      let t2 := if u.sat then t1
        else if m < 32 then t1.set ⟨CE_SAT_LO, m, m⟩ 0 else t1.set ⟨CE_SAT_HI, m - 32, m - 32⟩ 0
      -- what a sequencer or a clear of EN has changed since stands
      t2.setSlot m { k with
        ts := u.kept.ts, inp := u.kept.inp, dedt := u.kept.dedt, held := u.kept.held, layer := u.kept.layer, work := u.kept.work
        zones := u.kept.zones, est := u.kept.est, estOk := u.kept.estOk, fresh := k.fresh || u.kept.fresh
        started := k.started && u.kept.started }
    else s
  (s1.set (CE_KST_W3_FE_CNT m) (if late then old else fe)).setSlot m
    { s1.slot m with feRaised := if late then u.kept.feRaised else k.feRaised }

/-- The slots from index `n` on did not finish their runs of this tick: they keep their previous outputs and states (R103). -/
def State.abandonFrom (s : State) (n : Nat) : State :=
  let s1 := { s with flt := { s.flt with slots := s.flt.slots.filter fun (m : Msg) => !(m.src == 0x002 && m.kind == 3 && decide (n ≤ m.arg)) } }
  s.ce.before.foldl (State.undoRun n) s1

/-! ### Trace units (R106 to R112) -/

/-- What a trace unit keeps beside its registers. -/
def State.trace (s : State) (n : Nat) : Trace := (s.ce.traces[n]?).getD {}

def State.setTrace (s : State) (n : Nat) (t : Trace) : State :=
  { s with ce := { s.ce with traces := s.ce.traces.setIfInBounds n t } }

/-- The class of a node is listed in Table: Trace node address (R108). -/
def nodeListed (node : Nat) : Bool := decide (bitsOf node 15 12 ≤ 8)

/-- A node whose value is an integer and not a stage value (R106).
DEDUCED (notes/assumptions/47.md, safe): the corrected servo ADC and the driven output are stage values. -/
def nodeInteger (node : Nat) : Bool :=
  let c := bitsOf node 15 12
  c == 1 || c == 6 || c == 7 || c == 8

/-- The 23 bits of a node's value (Table: Trace node address, R106), `outs` being the driven outputs at the boundary (R107). -/
def State.nodeValue (s : State) (x : Samples) (outs : List (Nat × Word)) (node : Nat) : Nat :=
  let c := bitsOf node 15 12
  let i := bitsOf node 11 6
  let e := bitsOf node 5 0
  (if c = 0 then (bfpWord (s.adcVal x i)).toNat
   else if c = 1 then rawAdc x i
   else if c = 2 then (((s.slot i).inp[e]?).getD 0).toNat
   else if c = 3 then
     (if e = 0 then (s.reg (CE_KST_W0 i)).toNat
      else if e = 1 then (s.reg (CE_KST_W1 i)).toNat
      else if e = 2 then (s.slot i).dedt.toNat
      else (bfpWord (if s.flag (CE_KST_W3_Q i) then 1 else -1)).toNat)
   else if c = 4 then
     (if s.get (CE_PAGE_TYPE i) = tySa then (((s.slot i).zones[e]?).getD 0).toNat
      else if e = 0 then (s.reg (CE_KST_W2 i)).toNat else 0)
   else if c = 5 then (sget (fun _ => (0 : Word)) outs i).toNat
   else if c = 6 then (if i < 2 then s.get (SPN_ANGLE_COUNT i) else 0)
   else if c = 7 then (if e = 0 then x.vbus.toNat else x.ibus.toNat)
   else s.tick) % 2 ^ 23

/-- The number a 23-bit node value stands for. -/
def nodeNumber (node v : Nat) : Rat :=
  if nodeInteger node then ((signedOf 23 v : Int) : Rat) else bfpVal (BitVec.ofNat 32 v)

/-- Unit `n` is ARMED and has taken its PRE samples. -/
def State.traceReady (s : State) (n : Nat) : Bool :=
  s.get (CE_TRC_STAT_STATE n) == 1 && decide (s.get (CE_TRC_PRE_PRE n) ≤ (s.trace n).samples.length)

/-- The condition of unit `n` holds in this tick (Table: Trigger conditions); `fuel` follows triggers of other units. The
messages of COND 0x6 are those collected at the boundary. -/
def State.triggered (s : State) (x : Samples) (outs : List (Nat × Word)) : Nat → Nat → Bool
  | 0, _ => false
  | fuel + 1, n =>
    let cond := s.get (CE_TRC_TRIG_COND n)
    let node := s.get (CE_TRC_TRIG_NODE n)
    let v := s.nodeValue x outs node
    let now := nodeNumber node v
    let level := nodeNumber node (s.get (CE_TRC_LEVEL_LEVEL n))
    let last := (s.trace n).last.map fun w => nodeNumber node w.toNat
    if cond = 1 then decide (level < now)
    else if cond = 2 then decide (now < level)
    else if cond = 3 then match last with
      | some l => decide (l < level) && decide (level ≤ now)
      | none => false
    else if cond = 4 then match last with
      | some l => decide (level < l) && decide (now ≤ level)
      | none => false
    else if cond = 5 then v &&& s.get (CE_TRC_MASK_MASK n) == s.get (CE_TRC_LEVEL_LEVEL n)
    else if cond = 6 then s.flt.due.any fun (m : Msg × Nat) => m.1.src == s.get (CE_TRC_TRIG_SRC n)
    else if cond = 7 then
      let o := bitsOf (s.get (CE_TRC_TRIG_SRC n)) 1 0
      (s.trace o).fired || (s.traceReady o && s.triggered x outs fuel o)
    else false

/-- The trigger of unit `n` is taken: it keeps the newest PRE samples and takes 16,384 - PRE more (R109). -/
def State.takeTrigger (s : State) (n : Nat) : State :=
  let t := s.trace n
  let pre := s.get (CE_TRC_PRE_PRE n)
  ((s.setTrace n { t with samples := t.samples.drop (t.samples.length - pre), left := 16384 - pre, fired := true }).set
    (CE_TRC_STAT_STATE n) 2).set (CE_TRC_STAT_TRIG_IDX n) pre

/-- One tick of trace unit `n`: a trigger that falls in it is taken, and a sample is taken every DECIM + 1 ticks while
ARMED or TRIGGERED (R107, R109). While ARMED only the newest 16,383 samples are kept.
DESIGN CHOICE (notes/assumptions/48.md, unsafe): after a trigger in a tick without a sample the next sample is the trigger sample. -/
def State.traceTick (x : Samples) (outs : List (Nat × Word)) (s : State) (e : Nat × Bool) : State :=
  let n := e.1
  let st := s.get (CE_TRC_STAT_STATE n)
  if st = 1 ∨ st = 2 then
    let s1 := if e.2 then s.takeTrigger n else s
    let t := s1.trace n
    let seen := some (BitVec.ofNat 32 (s.nodeValue x outs (s.get (CE_TRC_TRIG_NODE n))))
    if t.wait = 0 then
      let w : Word := BitVec.ofNat 32 (s.tick % 512 * 2 ^ 23 + s.nodeValue x outs (s.get (CE_TRC_NODE_NODE n)))
      if s1.get (CE_TRC_STAT_STATE n) = 2 then
        if t.left = 0 then s1
        else
          let t1 := { t with samples := t.samples ++ [w], wait := s.get (CE_TRC_CTL_DECIM n), left := t.left - 1 }
          s1.setTrace n { t1 with last := seen }
      else
        let kept := if t.samples.length < 16383 then t.samples else t.samples.drop 1
        s1.setTrace n { t with samples := kept ++ [w], wait := s.get (CE_TRC_CTL_DECIM n), last := seen }
    else s1.setTrace n { t with wait := t.wait - 1, last := seen }
  else s

/-- One tick of the trace units: the triggers of the tick are judged for all units before one is taken (COND 0x7). -/
def State.traceTicks (s : State) (x : Samples) (outs : List (Nat × Word)) : State :=
  let hits := (List.range 4).map fun n => (n, s.traceReady n && s.triggered x outs 4 n)
  let s1 := hits.foldl (State.traceTick x outs) s
  { s1 with ce := { s1.ce with traces := s1.ce.traces.map fun (t : Trace) => { t with fired := false } } }

/-- PTP time becomes valid or invalid (R63, R64): NET_PTP_STAT.VALID is the source of TICK_STAT.PTP_VALID. -/
def State.ptpValidity (s : State) (valid : Bool) : State :=
  let s0 := s.setFlag NET_PTP_STAT_VALID valid
  if valid then (s0.set TICK_STAT_PTP_VALID 1).set TICK_STAT_HOLDOVER 0
  else if s0.flag TICK_STAT_PTP_VALID then
    let s1 := ((s0.set TICK_STAT_PTP_VALID 0).set TICK_STAT_LOCKED 0).set TICK_STAT_HOLDOVER 1
    { s1 with ce := { s1.ce with lockRun := 0 } }.raise 0x001 1 0
  else s0

end Sys2Proof.Machine
end

