-- ==== Sys2Proof/Machine/AxOps.lean ====
section
/-!
DEFINITION. The profile units: the axes' moves, stops, homing and gearing (06_axes_and_picker.md, R261 to R284).
-/

namespace Sys2Proof.Machine

open Sys2Proof

/-- The state changed when a condition holds. -/
def State.when (s : State) (b : Bool) (f : State → State) : State := if b then f s else s

/-- An element of a list, or a default. -/
def nth {α : Type} (l : List α) (i : Nat) (d : α) : α := (l[i]?).getD d

/-! ### The results of an order (Table of OPU_CMD_STAT, AX_RES, SPN_CMD_STAT and MAG_CMD_STAT) -/

abbrev resDone : Nat := 0
abbrev resRunning : Nat := 1
abbrev resRefusedMode : Nat := 2
abbrev resRefusedState : Nat := 3
abbrev resFailed : Nat := 4
abbrev resAborted : Nat := 5
abbrev resRefusedParam : Nat := 6

/-! ### Axes -/

abbrev axDisabled : Nat := 0
abbrev axIdle : Nat := 1
abbrev axMoving : Nat := 2
abbrev axHoming : Nat := 3
abbrev axGeared : Nat := 4
abbrev axStopping : Nat := 5

/-- What an axis keeps beside its registers. -/
def State.axOf (s : State) (a : Nat) : AxSt := (s.ax[a]?).getD {}

def State.setAx (s : State) (a : Nat) (k : AxSt) : State := { s with ax := s.ax.setIfInBounds a k }

def State.modAx (s : State) (a : Nat) (f : AxSt → AxSt) : State := s.setAx a (f (s.axOf a))

def State.axState (s : State) (a : Nat) : Nat := s.get (AX_STAT_STATE a)

def State.axHomed (s : State) (a : Nat) : Bool := s.flag (AX_STAT_HOMED a)

/-- The axis is in motion. -/
def State.axInMotion (s : State) (a : Nat) : Bool :=
  s.axState a == axMoving || s.axState a == axHoming || s.axState a == axStopping

/-- The commanded position as AX_POS holds it. -/
def State.axPos (s : State) (a : Nat) : Int := s.getInt (AX_POS_POS a)

/-- An axis at a position, standing: AX_POS, AX_VEL and the exact values agree. -/
def State.axStandAt (s : State) (a : Nat) (x : Int) : State :=
  ((s.modAx a fun k => { k with x := (x : Rat), v := 0, dest := none, cap := none, since := s.tick }).setInt
    (AX_POS_POS a) x).set (AX_VEL_VEL a) 0

/-- An order to an axis is taken: SEQ rises, OP and RESULT are shown. -/
def State.axReport (s : State) (a op result : Nat) : State :=
  (((s.incWrap (AX_RES_SEQ a)).set (AX_RES_OP a) op).set (AX_RES_RESULT a) result).modAx a fun k =>
    { k with running := decide (result = resRunning) }

/-- The order in progress ends with a result. -/
def State.axResult (s : State) (a result : Nat) : State :=
  if (s.axOf a).running then (s.set (AX_RES_RESULT a) result).modAx a fun k => { k with running := false } else s

abbrev opStart : Nat := 1
abbrev opStop : Nat := 2
abbrev opEstop : Nat := 3
abbrev opHome : Nat := 4
abbrev opPark : Nat := 5
abbrev opMode : Nat := 6

/-- The profile words an axis would take for a new move: VSS, VBM, ACC, DEC, EDEC. -/
def State.axWords (s : State) (a : Nat) : List Word :=
  [s.reg (AX_VSS a), s.reg (AX_VBM a), s.reg (AX_ACC a), s.reg (AX_DEC a), s.reg (AX_EDEC a)]

/-- The parameters of a START, HOME or PARK are refused (R267). -/
def State.axBadParam (s : State) (a : Nat) (target : Int) : Bool :=
  decide (s.get (AX_VBM_V_BREAK a) < s.get (AX_VSS_V_START a)) ||
  decide (s.get (AX_VBM_V_BREAK a) < s.get (AX_VSS_V_STOP a)) ||
  decide (s.get (AX_VBM_VMAX a) < s.get (AX_VBM_V_BREAK a)) ||
  s.get (AX_ACC_ACC_1 a) == 0 || s.get (AX_ACC_ACC_2 a) == 0 || s.get (AX_DEC_DEC_1 a) == 0 ||
  s.get (AX_DEC_DEC_2 a) == 0 || s.get (AX_EDEC_EMERG_DEC a) == 0 ||
  decide (target < s.getInt (AX_SLIM_LO_LIM a)) || decide (s.getInt (AX_SLIM_HI_LIM a) < target)

/-- A field of a profile word. -/
def profField (p : List Word) (i hi lo : Nat) : Rat := ((bitsOf (nth p i 0).toNat hi lo : Nat) : Rat)

/-- The distance in microsteps that braking from a speed takes: DEC_2 down to V_BREAK, then DEC_1 down to V_STOP, or
EMERG_DEC throughout (R266). Accelerations are in units of 16 full steps per s². -/
def brakeDistance (p : List Word) (emerg : Bool) (v : Rat) : Rat :=
  let vs := profField p 0 31 16
  let vb := profField p 1 15 0
  let d1 := 16 * profField p 3 15 0
  let d2 := 16 * profField p 3 31 16
  let de := 16 * profField p 4 15 0
  if v ≤ vs then 0
  else if emerg then 256 * ((v * v - vs * vs) / (2 * de))
  else if v ≤ vb then 256 * ((v * v - vs * vs) / (2 * d1))
  else 256 * ((v * v - vb * vb) / (2 * d2) + (vb * vb - vs * vs) / (2 * d1))

/-- Absolute value and sign of a rational. -/
def ratAbs (q : Rat) : Rat := if q < 0 then -q else q
def ratSign (q : Rat) : Rat := if q < 0 then -1 else if 0 < q then 1 else 0

/-- Seconds of a tick: 2.0 µs (R15). -/
def tickSeconds : Rat := 1 / 500000

/-- The speed that one tick of the profile's deceleration takes off at a positive speed: DEC_2 above V_BREAK, else DEC_1. -/
def decTick (p : List Word) (v : Rat) : Rat :=
  16 * (if profField p 1 15 0 < v then profField p 3 31 16 else profField p 3 15 0) * tickSeconds

/-- The speed after one tick of braking from a positive speed, with EMERG_DEC, with DEC_1 throughout or by the profile; at
V_STOP or below the axis stands. -/
def brakeStep (p : List Word) (emerg first : Bool) (v : Rat) : Rat :=
  let vs := profField p 0 31 16
  let dec := if emerg then 16 * profField p 4 15 0 * tickSeconds
    else if first then 16 * profField p 3 15 0 * tickSeconds else decTick p v
  let w := v - dec
  if w ≤ vs then vs else w

/-- The speed after one tick of acceleration from a positive speed, limited to `top`; from a speed above it the profile's
deceleration leads down to it (R270). -/
def accelStep (p : List Word) (top v : Rat) : Rat :=
  let v0 := profField p 0 15 0
  let vb := profField p 1 15 0
  let acc := if v < vb then profField p 2 15 0 else profField p 2 31 16
  if top < v then (if top < v - decTick p v then v - decTick p v else top)
  else
    let w := if v < v0 then v0 else v + 16 * acc * tickSeconds
    if top < w then top else w

/-- Microsteps travelled in a tick at a speed. -/
def travel (v : Rat) : Rat := 256 * v * tickSeconds

/-- One tick of a move, a stop or a homing step: the new position and speed (R266, R270, R271, R282). -/
def profileStep (k : AxSt) (stopping : Bool) (dir : Rat) : Rat × Rat :=
  let p := k.prof
  let speed := ratAbs k.v
  let vs := profField p 0 31 16
  let top := match k.cap with
    | some c => ((c : Nat) : Rat)
    | none => profField p 1 31 16
  if stopping then
    if speed ≤ vs then (k.x, 0)
    else
      let w := brakeStep p k.emerg (k.home == .stopping) speed
      (k.x + ratSign k.v * travel w, ratSign k.v * w)
  else match k.dest with
    | none =>
      let w := accelStep p top speed
      (k.x + dir * travel w, dir * w)
    | some d =>
      let rem := (d : Rat) - k.x
      if rem = 0 ∧ speed ≤ vs then (k.x, 0)
      else if k.v ≠ 0 ∧ ratSign k.v ≠ ratSign rem then
        -- behind the axis: stop, then move back (R271)
        if speed ≤ vs then (k.x, 0)
        else
          let w := brakeStep p false false speed
          (k.x + ratSign k.v * travel w, ratSign k.v * w)
      else
        let w := if ratAbs rem ≤ brakeDistance p false speed + travel speed then brakeStep p false false speed
          else accelStep p top speed
        if ratAbs rem ≤ travel w then ((d : Rat), 0)
        else (k.x + ratSign rem * travel w, ratSign rem * w)

/-- An axis starts a position move, or is retargeted (R266, R271). A standing axis takes the profile words as they stand
and DEC_HELD clears. -/
def State.axMove (s : State) (a : Nat) (dest : Int) : State :=
  let p := if s.axInMotion a then (s.axOf a).prof else s.axWords a
  (((s.modAx a fun k =>
    { k with dest := some dest, prof := p, cap := none, emerg := false, home := .no, offAfter := false, line := none, since := s.tick, wake := s.flag (AX_STAT_DETENT a) }).set
    (AX_STAT_STATE a) axMoving).set (AX_STAT_DETENT a) 0).when (!s.axInMotion a) fun t => t.set (AX_STAT_DEC_HELD a) 0

/-- An axis stops with its deceleration values or with EMERG_DEC; a standing one stays where it is. -/
def State.axHalt (s : State) (a : Nat) (emerg : Bool) : State :=
  if s.axInMotion a then
    (s.modAx a fun k => { k with dest := none, emerg := emerg || k.emerg, home := .no, coarse := false, line := none }).set
      (AX_STAT_STATE a) axStopping
  else if s.axState a = axGeared then
    ((s.modAx a fun k => { k with prof := s.axWords a, emerg := emerg, coarse := false }).set (AX_STAT_STATE a)
      axStopping).set (AX_CTL_MODE a) 0
  else s

/-- The bridge of an axis is switched off. -/
def State.axOff (s : State) (a : Nat) : State :=
  (((s.modAx a fun k => { k with v := 0, dest := none, home := .no, phases := .off, offAfter := false, coarse := false, line := none }).set
    (AX_STAT_STATE a) axDisabled).set (AX_STAT_STRONG a) 0).set (AX_VEL_VEL a) 0

/-- An enabled axis that no trip keeps off is switched on, or its stop no longer ends in switching it off. -/
def State.axOn (s : State) (a : Nat) : State :=
  if s.flag (AX_CTL_ENABLE a) = false ∨ s.flag (AX_STAT_CHATTER a) = true ∨ (s.axOf a).blown = true then s
  else if s.axState a = axDisabled then (s.modAx a fun k => { k with since := s.tick }).set (AX_STAT_STATE a) axIdle
  else s.modAx a fun k => { k with offAfter := false }

/-- An axis stops and its bridge is switched off at standstill. -/
def State.axHaltOff (s : State) (a : Nat) (emerg : Bool) : State :=
  if s.axInMotion a ∨ s.axState a = axGeared then (s.axHalt a emerg).modAx a fun k => { k with offAfter := true }
  else s.axOff a

/-- HOME_DIR as a sign. -/
def State.homeDir (s : State) (a : Nat) : Rat := if s.flag (AX_HOME_CFG_DIR a) then -1 else 1

/-- The direction of the homing step in progress. -/
def State.homingDir (s : State) (a : Nat) : Rat :=
  match (s.axOf a).home with
  | .search => if (s.axOf a).rev then -(s.homeDir a) else s.homeDir a
  | .clearing => -(s.homeDir a)
  | .backing => -(s.homeDir a)
  | _ => s.homeDir a

/-- The end switch in a direction is active. -/
def State.endActive (s : State) (a : Nat) (dir : Rat) : Bool :=
  if 0 < dir then s.flag (AX_STAT_LIM_POS a) else s.flag (AX_STAT_LIM_NEG a)

/-- Where a search begins: it is over at once where HOME is active already.
DEDUCED (notes/assumptions/26.md, unsafe). -/
def State.homeSearch (s : State) (a : Nat) : HomeAt := if s.flag (AX_STAT_HOME_SW a) then .stopping else .search

/-- Homing starts with the search (R282); HOME_REV clears (R283). An axis that stands on its end in HOME_DIR searches the other
way at once.
DEDUCED (notes/assumptions/26.md, unsafe). -/
def State.axHomeStart (s : State) (a : Nat) : State :=
  let atEnd := s.endActive a (s.homeDir a)
  (((s.modAx a fun k =>
    { k with home := s.homeSearch a, rev := atEnd, dest := none, cap := some (s.get (AX_HOME_CFG_HOME_V a)), emerg := false, prof := s.axWords a, offAfter := false, line := none, since := s.tick, wake := s.flag (AX_STAT_DETENT a) }).set
    (AX_STAT_STATE a) axHoming).setFlag (AX_STAT_HOME_REV a) atEnd).set (AX_STAT_DETENT a) 0

/-- A homing step after the search runs at HOME_VS, to a distance where one is given. -/
def State.homeStep (s : State) (a : Nat) (at_ : HomeAt) (dest : Option Int) : State :=
  (s.modAx a fun k =>
    { k with home := at_, dest := dest, cap := some (s.get (AX_HOME_CFG_HOME_VS a)), emerg := false }).set
    (AX_STAT_STATE a) axHoming

/-- What is kept of a switch input: 0 HOME, 1 EOT_NEG, 2 EOT_POS. -/
def AxSt.switch (k : AxSt) (i : Nat) : SwitchSt := (k.sw[i]?).getD {}

/-- Raw transitions of an input within the last 4,096 ticks (R280). -/
def State.transOf (s : State) (a i : Nat) : Nat := ((((s.axOf a).switch i).edges).filter fun t => decide (s.tick < t + 4096)).length

/-- The raw levels of the inputs at a boundary: an edge is noted with its tick and position, and TRANS shows the busiest input
(R280). -/
def State.switchTick (x : Samples) (s : State) (a : Nat) : State :=
  match x.switches[a]? with
  | none => s
  | some w =>
    let level (i : Nat) : Bool := w.toNat.testBit i == (s.get (AX_LIM_CFG_POL a)).testBit i
    let one (k : AxSt) (i : Nat) : AxSt :=
      if (k.switch i).raw = level i then k
      else { k with sw := k.sw.setIfInBounds i { raw := level i, at_ := s.tick, x := k.x, edges := s.tick :: ((k.switch i).edges.filter fun t => decide (s.tick < t + 4096)) } }
    let s1 := s.modAx a fun k => one (one (one k 0) 1) 2
    let bit (i : Nat) : Nat := if ((s1.axOf a).switch i).raw then 2 ^ i else 0
    (s1.set (AX_SW_RAW a) (bit 0 + bit 1 + bit 2)).set (AX_SW_TRANS a)
      (min 255 (max (s1.transOf a 0) (max (s1.transOf a 1) (s1.transOf a 2))))

/-- The last step of homing: the raw edge gives the position, corrected for the travel since (R282). -/
def State.homeReference (s : State) (a : Nat) : State :=
  let x := s.getInt (AX_HOME_POS_HOME_POS a) + ((s.axOf a).x - ((s.axOf a).switch 0).x).floor
  ((((s.axStandAt a x).modAx a fun k => { k with home := .no, rev := false, tripped := none }).set (AX_STAT_HOMED a)
    1).set (AX_STAT_STATE a) axIdle).axResult a resDone

/-- The goal value of the gearing (R273): the gear target in microsteps. -/
def State.gearValue (s : State) (a : Nat) : Rat :=
  (s.axOf a).gearBase + ((s.getInt (AX_GEAR_RATIO_RATIO a) : Rat) * ((s.axOf a).gearD : Rat)) / (65536 * 131072)

/-- Gearing starts at the present position (R273). -/
def State.axGear (s : State) (a : Nat) : State :=
  let c := s.get (SPN_ANGLE_COUNT (a / 2))
  (((s.modAx a fun k =>
    { k with gearBase := k.x, gearD := 0, gearLast := c, dest := none, cap := none, coarse := false, wake := s.flag (AX_STAT_DETENT a) }).set
    (AX_STAT_STATE a) axGeared).set (AX_CTL_MODE a) 1).set (AX_STAT_DETENT a) 0

/-- gear_base takes the present gear value, so that the gear target is continuous (R274). -/
def State.gearRebase (s : State) (a : Nat) : State :=
  s.modAx a fun k => { k with gearBase := s.gearValue a, gearD := 0 }

/-- The change of a 17-bit count, unwrapped to the nearer side. -/
def countDelta (old new : Nat) : Int :=
  let d := (new + 131072 - old) % 131072
  if d < 65536 then (d : Int) else (d : Int) - 131072

/-- The sled is asked to park: it leaves GEARED and moves to AX_SLIM_LO (R137, R275). A sled that is not HOMED has no
position to park at and stays. -/
def State.sledPark (s : State) (n : Nat) : State :=
  if s.axState n = axDisabled ∨ s.axHomed n = false then s
  else (s.set (AX_CTL_MODE n) 0).axMove n (s.getInt (AX_SLIM_LO_LIM n))

/-- A sled stands at its park position. -/
def State.sledParked (s : State) (n : Nat) : Bool :=
  s.axHomed n && s.axState n == axIdle && s.axPos n == s.getInt (AX_SLIM_LO_LIM n)

/-- A latched profile write is applied at the boundary, or its deceleration words are held for the next move (R268 to
R270). -/
def State.axLatch (s : State) (a : Nat) : State :=
  let k := s.axOf a
  if !k.latched then s
  else
    let new := s.axWords a
    let rem := match k.dest with
      | some d => ratAbs ((d : Rat) - k.x)
      | none => brakeDistance k.prof false (ratAbs k.v)
    let old := brakeDistance k.prof false (ratAbs k.v)
    let braking := decide (rem ≤ old + travel (ratAbs k.v))
    let fits := decide (brakeDistance new false (ratAbs k.v) ≤ old) || decide (brakeDistance new false (ratAbs k.v) ≤ rem)
    let changes := nth new 3 0 != nth k.prof 3 0 ||
      bitsOf (nth new 0 0).toNat 31 16 != bitsOf (nth k.prof 0 0).toNat 31 16
    if braking && changes && !fits then
      (s.modAx a fun k => { k with latched := false }).set (AX_STAT_DEC_HELD a) 1
    else s.modAx a fun k => { k with latched := false, prof := new }

/-- Strong mode of an axis by its speed (R264, R265). -/
def State.axStrong (s : State) (a : Nat) : State :=
  let v := ratAbs (s.axOf a).v
  let sw : Rat := ((s.get (AX_CUR_SW_V a) : Nat) : Rat)
  let force := s.get (AX_CUR_FORCE a)
  if s.axState a = axDisabled ∨ s.flag (AX_STAT_DETENT a) = true then s
  else if force = 1 then s.set (AX_STAT_STRONG a) 0
  else if force = 2 ∨ v = 0 ∨ sw < v then s.set (AX_STAT_STRONG a) 1
  else if v < sw * (100 - ((s.get (AX_CUR_HYS a) : Nat) : Rat)) / 100 then s.set (AX_STAT_STRONG a) 0
  else s

/-- One tick of an axis (R31, R266, R273). -/
def State.axTick (x : Samples) (s0 : State) (a : Nat) : State :=
  let s := (State.switchTick x s0 a).axLatch a
  let st := s.axState a
  let k := s.axOf a
  let put (t : State) (r : Rat × Rat) : State :=
    (((t.modAx a fun q => { q with x := r.1, v := r.2, since := if r.2 = 0 ∧ q.v ≠ 0 then t.tick else q.since }).setInt
      (AX_POS_POS a) r.1.floor).setInt (AX_VEL_VEL a) (16 * r.2).floor).axStrong a
  if k.wake then (s.modAx a fun q => { q with wake := false }).axStrong a
  else if k.line.isSome ∧ st = axMoving then s
  else if st = axMoving ∨ st = axHoming then
    put s (profileStep k (k.home == .stopping || k.home == .turning) (s.homingDir a))
  else if st = axStopping then put s (profileStep k true 1)
  else if st = axGeared then
    let c := ((x.encoder[a / 2]?).getD 0).toNat
    let s1 := s.modAx a fun k => { k with gearD := k.gearD + countDelta k.gearLast c, gearLast := c }
    let gear := s1.gearValue a
    let goal := gear + bfpVal (sget (fun _ => (0 : Word)) s1.ce.outs (0x28 + a))
    let want := (goal - k.x) / (256 * tickSeconds)
    let acc := 16 * ((s1.get (AX_ACC_ACC_1 a) : Nat) : Rat) * tickSeconds
    let top : Rat := ((s1.get (AX_VBM_VMAX a) : Nat) : Rat)
    let v := clampRat (-top) top (clampRat (k.v - acc) (k.v + acc) want)
    let s2 := put s1 (k.x + travel v, v)
    let lens := (s2.getInt (OPU_LENS_OFFS a) : Rat) / 100 / (5859 / 10000)
    s2.modAx a fun k => { k with err := bfpWord ((gear + lens - k.x) * (5859 / 10000)) }
  else s.axStrong a

/-- The phases of an axis's bridge (R264): sine microstepping at an amplitude of RUN times the winding resistance of the board descriptor,
over VBUS, or chopped current at RUN; a disabled axis and one in detent are off.
PRESUMED (notes/assumptions/61.md, unsafe): four full steps are one electrical period, phase B a quarter of it behind phase A. -/
def State.stepperTick (s : State) (a : Nat) : State :=
  let k := s.axOf a
  let angle := 360 * (k.x / 1024)
  let run : Rat := ((s.get (AX_CUR_RUN a) : Nat) : Rat) / 100
  let ohm : Rat := (((boardValue s.sys.board 0x0030 a).elim 0 fun v => fieldAt v 8 2 : Nat) : Rat) / 1000
  let two (i : Rat) (f : Rat → Rat → PhaseDrive) : PhaseDrive := f (i * Config.sine (angle + 90)) (i * Config.sine angle)
  let p : PhaseDrive := if s.axState a = axDisabled ∨ s.flag (AX_STAT_DETENT a) = true then .off
    else if s.flag (AX_STAT_STRONG a) then two run .strong
    else two (run * ohm / (((s.get PWR_VBUS_VBUS : Nat) : Rat) / 10)) .quiet
  s.modAx a fun q => { q with phases := p }

/-- The following axis of a MOVE_ZX takes the place on the line that the leader's travel gives, at the leader's speed scaled by the
ratio of the distances (R277). -/
def State.followTick (s : State) (a : Nat) : State :=
  match (s.axOf a).line with
  | some l =>
    if s.axState a = axMoving then
      let q := s.axOf l.lead
      let x := l.start + l.ratio * (q.x - l.leadStart)
      let v := l.ratio * q.v
      (((s.modAx a fun k => { k with x := x, v := v, since := if v = 0 ∧ k.v ≠ 0 then s.tick else k.since }).setInt (AX_POS_POS a)
        x.floor).setInt (AX_VEL_VEL a) (16 * v).floor).axStrong a
    else s
  | none => s

/-- The motion of an axis is over: it stands on its target, or where its stop has ended. -/
def State.axAtRest (s : State) (a : Nat) : Bool :=
  let k := s.axOf a
  decide (k.v = 0) && !k.wake && (
    if s.axState a = axStopping then true
    else if s.axState a = axHoming then k.home == .stopping || k.home == .turning || (k.home == .backing && k.dest.any fun d => decide (k.x = (d : Rat)))
    else k.dest.any fun d => decide (k.x = (d : Rat)))

/-- A gearing ratio written while GEARED applies with gear_base reset for continuity (AX_GEAR_RATIO). -/
def State.writeRatio (s : State) (a : Nat) (v : Word) : State :=
  if s.axState a = axGeared then (s.gearRebase a).setReg (AX_GEAR_RATIO a) v else s.setReg (AX_GEAR_RATIO a) v

/-- The move in progress ends on its target, or the stop ends where the axis stands (R266). -/
def State.axArrive (s : State) (a : Nat) : State :=
  let k := s.axOf a
  match k.home with
  | .no =>
    let s1 := (s.axStandAt a (match k.dest with
      | some d => if s.axState a = axStopping then s.axPos a else d
      | none => s.axPos a)).modAx a fun q => { q with since := k.since, line := none }
    let s2 := ((s1.set (AX_STAT_LEAD a) 0).set (AX_STAT_INTERP a) 0).axResult a resDone
    if k.offAfter then s2.axOff a
    else if k.coarse then s2.axGear a
    else (s2.modAx a fun k => { k with emerg := false, latched := false }).set (AX_STAT_STATE a) axIdle
  | .stopping =>
    let s1 := s.axStandAt a (s.axPos a)
    let s2 := s1.modAx a fun k => { k with prof := s.axWords a }
    if s.flag (AX_STAT_HOME_SW a) ∨ k.rev = false then s2.homeStep a .clearing none
    else s2.homeStep a .backing (some (s.axPos a - (s.homeDir a).floor * 256 * s.get (AX_HOME_CFG_BACK a)))
  | .turning =>
    (((s.axStandAt a (s.axPos a)).modAx a fun q => { q with home := s.homeSearch a, cap := some (s.get (AX_HOME_CFG_HOME_V a)), emerg := false, prof := s.axWords a }).set
      (AX_STAT_STATE a) axHoming).set (AX_STAT_HOME_REV a) 1
  | .backing => (s.axStandAt a (k.dest.getD (s.axPos a))).homeStep a .approach none
  | _ => s

/-- An axis loses its reference. -/
def State.axLoseHome (s : State) (a : Nat) : State := s.set (AX_STAT_HOMED a) 0

end Sys2Proof.Machine
end

