-- ==== Sys2Proof/Machine/PuOps.lean ====
section
/-!
DEFINITION. The pickups: states, lasers, write gate and inhibit, the sequences of the OPU and its work at a tick boundary
(03_optical_servo.md).
DEDUCED (notes/assumptions/24.md, unsafe): Pickup sequences: layer jump ends on the current turn, a seek may start from TRACKING or FOCUSED, a wrong layer on the last attempt reports OUTCOME 4 and re-acquires.
-/

namespace Sys2Proof.Machine

open Sys2Proof

/-- The states of a pickup (OPU_STAT.STATE). -/
abbrev puOff : Nat := 0
abbrev puParked : Nat := 1
abbrev puAcqFocus : Nat := 2
abbrev puFocused : Nat := 3
abbrev puAcqTrack : Nat := 4
abbrev puTracking : Nat := 5
abbrev puLayerJump : Nat := 6
abbrev puSeek : Nat := 7
abbrev puReacq : Nat := 8
abbrev puUnusable : Nat := 9

/-- What the OPU of a pickup keeps beside its registers. -/
def State.puOf (s : State) (n : Nat) : PuSt := (s.pu[n]?).getD {}

def State.setPu (s : State) (n : Nat) (k : PuSt) : State := { s with pu := s.pu.setIfInBounds n k }

def State.modPu (s : State) (n : Nat) (f : PuSt → PuSt) : State := s.setPu n (f (s.puOf n))

def State.puState (s : State) (n : Nat) : Nat := s.get (OPU_STAT_STATE n)

/-- A fault of the OPU of pickup `n`. -/
def State.puFault (s : State) (n kind arg : Nat) : State := s.raise (0x010 + n) kind arg

/-- Output IDs of a pickup's roles (R117). -/
abbrev outFocus (n : Nat) : Nat := 3 * n
abbrev outTrack (n : Nat) : Nat := 3 * n + 1
abbrev outTilt (n : Nat) : Nat := 3 * n + 2
abbrev outRead (n : Nat) : Nat := 0x18 + n
abbrev outSa (n : Nat) : Nat := 0x20 + n

/-- Encoder speed of station `st` in 0.125 rpm. -/
def State.speedOf (s : State) (st : Nat) : Nat := s.get (SPN_SPEED_MEAS st)

/-- The lasers allowed by state and speed (R136): the read laser in ACQ_FOCUS to REACQ at 4,000 rpm or more, the write
laser in TRACKING in write mode within 0.5% of 5,400 rpm. -/
def State.lasers (s : State) (n : Nat) : State :=
  let st := s.puState n
  let v := s.speedOf (n / 2)
  (s.setFlag (OPU_LASER_STAT_RD_ON n) (decide (puAcqFocus ≤ st ∧ st ≤ puReacq ∧ 32000 ≤ v))).setFlag
    (OPU_LASER_STAT_WR_ON n)
    (decide (st = puTracking ∧ s.flag (OPU_STAT_WRITE_MODE n) = true ∧ 42984 ≤ v ∧ v ≤ 43416))

/-- The pickup reads in single-spot mode (R202). -/
def State.singleMode (s : State) (n : Nat) : Bool := s.flag (CHN_SPOT_CTL_SINGLE (4 * n))

/-- The previous-turn decisions of a pickup become invalid: at a layer jump, a seek, a skipped spiral jump and the start of a read
(R189). -/
def State.prevLost (s : State) (n : Nat) : State :=
  { s with chn := { s.chn with prev := s.chn.prev.setIfInBounds n [] } }

/-- The write gate drops at a tick boundary or on entry to a state; a frame in progress is marked for rewrite (R154). -/
def State.dropGate (s : State) (n : Nat) : State :=
  (s.when (s.flag (OPU_STAT_GATE n)) fun t => t.modPu n fun k => { k with rewriteMark := true, dropAt := s.tick }).set (OPU_STAT_GATE n) 0

/-- Supervision and holds that a sequence asserts toward the focus and tracking slots are released. -/
def State.releaseSlots (s : State) (n : Nat) : State :=
  (s.withOut (outFocus n) fun k => { k with seqMask := false }).withOut (outTrack n) fun k =>
    { k with seqMask := false, seqHold := false, seqSp := 0 }

/-- OPU_LAYER.CUR takes a layer (R119): ON_LAYER clears and no spot has read a valid field of it yet. -/
def State.setCur (s : State) (n layer : Nat) : State :=
  (((((s.set (OPU_LAYER_CUR n) layer).set (OPU_STAT_ON_LAYER n) 0).set (OPU_SPOT_POS_VALID n 0) 0).set
    (OPU_SPOT_POS_VALID n 1) 0).set (OPU_SPOT_POS_VALID n 2) 0).set (OPU_SPOT_POS_VALID n 3) 0

/-- OPU_LAYER.SA takes a layer; a change of it clears SA_READY (R120, R121). -/
def State.setSa (s : State) (n layer : Nat) : State :=
  if s.get (OPU_LAYER_SA n) = layer then s
  else ((s.set (OPU_LAYER_SA n) layer).set (OPU_STAT_SA_READY n) 0).modPu n fun k => { k with saSince := none }

/-- The running sequence ends: a commanded one reports its result; what it asserted is released, and of a change of mode that has not
taken effect the sled's armed ratio too (R133). -/
def State.endOp (s : State) (n result : Nat) : State :=
  let s1 := s.when ((s.puOf n).byCmd && s.get (OPU_CMD_STAT_RESULT n) == resRunning) fun t =>
    t.set (OPU_CMD_STAT_RESULT n) result
  let s2 := s1.when (s.puOf n).modeNext.isSome fun t => t.set (AX_GEAR_AT_ARM n) 0
  (s2.releaseSlots n).modPu n fun k =>
    { k with op := none, byCmd := false, captured := false, confirmed := false, thenJump := none, acqJump := false, spTo := 0, spAt := 0, spV := 0, gatesClosed := false, tries := 0, seeks := 0, sledWait := false, modeNext := none, localFails := 0, full := false, peaks := 0 }

/-- What entry to PARKED, OFF or UNUSABLE does (R137); at PARKED, CUR becomes 0 (R119). -/
def State.puRest (s : State) (n st : Nat) : State :=
  let s1 := (s.dropGate n).set (OPU_STAT_STATE n) st
  let s2 := (((s1.clearOut (outFocus n)).clearOut (outTrack n)).clearOut (outTilt n)).clearOut (outRead n)
  let s3 := (((s2.set (OPU_STAT_WRITE_READY n) 0).set (OPU_STAT_ON_LAYER n) 0).set (OPU_STAT_HOLD n) 0).sledPark n
  (s3.when (decide (st = puParked)) fun t => t.setCur n 0).lasers n

/-- The pickup becomes UNUSABLE. -/
def State.puFail (s : State) (n : Nat) : State := (s.endOp n resFailed).puRest n puUnusable

/-- A pickup not UNUSABLE goes to OFF (R134). -/
def State.puTurnOff (s : State) (n : Nat) : State :=
  if s.puState n = puUnusable then s else (s.endOp n resAborted).puRest n puOff

/-- A pickup not UNUSABLE and not OFF parks. -/
def State.puPark (s : State) (n result : Nat) : State :=
  if s.puState n = puUnusable ∨ s.puState n = puOff then s else (s.endOp n result).puRest n puParked

/-- The pickup enters REACQ (R125, R146, R150, R152): the re-acquisition is counted, the running sequence fails, the focus slot is
disabled and the local ramp of the focus coil begins (R153). -/
def State.enterReacq (s : State) (n : Nat) : State :=
  let turn := s.get (OPU_SPIRAL_TURN n)
  ((((s.endOp n resFailed).set (OPU_STAT_STATE n) puReacq).addSat (OPU_DEF_STAT_REACQ n) 1).clearOut (outFocus n)).modPu n
    (fun k => { k with op := some .reacq, turn := turn, miss := Vector.replicate 4 0, hold := 0, fields := 0, rampAt := s.tick, heldI := bfpVal (sget (fun _ => (0 : Word)) s.ce.outs (outFocus n)) }) |>.lasers n

/-! ### Write inhibit (R155 to R157) -/

/-- The cause bits in the order of OPU_WI_STAT.CAUSE. -/
abbrev wiPesA : Nat := 1
abbrev wiPesF : Nat := 2
abbrev wiShockX : Nat := 4
abbrev wiShockY : Nat := 8
abbrev wiLink : Nat := 16
abbrev wiSoft : Nat := 32

/-- The millivolts of a shock sensor input beyond its output at 0 g, against WI_SHOCK in 0.01 g by the sensitivity of the board
descriptor (R155, R510); a descriptor without the values gives no conversion and no condition. -/
def State.shockTrips (s : State) (n axis : Nat) (mv : Rat) : Bool := match boardValue s.sys.board 0x0040 0 with
  | some v => decide (((fieldAt v (2 * axis) 2 * s.get (OPU_WI_CFG_SHOCK n) : Nat) : Rat) / 100 < ratAbs (mv - ((fieldAt v (4 + 2 * axis) 2 : Nat) : Rat)))
  | none => false

/-- The causes of a push-pull difference, in the units of PES_A's threshold, and of the shock inputs in mV (Table: Write inhibit
causes). -/
def State.wiCauses (s : State) (n : Nat) (pp shockX shockY : Rat) : Nat :=
  (if (s.puOf n).pesDac < ratAbs pp then wiPesA else 0) + (if s.shockTrips n 0 shockX then wiShockX else 0) +
    (if s.shockTrips n 1 shockY then wiShockY else 0)

/-- An inhibit condition of the given causes: a raised gate drops, with everything R156 lists; a gate that is down only
clears WRITE_READY. More than REP_MAX drops in a revolution raise WI_REPEAT (R157).
DESIGN CHOICE (notes/assumptions/50.md, unsafe): a revolution begins at field 0 of spot 0 while TRACKING. -/
def State.inhibit (s : State) (n causes : Nat) : State :=
  let s1 := ((s.set (OPU_STAT_WI_ACTIVE n) 1).set (OPU_STAT_WRITE_READY n) 0).modPu n fun k =>
    { k with inhibit := k.inhibit ||| causes, clearSince := s.tick }
  if s.flag (OPU_STAT_GATE n) then
    let drops := (s.puOf n).drops + 1
    let s2 := ((((s1.dropGate n).modPu n fun k => { k with drops := drops }).set (OPU_WI_STAT_CAUSE n) causes).addSat
      (OPU_WI_STAT_COUNT n) 1).setReg (OPU_WI_TS n) (BitVec.ofNat 32 s.tick)
    ((s2.capture evWriteDrop 0 (BitVec.ofNat 32 (n + 256 * causes))).puFault n 0x0A causes).when
      (drops == s.get (OPU_WI_CFG_REP_MAX n) + 1) fun t => t.puFault n 0x0B drops
  else s1

/-! ### Sequences -/

/-- The rules that every sequence asks of the pickup's slots (R117, R118). -/
def State.slotsReady (s : State) (n : Nat) : Bool :=
  match s.slotOf (outFocus n), s.slotOf (outTrack n), s.slotOf (outTilt n) with
  | some f, some t, some l =>
    s.get (CE_PAGE_SP_SRC f) == 1 && s.get (CE_PAGE_SP_SRC t) == 1 && s.flag (CE_PAGE_HOLD_EN f) &&
      s.flag (CE_PAGE_HOLD_EN t) && s.flag (CE_PAGE_HOLD_EN l)
  | _, _, _ => false

/-- The slots an acquisition needs beside those (R117). -/
def State.acqSlots (s : State) (n : Nat) : Bool :=
  s.slotsReady n && (s.slotOf (outRead n)).isSome && (s.slotOf (outSa n)).isSome

/-- The slots a layer jump needs. -/
def State.jumpSlots (s : State) (n : Nat) : Bool := s.slotsReady n && (s.slotOf (outSa n)).isSome

/-- A focus acquisition starts (R120, steps 1 and 2). -/
def State.startAcquire (s : State) (n layer turn : Nat) (byCmd : Bool) : State :=
  let s1 := (((s.set (OPU_STAT_STATE n) puAcqFocus).set (OPU_LAYER_TARGET n) layer).setSa n layer).enableOut (outRead n)
  (s1.modPu n fun k =>
    { k with op := some .acquire, byCmd := byCmd, layer := layer, turn := turn, tries := 0, seeks := 0, start := s.tick, captured := false, confirmed := false, fields := 0, feOk := 0, thenJump := none, peaks := 0, rampAt := s.tick }).lasers n

/-- One attempt of a layer jump starts: what its first tick does (R141). -/
def State.jumpAttempt (s : State) (n layer : Nat) : State :=
  let s1 := ((((s.prevLost n).set (OPU_STAT_STATE n) puLayerJump).set (OPU_LAYER_TARGET n) layer).setSa n layer).set
    (OPU_STAT_ON_LAYER n) 0
  let s2 := ((s1.clearOut (outTilt n)).withOut (outFocus n) fun k => { k with seqMask := true }).withOut (outTrack n)
    fun k => { k with seqMask := true, seqHold := true }
  let o := s.get (OPU_LAYER_CUR n)
  let depth : Int := (s.get (OPU_DEPTH_DEPTH n layer) : Int) - (s.get (OPU_DEPTH_DEPTH n o) : Int)
  (s2.modPu n fun k =>
    { k with op := some .jump, layer := layer, origin := o, captured := false, confirmed := false, fields := 0, feOk := 0, gatesClosed := true, attempt := s.tick, spTo := (depth : Rat) / 1000, spAt := 0, spV := 0, xings := 0, xAt := s.tick, xDepth := 0, xSpeed := none, estDepth := 0, trkOk := 0 }).set
    (OPU_LJ_STAT_XING n) 0

/-- A layer jump starts: it is counted and its first attempt begins. -/
def State.startJump (s : State) (n layer turn : Nat) (byCmd acqJump : Bool) : State :=
  (((s.jumpAttempt n layer).incWrap (OPU_LJ_STAT_COUNT n)).set (OPU_LJ_STAT_OUTCOME n) 0).modPu n fun k =>
    { k with byCmd := byCmd, acqJump := acqJump, turn := turn, tries := 0, seeks := 0, start := s.tick, tiltCleared := false }

/-- Duration and outcome of the last jump (OPU_LJ_STAT). -/
def State.jumpStat (s : State) (n outcome : Nat) : State :=
  (s.set (OPU_LJ_STAT_DUR n) (min 0xFFFF (s.tick - (s.puOf n).start))).set (OPU_LJ_STAT_OUTCOME n) outcome

/-- A tracking move to a turn: along the coil profile, or through a coarse move of the sled beyond TJ_MAX, after which the
remainder is sought (R149, R275). A layer jump that needs one raises LJ_OFFTRACK (R147). -/
def State.seekMotion (s : State) (n turn : Nat) : State :=
  let dist : Int := (turn : Int) - (s.get (OPU_SPIRAL_TURN n) : Int)
  let long := decide (s.get (OPU_TS_PROF_TJ_MAX n) < dist.natAbs)
  let sled := long && s.axState n == axGeared
  let s1 := (s.modPu n fun k => { k with turn := turn, spTo := if sled then 0 else (dist : Rat), spAt := 0, spV := 0, trkOk := 0, sledWait := sled }).withOut
    (outTrack n) fun k => { k with seqMask := true }
  let steps : Int := ((dist : Rat) * (24 / 100) / (5859 / 10000)).floor
  let s2 := s1.when sled fun t =>
    (((t.withOut (outTrack n) fun k => { k with seqHold := true }).set (AX_CTL_MODE n) 0).axMove n (s.axPos n + steps)).modAx n fun k =>
      { k with coarse := true }
  s2.when (long && decide ((s.puOf n).op = some .jump)) fun t => t.puFault n 0x05 (min 0xFFFF dist.natAbs)

/-- The sled is in place after a coarse move: tracking is released and the remainder is sought from the turn the fields report
(R149). -/
def State.sledThere (s : State) (n : Nat) : State :=
  if (s.puOf n).sledWait ∧ s.axState n = axGeared then
    ((s.set (OPU_SPIRAL_TURN n) (s.puOf n).seen).withOut (outTrack n) fun q => { q with seqHold := false }).seekMotion n (s.puOf n).turn
  else s

/-- The set-point profile in progress has ended. -/
def PuSt.profileDone (k : PuSt) : Bool := !k.sledWait && decide (k.spAt = ratAbs k.spTo)

/-- A seek ends on a turn (R150): on another than its target according to the fields it seeks again, three times, and then raises
SEEK_FAIL and enters REACQ; on its target it is complete after TRK_SETTLE ticks within TRK_OK.
DEDUCED (notes/assumptions/51.md, unsafe): the three attempts are the seeks made again. -/
def State.seekEnd (s : State) (n : Nat) (done : State → State) : State :=
  let k := s.puOf n
  if k.profileDone = false then s
  else if k.thenJump.isNone ∧ k.seen ≠ k.turn then
    let s1 := s.set (OPU_SPIRAL_TURN n) k.seen
    if k.seeks = 3 then (s1.puFault n 6 (k.turn % 65536)).enterReacq n
    else (s1.modPu n fun q => { q with seeks := k.seeks + 1 }).seekMotion n k.turn
  else if s.get (OPU_TRK_CFG_TRK_SETTLE n) ≤ k.trkOk then done s
  else s

/-- A seek starts from TRACKING, or tracking is ordered in FOCUSED (Table: Pickup state transitions). -/
def State.startSeek (s : State) (n turn : Nat) (byCmd : Bool) : State :=
  let st := if s.puState n = puFocused then puAcqTrack else puSeek
  (((((s.prevLost n).set (OPU_STAT_STATE n) st).modPu n fun k =>
    { k with op := some .seek, byCmd := byCmd, seeks := 0, start := s.tick }).enableOut (outTrack n)).seekMotion n turn)

/-- The mode of a pickup is to change at the next field 0: the sled's new ratio is armed at the count at which field 0
came last, in this revolution of the encoder where the count lies ahead (R133, R274). -/
def State.orderMode (s : State) (n : Nat) (write byCmd : Bool) : State :=
  let at_ := (s.puOf n).zeroAt
  ((((s.setReg (AX_GEAR_NEXT n) (if write then 26844 else 107374)).set (AX_GEAR_AT_REVS n)
    (if s.get (SPN_ANGLE_COUNT (n / 2)) < at_ then s.get (SPN_ANGLE_REVS (n / 2)) else (s.get (SPN_ANGLE_REVS (n / 2)) + 1) % 256)).set (AX_GEAR_AT_COUNT n) at_).set (AX_GEAR_AT_ARM n) 1).modPu n fun k =>
    { k with modeNext := some write, op := some (if write then .writeMode else .readMode), byCmd := byCmd }

/-- The codes of OPU_CMD.OP. -/
abbrev opAcquire : Nat := 1
abbrev opJump : Nat := 2
abbrev opSeek : Nat := 3
abbrev opPuPark : Nat := 4
abbrev opRead : Nat := 5
abbrev opWrite : Nat := 6

/-- An OPU_CMD order starts, or is refused by the pickup's state (R117, R118, R140, R161). -/
def State.puBegin (s0 : State) (n op layer turn : Nat) : State :=
  let s := (s0.set (OPU_CMD_STAT_OP n) op).set (OPU_CMD_STAT_CFG_BAD n) 0
  let st := s.puState n
  let refuse (t : State) : State := t.set (OPU_CMD_STAT_RESULT n) resRefusedState
  let cfgBad (t : State) : State := refuse (t.set (OPU_CMD_STAT_CFG_BAD n) 1)
  let run (t : State) : State := t.set (OPU_CMD_STAT_RESULT n) resRunning
  if op = opAcquire then
    if !s.acqSlots n then cfgBad s
    else if st = puParked ∧ s.axState n ≠ axDisabled then run (s.startAcquire n layer turn true)
    else refuse s
  else if op = opJump then
    if !s.jumpSlots n then cfgBad s
    else if st = puTracking ∧ s.flag (OPU_STAT_GATE n) = false then run (s.startJump n layer turn true false)
    else refuse s
  else if op = opSeek then
    if !s.slotsReady n then cfgBad s
    else if st = puTracking ∨ st = puFocused then run (s.startSeek n turn true)
    else refuse s
  else if !s.slotsReady n then cfgBad s
  else if op = opPuPark then
    if st = puOff ∨ st = puUnusable then refuse s
    else (s.endOp n resDone).puRest n puParked |>.set (OPU_CMD_STAT_RESULT n) resDone
  else if st = puTracking then run (s.orderMode n (op == opWrite) true)
  else refuse s

/-- An accepted OPU_CMD write: SEQ rises; a running sequence is aborted and the new one starts at the next boundary,
where none runs it starts at once (R161).
DESIGN CHOICE (notes/assumptions/52.md, unsafe): the abort leaves OPU_STAT.STATE as it is. -/
def State.puCommand (s : State) (n op layer turn : Nat) : State :=
  let s1 := s.incWrap (OPU_CMD_STAT_SEQ n)
  if s.calHolds (n / 2) then (s1.set (OPU_CMD_STAT_OP n) op).set (OPU_CMD_STAT_RESULT n) resRefusedState
  else if (s.puOf n).byCmd && (s.puOf n).op.isSome then
    let jumping := decide ((s.puOf n).op = some .jump)
    ((s1.when jumping fun t => t.jumpStat n 5).endOp n resAborted).modPu n fun k => { k with next := some (op, layer, turn), modeNext := none }
  else if (s.puOf n).next.isSome then s1.modPu n fun k => { k with next := some (op, layer, turn) }
  else s1.puBegin n op layer turn

/-! ### The OPU at a tick boundary -/

/-- One tick of a trapezoidal profile of acceleration `a` and top speed `v` toward a distance. -/
def trapStep (a v dist at_ speed : Rat) : Rat × Rat :=
  let rem := dist - at_
  let w := if rem ≤ speed * speed / (2 * a) then (if speed - a < a then a else speed - a)
    else if v < speed + a then v else speed + a
  if rem ≤ w then (dist, 0) else (at_ + w, w)

/-- The set-point of the sequence in progress advances by a tick and is supplied to its slot (R128, R142, R149). -/
def State.spTick (s : State) (n : Nat) : State :=
  let k := s.puOf n
  if k.spTo = 0 then s
  else
    let traverse := decide (k.op = some .jump) && !k.captured
    let a := if traverse then ((s.get (OPU_LJ_PROF_ACC n) : Nat) : Rat) / 10000 else ((s.get (OPU_TS_PROF_ACC n) : Nat) : Rat) / 10000
    let v := if traverse then ((s.get (OPU_LJ_PROF_VMAX n) : Nat) : Rat) / 1000 else ((s.get (OPU_TS_PROF_VMAX n) : Nat) : Rat) / 1000
    let r := if a = 0 ∨ v = 0 then (k.spAt, (0 : Rat)) else trapStep a v (ratAbs k.spTo) k.spAt k.spV
    let s1 := s.modPu n fun k => { k with spAt := r.1, spV := r.2 }
    s1.withOut (if traverse then outFocus n else outTrack n) fun q => { q with seqSp := bfpWord (ratSign k.spTo * r.1) }

/-- Every zone amplitude equals its target (R121). -/
def State.zonesAtTarget (s : State) (n : Nat) : Bool :=
  match s.slotOf (outSa n) with
  | none => false
  | some m =>
    (List.range 8).all fun z =>
      let l := s.get (OPU_LAYER_SA n)
      let target := if z % 2 = 0 then s.get (OPU_SA_ZONE_LO n l (z / 2)) else s.get (OPU_SA_ZONE_HI n l (z / 2))
      bfpVal (nth (s.slot m).zones z 0) == ((target : Nat) : Rat)

/-- The steps of an acquisition, a jump or a re-acquisition that end on settled focus and confirmed fields (steps 5 and 6, R144,
R153). -/
def State.puAdvance (s : State) (n : Nat) : State :=
  let k := s.puOf n
  let settled := k.captured && s.flag (OPU_STAT_SA_READY n) && decide (s.get (OPU_LJ_CFG_SETTLE n) ≤ k.feOk) && decide (4 ≤ k.fields)
  if s.puState n = puAcqFocus ∧ settled = true then
    (s.set (OPU_STAT_STATE n) puFocused).set (OPU_STAT_ON_LAYER n) 1
  else if s.puState n = puFocused ∧ k.op = some .acquire then
    let s1 := (((s.set (OPU_STAT_STATE n) puAcqTrack).set (OPU_SPIRAL_TURN n) k.seen).enableOut (outTrack n)).modPu n
      fun k => { k with confirmed := true, trkOk := 0 }
    if k.thenJump.isSome then s1 else s1.seekMotion n k.turn
  else if s.puState n = puLayerJump ∧ settled = true ∧ k.confirmed = false then
    let s1 := ((s.set (OPU_SPIRAL_TURN n) k.seen).withOut (outTrack n) fun q => { q with seqHold := false }).withOut
      (outFocus n) fun q => { q with seqMask := false }
    (s1.modPu n fun k => { k with confirmed := true }).seekMotion n k.turn
  else if s.puState n = puReacq ∧ k.confirmed = false ∧ (if k.full then settled else k.captured && decide (1 ≤ k.fields)) = true then
    (((s.set (OPU_SPIRAL_TURN n) k.seen).enableOut (outTrack n)).modPu n fun k => { k with confirmed := true }).seekMotion n k.turn
  else s

/-- WRITE_READY (Write gate and hardware inhibit). -/
def State.writeReady (s : State) (x : Samples) (n : Nat) : Bool :=
  s.puState n == puTracking && s.flag (OPU_STAT_WRITE_MODE n) && s.flag (OPU_STAT_ON_LAYER n) &&
    s.flag (OPU_STAT_SA_READY n) && !s.flag (OPU_STAT_HOLD n) && !s.flag (OPU_STAT_WI_ACTIVE n) &&
    s.flag (OPU_CTL_WRITE_EN n) &&
    decide (ratAbs (s.radialError x n) ≤ ((s.get (OPU_WI_CFG_PES n) : Nat) : Rat) / 1000)

/-- The hold of the tick (R151, R154): active when a dropout was present in the last tick or is at the boundary. -/
def State.holdTick (s : State) (n : Nat) : State :=
  let k := s.puOf n
  let active := k.dropout || k.dropSeen
  let s1 := (s.modPu n fun k => { k with hold := if active then k.hold + 1 else 0, dropSeen := k.dropout }).setFlag
    (OPU_STAT_HOLD n) active
  let s2 := s1.when active fun t => t.maxIn (OPU_DEF_STAT_LONGEST n) (k.hold + 1)
  s2.when (active && k.hold == 0 && s.flag (OPU_STAT_GATE n)) fun t => t.dropGate n

/-- The layers crossed and the estimated depth of a traverse (R142): a layer is crossed when the pinhole sum rises above the
threshold again; the depth is that of the last layer crossed, plus the speed between the last two crossings, or before the second
one the profile speed, times the ticks since.
DEDUCED (notes/assumptions/53.md, unsafe). -/
def State.depthTick (s : State) (n : Nat) (rise : Bool) : State :=
  let k := s.puOf n
  let up := decide (k.origin ≤ k.layer)
  let at_ := if up then k.origin + (k.xings + 1) else k.origin - (k.xings + 1)
  let d : Rat := (((s.get (OPU_DEPTH_DEPTH n at_) : Int) - (s.get (OPU_DEPTH_DEPTH n k.origin) : Int) : Int) : Rat) / 1000
  let s1 := if !rise then s
    else (s.modPu n fun q => { q with xings := k.xings + 1, xAt := s.tick, xDepth := d,
                                      xSpeed := if k.xings = 0 then none else some ((d - k.xDepth) / ((max 1 (s.tick - k.xAt) : Nat) : Rat)) }).set
      (OPU_LJ_STAT_XING n) (min 31 (k.xings + 1))
  s1.modPu n fun q => { q with estDepth := q.xDepth + (q.xSpeed.getD (ratSign q.spTo * q.spV)) * ((s.tick - q.xAt : Nat) : Rat) }

/-- The focus slot of a pickup is enabled, so that it drives the coil. -/
def State.focusDriven (s : State) (n : Nat) : Bool := match s.slotOf (outFocus n) with
  | some m => s.slotEn m
  | none => false

/-- The focus coil is ramped: in an acquisition from the speed of R136 on, in REACQ at once, until the capture. -/
def State.ramps (s : State) (n : Nat) : Bool :=
  let k := s.puOf n
  !k.captured && ((s.puState n == puAcqFocus && k.op == some .acquire && s.flag (OPU_LASER_STAT_RD_ON n)) || s.puState n == puReacq)

/-- The current of the ramp: from the calibrated start current to the end current over SWEEP ticks; a local ramp stays within LOCAL µm of
the current held when REACQ was entered (R153). -/
def State.rampCurrent (s : State) (n : Nat) : Rat :=
  let k := s.puOf n
  let run := s.tick - k.rampAt
  if s.puState n = puReacq ∧ k.full = false then
    k.heldI + ((s.get (OPU_FA_CFG_LOCAL n) : Nat) : Rat) * Config.focusPerUm n * clampRat (-1) 1 (Config.localRamp run)
  else
    let (a, b) := Config.focusEnds n
    let sweep := s.get (OPU_FA_CFG_SWEEP n)
    a + (b - a) * (if sweep ≤ run then 1 else ((run : Nat) : Rat) / ((sweep : Nat) : Rat))

/-- The focus coil after the slots have run: the ramp drives it directly, and once it is over only the slot does. -/
def State.rampTick (s : State) (n : Nat) : State :=
  let on := s.ramps n
  let s1 := if on then s.drive (outFocus n) (bfpWord (s.rampCurrent n))
    else if (s.puOf n).rampOut ∧ s.focusDriven n = false then s.undrive (outFocus n) else s
  s1.modPu n fun k => { k with rampOut := on }

/-- What the boundary's samples tell the OPU of focus and tracking: the sum, the pinhole peaks, zero crossings of the focus error,
push-pull crossings during a seek, and the counts of ticks within FE_OK and TRK_OK. -/
def State.measureTick (x : Samples) (s : State) (n : Nat) : State :=
  let k := s.puOf n
  let cal (l w : Nat) : Rat := bfpVal (s.reg (CAL_PU_LAYER n l w))
  let cur := s.get (OPU_LAYER_CUR n)
  let sumOk := decide (cal cur 1 < s.quadSum x n)
  let peak := decide (((s.get (OPU_FA_CFG_XTHR n) : Nat) : Rat) / 100 * cal k.layer 3 < s.adcVal x (10 * n + 6))
  let rise := peak && !k.peak
  let traverse := decide (k.op = some .jump) && !k.captured
  let s1 := if traverse then s.depthTick n rise else s
  let fe := s1.focusError x n
  let pp := s1.pushPull x n
  -- the fill of a spot counts from the boundary after its field
  let ref : Vector Rat 4 := Vector.ofFn fun i => if k.freshAt[i] then pp else k.ppRef[i]
  let cross : Int := if k.spTo = 0 ∨ traverse = true then 0
    else if 0 < k.spTo ∧ k.ppNeg = true ∧ 0 ≤ pp then 1 else if k.spTo < 0 ∧ k.ppNeg = false ∧ pp < 0 then -1 else 0
  let s2 := s1.modPu n fun q =>
    { q with sumOk := sumOk, peak := peak, peaks := if rise && !q.captured then q.peaks + 1 else q.peaks, ppRef := ref, ppNeg := decide (pp < 0)
             seen := ((q.seen : Int) + cross).toNat, feNeg := decide (fe < 0), feZero := sumOk && decide (decide (fe < 0) ≠ k.feNeg)
             feOk := if q.captured && decide (ratAbs fe ≤ ((s.get (OPU_LJ_CFG_FE_OK n) : Nat) : Rat) / 100) then q.feOk + 1 else 0 }
  let off := ratAbs (s2.radialError x n - (if traverse then 0 else k.spTo))
  s2.modPu n fun q => { q with trkOk := if off ≤ ((s.get (OPU_TRK_CFG_TRK_OK n) : Nat) : Rat) / 256 then q.trkOk + 1 else 0 }

/-- A laser's current stands at its limit, and its power below its set-point (R160). -/
def State.laserAtLimit (s : State) (out lim : Nat) : Bool × Bool :=
  let i := bfpVal (sget (fun _ => (0 : Word)) s.ce.outs out)
  let at_ := decide (0 < lim) && decide (((lim : Nat) : Rat) ≤ i)
  let low := match s.slotOf out with
    | some m => decide (0 < bfpVal (s.reg (CE_KST_W0 m)))
    | none => false
  (at_, at_ && low)

/-- Temperature, lens offset and laser currents of a tick (R115, R132, R160). -/
def State.monitorTick (x : Samples) (s : State) (n : Nat) : State :=
  let b := match boardValue s.sys.board 0x0020 n with
    | some v => fieldAt v 8 2
    | none => 0
  let lp := Config.lensLowPass (s.puOf n).lensLp (sget (fun _ => (0 : Word)) s.ce.outs (outTrack n))
  let ofs := Config.lensOffset lp
  let r := s.laserAtLimit (0x18 + n) (s.get (OPU_LASER_CFG_RD_ILIM n))
  let w := s.laserAtLimit (0x1C + n) (2 * s.get (OPU_LASER_CFG_WR_ILIM n))
  let cur := (100 * bfpVal (sget (fun _ => (0 : Word)) s.ce.outs (0x18 + n))).floor
  let far := decide (100 * s.get (OPU_LENS_LIM n) < ofs.toInt.natAbs)
  (((((s.set (OPU_TEMP_TEMP n) (Config.pickupTemp b (s.adcVal x (10 * n + 9))).toNat).set (OPU_LENS_OFFS n) ofs.toNat).set
    (OPU_LASER_STAT_RD_I n) cur.toNat).setFlag (OPU_LASER_STAT_RD_LIM n) r.1).setFlag (OPU_LASER_STAT_WR_LIM n) w.1).modPu n fun k =>
    { k with lensLp := lp, lensRun := if far then k.lensRun + 1 else 0, rdLimRun := if r.2 then k.rdLimRun + 1 else 0
             wrLimRun := if w.2 then k.wrLimRun + 1 else 0 }

/-- The inhibit conditions of a tick (R155, R157): the threshold of PES_A is refreshed, and while a condition is present the re-arm
time does not run. The shock inputs reach 2.5 V at full scale.
PRESUMED (notes/assumptions/54.md, unsafe): the scale of the shock channels. -/
def State.inhibitTick (x : Samples) (s : State) (n : Nat) : State :=
  let sum := s.quadSum x n
  let dac := ((s.get (OPU_WI_CFG_PES n) : Nat) : Rat) / 1000 * bfpVal (s.reg (CAL_PU_LAYER n (s.get (OPU_LAYER_CUR n)) 2)) * sum
  let s1 := s.modPu n fun k => { k with pesDac := dac }
  let pp := s.adcVal x (10 * n) + s.adcVal x (10 * n + 3) - s.adcVal x (10 * n + 1) - s.adcVal x (10 * n + 2)
  let mv (c : Nat) : Rat := s.adcVal x c * 2500 / 16384
  let causes := s1.wiCauses n pp (mv 44) (mv 45) + (if (s.puOf n).pesF then wiPesF else 0)
  if causes = 0 then s1 else s1.inhibit n causes

/-- One tick of the OPU of pickup `n`. -/
def State.puTick (x : Samples) (s0 : State) (n : Nat) : State :=
  let k0 := s0.puOf n
  let sC : State := match k0.curNext with
    | some m =>
      let t := (s0.modPu n fun k => { k with curNext := none }).setCur n m
      if k0.op = some PuOp.jump then t.jumpAttempt n k0.layer else t
    | none => s0
  let sN : State := match k0.next with
    | some o => (sC.modPu n fun k => { k with next := none }).puBegin n o.1 o.2.1 o.2.2
    | none => sC
  let s := if sN.puState n = puOff ∧ sN.flag (OPU_CTL_ENABLE n) = true ∧ sN.get (SPN_STAT_STATE (n / 2)) = 3 ∧
      sN.get ⟨SYS_STAT, 4 + n / 2, 4 + n / 2⟩ = 1 ∧ 3 ≤ sN.mode ∧ sN.mode ≤ 5 then sN.puRest n puParked else sN
  let s1 := ((State.monitorTick x s n).holdTick n).lasers n
  let s2 := State.measureTick x s1 n
  let s3 := s2.modPu n fun k =>
    { k with saSince := if s2.zonesAtTarget n then (if k.saSince.isSome then k.saSince else some s.tick) else none
             -- the sweep waits for the speed of R136
             rampAt := if s2.puState n = puAcqFocus ∧ s2.flag (OPU_LASER_STAT_RD_ON n) = false then s.tick else k.rampAt }
  let s4 := State.inhibitTick x (((s3.sledThere n).puAdvance n).spTick n) n
  let s5 := s4.setFlag (OPU_STAT_WRITE_READY n) (s4.writeReady x n)
  -- the gate rises again at a frame start of the extent being written (R157)
  s5.when (s5.flag (OPU_STAT_WRITE_READY n) && !s5.flag (OPU_STAT_GATE n) && ((s5.chn.ext[n]?).getD none).isSome) fun t =>
    t.set (OPU_STAT_GATE n) 1

end Sys2Proof.Machine
end

