-- ==== Sys2Proof/Machine/SpnOps.lean ====
section
/-!
DEFINITION. The spindles: commutation source, station states, orders, braking and Marionette (05_spindle.md).
DEDUCED (notes/assumptions/25.md, unsafe): Spindle: observer validity follows 600 rpm rising and 500 rpm falling, RE-CATCH shows as coasting until it succeeds, a spin order with unhomed sleds waits.
-/

namespace Sys2Proof.Machine

open Sys2Proof

/-- The states of a station (SPN_STAT.STATE). -/
abbrev spOff : Nat := 0
abbrev spAlign : Nat := 1
abbrev spStart : Nat := 2
abbrev spRun : Nat := 3
abbrev spDown : Nat := 4
abbrev spCoast : Nat := 5
abbrev spRecatch : Nat := 6
abbrev spShort : Nat := 7
abbrev spUnusable : Nat := 8

/-- The braking codes (SPN_STAT.BRAKE). -/
abbrev brNone : Nat := 0
abbrev brRegen : Nat := 1
abbrev brReduced : Nat := 2
abbrev brZero : Nat := 3
abbrev brCoast : Nat := 4
abbrev brHold : Nat := 5
abbrev brShort : Nat := 6

def State.stnOf (s : State) (st : Nat) : StnSt := (s.stn[st]?).getD {}

def State.setStn (s : State) (st : Nat) (k : StnSt) : State := { s with stn := s.stn.setIfInBounds st k }

def State.modStn (s : State) (st : Nat) (f : StnSt → StnSt) : State := s.setStn st (f (s.stnOf st))

def State.spnState (s : State) (st : Nat) : Nat := s.get (SPN_STAT_STATE st)

/-- A fault of the SPN block of station `st`. -/
def State.spnFault (s : State) (st kind arg : Nat) : State := s.raise (0x040 + st) kind arg

abbrev outSpin (st : Nat) : Nat := 0x10 + st

/-- Encoder speed in rpm. -/
def State.rpm (s : State) (st : Nat) : Nat := s.speedOf st / 8

/-- The encoder is usable as a source (R226, R235). -/
def State.encOk (s : State) (st : Nat) : Bool := s.flag (SPN_STAT_ENC_VALID st) && !s.flag (SPN_STAT_ENC_UNUSABLE st)

/-- The observer is usable as a source (R232, R235). -/
def State.obsOk (s : State) (st : Nat) : Bool := s.flag (SPN_STAT_OBS_VALID st) && !s.flag (SPN_STAT_OBS_UNUSABLE st)

/-- The commutation source of a station that commutates (Table: Commutation source). -/
def State.source (s : State) (st : Nat) : Nat :=
  if s.encOk st then
    if s.flag (SPN_STAT_INDEXED st) then 2 else if s.flag (SPN_INIT_STAT_VALID st) then 1 else if s.obsOk st then 3 else 0
  else if s.obsOk st then 3 else 0

/-- SPN_STAT.SRC follows the source in START, RUN and SPIN_DOWN (R234). -/
def State.refreshSource (s : State) (st : Nat) : State :=
  let c := s.spnState st
  if c = spStart ∨ c = spRun ∨ c = spDown then s.set (SPN_STAT_SRC st) (s.source st) else s

/-- Supervision of the speed slot is masked or not (R242). -/
def State.spnMask (s : State) (st : Nat) (b : Bool) : State := s.withOut (outSpin st) fun k => { k with seqMask := b }

/-- The set-point that the sequencer supplies to the speed slot, in rpm. -/
def State.spnSetPoint (s : State) (st : Nat) (v : Rat) : State :=
  s.withOut (outSpin st) fun k => { k with seqSp := bfpWord v }

/-- The working set-point is set to the measured speed (R249). -/
def State.workMeasured (s : State) (st : Nat) : State :=
  s.withOut (outSpin st) fun k => { k with work := bfpWord (((s.speedOf st : Nat) : Rat) / 8) }

/-- An order of SPN_CMD is reported (SPN_CMD_STAT). -/
def State.spnReport (s : State) (st op result : Nat) : State :=
  (((s.incWrap (SPN_CMD_STAT_SEQ st)).set (SPN_CMD_STAT_OP st) op).set (SPN_CMD_STAT_RESULT st) result).modStn st fun k =>
    { k with running := decide (result = resRunning) }

/-- The order of SPN_CMD in progress ends. -/
def State.spnResult (s : State) (st result : Nat) : State :=
  if (s.stnOf st).running then (s.set (SPN_CMD_STAT_RESULT st) result).modStn st fun k => { k with running := false }
  else s

/-- The bridge becomes high-impedance. -/
def State.bridgeOff (s : State) (st : Nat) : State := s.clearOut (outSpin st)

/-- The station is OFF: bridge high-impedance, no source, no target; STOP and COAST orders are DONE. -/
def State.spnOff (s : State) (st : Nat) : State :=
  ((((((s.bridgeOff st).set (SPN_STAT_STATE st) spOff).set (SPN_STAT_SRC st) 0).set (SPN_STAT_BRAKE st) brNone).set
    (SPN_SPEED_TARGET st) 0).set (SPN_STAT_AT_SPEED st) 0).modStn st fun k => { k with orderAt := none, spinAt := none, recaught := false, holdup := false, fallAt := none }

/-- The braking mode with which SPIN_DOWN starts: zero-vector when RAMP_DEC is 0 (R248). -/
def State.firstBrake (s : State) (st : Nat) : Nat :=
  match s.slotOf (outSpin st) with
  | some n => if bfpVal (s.page n 13) = 0 then brZero else brRegen
  | none => brRegen

/-- The station enters SPIN_DOWN (R242, R248). -/
def State.spinDown (s : State) (st : Nat) : State :=
  (((((((s.set (SPN_STAT_STATE st) spDown).set (SPN_STAT_BRAKE st) (s.firstBrake st)).set (SPN_SPEED_TARGET st) 0).set
    (SPN_STAT_AT_SPEED st) 0).spnMask st true).spnSetPoint st 0).modStn st fun k =>
    { k with orderAt := none, spinAt := none, changedAt := s.tick }).refreshSource st

/-- The source slot of a station's disc, when MAG_STN_SRC gives it. -/
def State.srcOf (s : State) (st : Nat) : Option Nat :=
  if st = 0 then (if s.flag MAG_STN_SRC_VALID_0 then some (s.get MAG_STN_SRC_SLOT_0) else none)
  else if s.flag MAG_STN_SRC_VALID_1 then some (s.get MAG_STN_SRC_SLOT_1) else none

/-- The disc of a station is about to be spun down or unloaded: an index frame is due on each of its layers with pending records
(R184). -/
def State.discIndexDue (s : State) (st : Nat) : State :=
  let mark (l : LayerSt) : LayerSt := if s.srcOf st = some l.slot ∧ l.pending ≠ [] then { l with due := true } else l
  { s with plc := { s.plc with layers := s.plc.layers.map mark } }

/-- A spin order that has not been done is ABORTED. -/
def State.spinAborted (s : State) (st : Nat) : State :=
  if s.get (SPN_CMD_STAT_OP st) = 1 then s.spnResult st resAborted else s

/-- A stop order, a STATION reaction, SAFE_STOP or ENABLE = 0 reaches the station (Table: Station state transitions). -/
def State.spnStop (s0 : State) (st : Nat) : State :=
  let s := ((s0.discIndexDue st).spinAborted st).modStn st fun k => { k with stopAt := some s0.tick, spinAt := none, orderAt := none }
  let c := s.spnState st
  if c = spAlign then s.spnOff st
  else if c = spStart ∨ c = spRun then s.spinDown st
  else s

/-- The station coasts with its bridge off. -/
def State.spnCoast (s : State) (st : Nat) : State :=
  (((((s.bridgeOff st).set (SPN_STAT_STATE st) spCoast).set (SPN_STAT_BRAKE st) brCoast).set (SPN_SPEED_TARGET st) 0).set
    (SPN_STAT_AT_SPEED st) 0).modStn st fun k => { k with orderAt := none, spinAt := none }

/-- An order of the picker is an exchange for a station. -/
def MagOrder.exchanges (o : MagOrder) (st : Nat) : Bool := o.stn == st && decide (3 ≤ o.op) && decide (o.op ≤ 5)

/-- An exchange is ordered for the station before this tick: it waits or runs (R285). -/
def State.exchangeFor (s : State) (st : Nat) : Bool :=
  s.mag.waiting.any (fun o => o.exchanges st && decide (o.at_ ≠ s.tick)) || match s.mag.run with
    | some o => o.exchanges st && s.mag.focusing != some st
    | none => false

/-- A spin order for the station falls in this tick (R285). -/
def State.spunNow (s : State) (st : Nat) : Bool := (s.stnOf st).orderAt == some s.tick

/-- A spin order in the tick of an exchange order of its station: the exchange order is refused (R285). -/
def State.exchangeRefused (s : State) (st : Nat) : State :=
  let gone (o : MagOrder) : Bool := o.exchanges st
  let s1 := if s.mag.waiting.any (fun o => gone o && o.by_ == .maint) then s.set MAG_CMD_STAT_RESULT resRefusedState else s
  { s1 with mag := { s1.mag with waiting := s1.mag.waiting.filter fun o => !gone o } }

/-- The speed slot suits a spin order (R237). -/
def State.speedSlotOk (s : State) (st : Nat) : Bool :=
  match s.slotOf (outSpin st) with
  | some n =>
    s.get (CE_PAGE_TYPE n) == tySpd && (s.get (CE_PAGE_SP_SRC n) == 1 || s.get (CE_PAGE_SP_SRC n) == 2) &&
      (s.page n 3).toNat != 0
  | none => false

/-- The disc of the station is clamped. -/
def State.clamped (s : State) (st : Nat) : Bool := if st = 0 then s.flag MAG_STAT_CLAMP_0 else s.flag MAG_STAT_CLAMP_1

/-- The station has valid calibration (SYS_STAT). -/
def State.calOk (s : State) (st : Nat) : Bool := if st = 0 then s.flag SYS_STAT_CAL_STN_0 else s.flag SYS_STAT_CAL_STN_1

/-- The conditions of R237 for a spin order in OFF; a campaign's order asks for `cal` in place of valid calibration. -/
def State.spinReady (s : State) (st : Nat) (cal : Bool) : Bool :=
  decide (modeServe ≤ s.mode) && decide (s.mode ≤ modeMaintain) && cal && s.clamped st && s.flag (SPN_STAT_STOPPED st) &&
    !s.flag (SPN_STAT_ENC_UNUSABLE st) && !s.flag PWR_STAT_UV_WARN && s.speedSlotOk st

/-- The station starts its spin-up in ALIGN (R229). -/
def State.enterAlign (s : State) (st target : Nat) : State :=
  ((((((((s.set (SPN_STAT_STATE st) spAlign).incWrap (SPN_CNT_SPINUPS st)).set (SPN_SPEED_TARGET st) target).set
    (SPN_STAT_AT_SPEED st) 0).set (SPN_INIT_STAT_VALID st) 0).set (SPN_INIT_STAT_FALLBACK st) 0).set (SPN_STAT_SRC st)
    0).spnMask st true).modStn st fun k =>
    { k with pass2 := false, spinAt := none, changedAt := s.tick, indexBad := false, vec := 0, vecAt := s.tick, vecOff := false, fallAt := none, nearRun := 0 }

/-- ALIGN ends with an initial angle (R229 to R231): the station starts. -/
def State.startRotor (s : State) (st angle : Nat) : State :=
  ((((((s.set (SPN_INIT_STAT_VALID st) 1).set (SPN_INIT_STAT_ANGLE st) angle).set (SPN_STAT_STATE st) spStart).enableOut
    (outSpin st)).withOut (outSpin st) fun k => { k with work := 0 }).spnSetPoint st
      ((s.get (SPN_SPEED_TARGET st) : Nat) : Rat)).modStn st (fun k =>
    { k with alignCount := s.get (SPN_ANGLE_COUNT st), fallAt := none }) |>.refreshSource st

/-- Both sleds of the station are HOMED. -/
def State.sledsHomed (s : State) (st : Nat) : Bool := s.axHomed (2 * st) && s.axHomed (2 * st + 1)

/-- The sleds of a station that are not HOMED start homing (R276). -/
def State.homeSleds (s : State) (st : Nat) : State :=
  [2 * st, 2 * st + 1].foldl (fun (t : State) a =>
    if t.axHomed a ∨ t.axState a ≠ axIdle then t else t.axHomeStart a) s

/-- A spin order that waits for the sleds' homing goes on once both are HOMED (R276). -/
def State.sledHomedNow (s : State) (st : Nat) : State :=
  match (s.stnOf st).spinAt with
  | some t => if s.sledsHomed st then s.enterAlign st t else s
  | none => s

/-- A new target in RUN, SPIN_DOWN or COAST (R238). -/
def State.retarget (s : State) (st target : Nat) : State :=
  (((((((s.set (SPN_STAT_STATE st) spRun).set (SPN_SPEED_TARGET st) target).set (SPN_STAT_AT_SPEED st) 0).set
    (SPN_STAT_BRAKE st) brNone).spnSetPoint st ((target : Nat) : Rat)).enableOut (outSpin st)).modStn st fun k =>
    { k with orderAt := some s.tick, changedAt := s.tick, nearRun := 0 }).refreshSource st

/-- The station accepts a spin order now (R237, R238, R285, Table: SPN_CMD outcomes). -/
def State.spinAccepted (s : State) (st target : Nat) (cal : Bool) : Bool :=
  let c := s.spnState st
  s.flag (SPN_CTL_ENABLE st) && !s.exchangeFor st && decide (600 ≤ target) && decide (target ≤ s.get (SPN_LIM_SPD_MAX st)) &&
    (s.stnOf st).stopAt != some s.tick &&
    ((c == spOff && s.spinReady st cal) || c == spRun ||
      (c == spDown && decide (2 ≤ s.get (SPN_STAT_SRC st)) && !(s.stnOf st).recaught) ||
      (c == spCoast && s.encOk st && s.flag (SPN_STAT_INDEXED st)))

/-- A spin order is carried out: from OFF through the sleds' homing and ALIGN, else by a new target (R236, R276). -/
def State.spin (s0 : State) (st target : Nat) : State :=
  let s := s0.exchangeRefused st
  if s.spnState st = spOff then
    let s1 := s.modStn st fun k => { k with orderAt := some s.tick, spinAt := some target }
    if s.sledsHomed st then s1.enterAlign st target else s1.homeSleds st
  else s.retarget st target

/-- The write gates of both pickups of a station drop at the tick boundary (R154). -/
def State.dropStationGates (s : State) (st : Nat) : State := (s.dropGate (2 * st)).dropGate (2 * st + 1)

/-- The drive is lost: both sources are gone (R246, Table: Rotor-lost sequence). -/
def State.rotorLost (s : State) (st : Nat) : State :=
  let v := s.rpm st
  let s1 := (((s.spnFault st 5 v).set (SPN_LOST_STAT_SPEED st) v).set (SPN_LOST_STAT_OUTCOME st) 0).bridgeOff st
  let s2 := ((s1.dropStationGates st).puPark (2 * st) resAborted).puPark (2 * st + 1) resAborted
  (((((s2.set (SPN_STAT_STATE st) spRecatch).set (SPN_STAT_BRAKE st) brCoast).set (SPN_SPEED_TARGET st) 0).set
    (SPN_STAT_AT_SPEED st) 0).spnResult st resFailed).modStn st fun k =>
    { k with lostAt := s.tick, orderAt := none, noRecatch := false }

/-- The station is UNUSABLE until device reset, or until re-admission. -/
def State.spnUnusable (s : State) (st : Nat) (forGood : Bool) : State :=
  ((((s.spnOff st).set (SPN_STAT_STATE st) spUnusable).spnResult st resFailed).modStn st fun k =>
    { k with forGood := forGood || k.forGood })

/-! ### Marionette (R255 to R257) -/

/-- The phase term applies (R256); the second part says whether the rates agree. -/
def State.marRates (s : State) (st : Nat) : Bool :=
  let tgt : Rat := ((s.get (SPN_SPEED_TARGET st) : Nat) : Rat)
  let per : Rat := (((s.reg CE_SYNC_TGT).toNat : Nat) : Rat)
  let rate := 48000000000 / per
  decide (per ≠ 0) && decide (ratAbs (tgt - rate) ≤ rate / 1000)

def State.marApplies (s : State) (st : Nat) : Bool :=
  match s.slotOf (outSpin st) with
  | none => false
  | some n =>
    s.get (CE_PAGE_SP_SRC n) == 2 && s.flag (SPN_MAR_CTL_EN st) && s.flag CE_SYNC_STAT_VALID && s.spnState st == spRun &&
      bfpVal (s.slot n).work == ((s.get (SPN_SPEED_TARGET st) : Nat) : Rat) && s.marRates st

/-- LOCKED clears; while EN is 1 that raises MAR_UNLOCK (R257). -/
def State.marUnlock (s : State) (st : Nat) : State :=
  let s1 := (s.modStn st fun k => { k with marRun := 0 })
  if s.flag (SPN_MAR_STAT_LOCKED st) then
    (s1.set (SPN_MAR_STAT_LOCKED st) 0).when (s.flag (SPN_MAR_CTL_EN st)) fun t =>
      t.spnFault st 0x0B (s.get (SPN_MAR_STAT_ERR st))
  else s1

/-- The phase term at a tick: RATE_MISMATCH, and zero error where it does not apply (R256). -/
def State.marTick (s : State) (st : Nat) : State :=
  let s1 := s.setFlag (SPN_MAR_STAT_RATE_MISMATCH st) (s.flag (SPN_MAR_CTL_EN st) && s.spnState st == spRun && !s.marRates st)
  if s.marApplies st then s1 else (s1.modStn st fun k => { k with marErr := 0 }).marUnlock st

/-- An angle in degrees modulo 360. -/
def wrap360 (d : Rat) : Rat := d - 360 * ((d / 360).floor : Rat)

/-- The commutation angle with the encoder as source, in electrical degrees (R228): four periods per revolution plus
SPN_COMM.OFFS in 0.01°, modulo 360°. -/
def State.electricalAngle (s : State) (st : Nat) : Rat :=
  wrap360 (4 * (((s.get (SPN_ANGLE_COUNT st) : Nat) : Rat) * 360 / 131072) + ((s.get (SPN_COMM_OFFS st) : Nat) : Rat) / 100)

/-- The commutation angle of the tick from the source that SRC names (R228, R231, R234), extrapolated to the middle of the tick with
the measured speed (R223): 1 µs at v · 0.125 rpm is 4 · 360 · v / 8 / 60 / 1,000,000 degrees. -/
def State.commAngle (s : State) (st : Nat) : Rat :=
  let at_ : Rat := match s.get (SPN_STAT_SRC st) with
    | 1 => ((s.get (SPN_INIT_STAT_ANGLE st) : Nat) : Rat)
        + 4 * ((((s.get (SPN_ANGLE_COUNT st) + 131072 - (s.stnOf st).alignCount) % 131072 : Nat) : Rat) * 360 / 131072)
    | 3 => (((s.stnOf st).obsAngle : Nat) : Rat) / 100
    | _ => s.electricalAngle st
  wrap360 (at_ + 3 * ((s.speedOf st : Nat) : Rat) / 1000000)

/-- The current reference of leg `k` of a station in A (R222): T·sin(θe + 90° + ADV − 120°·k), T being the torque level that the
speed slot applies, limited to ±SPN_ILIM.RUN, which the input current limit scales (R618). -/
def State.phaseRef (s : State) (st k : Nat) : Rat :=
  let run : Rat := ((s.get (SPN_ILIM_RUN st) : Nat) : Rat) / 20 * (s.pwr.factor[st]?).getD 1
  let t := clampRat (-run) run (bfpVal (sget (fun _ => (0 : Word)) s.ce.outs (outSpin st)))
  let adv : Rat := ((s.get (SPN_COMM_ADV st) : Nat) : Rat) / 100 * (((s.speedOf st : Nat) : Rat) / 8000)
  t * Config.sine (s.commAngle st + 90 + adv - 120 * (k : Rat))

/-- The currents of a bridge's legs in mA (R221): on its own shunt where its low side conducts; minus the sum of the other two where
its high side conducts and both are low; the last one where two legs are high at once. -/
def legCurrents (l : List LegRead) (last : Vector Int 3) : Vector Int 3 :=
  let leg (k : Nat) : LegRead := (l[k]?).getD {}
  Vector.ofFn fun k =>
    let i := (k.val + 1) % 3
    let j := (k.val + 2) % 3
    if (leg k).high = false then (leg k).shunt.toInt
    else if (leg i).high = false ∧ (leg j).high = false then -((leg i).shunt.toInt + (leg j).shunt.toInt)
    else last[k]

/-- The leg that is forced low once two legs have been high at once for 0.5 µs, 400 CE cycles: of those two the one with the larger
last measured current, the lower number of equals (R221). -/
def forcedLow (l : List LegRead) (last : Vector Int 3) (cycles : Nat) : Option (Fin 3) :=
  let up := (List.finRange 3).filter fun k => ((l[k.val]?).getD {}).high
  if up.length < 2 ∨ cycles < 400 then none
  else up.foldl (fun b k => match b with
    | some c => if last[c] < last[k] then some k else b
    | none => some k) none

/-- The hysteretic comparator of a leg: high below its reference by half the band, low above it by half, else as it was (R222). -/
def legSwitch (ref band i : Rat) (old : Bool) : Bool :=
  if i < ref - band / 2 then true else if ref + band / 2 < i then false else old

/-- The vector of the present pass, in steps of 60° electrical: upward, and in reverse order in the second pass (R229, R230). -/
def StnSt.vector (k : StnSt) : Nat := if k.pass2 then 5 - k.vec else k.vec

/-- A leg is high in a vector: it lies within 90° of the vector (DEDUCED, notes/assumptions/25.md, unsafe). -/
def vectorLeg (v i : Nat) : Bool :=
  let d := (v + 6 - 2 * i) % 6
  d == 0 || d == 1 || d == 5

/-- The vectors of ALIGN at a tick (R229): one ends after 20 ticks, or when a leg's current in mA reaches SPN_INIT.I_MAX, and its high
impedance after 50. -/
def StnSt.vecTick (k : StnSt) (now : Vector Int 3) (tick limit : Nat) : StnSt :=
  if 6 ≤ k.vec then k
  else if k.vecOff then (if 50 ≤ tick - k.vecAt then { k with vec := k.vec + 1, vecAt := tick, vecOff := false } else k)
  else if 20 ≤ tick - k.vecAt ∨ (now.toList.any fun i => decide (50 * limit ≤ i.natAbs)) = true then { k with vecAt := tick, vecOff := true }
  else k

/-- The bridge of a station in ALIGN: the vectors in turn, then, where both passes failed, 0° at SPN_INIT.ALIGN_I (R229, R230). -/
def State.alignTick (s : State) (st : Nat) (l : List LegRead) (now : Vector Int 3) : State :=
  let k := (s.stnOf st).vecTick now s.tick (s.get (SPN_INIT_I_MAX st))
  let band : Rat := ((s.get (SPN_ILIM_BAND st) : Nat) : Rat) / 100
  let refs : Vector Rat 3 := Vector.ofFn fun i =>
    if k.fallAt.isSome then ((s.get (SPN_INIT_ALIGN_I st) : Nat) : Rat) / 20 * Config.sine (90 - 120 * ((i.val : Nat) : Rat)) else 0
  let on := decide (k.vec < 6) && !k.vecOff
  let high : Vector Bool 3 := Vector.ofFn fun i =>
    if k.fallAt.isSome then legSwitch refs[i] band ((now[i] : Rat) / 1000) ((l[i.val]?).getD {}).high else on && vectorLeg k.vector i
  s.modStn st fun _ => { k with refs := refs, legs := now, high := high, hiz := k.fallAt.isNone && !on, forced := none }

/-- What the legs of a station's bridge report, each shunt corrected by its CAL_MON entry (R534). -/
def State.legReads (s : State) (x : Samples) (st : Nat) : List LegRead :=
  (((x.legs.drop (3 * st)).take 3).zip (List.range 3)).map fun e =>
    let w := s.reg (CAL_MON (2 + 3 * st + e.2))
    let mA := (e.1.shunt.toInt - Config.shuntOffset (2 + 3 * st + e.2) (signedOf 16 (w.toNat % 65536))) * ((w.toNat / 65536 : Nat) : Int)
    { e.1 with shunt := BitVec.ofInt 16 (mA / 32768) }

/-- The bridge of a station after the slots have run: references, currents, and the switch states that follow (R221, R222); two legs
high at once keep theirs. In zero-vector braking and the short brake all low switches are on, unless a leg's current exceeds
SPN_ILIM.ZV; the bridge is high-impedance then, while it coasts, and while its slot does not drive it (Braking and the bus). -/
def State.phaseTick (x : Samples) (s : State) (st : Nat) : State :=
  let l := s.legReads x st
  let k := s.stnOf st
  let refs : Vector Rat 3 := Vector.ofFn fun i => s.phaseRef st i
  let now := legCurrents l k.legs
  let force := forcedLow l k.legs ((x.twoHigh[st]?).getD 0).toNat
  let band : Rat := ((s.get (SPN_ILIM_BAND st) : Nat) : Rat) / 100
  let two := decide (2 ≤ (l.filter fun e => e.high).length)
  let driven := s.ce.outs.any fun e => e.1 == outSpin st
  let brk := s.get (SPN_STAT_BRAKE st)
  let zero := brk == brZero || brk == brShort
  let hiz := if zero then now.toList.any fun i => decide (50 * s.get (SPN_ILIM_ZV st) < i.natAbs) else brk == brCoast || !driven
  let high : Vector Bool 3 := Vector.ofFn fun i =>
    !hiz && !zero && (if some i = force then false
      else if two then ((l[i.val]?).getD {}).high
      else legSwitch refs[i] band ((now[i] : Rat) / 1000) ((l[i.val]?).getD {}).high)
  if s.spnState st = spAlign then s.alignTick st l now
  else s.modStn st fun k => { k with refs := refs, legs := now, high := high, hiz := hiz, forced := force }

/-- An angle in degrees wrapped to ±180. -/
def wrap180 (d : Rat) : Rat := d - 360 * (((d + 180) / 360).floor : Rat)

/-- A SYNC_IN capture at cycle `frac` of the tick gives a station its phase error (R255, R257). -/
def State.marPulse (s : State) (frac : Nat) (st : Nat) : State :=
  match s.slotOf (outSpin st) with
  | none => s
  | some n =>
    let rev := ((s.get (SPN_ANGLE_COUNT st) : Nat) : Rat) / 131072
      + ((s.speedOf st : Nat) : Rat) / 8 / 60 * tickSeconds * ((frac : Nat) : Rat) / 1600
    let err := wrap180 (360 * rev - s.pageVal n 15)
    let s1 := s.setInt (SPN_MAR_STAT_ERR st) (100 * err).floor
    if s.marApplies st then
      let gain := ratAbs (s.pageVal n 14)
      let lim := if gain = 0 then ratAbs err else ((s.get (SPN_MAR_CFG_TRIM st) : Nat) : Rat) / gain
      let s2 := s1.modStn st fun k => { k with marErr := clampRat (-lim) lim err }
      let tol := ((s.get (SPN_MAR_CFG_TOL st) : Nat) : Rat) / 100
      if ratAbs err ≤ tol then
        (s2.modStn st fun k => { k with marRun := k.marRun + 1 }).when (decide (16 ≤ (s.stnOf st).marRun + 1)) fun t =>
          t.set (SPN_MAR_STAT_LOCKED st) 1
      else if 2 * tol < ratAbs err then s2.marUnlock st
      else s2.modStn st fun k => { k with marRun := 0 }
    else (s1.modStn st fun k => { k with marErr := 0 }).marUnlock st

/-! ### Braking by VBUS (R248 to R250) -/

/-- The row in force above 74 V, from the row before and VBUS in 0.1 V (Table: Braking by VBUS). -/
def brakeZone (z v : Nat) : Nat :=
  if 820 ≤ v ∨ (4 ≤ z ∧ 800 ≤ v) then 4
  else if 780 ≤ v ∨ (3 ≤ z ∧ 770 ≤ v) then 3
  else if 770 ≤ v ∨ (2 ≤ z ∧ 760 ≤ v) then 2
  else if 760 ≤ v ∨ (1 ≤ z ∧ 740 ≤ v) then 1
  else 0

/-- The chopper counts as faulty (R251, R617). -/
def State.chopperFaulty (s : State) : Bool := s.flag PWR_STAT_BRK_FAULT || s.flag PWR_STAT_BRK_HOT

/-- The working set-point lies above the target: the station brakes in RUN. -/
def State.slowing (s : State) (st : Nat) : Bool :=
  match s.slotOf (outSpin st) with
  | some n => decide (((s.get (SPN_SPEED_TARGET st) : Nat) : Rat) < bfpVal (s.slot n).work)
  | none => false

/-- What the bus asks of a station that brakes (Table: Braking by VBUS, R614). -/
def State.busBrake (s : State) : Nat :=
  let faulty := s.chopperFaulty
  let z := s.pwr.zone
  if s.flag PWR_STAT_VIN_REVERSE then brZero
  else if faulty then (if z = 4 then brCoast else if 1 ≤ z then brZero else brRegen)
  else if z = 4 then brZero else if z = 3 then brReduced else brRegen

/-- The braking mode of a station at a tick boundary (R248, R249, R253, R614). -/
def State.brakeMode (s : State) (st : Nat) : Nat :=
  let c := s.spnState st
  let faulty := s.chopperFaulty
  let z := s.pwr.zone
  let byBus := s.busBrake
  if c = spDown then
    if (s.stnOf st).holdup then brHold
    else if faulty ∧ z = 4 then brCoast
    else if s.mode = modeSafeStop ∧ s.flag PWR_STAT_UVLO = true then brZero
    else if s.rpm st < 300 ∨ ((s.stnOf st).recaught = true ∧ s.rpm st < 600) ∨ s.firstBrake st = brZero then brZero
    else byBus
  else if c = spRun then
    if faulty ∧ z = 4 then brCoast else if s.slowing st then byBus else brNone
  else if c = spStart then (if faulty ∧ z = 4 then brCoast else brNone)
  else if c = spCoast ∨ c = spRecatch then brCoast
  else if c = spShort then brShort
  else brNone

/-- The braking of a station takes effect at a tick boundary: entries to zero-vector braking or coasting that the bus asks for are
counted and captured (R250, SPN_CNT), coasting of the 82 V row drops the write gates, and the working set-point follows R249. -/
def State.brakeTick (s : State) (st : Nat) : State :=
  let old := s.get (SPN_STAT_BRAKE st)
  let new := s.brakeMode st
  let s1 := s.set (SPN_STAT_BRAKE st) new
  let entry := old ≠ new ∧ (new = brZero ∨ new = brCoast) ∧ new = s.busBrake ∧
    (s.spnState st = spDown ∨ s.spnState st = spRun ∨ s.spnState st = spStart)
  let s2 := s1.when (decide entry) fun t =>
    (t.addSat (SPN_CNT_ZV_ENTRIES st) 1).capture evBrake 0
      (BitVec.ofNat 32 (st + 256 * new + 65536 * s.get PWR_VBUS_VBUS))
  let s3 := s2.when (decide (new = brCoast ∧ s.spnState st = spRun)) fun t => t.dropStationGates st
  s3.when (decide (new = brReduced ∨ new = brZero ∨ new = brCoast ∨ new = brHold)) fun t => t.workMeasured st

/-- The encoder's amplitude lies between AMP_LO and AMP_HI percent of the calibrated amplitude: √(sin² + cos²) of servo ADC channels
40 + 2·s and 41 + 2·s, each corrected by its CAL_ENC entry (R226, R534). -/
def State.ampOk (s : State) (x : Samples) (st : Nat) : Bool :=
  let a := corrected (s.reg (CAL_ENC_W0 st)) ((rawAdc x (40 + 2 * st) : Nat) : Rat)
  let b := corrected (s.reg (CAL_ENC_W1 st)) ((rawAdc x (41 + 2 * st) : Nat) : Rat)
  let nom : Rat := ((s.get (CAL_ENC_W3_AMP st) : Nat) : Rat) / 100
  let lo := nom * ((s.get (SPN_ENC_CFG_AMP_LO st) : Nat) : Rat)
  let hi := nom * ((s.get (SPN_ENC_CFG_AMP_HI st) : Nat) : Rat)
  decide (lo * lo ≤ a * a + b * b) && decide (a * a + b * b ≤ hi * hi)

/-- The observer of a station at a tick (R232): in range from 600 rpm rising to 500 rpm falling, and not while its current residual
has exceeded 25% of SPN_ILIM.RUN for 8 ticks. -/
def State.obsTick (x : Samples) (s : State) (st : Nat) : State :=
  let k := s.stnOf st
  let o := ((x.obsSpeed[st]?).getD 0).toNat
  let inside := if k.obsLast < 4800 ∧ 4800 ≤ o then true else if o < 4000 then false else k.obsIn
  let run := if 50 * s.get (SPN_ILIM_RUN st) < 4 * ((x.obsRes[st]?).getD 0).toNat then k.resRun + 1 else 0
  ((s.set (SPN_OBS_SPEED st) o).modStn st fun k => { k with obsLast := o, obsIn := inside, resRun := run }).setFlag
    (SPN_STAT_OBS_VALID st) (inside && decide (run < 8))

/-- The Ke window of a station at a tick: it runs while AT_SPEED is 1, the target has stood for 100 ms and the observer is usable
(R235, R245). -/
def State.keTick (x : Samples) (s : State) (st : Nat) : State :=
  let on := s.flag (SPN_STAT_AT_SPEED st) && !s.flag (SPN_STAT_OBS_UNUSABLE st) && decide (50000 ≤ s.tick - (s.stnOf st).changedAt)
  s.modStn st fun k =>
    if !on then { k with keN := 0, keE := 0, keV := 0 }
    else if 50000 ≤ k.keN then k
    else { k with keN := k.keN + 1, keE := k.keE + ((x.bemf[st]?).getD 0).toNat, keV := k.keV + s.speedOf st }

/-- The consecutive ticks that a station counts at a boundary, and what follows of them: the encoder's validity (R226), its
difference to the observer (R233), the speed near the target (R241) and near rest (R236); the fallback of ALIGN ends after its 200 ms
(R230). -/
def State.spnCounts (x : Samples) (s : State) (st : Nat) : State :=
  let k := s.stnOf st
  let amp := s.ampOk x st
  let v := s.speedOf st
  let o := s.get (SPN_OBS_SPEED st)
  let tgt := 8 * s.get (SPN_SPEED_TARGET st)
  let apart := decide (1500 < (s.getInt (SPN_OBS_DIFF st)).natAbs) && s.encOk st && s.obsOk st
  let near := decide (1000 * (v - tgt) ≤ tgt) && decide (1000 * (tgt - v) ≤ tgt) && tgt != 0
  let driven := s.ce.outs.any fun e => e.1 == outSpin st
  let slow := if s.encOk st then decide (v < 240) && (driven || decide (o < 240)) else decide (o < 240)
  let s1 := (s.setFlag (SPN_STAT_ENC_VALID st) (amp && !k.indexBad)).modStn st fun k =>
    { k with ampRun := if amp then 0 else k.ampRun + 1, disRun := if apart then k.disRun + 1 else 0, nearRun := if near then k.nearRun + 1 else 0, slowRun := if slow then k.slowRun + 1 else 0, obsAngle := ((x.obsAngle[st]?).getD 0).toNat }
  match k.fallAt with
  | some t => if s.spnState st = spAlign ∧ 100000 ≤ s.tick - t then s1.startRotor st 0 else s1
  | none => s1

/-- One tick of a station: measured values, sources, AT_SPEED, STOPPED, masks, over-speed and braking. -/
def State.spnTick (x : Samples) (s0 : State) (st : Nat) : State :=
  let v := ((x.speed[st]?).getD 0).toNat
  let count := (((x.encoder[st]?).getD 0).toNat + 131072 - (s0.stnOf st).indexOfs) % 131072
  let s1 := State.obsTick x ((s0.set (SPN_SPEED_MEAS st) v).set (SPN_ANGLE_COUNT st) count) st
  let diff := wrap180 (s1.electricalAngle st - ((((x.obsAngle[st]?).getD 0).toNat : Nat) : Rat) / 100)
  let s2 := State.spnCounts x (s1.setInt (SPN_OBS_DIFF st) (100 * diff).floor) st
  let turning := if s2.encOk st then decide (240 < v) else decide (240 < s2.get (SPN_OBS_SPEED st))
  let s4 := (s2.refreshSource st).when turning fun t => t.set (SPN_STAT_STOPPED st) 0
  let tgt := s4.get (SPN_SPEED_TARGET st)
  let s5 := s4.when (decide (200 * (v - 8 * tgt) > 8 * tgt ∨ 200 * (8 * tgt - v) > 8 * tgt)) fun t =>
    t.set (SPN_STAT_AT_SPEED st) 0
  let uv := s5.flag PWR_STAT_UV_WARN && s5.spnState st == spRun
  let s6 := s5.setFlag (SPN_STAT_UV_HOLD st) uv
  let s7 := match s6.slotOf (outSpin st) with
    | none => s6
    | some n =>
      let w := bfpVal (s6.slot n).work
      if s6.spnState st = spRun then
        (s6.spnSetPoint st (if uv then w else ((tgt : Nat) : Rat))).spnMask st (decide (w ≠ ((tgt : Nat) : Rat)))
      else s6
  let fast := decide (8 * s7.get (SPN_LIM_OVERSPEED st) < v)
  let s8 := (s7.when (fast && !(s0.stnOf st).fast) fun t => t.spnFault st 8 (v / 8)).modStn st fun k => { k with fast := fast }
  State.keTick x ((s8.brakeTick st).marTick st) st

end Sys2Proof.Machine
end

