-- ==== Sys2Proof/Machine/MagOps.lean ====
section
/-!
DEFINITION. The picker: homing, orders, the exchange sequence, RECOVER and the placement of a held disc
(06_axes_and_picker.md, R277 to R295, R643, R644).
DEDUCED (notes/assumptions/26.md, unsafe): Picker: step 1 moves Z, a failed grip of step 2 goes through step 8, re-admission of the magazine axes returns Badger to IDLE or UNHOMED.
-/

namespace Sys2Proof.Machine

open Sys2Proof

/-- The states of the picker (MAG_STAT.STATE). -/
abbrev mgOff : Nat := 0
abbrev mgUnhomed : Nat := 1
abbrev mgHoming : Nat := 2
abbrev mgIdle : Nat := 3
abbrev mgExchange : Nat := 4
abbrev mgRecover : Nat := 5
abbrev mgUnusable : Nat := 6

/-- The REASON codes of a failed exchange (MAG_CMD_STAT.REASON). -/
abbrev rsEmpty : Nat := 1
abbrev rsClamp : Nat := 2
abbrev rsAxis : Nat := 3
abbrev rsWatchdog : Nat := 4
abbrev rsGrip : Nat := 5

abbrev axZ : Nat := 4
abbrev axX : Nat := 5
abbrev axG : Nat := 6

def State.modMag (s : State) (f : MagSt → MagSt) : State := { s with mag := f s.mag }

def State.magState (s : State) : Nat := s.get MAG_STAT_STATE

/-- A fault of the MAG block. -/
def State.magFault (s : State) (kind arg : Nat) : State := s.raise 0x057 kind arg

/-- A position register of the magazine geometry, signed. -/
def State.geom (s : State) (a : Nat) : Int := (s.reg a).toInt

/-- Z at a slot and at a station (MAG_SLOT_Z0, MAG_SLOT_PITCH, MAG_STN_Z_s). -/
def State.slotZ (s : State) (k : Nat) : Int := s.geom MAG_SLOT_Z0 + (k : Int) * s.geom MAG_SLOT_PITCH
def State.stnZ (s : State) (st : Nat) : Int := if st = 0 then s.geom MAG_STN_Z_0 else s.geom MAG_STN_Z_1

/-- A position of X lies in the corridor. -/
def State.inCorridor (s : State) (x : Int) : Bool :=
  decide (s.geom MAG_X_CORR_LO ≤ x) && decide (x ≤ s.geom MAG_X_CORR_HI)

/-- X stands in the corridor with a valid position (R278). -/
def State.xInCorridor (s : State) : Bool := s.axHomed axX && s.axState axX == axIdle && s.inCorridor (s.axPos axX)

/-- Badger may enter the tray of a station (R285): STOPPED, both sleds at AX_SLIM_LO. -/
def State.mayEnter (s : State) (st : Nat) : Bool :=
  s.flag (SPN_STAT_STOPPED st) && s.sledParked (2 * st) && s.sledParked (2 * st + 1)

/-- Z stands with a valid position. -/
def State.zStands (s : State) : Bool := s.axHomed axZ && s.axState axZ == axIdle

/-- An order to X leaves the corridor only with Z at a slot or at a station that may be entered (R278). -/
def State.xOrderOk (s : State) (target : Int) : Bool :=
  if target < s.geom MAG_X_CORR_LO then
    s.zStands && (List.range 24).any fun k => s.axPos axZ == s.slotZ k
  else if s.geom MAG_X_CORR_HI < target then
    s.zStands && (List.range 2).any fun st => s.axPos axZ == s.stnZ st && s.mayEnter st
  else true

/-- R278 for an order that moves axis `a` to a target. -/
def State.zxRule (s : State) (a : Nat) (target : Int) : Bool :=
  if a = axZ then s.xInCorridor else if a = axX then s.xOrderOk target else true

/-! ### Inventory (R289) -/

def State.slotKnown (s : State) (k : Nat) : Bool := (s.get MAG_INV_KNOWN_KNOWN).testBit k
def State.slotFull (s : State) (k : Nat) : Bool := (s.get MAG_INV_PRES_PRES).testBit k

/-- A slot becomes known, full or empty. -/
def State.recordSlot (s : State) (k : Nat) (full : Bool) : State :=
  let bit := 2 ^ k
  let pres := s.get MAG_INV_PRES_PRES
  (s.set MAG_INV_KNOWN_KNOWN (s.get MAG_INV_KNOWN_KNOWN ||| bit)).set MAG_INV_PRES_PRES
    (if full then pres ||| bit else if pres.testBit k then pres - bit else pres)

/-- MAG_STN_SRC of a station takes a slot, or becomes not known. -/
def State.setSrc (s : State) (st : Nat) (k : Option Nat) : State :=
  match k with
  | some v =>
    if st = 0 then (s.set MAG_STN_SRC_VALID_0 1).set MAG_STN_SRC_SLOT_0 v
    else (s.set MAG_STN_SRC_VALID_1 1).set MAG_STN_SRC_SLOT_1 v
  | none => if st = 0 then s.set MAG_STN_SRC_VALID_0 0 else s.set MAG_STN_SRC_VALID_1 0

/-- The lowest-numbered slot known and empty, and the lowest slot not known (R644). -/
def State.emptySlot (s : State) : Option Nat := (List.range 24).find? fun k => s.slotKnown k && !s.slotFull k
def State.unknownSlot (s : State) : Option Nat := (List.range 24).find? fun k => !s.slotKnown k

/-! ### Ends of orders -/

/-- The order of MAG_CMD that runs and is still RUNNING ends with a result. -/
def State.magResult (s : State) (result reason : Nat) : State :=
  match s.mag.run with
  | some o =>
    if o.by_ = .maint ∧ s.get MAG_CMD_STAT_RESULT = resRunning then (s.set MAG_CMD_STAT_RESULT result).set MAG_CMD_STAT_REASON reason else s
  | none => s

/-- Badger stands: IDLE, or UNUSABLE after a DEGRADE (R295); the running order is over. -/
def State.magRest (s : State) : State :=
  ((s.set MAG_STAT_STATE (if s.mag.degrade then mgUnusable else mgIdle)).set MAG_STAT_STEP 0).modMag fun m =>
    { m with stage := .idle, run := none, started := false, recovering := false, degrade := false, failing := none, regripped := false, ret := none, plan := [] }

/-- Outcome, REASON, last step and duration of an exchange (MAG_EXCH_STAT, R287). -/
def State.exchStat (s : State) (outcome reason start : Nat) : State :=
  (((s.set MAG_EXCH_STAT_OUTCOME outcome).set MAG_EXCH_STAT_REASON reason).set MAG_EXCH_STAT_STEP
    (s.get MAG_STAT_STEP)).set MAG_EXCH_STAT_DUR (min 0xFFFF ((s.tick - start) / 500))

/-- Badger becomes UNUSABLE with whatever it was doing over. -/
def State.magFail (s : State) (reason : Nat) : State :=
  ((s.magResult resFailed reason).modMag fun m => { m with degrade := true }).magRest

/-- The magazine axes stop. -/
def State.magHalt (s : State) (emerg : Bool) : State := ((s.axHalt axZ emerg).axHalt axX emerg).axHalt axG emerg

/-! ### Homing and RECOVER (R284, R290, R644) -/

/-- The next axis of Badger's homing starts once all three stand (R284, R290). A disabled axis cannot home, and Z homes with X in
the corridor only (R278): the homing then fails.
DEDUCED (notes/assumptions/26.md, unsafe). -/
def State.magHomeNext (s : State) (a : Nat) : State :=
  if [axZ, axX, axG].any fun b => s.axInMotion b then s
  else if s.axState a ≠ axIdle ∨ (a = axZ ∧ s.xInCorridor = false) then s.magFail rsAxis
  else s.axHomeStart a

/-- Badger's homing goes on at the boundary (R284). -/
def State.magHomingTick (s : State) : State :=
  match s.mag.stage with
  | .homing (a :: _) _ => s.magHomeNext a
  | _ => s

/-- The homing of Badger starts: G, X, Z; with a disc in the gripper X and Z, then the disc's slot, then G. -/
def State.magHome (s : State) (state : Nat) : State :=
  let grip := s.flag MAG_STAT_GRIP_DISC
  let order := if grip then [axX, axZ] else [axG, axX, axZ]
  ((s.set MAG_STAT_STATE state).modMag fun m => { m with stage := .homing order grip, plan := [] }).magHomingTick

/-- The first move of a plan starts; Z and X start together, and the axis with the greater distance leads (R277). -/
def State.moveZx (s : State) (z x : Int) : State :=
  let dz := z - s.axPos axZ
  let dx := x - s.axPos axX
  let lead := if dz.natAbs < dx.natAbs then axX else axZ
  let follow := if dz.natAbs < dx.natAbs then axZ else axX
  let ratio : Rat := if dz.natAbs < dx.natAbs then (dz : Rat) / (dx : Rat) else if dz = 0 then 0 else (dx : Rat) / (dz : Rat)
  let s1 := (s.axMove axZ z).axMove axX x
  ((s1.modAx follow fun k =>
    { k with line := some { lead := lead, start := k.x, leadStart := (s1.axOf lead).x, ratio := ratio } }).set
    (AX_STAT_LEAD lead) 1).set (AX_STAT_INTERP follow) 1

/-- Badger's moves for what it does next: the first one starts, the others follow as each ends. -/
def State.magPlan (s : State) (ms : List MagMove) : State :=
  match ms with
  | [] => s.modMag fun m => { m with plan := [] }
  | .zx z x :: rest => (s.modMag fun m => { m with plan := rest }).moveZx z x
  | .axis a d :: rest => (s.modMag fun m => { m with plan := rest }).axMove a d

/-- X first comes back into the corridor where it stands outside it, before Z moves (R278). -/
def State.intoCorridor (s : State) : List MagMove :=
  if s.axPos axX < s.geom MAG_X_CORR_LO then [.axis axX (s.geom MAG_X_CORR_LO)]
  else if s.geom MAG_X_CORR_HI < s.axPos axX then [.axis axX (s.geom MAG_X_CORR_HI)]
  else []

/-- A gripper that has closed opens first. -/
def State.openFirst (s : State) : List MagMove :=
  if s.axPos axG = s.geom MAG_G_OPEN then [] else [.axis axG (s.geom MAG_G_OPEN)]

/-- RECOVER starts (R290). -/
def State.recover (s : State) : State := (s.modMag fun m => { m with recovering := true }).magHome mgRecover

/-- Where a held disc goes (R290, R644): its source slot, the lowest slot known to be empty, a station with a clear clamp,
or nowhere. -/
def State.placeHeld (s : State) : State :=
  let go (t : State) (k : Nat) : State :=
    (t.modMag fun m => { m with stage := .carry k }).magPlan [.zx (t.slotZ k) (t.geom MAG_X_CORR_LO), .axis axX (t.geom MAG_X_SLOT)]
  match s.mag.held with
  | some k => go s k
  | none =>
    match s.emptySlot with
    | some k => go s k
    | none =>
      match (List.range 2).find? fun st => !s.clamped st && s.mayEnter st with
      | some st =>
        (s.modMag fun m => { m with stage := .toStation st }).magPlan [.zx (s.stnZ st) (s.geom MAG_X_CORR_HI), .axis axX (s.geom MAG_X_STN)]
      | none => s.magFail 0

/-- The homing or the RECOVER has ended well. -/
def State.magHomed (s : State) : State := (s.magResult resDone 0).magRest

/-- A magazine axis has found its reference: the next axis homes, or the held disc is carried to its place (R284). -/
def State.magAxisHomed (s : State) (a : Nat) : State :=
  match s.mag.stage with
  | .homing (b :: rest) carry =>
    if a ≠ b then s
    else match rest with
      | c :: _ => (s.modMag fun m => { m with stage := .homing rest carry }).magHomeNext c
      | [] =>
        if carry && a != axG then s.placeHeld
        else if carry then
          (s.modMag fun m => { m with stage := .homing [] false, holding := false, held := none }).magPlan [.axis axX (s.geom MAG_X_CORR_LO)]
        else s.magHomed
  | _ => s

/-- A limit trip, chatter or over-current of a magazine axis (R279, R290): the exchange fails with REASON AXIS and Badger
recovers; a RECOVER or a homing in progress fails. -/
def State.magTrip (s : State) : State :=
  let h := s.magHalt true
  match s.mag.stage with
  | .exchange => ((h.exchStat 2 rsAxis s.mag.start).magResult resFailed rsAxis).recover
  | .probe _ => ((h.exchStat 2 rsAxis s.mag.start).magResult resFailed rsAxis).recover
  | .probed _ => ((h.exchStat 2 rsAxis s.mag.start).magResult resFailed rsAxis).recover
  | .moveZx => (((h.magResult resFailed rsAxis).modMag fun m => { m with run := none }).magHome mgHoming)
  | .idle => if s.magState = mgIdle then h.magHome mgHoming else h
  | _ => h.magFail rsAxis

/-- A DEGRADE of a magazine axis or of the picker (R295). -/
def State.magDegrade (s : State) : State :=
  if s.magState = mgExchange ∨ s.magState = mgRecover then s.modMag fun m => { m with degrade := true }
  else s.set MAG_STAT_STATE mgUnusable

/-! ### The exchange sequence (R286) -/

/-- The moves of an exchange step (Table: Exchange sequence). Before step 1 Z goes to the station's level, and a gripper that closed
on nothing opens before steps 7, 8 and 12.
DEDUCED (notes/assumptions/26.md, unsafe). -/
def State.stepMoves (s : State) (o : MagOrder) (step : Nat) : List MagMove :=
  let ret := s.mag.ret.getD 0
  let freed : List MagMove := if s.mag.holding then [] else s.openFirst
  match step with
  | 1 => (if s.axPos axZ = s.stnZ o.stn then [] else s.intoCorridor ++ [.axis axZ (s.stnZ o.stn)]) ++ [.axis axX (s.geom MAG_X_STN)]
  | 2 => [.axis axG (s.geom MAG_G_GRIP)]
  | 3 => [.axis axX (s.geom MAG_X_CORR_HI)]
  | 4 => [.zx (s.slotZ ret) (s.geom MAG_X_CORR_LO)]
  | 5 => [.axis axX (s.geom MAG_X_SLOT)]
  | 6 => [.axis axG (s.geom MAG_G_OPEN)]
  | 7 => freed ++ [.axis axX (s.geom MAG_X_CORR_LO)]
  | 8 => freed ++ s.intoCorridor ++ [.axis axZ (s.slotZ o.slot)]
  | 9 => [.axis axX (s.geom MAG_X_SLOT)]
  | 10 => [.axis axG (s.geom MAG_G_GRIP)]
  | 11 => [.axis axX (s.geom MAG_X_CORR_LO)]
  | 12 => freed ++ s.intoCorridor ++ [.zx (s.stnZ o.stn) (s.geom MAG_X_CORR_HI)]
  | 13 => [.axis axX (s.geom MAG_X_STN)]
  | 14 => [.axis axG (s.geom MAG_G_OPEN)]
  | 15 => [.axis axX (s.geom MAG_X_CORR_HI)]
  | _ => []

/-- An exchange step starts: its number is shown and its axes move. -/
def State.startStep (s : State) (o : MagOrder) (step : Nat) : State := (s.set MAG_STAT_STEP step).magPlan (s.stepMoves o step)

/-- The exchange's first step starts: 1 with a disc in the station, else 8 (R286). -/
def State.firstStep (s : State) (o : MagOrder) : State :=
  let s1 := (s.set MAG_STAT_STATE mgExchange).modMag fun m =>
    { m with stage := .exchange, started := true, start := s.tick, failing := none, regripped := false }
  s1.startStep o (if s.clamped o.stn then 1 else 8)

/-- A slot that is not known is probed (R644): Badger goes there and grips. -/
def State.probeSlot (s : State) (k : Nat) : State :=
  (s.modMag fun m => { m with stage := .probe k }).magPlan
    (s.intoCorridor ++ [.zx (s.slotZ k) (s.geom MAG_X_CORR_LO), .axis axX (s.geom MAG_X_SLOT), .axis axG (s.geom MAG_G_GRIP)])

/-- A probed slot is recorded, the gripper opens and leaves it (R644). -/
def State.probeOver (s : State) (k : Nat) (full : Bool) : State :=
  ((s.recordSlot k full).modMag fun m => { m with stage := .probed full, ret := if full then m.ret else some k }).magPlan
    [.axis axG (s.geom MAG_G_OPEN), .axis axX (s.geom MAG_X_CORR_LO)]

/-- The order granted the picker starts (R285, R286, R643): an exchange of a disc whose source is not known looks for an
empty slot first (R644). -/
def State.magStart (s : State) (o : MagOrder) : State :=
  let s1 := s.modMag fun m => { m with run := some o, started := true, start := s.tick, waiting := m.waiting.filter fun w => w.by_ != o.by_ }
  if o.op = 1 then (s1.modMag fun m => { m with degrade := decide (s.magState = mgUnusable) }).magHome mgHoming
  else if o.op = 2 then
    (s1.modMag fun m => { m with stage := .moveZx }).magPlan [.zx (s.getInt (AX_TGT_TGT axZ)) (s.getInt (AX_TGT_TGT axX))]
  else if o.op = 6 then s1.recover
  else if s.clamped o.stn then
    match s.srcOf o.stn with
    | some k => (s1.modMag fun m => { m with ret := some k }).firstStep o
    | none =>
      match s.emptySlot with
      | some k => (s1.modMag fun m => { m with ret := some k }).firstStep o
      | none =>
        match s.unknownSlot with
        | some k =>
          (s1.set MAG_STAT_STATE mgExchange).probeSlot k
        | none => (((s1.exchStat 2 0 s.tick).magResult resFailed 0).magRest)
  else s1.firstStep o

/-- The magazine's moves have arrived. -/
def State.magArrive (s : State) : State :=
  let arrive (t : State) (a : Nat) : State := if t.axState a = axMoving then t.axArrive a else t
  arrive (arrive (arrive s axZ) axX) axG

/-- The exchange ends FAILED after the steps that clear up (R288). -/
def State.exchFail (s : State) (reason : Nat) : State :=
  ((s.exchStat 2 reason s.mag.start).magResult resFailed reason).magRest

/-- The exchange ends well. One ordered through MAG_CMD, or an unload, ends here; a load ordered by the media scheduling
gives the spin order and ends when both pickups are FOCUSED or UNUSABLE (R287). -/
def State.exchDone (s : State) (o : MagOrder) (loaded : Bool) : State :=
  if o.by_ = .maint ∨ loaded = false then ((s.exchStat 1 0 s.mag.start).magResult resDone 0).magRest
  else
    let start := s.mag.start
    let s1 := (s.set MAG_EXCH_STAT_STEP (s.get MAG_STAT_STEP)).magRest.modMag fun m =>
      { m with focusing := some o.stn, focusAt := start }
    if s1.spinAccepted o.stn o.rpm (s1.calOk o.stn) then s1.spin o.stn o.rpm else s1

/-- The CLAMP input stays inactive in step 14 (R288): G grips and opens once more; if it still fails, G grips and the disc
returns to its slot.
DEDUCED (notes/assumptions/26.md, unsafe). -/
def State.clampFail (s : State) (o : MagOrder) : State :=
  let s1 := s.magFault 2 o.stn
  if s.mag.regripped then
    (s1.modMag fun m => { m with failing := some rsClamp, ret := m.held, holding := true }).magPlan [.axis axG (s.geom MAG_G_GRIP)]
  else
    (s1.modMag fun m => { m with regripped := true }).magPlan [.axis axG (s.geom MAG_G_GRIP), .axis axG (s.geom MAG_G_OPEN)]

/-- The inputs of the picker at a boundary: GRIP_DISC and CLAMP, and whether X lies in the corridor. -/
def State.magInputs (x : Samples) (s : State) : State :=
  (((s.setFlag MAG_STAT_GRIP_DISC x.grip).setFlag MAG_STAT_CLAMP_0 (x.clamp.toNat.testBit 0)).setFlag MAG_STAT_CLAMP_1
    (x.clamp.toNat.testBit 1)).setFlag MAG_STAT_IN_CORR (s.axHomed axX && s.inCorridor (s.axPos axX))

/-- A disc is loaded in a station: WS_VALID clears for every layer (R220); the write fronts are to be located anew (R186), OPC is
to run again (R205), and a layer that its failure closed is open again (R206). -/
def State.newDisc (s : State) (st : Nat) : State :=
  let fresh (l : LayerSt) : LayerSt :=
    if s.srcOf st = some l.slot then { l with found := false, opcDone := false, unwritable := false } else l
  [2 * st, 2 * st + 1].foldl (fun (t : State) n =>
    { t with chn := { t.chn with wsValid := t.chn.wsValid.setIfInBounds n [] } }.set (CHN_WR_STAT_WS_VALID n) 0)
    { s with plc := { s.plc with layers := s.plc.layers.map fresh } }

/-- A disc leaves its station: the relocations queued for it are dropped (R217). -/
def State.discGone (s : State) (slot : Option Nat) : State :=
  let rest := s.chn.reloc.filter fun r => some r.slot != slot
  { s with chn := { s.chn with reloc := rest } }.set CHN_RELOC_PENDING rest.length

/-- An exchange step ends, and the next step starts (R286, R288, R289). A grip step ends by GRIP_DISC; Badger enters the
station's tray only while it may (R285). -/
def State.exchStep (s : State) (o : MagOrder) : State :=
  let step := s.get MAG_STAT_STEP
  let grip := s.flag MAG_STAT_GRIP_DISC
  if step = 2 then
    if grip then
      (((s.discGone (s.srcOf o.stn)).setSrc o.stn none).modMag fun m => { m with holding := true, held := m.ret }).startStep o 3
    else s
  else if step = 6 then
    if grip then s
    else
      ((match s.mag.ret with
        | some k => s.recordSlot k true
        | none => s).modMag fun m => { m with holding := false, held := none }).startStep o 7
  else if step = 7 then
    match s.mag.failing with
    | some r => s.exchFail r
    | none => if o.op = 4 then s.exchDone o false else s.startStep o 8
  else if step = 10 then
    if grip then
      ((s.recordSlot o.slot false).modMag fun m => { m with holding := true, held := some o.slot }).startStep o 11
    else s
  else if step = 12 then
    match s.mag.failing with
    | some r => s.exchFail r
    | none => if s.mayEnter o.stn then s.startStep o 13 else s
  else if step = 14 then
    if s.mag.failing.isSome then s.startStep o 3
    else if s.clamped o.stn then
      (((s.setSrc o.stn s.mag.held).newDisc o.stn).modMag fun m => { m with holding := false, held := none }).startStep o 15
    else s.clampFail o
  else if step = 15 then s.exchDone o true
  else if step = 0 then s
  else s.startStep o (step + 1)

/-- A probe is over: after a full slot the next one is probed, after an empty one the order's first step starts (R644). -/
def State.probeNext (s : State) (o : MagOrder) (full : Bool) : State :=
  if full then
    match s.unknownSlot with
    | some j => s.probeSlot j
    | none => s.exchFail 0
  else s.firstStep o

/-- What Badger does goes on once its moves are over (R284, R286, R290, R644). -/
def State.stageStep (s : State) : State :=
  match s.mag.stage, s.mag.run with
  | .exchange, some o => s.exchStep o
  | .probe k, some _ => if s.flag MAG_STAT_GRIP_DISC then s.probeOver k true else s
  | .probed full, some o => s.probeNext o full
  | .moveZx, _ => (s.magResult resDone 0).magRest
  | .carry k, _ => (s.modMag fun m => { m with stage := .homing [axG] true, ret := some k }).magHomeNext axG
  | .toStation st, _ => ((s.setSrc st none).modMag fun m => { m with stage := .homing [axG] true, ret := none }).magHomeNext axG
  | .homing [] _, _ =>
    if s.flag MAG_STAT_GRIP_DISC then s.magFail 0
    else (match s.mag.ret with
      | some k => s.recordSlot k true
      | none => s).magHomed
  | _, _ => s

/-- Badger's move is over and SETTLE ticks have passed since (R286). -/
def State.magSettled (s : State) : Bool :=
  [axZ, axX, axG].all fun a =>
    (!s.axInMotion a || (s.axState a == axMoving && s.axAtRest a)) && decide ((s.axOf a).since + s.get MAG_EXCH_CFG_SETTLE ≤ s.tick)

/-- The picker's move and settle end: the next move of the plan starts, or what Badger does goes on. -/
def State.magStep (s : State) : State :=
  if s.mag.stage = .idle ∨ s.magSettled = false then s
  else
    let t := s.magArrive
    if t.mag.plan.isEmpty then t.stageStep else t.magPlan t.mag.plan

/-- The grip of a step or of a probe has stood for 0.5 s after its G move without the change it waits for (R288). -/
def State.gripStuck (s : State) : Bool :=
  let want := !(s.mag.stage == .exchange && s.get MAG_STAT_STEP == 6)
  s.mag.plan.isEmpty && (!s.axInMotion axG || (s.axState axG == axMoving && s.axAtRest axG)) && (s.flag MAG_STAT_GRIP_DISC != want) &&
    decide ((s.axOf axG).since + 250000 ≤ s.tick)

/-- A grip step's GRIP_DISC has not changed within 0.5 s (R288). -/
def State.gripFail (s0 : State) (o : MagOrder) : State :=
  let step := s0.get MAG_STAT_STEP
  let s := s0.magArrive
  if step = 2 then
    let s1 := (s.magFault 1 step).setSrc o.stn none
    if o.op = 4 then s1.startStep o 7 else s1.startStep o 8
  else if step = 10 then
    (((s.magFault 1 step).recordSlot o.slot false).modMag fun m => { m with failing := some rsEmpty }).startStep o 12
  else if step = 6 then
    (((s.magFault 1 step).exchStat 2 rsGrip s.mag.start).magResult resFailed rsGrip).recover
  else s0

/-- The pickups that an exchange waits for are FOCUSED or UNUSABLE, or the spin-up has ended (R287); recorded at the
tick boundary. While the station turns up to speed, acquisition on layer 0 is ordered on both pickups. -/
def State.magFocusTick (s : State) : State :=
  match s.mag.focusing with
  | none => s
  | some st =>
    let ready (n : Nat) : Bool := decide (puFocused ≤ s.puState n)
    let c := s.spnState st
    if (ready (2 * st) && ready (2 * st + 1)) || !(c == spAlign || c == spStart || c == spRun || (s.stnOf st).spinAt.isSome) then
      (((s.set MAG_EXCH_STAT_OUTCOME 1).set MAG_EXCH_STAT_REASON 0).set MAG_EXCH_STAT_DUR
        (min 0xFFFF ((s.tick - s.mag.focusAt) / 500))).modMag fun m => { m with focusing := none }
    else
      [2 * st, 2 * st + 1].foldl (fun (t : State) n =>
        if t.puState n = puParked ∧ t.flag (SPN_STAT_AT_SPEED st) = true ∧ t.acqSlots n = true then
          t.startAcquire n 0 0 false
        else t) s

/-- The conditions under which an order of MAG_CMD is accepted (Table: Picker order conditions). -/
def State.magAccepts (s : State) (op st slot : Nat) : Bool :=
  let m := s.magState
  let free := m == mgIdle || m == mgExchange
  let quiet := !s.spunNow st && s.spnState st == spOff && s.flag (SPN_STAT_STOPPED st) && s.sledsHomed st
  let slotOk := !(s.clamped (1 - st) && s.srcOf (1 - st) == some slot)
  if op = 1 then m != mgExchange && m != mgRecover
  else if op = 2 then
    m == mgIdle && s.axHomed axZ && s.axHomed axX && s.xInCorridor && s.inCorridor (s.getInt (AX_TGT_TGT axX))
  else if op = 3 then free && quiet && !s.clamped st && slotOk
  else if op = 4 then free && quiet && s.clamped st
  else if op = 5 then free && quiet && s.clamped st && slotOk
  else m != mgUnusable

/-- An order of MAG_CMD that the write has passed (R643): refused by its conditions, or waiting for the picker grant, in
place of an order that waits still. -/
def State.magCommand (s : State) (op st slot : Nat) : State :=
  let s1 := (((s.incWrap MAG_CMD_STAT_SEQ).set MAG_CMD_STAT_OP op).set MAG_CMD_STAT_REASON 0).modMag fun m =>
    { m with waiting := m.waiting.filter fun w => w.by_ != .maint }
  if s.magAccepts op st slot then
    let s2 := (s1.set MAG_CMD_STAT_RESULT resRunning).modMag fun m =>
      { m with waiting := m.waiting ++ [{ by_ := .maint, op := op, stn := st, slot := slot, at_ := s.tick }] }
    if 3 ≤ op ∧ op ≤ 5 then
      [2 * st, 2 * st + 1].foldl (fun (t : State) n => if t.sledParked n then t else t.sledPark n) s2
    else s2
  else s1.set MAG_CMD_STAT_RESULT resRefusedState

/-- A write of MAG_CMD (R643). -/
def State.magCmd (s : State) (p : Path) (op st slot : Nat) : State :=
  let busy := match s.mag.run with
    | some o => o.by_ == .maint
    | none => false
  s.writeBy p
    (s.mode == modeMaintain && decide (1 ≤ op) && decide (op ≤ 6) && (decide (slot ≤ 23) || !(op == 3 || op == 5)) && !busy)
    fun t => t.magCommand op st slot

/-- The axes are switched on with a mode that may use them (R41, R272). -/
def State.axesOn (s : State) : State := (List.range 7).foldl (fun (t : State) a => t.axOn a) s

/-- Badger homes on entry to SERVE or MAINTAIN, and whenever a magazine axis has lost HOMED (R284). -/
def State.badgerHoming (s : State) : State :=
  if s.magState = mgUnusable ∨ s.mag.stage ≠ .idle then s
  else if s.axHomed axZ && s.axHomed axX && s.axHomed axG then
    if s.magState = mgOff ∨ s.magState = mgUnhomed then s.set MAG_STAT_STATE mgIdle else s
  else s.magHome mgHoming

end Sys2Proof.Machine
end

