-- ==== Sys2Proof/Machine/EndOps.lean ====
section
/-!
DEFINITION. The error log, metering counts and completion entries of commands (09_commands.md: R381 to R391, R410, R412 to
R414).
DEDUCED (notes/assumptions/27.md, unsafe): Commands: FLUSH holds later immediate commands, METER RSTATE shows the first record, DELETE searches tier 1 and then further tiers, RESERVE of a remote holder completes with the holder and 0 ms.
-/

namespace Sys2Proof.Machine

open Sys2Proof

/-! ### Sessions and counts -/

/-- The session of a path, if it is one and open. -/
def State.sessOf (s : State) (p : Path) : Option Session :=
  match p with
  | .session id => s.session? id
  | .service => none

/-- The state with the session of an ID changed. -/
def State.modSess (s : State) (p : Path) (f : Session → Session) : State :=
  match p with
  | .session id => { s with cmd := { s.cmd with sessions := s.cmd.sessions.map fun x => if x.id = id then f x else x } }
  | .service => s

/-- The tenant of a path: the session's tenant, and 0 on the management session and the service port. -/
def State.tenantOf (s : State) (p : Path) : Nat := match s.sessOf p with
  | some x => if x.mgmt then 0 else x.tenant
  | none => 0

/-- The path may give management commands: the management session or the service port (R377). -/
def State.mgmtPath (s : State) (p : Path) : Bool := match p with
  | .service => true
  | .session _ => match s.sessOf p with
    | some x => x.mgmt
    | none => false

/-- Commands of a path that have an admission outcome and have not ended. -/
def State.cmdsOf (s : State) (p : Path) : List Cmd := s.cmd.cmds.filter fun c => c.path == p

/-- Commands of a session not finally completed, arrivals included (R381). -/
def State.sessLoad (s : State) (p : Path) : Nat :=
  (s.cmdsOf p).length + (match s.sessOf p with
    | some x => x.arrivals.length
    | none => 0)

/-- CMD_OUT and CMD_DEFERRED follow the commands held. -/
def State.cmdCounts (s : State) : State :=
  (s.set CMD_OUT_COUNT (s.cmd.cmds.length)).set CMD_DEFERRED_COUNT (s.cmd.cmds.filter fun c => c.deferred).length

def State.cmdOf (s : State) (id : Nat) : Option Cmd := s.cmd.cmds.find? fun c => c.id == id

def State.modCmd (s : State) (id : Nat) (f : Cmd → Cmd) : State :=
  { s with cmd := { s.cmd with cmds := s.cmd.cmds.map fun c => if c.id = id then f c else c } }

/-! ### Metering accounts -/

/-- An account's counters of the minute, and the state with them changed; metering runs from the first entry to PROVISION
(R45). -/
def State.acct (s : State) (t : Nat) : MeterAcc := (s.mtr.cur.find? fun a => a.tenant == t).getD { tenant := t }

def State.modAcct (s : State) (t : Nat) (f : MeterAcc → MeterAcc) : State :=
  if s.mtr.on then
    { s with mtr := { s.mtr with cur := (s.mtr.cur.filter fun a => a.tenant != t) ++ [f (s.acct t)] } }
  else s

/-! ### The error log -/

/-- Types of Table: Error log record. -/
abbrev logFreeze : Nat := 1
abbrev logDeferred : Nat := 2
abbrev logExtent : Nat := 3
abbrev logShort : Nat := 4
abbrev logRerepl : Nat := 5
abbrev logAborted : Nat := 6
abbrev logTomb : Nat := 7
abbrev logSelfTest : Nat := 8

/-- A record is written; the log holds the last 65,536, and CMD_LOG_NEXT and CMD_LOG_OLD bound it. -/
def State.logPut (s : State) (r : LogRec) : State :=
  let seq := s.get CMD_LOG_NEXT_SEQ
  let l := s.cmd.log ++ [{ r with seq := seq, tick := s.tick }]
  let l1 := l.drop (l.length - 65536)
  let old := match l1.head? with
    | some o => o.seq
    | none => seq
  ({ s with cmd := { s.cmd with log := l1 } }.incWrap CMD_LOG_NEXT_SEQ).set CMD_LOG_OLD_SEQ old

/-- A deferred error of a tenant: a record of TYPE 0x02, counted until it is reported (R413, R414), and the DEFERRED_ERROR
fault (R429). -/
def State.deferError (s : State) (t : Nat) (r : LogRec) : State :=
  let seq := s.get CMD_LOG_NEXT_SEQ
  let s1 := s.logPut { r with type := logDeferred, tenant := t }
  let l := match s.cmd.deferredErr.find? fun e => e.1 == t with
    | some e => (s.cmd.deferredErr.filter fun x => x.1 != t) ++ [(t, min 0xFFFF (e.2.1 + 1), e.2.2)]
    | none => s.cmd.deferredErr ++ [(t, 1, seq)]
  { s1 with cmd := { s1.cmd with deferredErr := l } }.raise 0x080 2 t

/-! ### Completion entries -/

/-- What a completion entry says beside the command it belongs to. -/
structure Reply where
  status : Nat := stOk
  res0 : Nat := 0
  res1 : Nat := 0
  time : Nat := 0
  aux : Nat := 0
  rstate : Nat := 0
  logged : Bool := false
  data : List Byte := []

/-- The entry of a command and its reply. -/
def Cmd.entry (c : Cmd) (r : Reply) (interim : Bool) : Completion :=
  { path := c.path, cid := c.e.cid, status := r.status, interim := interim, logged := r.logged, rstate := r.rstate,
    prio := c.prio, res0 := r.res0 % 2 ^ 64, res1 := r.res1 % 2 ^ 64, time := r.time, aux := r.aux, data := r.data }

/-- An entry is written: in ring order with its PHASE on a session (R384), or in the reply over the service port (R377).
SQ_FREE counts the slots free after it. -/
def State.writeEntry (s : State) (k : Completion) : State :=
  match s.sessOf k.path with
  | some x =>
    let entry := { k with phase := x.phase, sqFree := x.depth - s.sessLoad k.path }
    let wraps := decide (x.cqEntries ≤ x.cqIdx + 1)
    let s1 := { s with cmd := { s.cmd with done := s.cmd.done ++ [entry] } }
    s1.modSess k.path fun y =>
      { y with cqIdx := if wraps then 0 else y.cqIdx + 1, phase := if wraps then !y.phase else y.phase }
  | none => { s with cmd := { s.cmd with done := s.cmd.done ++ [k] } }

/-- Entries written and not yet consumed, by the index the host last reported (R385). -/
def Session.unread (x : Session) : Nat := (x.cqIdx + x.cqEntries - x.cqHead) % (max 1 x.cqEntries)

/-- An interim entry of class 0x1: written when the ring has room for it beside the commands still to be completed, else
dropped and counted (R385). Over the service port there is no ring, and the reply is the final entry alone. -/
def State.interim (s : State) (c : Cmd) (r : Reply) : State :=
  match s.sessOf c.path with
  | some x =>
    if s.sessLoad c.path < x.cqEntries - x.unread then s.writeEntry (c.entry r true)
    else s.modSess c.path fun y => { y with hintDrop := (y.hintDrop + 1) % 65536 }
  | none => s

/-- A class 0x8 code freezes the session, but for the three codes of R410. -/
def freezes (status : Nat) : Bool :=
  status / 4096 == 8 && status != 0x8008 && status != 0x8009 && status != 0x800A

/-- The freeze of a session by a final entry: a log record of TYPE 0x01, the CID and LOG_SEQ kept (R410). -/
def State.freeze (s : State) (c : Cmd) (status : Nat) : State :=
  let seq := s.get CMD_LOG_NEXT_SEQ
  (s.logPut
    { seq := 0, type := logFreeze, status := status, session := match c.path with
        | .session id => id.toNat
        | .service => 0
      tenant := c.tenant, cid := c.e.cid.toNat, opcode := c.op, key := c.e.objKey.toNat, ver := c.ver }).modSess c.path
    fun x => { x with frozen := true, frozenCid := c.e.cid.toNat, frozenLog := seq }

/-- A command ends with its final entry on the path that brought it (R25, R388), a status of 16 bits with its class in bits
15:12 (R17); the entry that freezes its session carries the freeze record's LOG_SEQ. -/
def State.finish (s : State) (c : Cmd) (r : Reply) : State :=
  let s1 := { s with cmd := { s.cmd with cmds := s.cmd.cmds.filter fun x => x.id != c.id } }.cmdCounts
  let open_ := match s.sessOf c.path with
    | some x => !x.frozen
    | none => false
  if freezes r.status && open_ then
    let seq := s1.get CMD_LOG_NEXT_SEQ
    (s1.freeze c r.status).writeEntry (c.entry { r with logged := true, aux := seq } false)
  else s1.writeEntry (c.entry r false)

/-- The retry-after that says not to retry unchanged. -/
abbrev neverRetry : Nat := 0xFFFFFFFF

/-- A command that execution refuses or fails ends with a code and no result (R393). The spec states no retry-after for a
class 0x4 code outside R391: TIME is then a free value. -/
def State.finishWith (s : State) (c : Cmd) (status : Nat) : State :=
  if status / 4096 = 4 then (s.draw.2).finish c { status := status, time := s.draw.1.toNat }
  else s.finish c { status := status }

/-- The host's consumer index reported by an entry is kept (R385). -/
def State.noteHead (s : State) (p : Path) (e : Entry) : State :=
  if e.cqHead.toNat / 32768 = 1 then s.modSess p fun x => { x with cqHead := e.cqHead.toNat % 4096 % max 1 x.cqEntries }
  else s

end Sys2Proof.Machine
end

