-- ==== Sys2Proof/Machine/ArbOps.lean ====
section
/-!
DEFINITION. Media arbitration: jobs, ranks, the slot table, start estimates, grants, parking and the work that a holder
asks of its station (10_arbitration_cache.md, R431 to R447; R395 to R399; R291, R292).
DEDUCED (notes/assumptions/26.md, unsafe): Picker: step 1 moves Z, a failed grip of step 2 goes through step 8, re-admission of the magazine axes returns Badger to IDLE or UNHOMED.
DESIGN CHOICE (notes/assumptions/31.md, safe): Energy and start estimates use the duration model of R440 as exact rationals; DEFICIT rounds toward zero.
-/

namespace Sys2Proof.Machine

open Sys2Proof

abbrev stnIdle : Nat := 0
abbrev stnHeld : Nat := 1
abbrev stnParked : Nat := 2
abbrev stnOut : Nat := 3

def State.arbOf (s : State) (st : Nat) : StnArb := (s.arb.stn[st]?).getD {}

def State.modArb (s : State) (st : Nat) (f : StnArb → StnArb) : State :=
  { s with arb := { s.arb with stn := s.arb.stn.setIfInBounds st (f (s.arbOf st)) } }

def State.grantState (s : State) (st : Nat) : Nat := s.get (ARB_STN_W0_STATE st)

/-- A hold of a STATION reaction keeps the station out of service (R559, R560). -/
def State.stnHold (s : State) (st : Nat) : Bool := s.get (FLT_STN_HELD st) != 0

/-- The station is in service (R432): enabled, usable, not held and not awaiting a calibration load (R548), in a mode in
which spindles run (R41). -/
def State.inService (s : State) (st : Nat) : Bool :=
  s.flag (SPN_CTL_ENABLE st) && s.spnState st != spUnusable && !s.stnHold st &&
    !(s.cal.loads.any fun l => l.stn == st) && (s.mode == modeServe || s.mode == modeDrain || s.mode == modeMaintain)

/-- The station cannot return by itself: UNUSABLE, or held LOCKED (R328, R432, R560). -/
def State.goneForGood (s : State) (st : Nat) : Bool := s.spnState st == spUnusable || s.flag (FLT_STN_LOCKED st)

/-! ### Ranks (R395, R433) -/

def JobKind.house (k : JobKind) : Bool := match k with
  | .tenant => false
  | .peer => false
  | .maint => false
  | _ => true

/-- The deficit of a tenant, in µs. -/
def State.deficitOf (s : State) (t : Nat) : Int := match s.arb.deficit.find? fun d => d.1 == t with
  | some d => d.2
  | none => 0

/-- Job `a` ranks ahead of job `b`: class, tenant jobs before house jobs, deficit, admission tick. -/
def State.ahead (s : State) (a b : Job) : Bool :=
  if a.cls ≠ b.cls then decide (b.cls < a.cls)
  else if a.kind.house ≠ b.kind.house then b.kind.house
  else
    let da := if a.kind.house then 0 else s.deficitOf a.tenant
    let db := if b.kind.house then 0 else s.deficitOf b.tenant
    if da ≠ db then decide (db < da)
    else if a.at_ ≠ b.at_ then decide (a.at_ < b.at_)
    else decide (a.id < b.id)

/-- The highest-ranked job of a list. -/
def State.best (s : State) : List Job → Option Job
  | [] => none
  | j :: l => match s.best l with
    | none => some j
    | some k => if s.ahead k j then some k else some j

/-- The jobs waiting for a station. -/
def State.waiting (s : State) (st : Nat) : List Job := s.arb.jobs.filter fun j => j.station == st && j.joined

/-- Class of a house job (Table: House job classes). -/
def State.houseClass (s : State) (k : JobKind) : Nat := match k with
  | .rebuild => s.get ARB_HOUSE2_REBUILD
  | .cal => s.get ARB_HOUSE2_REBUILD
  | .selftest => s.get ARB_HOUSE_SELFTEST
  | .reloc => s.get ARB_HOUSE_RELOC
  | .rerepl => s.get ARB_HOUSE_REREPL
  | _ => 0

/-- PRIO_MAX of a tenant's contract. -/
def State.prioMax (s : State) (t : Nat) : Nat := bitsOf (s.reg (keyTc t 0)).toNat 18 16

/-! ### The slot table (R435, R436) -/

/-- The slot that holds a tick of the epoch, counted from its boundary: the greatest k with floor(k·L/256) not above it. -/
def slotAt (l off : Nat) : Nat := if l = 0 then 255 else min 255 (((off + 1) * 256 - 1) / l)

/-- First tick of a slot. -/
def slotStart (l k : Nat) : Nat := k * l / 256

/-- Slot words in force in the running epoch, and those applied for later epochs (R438). -/
def State.slotNow (s : State) (k : Nat) : Word := s.reg (ARB_SLOT k)
def State.slotLater (s : State) (k : Nat) : Word :=
  if s.txnState 1 = 2 then s.shadowWord 1 (ARB_SLOT k) else s.reg (ARB_SLOT k)

/-- Whether a slot word admits a job directly on a station. -/
def slotAdmits (w : Word) (st : Nat) (j : Job) : Bool :=
  match j.kind with
  | .maint => true
  | k => if k.house then w.getLsbD (16 + st) else w.getLsbD (8 * st + j.cls)

/-- The jobs of a list eligible under a slot word: those it admits, or all of them under SPILL when it admits none. -/
def eligible (w : Word) (st : Nat) (l : List Job) : List Job :=
  let d := l.filter fun j => slotAdmits w st j
  if d.isEmpty && w.getLsbD (20 + st) then l else d

/-! ### The duration model (R440) -/

/-- A pickup with an unusable or disabled spot reads in single-spot mode (R202). -/
def State.singleSpot (s : State) (n : Nat) : Bool :=
  (List.range 4).any fun k => s.flag (CHN_SPOT_STAT_UNUSABLE (4 * n + k)) || !s.flag (CHN_SPOT_CTL_ENABLE (4 * n + k))

/-- Rate of the station's working set-point, rpm per tick, up or down; none where it is zero or no speed slot is there. -/
def State.rampOf (s : State) (st : Nat) (up : Bool) : Option Rat :=
  match s.slotOf (outSpin st) with
  | some n =>
    let r := s.pageVal n (if up then 12 else 13)
    if r ≤ 0 then none else some r
  | none => none

/-- Milliseconds that a change of speed takes (Table: Duration model): 2,500 where its rate is zero. -/
def State.speedTime (s : State) (st : Nat) (from_ to_ : Rat) (settle : Bool) : Rat :=
  if from_ = to_ then 0
  else match s.rampOf st (decide (from_ < to_)) with
    | some r => ratAbs (to_ - from_) / r / 500 + (if settle then 50 else 0)
    | none => 2500

/-- Speed a job's work runs at. -/
def Job.rpm (j : Job) : Nat := if j.write then 5400 else 7200

/-- Milliseconds of one unit of a job. -/
def State.unitTime (s : State) (j : Job) (u : JobUnit) : Rat :=
  let f : Rat := (framesPerTurn u.zone : Nat)
  if j.write then 1156 / f * (60000 / 5400) + ((s.get ARB_EST_OVH_WR : Nat) : Rat)
  else if s.singleSpot (2 * j.station + u.side) then 1156 / f * (60000 / 7200) + ((s.get ARB_EST_OVH_RD : Nat) : Rat)
  else 1156 / (4 * f) * (60000 / 7200) + ((s.get ARB_EST_OVH_RD : Nat) : Rat)

/-- A job's duration: the larger of its two pickups' sums. -/
def State.jobTime (s : State) (j : Job) (units : List JobUnit) : Rat :=
  let sum (side : Nat) : Rat := (units.filter fun u => u.side == side).foldl (fun t u => t + s.unitTime j u) 0
  if sum 0 < sum 1 then sum 1 else sum 0

/-- Disc and speed of a station as the estimates follow them. -/
structure StnView where
  slot : Option Nat
  rpm : Rat

/-- The disc clamped in a station, and its measured speed. -/
def State.view (s : State) (st : Nat) : StnView :=
  { slot := if s.clamped st then s.srcOf st else none, rpm := ((s.speedOf st : Nat) : Rat) / 8 }

/-- The station holds the disc a job works on. -/
def StnView.holds (v : StnView) (j : Job) : Bool := match j.slot with
  | none => true
  | some k => v.slot == some k

/-- Remaining exchange time of the picker, a time of ms from now, while it serves the other station. -/
def State.pickerBusy (s : State) (st : Nat) (t : Rat) : Rat :=
  match s.mag.run with
  | some o =>
    if s.get ARB_PK_STAT_STATE = 1 ∧ o.stn ≠ st ∧ s.mag.started then
      let rest := ((s.get PLC_T_EXCH_T_EXCH : Nat) : Rat) - (((s.tick - s.mag.start : Nat) : Rat) / 500) - t
      if rest < 0 then 0 else rest
    else 0
  | none => 0

/-- Milliseconds of a disc exchange: the present speed's ramp down, 50 ms at any speed, the picker's wait and PLC_T_EXCH. -/
def State.exchTime (s : State) (v : StnView) (st : Nat) (t : Rat) : Rat :=
  (if v.rpm = 0 then 50 else s.speedTime st v.rpm 0 true) + s.pickerBusy st t + ((s.get PLC_T_EXCH_T_EXCH : Nat) : Rat)

/-- Setup of a job from a view of its station, beginning a time of ms from now: exchange, spin-up or speed change; none of a
maintenance order. -/
def State.setup (s : State) (v : StnView) (j : Job) (t : Rat) : Rat :=
  if j.kind = .maint then 0
  else if v.holds j then s.speedTime j.station v.rpm j.rpm true
  else s.exchTime v j.station t + s.speedTime j.station 0 j.rpm true

/-- The view after a job. -/
def StnView.after (v : StnView) (j : Job) : StnView :=
  if j.kind = .maint then v else { slot := j.slot.orElse fun _ => v.slot, rpm := j.rpm }

/-- Remaining time of the holder of a station, with its setup still to run; of a held station, the time to its return
(R432, R440). -/
def State.remain (s : State) (st : Nat) : Rat :=
  match (s.arbOf st).job with
  | some j =>
    let v := s.view st
    let set := if j.kind = .maint then 0
      else if v.holds j then s.speedTime st v.rpm j.rpm true
      else if s.mag.run.any (fun o => o.stn == st) && s.mag.started then
        let rest := ((s.get PLC_T_EXCH_T_EXCH : Nat) : Rat) - (((s.tick - s.mag.start : Nat) : Rat) / 500)
        (if rest < 0 then 0 else rest) + s.speedTime st 0 j.rpm true
      else s.setup v j 0
    set + s.jobTime j j.units
  | none => if s.stnHold st then ((s.get (FLT_STN_REMAIN st) * 1000 : Nat) : Rat) else 0

/-- Slot word at a time of ms from now: of the running epoch, or of a later one of 500,000 ticks. -/
def State.slotWordAt (s : State) (ms : Rat) : Word :=
  let off := s.tick - s.ce.epTick + (ms * 500).floor.toNat
  let l := s.get ARB_SLOT_CUR_L
  if off < l then s.slotNow (slotAt l off) else s.slotLater (slotAt 500000 ((off - l) % 500000))

/-- Start of the slot after the one at a time of ms from now. -/
def State.nextSlotAt (s : State) (ms : Rat) : Rat :=
  let off := s.tick - s.ce.epTick + (ms * 500).floor.toNat
  let l := s.get ARB_SLOT_CUR_L
  let next := if off < l then (let k := slotAt l off; if k = 255 then l else slotStart l (k + 1))
    else
      let r := (off - l) % 500000
      let k := slotAt 500000 r
      off - r + (if k = 255 then 500000 else slotStart 500000 (k + 1))
  ((next + s.ce.epTick - s.tick : Nat) : Rat) / 500

/-- The estimates of the jobs of a queue in the order they would be granted (R440): job and start, ms from now. -/
def State.walk (s : State) (st : Nat) : Nat → StnView → Rat → List Job → List (Nat × Rat)
  | 0, _, _, _ => []
  | f + 1, v, t, q =>
    if q.isEmpty then []
    else match s.best (eligible (s.slotWordAt t) st q) with
      | none => s.walk st f v (s.nextSlotAt t) q
      | some j =>
        let start := t + s.setup v j t
        (j.id, start) :: s.walk st f (v.after j) (start + s.jobTime j j.units) (q.filter fun k => k.id != j.id)

/-- The view a station has once its holder is done. -/
def State.afterHolder (s : State) (st : Nat) : StnView := match (s.arbOf st).job with
  | some j => (s.view st).after j
  | none => s.view st

/-- Estimates of every job waiting for a station, with further jobs added to its queue. -/
def State.estimates (s : State) (st : Nat) (more : List Job) : List (Nat × Rat) :=
  let q := s.waiting st ++ more
  s.walk st (q.length + 600) (s.afterHolder st) (s.remain st) q

/-- The start estimate of a job on its station, whether it waits there or not, in whole ms. -/
def State.estimate (s : State) (j : Job) : Nat :=
  if (s.arbOf j.station).job.any (fun k => k.id == j.id) then 0
  else
    let more := if s.arb.jobs.any (fun k => k.id == j.id && k.joined) then [] else [j]
    match (s.estimates j.station more).find? fun e => e.1 == j.id with
    | some e => e.2.floor.toNat
    | none => 0

/-- Jobs ranked ahead of a job on its station, plus one (R394). -/
def State.position (s : State) (j : Job) : Nat :=
  1 + ((s.waiting j.station).filter fun k => k.id != j.id && s.ahead k j).length

/-! ### Grants and parking (R434, R437, R443 to R445) -/

/-- KIND of ARB_STN_s. -/
def JobKind.code (k : JobKind) : Nat := match k with
  | .tenant => 0
  | .peer => 1
  | .maint => 3
  | _ => 2

/-- The account of a job: its tenant, or the house account. -/
def Job.owner (j : Job) : Nat := if j.kind.house then 0 else j.tenant

/-- A waiting job takes its station; what an earlier read delivered or lost of its units is forgotten, and the previous-turn decisions
are not valid (R189). -/
def State.grant (s : State) (st : Nat) (j : Job) : State :=
  let mine (id : UnitId) : Bool := j.units.any fun u => u.id == id
  let s1 : State := { s with
    arb := { s.arb with jobs := s.arb.jobs.filter fun k => k.id != j.id }
    chn := { s.chn with lost := s.chn.lost.filter fun id => !mine id, delivered := s.chn.delivered.filter fun d => !mine d.id } }
  let s2 := (((s1.prevLost (2 * st)).prevLost (2 * st + 1))).modArb st fun _ => { job := some j, since := s.tick }
  (((((s2.set (ARB_STN_W0_STATE st) stnHeld).set (ARB_STN_W0_TENANT st) j.owner).set (ARB_STN_W0_CLASS st) (min 7 j.cls)).set
    (ARB_STN_W0_KIND st) j.kind.code).incWrap ARB_CNT_GRANT_COUNT)

/-- The station becomes IDLE. -/
def State.idleStn (s : State) (st : Nat) : State :=
  ((((s.modArb st fun _ => {}).set (ARB_STN_W0_STATE st) stnIdle).set (ARB_STN_W0_TENANT st) 0).set (ARB_STN_W0_CLASS st)
    0).set (ARB_STN_W0_KIND st) 0

/-- A grant parks on an account. -/
def State.parkStn (s : State) (st owner : Nat) (hold : Option Nat) : State :=
  (((s.modArb st fun _ => { parked := some owner, hold := hold, since := s.tick }).set (ARB_STN_W0_STATE st) stnParked).set
    (ARB_STN_W0_TENANT st) owner).set (ARB_STN_W0_CLASS st) 0

/-- The holder of a station ends. The grant parks when no other job waits and parking is on, or becomes IDLE and the
station spins down with its disc; with jobs waiting, the next round grants (R443, R445). -/
def State.releaseStn (s : State) (st : Nat) : State :=
  match (s.arbOf st).job with
  | some j =>
    if (s.waiting st).isEmpty then
      if s.get ARB_PARK_PARK_TMO = 0 ∧ j.hold = none then (s.idleStn st).spnStop st
      else s.parkStn st j.owner j.hold
    else s.idleStn st
  | none => s

/-- A station may be granted (R52): in service, with valid calibration, or to a calibration job or a maintenance order. -/
def State.mayGrant (s : State) (st : Nat) (j : Job) : Bool := s.calOk st || j.kind == .cal || j.kind == .maint

/-- One arbitration round of a station in service (R434). -/
def State.stnRound (s : State) (st : Nat) : State :=
  let q := (s.waiting st).filter fun j => s.mayGrant st j
  let w := s.slotNow (s.get ARB_SLOT_CUR_SLOT)
  let pick (t : State) : State := match t.best (eligible w st q) with
    | some j => t.grant st j
    | none => t
  let g := s.grantState st
  if g = stnIdle then pick s
  else if g = stnParked ∧ q.isEmpty = false then
    let owner := (s.arbOf st).parked.getD 0
    if q.all fun j => j.owner == owner then
      match s.best q with
      | some j => s.grant st j
      | none => s
    else pick ((s.idleStn st).addSat ARB_CNT_EVT_PARK_REL 1)
  else s

/-! ### The queue -/

/-- A job joins the arbiter; its number is new. -/
def State.addJob (s : State) (j : Job) : State :=
  { s with arb := { s.arb with jobs := s.arb.jobs ++ [{ j with id := s.arb.nextJob }], nextJob := s.arb.nextJob + 1 } }

def State.dropJobs (s : State) (f : Job → Bool) : State :=
  { s with arb := { s.arb with jobs := s.arb.jobs.filter fun j => !f j } }

/-- Every job of the arbiter, holders included. -/
def State.allJobs (s : State) : List Job :=
  s.arb.jobs ++ (List.range 2).filterMap fun st => (s.arbOf st).job

/-- A job, waiting or holding, is changed. -/
def State.modJob (s : State) (id : Nat) (f : Job → Job) : State :=
  let s1 := { s with arb := { s.arb with jobs := s.arb.jobs.map fun j => if j.id = id then f j else j } }
  (List.range 2).foldl (fun (t : State) st => match (t.arbOf st).job with
    | some j => if j.id = id then t.modArb st fun a => { a with job := some (f j) } else t
    | none => t) s1

/-- The station in which a slot's disc is clamped. -/
def State.stationOf (s : State) (slot : Nat) : Option Nat :=
  (List.range 2).find? fun st => s.clamped st && s.srcOf st == some slot

/-- Total load of a station, used to bind jobs whose disc lies in the magazine. -/
def State.stnLoad (s : State) (st : Nat) : Nat :=
  ((s.waiting st).map fun j => j.units.length + 1).sum + (match (s.arbOf st).job with
    | some j => j.units.length + 1
    | none => 0)

/-- The station a slot's work is bound to (R432): the one that holds the disc; for a disc in the magazine the one in
service, with valid calibration, that has less work bound to it, then STN_0. -/
def State.bindSlot (s : State) (slot : Nat) : Option Nat :=
  match s.stationOf slot with
  | some st => some st
  | none =>
    let ok (st : Nat) : Bool := s.inService st && s.calOk st
    if ok 0 && ok 1 then some (if s.stnLoad 1 < s.stnLoad 0 then 1 else 0)
    else if ok 0 then some 0 else if ok 1 then some 1 else none

/-! ### What the holder asks of its station (R237, R291, R442) -/

/-- A request for Badger of a station's holder (R291, R442): the disc is exchanged or loaded; the spindle stops and the
pickups park first (R285). -/
def State.askPicker (s : State) (st : Nat) (j : Job) (slot : Nat) : State :=
  let by_ : Requester := if st = 0 then .stn0 else .stn1
  let o : MagOrder :=
    { by_ := by_, op := if s.clamped st then 5 else 3, stn := st, slot := slot, rpm := j.rpm, prio := j.cls, at_ := s.tick }
  let s1 := s.modMag fun m => { m with waiting := (m.waiting.filter fun w => w.by_ != by_) ++ [o] }
  let s2 := s1.modArb st fun a => { a with asked := true }
  if s.spunNow st then s
  else (((s2.puPark (2 * st) resDone).puPark (2 * st + 1) resDone).when (!s.flag (SPN_STAT_STOPPED st)) fun t => t.spnStop st)

/-- A pickup is brought to a unit of the holder: acquired, sent to its layer, its mode and its turn. The unit for which it
stands is remembered, so that it is positioned once for each. -/
def State.steer (s : State) (st side : Nat) (j : Job) (u : JobUnit) : State :=
  let n := 2 * st + side
  let busy := (s.puOf n).op.isSome || (s.puOf n).next.isSome
  let done := (if side = 0 then (s.arbOf st).at0 else (s.arbOf st).at1) == some u
  let mark (t : State) : State := t.modArb st fun a => if side = 0 then { a with at0 := some u } else { a with at1 := some u }
  if busy then s
  else if s.puState n = puParked then
    if s.acqSlots n && s.axState n != axDisabled then s.startAcquire n u.layer u.turn false else s
  else if s.puState n = puFocused then if s.slotsReady n then s.startSeek n u.turn false else s
  else if s.puState n = puTracking then
    if s.flag (OPU_STAT_GATE n) then s
    else if s.get (OPU_LAYER_CUR n) ≠ u.layer then (if s.jumpSlots n then s.startJump n u.layer u.turn false false else s)
    else if s.flag (OPU_STAT_WRITE_MODE n) ≠ j.write then if s.slotsReady n then s.orderMode n j.write false else s
    else if done then s
    else if s.get (OPU_SPIRAL_TURN n) = u.turn then mark s
    else if s.slotsReady n then mark (s.startSeek n u.turn false) else s
  else s

/-- The speed at which a station works: that of its holder's job, or that of CHN_RL_CFG while the fifth rung of a ladder runs
(R212). -/
def State.workRpm (s : State) (st : Nat) (j : Job) : Nat :=
  if s.chn.blocks.any fun b => b.pu / 2 == st && b.rung == 5 && !b.waits then 100 * s.get CHN_RL_CFG_RPM else j.rpm

/-- The holder's work of a tick: its disc, its speed, its pickups. -/
def State.workStn (s : State) (st : Nat) : State :=
  match (s.arbOf st).job with
  | none => s
  | some j =>
    let v := s.view st
    if j.kind = .maint then s
    else if !v.holds j then
      match j.slot with
      | some k => if (s.arbOf st).asked then s else s.askPicker st j k
      | none => s
    else if j.kind = .cal then s
    else if s.get (SPN_SPEED_TARGET st) ≠ s.workRpm st j then
      if s.spinAccepted st (s.workRpm st j) (s.calOk st) then s.spin st (s.workRpm st j) else s
    else if s.flag (SPN_STAT_AT_SPEED st) then
      (List.range 2).foldl (fun (t : State) side =>
        match j.units.find? fun u => u.side == side with
        | some u => t.steer st side j u
        | none =>
          if t.puState (2 * st + side) = puParked ∧ t.acqSlots (2 * st + side) = true ∧
              t.axState (2 * st + side) ≠ axDisabled ∧ (t.puOf (2 * st + side)).op = none then
            t.startAcquire (2 * st + side) 0 0 false
          else t) s
    else s

/-! ### The picker arbiter (R291, R292) -/

/-- Code of a requester in ARB_PK_STAT.OWNER. -/
def Requester.code (r : Requester) : Nat := match r with
  | .stn0 => 0
  | .stn1 => 1
  | .maint => 2

/-- Order of the picker's requesters (R291): class, then the older request, then STN_0, STN_1, maintenance. -/
def pickerAhead (a b : MagOrder) : Bool :=
  if a.prio ≠ b.prio then decide (b.prio < a.prio)
  else if a.at_ ≠ b.at_ then decide (a.at_ < b.at_)
  else decide (a.by_.code < b.by_.code)

/-- An order may start now: an exchange or MOVE_ZX needs Badger IDLE, and an exchange its station stopped with both sleds
parked (R284, R285). -/
def State.mayRun (s : State) (o : MagOrder) : Bool :=
  if 3 ≤ o.op ∧ o.op ≤ 5 then s.magState == mgIdle && s.mayEnter o.stn
  else if o.op = 2 then s.magState == mgIdle
  else true

/-- The picker's highest-ranked requester that may start now. -/
def State.pickerBest (s : State) : Option MagOrder :=
  (s.mag.waiting.filter fun o => s.mayRun o).foldl (fun b o => match b with
    | none => some o
    | some x => if pickerAhead o x then some o else some x) none

end Sys2Proof.Machine
end

