-- ==== Sys2Proof/Machine/CampOps.lean ====
section
/-!
DEFINITION. Calibration procedures and campaigns: which registers a procedure writes, the limits its values keep, and how a
campaign starts, goes on and ends (13_configuration.md: R534 to R543, R547).
-/

namespace Sys2Proof.Machine

open Sys2Proof

def State.modCal (s : State) (f : CalSt → CalSt) : State := { s with cal := f s.cal }

/-! ### Procedures (Table: Calibration procedures, Table: Calibration blob) -/

/-- The station results by their place in a calibration blob: offset, register, procedure. -/
def pickupPlaces (base n : Nat) : List (Nat × Nat × Nat) :=
  [(base, CAL_PU_W0 n, 4), (base + 4, CAL_PU_W1 n, 4)] ++
    ((List.range 24).flatMap fun l =>
      let b := base + 0x20 + 48 * l
      [(b, CAL_PU_LAYER n l 0, 5), (b + 4, CAL_PU_LAYER n l 1, 5), (b + 8, CAL_PU_LAYER n l 2, 7), (b + 12, CAL_PU_LAYER n l 3, 5),
        (b + 16, OPU_TILT_OFS n l, 8), (b + 20, OPU_DEPTH n l, 5), (b + 24, OPU_SA n l 0, 6), (b + 28, OPU_SA n l 1, 6),
        (b + 32, OPU_SA n l 2, 6), (b + 36, OPU_SA n l 3, 6)]) ++
    (List.range 4).flatMap fun i => (List.range 4).flatMap fun j => (List.range 7).map fun k =>
      (base + 0x4A0 + 4 * (28 * i + 7 * j + k), CHN_EQ_PRE (4 * n + i) j k, 9)

def blobPlaces (st : Nat) : List (Nat × Nat × Nat) :=
  [(0x80, CAL_ENC_W0 st, 3), (0x84, CAL_ENC_W1 st, 3), (0x88, CAL_ENC_W2 st, 3), (0x8C, CAL_ENC_W3 st, 3), (0x90, SPN_COMM st, 3)] ++
    pickupPlaces 0xC0 (2 * st) ++ pickupPlaces 0x720 (2 * st + 1)

/-- The registers a procedure writes, in the order of the calibration blob. -/
def procRegs (p st : Nat) : List Nat :=
  if p = 0 then (List.range 48).map fun c => CAL_ADC c
  else if p = 1 then (List.range 16).map fun k => CAL_RF k
  else if p = 2 then (List.range 22).map fun k => CAL_MON k
  else (blobPlaces st).filterMap fun e => if e.2.2 = p then some e.2.1 else none

/-- OFS and GAIN of a correction entry. -/
def entryOfs (w : Word) : Int := signedOf 16 (w.toNat % 65536)
def entryGain (w : Word) : Nat := w.toNat / 65536

/-- A GAIN lies between hundredths of 1. -/
def gainIn (w : Word) (least most : Nat) : Bool :=
  decide (least * 32768 ≤ 100 * entryGain w) && decide (100 * entryGain w ≤ most * 32768)

/-- Adjacent elements of a list satisfy a relation. -/
def adjacent {α : Type} (r : α → α → Bool) : List α → Bool
  | a :: b :: l => r a b && adjacent r (b :: l)
  | _ => true

/-- A value lies within a share of another, in hundredths. -/
def nearTo (share : Nat) (a b : Rat) : Bool := decide (100 * ratAbs (b - a) ≤ (share : Nat) * ratAbs a)

/-- The zones of a layer, in mV. -/
def State.saZones (s : State) (n l : Nat) : List Nat :=
  (List.range 4).flatMap fun k => [s.get (OPU_SA_ZONE_LO n l k), s.get (OPU_SA_ZONE_HI n l k)]

/-- A procedure's results keep their limits. The ADCs are 14 bits wide, and an encoder signal swings to half their range. -/
def State.procOk (s : State) (p st : Nat) : Bool :=
  let ofsIn (a : Nat) (lim : Int) : Bool := decide ((entryOfs (s.reg a)).natAbs ≤ lim.toNat)
  let layers := List.range 24
  let both (f : Nat → Bool) : Bool := f (2 * st) && f (2 * st + 1)
  if p = 0 then (procRegs 0 0).all fun a => ofsIn a 245 && gainIn (s.reg a) 97 103
  else if p = 1 then (procRegs 1 0).all fun a => ofsIn a 4 && gainIn (s.reg a) 90 110
  else if p = 2 then
    gainIn (s.reg (CAL_MON 0)) 98 102 && (List.range 20).all fun i =>
      let mA := Config.shuntOffset (i + 2) (entryOfs (s.reg (CAL_MON (i + 2))))
      decide (mA.natAbs ≤ if i < 6 then 100 else 20)
  else if p = 3 then
    let amp := s.get (CAL_ENC_W3_AMP st)
    let g0 := entryGain (s.reg (CAL_ENC_W0 st))
    let g1 := entryGain (s.reg (CAL_ENC_W1 st))
    decide (40 * 8192 ≤ 100 * amp) && decide (100 * amp ≤ 90 * 8192) &&
      ([CAL_ENC_W0 st, CAL_ENC_W1 st].all fun a => decide (10 * (entryOfs (s.reg a)).natAbs ≤ amp)) &&
      decide (80 * g1 ≤ 100 * g0) && decide (100 * g0 ≤ 125 * g1) && decide ((signedOf 16 (s.get (CAL_ENC_W2_QUAD st))).natAbs ≤ 1000)
  else if p = 4 then
    both fun n => [CAL_PU_W0 n, CAL_PU_W1 n].all fun a => decide (50 ≤ Config.monitorGain (s.reg a)) && decide (Config.monitorGain (s.reg a) ≤ 1000)
  else if p = 5 then
    both fun n =>
      (layers.all fun l => decide (((s.get (OPU_DEPTH_DEPTH n l) : Int) - (40000 + 11000 * (l : Int))).natAbs ≤ 5000)) &&
        adjacent (fun (a b : Nat) => decide (a + 8000 ≤ b) && decide (b ≤ a + 14000)) (layers.map fun l => s.get (OPU_DEPTH_DEPTH n l)) &&
        adjacent (nearTo 30) (layers.map fun l => bfpVal (s.reg (CAL_PU_LAYER n l 0)))
  else if p = 6 then
    both fun n =>
      adjacent (fun (a b : List Nat) => (a.zip b).all fun e => decide (e.1 ≤ e.2 + 1500) && decide (e.2 ≤ e.1 + 1500)) (layers.map fun l => s.saZones n l)
  else if p = 7 then
    both fun n =>
      let v := layers.map fun l => bfpVal (s.reg (CAL_PU_LAYER n l 2))
      v.all fun x => nearTo 30 (v.sum / 24) x
  else if p = 8 then both fun n => layers.all fun l => decide ((s.getInt (OPU_TILT_OFS_OFS n l)).natAbs ≤ 5000)
  else
    both fun n => (List.range 4).all fun i => (List.range 4).all fun j =>
      let taps := (List.range 7).map fun k => bfpVal (s.reg (CHN_EQ_PRE (4 * n + i) j k))
      let centre := taps.getD 3 0
      decide (1 / 2 ≤ centre) && decide (centre ≤ 2) && decide (4 / 5 ≤ taps.sum) && decide (taps.sum ≤ 5 / 4)

/-! ### CAL_VALID (R537) -/

/-- Bits 3 to 9 of a station as CAL_VALID holds them. -/
def calStnFld (st : Nat) : Fld := if st = 0 then CAL_VALID_STN_0 else CAL_VALID_STN_1

/-- A procedure's result is valid. -/
def State.procValid (s : State) (p st : Nat) : Bool :=
  if p < 3 then (s.get CAL_VALID_DEV).testBit p else (s.get (calStnFld st)).testBit (p - 3)

/-- SYS_STAT.CAL_STN_s follows CAL_VALID. -/
def State.calShow (s : State) : State :=
  let dev := s.get CAL_VALID_DEV == 7
  (s.setFlag SYS_STAT_CAL_STN_0 (dev && s.get CAL_VALID_STN_0 == 127)).setFlag SYS_STAT_CAL_STN_1 (dev && s.get CAL_VALID_STN_1 == 127)

/-- A procedure's bit sets. -/
def State.procSet (s : State) (p st : Nat) : State :=
  let f := if p < 3 then CAL_VALID_DEV else calStnFld st
  let b := if p < 3 then p else p - 3
  (s.set f (s.get f ||| 2 ^ b)).calShow

/-- A station's awaiting of an automatic campaign (R546). -/
def calPendFld (st : Nat) : Fld := if st = 0 then CAL_STAT_PENDING_0 else CAL_STAT_PENDING_1

/-- CAL_FAIL is counted and raised. -/
def State.calFail (s : State) (p st : Nat) (auto : Bool) : State :=
  (s.addSat CAL_CNT_FAIL 1).raise 0x0B1 1 (p + (if p < 3 then 0 else 16 * st) + if auto then 32 else 0)

/-! ### Campaigns (R539 to R543, R547) -/

/-- The campaign ends: outcome 0 pass, 1 fail, 2 aborted. The pickups park and the spindle stops where the campaign spun the
station; an automatic campaign's grant ends. -/
def State.campEnd (s : State) (outcome failProc : Nat) : State := match s.cal.camp with
  | none => s
  | some c =>
    let s1 := s.modCal fun k => { k with camp := none }
    let s2 := if c.spun then ((s1.puPark (2 * c.stn) resDone).puPark (2 * c.stn + 1) resDone).spnStop c.stn else s1
    let passed := c.passed.foldl (fun (m : Nat) p => m ||| 2 ^ p) 0
    let s3 := (((((s2.setReg CAL_RES 0).set CAL_RES_RES 1).set CAL_RES_OUTCOME outcome).set CAL_RES_FAIL_PROC failProc).set
      CAL_RES_STN c.stn).set CAL_RES_PASSED passed
    let s4 := ((s3.setFlag CAL_RES_AUTO c.auto).set CAL_STAT_STATE 0).set CAL_STAT_PROC 0 |>.set CAL_STAT_AUTO 0
    let s5 := s4.when (outcome == 0) fun t => t.set CAL_STAT_PROGRESS 100
    let all := passed / 8 == 127
    let s6 := s5.when ((c.auto && outcome != 2) || (!c.auto && all)) fun t => t.set (calPendFld c.stn) 0
    let mine := (s6.arbOf c.stn).job.any fun j => j.kind == .cal
    if c.auto && mine then s6.releaseStn c.stn else s6

/-- The campaign stops at a failing procedure. -/
def State.campFail (s : State) (p : Nat) : State := match s.cal.camp with
  | none => s
  | some c => (s.calFail p c.stn c.auto).campEnd 1 p

/-- The campaign goes on to its next procedure, spinning the station before the first of bits 4 to 9. -/
def State.campNext (s : State) : State := match s.cal.camp with
  | none => s
  | some c => match c.left with
    | [] => s.campEnd 0 0
    | p :: _ =>
      let s1 := s.set CAL_STAT_PROC p
      if 4 ≤ p ∧ c.spun = false then
        let enc := s.procValid 3 c.stn
        if !enc && !c.mask.testBit 3 then s1.campFail p
        else if s1.spinAccepted c.stn 7200 enc then
          (s1.modCal fun k => { k with camp := some { c with spun := true } }).spin c.stn 7200
        else s1.campFail p
      else s1

/-- A campaign starts. -/
def State.campStart (s : State) (mask st : Nat) (auto : Bool) : State :=
  let procs := (List.range 10).filter fun p => mask.testBit p
  let s1 := s.modCal fun k => { k with camp := some { stn := st, mask := mask, auto := auto, left := procs } }
  let s2 := (((s1.set CAL_STAT_STATE 1).set CAL_STAT_STN st).setFlag CAL_STAT_AUTO auto).set CAL_STAT_PROGRESS 0
  let s3 := s2.incWrap CAL_CNT_CAMPAIGNS
  (if auto then s3 else s3.setReg CAL_RES 0).campNext

/-- A running campaign is cut short. -/
def State.campAbort (s : State) : State := s.campEnd 2 0

/-- A procedure of the campaign has passed. How PROGRESS counts is not stated: it is a free value. -/
def State.campPass (s : State) (p : Nat) : State := match s.cal.camp with
  | none => s
  | some c =>
    let (w, s1) := s.draw
    ((s1.modCal fun k => { k with camp := some { c with left := c.left.drop 1, passed := c.passed ++ [p] } }).set CAL_STAT_PROGRESS
      (w.toNat % 101)).campNext

/-! ### Automatic campaigns (R547) -/

/-- The disc that an automatic campaign in SERVE loads when none is clamped: that of the station's first rebuild load, else
the one in the lowest slot that is readable and not foreign. -/
def State.calSlot (s : State) (st : Nat) : Option Nat :=
  match (if s.flag SYS_STAT_RECOVERING then (s.waiting st).find? fun j => j.kind == .rebuild else none) with
  | some j => j.slot
  | none => (List.range 24).find? fun k => s.slotFull k && !([2, 6].contains (s.get (PLC_SLOT_W0_STATE k)))

/-- An automatic campaign is queued for a station that awaits one, when its conditions hold. -/
def State.calQueue (s : State) (st : Nat) : State :=
  let queued := s.allJobs.any fun j => j.kind == .cal && j.station == st
  let ready := if s.mode = modeServe then s.inService st else s.mode == modeMaintain && s.clamped st
  if s.flag (calPendFld st) && s.flag CAL_CTL_AUTO_EN && ready && !queued && s.cal.camp.isNone then
    let slot := if s.clamped st then none else s.calSlot st
    if s.clamped st || slot.isSome then
      s.addJob { id := 0, kind := .cal, tenant := 0, cls := s.houseClass .cal, at_ := s.tick, station := st, slot := slot, write := false }
    else s
  else s

end Sys2Proof.Machine
end

