-- ==== Sys2Proof/Machine/Ce.lean ====
section
/-!
DEFINITION. The meanings of the commands of 02_servo_tick.md that act on the control engine, its external set-points,
its page write buffer and its trace units.
-/

namespace Sys2Proof.Machine

open Sys2Proof

abbrev Out := Host.Outcome State Fault Refusal

/-- TICK_OVERRUN (R103, R104): the unfinished slot and every later visited one did not finish, and keep their previous outputs
and states; the overrun is recorded in CE_OVR and raised. Argument 0x80 names the shell's bookkeeping.
DEDUCED (notes/assumptions/43.md, unsafe). -/
def execTickOverrun (arg : BitVec 8) (s : State) : Out :=
  .next ((if arg.toNat < 48 then s.abandonFrom arg.toNat else s).overrun arg.toNat)

/-- FOLLOW_ERR (R96): a supervised slot's count has reached FE_TMO; raised once until the count returns to 0.
DEDUCED (notes/assumptions/20.md, unsafe). -/
def execFollowErr (n : Fin 48) (s : State) : Out :=
  let tmo := (s.page n 3).toNat
  if tmo ≠ 0 ∧ tmo ≤ s.get (CE_KST_W3_FE_CNT n) ∧ (s.slot n).feRaised = false then
    .next ((s.setSlot n { s.slot n with feRaised := true }).raise 0x002 2 n)
  else .next s

/-- PTP time becomes invalid or valid (R63, R64). -/
def execPtpValidityChange (valid : Bool) (s : State) : Out :=
  .next (s.ptpValidity valid)

/-- SYNC_IN loses its validity (R98). -/
def State.syncLost (s : State) : State :=
  if s.flag CE_SYNC_STAT_VALID then (s.set CE_SYNC_STAT_VALID 0).raise 0x002 4 0 else s

/-- A period lies within 2% of CE_SYNC_TGT (R98). -/
def periodGood (tgt period : Nat) : Bool := decide (50 * (period - tgt) ≤ tgt) && decide (50 * (tgt - period) ≤ tgt)

/-- A captured edge and its period judge VALID (R98). -/
def State.syncPeriod (s : State) (period : Nat) : State :=
  if periodGood (s.reg CE_SYNC_TGT).toNat period then
    let s1 := { s with ce := { s.ce with syncGood := s.ce.syncGood + 1, syncBad := 0 } }
    s1.when (decide (4 ≤ s.ce.syncGood + 1)) fun t => t.set CE_SYNC_STAT_VALID 1
  else
    let s1 := { s with ce := { s.ce with syncGood := 0, syncBad := s.ce.syncBad + 1 } }
    s1.when (decide (4 ≤ s.ce.syncBad + 1)) fun t => t.syncLost

/-- A filtered SYNC_IN edge of the polarity of CE_SYNC_CTL.EDGE is captured while capture is enabled: timestamp, cycle within the
tick and period since the previous pulse (R97), and four good or four bad periods in a row set or clear VALID (R98). Each station
then takes its phase error (R255). -/
def execSyncInPulse (frac : BitVec 11) (falling : Bool) (s : State) : Out :=
  if s.flag CE_SYNC_CTL_EN = false ∨ s.flag CE_SYNC_CTL_EDGE ≠ falling then .next s
  else
    let at_ := s.ce.cycles + frac.toNat
    let s1 := ((s.setReg CE_SYNC_TS (BitVec.ofNat 32 s.tick)).set CE_SYNC_STAT_FRAC frac.toNat).incWrap CE_SYNC_STAT_PULSES
    let s2 := match s.ce.syncAt with
      | some last => (s1.setReg CE_SYNC_PER (BitVec.ofNat 32 (at_ - last))).syncPeriod (at_ - last)
      | none => s1
    let s3 := { s2 with ce := { s2.ce with syncAt := some at_ } }
    .next ((s3.marPulse frac.toNat 0).marPulse frac.toNat 1)

/-- No pulse within 1.5 x CE_SYNC_TGT of the last one, by the end of the current tick (R98). -/
def State.syncOverdue (s : State) : Bool := match s.ce.syncAt with
  | some last => decide (3 * (s.reg CE_SYNC_TGT).toNat ≤ 2 * (s.ce.cycles + s.ce.tickLen - last))
  | none => true

/-- No pulse for 1.5 periods (R98). -/
def execSyncTimeout (s : State) : Out :=
  .next (if s.syncOverdue then { s with ce := { s.ce with syncGood := 0, syncBad := 0 } }.syncLost else s)

/-- A write of CE_AUX_CTL: EN may be set only in MAINTAIN (R100). -/
def execCeAuxEnable (p : Path) (slot : BitVec 6) (en : Bool) (s : State) : Out :=
  .next (s.writeBy p (!en || s.mode == modeMaintain) fun t =>
    (t.set CE_AUX_CTL_SLOT slot.toNat).setFlag CE_AUX_CTL_EN en)

/-- A page word write is checked and buffered (R76, R113, R114, R641). -/
def execCePageWrite (p : Path) (n : Fin 48) (w : Fin 64) (v : Word) (s : State) : Out :=
  if s.silent p then .next s
  else match s.writeRefusal p with
    | some code => .next ((s.rxMessage p false).status code)
    | none => .next ((s.rxMessage p false).writePage p n w v)

/-- A write of CE_WBUF_CTL.GATE (R114): the buffer is held while it is 1 and applied at the next boundary once it is 0. -/
def execWbufGate (p : Path) (gate : Bool) (s : State) : Out :=
  .next (s.writeBy p true fun t => t.setFlag CE_WBUF_CTL_GATE gate)

/-- A trace unit is IDLE or DONE. -/
def State.traceIdle (s : State) (n : Nat) : Bool := s.get (CE_TRC_STAT_STATE n) == 0 || s.get (CE_TRC_STAT_STATE n) == 3

/-- CTL.ARM = 1 restarts the unit in any state; a node of no listed class is refused (R108, R110). -/
def execTraceArm (p : Path) (n : Fin 4) (s : State) : Out :=
  .next (s.writeBy p (nodeListed (s.get (CE_TRC_NODE_NODE n)) && nodeListed (s.get (CE_TRC_TRIG_NODE n))) fun t =>
    (((t.setTrace n {}).set (CE_TRC_STAT_STATE n) 1).set (CE_TRC_STAT_RES n) 0).set (CE_TRC_STAT_TRIG_IDX n) 0)

/-- CTL.FORCE = 1 is the software trigger: it acts on an ARMED unit of condition 0x0 that has taken PRE samples (R109). A unit
that is TRIGGERED, or ARMED with another condition, refuses the write (R110). -/
def execTraceForce (p : Path) (n : Fin 4) (s : State) : Out :=
  .next (s.writeBy p (s.traceIdle n || (s.get (CE_TRC_STAT_STATE n) == 1 && s.get (CE_TRC_TRIG_COND n) == 0)) fun t =>
    if t.get (CE_TRC_TRIG_COND n) = 0 ∧ t.traceReady n = true then t.takeTrigger n else t)

/-- CTL.ACK = 1 discards the samples of a unit that is IDLE or DONE and returns it to IDLE (R110, R111). -/
def execTraceAck (p : Path) (n : Fin 4) (s : State) : Out :=
  .next (s.writeBy p (s.traceIdle n) fun t =>
    ((t.setTrace n {}).set (CE_TRC_STAT_STATE n) 0).set (CE_TRC_STAT_RES n) 0)

/-- A triggered unit that has taken its remaining samples becomes DONE and READY (R111). -/
def execTraceDone (n : Fin 4) (s : State) : Out :=
  if s.get (CE_TRC_STAT_STATE n) = 2 ∧ (s.trace n).left = 0 then
    .next ((s.set (CE_TRC_STAT_STATE n) 3).set (CE_TRC_STAT_RES n) 1)
  else .next s

/-- The status that refuses a register read by its path and the mode, if any does; `sys` says that the register lies in
the SYS block (R41, R378, R518). -/
def State.readRefusal (s : State) (p : Path) (sys : Bool) : Option Nat :=
  match p with
  | .session id =>
    match s.session? id with
    | some x => if x.mgmt then none else some stNotPermitted
    | none => some stNotPermitted
  | .service => if s.jackOnly = true ∧ sys = false then some stMode else none

/-- A register read by a path delivers words, or is refused. -/
def State.readBy (s : State) (p : Path) (sys : Bool) (f : State → List Word × State) : State :=
  if s.silent p then s else
  match s.readRefusal p sys with
  | some code => ({ s with rdata := [] }.rxMessage p sys).status code
  | none =>
    let t := s.rxMessage p sys
    { (f t).2 with rdata := (f t).1 }.status stOk

/-- A read of CE_TRC_n_RDATA: the sample at RDPTR, zero while NOT_READY; RDPTR then advances, and the sample at index 16,383
consumes a result that is READY (R111, R112). -/
def execTraceRdataRead (p : Path) (n : Fin 4) (s : State) : Out :=
  .next (s.readBy p false fun t =>
    let i := t.get (CE_TRC_RDPTR_RDPTR n)
    let t1 := t.set (CE_TRC_RDPTR_RDPTR n) ((i + 1) % 16384)
    if t.get (CE_TRC_STAT_RES n) = 0 then ([0], t1)
    else ([((t.trace n).samples[i]?).getD 0], if i = 16383 then t1.set (CE_TRC_STAT_RES n) 2 else t1))

end Sys2Proof.Machine
end

