-- ==== Sys2Proof/Machine/Power.lean ====
section
/-!
DEFINITION. The power block: the bus and its thresholds, the brake chopper, the input current limit, the rails and the
junction temperatures (16_power_package.md, and the braking rules of 05_spindle.md).
DEDUCED (notes/assumptions/37.md, unsafe): Power: chopper test, brake rows and hold-up follow Table: Braking by VBUS; a consumer that gives power back is charged nothing; house jobs' station time goes to the house account.
-/

namespace Sys2Proof.Machine

open Sys2Proof

/-- A fault of the power block (Table: Power faults). -/
def State.pwrFault (s : State) (kind arg : Nat) : State := s.raise 0x0C0 kind arg

/-- SAFE_STOP falls due at the next tick boundary (R33, R34), with the CAUSE code of SYS_MODE; the first cause of a tick
stands. No SAFE_STOP is entered from BOOT, from SAFE_STOP or while
the Jack overwrite writes (R608). -/
def State.orderSafeStop (s : State) (cause : Nat) : State :=
  if s.mode = modeBoot ∨ s.mode = modeSafeStop ∨ s.get UPD_STAT_STATE = 5 ∨ s.sys.safeStopDue.isSome then s
  else { s with sys := { s.sys with safeStopDue := some cause } }

/-- PWR_STAT.BAND follows VBUS, in 0.1 V. -/
def State.setBand (s : State) (v : Nat) : State :=
  s.set PWR_STAT_BAND
    (if 900 ≤ v then 6 else if 820 ≤ v then 5 else if 780 ≤ v then 4 else if 760 ≤ v then 3
     else if s.flag PWR_STAT_UVLO then 2 else if s.flag PWR_STAT_UV_WARN then 1 else 0)

/-- A crossed row of Table: Braking by VBUS is captured (Table: Owl event types). -/
def State.vbusEvent (s : State) (row v : Nat) : State := s.capture evVbus 0 (BitVec.ofNat 32 (row + 65536 * v))

/-- The rows crossed when the zone goes from `z` to `z'`: upward one row for each threshold passed; downward the row of
the chopper's switching off and that below 74 V. -/
def rowsCrossed (z z' : Nat) : List Nat :=
  if z < z' then (List.range (z' - z)).map fun i => z + i + 3
  else (if 2 ≤ z ∧ z' < 2 then [4] else []) ++ (if 1 ≤ z ∧ z' = 0 then [2] else [])

/-- The UV warning sets at 34 V falling and clears at 35 V rising (R615). -/
def State.uvWarn (s : State) (v : Nat) : State :=
  if v ≤ 340 ∧ s.flag PWR_STAT_UV_WARN = false then
    (((s.set PWR_STAT_UV_WARN 1).addSat PWR_CNT_UV_WARNS 1).vbusEvent 0 v).pwrFault 3 v
  else if 350 ≤ v then s.set PWR_STAT_UV_WARN 0
  else s

/-- The chopper conducts from 77 V rising to 76 V falling unless it is marked faulty (R616). -/
def State.chopperOn (s : State) : Bool := decide (2 ≤ s.pwr.zone) && !s.flag PWR_STAT_BRK_FAULT

/-- VBUS_THRESHOLD (R250): the row in force follows VBUS, each crossed row is captured, the 82 V row counts its entries
and raises BUS_OV. The braking follows at the next tick boundary. -/
def execVbusThreshold (vbus : BitVec 16) (s : State) : Out :=
  let v := vbus.toNat
  let z := s.pwr.zone
  let z' := brakeZone z v
  let s1 := { (s.set PWR_VBUS_VBUS v) with pwr := { s.pwr with zone := z' } }
  let s2 := (rowsCrossed z z').foldl (fun (t : State) r => t.vbusEvent r v) s1
  let s3 := s2.when (decide (z < 4 ∧ z' = 4)) fun t => (t.addSat PWR_CNT_OV_82 1).pwrFault 5 0
  let s4 := (s3.uvWarn v).setFlag PWR_STAT_BRK_ON s3.chopperOn
  .next (s4.setBand v)

/-- Every bridge is switched off by the hardware path, without waiting for the tick: turning stations coast, a station in
alignment is OFF, axes are disabled, and nothing is driven (R250, R625). -/
def State.allBridgesOff (s : State) : State :=
  let stn (t : State) (st : Nat) : State :=
    let c := t.spnState st
    if c = spAlign then t.spnOff st
    else if c = spStart ∨ c = spRun ∨ c = spDown then (t.dropStationGates st).spnCoast st
    else t
  let s1 := [0, 1].foldl stn s
  let s2 := (List.range 7).foldl (fun (t : State) a => t.axOff a) s1
  { s2 with ce := { s2.ce with outs := [] }, sys := { s2.sys with bridgesOff := true } }

/-- VBUS_90V (R250): the hardware path acts, then SAFE_STOP. -/
def execVbus90v (vbus : BitVec 16) (s : State) : Out :=
  let v := vbus.toNat
  if 900 ≤ v then
    let s1 := { (s.set PWR_VBUS_VBUS v) with pwr := { s.pwr with zone := 4 } }
    .next (((((s1.vbusEvent 7 v).setBand v).pwrFault 5 1).allBridgesOff).orderSafeStop 6)
  else .next s

/-- A turning station enters hold-up generation at the UVLO crossing (R253). -/
def State.holdUp (s : State) (st : Nat) : State :=
  if s.spnState st = spRun ∨ s.spnState st = spDown then s.modStn st fun k => { k with holdup := true } else s

/-- UVLO (R253, R615): latched until reset; SAFE_STOP falls due, the Owl flush starts at the boundary
(R575) and stations in RUN or SPIN_DOWN enter hold-up generation. -/
def execUvlo (vbus : BitVec 16) (s : State) : Out :=
  let v := vbus.toNat
  if v ≤ 310 ∧ s.flag PWR_STAT_UVLO = false then
    let s1 := (((s.set PWR_VBUS_VBUS v).uvWarn v).set PWR_STAT_UVLO 1).setBand v
    let s2 := ((s1.vbusEvent 1 v).pwrFault 4 v).orderSafeStop 7
    let s3 := (s2.holdUp 0).holdUp 1
    .next { s3 with owl := { s3.owl with flushDue := s3.sys.wdogArmed, flushed := false } }
  else .next s

/-- HOLDUP_END (R253): below MIN_RPM, or with the flush reported complete, the station brakes by zero-vector braking. -/
def execHoldupEnd (st : Fin 2) (s : State) : Out :=
  if (s.stnOf st).holdup = true ∧ (s.rpm st < s.get (SPN_HOLD_MIN_RPM st) ∨ s.owl.flushed = true) then
    .next (s.modStn st fun k => { k with holdup := false })
  else .next s

/-- The expected chopper current in mA: VBUS in 0.1 V over the resistor in mΩ (R251). -/
def State.chopperExpect (s : State) : Nat := s.get PWR_VBUS_VBUS * 100000 / s.get PWR_BRK_CFG_RES

/-- A current differs from the expected one by more than ±20% (R251). -/
def outOfBand (meas expect : Nat) : Bool := decide (expect < 5 * (meas - expect)) || decide (expect < 5 * (expect - meas))

/-- The chopper is found faulty: 0 in a test pulse, 1 in conduction (R251). -/
def State.brkFault (s : State) (arg : Nat) : State :=
  if s.flag PWR_STAT_BRK_FAULT then s else ((s.set PWR_STAT_BRK_FAULT 1).set PWR_STAT_BRK_ON 0).pwrFault 1 arg

/-- CHOPPER_TEST_PULSE (R251): a chopper that has not conducted during a second, not marked faulty and below 76 V, gets a
pulse; its current is compared with the expected one. -/
def execChopperTestPulse (i : BitVec 16) (s : State) : Out :=
  if s.flag PWR_STAT_BRK_FAULT = true ∨ s.flag PWR_STAT_BRK_ON = true ∨ s.pwr.choppedLast = true ∨
      760 ≤ s.get PWR_VBUS_VBUS ∨ s.get PWR_BRK_CFG_RES = 0 then .next s
  else
    let s1 := ((s.incWrap PWR_BRK_E_TESTS).set PWR_BRK_I_MEAS i.toNat).set PWR_BRK_I_EXP s.chopperExpect
    .next (s1.when (outOfBand i.toNat s.chopperExpect) fun t => t.brkFault 0)

/-- BRK_STUCK (R252): current flows while the chopper is commanded off. -/
def execBrkStuck (i : BitVec 16) (s : State) : Out :=
  if s.flag PWR_STAT_BRK_ON then .next s else .next ((s.set PWR_STAT_BRK_STUCK 1).pwrFault 2 i.toNat)

/-- VIN_REVERSE (R614): more than 200 mA out of VIN for 8 ticks; both spindles then brake by zero-vector braking only. -/
def execVinReverse (s : State) : Out :=
  .next (if s.pwr.reverseFor < 8 ∨ s.flag PWR_STAT_VIN_REVERSE = true then s
    else (s.set PWR_STAT_VIN_REVERSE 1).pwrFault 7 s.pwr.reverse)

/-- VIN_REVERSE_CLEAR (R614): 1 s has passed without reverse current. -/
def execVinReverseClear (s : State) : Out :=
  if s.flag PWR_STAT_VIN_REVERSE = true ∧ s.pwr.reverseAt + 500000 ≤ s.tick then .next (s.set PWR_STAT_VIN_REVERSE 0)
  else .next s

/-- BRK_HOT (R617): the energy of the last 60 s against 60 times and 30 times the rating. -/
def execBrkHot (s : State) : Out :=
  let e := s.get PWR_BRK_E_E60
  let w := s.get PWR_BRK_CFG_RATING
  if s.flag PWR_STAT_BRK_HOT then .next (if e < 30 * w then s.set PWR_STAT_BRK_HOT 0 else s)
  else .next (if 60 * w < e ∧ w ≠ 0 then (s.set PWR_STAT_BRK_HOT 1).pwrFault 6 e else s)

/-- RAIL_FAULT (R619): a rail has been outside ±10% of nominal for 10 µs; argument 0 names the 12 V rail, 1 the 3.3 V rail. -/
def execRailFault (rail : Fin 2) (s : State) : Out := .next (if s.pwr.railBad[rail] < 5 then s else s.pwrFault 0x0B rail)

/-- A die's temperature is recorded, with its highest value. -/
def State.junction (s : State) (die : Nat) (t : BitVec 8) : State :=
  let cur := if die = 0 then PWR_TEMP_TJ_SHELL else PWR_TEMP_TJ_CORE
  let top := if die = 0 then PWR_TJ_MAX_SHELL else PWR_TJ_MAX_CORE
  let s1 := s.set cur t.toNat
  if s1.getInt top < t.toInt then s1.set top t.toNat else s1

/-- TJ_THRESHOLD (R625): TJ_WARN sets above the warning and clears when both dies are 5 °C below it; TJ_STOP is raised
above the stop value. Until board values are loaded there are no thresholds. -/
def execTjThreshold (die : Fin 2) (temp : BitVec 8) (s : State) : Out :=
  let s1 := s.junction die temp
  let warn : Int := (s.get PWR_TEMP_WARN : Nat)
  let stop : Int := (s.get PWR_TEMP_STOP : Nat)
  let arg := 256 * die.val + temp.toNat
  if warn = 0 then .next s1
  else
    let s2 := if warn < temp.toInt ∧ s.flag PWR_STAT_TJ_WARN = false then (s1.set PWR_STAT_TJ_WARN 1).pwrFault 9 arg
      else if s1.getInt PWR_TEMP_TJ_SHELL ≤ warn - 5 ∧ s1.getInt PWR_TEMP_TJ_CORE ≤ warn - 5 then s1.set PWR_STAT_TJ_WARN 0
      else s1
    .next (if stop < temp.toInt then s2.pwrFault 0x0A arg else s2)

/-- TJ_HW_TRIP (R625): at 125 °C every bridge is switched off and SAFE_STOP follows, whatever severity TJ_STOP holds. -/
def execTjHwTrip (die : Fin 2) (s : State) : Out := .next (((s.junction die 125).allBridgesOff).orderSafeStop 5)

/-! ### The power block at a tick boundary -/

/-- The chopper's conduction in a tick: its current against the expected one, and its energy (R251, R617). -/
def State.chopTick (s0 : State) (i : Nat) : State :=
  let s := s0.setFlag PWR_STAT_BRK_ON s0.chopperOn
  let p := s.pwr
  if s.flag PWR_STAT_BRK_ON then
    let e := p.chopNow + s.get PWR_VBUS_VBUS * i
    let bad := if outOfBand i s.chopperExpect then p.badChop + 1 else 0
    let s1 := { s with pwr := { p with chopNow := e, badChop := bad, chopped := true } }
    let s2 := (s1.set PWR_BRK_I_MEAS i).set PWR_BRK_I_EXP s.chopperExpect
    s2.when (decide (3 ≤ bad)) fun t => t.brkFault 1
  else { s with pwr := { p with badChop := 0 } }

/-- A second of the chopper's record ends. -/
def State.chopSecond (s : State) : State :=
  let p := s.pwr
  { s with pwr := { p with chop := (p.chopNow :: p.chop).take 59, chopNow := 0, choppedLast := p.chopped, chopped := false } }

/-- A station whose torque the input current limit may scale: in START, or in RUN with a rising set-point (R618). -/
def State.limited (s : State) (st : Nat) : Bool :=
  s.spnState st == spStart || s.spnState st == spRun &&
    match s.slotOf (outSpin st) with
    | some n => decide (bfpVal (s.slot n).work < ((s.get (SPN_SPEED_TARGET st) : Nat) : Rat))
    | none => false

/-- The factor of the input current limit for a tick (R618): below 1 while IBUS exceeds PWR_ILIM; once it has been, at most 1 for as
long as a station is limited. R618 gives what it achieves and not its value, which is free (DEDUCED, notes/assumptions/25.md, unsafe). -/
def State.ilimFactor (s : State) : Rat × State :=
  let high := decide (s.get PWR_ILIM_ILIM < s.get PWR_IBUS_IBUS)
  if (s.limited 0 || s.limited 1) && (high || s.pwr.factor.any fun f => decide (f < 1)) then
    let (w, s1) := s.draw
    (((w.toNat : Nat) : Rat) / (if high then 4294967296 else 4294967295), s1)
  else (1, s)

/-- The input current limit of a tick (R618). -/
def State.ilimTick (s0 : State) : State :=
  let (f, s') := s0.ilimFactor
  let s : State := { s' with pwr := { s'.pwr with factor := Vector.ofFn fun st => if s0.limited st.val then f else 1 } }
  let on := decide (f < 1)
  let s1 := s.setFlag PWR_STAT_ILIM_ACTIVE on
  if on then
    let s2 := (s1.when (s.limited 0) fun t => t.workMeasured 0).when (s.limited 1) fun t => t.workMeasured 1
    let n := s.pwr.ilimTicks + 1
    let s3 := if n % 500 = 0 then s2.addSat PWR_CNT_ILIM_MS 1 else s2
    let due := match s.pwr.ilimAt with
      | none => true
      | some t0 => decide (t0 + 500000 ≤ s.tick)
    let s4 := { s3 with pwr := { s3.pwr with ilimTicks := n, ilimAt := if due then some s.tick else s.pwr.ilimAt } }
    s4.when due fun t => t.pwrFault 8 (s.get PWR_IBUS_IBUS)
  else s1

/-- The reverse current at VIN and the rails outside their bands are timed (R614, R619): ±10% of 12 V is 10.80 to 13.20 V, of 3.3 V
2.97 to 3.63 V. -/
def State.inputTick (s : State) (x : Samples) : State :=
  let p := s.pwr
  let r := x.reverse.toNat
  let out (v lo hi n : Nat) : Nat := if v < lo ∨ hi < v then n + 1 else 0
  { s with pwr := { p with
    reverse := r, reverseAt := if r = 0 then p.reverseAt else s.tick, reverseFor := if 200 < r then p.reverseFor + 1 else 0
    railBad := #v[out x.rail12.v.toNat 1080 1320 p.railBad[0], out x.rail33.v.toNat 297 363 p.railBad[1]] } }

/-- What a buck shows of a tick (R620): the efficiency is its output power over its input power, a free value where it takes none
in (DESIGN CHOICE, notes/assumptions/10.md, safe). -/
def State.railTick (s : State) (r : Fld × Fld × Fld) (x : RailRead) : State :=
  let (eff, i, v) := r
  let s1 := (s.set i x.i.toNat).set v x.v.toNat
  if x.pin = 0 then
    let (w, s2) := s1.draw
    s2.set eff (w.toNat % 256)
  else s1.set eff (min 255 (x.v.toNat * x.i.toNat / x.pin.toNat))

/-- What the bus monitors report at a tick boundary, and the bus energy, the chopper and the current limit. -/
def State.pwrTick (x : Samples) (s0 : State) : State :=
  let v := s0.vbusOf x
  let i := s0.ibusOf x
  let s1 := (((s0.set PWR_VBUS_VBUS v).set PWR_VBUS_VIN x.vin.toNat).set PWR_IBUS_IBUS i).maxIn PWR_IBUS_PEAK i
  let s2 := ((s1.railTick (PWR_RAIL_12_EFF, PWR_RAIL_12_I, PWR_RAIL_12_V) x.rail12).railTick
    (PWR_RAIL_33_EFF, PWR_RAIL_33_I, PWR_RAIL_33_V) x.rail33).junction 0 x.tjShell |>.junction 1 x.tjCore
  let e := s2.pwr.energy + v * i
  let s3 := { s2 with pwr := { s2.pwr with energy := e } }.setReg PWR_E_LO (BitVec.ofNat 32 (e / 5000000))
  let s4 := { s3 with owl := { s3.owl with vbus := (s3.owl.vbus ++ [BitVec.ofNat 16 v]).drop (s3.owl.vbus.length + 1 - 256) } }
  let s5 := (s4.chopTick x.chop.toNat).when (decide (s4.tick % 500000 = 0)) fun t => t.chopSecond
  let j := (s5.pwr.chop.foldl (· + ·) s5.pwr.chopNow) / 5000000000
  ((s5.set PWR_BRK_E_E60 (min 65535 j)).inputTick x).ilimTick

end Sys2Proof.Machine
end

