-- ==== Sys2Proof/Machine/MemOps.lean ====
section
/-!
DEFINITION. The check codes of R460, the DRAM with its check words, the SRAM test rows, the scrubber and the context
cache (10_arbitration_cache.md, 11_memory_flash.md).
-/

namespace Sys2Proof.Machine

open Sys2Proof

/-! ### One code family (R460) -/

/-- `n` is a power of two. -/
def isPow2 (n : Nat) : Bool := n != 0 && (n &&& (n - 1)) == 0

/-- The positions p_0 to p_(k-1): the first `k` positive integers that are no power of two. -/
def eccPositions (k : Nat) : List Nat := ((List.range (k + 12)).filter fun n => n != 0 && !isPow2 n).take k

/-- The check bits of a data word: check bit j is the exclusive or of the data bits whose position has bit j set. -/
def eccCheck (k data : Nat) : Nat :=
  ((eccPositions k).zipIdx.foldl fun acc e => if data.testBit e.2 then acc ^^^ e.1 else acc) 0

/-- The exclusive or of the low `n` bits. -/
def parityOf (n v : Nat) : Bool := (List.range n).foldl (fun b i => b != v.testBit i) false

/-- The check bits with the parity bit above them, for `r` check bits. -/
def eccEncode (k r data : Nat) : Nat :=
  let c := eccCheck k data
  c + (if parityOf k data != parityOf r c then 2 ^ r else 0)

/-- What decoding a stored unit gives (Table: Syndrome decoding). -/
structure EccRead where
  /-- 0 clean, 1 corrected, 2 uncorrectable. -/
  kind : Nat
  synd : Nat
  par : Bool
  /-- The corrected data bit, when a data bit was in error. -/
  bit : Option Nat
  /-- The corrected data. -/
  data : Nat
deriving DecidableEq, Repr

/-- Decoding of stored data with its stored check bits and parity bit. -/
def eccDecode (k r data code : Nat) : EccRead :=
  let s := (code % 2 ^ r) ^^^ eccCheck k data
  let p := parityOf k data != parityOf (r + 1) code
  if s = 0 then { kind := if p then 1 else 0, synd := s, par := p, bit := none, data := data }
  else if !p then { kind := 2, synd := s, par := p, bit := none, data := data }
  else if isPow2 s ∧ s < 2 ^ r then { kind := 1, synd := s, par := p, bit := none, data := data }
  else match (eccPositions k).findIdx? (· == s) with
    | some i => { kind := 1, synd := s, par := p, bit := some i, data := data ^^^ 2 ^ i }
    | none => { kind := 2, synd := s, par := p, bit := none, data := data }

/-! ### External DRAM (R464 to R471) -/

/-- Bytes of the data space, and its granules (R465). -/
abbrev dramBytes : Nat := 0x3C0000000
abbrev granules : Nat := 503316480

/-- The address fold of a granule: byte-address bits 10:5, 16:11, 22:17, 28:23 and 33:29 (R466). -/
def addrFold (g : Nat) : Nat := g % 64 ^^^ g / 64 % 64 ^^^ g / 4096 % 64 ^^^ g / 262144 % 64 ^^^ g / 16777216 % 32

/-- CHK of a granule's data (R466). -/
def chkOf (g data : Nat) : Nat := eccEncode 256 9 data + 1024 * addrFold g

/-- What a byte of the DRAM not listed reads as: zero data with a valid CHK (R502).
DESIGN CHOICE (notes/assumptions/11.md, unsafe). -/
def dramDefault (a : Nat) : Byte :=
  if a < dramBytes then 0
  else
    let g := (a - dramBytes) / 2
    if a % 2 = 1 then BitVec.ofNat 8 (4 * addrFold g) else 0

def State.dramByte (s : State) (a : Nat) : Byte := sget dramDefault s.mem.dram a

def State.setDramByte (s : State) (a : Nat) (b : Byte) : State :=
  { s with mem := { s.mem with dram := sput dramDefault s.mem.dram a b } }

/-- The address of a granule's check word. -/
abbrev chkAddr (g : Nat) : Nat := dramBytes + 2 * g

/-- The stored data and CHK of a granule. -/
def State.granData (s : State) (g : Nat) : Nat := ofBytes ((List.range 32).map fun i => s.dramByte (32 * g + i))
def State.granChk (s : State) (g : Nat) : Nat := ofBytes [s.dramByte (chkAddr g), s.dramByte (chkAddr g + 1)]

/-- Bytes written from an address on. -/
def State.putBytes (s : State) (a : Nat) (l : List Byte) : State :=
  l.zipIdx.foldl (fun (t : State) e => t.setDramByte (a + e.2) e.1) s

/-- A granule's stored data and CHK replaced. -/
def State.putGran (s : State) (g data chk : Nat) : State :=
  (s.putBytes (32 * g) (toBytes 32 data)).putBytes (chkAddr g) (toBytes 2 chk)

/-- The granule lies in the DRAM test window (R465). -/
def testGranule (g : Nat) : Bool := decide (granules - 128 ≤ g)

/-- Bits of a granule that have upset in the cells since the last access: the low 256 in the data, then CHK. -/
def State.upsetGran (s : State) (g : Nat) (u : BitVec 272) : State :=
  if u = 0 then s else s.putGran g (s.granData g ^^^ u.toNat % 2 ^ 256) (s.granChk g ^^^ u.toNat / 2 ^ 256)

/-- A DRAM error is counted and recorded, and an uncorrectable one raised (R469, R471). -/
def State.dramError (s : State) (g kind : Nat) (scrub : Bool) : State :=
  if testGranule g then s
  else
    let s1 := if kind = 1 then s.addSat MEM_ECC_DRAM_CNT_CORR 1 else s.addSat MEM_ECC_DRAM_CNT_UNCORR 1
    let s2 := ((s1.set MEM_ECC_DRAM_LAST_KIND kind).setFlag MEM_ECC_DRAM_LAST_SCRUB scrub).set MEM_ECC_DRAM_LAST_GRANULE g
    s2.when (decide (kind ≠ 1)) fun t => t.raise 0x0A9 1 (g / 8192)

/-- A read of a granule: the data delivered, or none; a correctable error is written back (R469). -/
def State.readGran (s : State) (g : Nat) (scrub : Bool) : Option Nat × State :=
  let e := eccDecode 256 9 (s.granData g) (s.granChk g % 1024)
  if s.granChk g / 1024 ≠ addrFold g then (none, s.dramError g 3 scrub)
  else if e.kind = 2 then (none, s.dramError g 2 scrub)
  else if e.kind = 1 then (some e.data, (s.putGran g e.data (chkOf g e.data)).dramError g 1 scrub)
  else (some e.data, s)

/-- A write within one granule: a whole granule is written with its CHK, a smaller one is merged (R467). The second part
says whether the write was performed. -/
def State.writeGran (s : State) (a : Nat) (bytes : List Byte) : Bool × State :=
  let g := a / 32
  if bytes = [] then (true, s)
  else if a % 32 = 0 ∧ bytes.length = 32 then (true, s.putGran g (ofBytes bytes) (chkOf g (ofBytes bytes)))
  else match s.readGran g false with
    | (none, s1) => (false, s1)
    | (some d, s1) =>
      let o := a % 32
      let new := (toBytes 32 d).take o ++ bytes ++ (toBytes 32 d).drop (o + bytes.length)
      (true, s1.putGran g (ofBytes new) (chkOf g (ofBytes new)))

/-- A write of any length, granule by granule. -/
def State.writeDram (s : State) (a : Nat) (bytes : List Byte) : State :=
  let o := a % 32
  let first := bytes.take (32 - o)
  let rest := bytes.drop (32 - o)
  let s1 := (s.writeGran a first).2
  (List.range ((rest.length + 31) / 32)).foldl (fun (t : State) i =>
    (t.writeGran (a - o + 32 + 32 * i) ((rest.drop (32 * i)).take 32)).2) s1

/-! ### On-chip SRAMs (R461, R462) -/

/-- An SRAM error is counted and recorded; an uncorrectable one is raised, but for SRAM 0 (R461). -/
def State.sramError (s : State) (i offset kind : Nat) (scrub : Bool) : State :=
  let s1 := if kind = 1 then s.addSat (MEM_ECC_SRAM_CNT_CORR i) 1 else s.addSat (MEM_ECC_SRAM_CNT_UNCORR i) 1
  let s2 := (((s1.set MEM_ECC_SRAM_LAST_KIND kind).setFlag MEM_ECC_SRAM_LAST_SCRUB scrub).set MEM_ECC_SRAM_LAST_ID i).set
    MEM_ECC_SRAM_LAST_OFFSET offset
  s2.when (decide (kind = 2 ∧ i ≠ 0)) fun t => t.raise (0x0A0 + i) 1 (4096 * i + offset / 1024 % 4096)

/-! ### The scrubber (R470) -/

/-- Some cell of the granule differs from what an unlisted cell reads as. -/
def State.granListed (s : State) (g : Nat) : Bool :=
  s.mem.dram.any fun e => decide (32 * g ≤ e.1 ∧ e.1 < 32 * g + 32) || decide (chkAddr g ≤ e.1 ∧ e.1 < chkAddr g + 2)

/-- One granule is scrubbed; the test window is skipped (R471). -/
def State.scrubGran (s : State) : State :=
  let g := s.get MEM_SCRUB_POS_GRANULE
  let s1 := if s.granListed g ∧ testGranule g = false then (s.readGran g true).2 else s
  if g + 1 < granules then s1.set MEM_SCRUB_POS_GRANULE (g + 1)
  else (s1.set MEM_SCRUB_POS_GRANULE 0).incWrap MEM_SCRUB_STAT_DRAM_PASSES

/-- 8-byte words of SRAMs 0 to 5. -/
abbrev sramWords : Nat := 933888

/-- The SRAMs' sizes in bytes (Table: On-chip SRAMs). -/
def sramSize (i : Nat) : Nat := 1024 * nth [2048, 4096, 256, 320, 512, 64, 256, 1536, 1536] i 0

/-- Place of byte 0 of an SRAM in the scrubber's walk. -/
def sramBase (i : Nat) : Nat := ((List.range i).map sramSize).sum

/-- What the cells of a byte hold beside a codeword. -/
abbrev sramKey (i offset : Nat) : Nat := 16777216 * i + offset

def State.sramUpset (s : State) (i offset : Nat) : BitVec 13 := sget (fun _ => 0) s.mem.sram (sramKey i offset)

def State.setSram (s : State) (i offset : Nat) (v : BitVec 13) : State :=
  { s with mem := { s.mem with sram := sput (fun _ => (0 : BitVec 13)) s.mem.sram (sramKey i offset) v } }

/-- The event that lies at a byte of the retention SRAM is marked damaged (R461): 16 bytes each, placed by their sequence
number (DEDUCED, notes/assumptions/41.md). -/
def State.owlDamage (s : State) (offset : Nat) : State :=
  let mark (e : OwlEvent) : OwlEvent := if e.seq.toNat % 4096 = offset / 16 then { e with flags := e.flags ||| 1 } else e
  { s with owl := { s.owl with ring := s.owl.ring.map mark } }

/-- An uncorrectable error in a line clears its valid bit (R453); a locked way keeps its lock. -/
def State.dropLine (s : State) (set way : Nat) : State :=
  { s with cch := { s.cch with lines := (s.cch.lines.map fun l => if l.set = set ∧ l.way = way then { l with valid := false } else l).filter fun l => l.valid || l.locked } }

/-- What an uncorrectable byte of an SRAM brings beside its fault (Table: On-chip SRAMs): the cache line is no longer valid, an event is
marked damaged, the attempt of a decoding engine fails, a frame that leaves is ended as under R351.
DEDUCED (notes/assumptions/41.md, unsafe). -/
def State.sramLost (s : State) (i offset : Nat) : State :=
  if i = 0 then
    let set := offset / 1024
    let way := offset / 64 % 16
    (((s.addSat CCH_ECC_CNT_UNCORR 1).dropLine set way).raise 0x091 1 (set + 4096 * way)).setSram 0 offset 0
  else if i = 5 then s.owlDamage offset
  else if i = 7 then
    { s with chn := { s.chn with frames := s.chn.frames.setIfInBounds (offset / 49152) (((s.chn.frames[offset / 49152]?).getD none).map fun f => { f with broken := true }) } }
  else if i = 8 then { s with net := { s.net with ramBad := s.net.ramBad.setIfInBounds (offset / 524288) true } }
  else s

/-- A byte of an SRAM is read (R462): its error is counted and recorded, a corrected byte is written back; a corrected read of the
microcode memory costs the CE 4 cycles (R463). -/
def State.readSram (s : State) (i offset : Nat) (scrub : Bool) : State :=
  let v := (s.sramUpset i offset).toNat
  let e := eccDecode 8 4 (v % 256) (v / 256)
  if e.kind = 0 then s
  else
    let s1 := s.sramError i offset e.kind scrub
    if e.kind = 2 then s1.sramLost i offset
    else
      let s2 := s1.setSram i offset (BitVec.ofNat 13 (e.data + 256 * eccEncode 8 4 e.data))
      if i = 0 then s2.addSat CCH_ECC_CNT_CORR 1
      else if i = 2 then { s2 with ce := { s2.ce with fixed := s2.ce.fixed + 4 } }
      else s2

/-- The bytes with upset cells among the words of the scrubber's walk from one place, round to the first. -/
def State.scrubbed (s : State) (from_ n : Nat) : List (Nat × Nat) :=
  (s.mem.sram.map fun e => (e.1 / 16777216, e.1 % 16777216)).filter fun e =>
    decide (e.1 ≤ 5) && decide (((sramBase e.1 + e.2) / 8 + sramWords - from_) % sramWords < n)

/-- The refresh-rate code is read every 32 ms (R464). -/
def State.mr4Tick (x : Samples) (s : State) : State :=
  if s.flag MEM_DRAM_STAT_READY = true ∧ s.tick % 16000 = 0 then s.set MEM_DRAM_STAT_MR4 x.mr4.toNat else s

/-- The scrubber's work of a tick. -/
def State.scrubTick (s : State) : State :=
  if !s.flag MEM_DRAM_STAT_TRAINED then s
  else
    let s1 := if s.flag MEM_SCRUB_CTL_DRAM_EN then
        (List.range (s.get MEM_SCRUB_CTL_DRAM_RATE)).foldl (fun (t : State) _ => t.scrubGran) s
      else s
    if s.flag MEM_SCRUB_CTL_SRAM_EN then
      let n := s1.mem.sramPos + s.get MEM_SCRUB_CTL_SRAM_RATE
      let read := (s1.scrubbed s1.mem.sramPos (s.get MEM_SCRUB_CTL_SRAM_RATE)).foldl (fun (t : State) e => t.readSram e.1 e.2 true) s1
      let s2 := { read with mem := { read.mem with sramPos := n % sramWords } }
      s2.when (decide (sramWords ≤ n)) fun t => t.incWrap MEM_SCRUB_STAT_SRAM_PASSES
    else s1

/-! ### The context and map cache (R448 to R458) -/

/-- The cacheable regions by base and size in bytes (Table: Cacheable regions). -/
def cacheRegions : List (Nat × Nat) :=
  [(0x400000, 0x400000), (0x40000000, 0x20000000), (0x60000000, 0x8000000), (0x68000000, 0x8000000),
   (0x70000000, 0x800000), (0x70800000, 0x800000)]

/-- The address passes through the cache. -/
def cacheable (a : Nat) : Bool := cacheRegions.any fun r => decide (r.1 ≤ a) && decide (a < r.1 + r.2)

/-- The set of a line, by its address bits 33:6 (R449). -/
def lineSet (tag : Nat) : Nat := tag % 2048 ^^^ tag / 2048 % 2048 ^^^ tag / 4194304

/-- The way that holds the line: valid, or locked and invalid. -/
def State.lineOf (s : State) (tag : Nat) : Option CLine := s.cch.lines.find? fun l => l.tag == tag

/-- The line hits. -/
def State.hits (s : State) (tag : Nat) : Bool := match s.lineOf tag with
  | some l => l.valid
  | none => false

/-- Replacement bits of a set. -/
def State.plruOf (s : State) (set : Nat) : Nat := sget (fun _ => 0) s.cch.plru set

/-- The nodes of the 16-way tree on the path to a way, with the side the way lies on: root first, node `n`'s halves are
nodes `2 n` and `2 n + 1`. -/
def plruPath (way : Nat) : List (Nat × Bool) :=
  [(1, way / 8 % 2 == 1), (2 + way / 8, way / 4 % 2 == 1), (4 + way / 4, way / 2 % 2 == 1), (8 + way / 2, way % 2 == 1)]

/-- A use of a way turns the bits on its path away from it. -/
def plruTouch (bits way : Nat) : Nat :=
  (plruPath way).foldl (fun b e => if e.2 then putBits b e.1 e.1 0 else putBits b e.1 e.1 1) bits

/-- The way the bits choose among the unlocked ways: at each node the side the bit points to, or the other one when that
holds no unlocked way. -/
def plruVictim (bits : Nat) (free : Nat → Bool) : Nat :=
  let go (node lo size : Nat) : Nat :=
    let right := bits.testBit node
    let half := size / 2
    let any (b : Nat) : Bool := (List.range half).any fun i => free (b + i)
    if right then (if any (lo + half) then 1 else 0) else (if any lo then 0 else 1)
  let a := go 1 0 16
  let b := go (2 + a) (8 * a) 8
  let c := go (4 + 2 * a + b) (8 * a + 4 * b) 4
  let d := go (8 + 4 * a + 2 * b + c) (8 * a + 4 * b + 2 * c) 2
  8 * a + 4 * b + 2 * c + d

/-- A way's use is noted. -/
def State.touchWay (s : State) (set way : Nat) : State :=
  { s with cch := { s.cch with plru := sput (fun _ => 0) s.cch.plru set (plruTouch (s.plruOf set) way) } }

/-- CCH_LOCKED follows the locks. -/
def State.countLocks (s : State) : State :=
  let locked := s.cch.lines.filter fun l => l.locked
  let most := (locked.map fun l => (locked.filter fun m => m.set == l.set).length).foldl max 0
  (s.set CCH_LOCKED_TOTAL locked.length).set CCH_LOCKED_MAX_SET most

/-- The way into which a fill allocates: the way reserved for the tag, else the lowest invalid unlocked way, else the
one the replacement bits choose (Table: Cache organisation, R455). -/
def State.victim (s : State) (tag : Nat) : Nat :=
  let set := lineSet tag
  match s.lineOf tag with
  | some l => l.way
  | none =>
    let used (w : Nat) : Bool := s.cch.lines.any fun l => l.set == set && l.way == w
    let locked (w : Nat) : Bool := s.cch.lines.any fun l => l.set == set && l.way == w && l.locked
    match (List.range 16).find? fun w => !used w with
    | some w => w
    | none => plruVictim (s.plruOf set) fun w => !locked w

/-- The line allocates with its data; a lock on its way stays. -/
def State.allocate (s : State) (tag : Nat) (data : BitVec 512) : State :=
  let set := lineSet tag
  let w := s.victim tag
  let keep := s.cch.lines.any fun l => l.set == set && l.way == w && l.locked
  let line : CLine := { set := set, way := w, tag := tag, locked := keep, data := data }
  let others := s.cch.lines.filter fun l => !(l.set == set && l.way == w)
  ({ s with cch := { s.cch with lines := others ++ [line] } }).touchWay set w

/-- The 64 bytes of a line from DRAM, none when a granule is uncorrectable. -/
def State.fetchLine (s : State) (tag : Nat) : Option (BitVec 512) × State :=
  match s.readGran (2 * tag) false with
  | (none, s1) => (none, s1)
  | (some a, s1) => match s1.readGran (2 * tag + 1) false with
    | (none, s2) => (none, s2)
    | (some b, s2) => (some (BitVec.ofNat 512 (a + 2 ^ 256 * b)), s2)

/-- A hit is served: a read delivers the line, a write updates it and goes to DRAM (R450, R451). -/
def State.serve (s : State) (a : CAccess) : State :=
  let tag := a.addr / 64
  match s.lineOf tag with
  | none => s
  | some l =>
    let s1 := s.touchWay l.set l.way
    match a.bytes with
    | none => { s1 with cch := { s1.cch with out := [l.data] } }
    | some b =>
      let o := a.addr % 64
      let old := toBytes 64 l.data.toNat
      let new := (old.take o ++ b ++ old.drop (o + b.length)).take 64
      let line := { l with data := BitVec.ofNat 512 (ofBytes new) }
      let s2 := { s1 with cch := { s1.cch with lines := s1.cch.lines.map fun (m : CLine) => if m.set = l.set ∧ m.way = l.way then line else m } }
      s2.writeDram a.addr (b.take (64 - o))

/-- A running INV_RANGE covers the line (R458). -/
def State.inWalk (s : State) (tag : Nat) : Bool :=
  s.flag CCH_MAINT_STAT_BUSY && s.get CCH_MAINT_STAT_OP == 2 &&
    decide (s.get CCH_MAINT_ADDR_LINE ≤ tag) && decide (tag ≤ s.get CCH_MAINT_END_LINE)

/-- An access reaches the cache (R450 to R452, R458). -/
def State.access (s : State) (a : CAccess) : State :=
  let tag := a.addr / 64
  if s.inWalk tag then { s with cch := { s.cch with held := s.cch.held ++ [a] } }
  else if s.cch.stalled ≠ [] then { s with cch := { s.cch with stalled := s.cch.stalled ++ [a] } }
  else if s.cch.miss = some tag then
    match a.bytes with
    | some b => s.writeDram a.addr (b.take (64 - a.addr % 64))
    | none => { s with cch := { s.cch with waiters := s.cch.waiters ++ [a] } }
  else if s.hits tag then
    ((s.incWrap CCH_HIT_COUNT).when s.cch.miss.isSome fun t => t.incWrap CCH_HUM_COUNT).serve a
  else match a.bytes with
    | some b => (s.incWrap CCH_MISS_COUNT).writeDram a.addr (b.take (64 - a.addr % 64))
    | none =>
      if s.cch.miss.isSome then
        let s1 := s.incWrap CCH_STALL_COUNT
        { s1 with cch := { s1.cch with stalled := [a] } }
      else
        let s1 := s.incWrap CCH_MISS_COUNT
        { s1 with cch := { s1.cch with miss := some tag, waiters := [a] } }

/-- The accesses that had stalled reach the cache again in their order. -/
def State.replay (s : State) (l : List CAccess) : State := l.foldl (fun (t : State) a => t.access a) s

/-- The ways that satisfy a test lose their valid bit; locks stay (R455). -/
def State.invalidate (s : State) (f : CLine → Bool) : State :=
  { s with cch := { s.cch with lines := (s.cch.lines.map fun l => if f l then { l with valid := false } else l).filter fun l => l.valid || l.locked } }

/-- The ways that satisfy a test lose their lock. -/
def State.unlockWays (s : State) (f : CLine → Bool) : State :=
  ({ s with cch := { s.cch with lines := (s.cch.lines.map fun l => if f l then { l with locked := false } else l).filter fun l => l.valid || l.locked } }).countLocks

/-- The way that holds a line is locked. -/
def State.lockWay (s : State) (tag : Nat) : State :=
  ({ s with cch := { s.cch with lines := s.cch.lines.map fun (l : CLine) => if l.tag = tag then { l with locked := true } else l } }).countLocks

/-- Locked ways of the set of a line. -/
def State.locksInSet (s : State) (tag : Nat) : Nat :=
  (s.cch.lines.filter fun l => l.locked && l.set == lineSet tag).length

/-- The device locks a line itself, filling it first when it is absent (R454). -/
def State.lockLine (s : State) (tag : Nat) : State :=
  if 8 ≤ s.locksInSet tag then s
  else if s.hits tag then s.lockWay tag
  else match s.fetchLine tag with
    | (none, s1) => s1
    | (some d, s1) => (s1.allocate tag d).lockWay tag

/-- The four lines of a session's context (R448). -/
def contextLines (sid : Nat) : List Nat := (List.range 4).map fun i => (0x400000 + 256 * sid) / 64 + i

end Sys2Proof.Machine
end

