-- ==== Sys2Proof/Machine/FlashOps.lean ====
section
/-!
DEFINITION. The embedded flash: sectors, the erase journal, the image state and refresh records, the descriptor queue and
the refresh pass (11_memory_flash.md).
-/

namespace Sys2Proof.Machine

open Sys2Proof

/-! ### Sectors (R475) -/

/-- The sector of a flash address. -/
def sectorOf (a : Nat) : Nat :=
  if a < 0x20000 then a / 0x10000
  else if a < 0x40000 then 2 + (a - 0x20000) / 0x4000
  else if a < 0x800000 then 10 + (a - 0x40000) / 0x20000
  else 72 + (a - 0x800000) / 0x20000

/-- The first address of a sector. -/
def sectorBase (n : Nat) : Nat :=
  if n < 2 then 0x10000 * n
  else if n < 10 then 0x20000 + 0x4000 * (n - 2)
  else if n < 72 then 0x40000 + 0x20000 * (n - 10)
  else 0x800000 + 0x20000 * (n - 72)

/-- The size of a sector in bytes. -/
def sectorSize (n : Nat) : Nat := if n < 2 then 0x10000 else if n < 10 then 0x4000 else 0x20000

/-- The bank of an address. -/
def bankOf (a : Nat) : Nat := a / 0x800000

/-- The operations of a descriptor. -/
abbrev flRead : Nat := 1
abbrev flProgram : Nat := 2
abbrev flErase : Nat := 3
abbrev flCheck : Nat := 4
abbrev flBlank : Nat := 5

/-- The descriptor modifies the flash. -/
def FlDesc.modifies (d : FlDesc) : Bool := d.op == flProgram || d.op == flErase

/-- The end of the range a descriptor covers. -/
def FlDesc.stop (d : FlDesc) : Nat := d.addr + (if d.op = flErase then sectorSize (sectorOf d.addr) else d.len)

/-- The descriptor's range touches a sector. -/
def FlDesc.touches (d : FlDesc) (n : Nat) : Bool :=
  decide (d.addr < sectorBase n + sectorSize n) && decide (sectorBase n < d.stop)

/-- A fault of the flash block. -/
def State.flFault (s : State) (kind arg : Nat) : State := s.raise 0x0AA kind arg

/-! ### Upset cells (R476) -/

/-- What the cells of a word hold beside what was programmed (R476). -/
def State.flUpset (s : State) (w : Nat) : BitVec 137 := sget (fun _ => 0) s.flash.upset w

/-- How a word with upset cells is read: its 128 data bits and 9 check bits (Table: Code widths). -/
def flWord (v : BitVec 137) : EccRead := eccDecode 128 8 (v.toNat % 2 ^ 128) (v.toNat / 2 ^ 128)

/-- Bits of words that have upset in the cells since they were last read. -/
def State.upsetWords (s : State) (l : List (BitVec 24 × BitVec 137)) : State :=
  l.foldl (fun (t : State) e =>
    let w := e.1.toNat / 16
    { t with flash := { t.flash with upset := sput (fun _ => (0 : BitVec 137)) t.flash.upset w (t.flUpset w ^^^ e.2) } }) s

/-- The upset words of a range of `n` bytes from an address. -/
def State.upsetIn (s : State) (a n : Nat) : List (Nat × BitVec 137) :=
  s.flash.upset.filter fun e => decide (a < 16 * e.1 + 16) && decide (16 * e.1 < a + n)

/-- The upset words outside a range of `n` bytes from an address: an erase and a program leave those within it clean. -/
def State.upsetBut (s : State) (a n : Nat) : List (Nat × BitVec 137) :=
  s.flash.upset.filter fun e => !(decide (a < 16 * e.1 + 16) && decide (16 * e.1 < a + n))

/-- A word of a range is uncorrectable. -/
def State.flBad (s : State) (a n : Nat) : Bool := (s.upsetIn a n).any fun e => (flWord e.2).kind == 2

/-! ### Erase journal (R484, R485) -/

abbrev jStart : Nat := 0x5A
abbrev jEnd : Nat := 0xA5
abbrev jHead : Nat := 0x3C

/-- The entries of a journal sector: 0 sector 2, 1 sector 3. -/
def State.jrnlOf (s : State) (c : Nat) : List JEntry := (s.flash.jrnl[c]?).getD []

/-- The records of `size` bytes in sector `n` whose words can be read; one that cannot fails its CHECK or digest and is ignored
(R485, R487, R489). -/
def State.legible {α : Type} (s : State) (n size : Nat) (l : List α) : List α :=
  (l.zipIdx.filter fun e => !s.flBad (sectorBase n + size * e.2) size).map (·.1)

/-- The entries of a journal sector that pass their CHECK. -/
def State.jrnlGood (s : State) (c : Nat) : List JEntry := s.legible (2 + c) 16 (s.jrnlOf c)

/-- SEQ of a journal sector's HEAD. -/
def headSeq (l : List JEntry) : Nat := match l.head? with
  | some e => if e.kind = jHead then e.seq else 0
  | none => 0

/-- The current journal sector: that whose HEAD has the higher SEQ. -/
def State.jrnlCur (s : State) : Nat := if headSeq (s.jrnlGood 0) < headSeq (s.jrnlGood 1) then 1 else 0

/-- SEQ of the next entry. -/
def State.jrnlSeq (s : State) : Nat := ((s.jrnlOf 0 ++ s.jrnlOf 1).map JEntry.seq).foldl max 0 + 1

/-- FL_JRNL_STAT follows the journal. -/
def State.jrnlStat (s : State) : State :=
  (s.set FL_JRNL_STAT_CUR s.jrnlCur).set FL_JRNL_STAT_USED (s.jrnlOf s.jrnlCur).length

/-- An entry is programmed at the next position of the current sector. -/
def State.jrnlPut (s : State) (kind sector : Nat) : State :=
  let c := s.jrnlCur
  { s with flash := { s.flash with jrnl := s.flash.jrnl.setIfInBounds c (s.jrnlOf c ++ [{ kind := kind, sector := sector, seq := s.jrnlSeq }]) } }

/-- When only two positions remain, the other journal sector is erased and takes over (R485). -/
def State.jrnlTurn (s : State) : State :=
  let c := s.jrnlCur
  if (s.jrnlOf c).length < 1022 then s
  else
    let s1 := (s.jrnlPut jStart (3 - c)).jrnlPut jEnd (3 - c)
    { s1 with flash := { s1.flash with jrnl := s1.flash.jrnl.setIfInBounds (1 - c) [{ kind := jHead, sector := 0, seq := s1.jrnlSeq }], upset := s1.upsetBut (sectorBase (3 - c)) 0x4000 } }

/-- A START or END entry is journalled. -/
def State.journal (s : State) (kind sector : Nat) : State :=
  ((if kind = jStart then s.jrnlTurn else s).jrnlPut kind sector).jrnlStat

/-- A sector has a START and no later END. -/
def State.jrnlOpen (s : State) (n : Nat) : Bool :=
  let c := s.jrnlCur
  match ((s.jrnlGood (1 - c) ++ s.jrnlGood c).filter fun e => e.sector == n && e.kind != jHead).getLast? with
  | some e => e.kind == jStart
  | none => false

/-! ### Records (R487, R489) -/

/-- The records of an image state sector: 0 sector 4, 1 sector 5. -/
def State.imgOf (s : State) (c : Nat) : List ImgRec := (s.flash.imgs[c]?).getD []

/-- The valid records of an image state sector. -/
def State.imgGood (s : State) (c : Nat) : List ImgRec := s.legible (4 + c) 256 (s.imgOf c)

/-- The image state sector that holds the valid record with the highest SEQ. -/
def State.imgCur (s : State) : Nat :=
  let top (l : List ImgRec) : Nat := (l.map ImgRec.seq).foldl max 0
  if top (s.imgGood 0) < top (s.imgGood 1) then 1 else 0

/-- The current image state record. -/
def State.imgNow (s : State) : Option ImgRec := (s.imgGood s.imgCur).getLast?

/-- A record is written; when the current sector is full the next one goes to the other sector, which is kept erased, and
the full one is erased then (R488). -/
def State.imgPut (s : State) (twinB : Bool) (comps : List (Nat × Nat × Bool)) : State :=
  let c := s.imgCur
  let r : ImgRec := { seq := (s.imgNow.map ImgRec.seq).getD 0 + 1, twinB := twinB, comps := comps }
  let f := s.flash
  let s1 := if (s.imgOf c).length < 64 then { s with flash := { f with imgs := f.imgs.setIfInBounds c (s.imgOf c ++ [r]) } }
    else ({ s with flash := { f with imgs := (f.imgs.setIfInBounds (1 - c) [r]).setIfInBounds c [], upset := s.upsetBut (sectorBase (4 + c)) 0x4000 } }.journal jStart (4 + c)).journal jEnd (4 + c)
  (s1.set FL_TWIN_VALID 1).setFlag FL_TWIN_ACTIVE twinB

/-- An entry of the refresh record is written. -/
def State.refrPut (s : State) (state sector : Nat) : State :=
  let seq := ((s.flash.refr.map RefrRec.seq).foldl max 0) + 1
  let r : RefrRec := { seq := seq, state := state, sector := sector, ptp := s.flash.refreshPtp }
  { s with flash := { s.flash with refr := s.flash.refr ++ [r] } }

/-- The valid entries of the refresh record. -/
def State.refrGood (s : State) : List RefrRec := s.legible 9 64 s.flash.refr

/-- PTP seconds of the last completed pass (R489). -/
def State.lastRefresh (s : State) : Nat :=
  (((s.refrGood.filter fun r => r.state == 3).getLast?).map RefrRec.ptp).getD 0

/-- FL_REFRESH_LAST follows the refresh record. -/
def State.refreshShow (s : State) : State :=
  (s.setReg FL_REFRESH_LAST_LO (BitVec.ofNat 32 s.lastRefresh)).setReg FL_REFRESH_LAST_HI
    (BitVec.ofNat 32 (s.lastRefresh / 2 ^ 32 % 65536))

/-- The sector whose copy stands in the spare under an entry of STATE 0x1 without a later 0x2 (R490). -/
def State.openStep (s : State) : Option Nat :=
  match s.refrGood.getLast? with
  | some r => if r.state = 1 then some r.sector else none
  | none => none

/-! ### Contents -/

/-- The bytes of the flash records. -/
def JEntry.bytes (e : JEntry) : List Byte :=
  let h := toBytes 2 e.kind ++ toBytes 2 e.sector ++ toBytes 4 e.seq ++ toBytes 4 0
  h ++ toBytes 4 (Config.shake256 h).toNat

def asciiBytes (w : String) : List Byte := w.toList.map fun c => BitVec.ofNat 8 c.toNat

def ImgRec.bytes (r : ImgRec) : List Byte :=
  let twin := if r.twinB then 0x0B0B0B0B else 0x0A0A0A0A
  let comp := r.comps.flatMap fun c => toBytes 2 c.1 ++ toBytes 2 c.2.1 ++ toBytes 4 (if c.2.2 then 0x600D0001 else 0) ++ toBytes 8 0
  let h := asciiBytes "KIMS" ++ toBytes 4 r.seq ++ toBytes 4 twin ++ toBytes 4 0 ++ comp
  let b := h ++ List.replicate (0xF0 - h.length) 0
  b ++ toBytes 16 (Config.shake256 b).toNat

def RefrRec.bytes (r : RefrRec) : List Byte :=
  let h := asciiBytes "KRFR" ++ toBytes 4 r.seq ++ toBytes 1 r.state ++ toBytes 1 r.sector ++ toBytes 6 0 ++ toBytes 8 r.ptp
  let b := h ++ List.replicate (0x30 - h.length) 0
  b ++ toBytes 16 (Config.shake256 b).toNat

/-- An event as its 16 bytes (Table: Owl event). -/
def OwlEvent.bytes (e : OwlEvent) : List Byte :=
  toBytes 8 e.tick ++ [e.kind, e.flags] ++ toBytes 2 e.seq.toNat ++ toBytes 4 e.data.toNat

/-- The words of a list, lowest byte first. -/
def wordBytes (l : List Word) : List Byte := l.flatMap fun w => toBytes 4 w.toNat

/-- A byte string cut or filled with zeros to a length. -/
def padTo (n : Nat) (l : List Byte) : List Byte := l.take n ++ List.replicate (n - l.length) 0

/-- The 16,384 event bytes of a flush. -/
def OwlFlush.eventBytes (f : OwlFlush) : List Byte := padTo 16384 (f.events.flatMap OwlEvent.bytes)

/-- The flush header without its digest (Table: Owl flush header). -/
def OwlFlush.head (f : OwlFlush) : List Byte :=
  let first := (f.events.head?.map fun e => e.seq.toNat).getD 0
  let top := asciiBytes "KOWL" ++ toBytes 2 0x0100 ++ toBytes 2 f.events.length ++ toBytes 8 f.tick ++ toBytes 8 f.ptp ++
    toBytes 2 first ++ toBytes 1 f.mode ++ toBytes 1 (if f.frozen then 1 else 0)
  let servo := padTo 0x40 top ++ padTo 0x300 (wordBytes f.ce) ++ padTo 0x20 (wordBytes f.spn) ++
    padTo 0x30 (wordBytes f.opu) ++ padTo 0x70 (wordBytes f.ax)
  padTo 0xFE0 (servo ++ f.vbus.flatMap fun v => toBytes 2 v.toNat)

/-- The flush header with its digest. -/
def OwlFlush.header (f : OwlFlush) : List Byte := f.head ++ toBytes 32 (Config.shake256 (f.eventBytes ++ f.head)).toNat

/-- What a sector's structured records put at an offset, 0xFF where none stands. -/
def State.recordByte (s : State) (n o : Nat) : Byte :=
  let pick (l : List (List Byte)) (size : Nat) : Byte := nth (nth l (o / size) []) (o % size) 0xFF
  if n = 2 ∨ n = 3 then pick ((s.jrnlOf (n - 2)).map JEntry.bytes) 16
  else if n = 4 ∨ n = 5 then pick ((s.imgOf (n - 4)).map ImgRec.bytes) 256
  else if n = 6 then match s.flash.flush with
    | some f => nth f.eventBytes o 0xFF
    | none => 0xFF
  else if n = 7 then match s.flash.flush with
    | some f => nth f.header o 0xFF
    | none => 0xFF
  else if n = 9 then pick (s.flash.refr.map RefrRec.bytes) 64
  else 0xFF

/-- DER bytes of the certificate: the length that the factory wrote, at most 16,320 (R587); its value is free. -/
def certLength : Nat := ofBytes ((List.range 4).map fun i => Config.factoryByte (0x38004 + i)) % 16321

/-- The certificate in DER: free bytes of the factory. -/
def certDer : List Byte := (List.range certLength).map fun i => Config.factoryByte (0x38040 + i)

/-- The head of the certificate record in sector 8 (R587): mark, length and digest of the certificate. -/
def certHead : List Byte := asciiBytes "KCRT" ++ toBytes 4 certLength ++ toBytes 32 (Config.shake256 certDer).toNat

/-- What the factory wrote at an address: the certificate record in sector 8, whatever else it wrote elsewhere. -/
def factoryAt (a : Nat) : Byte := nth (if 0x38000 ≤ a ∧ a < 0x38028 then certHead else []) (a - 0x38000) (Config.factoryByte a)

/-- A byte of the flash. -/
def State.flashByte (s : State) (a : Nat) : Byte :=
  match s.flash.cells.find? fun e => e.1 == a with
  | some e => e.2
  | none =>
    let n := sectorOf a
    if s.flash.factory.contains n then factoryAt a else s.recordByte n (a - sectorBase n)

/-- The bytes of a range. -/
def State.flashBytes (s : State) (a n : Nat) : List Byte := (List.range n).map fun i => s.flashByte (a + i)

/-- The bytes of a range as a read delivers them. -/
def State.flashRead (s : State) (a n : Nat) : List Byte := (List.range n).map fun i =>
  s.flashByte (a + i) ^^^ BitVec.ofNat 8 ((flWord (s.flUpset ((a + i) / 16))).data / 2 ^ (8 * ((a + i) % 16)))

/-- No cell and no record of a sector holds anything. -/
def State.sectorBlank (s : State) (n : Nat) : Bool :=
  let b := sectorBase n
  (s.flash.cells.all fun e => !(decide (b ≤ e.1) && decide (e.1 < b + sectorSize n))) &&
    !(s.flash.factory.contains n) && !((n == 2 || n == 3) && s.jrnlOf (n - 2) != []) && !((n == 4 || n == 5) && s.imgOf (n - 4) != []) &&
    !(n == 6 && s.flash.owlA) && !(n == 7 && s.flash.owlB) && !(n == 9 && s.flash.refr != [])

/-- A range is all 0xFF. -/
def State.rangeBlank (s : State) (a n : Nat) : Bool :=
  s.sectorBlank (sectorOf a) && s.sectorBlank (sectorOf (a + n - 1)) || (s.flashBytes a n).all fun b => b == 0xFF

/-- A sector becomes blank. -/
def State.eraseSector (s : State) (n : Nat) : State :=
  let b := sectorBase n
  let f := { s.flash with upset := s.upsetBut b (sectorSize n) }
  let cells := f.cells.filter fun e => !(decide (b ≤ e.1) && decide (e.1 < b + sectorSize n))
  let f1 := { f with cells := cells, factory := f.factory.filter fun k => k != n }
  let f2 := if n = 2 ∨ n = 3 then { f1 with jrnl := f1.jrnl.setIfInBounds (n - 2) [] }
    else if n = 4 ∨ n = 5 then { f1 with imgs := f1.imgs.setIfInBounds (n - 4) [] }
    else if n = 6 then { f1 with owlA := false, flush := none }
    else if n = 7 then { f1 with owlB := false, flush := none }
    else if n = 9 then { f1 with refr := [] }
    else f1
  { s with flash := f2 }

/-- Bytes are programmed. -/
def State.programBytes (s : State) (a : Nat) (l : List Byte) : State :=
  let cells := l.zipIdx.foldl (fun c e => sput (fun _ => (0xFF : Byte)) c (a + e.2) e.1) s.flash.cells
  { s with flash := { s.flash with cells := cells, upset := s.upsetBut a l.length } }

/-! ### The descriptor queue (R477 to R483) -/

/-- Descriptors in the queue or running. -/
def State.flAll (s : State) : List FlDesc := s.flash.queue ++ s.flash.run.toList ++ s.flash.susp.toList ++ s.flash.rd.toList

/-- Entries the host holds, its waiting completions included. -/
def State.flHost (s : State) : Nat := (s.flAll.filter fun d => d.host).length + s.flash.cmpl.length

/-- Entries the device's cores hold. -/
def State.flCore (s : State) : Nat := (s.flAll.filter fun d => !d.host).length

/-- FL_STAT and FL_Q_STAT follow the queue. -/
def State.flStat (s : State) : State :=
  let f := s.flash
  let m := f.run.orElse fun _ => f.susp
  let s1 := (((s.setFlag FL_STAT_MOD_BUSY f.run.isSome).setFlag FL_STAT_SUSPENDED f.susp.isSome).setFlag FL_STAT_NESTED
    (f.susp.isSome && f.run.isSome)).set FL_STAT_OP ((f.run.map FlDesc.op).getD 0)
  let s2 := s1.set FL_STAT_SECTOR ((m.map fun d => sectorOf d.addr).getD 0)
  ((s2.set FL_Q_STAT_USED (s.flHost + s.flCore)).set FL_Q_STAT_HOST_USED s.flHost).set FL_Q_STAT_CMPL_AVAIL f.cmpl.length

/-- A descriptor's range keeps to R479: within its bank, and for a PROGRAM aligned and within one sector. -/
def FlDesc.rangeOk (d : FlDesc) : Bool :=
  let last := d.addr + d.len - 1
  if d.op = flErase then d.len == 0 && sectorBase (sectorOf d.addr) == d.addr
  else if d.op = flProgram then
    d.refresh || d.addr % 16 == 0 && d.len % 16 == 0 && decide (16 ≤ d.len) && decide (d.len ≤ 4096) &&
      sectorOf d.addr == sectorOf last
  else d.len == 0 || bankOf d.addr == bankOf last

/-- The status with which a descriptor completes without acting, if any (Table: Flash completion status). -/
def State.flRefusal (s : State) (d : FlDesc) : Option Nat :=
  let n := sectorOf d.addr
  let xip := if bankOf d.addr = 0 then s.flag FL_XIP_EN_BANK0 else s.flag FL_XIP_EN_BANK1
  if d.modifies ∧ xip = true then some 1
  else if d.rangeOk = false then some 2
  else if d.op = flProgram then
    if (s.flash.susp.any fun e => sectorOf e.addr == n) then some 5
    else if s.jrnlOpen n then some 7
    else if d.refresh = false ∧ d.owl = false ∧ s.rangeBlank d.addr d.len = false then some 3
    else none
  else none

/-- A step of the refresh pass is queued at the end of the queue. -/
def refreshStep (op n : Nat) : FlDesc := { host := false, op := op, addr := sectorBase n, len := if op = flErase then 0 else 16, refresh := true }

/-- The sectors a refresh pass copies: every one that holds data but for the refresh record and the spare (R490). -/
def State.refreshed (s : State) (n : Nat) : Bool :=
  let image := match s.imgNow with
    | some r => r.comps.any fun c => decide (c.1 ≤ n) && decide (n < c.1 + c.2.1)
    | none => false
  decide (n < 2) || n == 8 || image || n == 2 + s.jrnlCur || n == 4 + s.imgCur ||
    ((n == 6 || n == 7) && s.flash.flush.isSome) || (n != 9 && n != 135 && decide (10 ≤ n) && !s.sectorBlank n)

/-- The pass goes on with its next sector, halts or completes (R490, R491). -/
def State.refreshNext (s : State) : State :=
  let from_ := s.get FL_REFRESH_STAT_SECTOR
  let left := ((List.range 136).drop from_).find? fun n => s.refreshed n
  let rest (t : State) : State := t.set FL_XIP_EN_BANK1 1
  if s.flash.stopRefresh then
    rest ({ s with flash := { s.flash with stopRefresh := false } }.set FL_REFRESH_STAT_STATE 3)
  else match left with
    | some n =>
      let steps := [refreshStep flErase 135, refreshStep flProgram 135, refreshStep flErase n, refreshStep flProgram n]
      ({ s with flash := { s.flash with queue := s.flash.queue ++ steps } }.set FL_REFRESH_STAT_SECTOR n).set
        FL_REFRESH_STAT_PROGRESS (100 * n / 136)
    | none =>
      let s1 := s.refrPut 3 0
      rest (((s1.set FL_REFRESH_STAT_STATE 2).set FL_REFRESH_STAT_PROGRESS 100).set FL_REFRESH_STAT_DUE 0).refreshShow

/-- A step of the refresh pass has completed: the record is written after the copy and after the rewriting, and the pass
goes on when no step is left. -/
def State.refreshDone (s : State) (d : FlDesc) : State :=
  let n := s.get FL_REFRESH_STAT_SECTOR
  let s1 := if d.op = flProgram ∧ sectorOf d.addr = 135 then s.refrPut 1 n
    else if d.op = flProgram then (s.refrPut 2 n).set FL_REFRESH_STAT_SECTOR (n + 1)
    else s
  if s1.flash.queue.any fun e => e.refresh then s1 else s1.refreshNext

/-- One program of the Owl flush has completed: with the last one verified the flush is held (R575). -/
def State.flushDone (s : State) (status : Nat) : State :=
  let o := s.owl
  let s1 := { s with flash := { s.flash with owlA := true } }
  match o.flushing with
  | none => s1
  | some n =>
    if status ≠ 0 then { s1 with owl := { o with flushing := none }, flash := { s1.flash with flushing := none } }
    else if n ≤ 1 then
      { s1 with owl := { o with flushing := none, flushed := true }, flash := { s1.flash with owlB := true, flush := s1.flash.flushing, flushing := none } }
    else { s1 with owl := { o with flushing := some (n - 1) } }

/-- A descriptor completes with a status. -/
def State.flComplete (s : State) (d : FlDesc) (status : Nat) : State :=
  if d.host then { s with flash := { s.flash with cmpl := s.flash.cmpl ++ [(d.tag, d.op, status)] } }
  else
    let s1 := { s with flash := { s.flash with coreDone := some (d.op, status) } }
    if d.owl ∧ d.op = flProgram then s1.flushDone status
    else if d.refresh then s1.refreshDone d
    else s1

/-- The first descriptor of a list that satisfies a test, and the list without it. -/
def takeFirst {α : Type} (f : α → Bool) : List α → Option (α × List α)
  | [] => none
  | x :: t => if f x then some (x, t) else match takeFirst f t with
    | some (y, r) => some (y, x :: r)
    | none => none

/-- The modifying descriptor that may start now, and the queue without it (R478, R482, R483). -/
def State.nextModify (s : State) : Option (FlDesc × List FlDesc) :=
  let q := s.flash.queue
  let urgent (d : FlDesc) : Bool := d.urgent && d.op == flProgram
  match s.flash.run, s.flash.susp with
  | none, some _ => takeFirst urgent q
  | none, none => (takeFirst urgent q).orElse fun _ => takeFirst FlDesc.modifies q
  | some e, none =>
    if e.op = flErase ∧ s.get FL_STAT_SUSP_CNT < 32 then
      takeFirst (fun d => urgent d && sectorOf d.addr != sectorOf e.addr) q
    else none
  | some _, some _ => none

/-- A modifying descriptor starts: an erase that runs is suspended for it (R482), an erase is journalled (R484). -/
def State.startModify (s : State) (d : FlDesc) : State :=
  let s1 := match s.flash.run with
    | some e => ({ s with flash := { s.flash with susp := some e } }.set FL_STAT_SUSP_CNT (s.get FL_STAT_SUSP_CNT + 1))
    | none => s
  let s2 := if d.op = flErase then (s1.set FL_STAT_SUSP_CNT 0).journal jStart (sectorOf d.addr) else s1
  { s2 with flash := { s2.flash with run := some d } }

/-- The reading descriptor that may start now: the first one, once its range touches no sector being modified and no
modifying descriptor stands before it in its bank (R478). -/
def State.nextRead (s : State) : Option (FlDesc × List FlDesc) :=
  let q := s.flash.queue
  if s.flash.rd.isSome then none
  else match takeFirst (fun d => !d.modifies) q with
    | none => none
    | some (d, rest) =>
      let before := (q.takeWhile fun e => e.modifies).any fun e => bankOf e.addr == bankOf d.addr
      let busy := (s.flash.run.toList ++ s.flash.susp.toList).any fun e => d.touches (sectorOf e.addr)
      if before || busy then none else some (d, rest)

/-- The queue is worked off as far as it goes now: descriptors that cannot act complete at once, others start; a
suspended erase resumes when no URGENT program remains (R482). -/
def State.flAdvance (s : State) : Nat → State
  | 0 => s
  | n + 1 =>
    match s.nextModify with
    | some (d, rest) =>
      let s1 := { s with flash := { s.flash with queue := rest } }
      match s.flRefusal d with
      | some st => (s1.flComplete d st).flAdvance n
      | none => (s1.startModify d).flAdvance n
    | none =>
      let s0 := match s.flash.run, s.flash.susp with
        | none, some e => { s with flash := { s.flash with run := some e, susp := none } }
        | _, _ => s
      match s0.nextRead with
      | none => s0
      | some (d, rest) =>
        let s1 := { s0 with flash := { s0.flash with queue := rest } }
        match s0.flRefusal d with
        | some st => (s1.flComplete d st).flAdvance n
        | none => ({ s1 with flash := { s1.flash with rd := some d } }).flAdvance n

/-- The queue goes on and its status follows. -/
def State.flGo (s : State) : State := (s.flAdvance 40).flStat

/-- A device core queues a descriptor, if an entry of its twelve is free; the twelfth is kept for URGENT programs. -/
def State.flPush (s : State) (d : FlDesc) : State :=
  if s.flCore < (if d.urgent then 12 else 11) then { s with flash := { s.flash with queue := s.flash.queue ++ [d] } }.flGo
  else s

/-- A host push is accepted (R477). -/
def State.flHostAccepts (s : State) (op len buf : Nat) (urgent : Bool) : Bool :=
  (op == flRead || op == flCheck || op == flBlank) && !urgent && buf == 0 && !(op == flRead && decide (256 < len)) &&
    decide (s.flHost < 4)

/-- The sectors that FLUSH_ACK or R576 orders erased. -/
def State.eraseOwl (s : State) : State :=
  let d (n : Nat) : FlDesc := { host := false, op := flErase, addr := sectorBase n, owl := true }
  (s.flPush (d 6)).flPush (d 7)

/-- Words read back into registers `base + 4 k`, four bytes each. -/
def State.loadWords (s : State) (base : Nat) (l : List Byte) : State :=
  (List.range ((l.length + 3) / 4)).foldl (fun (t : State) k =>
    t.setReg (base + 4 * k) (BitVec.ofNat 32 (ofBytes ((l.drop (4 * k)).take 4)))) s

/-- An upset word is met by a flash read (R476): counted and recorded, not written back. -/
def State.flEcc (s : State) (e : Nat × BitVec 137) : State :=
  let k := (flWord e.2).kind
  if k = 0 then s
  else
    let s1 := (if k = 1 then s.addSat FL_ECC_CNT_CORR 1 else s.addSat FL_ECC_CNT_UNCORR 1).set FL_ECC_LAST_ADDR (16 * e.1)
    (s1.set FL_ECC_LAST_KIND k).when (decide (k = 2)) fun t => t.flFault 1 (sectorOf (16 * e.1))

/-- The errors that a read of a range meets. -/
def State.flMet (s : State) (a n : Nat) : State := (s.upsetIn a n).foldl (fun (t : State) e => t.flEcc e) s

/-- The reading descriptor completes. -/
def State.readDone (s : State) (d : FlDesc) : State :=
  let s1 := s.flMet d.addr d.len
  let bad := s.flBad d.addr d.len
  let s2 := { s1 with flash := { s1.flash with rd := none } }
  if d.op = flBlank then s2.flComplete d (if s.rangeBlank d.addr d.len then 0 else 3)
  else
    let bytes := s.flashRead d.addr d.len
    let s3 := if d.host ∧ bad = false then
        (if d.op = flRead then s2.loadWords (FL_RBUF 0) bytes
         else s2.loadWords (FL_DIGEST 0) (toBytes 32 (Config.shake256 bytes).toNat))
      else s2
    s3.flComplete d (if bad then 6 else 0)

/-- Bytes of which nothing is known: what a program leaves that failed its verification. -/
def State.freeBytes (s : State) (n : Nat) : List Byte × State :=
  ((List.range n).map fun i => (Config.freeWord (s.free + i)).setWidth 8, { s with free := s.free + n })

/-- The modifying descriptor that runs ends with its verification. -/
def State.modifyDone (s : State) (d : FlDesc) (ok : Bool) : State :=
  let n := sectorOf d.addr
  let s1 := { s with flash := { s.flash with run := none } }
  if d.op = flErase then
    if ok then (((if d.refresh ∧ (n = 2 + s.jrnlCur ∨ n = 4 + s.imgCur ∨ s.refreshed n = true) then { s1 with flash := { s1.flash with upset := s1.upsetBut d.addr (sectorSize n) } }
      else s1.eraseSector n).journal jEnd n)).flComplete d 0
    else if d.fails = 0 then { s with flash := { s.flash with run := some { d with fails := 1 } } }
    else (s1.flFault 2 n).flComplete d 4
  else if ok then (if d.owl ∨ d.refresh then s1 else s1.programBytes d.addr d.data).flComplete d 0
  else
    let r := s1.freeBytes d.len
    (if d.owl ∨ d.refresh then s1 else r.2.programBytes d.addr r.1).flComplete d 4

end Sys2Proof.Machine
end

