-- ==== Sys2Proof/Machine/MapOps.lean ====
section
/-!
DEFINITION. The domain map, the ranking of devices, placement policies, the translation map and the local targets of
Squirrel (07_placement.md: R296 to R306, R324 to R332).
DEDUCED (notes/assumptions/30.md, unsafe): Placement: peers act in SERVE and DRAIN only, tombstones are accepted in SERVE only, READ_REQ in DRAIN is NACKed, an unanswered TOMB counts as missed when the peer goes DOWN.
-/

namespace Sys2Proof.Machine

open Sys2Proof

def State.modPlc (s : State) (f : PlcSt → PlcSt) : State := { s with plc := f s.plc }

/-- A fault of the PLC block. -/
def State.plcFault (s : State) (kind arg : Nat) : State := s.raise 0x060 kind arg

/-- Bytes of a unit (R296). -/
abbrev unitBytes : Nat := 4194304

/-- A list in order: `le a b` when `a` may stand before `b`; equals keep their order. -/
def sortIn {α : Type} (le : α → α → Bool) (x : α) : List α → List α
  | [] => [x]
  | y :: l => if le y x then y :: sortIn le x l else x :: y :: l

def sortBy {α : Type} (le : α → α → Bool) (l : List α) : List α := l.foldl (fun r x => sortIn le x r) []

/-! ### The domain map (Table: Domain map entry) -/

def State.self (s : State) : Nat := s.get PLC_DM_SELF_SELF
def State.dmWord (s : State) (d w : Nat) : Nat := (s.reg (keyDm d w)).toNat
def State.dmState (s : State) (d : Nat) : Nat := bitsOf (s.dmWord d 0) 31 30
def State.dmChain (s : State) (d : Nat) : Nat := bitsOf (s.dmWord d 0) 29 27
def State.dmGroup (s : State) (d : Nat) : Nat := bitsOf (s.dmWord d 0) 20 13

/-- DOMAIN_ID and MAP_TAG of the applied map. -/
def State.domainId (s : State) : BitVec 64 := s.reg PLC_DM_ID_HI ++ s.reg PLC_DM_ID_LO
def State.mapTag (s : State) : BitVec 64 := s.reg PLC_DM_TAG_HI ++ s.reg PLC_DM_TAG_LO

/-- Devices of the applied map that take part in the domain. -/
def State.devices (s : State) (f : Nat → Bool) : List Nat :=
  if s.flag PLC_STAT_DM_VALID then (List.range 512).filter fun d => s.dmState d != 0 && f (s.dmState d) else []

/-! ### Policies (PLC_POL_DATA) -/

def State.policy (s : State) (t hi lo : Nat) : Nat := bitsOf (s.reg (keyPol t)).toNat hi lo
def State.polValid (s : State) (t : Nat) : Bool := s.policy t 31 31 == 1
def State.polReplicas (s : State) (t : Nat) : Nat := s.policy t 3 0
def State.polAck (s : State) (t : Nat) : Nat := s.policy t 7 4
def State.polObject (s : State) (t : Nat) : Bool := s.policy t 15 15 == 1
def State.polSep (s : State) (t : Nat) : Nat := s.policy t 17 16
def State.polLatency (s : State) (t : Nat) : Nat := s.policy t 19 18
def State.polKeep (s : State) (t : Nat) : Nat := s.policy t 23 20
def State.polWait (s : State) (t : Nat) : Nat := s.policy t 27 24

/-- W of the tenant's latency class, J per s (PLC_W). -/
def State.weightOf (s : State) (t : Nat) : Nat :=
  match s.polLatency t with
  | 1 => s.get PLC_W_W_FAST
  | 2 => s.get PLC_W_W_ECON
  | _ => s.get PLC_W_W_STD

/-- E + W·t in nJ, of an energy in nJ and a start in ms (R306, R322). -/
def State.score (s : State) (t energy start : Nat) : Nat := energy + s.weightOf t * start * 1000000

/-- The key store is replaced; SEC_KEYS.COUNT follows (R596). -/
def State.setKeys (s : State) (l : List TenantKey) : State := { s with sec := { s.sec with keys := l } }.set SEC_KEYS_COUNT l.length

/-- The tenant's key is loaded. -/
def State.hasKey (s : State) (t : Nat) : Bool := s.sec.keys.any fun k => k.tenant == t

/-! ### The ranking of devices (R302, R303) -/

/-- The weight of a device for a unit. -/
def State.rankWeight (s : State) (id : UnitId) (d : Nat) : Nat :=
  let u := if s.polObject id.tenant then 0 else id.unit
  (Config.shake256 (toBytes 2 id.tenant ++ toBytes 8 id.key ++ toBytes 4 u ++ toBytes 8 s.domainId.toNat ++
    toBytes 2 d)).toNat % 2 ^ 64

/-- The ACTIVE devices by falling weight, equal weights by rising device ID. -/
def State.ranking (s : State) (id : UnitId) : List Nat :=
  (sortBy (fun (a b : Nat × Nat) => decide (b.2 ≤ a.2)) ((s.devices fun st => st == 1).map fun d => (d, s.rankWeight id d))).map
    (·.1)

/-- A device keeps the separation of the tenant's policy from others. -/
def State.apart (s : State) (t d : Nat) (others : List Nat) : Bool :=
  others.all fun o => o != d && (match s.polSep t with
    | 1 => s.dmGroup o != s.dmGroup d
    | 2 => s.dmChain o != s.dmChain d
    | _ => true)

/-- Devices of a list taken in order, each apart from those taken before. -/
def State.takeApart (s : State) (t : Nat) : List Nat → List Nat → List Nat
  | taken, [] => taken
  | taken, d :: l => if s.apart t d taken then s.takeApart t (taken ++ [d]) l else s.takeApart t taken l

/-- The first CAND devices of a ranking, extended by CAND up to three times while they cannot supply REPLICAS devices that
keep the separation (R302, R303). -/
def State.candidateSet (s : State) (id : UnitId) (l : List Nat) : List Nat :=
  let c := s.get PLC_PEER_CFG_CAND
  let enough (k : Nat) : Bool := decide (s.polReplicas id.tenant ≤ (s.takeApart id.tenant [] (l.take (c * k))).length)
  match [1, 2, 3].find? enough with
  | some k => l.take (c * k)
  | none => l.take (c * 4)

def State.candidates (s : State) (id : UnitId) : List Nat := s.candidateSet id (s.ranking id)

/-! ### Units as messages and discs name them -/

/-- A unit named in a message or on a disc, as the map names it. -/
def unitRefId (u : UnitRef) : UnitId := { tenant := u.tenant.toNat, key := u.key.toNat, ver := u.ver.toNat, unit := u.unit.toNat }

/-- Frame address: side, layer, frame number (R169). -/
def frameAddr (side layer frame : Nat) : Nat := side * 2 ^ 29 + layer % 32 * 2 ^ 24 + frame % 2 ^ 24

/-! ### Peers (R320) -/

def State.peerOf (s : State) (d : Nat) : PeerSt := (s.plc.peers.find? fun p => p.dev == d).getD { dev := d }

def State.modPeer (s : State) (d : Nat) (f : PeerSt → PeerSt) : State :=
  s.modPlc fun p => { p with peers := (p.peers.filter fun x => x.dev != d) ++ [f (s.peerOf d)] }

def State.isDown (s : State) (d : Nat) : Bool := (s.peerOf d).downAt.isSome

/-- PLC_STAT.DOWN and PLC_PEER_DOWN follow the peers that are DOWN. -/
def State.showDown (s : State) (d : Nat) (b : Bool) : State :=
  let f := PLC_PEER_DOWN_DOWN (d / 32)
  let w := s.get f
  let w1 := if b then w ||| 2 ^ (d % 32) else if w.testBit (d % 32) then w - 2 ^ (d % 32) else w
  (s.set f w1).set PLC_STAT_DOWN (s.plc.peers.filter fun p => p.downAt.isSome).length

/-- A peer becomes DOWN; PEER_DOWN is raised on the change. -/
def State.markDown (s : State) (d : Nat) : State :=
  if s.isDown d then s
  else ((s.modPeer d fun p => { p with downAt := some s.tick, misses := 0 }).showDown d true).plcFault 3 d

/-! ### Peer messages -/

/-- A message is sent to a peer. -/
def State.tell (s : State) (dst type xid : Nat) (body : List Nat) : State :=
  s.modPlc fun p => { p with out := p.out ++ [{ dst := dst, type := type, xid := xid, body := body }] }

/-- A reply to a peer's request is sent, and kept for a second in case the request comes again (R319). -/
def State.reply (s : State) (dst type xid : Nat) (body : List Nat) : State :=
  (s.tell dst type xid body).modPlc fun p =>
    { p with answered := (p.answered.filter fun a => decide (s.tick < a.2.2.2 + 500000)) ++ [(dst, xid, { dst := dst, type := type, xid := xid, body := body }, s.tick)] }

/-- A new exchange identifier. -/
def State.newXid (s : State) : Nat × State :=
  (s.plc.nextXid, s.modPlc fun p => { p with nextXid := (p.nextXid + 1) % 2 ^ 32 })

abbrev pmHintReq : Nat := 0x01
abbrev pmHint : Nat := 0x02
abbrev pmBidReq : Nat := 0x03
abbrev pmBid : Nat := 0x04
abbrev pmAward : Nat := 0x05
abbrev pmData : Nat := 0x06
abbrev pmDataAck : Nat := 0x07
abbrev pmProgress : Nat := 0x08
abbrev pmCommitted : Nat := 0x09
abbrev pmFailed : Nat := 0x0A
abbrev pmReadReq : Nat := 0x0B
abbrev pmNack : Nat := 0x0C
abbrev pmTomb : Nat := 0x0D
abbrev pmTombAck : Nat := 0x0E

/-- The segments of a unit's data (R319): each carries up to the network MTU less 128 bytes. -/
def State.segments (s : State) (len : Nat) : Nat :=
  let mtu := if s.get NET_MTU_MTU = 0 then 1024 else if s.get NET_MTU_MTU = 1 then 2048 else 4096
  (len + (mtu - 129)) / (mtu - 128)

/-- The data of an exchange is sent: one DATA message that stands for the segments it lists, unacknowledged until its
DATA_ACK (R319). -/
def State.sendData (s : State) (dst xid : Nat) (segs : List Nat) : State :=
  ((s.modPlc fun p => { p with sending := p.sending ++ [{ xid := xid, dev := dst, segs := segs, at_ := s.tick }] }).tell dst
    pmData xid segs)

/-! ### The translation map -/

/-- PLC_SLOT_s counts move by given amounts (R332). -/
def State.slotCounts (s : State) (k : Nat) (live dead : Int) : State :=
  (s.set (PLC_SLOT_W2_LIVE k) (((s.get (PLC_SLOT_W2_LIVE k) : Nat) : Int) + live).toNat).set (PLC_SLOT_W3_DEAD k)
    (((s.get (PLC_SLOT_W3_DEAD k) : Nat) : Int) + dead).toNat

/-- The entry counts LIVE. -/
def MapEnt.live (e : MapEnt) : Bool := !e.dead && (e.state == 0 || e.state == 3)

def State.mapUsed (s : State) : State := s.set PLC_MAP_STAT_USED s.plc.map.length

/-- The entry of a unit that is live, on a slot that can be read. -/
def State.entOf (s : State) (id : UnitId) : Option MapEnt := s.plc.map.find? fun e => e.id == id && e.live

/-- Entries are changed, and the classes of their slots counted anew. -/
def State.mapEnts (s : State) (f : MapEnt → Bool) (g : MapEnt → MapEnt) : State :=
  s.plc.map.foldl (fun (t : State) e =>
    if f e then
      let e1 := g e
      let t1 := t.modPlc fun p => { p with map := p.map.map fun x => if x = e then e1 else x }
      if e.live && !e1.live then t1.slotCounts e.slot (-1) 1
      else if !e.live && e1.live then t1.slotCounts e.slot 1 (-1)
      else t1
    else t) s

def addrSide (a : Nat) : Nat := bitsOf a 29 29
def addrLayer (a : Nat) : Nat := bitsOf a 28 24
def addrFrame (a : Nat) : Nat := bitsOf a 23 0

/-- The objects of the object directory: those that the map holds units of. -/
def State.objects (s : State) : List (Nat × Nat) := (s.plc.map.map fun e => (e.id.tenant, e.id.key)).dedup

/-- The region of the map that is full, as MAP_FULL names it: 0 unit map, 2 object directory (Table: Map regions in DRAM, R324). -/
def State.mapFull (s : State) : Option Nat :=
  if 16777216 ≤ s.plc.map.length then some 0
  else if 4194304 ≤ s.objects.length then some 2
  else none

/-- Entries of the relocation table in use. -/
def State.relocsUsed (s : State) : Nat := (s.plc.map.map fun e => e.reloc.length).sum

/-- A block of an extent is relocated: its entry takes the address. A relocation table that is full takes none and raises
MAP_FULL (R324). -/
def State.enterMove (s : State) (which : MapEnt → Bool) (b addr : Nat) : State :=
  if 1048576 ≤ s.relocsUsed then s.plcFault 4 3
  else s.mapEnts which fun e =>
    { e with flags := e.flags ||| 8, reloc := (e.reloc.filter fun y => y.1 != b) ++ [(b, addr)] }

/-- A committed extent enters the map. A map that is full takes no entry and raises MAP_FULL (R324); a full object directory still
takes the units of the objects it holds. -/
def State.enterUnit (s : State) (e : MapEnt) : State :=
  if s.mapFull = some 0 then s.plcFault 4 0
  else if s.mapFull = some 2 ∧ s.objects.contains (e.id.tenant, e.id.key) = false then s.plcFault 4 2
  else ((s.modPlc fun p => { p with map := p.map ++ [e] }).slotCounts e.slot (if e.live then 1 else 0) (if e.live then 0 else 1)).mapUsed

/-- The versions of an object that the map or the open versions know as sealed here: those one of whose live units carries
FLAGS bit 1. -/
def State.sealedVers (s : State) (t k : Nat) : List Nat :=
  ((s.plc.map.filter fun e => e.id.tenant == t && e.id.key == k && e.live && e.flags.testBit 1).map fun e => e.id.ver).dedup

/-- The newest sealed version of an object that this device's map knows. -/
def State.newest (s : State) (t k : Nat) : Option Nat := (s.sealedVers t k).foldl (fun b v => match b with
  | none => some v
  | some x => some (max x v)) none

/-- Units of a version beyond KEEP_VER sealed versions become superseded (R326, R332). -/
def State.supersede (s : State) (t k : Nat) : State :=
  let vers := sortBy (fun a b => decide (b ≤ a)) (s.sealedVers t k)
  match vers[s.polKeep t]? with
  | none => s
  | some _ =>
    let keep := vers.take (s.polKeep t)
    let least := keep.foldl min (2 ^ 32)
    s.mapEnts (fun e => e.id.tenant == t && e.id.key == k && e.live && decide (e.id.ver < least)) fun e => { e with state := 1 }

/-- A tombstone applies to an entry: versions at or below it, and no open version of a later sequence (R329). -/
def Tomb.covers (b : Tomb) (e : MapEnt) : Bool :=
  e.id.tenant == b.tenant && (b.whole || (e.id.key == b.key && decide (e.id.ver ≤ b.ver)))

/-- A tombstone hides what it covers at once (R330). -/
def State.applyTomb (s : State) (b : Tomb) : State :=
  let s1 := s.mapEnts (fun e => b.covers e && e.live) fun e => { e with state := 2 }
  if s1.plc.tombs.contains b then s1
  else if 262144 ≤ s1.plc.tombs.length then s1.plcFault 4 4
  else s1.modPlc fun p => { p with tombs := p.tombs ++ [b] }

/-! ### Layers and targets (R203, R304) -/

def State.layerOf (s : State) (slot side layer : Nat) : LayerSt :=
  (s.plc.layers.find? fun l => l.slot == slot && l.side == side && l.layer == layer).getD
    { slot := slot, side := side, layer := layer }

def State.modLayer (s : State) (slot side layer : Nat) (f : LayerSt → LayerSt) : State :=
  s.modPlc fun p =>
    { p with layers := (p.layers.filter fun l => !(l.slot == slot && l.side == side && l.layer == layer)) ++ [f (s.layerOf slot side layer)] }

/-- Frames that an extent needs (R203). -/
def State.roomNeeded (s : State) (n : Nat) : Nat := 1154 + s.get (CHN_WR_CTL_REWR_MAX n) + 4

/-- The first position from the front on from which `need` frames read blank: a position known not to be blank is never written
over (R187). -/
def LayerSt.blankRun (l : LayerSt) (need : Nat) : Nat :=
  (sortBy (fun a b => decide (a ≤ b)) l.marked).foldl (fun p m => if p ≤ m ∧ m < p + need then m + 1 else p) l.front

/-- The frame after the highest run of 18 frames below the lowest frame of the spare area in use that reads blank. -/
def LayerSt.spareRun (l : LayerSt) : Nat :=
  (sortBy (fun a b => decide (b ≤ a)) l.marked).foldl (fun p m => if m < p ∧ p ≤ m + 18 then m else p) l.spareLow

/-- A layer has room for an extent written by a pickup: its frames lie free below the lowest relocated block (R203), and the layer
holds fewer committed extents than leave it the frames of R171. -/
def State.hasRoom (s : State) (l : LayerSt) (n : Nat) : Bool :=
  decide (l.blankRun (s.roomNeeded n) + s.roomNeeded n ≤ l.spareLow) && decide (l.exts < layerExtents)

/-- FREE of a slot: the extents that still fit on its layers (R171, R332). -/
def State.showFree (s : State) (slot : Nat) : State :=
  let need := s.roomNeeded 0
  let of (i : Nat) : Nat := let l := s.layerOf slot (i / 24) (i % 24); min ((l.spareLow - l.front) / need) (layerExtents - l.exts)
  s.set (PLC_SLOT_W1_FREE slot) ((List.range 48).map of).sum

/-- The side's pickup can write: it is not UNUSABLE and its write channel has not failed (R218). -/
def State.canWrite (s : State) (n : Nat) : Bool := s.puState n != puUnusable && !(s.chn.noWrite[n]?.getD false)

/-- The station and load class of a slot: 0 spinning, 1 loaded and stopped, 2 in the magazine. -/
def State.whereIs (s : State) (slot : Nat) : Option (Nat × Nat) :=
  match s.stationOf slot with
  | some st =>
    if s.inService st && s.calOk st then some (st, if s.flag (SPN_STAT_STOPPED st) then 1 else 0) else none
  | none =>
    if s.magState = mgUnusable then none
    else (s.bindSlot slot).map fun st => (st, 2)

/-- The key by which eligible targets are ranked (R304). -/
def State.targetKey (s : State) (id : UnitId) (prev : Option (Nat × Nat)) (x : Target) : List Nat :=
  let front := (s.layerOf x.slot x.side x.layer).front
  let n := 2 * x.station + x.side
  let writing := match (s.chn.ext[n]?).getD none with
    | some e => e.slot == x.slot && e.side == x.side && e.layer == x.layer
    | none => false
  [if s.polObject id.tenant && prev == some (x.slot, x.side) then 0 else 1, x.loaded,
   if s.polLatency id.tenant = 1 ∧ zoneOf front < 8 then 1 else 0, if writing then 0 else 1, x.layer, x.slot, x.side]

/-- Lexicographic order of two keys. -/
def keyLt : List Nat → List Nat → Bool
  | a :: l, b :: m => if a = b then keyLt l m else decide (a < b)
  | [], _ :: _ => true
  | _, [] => false

/-- The disc side that holds the version's previous unit on this device. -/
def State.prevSide (s : State) (id : UnitId) : Option (Nat × Nat) :=
  if id.unit = 0 then none
  else (s.entOf { id with unit := id.unit - 1 }).map fun e => (e.slot, addrSide e.hdr)

/-- The eligible targets of a unit (R304). -/
def State.targets (s : State) (id : UnitId) : List Target :=
  (List.range 24).flatMap fun slot =>
    if s.get (PLC_SLOT_W0_STATE slot) ≠ 1 ∨ s.plc.map.any (fun e => e.id == id && e.slot == slot && !e.dead) then []
    else match s.whereIs slot with
      | none => []
      | some (st, loaded) =>
        (List.range 48).filterMap fun i =>
          let side := i / 24
          let l := s.layerOf slot side (i % 24)
          if s.canWrite (2 * st + side) && !l.unwritable && s.hasRoom l (2 * st + side) then
            some { slot := slot, side := side, layer := i % 24, station := st, loaded := loaded }
          else none

/-- The best local target. -/
def State.bestTarget (s : State) (id : UnitId) : Option Target :=
  let prev := s.prevSide id
  (s.targets id).foldl (fun b x => match b with
    | none => some x
    | some y => if keyLt (s.targetKey id prev x) (s.targetKey id prev y) then some x else some y) none

/-- Energies in nJ (R305, R322): of an exchange, and of a spin-up to a speed. -/
def State.exchEnergy (s : State) : Nat := s.get PLC_E_EXCH_E_EXCH * 100000000
def State.spinEnergy (s : State) : Nat := s.get PLC_E_SPIN_E_SPIN * 100000000

/-- A job made up to ask the arbiter for the start of work on a station. -/
def State.probeJob (s : State) (t st : Nat) (write : Bool) (slot : Option Nat) : Job :=
  { id := 0, kind := .tenant, tenant := t, cls := s.prioMax t, at_ := s.tick, station := st, slot := slot, write := write }

/-- The bid on a target: E in nJ, t in ms (R305). -/
def State.bidOn (s : State) (id : UnitId) (x : Target) : BidRec :=
  let stopped := s.flag (SPN_STAT_STOPPED x.station)
  { dev := s.self,
    energy := s.get PLC_E_RW_E_WR * unitBytes + (if stopped then s.spinEnergy * 9 / 16 else 0) + (if x.loaded = 2 then s.exchEnergy else 0),
    start := s.estimate (s.probeJob id.tenant x.station true none) + (if x.loaded = 2 then s.get PLC_T_EXCH_T_EXCH else 0),
    target := some x }

/-- Refusal reasons of a bid. -/
abbrev rfNoSpace : Nat := 1
abbrev rfDraining : Nat := 2
abbrev rfStale : Nat := 3
abbrev rfNoKey : Nat := 4
abbrev rfNotHeld : Nat := 5

/-- This device's bid for a unit, or the reason it refuses (R305, R316, R324). -/
def State.bid (s : State) (id : UnitId) : BidRec ⊕ Nat :=
  if s.mode ≠ modeServe then .inr rfDraining
  else if s.flag PLC_STAT_STALE then .inr rfStale
  else if !s.hasKey id.tenant then .inr rfNoKey
  else if s.mapFull.isSome then .inr rfNoSpace
  else match s.bestTarget id with
    | some x => .inl (s.bidOn id x)
    | none => .inr rfNoSpace

/-- The job unit of a target: the zone is that of the layer's write front. -/
def State.writeUnit (s : State) (id : UnitId) (x : Target) : JobUnit :=
  let front := (s.layerOf x.slot x.side x.layer).front
  { id := id, side := x.side, layer := x.layer, zone := zoneOf front, turn := turnOf front }

/-- The job unit of a read of a map entry. -/
def readUnit (e : MapEnt) : JobUnit :=
  { id := e.id, side := addrSide e.hdr, layer := addrLayer e.hdr, zone := zoneOf (addrFrame e.hdr),
    turn := turnOf (addrFrame e.hdr) }

/-- Cost of reading bytes of an entry here: E in nJ and t in ms (R322). -/
def State.readCost (s : State) (e : MapEnt) (bytes : Nat) : Option (Nat × Nat) :=
  match s.whereIs e.slot with
  | none => none
  | some (st, loaded) =>
    some (s.get PLC_E_RW_E_RD * bytes + (if s.flag (SPN_STAT_STOPPED st) then s.spinEnergy else 0) + (if loaded = 2 then s.exchEnergy else 0),
      s.estimate (s.probeJob e.id.tenant st false (some e.slot)))

/-- Work on a slot joins a job of the same command, or of the same house kind, that waits or holds, works on that slot or
on nothing yet, and has room for another unit (R431); else it makes a new job. A further job of a command on the same
station waits for the one before. -/
def State.enqueue (s : State) (k : JobKind) (t : Nat) (cmd : Option Nat) (st slot : Nat) (write : Bool) (u : JobUnit) : State :=
  let same (j : Job) : Bool :=
    j.kind == k && j.cmd == cmd && j.station == st && (j.slot == some slot || j.units.isEmpty) && j.write == write
  let own (j : Job) : Bool := cmd.isSome && j.cmd == cmd && j.station == st
  if s.allJobs.any fun j => same j && j.units.contains u then s
  else match s.allJobs.find? fun j => same j && decide (j.units.length < s.get ARB_CFG_JOB_MAX) with
  | some j => s.modJob j.id fun x => { x with units := x.units ++ [u], slot := some slot }
  | none =>
    let c := match cmd with
      | some n => s.cmdOf n
      | none => none
    let cls := match k with
      | .tenant => (c.map Cmd.prio).getD 0
      | .peer => s.prioMax t
      | h => s.houseClass h
    s.addJob
      { id := 0, kind := k, tenant := t, cls := cls, cmd := cmd, at_ := (c.map Cmd.at_).getD s.tick, station := st, slot := some slot, write := write, units := [u], joined := !(s.allJobs.any own) }

/-- A unit leaves the jobs that hold it for writing or reading. -/
def State.dropUnit (s : State) (id : UnitId) (write : Bool) (cmd : Option Nat) : State :=
  let f (j : Job) : Job := if j.write = write ∧ j.cmd = cmd then { j with units := j.units.filter fun u => u.id != id } else j
  let s1 := { s with arb := { s.arb with jobs := s.arb.jobs.map f } }
  (List.range 2).foldl (fun (t : State) st => t.modArb st fun a => { a with job := a.job.map f }) s1

end Sys2Proof.Machine
end

