-- ==== Sys2Proof/Machine/PlcOps.lean ====
section
/-!
DEFINITION. Squirrel at work: placement of units, bids, copies and their replacement, location searches, reads from
holders, tombstones, re-replication and migration (07_placement.md: R298 to R323, R329 to R333; R402).
DEDUCED (notes/assumptions/30.md, unsafe): Placement: peers act in SERVE and DRAIN only, tombstones are accepted in SERVE only, READ_REQ in DRAIN is NACKed, an unanswered TOMB counts as missed when the peer goes DOWN.
-/

namespace Sys2Proof.Machine

open Sys2Proof

/-! ### Units being placed -/

def State.unitN (s : State) (n : Nat) : Option UnitSt := s.plc.units.find? fun u => u.n == n

def State.modUnit (s : State) (n : Nat) (f : UnitSt → UnitSt) : State :=
  s.modPlc fun p => { p with units := p.units.map fun u => if u.n = n then f u else u }

def State.addUnit (s : State) (u : UnitSt) : State :=
  s.modPlc fun p => { p with units := p.units ++ [{ u with n := p.nextUnit }], nextUnit := p.nextUnit + 1 }

def State.openOf (s : State) (t k : Nat) : Option OpenVer := s.plc.opens.find? fun v => v.tenant == t && v.key == k

def State.modOpen (s : State) (t k : Nat) (f : OpenVer → OpenVer) : State :=
  s.modPlc fun p => { p with opens := p.opens.map fun v => if v.tenant = t ∧ v.key = k then f v else v }

/-- Unit ends for good, its copies still running included. -/
def UnitSt.running (u : UnitSt) : Bool := u.atts.any fun a => a.st == .running

/-- The write buffer holds the unit's data: fetched for a command, with a copy still to be written (R26, R211). -/
def UnitSt.held (u : UnitSt) : Bool :=
  !u.rerepl && !u.mig && !u.sealing && u.phase != .failed && (u.phase != .complete || u.running)

def UnitSt.copies (u : UnitSt) : Nat := (u.atts.filter fun a => a.st == .committed).length

/-- Copies of the unit known committed, and those under way: the devices a further copy must keep apart from. -/
def UnitSt.devs (u : UnitSt) : List Nat := (u.atts.filter fun a => a.st != .failed).map fun a => a.dev

/-- A record of a unit in the error log (TYPE 0x04 or 0x05). -/
def State.logUnit (s : State) (u : UnitSt) (type copies dev code : Nat) : State :=
  s.logPut
    { seq := 0, type := type, tenant := u.id.tenant, copies := copies, key := u.id.key, ver := u.id.ver, unit := u.id.unit, offset := u.id.unit * unitBytes, device := dev, arg := code }

/-- PLC_REREPL.PENDING follows the queue. -/
def State.showRerepl (s : State) : State := s.set PLC_REREPL_PENDING (min 0xFFFF s.plc.rerepl.length)

/-- Missing copies are queued for re-replication and logged (R307, R311). -/
def State.queueRerepl (s : State) (u : UnitSt) (n : Nat) : State :=
  if n = 0 then s
  else
    let job : UnitSt := { u with cmd := none, phase := .ready, atts := u.atts.filter fun a => a.st != .failed, reps := 1, ack := 1, rerepl := true, replaced := [], again := false, bids := [], asked := [], cands := [], counted := false, sealing := false }
    ((s.modPlc fun p => { p with rerepl := p.rerepl ++ List.replicate n job }).logUnit u logShort u.copies 0 0).showRerepl

/-- The extent or queued write of a copy on this device is given up: an extent in progress is closed with an abort record
(R209, R402), a queued one leaves its job. -/
def State.giveUpCopy (s : State) (id : UnitId) (cmd : Option Nat) : State :=
  let s1 := s.dropUnit id true cmd
  { s1 with chn := { s1.chn with ext := s1.chn.ext.map fun e => match e with
      | some x => if x.id = id ∧ x.peer = none then some { x with doomed := true } else e
      | none => none } }

/-- Every placed unit of a version above a failed one is abandoned, and the units that wait to be placed end with it
(R402): copies being written are closed, committed copies count DEAD, none is counted. The command of each keeps the
cause. -/
def State.abandon (s : State) (id : UnitId) (cause : Nat) : State :=
  let hit (u : UnitSt) : Bool :=
    u.id.tenant == id.tenant && u.id.key == id.key && u.id.ver == id.ver && decide (id.unit ≤ u.id.unit) && !u.counted && u.cmd.isSome
  s.plc.units.foldl (fun (t : State) u =>
    if !hit u then t
    else
      let t1 := u.atts.foldl (fun (w : State) a =>
        if a.dev = w.self then
          (w.giveUpCopy u.id u.cmd).mapEnts (fun e => e.id == u.id && e.live) fun e => { e with dead := true }
        else if a.st = .running then w.tell a.dev pmFailed a.xid [0] else w) t
      let t2 := (t1.logUnit u logShort 0 0 cause).modUnit u.n fun x => { x with phase := .failed, bids := [], asked := [], atts := x.atts.map fun a => { a with st := .failed } }
      match u.cmd with
      | some c => t2.modCmd c fun x => { x with cause := if x.cause = 0 then cause else x.cause }
      | none => t2) s

/-- A re-replication ends without a copy (R311, R334, R413). -/
def State.rereplFail (s : State) (u : UnitSt) : State :=
  let dev := match u.atts.getLast? with
    | some a => a.dev
    | none => s.self
  (((s.modPlc fun p => { p with units := p.units.filter fun x => x.n != u.n }).plcFault 6 dev).logUnit u logRerepl u.copies dev
    stNotPermitted).deferError u.id.tenant { seq := 0, type := 0, key := u.id.key, ver := u.id.ver, unit := u.id.unit, copies := u.copies }

/-- The unit ends with no committed copy, or cannot be placed. -/
def State.failUnit (s : State) (u : UnitSt) (cause : Nat) : State :=
  if u.rerepl then s.rereplFail u
  else if u.mig then s.modPlc fun p => { p with units := p.units.filter fun x => x.n != u.n, migSkip := p.migSkip ++ [u.id] }
  else s.abandon u.id cause

/-! ### Bid rounds (R302 to R309) -/

/-- A bid round of a unit starts: BID_REQ to every candidate not DOWN, and this device's own bid (R304, R316). -/
def State.bidRound (s : State) (u : UnitSt) (cands : List Nat) (again : Bool) : State :=
  let (xid, s1) := s.newXid
  let others := cands.filter fun d => d != s.self && !s.isDown d
  let own := if cands.contains s.self then (match s.bid u.id with
    | .inl b => [b]
    | .inr _ => []) else []
  let pol := (s.reg (keyPol u.id.tenant)).toNat
  let s2 := others.foldl (fun (t : State) d => t.tell d pmBidReq xid [u.id.tenant, u.id.key, u.id.ver, u.id.unit, pol]) s1
  s2.modUnit u.n fun x =>
    { x with phase := if again then x.phase else .bidding, xid := xid, asked := others, bids := own, bidAt := s.tick, again := again, used := x.used ++ cands }

/-- Bids in rising score, ties to this device and then to the lower device (R306). -/
def State.bidBefore (s : State) (t : Nat) (a b : BidRec) : Bool :=
  let x := s.score t a.energy a.start
  let y := s.score t b.energy b.start
  if x ≠ y then decide (x < y)
  else if a.dev = s.self then true
  else if b.dev = s.self then false
  else decide (a.dev ≤ b.dev)

def State.takeBids (s : State) (t need : Nat) : List Nat → List BidRec → List BidRec
  | _, [] => []
  | held, b :: l =>
    if need = 0 then []
    else if s.apart t b.dev held then b :: s.takeBids t (need - 1) (held ++ [b.dev]) l
    else s.takeBids t need held l

/-- One AWARD: this device queues the unit on its target; another is told and its data follows (R306, R308). -/
def State.awardBid (s : State) (n : Nat) (b : BidRec) (repl : Bool) : State :=
  match s.unitN n with
  | none => s
  | some u =>
    let s1 := s.modUnit n fun x =>
      { x with atts := x.atts ++ [{ dev := b.dev, xid := x.xid, seen := s.tick, target := b.target, repl := repl }] }
    if b.dev = s.self then match b.target with
      | some x =>
        let kind : JobKind := if u.rerepl then .rerepl else if u.mig then .mig else .tenant
        s1.enqueue kind u.id.tenant u.cmd x.station x.slot true (s.writeUnit u.id x)
      | none => s1
    else (s1.tell b.dev pmAward u.xid []).sendData b.dev u.xid (List.range (s.segments u.len))

/-- A bid round ends: bids are taken and awarded, or the unit is not placed (R306, R307, R309). -/
def State.decideBids (s : State) (n : Nat) : State :=
  match s.unitN n with
  | none => s
  | some u =>
    let t := u.id.tenant
    let bids := sortBy (s.bidBefore t) (u.bids.filter fun b => !u.again || decide (b.start ≤ s.polWait t * 1000) || u.rerepl)
    let need := if u.again then 1 else u.reps
    let taken := s.takeBids t need u.devs bids
    let s1 := s.modUnit n fun x => { x with asked := [], bids := [] }
    if u.again then
      (taken.foldl (fun (w : State) b => w.awardBid n b true) s1).modUnit n fun x => { x with again := false }
    else if taken.length < u.ack then s1.failUnit u 0x4008
    else
      let s2 := (taken.foldl (fun (w : State) b => w.awardBid n b false) s1).modUnit n fun x => { x with phase := .placed }
      if u.rerepl ∨ u.mig then s2
      else match s2.unitN n with
        | some x => s2.queueRerepl x (u.reps - taken.length)
        | none => s2

/-- The round is decided once nobody is left to answer. -/
def State.bidsIn (s : State) (n : Nat) : State := match s.unitN n with
  | some u => if u.asked.isEmpty && (u.phase == .bidding || u.again) then s.decideBids n else s
  | none => s

/-- The next unit to be placed: its data is in the write buffer and the unit before it in its version has been awarded
(R299). -/
def State.nextToPlace (s : State) : Option UnitSt :=
  s.plc.units.find? fun u => u.phase == .ready && !(s.flag PLC_STAT_STALE && (u.rerepl || u.mig)) &&
    (u.rerepl || u.mig || u.sealing || u.id.unit == 0 ||
      (s.openOf u.id.tenant u.id.key).any (fun v => decide (u.id.unit ≤ v.counted)) ||
      s.plc.units.any fun w => w.id == { u.id with unit := u.id.unit - 1 } && (w.phase == .placed || w.phase == .complete))

/-- A unit comes to be placed (R302, R303, R314, R316). -/
def State.placeUnit (s : State) (u : UnitSt) : State :=
  if s.flag PLC_STAT_STALE then s.failUnit u 0x4007
  else
    let t := u.id.tenant
    let set := if u.sealing && !u.cands.isEmpty then u.cands.filter fun d => !s.isDown d
      else (s.candidates u.id).filter fun d => !(u.devs.contains d)
    let s1 := if u.rerepl || u.mig || u.sealing then s
      else s.modUnit u.n fun x => { x with reps := s.polReplicas t, ack := s.polAck t }
    match s1.unitN u.n with
    | some x => (s1.bidRound x set false).bidsIn u.n
    | none => s

/-! ### Copies (R308 to R311) -/

/-- The unit is complete: what is missing is queued, and its source is dealt with (R310, R311, R333). -/
def State.completeUnit (s : State) (u : UnitSt) : State :=
  if u.rerepl then
    let dev := match u.atts.getLast? with
      | some a => a.dev
      | none => s.self
    ((s.modPlc fun p => { p with units := p.units.filter fun x => x.n != u.n }).incWrap PLC_REREPL_DONE).logUnit u logRerepl
      u.copies dev 0
  else if u.mig then
    match s.plc.mig with
    | some slot =>
      ((s.modPlc fun p => { p with units := p.units.filter fun x => x.n != u.n }).mapEnts
        (fun e => e.id == u.id && e.slot == slot && e.live) fun e => { e with dead := true }).incWrap PLC_MIG_STAT_MOVED
    | none => s.modPlc fun p => { p with units := p.units.filter fun x => x.n != u.n }
  else
    let s1 := s.modUnit u.n fun x => { x with phase := .complete }
    if u.running then s1
    else
      -- a sealing copy is counted again: the copy it replaces is dead
      s1.queueRerepl u (u.reps - u.copies)

/-- A unit with a running round or copies is looked at again after a report: complete with ACK_COPIES committed copies, or
with at least one when every attempt has ended; failed with none (R310). -/
def State.unitCheck (s : State) (n : Nat) : State :=
  match s.unitN n with
  | none => s
  | some u =>
    if u.phase ≠ .placed then
      if u.phase = .complete ∧ u.running = false ∧ u.again = false then
        let s1 := s.queueRerepl u (u.reps - u.copies)
        if u.cmd.isNone then s1.modPlc fun p => { p with units := p.units.filter fun x => x.n != u.n } else s1
      else s
    else if (u.rerepl ∨ u.mig) ∧ u.running = false ∧ u.again = false then
      if (u.atts.getLast?).any (fun a => a.st == .committed) then s.completeUnit u else s.failUnit u 0x800B
    else if u.rerepl ∨ u.mig then s
    else if u.ack ≤ u.copies then s.completeUnit u
    else if u.running ∨ u.again then s
    else if 0 < u.copies then s.completeUnit u
    else s.failUnit u 0x800B

/-- A copy has committed. -/
def State.copyDone (s : State) (dev : Nat) (f : UnitSt → Bool) : State :=
  match s.plc.units.find? fun u => f u && u.atts.any fun a => a.dev == dev && a.st == .running with
  | none => s
  | some u =>
    (s.modUnit u.n fun x =>
      { x with atts := x.atts.map fun a => if a.dev = dev ∧ a.st = .running then { a with st := .committed } else a }).unitCheck u.n

/-- A copy has failed: one further bid round for it among the candidates not yet used, unless the tenant's REPL_WAIT is 0
or it was itself a re-placement (R309); a re-replication heeds no REPL_WAIT (R311). -/
def State.copyFailed (s : State) (dev : Nat) (f : UnitSt → Bool) : State :=
  match s.plc.units.find? fun u => f u && u.atts.any fun a => a.dev == dev && a.st == .running with
  | none => s
  | some u =>
    let repl := u.atts.any fun a => a.dev == dev && a.st == .running && a.repl
    let s1 := s.modUnit u.n fun x =>
      { x with atts := x.atts.map fun a => if a.dev = dev ∧ a.st = .running then { a with st := .failed } else a }
    if repl ∨ (s.polWait u.id.tenant = 0 ∧ u.rerepl = false) ∨ u.replaced.contains dev ∨ u.phase ≠ .placed ∨ u.again ∨
        s.flag PLC_STAT_STALE then s1.unitCheck u.n
    else
      let rest := (s.candidates u.id).filter fun d => !(u.used.contains d)
      let s2 := s1.modUnit u.n fun x => { x with replaced := x.replaced ++ [dev] }
      match s2.unitN u.n with
      | some x => ((s2.bidRound x rest true).bidsIn u.n).unitCheck u.n
      | none => s2

/-- The version's units are counted in ascending order (R402), and the version is sealed with the unit that carries FLAGS
bit 1 (R300). -/
def State.countUnit (s : State) (v : OpenVer) (u : UnitSt) : State :=
  let devs := (u.atts.filter fun a => a.st == .committed).map fun a => a.dev
  let s1 := (s.modUnit u.n fun x => { x with counted := true }).modOpen v.tenant v.key fun w =>
    { w with counted := u.id.unit + 1, bytes := if u.sealing then w.bytes else w.bytes + u.len, last := if u.flags.testBit 0 then some u.id.unit else w.last, lastLen := u.len, lastDevs := devs, lastData := u.data }
  if u.flags.testBit 1 then
    ((s1.modPlc fun p => { p with opens := p.opens.filter fun w => !(w.tenant == v.tenant && w.key == v.key) }).supersede
      v.tenant v.key)
  else s1

/-! ### Location searches (R321 to R323) -/

/-- Devices of a tier of the search, but this device, DOWN peers and those to be skipped. -/
def State.tierOf (s : State) (x : Search) : List Nat :=
  let rank := s.ranking x.id
  let cand := s.candidateSet x.id rank
  let next := (rank.drop cand.length).take 24
  let l := if x.tier = 2 then cand
    else if x.tier = 3 then next
    else (s.devices fun _ => true).filter fun d => !(cand.contains d) && !(next.contains d)
  l.filter fun d => d != s.self && !s.isDown d && !(x.skip.contains d)

/-- A tier is asked; an empty one is passed over. The Bool says whether anyone was asked. -/
def State.askTier (s : State) (x : Search) : Nat → State
  | 0 => s
  | f + 1 =>
    if 4 < x.tier then s.modPlc fun p => { p with searches := p.searches.map fun y => if y.n = x.n then x else y }
    else match s.tierOf x with
      | [] => s.askTier { x with tier := x.tier + 1 } f
      | l =>
        let s1 := s.modPlc fun p => { p with searches := p.searches.map fun y => if y.n = x.n then x else y }
        l.foldl (fun (t : State) d =>
          let (xid, t1) := t.newXid
          (t1.modPlc fun p => { p with asks := p.asks ++ [{ dev := d, xid := xid, srch := x.n, at_ := s.tick }] }).tell d pmHintReq
            xid [x.id.tenant, x.id.key, x.id.ver, x.id.unit]) s1

/-- A search beyond this device's own map starts (R321). -/
def State.startSearch (s : State) (for_ : SearchFor) (id : UnitId) (skip : List Nat) : State :=
  let x : Search := { n := s.plc.nextSearch, for_ := for_, id := id, skip := skip }
  (s.modPlc fun p => { p with searches := p.searches ++ [x], nextSearch := p.nextSearch + 1 }).askTier x 4

/-- The answers of a search that hold the unit, in the order in which they would serve it (R322); with version 0 asked for,
those of the highest version. -/
def State.holdersOf (s : State) (x : Search) : List HintRec :=
  let held := x.found.filter fun h => h.held
  let top := held.foldl (fun m h => max m h.ver) 0
  let l := if x.id.ver = 0 then held.filter fun h => h.ver == top else held
  sortBy (fun (a b : HintRec) =>
    let p := s.score x.id.tenant a.energy a.start
    let q := s.score x.id.tenant b.energy b.start
    if p = q then decide (a.dev ≤ b.dev) else decide (p < q)) l

/-! ### Reading from holders (R322, R323, R404) -/

def State.modRead (s : State) (cmd unit : Nat) (f : RdUnit → RdUnit) : State :=
  s.modCmd cmd fun c => { c with reads := c.reads.map fun r => if r.unit = unit then f r else r }

/-- The unit a read asks for. -/
def Cmd.unitId (c : Cmd) (unit : Nat) : UnitId := { tenant := c.tenant, key := c.e.objKey.toNat, ver := c.ver, unit := unit }

/-- A read is served from this device's own copy, as work of a job on its station. -/
def State.readLocal (s : State) (c : Cmd) (unit : Nat) (e : MapEnt) : Option State :=
  match s.whereIs e.slot with
  | none => none
  | some (st, _) =>
    some ((s.modRead c.id unit fun r => { r with now := some s.self }).enqueue .tenant c.tenant (some c.id) st e.slot false
      (readUnit e))

/-- The next holder of a read that is not DOWN is asked: READ_REQ (R320). -/
def State.readNext (s : State) (c : Cmd) (r : RdUnit) : State :=
  match r.holders.filter fun d => !s.isDown d with
  | [] => s.modRead c.id r.unit fun x => { x with failed := true, now := none }
  | d :: l =>
    let (xid, s1) := s.newXid
    (s1.modRead c.id r.unit fun x =>
      { x with holders := l, now := some d, xid := xid, sentAt := s.tick, segs := [], got := 0 }).tell d pmReadReq xid
      [c.tenant, c.e.objKey.toNat, c.ver, r.unit, r.before, r.len]

/-- A holder fails a read: the next one is taken, asked for again first when its hint is too old (R323). -/
def State.readFailed (s : State) (c : Cmd) (r : RdUnit) : State :=
  let dev := r.now.getD s.self
  let r1 := { r with tried := r.tried ++ [dev], now := none, segs := [], got := 0 }
  let s1 := s.modRead c.id r.unit fun _ => r1
  let old := decide (s.get PLC_PEER_TMO_HINT_AGE * 500 < s.tick - r.hintAt)
  if r.holders.isEmpty && dev != s.self then s1.modRead c.id r.unit fun x => { x with failed := true }
  else if dev = s.self ∨ old = true then
    (s1.addSat PLC_CNT_FAILOVER 1).startSearch (.get c.id r.unit) (c.unitId r.unit) r1.tried
  else (s1.addSat PLC_CNT_FAILOVER 1).readNext c r1

/-- A read is delivered: its bytes are written to the host buffer (BYTES_OUT). -/
def State.readDelivered (s : State) (c : Cmd) (unit len : Nat) : State :=
  (s.modRead c.id unit fun r => { r with done := true, now := none, len := len }).modAcct c.tenant fun a =>
    { a with bytesOut := a.bytesOut + len }

/-! ### Tombstones (R329 to R331) -/

/-- Bytes of a tombstone in a message. -/
def Tomb.body (b : Tomb) : List Nat := [b.tenant, b.key, b.ver, if b.whole then 1 else 0, b.keyGen]

/-- The disc sides for a tombstone: sides that can be written, on distinct discs, loaded ones first (R330). -/
def State.tombSides (s : State) : List (Nat × Nat) :=
  let slots := (List.range 24).filter fun k => s.get (PLC_SLOT_W0_STATE k) == 1
  let loaded := slots.filter fun k => (s.stationOf k).isSome
  let rest := slots.filter fun k => (s.stationOf k).isNone
  ((loaded ++ rest).filterMap fun k => match s.whereIs k with
    | none => none
    | some (st, _) => ((List.range 2).find? fun side => s.canWrite (2 * st + side)).map fun side => (k, side)).take
      (s.get PLC_TOMB_COPIES)

/-- The layer of a side whose index area takes a tombstone: the lowest one that can be written. -/
def State.tombLayer (s : State) (slot side : Nat) : Nat :=
  ((List.range 24).find? fun l => !(s.layerOf slot side l).unwritable).getD 0

/-- A record waits for a layer's next index frame (R184); 31 pending records make one due. -/
def State.pendRecord (s : State) (slot side layer : Nat) (r : IdxRec) : State :=
  s.modLayer slot side layer fun l =>
    { l with pending := l.pending ++ [{ r with at_ := s.tick }], due := l.due || decide (31 ≤ l.pending.length + 1) }

/-- A tombstone is written into the index areas of the sides chosen, and an index frame of each is forced at once; discs in
the magazine are asked for. -/
def State.writeTomb (s : State) (b : Tomb) (cmd : Option Nat) (peer : Option (Nat × Nat)) : State :=
  let sides := s.tombSides
  let s1 := s.modPlc fun p => { p with tombJobs := p.tombJobs ++ [{ tomb := b, cmd := cmd, peer := peer, left := sides }] }
  sides.foldl (fun (t : State) k =>
    let layer := t.tombLayer k.1 k.2
    let rec_ : IdxRec :=
      { type := 4, id := { tenant := b.tenant, key := b.key, ver := b.ver, unit := b.keyGen }, flags := if b.whole then 4 else 0 }
    let t1 := (t.pendRecord k.1 k.2 layer rec_).modLayer k.1 k.2 layer fun l => { l with due := true }
    match t1.whereIs k.1 with
    | some (st, _) =>
      let c := cmd.bind fun n => t1.cmdOf n
      t1.addJob
        { id := 0, kind := if cmd.isSome then .tenant else .peer, tenant := b.tenant, cls := (c.map Cmd.prio).getD (t1.prioMax b.tenant), cmd := cmd, at_ := t1.tick, station := st, slot := some k.1, write := true, units := [] }
    | none => t1) s1

/-- Tombstone work with no side left is over: the peer that asked is told; a command's own is left for its completion. -/
def State.tombsDone (s : State) : State :=
  let ended := s.plc.tombJobs.filter fun j => j.left.isEmpty
  let s1 := s.modPlc fun p => { p with tombJobs := p.tombJobs.filter fun j => !j.left.isEmpty }
  ended.foldl (fun (t : State) j =>
    let t1 := match j.peer with
      | some (d, xid) => t.reply d pmTombAck xid [1]
      | none => t
    match j.cmd with
    | some c => t1.modCmd c fun x => { x with tombLeft := 0 }
    | none => t1) s1

/-- A tombstone goes to a holder; one that is DOWN is recorded and tried again later (R330). -/
def State.sendTomb (s : State) (c : Cmd) (b : Tomb) (d : Nat) : State :=
  if s.isDown d then
    ((s.modPeer d fun p => { p with owed := p.owed ++ [b] }).logPut
      { seq := 0, type := logTomb, tenant := b.tenant, key := b.key, ver := b.ver, device := d, cid := c.e.cid.toNat, opcode := c.op }).modCmd
      c.id fun x => { x with missed := x.missed + 1 }
  else
    let (xid, s1) := s.newXid
    (s1.tell d pmTomb xid b.body).modCmd c.id fun x => { x with asked := x.asked ++ [(d, xid)] }

/-- The tombstone of a DELETE. -/
def Cmd.tomb (c : Cmd) : Tomb :=
  if c.e.arg0.getLsbD 0 then { tenant := c.e.arg1.toNat, key := 0, ver := 0xFFFFFFFF, whole := true, keyGen := c.e.arg2.toNat }
  else { tenant := c.tenant, key := c.e.objKey.toNat, ver := c.ver }

/-- A peer becomes DOWN; a DELETE that waits for it counts it among those not reached, and owes it the tombstone (R330,
R407). -/
def State.peerDown (s : State) (d : Nat) : State :=
  s.cmd.cmds.foldl (fun (t : State) c =>
    if c.asked.any fun a => a.1 == d then
      ((t.modPeer d fun p => { p with owed := p.owed ++ [c.tomb] }).logPut
        { seq := 0, type := logTomb, tenant := c.tomb.tenant, key := c.tomb.key, ver := c.tomb.ver, device := d, cid := c.e.cid.toNat, opcode := c.op }).modCmd
        c.id fun x => { x with missed := x.missed + 1, asked := x.asked.filter fun a => a.1 != d }
    else t) (s.markDown d)

/-! ### Migration (R333) -/

/-- A live unit of the slot under migration is read. -/
def State.migRead (s : State) (slot : Nat) (e : MapEnt) : State := match s.whereIs slot with
  | some (st, _) => s.enqueue .mig e.id.tenant none st slot false (readUnit e)
  | none => s

/-- The next live unit of the slot under migration is read, or the migration ends. -/
def State.migNext (s : State) : State :=
  match s.plc.mig with
  | none => s
  | some slot =>
    if s.plc.units.any (fun u => u.mig) || s.allJobs.any (fun j => j.kind == .mig && !j.write) then s
    else if s.plc.migStop then
      ((s.modPlc fun p => { p with mig := none, migStop := false }).set PLC_MIG_STAT_STATE 3).set (PLC_SLOT_W0_STATE slot) 1
    else
      let live := s.plc.map.filter fun e => e.slot == slot && e.live && !(s.plc.migSkip.contains e.id)
      let nokey := live.filter fun e => !s.hasKey e.id.tenant
      let s1 := (s.modPlc fun p => { p with migSkip := p.migSkip ++ nokey.map fun e => e.id }).addSat PLC_MIG_STAT_NOKEY nokey.length
      match live.find? fun e => s.hasKey e.id.tenant with
      | some e => s1.migRead slot e
      | none =>
        let left := s1.plc.map.any fun e => e.slot == slot && e.live
        ((s1.modPlc fun p => { p with mig := none }).set PLC_MIG_STAT_STATE 2).set (PLC_SLOT_W0_STATE slot) (if left then 1 else 4)

end Sys2Proof.Machine
end

