-- ==== Sys2Proof/Machine/CmdOps.lean ====
section
/-!
DEFINITION. Commands: the checks of an entry, admission, starts, ends, the order within a session, resets of sessions
(09_commands.md: R381 to R417).
DEDUCED (notes/assumptions/27.md, unsafe): Commands: FLUSH holds later immediate commands, METER RSTATE shows the first record, DELETE searches tier 1 and then further tiers, RESERVE of a remote holder completes with the holder and 0 ms.
DESIGN CHOICE (notes/assumptions/28.md, safe): The row of a host command takes the oldest arrival of its path, or arrives and is admitted at once.
-/

namespace Sys2Proof.Machine

open Sys2Proof

/-! ### Opcodes (Table: Opcodes) -/

abbrev opPut : Nat := 0x01
abbrev opGet : Nat := 0x02
abbrev opSeal : Nat := 0x03
abbrev opDelete : Nat := 0x04
abbrev opFlush : Nat := 0x05
abbrev opStat : Nat := 0x06
abbrev opList : Nat := 0x07
abbrev opReserve : Nat := 0x08
abbrev opRestart : Nat := 0x10
abbrev opIdentify : Nat := 0x20
abbrev opSelfTest : Nat := 0x21
abbrev opGetLog : Nat := 0x22
abbrev opMeterRead : Nat := 0x23
abbrev opMeterAck : Nat := 0x24
abbrev opAttest : Nat := 0x25
abbrev opRegRead : Nat := 0x26
abbrev opRegWrite : Nat := 0x27
abbrev opTxnBegin : Nat := 0x28
abbrev opTxnCommit : Nat := 0x29
abbrev opTxnRollback : Nat := 0x2A
abbrev opKeyLoad : Nat := 0x2B
abbrev opCalSave : Nat := 0x2C
abbrev opCalLoad : Nat := 0x2D
abbrev opActivate : Nat := 0x2E

/-- The opcode is listed. -/
def opListed (op : Nat) : Bool := decide (1 ≤ op ∧ op ≤ 8) || op == 0x10 || decide (0x20 ≤ op ∧ op ≤ 0x2E)

/-- Session kinds of Table: Opcodes: data only, management only, or any. A DELETE is a management command with TENANT scope
and a data command without. -/
def opData (op : Nat) (e : Entry) : Bool :=
  if op = opDelete then !e.arg0.getLsbD 0
  else op == opPut || op == opGet || op == opSeal || op == opStat || op == opList || op == opReserve

def opMgmt (op : Nat) (e : Entry) : Bool :=
  if op = opDelete then e.arg0.getLsbD 0
  else if op = opFlush then e.arg0.getLsbD 0
  else op == opSelfTest || op == opMeterAck || decide (0x26 ≤ op)

/-- The fields an opcode uses: OBJ_KEY, OFFSET, the host buffer, OBJ_VER, ARG0, ARG1, ARG2. REG_READ moves its words to a
buffer (R519), so it uses the buffer fields. -/
def opUses (op : Nat) : List Bool :=
  if op = opPut then [true, true, true, false, true, false, false]
  else if op = opGet then [true, true, true, true, false, false, false]
  else if op = opSeal then [true, false, false, false, false, false, false]
  else if op = opDelete then [true, false, false, true, true, true, true]
  else if op = opFlush then [false, false, false, false, true, false, false]
  else if op = opStat then [true, false, true, true, false, false, false]
  else if op = opList then [true, false, true, false, true, false, false]
  else if op = opReserve then [true, true, false, true, true, false, false]
  else if op = opRestart then [false, false, false, false, true, false, false]
  else if op = opIdentify then [false, false, true, false, false, false, false]
  else if op = opSelfTest then [false, false, false, false, true, false, false]
  else if op = opGetLog then [false, false, true, false, true, true, false]
  else if op = opMeterRead then [false, false, true, false, true, true, false]
  else if op = opMeterAck then [false, false, false, false, true, true, false]
  else if op = opAttest then [false, false, true, false, true, false, false]
  else if op = opRegRead then [false, false, true, false, true, false, false]
  else if op = opRegWrite then [false, false, false, false, true, true, false]
  else if op = opKeyLoad then [false, false, true, false, true, true, false]
  else if op = opCalSave ∨ op = opCalLoad then [false, false, true, false, true, false, false]
  else if op = opActivate then [false, false, false, false, false, true, true]
  else [false, false, false, false, true, false, false]

/-- Fields not listed for the opcode, and reserved bits, are zero (R386). -/
def fieldsZero (op : Nat) (e : Entry) : Bool :=
  let u := opUses op
  let ok (i : Nat) (z : Bool) : Bool := (u[i]?).getD false || z
  ok 0 (e.objKey == 0) && ok 1 (e.offset == 0) && ok 2 (e.addr == 0 && e.rkey == 0 && e.len == 0) && ok 3 (e.objVer == 0) &&
    ok 4 (e.arg0 == 0) && ok 5 (e.arg1 == 0) && ok 6 (e.arg2 == 0) && e.flags.toNat / 8 == 0 && e.rsv == 0 &&
    bitsOf e.cqHead.toNat 14 12 == 0

/-- The fields used lie in their ranges (Table: Opcodes, R299). -/
def fieldsOk (op : Nat) (e : Entry) : Bool :=
  let a := e.arg0.toNat
  let len := e.len.toNat
  if op = opPut then
    decide (a < 4) && decide (0 < len) && e.offset.toNat % unitBytes == 0 && (e.arg0.getLsbD 0 || len % unitBytes == 0)
  else if op = opDelete then decide (a < 2) && decide (e.arg1.toNat < 4096) && decide (e.arg2.toNat < 2 ^ 32)
  else if op = opFlush ∨ op = opRestart then decide (a < 2)
  else if op = opStat then len == 0 || decide (64 ≤ len)
  else if op = opList then decide (a < 2) && len % 32 == 0
  else if op = opReserve then decide (1 ≤ a) && decide (a ≤ 600)
  else if op = opIdentify then decide (256 ≤ len)
  else if op = opSelfTest then a == 1 || a == 2 || a == 15
  else if op = opGetLog then len % 64 == 0 && (a == 1 || a == 2 || a == 0x10 || a == 0x11)
  else if op = opMeterRead ∨ op = opMeterAck then bitsOf a 30 12 == 0 && len % 64 == 0
  else if op = opAttest then decide (a < 2)
  else if op = opRegRead then len % 4 == 0 && decide (len ≤ 1024)
  else if op = opTxnBegin ∨ op = opTxnCommit ∨ op = opTxnRollback then decide (a < 4)
  else if op = opKeyLoad then bitsOf a 30 12 == 0
  else if op = opCalSave ∨ op = opCalLoad then decide (a < 2)
  else if op = opActivate then decide (e.arg2.toNat < 2 ^ 48) && decide (e.arg1.toNat < 1000000000)
  else true

/-- Bytes a command would move, which the reply payload of the service port limits to 992; ATTEST FETCH delivers pieces
(R592). -/
def servicePayload (op : Nat) (e : Entry) : Bool := op == opAttest || decide (e.len.toNat ≤ 992)

/-- Step 1 of admission: the class 0x8 code of an entry that breaks R386 or Table: Opcodes. -/
def State.entryCode (s : State) (p : Path) (op : Nat) (e : Entry) : Option Nat :=
  if !opListed op then some stBadOpcode
  else if !s.mgmtPath p && opMgmt op e then some stNotPermitted
  else if s.mgmtPath p && opData op e then some stNotPermitted
  else if !fieldsZero op e || !fieldsOk op e then some stBadField
  else if p == .service && !servicePayload op e then some stBadField
  else none

/-- Steps 4: the code with which R41 or R42 refuse a command in the mode. -/
def State.modeCode (s : State) (p : Path) (op : Nat) (e : Entry) : Option Nat :=
  let m := s.mode
  if s.jackOnly then
    if p = .service ∧ (op = opIdentify ∨ (op = opRegRead ∧ e.arg0.toNat < 0x10000 ∧ e.arg0.toNat + e.len.toNat ≤ 0x10000) ∨ (op = opGetLog ∧ e.arg0.toNat = 0x10))
    then none else some stMode
  else if opData op e ∨ op = opDelete ∨ op = opFlush then
    if m = modeServe then none
    else if m = modeDrain then some (if s.sys.drain = .activation then 0x4003 else 0x4002)
    else some stMode
  else if op = opSelfTest then
    let a := e.arg0.toNat
    if a = 15 ∨ m = modeMaintain ∨ (a = 1 ∧ m = modeServe) then none else some stMode
  else if op = opTxnBegin ∨ op = opTxnCommit ∨ op = opTxnRollback ∨ op = opKeyLoad ∨ op = opCalLoad ∨ op = opActivate then
    if m = modeSafeStop then some stMode else none
  else none

/-! ### First jobs and estimates -/

/-- The newest version of an object for a command: the one named, or the newest sealed here (R405). -/
def State.verFor (s : State) (c : Cmd) : Nat :=
  if c.e.objVer ≠ 0 then c.e.objVer.toNat else (s.newest c.tenant c.e.objKey.toNat).getD 0

/-- Units of a range: first and number. -/
def rangeUnits (offset len : Nat) : Nat × Nat :=
  if len = 0 then (offset / unitBytes, 0) else (offset / unitBytes, (offset + len - 1) / unitBytes + 1 - offset / unitBytes)

/-- The first job of a command as the arbiter estimates it; none for a command whose first work is at no station of this
device. -/
def State.firstJob (s : State) (c : Cmd) : Option Job :=
  let job (st : Nat) (slot : Option Nat) (write : Bool) (units : List JobUnit) : Job :=
    { id := 0, kind := .tenant, tenant := c.tenant, cls := c.prio, cmd := some c.id, at_ := c.at_, station := st, slot := slot, write := write, units := units }
  let k := c.e.objKey.toNat
  let (u0, n) := rangeUnits c.e.offset.toNat c.e.len.toNat
  if c.op = opPut then
    let id : UnitId := { tenant := c.tenant, key := k, ver := ((s.openOf c.tenant k).map OpenVer.ver).getD 0, unit := u0 }
    (s.bestTarget id).map fun x =>
      job x.station (some x.slot) true ((List.range (min n (s.get ARB_CFG_JOB_MAX))).map fun i =>
        { s.writeUnit { id with unit := u0 + i } x with side := if i % 2 = 0 then x.side else 1 - x.side })
  else if c.op = opGet ∨ c.op = opReserve then
    let v := s.verFor c
    let ents := (List.range (max 1 n)).filterMap fun i => s.entOf { tenant := c.tenant, key := k, ver := v, unit := u0 + i }
    match ents.head? with
    | none => none
    | some e => (s.whereIs e.slot).map fun x =>
      job x.1 (some e.slot) false (if c.op = opReserve then []
        else ((ents.filter fun y => y.slot == e.slot).take (s.get ARB_CFG_JOB_MAX)).map readUnit)
  else if c.op = opSeal then
    match s.openOf c.tenant k with
    | some v => (s.bestTarget { tenant := c.tenant, key := k, ver := v.ver, unit := v.counted - 1 }).map fun x =>
      job x.station (some x.slot) true [s.writeUnit { tenant := c.tenant, key := k, ver := v.ver, unit := v.counted - 1 } x]
    | none => none
  else if c.op = opDelete then
    match s.tombSides.head? with
    | some (slot, _) => (s.whereIs slot).map fun x => job x.1 (some slot) true []
    | none => none
  else none

/-- E of a command (R389, step 9): 0 when its first work is at no station of this device. -/
def State.cmdEstimate (s : State) (c : Cmd) : Nat := match s.firstJob c with
  | some j => s.estimate j
  | none => 0

/-- The first job of a command that the command has in the queue. -/
def State.jobOf (s : State) (c : Cmd) : Option Job := s.allJobs.find? fun j => j.cmd == some c.id

/-! ### Starts -/

/-- A version is opened (R297, R298): its sequence is one above the highest found. -/
def State.openVersion (s : State) (c : Cmd) (seq : Nat) : State :=
  if 8388607 < seq + 1 then s.finishWith c 0x400B
  else
    let k := c.e.objKey.toNat
    let ver := (seq + 1) * 512 + s.self
    let s1 := s.modPlc fun p => { p with opens := p.opens ++ [{ tenant := c.tenant, key := k, ver := ver, session := c.path }] }
    (s1.modCmd c.id fun x => { x with ver := ver }).modPlc fun p =>
      { p with units := p.units.map fun u =>
          if u.cmd = some c.id then { u with id := { u.id with ver := ver }, phase := if u.phase = .fetch ∧ u.got = u.len then .ready else u.phase } else u }

/-- Highest version sequence that this device holds for unit 0 of an object. -/
def State.ownSeq (s : State) (t k : Nat) : Option Nat :=
  let l := (s.plc.map.filter fun e => e.id.tenant == t && e.id.key == k && e.id.unit == 0).map fun e => e.id.ver / 512
  if l.isEmpty then none else some (l.foldl max 0)

/-- A PUT starts: its version is found or opened and its units are fetched by RDMA READ (R298, R299, R402, R403). -/
def State.startPut (s : State) (c : Cmd) : State :=
  let t := c.tenant
  let k := c.e.objKey.toNat
  let (first, n) := rangeUnits c.e.offset.toNat c.e.len.toNat
  if !s.polValid t then s.finishWith c 0x4009
  else if !s.hasKey t then s.finishWith c 0x400A
  else
    let make (ver : Nat) (w : State) : State := (List.range n).foldl (fun (x : State) i =>
      let end_ := decide (i + 1 = n) && c.e.arg0.getLsbD 0
      x.addUnit
        { id := { tenant := t, key := k, ver := ver, unit := first + i }, cmd := some c.id, len := if i + 1 = n then c.e.len.toNat - i * unitBytes else unitBytes, flags := if end_ then (if c.e.arg0.getLsbD 1 then 3 else 1) else 0 }) w
    let began (w : State) (ver : Nat) : State := w.modCmd c.id fun x => { x with started := true, deferred := false, ver := ver, first := first, units := n }
    match s.openOf t k with
    | some v => if first < v.counted then s.finishWith c 0x400D else began (make v.ver s) v.ver
    | none =>
      if first ≠ 0 then s.finishWith c 0x400C
      else
        let s1 := began (make 0 s) 0
        match s.ownSeq t k with
        | some q => s1.openVersion { c with ver := 0, units := n } q
        | none => s1.startSearch (.put c.id) { tenant := t, key := k, ver := 0, unit := 0 } []

/-- The reads of a GET that are not under way start: from this device's own copy, from its write buffer while that holds
the data, or by a search (R26, R27, R321, R405). While the version is not known only the first is searched. -/
def State.startReads (s : State) (id : Nat) : State :=
  match s.cmdOf id with
  | none => s
  | some c =>
    let busy (t : State) (u : Nat) : Bool := t.plc.searches.any fun x => x.for_ == .get id u
    c.reads.foldl (fun (t : State) r =>
      if r.done || r.failed || r.now.isSome || busy t r.unit then t
      else if c.ver = 0 ∧ c.reads.head? ≠ some r then t
      else
        let uid := c.unitId r.unit
        if t.plc.units.any (fun u => u.id == uid && u.held && decide (r.before + r.len ≤ u.got)) then t.readDelivered c r.unit r.len
        else match t.entOf uid with
          | some e =>
            let t1 := t.modRead id r.unit fun x => { x with isLast := e.flags.testBit 0 }
            match t1.readLocal c r.unit e with
            | some t2 => t2
            | none => t1.startSearch (.get id r.unit) uid []
          | none => t.startSearch (.get id r.unit) uid []) s

/-- A GET starts (R404, R405): the range is cut at the end of the object where this device knows it. -/
def State.startGet (s : State) (c : Cmd) : State :=
  if !s.hasKey c.tenant then s.finishWith c 0x400A
  else
    let v := s.verFor c
    let k := c.e.objKey.toNat
    let last := s.plc.map.find? fun e => e.id.tenant == c.tenant && e.id.key == k && e.id.ver == v && e.live && e.flags.testBit 0
    let off := c.e.offset.toNat
    let stop := match last with
      | some e => min (off + c.e.len.toNat) (e.id.unit * unitBytes + e.len)
      | none => off + c.e.len.toNat
    let (u0, n) := rangeUnits off (stop - off)
    let reads := (List.range n).map fun i =>
      let lo := max off ((u0 + i) * unitBytes)
      { unit := u0 + i, before := lo - (u0 + i) * unitBytes, len := min stop ((u0 + i + 1) * unitBytes) - lo : RdUnit }
    (s.modCmd c.id fun x => { x with started := true, deferred := false, ver := v, reads := reads }).startReads c.id

/-- A SEAL starts (R301, R406): the last unit is written again with FLAGS bits 0 and 1, to the devices that hold it. -/
def State.startSeal (s : State) (c : Cmd) : State :=
  match s.openOf c.tenant c.e.objKey.toNat with
  | none => s.finishWith c 0x400C
  | some v =>
    if v.counted = 0 then s.finishWith c 0x400C
    else
      let s1 := s.modCmd c.id fun x => { x with started := true, deferred := false, ver := v.ver, first := v.counted - 1, units := 1 }
      s1.addUnit
        { id := { tenant := v.tenant, key := v.key, ver := v.ver, unit := v.counted - 1 }, cmd := some c.id, len := v.lastLen, got := v.lastLen, data := v.lastData, flags := 3, phase := .ready, sealing := true, cands := v.lastDevs, reps := max 1 v.lastDevs.length, ack := max 1 (min (s.polAck c.tenant) v.lastDevs.length) }

/-- A DELETE takes effect once its version is known: this device's entries are tombstoned, the tombstone is written here
and sent to every holder found (R330, R407). -/
def State.deleteNow (s : State) (c : Cmd) (ver : Nat) (holders : List Nat) : State :=
  let b : Tomb := { tenant := c.tenant, key := c.e.objKey.toNat, ver := ver }
  let s1 := ((s.modCmd c.id fun x => { x with ver := ver, tombLeft := 1, tombed := true }).applyTomb b).writeTomb b (some c.id) none
  holders.foldl (fun (t : State) d => t.sendTomb c b d) s1

/-- A DELETE starts: what this device holds is tombstoned at once, and the other holders are searched for. -/
def State.startDelete (s : State) (c : Cmd) : State :=
  let v := s.verFor c
  let began := s.modCmd c.id fun x => { x with started := true, deferred := false, ver := v }
  let id : UnitId := { tenant := c.tenant, key := c.e.objKey.toNat, ver := v, unit := 0 }
  if v ≠ 0 ∧ s.plc.map.any (fun e => e.id.tenant == c.tenant && e.id.key == c.e.objKey.toNat && e.live) then
    (began.deleteNow c v []).startSearch (.del c.id) id []
  else began.startSearch (.del c.id) id []

/-- A tenant's DELETE: the tombstone goes to every device of the map and is written here, and the tenant's keys up to the
generation are removed (R330, R331, R596). -/
def State.deleteTenant (s : State) (c : Cmd) : State :=
  let t := c.e.arg1.toNat
  let b : Tomb := { tenant := t, key := 0, ver := 0xFFFFFFFF, whole := true, keyGen := c.e.arg2.toNat }
  let s1 := s.modCmd c.id fun x => { x with started := true, deferred := false, tombLeft := 1, tombed := true }
  let s2 := s1.setKeys (s1.sec.keys.filter fun k => !(k.tenant == t && decide (k.gen ≤ c.e.arg2.toNat)))
  ((s2.devices fun _ => true).filter fun d => d != s2.self).foldl (fun (w : State) d => w.sendTomb c b d)
    ((s2.applyTomb b).writeTomb b (some c.id) none)

/-- A RESERVE stages the unit's disc on its holder: here as a job that keeps its station (R409). -/
def State.startReserve (s : State) (c : Cmd) : State :=
  let v := s.verFor c
  let id : UnitId := { tenant := c.tenant, key := c.e.objKey.toNat, ver := v, unit := c.e.offset.toNat / unitBytes }
  let began := s.modCmd c.id fun x => { x with started := true, deferred := false, ver := v, stageAt := s.tick }
  let own := if v = 0 then none else s.entOf id
  match own with
  | some e => match s.whereIs e.slot with
    | some (st, _) =>
      let held := (began.allJobs.any fun j => j.cmd == some c.id)
      let t := if held then began
        else began.addJob
          { id := 0, kind := .tenant, tenant := c.tenant, cls := c.prio, cmd := some c.id, at_ := c.at_, station := st, slot := some e.slot, write := false, hold := some c.e.arg0.toNat }
      t.modCmd c.id fun x => { x with staged := some st }
    | none => began.startSearch (.res c.id) id []
  | none => began.startSearch (.res c.id) id []

/-! ### STAT and LIST (R408) -/

/-- Bytes and units of a version, as this device's map knows it: the last unit gives them, else the units held. -/
def State.verSize (s : State) (t k v : Nat) : Nat × Nat :=
  let l := s.plc.map.filter fun e => e.id.tenant == t && e.id.key == k && e.id.ver == v && e.live
  match l.find? fun e => e.flags.testBit 0 with
  | some e => (e.id.unit * unitBytes + e.len, e.id.unit + 1)
  | none => ((l.map fun e => e.len).sum, ((l.map fun e => e.id.unit).dedup).length)

/-- STAT: the results give the version named, the record the newest sealed one and the one open here.
DEDUCED (notes/assumptions/27.md, unsafe). -/
def State.runStat (s : State) (c : Cmd) : State :=
  let t := c.tenant
  let k := c.e.objKey.toNat
  let v := s.verFor c
  let known := v != 0 && (s.sealedVers t k).contains v
  let o := s.openOf t k
  if !known && (o.isNone || c.e.objVer != 0) then s.finishWith c 0x400E
  else
    let (bytes, units) := if known then s.verSize t k v else (0, 0)
    let ver := if known then v else 0
    let (ov, ou, ob) := match o with
      | some w => (w.ver, w.counted, w.bytes)
      | none => (0, 0, 0)
    let top := (s.newest t k).getD 0
    let (tb, tu) := if top = 0 then (0, 0) else s.verSize t k top
    let data := padTo 64 (toBytes 8 k ++ toBytes 4 top ++ toBytes 4 tu ++ toBytes 8 tb ++ toBytes 4 ov ++ toBytes 4 ou ++ toBytes 8 ob)
    s.finish c { res0 := bytes, res1 := ver + units * 2 ^ 32, data := if 64 ≤ c.e.len.toNat then data else [] }

def State.runList (s : State) (c : Cmd) : State :=
  let t := c.tenant
  let from_ := c.e.objKey.toNat
  let all := sortBy (fun (a b : Nat) => decide (a ≤ b)) (((s.plc.map.filter fun e =>
    e.id.tenant == t && e.live && (c.e.arg0.getLsbD 0 || decide (from_ < e.id.key))).map fun e => e.id.key).dedup)
  let n := c.e.len.toNat / 32
  let recOf (k : Nat) : List Byte :=
    let top := ((s.plc.map.filter fun e => e.id.tenant == t && e.id.key == k && e.live).map fun e => e.id.ver).foldl max 0
    let v := (s.newest t k).getD top
    let (bytes, units) := s.verSize t k v
    let flags := (if (s.newest t k).isSome then 1 else 0) + (if (s.openOf t k).isSome then 2 else 0)
    toBytes 8 k ++ toBytes 4 v ++ toBytes 4 units ++ toBytes 8 bytes ++ toBytes 4 flags ++ toBytes 4 0
  let out := all.take n
  s.finish c
    { res0 := out.length, res1 := (out.getLast?).getD 0, aux := if n < all.length then 1 else 0, data := out.flatMap recOf }

/-- A command that queues or waits starts. -/
def State.startCmd (s : State) (c : Cmd) : State :=
  if c.op = opPut then s.startPut c
  else if c.op = opGet then s.startGet c
  else if c.op = opSeal then s.startSeal c
  else if c.op = opDelete then (if c.e.arg0.getLsbD 0 then s.deleteTenant c else s.startDelete c)
  else if c.op = opReserve then s.startReserve c
  else if c.op = opStat then s.runStat c
  else if c.op = opList then s.runList c
  else s.modCmd c.id fun x => { x with started := true, deferred := false }

/-! ### Ends -/

/-- Work of a command on the stations is over: its waiting jobs leave, a station it holds is released. -/
def State.endJobs (s : State) (id : Nat) : State :=
  (List.range 2).foldl (fun (t : State) st =>
    if (t.arbOf st).job.any fun j => j.cmd == some id then t.releaseStn st else t) (s.dropJobs fun j => j.cmd == some id)

/-- A PUT or SEAL whose units have all been counted or have failed ends (Table: PUT outcome, R406). -/
def State.endPut (s : State) (c : Cmd) : Option State :=
  let units := s.plc.units.filter fun u => u.cmd == some c.id
  if units.isEmpty || units.any fun u => !u.counted && u.phase != .failed then none
  else
    let ok := units.filter fun u => u.counted
    let fewest := ok.foldl (fun m u => min m u.copies) 15
    let short := ok.any fun u => decide (u.copies < u.ack)
    let s1 := (s.endJobs c.id).modPlc fun p => { p with units := p.units.filter fun u => u.cmd != some c.id || u.running }
    let s2 := s1.modPlc fun p => { p with units := p.units.map fun u => if u.cmd = some c.id then { u with cmd := none } else u }
    if ok.length = units.length then
      if c.op = opSeal then some (s2.finish c { res1 := c.ver })
      else
        some (s2.finish c
          { status := if short then 0x2001 else stOk, res0 := ok.length, res1 := c.ver + fewest % 16 * 2 ^ 32 })
    else if ok.isEmpty then
      if c.cause / 4096 = 4 ∨ c.cause = 0x8004 then some (s2.finishWith c c.cause) else some (s2.finishWith c 0x800B)
    else
      some (s2.finish c { status := 0x2002, res0 := ok.length, res1 := c.ver + fewest % 16 * 2 ^ 32 + c.cause % 65536 * 2 ^ 48 })

/-- The reads of a GET up to the end of the object. -/
def upToEnd : List RdUnit → List RdUnit
  | [] => []
  | r :: l => if r.isLast then [r] else r :: upToEnd l

/-- A GET whose reads have all been delivered or failed ends (R404). -/
def State.endGet (s : State) (c : Cmd) : Option State :=
  let reads := upToEnd c.reads
  if reads.any fun r => !r.done && !r.failed then none
  else
    let good := reads.takeWhile fun r => r.done
    let bytes := (good.map fun r => r.len).sum
    let bad := reads.filter fun r => r.failed
    let s1 := s.endJobs c.id
    if bad.isEmpty then some (s1.finish c { res0 := bytes, res1 := c.ver })
    else if c.cause = 0x400A then some (s1.finishWith c 0x400A)
    else
      let s2 := bad.foldl (fun (t : State) r => t.logPut
        { seq := 0, type := logExtent, status := if bytes = 0 then 0x8005 else 0x2000, session := match c.path with
            | .session id => id.toNat
            | .service => 0
          tenant := c.tenant, cid := c.e.cid.toNat, opcode := c.op, key := c.e.objKey.toNat, ver := c.ver, unit := r.unit, offset := r.unit * unitBytes + r.before }) s1
      if bytes ≠ 0 then some (s2.finish c { status := 0x2000, res0 := bytes, res1 := c.ver })
      else if c.killed then some (s2.finishWith c 0x800B)
      else if bad.all fun r => r.tried.isEmpty then some (s1.finishWith c 0x400E)
      else some (s2.finishWith c 0x8005)

/-- A DELETE ends when its own frames are verified and every holder reached has answered (R407). -/
def State.endDelete (s : State) (c : Cmd) : Option State :=
  if c.tombLeft ≠ 0 ∨ c.asked ≠ [] ∨ s.plc.searches.any (fun x => x.for_ == .del c.id) then none
  else some ((s.endJobs c.id).finish c { res0 := c.acks, res1 := c.missed })

/-- A RESERVE ends when its station is AT_SPEED with the disc, and the grant parks for HOLD (R409). -/
def State.endReserve (s : State) (c : Cmd) : Option State :=
  match c.staged with
  | none => none
  | some st => match (s.arbOf st).job with
    | some j =>
      if j.cmd = some c.id ∧ (s.view st).holds j = true ∧ s.flag (SPN_STAT_AT_SPEED st) = true ∧ s.get (SPN_SPEED_TARGET st) = 7200 then
        let ms := (s.tick - (s.arbOf st).since) / 500
        some ((s.releaseStn st).finish c { res0 := s.self, res1 := ms })
      else none
    | none => none

/-- Commands of the session that a command follows. -/
def State.earlier (s : State) (c : Cmd) : List Cmd := s.cmd.cmds.filter fun d => d.path == c.path && decide (d.id < c.id)

/-- A FLUSH ends when every earlier command of its session has ended (R400); a FLUSH_ALL in an activation drain, when every
command admitted before it has and the write buffer is empty (R401). -/
def State.endFlush (s : State) (c : Cmd) : Option State :=
  if c.e.arg0.getLsbD 0 then
    if s.sys.drain = .activation ∧ (s.cmd.cmds.all fun d => decide (c.id ≤ d.id)) ∧ s.plc.units.isEmpty then
      some (s.finish c { res0 := c.waited })
    else none
  else if (s.earlier c).isEmpty then some (s.finish c { res0 := c.waited })
  else none

/-- The end of a command that has come to it. -/
def State.endCmd (s : State) (c : Cmd) : Option State :=
  if c.op = opFlush then s.endFlush c
  else if !c.started then none
  else if c.op = opPut ∨ c.op = opSeal then s.endPut c
  else if c.op = opGet then s.endGet c
  else if c.op = opDelete then s.endDelete c
  else if c.op = opReserve then s.endReserve c
  else none

/-- The order within a session lets a command start (R400, R410): no FLUSH before it, the session not frozen, PUT, SEAL and
DELETE of one key in order, a SEAL after the PUTs of its object have ended. -/
def State.mayStart (s : State) (c : Cmd) : Bool :=
  let frozen := match s.sessOf c.path with
    | some x => x.frozen
    | none => false
  let chain (op : Nat) : Bool := op == opPut || op == opSeal || op == opDelete
  let before := s.earlier c
  !frozen && !(before.any fun d => d.op == opFlush) &&
    !(chain c.op && before.any fun d => chain d.op && d.e.objKey == c.e.objKey && !d.started) &&
    !(c.op == opSeal && before.any fun d => d.op == opPut && d.e.objKey == c.e.objKey)

/-! ### Ends of searches (R298, R321 to R323, R407, R409) -/

/-- A search has its answer: what it was for goes on. -/
def State.searchDone (s : State) (x : Search) : State :=
  let s0 := s.modPlc fun p => { p with searches := p.searches.filter fun y => y.n != x.n }
  let l := s0.holdersOf x
  let top := l.foldl (fun m h => max m h.ver) 0
  match x.for_ with
  | .put c => match s0.cmdOf c with
    | some y => s0.openVersion y ((x.found.map fun h => h.seq).foldl max 0)
    | none => s0
  | .get c u => match s0.cmdOf c with
    | none => s0
    | some y =>
      let s1 := if y.ver = 0 ∧ top ≠ 0 then s0.modCmd c fun z => { z with ver := top } else s0
      let s2 := s1.modRead c u fun r => { r with holders := l.map fun h => h.dev, hintAt := s.tick }
      match (s2.cmdOf c).bind fun z => (z.reads.find? fun r => r.unit == u).map fun r => (z, r) with
      | none => s2
      | some (z, r) =>
        if r.now = some s.self then
          -- the read waits on this device's own copy, in a station that has left service (R432)
          (if l.isEmpty then s0 else (s2.dropUnit (z.unitId u) false (some c)).readNext z r)
        else if l.isEmpty ∧ z.ver = 0 then s2.modCmd c fun w => { w with reads := w.reads.map fun q => { q with failed := true } }
        else ((s2.readNext z r).startReads c)
  | .del c => match s0.cmdOf c with
    | none => s0
    | some y =>
      let l1 := l.map fun h => h.dev
      let v := if y.e.objVer = 0 then max y.ver top else y.ver
      if y.tombed ∧ v = y.ver then l1.foldl (fun (t : State) d => t.sendTomb y y.tomb d) s0
      else if !y.tombed ∧ l1.isEmpty then (s0.endJobs c).finishWith y 0x400E
      else s0.deleteNow y v l1
  | .res c => match s0.cmdOf c, l.head? with
    | some y, some h => (s0.endJobs c).finish y { res0 := h.dev, res1 := 0 }
    | some y, none => (s0.endJobs c).finishWith y 0x400E
    | none, _ => s0

/-- A tier has no answer outstanding: the search ends with the first tier that holds the unit, or goes on to the next. -/
def State.tierDone (s : State) (n : Nat) : State :=
  match s.plc.searches.find? fun x => x.n == n with
  | none => s
  | some x =>
    if s.plc.asks.any fun a => a.srch == n then s
    else
      let hit := x.found.any fun h => h.held || (match x.for_ with
        | .put _ => decide (0 < h.seq)
        | _ => false)
      if hit then s.searchDone x
      else
        let y := { x with tier := x.tier + 1 }
        if 4 < y.tier then s.searchDone y
        else
          let s1 := s.askTier y 4
          if s1.plc.asks.any fun a => a.srch == n then s1
          else s1.searchDone { y with tier := 5 }

/-- One thing that has come due among the commands: a unit counted, a command ended, an accepted command started. -/
def State.settleOne (s : State) : Option State :=
  let count := s.plc.opens.findSome? fun v =>
    (s.plc.units.find? fun u => u.id.tenant == v.tenant && u.id.key == v.key && u.id.ver == v.ver && u.phase == .complete &&
      !u.counted && (u.id.unit == v.counted || u.sealing)).map fun u => s.countUnit v u
  let search := (s.plc.searches.find? fun x => !(s.plc.asks.any fun a => a.srch == x.n)).map fun x => s.tierDone x.n
  match count.orElse fun _ => search with
  | some t => some t
  | none =>
    match s.cmd.cmds.findSome? fun c => s.endCmd c with
    | some t => some t
    | none =>
      match s.cmd.cmds.find? fun c => !c.started && !c.deferred && c.op != opFlush && s.mayStart c with
      | some c => some (s.startCmd c)
      | none => none

/-- Everything that has come due among the commands is done. -/
def State.settleFor : Nat → State → State
  | 0, s => s
  | f + 1, s => match s.settleOne with
    | some t => State.settleFor f t
    | none => s

def State.settle (s : State) : State :=
  State.settleFor (2 * s.cmd.cmds.length + s.plc.units.length + 2 * s.plc.searches.length + 256) s.tombsDone.migNext

/-! ### Admission (R389 to R391) -/

/-- The counts of an admission outcome. -/
def State.counted (s : State) (t : Nat) (f : MeterAcc → MeterAcc) : State :=
  s.modAcct t fun a => { f a with commands := a.commands + 1 }

/-- A refusal at admission: a final entry of class 0x4 with its retry-after (R391). -/
def State.refuse (s : State) (c : Cmd) (code retry : Nat) : State :=
  ((s.counted c.tenant fun a => { a with refusals := a.refusals + 1 }).incWrap CMD_CNT_REF_COUNT).finish c
    { status := code, time := retry }

/-- Commands that are held from admission on until something starts or ends them. -/
def opQueues (op : Nat) : Bool := decide (1 ≤ op) && decide (op ≤ 8)

/-- An admitted command: accepted ones that need no waiting run at once by `run`, the others join the commands held. -/
def State.accept (s : State) (c : Cmd) (run : State → Cmd → State) : State :=
  let s1 := (s.counted c.tenant id).incWrap CMD_CNT_ACC_COUNT
  if opQueues c.op then
    let waited := if c.op = opFlush ∧ c.e.arg0.getLsbD 0 = true then s.cmd.cmds.length else (s.cmdsOf c.path).length
    { s1 with cmd := { s1.cmd with cmds := s1.cmd.cmds ++ [{ c with waited := waited }] } }.cmdCounts.settle
  else (run s1 c).settle

/-- An accepted-deferred command (R390): its first job waits, and an interim entry gives its code, estimate and position.
During the rebuild it has no job on a station yet, and `pos0` is the position given. -/
def State.defer (s : State) (c : Cmd) (code e : Nat) (recov : Bool) (pos0 : Nat) : State :=
  let s1 := (s.counted c.tenant fun a => { a with deferrals := a.deferrals + 1 }).incWrap CMD_CNT_DEF_COUNT
  let s2 := match (if recov then none else s.firstJob c) with
    | some j => s1.addJob { j with hold := if c.op = opReserve then some c.e.arg0.toNat else none }
    | none => s1
  let pos := match s2.allJobs.find? fun j => j.cmd == some c.id with
    | some j => s2.position j
    | none => pos0
  let c1 := { c with deferred := true, recov := recov, est := s.tick / 500 + e, pos := pos }
  let s3 := { s2 with cmd := { s2.cmd with cmds := s2.cmd.cmds ++ [c1] } }.cmdCounts
  let s4 := if c.op = opDelete then s3.startDelete c |>.modCmd c.id fun x => { x with deferred := true, started := false } else s3
  (s4.interim c1 { status := code, time := e, aux := pos }).settle

/-- Tenant contract: VALID, DEFER_CAP and MAX_WAIT. -/
def State.contract (s : State) (t : Nat) : Bool := bitsOf (s.reg (keyTc t 0)).toNat 31 31 == 1
def State.deferCap (s : State) (t : Nat) : Nat := bitsOf (s.reg (keyTc t 1)).toNat 15 0
def State.maxWait (s : State) (t : Nat) : Nat := (s.reg (keyTc t 2)).toNat

/-- Steps 3 to 12 of R389. -/
def State.admitCmd (s : State) (c : Cmd) (run : State → Cmd → State) : State :=
  let data := match s.sessOf c.path with
    | some x => !x.mgmt
    | none => false
  match (if data && c.op != opRestart then s.cmd.deferredErr.find? fun d => d.1 == c.tenant else none) with
  | some d =>
    let s1 := { s with cmd := { s.cmd with deferredErr := s.cmd.deferredErr.filter fun x => x.1 != c.tenant } }
    (s1.counted c.tenant id).finish c { status := 0x9001, res0 := d.2.1, aux := d.2.2, logged := true }
  | none =>
    match s.modeCode c.path c.op c.e with
    | some code =>
      -- the spec gives the drain estimate of R42 no formula: a free value (notes/assumptions/8.md)
      if code = stMode then s.refuse c code neverRetry else (s.draw.2).refuse c code s.draw.1.toNat
    | none =>
      if data && !s.contract c.tenant then s.refuse c 0x4014 neverRetry
      else if 65536 ≤ s.cmd.cmds.length then
        let due := s.cmd.fullAt.all fun t => decide (500000 ≤ s.tick - t)
        let s1 := if due then { s with cmd := { s.cmd with fullAt := some s.tick } }.raise 0x080 3 0 else s
        s1.refuse c 0x4004 (s.get CMD_ADM_CFG2_RETRY_FULL)
      else
        let recov := s.flag SYS_STAT_RECOVERING && (c.op == opGet || c.op == opStat || c.op == opList)
        -- the estimate of the rebuild's end and the position meanwhile are free values (R47, notes/assumptions/8.md)
        if recov then (s.draw.2.draw.2).defer c 0x1001 s.draw.1.toNat true s.draw.2.draw.1.toNat
        else if !data || c.op == opFlush || c.op == opRestart || c.op == opStat || c.op == opList || !opQueues c.op then s.accept c run
        else
          let e := s.cmdEstimate c
          if e ≤ s.get CMD_ADM_CFG_DEFER_MS then s.accept c run
          else
            let limit := if c.e.wait = 0 then s.maxWait c.tenant else min c.e.wait.toNat (s.maxWait c.tenant)
            let mine := s.cmd.cmds.filter fun d => d.tenant == c.tenant && d.deferred && !d.started
            if limit < e then s.refuse c 0x4006 (e - limit)
            else if s.deferCap c.tenant ≤ mine.length then
              s.refuse c 0x4005 (match mine.head? with
                | some d => d.est - s.tick / 500
                | none => e)
            else s.defer c 0x1000 e false 1

/-- A command as it comes to its admission. -/
def State.newCmd (s : State) (p : Path) (op : Nat) (e : Entry) : Cmd × State :=
  let t := s.tenantOf p
  let prio := if s.mgmtPath p then 0 else min (e.flags.toNat % 8) (s.prioMax t)
  ({ id := s.cmd.nextId, path := p, op := op, e := e, tenant := t, prio := prio, at_ := s.tick },
    { s with cmd := { s.cmd with nextId := s.cmd.nextId + 1 } })

/-- An entry comes to its admission outcome (R389): step 1 here, the others in `admitCmd`. A frozen session holds it. -/
def State.outcome (s : State) (p : Path) (op : Nat) (e : Entry) (run : State → Cmd → State) : State :=
  let (c, s1) := s.newCmd p op e
  match s.entryCode p op e with
  | some code => (s1.counted c.tenant id).finishWith c code
  | none => s1.admitCmd c run

/-- Entries at the head of a session's arrivals that no row of the table names have an opcode that is not listed: they
complete with BAD_OPCODE (R386, R389). -/
def State.badHeads : Nat → State → Path → State
  | 0, s, _ => s
  | f + 1, s, p => match s.sessOf p with
    | some x => match x.arrivals with
      | (op, e) :: rest =>
        if opListed op then s
        else
          State.badHeads f ((s.modSess p fun y => { y with arrivals := rest }).outcome p op e fun t _ => t) p
      | [] => s
    | none => s

/-- Versions held open are abandoned, by tenant and key: their units count DEAD (R415). -/
def State.dropVersions (s : State) (keys : List (Nat × Nat)) : State :=
  keys.foldl (fun (t : State) (k : Nat × Nat) => match t.openOf k.1 k.2 with
    | none => t
    | some v =>
      let t1 := (t.plc.units.filter fun u => u.id.tenant == k.1 && u.id.key == k.2 && u.id.ver == v.ver).foldl
        (fun (w : State) u => w.giveUpCopy u.id u.cmd) t
      let t2 := t1.mapEnts (fun e => e.id.tenant == k.1 && e.id.key == k.2 && e.id.ver == v.ver && e.live) fun e => { e with dead := true }
      t2.modPlc fun q =>
        { q with opens := q.opens.filter fun w => !(w.tenant == k.1 && w.key == k.2), units := q.units.filter fun u => !(u.id.tenant == k.1 && u.id.key == k.2 && u.id.ver == v.ver) }) s

/-- A session reset (R415), on SESS_OVERFLOW and on the closing of the session; `dreq` when the host asked by a DREQ. -/
def State.sessionReset (s : State) (p : Path) (dreq : Bool) : State :=
  match s.sessOf p with
  | none => s
  | some x =>
    let sid := match p with
      | .session id => id.toNat
      | .service => 0
    let cmds := s.cmdsOf p
    let unstarted := cmds.filter fun c => !c.started
    let held := x.arrivals
    -- versions held open by PUTs and SEALs of the session
    let keys := ((cmds.filter fun c => c.op == opPut || c.op == opSeal).map fun c => (c.tenant, c.e.objKey.toNat)) ++
      ((held.filter fun h => h.1 == opPut || h.1 == opSeal).map fun h => (x.tenant, h.2.objKey.toNat))
    let logIt (t : State) (op : Nat) (e : Entry) : State :=
      t.logPut { seq := 0, type := logAborted, status := 0x8008, session := sid, tenant := x.tenant, cid := e.cid.toNat, opcode := op, key := e.objKey.toNat }
    let s1 := unstarted.foldl (fun (t : State) c =>
      let t1 := t.dropJobs fun j => j.cmd == some c.id
      if dreq then t1.finishWith c 0x8008 else logIt t1 c.op c.e) s
    let s2 := held.foldl (fun (t : State) h =>
      if dreq then
        let (c, t1) := (t.modSess p fun y => { y with arrivals := y.arrivals.drop 1 }).newCmd p h.1 h.2
        t1.finishWith c 0x8008
      else logIt t h.1 h.2) s1
    let s3 := s2.dropVersions keys
    let ids := (s3.cmdsOf p).map Cmd.id
    let s4 := ids.foldl (fun (t : State) i => t.endJobs i) s3
    let s5 := s4.modPlc fun q => { q with units := q.units.filter fun u => match u.cmd with
      | some i => !ids.contains i
      | none => true }
    ({ s5 with cmd := { s5.cmd with cmds := s5.cmd.cmds.filter fun c => c.path != p } }.modSess p fun y => { y with arrivals := [] }).cmdCounts

/-- An entry arrives on a session (R381, R382, R385): within the granted depth, or one QUEUE_RESTART beyond it; any other
entry beyond the depth raises SESS_OVERFLOW and resets the session. -/
def State.arrive (s : State) (p : Path) (op : Nat) (e : Entry) : State :=
  match s.sessOf p with
  | none => s
  | some x =>
    let load := s.sessLoad p
    if load < x.depth ∨ (op = opRestart ∧ load = x.depth) then
      (s.noteHead p e).modSess p fun y => { y with arrivals := y.arrivals ++ [(op, e)] }
    else
      (s.raise 0x080 1 (match p with
        | .session id => id.toNat
        | .service => 0)).sessionReset p false

/-- A FLUSH of the path has not completed: later commands of its session do not start (R400). -/
def State.flushWaits (s : State) (p : Path) : Bool := (s.cmdsOf p).any fun c => c.op == opFlush

/-- A host command: over the service port at once; on a session when it heads the arrivals, or arrives with none waiting
(R389, R400). A held or waiting entry stays among the arrivals.
DESIGN CHOICE (notes/assumptions/28.md, safe). -/
def State.command (s : State) (p : Path) (op : Nat) (e : Entry) (run : State → Cmd → State) : State :=
  match p with
  | .service => if s.silent p then s else (s.rxMessage p (op == opIdentify || op == opRegRead || op == opGetLog)).outcome p op e run
  | .session _ =>
    let s0 := match s.sessOf p with
      | some x => if x.arrivals.isEmpty || (op == opRestart && !x.arrivals.contains (op, e)) then s.arrive p op e else s
      | none => s
    match s0.sessOf p with
    | none => s0
    | some x =>
      let mine := x.arrivals.head? == some (op, e) || (op == opRestart && x.frozen && x.arrivals.contains (op, e))
      if !mine then s0
      else if x.frozen && op != opRestart && (s0.entryCode p op e).isNone then s0
      else if s0.flushWaits p && !opQueues op && op != opRestart && (s0.entryCode p op e).isNone then s0
      else
        let s1 := s0.modSess p fun y => { y with arrivals := y.arrivals.erase (op, e) }
        State.badHeads 256 (s1.outcome p op e run) p

end Sys2Proof.Machine
end

