-- ==== Sys2Proof/Machine/Codec.lean ====
section
/-!
DEFINITION. What stands on a disc: the recording frame with its scrambler, its
channel code and the choice of its seed (R172 to R176), the inner LDPC code (R177, R178), the outer RS(18,16) code (R179),
the bytes of headers, records and index frames and what a search of a layer makes of them (R180 to R186), and the write pulses
(R204). A string of bits is a list, first bit first.
DEDUCED (notes/assumptions/42.md, unsafe): The running digital sum of R175 turns the level over at a 1 before that bit is summed.
-/

namespace Sys2Proof.Machine

open Sys2Proof

/-! ### Bits -/

/-- `n` bits of a number, most significant first. -/
def bitsMsb (n v : Nat) : List Bool := (List.range n).map fun i => v.testBit (n - 1 - i)

/-! ### The recording frame (R172, R173, R175) -/

/-- The seed field patterns and LFSR seeds (Table: Scrambler seeds). -/
def seedTable : List (Nat × BitVec 16) := [(0x924924, 0x0001), (0xAAAAAA, 0x2D4B), (0x820820, 0x6C19), (0x949494, 0xB3E7)]

def syncMarkA : Nat := 0x401004A5294A
def syncMarkB : Nat := 0x40100452A492

/-- One step of the scrambler's LFSR (R174). -/
def lfsrStep (s : BitVec 16) : BitVec 16 :=
  let fb := s.getLsbD 15 ^^ s.getLsbD 13 ^^ s.getLsbD 12 ^^ s.getLsbD 10
  (s <<< 1) ||| (if fb then 1 else 0)

/-- The scrambler, and its own inverse (R174). -/
def scramble : BitVec 16 → List Bool → List Bool
  | _, [] => []
  | s, b :: t => (b ^^ s.getLsbD 15) :: scramble (lfsrStep s) t

/-- The single-pair rows of the channel code (Table: Channel code). -/
def pairCode (a b : Bool) : List Bool :=
  match a, b with
  | false, false => [true, false, true]
  | false, true => [true, false, false]
  | true, false => [false, false, true]
  | true, true => [false, true, false]

/-- The data of a group of three channel bits by the single-pair rows; a group that is none of them has no data. -/
def pairData : Bool → Bool → Bool → Option (Bool × Bool)
  | true, false, true => some (false, false)
  | true, false, false => some (false, true)
  | false, false, true => some (true, false)
  | false, true, false => some (true, true)
  | _, _, _ => none

/-- The channel code of a half (R176): a pair x0 before a pair 0y becomes the group of xy, then 000. -/
def chanEncode : List Bool → List Bool
  | a :: b :: c :: d :: t =>
    if b = false ∧ c = false then pairCode a d ++ [false, false, false] ++ chanEncode t
    else pairCode a b ++ chanEncode (c :: d :: t)
  | [a, b] => pairCode a b
  | _ => []

/-- The decoder of a half (R176): a group before 000 is read by the substitute rows. -/
def chanDecode : List Bool → Option (List Bool)
  | x :: y :: z :: false :: false :: false :: t =>
    match pairData x y z, chanDecode t with
    | some (a, d), some l => some (a :: false :: false :: d :: l)
    | _, _ => none
  | x :: y :: z :: t =>
    match pairData x y z, chanDecode t with
    | some (a, b), some l => some (a :: b :: l)
    | _, _ => none
  | [] => some []
  | _ => none

/-- The channel bits of a frame for a seed index and a codeword (Table: Recording frame). -/
def frameBits (seed : Nat) (code : List Bool) : List Bool :=
  let e := (seedTable[seed]?).getD (0, 0)
  let w := scramble e.2 code
  (List.replicate 34 (bitsMsb 4 0x8)).flatten ++ bitsMsb 24 e.1 ++ bitsMsb 48 syncMarkA ++ chanEncode (w.take 18432) ++
    bitsMsb 48 syncMarkB ++ chanEncode (w.drop 18432) ++ (List.replicate 16 (bitsMsb 4 0x2)).flatten

/-- The greatest magnitude that the running digital sum reaches: a 1 turns the NRZ level over, which starts at +1.
DEDUCED (notes/assumptions/42.md, unsafe). -/
def peakSum (level sum peak : Int) : List Bool → Int
  | [] => peak
  | b :: t =>
    let l := if b then -level else level
    peakSum l (sum + l) (max peak (sum + l).natAbs) t

/-- The seed a frame is recorded with: the least peak, equal peaks to the lower index (R175).
DEDUCED (notes/assumptions/42.md, unsafe). -/
def seedFor (code : List Bool) : Nat :=
  let peak (k : Nat) : Int := peakSum 1 0 0 (frameBits k code)
  [1, 2, 3].foldl (fun k j => if peak j < peak k then j else k) 0

/-- The frame as it is recorded. -/
def recorded (code : List Bool) : List Bool := frameBits (seedFor code) code

/-! ### The inner code (R177, R178) -/

/-- The shift of the circulant at block row `r` of column block `c`, where there is one (R177). -/
def circulant (r c : Nat) : Option Nat :=
  if c < 64 then
    if ((r + 8 - c % 8) % 8) ∈ [0, 1, 3, 7] then some ((37 * (r + 1) * (c + 1) + 11 * c ^ 2) % 512) else none
  else if c < 71 then if r = c - 64 ∨ r = c - 63 then some 0 else none
  else if c = 71 ∧ r = 7 then some 0 else none

/-- A circulant with shift `v` times a column block: row i takes column (i + v) mod 512. -/
def circulate (v : Nat) (x : BitVec 512) : BitVec 512 := x.rotateRight v

/-- The sum that block row `r` of the parity-check matrix gives of column blocks. -/
def checkRow (blocks : List (BitVec 512)) (r : Nat) : BitVec 512 :=
  blocks.zipIdx.foldl (fun a e => match circulant r e.2 with
    | some v => a ^^^ circulate v e.1
    | none => a) 0

/-- The parity blocks of 64 payload blocks: block rows 0 to 7 solved in order (R178). -/
def ldpcParity (data : List (BitVec 512)) : List (BitVec 512) :=
  (List.range 8).foldl (fun p r => p ++ [checkRow data r ^^^ (p.getLast?).getD 0]) []

/-- How many of the 4,096 parity checks a codeword leaves unsatisfied (R196). -/
def unsatisfied (blocks : List (BitVec 512)) : Nat :=
  ((List.range 8).map fun r => ((List.range 512).filter fun i => (checkRow blocks r).getLsbD i).length).foldl (· + ·) 0

/-- The payload blocks of a frame's 4,096 bytes: byte m supplies codeword bits 8·m to 8·m + 7, most significant bit first;
codeword bit b is bit b mod 512 of column block b div 512 (R178). -/
def payloadBits (bytes : List Byte) : List Bool := bytes.flatMap fun b => bitsMsb 8 b.toNat

def blockOf (bits : List Bool) : BitVec 512 :=
  BitVec.ofNat 512 (bits.zipIdx.foldl (fun v e => if e.1 then v + 2 ^ e.2 else v) 0)

def blocksOf : Nat → List Bool → List (BitVec 512)
  | 0, _ => []
  | n + 1, l => blockOf (l.take 512) :: blocksOf n (l.drop 512)

def bitsOfBlock (b : BitVec 512) : List Bool := (List.range 512).map fun i => b.getLsbD i

/-- The codeword of a payload. -/
def codeword (bytes : List Byte) : List Bool :=
  let p := payloadBits bytes
  p ++ (ldpcParity (blocksOf 64 p)).flatMap bitsOfBlock

/-! ### The outer code (R179, R198 to R200) -/

/-- Multiplication by α = 0x02 modulo x^8 + x^4 + x^3 + x^2 + 1. -/
def gfDouble (a : Byte) : Byte := (a <<< 1) ^^^ (if a.getLsbD 7 then 0x1D else 0)

/-- α to the power `n`, times `a`. -/
def gfShift : Nat → Byte → Byte
  | 0, a => a
  | n + 1, a => gfShift n (gfDouble a)

/-- Multiplication in GF(2^8). -/
def gfMul (a b : Byte) : Byte :=
  (List.range 8).foldl (fun s i => if b.getLsbD i then s ^^^ gfShift i a else s) 0

/-- The inverse: the 254th power. -/
def gfInv (a : Byte) : Byte := (List.range 253).foldl (fun s _ => gfMul s a) a

/-- The two parity bytes of sixteen data bytes, highest degree first: division by (x − 1)(x − α) = x² + 3x + 2. -/
def rsParity (data : List Byte) : Byte × Byte :=
  data.foldl (fun r d => let fb := d ^^^ r.1; (r.2 ^^^ gfMul 3 fb, gfMul 2 fb)) (0, 0)

/-- The syndromes of a column: its values at 1 and at α. -/
def rsSyndromes (column : List Byte) : Byte × Byte :=
  (column.foldl (fun a d => a ^^^ d) 0, column.foldl (fun a d => gfDouble a ^^^ d) 0)

/-- The block frame in which a column with non-zero syndromes locates a single symbol error, if it does (R199). -/
def rsLocate (column : List Byte) : Option Nat :=
  let s := rsSyndromes column
  if s.1 = 0 then none else (List.range 18).find? fun i => gfShift (17 - i) s.1 == s.2

/-- The column with the bytes of one or two erased block frames recovered (R200). -/
def rsFill (column : List Byte) (erased : List Nat) : List Byte :=
  match erased with
  | [i] => let c := column.set i 0; c.set i (rsSyndromes c).1
  | [i, j] =>
    let c := (column.set i 0).set j 0
    let s := rsSyndromes c
    let ai := gfShift (17 - i) 1
    let aj := gfShift (17 - j) 1
    let x := gfMul (s.2 ^^^ gfMul aj s.1) (gfInv (ai ^^^ aj))
    (c.set i x).set j (s.1 ^^^ x)
  | _ => column

/-- The bytes at the first `n` positions of frames, position by position: the columns of the outer code. -/
def columnsOf : Nat → List (List Byte) → List (List Byte)
  | 0, _ => []
  | n + 1, fs => fs.map (fun f => f.headD 0) :: columnsOf n (fs.map List.tail)

/-- The columns of payloads, 4,096 of them where the payloads are whole. -/
def columns (fs : List (List Byte)) : List (List Byte) := columnsOf ((fs.map List.length).foldl max 0) fs

/-- Payload `i` of columns. -/
def payloadOf (cols : List (List Byte)) (i : Nat) : List Byte := cols.map fun col => col.getD i 0

/-- The parity payloads of a block's sixteen data payloads, taken over ciphertext (R179). -/
def rsFrames (data : List (List Byte)) : List (List Byte) :=
  let cols := (columns data).map rsParity
  [cols.map (·.1), cols.map (·.2)]

/-- A block whose frames have all converged, when its syndromes are zero or every failing column locates its error in the same
frame, which is then erased and the block corrected (R198, R199): the block frame corrected, if any, and the payloads. -/
def blockWhole (frames : List (List Byte)) : Option (Option Nat × List (List Byte)) :=
  let cols := columns frames
  let bad := cols.filter fun c => rsSyndromes c != (0, 0)
  match bad.map rsLocate with
  | [] => some (none, frames)
  | some i :: rest =>
    if rest.all fun x => x == some i then
      let fixed := cols.map fun c => rsFill c [i]
      some (some i, (List.range 18).map (payloadOf fixed))
    else none
  | none :: _ => none

/-- The payloads of a block with one or two frames erased (R200). -/
def blockFilled (frames : List (List Byte)) (erased : List Nat) : List (List Byte) :=
  let fixed := (columns frames).map fun c => rsFill c erased
  (List.range 18).map (payloadOf fixed)

/-! ### Headers, records and index frames (R180 to R185) -/

/-- Bytes laid out at offsets, the others zero, to a length. -/
def layOut (n : Nat) (parts : List (Nat × List Byte)) : List Byte :=
  parts.foldl (fun l e => l.take e.1 ++ e.2 ++ l.drop (e.1 + e.2.length)) (List.replicate n 0)

/-- The bytes with the 256-bit digest of all before the offset put there. -/
def sealAt (off : Nat) (l : List Byte) : List Byte :=
  l.take off ++ toBytes 32 ((Config.shake256 (l.take off)).toNat % 2 ^ 256) ++ l.drop (off + 32)

def magic (c : Char) : List Byte := [0x53, 0x50, 0x58, BitVec.ofNat 8 c.toNat]

/-- Payload index and block of a logical frame of an extent: header copies, blocks, tail and record (Table: Extent
layout). -/
inductive Logical where
  | header (copy : Nat) | block (b i : Nat) | tail (k : Nat) | record (copy : Nat)
deriving DecidableEq, Repr

def logicalOf (t i : Nat) : Logical :=
  if i < 2 then .header i
  else if i < 1154 then .block ((i - 2) / 18) ((i - 2) % 18)
  else if i < 1154 + t then .tail (i - 1154)
  else .record (i - 1154 - t)

/-- The frame address where a logical frame lies: the last TAIL entry that names it, else the header's frame plus its
number (R180, R183). -/
def addressOf (hdr : Nat) (tail : List (Nat × Nat)) (i : Nat) : Nat :=
  match (tail.filter fun e => e.1 == i).getLast? with
  | some e => e.2
  | none => hdr + i

/-- The tweak of a tenant's data frame, and that of a header, record or index frame (R181). -/
def dataTweak (hdr seq i : Nat) : BitVec 128 :=
  BitVec.ofNat 128 (hdr % 2 ^ 32 + 2 ^ 32 * (seq % 2 ^ 32) + 2 ^ 64 * (i % 65536))

def frameTweak (addr : Nat) : BitVec 128 := BitVec.ofNat 128 (addr % 2 ^ 32)

/-- What a header states beside what the extent's own record holds. -/
structure HeaderRest where
  domain : BitVec 64
  copy0 : Nat
  prev : Option Nat
  count : Nat
  keyGen : Nat
  writer : Nat
  pickup : Nat
  ptp : Nat
  digest : BitVec 256
deriving DecidableEq, Repr

/-- A header copy (Table: Extent header). -/
def headerBytes (e : ExtSt) (r : HeaderRest) : List Byte :=
  sealAt 0xE0 (layOut 4096
    [(0, magic 'H'), (4, toBytes 2 0x100), (6, toBytes 2 0x100), (8, toBytes 8 r.domain.toNat), (0x10, toBytes 4 e.seq),
     (0x14, toBytes 4 r.copy0), (0x18, toBytes 4 (r.prev.getD 0xFFFFFFFF)), (0x1C, toBytes 2 (e.id.tenant % 4096)),
     (0x1E, toBytes 1 (e.repl % 16 + 16 * (r.count % 16))), (0x1F, toBytes 1 (e.flags % 4)), (0x20, toBytes 8 e.id.key),
     (0x28, toBytes 4 e.id.ver), (0x2C, toBytes 4 e.id.unit), (0x30, toBytes 4 e.len), (0x34, toBytes 4 r.keyGen),
     (0x38, toBytes 2 (r.writer % 512)), (0x3A, toBytes 1 r.pickup), (0x3C, toBytes 4 r.ptp), (0x40, toBytes 32 r.digest.toNat)])

/-- What pickup `n` states in the header of an extent that it starts now; the digest is that of the data's ciphertext. -/
def State.headerRest (s : State) (n : Nat) (e : ExtSt) (count keyGen : Nat) (digest : BitVec 256) : HeaderRest :=
  { domain := s.domainId, copy0 := e.hdr, prev := (s.layerOf e.slot e.side e.layer).prev, count := count, keyGen := keyGen,
    writer := s.self, pickup := n, ptp := if s.flag TICK_STAT_PTP_VALID then s.ce.ptpSec % 2 ^ 32 else 0, digest := digest }

/-- A commit or abort record copy (Table: Commit and abort record): `tail` gives the logical frames rewritten and where they
lie, in order. -/
def recordBytes (e : ExtSt) (committed : Bool) (copy : Nat) (tail : List (Nat × Nat)) (hdrDigest dataDigest : BitVec 256) : List Byte :=
  let entry (x : Nat × Nat) : List Byte := toBytes 2 x.1 ++ [0xFF, 0xFF] ++ toBytes 4 x.2
  sealAt 0x1E0 (layOut 4096
    [(0, magic 'C'), (4, toBytes 2 0x100), (6, toBytes 2 (if committed then 1 else 2)), (8, toBytes 4 e.hdr), (0xC, toBytes 4 e.seq),
     (0x10, toBytes 4 (1154 + tail.length)), (0x14, toBytes 2 tail.length), (0x16, toBytes 2 copy), (0x18, toBytes 32 hdrDigest.toNat),
     (0x38, toBytes 32 dataDigest.toNat), (0x58, (tail.flatMap entry ++ List.replicate 256 0xFF).take 256)])

/-- An index record (Table: Index record). -/
def indexRecord (r : IdxRec) : List Byte :=
  layOut 128
    [(0, toBytes 1 r.type), (1, toBytes 1 r.repl), (2, toBytes 2 (r.id.tenant % 4096)), (4, toBytes 4 r.hdr), (8, toBytes 4 r.frames),
     (0xC, toBytes 4 r.seq), (0x10, toBytes 8 r.id.key), (0x18, toBytes 4 r.id.ver), (0x1C, toBytes 4 r.id.unit), (0x20, toBytes 4 r.len),
     (0x24, toBytes 1 r.flags), (0x28, toBytes 32 r.digest.toNat), (0x48, toBytes 1 r.block), (0x4C, toBytes 4 r.addr)]

/-- The next index frame of a layer (Table: Index frame): its oldest 31 pending records. -/
def indexFrame (l : LayerSt) (domain : BitVec 64) : List Byte :=
  let rs := l.pending.take 31
  sealAt 0xFC0 (layOut 4096
    ([(0, magic 'I'), (4, toBytes 2 0x100), (6, toBytes 1 (128 * l.side + l.layer % 32)), (7, toBytes 1 rs.length),
      (8, toBytes 4 (l.idxSeq + 1)), (0xC, toBytes 4 (frameAddr l.side l.layer l.front)),
      (0x10, toBytes 4 (if l.spareLow < 12035044 then frameAddr l.side l.layer l.spareLow else 0xFFFFFFFF)),
      (0x14, toBytes 4 (l.idxPrev.getD 0xFFFFFFFF)), (0x18, toBytes 8 domain.toNat)] ++
     rs.zipIdx.map fun e => (0x40 + 128 * e.2, indexRecord e.1)))

/-- The frame at which the next index frame of a layer lies: the next position of its index area, or, when that is full, of the
18-frame allocations at the top of the spare area (R184, R185), of which the lowest frame is then as given. -/
def LayerSt.idxAt (l : LayerSt) : Nat × Nat :=
  if l.idxUsed < 147072 then (49536 + l.idxUsed, l.spareLow)
  else
    let k := (l.idxUsed - 147072) % 18
    let low := if k = 0 then l.spareLow - 18 else l.spareLow
    (low + k, low)

/-- A copy of a header, record or index frame that decrypts to `l` is valid: its MAGIC, its VERSION and its digest (R182). -/
def copyValid (c : Char) (off : Nat) (l : List Byte) : Bool :=
  l.take 4 == magic c && (l.drop 4).take 2 == toBytes 2 0x100 &&
    (l.drop off).take 32 == toBytes 32 ((Config.shake256 (l.take off)).toNat % 2 ^ 256)

/-- An extent of which the record copies found have a status, in frame order, exists when one of its header copies is valid
and the last valid record says committed (R182). -/
def extentExists (headers : List Bool) (records : List (Option Bool)) : Bool :=
  headers.any id && (records.filterMap id).getLast? == some true

/-! ### What a search of a layer finds (R182, R184, R186, R326) -/

def seenAt (l : List FrameSeen) (p : Nat) : Option FrameSeen := l.find? fun r => r.frame.toNat == p

/-- A valid header copy, a valid record copy with whether it says committed, a valid index frame. -/
def seenHeader (r : FrameSeen) : Bool := copyValid 'H' 0xE0 r.payload
def seenRecord (r : FrameSeen) : Option Bool := if copyValid 'C' 0x1E0 r.payload then some (fieldAt r.payload 6 2 == 1) else none
def seenIndex (r : FrameSeen) : Bool := copyValid 'I' 0xFC0 r.payload

/-- The positions of a list in frame order. -/
def seenSorted (l : List FrameSeen) : List FrameSeen := sortBy (fun a b => decide (a.frame.toNat ≤ b.frame.toNat)) l

/-- The first blank position from `p` on. -/
def firstBlank (l : List FrameSeen) : Nat → Nat → Nat
  | 0, p => p
  | f + 1, p => if (seenAt l p).isSome then firstBlank l f (p + 1) else p

/-- An extent found on a layer: its header copy, the frame of copy 0, its last valid record copy where there is one, whether it
exists (R182), and the position after it. -/
structure FoundExt where
  header : List Byte
  hdr : Nat
  record : Option (List Byte)
  committed : Bool
  after : Nat
deriving DecidableEq, Repr

/-- The TAIL entries of a record (Table: Commit and abort record). -/
def recordTail (r : List Byte) : List (Nat × Nat) :=
  (List.range (min 32 (fieldAt r 0x14 2))).map fun i => (fieldAt r (0x58 + 8 * i) 2, fieldAt r (0x5C + 8 * i) 4)

/-- The unit a header names. -/
def headerUnit (h : List Byte) : UnitId :=
  { tenant := fieldAt h 0x1C 2 % 4096, key := fieldAt h 0x20 8, ver := fieldAt h 0x28 4, unit := fieldAt h 0x2C 4 }

/-- The write-front search from a position, for at most as many turns as positions were read and one more (R186): the front
and the extents passed. An extent without a valid record is closed, when `close`, with two copies of an abort record at the first
blank position from pos + 1,154 on; a search that only reads goes on there. -/
def searchFront (close : Bool) (l : List FrameSeen) : Nat → Nat → List FoundExt → Nat × List FoundExt
  | 0, pos, acc => (pos, acc)
  | f + 1, pos, acc =>
    match seenAt l pos with
    | none => (pos, acc)
    | some _ =>
      let heads := [pos, pos + 1].map fun p => (seenAt l p).filter seenHeader
      match heads.findSome? id with
      | none => searchFront close l f (pos + 1) acc
      | some h =>
        let recs := (seenSorted l).filter fun r =>
          decide (pos + 1154 ≤ r.frame.toNat) && decide (r.frame.toNat ≤ pos + 1189) && (seenRecord r).isSome
        match recs.getLast? with
        | some r =>
          searchFront close l f (r.frame.toNat + 1) (acc ++ [{ header := h.payload, hdr := pos, record := some r.payload, committed := extentExists (heads.map Option.isSome) (recs.map seenRecord), after := r.frame.toNat + 1 }])
        | none =>
          let p := firstBlank l l.length (pos + 1154)
          let q := if close then p + 2 else p
          searchFront close l f q (acc ++ [{ header := h.payload, hdr := pos, record := none, committed := false, after := q }])

/-- The index frame positions of a layer's index area up to the first blank one, and the valid index frames: those, and those that
were written in the spare area. -/
def idxPositions (l : List FrameSeen) : Nat := firstBlank l l.length 49536 - 49536

def idxFrames (l : List FrameSeen) : List FrameSeen :=
  (seenSorted l).filter fun r => seenIndex r &&
    ((decide (49536 ≤ r.frame.toNat) && decide (r.frame.toNat < 49536 + idxPositions l)) || decide (196608 ≤ r.frame.toNat))

/-- IDX_SEQ of an index frame. -/
def idxSeqOf (r : FrameSeen) : Nat := fieldAt r.payload 8 4

/-- The valid index frames, of those that share an IDX_SEQ the one with the higher frame number (R184). -/
def idxKept (l : List FrameSeen) : List FrameSeen :=
  let fs := idxFrames l
  fs.filter fun r => !(fs.any fun q => idxSeqOf q == idxSeqOf r && decide (r.frame.toNat < q.frame.toNat))

/-- The highest valid index frame. -/
def idxBest (l : List FrameSeen) : Option FrameSeen :=
  (idxKept l).foldl (fun b r => match b with
    | some q => if idxSeqOf q < idxSeqOf r then some r else b
    | none => some r) none

/-- Where the search of a layer starts: NEXT_FREE of the highest valid index frame, else frame 196,608. -/
def searchFrom (l : List FrameSeen) : Nat := match idxBest l with
  | some r => fieldAt r.payload 0xC 4 % 2 ^ 24
  | none => 196608

/-- The records of an index frame, in order. -/
def idxRecords (r : FrameSeen) : List (List Byte) :=
  (List.range (min 31 (fieldAt r.payload 7 1))).map fun i => slice r.payload (0x40 + 128 * i) 128

/-- The unit an index record names. -/
def recordUnit (r : List Byte) : UnitId :=
  { tenant := fieldAt r 2 2 % 4096, key := fieldAt r 0x10 8, ver := fieldAt r 0x18 4, unit := fieldAt r 0x1C 4 }

/-- The map entry of an extent that the search found; KEY_GEN is that of its header. -/
def foundEntry (x : FoundExt) (slot side layer state : Nat) : MapEnt :=
  let tail := (x.record.map recordTail).getD []
  { id := headerUnit x.header, hdr := frameAddr side layer x.hdr, state := state, slot := slot, repl := fieldAt x.header 0x1E 1
    len := fieldAt x.header 0x30 4, flags := fieldAt x.header 0x1F 1 % 4 + (if tail.isEmpty then 0 else 4)
    keyGen := fieldAt x.header 0x34 4 % 16, ptp := fieldAt x.header 0x3C 4, tail := tail.length, moved := tail
    seq := fieldAt x.header 0x10 4 }

/-- The map entry of an index record of TYPE 0x01: KEY_GEN and the rewrite table are not known (R325), the tail is what FRAMES
exceeds the run and two record copies by, and an index record holds no PTP_SEC. -/
def recordEntry (r : List Byte) (slot : Nat) : MapEnt :=
  let tail := fieldAt r 8 4 - 1156
  { id := recordUnit r, hdr := fieldAt r 4 4, state := 0, slot := slot, repl := fieldAt r 1 1, len := fieldAt r 0x20 4
    flags := fieldAt r 0x24 1 % 4 + (if tail = 0 then 0 else 4), keyGen := 15, tail := tail, seq := fieldAt r 0xC 4 }

/-- The index record of an extent that the search found. -/
def foundRecord (x : FoundExt) (side layer : Nat) : IdxRec :=
  { type := if x.committed then 1 else 2, id := headerUnit x.header, hdr := frameAddr side layer x.hdr, frames := x.after - x.hdr
    seq := fieldAt x.header 0x10 4, len := fieldAt x.header 0x30 4, flags := fieldAt x.header 0x1F 1, repl := fieldAt x.header 0x1E 1
    digest := BitVec.ofNat 256 (fieldAt x.header 0x40 32) }

/-- The layer control frame names the format and a version that the device reads (R170). -/
def controlOk (b : List Byte) : Bool := b.take 4 == [0x53, 0x50, 0x58, 0x44] && fieldAt b 4 2 == 0x0100

/-- A frame of the layer control area (R170): side and layer, disc identifier, and the starting write strategy. -/
def controlFrame (side layer : Nat) (disc : List Byte) (ws : List Word) : List Byte :=
  layOut 4096
    [(0, [0x53, 0x50, 0x58, 0x44]), (4, toBytes 2 0x0100), (6, toBytes 1 (frameAddr side layer 0 / 2 ^ 24)), (8, disc.take 16),
     (32, (ws.take 8).flatMap fun w => toBytes 4 w.toNat)]

/-- Word `w` of the starting write strategy that a layer control frame gives. -/
def controlWord (b : List Byte) (w : Nat) : Word := BitVec.ofNat 32 (fieldAt b (32 + 4 * w) 4)

/-! ### Ciphertext (R179, R181, R211) -/

/-- The 4,096-byte frames of a unit, its rest filled with zeros (Table: Extent header, UNIT_LEN). -/
def unitFrames : Nat → List Byte → List (List Byte)
  | 0, _ => []
  | n + 1, l => ((l.take 4096) ++ List.replicate (4096 - (l.take 4096).length) 0) :: unitFrames n (l.drop 4096)

/-- The logical frame of data frame `m` of a unit (Table: Extent layout). -/
def dataLogical (m : Nat) : Nat := 2 + 18 * (m / 16) + m % 16

/-- The ciphertext of a unit's data frames under a key. -/
def cipherFrames (key : BitVec 256) (hdr seq : Nat) (data : List Byte) : List (List Byte) :=
  (unitFrames 1024 data).zipIdx.map fun e => Config.xtsEnc key (dataTweak hdr seq (dataLogical e.2)) e.1

/-- The blocks of data frames: sixteen data payloads and two parity payloads each. -/
def blocksWithParity : Nat → List (List Byte) → List (List Byte)
  | 0, _ => []
  | n + 1, l => l.take 16 ++ rsFrames (l.take 16) ++ blocksWithParity n (l.drop 16)

/-- DATA_DIGEST of ciphertext frames (Table: Extent header). -/
def dataDigest (frames : List (List Byte)) : BitVec 256 := (Config.shake256 frames.flatten).setWidth 256

/-- The plain bytes of a delivered block. -/
def Delivered.plain (key : BitVec 256) (d : Delivered) : List Byte :=
  (d.data.zipIdx.map fun e => Config.xtsDec key (dataTweak d.hdr d.seq (2 + 18 * d.block + e.2)) e.1).flatten

/-- The key of a tenant that this device holds, of the generation named where it is there. -/
def State.tenantKey (s : State) (t gen : Nat) : BitVec 256 :=
  match s.sec.keys.find? fun k => k.tenant == t && k.gen % 16 == gen with
  | some k => k.key
  | none => ((s.sec.keys.find? fun k => k.tenant == t).map fun k => k.key).getD 0

/-- The bytes of a unit of which every block has been delivered, in block order. -/
def State.unitPlain (s : State) (id : UnitId) (len gen : Nat) : List Byte :=
  let ds := sortBy (fun (a b : Delivered) => decide (a.block ≤ b.block)) (s.chn.delivered.filter fun d => d.id == id)
  (ds.flatMap fun d => d.plain (s.tenantKey id.tenant gen)).take len

/-- The rewrite table of an extent being written: each logical frame rewritten, and where it then lies (R208). -/
def ExtSt.moves (x : ExtSt) : List (Nat × Nat) := x.tail.zipIdx.map fun e => (e.1, x.hdr + 1154 + e.2)

/-- The payload written at a logical frame of an extent: a header copy under the domain key, or a frame of its blocks (R180,
R181). -/
def State.written (s : State) (n : Nat) (x : ExtSt) (i : Nat) : List Byte :=
  if i < 2 then
    Config.xtsEnc (s.sec.domain.getD 0) (frameTweak (x.hdr + i))
      (headerBytes x (s.headerRest n x (x.repl / 16) x.keyGen x.digest))
  else (x.cipher[i - 2]?).getD []

/-- The payload of a copy of the record that closes an extent. -/
def State.recordWritten (s : State) (n : Nat) (x : ExtSt) (committed : Bool) (copy : Nat) : List Byte :=
  let h := headerBytes x (s.headerRest n x (x.repl / 16) x.keyGen x.digest)
  Config.xtsEnc (s.sec.domain.getD 0) (frameTweak (x.hdr + 1154 + x.tail.length + copy))
    (recordBytes x committed copy x.moves (BitVec.ofNat 256 (fieldAt h 0xE0 32)) x.digest)

/-! ### Sync marks and seeds (R191, R192) -/

/-- How many of the `n` channel bits from position `p` on match a pattern given most significant bit first. -/
def matchBits (w : BitVec 55616) (n pat p : Nat) : Nat :=
  let v := (w.extractLsb' p n).toNat
  ((List.range n).filter fun i => v.testBit i == pat.testBit (n - 1 - i)).length

/-- The positions within the window of a mark's expected position, as offsets from it, with their scores (R192). -/
def markScores (w : BitVec 55616) (mark expected win : Nat) : List (Int × Nat) :=
  (List.range (2 * win + 1)).map fun (i : Nat) =>
    let off : Int := (i : Int) - (win : Int)
    (off, matchBits w 48 mark (expected + off).toNat)

/-- The best match of a seed pattern at channel bit 136 ± 2 (R191). -/
def seedScore (w : BitVec 55616) (pat : Nat) : Nat := ((List.range 5).map fun d => matchBits w 24 pat (134 + d)).foldl max 0

def seedScores (w : BitVec 55616) : List Nat := seedTable.map fun e => seedScore w e.1

/-! ### Write pulses (R204) -/

/-- A write strategy (Table of CHN_WS_L): powers in 0.01 mW, times in 1/16 T. -/
structure Strategy where
  pw : Nat
  pb : Nat
  pc : Nat
  tfpN : Nat
  tfp2 : Nat
  dfp : Int
  tcl : Nat
  tlp : Nat
  tmp : Nat
deriving DecidableEq, Repr

/-- The strategy that CHN_WS_L of write channel `n` holds for a layer. -/
def State.strategy (s : State) (n l : Nat) : Strategy :=
  { pw := s.get (CHN_WS_W0_PW n l), pb := s.get (CHN_WS_W0_PB n l), pc := s.get (CHN_WS_W1_PC n l)
    tfpN := s.get (CHN_WS_W2_TFP_N n l), tfp2 := s.get (CHN_WS_W2_TFP_2 n l), dfp := s.getInt (CHN_WS_W2_DFP n l)
    tcl := s.get (CHN_WS_W3_TCL n l), tlp := s.get (CHN_WS_W3_TLP n l), tmp := s.get (CHN_WS_W3_TMP n l) }

/-- A pulse: where it starts after the mark's start and how long it is, in 1/16 T, and its power. -/
structure Pulse where
  start : Int
  len : Nat
  power : Nat
deriving DecidableEq, Repr

/-- The pulses of a mark of nT (R204): one first pulse, n - 2 multipulses 1T apart, for 3T and longer one last pulse, and the
cooling gap.
DESIGN CHOICE (notes/assumptions/58.md, unsafe): the multipulses start at 1T, 2T and so on, the last pulse at (n - 1)T. -/
def markPulses (w : Strategy) (n : Nat) : List Pulse :=
  let first : Pulse := { start := w.dfp, len := if n = 2 then w.tfp2 else w.tfpN, power := w.pw }
  let multi := (List.range (n - 2)).map fun i => ({ start := 16 * ((i : Int) + 1), len := w.tmp, power := w.pw } : Pulse)
  let last : List Pulse := if 3 ≤ n then [{ start := 16 * ((n : Int) - 1), len := w.tlp, power := w.pw }] else []
  let body := first :: multi ++ last
  let gap := (body.getLast?.map fun p => p.start + (p.len : Int)).getD 0
  body ++ [{ start := gap, len := w.tcl, power := w.pc }]

/-- The runs of NRZ level that channel bits record, from a level: each run with whether it is a mark, and its length; a 1 starts
a new run (R172).
DESIGN CHOICE (notes/assumptions/58.md, unsafe): the level -1 is a mark. -/
def nrzRuns : Bool → Nat → List Bool → List (Bool × Nat)
  | mark, n, [] => if n = 0 then [] else [(mark, n)]
  | mark, n, b :: t =>
    if b then (if n = 0 then nrzRuns (!mark) 1 t else (mark, n) :: nrzRuns (!mark) 1 t) else nrzRuns mark (n + 1) t

/-- The write laser over channel bits: the pulses of each mark, from where it starts in channel bits; spaces are written at bias
power (R204). -/
def writePulses (w : Strategy) (bits : List Bool) : List (Nat × List Pulse) :=
  ((nrzRuns false 0 bits).foldl (fun (a : Nat × List (Nat × List Pulse)) r =>
    (a.1 + r.2, a.2 ++ [(a.1, if r.1 then markPulses w r.2 else [{ start := 0, len := 16 * r.2, power := w.pb }])])) (0, [])).2

/-- What the write laser does over logical frame `i` of the extent that pickup `n` writes. -/
def State.framePulses (s : State) (n : Nat) (x : ExtSt) (i : Nat) : List (Nat × List Pulse) :=
  writePulses (s.strategy n x.layer) (recorded (codeword (s.written n x i)))

end Sys2Proof.Machine
end

