-- ==== Sys2Proof/Machine/Channel.lean ====
section
/-!
DEFINITION. The meanings of the commands of the read and write channel: sync search and framings, blocks and the recovery
ladder, extents, power calibration, the write front and index frames (04_channel_and_media.md).
DEDUCED (notes/assumptions/40.md, unsafe): Seeds 0 to 3 are tried in turn at each framing when none is recognised; the adaptation starts from preset set 0 where the taps are zero.
-/

namespace Sys2Proof.Machine

open Sys2Proof

def State.modChn (s : State) (f : ChnSt → ChnSt) : State := { s with chn := f s.chn }

/-- A fault of the channel of station `st`, with side and layer as its argument (Table: Channel faults). -/
def State.chnFault (s : State) (st kind arg : Nat) : State := s.raise (0x034 + st) kind arg

/-- The disc slot loaded in the station of pickup `n`. -/
def State.discAt (s : State) (n : Nat) : Option Nat := (s.view (n / 2)).slot

/-! ### Read gates and single-spot reading (R188, R202, R213) -/

/-- The spot decoded in single-spot mode: the lowest-numbered usable one (R202). -/
def State.readSpot (s : State) (n : Nat) : Nat :=
  ((List.range 4).find? fun j => s.flag (CHN_SPOT_CTL_ENABLE (4 * n + j)) && !s.flag (CHN_SPOT_STAT_UNUSABLE (4 * n + j))).getD 0

/-- The block of a station for which the fifth rung runs (R213). -/
def State.rungFive (s : State) (st : Nat) : Option BlockSt := s.chn.blocks.find? fun b => b.pu / 2 == st && b.rung == 5 && !b.waits

/-- A spot decodes what it reads: it is in service, spots 1 to 3 not in write mode (R129), only one in single-spot mode (R202), and
none of the pickup beside one that runs the fifth rung (R213). -/
def State.decodes (s : State) (k : Nat) : Bool :=
  let n := k / 4
  s.flag (CHN_SPOT_CTL_ENABLE k) && !s.flag (CHN_SPOT_STAT_UNUSABLE k) &&
    (if s.flag (OPU_STAT_WRITE_MODE n) then k % 4 == 0 else if s.singleMode n then k % 4 == s.readSpot n else true) &&
    (s.rungFive (n / 2)).all fun b => b.pu == n

/-- A spot's read gate is open (R188). -/
def State.readGate (s : State) (k : Nat) : Bool :=
  s.decodes k && s.puState (k / 4) == puTracking && s.flag (OPU_STAT_ON_LAYER (k / 4)) && !(s.puOf (k / 4)).gatesClosed

/-- The read gate of a spot is shown, with the tick since which it has been open (R188). -/
def State.gateTick (s : State) (k : Nat) : State :=
  let up := s.readGate k
  (s.setFlag (CHN_SPOT_CTL_GATE k) up).modChn fun c =>
    { c with gateAt := c.gateAt.setIfInBounds k (if up then some (((c.gateAt[k]?).getD none).getD s.tick) else none) }

/-- The single-spot mode of a pickup's spots is shown (R202). -/
def State.showSingle (s : State) (n : Nat) : State :=
  let b := s.singleSpot n || (s.rungFive (n / 2)).any fun b => b.pu == n
  (List.range 4).foldl (fun (t : State) k => t.setFlag (CHN_SPOT_CTL_SINGLE (4 * n + k)) b) s

/-- A pickup writes an extent. -/
def State.writesExt (s : State) (n : Nat) : Bool := ((s.chn.ext[n]?).getD none).isSome

/-- The other pickup of a pickup's station. -/
def otherPu (n : Nat) : Nat := if n % 2 = 0 then n + 1 else n - 1

/-- What the channel does at a tick boundary: a block that waits to run its fifth rung starts when the station's other pickup
has written its record (R213); modes and gates are shown. -/
def State.chnTick (s : State) : State :=
  let s1 := s.modChn fun c =>
    { c with blocks := c.blocks.map fun b => if b.waits && !s.writesExt (otherPu b.pu) then { b with waits := false } else b }
  let s2 := (List.range 4).foldl State.showSingle s1
  (List.range 16).foldl State.gateTick s2

/-! ### The detection chain (R189) -/

/-- The samples of spot `j` as they line up by angle with those of spot `k` in zone `z`, each spot's skew removed. -/
def State.aligned (s : State) (k j z : Nat) : List Nat :=
  let d : Int := (s.getInt (CHN_SKEW_SKEW j) - s.getInt (CHN_SKEW_SKEW k)) * (intervalOf z : Int) / 256
  let rev := (((s.chn.samples[j]?).getD []).map BitVec.toNat).reverse
  ((if 0 ≤ d then rev.drop d.toNat else List.replicate d.natAbs 0 ++ rev).take 16384).reverse

/-- What cancels on the inner side of a spot at a frame: the spot before it, or, of spot 0 and of the one spot of single-spot
mode, the previous-turn decisions where they are enabled and valid. -/
def State.innerOf (s : State) (k f : Nat) : Option (List Nat) :=
  let n := k / 4
  if s.singleMode n || k % 4 == 0 then
    if s.flag (CHN_SPOT_CTL_PREV_EN k) then
      (((s.chn.prev[n]?).getD []).find? fun e => e.1 + 1 == turnOf f && e.2.1 == frameInTurn f).map fun e =>
        (List.range 55616).map fun i => if e.2.2.getLsbD i then 1 else 0
    else none
  else if s.readGate (k - 1) then some (s.aligned k (k - 1) (zoneOf f)) else none

/-- What cancels on its outer side: the spot after it, none in single-spot mode. -/
def State.outerOf (s : State) (k f : Nat) : Option (List Nat) :=
  if s.singleMode (k / 4) || k % 4 == 3 || !s.readGate (k + 1) then none else some (s.aligned k (k + 1) (zoneOf f))

/-- The preset set that a spot uses while it does not adapt: EQ_SET, or set 1, 2, 3 on the revolutions of the second rung
(R212); none while it adapts. -/
def State.presetOf (s : State) (k : Nat) : Option Nat :=
  match s.chn.blocks.find? fun b => b.pu == k / 4 && b.rung == 2 with
  | some b => some (1 + min 2 b.revs)
  | none => if s.flag (CHN_SPOT_CTL_EQ_ADAPT k) then none else some (s.get (CHN_SPOT_CTL_EQ_SET k))

/-- The equaliser taps and the canceller coefficients after a frame (Table: Detection chain per spot). -/
def State.adapt (s : State) (k f : Nat) : State :=
  let own := ((s.chn.samples[k]?).getD []).map BitVec.toNat
  let preset (j : Nat) : List Word := (List.range 7).map fun i => s.reg (CHN_EQ_PRE k j i)
  let now := (List.range 7).map fun i => s.reg (CHN_EQ_TAP k i)
  let taps := match s.presetOf k with
    | some j => preset j
    | none => Config.equaliserStep (s.get (CHN_EQ_CFG_EQ_MU k)) (if now.all fun w => w == 0 then preset 0 else now) own
  let inner := s.innerOf k f
  let outer := s.outerOf k f
  let old := (List.range 10).map fun j => s.reg (CHN_XTC_COEF k j)
  let coefs := if s.flag (CHN_SPOT_CTL_XTC_EN k) && (s.presetOf k).isNone
    then Config.cancellerStep (s.get (CHN_EQ_CFG_XTC_MU k)) old own (inner.getD []) (outer.getD []) else old
  let s1 := (List.range 7).foldl (fun (t : State) i => t.setReg (CHN_EQ_TAP k i) (nth taps i 0)) s
  (List.range 10).foldl (fun (t : State) j =>
    t.setReg (CHN_XTC_COEF k j) (if (if j < 5 then inner.isSome else outer.isSome) then nth coefs j 0 else 0)) s1

/-- The samples of a frame enter the spot's buffer, corrected by its read front end's CAL_RF entry (R534), and its decisions those of the previous turn where the spot makes them:
spot 3, or the one spot of single-spot mode (R189, R202). -/
def State.buffer (s : State) (k f : Nat) (r : FrameRead) : State :=
  let n := k / 4
  let keeps := if s.singleMode n then k % 4 == s.readSpot n else k % 4 == 3
  s.modChn fun c =>
    let all := (c.samples[k]?).getD [] ++ r.samples.map fun b => BitVec.ofNat 8 (correctedWord 8 (s.reg (CAL_RF k)) b.toNat)
    let old := ((c.prev[n]?).getD []).filter fun e => decide (turnOf f ≤ e.1 + 1) && !(e.1 == turnOf f && e.2.1 == frameInTurn f)
    { c with samples := c.samples.setIfInBounds k (all.drop (all.length - 16384)), prev := if keeps then c.prev.setIfInBounds n (old ++ [(turnOf f, frameInTurn f, r.bits)]) else c.prev }

/-! ### Frames (R187, R191 to R197) -/

/-- Order of candidates: score, nearness to the expected position, the earlier one (R193). -/
def candLe (a b : Int × Nat) : Bool :=
  if a.2 ≠ b.2 then decide (b.2 ≤ a.2)
  else if a.1.natAbs ≠ b.1.natAbs then decide (a.1.natAbs ≤ b.1.natAbs)
  else decide (a.1 ≤ b.1)

/-- The three best candidates of a mark within the window (R192, R193). -/
def State.candidatesOf (s : State) (k : Nat) (l : List (Int × Nat)) : List (Int × Nat) :=
  (sortBy candLe (l.filter fun c =>
    decide (c.1.natAbs ≤ s.get (CHN_SYNC_CFG_WIN k)) && decide (s.get (CHN_SYNC_CFG_THR k) ≤ c.2))).take 3

/-- The first framing: the chosen candidate of each mark, one placed from the other when it has none (R194, R195). -/
def firstFraming (a b : List (Int × Nat)) : Option Framing :=
  match a.head?, b.head? with
  | some x, some y => some { a := x.1, b := y.1, sa := x.2, sb := y.2 }
  | some x, none => some { a := x.1, b := x.1, sa := x.2, sb := 0 }
  | none, some y => some { a := y.1, b := y.1, sa := 0, sb := y.2 }
  | none, none => none

/-- Higher summed score first. -/
def framingLe (x y : Framing) : Bool := decide (y.sa + y.sb ≤ x.sa + x.sb)

/-- The framings of R196 in the order in which they are tried. -/
def framings (a b : List (Int × Nat)) : List Framing :=
  let pairs := a.flatMap fun x => b.map fun y => { a := x.1, b := y.1, sa := x.2, sb := y.2 : Framing }
  let placed := (a.map fun x => { a := x.1, b := x.1, sa := x.2, sb := 0 : Framing }) ++
    b.map fun y => { a := y.1, b := y.1, sa := 0, sb := y.2 : Framing }
  sortBy framingLe (pairs.filter fun f => f.a == f.b) ++ sortBy framingLe placed ++
    sortBy framingLe (pairs.filter fun f => f.a != f.b)

/-- CHN_SYNC_LAST shows the framing used. -/
def State.showFraming (s : State) (k : Nat) (f : Framing) : State :=
  (((s.set (CHN_SYNC_LAST_A_SCORE k) f.sa).set (CHN_SYNC_LAST_B_SCORE k) f.sb).setInt (CHN_SYNC_LAST_A_OFS k) f.a).setInt
    (CHN_SYNC_LAST_B_OFS k) f.b

/-- The seed that scores best, when it matches at least 18 of 24 bits; none is recognised otherwise (R191). -/
def bestSeed (l : List Nat) : Option Nat :=
  let top := l.foldl max 0
  if top < 18 then none else l.findIdx? fun x => x == top

/-! ### Blocks (R198 to R201, R212 to R217) -/

/-- The entries of the extents of the units that the holder of a pickup's station reads. -/
def State.jobEnts (s : State) (n : Nat) : List MapEnt :=
  match (s.arbOf (n / 2)).job with
  | none => []
  | some j => if j.write then [] else j.units.filterMap fun u => s.plc.map.find? fun e => e.id == u.id && some e.slot == j.slot

/-- Whether an address lies on the side and layer that a pickup reads. -/
def State.hereAddr (s : State) (n a : Nat) : Bool := addrSide a == n % 2 && addrLayer a == s.get (OPU_LAYER_CUR n)

/-- The logical frame of an extent that lies at a frame number of its layer: the last TAIL entry that names it decides, and a
superseded frame is none (R180, R183). -/
def MapEnt.logicalAt (e : MapEnt) (frame : Nat) : Option Nat :=
  let h := addrFrame e.hdr
  let last (i : Nat) : Option Nat := (e.moved.filter fun m => m.1 == i).getLast?.map fun m => addrFrame m.2
  match e.moved.find? fun m => addrFrame m.2 == frame with
  | some m => if last m.1 = some frame then some m.1 else none
  | none => if h ≤ frame ∧ frame < h + 1154 ∧ (last (frame - h)).isNone = true then some (frame - h) else none

/-- The extent that a frame of the loaded disc belongs to, among the units that the holder of the station reads: its entry
and the block and place of the frame in it (R180, R183); a relocated block lies where the map says (R216). -/
def State.frameIn (s : State) (n frame : Nat) : Option (MapEnt × Nat × Nat) :=
  (s.jobEnts n).findSome? fun e =>
    match e.reloc.find? fun r => s.hereAddr n r.2 && decide (addrFrame r.2 ≤ frame) && decide (frame < addrFrame r.2 + 18) with
    | some r => some (e, r.1, frame - addrFrame r.2)
    | none =>
      if s.hereAddr n e.hdr then
        match e.logicalAt frame with
        | some i => if 2 ≤ i ∧ (e.reloc.any fun r => r.1 == (i - 2) / 18) = false then some (e, (i - 2) / 18, (i - 2) % 18) else none
        | none => none
      else none

/-- The first frame of a block, by which it is known. -/
def MapEnt.blockFirst (e : MapEnt) (b : Nat) : Nat := match e.reloc.find? fun r => r.1 == b with
  | some r => addrFrame r.2
  | none => addrFrame e.hdr + 2 + 18 * b

/-- The extent and the number of a block that a pickup reads. -/
def State.blockIn (s : State) (n : Nat) (b : BlockSt) : Option (MapEnt × Nat) :=
  (s.jobEnts n).findSome? fun e =>
    match e.reloc.find? fun r => s.hereAddr n r.2 && addrFrame r.2 == b.first with
    | some r => some (e, r.1)
    | none =>
      let h := addrFrame e.hdr + 2
      if s.hereAddr n e.hdr ∧ h ≤ b.first ∧ b.first < h + 1152 then some (e, (b.first - h) / 18) else none

def State.blockAt (s : State) (n first : Nat) : BlockSt :=
  (s.chn.blocks.find? fun b => b.pu == n && b.first == first).getD { pu := n, first := first }

def State.putBlock (s : State) (b : BlockSt) : State :=
  s.modChn fun c => { c with blocks := (c.blocks.filter fun x => !(x.pu == b.pu && x.first == b.first)) ++ [b] }

def State.dropBlock (s : State) (b : BlockSt) : State :=
  s.modChn fun c => { c with blocks := c.blocks.filter fun x => !(x.pu == b.pu && x.first == b.first) }

/-- The eighteen payloads of a block, those not there empty. -/
def BlockSt.payloads (b : BlockSt) : List (List Byte) :=
  (List.range 18).map fun i => ((b.data.find? fun d => d.1 == i).map fun d => d.2).getD []

/-- Side and layer of what a pickup reads, as a fault argument. -/
def State.sideLayer (s : State) (n : Nat) : Nat := 32 * (n % 2) + s.get (OPU_LAYER_CUR n)

/-- A block is delivered: it leaves the channel, and its data payloads are those of its unit (R198, R200). -/
def State.deliverBlock (s : State) (n : Nat) (b : BlockSt) (ps : List (List Byte)) : State :=
  match s.blockIn n b with
  | some (e, blk) =>
    (s.dropBlock b).modChn fun c =>
      { c with delivered := (c.delivered.filter fun d => !(d.id == e.id && d.block == blk)) ++ [{ id := e.id, hdr := e.hdr, seq := e.seq, block := blk, data := ps.take 16 }] }
  | none => s.dropBlock b

/-- A block recovered is queued for relocation, its eighteen payloads unchanged (R216). -/
def State.queueReloc (s : State) (n : Nat) (b : BlockSt) (ps : List (List Byte)) : State :=
  match s.blockIn n b, s.discAt n with
  | some (e, blk), some slot =>
    (s.modChn fun c =>
      { c with reloc := c.reloc ++ [{ slot := slot, side := n % 2, layer := s.get (OPU_LAYER_CUR n), hdr := e.hdr, block := blk, id := e.id, data := ps }] }).set
      CHN_RELOC_PENDING (s.chn.reloc.length + 1)
  | _, _ => s

/-- A block is recovered: counted by its rung, reported, relocated unless rung 1 did it, and delivered (R200, R212, R216). -/
def State.blockRecovered (s : State) (n : Nat) (b : BlockSt) (rung : Nat) (ps : List (List Byte)) : State :=
  let s1 := if rung = 0 then s.addSat CHN_RL_FIRST_COUNT 1 else s.addSat (CHN_RL_CNT_COUNT (rung - 1)) 1
  let s2 := s1.chnFault (n / 2) 1 rung
  let s3 := if rung = 1 then s2 else s2.queueReloc n b ps
  s3.deliverBlock n b ps

/-- A block is lost: counted, reported, and its unit fails the read (R215). A self-test's read gives a deferred error
(R413). -/
def State.blockLost (s : State) (n : Nat) (b : BlockSt) : State :=
  let s1 := ((s.addSat CHN_RL_LOST_COUNT 1).chnFault (n / 2) 2 (s.sideLayer n)).dropBlock b
  match s.blockIn n b with
  | some (e, _) =>
    let s2 := s1.modChn fun c => { c with lost := c.lost ++ [e.id] }
    if (s.arbOf (n / 2)).job.any fun j => j.kind == .selftest then
      s2.deferError e.id.tenant { seq := 0, type := 0, key := e.id.key, ver := e.id.ver, unit := e.id.unit, hdr := e.hdr }
    else s2
  | none => s1

/-- The rung after one that has left frames failed: rungs 2 to 5 may be skipped; 6 needs at most two frames (R212, R214). -/
def State.nextRung (s : State) (r : Nat) : Nat :=
  match (List.range 6).find? fun k => decide (r < k) && (k < 2 || !(s.get CHN_RL_CFG_SKIP).testBit (k - 2)) with
  | some k => k
  | none => 6

/-- A block climbs: to its next rung, or to RS decoding of at most two frames, or it is lost. The fifth rung waits while the
station's other pickup writes (R213). -/
def State.climb (s : State) (n : Nat) (b : BlockSt) : State :=
  let r := s.nextRung b.rung
  if r < 6 then s.putBlock { b with rung := r, revs := 0, waits := r == 5 && s.writesExt (otherPu n) }
  else if b.failed.length ≤ 2 then s.blockRecovered n b 6 (blockFilled b.payloads b.failed)
  else s.blockLost n b

/-- A block of which every frame has converged is checked: delivered on its first pass, recovered on a rung; where its columns
do not agree on one frame it has failed and is read again (R198, R199, R212). -/
def State.blockJudged (s : State) (n : Nat) (b : BlockSt) : State :=
  match blockWhole b.payloads with
  | some (fixed, ps) => if b.rung = 0 ∧ fixed = none then s.deliverBlock n b ps else s.blockRecovered n b b.rung ps
  | none => s.climb n { b with ok := [], failed := List.range 18, data := [] }

/-- A frame of a block has converged or failed its pass; with all eighteen known the block is judged, and on a rung a frame still
failed may converge (R198 to R200, R212). -/
def State.frameJudged (s : State) (n frame : Nat) (ok : Bool) (payload : List Byte) : State :=
  match s.frameIn n frame with
  | none => s
  | some (e, blk, i) =>
    let b := s.blockAt n (e.blockFirst blk)
    let got : BlockSt := { b with ok := b.ok ++ [i], data := b.data ++ [(i, payload)], failed := b.failed.filter fun x => x != i }
    if b.rung ≠ 0 then
      if ok = false ∨ b.waits = true ∨ b.failed.contains i = false then s
      else if got.failed.isEmpty then s.blockJudged n got
      else s.putBlock got
    else if b.ok.contains i ∨ b.failed.contains i then s
    else
      let b1 := if ok then got else { b with failed := b.failed ++ [i] }
      if b1.ok.length + b1.failed.length < 18 then s.putBlock b1
      else if b1.failed.isEmpty then s.blockJudged n b1
      else if b1.failed.length ≤ 2 then s.blockRecovered n b1 0 (blockFilled b1.payloads b1.failed)
      else s.climb n b1

/-- A copy of a commit record that a read comes across gives the rewrite table of its extent (R183). -/
def State.noteRecord (s : State) (n frame : Nat) (payload : List Byte) : State :=
  match (s.jobEnts n).find? fun e => s.hereAddr n e.hdr && decide (0 < e.tail) && e.moved.isEmpty &&
      decide (addrFrame e.hdr + 1154 + e.tail ≤ frame) && decide (frame < addrFrame e.hdr + 1158 + e.tail) with
  | none => s
  | some e =>
    let r := Config.xtsDec (s.sec.domain.getD 0) (frameTweak (frameAddr (n % 2) (addrLayer e.hdr) frame)) payload
    if copyValid 'C' 0x1E0 r then s.mapEnts (fun x => x == e) fun x => { x with moved := recordTail r } else s

/-- A frame that the pickup reads a second time: it is under way, has been judged on its pass, or its block has been delivered
(R201). -/
def State.secondCopy (s : State) (n f : Nat) : Bool :=
  let mine (l : List FrameSt) : Bool := l.any fun x => x.frame == f
  mine (((s.chn.frames.toList.drop (8 * n)).take 8).filterMap id) || mine ((s.chn.queued.toList.drop (4 * n)).take 4).flatten ||
    (match s.frameIn n f with
    | some (e, blk, i) =>
      (s.chn.delivered.any fun d => d.id == e.id && d.hdr == e.hdr && d.block == blk) ||
        (let b := s.blockAt n (e.blockFirst blk)
         if b.rung = 0 then b.ok.contains i || b.failed.contains i else b.waits || !b.failed.contains i)
    | none => false)

/-- While a fifth rung runs on a station, no frame of another block is decoded (R213). -/
def State.servesFrame (s : State) (n f : Nat) : Bool :=
  (s.rungFive (n / 2)).all fun b => (s.frameIn n f).any fun x => x.1.blockFirst x.2.1 == b.first

/-- A frame position is known not to be blank: it lies before the write front or in the spare area in use, or has been found so
(R187). -/
def LayerSt.holds (l : LayerSt) (f : Nat) : Bool :=
  (decide (196608 ≤ f) && decide (f < l.front)) || (decide (l.spareLow ≤ f) && decide (f < 12035044)) || l.marked.contains f

/-- A position found not to be blank beyond the front is remembered (R187). -/
def State.markFrame (s : State) (n f : Nat) : State :=
  match s.discAt n with
  | some slot =>
    let layer := s.get (OPU_LAYER_CUR n)
    let l := s.layerOf slot (n % 2) layer
    if areaOf f = .user ∧ l.holds f = false ∧ s.writesExt n = false then
      s.modLayer slot (n % 2) layer fun y => { y with marked := y.marked ++ [f] }
    else s
  | none => s

/-- The position that pickup `n` reads is known not to be blank. -/
def State.heldFrame (s : State) (n f : Nat) : Bool :=
  (s.discAt n).any fun slot => (s.layerOf slot (n % 2) (s.get (OPU_LAYER_CUR n))).holds f

/-- A frame goes to a free LDPC engine of its spot, or waits for one (R190). -/
def State.loadEngine (s : State) (k : Nat) (f : FrameSt) : State :=
  let free (e : Nat) : Bool := ((s.chn.frames[2 * k + e]?).getD none).isNone
  s.modChn fun c =>
    if free 0 then { c with frames := c.frames.setIfInBounds (2 * k) (some f) }
    else if free 1 then { c with frames := c.frames.setIfInBounds (2 * k + 1) (some f) }
    else { c with queued := c.queued.setIfInBounds k ((c.queued[k]?).getD [] ++ [f]) }

/-- An engine is free: the frame that has waited longest for one of its spot takes it. -/
def State.freeEngine (s : State) (k e : Nat) : State :=
  s.modChn fun c => match (c.queued[k]?).getD [] with
    | [] => { c with frames := c.frames.setIfInBounds (2 * k + e) none }
    | f :: rest => { c with frames := c.frames.setIfInBounds (2 * k + e) (some { f with at_ := s.tick }), queued := c.queued.setIfInBounds k rest }

/-- FRAME_RECEIVED (R187 to R195, R201): a spot that decodes takes in its samples and searches the marks and the seed, and the first
attempt starts; a frame during which the gate was closed has failed this pass, one without either mark counts as erased, and a
second copy is discarded. -/
def execFrameReceived (k : Fin 16) (frame : BitVec 24) (r : FrameRead) (s : State) : Out :=
  let n := k.val / 4
  let f := frame.toNat
  let whole := s.readGate k && ((s.chn.gateAt[k.val]?).getD none).any fun g => decide (g + r.age.toNat ≤ s.tick)
  let blank := decide (r.env.toNat < 20) && !s.heldFrame n f
  let s1 := s.set (CHN_SPOT_STAT_ZONE k) (zoneOf f)
  if !s.decodes k || !s.servesFrame n f then .next s1
  else if s.secondCopy n f then .next s1
  else if !whole then .next ((s1.addSat (CHN_FRM_CNT_1_FAILED k) 1).frameJudged n f false [])
  else
    let s2 := (s1.setFlag (CHN_SPOT_STAT_BLANK k) blank).buffer k f r
    if blank then .next s2
    else
      let s3 := (s2.markFrame n f).adapt k f
      let win := s.get (CHN_SYNC_CFG_WIN k)
      let a := s.candidatesOf k (markScores r.bits syncMarkA 160 win)
      let b := s.candidatesOf k (markScores r.bits syncMarkB 27856 win)
      let seed := bestSeed (seedScores r.bits)
      let s4 := (((((s3.setReg (CHN_SYNC_LAST k) 0).setFlag (CHN_SYNC_LAST_A_MISS k) a.isEmpty).setFlag (CHN_SYNC_LAST_B_MISS k)
        b.isEmpty).when a.isEmpty fun t => t.addSat (CHN_FRM_CNT_2_A_MISS k) 1)).when b.isEmpty fun t =>
          t.addSat (CHN_FRM_CNT_2_B_MISS k) 1
      match firstFraming a b with
      | none => .next ((s4.addSat (CHN_FRM_CNT_3_ERASED k) 1).frameJudged n f false [])
      | some g =>
        let fs : FrameSt := { frame := f, candA := a, candB := b, seed := seed.getD 0, trySeeds := seed.isNone, tried := [g], at_ := s.tick + 1 }
        .next (((s4.setFlag (CHN_SYNC_LAST_INCONS k) (g.a != g.b)).showFraming k g).loadEngine k fs)

/-- The attempt that follows a failed one of a frame (R191, R196): the next seed where none was recognised, else a further framing
once a failure was framing-suspect or on the fourth rung; none when the frame has failed its pass (R197). -/
def FrameSt.next (f : FrameSt) (suspect : Bool) : Option FrameSt :=
  if f.trySeeds ∧ f.seed < 3 then some { f with seed := f.seed + 1, attempts := f.attempts + 1, suspect := suspect }
  else if suspect = true ∧ f.extra < 3 then
    ((framings f.candA f.candB).find? fun g => !(f.tried.any fun h => h.a == g.a && h.b == g.b)).map fun g =>
      { f with tried := g :: f.tried, attempts := f.attempts + 1, extra := f.extra + 1, suspect := suspect, seed := if f.trySeeds then 0 else f.seed }
  else none

/-- A frame that is read again on the fourth rung of its block (R212). -/
def State.onFourth (s : State) (n f : Nat) : Bool :=
  (s.frameIn n f).any fun x => (s.blockAt n (x.1.blockFirst x.2.1)).rung == 4

/-- LDPC_ATTEMPT_DONE (R190, R191, R196 to R200): an attempt ends when its engine has been held for the loading and its
iterations; a converged frame goes to its block, and after a failure the next attempt starts or the frame has failed its pass. -/
def execLdpcAttemptDone (k : Fin 16) (e : Fin 2) (r : LdpcResult) (s : State) : Out :=
  match (s.chn.frames[2 * k.val + e.val]?).getD none with
  | none => .next s
  | some f =>
    let n := k.val / 4
    let max := s.get (CHN_LDPC_CFG_ITER_MAX k)
    let ok := r.ok && decide (r.iter.toNat ≤ max) && !f.broken
    let iter := if ok then r.iter.toNat else max
    let s1 := (((s.set (CHN_LDPC_LAST_FLIPS k) r.flips.toNat).set (CHN_LDPC_LAST_SEED k) f.seed).set (CHN_LDPC_LAST_ATTEMPTS k)
      (min 7 f.attempts)).set (CHN_LDPC_LAST_ITER k) iter
    if s.tick < f.at_ + 1 + iter then .next s
    else if ok then
      let s2 := (((s1.freeEngine k e).incWrap (CHN_FRM_CNT_0_OK k)).set (CHN_SPOT_STAT_FRAME k) f.frame).when (decide (0 < f.extra))
        fun t => (t.addSat (CHN_FRM_CNT_1_REFRAMED k) 1).set (CHN_SYNC_LAST_REFRAMED k) 1
      .next ((s2.noteRecord n f.frame r.payload).frameJudged n f.frame true r.payload)
    else
      let suspect := f.suspect || decide (s.get (CHN_SYNC_CFG_FRM_SUSP k) * 4096 < r.unsat.toNat * 100) || s.onFourth n f.frame
      match f.next suspect with
      | some g =>
        .next ((s1.when (decide (f.extra < g.extra)) fun t => t.showFraming k (g.tried.headD { a := 0, b := 0, sa := 0, sb := 0 })).modChn fun c =>
          { c with frames := c.frames.setIfInBounds (2 * k.val + e.val) (some { g with at_ := s.tick, broken := false }) })
      | none => .next (((s1.freeEngine k e).addSat (CHN_FRM_CNT_1_FAILED k) 1).frameJudged n f.frame false [])

/-- The revolutions of a rung (Table: Recovery ladder). -/
def rungTurns (r : Nat) : Nat := if r = 2 then 3 else if r = 4 then 1 else 2

/-- LADDER_RUNG_DONE (R212 to R215): the revolutions of a rung have passed; a block with frames still failed climbs. -/
def execLadderRungDone (n : Fin 4) (first : BitVec 24) (s : State) : Out :=
  match s.chn.blocks.find? fun b => b.pu == n.val && b.first == first.toNat && decide (0 < b.rung) && !b.waits &&
      decide (rungTurns b.rung ≤ b.revs) with
  | none => .next s
  | some b => .next (if b.failed.isEmpty then s.blockJudged n b else s.climb n b)

/-- RELOCATION_WRITE (R216, R217): at a write session on the side a recovered block goes to the highest free 18 frames of
its layer's spare area, or of the next layer with room; its record is queued and the map follows. -/
def execRelocationWrite (n : Fin 4) (s : State) : Out :=
  let session := s.flag (OPU_STAT_WRITE_MODE n) && s.puState n == puTracking && ((s.chn.ext[n.val]?).getD none).isNone
  match s.discAt n, s.chn.reloc.find? fun r => some r.slot == s.discAt n && r.side == n.val % 2 with
  | some slot, some r =>
    if !session then .next s
    else
      let fits (l : Nat) : Bool := let y := s.layerOf slot r.side l; decide (y.front + 18 ≤ y.spareRun)
      let done := s.modChn fun c => { c with reloc := c.reloc.erase r }
      let s1 := done.set CHN_RELOC_PENDING done.chn.reloc.length
      let s2 := if fits r.layer then s1 else s1.chnFault (n.val / 2) 5 (32 * r.side + r.layer)
      match (List.range 24).find? fun i => fits ((r.layer + i) % 24) with
      | none => .next s2
      | some i =>
        let l := (r.layer + i) % 24
        let at_ := (s.layerOf slot r.side l).spareRun - 18
        let addr := frameAddr r.side l at_
        let s3 := (s2.modLayer slot r.side l fun y => { y with spareLow := at_ }).incWrap CHN_RELOC_DONE
        let s4 := s3.enterMove (fun e => e.id == r.id && e.hdr == r.hdr && e.slot == slot) r.block addr
        .next ((s4.pendRecord slot r.side r.layer
          { type := 3, id := r.id, hdr := r.hdr, block := r.block, addr := addr }).showFree slot)
  | _, _ => .next s

/-! ### Writing (R203 to R211) -/

def State.modExt (s : State) (n : Nat) (x : Option ExtSt) : State := s.modChn fun c => { c with ext := c.ext.setIfInBounds n x }

/-- What is to be written of a unit: length, flags, REPL, the bytes, and the peer it is for. -/
structure UnitData where
  len : Nat
  flags : Nat
  repl : Nat
  data : List Byte
  peer : Option (Nat × Nat)
deriving DecidableEq, Repr

/-- The data of a unit to be written is in the write buffer: fetched from the host, or received from a peer. -/
def State.unitData (s : State) (id : UnitId) : Option UnitData :=
  match s.plc.units.find? fun u => u.id == id && u.got == u.len && u.atts.any fun a => a.dev == s.self && a.st == .running with
  | some u => some { len := u.len, flags := u.flags, repl := u.atts.length - 1 + 16 * u.reps, data := u.data, peer := none }
  | none =>
    match s.plc.held.find? fun h => h.id == id && decide (0 < h.total) && h.segs.length == h.total with
    | some h => some { len := h.len, flags := h.flags, repl := h.repl, data := joinParts h.total h.parts, peer := some (h.src, h.xid) }
    | none => none

/-- A copy of this device is not started or is aborted: its issuer, this device or a peer, learns that it has failed (R203,
R209, R308). -/
def State.copyLost (s : State) (id : UnitId) (peer : Option (Nat × Nat)) (reason : Nat) : State :=
  match peer with
  | some (d, xid) =>
    (s.tell d pmFailed xid [reason]).modPlc fun p => { p with held := p.held.filter fun h => !(h.src == d && h.xid == xid) }
  | none => s.copyFailed s.self fun u => u.id == id

/-- The side's next extent sequence number (Table: Extent header). -/
def State.extSeq (s : State) (slot side : Nat) : Nat := match s.plc.extSeq.find? fun e => e.1 == slot && e.2.1 == side with
  | some e => e.2.2
  | none => 0

def State.setExtSeq (s : State) (slot side v : Nat) : State :=
  s.modPlc fun p => { p with extSeq := (p.extSeq.filter fun e => !(e.1 == slot && e.2.1 == side)) ++ [(slot, side, v)] }

/-- The write strategy of a layer is valid for the loaded disc (R220). -/
def State.wsValid (s : State) (n layer : Nat) : Bool := ((s.chn.wsValid[n]?).getD []).contains layer

/-- The tenant's newest key generation held. -/
def State.keyGen (s : State) (t : Nat) : Nat := ((s.sec.keys.filter fun k => k.tenant == t).map fun k => k.gen).foldl max 0

/-- The extent that starts at a frame of a layer with a unit's data: the ciphertext under its tenant's newest key, the parity over it,
and the digest (R179, R181, R211). -/
def State.newExt (s : State) (slot side layer at_ : Nat) (id : UnitId) (d : UnitData) : ExtSt :=
  let seq := s.extSeq slot side + 1
  let hdr := frameAddr side layer at_
  let gen := s.keyGen id.tenant
  let frames := cipherFrames (s.tenantKey id.tenant (gen % 16)) hdr seq d.data
  { id := id, slot := slot, side := side, layer := layer, hdr := hdr, seq := seq, len := d.len, flags := d.flags, repl := d.repl, peer := d.peer, cipher := blocksWithParity 64 frames, digest := dataDigest frames, keyGen := gen }

/-- EXTENT_WRITE_START (R187, R203, R205): the holder's next unit on the side starts at its layer's write front, which must
have been located; before the first write to a layer OPC runs; without room, or on a layer that is not writable, the unit takes a
new target or its copy fails. -/
def execExtentWriteStart (n : Fin 4) (s : State) : Out :=
  let st := n.val / 2
  let side := n.val % 2
  let free := !s.writesExt n && ((s.chn.opc[n.val]?).getD none).isNone
  let ready := s.flag (OPU_STAT_WRITE_READY n) && s.flag (OPU_STAT_WRITE_MODE n) && s.puState n == puTracking
  match (s.arbOf st).job, s.discAt n with
  | some j, some slot =>
    match j.units.find? fun u => u.side == side with
    | none => .next s
    | some u =>
      let l := s.layerOf slot side u.layer
      match s.unitData u.id with
      | none => .next s
      | some d =>
        if !j.write || !free || j.slot != some slot || s.get (OPU_LAYER_CUR n) != u.layer then .next s
        else if l.unwritable || !s.hasRoom l n then
          let s1 := s.dropUnit u.id true j.cmd
          match s1.bestTarget u.id with
          | some x => .next (s1.enqueue j.kind j.tenant j.cmd x.station x.slot true (s1.writeUnit u.id x))
          | none => .next ((s1.copyLost u.id d.peer rfNoSpace).settle)
        else if !l.found || !ready then .next s
        else if !l.opcDone then
          .next ((s.modChn fun c => { c with opc := c.opc.setIfInBounds n (some u.layer) }).setReg (CHN_OPC_STAT n) 0)
        else
          let at_ := l.blankRun (s.roomNeeded n)
          let x := s.newExt slot side u.layer at_ u.id d
          .next ((((((((s.modExt n (some x)).setExtSeq slot side x.seq).set (CHN_WR_STAT_ACTIVE n) 1).set (CHN_WR_STAT_TAIL n) 0).set
            (CHN_WR_STAT_FRONT n) at_).setFlag (CHN_WR_STAT_WS_VALID n) (s.wsValid n u.layer)).set (OPU_STAT_GATE n) 1).modPu n
            fun k => { k with rewriteMark := false })
  | _, _ => .next s

/-- The frame position after the last that the encoder has written of an extent (R209, R210). -/
def ExtSt.nextPos (x : ExtSt) : Nat := addrFrame x.hdr + x.at_ + (if x.left = 0 then x.copies else 0)

/-- The logical frame at the position that is judged next: the run of 1,154 frames, then the rewrite tail (R207, R208). -/
def ExtSt.frameAt (x : ExtSt) : Nat := if x.at_ < 1154 then x.at_ else nth x.tail (x.at_ - 1154) 0

/-- An extent ends: the encoder rests, the gate is down, the write front stands after the record, and the unit leaves its job. -/
def State.extEnd (s : State) (n : Nat) (x : ExtSt) (front : Nat) : State :=
  let s1 := ((((s.modExt n none).set (CHN_WR_STAT_ACTIVE n) 0).set (CHN_WR_STAT_FRONT n) front).set (OPU_STAT_GATE n) 0).modLayer
    x.slot x.side x.layer fun l => { l with front := front, prev := some x.hdr }
  let s2 := { s1 with arb := { s1.arb with jobs := s1.arb.jobs.map fun (j : Job) => if j.write then { j with units := j.units.filter fun u => u.id != x.id } else j } }
  (s2.modArb (n / 2) fun a => { a with job := a.job.map fun (j : Job) => if j.write then { j with units := j.units.filter fun u => u.id != x.id } else j }).showFree x.slot

/-- The extent is stopped with an abort record in two copies at the next position (R209, R210): counted, reported, DEAD, and handed
back. -/
def State.extAbort (s : State) (n : Nat) (x : ExtSt) : State :=
  let front := x.nextPos + 2
  let s1 := (((s.extEnd n x front).addSat (CHN_EXT_CNT_ABORTED n) 1).raise (0x030 + n) 1 n).slotCounts x.slot 0 1
  let s2 := s1.pendRecord x.slot x.side x.layer
    { type := 2, id := x.id, hdr := x.hdr, frames := front - addrFrame x.hdr, seq := x.seq, len := x.len, flags := x.flags, repl := x.repl, digest := x.digest }
  if x.doomed then s2 else s2.copyLost x.id x.peer 0x0A

/-- The extent is committed (R182, R210, R312): it enters the map, an earlier copy of the same unit here is dead, its
record is queued, and its issuer learns of the copy. -/
def State.extCommit (s : State) (n : Nat) (x : ExtSt) : State :=
  let s1 := ((s.extEnd n x x.nextPos).incWrap (CHN_EXT_CNT_COMMITTED n)).modLayer x.slot x.side x.layer fun l => { l with exts := l.exts + 1 }
  let s2 := s1.mapEnts (fun e => e.id == x.id && e.live) fun e => { e with dead := true }
  let ptp := if s.flag TICK_STAT_PTP_VALID then s.ce.ptpSec % 2 ^ 32 else 0
  let s3 := s2.enterUnit
    { id := x.id, hdr := x.hdr, state := 3, slot := x.slot, repl := x.repl, len := x.len, flags := x.flags % 4 + (if x.tail.isEmpty then 0 else 4), keyGen := x.keyGen % 16, ptp := ptp, tail := x.tail.length, moved := x.moves, seq := x.seq }
  let s4 := s3.pendRecord x.slot x.side x.layer
    { type := 1, id := x.id, hdr := x.hdr, frames := 1154 + x.tail.length + x.copies, seq := x.seq, len := x.len, flags := x.flags, repl := x.repl, digest := x.digest }
  match x.peer with
  | some (d, xid) =>
    (s4.tell d pmCommitted xid [x.hdr, x.copies]).modPlc fun p => { p with held := p.held.filter fun h => !(h.src == d && h.xid == xid) }
  | none => s4.copyDone s.self fun u => u.id == x.id

/-- What read spot 0 measures of a written frame passes (R207): its marks, its decoder and its bits. -/
def State.checkFrame (s : State) (n : Nat) (r : FrameCheck) : Bool :=
  decide (s.get (CHN_VER_CFG_VER_SYNC n) ≤ r.scoreA.toNat) && decide (s.get (CHN_VER_CFG_VER_SYNC n) ≤ r.scoreB.toNat) &&
    r.converged && decide (r.iter.toNat ≤ s.get (CHN_VER_CFG_VER_ITER n)) && decide (r.errors.toNat ≤ s.get (CHN_VER_CFG_VER_ERR n))

/-- A written frame passes verification (R207): it reads as written, and the write gate stayed up for all of it, that is, it ended
before a drop that has not been judged yet. -/
def State.checkOk (s : State) (n : Nat) (r : FrameCheck) : Bool :=
  s.checkFrame n r && (((s.puOf n).rewriteMark == false && s.flag (OPU_STAT_GATE n)) || decide (s.tick < (s.puOf n).dropAt + r.late.toNat))

/-- A position that failed while the gate is up again ends what its last drop cost (R154, R208). -/
def State.clearMark (s : State) (n : Nat) (ok : Bool) : State :=
  if ok = false ∧ s.flag (OPU_STAT_GATE n) = true then s.modPu n fun k => { k with rewriteMark := false } else s

/-- VERIFY_VERDICT (R207 to R209): a frame that passed is counted; one that failed, or during which the gate was down, is
queued for the rewrite tail, or stops the extent beyond REWR_MAX. -/
def execVerifyVerdict (n : Fin 4) (frame : BitVec 11) (r : FrameCheck) (s : State) : Out :=
  match (s.chn.ext[n.val]?).getD none with
  | none => .next s
  | some x =>
    if x.left = 0 ∨ frame.toNat ≠ x.frameAt then .next s
    else if x.doomed then .next (s.extAbort n x).settle
    else
      let ok := s.checkOk n r
      let s1 := s.clearMark n ok
      let y := { x with at_ := x.at_ + 1 }
      if ok then
        let left := x.left - 1
        .next ((s1.modExt n (some { y with left := left, copies := if left = 0 then 2 else 0 })).incWrap (CHN_VER_CNT_PASSED n))
      else
        let s2 := s1.addSat (CHN_VER_CNT_FAILED n) 1
        let tail := x.tail ++ [frame.toNat]
        if s.get (CHN_WR_CTL_REWR_MAX n) < tail.length then .next (s2.extAbort n y).settle
        else .next ((s2.modExt n (some { y with tail := tail })).set (CHN_WR_STAT_TAIL n) tail.length)

/-- COMMIT_RECORD_VERDICT (R210): a further copy follows one that failed, up to four; with every copy judged the extent is
committed by one that passed, or closed with an abort record. -/
def execCommitRecordVerdict (n : Fin 4) (r : FrameCheck) (s : State) : Out :=
  match (s.chn.ext[n.val]?).getD none with
  | none => .next s
  | some x =>
    if x.left ≠ 0 then .next s
    else
      let ok := s.checkOk n r
      let s1 := s.clearMark n ok
      let x1 := { x with judged := x.judged + 1, passed := x.passed + (if ok then 1 else 0), copies := if ok then x.copies else min 4 (x.copies + 1) }
      if x1.judged < x1.copies then .next (s1.modExt n (some x1))
      else if 0 < x1.passed ∧ x1.doomed = false then .next (s1.extCommit n x1).settle
      else .next (s1.extAbort n x1).settle

/-! ### Power calibration (R205, R206) -/

/-- A power of CHN_WS_L scaled by a step's factor, 75% to 125%. -/
def scaled (v step : Nat) : Nat := min 65535 (v * (75 + 5 * step) / 100)

/-- The step with the fewest raw bit errors of the eleven, the first of equals (R205). -/
def bestStep (errors : List (BitVec 16)) : Nat :=
  (List.range 11).foldl (fun k j => if (nth errors j 0xFFFF).toNat < (nth errors k 0xFFFF).toNat then j else k) 0

/-- OPC_DONE (R205, R206): PW, PB and PC are scaled by the chosen step's factor, or the run has failed and the layer is not
writable; without a blank turn of the power calibration area the strategy held is used. -/
def execOpcDone (n : Fin 4) (errors : List (BitVec 16)) (area : Bool) (control : List Byte) (s : State) : Out :=
  match (s.chn.opc[n.val]?).getD none, s.discAt n with
  | some l, some slot =>
    let side := n.val % 2
    let arg := 32 * side + l
    let rest := s.modChn fun c => { c with opc := c.opc.setIfInBounds n none }
    let ran (t : State) : State := t.modLayer slot side l fun y => { y with opcDone := true, pca := y.pca + 1 }
    let valid (t : State) : State := (t.modChn fun c =>
      { c with wsValid := c.wsValid.setIfInBounds n (l :: (((c.wsValid[n.val]?).getD []).filter fun x => x != l)) }).set (CHN_WR_STAT_WS_VALID n) 1
    if !area then .next ((rest.chnFault (n.val / 2) 4 arg).modLayer slot side l fun y => { y with opcDone := true })
    else
      let k := bestStep errors
      let best := (nth errors k 0xFFFF).toNat
      let fail := decide (1000 < best) || k == 0 || k == 10
      let shown := ((((rest.set (CHN_OPC_STAT_RES n) 1).setFlag (CHN_OPC_STAT_FAILED n) fail).set (CHN_OPC_STAT_LAYER n) l).set
        (CHN_OPC_STAT_STEP n) k).set (CHN_OPC_STAT_ERRORS n) best
      if fail then
        .next ((ran (shown.chnFault (n.val / 2) 3 arg)).modLayer slot side l fun y => { y with unwritable := true })
      else
        let base := if s.wsValid n l then shown
          else (List.range 4).foldl (fun (t : State) w => t.setReg (CHN_WS_W0 n l + 4 * w) (controlWord control w)) shown
        .next (valid (ran (((base.set (CHN_WS_W0_PW n l) (scaled (base.get (CHN_WS_W0_PW n l)) k)).set (CHN_WS_W0_PB n l)
          (scaled (base.get (CHN_WS_W0_PB n l)) k)).set (CHN_WS_W1_PC n l) (scaled (base.get (CHN_WS_W1_PC n l)) k))))
  | _, _ => .next s

/-- OPC_ACK (R206): the result is discarded. -/
def execOpcAck (p : Path) (n : Fin 4) (s : State) : Out := .next (s.writeBy p true fun t => t.setReg (CHN_OPC_STAT n) 0)

/-- OPC_STAT_READ (R206): the first read after READY makes the result CONSUMED. -/
def execOpcStatRead (p : Path) (n : Fin 4) (s : State) : Out :=
  .next (s.readBy p false fun t =>
    ([t.reg (CHN_OPC_STAT n)], if t.get (CHN_OPC_STAT_RES n) = 1 then t.set (CHN_OPC_STAT_RES n) 2 else t))

/-! ### The write front and index frames (R184 to R187) -/

/-- An extent that the search passes: its record is queued; committed, it enters the map where it is not there; without a valid
commit record it counts DEAD. -/
def State.enterSearched (s : State) (slot side layer : Nat) (x : FoundExt) : State :=
  let hdr := frameAddr side layer x.hdr
  let seq := fieldAt x.header 0x10 4
  let s1 := (s.pendRecord slot side layer (foundRecord x side layer)).setExtSeq slot side (max (s.extSeq slot side) seq)
  if s.plc.map.any fun e => e.slot == slot && e.hdr == hdr then s1
  else if x.committed then s1.enterUnit (foundEntry x slot side layer 3)
  else s1.slotCounts slot 0 1

/-- WRITE_FRONT_SEARCH (R186): the layer's front is located; committed extents passed enter the map and their records are
queued; an extent without a record is closed with an abort record, counts DEAD and its record is queued. -/
def execWriteFrontSearch (n : Fin 4) (layer : BitVec 5) (reads : List FrameSeen) (s : State) : Out :=
  match s.discAt n with
  | none => .next s
  | some slot =>
    let side := n.val % 2
    let l := layer.toNat
    if 24 ≤ l ∨ s.puState n ≠ puTracking ∨ s.get (OPU_LAYER_CUR n) ≠ l ∨ (s.layerOf slot side l).found = true then .next s
    else
      let r := searchFront true reads (reads.length + 1) (searchFrom reads) []
      let s1 := r.2.foldl (fun (t : State) x => t.enterSearched slot side l x) s
      let live := (r.2.filter fun x => x.committed).length
      .next ((s1.modLayer slot side l fun y =>
        { y with front := r.1, found := true, exts := y.exts + live, prev := (r.2.getLast?.map fun x => frameAddr side l x.hdr).orElse fun _ => y.prev }).showFree slot)

/-- Records that an index frame carries leave the layer: pending entries become live, tombstone work counts the side. -/
def State.indexed (s : State) (slot side : Nat) (l : List IdxRec) : State :=
  l.foldl (fun (t : State) r =>
    if r.type = 1 then t.mapEnts (fun e => e.slot == slot && e.hdr == r.hdr && e.state == 3) fun e => { e with state := 0 }
    else if r.type = 4 then
      t.modPlc fun p => { p with tombJobs := p.tombJobs.map fun j =>
        if j.tomb.tenant = r.id.tenant ∧ j.tomb.key = r.id.key ∧ j.tomb.ver = r.id.ver then { j with left := j.left.erase (slot, side) } else j }
    else t) s

/-- INDEX_FRAME_WRITE (R184, R185): when one is due, up to 31 pending records go into the next index frame of the layer; a frame
that fails verification is written again at the next position with the same IDX_SEQ; a full area raises INDEX_FULL and the frames
go on at the top of the spare area, chained through PREV_IDX. -/
def execIndexFrameWrite (n : Fin 4) (layer : BitVec 5) (r : FrameCheck) (s : State) : Out :=
  match s.discAt n with
  | none => .next s
  | some slot =>
    let side := n.val % 2
    let k := layer.toNat
    let l := s.layerOf slot side k
    if l.pending.isEmpty ∨ 24 ≤ k ∨ l.due = false then .next s
    else
      let ok := s.checkFrame n r
      let full := decide (147072 ≤ l.idxUsed)
      let s1 := if full && !l.idxFull then s.chnFault (n.val / 2) 6 (32 * side + k) else s
      let at_ := l.idxAt
      let rest := l.pending.drop 31
      let put (y : LayerSt) : LayerSt :=
        if ok then { y with idxUsed := y.idxUsed + 1, idxFull := full, spareLow := at_.2, idxSeq := y.idxSeq + 1, idxPrev := some (frameAddr side k at_.1), pending := rest, due := decide (31 ≤ rest.length) }
        else { y with idxUsed := y.idxUsed + 1, idxFull := full, spareLow := at_.2 }
      let s2 := s1.modLayer slot side k put
      .next (if ok then (s2.indexed slot side (l.pending.take 31)).settle else s2)

/-- INDEX_AGE_EXPIRY (R184): the layer's oldest pending record is AGE seconds old, and an index frame is due. -/
def execIndexAgeExpiry (slot : BitVec 5) (side : Fin 2) (layer : BitVec 5) (s : State) : Out :=
  let l := s.layerOf slot.toNat side layer.toNat
  match l.pending.head? with
  | some r =>
    if s.get CHN_IDX_CFG_AGE * 500000 ≤ s.tick - r.at_ then
      .next (s.modLayer slot.toNat side layer.toNat fun y => { y with due := true })
    else .next s
  | none => .next s

end Sys2Proof.Machine
end

