-- ==== Sys2Proof/Machine/RebuildOps.lean ====
section
/-!
DEFINITION. The rebuild of the translation map from the discs, and the recovering phase (07_placement.md: R326 to R328;
01_architecture.md: R46 to R50).
-/

namespace Sys2Proof.Machine

open Sys2Proof

def State.slotState (s : State) (k : Nat) : Nat := s.get (PLC_SLOT_W0_STATE k)

/-- Badger has found a slot empty: MAG_INV knows it without a disc, and its disc is in no station and not in the gripper. -/
def State.foundEmpty (s : State) (k : Nat) : Bool :=
  (s.get MAG_INV_KNOWN_KNOWN).testBit k && !(s.get MAG_INV_PRES_PRES).testBit k && (s.stationOf k).isNone && s.mag.held != some k

/-- A slot cannot be reached (R328). -/
def State.unreachable (s : State) (k : Nat) : Bool := match s.stationOf k with
  | some st => s.goneForGood st
  | none => s.magState == mgUnusable || (s.goneForGood 0 && s.goneForGood 1)

/-- A slot is settled with a state; its rebuild job leaves. -/
def State.settleSlot (s : State) (k state : Nat) : State :=
  ((s.set (PLC_SLOT_W0_STATE k) state).dropJobs fun j => j.kind == .rebuild && j.slot == some k).showFree k

/-- REBUILT counts the settled slots; one found empty or out of reach settles without a rebuild. -/
def State.rebuildTick (s : State) : State :=
  if s.flag SYS_STAT_RECOVERING then
    let s1 := (List.range 24).foldl (fun (t : State) k =>
      if t.slotState k ≠ 0 then t
      else if t.foundEmpty k then t.settleSlot k 5
      else if t.unreachable k then t.settleSlot k 7
      else t) s
    s1.set SYS_STAT_REBUILT ((List.range 24).filter fun k => s1.slotState k != 0).length
  else s

/-- A rebuild job of a slot on a station. -/
def State.rebuildJob (s : State) (slot st : Nat) : State :=
  s.addJob
    { id := 0, kind := .rebuild, tenant := 0, cls := s.houseClass .rebuild, at_ := s.tick, station := st, slot := some slot, write := false }

/-- The recovering phase opens: the map is empty, and every disc is to be read, those in the stations first, then the rest
in rising slot order, the stations taking turns (R326). -/
def State.startRebuild (s : State) : State :=
  let s1 := s.modPlc fun p => { p with map := [], tombs := [], layers := [], extSeq := [], rebuildFails := [] }
  let s2 := (List.range 24).foldl (fun (t : State) k =>
    ((((t.set (PLC_SLOT_W0_STATE k) 0).set (PLC_SLOT_W1_FREE k) 0).set (PLC_SLOT_W2_LIVE k) 0).set (PLC_SLOT_W3_DEAD k) 0)) s1
  let s3 := ((s2.mapUsed).set SYS_STAT_RECOVERING 1).set SYS_STAT_REBUILT 0
  let here := (List.range 24).filter fun k => (s3.stationOf k).isSome
  let rest := (List.range 24).filter fun k => (s3.stationOf k).isNone
  let can := (List.range 2).filter fun st => s3.inService st && s3.calOk st
  let s4 := here.foldl (fun (t : State) k => t.rebuildJob k ((t.stationOf k).getD 0)) s3
  (rest.zip (List.range 24)).foldl (fun (t : State) k => t.rebuildJob k.1 (nth can (k.2 % max 1 can.length) 0)) s4

/-- A committed extent found on a disc enters the map. Of several copies of one unit the sealing copy is kept, else the one
of the later PTP_SEC, else the one of the lower slot and side (R326). -/
def State.enterFound (s : State) (e : MapEnt) : State :=
  let better (a b : MapEnt) : Bool :=
    if a.flags.testBit 1 ≠ b.flags.testBit 1 then a.flags.testBit 1
    else if a.ptp ≠ b.ptp then decide (b.ptp < a.ptp)
    else decide (2 * a.slot + addrSide a.hdr < 2 * b.slot + addrSide b.hdr)
  match s.plc.map.find? fun o => o.id == e.id && !o.dead with
  | none => s.enterUnit e
  | some o =>
    if better e o then (s.mapEnts (fun y => y == o) fun y => { y with dead := true }).enterUnit e
    else s.enterUnit { e with dead := true }

/-- The tombstones and supersessions of the rebuild are applied (R326). -/
def State.applyRebuilt (s : State) : State :=
  let s1 := s.plc.tombs.foldl (fun (t : State) b => t.mapEnts (fun e => b.covers e && e.live) fun e => { e with state := 2 }) s
  ((s1.plc.map.map fun e => (e.id.tenant, e.id.key)).dedup).foldl (fun (t : State) k => t.supersede k.1 k.2) s1

/-- A rebuild attempt has failed: the second makes the slot unreadable, the first is tried again (R328). -/
def State.rebuildFailed (s : State) (slot st : Nat) : State :=
  let s1 := s.modPlc fun p => { p with rebuildFails := p.rebuildFails ++ [slot] }
  if 2 ≤ (s1.plc.rebuildFails.filter fun k => k == slot).length then s1.settleSlot slot 6
  else s1.rebuildJob slot st

/-- The relocations that the records of a disc state (TYPE 0x03). -/
def State.enterReloc (s : State) (slot : Nat) (r : List Byte) : State :=
  s.enterMove (fun e => e.slot == slot && e.hdr == fieldAt r 4 4) (fieldAt r 0x48 1) (fieldAt r 0x4C 4)

/-- A tombstone record (R329, R330): FLAGS bit 2 makes it a tenant's, whose key generation UNIT gives. -/
def State.enterTomb (s : State) (r : List Byte) : State :=
  let u := recordUnit r
  let whole := (fieldAt r 0x24 1).testBit 2
  let b : Tomb := { tenant := u.tenant, key := u.key, ver := u.ver, whole := whole, keyGen := if whole then u.unit else 0 }
  if s.plc.tombs.contains b then s
  else if 262144 ≤ s.plc.tombs.length then s.plcFault 4 4
  else s.modPlc fun p => { p with tombs := p.tombs ++ [b] }

/-- The side's extent sequence goes on above a number found. -/
def State.seenSeq (s : State) (slot side seq : Nat) : State :=
  s.modPlc fun p => { p with extSeq := (p.extSeq.filter fun e => !(e.1 == slot && e.2.1 == side)) ++
    [(slot, side, max seq (((p.extSeq.find? fun e => e.1 == slot && e.2.1 == side).map fun e => e.2.2).getD 0))] }

/-- The records of a layer's index frames. -/
def layerRecords (r : LayerSeen) : List (List Byte) := (idxKept r.reads).flatMap idxRecords

/-- What a layer's index frames and the read-only search from their front give (R326): extents committed by a record or passed by
the search, extents aborted by a record, and where the layer's index and write front stand. -/
def State.enterLayer (s : State) (slot : Nat) (r : LayerSeen) : State :=
  let side := r.side.val
  let layer := r.layer.toNat
  let recs := layerRecords r
  let found := searchFront false r.reads (r.reads.length + 1) (searchFrom r.reads) []
  let known := (recs.filter fun x => fieldAt x 0 1 == 1).map fun x => recordEntry x slot
  let more := ((found.2.filter fun x => x.committed).map fun x => foundEntry x slot side layer 0).filter fun e =>
    !(known.any fun k => k.hdr == e.hdr)
  let s1 := (known ++ more).foldl (fun (t : State) e => (t.enterFound e).seenSeq slot side e.seq) s
  let s2 := (recs.filter fun x => fieldAt x 0 1 == 2).foldl (fun (t : State) x =>
    (t.slotCounts slot 0 1).seenSeq slot side (fieldAt x 0xC 4)) s1
  let best := idxBest r.reads
  let low := best.bind fun x => if fieldAt x.payload 0x10 4 = 0xFFFFFFFF then none else some (addrFrame (fieldAt x.payload 0x10 4))
  let extra := ((idxFrames r.reads).filter fun x => decide (196608 ≤ x.frame.toNat)).length
  s2.modLayer slot side layer fun l =>
    { l with front := found.1, spareLow := low.getD l.spareLow, idxSeq := (best.map idxSeqOf).getD 0, idxUsed := idxPositions r.reads + extra, idxPrev := best.map fun x => frameAddr side layer x.frame.toNat, exts := (known ++ more).length, prev := ((known ++ more).getLast?).map fun e => e.hdr }

/-- The disc's index frames carry another DOMAIN_ID (R327). -/
def State.foreignDisc (s : State) (r : DiscFound) : Bool :=
  r.layers.any fun l => (idxKept l.reads).any fun x => fieldAt x.payload 0x18 8 != s.domainId.toNat

/-- What the index bands and the search of a disc gave is entered (R326, R327). -/
def State.enterDisc (s : State) (slot : Nat) (r : DiscFound) : State :=
  let recs (k : Nat) : List (List Byte) := (r.layers.flatMap layerRecords).filter fun x => fieldAt x 0 1 == k
  let s1 := r.layers.foldl (fun (t : State) l => t.enterLayer slot l) s
  let s2 := (recs 3).foldl (fun (t : State) x => t.enterReloc slot x) s1
  let s3 := (recs 4).foldl State.enterTomb s2
  r.lost.foldl (fun (t : State) u =>
    t.deferError u.tenant.toNat { seq := 0, type := 0, key := u.key.toNat, ver := u.ver.toNat, unit := u.unit.toNat }) s3

end Sys2Proof.Machine
end

