-- ==== Sys2Proof/Machine/Placement.lean ====
section
/-!
DEFINITION. The meanings of the placement commands: placing units, peer messages and their time-outs, the rebuild and
migration (07_placement.md).
DEDUCED (notes/assumptions/30.md, unsafe): Placement: peers act in SERVE and DRAIN only, tombstones are accepted in SERVE only, READ_REQ in DRAIN is NACKed, an unanswered TOMB counts as missed when the peer goes DOWN.
-/

namespace Sys2Proof.Machine

open Sys2Proof

/-! ### Peer messages (R315, R318 to R320) -/

/-- A map seen from a peer is recorded (R315). -/
def State.seenMap (s : State) (h : PeerHdr) : State :=
  if s.get PLC_DM_SEEN_EPOCH ≤ h.epoch.toNat then
    ((((s.set PLC_DM_SEEN_EPOCH h.epoch.toNat).set PLC_DM_SEEN_TAG_TAG (h.tag.toNat % 2 ^ 23)).set PLC_DM_SEEN_TAG_SRC
      h.src.toNat).set PLC_DM_SEEN_TAG_LO_TAG (h.tag.toNat % 2 ^ 32)).set PLC_DM_SEEN_TAG_HI_TAG (h.tag.toNat / 2 ^ 32)
  else s

/-- What every peer message passes before it is acted on: the tag, the domain, the epoch and the map tag (R315, R318). In
a mode in which the peer protocol does not run it is not acted on (R41). -/
def State.peerIn (s : State) (h : PeerHdr) (act : State → State) : State :=
  let stale (t : State) : State := (t.set PLC_STAT_STALE 1).set PLC_STAT_PLACE_OK 0
  if s.mode ≠ modeServe ∧ s.mode ≠ modeDrain then s
  else if !h.auth then s.addSat PLC_PEER_CNT_BAD_TAG 1
  else if !s.flag PLC_STAT_DM_VALID || h.domain != s.domainId then s.addSat PLC_PEER_CNT_FOREIGN 1
  else if s.get PLC_DM_EPOCH_EPOCH < h.epoch.toNat then
    act ((stale (s.seenMap h)).plcFault 1 (h.epoch.toNat % 65536))
  else if h.epoch.toNat < s.get PLC_DM_EPOCH_EPOCH then
    s.tell h.src.toNat pmNack h.xid.toNat [rfStale, s.get PLC_DM_EPOCH_EPOCH, s.mapTag.toNat]
  else if h.tag ≠ s.mapTag then
    act (((stale (s.seenMap h)).set PLC_STAT_CONFLICT 1).plcFault 2 h.src.toNat)
  else act s

/-- A request: one answered within the last second is answered again with the same reply (R319). -/
def State.peerRequest (s : State) (h : PeerHdr) (act : State → State) : State :=
  s.peerIn h fun t =>
    match t.plc.answered.find? fun a => a.1 == h.src.toNat && a.2.1 == h.xid.toNat && decide (t.tick < a.2.2.2 + 500000) with
    | some a => t.tell a.2.2.1.dst a.2.2.1.type a.2.2.1.xid a.2.2.1.body
    | none => act t

/-! ### Placing a unit (R299 to R310) -/

/-- UNIT_PLACE (R299, R302 to R307, R316): the next unit's candidates are ranked, BID_REQ goes to each, and this device bids
for itself. -/
def execUnitPlace (s : State) : Out := match s.nextToPlace with
  | some u => .next (s.placeUnit u).settle
  | none => .next s

/-- BID_REQ (R304, R305, R316): answered with the best local target and its cost under the policy word sent, or with a
refusal; in DRAIN it is refused (R43). -/
def execBidReq (h : PeerHdr) (u : UnitRef) (policy : BitVec 32) (s : State) : Out :=
  .next (s.peerRequest h fun t =>
    let id := unitRefId u
    match (t.setReg (keyPol id.tenant) policy).bid id with
    | .inr reason =>
      match (if reason = rfNoSpace then t.mapFull else none) with
      | some k => (t.reply h.src.toNat pmBid h.xid.toNat [reason, 0, 0]).plcFault 4 k
      | none => t.reply h.src.toNat pmBid h.xid.toNat [reason, 0, 0]
    | .inl b => match b.target with
      | some x =>
        (t.reply h.src.toNat pmBid h.xid.toNat [0, b.energy, b.start, x.loaded]).modPlc fun p =>
          { p with offers := p.offers ++ [{ src := h.src.toNat, xid := h.xid.toNat, id := id, len := 0, flags := 0, repl := bitsOf policy.toNat 3 0 * 16, target := x }] }
      | none => t)

/-- BID (R306): scored with the others once every device asked has answered. -/
def execBid (h : PeerHdr) (refusal : Option (BitVec 16)) (energy : BitVec 48) (start : BitVec 32) (s : State) : Out :=
  .next (s.peerIn h fun t =>
    match t.plc.units.find? fun u => u.xid == h.xid.toNat && u.asked.contains h.src.toNat with
    | none => t
    | some u =>
      let b : BidRec := { dev := h.src.toNat, energy := energy.toNat, start := start.toNat }
      ((t.modUnit u.n fun x =>
        { x with asked := x.asked.filter fun d => d != h.src.toNat, bids := if refusal.isNone then x.bids ++ [b] else x.bids }).bidsIn
        u.n).settle)

/-- BID_TIMEOUT (R306): bids that have not arrived within PLC_PEER_TMO.BID count as refused. -/
def execBidTimeout (xid : BitVec 32) (s : State) : Out :=
  match s.plc.units.find? fun u => u.xid == xid.toNat && !u.asked.isEmpty with
  | none => .next s
  | some u =>
    if s.tick < u.bidAt + 500 * s.get PLC_PEER_TMO_BID then .next s
    else .next (((s.modUnit u.n fun x => { x with asked := [] }).bidsIn u.n).settle)

/-- AWARD (R308): the offer becomes a unit to be received and written as a peer job; without one it cannot be started. -/
def execAward (h : PeerHdr) (s : State) : Out :=
  .next (s.peerIn h fun t =>
    let mine (o : Incoming) : Bool := o.src == h.src.toNat && o.xid == h.xid.toNat
    if t.plc.held.any mine then t
    else match t.plc.offers.find? mine with
      | none => t.tell h.src.toNat pmFailed h.xid.toNat [rfNoSpace]
      | some o =>
        (t.modPlc fun p => { p with offers := p.offers.filter fun x => !mine x, held := p.held ++ [{ o with progAt := t.tick }] }).enqueue
          .peer o.id.tenant none o.target.station o.target.slot true (t.writeUnit o.id o.target))

/-- DATA_ACK of segments received. -/
def State.ackSegs (s : State) (h : PeerHdr) (seg total : Nat) (segs : List Nat) : State :=
  if segs.length % 64 = 0 ∨ seg + 1 = total ∨ segs.length = total then s.tell h.src.toNat pmDataAck h.xid.toNat segs else s

/-- PEER_DATA (R319): a segment of an awarded unit, of a read asked for, or of a copy read for re-replication; every 64
segments and the last are acknowledged. -/
def execPeerData (h : PeerHdr) (seg total : BitVec 13) (data : List Byte) (len : BitVec 23) (flags : BitVec 8) (s : State) : Out :=
  .next (s.peerIn h fun t =>
    let src := h.src.toNat
    let xid := h.xid.toNat
    let n := seg.toNat
    match t.plc.held.find? fun o => o.src == src && o.xid == xid with
    | some o =>
      let segs := if o.segs.contains n then o.segs else o.segs ++ [n]
      (t.modPlc fun p => { p with held := p.held.map fun x => if x.src = src ∧ x.xid = xid then
        { x with segs := segs, parts := if o.segs.contains n then x.parts else x.parts ++ [(n, data)], total := total.toNat, len := len.toNat, flags := flags.toNat } else x }).ackSegs h n total.toNat segs
    | none =>
      match t.cmd.cmds.findSome? fun c => (c.reads.find? fun r => r.now == some src && r.xid == xid).map fun r => (c, r) with
      | some (c, r) =>
        let new := !r.segs.contains n
        let segs := if new then r.segs ++ [n] else r.segs
        let got := if new then r.got + data.length else r.got
        let t1 := (t.modRead c.id r.unit fun x => { x with segs := segs, got := got, isLast := x.isLast || flags.getLsbD 0 }).ackSegs h n
          total.toNat segs
        if segs.length = total.toNat then (t1.readDelivered c r.unit got).settle else t1
      | none =>
        match t.plc.units.find? fun u => u.rerepl && u.phase == .fetch && u.xid == xid with
        | some u =>
          let segs := if u.used.contains n then u.used else u.used ++ [n]
          let parts := if u.used.contains n then u.parts else u.parts ++ [(n, data)]
          let full := segs.length = total.toNat
          (t.modUnit u.n fun x =>
            { x with used := if full then [] else segs, parts := if full then [] else parts, data := if full then joinParts total.toNat parts else x.data, got := if full then x.len else x.got, phase := if full then .ready else .fetch, cands := if full then [] else x.cands }).ackSegs
            h n total.toNat segs
        | none => t)

/-- DATA_ACK (R319): the segments acknowledged are released. -/
def execDataAck (h : PeerHdr) (segs : List (BitVec 13)) (s : State) : Out :=
  .next (s.peerIn h fun t =>
    t.modPlc fun p =>
      { p with sending := (p.sending.map fun x => if x.dev = h.src.toNat ∧ x.xid = h.xid.toNat then
          { x with segs := x.segs.filter fun n => !(segs.any fun y => y.toNat == n) } else x).filter fun x => !x.segs.isEmpty })

/-- DATA_RETRANSMIT (R319): segments unacknowledged after 1 ms are sent again. -/
def execDataRetransmit (xid : BitVec 32) (s : State) : Out :=
  .next ((s.plc.sending.filter fun x => x.xid == xid.toNat && decide (x.at_ + 500 ≤ s.tick)).foldl (fun (t : State) x =>
    (t.modPlc fun p => { p with sending := p.sending.map fun y => if y.xid = x.xid ∧ y.dev = x.dev then { y with at_ := s.tick } else y }).tell
      x.dev pmData x.xid x.segs) s)

/-- PROGRESS (R308): the attempt's time-out starts again. -/
def execProgress (h : PeerHdr) (s : State) : Out :=
  .next (s.peerIn h fun t =>
    t.modPlc fun p => { p with units := p.units.map fun u => { u with atts := u.atts.map fun a =>
      if a.dev = h.src.toNat ∧ a.xid = h.xid.toNat ∧ a.st = .running then { a with seen := t.tick } else a } })

/-- The unit one of whose attempts has an exchange with a device. -/
def ofXid (dev xid : Nat) (u : UnitSt) : Bool := u.atts.any fun a => a.dev == dev && a.xid == xid

/-- PEER_COMMITTED (R310, R312): the copy counts toward the unit's completion. -/
def execPeerCommitted (h : PeerHdr) (_hdr : BitVec 32) (s : State) : Out :=
  .next (s.peerIn h fun t => (t.copyDone h.src.toNat (ofXid h.src.toNat h.xid.toNat)).settle)

/-- A re-replication's reading fails at one holder: the next is asked, or it ends without a copy (R311). -/
def State.rereplNext (s : State) (u : UnitSt) : State :=
  match u.cands.filter fun d => !s.isDown d with
  | [] => s.rereplFail u
  | d :: l =>
    let (xid, s1) := s.newXid
    (s1.modUnit u.n fun x => { x with xid := xid, cands := l, used := [] }).tell d pmReadReq xid
      [u.id.tenant, u.id.key, u.id.ver, u.id.unit, 0, u.len]

/-- A peer does not serve what an exchange asked of it: an attempt, a read, a bid, a lookup or a tombstone. -/
def State.peerRefused (s : State) (dev xid : Nat) : State :=
  let s1 := s.copyFailed dev (ofXid dev xid)
  let s2 := match s1.cmd.cmds.findSome? fun c => (c.reads.find? fun r => r.now == some dev && r.xid == xid).map fun r => (c, r) with
    | some (c, r) => s1.readFailed c r
    | none => s1
  let s3 := match s2.plc.units.find? fun u => u.rerepl && u.phase == .fetch && u.xid == xid with
    | some u => s2.rereplNext u
    | none => s2
  let s4 := match s3.plc.units.find? fun u => u.xid == xid && u.asked.contains dev with
    | some u => (s3.modUnit u.n fun x => { x with asked := x.asked.filter fun d => d != dev }).bidsIn u.n
    | none => s3
  (s4.cmd.cmds.foldl (fun (t : State) c =>
    if c.asked.contains (dev, xid) then t.modCmd c.id fun x => { x with asked := x.asked.erase (dev, xid), missed := x.missed + 1 } else t)
    s4).settle

/-- PEER_FAILED (R309, R323): the holder's copy or read has failed; from an issuer, the copy under way here is given up
(R402). -/
def execPeerFailed (h : PeerHdr) (_reason : BitVec 16) (s : State) : Out :=
  .next (s.peerIn h fun t =>
    let src := h.src.toNat
    let xid := h.xid.toNat
    match t.plc.held.find? fun o => o.src == src && o.xid == xid with
    | some o =>
      let t1 := (t.modPlc fun p => { p with held := p.held.filter fun x => !(x.src == src && x.xid == xid) }).dropUnit o.id true none
      { t1 with chn := { t1.chn with ext := t1.chn.ext.map fun e => match e with
          | some x => if x.id = o.id ∧ x.peer = some (src, xid) then some { x with doomed := true } else e
          | none => none } }
    | none => t.peerRefused src xid)

/-- PROG_TMO (R308, R320): the attempt counts as failed and the peer is DOWN. -/
def execProgTmo (xid : BitVec 32) (dev : BitVec 9) (s : State) : Out :=
  let d := dev.toNat
  let due (a : Attempt) : Bool :=
    a.dev == d && a.xid == xid.toNat && a.st == .running && decide (a.seen + 500 * s.get PLC_PEER_CFG_PROG_TMO ≤ s.tick)
  if d ≠ s.self ∧ s.plc.units.any (fun u => u.atts.any due) = true then
    .next (((s.peerDown d).copyFailed d (ofXid d xid.toNat)).settle)
  else .next s

/-! ### Reads for peers (R43, R321 to R323) -/

/-- READ_REQ: served from the local copy by a peer job; refused in DRAIN (R43), where the unit is not held, and where the
tenant's key is not loaded. -/
def execReadReq (h : PeerHdr) (u : UnitRef) (start len : BitVec 23) (s : State) : Out :=
  .next (s.peerRequest h fun t =>
    let id := unitRefId u
    let src := h.src.toNat
    let xid := h.xid.toNat
    if t.mode = modeDrain then t.reply src pmNack xid [rfDraining, t.get PLC_DM_EPOCH_EPOCH, t.mapTag.toNat]
    else if t.plc.reads.any fun r => r.src == src && r.xid == xid then t
    else if !t.hasKey id.tenant then t.reply src pmFailed xid [rfNoKey]
    else match t.entOf id with
      | none => t.reply src pmFailed xid [rfNotHeld]
      | some e => match t.whereIs e.slot with
        | none => t.reply src pmFailed xid [rfNotHeld]
        | some (st, _) =>
          (t.modPlc fun p => { p with reads := p.reads ++ [{ src := src, xid := xid, id := id, from_ := start.toNat, len := len.toNat }] }).enqueue
            .peer id.tenant none st e.slot false (readUnit e))

/-- NACK (R315): acted on as a higher epoch, which its header carries; what was asked is not served. -/
def execNack (h : PeerHdr) (_reason : BitVec 16) (s : State) : Out :=
  .next (s.peerIn h fun t => t.peerRefused h.src.toNat h.xid.toNat)

/-- What this device answers to a lookup: held, version, highest sequence for unit 0, E and t of serving it. -/
def State.hintFor (s : State) (u : UnitRef) : List Nat :=
  let t := u.tenant.toNat
  let k := u.key.toNat
  let v := if u.ver = 0 then (s.newest t k).getD 0 else u.ver.toNat
  let seq := (s.ownSeq t k).getD 0
  match (s.entOf { tenant := t, key := k, ver := v, unit := u.unit.toNat }).bind fun e => (s.readCost e e.len) with
  | some (energy, start) => [1, v, seq, energy, start]
  | none => [0, 0, seq, 0, 0]

/-- HINT_REQ (R43, R321, R322): answered in SERVE and in DRAIN. -/
def execHintReq (h : PeerHdr) (asks : List UnitRef) (s : State) : Out :=
  .next (s.peerRequest h fun t => t.reply h.src.toNat pmHint h.xid.toNat ((asks.take 32).flatMap fun u => t.hintFor u))

/-! ### Location searches -/

/-- HINT (R321, R322): an answer of the tier under search; the last one decides it. -/
def execHint (h : PeerHdr) (held : Bool) (ver seq : BitVec 32) (energy : BitVec 48) (start : BitVec 32) (s : State) : Out :=
  .next (s.peerIn h fun t =>
    match t.plc.asks.find? fun a => a.dev == h.src.toNat && a.xid == h.xid.toNat with
    | none => t
    | some a =>
      let r : HintRec := { dev := h.src.toNat, held := held, ver := ver.toNat, seq := seq.toNat, energy := energy.toNat, start := start.toNat, at_ := t.tick }
      let t1 := t.modPlc fun p =>
        { p with asks := p.asks.erase a, searches := p.searches.map fun (x : Search) => if x.n = a.srch then { x with found := x.found ++ [r] } else x }
      ((t1.modPeer h.src.toNat fun p => { p with misses := 0 }).settle))

/-- HINT_TIMEOUT (R320): a lookup unanswered within the hint time-out; the third in a row marks the peer DOWN. -/
def execHintTimeout (xid : BitVec 32) (s : State) : Out :=
  match s.plc.asks.find? fun a => a.xid == xid.toNat && decide (a.at_ + 500 * s.get PLC_PEER_TMO_HINT ≤ s.tick) with
  | none => .next s
  | some a =>
    let s1 := (s.modPlc fun p => { p with asks := p.asks.erase a }).modPeer a.dev fun p => { p with misses := p.misses + 1 }
    let s2 := if 3 ≤ (s1.peerOf a.dev).misses then s1.peerDown a.dev else s1
    .next s2.settle

/-- PEER_DOWN_HOLD_EXPIRY (R320, R330): after DOWN_HOLD seconds the peer is tried again, and tombstones owed to it are
sent. -/
def execPeerDownHoldExpiry (dev : BitVec 9) (s : State) : Out :=
  let d := dev.toNat
  match (s.peerOf d).downAt with
  | some t =>
    if s.tick < t + 500000 * s.get PLC_PEER_TMO_DOWN_HOLD then .next s
    else
      let owed := (s.peerOf d).owed
      let s1 := (s.modPeer d fun p => { p with downAt := none, misses := 0, owed := [] }).showDown d false
      .next (owed.foldl (fun (w : State) b => let (xid, w1) := w.newXid; w1.tell d pmTomb xid b.body) s1)
  | none => .next s

/-- PEER_READ_TIMEOUT (R323): the chosen holder has not served the read in time; the next one is taken. -/
def execPeerReadTimeout (xid : BitVec 32) (s : State) : Out :=
  match s.cmd.cmds.findSome? fun c => (c.reads.find? fun r => r.xid == xid.toNat && r.now.any fun d => d != s.self).map fun r => (c, r) with
  | some (c, r) => .next (s.readFailed c r).settle
  | none => match s.plc.units.find? fun u => u.rerepl && u.phase == .fetch && u.xid == xid.toNat with
    | some u => .next (s.rereplNext u).settle
    | none => .next s

/-! ### Tombstones (R329 to R331) -/

/-- TOMB (R330, R596): what it covers is hidden at once, the tombstone goes to COPIES disc sides, and TOMB_ACK follows when
its frames are verified. -/
def execTomb (h : PeerHdr) (u : UnitRef) (whole : Bool) (s : State) : Out :=
  .next (s.peerRequest h fun t =>
    let src := h.src.toNat
    let xid := h.xid.toNat
    if t.mode ≠ modeServe ∨ (t.plc.tombJobs.any fun j => j.peer == some (src, xid)) = true then t
    else
      let b : Tomb := { tenant := u.tenant.toNat, key := u.key.toNat, ver := u.ver.toNat, whole := whole, keyGen := if whole then u.unit.toNat else 0 }
      ((t.applyTomb b).writeTomb b none (some (src, xid))).settle)

/-- TOMB_ACK (R330, R407): counted toward the DELETE that waits for it. -/
def execTombAck (h : PeerHdr) (s : State) : Out :=
  .next (s.peerIn h fun t =>
    let k := (h.src.toNat, h.xid.toNat)
    (t.cmd.cmds.foldl (fun (w : State) c =>
      if c.asked.contains k then w.modCmd c.id fun x => { x with asked := x.asked.erase k, acks := x.acks + 1 } else w) t).settle)

/-! ### Re-replication, rebuild, migration -/

/-- REREPLICATION_START (R311): the first copy queued is read from a committed copy, this device's own if it has one. -/
def execRereplicationStart (s : State) : Out :=
  match s.plc.rerepl with
  | [] => .next s
  | u :: l =>
    if s.mode ≠ modeServe then .next s
    else
      let own := (s.entOf u.id).bind fun e => (s.whereIs e.slot).map fun x => (e, x.1)
      let devs := (u.atts.filter fun a => a.st == .committed && a.dev != s.self).map fun a => a.dev
      let n := s.plc.nextUnit
      let s1 := ((s.modPlc fun p => { p with rerepl := l }).addUnit { u with phase := .fetch, got := 0, cands := devs, used := [] }).showRerepl
      match own, s1.unitN n with
      | some (e, st), _ => .next (s1.enqueue .rerepl e.id.tenant none st e.slot false (readUnit e))
      | none, some x => .next (s1.rereplNext x)
      | none, none => .next s1

/-- REBUILD_DISC (R170, R326 to R328): what the rebuild job that holds a station has found on its disc. -/
def execRebuildDisc (slot : BitVec 5) (r : DiscFound) (s : State) : Out :=
  let k := slot.toNat
  match (List.range 2).find? fun st => (s.arbOf st).job.any fun j => j.kind == .rebuild && j.slot == some k with
  | none => .next s
  | some st =>
    let s1 := s.releaseStn st
    if r.failed then .next (s1.rebuildFailed k st)
    else if !(s.view st).slot == some k then .next s
    else if !controlOk r.control then .next (s1.settleSlot k 6)
    else if s.foreignDisc r then .next ((s1.settleSlot k 2).plcFault 5 k)
    else
      let s2 := ((s1.set (PLC_SLOT_W0_STATE k) 1).enterDisc k r).settleSlot k 1
      .next (if s.flag SYS_STAT_RECOVERING then s2 else s2.applyRebuilt)

/-- UNREACHED_SLOT_REBUILD (R328): a path to an unreached slot is back, and after the recovering phase its disc is rebuilt as
a house job. -/
def execUnreachedSlotRebuild (slot : BitVec 5) (s : State) : Out :=
  let k := slot.toNat
  let waits := s.allJobs.any fun j => j.kind == .rebuild && j.slot == some k
  if k < 24 ∧ s.slotState k = 7 ∧ s.flag SYS_STAT_RECOVERING = false ∧ s.mode = modeServe ∧ s.unreachable k = false ∧ waits = false then
    match s.bindSlot k with
    | some st => .next (s.rebuildJob k st)
    | none => .next s
  else .next s

/-- MIGRATION_START (R333): in SERVE, the units of the slot named are worked through; outside SERVE the write is refused. -/
def execMigrationStart (p : Path) (slot : BitVec 5) (s : State) : Out :=
  let k := slot.toNat
  .next (s.writeBy p (s.mode == modeServe && decide (k < 24)) fun t =>
    let t1 := match t.plc.mig with
      | some o => t.set (PLC_SLOT_W0_STATE o) 1
      | none => t
    let t2 := ((t1.set PLC_MIG_STAT_STATE 1).set PLC_MIG_STAT_NOKEY 0).set PLC_MIG_STAT_MOVED 0
    if t2.slotState k = 1 then
      ((t2.set (PLC_SLOT_W0_STATE k) 3).modPlc fun q => { q with mig := some k, migSkip := [], migStop := false }).migNext
    else (t2.modPlc fun q => { q with mig := none }).set PLC_MIG_STAT_STATE 2)

/-- MIGRATION_STOP (R333): migration ends after the unit in progress. -/
def execMigrationStop (p : Path) (s : State) : Out :=
  .next (s.writeBy p (s.mode == modeServe) fun t =>
    if t.plc.mig.isSome then (t.modPlc fun q => { q with migStop := true }).migNext else t)

end Sys2Proof.Machine
end

