-- ==== Sys2Proof/Machine/StnWork.lean ====
section
/-!
DEFINITION. The end of a job, and a station that leaves service or returns to it (10_arbitration_cache.md: R431, R432, R443,
R447; 14_faults.md: R559, R561).
-/

namespace Sys2Proof.Machine

open Sys2Proof

/-- The read of a command that a job serves here for a unit. -/
def State.readOf (s : State) (j : Job) (id : UnitId) : Option (Cmd × RdUnit) :=
  (j.cmd.bind fun n => s.cmdOf n).bind fun c =>
    (c.reads.find? fun r => c.unitId r.unit == id && r.now == some s.self && !r.done).map fun r => (c, r)

/-- The unit's KEY_GEN, as its header gives it, is stored in its entry when that was rebuilt without one (R325). -/
def State.noteGen (s : State) (id : UnitId) (g : Nat) : State :=
  s.mapEnts (fun e => e.id == id && e.live && e.keyGen == 15) fun e => { e with keyGen := g % 16 }

/-- A unit that a read job was to deliver ends: read, with the KEY_GEN of its header, or failed (R215, R323). A generation
that is not loaded ends the command with NO_KEY (R597); work for others fails like any read. -/
def State.readEnd (s0 : State) (j : Job) (id : UnitId) (gen : Option Nat) : State :=
  let s := match gen with
    | some g => s0.noteGen id g
    | none => s0
  let ok := gen.any fun g => s.sec.keys.any fun k => k.tenant == id.tenant && k.gen == g
  match j.kind with
  | .tenant => match s.readOf j id with
    | some (c, r) =>
      if ok then s.readDelivered c r.unit r.len
      else if gen.isSome then (s.modCmd c.id fun x => { x with cause := 0x400A }).modRead c.id r.unit fun x => { x with failed := true, now := none }
      else s.readFailed c r
    | none => s
  | .peer => match s.plc.reads.find? fun r => r.id == id with
    | some r =>
      let s1 := s.modPlc fun p => { p with reads := p.reads.erase r }
      if ok then s1.sendData r.src r.xid (List.range (s1.segments r.len))
      else s1.reply r.src pmFailed r.xid [if gen.isSome then rfNoKey else rfNotHeld]
    | none => s
  | .rerepl => match s.plc.units.find? fun u => u.rerepl && u.phase == .fetch && u.id == id with
    | some u =>
      if ok then s.modUnit u.n fun x => { x with phase := .ready, got := x.len, cands := [], data := s.unitPlain id x.len (gen.getD 0) }
      else s.rereplNext u
    | none => s
  | .mig => match s.plc.map.find? fun e => e.id == id && e.live with
    | some e =>
      if ok then s.addUnit { id := id, cmd := none, len := e.len, flags := e.flags % 4, phase := .ready, got := e.len, data := s.unitPlain id e.len (gen.getD 0), mig := true }
      else s.modPlc fun p => { p with migSkip := p.migSkip ++ [id] }
    | none => s
  | _ => s

/-- A copy that a write job was to write here ends without one. -/
def State.writeEnd (s : State) (_j : Job) (id : UnitId) : State := match s.unitData id with
  | some d => s.copyLost id d.peer rfNoSpace
  | none => s.copyFailed s.self fun u => u.id == id

/-- The command's next job on the station joins the queue (R431). -/
def State.joinNext (s : State) (j : Job) : State :=
  match s.arb.jobs.find? fun k => j.cmd.isSome && k.cmd == j.cmd && k.station == j.station && !k.joined with
  | some k => s.modJob k.id fun x => { x with joined := true }
  | none => s

/-- JOB_END of a station: its job's units end, the next job of its command joins, the grant parks or the station becomes
IDLE. A rebuild, a self-test step, a campaign, a maintenance order and a staging end by events of their own; a job whose extent is being written has not
ended. -/
def State.jobEnd (s : State) (st : Nat) (delivered : List (Option Word)) : State :=
  match (s.arbOf st).job with
  | none => s
  | some j =>
    let writing := (List.range 2).any fun i => ((s.chn.ext[2 * st + i]?).getD none).isSome
    if j.kind = .rebuild ∨ j.kind = .selftest ∨ j.kind = .cal ∨ j.kind = .maint ∨ j.hold.isSome ∨ writing = true then s.settle
    else
      let units := j.units.zip (List.range j.units.length)
      let s1 := s.joinNext j |>.releaseStn st
      let s2 := units.foldl (fun (t : State) u =>
        if j.write then t.writeEnd j u.1.id
        else t.readEnd j u.1.id (if s.chn.lost.contains u.1.id then none else (nth delivered u.2 none).map BitVec.toNat)) s1
      (s2.modChn fun c =>
        { c with lost := c.lost.filter fun x => !(j.units.any fun u => u.id == x), delivered := c.delivered.filter fun x => !(j.units.any fun u => u.id == x.id) }).settle

/-- A command whose grant is revoked ends: what is done stands, and one with nothing done ends INTERNAL (R447). -/
def State.cmdRevoked (s : State) (c : Cmd) : State :=
  if c.op = opPut ∨ c.op = opSeal then
    match sortBy (fun (a b : UnitSt) => decide (a.id.unit ≤ b.id.unit)) (s.plc.units.filter fun u => u.cmd == some c.id && !u.counted) with
    | [] => s
    | u :: _ => s.abandon u.id 0x800B
  else if c.op = opGet then
    s.modCmd c.id fun x =>
      { x with killed := true, reads := x.reads.map fun r => if r.done then r else { r with failed := true, now := none } }
  else (s.endJobs c.id).finishWith c 0x800B

/-- The grant of a station is revoked (R432, R447): units being written are closed with an abort record, the holder's
command ends, other work is handed back. A rebuild attempt counts as failed when the watchdog ends it (R328). -/
def State.revoke (s : State) (st : Nat) (watchdog : Bool) : State :=
  match (s.arbOf st).job with
  | none => s
  | some j =>
    let s1 := (List.range 2).foldl (fun (t : State) i => match (t.chn.ext[2 * st + i]?).getD none with
      | some x => t.extAbort (2 * st + i) x
      | none => t.modChn fun c => { c with opc := c.opc.setIfInBounds (2 * st + i) none }) s
    let left := match (s1.arbOf st).job with
      | some k => k.units
      | none => []
    let s2 := s1.idleStn st
    match j.kind with
    | .tenant => match j.cmd.bind fun n => s2.cmdOf n with
      | some c => (s2.cmdRevoked c).settle
      | none => s2
    | .rebuild => match j.slot with
      | some k => if watchdog then s2.rebuildFailed k st else s2.rebuildJob k ((s2.bindSlot k).getD st)
      | none => s2
    | .cal => s2.campAbort
    | _ =>
      (left.foldl (fun (t : State) u => if j.write then t.writeEnd j u.id else t.readEnd j u.id none) s2).settle

/-- Jobs of a station that cannot return by itself end where their disc is clamped in it (R432). -/
def State.endStranded (s : State) (st : Nat) : State :=
  let gone := s.arb.jobs.filter fun j => j.station == st && j.kind != .rebuild && j.slot.any fun k => s.stationOf k == some st
  gone.foldl (fun (t : State) j =>
    let t1 := t.dropJobs fun k => k.id == j.id
    match (if j.units.isEmpty then j.cmd.bind fun n => t1.cmdOf n else none) with
    | some c => t1.cmdRevoked c
    | none => j.units.foldl (fun (w : State) u => if j.write then w.writeEnd j u.id else w.readEnd j u.id none) t1) s

/-- A waiting job of a station that has left service is bound again: to the other station when its disc is in the magazine,
and a read to another replica when a search finds one (R432). -/
def State.rebind (s : State) (st : Nat) (j : Job) : State :=
  let other := 1 - st
  if j.kind = .cal then s else
  let here := j.slot.any fun k => s.stationOf k == some st
  if !here then
    if s.inService other && s.calOk other then s.modJob j.id fun x => { x with station := other } else s
  else if j.kind = .tenant ∧ j.write = false then
    j.units.foldl (fun (t : State) u => match t.readOf j u.id with
      | some (c, r) => t.startSearch (.get c.id r.unit) u.id [t.self]
      | none => t) s
  else s

/-- A station leaves service (R432, R559). -/
def State.leaveService (s : State) (st : Nat) : State :=
  let s1 := s.revoke st false
  let jobs := s1.arb.jobs.filter fun j => j.station == st
  let s2 := jobs.foldl (fun (t : State) j => t.rebind st j) s1
  let s3 := if s2.goneForGood st then s2.endStranded st else s2
  (((s3.modArb st fun _ => {}).set (ARB_STN_W0_STATE st) stnOut).set (ARB_STN_W0_TENANT st) 0).settle

/-- Stations leave and return to service as their condition says. -/
def State.serviceTick (s : State) (st : Nat) : State :=
  let out := s.grantState st == stnOut
  if s.inService st then (if out then s.idleStn st else s)
  else if !out then s.leaveService st
  else if s.goneForGood st && s.arb.jobs.any (fun j => j.station == st) then (s.endStranded st).settle
  else s

end Sys2Proof.Machine
end

