-- ==== Sys2Proof/Machine/Arbiter.lean ====
section
/-!
DEFINITION. The meanings of the arbitration commands (10_arbitration_cache.md) and of the start of a deferred command
(09_commands.md: R394).
-/

namespace Sys2Proof.Machine

open Sys2Proof

/-- DEFERRED_COMMAND_START (R394): the first job of a deferred command holds its station, with the disc loaded and the
spindle AT_SPEED; the command starts and no longer counts as deferred. -/
def execDeferredCommandStart (st : Fin 2) (s : State) : Out :=
  match (s.arbOf st).job with
  | none => .next s
  | some j =>
    match j.cmd.bind fun n => s.cmdOf n with
    | none => .next s
    | some c =>
      if c.deferred ∧ c.started = false ∧ (s.view st).holds j ∧ s.flag (SPN_STAT_AT_SPEED st) = true ∧ s.mayStart c = true then
        -- the placeholder job gives way to the jobs that the command's work makes; a staging keeps its own
        let s1 := if j.hold.isSome then s else s.modJob j.id fun x => { x with units := [] }
        .next ((s1.modCmd c.id fun x => { x with deferred := false }).startCmd { c with deferred := false }).cmdCounts.settle
      else .next s

/-- JOB_END (R431, R443). -/
def execJobEnd (st : Fin 2) (delivered : List (Option Word)) (s : State) : Out := .next (s.jobEnd st delivered)

/-- PARK_TIMEOUT (R409, R443, R445): a grant parked for PARK_TMO seconds, or for a RESERVE's HOLD, becomes IDLE; the station
spins down with its disc. -/
def execParkTimeout (st : Fin 2) (s : State) : Out :=
  let a := s.arbOf st
  let limit := a.hold.getD (s.get ARB_PARK_PARK_TMO)
  if s.grantState st = stnParked ∧ a.since + 500000 * limit ≤ s.tick then .next ((s.idleStn st).spnStop st)
  else .next s

/-- STN_WDOG (R447): the grant has lasted STN_WDOG seconds; it is reported and revoked, and its command ends. A maintenance
order is not timed. -/
def execStnWdog (st : Fin 2) (s : State) : Out :=
  match (s.arbOf st).job with
  | none => .next s
  | some j =>
    if j.kind ≠ .maint ∧ (s.arbOf st).since + 500000 * s.get ARB_STN_WDOG_STN_WDOG ≤ s.tick then
      .next (((s.raise 0x090 1 st).addSat ARB_CNT_EVT_WDOG 1).revoke st true)
    else .next s

end Sys2Proof.Machine
end

