-- ==== Sys2Proof/Machine/Axes.lean ====
section
/-!
DEFINITION. The meanings of the commands of 06_axes_and_picker.md that order or report an axis.
-/

namespace Sys2Proof.Machine

open Sys2Proof

/-- The fault source of an axis (R295) and an axis fault. -/
def State.axFault (s : State) (a kind arg : Nat) : State := s.raise (0x050 + a) kind arg

/-- A target lies on the accepted side after a tripped end (R281). -/
def State.awayFromTrip (s : State) (a : Nat) (target : Int) : Bool :=
  match (s.axOf a).tripped with
  | none => true
  | some pos => if pos then decide (target < s.axPos a) else decide (s.axPos a < target)

/-- A campaign holds the station of a sled (R542). -/
def State.sledHeld (s : State) (a : Nat) : Bool := decide (a < 4) && s.calHolds (a / 2)

/-- A position order to an axis: START or PARK (R267, R271, R275, R278, R281). -/
def State.axOrderTo (s : State) (a op : Nat) (target : Int) : State :=
  let st := s.axState a
  if s.sledHeld a then s.axReport a op resRefusedState
  else if s.axBadParam a target then s.axReport a op resRefusedParam
  else if (st = axIdle ∨ st = axMoving ∨ st = axStopping) ∧ s.zxRule a target = true ∧ s.awayFromTrip a target = true then
    (s.axReport a op resRunning).axMove a target
  else s.axReport a op resRefusedState

/-- START (R266, R271, R272). -/
def execAxStart (p : Path) (a : Fin 7) (s : State) : Out :=
  .next (s.writeBy p (s.mode == modeMaintain) fun t => t.axOrderTo a opStart (t.getInt (AX_TGT_TGT a)))

/-- PARK moves to AX_SLIM_LO (R272, R275); a geared sled leaves GEARED first. -/
def execAxPark (p : Path) (a : Fin 7) (s : State) : Out :=
  .next (s.writeBy p (s.mode == modeMaintain) fun t =>
    let u := if t.axState a = axGeared ∧ t.sledHeld a = false then ((t.axStandAt a (t.axPos a)).set (AX_STAT_STATE a) axIdle).set (AX_CTL_MODE a) 0 else t
    u.axOrderTo a opPark (u.getInt (AX_SLIM_LO_LIM a)))

/-- A stop of an axis, by its deceleration values or by EMERG_DEC: done at once where it stands. -/
def State.axStopOrder (s : State) (a op : Nat) (emerg : Bool) : State :=
  if s.sledHeld a then s.axReport a op resRefusedState
  else if s.axInMotion a ∨ s.axState a = axGeared then (s.axReport a op resRunning).axHalt a emerg
  else s.axReport a op resDone

/-- STOP (R272). -/
def execAxStop (p : Path) (a : Fin 7) (s : State) : Out :=
  .next (s.writeBy p (s.mode == modeMaintain) fun t => t.axStopOrder a opStop false)

/-- ESTOP (R272). -/
def execEstop (p : Path) (a : Fin 7) (s : State) : Out :=
  .next (s.writeBy p (s.mode == modeMaintain) fun t => t.axStopOrder a opEstop true)

/-- HOME (R267, R272, R278, R282). -/
def execAxHome (p : Path) (a : Fin 7) (s : State) : Out :=
  .next (s.writeBy p (s.mode == modeMaintain) fun t =>
    if t.sledHeld a then t.axReport a opHome resRefusedState
    else if t.axBadParam a (t.getInt (AX_SLIM_LO_LIM a)) then t.axReport a opHome resRefusedParam
    else if t.axState a = axIdle ∧ (a.val = axZ → t.xInCorridor = true) then (t.axReport a opHome resRunning).axHomeStart a
    else t.axReport a opHome resRefusedState)

/-- A write of AX_CTL.MODE (R272, R273): geared is for sleds only. -/
def execAxMode (p : Path) (a : Fin 7) (mode : BitVec 2) (s : State) : Out :=
  .next (s.writeBy p (s.mode == modeMaintain && (mode == 0 || (mode == 1 && decide (a.val < 4)))) fun t =>
    if t.sledHeld a then t.axReport a opMode resRefusedState
    else if mode = 0 then
      if t.axState a = axGeared then
        (((t.axStandAt a (t.axPos a)).set (AX_STAT_STATE a) axIdle).set (AX_CTL_MODE a) 0).axReport a opMode resDone
      else (t.set (AX_CTL_MODE a) 0).axReport a opMode resDone
    else if t.axState a = axIdle then (t.axGear a).axReport a opMode resDone
    else if t.axState a = axGeared then t.axReport a opMode resDone
    else t.axReport a opMode resRefusedState)

/-- A write of AX_CTL.ENABLE (R272, R280): 0 stops the axis and switches its bridge off, 1 enables a disabled one. -/
def execAxEnable (p : Path) (a : Fin 7) (en : Bool) (s : State) : Out :=
  .next (s.writeBy p true fun t =>
    let u := t.setFlag (AX_CTL_ENABLE a) en
    if en then ((u.set (AX_STAT_CHATTER a) 0).modAx a fun k => { k with blown := false }).axOn a else u.axHaltOff a false)

/-- A write of a profile register (R268 to R270): a moving axis latches it for the next boundary; the follower of a MOVE_ZX
takes it from its next move (R277). -/
def execAxProfileWrite (p : Path) (a : Fin 7) (w : Fin 5) (v : Word) (s : State) : Out :=
  .next (s.writeBy p true fun t =>
    let keep : Word := if w.val = 4 then v &&& 0xFFFF else v
    let u := t.setReg (AX_VSS a + 4 * w.val) keep
    if u.axInMotion a ∧ u.flag (AX_STAT_INTERP a) = false then u.modAx a fun k => { k with latched := true } else u)

/-- A move, stop or homing step ends and the axis stands (R266, R282). -/
def execAxMoveDone (a : Fin 7) (s : State) : Out :=
  if s.axInMotion a = true ∧ s.axAtRest a = true then .next (s.axArrive a) else .next s

/-- The reaction of Badger to a trip of one of its axes (R290). -/
def State.axTripped (s : State) (a : Nat) : State := if 4 ≤ a then s.magTrip else s

/-- A phase current exceeds the trip (R262): the bridge is off, the axis DISABLED without HOMED. -/
def execAxOvercurrent (a : Fin 7) (s : State) : Out :=
  .next (((((s.axFault a 4 a).axLoseHome a).axResult a resFailed).axOff a).modAx a (fun k => { k with blown := true }) |>.axTripped a)

/-- The transitions noted of an input are forgotten. -/
def AxSt.calm (k : AxSt) (i : Nat) : AxSt := { k with sw := k.sw.setIfInBounds i { k.switch i with edges := [] } }

/-- More than CHAT_N raw transitions on an input within 4,096 ticks (R280): the axis stops, DISABLED without HOMED, and the
count of the input starts anew.
DEDUCED (notes/assumptions/26.md, unsafe). -/
def execLimitChatter (a : Fin 7) (input : Fin 3) (s : State) : Out :=
  if s.get (AX_LIM_CFG_CHAT_N a) < s.transOf a input then
    let s1 := (((s.axFault a 2 (a.val + 16 * input.val)).addSat (AX_SW_CHAT_CNT a) 1).set (AX_STAT_CHATTER a) 1).axLoseHome a
    .next ((((s1.axResult a resFailed).modAx a fun k => k.calm input).axHaltOff a true).axTripped a)
  else .next s

/-- An end-of-travel switch trips outside homing (R281). -/
def State.limitHit (s : State) (a : Nat) (pos : Bool) : State :=
  let s1 := ((s.axFault a 1 (a + (if pos then 128 else 0))).axResult a resFailed).axHalt a true
  ((s1.axLoseHome a).modAx a fun k => { k with tripped := some pos }).axTripped a

/-- An end-of-travel switch trips during homing (R283): the axis stops with EMERG_DEC and then searches the other way, once; a
further trip ends the homing with HOME_NOT_FOUND. -/
def State.homeEnd (s : State) (a : Nat) (pos : Bool) : State :=
  if s.flag (AX_STAT_HOME_REV a) = true then
    (((s.axFault a 3 a).axResult a resFailed).axHalt a true).axTripped a
  else if (s.axOf a).home = .turning then s
  else
    s.modAx a fun k =>
      { k with rev := pos == decide (0 < s.homeDir a), emerg := true, home := .turning, dest := none }

/-- HOME becomes active or clears during homing (R282). -/
def State.homeFlag (s : State) (a : Nat) (active : Bool) : State :=
  match (s.axOf a).home with
  | .search => if active then s.modAx a fun k => { k with home := .stopping } else s
  | .clearing =>
    if active then s
    else s.homeStep a .backing (some (s.axPos a - (s.homeDir a).floor * 256 * s.get (AX_HOME_CFG_BACK a)))
  | .approach =>
    if active then
      let t := s.homeReference a
      if a < 4 then t.sledHomedNow (a / 2) else t.magAxisHomed a
    else s
  | _ => s

/-- The debounced state of an input: AX_SW.DEB. -/
abbrev swDeb (a i : Nat) : Fld := ⟨AX_SW a, 4 + i, 4 + i⟩

/-- The raw level of an input has stood unchanged for LIM_DEB ticks and is not the debounced one (R280). -/
def State.debounced (s : State) (a i : Nat) (active : Bool) : Bool :=
  let k := (s.axOf a).switch i
  (k.raw == active) && (s.flag (swDeb a i) != active) && decide (k.at_ + s.get (AX_LIM_CFG_LIM_DEB a) ≤ s.tick)

/-- A debounced switch input changes (R280 to R283). Inputs: 0 HOME, 1 EOT_NEG, 2 EOT_POS. -/
def execLimitSwitchChange (a : Fin 7) (input : Fin 3) (active : Bool) (s : State) : Out :=
  let s1 := s.setFlag (swDeb a input) active
  let homing := s.axState a == axHoming
  if s.debounced a input active = false then .next s
  else if input.val = 0 then
    let s2 := s1.setFlag (AX_STAT_HOME_SW a) active
    .next (if homing then s2.homeFlag a active else s2)
  else
    let s2 := if input.val = 1 then s1.setFlag (AX_STAT_LIM_NEG a) active else s1.setFlag (AX_STAT_LIM_POS a) active
    .next (if !active then s2 else if homing then s2.homeEnd a (input.val == 2) else s2.limitHit a (input.val == 2))

/-- An axis has stood 0.5 s on a full step (R265). -/
def execAxDetent (a : Fin 7) (s : State) : Out :=
  if s.axState a = axIdle ∧ s.flag (AX_CUR_AUTO_OFF a) = true ∧ s.axPos a % 256 = 0 ∧ 250000 ≤ s.tick - (s.axOf a).since then
    .next (((s.modAx a fun k => { k with phases := .off }).set (AX_STAT_DETENT a) 1).set (AX_STAT_STRONG a) 0)
  else .next s

/-- The revolution and encoder counts of the sled's station have reached or passed AX_GEAR_AT, which counts as ahead within 128
revolutions (R274). -/
def State.gearAtReached (s : State) (a : Nat) : Bool :=
  let now := 131072 * s.get (SPN_ANGLE_REVS (a / 2)) + s.get (SPN_ANGLE_COUNT (a / 2))
  let at_ := 131072 * s.get (AX_GEAR_AT_REVS a) + s.get (AX_GEAR_AT_COUNT a)
  decide ((now + 256 * 131072 - at_) % (256 * 131072) < 128 * 131072)

/-- The station's counts reach AX_GEAR_AT (R274): NEXT becomes the ratio, the gear target stays continuous, ARM clears. -/
def execGearChange (a : Fin 4) (s : State) : Out :=
  if s.flag (AX_GEAR_AT_ARM a) = true ∧ s.gearAtReached a = true then
    let s1 := if s.axState a = axGeared then s.gearRebase a else s
    .next ((s1.setReg (AX_GEAR_RATIO a) (s.reg (AX_GEAR_NEXT a))).set (AX_GEAR_AT_ARM a) 0)
  else .next s

end Sys2Proof.Machine
end

