-- ==== Sys2Proof/Machine/Commands.lean ====
section
/-!
DEFINITION. The meanings of the host commands that work on objects, on the session, on the log and on the meters
(09_commands.md).
DEDUCED (notes/assumptions/27.md, unsafe): Commands: FLUSH holds later immediate commands, METER RSTATE shows the first record, DELETE searches tier 1 and then further tiers, RESERVE of a remote holder completes with the holder and 0 ms.
-/

namespace Sys2Proof.Machine

open Sys2Proof

/-- What a command that is held does when it is accepted: nothing beyond being held. -/
def held (s : State) (_ : Cmd) : State := s

/-! ### Data commands (R400 to R409) -/

/-- PUT (R299, R402, R403). -/
def execPut (p : Path) (e : Entry) (s : State) : Out := .next (s.command p opPut e held)

/-- GET (R404, R405). -/
def execGet (p : Path) (e : Entry) (s : State) : Out := .next (s.command p opGet e held)

/-- SEAL (R301, R406). -/
def execSeal (p : Path) (e : Entry) (s : State) : Out := .next (s.command p opSeal e held)

/-- DELETE of an object (R330, R407). -/
def execDelete (p : Path) (e : Entry) (s : State) : Out :=
  if e.arg0.getLsbD 0 then .next s else .next (s.command p opDelete e held)

/-- DELETE with TENANT scope (R331, R407, R596). -/
def execDeleteTenant (p : Path) (e : Entry) (s : State) : Out :=
  if e.arg0.getLsbD 0 then .next (s.command p opDelete e held) else .next s

/-- FLUSH of a session (R400). -/
def execFlush (p : Path) (e : Entry) (s : State) : Out :=
  if e.arg0.getLsbD 0 then .next s else .next (s.command p opFlush e held)

/-- FLUSH with ALL (R401): the device goes into DRAIN at the next tick boundary and the command ends on the return to
SERVE. -/
def execFlushAll (p : Path) (e : Entry) (s : State) : Out :=
  if e.arg0.getLsbD 0 then .next (s.command p opFlush e held) else .next s

/-- STAT (R408). -/
def execStat (p : Path) (e : Entry) (s : State) : Out := .next (s.command p opStat e held)

/-- LIST (R408). -/
def execList (p : Path) (e : Entry) (s : State) : Out := .next (s.command p opList e held)

/-- RESERVE (R409). -/
def execReserve (p : Path) (e : Entry) (s : State) : Out := .next (s.command p opReserve e held)

/-! ### QUEUE_RESTART (R411) -/

/-- A frozen session goes on. With DISCARD, what has not started completes with ABORTED_RESTART; RESULT0 counts what was
resumed or discarded. -/
def State.runRestart (s : State) (c : Cmd) : State :=
  match s.sessOf c.path with
  | none => s.finish c {}
  | some x =>
    if !x.frozen then s.finish c {}
    else
      let s1 := s.modSess c.path fun y => { y with frozen := false }
      let waits := (s1.cmdsOf c.path).filter fun d => !d.started && d.op != opFlush
      let n := waits.length + x.arrivals.length
      if c.e.arg0.getLsbD 0 then
        let s2 := waits.foldl (fun (t : State) d => (t.dropJobs fun j => j.cmd == some d.id).finishWith d 0x8009) s1
        let s3 := x.arrivals.foldl (fun (t : State) a =>
          let (d, t1) := (t.modSess c.path fun y => { y with arrivals := y.arrivals.drop 1 }).newCmd c.path a.1 a.2
          t1.finishWith d 0x8009) s2
        s3.finish c { res0 := n }
      else s1.finish c { res0 := n }

/-- QUEUE_RESTART (R411). -/
def execQueueRestart (p : Path) (e : Entry) (s : State) : Out := .next (s.command p opRestart e State.runRestart)

/-! ### IDENTIFY -/

/-- What an update has written of a component type; of Jack, into the twin started. -/
def State.compOf (s : State) (t : Nat) : Option CompInfo :=
  if t = 0 then (s.sec.jack[if s.sys.twinB then 1 else 0]?).getD none else s.sec.comps.find? fun c => c.type == t

/-- The version word of a component type: that of the last update, else of the factory release. -/
def State.verWord (s : State) (t : Nat) : BitVec 64 := match s.compOf t with
  | some c => c.ver
  | none => Config.factoryVersion t

/-- The five version words, Jack first (Table: IDENTIFY data). -/
def State.verBytes (s : State) : List Byte := (List.range 5).flatMap fun t => toBytes 8 (s.verWord t).toNat

/-- The serial number as it is given in IDENTIFY and in the quote. -/
def State.serialBytes (s : State) : List Byte := wordBytes ((List.range 4).map fun k => s.reg (SEC_SERIAL k))

/-- The 256 bytes of IDENTIFY. -/
def State.identity (s : State) (c : Cmd) : List Byte :=
  let (sid, depth) := match c.path, s.sessOf c.path with
    | .session id, some x => (id.toNat, x.depth)
    | _, _ => (0, 0)
  padTo 256
    (toBytes 4 (s.reg SYS_ID).toNat ++ toBytes 1 (s.get SYS_STEP_STEP) ++ toBytes 1 s.mode ++ toBytes 1 (s.get SEC_LC_STATE) ++
      toBytes 1 0 ++ s.serialBytes ++ wordBytes [s.reg NET_MAC_LO] ++ toBytes 2 ((s.reg NET_MAC_HI).toNat % 65536) ++ toBytes 2 0 ++
      s.verBytes ++ toBytes 2 s.self ++ toBytes 2 sid ++ toBytes 2 c.tenant ++ toBytes 2 depth ++ toBytes 4 65536 ++
      toBytes 2 16384 ++ toBytes 2 4095 ++ toBytes 4 4194304 ++ toBytes 4 (s.reg MAG_INV_PRES).toNat)

/-- IDENTIFY (R41). -/
def execIdentify (p : Path) (e : Entry) (s : State) : Out :=
  .next (s.command p opIdentify e fun t c => t.finish c { res0 := (t.reg SYS_ID).toNat, data := t.identity c })

/-! ### GET_LOG (R412, R578) -/

/-- A record of the error log as its 64 bytes. -/
def LogRec.bytes (r : LogRec) : List Byte :=
  padTo 64
    (toBytes 4 r.seq ++ toBytes 2 r.type ++ toBytes 2 r.status ++ toBytes 2 r.session ++ toBytes 2 r.tenant ++ toBytes 2 r.cid ++
      toBytes 1 r.opcode ++ toBytes 1 r.copies ++ toBytes 8 r.tick ++ toBytes 8 r.key ++ toBytes 4 r.ver ++ toBytes 4 r.unit ++
      toBytes 8 r.offset ++ toBytes 4 r.hdr ++ toBytes 2 r.device ++ toBytes 2 r.arg)

/-- The path's fetches are on a data session: they change no result state (R422). -/
def State.dataPath (s : State) (p : Path) : Bool := !s.mgmtPath p

/-- Ring events from a SEQ on, or from the oldest when none held has it (R578). -/
def State.eventsFrom (s : State) (seq : Nat) : List OwlEvent :=
  match s.owl.ring.dropWhile fun e => e.seq.toNat != seq with
  | [] => s.owl.ring
  | l => l

/-- The self-test result word as a fetch shows it: zero but for RES and PROGRESS while it is NOT_READY. -/
def State.testResult (s : State) : List Byte := padTo 64 (toBytes 4 (s.reg CMD_ST_STAT).toNat)

/-- GET_LOG by page. Records go in ascending order, as many as LEN allows. -/
def State.runGetLog (s : State) (c : Cmd) : State :=
  let n := c.e.len.toNat / 64
  let page := c.e.arg0.toNat
  let first := c.e.arg1.toNat
  if page = 0x10 then
    if s.dataPath c.path then s.finishWith c stNotPermitted
    else if c.e.arg1.getLsbD 31 then
      match (if s.jackOnly then none else s.flash.flush) with
      | none => if s.jackOnly then s.finishWith c stBadField else s.finish c { rstate := s.get OWL_FLUSH_RES }
      | some f =>
        let bytes := (f.header ++ f.eventBytes).drop (64 * (first % 65536))
        let out := bytes.take (64 * n)
        let res := s.get OWL_FLUSH_RES
        (s.when (res == 1) fun t => t.set OWL_FLUSH_RES 2).finish c
          { res0 := (out.length + 63) / 64, res1 := first + (out.length + 63) / 64, rstate := res, data := out }
    else
      let out := (s.eventsFrom (first % 65536)).take (4 * n)
      let next := match out.getLast? with
        | some e => (e.seq.toNat + 1) % 65536
        | none => first
      s.finish c { res0 := (out.length + 3) / 4, res1 := next, data := padTo (64 * ((out.length + 3) / 4)) (out.flatMap OwlEvent.bytes) }
  else if page = 0x11 then
    let res := s.get CMD_ST_STAT_RES
    let fetch := res == 1 && !s.dataPath c.path && decide (1 ≤ n)
    (s.when fetch fun t => t.set CMD_ST_STAT_RES 2).finish c
      { res0 := min n 1, rstate := res, data := if n = 0 then [] else if res = 0 then padTo 64 [] else s.testResult }
  else
    let mine (r : LogRec) : Bool := s.mgmtPath c.path || r.tenant == c.tenant
    let l := s.cmd.log.filter fun r => decide (first ≤ r.seq) && (page == 1 || r.type == logDeferred) && mine r
    let out := l.take n
    let next := match out.getLast? with
      | some r => r.seq + 1
      | none => first
    s.finish c { res0 := out.length, res1 := next, data := out.flatMap LogRec.bytes }

/-- GET_LOG (R412, R578). -/
def execGetLog (p : Path) (e : Entry) (s : State) : Out := .next (s.command p opGetLog e State.runGetLog)

/-! ### Meters (R423 to R428) -/

/-- A meter record as its 64 bytes, with a result state. -/
def MeterRec.bytes (r : MeterRec) (state : Nat) : List Byte :=
  padTo 64
    (toBytes 4 r.minute ++ toBytes 2 r.acc.tenant ++ toBytes 1 (state + if r.ptp then 4 else 0) ++ toBytes 1 r.epochs ++
      toBytes 8 r.acc.bytesIn ++ toBytes 8 r.acc.bytesOut ++ toBytes 4 (r.acc.held0 / 500) ++ toBytes 4 (r.acc.held1 / 500) ++
      toBytes 8 r.mj ++ toBytes 4 r.acc.commands ++ toBytes 4 r.acc.deferrals ++ toBytes 4 r.acc.refusals)

/-- The tenants that have meter records: the house account and those with a valid contract or a record. -/
def State.metered (s : State) : List Nat :=
  (List.range 4096).filter fun t => t == 0 || s.contract t || s.mtr.recs.any fun r => r.acc.tenant == t

/-- The minute in progress, as a NOT_READY record with zero counters. -/
def State.running (s : State) (t : Nat) : MeterRec :=
  { minute := s.get MTR_MINUTE_MINUTE, ptp := s.flag MTR_STAT_PTP, epochs := s.get MTR_STAT_EPOCH, acc := { tenant := t }, mj := 0, res := 0 }

/-- METER_READ: a tenant's records from a minute on, then the minute in progress. A fetch on a management path moves the
records it delivers from READY to CONSUMED. -/
def State.runMeterRead (s : State) (c : Cmd) : State :=
  let all := c.e.arg0.getLsbD 31 && s.mgmtPath c.path
  let who := if all then s.metered else [if s.mgmtPath c.path then c.e.arg0.toNat % 4096 else c.tenant]
  let from_ := c.e.arg1.toNat
  let ofOne (t : Nat) : List MeterRec :=
    sortBy (fun (a b : MeterRec) => decide (a.minute ≤ b.minute)) (s.mtr.recs.filter fun r => r.acc.tenant == t && decide (from_ ≤ r.minute)) ++
      (if s.mtr.on && decide (from_ ≤ s.get MTR_MINUTE_MINUTE) then [s.running t] else [])
  let out := (who.flatMap ofOne).take (c.e.len.toNat / 64)
  let s1 := if s.dataPath c.path then s
    else { s with mtr := { s.mtr with recs := s.mtr.recs.map fun r => if out.contains r ∧ r.res = 1 then { r with res := 2 } else r } }
  let state := match out.head? with
    | some r => r.res
    | none => 0
  s1.finish c { res0 := out.length, rstate := state, data := out.flatMap fun r => r.bytes r.res }

/-- METER_READ (R422, R428). -/
def execMeterRead (p : Path) (e : Entry) (s : State) : Out := .next (s.command p opMeterRead e State.runMeterRead)

/-- METER_ACK: records up to a minute are discarded. -/
def State.runMeterAck (s : State) (c : Cmd) : State :=
  let gone (r : MeterRec) : Bool :=
    (c.e.arg0.getLsbD 31 || r.acc.tenant == c.e.arg0.toNat % 4096) && decide (r.minute ≤ c.e.arg1.toNat)
  { s with mtr := { s.mtr with recs := s.mtr.recs.filter fun r => !gone r } }.finish c { res0 := (s.mtr.recs.filter gone).length }

/-- METER_ACK (R428). -/
def execMeterAck (p : Path) (e : Entry) (s : State) : Out := .next (s.command p opMeterAck e State.runMeterAck)

/-- One closed record joins those of its tenant; the 121st replaces the oldest (R424). -/
def State.putMeter (s : State) (r : MeterRec) : State :=
  let mine := s.mtr.recs.filter fun x => x.acc.tenant == r.acc.tenant
  if mine.length < 120 then { s with mtr := { s.mtr with recs := s.mtr.recs ++ [r] } }
  else match mine.head? with
    | some o =>
      (({ s with mtr := { s.mtr with recs := s.mtr.recs.erase o ++ [r] } }.addSat MTR_LOST_COUNT 1).raise 0x081 1 r.acc.tenant)
    | none => s

/-- METER_MINUTE_CLOSE (R423, R424, R427): at the minute boundary one record is closed for the house account and for every
tenant with a valid contract; each reports whole mJ and carries the remainder, and the next minute begins. -/
def execMeterMinuteClose (s : State) : Out :=
  let ptp := s.ce.rephased
  let due := s.mtr.on && decide (0 < s.get MTR_STAT_EPOCH) &&
    (if ptp then s.ce.epPtp % 60 == 0 && s.ce.epTick == s.tick else decide (60 ≤ s.get MTR_STAT_EPOCH))
  if !due then .next s
  else
    let who := (List.range 4096).filter fun t => t == 0 || s.contract t || s.mtr.cur.any fun a => a.tenant == t
    let close (acc : State × Nat) (t : Nat) : State × Nat :=
      let a := acc.1.acct t
      let total := a.energy + (((acc.1.mtr.carry.find? fun e => e.1 == t).map fun (e : Nat × Rat) => e.2).getD 0)
      let mj := (total / 1000).floor.toNat
      let r : MeterRec := { minute := s.get MTR_MINUTE_MINUTE, ptp := s.flag MTR_STAT_PTP, epochs := s.get MTR_STAT_EPOCH, acc := a, mj := mj }
      let s1 := { acc.1 with mtr := { acc.1.mtr with carry := (acc.1.mtr.carry.filter fun (e : Nat × Rat) => e.1 != t) ++ [(t, total - (mj * 1000 : Nat))] } }
      (if t = 0 ∨ s.contract t = true then s1.putMeter r else s1, acc.2 + mj)
    let (s1, sum) := who.foldl close (s, 0)
    let bus := (s.mtr.bus / 1000).floor.toNat
    let s2 := { s1 with mtr := { s1.mtr with cur := [], bus := s.mtr.bus - (bus * 1000 : Nat) } }
    let s3 := ((((s2.set MTR_BUS_LO_MJ (bus % 2 ^ 32)).set MTR_BUS_HI_MJ (bus / 2 ^ 32)).set MTR_SUM_LO_MJ (sum % 2 ^ 32)).set
      MTR_SUM_HI_MJ (sum / 2 ^ 32)).set MTR_STAT_EPOCH 0
    .next (if ptp then (s3.set MTR_MINUTE_MINUTE (s.ce.epPtp / 60)).set MTR_STAT_PTP 1
      else s3.set MTR_MINUTE_MINUTE ((s.get MTR_MINUTE_MINUTE + 1) % 2 ^ 32))

end Sys2Proof.Machine
end

