-- ==== Sys2Proof/Machine/BoardOps.lean ====
section
/-!
DEFINITION. The board descriptor (R508 to R511): its header, its TLVs, the rules it must keep, and the values that Jack
loads from it.
-/

namespace Sys2Proof.Machine

open Sys2Proof

/-- Value length and instances of each listed type (Table: Board descriptor TLVs): type, VLEN, least and most instances. -/
def tlvTypes : List (Nat × Nat × Nat × Nat) :=
  [(0x0001, 32, 1, 1), (0x0002, 12, 1, 1), (0x0003, 4, 0, 1), (0x0010, 12, 2, 2), (0x0011, 4, 1, 1), (0x0012, 4, 1, 1),
    (0x0020, 20, 4, 4), (0x0030, 48, 7, 7), (0x0031, 44, 1, 1), (0x0040, 8, 1, 1), (0x0050, 4, 1, 1)]

/-- The fields of a TLV's value lie within their ranges (Table: Board descriptor TLVs). -/
def tlvOk (ty : Nat) (v : List Byte) : Bool :=
  let u (off n : Nat) : Nat := fieldAt v off n
  let within (x lo hi : Nat) : Bool := decide (lo ≤ x) && decide (x ≤ hi)
  let zero (off n : Nat) : Bool := zeroBytes (slice v off n)
  if ty = 0x0001 then zero 20 12 && ((slice v 0 16).all fun b => decide (b.toNat < 128))
  else if ty = 0x0002 then
    within (u 0 1) 0 3 && within (u 1 1) 0 3 && !(u 0 1 == 0 && u 1 1 == 0) && bitsOf (u 2 2) 3 0 == 0 &&
      bitsOf (u 4 2) 3 0 == 0 && zero 10 2
  else if ty = 0x0003 then within (u 1 1) 1 255 && zero 2 2
  else if ty = 0x0010 then
    within (u 0 1) 0 1 && zero 1 1 && within (u 2 2) 500 4166 && within (u 4 2) 100 20000 && within (u 6 2) 10 10000 &&
      within (u 8 2) 50 1000 && zero 10 2
  else if ty = 0x0011 then within (u 0 2) 11000 13000 && within (u 2 2) 25 255
  else if ty = 0x0012 then within (u 0 2) 9500 10500 && within (u 2 2) 47500 52500
  else if ty = 0x0020 then
    within (u 0 1) 0 3 && zero 1 1 &&
      ((List.range 3).all fun k => decide (-1024 ≤ signedAt v (2 + 2 * k) 2) && decide (signedAt v (2 + 2 * k) 2 ≤ 1024)) &&
      within (u 8 2) 3000 4500 && decide (1 ≤ u 12 2) && decide (u 14 1 ≤ 150) && zero 16 4
  else if ty = 0x0030 then
    let a := u 0 1
    within a 0 6 && decide (u 1 1 < 8) && within (u 2 1) 0 1 && zero 3 1 && (decide (4 ≤ a) || u 4 4 == 150000) &&
      decide (u 10 2 ≤ if a < 4 then 150 else 300) && decide (u 12 2 < 4096) && zero 14 2 &&
      decide (u 28 2 ≤ u 32 2) && decide (u 30 2 ≤ u 32 2) && decide (u 32 2 ≤ u 34 2) &&
      ((List.range 5).all fun k => decide (0 < u (36 + 2 * k) 2)) && zero 46 2
  else if ty = 0x0031 then decide (signedAt v 24 4 < signedAt v 28 4) && decide (u 40 1 < 8) && zero 41 3
  else if ty = 0x0050 then decide (u 0 1 < u 1 1) && decide (u 1 1 ≤ 110) && zero 2 2
  else true

/-- A descriptor is valid (R509, R510). -/
def boardValid (b : List Byte) : Bool :=
  let len := fieldAt b 8 4
  slice b 0 4 == [0x4B, 0x42, 0x44, 0x53] && fieldAt b 4 2 == 0x0100 && fieldAt b 6 2 == 0 && fieldAt b 14 2 == 0 &&
    len == b.length && len % 4 == 0 && decide (64 ≤ len) && decide (len ≤ 65536) &&
    ofBytes (b.drop (len - 32)) == (Config.shake256 (b.take (len - 32))).toNat % 2 ^ 256 &&
    match boardTlvs b with
    | none => false
    | some t =>
      fieldAt b 12 2 == t.length &&
        (t.all fun e => (decide (0x8000 ≤ e.1) && decide (e.1 ≤ 0xFFFE)) ||
          (match tlvTypes.find? fun r => r.1 == e.1 with
            | some r => r.2.1 == e.2.length && tlvOk e.1 e.2
            | none => false)) &&
        (tlvTypes.all fun r =>
          let mine := t.filter fun e => e.1 == r.1
          decide (r.2.2.1 ≤ mine.length) && decide (mine.length ≤ r.2.2.2) &&
            (decide (r.2.2.2 ≤ 1) || (List.range r.2.2.2).all fun i => mine.any fun e => fieldAt e.2 0 1 == i))

/-- The highest SPD_MAX of a back-EMF constant in mV per 1,000 rpm: 7,500 rpm, or the highest multiple of 100 rpm that
gives 30 V (R225). -/
def speedLimit (ke : Nat) : Nat := if ke = 0 then 7500 else min 7500 (30000000 / ke / 100 * 100)

/-- Changes the state with the value of a TLV, where the descriptor has it. -/
def State.withTlv (s : State) (b : List Byte) (ty inst : Nat) (f : State → List Byte → State) : State :=
  match boardValue b ty inst with
  | some v => f s v
  | none => s

/-- Jack loads the board values (R510, R511). -/
def State.loadBoard (s : State) : State :=
  let b := s.sys.board
  let ports := s.withTlv b 0x0002 0 fun t v =>
    (List.range 2).foldl (fun (t : State) p =>
      ((t.set (NET_PORT_CTL_PMD p) (fieldAt v p 1)).setReg (NET_PORT_EQ p) (BitVec.ofNat 32 (fieldAt v (2 + 2 * p) 2))).set
        (NET_PORT_ASYM_ASYM p) (fieldAt v (6 + 2 * p) 2)) t
  let svc := ports.withTlv b 0x0003 0 fun t v => (t.set NET_SVC_CFG_NODE_ID (fieldAt v 0 1)).set NET_SVC_CFG_NODE_CNT (fieldAt v 1 1)
  let spn := (List.range 2).foldl (fun (t : State) st => t.withTlv b 0x0010 st fun u v =>
    (u.set (SPN_KE_NOM st) (fieldAt v 2 2)).set (SPN_LIM_SPD_MAX st) (speedLimit (fieldAt v 2 2))) svc
  let brk := spn.withTlv b 0x0011 0 fun t v => (t.set PWR_BRK_CFG_RES (fieldAt v 0 2)).set PWR_BRK_CFG_RATING (fieldAt v 2 2)
  let pu := (List.range 4).foldl (fun (t : State) n => t.withTlv b 0x0020 n fun u v =>
    let w := (List.range 3).foldl (fun (x : State) k => x.setInt (CHN_SKEW_SKEW (4 * n + k + 1)) (signedAt v (2 + 2 * k) 2)) u
    (((((w.set (CHN_SKEW_SKEW (4 * n)) 0).set (OPU_TEMP_LIM n) (fieldAt v 10 2)).set (OPU_SA_CFG_SETTLE n) (fieldAt v 12 2)).set
      (OPU_LASER_CFG_RD_ILIM n) (fieldAt v 14 1)).set (OPU_LASER_CFG_WR_ILIM n) (fieldAt v 15 1))) brk
  let ax := (List.range 7).foldl (fun (t : State) a => t.withTlv b 0x0030 a fun u v =>
    let w (off n : Nat) : Nat := fieldAt v off n
    let pair (i : Nat) : Word := BitVec.ofNat 32 (w (28 + 2 * i) 2)
    let both (lo hi : Nat) : Word := BitVec.ofNat 32 (w (28 + 2 * lo) 2 + 65536 * w (28 + 2 * hi) 2)
    let u1 := ((((u.set (AX_LIM_CFG_POL a) (w 1 1)).set (AX_HOME_CFG_DIR a) (w 2 1)).set (AX_CUR_RUN a) (w 10 2)).set
      (AX_HOME_CFG_HOME_V a) (w 12 2)).setReg (AX_HOME_POS a) (BitVec.ofNat 32 (w 16 4))
    let u2 := (u1.setReg (AX_SLIM_LO a) (BitVec.ofNat 32 (w 20 4))).setReg (AX_SLIM_HI a) (BitVec.ofNat 32 (w 24 4))
    ((((u2.setReg (AX_VSS a) (both 0 1)).setReg (AX_VBM a) (both 2 3)).setReg (AX_ACC a) (both 4 5)).setReg (AX_DEC a)
      (both 6 7)).setReg (AX_EDEC a) (pair 8)) pu
  let mag := ax.withTlv b 0x0031 0 fun t v =>
    (List.range 10).foldl (fun (u : State) k => u.setReg (MAG_SLOT_Z0 + 4 * k) (BitVec.ofNat 32 (fieldAt v (4 * k) 4))) t
  mag.withTlv b 0x0050 0 fun t v => (t.set PWR_TEMP_WARN (fieldAt v 0 1)).set PWR_TEMP_STOP (fieldAt v 1 1)

end Sys2Proof.Machine
end

