-- ==== Sys2Proof/Machine/TxnOps.lean ====
section
/-!
DEFINITION. Measurement registers, and configuration transactions: how a transaction ends without a commit, the validation
of a shadow and what each domain's commit does when it is applied (R73, R74, R158, R225, R260, R313, R331, R335, R380,
R397, R430, R439, R500, R521 to R533, R641, R642).
DEDUCED (notes/assumptions/34.md, unsafe): Transactions: policies and contracts are checked only for tenants changed, CMD_RANGE checks the registers before the contracts, the time-out restarts at shadow writes and failed commits.
-/

namespace Sys2Proof.Machine

open Sys2Proof

/-! ### MSRs (R500) -/

/-- The low `n` bytes of a 512-bit hash. -/
def hashBytes (n : Nat) (h : BitVec 512) : List Byte := toBytes n h.toNat

/-- MSR_n is extended with data: d is the hash of the data, and MSR_n becomes the hash of MSR_n followed by d. -/
def State.extendMsr (s : State) (n : Nat) (data : List Byte) : State :=
  let old := (s.sec.msr[n]?).getD 0
  let d := Config.shake256 data
  { s with sec := { s.sec with msr := s.sec.msr.setIfInBounds n (Config.shake256 (hashBytes 64 old ++ hashBytes 64 d)) } }

/-! ### Transactions that end without a commit -/

abbrev lastCommitted : Nat := 1
abbrev lastInvalid : Nat := 2
abbrev lastRolledBack : Nat := 3
abbrev lastTimedOut : Nat := 4
abbrev lastOwnerLost : Nat := 5
abbrev lastDiscarded : Nat := 6

/-- The domain returns to IDLE with an outcome. -/
def State.closeTxn (s : State) (d last : Nat) : State :=
  let s1 := s.setTxn d {}
  (((((s1.set (TXN_STAT_W0_STATE d) 0).set (TXN_STAT_W0_SVC d) 0).set (TXN_STAT_W0_WRITES d) 0).set (TXN_STAT_W0_SESSION d) 0).set
    (TXN_STAT_W2_LAST d) last).set (TXN_STAT_W2_REASON d) 0

/-- The domain's transaction is OPEN and has passed no commit. -/
def State.txnOpen (s : State) (d : Nat) : Bool := s.txnState d == 1 && (s.txnOf d).commit.isNone

/-- The OPEN transactions of a management session that closes are rolled back (R529). -/
def State.ownerLost (s : State) (p : Path) : State :=
  (List.range 4).foldl (fun (t : State) d => if t.txnOpen d && t.ownsTxn p d then t.closeTxn d lastOwnerLost else t) s

/-- SAFE_STOP discards every transaction; a TXN_COMMIT that has passed and is not yet applied completes with INTERNAL
(R530). -/
def State.discardTxns (s : State) : State :=
  (List.range 4).foldl (fun (t : State) d =>
    if t.txnState d = 0 then t
    else
      let u := t.closeTxn d lastDiscarded
      match (t.txnOf d).commit with
      | some id => match u.cmdOf id with
        | some c => u.finishWith c 0x800B
        | none => u
      | none => u) s

/-! ### Validation -/

/-- The shadow word of a FE_SUP page as a commit takes it: what the owner wrote, else the applied word where the slot is
FE_SUP already, else 0 (R641). -/
def State.supShadow (s : State) (n k : Nat) : Nat :=
  match (s.txnOf 2).shadow.find? fun e => e.1 == pageAddr n (8 + k) with
  | some e => e.2.toNat % 256
  | none => if s.get (CE_PAGE_TYPE n) = tySup then (s.page n (8 + k)).toNat % 256 else 0

/-- The state as it would be with every shadow word of a domain applied. -/
def State.proposed (s : State) (d : Nat) : State :=
  (s.txnChanges d).foldl (fun (t : State) e => t.setReg e.1 e.2) s

/-- The slots that a valid SUP_k word of a FE_SUP page names. -/
def State.supList (s t : State) (n : Nat) : List Nat :=
  if t.get (CE_PAGE_TYPE n) = tySup then ((List.range 8).map fun k => s.supShadow n k).filterMap fun w =>
    if w.testBit 7 then some (w % 64) else none
  else []

/-- The slots of a schedule that a proposed state visits. -/
def State.planned (t : State) : List Nat := List.range (min 48 (t.get CE_SCHED_LEN_LEN))

/-- End cycle of each visited slot, every slot counted as enabled. -/
def State.slotEnds (t : State) : List (Nat × Nat) :=
  (t.planned.foldl (fun (acc : List (Nat × Nat) × Nat) n =>
    let e := acc.2 + typeCycles (t.get (CE_PAGE_TYPE n))
    (acc.1 ++ [(n, e)], e)) ([], 160)).1

/-- The first element of a list that satisfies a test, as a locator of a failure with a code. -/
def failAt {α : Type} (code : Nat) (l : List α) (loc : α → Nat) (bad : α → Bool) : Option (Nat × Nat) :=
  (l.find? bad).map fun x => (code, loc x)

/-- A slot's references suit its kernel type (Table: Reference rules, R642). -/
def State.refsOk (s t : State) (n : Nat) : Bool :=
  let ty := t.get (CE_PAGE_TYPE n)
  let i := t.get (CE_PAGE_IN_SEL n)
  let o := t.get (CE_PAGE_OUT_SEL n)
  let sp := t.get (CE_PAGE_SP_SRC n)
  let within (x lo hi : Nat) : Bool := decide (lo ≤ x) && decide (x ≤ hi)
  if ty = tyEmpty then i == 0xFF && o == 0xFF && decide (sp ≤ 2)
  else if ty = tyPos then
    (within i 0x00 0x2E || within i 0x30 0x3B || within i 0x44 0x47) && (within o 0x00 0x0B || within o 0x28 0x2B) && decide (sp ≤ 1)
  else if ty = tySpd then
    -- a slot that becomes SPD_SMC has OBS_SLOT 0 (R641)
    let obs := if s.get (CE_PAGE_TYPE n) = tySpd then (t.page n 16).toNat else 0
    within i 0x48 0x49 && o == i - 0x48 + 0x10 && decide (sp ≤ 2) && t.get (CE_PAGE_LAYER_SCHED n) == 0 &&
      t.planned.contains obs && t.get (CE_PAGE_TYPE obs) == tyObs && t.get (CE_PAGE_IN_SEL obs) == i - 0x48 + 0x50
  else if ty = tyLpc then
    ((within i 0x3C 0x3F && o == i - 0x3C + 0x18) || (within i 0x40 0x43 && o == i - 0x40 + 0x1C)) && decide (sp ≤ 1)
  else if ty = tySa then i == 0xFF && within o 0x20 0x23 && sp == 0
  else if ty = tyObs then within i 0x50 0x51 && o == 0xFF && sp == 0
  else if ty = tySup then
    i == 0xFF && o == 0xFF && sp == 0 && (s.supList t n).all fun k => t.planned.contains k &&
      (t.get (CE_PAGE_TYPE k) == tyPos || t.get (CE_PAGE_TYPE k) == tySpd)
  else false

/-- The structure of a slot: the RWS fields of its word 0, and the lists of a FE_SUP page (R73). -/
def State.slotShape (s t : State) (n : Nat) (applied : Bool) : Nat × List Nat :=
  (putBits (t.reg (pageAddr n 0)).toNat 4 4 0,
    if t.get (CE_PAGE_TYPE n) ≠ tySup then []
    else (List.range 8).map fun k => if applied then (s.page n (8 + k)).toNat % 256 else s.supShadow n k)

/-- A commit changes a slot's structure. -/
def State.reshaped (s t : State) (n : Nat) : Bool := s.slotShape s n true != s.slotShape t n false

/-- The schedule rules (Table: Schedule validation), in the order of their codes. -/
def State.ceCheck (s t : State) : List (Option (Nat × Nat)) :=
  let ends := t.slotEnds
  let ty (n : Nat) : Nat := t.get (CE_PAGE_TYPE n)
  let out (n : Nat) : Nat := t.get (CE_PAGE_OUT_SEL n)
  let later (n : Nat) : Option Nat := if out n = 0xFF then none else t.planned.find? fun m => decide (n < m) && out m == out n
  let listed (n : Nat) : Nat := (t.planned.filter fun f => (s.supList t f).contains n).length
  [failAt 1 ends (·.1) fun e => decide (1440 < e.2),
    failAt 2 ends (·.1) fun e => drives (ty e.1) && decide (1200 < e.2),
    (t.planned.findSome? later).map fun m => (3, m),
    failAt 4 (List.range 48) id fun n => (ty n == tyPos || ty n == tySpd) && listed n != 1,
    if 48 < t.get CE_SCHED_LEN_LEN then some (5, CE_SCHED_LEN) else failAt 5 t.planned id fun n => !s.refsOk t n,
    failAt 6 (List.range 48) id fun n => s.reshaped t n && s.flag (CE_PAGE_EN n) && s.get (CE_PAGE_TYPE n) != tySup]

/-- WI_RANGE and SPN_RANGE (R158, R225, R260). -/
def State.servoCheck (t : State) : List (Option (Nat × Nat)) :=
  let within (x lo hi : Nat) : Bool := decide (lo ≤ x) && decide (x ≤ hi)
  let spn (st : Nat) : List (Nat × Bool) :=
    [(SPN_LIM st, decide (t.get (SPN_LIM_SPD_MAX st) + 100 ≤ t.get (SPN_LIM_OVERSPEED st)) &&
        decide (t.get (SPN_LIM_SPD_MAX st) ≤ speedLimit (t.get (SPN_KE_NOM st))) && decide (t.get (SPN_LIM_OVERSPEED st) ≤ 8000)),
      (SPN_ILIM st, decide (t.get (SPN_ILIM_RUN st) ≤ 120) && decide (t.get (SPN_ILIM_ZV st) ≤ t.get (SPN_ILIM_RUN st))),
      (SPN_MAR_CFG st, within (t.get (SPN_MAR_CFG_TRIM st)) 1 20), (SPN_HOLD st, within (t.get (SPN_HOLD_VSET st)) 260 330)]
  [failAt 7 (List.range 4) (fun n => OPU_WI_CFG n) fun n =>
      !(within (t.get (OPU_WI_CFG_PES n)) 20 250 && within (t.get (OPU_WI_CFG_SHOCK n)) 20 255),
    failAt 8 (spn 0 ++ spn 1) (·.1) fun e => !e.2]

/-- The keys of the map fields (R313). -/
def isMapKey (k : Nat) : Bool :=
  k == PLC_DM_ID_LO || k == PLC_DM_ID_HI || k == PLC_DM_EPOCH || k == PLC_DM_SELF || (decide (0x1000000 ≤ k) && decide (k < 0x1100000))

/-- The map a commit would apply is one that the rules allow (Table: Domain map validation). -/
def State.mapCheck (s t : State) : List (Option (Nat × Nat)) :=
  let idChanged := decide (t.domainId ≠ s.domainId)
  let idLoc := if t.domainId ≠ 0 ∧ t.reg PLC_DM_ID_LO = s.reg PLC_DM_ID_LO then PLC_DM_ID_HI else PLC_DM_ID_LO
  let self := t.get PLC_DM_SELF_SELF
  let entries := (List.range 512).map fun d => (d, t.dmState d, (List.range 4).map fun w => t.dmWord d (2 + w))
  let present := entries.filter fun e => e.2.1 != 0
  let twin (e : Nat × Nat × List Nat) : Option Nat := (present.find? fun f => decide (e.1 < f.1) && e.2.2 == f.2.2).map (·.1)
  [if t.domainId = 0 ∨ (idChanged = true ∧ s.mode ≠ modeProvision) then some (0x11, idLoc) else none,
    if (t.reg PLC_DM_EPOCH).toNat ≤ (s.reg PLC_DM_EPOCH).toNat then some (0x12, PLC_DM_EPOCH) else none,
    if t.dmState self = 1 ∨ t.dmState self = 2 then none else some (0x13, PLC_DM_SELF),
    failAt 0x14 (List.range 512) id fun d => bitsOf (t.dmWord d 0) 8 0 != d,
    (present.findSome? twin).map fun d => (0x15, d)]

/-- CHN_RANGE, the map rules, DM_RANGE, ARB_STARVE and ARB_RANGE (R313, R439). -/
def State.mediaCheck (s t : State) : List (Option (Nat × Nat)) :=
  let within (x lo hi : Nat) : Bool := decide (lo ≤ x) && decide (x ≤ hi)
  let chn : List (Nat × Bool) := (List.range 4).flatMap fun n =>
    [(CHN_WR_CTL n, decide (t.get (CHN_WR_CTL_REWR_MAX n) ≤ 32)),
      (CHN_VER_CFG n, within (t.get (CHN_VER_CFG_VER_SYNC n)) 40 48 && within (t.get (CHN_VER_CFG_VER_ITER n)) 1 20)]
  let slots := (List.range 256).map fun k => (t.reg (ARB_SLOT k)).toNat
  let served (st c : Nat) : Bool := slots.any fun w => w.testBit (20 + st) || w.testBit (if c = 8 then 16 + st else 8 * st + c)
  let starved := (List.range 2).findSome? fun st => ((List.range 9).find? fun c => !served st c).map fun c => c + 16 * st
  let arb : List (Nat × Bool) :=
    [(ARB_CFG, within (t.get ARB_CFG_JOB_MAX) 1 255), (ARB_STN_WDOG, within (t.get ARB_STN_WDOG_STN_WDOG) 1 3600),
      (ARB_PK_WDOG, within (t.get ARB_PK_WDOG_PK_WDOG) 1 3600), (ARB_PARK, decide (t.get ARB_PARK_PARK_TMO ≤ 3600))] ++
      (List.range 256).zipWith (fun k w => (ARB_SLOT k, bitsOf w 31 22 == 0 && bitsOf w 19 18 == 0)) slots
  [failAt 0x10 chn (·.1) fun e => !e.2] ++ (if (s.txnChanges 1).any fun e => isMapKey e.1 then s.mapCheck t else []) ++
    [if within (t.get PLC_PEER_CFG_CAND) 2 15 then none else some (0x16, PLC_PEER_CFG), starved.map fun l => (0x17, l),
      failAt 0x18 arb (·.1) fun e => !e.2]

/-- A policy word holds values that R335 allows. -/
def policyOk (w : Word) : Bool :=
  let f (hi lo : Nat) : Nat := bitsOf w.toNat hi lo
  decide (1 ≤ f 7 4) && decide (f 7 4 ≤ f 3 0) && decide (f 3 0 ≤ 3) && decide (1 ≤ f 23 20) && decide (f 23 20 ≤ 4) &&
    decide (f 19 18 ≤ 2) && decide (f 17 16 ≤ 2)

/-- POL_RANGE to CMD_HOUSE (R331, R335, R430). -/
def State.tenantCheck (s t : State) : List (Option (Nat × Nat)) :=
  let keys := (s.txnChanges 0).map (·.1)
  let pols := (keys.filter fun k => decide (0x1100000 ≤ k) && decide (k < 0x1104000)).map fun k => (k - 0x1100000) / 4
  let cons := (keys.filter fun k => decide (0x1200000 ≤ k) && decide (k < 0x1300000)).map fun k => (k - 0x1200000) / 16
  let wait (c : Nat) : Nat := t.maxWait c
  [failAt 0x20 pols id fun c => !policyOk (t.reg (keyPol c)),
    if pols.contains 0 then some (0x21, 0) else none,
    failAt 0x22 pols id fun c => s.plc.tombs.any fun b => b.whole && b.tenant == c,
    if t.get CMD_ADM_CFG2_DEF_CLAMP < 1000 then some (0x23, CMD_ADM_CFG2)
    else failAt 0x23 cons id fun c => t.contract c && (bitsOf (t.reg (keyTc c 0)).toNat 7 0 == 0 || wait c == 0 || wait c == 0xFFFFFFFF),
    if cons.contains 0 then some (0x24, 0) else none]

/-- NET_RANGE (R380). -/
def State.netCheck (t : State) : List (Option (Nat × Nat)) :=
  let l : List (Nat × Bool) :=
    [(NET_PORT_CTL 0, decide (t.get (NET_PORT_CTL_PMD 0) ≤ 3)), (NET_PORT_CTL 1, decide (t.get (NET_PORT_CTL_PMD 1) ≤ 3)),
      (NET_MAC_HI, !(t.reg NET_MAC_HI).getLsbD 8), (NET_VLAN, t.get NET_VLAN_VID != 4095),
      (NET_IP_CFG, decide (t.get NET_IP_CFG_PFX4 ≤ 32) && decide (t.get NET_IP_CFG_PFX6 ≤ 128)),
      (NET_FWD_CFG, decide (10 ≤ t.get NET_FWD_CFG_AGE) && decide (16 ≤ t.get NET_FWD_CFG_ECN_THR)), (NET_MTU, t.get NET_MTU_MTU != 3),
      (NET_PFC_CFG, decide (t.get NET_PFC_CFG_XON < t.get NET_PFC_CFG_XOFF))]
  [failAt 0x30 l (·.1) fun e => !e.2]

/-- The first rule that a domain's shadow breaks: its code and locator (R524). -/
def State.txnCheck (s : State) (d : Nat) : Option (Nat × Nat) :=
  let t := s.proposed d
  (if d = 0 then s.tenantCheck t
  else if d = 1 then s.mediaCheck t
  else if d = 2 then s.ceCheck t ++ t.servoCheck
  else t.netCheck).findSome? id

/-! ### What a commit does when it is applied -/

/-- The register address and index value by which a word is reached. -/
def wordPlace (k : Nat) : Nat × Nat :=
  if k < 0x1000000 then (k, 0)
  else if k < 0x1100000 then (PLC_DM_DATA, (k - 0x1000000) / 4)
  else if k < 0x1200000 then (PLC_POL_DATA, (k - 0x1100000) / 4)
  else (CMD_TC_DATA, (k - 0x1200000) / 4)

/-- Table: Transaction record. -/
def txnRecord (d seq : Nat) (l : List (Nat × Word)) : List Byte :=
  let words := sortBy (fun (a b : (Nat × Nat) × Word) => decide (a.1.1 < b.1.1) || (a.1.1 == b.1.1 && decide (a.1.2 ≤ b.1.2)))
    (l.map fun e => (wordPlace e.1, e.2))
  [0x4B, 0x54, 0x58, 0x4E] ++ toBytes 1 d ++ [0, 0, 0] ++ toBytes 4 seq ++ toBytes 4 words.length ++
    words.flatMap fun e => toBytes 4 e.1.1 ++ toBytes 4 e.1.2 ++ toBytes 4 e.2.toNat

/-- A commit is fully applied: SEQ rises, MSR_6 is extended, the event is captured and TXN_COMMIT completes (R526, R532). -/
def State.txnDone (s : State) (d : Nat) (changed : List (Nat × Word)) : State :=
  let id := (s.txnOf d).commit
  let s1 := (s.closeTxn d lastCommitted).incWrap (TXN_STAT_W1_SEQ d)
  let seq := s1.get (TXN_STAT_W1_SEQ d)
  let s2 := (s1.extendMsr 6 (txnRecord d seq changed)).capture evTxn 0 (BitVec.ofNat 32 (d + 4 * (seq % 2 ^ 30)))
  match id.bind fun i => s2.cmdOf i with
  | some c => s2.finish c {}
  | none => s2

/-- The words of a slot's page that a change of its TYPE sets (R641): zero, but for the SUP_k words of a slot that becomes
FE_SUP, and the board values of a slot that becomes BEMF_OBS or changes station. The page's unit of KE_NOM is not stated:
its word is a free value. -/
def State.retype (s old : State) (n : Nat) : State :=
  let ty := s.get (CE_PAGE_TYPE n)
  let s1 := if ty = old.get (CE_PAGE_TYPE n) then s
    else (List.range 56).foldl (fun (t : State) w =>
      t.setReg (pageAddr n (8 + w)) (if ty = tySup ∧ w < 8 then BitVec.ofNat 32 (old.supShadow n w) else 0)) s
  let st := s.get (CE_PAGE_IN_SEL n) - 0x50
  if ty = tyObs ∧ (ty ≠ old.get (CE_PAGE_TYPE n) ∨ s.get (CE_PAGE_IN_SEL n) ≠ old.get (CE_PAGE_IN_SEL n)) then
    s1.withTlv s.sys.board 0x0010 st fun t v =>
      let (w, u) := t.draw
      ((u.setReg (pageAddr n 8) (bfpWord ((fieldAt v 4 2 : Nat) / 1000))).setReg (pageAddr n 9) (bfpWord (fieldAt v 6 2 : Nat))).setReg
        (pageAddr n 10) w
  else s1

/-- A slot whose structure a commit changes starts with cleared state and EN = 0, and the buffered writes to it that R74
discards leave the buffer. -/
def State.resetSlot (s : State) (n : Nat) : State :=
  let s1 := (s.set (CE_PAGE_EN n) 0).setSlot n {}
  let s2 := (((s1.setReg (CE_KST_W0 n) 0).setReg (CE_KST_W1 n) 0).setReg (CE_KST_W2 n) 0).setReg (CE_KST_W3 n) 0
  let ty := s.get (CE_PAGE_TYPE n)
  let gone (a : Nat) (v : Word) : Bool :=
    a == pageAddr n 0 || (decide (pageAddr n 8 ≤ a) && decide (a ≤ pageAddr n 63) && !wordListed ty ((a - pageAddr n 0) / 4) && v != 0)
  { s2 with ce := { s2.ce with wbuf := s2.ce.wbuf.filter fun (e : Nat × Word) => !gone e.1 e.2, wwait := s2.ce.wwait.filter fun (e : Path × Nat × Word) => !gone e.2.1 e.2.2 } }.wbufUsed

/-- The following-error counts of the slots that a FE_SUP slot supervises start at 0. -/
def State.clearCounts (s : State) (n : Nat) : State :=
  if s.get (CE_PAGE_TYPE n) ≠ tySup then s
  else (List.range 8).foldl (fun (t : State) k =>
    let w := (t.page n (8 + k)).toNat
    if w.testBit 7 then (t.set (CE_KST_W3_FE_CNT (w % 64)) 0).setSlot (w % 64) { t.slot (w % 64) with feRaised := false } else t) s

/-- The servo domain's commit, from the state before it to the state with its words applied (R73, R74, R641). -/
def State.applyServo (old s : State) : State :=
  let changed := (List.range 48).filter fun n => old.reshaped s n
  let s1 := changed.foldl (fun (t : State) n => (((t.retype old n).resetSlot n).clearCounts n)) s
  let ends := s1.slotEnds
  let total := match ends.getLast? with
    | some e => e.2
    | none => 160
  let outEnd := match (ends.filter fun e => drives (s1.get (CE_PAGE_TYPE e.1))).getLast? with
    | some e => e.2
    | none => 160
  (s1.set CE_BUDGET_TOTAL total).set CE_BUDGET_OUT_END outEnd

/-- The bytes of the domain map over which MAP_TAG is computed (R313). -/
def State.mapBytes (s : State) : List Byte :=
  (List.range 4096).flatMap fun k => toBytes 4 (s.reg (0x1000000 + 4 * k)).toNat

/-- A map that has passed R313 is applied: MAP_TAG, DOMAIN_MAP, and STALE and CONFLICT under R317. -/
def State.applyMap (s : State) : State :=
  let h := (Config.shake256 s.mapBytes).toNat
  let s1 := ((s.setReg PLC_DM_TAG_LO (BitVec.ofNat 32 h)).setReg PLC_DM_TAG_HI (BitVec.ofNat 32 (h / 2 ^ 32))).set SYS_STAT_DOMAIN_MAP 1
  let s2 := (s1.set PLC_STAT_DM_VALID 1).set PLC_STAT_ACTIVE ((List.range 512).filter fun d => s1.dmState d == 1).length
  let e := (s.reg PLC_DM_EPOCH).toNat
  let seen := (s.reg PLC_DM_SEEN).toNat
  let tagSeen := s.reg PLC_DM_SEEN_TAG_HI ++ s.reg PLC_DM_SEEN_TAG_LO
  if seen < e ∨ (seen = e ∧ s2.mapTag = tagSeen) then (s2.set PLC_STAT_STALE 0).set PLC_STAT_CONFLICT 0 else s2

/-- A fresh estimate of a command that waits goes to its host (REHINT). -/
def State.rehint (s : State) (id : Nat) : State := match s.cmdOf id with
  | none => s
  | some c => match s.jobOf c with
    | none => s
    | some j =>
      let e := s.estimate j
      let pos := s.position j
      (s.modCmd id fun x => { x with est := s.tick / 500 + e, pos := pos, hinted := some (s.get TICK_EPOCH_EPOCH) }).interim c
        { status := 0x1002, time := e, aux := pos }

/-- The waiting jobs of the tenants whose PRIO_MAX a commit has changed take their new class, and each of their commands
receives a REHINT; commands take it for their next job (R397). -/
def State.reclass (old s : State) : State :=
  let moved (t : Nat) : Bool := old.prioMax t != s.prioMax t
  let cls (c : Cmd) : Nat := min (c.e.flags.toNat % 8) (s.prioMax c.tenant)
  let hit := s.cmd.cmds.filter fun c => moved c.tenant && c.tenant != 0
  let s1 := hit.foldl (fun (t : State) c => t.modCmd c.id fun x => { x with prio := cls c }) s
  let ids := (hit.filter fun c => s.arb.jobs.any fun j => j.cmd == some c.id).map Cmd.id
  let s2 := { s1 with arb := { s1.arb with jobs := s1.arb.jobs.map fun (j : Job) => match hit.find? fun c => j.cmd == some c.id with
    | some c => { j with cls := cls c }
    | none => j } }
  ids.foldl (fun (t : State) i => t.rehint i) s2

/-- Waiting house jobs take the classes of ARB_HOUSE (R446). -/
def State.reclassHouse (s : State) : State :=
  { s with arb := { s.arb with jobs := s.arb.jobs.map fun (j : Job) => if j.kind.house && j.kind != .mig && j.kind != .maint then { j with cls := s.houseClass j.kind } else j } }

end Sys2Proof.Machine
end

