-- ==== Sys2Proof/Machine/NetOps.lean ====
section
/-!
DEFINITION. The host ports, the device's addresses, what it sends, the time client, and sessions from their connection to
their end (08_ethernet_chain.md: R339 to R374; 09_commands.md: R415; 10_arbitration_cache.md: R454).
PRESUMED (notes/assumptions/32.md, unsafe): Network timers and formulas that the spec takes from standards: BMCA order, DCQCN constants, PTP addresses, CNP interval.
DEDUCED (notes/assumptions/33.md, unsafe): Network: FWD_LOOP once per TICK second, learning refreshed on arrival, LINK_UP from any state but UP when a restart is coded, a REQ outstanding counts for MGMT_BUSY and SESSIONS_FULL.
-/

namespace Sys2Proof.Machine

open Sys2Proof

def State.modNet (s : State) (f : NetSt → NetSt) : State := { s with net := f s.net }

/-! ### Addresses (R342, R343, R347) -/

/-- NET_MAC, octet 0 first. -/
def State.mac (s : State) : BitVec 48 := (s.reg NET_MAC_HI).setWidth 16 ++ s.reg NET_MAC_LO

/-- The octets of an IPv6 address register group: byte 4·k in bits 7:0 of word k. -/
def wordOctets (w : Word) : BitVec 32 :=
  w.extractLsb' 0 8 ++ w.extractLsb' 8 8 ++ w.extractLsb' 16 8 ++ w.extractLsb' 24 8

/-- The link-local address of a MAC address by the modified EUI-64 rule. -/
def linkLocal (m : BitVec 48) : BitVec 128 :=
  (0xFE80000000000000#64) ++ ((m.extractLsb' 40 8 ^^^ 0x02#8) ++ m.extractLsb' 24 16 ++ 0xFFFE#16 ++ m.extractLsb' 0 24)

/-- An IPv4 address in its IPv6-mapped form. -/
def v4mapped (a : BitVec 32) : BitVec 128 := (0xFFFF#96) ++ a

/-- The global IPv6 address and the IPv4 address, where they are set. -/
def State.globalIp (s : State) : Option (BitVec 128) :=
  let a := wordOctets (s.reg (NET_IP6 0)) ++ wordOctets (s.reg (NET_IP6 1)) ++ wordOctets (s.reg (NET_IP6 2)) ++ wordOctets (s.reg (NET_IP6 3))
  if a = 0 then none else some a

def State.ip4 (s : State) : Option (BitVec 32) := if s.reg NET_IP4 = 0 then none else some (wordOctets (s.reg NET_IP4))

/-- The IPv6 addresses the device holds. -/
def State.ip6s (s : State) : List (BitVec 128) := linkLocal s.mac :: s.globalIp.toList

/-- The multicast groups the device has joined: all nodes, the solicited-node group of each IPv6 address, and the PTP groups
over IEEE 802.3, UDP on IPv6 and UDP on IPv4. -/
def State.groups (s : State) : List (BitVec 48) :=
  [0x333300000001, 0x011B19000000, 0x333300000181, 0x01005E000181] ++ s.ip6s.map fun (a : BitVec 128) => (0x3333FF#24) ++ a.setWidth 24

/-! ### Sending (R345, R353, R372, R374) -/

abbrev portUpCode : Nat := 4

def State.portState (s : State) (p : Nat) : Nat := s.get (NET_PORT_STAT_STATE p)
def State.isUp (s : State) (p : Nat) : Bool := s.portState p == portUpCode

/-- A received PFC holds a frame of a priority on a port. -/
def State.pfcHolds (s : State) (p : Nat) (prio : Option Nat) : Bool :=
  s.flag NET_PFC_CFG_EN && prio == some (s.get NET_PFC_CFG_PRIO) && s.flag (NET_PORT_STAT_PFC_HELD p)

/-- DSCP of a frame, and whether it is a RoCEv2 packet, which is marked ECT(0) (Table: Traffic classes, R372). -/
def State.classOf (s : State) (what : NetOut) : Nat × Bool :=
  match what with
  | .retransmit _ => (s.get NET_QOS_DSCP_DATA, true)
  | .nak _ _ => (s.get NET_QOS_DSCP_DATA, true)
  | .cnp _ => (s.get NET_QOS_DSCP_CNP, true)
  | .rep _ _ => (0, true)
  | .rej _ => (0, true)
  | .dreq _ => (0, true)
  | .drep _ => (0, true)
  | _ => (0, false)

/-- A frame waits to leave a port. -/
def State.emit (s : State) (p : Nat) (prio : Option Nat) (what : NetOut) (event : Bool := false) : State :=
  s.modNet fun n => { n with out := n.out ++
    [{ port := p, prio := prio, what := what, event := event, dscp := (s.classOf what).1, ect := (s.classOf what).2 }] }

/-! ### Egress (R349, R350, R374) -/

/-- The bytes that a transit frame takes in its buffer; the device's own frames take none. -/
def Sent.bytes (x : Sent) : Nat := match x.what with
  | .fwd len _ _ _ => len
  | _ => 0

def Sent.transit (x : Sent) : Bool := match x.what with
  | .fwd _ _ _ _ => true
  | _ => false

/-- A PTP event message, from either source. -/
def Sent.isEvent (x : Sent) : Bool := x.event || x.what == .delayReq

/-- Occupancy of the transit buffer towards a port, in bytes. -/
def State.transitBytes (s : State) (p : Nat) : Nat := ((s.net.out.filter fun x => x.port == p).map Sent.bytes).sum

/-- Transit frames and own frames, one each in turn while both wait; `last` tells that a transit frame went last. -/
def takeTurns (last : Bool) : Nat → List Sent → List Sent → List Sent
  | 0, l, m => l ++ m
  | _, [], m => m
  | _, l, [] => l
  | n + 1, x :: l, y :: m => if last then y :: takeTurns false n (x :: l) m else x :: takeTurns true n l (y :: m)

/-- The order in which a port sends what waits for it and is not held (R349, R374). -/
def State.egressOrder (s : State) (p : Nat) : List Sent :=
  let l := s.net.out.filter fun x => x.port == p && !s.pfcHolds p x.prio
  let rest := l.filter fun x => !x.isEvent
  l.filter Sent.isEvent ++
    takeTurns ((s.net.lastTransit[p]?).getD false) rest.length (rest.filter Sent.transit) (rest.filter fun x => !x.transit)

/-- The first `k` frames that a port sends leave. -/
def State.egress (s : State) (p k : Nat) : State :=
  let go := (s.egressOrder p).take k
  let last := ((go.filter fun x => !x.isEvent).getLast?).map Sent.transit
  s.modNet fun n => { n with out := go.foldl List.erase n.out, sent := n.sent ++ go
                             lastTransit := n.lastTransit.setIfInBounds p (last.getD ((n.lastTransit[p]?).getD false)) }

/-- What a port that is UP sends in a tick; how many frames that are is a free value.
DESIGN CHOICE (notes/assumptions/62.md, safe). -/
def State.egressTick (s : State) (p : Nat) : State :=
  let n := (s.egressOrder p).length
  if !s.isUp p || n == 0 then s
  else
    let (w, s1) := s.draw
    s1.egress p (w.toNat % (n + 1))

/-- PCP of own traffic, when frames are tagged. -/
def State.ownPrio (s : State) (pcp : Nat) : Option Nat := if s.get NET_VLAN_VID = 0 then none else some pcp

def State.dataPrio (s : State) : Option Nat :=
  s.ownPrio (if s.flag NET_PFC_CFG_EN then s.get NET_PFC_CFG_PRIO else s.get NET_QOS_PCP_DATA)

/-- The port an own unicast frame goes out: the learned one, else PRIMARY, else the other; none when both are down. -/
def State.portFor (s : State) (m : BitVec 48) : Option Nat :=
  let learned := (s.net.learn.find? fun e => e.1 == m && s.isUp e.2.1).map fun (e : BitVec 48 × Nat × Nat) => e.2.1
  let prim := s.get NET_FWD_CFG_PRIMARY
  match learned with
  | some p => some p
  | none => if s.isUp prim then some prim else if s.isUp (1 - prim) then some (1 - prim) else none

/-- An own unicast frame. -/
def State.sendTo (s : State) (m : BitVec 48) (prio : Option Nat) (what : NetOut) : State := match s.portFor m with
  | some p => s.emit p prio what
  | none => s

/-- An IPv4 address in its IPv6-mapped form, read back. -/
def unmapped (a : BitVec 128) : Option (BitVec 32) := if a.extractLsb' 32 96 = 0xFFFF#96 then some (a.setWidth 32) else none

/-- The first `n` bits of two addresses agree. -/
def samePrefix {w : Nat} (n : Nat) (a b : BitVec w) : Bool := a >>> (w - min n w) == b >>> (w - min n w)

/-- The IPv6 gateway. -/
def State.gateway6 (s : State) : BitVec 128 :=
  wordOctets (s.reg (NET_GW6 0)) ++ wordOctets (s.reg (NET_GW6 1)) ++ wordOctets (s.reg (NET_GW6 2)) ++ wordOctets (s.reg (NET_GW6 3))

/-- The neighbour that a packet to an address goes to (R344): the address itself on the link, by PFX4 and PFX6 or as a
link-local address, else the gateway where one is set. -/
def State.nextHop (s : State) (a : BitVec 128) : BitVec 128 :=
  match unmapped a with
  | some v =>
    if (s.ip4.any fun o => samePrefix (s.get NET_IP_CFG_PFX4) o v) || s.reg NET_GW4 == 0 then a
    else v4mapped (wordOctets (s.reg NET_GW4))
  | none =>
    if a.extractLsb' 118 10 = 0x3FA#10 ∨ (s.globalIp.any fun o => samePrefix (s.get NET_IP_CFG_PFX6) o a) = true ∨ s.gateway6 = 0 then a
    else s.gateway6

/-- An own packet to an IP address: to the MAC address that the neighbour cache gives for the next hop, whose entry is used anew;
else the address is asked for on every port that is UP, and the packet waits (R344). -/
def State.sendIp (s : State) (a : BitVec 128) (prio : Option Nat) (what : NetOut) : State :=
  let hop := s.nextHop a
  match s.net.neigh.find? fun e => e.1 == hop with
  | some (_, m, _) =>
    (s.modNet fun n => { n with neigh := n.neigh.map fun e => if e.1 = hop then (e.1, e.2.1, s.tick) else e }).sendTo m prio what
  | none =>
    (List.range 2).foldl (fun (t : State) p => if t.isUp p then t.emit p (t.ownPrio 0) (.solicit hop) else t)
      (s.modNet fun n => { n with wait := n.wait ++ [(hop, prio, what)] })

/-- An IP address enters the neighbour cache, which holds 1,024, and what waited for it is sent (R344). -/
def State.noteNeighbour (s : State) (a : BitVec 128) (m : BitVec 48) : State :=
  let rest := s.net.neigh.filter fun e => e.1 != a
  let s1 := s.modNet fun n =>
    { n with neigh := if rest.length < 1024 then rest ++ [(a, m, s.tick)] else n.neigh, wait := n.wait.filter fun w => w.1 != a }
  (s.net.wait.filter fun w => w.1 == a).foldl (fun (t : State) w => t.sendTo m w.2.1 w.2.2) s1

/-- The announcements of R354 on every port that is UP. -/
def State.announce (s : State) : State :=
  (List.range 2).foldl (fun (t : State) p =>
    if !t.isUp p then t
    else
      let t1 := t.ip6s.foldl (fun (u : State) a => u.emit p (u.ownPrio 0) (.advert a false)) t
      match t1.ip4 with
      | some a => t1.emit p (t1.ownPrio 0) (.arp a false)
      | none => t1) s

/-- Ticks after a port change at which announcements are sent. -/
def annTimes : List Nat := [500, 125000, 500000, 2000000]

/-! ### The time client (R360, R361) -/

/-- Order of the best master clock algorithm between masters of one domain: the data sets, then the steps removed, then port
A. -/
def masterKey (a : Master) : List Nat := [a.prio1, a.cls, a.acc, a.var, a.prio2, a.id.toNat, a.port, a.steps]

def bestMaster : List Master → Option Master
  | [] => none
  | a :: l => match bestMaster l with
    | some b => if keyLt (masterKey b) (masterKey a) then some b else some a
    | none => some a

/-- The client takes the best master heard; a change of port or master has the path delay measured anew by four Delay_Req
exchanges. -/
def State.chooseMaster (s : State) : State := match bestMaster s.net.masters with
  | none => s.modNet fun n => { n with master := none }
  | some b =>
    let same := s.net.master.any fun a => a.id == b.id && a.port == b.port
    let s1 := ((s.set NET_PTP_STAT_PORT b.port).setReg NET_PTP_GM_LO (b.id.setWidth 32)).setReg NET_PTP_GM_HI ((b.id >>> 32).setWidth 32)
    if same then s1.modNet fun n => { n with master := some b }
    else (s1.modNet fun n => { n with master := some b, delays := 4, good := 0 }).emit b.port (s1.ownPrio 0) .delayReq

/-- The masters heard on a port are given up: the other port's master is taken, or PTP time becomes invalid. -/
def State.loseMasters (s : State) (p : Nat) : State :=
  let used := s.net.master.any fun a => a.port == p
  let s1 := s.modNet fun n => { n with masters := n.masters.filter fun a => a.port != p }
  if used then
    let s2 := s1.chooseMaster
    if s2.net.master.isNone then s2.ptpValidity false else s2
  else s1

/-! ### Ports (R339, R341, R354) -/

/-- Where a port that is not UP stands: it restarts as its attachment asks, or stays DOWN while it is disabled, has no
attachment, or the start-up has not come to the host ports. -/
def State.restartCode (s : State) (p : Nat) : Nat :=
  let pmd := s.get (NET_PORT_CTL_PMD p)
  if !s.flag (NET_PORT_CTL_ENABLE p) || s.sys.boot != .done || s.get UPD_STAT_STATE == 5 then 0
  else if pmd = 1 ∨ pmd = 2 then 1
  else if pmd = 3 then 3
  else 0

/-- LINK_A, LINK_B and the events of a port that changes to or from UP. -/
def State.linkChange (s : State) (p : Nat) (up : Bool) : State :=
  let s1 := s.setFlag (if p = 0 then SYS_STAT_LINK_A else SYS_STAT_LINK_B) up
  (s1.capture evLink 0 (BitVec.ofNat 32 (p + if up then 2 else 0))).modNet fun n => { n with annAt := s.tick, annDone := 0 }

/-- A port goes down, or restarts: what waits to leave it is lost, transit frames counted (R351). `fault`: LINK_DOWN is raised. -/
def State.portDown (s : State) (p : Nat) (fault : Bool) : State :=
  let s1 := (((s.set (NET_PORT_STAT_STATE p) (s.restartCode p)).set (NET_PORT_STAT_FEC_LOCK p) 0).set (NET_PORT_STAT_PCS_LOCK p) 0).set
    (NET_PORT_STAT_PFC_HELD p) 0
  let lost := s.net.out.filter fun x => x.port == p && x.transit
  let s2 := (s1.modNet fun n => { n with out := n.out.filter fun x => x.port != p }).addSat (NET_PORT_DROP_DOWN p) lost.length
  if s.isUp p then
    let s3 := ((s2.addSat (NET_PORT_DOWNS_COUNT p) 1).linkChange p false).modNet fun n => { n with flush := n.flush.setIfInBounds p true }
    (if fault then s3.raise 0x070 1 p else s3).loseMasters p
  else s2

/-- A port becomes UP. -/
def State.portComes (s : State) (p : Nat) : State :=
  (((((s.set (NET_PORT_STAT_STATE p) portUpCode).set (NET_PORT_STAT_FEC_LOCK p) 1).set (NET_PORT_STAT_PCS_LOCK p) 1).set
    (NET_PORT_STAT_HI_SER p) 0).set (NET_PORT_STAT_AN_FAIL p) 0).linkChange p true

/-! ### Sessions (R365 to R371, R415) -/

def State.connOf (s : State) (sid : BitVec 14) : Option Conn := s.net.conns.find? fun c => c.sid == sid

def State.modConn (s : State) (sid : BitVec 14) (f : Conn → Conn) : State :=
  s.modNet fun n => { n with conns := n.conns.map fun c => if c.sid = sid then f c else c }

/-- A packet to the host of a session. -/
def State.sendSess (s : State) (sid : BitVec 14) (prio : Option Nat) (what : NetOut) : State := match s.connOf sid with
  | some c => s.sendIp c.ip prio what
  | none => s

/-- NET_SESS follows the sessions open. -/
def State.netSess (s : State) : State :=
  let s1 := s.set NET_SESS_OPEN s.cmd.sessions.length
  match s.cmd.sessions.find? fun x => x.mgmt with
  | some x => (s1.set NET_SESS_MGMT_VALID 1).set NET_SESS_MGMT_ID x.id.toNat
  | none => (s1.set NET_SESS_MGMT_VALID 0).set NET_SESS_MGMT_ID 0

/-- A session closes, for whatever reason: it is reset, its transactions are rolled back (R529), its context lines are
unlocked (R454), and its ID is free again after 1 s. -/
def State.closeSession (s : State) (sid : BitVec 14) (dreq : Bool) : State := match s.session? sid with
  | none => s
  | some x =>
    let p := Path.session sid
    let s1 := (s.sessionReset p dreq).ownerLost p
    let s2 := if x.mgmt then (s1.unlockWays fun w => (contextLines sid.toNat).contains w.tag).countLocks else s1
    let s3 := { s2 with cmd := { s2.cmd with sessions := s2.cmd.sessions.filter fun y => y.id != sid } }
    let kept := s3.sec.quotes.filter fun q => q.path != p || q.state == 1
    let quotes := kept.map fun (q : Quote) => if q.path = p then { q with dropped := true } else q
    let s4 := { s3 with sec := { s3.sec with quotes := quotes } }
    (s4.modNet fun n => { n with conns := n.conns.filter fun c => c.sid != sid, freed := n.freed ++ [(sid, s.tick)] }).netSess

/-- The device closes a session with DREQ (R346, R370). -/
def State.disconnect (s : State) (sid : BitVec 14) : State :=
  let s1 := s.sendSess sid (s.ownPrio 0) (.dreq sid)
  if (s.session? sid).isSome then (s1.closeSession sid false).modNet fun n => { n with closing := n.closing ++ [sid] } else s

/-- Every open session is disconnected (R346). -/
def State.disconnectAll (s : State) : State := (s.cmd.sessions.map fun x => x.id).foldl (fun (t : State) i => t.disconnect i) s

/-- A session has exhausted a retry count: SESS_TRANSPORT, and the device closes it (R370). -/
def State.transportFail (s : State) (sid : BitVec 14) : State :=
  if (s.session? sid).isSome then ((s.disconnect sid).addSat NET_CM_CNT_TRANSPORT 1).raise 0x070 4 sid.toNat else s

/-- A command's access to its host buffer has failed: HOST_ACCESS. -/
def State.hostAccess (s : State) (sid : BitVec 14) (cid : BitVec 16) : State :=
  match (s.cmdsOf (.session sid)).find? fun c => c.e.cid == cid with
  | none => s
  | some c =>
    if c.op = opPut then
      match s.plc.units.find? fun u => u.cmd == some c.id && u.phase == .fetch with
      | some u => (s.failUnit u 0x8004).settle
      | none => s
    else if c.op = opGet then ((s.endJobs c.id).finishWith c 0x8004).settle
    else s

/-! ### Congestion (R373) -/

/-- Rates in Mb/s: the floor, the steps of recovery. -/
def State.rateFloor (s : State) : Rat := (s.get NET_RC_RATE_MIN : Nat)
abbrev lineRate : Rat := 100000

/-- The stages of fast recovery. -/
abbrev fastStages : Nat := 5

def State.rateGain (s : State) : Rat := 1 / (2 ^ s.get NET_RC_CFG_G_SHIFT : Nat)

/-- A CNP cuts the rate and raises α; recovery starts anew. -/
def State.rateCut (s : State) (c : Conn) : Conn :=
  let g := s.rateGain
  { c with target := c.rate, rate := max s.rateFloor (c.rate * (1 - c.alpha / 2)), alpha := (1 - g) * c.alpha + g, tStage := 0, bStage := 0 }

/-- One stage of recovery: fast while neither counter has passed it, hyper when both have, additive between. -/
def State.rateStage (s : State) (c : Conn) : Conn :=
  let top := max c.tStage c.bStage
  let low := min c.tStage c.bStage
  let target := if top < fastStages then c.target
    else if fastStages < low then min lineRate (c.target + (s.get NET_RC_RATE_HAI * 1000 : Nat))
    else min lineRate (c.target + (s.get NET_RC_RATE_AI * 1000 : Nat))
  { c with target := target, rate := max s.rateFloor (min lineRate ((target + c.rate) / 2)) }

/-- The rate after a RATE_T period in which bytes have been sent: one timer stage, and one stage for each 10 MiB. -/
def State.rateBytes (s : State) : Nat → Conn → Conn
  | 0, c => c
  | k + 1, c => State.rateBytes s k (s.rateStage { c with bStage := c.bStage + 1 })

/-! ### What a tick does on the network -/

/-- What the FEC of a port that is not DOWN reports of a tick: the codewords are counted, HI_SER shows the symbol-error ratio (R339). -/
def State.fecTick (x : Samples) (s : State) (p : Nat) : State :=
  if s.portState p = 0 then s.modNet fun n => { n with serRun := n.serRun.setIfInBounds p 0 }
  else
    let hi := x.hiSer.toNat.testBit p
    (((s.addSat (NET_PORT_FEC_CORR p) ((x.fecCorr[p]?).getD 0).toNat).addSat (NET_PORT_FEC_UNCORR p) ((x.fecUncorr[p]?).getD 0).toNat).setFlag
      (NET_PORT_STAT_HI_SER p) hi).modNet fun n =>
        { n with serRun := n.serRun.setIfInBounds p (if hi then (n.serRun[p]?).getD 0 + 1 else 0) }

/-- The boundary's work: learning entries of lost ports go, a PFC hold ends, frames leave, and the disconnection
after a network commit is made (R346, R354, R374). -/
def State.netTick (x : Samples) (s0 : State) : State :=
  let s := State.fecTick x (State.fecTick x s0 0) 1
  let gone (p : Nat) : Bool := (s.net.flush[p]?).getD false
  let s1 := s.modNet fun n => { n with learn := n.learn.filter fun e => !gone e.2.1, flush := Vector.replicate 2 false }
  let s2 := s1.set NET_FWD_STAT_LEARNED s1.net.learn.length
  let s3 := (List.range 2).foldl (fun (t : State) p =>
    if t.flag (NET_PORT_STAT_PFC_HELD p) && decide ((t.net.pfcUntil[p]?).getD 0 ≤ t.tick) then
      t.set (NET_PORT_STAT_PFC_HELD p) 0
    else t) s2
  let s4 := (s3.egressTick 0).egressTick 1
  match s4.net.closeDue with
  | some at_ => if at_ < s4.tick then (s4.modNet fun n => { n with closeDue := none }).disconnectAll else s4
  | none => s4

end Sys2Proof.Machine
end

