-- ==== Sys2Proof/Machine/TxnApply.lean ====
section
/-!
DEFINITION. Configuration transactions as commands, and how a commit that has passed is applied (13_configuration.md: R520
to R532; R346, R438).
DEDUCED (notes/assumptions/34.md, unsafe): Transactions: policies and contracts are checked only for tenants changed, CMD_RANGE checks the registers before the contracts, the time-out restarts at shadow writes and failed commits.
-/

namespace Sys2Proof.Machine

open Sys2Proof

/-! ### Applying -/

/-- The key is that of an ARB_SLOT word. -/
def isSlotKey (k : Nat) : Bool := decide (ARB_SLOT 0 ≤ k) && decide (k < ARB_SLOT 256)

/-- Words written at their keys. -/
def State.putWords (s : State) (l : List (Nat × Word)) : State := l.foldl (fun (t : State) e => t.setReg e.1 e.2) s

/-- A change of one of these words disconnects every session (R346). -/
def isAddressKey (k : Nat) : Bool :=
  k == NET_MAC_LO || k == NET_MAC_HI || k == NET_VLAN || k == NET_IP4 || k == NET_GW4 ||
    (decide (NET_IP6 0 ≤ k) && decide (k < NET_IP6 4)) || (decide (NET_GW6 0 ≤ k) && decide (k < NET_GW6 4))

/-- What a network commit does beside its words: a port whose PMD changes goes down and restarts, a change of address,
gateway or VLAN disconnects every session at the next tick boundary, and PFC and PLCA follow their registers. -/
def State.applyNet (old s : State) (l : List (Nat × Word)) : State :=
  let s1 := (List.range 2).foldl (fun (t : State) p =>
    if old.get (NET_PORT_CTL_PMD p) = t.get (NET_PORT_CTL_PMD p) then t else t.portDown p true) s
  let s2 := s1.setFlag NET_SVC_STAT_PLCA (s1.flag NET_SVC_STAT_UP && s1.get NET_SVC_CFG_NODE_ID != 255)
  let s3 := if s2.flag NET_PFC_CFG_EN then s2
    else (s2.set (NET_PORT_STAT_PFC_HELD 0) 0).set (NET_PORT_STAT_PFC_HELD 1) 0
  s3.when (l.any fun e => isAddressKey e.1) fun t => t.modNet fun n => { n with closeDue := some t.tick }

/-- What a domain's commit does beside its words. -/
def State.applyDomain (old s : State) (d : Nat) (l : List (Nat × Word)) : State :=
  if d = 0 then old.reclass (s.set SYS_STAT_TENANTS 1)
  else if d = 1 then ((if l.any fun e => isMapKey e.1 then s.applyMap else s).reclassHouse).settle
  else if d = 2 then old.applyServo s
  else old.applyNet s l

/-- The slot table of a PENDING_EPOCH commit applies at an epoch boundary, and the commit is done (R438, R526). -/
def State.epochApply (s : State) : State :=
  if s.txnState 1 = 2 then
    let t := s.txnOf 1
    (s.putWords t.shadow).txnDone 1 t.changed
  else s

/-- A commit that has passed is applied at its tick boundary: in ascending domain order (R531), all but the slot table at
once. -/
def State.applyTxn (s : State) (d : Nat) : State :=
  let t := s.txnOf d
  let lower := (List.range d).any fun k => (s.txnOf k).commit.isSome && s.txnState k == 1
  if t.commit.isNone || s.txnState d != 1 || lower then s
  else
    let all := s.txnChanges d
    let slots := all.filter fun e => isSlotKey e.1
    let now := all.filter fun e => !isSlotKey e.1
    let s1 := s.applyDomain (s.putWords now) d now
    if slots.isEmpty then s1.txnDone d all
    else
      let s2 := (s1.setTxn d { t with shadow := slots, changed := all }).set (TXN_STAT_W0_STATE d) 2
      if s.ce.epTick = s.tick ∧ s.tick ≠ 0 then s2.epochApply else s2

/-! ### Commands -/

/-- TXN_BEGIN. -/
def State.runBegin (s : State) (c : Cmd) : State :=
  let d := c.e.arg0.toNat
  if s.txnState d ≠ 0 then s.finishWith c 0x4010
  else
    let s1 := (s.setTxn d { lastAt := s.tick }).set (TXN_STAT_W0_STATE d) 1
    let s2 := match c.path with
      | .service => s1.set (TXN_STAT_W0_SVC d) 1
      | .session id => s1.set (TXN_STAT_W0_SESSION d) id.toNat
    s2.finish c {}

/-- TXN_COMMIT: refused to all but the owner of an OPEN transaction; a shadow that breaks a rule fails with its code and
locator; one that passes waits for its tick boundary. -/
def State.runCommit (s : State) (c : Cmd) : State :=
  let d := c.e.arg0.toNat
  if !s.txnOpen d || !s.ownsTxn c.path d then s.finishWith c 0x4010
  else
    let t := s.txnOf d
    let s1 := s.setTxn d { t with lastAt := s.tick }
    match s1.txnCheck d with
    | some (code, loc) =>
      let s2 := ((s1.set (TXN_STAT_W2_LAST d) lastInvalid).set (TXN_STAT_W2_REASON d) code).setReg (TXN_STAT_W3 d) (BitVec.ofNat 32 loc)
      let (w, s3) := s2.draw
      s3.finish c { status := 0x400F, res0 := code, res1 := loc, time := w.toNat }
    | none =>
      let s2 := s1.setTxn d { t with lastAt := s.tick, commit := some c.id }
      { s2 with cmd := { s2.cmd with cmds := s2.cmd.cmds ++ [{ c with started := true }] } }.cmdCounts

/-- TXN_ROLLBACK. -/
def State.runRollback (s : State) (c : Cmd) : State :=
  let d := c.e.arg0.toNat
  if !s.txnOpen d || !s.ownsTxn c.path d then s.finishWith c 0x4010 else (s.closeTxn d lastRolledBack).finish c {}

/-- TXN_BEGIN (R521). -/
def execTxnBegin (p : Path) (e : Entry) (s : State) : Out := .next (s.command p opTxnBegin e State.runBegin)

/-- TXN_COMMIT (R523 to R525). -/
def execTxnCommit (p : Path) (e : Entry) (s : State) : Out := .next (s.command p opTxnCommit e State.runCommit)

/-- TXN_ROLLBACK (R523, R527). -/
def execTxnRollback (p : Path) (e : Entry) (s : State) : Out := .next (s.command p opTxnRollback e State.runRollback)

/-- TXN_APPLY (R30, R526, R531, R532). -/
def execTxnApply (d : Fin 4) (s : State) : Out := .next (s.applyTxn d)

/-- TXN_TIMEOUT (R528). -/
def execTxnTimeout (d : Fin 4) (s : State) : Out :=
  if s.txnOpen d = true ∧ 500000 * s.get TXN_CFG_TMO ≤ s.tick - (s.txnOf d).lastAt then
    .next ((s.closeTxn d lastTimedOut).raise 0x0B0 1 d)
  else .next s

end Sys2Proof.Machine
end

