-- ==== Sys2Proof/Machine/Cal.lean ====
section
/-!
DEFINITION. The meanings of the calibration commands (13_configuration.md: R534 to R549).
-/

namespace Sys2Proof.Machine

open Sys2Proof

/-! ### Campaigns -/

/-- CAL_START: refused outside MAINTAIN, while a campaign runs, with a zero MASK, and for station procedures without a
clamped disc (R539). The write sets the RW fields too. -/
def execCalStart (p : Path) (mask : BitVec 10) (autoEn : Bool) (stn : Fin 2) (s : State) : Out :=
  let ok := s.mode == modeMaintain && s.cal.camp.isNone && mask != 0 && (decide (mask.toNat < 8) || s.clamped stn)
  .next (s.writeBy p ok fun t =>
    ((((t.set CAL_CTL_MASK mask.toNat).setFlag CAL_CTL_AUTO_EN autoEn).set CAL_CTL_STN stn.val)).campStart mask.toNat stn false)

/-- CAL_ABORT (R542). -/
def execCalAbort (p : Path) (s : State) : Out := .next (s.writeBy p true fun t => t.campAbort)

/-- CAL_ACK (R543): the result is discarded. -/
def execCalAck (p : Path) (s : State) : Out := .next (s.writeBy p true fun t => t.setReg CAL_RES 0)

/-- CAL_RES_READ (R543): the first read after READY makes the result CONSUMED. -/
def execCalResRead (p : Path) (s : State) : Out :=
  .next (s.readBy p false fun t => ([t.reg CAL_RES], if t.get CAL_RES_RES = 1 then t.set CAL_RES_RES 2 else t))

/-- The state with a procedure's results in its registers; of SPN_COMM a procedure writes OFFS. -/
def State.putResults (s : State) (proc stn : Nat) (words : List Word) : State :=
  ((procRegs proc stn).zip words).foldl (fun (t : State) (e : Nat × Word) =>
    if e.1 = SPN_COMM stn then t.set (SPN_COMM_OFFS stn) (e.2.toNat % 65536) else t.setReg e.1 e.2) s

/-- A procedure that runs ends: in a campaign, or on its own (R538). -/
def State.procDone (s : State) (proc stn : Nat) (words : List Word) (offs : List (BitVec 16)) : State :=
  let camp := s.cal.camp.any fun c => c.left.head? == some proc && (decide (proc < 3) || (c.stn == stn && (decide (proc < 4) || s.flag (SPN_STAT_AT_SPEED stn))))
  let dev := s.cal.dev.head? == some proc
  if !camp && !dev then s
  else
    let t := s.putResults proc stn words
    let twice := proc != 3 || (match offs with
      | [a, b] => decide (ratAbs (wrap180 ((((a.toNat : Int) - b.toNat : Int) : Rat) / 100)) ≤ 5)
      | _ => false)
    let ok := words.length == (procRegs proc stn).length && twice && t.procOk proc stn
    let after (u : State) : State := if camp then u else u.modCal fun k => { k with dev := k.dev.drop 1 }
    if !ok then (if camp then s.campFail proc else after (s.calFail proc stn false))
    else
      let t1 := t.procSet proc stn
      let t2 := if proc < 3 then t1 else t1.modCal fun k => { k with ptp := k.ptp.setIfInBounds stn s.ce.ptpSec }
      let t3 := if proc = 5 then t2.modCal fun k =>
          { k with temps := (k.temps.setIfInBounds (2 * stn) (s.get (OPU_TEMP_TEMP (2 * stn)))).setIfInBounds (2 * stn + 1) (s.get (OPU_TEMP_TEMP (2 * stn + 1))) }
        else t2
      let t4 := if proc = 6 then (t3.set (OPU_STAT_SA_READY (2 * stn)) 0).set (OPU_STAT_SA_READY (2 * stn + 1)) 0 else t3
      after (if camp then t4.campPass proc else t4)

/-- CAL_PROCEDURE_DONE (R535, R536): the words the procedure has measured, in the order of its registers, and for ENC the
two measurements of OFFS. -/
def execCalProcedureDone (proc : Fin 10) (stn : Fin 2) (words : List Word) (offs : List (BitVec 16)) (s : State) : Out :=
  .next (s.procDone proc stn words offs)

/-- AUTO_CAMPAIGN_START (R547): the automatic campaign's job holds its station with a disc clamped. -/
def execAutoCampaignStart (st : Fin 2) (s : State) : Out :=
  let mine := (s.arbOf st).job.any fun j => j.kind == .cal && (s.view st).holds j
  if mine = true ∧ s.clamped st = true ∧ s.cal.camp.isNone = true ∧ s.flag (calPendFld st) = true then .next (s.campStart 0x3F8 st true)
  else .next s

/-! ### Blobs (R544 to R549) -/

abbrev blobLen : Nat := 3488

/-- The last 32 bytes of the board descriptor. -/
def State.boardTail (s : State) : List Byte := slice s.sys.board (s.sys.board.length - 32) 32

/-- A byte string with the words of a station's results written at their places. -/
def State.blobBody (s : State) (st : Nat) : List Byte :=
  let word (off : Nat) : List Byte := match (blobPlaces st).find? fun e => e.1 == off with
    | some e => toBytes 4 (s.reg e.2.1).toNat
    | none => [0, 0, 0, 0]
  (List.range ((0xD80 - 0x80) / 4)).flatMap fun i => word (0x80 + 4 * i)

/-- The blob of a station, from the values in force. -/
def State.blob (s : State) (st : Nat) : List Byte :=
  let head := padTo 0x80
    ([0x4B, 0x43, 0x41, 0x4C] ++ toBytes 2 (s.get CAL_FMT_FORMAT) ++ toBytes 1 st ++ [0] ++ toBytes 4 blobLen ++
      toBytes 2 (8 * s.get (calStnFld st)) ++ [0, 0] ++ s.serialBytes ++ s.boardTail ++ toBytes 8 ((s.cal.ptp[st]?).getD 0) ++
      toBytes 2 ((s.cal.temps[2 * st]?).getD 0) ++ toBytes 2 ((s.cal.temps[2 * st + 1]?).getD 0))
  let body := head ++ s.blobBody st
  body ++ hashBytes 32 (Config.shake256 body)

/-- CAL_SAVE. -/
def State.runCalSave (s : State) (c : Cmd) : State :=
  if c.path = .service then s.finishWith c stBadField
  else if c.e.len.toNat < blobLen then
    let (w, s1) := s.draw
    s1.finish c { status := 0x4013, res0 := blobLen, time := w.toNat }
  else s.finish c { res0 := blobLen, data := s.blob c.e.arg0.toNat }

/-- CAL_SAVE (R544). -/
def execCalSave (p : Path) (e : Entry) (s : State) : Out := .next (s.command p opCalSave e State.runCalSave)

/-- The state with the results that a blob flags in its registers. -/
def State.putBlob (s : State) (st : Nat) (b : List Byte) : State :=
  let valid := fieldAt b 0x0C 2
  ((blobPlaces st).filter fun e => valid.testBit e.2.2).foldl (fun (t : State) (e : Nat × Nat × Nat) =>
    t.setReg e.2.1 (BitVec.ofNat 32 (fieldAt b e.1 4))) s

/-- The first check of R545 that a blob fails: 1 to 5. -/
def State.blobFails (s : State) (st : Nat) (b : List Byte) : Option Nat :=
  let valid := fieldAt b 0x0C 2
  if b.length ≠ blobLen ∨ slice b 0 4 ≠ [0x4B, 0x43, 0x41, 0x4C] ∨ fieldAt b 8 4 ≠ blobLen ∨
      slice b 0xD80 32 ≠ hashBytes 32 (Config.shake256 (b.take 0xD80)) then some 1
  else if fieldAt b 4 2 ≠ s.get CAL_FMT_FORMAT then some 2
  else if fieldAt b 6 1 ≠ st ∨ slice b 0x10 16 ≠ s.serialBytes then some 3
  else if slice b 0x20 32 ≠ s.boardTail then some 4
  else if (List.range 7).any fun i => valid.testBit (i + 3) && !(s.putBlob st b).procOk (i + 3) st then some 5
  else none

def calOutFld (st : Nat) : Fld := if st = 0 then CAL_LOAD_STAT_OUT_0 else CAL_LOAD_STAT_OUT_1

/-- The results of a station return to their reset values after CAL_FORMAT (R546). -/
def State.dropResults (s : State) (st : Nat) : State :=
  let s1 := (blobPlaces st).foldl (fun (t : State) (e : Nat × Nat × Nat) =>
    if e.2.1 = SPN_COMM st then t.set (SPN_COMM_OFFS st) 0 else t.setReg e.2.1 (resetWord e.2.1)) s
  ((s1.set (calStnFld st) 0).calShow).when (s.flag CAL_CTL_AUTO_EN) fun t => t.set (calPendFld st) 1

/-- The device stops granting a station and spins it down (R432). -/
def State.stationDown (s : State) (st : Nat) : State :=
  (((s.leaveService st).puPark (2 * st) resDone).puPark (2 * st + 1) resDone).spnStop st

/-- CAL_LOAD with the bytes fetched from the host buffer: refused by its checks, or waiting for the station to be OFF; a
station that is not is spun down. -/
def State.runCalLoad (blob : List Byte) (s : State) (c : Cmd) : State :=
  let st := c.e.arg0.toNat
  let b := blob.take c.e.len.toNat
  match s.blobFails st b with
  | some 2 =>
    let s1 := (s.dropResults st).set (calOutFld st) 2
    let (w, s2) := s1.draw
    -- R52: in SERVE a station without valid calibration is granted to no job and stays spun down
    (s2.when (s2.mode == modeServe) fun t => t.stationDown st).finish c { status := 0x4012, res0 := fieldAt b 4 2 + 65536 * s.get CAL_FMT_FORMAT, time := w.toNat }
  | some k => (s.set (calOutFld st) 3).finish c { status := stBadField, res0 := k }
  | none =>
    let s1 := { s with cmd := { s.cmd with cmds := s.cmd.cmds ++ [{ c with started := true }] } }.cmdCounts
    let s2 := s1.modCal fun k => { k with loads := k.loads ++ [{ cmd := c.id, stn := st, blob := b }] }
    if s.spnState st = spOff ∨ s.spnState st = spUnusable then s2
    else s2.stationDown st

/-- CAL_LOAD (R545, R546). -/
def execCalLoad (p : Path) (e : Entry) (blob : List Byte) (s : State) : Out := .next (s.command p opCalLoad e (State.runCalLoad blob))

/-- CAL_LOAD_APPLY (R548): the station is OFF, and the oldest blob that waits for it is loaded. -/
def execCalLoadApply (st : Fin 2) (s : State) : Out :=
  match s.cal.loads.find? fun l => l.stn == st.val with
  | none => .next s
  | some l =>
    if s.spnState st ≠ spOff then .next s
    else
      let s1 := s.putBlob st l.blob
      let s2 := (s1.set (calStnFld st) (s1.get (calStnFld st) ||| bitsOf (fieldAt l.blob 0x0C 2) 9 3)).calShow
      let s3 := s2.modCal fun k =>
        { k with loads := k.loads.erase l, ptp := k.ptp.setIfInBounds st (fieldAt l.blob 0x40 8), temps := (k.temps.setIfInBounds (2 * st.val) (fieldAt l.blob 0x48 2)).setIfInBounds (2 * st.val + 1) (fieldAt l.blob 0x4A 2) }
      let s4 := ((s3.set (calPendFld st) 0).set (calOutFld st) 1).dropJobs fun j => j.kind == .cal && j.station == st.val
      .next (match s4.cmdOf l.cmd with
        | some c => (s4.finish c {}).settle
        | none => s4)

end Sys2Proof.Machine
end

