-- ==== Sys2Proof/Machine/FltOps.lean ====
section
/-!
DEFINITION. The fault collector at a tick boundary (R552 to R561): the reactions to the messages of the last tick, the
collection of the messages of this one, the station holds and the self-check.
-/

namespace Sys2Proof.Machine

open Sys2Proof

/-! ### Owl events of faults (R573, R574) -/

/-- FLAGS of a FAULT event: injected, test, severity applied. -/
def faultFlags (m : Msg) (sev : Nat) : Nat := (if m.injected then 2 else 0) + (if m.test then 4 else 0) + 8 * sev

/-- The FAULT event of a message. -/
def State.faultEvent (s : State) (m : Msg) (sev : Nat) : State := s.capture evFault (faultFlags m sev) m.word

/-- The FAULT event of a message at LOG: at most one for a source and kind in LOG_GAP pairs of ticks (R573). -/
def State.logEvent (s : State) (m : Msg) : State :=
  let key := 64 * m.src + m.kind
  let soon := match s.flt.logAt.find? fun e => e.1 == key with
    | some e => decide (s.tick < e.2 + 2 * s.get FLT_CFG_LOG_GAP)
    | none => false
  if soon then s
  else
    let s1 := s.faultEvent m sevLog
    { s1 with flt := { s1.flt with logAt := (key, s.tick) :: s1.flt.logAt.filter fun e => e.1 != key } }

/-- The count of events that ends in a freeze starts with the first DEVICE reaction (R574). -/
def State.startPost (s : State) : State :=
  if s.flag OWL_STAT_FROZEN || s.owl.post.isSome then s
  else if s.get OWL_CFG_POST = 0 then s.set OWL_STAT_FROZEN 1
  else { s with owl := { s.owl with post := some (s.get OWL_CFG_POST) } }

/-! ### Collection (R552, R556) -/

/-- A message is collected: LAST and TICK of its source show it, its event is captured and its reaction falls due. The
event of a DEVICE message is captured by its reaction (R574). -/
def State.collectOne (s : State) (m : Msg) : State :=
  let sev := s.sevInForce m
  let s1 := (s.setReg (keySrc m.src 1) m.word).setReg (keySrc m.src 2) (BitVec.ofNat 32 s.tick)
  let s2 := if sev = sevLog then s1.logEvent m else if sev = sevDevice then s1 else s1.faultEvent m sev
  if sev = sevLog then s2 else { s2 with flt := { s2.flt with due := s2.flt.due ++ [(m, sev)] } }

/-- The slots filled in the tick are collected, and a changed severity applies from here on. -/
def State.collect (s : State) : State :=
  let s1 := s.flt.slots.foldl State.collectOne { s with flt := { s.flt with slots := [] } }
  { s1 with flt := { s1.flt with sevNow := s1.flt.sev } }

/-! ### Reactions (R554, R557, R559) -/

/-- The station a CE slot belongs to, by its output. -/
def State.slotStation (s : State) (n : Nat) : Option Nat :=
  let o := s.get (CE_PAGE_OUT_SEL n)
  if o < 12 then some (o / 6)
  else if 0x10 ≤ o ∧ o < 0x12 then some (o - 0x10)
  else if 0x18 ≤ o ∧ o < 0x24 then some (o % 4 / 2)
  else if 0x28 ≤ o ∧ o < 0x2C then some ((o - 0x28) / 2)
  else none

/-- The stations a STATION reaction to a message acts on (Table: Fault sources). -/
def State.stationsOf (s : State) (m : Msg) : List Nat :=
  if m.src = 0x002 ∧ m.kind = 2 then (match s.slotStation m.arg with
    | some st => [st]
    | none => [0, 1])
  else if 0x010 ≤ m.src ∧ m.src ≤ 0x013 then [(m.src - 0x010) / 2]
  else if 0x020 ≤ m.src ∧ m.src ≤ 0x02F then [(m.src - 0x020) / 8]
  else if 0x030 ≤ m.src ∧ m.src ≤ 0x033 then [(m.src - 0x030) / 2]
  else if 0x034 ≤ m.src ∧ m.src ≤ 0x035 then [m.src - 0x034]
  else if 0x040 ≤ m.src ∧ m.src ≤ 0x041 then [m.src - 0x040]
  else if 0x050 ≤ m.src ∧ m.src ≤ 0x053 then [(m.src - 0x050) / 2]
  else if m.src = 0x090 then [m.arg % 2]
  else if m.src = 0x0B1 then [m.arg / 16 % 2]
  else [0, 1]

/-- Ticks in 3,600 s. -/
abbrev hourTicks : Nat := 1800000000

/-- FLT_STN_s COUNT and REMAIN at a tick. -/
def State.stnShow (s : State) (st : Nat) : State :=
  let recent := ((s.flt.reacts[st]?).getD []).filter fun t => decide (s.tick < t + hourTicks)
  let s1 := { s with flt := { s.flt with reacts := s.flt.reacts.setIfInBounds st recent } }.set (FLT_STN_COUNT st) (min 255 recent.length)
  match s.flag (FLT_STN_HELD st), recent with
  | true, t :: _ =>
    s1.set (FLT_STN_REMAIN st) (min 255 ((t + s.get FLT_CFG_STN_HOLD * 500000 - s.tick + 499999) / 500000))
  | _, _ => s1.set (FLT_STN_REMAIN st) 0

/-- A STATION reaction on a station (R559): gates down, pickups parked, the station out of service, the spindle into
SPIN_DOWN unless the rotor-lost sequence runs; the hold starts anew (R560). -/
def State.stationReact (s : State) (st : Nat) : State :=
  let s1 := [2 * st, 2 * st + 1].foldl (fun (t : State) n => t.puPark n resAborted) (s.dropStationGates st)
  let s2 := s1.set (FLT_STN_HELD st) 1
  let s3 := if s2.grantState st = stnOut then s2 else s2.leaveService st
  let lost := s3.spnState st == spRecatch || s3.spnState st == spShort || (s3.stnOf st).recaught
  let s4 := if lost then s3 else s3.spnStop st
  let reacts := s4.tick :: (s4.flt.reacts[st]?).getD []
  ({ s4 with flt := { s4.flt with reacts := s4.flt.reacts.setIfInBounds st reacts } }).stnShow st

/-- A source's bit in FLT_UNUSABLE. -/
def State.unusableBit (s : State) (src : Nat) : Bool := (s.get (FLT_UNUSABLE_UNUSABLE (src / 32))).testBit (src % 32)

def State.setUnusable (s : State) (src : Nat) (b : Bool) : State :=
  let f := FLT_UNUSABLE_UNUSABLE (src / 32)
  let w := s.get f
  s.set f (if b then w ||| 2 ^ (src % 32) else w &&& (0xFFFFFFFF ^^^ 2 ^ (src % 32)))

/-- The Hedgehog units that test the unit of a source (Table: Hedgehog units). -/
def unitsOf (src : Nat) : List Nat :=
  if 0x010 ≤ src ∧ src ≤ 0x013 then
    let n := src - 0x010
    ((List.range 10).map fun i => 10 * n + i) ++ [84 + n, 88 + n, 92 + n]
  else if 0x020 ≤ src ∧ src ≤ 0x02F then [48 + (src - 0x020), 64 + (src - 0x020)]
  else if 0x030 ≤ src ∧ src ≤ 0x033 then [44, 45, 80 + (src - 0x030)]
  else if 0x040 ≤ src ∧ src ≤ 0x041 then [40 + 2 * (src - 0x040), 41 + 2 * (src - 0x040), 96 + (src - 0x040)]
  else if 0x050 ≤ src ∧ src ≤ 0x056 then [98 + (src - 0x050)]
  else []

/-- The unit of a source is marked unusable, as its chapter states it (R159, R218, R235, R295); `kind` decides the part of
a station. A source whose chapter states no unit is only marked in FLT_UNUSABLE. -/
def State.markUnit (s0 : State) (src kind : Nat) : State :=
  let s := { s0 with bist := { s0.bist with passed := s0.bist.passed.filter fun u => !((unitsOf src).contains u) } }.setUnusable src true
  if 0x010 ≤ src ∧ src ≤ 0x013 then
    let n := src - 0x010
    if s.puState n = puUnusable then s else s.puFail n
  else if 0x020 ≤ src ∧ src ≤ 0x02F then s.set (CHN_SPOT_STAT_UNUSABLE (src - 0x020)) 1
  else if 0x030 ≤ src ∧ src ≤ 0x033 then { s with chn := { s.chn with noWrite := s.chn.noWrite.setIfInBounds (src - 0x030) true } }
  else if 0x040 ≤ src ∧ src ≤ 0x041 then
    let st := src - 0x040
    if kind = 1 ∨ kind = 2 then s.set (SPN_STAT_ENC_UNUSABLE st) 1
    else if kind = 3 then s.set (SPN_STAT_OBS_UNUSABLE st) 1
    else if s.spnState st = spUnusable then s else s.spnUnusable st false
  else if 0x054 ≤ src ∧ src ≤ 0x057 then s.magDegrade
  else s

/-- The sources that a failing Hedgehog unit marks, each with the kind that tells the part of a station. -/
def marksOf (u : Nat) : List (Nat × Nat) :=
  if u < 40 then [(0x010 + u / 10, 0)]
  else if u < 44 then [(0x040 + (u - 40) / 2, 1)]
  else if u < 46 then [(0x030, 0), (0x031, 0), (0x032, 0), (0x033, 0)]
  else if 48 ≤ u ∧ u < 64 then [(0x020 + (u - 48), 0)]
  else if 64 ≤ u ∧ u < 80 then [(0x020 + (u - 64), 0)]
  else if 80 ≤ u ∧ u < 84 then [(0x030 + (u - 80), 0)]
  else if 84 ≤ u ∧ u < 96 then [(0x010 + u % 4, 0)]
  else if 96 ≤ u ∧ u < 98 then [(0x040 + (u - 96), 0)]
  else if 98 ≤ u ∧ u < 105 then [(0x050 + (u - 98), 0)]
  else []

/-- A DEGRADE reaction: on the source's unit, or, for BIST_FAIL, on what the failing unit marks (R570). -/
def State.degrade (s : State) (m : Msg) : State :=
  if m.src = 0x0D1 ∧ m.kind = 1 then (marksOf m.arg).foldl (fun (t : State) x => t.markUnit x.1 x.2) s
  else s.markUnit m.src m.kind

/-- A SESSION reaction: the session the argument names is frozen, if it is open (R410, R554). -/
def State.freezeSession (s : State) (sid : Nat) : State :=
  let id : BitVec 14 := BitVec.ofNat 14 sid
  match s.session? id with
  | none => s
  | some x =>
    if x.frozen then s
    else
      let seq := s.get CMD_LOG_NEXT_SEQ
      (s.logPut { seq := 0, type := logFreeze, session := id.toNat, tenant := x.tenant }).modSess (.session id)
        fun y => { y with frozen := true, frozenCid := 0, frozenLog := seq }

/-- The reactions that have fallen due are taken (R557). A DEVICE reaction takes the place of the others;
it freezes the Owl and leads to SAFE_STOP (R566). -/
def State.react (s0 : State) : State :=
  let due := s0.flt.due
  let s : State := { s0 with flt := { s0.flt with due := [] } }
  let dev := due.filter fun d => d.2 == sevDevice
  if dev.isEmpty then
    let s1 := due.foldl (fun (t : State) d => if d.2 = sevDegrade then t.degrade d.1 else t) s
    let s2 := due.foldl (fun (t : State) d => if d.2 = sevSession then t.freezeSession (d.1.arg % 0x4000) else t) s1
    let hit := (due.filter fun d => d.2 == sevStation).flatMap fun d => s.stationsOf d.1
    [0, 1].foldl (fun (t : State) st => if hit.contains st then t.stationReact st else t) s2
  else
    dev.foldl (fun (t : State) d =>
      (((t.faultEvent d.1 sevDevice).startPost).set FLT_STAT_LAST_DEV (d.1.word.toNat / 65536)).orderSafeStop 5) s

/-! ### Self-check (R563, R564) -/

/-- The collector enters fall-back. -/
def State.fallBack (s : State) : State :=
  if s.flag FLT_STAT_FALLBACK then s else (s.set FLT_STAT_FALLBACK 1).raise 0x0D0 1 0

/-- The self-check of a tick: the second failure in consecutive ticks puts the collector into fall-back. -/
def State.selfCheck (s : State) (ok : Bool) : State :=
  if ok then { s with flt := { s.flt with checkFails := 0 } }
  else
    let n := s.flt.checkFails + 1
    let s1 : State := { s with flt := { s.flt with checkFails := n } }
    if 2 ≤ n then s1.fallBack else s1

/-- The collector at a boundary: the reactions of the last tick's messages, the self-check, the collection of this tick's,
and the stations' counts. -/
def State.fltTick (s : State) (ok : Bool) : State := (((s.react.selfCheck ok).collect).stnShow 0).stnShow 1

/-! ### Holds (R560, R561) -/

/-- A held station returns to service. -/
def State.release (s : State) (st : Nat) : State :=
  (((s.set (FLT_STN_HELD st) 0).set (FLT_STN_LOCKED st) 0).set (FLT_STN_REMAIN st) 0).serviceTick st

end Sys2Proof.Machine
end

