-- ==== Sys2Proof/Machine/BistOps.lean ====
section
/-!
DEFINITION. Hedgehog (R567 to R571): the cycle of slices, the units' isolation conditions, failing units and
re-admission.
-/

namespace Sys2Proof.Machine

open Sys2Proof

def State.modBist (s : State) (f : BistSt → BistSt) : State := { s with bist := f s.bist }

/-- Hedgehog runs: enabled, in a mode of R41, and not stopped for the Jack overwrite (R605). -/
def State.hedgehogOn (s : State) : Bool :=
  s.flag BIST_CTL_EN && !s.sys.overwrite && (s.mode == modeProvision || s.mode == modeServe || s.mode == modeDrain || s.mode == modeMaintain)

/-- BIST_STAT.STATE follows. -/
def State.bistShow (s : State) : State :=
  s.set BIST_STAT_STATE (if !s.hedgehogOn then 0 else if s.bist.running then 2 else 1)

/-! ### Unit words (BIST_UNIT_DATA) -/

/-- STATE, LATE and FAILS of a unit's word. -/
abbrev bistState (u : Nat) : Fld := ⟨keyBist u, 31, 30⟩
abbrev bistLate (u : Nat) : Fld := ⟨keyBist u, 27, 24⟩
abbrev bistFails (u : Nat) : Fld := ⟨keyBist u, 23, 0⟩

abbrev buPass : Nat := 0
abbrev buOnce : Nat := 1
abbrev buUnusable : Nat := 2
abbrev buUntested : Nat := 3

/-- The units of Table: Hedgehog units, 0 to 116. -/
def allUnits : List Nat := List.range 117

/-! ### Isolation (Table: Hedgehog units) -/

/-- Nothing drives a motor or a laser (R535: bridges and lasers off). -/
def State.bridgesIdle (s : State) : Bool :=
  ([0, 1].all fun st => s.spnState st == spOff || s.spnState st == spUnusable) &&
    ((List.range 4).all fun n => s.puState n == puOff || s.puState n == puParked || s.puState n == puUnusable) &&
    ((List.range 7).all fun a => s.axState a == axDisabled)

/-- The address of each 64 KiB of the twin and images in use. -/
def State.imagePlaces (s : State) : List Nat :=
  let comps := (s.imgNow.map ImgRec.comps).getD []
  sectorBase (if s.sys.twinB then 1 else 0) :: comps.flatMap fun c => (List.range (2 * c.2.1)).map fun i => sectorBase c.1 + 0x10000 * i

/-- The 64 KiB of flash that unit 112 checks in its next slice. -/
def State.flashPlace (s : State) : Nat :=
  let l := s.imagePlaces
  nth l (s.bist.flashAt % l.length) 0

/-- The isolation condition of a unit; one that is UNUSABLE is as isolated as one that is OFF. -/
def State.isolated (s : State) (u : Nat) : Bool :=
  if u < 48 then true
  else if u < 64 then !s.readGate (u - 48)
  else if u < 80 then [0, 1].any fun e => ((s.chn.frames[2 * (u - 64) + e]?).getD none).isNone
  else if u < 84 then ((s.chn.ext[u - 80]?).getD none).isNone
  else if u < 92 then
    let st := s.puState (u % 4)
    st == puOff || st == puParked || st == puUnusable
  else if u < 96 then true
  else if u < 98 then
    let st := u - 96
    (s.spnState st == spOff || s.spnState st == spUnusable) && s.flag (SPN_STAT_STOPPED st)
  else if u < 105 then
    let a := u - 98
    s.axState a != axDisabled && !s.axInMotion a && !s.flag (AX_STAT_DETENT a)
  else if u = 112 then
    (s.flash.run.toList ++ s.flash.susp.toList).all fun d => bankOf d.addr != bankOf s.flashPlace
  else if u = 113 then !(s.sec.quotes.any fun q => q.state == 1)
  else if u = 114 then decide (s.get CE_BUDGET_TOTAL + 24 ≤ 1440)
  else if u = 116 then s.bridgesIdle
  else true

/-- A unit is one that Hedgehog tests in the cycle: an unusable one only while READMIT_EN is 1 (R571). -/
def State.testable (s : State) (u : Nat) : Bool := s.get (bistState u) != buUnusable || s.flag BIST_CTL_READMIT_EN

/-! ### The cycle (R567, R568) -/

/-- A cycle starts. -/
def State.cycleStart (s : State) (fast : Bool) : State :=
  (((s.modBist fun b => { b with running := true, fast := fast, rest := allUnits, skipped := [], start := some s.tick }).set
    BIST_STAT_PROGRESS 0)).bistShow

/-- A unit the cycle has not tested is one cycle later; the third raises BIST_LATE. -/
def State.unitLate (s : State) (u : Nat) : State :=
  let n := s.get (bistLate u) + 1
  let s1 := s.set (bistLate u) (min 15 n)
  let s2 := if s.get (bistState u) = buPass then s1.set (bistState u) buUntested else s1
  if n = 3 then s2.raise 0x0D1 3 u else s2

/-- A cycle has covered every unit: it ends and the next waits for CYCLE. -/
def State.cycleEnd (s : State) : State :=
  let left := s.bist.skipped.filter fun u => s.testable u
  let s1 := left.foldl (fun (t : State) u => t.unitLate u) s
  (((s1.modBist fun b => { b with running := false, fast := false, rest := [], skipped := [] }).incWrap BIST_STAT_CYCLES).set
    BIST_STAT_PROGRESS 100).bistShow

/-- The unit of the next slice and the cycle's lists after it is taken: the unit that failed once, the first unit passed
over that is isolated now, else the first isolated one of those not yet reached; those before it are passed over. -/
def State.nextUnit (s : State) : Option Nat × List Nat × List Nat :=
  let b := s.bist
  match b.retest.filter fun u => s.isolated u with
  | some u => (some u, b.rest.filter fun v => v != u, b.skipped.filter fun v => v != u)
  | none =>
    match b.skipped.find? fun u => s.isolated u && s.testable u with
    | some u => (some u, b.rest, b.skipped.filter fun v => v != u)
    | none =>
      let fits : Nat → Bool := fun u => s.isolated u && s.testable u
      let before := b.rest.takeWhile fun u => !fits u
      match b.rest.drop before.length with
      | u :: rest => (some u, rest, b.skipped ++ before)
      | [] => (none, [], b.skipped ++ before)

/-! ### Re-admission (R571) -/

/-- A source has returned twice within 3,600 s and stays unusable until reset. -/
def State.returnedTwice (s : State) (src : Nat) : Bool :=
  match (s.bist.returns.filter fun e => e.1 == src).map (·.2) with
  | a :: b :: _ => decide (a ≤ b + hourTicks)
  | _ => false

/-- A return of a source is recorded. -/
def State.noteReturn (s : State) (src : Nat) : State := s.modBist fun b => { b with returns := (src, s.tick) :: b.returns }

/-- The pickup's, spot's, write channel's or axis's unit returns to service: every unit that tests it has passed since it
was marked. -/
def State.readmitWhole (s : State) (src : Nat) : State :=
  if s.unusableBit src && (unitsOf src).all (fun u => s.bist.passed.contains u) && !s.returnedTwice src then
    let s1 := (s.setUnusable src false).noteReturn src
    if 0x010 ≤ src ∧ src ≤ 0x013 then
      let n := src - 0x010
      if s1.puState n = puUnusable then s1.puRest n puOff else s1
    else if 0x020 ≤ src ∧ src ≤ 0x02F then s1.set (CHN_SPOT_STAT_UNUSABLE (src - 0x020)) 0
    else if 0x030 ≤ src ∧ src ≤ 0x033 then { s1 with chn := { s1.chn with noWrite := s1.chn.noWrite.setIfInBounds (src - 0x030) false } }
    else if 0x054 ≤ src ∧ src ≤ 0x056 then
      if [0x054, 0x055, 0x056, 0x057].any (fun x => s1.unusableBit x) || s1.magState != mgUnusable then s1
      else if [axZ, axX, axG].all fun a => s1.axHomed a then s1.set MAG_STAT_STATE mgIdle
      else (s1.set MAG_STAT_STATE mgUnhomed).badgerHoming
    else s1
  else s

/-- A station's parts return (R235): the encoder through both its converter units, the observer and the spindle through the
bridge unit; never a station that the rotor-lost sequence has taken out (R247). -/
def State.readmitStation (s : State) (st : Nat) : State :=
  let src := 0x040 + st
  if s.returnedTwice src then s
  else
    let has : Nat → Bool := fun u => s.bist.passed.contains u
    let enc := s.flag (SPN_STAT_ENC_UNUSABLE st) && has (40 + 2 * st) && has (41 + 2 * st)
    let obs := s.flag (SPN_STAT_OBS_UNUSABLE st) && has (96 + st)
    let spn := s.spnState st == spUnusable && !(s.stnOf st).forGood && has (96 + st)
    if !enc && !obs && !spn then s
    else
      let s1 := s.when enc fun t => (t.set (SPN_STAT_ENC_UNUSABLE st) 0).modStn st fun k => { k with indexBad := false }
      let s2 := s1.when obs fun t => t.set (SPN_STAT_OBS_UNUSABLE st) 0
      let s3 := s2.when spn fun t => t.spnOff st
      let left := s3.flag (SPN_STAT_ENC_UNUSABLE st) || s3.flag (SPN_STAT_OBS_UNUSABLE st) || s3.spnState st == spUnusable
      (s3.setUnusable src left).noteReturn src

/-- Re-admission through a unit that has passed. -/
def State.readmit (s : State) (u : Nat) : State :=
  if s.flag BIST_CTL_READMIT_EN then
    (marksOf u).foldl (fun (t : State) x => if x.1 = 0x040 ∨ x.1 = 0x041 then t.readmitStation (x.1 - 0x040) else t.readmitWhole x.1) s
  else s

/-! ### A slice (R567 to R570) -/

/-- A unit passes. -/
def State.unitPass (s : State) (u : Nat) : State :=
  let s1 := ((s.set (bistState u) buPass).set (bistLate u) 0).modBist fun b =>
    { b with passed := if b.passed.contains u then b.passed else u :: b.passed, retest := b.retest.filter fun v => v != u }
  s1.readmit u

/-- A unit that fails twice in a row is unusable: BIST_FAIL or BIST_CORE is raised, or the collector enters fall-back. -/
def State.unitFailed (s : State) (u : Nat) : State :=
  let s1 := (s.set (bistState u) buUnusable).modBist fun b => { b with retest := none }
  if u = 115 then s1.fallBack
  else if u = 116 then s1
  else if u = 47 ∨ (105 ≤ u ∧ u ≤ 114) then s1.raise 0x0D1 2 u
  else s1.raise 0x0D1 1 u

/-- A unit fails. An unusable one stays so. -/
def State.unitFail (s : State) (u : Nat) : State :=
  let s1 := ((s.addSat (bistFails u) 1).set (bistLate u) 0).modBist fun b => { b with passed := b.passed.filter fun v => v != u }
  if s.get (bistState u) = buUnusable then s1
  else if s.get (bistState u) = buOnce then s1.unitFailed u
  else (s1.set (bistState u) buOnce).modBist fun b => { b with retest := some u }

/-- The source whose messages a slice of a unit marks TEST: the first that the unit marks. -/
def sliceSource (u : Nat) : Option Nat := (marksOf u).head?.map (·.1)

/-- Unit 112 has read its 64 KiB of flash (R476), and the next slice reads the next. -/
def State.flashSlice (s : State) : State :=
  (s.flMet s.flashPlace 0x10000).modBist fun b => { b with flashAt := (b.flashAt + 1) % s.imagePlaces.length }

/-- A slice of a unit: its messages count as test messages, its verdict is recorded and captured. Unit 116 runs the
calibration procedures 0 to 2, whose results come as their own events (R538). -/
def State.slice (s : State) (u : Nat) (ok : Bool) (msgs : List (BitVec 6 × BitVec 16)) : State :=
  let s1 := match sliceSource u with
    | some src => msgs.foldl (fun (t : State) (m : BitVec 6 × BitVec 16) =>
        if (pairDefault src m.1.toNat).isSome then t.send { src := src, kind := m.1.toNat, arg := m.2.toNat, test := true } else t) s
    | none => s
  let s2 := if u = 116 ∧ s1.cal.dev.isEmpty = true then { s1 with cal := { s1.cal with dev := [0, 1, 2] } } else s1
  let pass := ok && !(u == 112 && s2.flBad s2.flashPlace 0x10000)
  let s3 := s2.when (u == 112) State.flashSlice
  let s4 := (if pass then s3.unitPass u else s3.unitFail u).set BIST_STAT_UNIT u
  s4.capture evHedgehog 0 (BitVec.ofNat 32 (u + if pass then 256 else 0))

/-- A slice is due: a cycle runs and the interval has passed since the last one. -/
def State.sliceDue (s : State) : Bool :=
  let gap := 100 * (if s.bist.fast then s.get BIST_CFG_FAST_GAP else s.get BIST_CFG_GAP)
  s.hedgehogOn && s.bist.running && match s.bist.last with
    | some t => decide (t + gap ≤ s.tick)
    | none => true

/-- The next slice of the running cycle. PROGRESS is a free value until the cycle's end: no rule says how it counts. -/
def State.hedgehogSlice (s : State) (ok : Bool) (msgs : List (BitVec 6 × BitVec 16)) : State :=
  let (u, rest, skipped) := s.nextUnit
  let passed := skipped.filter fun v => !s.bist.skipped.contains v
  let s1 := passed.foldl (fun (t : State) v => t.capture evHedgehog 0 (BitVec.ofNat 32 (v + 512))) s
  let s2 := s1.modBist fun b => { b with rest := rest, skipped := skipped, last := some s.tick }
  match u with
  | none => s2.cycleEnd
  | some v =>
    let (w, s3) := (s2.slice v ok msgs).draw
    let s4 := s3.set BIST_STAT_PROGRESS (w.toNat % 101)
    if s4.bist.rest.isEmpty && s4.bist.retest.isNone && !(s4.bist.skipped.any fun x => s4.isolated x && s4.testable x) then s4.cycleEnd
    else s4

end Sys2Proof.Machine
end

