-- ==== Sys2Proof/Machine/Bist.lean ====
section
/-!
DEFINITION. The meanings of the Hedgehog commands (14_faults.md: R567 to R572). The end of a logic scan, which resets the
device, stands in Machine/Boot.lean.
-/

namespace Sys2Proof.Machine

open Sys2Proof

/-- HEDGEHOG_SLICE (R567 to R571): the slice that is due tests its unit; `ok` is the verdict of the test and `msgs` what
the unit's own source raised meanwhile.
DESIGN CHOICE (notes/assumptions/21.md, unsafe). -/
def execHedgehogSlice (ok : Bool) (msgs : List (BitVec 6 × BitVec 16)) (s : State) : Out :=
  .next (if s.sliceDue then s.hedgehogSlice ok msgs else s)

/-- HEDGEHOG_CYCLE_START (R567): CYCLE seconds have passed since the last start. -/
def execHedgehogCycleStart (s : State) : Out :=
  let due := match s.bist.start with
    | some t => decide (t + s.get BIST_CFG_CYCLE * 500000 ≤ s.tick)
    | none => true
  .next (if s.hedgehogOn && !s.bist.running && due then s.cycleStart false else s)

/-- A cycle at FAST_GAP starts; one that runs goes on at FAST_GAP. -/
def State.runNow (s : State) : State :=
  if !s.hedgehogOn then s
  else if s.bist.running then s.modBist fun b => { b with fast := true }
  else s.cycleStart true

/-- RUN_NOW (R567).
DESIGN CHOICE (notes/assumptions/21.md, unsafe). -/
def execRunNow (p : Path) (s : State) : Out := .next (s.writeBy p true State.runNow)

/-- BIST_SCAN_START (R572): only in the BLANK and RETURNED states and in MAINTAIN. -/
def execBistScanStart (p : Path) (s : State) : Out :=
  let lc := s.get SEC_LC_STATE
  let ok := (lc == 1 || lc == 4) && s.mode == modeMaintain
  .next (s.writeBy p ok fun t => (t.modBist fun b => { b with scanning := true }).setReg BIST_SCAN_STAT 0)

end Sys2Proof.Machine
end

