-- ==== Sys2Proof/Machine/SelfTest.lean ====
section
/-!
DEFINITION. The self-test (R418 to R420): its start, its parts and steps, its end and the meanings of its commands.
DESIGN CHOICE (notes/assumptions/60.md, safe): the order of the parts; an axis or station that may not move
passes.
-/

namespace Sys2Proof.Machine

open Sys2Proof

/-- BUSY: a self-test runs already. -/
abbrev stBusy : Nat := 0x4011

abbrev stShort : Nat := 1
abbrev stExtended : Nat := 2
abbrev stAbort : Nat := 15

/-- The test's jobs: one on each station in service with a disc loaded; the extended test's also on every other disc of the
magazine. -/
def State.testJobs (s : State) (kind : Nat) : State :=
  let job (t : State) (st : Nat) (slot : Option Nat) : State :=
    t.addJob { id := 0, kind := .selftest, tenant := 0, cls := t.houseClass .selftest, at_ := t.tick, station := st, slot := slot, write := false }
  let s1 := [0, 1].foldl (fun (t : State) st => if t.inService st && t.clamped st then job t st none else t) s
  if kind = stExtended then
    ((List.range 24).filter fun k => s.slotFull k && (s.stationOf k).isNone).foldl
      (fun (t : State) k => match t.bindSlot k with
        | some st => job t st (some k)
        | none => t) s1
  else s1

/-- The layers of a disc that a part reads, side by side. -/
def discParts (st : Nat) (slot : Option Nat) : List TestPart :=
  (List.range 2).flatMap fun side => (List.range 24).map fun layer => .read st slot side layer

/-- The parts of a test that starts (Table: Self-test content): the cycle, the discs of its jobs, and for the extended test every
axis over its travel and home again and every station in service at SPD_MAX. -/
def State.testParts (s : State) (kind : Nat) : List TestPart :=
  let mine := s.arb.jobs.filter fun j => j.kind == .selftest
  let reads := mine.flatMap fun j => discParts j.station j.slot
  (if s.bist.running then [.cycle] else []) ++ reads ++
    (if kind = stExtended then
      ((List.range 7).flatMap fun a => (List.range 3).map fun k => TestPart.axis a k) ++
        ((List.range 2).filter fun st => s.inService st).map fun st => TestPart.spin st
    else [])

/-- A part is taken up: an axis that stands IDLE and may move moves, a station spins up to SPD_MAX. -/
def State.partBegin (s : State) (p : TestPart) : State := match p with
  | .axis a k =>
    let target := s.getInt (if k = 0 then AX_SLIM_HI_LIM a else AX_SLIM_LO_LIM a)
    if s.axState a ≠ axIdle then s
    else if k < 2 then (if s.axHomed a && s.zxRule a target then s.axMove a target else s)
    else if a = axZ ∧ s.xInCorridor = false then s else s.axHomeStart a
  | .spin st =>
    if s.spinAccepted st (s.get (SPN_LIM_SPD_MAX st)) (s.calOk st) then s.spin st (s.get (SPN_LIM_SPD_MAX st)) else s
  | _ => s

/-- A self-test starts: the old result is replaced, a whole Hedgehog cycle starts at FAST_GAP and the test's jobs wait. -/
def State.testStart (s : State) (kind : Nat) : State :=
  let s1 := s.setReg CMD_ST_STAT 0
  let s2 := (if s1.hedgehogOn then s1.cycleStart true else s1).testJobs kind
  let parts := s2.testParts kind
  let s3 : State := { s2 with cmd := { s2.cmd with test := some { kind := kind, left := parts } } }
  match parts with
  | p :: _ => s3.partBegin p
  | [] => s3

/-- A part of a test works on a job. -/
def TestPart.asks (p : TestPart) (j : Job) : Bool := match p with
  | .read st slot _ _ => j.kind == .selftest && j.slot == slot && (slot.isSome || j.station == st)
  | _ => false

/-- The part under way may end: the cycle is over; the disc is loaded in a station that the test holds, or its job went with its
station; the axis stands; the station runs at SPD_MAX, or left service. -/
def State.partReady (s : State) (p : TestPart) : Bool := match p with
  | .cycle => !s.bist.running
  | .read _ _ _ _ =>
    ([0, 1].any fun st => (s.arbOf st).job.any fun j => p.asks j && (s.view st).holds j) || !(s.allJobs.any fun j => p.asks j)
  | .axis a _ => !s.axInMotion a
  | .spin st => (s.flag (SPN_STAT_AT_SPEED st) && s.get (SPN_SPEED_TARGET st) == s.get (SPN_LIM_SPD_MAX st)) || !s.inService st

/-- A part is done: a job that no further part works on leaves its station, a station at SPD_MAX stops. -/
def State.partDone (s : State) (p : TestPart) (rest : List TestPart) : State :=
  let ended (j : Job) : Bool := p.asks j && !(rest.any fun r => r.asks j)
  let s1 := [0, 1].foldl (fun (t : State) st => if (t.arbOf st).job.any ended then t.releaseStn st else t) (s.dropJobs ended)
  match p with
  | .spin st => s1.spnStop st
  | _ => s1

/-- The test's jobs leave the queue and the stations. -/
def State.testClear (s : State) : State :=
  [0, 1].foldl (fun (t : State) st =>
      if (t.arbOf st).job.any fun j => j.kind == .selftest then t.releaseStn st else t)
    (s.dropJobs fun j => j.kind == .selftest)

/-- The test ends: outcome 0 pass, 1 fail, 2 aborted; its result is READY. -/
def State.testEnd (s : State) (t : SelfTest) (outcome : Nat) : State :=
  let s1 := { s with cmd := { s.cmd with test := none } }.testClear
  let s2 := if outcome = 2 then s1 else s1.set CMD_ST_STAT_PROGRESS 100
  (((s2.set CMD_ST_STAT_RES 1).set CMD_ST_STAT_KIND t.kind).set CMD_ST_STAT_OUTCOME outcome).set CMD_ST_STAT_FAIL_SRC (t.fail.getD 0)

/-- A running test is aborted. -/
def State.testAbort (s : State) : State := match s.cmd.test with
  | some t => s.testEnd t 2
  | none => s

/-- A SELF_TEST command runs by its code. -/
def State.runSelfTest (s : State) (c : Cmd) : State :=
  if c.e.arg0.toNat = stAbort then s.testAbort.finish c {}
  else match s.cmd.test with
    | some _ => s.finishWith c stBusy
    | none => (s.testStart c.e.arg0.toNat).finish c {}

/-- What other work waits for is released and asked for again (R419). -/
def State.testYield (s : State) : State :=
  [0, 1].foldl (fun (u : State) st => match (u.arbOf st).job with
    | some j => if j.kind == .selftest && !(u.waiting st).isEmpty then (u.idleStn st).addJob j else u
    | none => u) s

/-- Units of a part's disc whose commit record is not valid, recorded as deferred errors where the map holds them (R413). -/
def State.testBad (s : State) (p : TestPart) (bad : List UnitRef) : State := match p with
  | .read _ _ _ _ =>
    bad.foldl (fun (t : State) u =>
      let id : UnitId := { tenant := u.tenant.toNat, key := u.key.toNat, ver := u.ver.toNat, unit := u.unit.toNat }
      if t.plc.map.any fun e => e.id == id && e.live then
        t.deferError id.tenant { seq := 0, type := 0, key := id.key, ver := id.ver, unit := id.unit }
      else t) s
  | _ => s

/-- A step of the part under way ends (R419): its failure and its damaged units are recorded, the next part begins where it was the
part's last step, and with the last part the result is READY (how PROGRESS counts is not stated: it is a free value); what other work waits for is released. A part that may not end yet is
stepped again later. -/
def State.testStep (s : State) (t : SelfTest) (ok : Bool) (src : Nat) (finished : Bool) (bad : List UnitRef) : State :=
  match t.left with
  | [] => s.testEnd t (if t.fail.isSome then 1 else 0)
  | p :: rest =>
    if !s.partReady p then s.testYield
    else
      let s1 := (if ok then s else s.logPut { seq := 0, type := logSelfTest, arg := src }).testBad p bad
      let t1 : SelfTest := { t with fail := if ok then t.fail else some (t.fail.getD src), left := if finished then rest else t.left }
      if !finished then { s1 with cmd := { s1.cmd with test := some t1 } }.testYield
      else
        let s2 := s1.partDone p rest
        match rest with
        | [] => s2.testEnd t1 (if t1.fail.isSome then 1 else 0)
        | q :: _ =>
          let s3 : State := { s2 with cmd := { s2.cmd with test := some t1 } }
          let (w, s4) := s3.draw
          ((s4.set CMD_ST_STAT_PROGRESS (w.toNat % 101)).testYield).partBegin q

/-! ### Meanings -/

/-- SELF_TEST_SHORT (R418). -/
def execSelfTestShort (p : Path) (e : Entry) (s : State) : Out :=
  .next (s.command p opSelfTest { e with arg0 := BitVec.ofNat 32 stShort } State.runSelfTest)

/-- SELF_TEST_EXTENDED (R418). -/
def execSelfTestExtended (p : Path) (e : Entry) (s : State) : Out :=
  .next (s.command p opSelfTest { e with arg0 := BitVec.ofNat 32 stExtended } State.runSelfTest)

/-- SELF_TEST_ABORT (R418). -/
def execSelfTestAbort (p : Path) (e : Entry) (s : State) : Out :=
  .next (s.command p opSelfTest { e with arg0 := BitVec.ofNat 32 stAbort } State.runSelfTest)

/-- SELF_TEST_STEP (R419): a step of at most 50 ms ends. -/
def execSelfTestStep (ok : Bool) (src : BitVec 10) (finished : Bool) (bad : List UnitRef) (s : State) : Out :=
  .next (match s.cmd.test with
    | some t => s.testStep t ok src.toNat finished bad
    | none => s)

/-- The self-test result is discarded (R420). A test that runs is not disturbed. -/
def State.testAck (s : State) : State := if s.cmd.test.isSome then s else s.setReg CMD_ST_STAT 0

/-- SELF_TEST_ACK (R420). -/
def execSelfTestAck (p : Path) (s : State) : Out := .next (s.writeBy p true State.testAck)

end Sys2Proof.Machine
end

