-- ==== Sys2Proof/Machine/ModeOps.lean ====
section
/-!
DEFINITION. Mode changes (R33 to R52): the transitions and what each leaves and enters, the drain, the activation instant,
the sequence of SAFE_STOP (R565) and the Owl flush on input loss (R575).
DEDUCED (notes/assumptions/35.md, unsafe): Modes: a SERVE or MAINTAIN request during FLUSH_ALL or an activation drain is REFUSED_PRECONDITION with COND 0, SAFE_STOP drops all jobs, any mode change cuts campaigns.
-/

namespace Sys2Proof.Machine

open Sys2Proof

/-- CAUSE codes of SYS_MODE. -/
abbrev mcHost : Nat := 1
abbrev mcActivation : Nat := 2
abbrev mcFlushAll : Nat := 3
abbrev mcDrained : Nat := 4
abbrev mcUvlo : Nat := 7
abbrev mcBoot : Nat := 9
abbrev mcActTmo : Nat := 10
abbrev mcJack : Nat := 11

/-- RESULT codes of SYS_MODE_RES. -/
abbrev mrDone : Nat := 0
abbrev mrPending : Nat := 1
abbrev mrTransition : Nat := 2
abbrev mrPrecondition : Nat := 3
abbrev mrSuperseded : Nat := 4

def State.modSys (s : State) (f : SysSt → SysSt) : State := { s with sys := f s.sys }

/-- A mode change has been made at this boundary: no other is (R37). -/
def State.changed (s : State) : Bool := s.sys.changedAt == some s.tick

/-! ### The pending request (R36, R51) -/

/-- The pending request is decided. -/
def State.reqResult (s : State) (result : Nat) : State :=
  (s.set SYS_MODE_RES_RESULT result).modSys fun y => { y with reqPending := false, maintainWaits := false }

/-- The pending request is reported SUPERSEDED. -/
def State.reqSuperseded (s : State) : State :=
  (s.reqResult mrSuperseded).set SYS_MODE_RES_SUP_SEQ (s.get SYS_MODE_RES_SEQ)

/-- The pending request when the device changes to mode `m` for another cause. -/
def State.reqOvertaken (s : State) (m : Nat) : State :=
  if s.sys.reqPending then
    if m = modeMaintain ∧ s.get SYS_MODE_RES_TARGET = modeMaintain then s.reqResult mrDone else s.reqSuperseded
  else s

/-! ### What a mode takes away and brings -/

/-- PROVISION and BOOT: pickups, stations, sleds and Badger are off (R41, R134, R236). -/
def State.allOff (s : State) : State :=
  let s1 := (List.range 4).foldl (fun (t : State) n => t.puTurnOff n) s
  let s2 := [0, 1].foldl (fun (t : State) st => if t.spnState st = spUnusable then t else t.spnOff st) s1
  ((List.range 7).foldl (fun (t : State) a => t.axHaltOff a false) s2).set MAG_STAT_STATE mgOff

/-- The Owl sectors are checked at the first entry to PROVISION (R576). -/
def State.owlCheck (s : State) : State :=
  if s.owl.checked then s
  else
    let s1 := ({ s with owl := { s.owl with checked := true } } : State).flMet (sectorBase 6) 0x8000
    match if s1.flBad (sectorBase 6) 0x5000 then none else s1.flash.flush with
    | some f => ((s1.set OWL_FLUSH_RES 1).set OWL_FLUSH_COUNT f.events.length).set OWL_FLUSH_FIRST_SEQ
        ((f.events.head?.map fun e => e.seq.toNat).getD 0)
    | none => if s1.flash.owlA || s1.flash.owlB then s1.eraseOwl else s1

/-- Entry to PROVISION: metering starts at the first one (R45), the device procedures run (R538). -/
def State.enterProvision (s : State) : State :=
  let s1 := { s.allOff.owlCheck with mtr := { s.mtr with on := true }, cal := { s.cal with dev := [0, 1, 2] } }
  s1.modSys fun y => { y with provisioned := true }

/-- What the device leaves with a mode: a campaign is cut short (R542, R547); on leaving MAINTAIN the auxiliary set-point
ends (R102) and a refresh pass halts (R491). -/
def State.leaveMode (s : State) : State :=
  let s1 := if s.cal.camp.isSome then s.campAbort else s
  if s.mode = modeMaintain then
    let s2 := s1.set CE_AUX_CTL_EN 0
    if s2.get FL_REFRESH_STAT_STATE = 1 then { s2 with flash := { s2.flash with stopRefresh := true } } else s2
  else s1

/-- The mode changes, with its MODE event (R33, Table: Owl event types). What the new mode brings follows; entering SERVE
from PROVISION opens the recovering phase. -/
def State.changeMode (s : State) (m cause : Nat) : State :=
  let old := s.mode
  let s0 := s.leaveMode
  let s1 := ((s0.set SYS_MODE_PREV old).set SYS_MODE_MODE m).set SYS_MODE_CAUSE cause
  let s2 := ((s1.capture evMode 0 (BitVec.ofNat 32 (bitsOf (s1.reg SYS_MODE).toNat 11 0))).reqOvertaken m).set SYS_STAT_DRAIN_DONE 0
  let s3 := s2.modSys fun y =>
    { y with changedAt := some s.tick, drain := if m = modeDrain then y.drain else .none, served := y.served || m == modeServe }
  if m = modeProvision then s3.enterProvision
  else if m = modeServe then (if old = modeProvision then s3.axesOn.badgerHoming.startRebuild else s3.axesOn.badgerHoming)
  else if m = modeMaintain then s3.axesOn.badgerHoming
  else s3

/-! ### The drain (R36, R42, R44, R417) -/

/-- Commands that have not started are refused with a code of class 0x4 (R417); the drain estimate they carry (R42) is a free
value. -/
def State.refuseUnstarted (s : State) (code : Nat) : State :=
  let cs := s.cmd.cmds.filter fun c => !c.started && c.op != opFlush
  (cs.foldl (fun (t : State) c => (t.dropJobs fun j => j.cmd == some c.id).finishWith c code) s).settle

/-- Every layer with pending records is due an index frame (R184). -/
def State.indexDue (s : State) : State :=
  s.modPlc fun p => { p with layers := p.layers.map fun l => if l.pending.isEmpty then l else { l with due := true } }

/-- What a drain of a cause does at its entry. -/
def State.drainBegins (s : State) (cause : DrainCause) : State := match cause with
  | .host => s.refuseUnstarted 0x4002
  | .activation => { s.refuseUnstarted 0x4003 with sec := { s.sec with actAt := some s.tick } }
  | _ => s

/-- The device enters DRAIN. -/
def State.enterDrain (s : State) (cause : DrainCause) (code : Nat) : State :=
  ((((s.modSys fun y => { y with drain := cause }).changeMode modeDrain code).indexDue)).drainBegins cause

/-- A FLUSH_ALL command is held. -/
def isFlushAll (c : Cmd) : Bool := c.op == opFlush && c.e.arg0.getLsbD 0

/-- The last FLUSH_ALL held. -/
def State.lastFlushAll (s : State) : Nat := ((s.cmd.cmds.filter isFlushAll).map Cmd.id).foldl max 0

/-- The drain is complete (R44). -/
def State.drainOver (s : State) : Bool :=
  s.mode == modeDrain &&
  match s.sys.drain with
  | .flushAll => (s.cmd.cmds.all fun c => isFlushAll c || decide (s.lastFlushAll < c.id)) && s.plc.units.isEmpty
  | .host => s.cmd.cmds.all fun c => !c.started && c.op != opFlush
  | .activation => s.cmd.cmds.all fun c => !c.started && c.op != opFlush
  | .none => false

/-- The FLUSH_ALL commands held complete (R401). -/
def State.flushAllDone (s : State) : State :=
  (s.cmd.cmds.filter isFlushAll).foldl (fun (t : State) c => t.finish c { res0 := c.waited }) s

/-- The device prepares for the Jack overwrite on entry to MAINTAIN for activation (R605, steps 1 to 3). -/
def State.prepareOverwrite (s : State) : State :=
  let s1 := (s.campAbort.testAbort.modBist fun b => { b with running := false, fast := false })
  let s2 := (List.range 4).foldl (fun (t : State) n => t.puPark n resAborted) s1
  let s3 := [0, 1].foldl (fun (t : State) st => t.spnStop st) s2
  ((s3.magHalt false).modSys fun y => { y with overwrite := true }).bistShow

/-- The drain completes: back to SERVE, on to MAINTAIN, or DRAIN_DONE (R34, R36). -/
def State.drainComplete (s : State) : State :=
  if s.drainOver && !s.changed && !s.flag SYS_STAT_DRAIN_DONE then
    match s.sys.drain with
    | .flushAll => (s.changeMode modeServe mcDrained).flushAllDone.settle
    | .activation => (s.changeMode modeMaintain mcDrained).prepareOverwrite
    | _ => if s.sys.maintainWaits then s.changeMode modeMaintain mcDrained else s.set SYS_STAT_DRAIN_DONE 1
  else s

/-- FLUSH_ALL takes the device into DRAIN (R34, R401). -/
def State.flushAllDrain (s : State) : State :=
  if s.mode = modeServe ∧ s.changed = false ∧ s.cmd.cmds.any isFlushAll = true then s.enterDrain .flushAll mcFlushAll else s

/-! ### Activation (R38, R417, R602 to R605) -/

/-- Present time of the tick generator in ns of PTP. -/
def State.ptpNow (s : State) : Nat := s.ce.ptpSec * 1000000000 + (s.tick - s.ce.secTick) * 2000

/-- The pending instant in ns of PTP. -/
def State.actInstant (s : State) : Nat :=
  ((s.reg UPD_ACT_LO).toNat + 2 ^ 32 * bitsOf (s.reg UPD_ACT_HI).toNat 15 0) * 1000000000 + (s.reg UPD_ACT_NS).toNat

/-- No instant is pending any more. -/
def State.actClear (s : State) : State :=
  (((s.set SYS_STAT_ACT_PENDING 0).setReg UPD_ACT_LO 0).setReg UPD_ACT_HI 0).setReg UPD_ACT_NS 0

/-- A pending activation is cancelled (R604): ACT_CANCELLED with the OUTCOME code. -/
def State.actCancel (s : State) (outcome : Nat) : State :=
  if s.flag SYS_STAT_ACT_PENDING then (s.actClear.set UPD_ACT_STAT_OUTCOME outcome).raise 0x0E1 2 outcome else s

/-- The instant has arrived. -/
def State.actDue (s : State) : Bool := s.flag SYS_STAT_ACT_PENDING && decide (s.actInstant ≤ s.ptpNow)

/-- An activation that leaves the mode as it is takes its boundary like a change of mode: a host request that falls due
there is SUPERSEDED (R37); one that waits for the drain goes on waiting (R36). -/
def State.actOvertakes (s : State) : State :=
  (if s.sys.reqPending && !s.sys.maintainWaits then s.reqSuperseded else s).modSys fun y => { y with changedAt := some s.tick }

/-- The activation instant takes effect by the mode (R38). A second instant in an activation drain starts it anew: R38
speaks only of a drain entered for another cause.
DEDUCED (notes/assumptions/35.md, unsafe). -/
def State.activate (s : State) : State :=
  if s.actDue && !s.changed then
    let m := s.mode
    if m = modeBoot ∨ m = modeSafeStop then s.actCancel 3
    else
      let s1 := (((s.actClear.set UPD_ACT_STAT_TMO_EXPIRED 0).set UPD_ACT_STAT_ABORTED 0)).set UPD_ACT_STAT_OUTCOME 0
      if m = modeServe then s1.enterDrain .activation mcActivation
      else if m = modeDrain then
        (((s1.actOvertakes.modSys fun y => { y with drain := .activation }).set SYS_STAT_DRAIN_DONE 0).drainBegins .activation).settle
      else if m = modeProvision then (s1.changeMode modeMaintain mcActivation).prepareOverwrite
      else s1.actOvertakes.prepareOverwrite
  else s

/-- Every command held is ended with a code, with what a session reset does to units and versions (R415, R417). -/
def State.abortCommands (s : State) (code : Nat) : State :=
  let cs := s.cmd.cmds
  let keys := (cs.filter fun c => c.op == opPut || c.op == opSeal).map fun c => (c.tenant, c.e.objKey.toNat)
  let s1 := s.dropVersions keys
  let s2 := cs.foldl (fun (t : State) c => t.endJobs c.id) s1
  let ids := cs.map Cmd.id
  let s3 := s2.modPlc fun q => { q with units := q.units.filter fun u => match u.cmd with
    | some i => !ids.contains i
    | none => true }
  cs.foldl (fun (t : State) c => t.finishWith c code) s3

/-- ACT_DRAIN_TMO has expired in an activation drain. -/
def State.actExpired (s : State) : Bool :=
  s.mode == modeDrain && s.sys.drain == .activation && !s.changed &&
  match s.sec.actAt with
  | some t => decide (t + s.get UPD_ACT_TMO_ACT_DRAIN_TMO * 500000 ≤ s.tick)
  | none => false

/-- ACT_DRAIN_TMO expires (R417): the remaining commands complete with ABORTED_ACTIVATION, and the device enters MAINTAIN. -/
def State.actTimeout (s : State) : State :=
  if s.actExpired then
    let n := min 65535 s.cmd.cmds.length
    let s1 := (((s.abortCommands 0x800A).set UPD_ACT_STAT_TMO_EXPIRED 1).set UPD_ACT_STAT_ABORTED n).raise 0x0E1 3 n
    (s1.changeMode modeMaintain mcActTmo).prepareOverwrite
  else s

/-! ### The Owl flush (R575, R576) -/

/-- The flush of the last 1,024 events starts, with a snapshot of the servo state: five URGENT programs. With the sectors
not blank nothing is flushed. -/
def State.startFlush (s : State) (before : Nat) : State :=
  let s0 : State := { s with owl := { s.owl with flushDue := false } }
  if s0.flash.owlA || s0.flash.owlB then s0.raise 0x0D2 1 0
  else
    let f : OwlFlush :=
      { events := s0.owl.ring.drop (s0.owl.ring.length - 1024), tick := s0.tick
        ptp := if s0.flag TICK_STAT_PTP_VALID then s0.ce.ptpSec else 0, mode := before, frozen := s0.flag OWL_STAT_FROZEN
        ce := (List.range 48).flatMap fun n => (List.range 4).map fun w => s0.reg (CE_KST_W0 n + 4 * w)
        spn := [0, 1].flatMap fun st => [s0.reg (SPN_STAT st), s0.reg (SPN_SPEED st), s0.reg (SPN_ANGLE st), s0.reg (SPN_OBS st)]
        opu := (List.range 4).flatMap fun n => [s0.reg (OPU_STAT n), s0.reg (OPU_LAYER n), s0.reg (OPU_SPIRAL n)]
        ax := (List.range 7).flatMap fun a => [s0.reg (AX_STAT a), s0.reg (AX_POS a)]
        vbus := s0.owl.vbus }
    let s1 : State := { s0 with owl := { s0.owl with flushing := some 5 }, flash := { s0.flash with flushing := some f } }
    (List.range 5).foldl (fun (t : State) i =>
      t.flPush { host := false, urgent := true, op := flProgram, addr := 0x30000 + 4096 * i, len := 4096, owl := true }) s1

/-! ### SAFE_STOP (R39, R530, R565) -/

/-- Every command that has not ended ends: started ones keep what is done, the others complete with INTERNAL. -/
def State.endCommands (s : State) : State :=
  let s1 := s.cmd.cmds.foldl (fun (t : State) c => match t.cmdOf c.id with
    | none => t
    | some d => if d.started && d.op != opFlush then t.cmdRevoked d else (t.dropJobs fun j => j.cmd == some d.id).finishWith d 0x800B) s
  let s2 := s1.settle
  s2.cmd.cmds.foldl (fun (t : State) c => (t.endJobs c.id).finishWith c 0x800B) s2

/-- The stations at the entry to SAFE_STOP (Table: SAFE_STOP sequence): a turning one brakes or goes on coasting. -/
def State.safeStation (s : State) (st : Nat) : State := s.spnStop st

/-- Every axis stops with EMERG_DEC, its bridge is then switched off, and it loses HOMED (R294). -/
def State.safeAxes (s : State) : State :=
  let s1 := if s.magState = mgExchange then s.exchFail rsAxis else s
  let s2 := (List.range 7).foldl (fun (t : State) a => (t.axHaltOff a true).axLoseHome a) s1
  if s2.magState = mgUnusable then s2 else (s2.magResult resFailed rsAxis).set MAG_STAT_STATE mgOff

/-- The device enters SAFE_STOP (R565). -/
def State.safeStop (s : State) (cause : Nat) : State :=
  let old := s.mode
  let s1 := (s.modSys fun y => { y with safeStopDue := none, safeStopAt := some s.tick }).changeMode modeSafeStop cause
  let s2 := (s1.dropStationGates 0).dropStationGates 1
  let s3 := (List.range 4).foldl (fun (t : State) n => t.puTurnOff n) s2
  let s4 := s3.safeAxes.discardTxns.testAbort
  let s5 := [0, 1].foldl (fun (t : State) st => if t.grantState st = stnOut then t else t.leaveService st) s4
  let s6 := { s5.endCommands with arb := { s5.endCommands.arb with jobs := [] } }
  let s7 := ([0, 1].foldl (fun (t : State) st => t.safeStation st) s6).actCancel 3
  let s8 := s7.bistShow
  if s8.owl.flushDue then s8.startFlush old else s8

/-- Both stations are STOPPED or SS_TMO seconds have passed: every bridge switches off (R565). -/
def State.bridgesDue (s : State) : Bool :=
  s.mode == modeSafeStop && !s.sys.bridgesOff &&
  ((s.flag (SPN_STAT_STOPPED 0) && s.flag (SPN_STAT_STOPPED 1)) ||
    match s.sys.safeStopAt with
    | some t => decide (t + s.get FLT_CFG_SS_TMO * 500000 ≤ s.tick)
    | none => false)

def State.bridgesEnd (s : State) : State := if s.bridgesDue then s.allBridgesOff else s

/-! ### Host requests (R34, R35, R36, R51) -/

/-- A write of SYS_MODE_REQ (R51). -/
def State.modeRequest (s : State) (target : Nat) : State :=
  let s1 := if s.sys.reqPending then s.set SYS_MODE_RES_SUP_SEQ (s.get SYS_MODE_RES_SEQ) else s
  let seq := s1.get SYS_MODE_RES_SEQ
  let s2 := ((s1.set SYS_MODE_RES_SEQ (if seq = 255 then 1 else seq + 1)).set SYS_MODE_RES_TARGET target).set SYS_MODE_RES_COND 0
  let now := target == s.mode
  (s2.set SYS_MODE_RES_RESULT (if now then mrDone else mrPending)).modSys fun y =>
    { y with reqPending := !now, maintainWaits := false }

/-- The request is granted: the mode changes for the host. -/
def State.reqGrant (s : State) (m : Nat) : State := (s.reqResult mrDone).changeMode m mcHost

/-- COND bits of the conditions that SERVE lacks: from PROVISION, or from MAINTAIN (SYS_MODE_RES). -/
def State.serveLacks (s : State) (maintain : Bool) : Nat :=
  let cal := s.calOk 0 || s.calOk 1
  let key := if maintain || s.flag SYS_STAT_DOMAIN_KEY then 0 else 1
  let map := if maintain || s.flag SYS_STAT_DOMAIN_MAP then 0 else 2
  let ten := if maintain || s.flag SYS_STAT_TENANTS then 0 else 4
  key + map + ten + (if cal then 0 else 24) + if maintain && !s.sys.served then 32 else 0

/-- The request lacks its conditions. -/
def State.reqLacks (s : State) (cond : Nat) : State := (s.reqResult mrPrecondition).set SYS_MODE_RES_COND cond

/-- The pending request is decided at a boundary (Table: Mode transitions, R35, R36). A request for SERVE or PROVISION is
granted in MAINTAIN while the Jack overwrite is prepared too, since R34 states no condition on it, and the overwrite goes
on once the device is in MAINTAIN again.
DEDUCED (notes/assumptions/35.md, unsafe). -/
def State.decideRequest (s : State) : State :=
  if s.sys.reqPending = false ∨ s.sys.maintainWaits = true ∨ s.changed = true then s
  else
    let t := s.get SYS_MODE_RES_TARGET
    let m := s.mode
    if m = modeProvision then
      if t = modeServe then (if s.serveLacks false = 0 then s.reqGrant modeServe else s.reqLacks (s.serveLacks false))
      else if t = modeMaintain then s.reqGrant modeMaintain
      else s.reqResult mrTransition
    else if m = modeServe then
      if t = modeDrain then (s.reqResult mrDone).enterDrain .host mcHost
      else if t = modeMaintain then
        let s1 := (s.modSys fun y => { y with reqPending := false }).enterDrain .host mcHost
        s1.modSys fun y => { y with reqPending := true, maintainWaits := true }
      else s.reqResult mrTransition
    else if m = modeDrain then
      if s.sys.drain = .host ∧ t = modeServe then s.reqGrant modeServe
      else if s.sys.drain = .host ∧ t = modeMaintain then
        if s.flag SYS_STAT_DRAIN_DONE then s.reqGrant modeMaintain else s.modSys fun y => { y with maintainWaits := true }
      else if t = modeServe ∨ t = modeMaintain then s.reqLacks 0
      else s.reqResult mrTransition
    else if m = modeMaintain then
      if t = modeServe then (if s.serveLacks true = 0 then s.reqGrant modeServe else s.reqLacks (s.serveLacks true))
      else if t = modeProvision then (if s.sys.served then s.reqLacks 32 else s.reqGrant modeProvision)
      else s.reqResult mrTransition
    else s.reqResult mrTransition

/-- A change that comes before a host request falls due at this boundary (R37). -/
def State.higherDue (s : State) : Bool :=
  s.sys.safeStopDue.isSome || s.actDue || (s.mode == modeServe && s.cmd.cmds.any isFlushAll) || s.actExpired ||
    (s.drainOver && (s.sys.drain == .flushAll || s.sys.drain == .activation || s.sys.maintainWaits))

/-! ### Boundaries -/

/-- SAFE_STOP, when it is due. A flush that is due without an entry to SAFE_STOP starts too. -/
def State.safeStopTick (s : State) : State := match s.sys.safeStopDue with
  | some c => s.safeStop c
  | none => if s.owl.flushDue then s.startFlush s.mode else s

/-- The recovering phase ends once every slot is settled (R47, R49, R326). -/
def State.recoverEnd (s : State) : State :=
  if s.flag SYS_STAT_RECOVERING && s.get SYS_STAT_REBUILT == 24 then
    let s1 := s.applyRebuilt.set SYS_STAT_RECOVERING 0
    { s1 with cmd := { s1.cmd with cmds := s1.cmd.cmds.map fun (c : Cmd) => if c.recov && c.deferred then { c with deferred := false } else c } }.cmdCounts.settle
  else s

/-- Boot is complete (R506); with no port up the device stays in BOOT, without a time-out (R507). -/
def State.bootEnd (s : State) : State :=
  if s.mode = modeBoot ∧ s.sys.boot = .done ∧ s.get SYS_STAT_BOOT_WAIT = 0 ∧ s.portUp = true then s.changeMode modeProvision mcBoot
  else s

/-- The mode changes that fall due at a boundary, first come first (R37). -/
def State.modeTick (s : State) : State :=
  ((((((((s.safeStopTick.activate).flushAllDrain).actTimeout).drainComplete).decideRequest).recoverEnd).bootEnd).bridgesEnd).bistShow

end Sys2Proof.Machine
end

