-- ==== Sys2Proof/Machine/BootOps.lean ====
section
/-!
DEFINITION. Device reset and start-up (12_startup.md): what a reset keeps, the boot ROM, Jack's stages.
-/

namespace Sys2Proof.Machine

open Sys2Proof

/-! ### Device reset (R493 to R495, R514) -/

/-- The SYS_RST_CAUSE bits. -/
abbrev rcPor : Nat := 0
abbrev rcPin : Nat := 1
abbrev rcSoft : Nat := 2
abbrev rcWdog : Nat := 3
abbrev rcBrownout : Nat := 4
abbrev rcUpdate : Nat := 5

/-- The registers that keep their word across a reset (R514): the fused ones, the reset cause, the Owl's FROZEN and SEQ but
for POR, the result of a scan that the reset ends, and the outcome of an update that it ends. -/
def State.keptRegs (s : State) (cause : Nat) : List (Nat × Word) :=
  let old := if cause = rcPor then 0 else (s.reg SYS_RST_CAUSE).toNat
  let owl := putBits (putBits 0 31 31 (s.get OWL_STAT_FROZEN)) 15 0 (s.get OWL_STAT_SEQ)
  [(SYS_RST_CAUSE, BitVec.ofNat 32 (old ||| 2 ^ cause)), (SEC_LC, BitVec.ofNat 32 (putBits (s.reg SEC_LC).toNat 9 8 0))] ++
    (if cause = rcPor then [] else [(OWL_STAT, BitVec.ofNat 32 owl)]) ++
    (if s.bist.scanning then [(BIST_SCAN_STAT, s.reg BIST_SCAN_STAT)] else []) ++
    (if cause = rcUpdate then [(UPD_ACT_STAT, BitVec.ofNat 32 (putBits 0 31 28 (s.get UPD_ACT_STAT_OUTCOME)))] else [])

/-- The flash as a reset leaves it: its contents stay, its queue and what was under way are lost. -/
def State.keptFlash (s : State) : FlashSt :=
  { cells := s.flash.cells, factory := s.flash.factory, jrnl := s.flash.jrnl, imgs := s.flash.imgs, refr := s.flash.refr,
    upset := s.flash.upset, flush := s.flash.flush, owlA := s.flash.owlA, owlB := s.flash.owlB }

/-- The Owl as a reset leaves it: lost by POR, else kept; a count that has not run out ends with the RESET event (R574). -/
def State.keptOwl (s : State) (cause : Nat) : OwlSt :=
  if cause = rcPor then {} else { ring := s.owl.ring, post := s.owl.post.map fun _ => 1 }

/-- A device reset of a cause (R493, R494, R514): the device holds reset until power-good. Keys, contracts, the domain map,
settings and calibration results do not survive it, and hosts give them back (R1, R2, R515, R609); whether a spindle still
turns is judged afresh (R516). A pending activation is lost (R604); the model's own queue and what hosts have been sent stay.
DEDUCED (notes/assumptions/29.md, unsafe). -/
def State.deviceReset (s : State) (cause : Nat) : State :=
  let fresh : State :=
    { pending := s.pending, free := s.free, wstat := s.wstat, flash := s.keptFlash, owl := s.keptOwl cause
      mem := { sram := if cause = rcPor then [] else s.mem.sram.filter fun e => e.1 / 16777216 == 5 }
      sec := { comps := s.sec.comps, jack := s.sec.jack, ident := s.sec.ident }, cmd := { done := s.cmd.done }, net := { sent := s.net.sent } }
  let s1 := (s.keptRegs cause).foldl (fun (t : State) (r : Nat × Word) => t.setReg r.1 r.2) fresh
  if s.flag SYS_STAT_ACT_PENDING then s1.raise 0x0E1 2 3 else s1

/-- A reset source is asserted: while reset is held it only sets its bit (R495). -/
def State.resetBy (s : State) (cause : Nat) : State :=
  if s.sys.boot = .held then
    if cause = rcPor then s.deviceReset rcPor
    else s.setReg SYS_RST_CAUSE (BitVec.ofNat 32 ((s.reg SYS_RST_CAUSE).toNat ||| 2 ^ cause))
  else s.deviceReset cause

/-! ### The boot ROM (R497, R498) -/

/-- FL_TWIN shows the current image state record. -/
def State.twinShow (s : State) : State := match s.imgNow with
  | some r => (s.set FL_TWIN_VALID 1).setFlag FL_TWIN_ACTIVE r.twinB
  | none => s.set FL_TWIN_VALID 0

/-- Header and body of a twin (R499). -/
def State.twinBytes (s : State) (b : Bool) : List Byte :=
  let base := sectorBase (if b then 1 else 0)
  s.flashBytes base (64 + min 65472 (ofBytes (s.flashBytes (base + 8) 4)))

/-- What an update has written into a twin has a valid header, and its body the header's digest (Table: Jack twin header). -/
def twinGood (b : List Byte) : Bool :=
  let len := fieldAt b 8 4
  b.take 4 == asciiBytes "KJCK" && fieldAt b 4 2 == 0x0100 && decide (1024 ≤ len) && decide (len ≤ 65472) &&
    fieldAt b 0x20 32 == (Config.shake256 ((b.drop 64).take len)).toNat % 2 ^ 256

/-- The ROM accepts a twin (R498): no word of it is uncorrectable, header and digest are good; `good` tells it of what the factory
wrote. -/
def State.twinAccepted (s : State) (b good : Bool) : Bool :=
  let n := if b then 1 else 0
  !s.flBad (sectorBase n) 65536 && (if s.flash.factory.contains n then good else twinGood (s.twinBytes b))

/-- The ROM starts a twin: MSR_0 is extended and Jack's first stage runs. -/
def State.startTwin (s0 : State) (b : Bool) : State :=
  let s := s0.flMet (sectorBase (if b then 1 else 0)) 65536
  (s.modSys fun y => { y with boot := .stage 1, twinB := b }).extendMsr 0 (s.twinBytes b)

/-- Power-good: TICK_COUNT starts from 0, the RESET event is the first event, and the ROM starts the twin that the current
record names, else the other; `a` and `b` tell which twins of the factory are valid. -/
def State.powerGood (s : State) (a b : Bool) : State :=
  let s1 := ({ s with tick := 0 }.capture evReset 0 (BitVec.ofNat 32 (bitsOf (s.reg SYS_RST_CAUSE).toNat 5 0))).twinShow
  let named : Bool := match s1.imgNow with
    | some r => r.twinB
    | none => false
  let first := s1.twinAccepted named (if named then b else a)
  let second := s1.twinAccepted (!named) (if named then a else b)
  if first then s1.startTwin named
  else if second then s1.startTwin (!named)
  else s1.modSys fun y => { y with boot := .stopped }

/-! ### Jack's stages (R502 to R505) -/

/-- Sectors with an open erase are erased again, and an open refresh step is completed from the spare (R486). -/
def State.flashStart (s : State) : State :=
  let step := s.openStep
  let open_ := (List.range 136).filter fun n => s.jrnlOpen n
  let lost := open_.filter fun n => step != some n
  let s1 := open_.foldl (fun (t : State) n => (if lost.contains n then t.eraseSector n else t).journal jEnd n) s
  let s2 := match step with
    | some n => s1.refrPut 2 n
    | none => s1
  let bad := match s2.imgNow with
    | none => [0, 1, 2, 3]
    | some r => ((r.comps.zip (List.range 4)).filter fun (c : (Nat × Nat × Bool) × Nat) =>
        !c.1.2.2 || lost.any fun n => decide (c.1.1 ≤ n) && decide (n < c.1.1 + c.1.2.1)).map (·.2)
  let s3 := ((s2.set FL_JRNL_STAT_REERASED (min 255 open_.length)).jrnlStat.twinShow).refreshShow
  s3.modSys fun y => { y with lostImgs := bad }

/-- The components by their place in the image state record: type, MSR. -/
def compPlaces : List (Nat × Nat) := [(1, 1), (2, 3), (3, 4), (4, 5)]

/-- A component as stored in its sectors: the 96-byte header and the body. -/
def State.compBytes (s : State) (i : Nat) : List Byte := match s.imgNow with
  | none => []
  | some r => match r.comps[i]? with
    | some c =>
      let base := sectorBase c.1
      s.flashBytes base (96 + ofBytes (s.flashBytes (base + 8) 4))
    | none => []

/-- Interface level and minimum level of a component by what an update has written; the factory release is compatible with
itself. -/
def levelOf (c : CompInfo) : Nat := bitsOf c.ver.toNat 63 48
def minOf (c : CompInfo) (t : Nat) : Nat := ((c.mins[t]?).getD 0).toNat

/-- Interface level of a resident type, and its minimum for another. -/
def State.resLevel (s : State) (t : Nat) : Nat := bitsOf (s.verWord t).toNat 63 48
def State.resMin (s : State) (t u : Nat) : Nat := match s.compOf t with
  | some c => minOf c u
  | none => (Config.factoryMin t u).toNat

/-- The resident component of a type keeps R600 with every other: pairs of the factory release do. -/
def State.resCompat (s : State) (t : Nat) : Bool :=
  (List.range 5).all fun u =>
    u == t || ((s.compOf t).isNone && (s.compOf u).isNone) ||
      ((t == 0 || decide (s.resMin t u ≤ s.resLevel u)) && (u == 0 || decide (s.resMin u t ≤ s.resLevel t)))

/-- First address and length of the sectors that the image state record gives a component. -/
def State.compRange (s : State) (i : Nat) : Nat × Nat := match s.imgNow.bind fun r => r.comps[i]? with
  | some c => (sectorBase c.1, 131072 * c.2.1)
  | none => (0, 0)

/-- A component keeps its integrity digest and has no uncorrectable word (R503); `good` tells the former of what the factory wrote. -/
def State.compGood (s : State) (i : Nat) (good : Bool) : Bool :=
  let r := s.compRange i
  let c := s.compBytes i
  !s.flBad r.1 r.2 && (if s.flash.factory.contains (sectorOf r.1) then good
    else fieldAt c 0x40 32 == (Config.shake256 ((c.drop 96).take (fieldAt c 8 4))).toNat % 2 ^ 256)

/-- Jack checks, measures and loads one component; false once a component has stopped stage 4. -/
def State.loadComp (ok : List Bool) (acc : State × Bool) (i : Nat) : State × Bool :=
  let (t, m) := nth compPlaces i (0, 0)
  if !acc.2 then acc
  else if acc.1.compGood i (nth ok i false) && !acc.1.sys.lostImgs.contains i && acc.1.resCompat t then
    (((acc.1.flMet (acc.1.compRange i).1 (acc.1.compRange i).2)).extendMsr m (acc.1.compBytes i), true)
  else ((acc.1.flMet (acc.1.compRange i).1 (acc.1.compRange i).2).set SYS_STAT_BOOT_WAIT 1, false)

/-- The service port takes its node ID from the descriptor (R504, R510). -/
def State.takeNode (s : State) : State :=
  s.withTlv s.sys.board 0x0003 0 fun t v => (t.set NET_SVC_CFG_NODE_ID (fieldAt v 0 1)).set NET_SVC_CFG_NODE_CNT (fieldAt v 1 1)

/-- Stage 4: the main firmware, the descriptor, then the other components; a descriptor that is not valid makes the device
wait when no image is incomplete (R503 to R505). -/
def State.loadStage (s : State) (ok : List Bool) (board : List Byte) : State :=
  let a := State.loadComp ok (s, true) 0
  let b := a.1.modSys fun y => { y with board := board }
  let c := if a.2 then b.extendMsr 2 board else b
  let d := [1, 2, 3].foldl (State.loadComp ok) (c, a.2)
  let valid := boardValid board
  let e := if valid then d.1.takeNode else d.1
  if d.2 && !valid then e.set SYS_STAT_BOOT_WAIT 2 else e

/-- The life-cycle record (Table: Life-cycle record). -/
def State.lifeRecord (s : State) : List Byte :=
  asciiBytes "KLCR" ++ toBytes 1 (s.get SEC_LC_STATE) ++ toBytes 1 (s.get SEC_LC_DEBUG) ++ toBytes 1 (s.get SEC_LC_REVOKED) ++
    toBytes 1 (s.get SEC_LC_SVN) ++ toBytes 8 s.tick

/-- An ephemeral key pair is generated (R593). -/
def State.newEk (s : State) : State :=
  { s with sec := { s.sec with ek := some s.free }, free := s.free + 1 }.set SEC_KEYS_EK_VALID 1

/-- A stage ends. A wait with BOOT_WAIT 2 is not cleared by a written image, only by a reset (R513); CAL_FMT.FORMAT takes the
CAL_FORMAT of the main firmware in use (R609). -/
def State.stageEnd (s : State) (n : Nat) (ok : List Bool) (board : List Byte) : State :=
  let next (t : State) : State := t.modSys fun y => { y with boot := if n = 7 then .done else .stage (n + 1) }
  if n = 1 then next (s.set FL_XIP_EN_BANK0 0)
  else if n = 2 then next s.flashStart
  else if n = 3 then next ((s.set MEM_DRAM_STAT_TRAINED 1).set MEM_DRAM_STAT_READY 1)
  else if n = 4 then
    let t := s.loadStage ok board
    if t.get SYS_STAT_BOOT_WAIT = 0 then next t else t
  else if n = 5 then next (s.loadBoard.extendMsr 7 s.lifeRecord)
  else if n = 6 then next (s.set FL_XIP_EN_BANK1 1 |>.modSys fun y => { y with wdogArmed := true })
  else
    let fmt := match s.compOf 1 with
      | some c => s.set CAL_FMT_FORMAT c.calFormat.toNat
      | none => s
    let t := next (fmt.newEk.set SYS_STAT_D2D_UP 1)
    [0, 1].foldl (fun (u : State) p => u.set (NET_PORT_STAT_STATE p) (u.restartCode p)) t

end Sys2Proof.Machine
end

