-- ==== Sys2Proof/Machine/Boot.lean ====
section
/-!
DEFINITION. The meanings of the reset and start-up commands (12_startup.md; R53 to R55, R572).
-/

namespace Sys2Proof.Machine

open Sys2Proof

/-- POWER_ON_RESET (R493, R495). -/
def execPowerOnReset (s : State) : Out := .next (s.resetBy rcPor)

/-- RESET_PIN (R493). -/
def execResetPin (s : State) : Out := .next (s.resetBy rcPin)

/-- WATCHDOG_RESET (R496): only the armed watchdog runs. -/
def execWatchdogReset (s : State) : Out := .next (if s.sys.wdogArmed then s.resetBy rcWdog else s)

/-- BROWNOUT (R493). -/
def execBrownout (s : State) : Out := .next (s.resetBy rcBrownout)

/-- POWER_GOOD (R497, R498): `a` and `b` tell whether what the factory wrote into twin A and twin B is valid. -/
def execPowerGood (a b : Bool) (s : State) : Out := .next (if s.sys.boot = .held then s.powerGood a b else s)

/-- JACK_STAGE_DONE (R502 to R505, R593): the running stage ends. `ok` tells, for main firmware, CE microcode, transport
firmware and housekeeper firmware, whether the factory's digest is good; `board` is the descriptor as read. -/
def execJackStageDone (ok : List Bool) (board : List Byte) (s : State) : Out :=
  .next (match s.sys.boot with
    | .stage n => if s.get SYS_STAT_BOOT_WAIT = 0 then s.stageEnd n ok board else s
    | _ => s)

/-- BOOT_COMPLETE (R506). -/
def execBootComplete (s : State) : Out := .next s.bootEnd

/-- The gate of a write of SYS_RST, which SAFE_STOP leaves open (R41). -/
def State.rstRefusal (s : State) (p : Path) : Option Nat :=
  match p with
  | .session id => match s.session? id with
    | some x => if !x.mgmt then some stNotPermitted else if s.mode = modeBoot then some stMode else none
    | none => some stNotPermitted
  | .service => if s.jackOnly then some stMode else if s.mgmtOpen && s.portUp then some stRegRefused else none

/-- A write of SYS_RST (R54, R55): with DEV_RST it needs the KEY; the write completes, then the device resets. -/
def State.sysRst (s : State) (p : Path) (key : Nat) (devRst : Bool) : State :=
  if s.silent p then s
  else match s.rstRefusal p with
    | some code => (s.rxMessage p false).status code
    | none =>
      let t := s.rxMessage p false
      if !devRst then t.status stOk
      else if key = 0xA5C3 then (t.status stOk).deviceReset rcSoft
      else t.status stRegRefused

/-- SYS_RST (R54, R55). -/
def execSysRst (p : Path) (key : BitVec 16) (devRst : Bool) (s : State) : Out := .next (s.sysRst p key.toNat devRst)

/-- LOGIC_SCAN_END (R572): the result is READY in BIST_SCAN_STAT and survives the SOFT reset that ends the scan. -/
def execLogicScanEnd (fail : Bool) (patterns : BitVec 29) (s : State) : Out :=
  .next (if s.bist.scanning then
      (((s.set BIST_SCAN_STAT_RES 1).setFlag BIST_SCAN_STAT_FAIL fail).set BIST_SCAN_STAT_PATTERNS patterns.toNat).deviceReset rcSoft
    else s)

/-- A read of BIST_SCAN_STAT: the first one after READY returns the result and consumes it (R420). -/
def State.scanRead (s : State) : List Word × State :=
  ([s.reg BIST_SCAN_STAT], if s.get BIST_SCAN_STAT_RES = 1 then s.set BIST_SCAN_STAT_RES 2 else s)

/-- BIST_SCAN_STAT_READ (R420, R572). -/
def execBistScanStatRead (p : Path) (s : State) : Out := .next (s.readBy p false State.scanRead)

end Sys2Proof.Machine
end

