-- ==== Sys2Proof/Machine/Faults.lean ====
section
/-!
DEFINITION. The meanings of the commands of the fault collector and of the Owl recorder (14_faults.md).
-/

namespace Sys2Proof.Machine

open Sys2Proof

/-- A source sends a message of a kind that it has (R551, R553). -/
def State.sends (s : State) (src kind arg : Nat) : State :=
  if (pairDefault src kind).isSome then s.raise src kind arg else s

/-- FAULT_MESSAGE (R551 to R554): the message takes its source's slot of the tick; the boundary that ends the tick collects
it and the next one takes its reaction (R32). -/
def execFaultMessage (src : BitVec 10) (kind : BitVec 6) (arg : BitVec 16) (s : State) : Out :=
  .next (s.sends src.toNat kind.toNat arg.toNat)

/-- FALLBACK_MESSAGE (R564): in fall-back the source latches the message in its own register, and the housekeeper applies
the message's default severity. -/
def execFallbackMessage (src : BitVec 10) (kind : BitVec 6) (arg : BitVec 16) (s : State) : Out :=
  .next (if s.flag FLT_STAT_FALLBACK then s.sends src.toNat kind.toNat arg.toNat else s)

/-- STN_HOLD_EXPIRY (R560, R561): STN_HOLD seconds after the last STATION reaction the station returns to service, unless
it is UNUSABLE; after more than STN_RETRY reactions in 3,600 s it stays held and is LOCKED. -/
def execStnHoldExpiry (st : Fin 2) (s0 : State) : Out :=
  let s := s0.stnShow st
  match (s.flt.reacts[st.val]?).getD [] with
  | [] => .next s
  | t :: _ =>
    if s.flag (FLT_STN_HELD st) = false ∨ s.flag (FLT_STN_LOCKED st) = true ∨ s.tick < t + s.get FLT_CFG_STN_HOLD * 500000 then .next s
    else if s.get FLT_CFG_STN_RETRY < ((s.flt.reacts[st.val]?).getD []).length then .next (s.set (FLT_STN_LOCKED st) 1)
    else if s.spnState st = spUnusable then .next s
    else .next (s.release st)

/-- FLT_STN_REL (R560): refused while the station's SPN state is UNUSABLE. -/
def execFltStnRel (p : Path) (st : Fin 2) (s : State) : Out :=
  .next (s.writeBy p (s.spnState st != spUnusable) fun t => if t.flag (FLT_STN_HELD st) then t.release st else t)

/-- FLT_INJECT (R562): the staged message takes its source's slot as if the source had sent it; accepted in PROVISION and
MAINTAIN, for a listed pair. -/
def execFltInject (p : Path) (s : State) : Out :=
  let m := s.reg FLT_INJ
  let src := m.toNat / 0x400000
  let kind := m.toNat / 0x10000 % 64
  let ok := (s.mode == modeProvision || s.mode == modeMaintain) && (pairDefault src kind).isSome && kind != 0 && kind != 0x3F
  .next (s.writeBy p ok fun t => t.send { src := src, kind := kind, arg := m.toNat % 0x10000, injected := true })

/-- FLT_SEV_WRITE (R555, R556): SEV of the pair that FLT_SEV_IDX names; it applies to the messages collected from the next
tick on. -/
def execFltSevWrite (p : Path) (v : Word) (s : State) : Out :=
  let src := s.get FLT_SEV_IDX_SRC
  let kind := s.get FLT_SEV_IDX_KIND
  let code := bitsOf v.toNat 2 0
  let ok := match pairDefault src kind with
    | some (_, fixed) => !fixed && decide (code ≤ 4) &&
        (code != sevSession || (src == 0x080 && kind == 1) || (src == 0x070 && kind == 4))
    | none => false
  .next (s.writeBy p ok fun t => { t with flt := { t.flt with sev := sput defaultSev t.flt.sev (64 * src + kind) code } })

/-! ### The Owl -/

/-- OWL_FREEZE (R574): the last of the events counted from a DEVICE reaction has been captured. Capturing it freezes the
ring at once, so the event finds nothing left to do unless the count stands at its end. -/
def execOwlFreeze (s : State) : Out :=
  .next (if s.owl.post = some 0 then { s with owl := { s.owl with post := none } }.set OWL_STAT_FROZEN 1 else s)

/-- OWL_RELEASE (R574): a frozen ring thaws. -/
def execOwlRelease (p : Path) (s : State) : Out := .next (s.writeBy p true fun t => t.set OWL_STAT_FROZEN 0)

/-- A held flush is acknowledged (R577): both sectors are ordered erased and RES returns to NOT_READY. -/
def State.flushAck (s : State) : State :=
  if s.get OWL_FLUSH_RES = 0 then s else (s.setReg OWL_FLUSH 0).eraseOwl

/-- OWL_FLUSH_ACK (R577). -/
def execOwlFlushAck (p : Path) (s : State) : Out := .next (s.writeBy p true State.flushAck)

/-- OWL_MARK (R573): a MARKER event with the value written. -/
def execOwlMark (p : Path) (v : Word) (s : State) : Out := .next (s.writeBy p true fun t => t.capture evMarker 0 v)

end Sys2Proof.Machine
end

