-- ==== Sys2Proof/Machine/Flash.lean ====
section
/-!
DEFINITION. The meanings of the flash commands (11_memory_flash.md). A host pushes a descriptor by a write of FL_DESC_PUSH;
a device core pushes by no path.
-/

namespace Sys2Proof.Machine

open Sys2Proof

/-- The staged descriptor of a host is pushed (R477). -/
def State.flHostPush (s : State) (p : Path) (d : FlDesc) : State :=
  s.writeBy p (s.flHostAccepts d.op d.len d.buf.toNat d.urgent) fun t =>
    { t with flash := { t.flash with queue := t.flash.queue ++ [d] } }.flGo

/-- A reading descriptor is queued by the host or by a device core. -/
def State.flReading (s : State) (by_ : Option Path) (op : Nat) (tag : BitVec 8) (addr : BitVec 24) (len : BitVec 25) : State :=
  match by_ with
  | some p => s.flHostPush p { host := true, tag := tag.toNat, op := op, addr := addr.toNat, len := len.toNat }
  | none => s.flPush { host := false, tag := tag.toNat, op := op, addr := addr.toNat, len := len.toNat }

/-- FLASH_READ (R477, R478). -/
def execFlashRead (by_ : Option Path) (tag : BitVec 8) (addr : BitVec 24) (len : BitVec 25) (s : State) : Out :=
  .next (s.flReading by_ flRead tag addr len)

/-- FLASH_CHECK (R477, R478). -/
def execFlashCheck (by_ : Option Path) (tag : BitVec 8) (addr : BitVec 24) (len : BitVec 25) (s : State) : Out :=
  .next (s.flReading by_ flCheck tag addr len)

/-- FLASH_BLANK_CHECK (R477, R478). -/
def execFlashBlankCheck (by_ : Option Path) (tag : BitVec 8) (addr : BitVec 24) (len : BitVec 25) (s : State) : Out :=
  .next (s.flReading by_ flBlank tag addr len)

/-- FLASH_PROGRAM (R479, R482): queued by a device core. -/
def execFlashProgram (urgent : Bool) (addr : BitVec 24) (data : List Byte) (s : State) : Out :=
  .next (s.flPush { host := false, urgent := urgent, op := flProgram, addr := addr.toNat, len := data.length, data := data })

/-- FLASH_ERASE (R479, R484): queued by a device core. -/
def execFlashErase (addr : BitVec 24) (s : State) : Out :=
  .next (s.flPush { host := false, op := flErase, addr := addr.toNat })

/-- FLASH_OP_DONE (R476, R478): the reading or the modifying descriptor that runs ends, the latter with its verification; a read meets
the words whose cells have upset, those named among them. The queue goes on. -/
def execFlashOpDone (reading ok : Bool) (upset : List (BitVec 24 × BitVec 137)) (s : State) : Out :=
  if reading then
    match s.flash.rd with
    | some d => .next ((s.upsetWords upset).readDone d).flGo
    | none => .next s
  else
    match s.flash.run with
    | some d => .next (s.modifyDone d ok).flGo
    | none => .next s

/-- FL_CMPL_READ (R477): the read returns the oldest host completion and removes it. -/
def execFlCmplRead (p : Path) (s : State) : Out :=
  .next (s.readBy p false fun t =>
    match t.flash.cmpl with
    | [] => ([0], t)
    | (tag, op, st) :: rest =>
      ([BitVec.ofNat 32 (0x80000000 + 0x10000 * (tag % 256) + 0x1000 * (op % 16) + st % 16)],
        { t with flash := { t.flash with cmpl := rest } }.flStat))

/-- FL_REFRESH_START (R490, R491): accepted in MAINTAIN; a halted pass goes on at its next sector, else a pass starts with
its first erases and keeps the PTP seconds of its start. -/
def execFlRefreshStart (p : Path) (s : State) : Out :=
  .next (s.writeBy p (s.mode == modeMaintain) fun t =>
    let st := t.get FL_REFRESH_STAT_STATE
    if st = 1 then { t with flash := { t.flash with stopRefresh := false } }
    else
      let t1 := ((t.set FL_REFRESH_STAT_STATE 1).set FL_XIP_EN_BANK0 0).set FL_XIP_EN_BANK1 0
      if st = 3 then t1.refreshNext.flGo
      else
        let owl (n : Nat) : List FlDesc := if t.flash.flush.isSome then [] else [refreshStep flErase n]
        let steps := (if t.openStep.isNone then [refreshStep flErase 9] else []) ++
          [refreshStep flErase (5 - t.imgCur), refreshStep flErase (3 - t.jrnlCur)] ++ owl 6 ++ owl 7
        let ptp := if t.flag TICK_STAT_PTP_VALID then t.ce.ptpSec else 0
        ({ (t1.set FL_REFRESH_STAT_SECTOR 0) with flash := { t1.flash with queue := t1.flash.queue ++ steps, refreshPtp := ptp } }.set
          FL_REFRESH_STAT_PROGRESS 0).flGo)

/-- FL_REFRESH_STOP (R491): the pass halts after the current sector. -/
def execFlRefreshStop (p : Path) (s : State) : Out :=
  .next (s.writeBy p true fun t =>
    if t.get FL_REFRESH_STAT_STATE = 1 then { t with flash := { t.flash with stopRefresh := true } } else t)

/-- FLASH_REFRESH_DUE (R489): ten years past the last completed pass, with PTP time valid. -/
def execFlashRefreshDue (s : State) : Out :=
  if s.flag TICK_STAT_PTP_VALID = true ∧ s.lastRefresh + 315576000 ≤ s.ce.ptpSec ∧ s.flag FL_REFRESH_STAT_DUE = false then
    .next ((s.set FL_REFRESH_STAT_DUE 1).flFault 3 0)
  else .next s

end Sys2Proof.Machine
end

