-- ==== Sys2Proof/Machine/Magazine.lean ====
section
/-!
DEFINITION. The meanings of the commands of 06_axes_and_picker.md that order or report the picker.
DEDUCED (notes/assumptions/26.md, unsafe): Picker: step 1 moves Z, a failed grip of step 2 goes through step 8, re-admission of the magazine axes returns Badger to IDLE or UNHOMED.
-/

namespace Sys2Proof.Machine

open Sys2Proof

/-- HOME_ALL (R284, R643). -/
def execHomeAll (p : Path) (s : State) : Out := .next (s.magCmd p 1 0 0)

/-- MOVE_ZX (R277, R278, R643). -/
def execMoveZx (p : Path) (s : State) : Out := .next (s.magCmd p 2 0 0)

/-- LOAD (R286, R643). -/
def execLoad (p : Path) (st : Fin 2) (slot : BitVec 5) (s : State) : Out := .next (s.magCmd p 3 st slot.toNat)

/-- UNLOAD (R286, R289, R643). -/
def execUnload (p : Path) (st : Fin 2) (s : State) : Out := .next (s.magCmd p 4 st 0)

/-- EXCHANGE (R286, R643). -/
def execExchange (p : Path) (st : Fin 2) (slot : BitVec 5) (s : State) : Out := .next (s.magCmd p 5 st slot.toNat)

/-- RECOVER (R290, R643). -/
def execRecover (p : Path) (s : State) : Out := .next (s.magCmd p 6 0 0)

/-- A move of the picker and its settle end (R284, R286). -/
def execExchangeStepDone (s : State) : Out := .next s.magStep

/-- A grip step fails (R288); a probed slot whose grip fails is empty (R644). -/
def execGripFail (s : State) : Out :=
  if s.gripStuck = false then .next s
  else match s.mag.stage, s.mag.run with
    | .exchange, some o => .next (s.gripFail o)
    | .probe k, some _ => .next (s.magArrive.probeOver k false)
    | _, _ => .next s

/-- The code of the picker's owner in PICKER_WDOG. -/
def ownerCode (r : Requester) : Nat :=
  match r with
  | .stn0 => 0
  | .stn1 => 1
  | .maint => 2

/-- The grant has run for ARB_PK_WDOG since the exchange's first step, and no RECOVER runs yet (R293). -/
def State.pickerLate (s : State) : Bool :=
  !s.mag.recovering && decide (s.mag.start + 500000 * s.get ARB_PK_WDOG_PK_WDOG ≤ s.tick)

/-- The picker watchdog expires (R293): the axes stop, the exchange fails with WATCHDOG and RECOVER runs. -/
def execPickerWdog (s : State) : Out :=
  match s.mag.run with
  | some o =>
    if s.pickerLate = false then .next s
    else .next (((((s.magFault 3 (ownerCode o.by_)).magHalt false).exchStat 2 rsWatchdog s.mag.start).magResult resFailed
      rsWatchdog).recover)
  | none => .next s

end Sys2Proof.Machine
end

