-- ==== Sys2Proof/Machine/Memory.lean ====
section
/-!
DEFINITION. The meanings of the commands of the context cache, the DRAM, the SRAMs and the checker
(10_arbitration_cache.md, 11_memory_flash.md).
-/

namespace Sys2Proof.Machine

open Sys2Proof

/-! ### Cache maintenance (R454 to R458) -/

/-- An operation ends with its RESULT and the lines it reached. -/
def State.maintEnd (s : State) (result lines : Nat) : State :=
  ((s.set CCH_MAINT_STAT_BUSY 0).set CCH_MAINT_STAT_RESULT result).set CCH_MAINT_STAT_LINES lines

/-- A write of CCH_MAINT orders an operation, refused while one runs (R456). -/
def State.maintOrder (s : State) (p : Path) (op : Nat) : State :=
  s.writeBy p (!s.flag CCH_MAINT_STAT_BUSY && decide (1 ≤ op) && decide (op ≤ 6)) fun t =>
    let t1 := ((t.set CCH_MAINT_STAT_BUSY 1).set CCH_MAINT_STAT_OP op).set CCH_MAINT_STAT_LINES 0
    let tag := t.get CCH_MAINT_ADDR_LINE
    let addressed := op = 1 ∨ op = 2 ∨ op = 4 ∨ op = 5
    if addressed ∧ (cacheable (64 * tag) = false ∨ (op = 2 ∧ cacheable (64 * t.get CCH_MAINT_END_LINE) = false)) then
      t1.maintEnd 2 0
    else if op = 4 ∧ t1.hits tag = false ∧ t1.cch.miss = none ∧ t1.locksInSet tag < 8 then
      let t2 := t1.incWrap CCH_MISS_COUNT
      { t2 with cch := { t2.cch with miss := some tag } }
    else t1

def execInvLine (p : Path) (s : State) : Out := .next (s.maintOrder p 1)
def execInvRange (p : Path) (s : State) : Out := .next (s.maintOrder p 2)
def execInvAll (p : Path) (s : State) : Out := .next (s.maintOrder p 3)
def execLock (p : Path) (s : State) : Out := .next (s.maintOrder p 4)
def execUnlock (p : Path) (s : State) : Out := .next (s.maintOrder p 5)
def execUnlockAll (p : Path) (s : State) : Out := .next (s.maintOrder p 6)

/-- The lines an invalidation reaches: INV_LINE, INV_RANGE, INV_ALL. -/
def State.invReaches (s : State) (op tag : Nat) : Bool :=
  if op = 1 then tag == s.get CCH_MAINT_ADDR_LINE
  else if op = 2 then decide (s.get CCH_MAINT_ADDR_LINE ≤ tag) && decide (tag ≤ s.get CCH_MAINT_END_LINE)
  else op == 3

/-- CCH_MAINT_DONE (R454 to R457): the operation that runs acts and ends; one whose address matches the outstanding miss
waits for it. -/
def execCchMaintDone (s : State) : Out :=
  let op := s.get CCH_MAINT_STAT_OP
  let tag := s.get CCH_MAINT_ADDR_LINE
  let waits := match s.cch.miss with
    | some m => s.invReaches op m || (op == 4 || op == 5) && m == tag
    | none => false
  if s.flag CCH_MAINT_STAT_BUSY = false ∨ waits = true then .next s
  else if op ≤ 3 then
    let hit := s.cch.lines.filter fun l => l.valid && s.invReaches op l.tag
    let s1 := (s.invalidate fun l => s.invReaches op l.tag).maintEnd 0 hit.length
    let locked := (hit.filter fun l => l.locked).length
    let s2 := s1.when (decide (op ≤ 2)) fun t => t.addSat CCH_INV_LOCKED_CNT_COUNT locked
    .next ({ s2 with cch := { s2.cch with held := [] } }.replay s.cch.held)
  else if op = 4 then
    let already := match s.lineOf tag with
      | some l => l.locked
      | none => false
    if already then .next (s.maintEnd 0 0)
    else if 8 ≤ s.locksInSet tag then .next (s.maintEnd 1 0)
    else if s.hits tag then .next ((s.lockWay tag).maintEnd 0 0)
    else .next ((s.lockLine tag).maintEnd 0 0)
  else if op = 5 then
    match s.lineOf tag with
    | some l => if l.locked then .next ((s.unlockWays fun m => m.tag == tag).maintEnd 0 (if l.valid then 1 else 0))
        else .next (s.maintEnd 3 0)
    | none => .next (s.maintEnd 3 0)
  else .next ((s.unlockWays fun _ => true).maintEnd 0 ((s.cch.lines.filter fun l => l.locked && l.valid).length))

/-! ### Cache accesses (R450 to R453) -/

/-- CACHE_READ (R450); an address outside the cacheable regions bypasses the cache (R448). -/
def execCacheRead (addr : BitVec 34) (s : State) : Out :=
  let a := addr.toNat
  if cacheable a then .next (s.access { addr := a })
  else if dramBytes ≤ a then .next s
  else
    let r := s.fetchLine (a / 64)
    .next { r.2 with cch := { r.2.cch with out := r.1.toList } }

/-- CACHE_WRITE (R451). -/
def execCacheWrite (addr : BitVec 34) (bytes : List Byte) (s : State) : Out :=
  let a := addr.toNat
  if cacheable a then .next (s.access { addr := a, bytes := some bytes })
  else if dramBytes < a + bytes.length then .next s
  else .next (s.writeDram a bytes)

/-- CACHE_FILL_DONE (R452, R457): the line allocates unless a running invalidation covers it, the waiting accesses are
served from it and the stalled ones go on. -/
def execCacheFillDone (s : State) : Out :=
  match s.cch.miss with
  | none => .next s
  | some tag =>
    let r := s.fetchLine tag
    let s1 := { r.2 with cch := { r.2.cch with miss := none, waiters := [], stalled := [], out := r.1.toList } }
    let barred := s.flag CCH_MAINT_STAT_BUSY && decide (s.get CCH_MAINT_STAT_OP ≤ 3) && s.invReaches (s.get CCH_MAINT_STAT_OP) tag
    let s2 := match r.1 with
      | some d => if barred then s1 else s1.allocate tag d
      | none => s1
    .next (s2.replay s.cch.stalled)

/-! ### DRAM and SRAM -/

/-- DRAM_READ (R469): the granule of an address, with the bits that have upset in it. -/
def execDramRead (addr : BitVec 34) (upset : BitVec 272) (s : State) : Out :=
  let g := addr.toNat / 32
  if granules ≤ g ∨ s.flag MEM_DRAM_STAT_READY = false then .next s
  else
    let r := (s.upsetGran g upset).readGran g false
    .next { r.2 with mem := { r.2.mem with last := r.1.map fun d => BitVec.ofNat 256 d } }

/-- DRAM_PARTIAL_WRITE (R467): the bytes of one granule that the write covers. -/
def execDramPartialWrite (addr : BitVec 34) (bytes : List Byte) (upset : BitVec 272) (s : State) : Out :=
  let g := addr.toNat / 32
  if granules ≤ g ∨ s.flag MEM_DRAM_STAT_READY = false then .next s
  else
    let r := (s.upsetGran g upset).writeGran addr.toNat (bytes.take (32 - addr.toNat % 32))
    .next { r.2 with mem := { r.2.mem with last := if r.1 then some (BitVec.ofNat 256 (r.2.granData g)) else none } }

/-- SRAM_READ (R461 to R463): a byte is read, with the bits that have upset in its cells since the last access; the test rows are the
checker's alone. -/
def execSramRead (i : Fin 9) (offset : BitVec 24) (upset : BitVec 13) (s : State) : Out :=
  let o := offset.toNat
  if sramSize i ≤ o then .next s
  else .next ((if upset = 0 then s else s.setSram i o (s.sramUpset i o ^^^ upset)).readSram i o false)

/-! ### The checker (R472, R473) -/

/-- The eight data words of the checker as one number. -/
def State.chkData (s : State) : Nat := (List.range 8).foldr (fun k n => (s.reg (MEM_CHK_DATA k)).toNat + 2 ^ 32 * n) 0

/-- The checker's data words set from a number. -/
def State.setChkData (s : State) (n v : Nat) : State :=
  (List.range n).foldl (fun (t : State) k => t.setReg (MEM_CHK_DATA k) (BitVec.ofNat 32 (v / 2 ^ (32 * k)))) s

/-- A host checker operation is accepted: MAINTAIN, a listed target and an index in its range. -/
def State.chkAccepts (s : State) (target : Nat) : Bool :=
  s.mode == modeMaintain &&
    (target == 15 && decide (s.get MEM_CHK_ADDR_INDEX < 64) || decide (target ≤ 5) && decide (s.get MEM_CHK_ADDR_INDEX < 8))

/-- The granule of the test window that INDEX names. -/
def State.chkGranule (s : State) : Nat := granules - 128 + s.get MEM_CHK_ADDR_INDEX

/-- Byte `b` of the SRAM test-row word that INDEX names: data and check bits. -/
def State.rowByte (s : State) (target b : Nat) : Nat :=
  (sget (fun _ => 0) s.mem.rows (64 * target + 4 * s.get MEM_CHK_ADDR_INDEX + b)).toNat

def State.setRowByte (s : State) (target b v : Nat) : State :=
  { s with mem := { s.mem with rows := sput (fun _ => 0) s.mem.rows (64 * target + 4 * s.get MEM_CHK_ADDR_INDEX + b) (BitVec.ofNat 13 v) } }

/-- WRITE_RAW (R473). -/
def execWriteRaw (p : Path) (target : BitVec 4) (s : State) : Out :=
  let t := target.toNat
  .next (s.writeBy p (s.chkAccepts t) fun s0 =>
    let s1 := s0.set MEM_CHK_CTL_TARGET t
    let code := s1.get MEM_CHK_CODE_CODE
    if t = 15 then s1.putGran s1.chkGranule s1.chkData (code % 65536)
    else (List.range 4).foldl (fun (u : State) b =>
      u.setRowByte t b (bitsOf s1.chkData (8 * b + 7) (8 * b) + 256 * bitsOf code (5 * b + 4) (5 * b))) s1)

/-- The stored check bits of the target. -/
def State.chkStored (s : State) (t : Nat) : Nat :=
  if t = 15 then s.granChk s.chkGranule
  else (List.range 4).foldr (fun b n => s.rowByte t b / 256 + 32 * n) 0

/-- READ_RAW (R473). -/
def execReadRaw (p : Path) (target : BitVec 4) (s : State) : Out :=
  let t := target.toNat
  .next (s.writeBy p (s.chkAccepts t) fun s0 =>
    let s1 := (s0.set MEM_CHK_CTL_TARGET t).set MEM_CHK_CODE_CODE (s0.chkStored t)
    if t = 15 then s1.setChkData 8 (s1.granData s1.chkGranule)
    else s1.setChkData 1 ((List.range 4).foldr (fun b n => s1.rowByte t b % 256 + 256 * n) 0))

/-- MEM_CHK_RES of a decoding. -/
def State.chkResult (s : State) (kind synd asynd : Nat) (par : Bool) (bit : Nat) : State :=
  ((((s.set MEM_CHK_RES_KIND kind).set MEM_CHK_RES_SYND synd).set MEM_CHK_RES_ASYND asynd).setFlag MEM_CHK_RES_PAR
    par).set MEM_CHK_RES_BIT bit

/-- READ_CORR (R473): memory is not written and nothing is raised (R471). -/
def execReadCorr (p : Path) (target : BitVec 4) (s : State) : Out :=
  let t := target.toNat
  .next (s.writeBy p (s.chkAccepts t) fun s0 =>
    let s1 := (s0.set MEM_CHK_CTL_TARGET t).set MEM_CHK_CODE_CODE (s0.chkStored t)
    if t = 15 then
      let g := s1.chkGranule
      let e := eccDecode 256 9 (s1.granData g) (s1.granChk g % 1024)
      let a := s1.granChk g / 1024 ^^^ addrFold g
      (s1.setChkData 8 e.data).chkResult (if a ≠ 0 then 3 else e.kind) e.synd a e.par (e.bit.getD 0)
    else
      let es := (List.range 4).map fun b => eccDecode 8 4 (s1.rowByte t b % 256) (s1.rowByte t b / 256)
      let first := (es.zipIdx.find? fun e => e.1.synd != 0).orElse fun _ => es.zipIdx.find? fun e => e.1.kind != 0
      let kind := es.foldl (fun m e => max m e.kind) 0
      let s2 := s1.setChkData 1 (es.foldr (fun e n => e.data + 256 * n) 0)
      match first with
      | none => s2.chkResult 0 0 0 false 0
      | some (e, b) => s2.chkResult kind e.synd 0 e.par ((e.bit.map fun i => 8 * b + i).getD 0))

end Sys2Proof.Machine
end

