-- ==== Sys2Proof/Machine/Modes.lean ====
section
/-!
DEFINITION. The meanings of the mode commands (01_architecture.md: R19 to R23, R33 to R51; R417, R565). Each event of a
boundary does its own part when its condition holds; TICK_BOUNDARY does all of them in the order of R37.
DEDUCED (notes/assumptions/35.md, unsafe): Modes: a SERVE or MAINTAIN request during FLUSH_ALL or an activation drain is REFUSED_PRECONDITION with COND 0, SAFE_STOP drops all jobs, any mode change cuts campaigns.
-/

namespace Sys2Proof.Machine

open Sys2Proof

/-- MODE_REQ_PROVISION (R34, R51). -/
def execModeReqProvision (p : Path) (s : State) : Out := .next (s.writeBy p true fun t => t.modeRequest modeProvision)

/-- MODE_REQ_SERVE (R34, R36, R51). -/
def execModeReqServe (p : Path) (s : State) : Out := .next (s.writeBy p true fun t => t.modeRequest modeServe)

/-- MODE_REQ_DRAIN (R36, R51). -/
def execModeReqDrain (p : Path) (s : State) : Out := .next (s.writeBy p true fun t => t.modeRequest modeDrain)

/-- MODE_REQ_MAINTAIN (R36, R51). -/
def execModeReqMaintain (p : Path) (s : State) : Out := .next (s.writeBy p true fun t => t.modeRequest modeMaintain)

/-- MODE_REQ_OTHER (R35, R51): a target that no row of Table: Mode transitions gives a host is refused at the boundary. -/
def execModeReqOther (p : Path) (target : BitVec 4) (s : State) : Out :=
  .next (s.writeBy p true fun t => t.modeRequest target.toNat)

/-- MODE_REQUEST_DECIDE (R34 to R37, R51): the pending request is decided, unless a change that comes before it is due. -/
def execModeRequestDecide (s : State) : Out := .next (if s.higherDue then s else s.decideRequest)

/-- DRAIN_COMPLETE (R44), unless a change that comes before it is due (R37). -/
def execDrainComplete (s : State) : Out := .next (if s.sys.safeStopDue.isSome || s.actDue then s else s.drainComplete)

/-- ACTIVATION_INSTANT (R38, R603). -/
def execActivationInstant (s : State) : Out := .next (if s.sys.safeStopDue.isSome then s else s.activate)

/-- ACT_DRAIN_TMO (R417). -/
def execActDrainTmo (s : State) : Out := .next (if s.sys.safeStopDue.isSome then s else s.actTimeout)

/-- RECOVERING_END (R49). -/
def execRecoveringEnd (s : State) : Out := .next s.recoverEnd

/-- SAFE_STOP_BRIDGES_OFF (R565). -/
def execSafeStopBridgesOff (s : State) : Out := .next s.bridgesEnd

/-! ### The die-to-die link (R19 to R23) -/

/-- The link is lost: every write gate drops at once with cause LINK (R22, R155, R156), D2D_LOST is raised and SAFE_STOP falls due. -/
def State.linkLost (s : State) (side : Nat) : State :=
  if s.flag SYS_STAT_D2D_UP then
    ((((List.range 4).foldl (fun (t : State) n => t.inhibit n wiLink) s).set SYS_STAT_D2D_UP 0).raise 0x0F0 1 side).orderSafeStop 8
  else s

/-- D2D_FLIT_CRC_FAIL (R19): a flit fails its CRC and is replayed until a replay passes; `failed` replays fail, and the
fourth in a row counts as loss of the link.
DEDUCED (notes/assumptions/38.md, unsafe). -/
def execD2dFlitCrcFail (side : Fin 2) (failed : Fin 5) (s : State) : Out :=
  let s1 := (s.addSat SYS_D2D_CNT_CRC_ERR (1 + failed)).addSat SYS_D2D_CNT_REPLAY (min (failed + 1) 4)
  .next (if failed.val = 4 then s1.linkLost side else s1)

/-- D2D_LINK_LOSS (R21 to R23): side 0 the analogue core, 1 the digital shell. -/
def execD2dLinkLoss (side : Fin 2) (s : State) : Out := .next (s.linkLost side)

end Sys2Proof.Machine
end

