-- ==== Sys2Proof/Machine/Net.lean ====
section
/-!
DEFINITION. The meanings of the network commands: ports, frames, the time client, the transport and connections
(08_ethernet_chain.md).
PRESUMED (notes/assumptions/32.md, unsafe): Network timers and formulas that the spec takes from standards: BMCA order, DCQCN constants, PTP addresses, CNP interval.
DEDUCED (notes/assumptions/33.md, unsafe): Network: FWD_LOOP once per TICK second, learning refreshed on arrival, LINK_UP from any state but UP when a restart is coded, a REQ outstanding counts for MGMT_BUSY and SESSIONS_FULL.
-/

namespace Sys2Proof.Machine

open Sys2Proof

/-! ### Ports (R336 to R341) -/

/-- A port that aligns has its block lock and alignment lock and becomes UP (R339). -/
def execPortLinkUp (port : Fin 2) (s : State) : Out :=
  if s.portState port = 3 then .next (s.portComes port) else .next s

/-- Loss of signal or of FEC alignment. -/
def execPortLinkDown (port : Fin 2) (s : State) : Out := .next (if s.isUp port then s.portDown port true else s)

/-- A high symbol-error ratio for 8 consecutive ticks: LINK_HI_SER, and the port goes down. -/
def execLinkHiSer (port : Fin 2) (s : State) : Out :=
  .next (if s.isUp port = true ∧ 8 ≤ (s.net.serRun[port]) then
    ((s.set (NET_PORT_STAT_HI_SER port) 1).raise 0x070 2 port).portDown port true else s)

/-- A write of NET_PORT_CTL.ENABLE: 0 holds the port down without a fault, 1 lets it come up. -/
def State.portEnable (s : State) (port : Nat) (en : Bool) : State :=
  if s.flag (NET_PORT_CTL_ENABLE port) = en then s else (s.setFlag (NET_PORT_CTL_ENABLE port) en).portDown port false

/-- PORT_ENABLE. -/
def execPortEnable (p : Path) (port : Fin 2) (en : Bool) (s : State) : Out := .next (s.writeBy p true fun t => t.portEnable port en)

/-- Auto-negotiation resolves to the advertised PHY, or to another one (R337). -/
def execAutoNegotiationDone (port : Fin 2) (ok : Bool) (s : State) : Out :=
  if s.portState port = 1 then
    .next (if ok then (s.set (NET_PORT_STAT_STATE port) 2).set (NET_PORT_STAT_AN_FAIL port) 0 else s.set (NET_PORT_STAT_AN_FAIL port) 1)
  else .next s

/-- Link training completes. -/
def execLinkTrainingDone (port : Fin 2) (s : State) : Out :=
  .next (if s.portState port = 2 then s.set (NET_PORT_STAT_STATE port) 3 else s)

/-! ### Frames (R340, R343 to R359, R373, R374) -/

/-- A frame's tag is the one the device takes for itself (R345). -/
def State.tagOk (s : State) (f : Frame) : Bool := match f.tag with
  | none => s.get NET_VLAN_VID == 0
  | some t => s.get NET_VLAN_VID != 0 && t.1.toNat == s.get NET_VLAN_VID

/-- The source address of a delivered frame is learned on its port (R353). -/
def State.learnFrom (s : State) (p : Nat) (m : BitVec 48) : State :=
  let rest := s.net.learn.filter fun e => e.1 != m
  let s1 := if rest.length < 4096 then s.modNet fun n => { n with learn := rest ++ [(m, p, s.tick)] } else s
  s1.set NET_FWD_STAT_LEARNED s1.net.learn.length

/-- CE on a packet of a session: a CNP, at most one in each CNP_INT (R373). -/
def State.notify (s : State) (sid : BitVec 14) : State := match s.connOf sid with
  | none => s
  | some c =>
    let due := c.cnpAt.all fun t => decide (s.get NET_RC_CFG_CNP_INT ≤ 2 * (s.tick - t))
    if c.opened && due then
      (s.sendSess sid (s.ownPrio (s.get NET_QOS_PCP_CNP)) (.cnp sid)).modConn sid fun x => { x with cnpAt := some s.tick }
    else s

/-- A frame for the device is taken in. -/
def State.deliver (s : State) (p : Nat) (f : Frame) : State :=
  let s1 := s.learnFrom p f.src
  match f.kind with
  | .solicit a =>
    if s1.ip6s.contains a then s1.sendTo f.src (s1.ownPrio 0) (.advert a true)
    else match s1.ip4 with
      | some v => if v4mapped v = a then s1.sendTo f.src (s1.ownPrio 0) (.arp v true) else s1
      | none => s1
  | .neighbour a => s1.noteNeighbour a f.src
  | .roce sid => if f.ecn = 3 then s1.notify sid else s1
  | .roceBad sid access =>
    if (s1.session? sid).isSome then s1.sendSess sid s1.dataPrio (.nak sid access) else s1
  | _ => s1

/-- A Sync or Delay_Req of another. -/
def isPtpEvent (k : FrameKind) : Bool := match k with
  | .ptpEvent _ => true
  | _ => false

/-- A transit frame goes out a port, or is discarded (R348 to R351, R357 to R359, R374). -/
def State.forward (s : State) (in_ out : Nat) (f : Frame) : State :=
  if !s.isUp out then s.addSat (NET_PORT_DROP_DOWN out) 1
  else if 524288 < s.transitBytes out + f.len.toNat then s.addSat (NET_PORT_DROP_FULL out) 1
  else
    let ram := (s.net.ramBad[out]?).getD false
    let bad := !f.fcsOk || decide (9216 < f.len.toNat) || ram
    let s0 := s.when ram fun t => t.modNet fun n => { n with ramBad := n.ramBad.setIfInBounds out false }
    let s1 := if bad then s0.addSat (NET_PORT_DROP_STOMPED out) 1 else s0
    let ce := decide (s.get NET_FWD_CFG_ECN_THR * 1024 ≤ s.transitBytes out) && (f.ecn == 1 || f.ecn == 2)
    let asym (p : Nat) : Int := s.getInt (NET_PORT_ASYM_ASYM p)
    let (corr, s2) := match f.kind with
      | .ptpEvent v4sum =>
        if !s.flag NET_PTP_CFG_TC_EN then (none, s1)
        else if v4sum then (none, s1.addSat NET_PTP_CNT_V4_UNCORR 1)
        else (some (Config.residence f.residence.toNat (asym in_) (asym out)), s1)
      | _ => (none, s1)
    s2.emit out (f.tag.map fun t => t.2.toNat) (.fwd f.len.toNat ce bad corr) (isPtpEvent f.kind)

/-- The receive buffer of PRIO reaches XOFF or falls below XON: PFC is sent or released on the port (R374). -/
def State.pfcSend (s : State) (p : Nat) (occ : Nat) : State :=
  let sent := (s.net.pfcSent[p]?).getD false
  if !s.flag NET_PFC_CFG_EN then s
  else if s.get NET_PFC_CFG_XOFF ≤ occ ∧ sent = false then
    (s.emit p none (.pfc true)).modNet fun n => { n with pfcSent := n.pfcSent.setIfInBounds p true }
  else if occ < s.get NET_PFC_CFG_XON ∧ sent = true then
    (s.emit p none (.pfc false)).modNet fun n => { n with pfcSent := n.pfcSent.setIfInBounds p false }
  else s

/-- HOST_FRAME_RX (R347). -/
def State.frameRx (s : State) (p : Nat) (f : Frame) : State :=
  if !s.isUp p then s
  else if f.src = s.mac then
    let s1 := s.addSat NET_FWD_STAT_LOOP 1
    if s.net.loopAt = some (s.tick / 500000) then s1
    else (s1.modNet fun n => { n with loopAt := some (s.tick / 500000) }).raise 0x070 3 p
  else if f.dst = 0x0180C2000001 then (if f.kind = .pause then s.addSat (NET_PORT_DROP_PAUSE p) 1 else s)
  else
    let mine := f.dst == s.mac
    let group := f.dst == 0xFFFFFFFFFFFF || s.groups.contains f.dst
    let s1 := if (mine || group) && f.fcsOk && s.tagOk f then s.deliver p f else s
    let s2 := if mine then s1 else s1.forward p (1 - p) f
    s2.pfcSend p f.rxOcc.toNat

/-- HOST_FRAME_RX (R347). -/
def execHostFrameRx (port : Fin 2) (f : Frame) (s : State) : Out := .next (s.frameRx port f)

/-- PFC_FRAME_RX (R374): a frame for PRIO holds the port's frames of PRIO for its time, of quanta of 512 bit times at
100 Gb/s; a time of 0 ends a hold. -/
def execPfcFrameRx (port : Fin 2) (prio : BitVec 3) (quanta : BitVec 16) (s : State) : Out :=
  if s.isUp port ∧ s.flag NET_PFC_CFG_EN = true ∧ prio.toNat = s.get NET_PFC_CFG_PRIO then
    let ticks := (quanta.toNat * 512 + 199999) / 200000
    if quanta = 0 then
      .next (s.set (NET_PORT_STAT_PFC_HELD port) 0)
    else .next ((s.set (NET_PORT_STAT_PFC_HELD port) 1).modNet fun n => { n with pfcUntil := n.pfcUntil.setIfInBounds port (s.tick + ticks) })
  else .next s

/-- LEARN_AGE_OUT (R353). -/
def execLearnAgeOut (mac : BitVec 48) (s : State) : Out :=
  let old (e : BitVec 48 × Nat × Nat) : Bool := e.1 == mac && decide (500000 * s.get NET_FWD_CFG_AGE ≤ s.tick - e.2.2)
  let s1 := s.modNet fun n => { n with learn := n.learn.filter fun e => !old e }
  .next (s1.set NET_FWD_STAT_LEARNED s1.net.learn.length)

/-- NEIGHBOUR_AGE_OUT (R344). -/
def execNeighbourAgeOut (addr : BitVec 128) (s : State) : Out :=
  .next (s.modNet fun n => { n with neigh := n.neigh.filter fun e => !(e.1 == addr && decide (150000000 ≤ s.tick - e.2.2)) })

/-- ANNOUNCE_TIMER (R354): the announcements that have come due. -/
def execAnnounceTimer (s : State) : Out :=
  let due := annTimes.countP fun t => decide (s.net.annAt + t ≤ s.tick)
  if s.net.annDone < due then .next (s.announce.modNet fun n => { n with annDone := n.annDone + 1 }) else .next s

/-! ### Precision time (R360, R361) -/

/-- PTP_MESSAGE_RX. -/
def State.ptpMessage (s : State) (p : Nat) (m : PtpMsg) : State :=
  if !s.isUp p || !s.flag NET_PTP_CFG_CLIENT_EN then s
  else match m with
    | .announce domain prio1 cls acc var prio2 id steps =>
      if domain.toNat ≠ s.get NET_PTP_CFG_DOMAIN then s
      else
        let x : Master :=
          { port := p, prio1 := prio1.toNat, cls := cls.toNat, acc := acc.toNat, var := var.toNat, prio2 := prio2.toNat, id := id, steps := steps.toNat }
        (s.modNet fun n => { n with masters := (n.masters.filter fun a => !(a.port == p && a.id == id)) ++ [x] }).chooseMaster
    | .sync offset =>
      if !(s.net.master.any fun a => a.port == p) || s.net.delays != 0 then s
      else
        let thr := s.get NET_PTP_CFG_VALID_THR
        let size := offset.toInt.natAbs
        let good := if size ≤ thr then s.net.good + 1 else 0
        let s1 := (s.setReg NET_PTP_OFS offset).modNet fun n => { n with good := min 4 good }
        if 4 ≤ good ∧ s1.flag NET_PTP_STAT_VALID = false then s1.ptpValidity true
        else if 4 * thr < size ∧ s1.flag NET_PTP_STAT_VALID = true then s1.ptpValidity false
        else s1
    | .delayResp =>
      if (s.net.master.any fun a => a.port == p) && s.net.delays != 0 then
        let s1 := s.modNet fun n => { n with delays := n.delays - 1 }
        if s1.net.delays = 0 then s1 else s1.emit p (s1.ownPrio 0) .delayReq
      else s

/-- PTP_MESSAGE_RX (R360, R361). -/
def execPtpMessageRx (port : Fin 2) (m : PtpMsg) (s : State) : Out := .next (s.ptpMessage port m)

/-- PTP_ANNOUNCE_TIMEOUT (R361): no Announce has come on a port within the announce receipt time-out. -/
def execPtpAnnounceTimeout (port : Fin 2) (s : State) : Out := .next (s.loseMasters port)

/-! ### Transport (R362, R363, R370, R373) -/

/-- The submission entries of a SEND: as many as its length gives. -/
def sendItems (len : Nat) (items : List (BitVec 8 × Entry)) : Bool :=
  len % 64 == 0 && decide (64 ≤ len) && decide (len ≤ 4096) && items.length == len / 64

/-- ROCE_SEND (R363): the entries of one SEND join the session's arrivals in order; one of another length is answered with
NAK, invalid request. -/
def execRoceSend (sid : BitVec 14) (len : BitVec 16) (items : List (BitVec 8 × Entry)) (s : State) : Out :=
  if (s.session? sid).isNone then .next s
  else if !sendItems len.toNat items then .next (s.sendSess sid s.dataPrio (.nak sid false))
  else
    let p := Path.session sid
    let s1 := items.foldl (fun (t : State) (x : BitVec 8 × Entry) => t.arrive p x.1.toNat x.2) s
    .next (State.badHeads 65 s1 p)

/-- A retransmission that counts against the retry count (R370). -/
def State.retry (s : State) (sid : BitVec 14) : State := match s.connOf sid with
  | none => s
  | some c =>
    if !c.opened then s
    else if c.used < c.retry then (s.modConn sid fun x => { x with used := x.used + 1 }).sendSess sid s.dataPrio (.retransmit sid)
    else s.transportFail sid

/-- ROCE_ACK_RX (R362, R370). -/
def execRoceAckRx (sid : BitVec 14) (k : AckKind) (s : State) : Out :=
  match k with
  | .ack => .next (s.modConn sid fun c => { c with used := 0, rnrUsed := 0 })
  | .seqErr => .next (s.retry sid)
  | .rnr => match s.connOf sid with
    | some c =>
      if !c.opened then .next s
      else if c.rnr = 7 ∨ c.rnrUsed < c.rnr then
        .next ((s.modConn sid fun x => { x with rnrUsed := x.rnrUsed + 1 }).sendSess sid s.dataPrio (.retransmit sid))
      else .next (s.transportFail sid)
    | none => .next s
  | .access cid => .next (s.hostAccess sid cid)

/-- Bytes fetched for a command fill its units in order; a full unit of a known version is ready to be placed. -/
def fillUnits (cmd : Nat) : List Byte → List UnitSt → List UnitSt
  | _, [] => []
  | d, u :: l =>
    if u.cmd = some cmd ∧ u.phase = .fetch ∧ u.rerepl = false then
      let k := min d.length (u.len - u.got)
      let got := u.got + k
      { u with got := got, data := u.data ++ d.take k, phase := if got = u.len ∧ u.id.ver ≠ 0 then .ready else .fetch } ::
        fillUnits cmd (d.drop k) l
    else u :: fillUnits cmd d l

/-- RDMA_READ_RESPONSE (R362): write data arrives in the write buffer, or the host refuses the read. -/
def execRdmaReadResponse (sid : BitVec 14) (cid : BitVec 16) (data : List Byte) (ok : Bool) (s : State) : Out :=
  if !ok then .next (s.hostAccess sid cid)
  else match (s.cmdsOf (.session sid)).find? fun c => c.e.cid == cid && c.op == opPut with
    | none => .next s
    | some c => .next ((s.modPlc fun p => { p with units := fillUnits c.id data p.units }).settle)

/-- ROCE_RETRY_EXHAUSTED (R370). -/
def execRoceRetryExhausted (sid : BitVec 14) (s : State) : Out := .next (s.transportFail sid)

/-- ACK_TIMEOUT_RETRY (R370). -/
def execAckTimeoutRetry (sid : BitVec 14) (s : State) : Out := .next (s.retry sid)

/-- CNP_RX (R373). -/
def execCnpRx (sid : BitVec 14) (s : State) : Out :=
  .next (s.modConn sid fun c => { s.rateCut c with alphaAt := s.tick, rateAt := s.tick })

/-- DCQCN_ALPHA_TIMER (R373): no CNP has arrived for ALPHA_T. -/
def execDcqcnAlphaTimer (sid : BitVec 14) (s : State) : Out :=
  .next (s.modConn sid fun c =>
    if 2 * c.alphaAt + s.get NET_RC_CFG_ALPHA_T ≤ 2 * s.tick then { c with alpha := (1 - s.rateGain) * c.alpha, alphaAt := s.tick } else c)

/-- DCQCN_RATE_TIMER (R373): one stage for the RATE_T period that has passed, and one for each 10 MiB sent in it. -/
def execDcqcnRateTimer (sid : BitVec 14) (mib10 : BitVec 8) (s : State) : Out :=
  .next (s.modConn sid fun c =>
    if 2 * c.rateAt + s.get NET_RC_CFG_RATE_T ≤ 2 * s.tick then
      s.rateBytes mib10.toNat (s.rateStage { c with tStage := c.tStage + 1, rateAt := s.tick })
    else c)

/-! ### Connections (R364 to R369) -/

/-- The fields of a request lie in their ranges, and its transport options and MTU are supported (R364, R366). -/
def connReqValid (r : ConnReq) : Bool :=
  r.version == 1 && (r.kind == 0 || r.kind == 1) && r.zero == 0 && decide (r.tenant.toNat < 4096) && (r.kind == 0 || r.tenant == 0) &&
    decide (1 ≤ r.depth.toNat) && decide (r.depth.toNat ≤ 256) && r.cqAddr.toNat % 32 == 0 &&
    ([16, 32, 64, 128, 256, 512, 1024, 2048, 4096].contains r.cqEntries.toNat) && r.options &&
    ([1024, 2048, 4096].contains r.mtu.toNat)

/-- The first check that a request fails (Table: Connection rejections). -/
def State.connRefusal (s : State) (r : ConnReq) : Option Nat :=
  let t := r.tenant.toNat
  if !connReqValid r then some 1
  else if 16384 ≤ s.net.conns.length then some 2
  else if r.kind = 1 ∧ s.net.conns.any (fun c => c.mgmt) = true then some 3
  else if r.kind = 0 ∧ s.hasKey t = false then some 4
  else if r.kind = 1 ∧ s.sec.domain.isNone = true then (if r.proof = 0 then none else some 5)
  else if r.proofOk then none
  else some 5

/-- The lowest session ID that is in no use and was freed at least 1 s ago (R371). -/
def State.freeSid (s : State) : Option (BitVec 14) :=
  let busy (i : BitVec 14) : Bool :=
    s.net.conns.any (fun c => c.sid == i) || s.net.closing.contains i || s.net.freed.any fun e => e.1 == i && decide (s.tick < e.2 + 500000)
  ((List.range 16384).find? fun i => !busy (BitVec.ofNat 14 i)).map fun i => BitVec.ofNat 14 i

/-- CM_REQ (R344, R365 to R369): the frame that brings it gives the next hop's MAC address; REP with the session ID and depth granted, or REJ with the reason. In BOOT no session is
accepted, and nothing is answered. -/
def execCmReq (r : ConnReq) (s : State) : Out :=
  if s.mode = modeBoot then .next s
  else
    let reject (code : Nat) : State := (s.addSat NET_CM_CNT_REJ 1).sendTo r.mac (s.ownPrio 0) (.rej code)
    match s.connRefusal r, s.freeSid with
    | some code, _ => .next (reject code)
    | none, none => .next (reject 2)
    | none, some sid =>
      let depth := min r.depth.toNat 256
      let offered := [1024, 2048, 4096]
      let own := (offered[s.get NET_MTU_MTU]?).getD 4096
      let c : Conn :=
        { sid := sid, mgmt := r.kind == 1, tenant := r.tenant.toNat, depth := depth, cqEntries := r.cqEntries.toNat, cqAddr := r.cqAddr, mac := r.mac, ip := r.ip, alphaAt := s.tick, rateAt := s.tick, mtu := min r.mtu.toNat own, retry := r.retry.toNat, rnr := r.rnr.toNat }
      .next (((s.noteNeighbour (s.nextHop r.ip) r.mac).modNet fun n =>
        { n with conns := n.conns ++ [c], freed := n.freed.filter fun e => e.1 != sid }).sendTo r.mac (s.ownPrio 0) (.rep sid depth))

/-- CM_RTU (R365, R371, R381, R454): the connection completes and the session opens; the context lines of a management
session are locked. -/
def execCmRtu (sid : BitVec 14) (s : State) : Out :=
  match s.connOf sid with
  | none => .next s
  | some c =>
    if c.opened ∨ s.mode = modeBoot then .next s
    else
      let x : Session := { id := sid, mgmt := c.mgmt, tenant := c.tenant, depth := c.depth, cqEntries := c.cqEntries, cqAddr := c.cqAddr }
      let s1 := (({ s with cmd := { s.cmd with sessions := s.cmd.sessions ++ [x] } }.modConn sid fun y => { y with opened := true })).netSess
      .next (if c.mgmt then ((contextLines sid.toNat).foldl (fun (t : State) l => t.lockLine l) s1).countLocks else s1)

/-- CM_DREQ (R365, R415): the session is reset, its entries written, and the DREQ answered with DREP. -/
def execCmDreq (sid : BitVec 14) (s : State) : Out :=
  match s.connOf sid with
  | none => .next s
  | some c =>
    let s1 := if c.opened then s.closeSession sid true
      else s.modNet fun n => { n with conns := n.conns.filter fun x => x.sid != sid, freed := n.freed ++ [(sid, s.tick)] }
    .next (s1.sendIp c.ip (s.ownPrio 0) (.drep sid))

/-- CM_DREP (R365). -/
def execCmDrep (sid : BitVec 14) (s : State) : Out := .next (s.modNet fun n => { n with closing := n.closing.filter fun x => x != sid })

/-! ### The service port (R375, R377, R379) -/

/-- SVC_PLCA: the PLCA beacon is lost, or a node ID clashes; SVC_PLCA is raised while PLCA runs. -/
def execSvcPlca (clash : Bool) (s : State) : Out :=
  .next (if s.flag NET_SVC_STAT_PLCA then s.raise 0x070 5 (if clash then 1 else 0) else s)

/-- SERVICE_PHY_LINK_CHANGE (R375): node IDs 0 to 254 run PLCA, 255 CSMA/CD. -/
def execServicePhyLinkChange (up : Bool) (s : State) : Out :=
  .next ((s.setFlag NET_SVC_STAT_UP up).setFlag NET_SVC_STAT_PLCA (up && s.get NET_SVC_CFG_NODE_ID != 255))

/-- META (R377): a message of TYPE 0x08 is accepted in every mode but BOOT. The spec gives it no content, so nothing but
RX_MSG changes. -/
def execMetaMessage (s : State) : Out := .next (s.rxMessage .service false)

end Sys2Proof.Machine
end

