-- ==== Sys2Proof/Machine/Opu.lean ====
section
/-!
DEFINITION. The meanings of the commands of 03_optical_servo.md: orders to a pickup and the events of its sequences, its
servo fields, its defect hold and its write gate.
DEDUCED (notes/assumptions/24.md, unsafe): Pickup sequences: layer jump ends on the current turn, a seek may start from TRACKING or FOCUSED, a wrong layer on the last attempt reports OUTCOME 4 and re-acquires.
-/

namespace Sys2Proof.Machine

open Sys2Proof

/-- A write of OPU_CMD: refused outside MAINTAIN (R135). An order for a turn beyond the recording band takes its last turn (R163).
DESIGN CHOICE (notes/assumptions/57.md, unsafe). -/
def State.opuCmd (s : State) (p : Path) (n op layer turn : Nat) : State :=
  s.writeBy p
    (s.mode == modeMaintain && decide (1 ≤ op) && decide (op ≤ 6) && (decide (layer ≤ 23) || decide (3 ≤ op)))
    fun t => t.puCommand n op layer (min turn lastTurn)

/-- ACQUIRE (R135, R138, R161). -/
def execAcquire (p : Path) (n : Fin 4) (layer : BitVec 5) (turn : BitVec 18) (s : State) : Out :=
  .next (s.opuCmd p n opAcquire layer.toNat turn.toNat)

/-- LAYER_JUMP (R135, R140, R141): OPU_CMD gives a jump no turn, so it returns to the turn it leaves. -/
def execLayerJump (p : Path) (n : Fin 4) (layer : BitVec 5) (s : State) : Out :=
  .next (s.opuCmd p n opJump layer.toNat (s.get (OPU_SPIRAL_TURN n)))

/-- SEEK (R135, R149). -/
def execSeek (p : Path) (n : Fin 4) (turn : BitVec 18) (s : State) : Out :=
  .next (s.opuCmd p n opSeek 0 turn.toNat)

/-- PARK (R135, R137, R161). -/
def execOpuPark (p : Path) (n : Fin 4) (s : State) : Out := .next (s.opuCmd p n opPuPark 0 0)

/-- READ_MODE (R133, R135). -/
def execReadMode (p : Path) (n : Fin 4) (s : State) : Out := .next (s.opuCmd p n opRead 0 0)

/-- WRITE_MODE (R133, R135). -/
def execWriteMode (p : Path) (n : Fin 4) (s : State) : Out := .next (s.opuCmd p n opWrite 0 0)

/-- A write of OPU_CTL.ENABLE (R134, R137): 0 takes the pickup to OFF unless it is UNUSABLE. -/
def execOpuEnable (p : Path) (n : Fin 4) (en : Bool) (s : State) : Out :=
  .next (s.writeBy p true fun t => (t.setFlag (OPU_CTL_ENABLE n) en).when (!en) fun u => u.puTurnOff n)

/-- A write of 1 to OPU_CTL.WI_FORCE (R155). -/
def execWiForce (p : Path) (n : Fin 4) (s : State) : Out := .next (s.writeBy p true fun t => t.inhibit n wiSoft)

/-- The focus error crosses zero where the sequence captures: within peak number L + 2 of an acquisition's sweep (steps 3 and 4),
or at the first S-curve of a local ramp (R153). -/
def State.focusCaptures (s : State) (n : Nat) : Bool :=
  let k := s.puOf n
  let sweep := (s.puState n == puAcqFocus && k.op == some .acquire) || (s.puState n == puReacq && k.full)
  !k.captured && k.feZero &&
    if sweep then k.peak && k.peaks == k.layer + 2 else s.puState n == puReacq

/-- The capture tick of a focus acquisition or of a re-acquisition (R119, R153, step 4): CUR takes the layer and the focus slot is
enabled. -/
def execFocusCapture (n : Fin 4) (s : State) : Out :=
  if s.focusCaptures n then
    let k := s.puOf n
    let s1 := if s.puState n = puReacq ∧ k.full = false then s else s.setCur n k.layer
    .next ((s1.enableOut (outFocus n)).modPu n fun k => { k with captured := true, fields := 0, feOk := 0 })
  else .next s

/-- A ramp of the focus coil begins again. -/
def State.ramp0 (s : State) (n : Nat) : State :=
  (s.clearOut (outFocus n)).modPu n fun k => { k with captured := false, fields := 0, peaks := 0, rampAt := s.tick }

/-- An attempt of a re-acquisition fails: after two local ones the OPU runs a full acquisition of the same layer and turn, and when
that fails too it raises FOCUS_LOST (R153). -/
def State.reacqFails (s : State) (n : Nat) : State :=
  let k := s.puOf n
  if k.full then
    if k.tries < s.get (OPU_FA_CFG_RETRY n) then (s.modPu n fun q => { q with tries := k.tries + 1 }).ramp0 n
    else (s.puFault n 2 (s.get (OPU_LAYER_CUR n))).puFail n
  else if k.localFails = 0 then (s.modPu n fun q => { q with localFails := 1 }).ramp0 n
  else
    let l := s.get (OPU_LAYER_CUR n)
    ((((s.set (OPU_LAYER_TARGET n) l).setSa n l).enableOut (outRead n)).modPu n fun q =>
      { q with localFails := 2, full := true, layer := l, tries := 0 }).ramp0 n

/-- The ramp of the focus coil has run its SWEEP ticks; a local ramp ends when the report comes, its speed not being given. -/
def State.sweepOver (s : State) (n : Nat) : Bool :=
  let k := s.puOf n
  (s.puState n == puReacq && !k.full) || decide (s.get (OPU_FA_CFG_SWEEP n) ≤ s.tick - k.rampAt)

/-- A sweep ends without capture (R138): the OPU retries up to RETRY times, then raises FOCUS_FAIL and the pickup is
UNUSABLE. A ramp of a re-acquisition fails under R153. -/
def execFocusSweepEnd (n : Fin 4) (s : State) : Out :=
  if (s.puOf n).captured = true ∨ s.sweepOver n = false then .next s
  else if s.puState n = puAcqFocus then
    if (s.puOf n).tries < s.get (OPU_FA_CFG_RETRY n) then .next ((s.modPu n fun k => { k with tries := k.tries + 1 }).ramp0 n)
    else .next ((s.puFault n 1 (s.get (OPU_LAYER_TARGET n))).puFail n)
  else if s.puState n = puReacq then .next (s.reacqFails n)
  else .next s

/-- SA_READY sets once SETTLE ticks have passed since every zone reached its target (R121). -/
def execSaSettleDone (n : Fin 4) (s : State) : Out :=
  match (s.puOf n).saSince with
  | some t => if s.get (OPU_SA_CFG_SETTLE n) ≤ s.tick - t then .next (s.set (OPU_STAT_SA_READY n) 1) else .next s
  | none => .next s

/-- The three conditions of the capture tick of a layer jump (R143). -/
def State.jumpCaptures (s : State) (n : Nat) : Bool :=
  let k := s.puOf n
  let diff := (k.layer - k.origin) + (k.origin - k.layer)
  s.puState n == puLayerJump && !k.captured && decide (ratAbs (k.estDepth - k.spTo) ≤ 3 / 5) && k.xings == diff && k.sumOk

/-- The capture tick of a layer jump (R143): CUR takes the target, the focus input is the focus error again and the
set-point 0. -/
def execLjCapture (n : Fin 4) (s : State) : Out :=
  if s.jumpCaptures n then
    .next (((s.setCur n (s.get (OPU_LAYER_TARGET n))).withOut (outFocus n) fun q =>
      { q with seqSp := 0 }).modPu n fun k => { k with captured := true, fields := 0, feOk := 0, spTo := 0, spAt := 0, spV := 0 })
  else .next s

/-- A layer jump is done (R144): the pickup is TRACKING on the target turn and layer; a jump that ends an
acquisition makes that DONE (R139). -/
def State.jumpDone (s : State) (n : Nat) : State :=
  let k := s.puOf n
  let s1 := ((((s.jumpStat n (if k.tries = 0 then 1 else 2)).set (OPU_SPIRAL_TURN n) k.turn).set (OPU_STAT_STATE n)
    puTracking).set (OPU_STAT_ON_LAYER n) 1).when (!k.tiltCleared) fun t => t.enableOut (outTilt n)
  (s1.endOp n resDone).lasers n

/-- LAYER_JUMP_DONE: a captured jump whose layer the fields have confirmed is done when its seek ends (R144, R150). -/
def execLayerJumpDone (n : Fin 4) (s : State) : Out :=
  let k := s.puOf n
  .next (if s.puState n = puLayerJump ∧ k.captured = true ∧ k.confirmed = true then s.seekEnd n fun t => t.jumpDone n else s)

/-- A layer jump has not ended in TMO ticks (R146): it is retried, or the pickup enters REACQ. -/
def execLjTimeout (n : Fin 4) (s : State) : Out :=
  let k := s.puOf n
  if s.puState n = puLayerJump ∧ s.get (OPU_LJ_CFG_TMO n) ≤ s.tick - k.attempt then
    let s1 := s.puFault n 3 (s.get (OPU_LAYER_TARGET n))
    if k.tries < s.get (OPU_LJ_CFG_RETRY n) then
      .next ((s1.jumpAttempt n k.layer).modPu n fun q => { q with tries := k.tries + 1 })
    else .next ((s1.jumpStat n 3).enterReacq n)
  else .next s

/-- A seek is complete: the pickup is TRACKING on its turn, with the tilt slot enabled. An acquisition that took another layer goes
on with a jump to its own (R139). -/
def State.seekDone (s : State) (n : Nat) : State :=
  let k := s.puOf n
  let s1 := ((s.set (OPU_SPIRAL_TURN n) k.seen).set (OPU_STAT_STATE n) puTracking).enableOut (outTilt n)
  match k.thenJump with
  | some l => (s1.releaseSlots n).startJump n l k.turn k.byCmd true
  | none => (s1.endOp n resDone).lasers n

/-- SEEK_COMPLETE (R150). -/
def execSeekComplete (n : Fin 4) (s : State) : Out :=
  .next (if s.puState n = puSeek ∨ s.puState n = puAcqTrack then s.seekEnd n fun t => t.seekDone n else s)

/-! ### Servo fields (R122 to R126) -/

/-- The two biphase channel bits of a bit: 0b10 for 1 and 0b01 for 0. -/
def biphase (b : Bool) : List Bool := [b, !b]

/-- The bits of a number, most significant first. -/
def msbFirst (w v : Nat) : List Bool := (List.range w).map fun i => v.testBit (w - 1 - i)

/-- The Gray code of a number, and the number of a Gray code of `w` bits. -/
def grayOf (v : Nat) : Nat := v ^^^ (v / 2)
def unGray (w g : Nat) : Nat := (List.range w).foldl (fun a i => a ^^^ (g / 2 ^ i)) 0

/-- The parity bit that makes the number of ones of a layer code odd. -/
def layerParity (l : Nat) : Bool := ((msbFirst 5 l).filter id).length % 2 == 0

/-- The servo address mark of the index field and of the others. -/
def servoMark (index : Bool) : List Bool := msbFirst 12 (if index then 0b001111000111 else 0b111000111100)

/-- Channel bits 0 to 71 of a servo field (Table: Servo field layout). -/
def servoBits (index : Bool) (turn layer : Nat) : List Bool :=
  msbFirst 12 0b110011001100 ++ servoMark index ++ (msbFirst 18 (grayOf turn)).flatMap biphase ++
    (msbFirst 5 layer ++ [layerParity layer]).flatMap biphase

/-- Where the slanted marks of pairs A and B start after their reference, in channel bits, for a spot at `x` tp of its band. -/
def slantA (x : Rat) : Rat := 8 + 6 * x
def slantB (x : Rat) : Rat := 32 - 6 * x

/-- Channel bits of a field as read, the first one foremost. -/
def fieldChan (r : FieldRead) (from_ n : Nat) : List Bool := (List.range n).map fun i => r.bits.getMsbD (from_ + i)

/-- The number that biphase channel bits hold; none where a pair is neither 0b10 nor 0b01. -/
def unBiphase : Nat → List Bool → Option Nat
  | acc, a :: b :: t => if a = b then none else unBiphase (2 * acc + (if a then 1 else 0)) t
  | acc, [] => some acc
  | _, [_] => none

/-- The turn number and the layer code with its parity bit, where their channel bits are biphase. -/
def fieldGray (r : FieldRead) : Option Nat := (unBiphase 0 (fieldChan r 24 36)).map (unGray 18)
def fieldCode (r : FieldRead) : Option Nat := unBiphase 0 (fieldChan r 60 12)

/-- The address mark found within the window, with whether it is the index field's (R123). -/
def fieldMark (r : FieldRead) (win : Nat) : Option Bool :=
  if win < r.markOfs.toInt.natAbs then none
  else if fieldChan r 12 12 = servoMark false then some false
  else if fieldChan r 12 12 = servoMark true then some true
  else none

/-- The layer code where it passes parity. -/
def fieldLayer (r : FieldRead) : Option Nat := match fieldCode r with
  | some c => if layerParity (c / 2) == (c % 2 == 1) then some (c / 2) else none
  | none => none

/-- The radial position of a spot from a servo field, in 1/256 tp: none where no band lies within 1.5 tp of the Gray
number (R123). -/
def fieldPosition (r : FieldRead) : Option Int :=
  match fieldGray r with
  | none => none
  | some g =>
  let x : Rat := ((((r.dA.toNat : Nat) : Rat) - ((r.dB.toNat : Nat) : Rat)) / 16 + 24) / 12
  let tg : Rat := ((g : Nat) : Rat)
  let b0 : Int := (g / 4 : Nat)
  let cand (b : Int) : Rat := 4 * (b : Rat) - 1 / 2 + x
  let better (a b : Rat) : Rat := if ratAbs (b - tg) < ratAbs (a - tg) then b else a
  let best := better (better (cand (b0 - 1)) (cand b0)) (cand (b0 + 1))
  if ratAbs (best - tg) ≤ 3 / 2 then some (best * 256 + 1 / 2).floor else none

/-- The sum of the two distances checks the clock (R123): within SUM_TOL of 40 channel bits. -/
def fieldSumOk (tol : Nat) (r : FieldRead) : Bool :=
  decide (r.dA.toNat + r.dB.toNat ≤ 640 + tol) && decide (640 ≤ r.dA.toNat + r.dB.toNat + tol)

/-- A field reports another layer than CUR after a capture: an acquisition retries, or on its last attempt takes that
layer (R138, R139); a jump raises LJ_WRONG_LAYER and restarts from there, or ends (R145); an attempt of a re-acquisition fails
(R153).
DEDUCED (notes/assumptions/55.md, unsafe): on the last attempt of a re-acquisition's full acquisition too. -/
def State.wrongLayer (s : State) (n layer : Nat) : State :=
  let k := s.puOf n
  if k.op = some .acquire then
    if k.tries < s.get (OPU_FA_CFG_RETRY n) then
      (s.modPu n fun q => { q with tries := k.tries + 1 }).ramp0 n
    else s.modPu n fun q => { q with curNext := some layer, thenJump := some k.layer, fields := 0 }
  else if k.op = some .jump then
    let s1 := s.puFault n 4 layer
    if k.tries < s.get (OPU_LJ_CFG_RETRY n) then
      s1.modPu n fun q => { q with tries := k.tries + 1, curNext := some layer, captured := false, confirmed := false, fields := 0 }
    else ((s1.modPu n fun q => { q with curNext := some layer }).jumpStat n 4).enterReacq n
  else if k.op = some .reacq then s.reacqFails n
  else s

/-- A revolution ends for the blocks that a pickup reads again (Table: Recovery ladder). -/
def State.ladderTurn (s : State) (n : Nat) : State :=
  { s with chn := { s.chn with blocks := s.chn.blocks.map fun b => if b.pu = n ∧ 0 < b.rung ∧ b.waits = false then { b with revs := b.revs + 1 } else b } }

/-- What field 0 of spot 0 does in TRACKING (R128 to R130, R133, R202): T rises by 4 after a spiral jump, by 1 in write mode, in
single-spot mode or when no jump was made, and a mode that was ordered takes effect.
DEDUCED (notes/assumptions/56.md, unsafe): where TRACKING was entered after field 2,856 no jump was made.
DESIGN CHOICE (notes/assumptions/50.md, unsafe): drops are counted from here. -/
def State.fieldZero (s : State) (n : Nat) : State :=
  let k := s.puOf n
  let write := s.flag (OPU_STAT_WRITE_MODE n) || s.singleMode n
  let step := if !write && k.jumped then 4 else 1
  let s1 := ((s.ladderTurn n).set (OPU_SPIRAL_TURN n) (s.get (OPU_SPIRAL_TURN n) + step)).when (!write && k.skipJump) fun t =>
    (t.addSat (OPU_SPIRAL_SKIPPED n) 1).prevLost n
  let s2 := (s1.withOut (outTrack n) fun q => { q with seqSp := 0 }).modPu n fun q =>
    { q with skipJump := false, jumped := false, drops := 0, zeroAt := s.get (SPN_ANGLE_COUNT (n / 2)), spTo := 0, spAt := 0, spV := 0 }
  match k.modeNext with
  | some w =>
    let s3 := (s2.setFlag (OPU_STAT_WRITE_MODE n) w).modPu n fun q => { q with modeNext := none }
    (s3.endOp n resDone).lasers n
  | none => s2

/-- Field 2,856 in read mode starts the spiral jump, or the hold skips it (R128, R130); in write mode and in single-spot mode
none is made (R129, R202). -/
def State.fieldSpiral (s : State) (n : Nat) : State :=
  if s.flag (OPU_STAT_WRITE_MODE n) ∨ s.singleMode n = true then s
  else if s.flag (OPU_STAT_HOLD n) then s.modPu n fun q => { q with skipJump := true, jumped := false }
  else s.modPu n fun q => { q with skipJump := false, jumped := true, spTo := 3, spAt := 0, spV := 0 }

/-- A field judged (R123): decoded layer code and turn, and position in 1/256 tp where it is valid but for its layer. -/
def State.fieldPlace (s : State) (n : Nat) (r : FieldRead) : Option (Nat × Int) :=
  if (fieldMark r (s.get (OPU_SF_CFG_WIN n))).isSome && fieldSumOk (s.get (OPU_SF_CFG_SUM_TOL n)) r then
    match fieldLayer r, fieldPosition r with
    | some l, some p => some (l, p)
    | _, _ => none
  else none

/-- The index field against the encoder index (R126): more than 4 fields apart raise SFIELD_INDEX, and the index field becomes the
angular reference; else the encoder index is. -/
def State.indexField (s : State) (n : Nat) (field : Nat) : State :=
  let ofs : Int := if field ≤ 1440 then (field : Int) else (field : Int) - 2880
  if 4 < ofs.natAbs then (s.modPu n fun k => { k with indexRef := field }).puFault n 8 (unsignedOf 16 ofs)
  else s.modPu n fun k => { k with indexRef := 0 }

/-- The channel clock of spot `k`: LOCK while its last 16 fields have each measured N_z ± 1 channel bits apart (R167);
CLOCK_UNLOCK where it clears with the read gate open (R218). -/
def State.clockField (s : State) (k gap : Nat) : State :=
  let gaps := (gap :: (s.chn.gaps[k]?).getD []).take 16
  let nz := intervalOf (zoneOfTurn (s.get (OPU_SPIRAL_TURN (k / 4))))
  let lock := gaps.length == 16 && gaps.all fun g => decide (g ≤ nz + 1) && decide (nz ≤ g + 1)
  ({ s with chn := { s.chn with gaps := s.chn.gaps.setIfInBounds k gaps } }.setFlag (CHN_SPOT_STAT_LOCK k) lock).when
    (s.flag (CHN_SPOT_STAT_LOCK k) && !lock && s.flag (CHN_SPOT_CTL_GATE k)) fun t => t.raise (0x020 + k) 1 k

/-- A servo field of spot `k` is judged (R123 to R130, R167). -/
def execServoField (n k : Fin 4) (r : FieldRead) (s0 : State) : Out :=
  let s := s0.clockField (4 * n + k) r.gap.toNat
  let cur := s.get (OPU_LAYER_CUR n)
  let win := s.get (OPU_SF_CFG_WIN n)
  let place := s.fieldPlace n r
  let q := s.puOf n
  let pos : Option Int := match place with
    | some e => if e.1 = cur then some e.2 else none
    | none => none
  let valid := pos.isSome
  -- counters and the last field of spot 0
  let s1 := if valid then s.incWrap (OPU_SF_CNT_VALID n) else s.addSat (OPU_SF_CNT_INVALID n) 1
  let s2 := s1.when (k.val == 0) fun t =>
    (((t.setFlag (OPU_SF_STAT_VALID n) valid).setFlag (OPU_SF_STAT_PAR_OK n) (fieldLayer r).isSome).set (OPU_SF_STAT_LAYER n)
      ((fieldCode r).getD 0 / 2)).set (OPU_SF_STAT_TURN n) ((fieldGray r).getD 0)
  let s3 := s2.modPu n fun u =>
    { u with miss := u.miss.setIfInBounds k (if valid then 0 else (u.miss[k.val]) + 1), seen := if valid && k.val == 0 then (fieldGray r).getD 0 else u.seen, fields := if valid then u.fields + 1 else if u.op = some .acquire then 0 else u.fields, fieldAt := if valid then some (s.ce.cycles + r.cycle.toNat) else u.fieldAt, freshAt := if valid then u.freshAt.setIfInBounds k true else u.freshAt }
  let s4 := match pos with
    | some v =>
      (((s3.set (OPU_SPOT_POS_VALID n k) 1).set (OPU_SPOT_POS_TURN n k) (unsignedOf 26 v / 256)).set (OPU_SPOT_POS_FINE n k)
        (unsignedOf 26 v % 256))
    | none => s3
  -- another layer after a capture: of an acquisition before it is confirmed, of a jump up to DONE
  let s5 := match place with
    | some e => s4.when (decide (e.1 ≠ cur) && q.captured && (decide (q.op = some PuOp.jump) || !q.confirmed)) fun t => t.wrongLayer n e.1
    | none => s4
  -- the index field, and the work of the revolution
  let s6 := s5.when (k.val == 0 && fieldMark r win == some true) fun t => t.indexField n r.field.toNat
  let f := (r.field.toNat + 2880 - (s6.puOf n).indexRef) % 2880
  let tracking := k.val == 0 && s.puState n == puTracking
  let s7 := s6.when (tracking && f == 0) fun t => t.fieldZero n
  let s8 := s7.when (tracking && f == 2856) fun t => t.fieldSpiral n
  -- PES_F: a valid field of spot 0 beyond WI_PES of target_0
  .next (match pos with
    | some v =>
      if k.val = 0 then
        let far := decide (((s.get (OPU_WI_CFG_PES n) : Nat) : Rat) / 1000
          < ratAbs ((v : Rat) / 256 - ((s8.get (OPU_SPIRAL_TURN n) : Nat) : Rat)))
        (s8.modPu n fun u => { u with pesF := far }).when far fun t => t.inhibit n wiPesF
      else s8
    | none => s8)

/-- The spots that tracking averages as OPU_TRK_CFG enables them, without those marked unusable (R131). -/
def State.enabledSpots (s : State) (n : Nat) : List Nat :=
  (List.range 4).filter fun k => (s.get (OPU_TRK_CFG_SPOT_MASK n)).testBit k &&
    !(s.get (FLT_UNUSABLE_UNUSABLE ((0x20 + 4 * n + k) / 32))).testBit ((0x20 + 4 * n + k) % 32)

/-- MISS_MAX consecutive fields were invalid on every enabled spot of a TRACKING pickup (R125), or no spot is left to a TRACKING or
seeking one (R131, Table: Pickup state transitions): SFIELD_LOSS is raised and the pickup enters REACQ. -/
def execSfieldLoss (n : Fin 4) (s : State) : Out :=
  let ks := s.enabledSpots n
  let lost := ks.all fun k => decide (s.get (OPU_SF_CFG_MISS_MAX n) ≤ nth (s.puOf n).miss.toList k 0)
  if (s.puState n = puTracking ∧ lost = true) ∨ (s.puState n = puSeek ∧ ks = []) then
    .next ((s.puFault n 7 (s.get (OPU_TRK_CFG_SPOT_MASK n))).enterReacq n)
  else .next s

/-- The running average of a pickup's RF sum: servo detector SD7, as the last boundary converted it (R116, R151). -/
def State.rfAverage (s : State) (n : Nat) : Rat :=
  corrected (s.reg (CAL_ADC (10 * n + 7))) ((((s.ce.adc[10 * n + 7]?).getD 0).toNat : Nat) : Rat)

/-- A dropout begins: the envelope of the RF sum falls below THR percent of its running average (R151). -/
def execDefectDropoutStart (n : Fin 4) (env : BitVec 14) (s : State) : Out :=
  if (s.puOf n).dropout = false ∧ ((100 * env.toNat : Nat) : Rat) < ((s.get (OPU_DEF_CFG_THR n) : Nat) : Rat) * s.rfAverage n then
    .next ((s.modPu n fun k => { k with dropout := true, dropSeen := true }).addSat (OPU_DEF_STAT_DROPOUTS n) 1)
  else .next s

/-- A dropout ends: the envelope has risen above THR + HYS percent (R151). -/
def execDefectDropoutEnd (n : Fin 4) (env : BitVec 14) (s : State) : Out :=
  if ((s.get (OPU_DEF_CFG_THR n) + s.get (OPU_DEF_CFG_HYS n) : Nat) : Rat) * s.rfAverage n < ((100 * env.toNat : Nat) : Rat) then
    .next (s.modPu n fun k => { k with dropout := false })
  else .next s

/-- The hold has lasted MAXHOLD ticks and the dropout is still present: REACQ (R152). -/
def execDefectHoldExpiry (n : Fin 4) (s : State) : Out :=
  let k := s.puOf n
  if (s.puState n = puTracking ∨ s.puState n = puSeek) ∧ k.dropout = true ∧ s.get (OPU_DEF_CFG_MAXHOLD n) ≤ k.hold then
    .next (s.enterReacq n)
  else .next s

/-- A re-acquisition has recovered the pickup: it is TRACKING on the turn it had left. -/
def State.reacqDone (s : State) (n : Nat) : State :=
  let s1 := (s.enableOut (outFocus n)).enableOut (outTilt n)
  let s2 := ((s1.set (OPU_STAT_STATE n) puTracking).set (OPU_STAT_ON_LAYER n) 1).set (OPU_SPIRAL_TURN n) (s.puOf n).turn
  (s2.endOp n resDone).lasers n

/-- REACQ_DONE: a captured re-acquisition whose layer the fields have confirmed is done when its seek back ends (R150, R153). -/
def execReacqDone (n : Fin 4) (s : State) : Out :=
  .next (if s.puState n = puReacq ∧ (s.puOf n).captured = true ∧ (s.puOf n).confirmed = true then s.seekEnd n fun t => t.reacqDone n else s)

/-- The lens offset has been beyond OPU_LENS.LIM for 500 ticks (R132): LENS_RANGE is raised with the offset in µm. -/
def execLensRange (n : Fin 4) (s : State) : Out :=
  if 500 ≤ (s.puOf n).lensRun then .next (s.puFault n 9 (unsignedOf 16 ((s.getInt (OPU_LENS_OFFS n)).tdiv 100)))
  else .next s

/-- The comparators report a push-pull difference and the shock inputs in mV: the causes among them trip (R155 to R157). -/
def execWriteInhibit (n : Fin 4) (pp : BitVec 16) (shockX shockY : BitVec 12) (s : State) : Out :=
  let causes := s.wiCauses n ((pp.toInt : Int) : Rat) ((shockX.toNat : Nat) : Rat) ((shockY.toNat : Nat) : Rat)
  if causes = 0 then .next s else .next (s.inhibit n causes)

/-- Every inhibit condition has been absent for REARM ticks (R157). -/
def execWriteInhibitRearm (n : Fin 4) (s : State) : Out :=
  if s.flag (OPU_STAT_WI_ACTIVE n) = true ∧ s.get (OPU_WI_CFG_REARM n) ≤ s.tick - (s.puOf n).clearSince then
    .next ((s.set (OPU_STAT_WI_ACTIVE n) 0).modPu n fun k => { k with inhibit := 0 })
  else .next s

/-- A laser has stood at its current limit below its set-point for 250 ticks (R160). -/
def execLaserFault (n : Fin 4) (write : Bool) (s : State) : Out :=
  if 250 ≤ (if write then (s.puOf n).wrLimRun else (s.puOf n).rdLimRun) then .next (s.puFault n 0x0C (if write then 1 else 0))
  else .next s

/-- The pickup's temperature exceeds OPU_TEMP.LIM (R160). -/
def execPuOvertemp (n : Fin 4) (s : State) : Out :=
  let t := s.getInt (OPU_TEMP_TEMP n)
  if (s.get (OPU_TEMP_LIM n) : Int) < t then .next (s.puFault n 0x0D (unsignedOf 16 (t.tdiv 10)))
  else .next s

end Sys2Proof.Machine
end

