-- ==== Sys2Proof/Machine/Spn.lean ====
section
/-!
DEFINITION. The meanings of the commands of 05_spindle.md: orders to a station's spindle and the events of its rotor, its
encoder and its speed.
DEDUCED (notes/assumptions/25.md, unsafe): Spindle: observer validity follows 600 rpm rising and 500 rpm falling, RE-CATCH shows as coasting until it succeeds, a spin order with unhomed sleds waits.
-/

namespace Sys2Proof.Machine

open Sys2Proof

/-- Table: SPN_CMD outcomes, for an order the write of SPN_CMD has passed (R239, R645). -/
def State.spnCommand (s : State) (st op target : Nat) : State :=
  let c := s.spnState st
  if s.calHolds st then s.spnReport st op resRefusedState
  else if op = 1 then
    if s.spinAccepted st target (s.calOk st) then (s.spnReport st 1 resRunning).spin st target
    else s.spnReport st 1 resRefusedState
  else if op = 2 then
    if c = spOff then (s.spnReport st 2 resDone).modStn st fun k => { k with spinAt := none, orderAt := none, stopAt := some s.tick }
    else if c = spAlign then ((s.spnReport st 2 resRunning).spnStop st).spnResult st resDone
    else if c = spStart ∨ c = spRun ∨ c = spDown ∨ c = spCoast then (s.spnReport st 2 resRunning).spnStop st
    else s.spnReport st 2 resRefusedState
  else
    if c = spOff then s.spnReport st 3 resDone
    else if c = spRun ∨ c = spDown ∨ c = spCoast then (s.spnReport st 3 resRunning).spnCoast st
    else s.spnReport st 3 resRefusedState

/-- A write of SPN_CMD: refused outside MAINTAIN and for an OP not listed (R239, R645). -/
def State.spnCmd (s : State) (p : Path) (st op target : Nat) : State :=
  s.writeBy p (s.mode == modeMaintain && decide (1 ≤ op) && decide (op ≤ 3)) fun t => t.spnCommand st op target

/-- SPIN (R237, R238, R240, R645). -/
def execSpin (p : Path) (st : Fin 2) (target : BitVec 16) (s : State) : Out := .next (s.spnCmd p st 1 target.toNat)

/-- STOP (R238, R645). -/
def execSpnStop (p : Path) (st : Fin 2) (s : State) : Out := .next (s.spnCmd p st 2 0)

/-- COAST (R645). -/
def execCoast (p : Path) (st : Fin 2) (s : State) : Out := .next (s.spnCmd p st 3 0)

/-- A write of SPN_CTL.ENABLE (R236): 0 spins the station down and holds it OFF. -/
def execSpnEnable (p : Path) (st : Fin 2) (en : Bool) (s : State) : Out :=
  .next (s.writeBy p true fun t => (t.setFlag (SPN_CTL_ENABLE st) en).when (!en) fun u =>
    (u.spnStop st).when (u.flag (SPN_STAT_STOPPED st) && u.spnState st != spUnusable) fun w => (w.spnResult st resDone).spnOff st)

/-- The initial angle in whole degrees electrical, and the quality in percent, of the current slopes of the six vectors at 0° to 300°
(R229): the vector with the steepest slope, refined by a parabola through its two neighbours. -/
def alignAngle (y : Vector (BitVec 16) 6) : Nat × Nat :=
  let at_ (i : Nat) : Int := (((y.toList)[i % 6]?).getD 0).toNat
  let k := (List.range 6).foldl (fun b i => if at_ b < at_ i then i else b) 0
  let bend := at_ (k + 5) - 2 * at_ k + at_ (k + 1)
  let ofs : Rat := if bend = 0 then 0 else 30 * (at_ (k + 5) - at_ (k + 1) : Int) / (bend : Int)
  let quality := if at_ k = 0 then 0 else 100 * (at_ k - at_ (k + 3)) / at_ k
  (((60 * (k : Int) + 360 + (ofs + 1 / 2).floor) % 360).toNat, quality.toNat)

/-- The slopes of a pass whose six vectors have ended are judged (R229, R230): with enough quality the angle is found and the station starts;
too low a first pass is repeated, too low a second one raises INIT_ANGLE_FAIL and falls back to 200 ms of alignment at 0°. -/
def execAlignDone (st : Fin 2) (slopes : Vector (BitVec 16) 6) (s : State) : Out :=
  let k := s.stnOf st
  let angle := (alignAngle slopes).1
  let quality := (alignAngle slopes).2
  if s.spnState st = spAlign ∧ k.fallAt = none ∧ k.vec = 6 then
    let s1 := s.set (SPN_INIT_STAT_QUALITY st) quality
    if s.get (SPN_INIT_MIN_DIFF st) ≤ quality then .next (s1.startRotor st angle)
    else if k.pass2 then
      .next ((((s1.spnFault st 7 quality).set (SPN_INIT_STAT_FALLBACK st) 1).set (SPN_INIT_STAT_ANGLE st) 0).modStn st fun k => { k with fallAt := some s.tick })
    else .next (s1.modStn st fun k => { k with pass2 := true, vec := 0, vecAt := s.tick, vecOff := false })
  else .next s

/-- An encoder index (R227, R231): the first since the stop sets the count to 0 and INDEXED and takes START to RUN; a later
one outside INDEX_TOL raises ENC_INDEX and the encoder is no longer valid. -/
def execEncoderIndex (st : Fin 2) (count : BitVec 17) (s : State) : Out :=
  let s1 := s.incWrap (SPN_ANGLE_REVS st)
  if s.flag (SPN_STAT_INDEXED st) = false then
    let s2 := ((s1.set (SPN_STAT_INDEXED st) 1).set (SPN_ANGLE_COUNT st) 0).modStn st fun k =>
      { k with indexOfs := (k.indexOfs + count.toNat) % 131072 }
    .next ((s2.when (s.spnState st == spStart) fun t => t.set (SPN_STAT_STATE st) spRun).refreshSource st)
  else
    let tol := s.get (SPN_ENC_CFG_INDEX_TOL st)
    if count.toNat ≤ tol ∨ 131072 ≤ count.toNat + tol then .next s1
    else
      .next ((((s1.spnFault st 2 (count.toNat % 65536)).set (SPN_STAT_ENC_VALID st) 0).modStn st fun k =>
        { k with indexBad := true }).refreshSource st)

/-- The encoder amplitude has been out of range for 4 ticks (R226). -/
def execEncLost (st : Fin 2) (s : State) : Out :=
  if (s.stnOf st).ampRun < 4 then .next s
  else .next (((s.spnFault st 1 0).set (SPN_STAT_ENC_VALID st) 0).refreshSource st)

/-- The observer's residual has been beyond its limit for 8 ticks, which makes it invalid (R232). -/
def execObserverInvalid (st : Fin 2) (s : State) : Out :=
  if (s.stnOf st).resRun < 8 then .next s else .next ((s.set (SPN_STAT_OBS_VALID st) 0).refreshSource st)

/-- Encoder and observer have been more than 15° apart for 8 ticks while both are valid (R233): ROTOR_DISAGREE with the difference
in 0.1°, then OBS_LOST. A station keeps one message of a tick (R552). -/
def execRotorDisagree (st : Fin 2) (s : State) : Out :=
  if s.encOk st = true ∧ s.obsOk st = true ∧ 8 ≤ (s.stnOf st).disRun then
    .next (((s.addSat (SPN_DIS_CNT_DISAGREE st) 1).spnFault st 4 ((s.getInt (SPN_OBS_DIFF st)).natAbs / 10)).spnFault st 3 0)
  else .next s

/-- No source is left in START, RUN, or SPIN_DOWN above 600 rpm (R246). -/
def execRotorLost (st : Fin 2) (s : State) : Out :=
  let c := s.spnState st
  if (c = spStart ∨ c = spRun ∨ (c = spDown ∧ 4800 < s.speedOf st)) ∧ s.source st = 0 then .next (s.rotorLost st)
  else .next s

/-- A re-catch succeeds (R246): three zero crossings give speeds in rpm within ±5% of the last measured one, the angle agrees for
8 ticks, and the station goes to SPIN_DOWN on the back-EMF angle. -/
def execRecatchSuccess (st : Fin 2) (speeds : Vector (BitVec 16) 3) (agree : BitVec 8) (s : State) : Out :=
  let v := s.get (SPN_LOST_STAT_SPEED st)
  let near := speeds.toList.all fun w => decide (95 * v ≤ 100 * w.toNat) && decide (100 * w.toNat ≤ 105 * v)
  if near = true ∧ 8 ≤ agree.toNat ∧ s.spnState st = spRecatch ∧ (s.stnOf st).noRecatch = false ∧ s.tick - (s.stnOf st).lostAt ≤ 25000 then
    .next ((((((s.set (SPN_LOST_STAT_OUTCOME st) 1).spinDown st).set (SPN_STAT_SRC st) 3).enableOut (outSpin st)).workMeasured
      st).modStn st fun k => { k with recaught := true })
  else .next s

/-- No re-catch within 50 ms (R246): the bridge stays high-impedance. -/
def execRecatchTimeout (st : Fin 2) (s : State) : Out :=
  if s.spnState st = spRecatch ∧ 25000 ≤ s.tick - (s.stnOf st).lostAt then .next ((s.bridgeOff st).modStn st fun k => { k with noRecatch := true }) else .next s

/-- 200 ms after the loss (R246). -/
def execShortBrakeStart (st : Fin 2) (s : State) : Out :=
  if s.spnState st = spRecatch ∧ 100000 ≤ s.tick - (s.stnOf st).lostAt then .next ((s.set (SPN_STAT_STATE st) spShort).set (SPN_STAT_BRAKE st) brShort) else .next s

/-- The back-EMF estimate falls below 60 rpm (R246, R247). -/
def execShortBrakeEnd (st : Fin 2) (s : State) : Out :=
  if s.spnState st = spShort ∧ s.get (SPN_OBS_SPEED st) < 480 then .next ((s.set (SPN_LOST_STAT_OUTCOME st) 2).spnUnusable st true) else .next s

/-- A leg current beyond 6.5 A (R224): the bridge is high-impedance, and the station coasts. -/
def execSpnOvercurrent (st : Fin 2) (leg : Fin 3) (s : State) : Out :=
  let s1 := (s.spnFault st 9 leg).bridgeOff st
  let c := s.spnState st
  if c = spRun ∨ c = spDown ∨ c = spStart then .next ((s1.spnCoast st).spnResult st resFailed)
  else if c = spAlign then .next ((s1.spnOff st).spnResult st resFailed)
  else .next s1

/-- The speed has stayed within ±0.1% of the target for 50 ms (R241). -/
def execAtSpeed (st : Fin 2) (s : State) : Out :=
  if s.spnState st = spRun ∧ s.get (SPN_SPEED_TARGET st) ≠ 0 ∧ 25000 ≤ (s.stnOf st).nearRun then
    .next (((s.set (SPN_STAT_AT_SPEED st) 1).modStn st fun k => { k with orderAt := none }).spnResult st resDone)
  else .next s

/-- STOPPED sets, after 50 ms below 30 rpm (R236): the next spin needs an index again, SPIN_DOWN and COAST end in OFF, and a SPIN_DOWN entered from
RECATCH in UNUSABLE. -/
def execStopped (st : Fin 2) (s : State) : Out :=
  let s1 := ((s.set (SPN_STAT_STOPPED st) 1).set (SPN_STAT_INDEXED st) 0).modStn st fun k =>
    { k with indexBad := false, holdup := false }
  let c := s.spnState st
  if (s.stnOf st).slowRun < 25000 then .next s
  else if c = spDown ∧ (s.stnOf st).recaught = true then .next (s1.spnUnusable st true)
  else if c = spDown ∨ c = spCoast then .next ((s1.spnOff st).spnResult st resDone)
  else .next s1

/-- A spin order has not produced AT_SPEED within 2.5 s (R243). -/
def execSpinTmo (st : Fin 2) (s : State) : Out :=
  match (s.stnOf st).orderAt with
  | some t =>
    if 1250000 ≤ s.tick - t then
      .next (((s.spnFault st 0x0A (s.rpm st)).modStn st fun k => { k with orderAt := none, spinAt := none }).spnResult st
        resFailed)
    else .next s
  | none => .next s

/-- What a Ke window has measured, in mV per 1,000 rpm: the mean amplitude over the mean speed (R245). -/
def StnSt.ke (k : StnSt) : Nat := if k.keV = 0 then 0 else 8000 * k.keE / k.keV

/-- A Ke window of 50,000 ticks ends (R245): MEAS and the deviation in percent are shown; beyond ±15% KE_ABNORMAL is raised. -/
def execKeCheck (st : Fin 2) (s : State) : Out :=
  if 50000 ≤ (s.stnOf st).keN then
    let meas := (s.stnOf st).ke
    let nom : Int := s.get (SPN_KE_NOM st)
    let diff : Int := (meas : Int) - nom
    let dev : Int := if nom = 0 then 0 else (100 * diff).tdiv nom
    let s0 := s.modStn st fun k => { k with keN := 0, keE := 0, keV := 0 }
    let s1 := ((s0.set (SPN_KE_MEAS st) meas).incWrap (SPN_KE_STAT_CHECKS st)).setInt (SPN_KE_STAT_DEV st)
      (max (-128) (min 127 dev))
    .next (s1.when (decide (15 * nom < (100 * diff).natAbs)) fun t => t.spnFault st 6 (unsignedOf 16 dev))
  else .next s

end Sys2Proof.Machine
end

