-- ==== Sys2Proof/Machine/RegOps.lean ====
section
/-!
DEFINITION. The register bus behind REG_READ and REG_WRITE (R9 to R13, R28, R518, R519, R637): latched pairs, index-data
registers, reads that act, and the writes that act: each of these does what the row of its own does.
-/

namespace Sys2Proof.Machine

open Sys2Proof

/-! ### Pairs (R59) -/

/-- LO and HI of a pair, and its live 64-bit value. -/
def State.pairOf (s : State) (k : PairReg) : Nat × Nat × Nat := match k with
  | .tickCount => (TICK_COUNT_LO, TICK_COUNT_HI, s.tick)
  | .epochTick => (TICK_EP_TC_LO, TICK_EP_TC_HI, s.ce.epTick)
  | .epochPtp => (TICK_EP_PTP_LO, TICK_EP_PTP_HI, if s.flag TICK_STAT_LOCKED then s.ce.epPtp % 2 ^ 48 else 0)
  | .seenTag => (PLC_DM_SEEN_TAG_LO, PLC_DM_SEEN_TAG_HI, (s.reg PLC_DM_SEEN_TAG_LO).toNat + 2 ^ 32 * (s.reg PLC_DM_SEEN_TAG_HI).toNat)
  | .meterBus => (MTR_BUS_LO, MTR_BUS_HI, (s.reg MTR_BUS_LO).toNat + 2 ^ 32 * (s.reg MTR_BUS_HI).toNat)
  | .meterSum => (MTR_SUM_LO, MTR_SUM_HI, (s.reg MTR_SUM_LO).toNat + 2 ^ 32 * (s.reg MTR_SUM_HI).toNat)
  | .activation => (UPD_ACT_LO, UPD_ACT_HI, (s.reg UPD_ACT_LO).toNat + 2 ^ 32 * (s.reg UPD_ACT_HI).toNat)
  | .busEnergy => (PWR_E_LO, PWR_E_HI, s.pwr.energy / 5000000)
  | .refreshLast => (FL_REFRESH_LAST_LO, FL_REFRESH_LAST_HI, (s.reg FL_REFRESH_LAST_LO).toNat + 2 ^ 32 * (s.reg FL_REFRESH_LAST_HI).toNat)

def allPairs : List PairReg := [.tickCount, .epochTick, .epochPtp, .seenTag, .meterBus, .meterSum, .activation, .busEnergy, .refreshLast]

/-- A read of the LO register: bits 31:0 of the live value, of which bits 63:32 are latched. -/
def State.readLow (s : State) (k : PairReg) : List Word × State :=
  let (_, hi, v) := s.pairOf k
  ([BitVec.ofNat 32 v], { s with latch := sput (fun _ => 0) s.latch hi (BitVec.ofNat 32 (v / 2 ^ 32)) })

/-- A read of the HI register: as latched. -/
def State.readHigh (s : State) (hi : Nat) : Word := sget (fun _ => 0) s.latch hi

/-! ### Index-data registers (R519) -/

/-- An index of `n` words a place, in an index of places of `top` in all: one word on. -/
def nextIndex (n top i w : Nat) : Nat × Nat := if w + 1 < n then (i, w + 1) else ((i + 1) % top, 0)

/-- The index register advances by one word.
DEDUCED (notes/assumptions/14.md, unsafe). -/
def State.advance (s : State) (r : IndexReg) : State :=
  let go (fi fw : Fld) (n : Nat) : State :=
    let (i, w) := nextIndex n (fi.top + 1) (s.get fi) (s.get fw)
    (s.set fi i).set fw w
  match r with
  | .mapEntry => go PLC_DM_IDX_ENTRY PLC_DM_IDX_WORD 8
  | .contract => go CMD_TC_IDX_TENANT CMD_TC_IDX_WORD 4
  | .tenantState => go CMD_TS_IDX_TENANT CMD_TS_IDX_WORD 4
  | .sessionState => go CMD_SS_IDX_SESSION CMD_SS_IDX_WORD 4
  | .meterNow => go MTR_CUR_IDX_TENANT MTR_CUR_IDX_WORD 16
  | .faultSource => go FLT_SRC_IDX_SRC FLT_SRC_IDX_WORD 3

def indexReg (a : Nat) : Option IndexReg :=
  if a = PLC_DM_DATA then some .mapEntry
  else if a = CMD_TC_DATA then some .contract
  else if a = CMD_TS_DATA then some .tenantState
  else if a = CMD_SS_DATA then some .sessionState
  else if a = MTR_CUR_DATA then some .meterNow
  else if a = FLT_SRC_DATA then some .faultSource
  else none

def IndexReg.addr (r : IndexReg) : Nat := match r with
  | .mapEntry => PLC_DM_DATA
  | .contract => CMD_TC_DATA
  | .tenantState => CMD_TS_DATA
  | .sessionState => CMD_SS_DATA
  | .meterNow => MTR_CUR_DATA
  | .faultSource => FLT_SRC_DATA

/-- CMD_TS_DATA: a word of a tenant's live state. -/
def State.tenantWord (s : State) (t w : Nat) : Nat :=
  if w = 0 then
    (s.cmd.cmds.filter fun c => c.tenant == t).length +
      ((s.cmd.sessions.filter fun x => (if x.mgmt then 0 else x.tenant) == t).map fun x => x.arrivals.length).sum
  else if w = 1 then (s.cmd.cmds.filter fun c => c.tenant == t && c.deferred && !c.started).length
  else if w = 2 then if t = 0 then 0 else unsignedOf 32 ((s.deficitOf t).tdiv 1000)
  else match s.cmd.deferredErr.find? fun e => e.1 == t with
    | some e => e.2.1
    | none => 0

/-- CMD_SS_DATA: a word of a session's state. -/
def State.sessionWord (s : State) (id w : Nat) : Nat :=
  match s.session? (BitVec.ofNat 14 id) with
  | none => 0
  | some x =>
    if w = 0 then putBits (putBits (putBits (putBits 0 31 31 1) 30 30 (if x.mgmt then 1 else 0)) 29 29 (if x.frozen then 1 else 0)) 11 0 x.tenant
    else if w = 1 then putBits (putBits 0 24 16 x.depth) 8 0 (s.sessLoad (.session x.id))
    else if w = 2 then putBits (putBits 0 31 16 x.hintDrop) 15 0 x.frozenCid
    else x.frozenLog

/-- MTR_CUR_DATA: a word of the running record of an account. -/
def State.meterWord (s : State) (t w : Nat) : Nat :=
  let a := s.acct t
  let carry := ((s.mtr.carry.find? fun e => e.1 == t).map (·.2)).getD 0
  let r := { s.running t with acc := a, mj := ((a.energy + carry) / 1000).floor.toNat }
  ofBytes (((r.bytes 0).drop (4 * w)).take 4)

/-- FLT_SEV_DATA of the pair that FLT_SEV_IDX names; zero for a pair of no table. -/
def State.sevWord (s : State) : Nat :=
  let src := s.get FLT_SEV_IDX_SRC
  let kind := s.get FLT_SEV_IDX_KIND
  match pairDefault src kind with
  | some (d, fixed) => putBits (putBits (putBits 0 7 7 (if fixed then 1 else 0)) 6 4 d) 2 0 (s.sevOf src kind)
  | none => 0

/-- READMIT of a Hedgehog unit: re-admissions of the last 3,600 s. -/
def State.readmits (s : State) (u : Nat) : Nat :=
  min 3 (s.bist.returns.filter fun e => (unitsOf e.1).contains u && decide (s.tick ≤ e.2 + hourTicks)).length

/-- TXN_PEEK: the key that TXN_PEEK_ADDR and TXN_PEEK_IDX name. -/
def State.peekKey (s : State) : Nat :=
  let a := s.get TXN_PEEK_ADDR_ADDR
  let i := s.get TXN_PEEK_IDX_IDX
  if a = PLC_DM_DATA then keyDm (i / 8 % 512) (i % 8)
  else if a = PLC_POL_DATA then keyPol (i % 4096)
  else if a = CMD_TC_DATA then keyTc (i / 4 % 4096) (i % 4)
  else a

/-- The domain whose open shadow TXN_PEEK_DATA shows. -/
def State.peekFrom (s : State) : Option Nat := match domainOf s.peekKey with
  | some d => if s.txnState d = 0 then none else some d
  | none => none

/-- The word an index-data register gives. -/
def State.indexWord (s : State) (r : IndexReg) : Word := match r with
  | .mapEntry => s.reg (keyDm (s.get PLC_DM_IDX_ENTRY) (s.get PLC_DM_IDX_WORD))
  | .contract => s.reg (keyTc (s.get CMD_TC_IDX_TENANT) (s.get CMD_TC_IDX_WORD))
  | .tenantState => BitVec.ofNat 32 (s.tenantWord (s.get CMD_TS_IDX_TENANT) (s.get CMD_TS_IDX_WORD))
  | .sessionState => BitVec.ofNat 32 (s.sessionWord (s.get CMD_SS_IDX_SESSION) (s.get CMD_SS_IDX_WORD))
  | .meterNow => BitVec.ofNat 32 (s.meterWord (s.get MTR_CUR_IDX_TENANT) (s.get MTR_CUR_IDX_WORD))
  | .faultSource => if s.get FLT_SRC_IDX_WORD ≤ 2 then s.reg (keySrc (s.get FLT_SRC_IDX_SRC) (s.get FLT_SRC_IDX_WORD)) else 0

/-! ### Instances -/

/-- The instance whose register, of `n` at a stride from a first address, lies at an address. -/
def inst (first stride : Nat) (n : Nat) (a : Nat) : Option (Fin n) :=
  if h : (a - first) / stride < n then
    if first ≤ a ∧ (a - first) % stride = 0 then some ⟨(a - first) / stride, h⟩ else none
  else none

/-- The next state of a meaning that gives one. -/
def outState (o : Out) (s : State) : State := match o with
  | .next t => t
  | _ => s

/-! ### Reading -/

/-- A read that a row of its own describes: the words it delivers and the state it leaves. -/
def viaRow (s : State) (o : Out) : List Word × State := ((outState o s).rdata, outState o s)

/-- A read of a mapped register acts beside giving its word: a LO register latches, an index advances, a result is
consumed, a sample or a completion is taken. -/
def State.readActs (s : State) (p : Path) (a : Nat) : Option (List Word × State) :=
  ((allPairs.find? fun k => (s.pairOf k).1 == a).map s.readLow).orElse fun _ =>
  ((indexReg a).map fun r => ([s.indexWord r], s.advance r)).orElse fun _ =>
  ((inst 0x20620 0x40 4 a).map fun n => viaRow s (execTraceRdataRead p n s)).orElse fun _ =>
  ((inst 0x48014 0x800 4 a).map fun n => viaRow s (execOpcStatRead p n s)).orElse fun _ =>
  if a = FL_CMPL then some (viaRow s (execFlCmplRead p s))
  else if a = CAL_RES then some (viaRow s (execCalResRead p s))
  else if a = BIST_SCAN_STAT then some s.scanRead
  else none

/-- The word of a mapped register whose read changes nothing.
DEDUCED (notes/assumptions/13.md, unsafe). -/
def State.readPlain (s : State) (a : Nat) : Word :=
  if a = TICK_EP_PTP_HI ∧ s.flag TICK_STAT_LOCKED = false then 0
  else if (allPairs.map fun k => (s.pairOf k).2.1).contains a then s.readHigh a
  else if a = PLC_POL_DATA then s.reg (keyPol (s.get PLC_POL_IDX_TENANT))
  else if a = FLT_SEV_DATA then BitVec.ofNat 32 s.sevWord
  else if a = BIST_UNIT_DATA then
    let u := s.get BIST_UNIT_IDX_UNIT
    BitVec.ofNat 32 (putBits (s.reg (keyBist u)).toNat 29 28 (s.readmits u))
  else if a = TXN_PEEK_ADDR then BitVec.ofNat 32 (putBits (s.reg a).toNat 31 31 (if s.peekFrom.isSome then 1 else 0))
  else if a = TXN_PEEK_DATA then if (rwsFields s.peekKey).isEmpty then 0 else match s.peekFrom with
    | some d => s.withRws s.peekKey (s.shadowWord d s.peekKey)
    | none => s.reg s.peekKey
  else if 0x24000 ≤ a ∧ a < 0x27000 then s.readPage ((a - 0x24000) / 0x100) ((a - 0x24000) % 0x100 / 4)
  else if 0x120100 ≤ a ∧ a < 0x120300 then
    BitVec.ofNat 32 (((s.sec.msr[(a - 0x120100) / 0x40]?).getD 0).toNat / 2 ^ (8 * ((a - 0x120100) % 0x40)))
  else s.reg a

/-- A read of a mapped register. -/
def State.readReg (s : State) (p : Path) (a : Nat) : Word × State := match s.readActs p a with
  | some (l, t) => (l.headD 0, t)
  | none => (s.readPlain a, s)

/-- `n` consecutive words from an address upward, up to the first unmapped one; the flag tells whether all were mapped. -/
def State.readWords (p : Path) : Nat → Nat → State → List Word × Bool × State
  | 0, _, s => ([], true, s)
  | n + 1, a, s =>
    if isMapped a then
      let (w, t) := s.readReg p a
      let (l, ok, u) := State.readWords p n (a + 4) t
      (w :: l, ok, u)
    else ([], false, s)

/-! ### Writing -/

/-- The fields of a register. -/
def fieldsAt (a : Nat) : List FieldRow := match findRow a with
  | some r => r.fields
  | none => []

/-- A write that passes the gate acts on the fields of a register, within its ranges. -/
def State.plainWrite (s : State) (p : Path) (a : Nat) (v : Word) : State :=
  match s.writeRefusal p with
  | some code => s.status code
  | none => if inRange a v then s.writeFields p a (fieldsAt a) v else s.status stRegRefused

/-- A write that a rule refuses with class 0x8, unless the gate refuses it first. -/
def State.refuseWrite (s : State) (p : Path) : State := s.status ((s.writeRefusal p).getD stRegRefused)

/-- The fields of the word that a write of an index-data register reaches. -/
def indexFields (s : State) (r : IndexReg) : List FieldRow := match r with
  | .mapEntry => tableFields (keyDm (s.get PLC_DM_IDX_ENTRY) (s.get PLC_DM_IDX_WORD))
  | .contract => tableFields (keyTc (s.get CMD_TC_IDX_TENANT) (s.get CMD_TC_IDX_WORD))
  | .faultSource => if s.get FLT_SRC_IDX_WORD = 0 then [⟨31, 0, .w1c⟩] else []
  | _ => []

/-- The key of that word; none for a word that no write changes. -/
def State.indexWriteKey (s : State) (r : IndexReg) : Option Nat := match r with
  | .mapEntry => some (keyDm (s.get PLC_DM_IDX_ENTRY) (s.get PLC_DM_IDX_WORD))
  | .contract => some (keyTc (s.get CMD_TC_IDX_TENANT) (s.get CMD_TC_IDX_WORD))
  | .faultSource => if s.get FLT_SRC_IDX_WORD ≤ 2 then some (keySrc (s.get FLT_SRC_IDX_SRC) (s.get FLT_SRC_IDX_WORD)) else none
  | _ => none

/-- A write of an index-data register: the word's fields take it, and the index advances unless the write is refused.
DEDUCED (notes/assumptions/14.md, unsafe). -/
def State.indexWrite (s : State) (p : Path) (r : IndexReg) (v : Word) : State :=
  match s.writeRefusal p with
  | some code => s.status code
  | none =>
    let t := match s.indexWriteKey r with
      | some k => s.writeFields p k (indexFields s r) v
      | none => s.status stOk
    if t.wstat = stOk then t.advance r else t

/-- Several actions of one write, in order: one that is refused refuses the write whole. -/
def State.writeParts (s : State) (parts : List (State → State)) : State :=
  let t := parts.foldl (fun (t : State) (f : State → State) => if t.wstat = stOk then f t else t) (s.status stOk)
  if t.wstat = stOk then t else s.status t.wstat

/-- An action taken only when asked for. -/
def partIf (b : Bool) (f : State → State) : List (State → State) := if b then [f] else []

/-- Bit `k` of a written word. -/
abbrev wbit (v : Word) (k : Nat) : Bool := v.getLsbD k

/-- The parts of a write of AX_CTL (R272): ENABLE, then MODE when it differs, then the orders. -/
def axCtlParts (s : State) (p : Path) (a : Fin 7) (v : Word) : List (State → State) :=
  let mode : BitVec 2 := v.extractLsb' 8 2
  partIf (!wbit v 0 || !s.flag (AX_CTL_ENABLE a)) (fun (t : State) => outState (execAxEnable p a (wbit v 0) t) t) ++
    partIf (mode.toNat != s.get (AX_CTL_MODE a)) (fun (t : State) => outState (execAxMode p a mode t) t) ++
    partIf (wbit v 3) (fun (t : State) => outState (execEstop p a t) t) ++ partIf (wbit v 2) (fun (t : State) => outState (execAxStop p a t) t) ++
    partIf (wbit v 1) (fun (t : State) => outState (execAxStart p a t) t) ++ partIf (wbit v 4) (fun (t : State) => outState (execAxHome p a t) t) ++
    partIf (wbit v 5) (fun (t : State) => outState (execAxPark p a t) t)

/-- A write of the control engine's registers that acts. -/
def State.writeCe (s : State) (p : Path) (a : Nat) (v : Word) : Option State :=
  if h : 0x24000 ≤ a ∧ a < 0x27000 ∧ a % 4 = 0 then
    some (outState (execCePageWrite p ⟨(a - 0x24000) / 0x100, by omega⟩ ⟨(a - 0x24000) % 0x100 / 4, by omega⟩ v s) s)
  else if a = CE_AUX_CTL then some (outState (execCeAuxEnable p (v.extractLsb' 8 6) (wbit v 0) s) s)
  else if a = CE_WBUF_CTL then some (outState (execWbufGate p (wbit v 0) s) s)
  else if h : 0x20600 ≤ a ∧ a < 0x20700 then
    let n : Fin 4 := ⟨(a - 0x20600) / 0x40, by omega⟩
    let off := a % 0x40
    let idle := s.traceIdle n
    if off = 0 then
      let arm := wbit v 0
      let act : List (State → State) :=
        partIf (wbit v 1 && !arm) (fun (t : State) => outState (execTraceForce p n t) t) ++
        partIf (wbit v 2 && !arm) (fun (t : State) => outState (execTraceAck p n t) t) ++
        partIf arm (fun (t : State) => outState (execTraceArm p n t) t)
      -- R110: outside IDLE and DONE only a write that restarts the unit, or that forces its trigger (R109), is taken
      if idle = true ∨ arm = true then some (s.writeParts ((fun (t : State) => t.plainWrite p a v) :: act))
      else if wbit v 1 && !wbit v 2 && bitsOf v.toNat 31 16 == s.get (CE_TRC_CTL_DECIM n) then some (s.writeParts act)
      else some (s.refuseWrite p)
    else if off = 0x04 ∨ off = 0x08 ∨ off = 0x0C ∨ off = 0x14 then
      if idle = true then none else some (s.refuseWrite p)
    else none
  else none

/-- A write of the registers of pickups, write channels, stations and axes that acts.
DEDUCED (notes/assumptions/15.md, unsafe). -/
def State.writeMotion (s : State) (p : Path) (a : Nat) (v : Word) : Option State :=
  ((inst 0x30000 0x4000 4 a).map fun n => s.writeParts
    ([fun (t : State) => outState (execOpuEnable p n (wbit v 0) t) t, fun (t : State) => t.plainWrite p a v] ++
      partIf (wbit v 2) (fun (t : State) => outState (execWiForce p n t) t))).orElse fun _ =>
  ((inst 0x30008 0x4000 4 a).map fun n =>
    let op := bitsOf v.toNat 3 0
    let turn := if op = opJump then s.get (OPU_SPIRAL_TURN n) else if op = opAcquire ∨ op = opSeek then bitsOf v.toNat 31 14 else 0
    s.opuCmd p n op (if op = opAcquire ∨ op = opJump then bitsOf v.toNat 13 9 else 0) turn).orElse fun _ =>
  ((inst 0x48018 0x800 4 a).map fun n => if wbit v 0 then outState (execOpcAck p n s) s else s.plainWrite p a v).orElse fun _ =>
  ((inst 0x50000 0x8000 2 a).map fun n => outState (execSpnEnable p n (wbit v 0) s) s).orElse fun _ =>
  ((inst 0x50008 0x8000 2 a).map fun n => s.spnCmd p n (bitsOf v.toNat 3 0) (bitsOf v.toNat 31 16)).orElse fun _ =>
  ((inst 0x60000 0x1000 7 a).map fun n => s.writeParts (axCtlParts s p n v ++ [fun (t : State) => t.status stOk])).orElse fun _ =>
  if h : 0x60000 ≤ a ∧ a < 0x67000 ∧ 0x18 ≤ a % 0x1000 ∧ a % 0x1000 < 0x2C ∧ a % 4 = 0 then
    some (outState (execAxProfileWrite p ⟨(a - 0x60000) / 0x1000, by omega⟩ ⟨(a % 0x1000 - 0x18) / 4, by omega⟩ v s) s)
  else if a = MAG_CMD then
    let op := bitsOf v.toNat 3 0
    some (s.magCmd p op (if 3 ≤ op ∧ op ≤ 5 then bitsOf v.toNat 8 8 else 0) (if op = 3 ∨ op = 5 then bitsOf v.toNat 20 16 else 0))
  else if 0x30200 ≤ a ∧ a < 0x40000 ∧ 0x200 ≤ a % 0x4000 ∧ a % 0x4000 < 0x380 then
    -- R162: a write to an entry of the table clears SA_READY, and the settle of R121 starts again
    let n := (a - 0x30000) / 0x4000
    let t := s.plainWrite p a v
    if t.wstat = stOk then
      some ((t.set (OPU_STAT_SA_READY n) 0).modPu n fun k => { k with saSince := none })
    else some t
  else none

/-- A write of the registers of the other blocks that acts. -/
def State.writeShell (s : State) (p : Path) (a : Nat) (v : Word) : Option State :=
  if a = SYS_MODE_REQ then some (s.writeBy p true fun (t : State) => t.modeRequest (bitsOf v.toNat 3 0))
  else if a = PLC_MIG_CTL then
    some (if wbit v 8 then outState (execMigrationStop p s) s else outState (execMigrationStart p (v.extractLsb' 0 5) s) s)
  else if a = NET_PORT_CTL 0 ∨ a = NET_PORT_CTL 1 then
    let n : Fin 2 := if a = NET_PORT_CTL 0 then 0 else 1
    some (s.writeParts
      (partIf (wbit v 0 != s.flag (NET_PORT_CTL_ENABLE n)) (fun (t : State) => outState (execPortEnable p n (wbit v 0) t) t) ++
        [fun (t : State) => t.plainWrite p a v]))
  else if a = CMD_ST_ACK then some (if wbit v 0 then outState (execSelfTestAck p s) s else s.plainWrite p a v)
  else if a = CCH_MAINT then some (s.maintOrder p (bitsOf v.toNat 3 0))
  else if a = FL_DESC_PUSH then
    let w (k : Nat) : Nat := (s.reg (FL_DESC k)).toNat
    some (if wbit v 0 then
        s.flHostPush p
          { host := true, urgent := bitsOf (w 0) 4 4 == 1, tag := bitsOf (w 0) 15 8, op := bitsOf (w 0) 3 0, addr := bitsOf (w 1) 23 0
            len := bitsOf (w 2) 24 0, buf := s.reg (FL_DESC 3) }
      else s.plainWrite p a v)
  else if a = FL_REFRESH_CTL then
    some (s.writeParts ([fun (t : State) => t.plainWrite p a v] ++ partIf (wbit v 0) (fun (t : State) => outState (execFlRefreshStart p t) t) ++
      partIf (wbit v 1) (fun (t : State) => outState (execFlRefreshStop p t) t)))
  else if a = MEM_CHK_CTL then
    let target : BitVec 4 := v.extractLsb' 0 4
    let op := bitsOf v.toNat 7 4
    some (if op = 1 then outState (execWriteRaw p target s) s
      else if op = 2 then outState (execReadRaw p target s) s
      else if op = 3 then outState (execReadCorr p target s) s
      else s.refuseWrite p)
  else none

/-- A write of the registers of FLT, BIST, OWL and CAL that acts.
DEDUCED (notes/assumptions/15.md, unsafe). -/
def State.writeWatch (s : State) (p : Path) (a : Nat) (v : Word) : Option State :=
  if a = FLT_SEV_DATA then some (outState (execFltSevWrite p v s) s)
  else if a = FLT_FORCE then some (if wbit v 0 then outState (execFltInject p s) s else s.plainWrite p a v)
  else if a = FLT_STN 0 ∨ a = FLT_STN 1 then
    some (if wbit v 16 then outState (execFltStnRel p (if a = FLT_STN 0 then 0 else 1) s) s else s.plainWrite p a v)
  else if a = BIST_CTL then
    some (s.writeParts ([fun (t : State) => (t.plainWrite p a v).bistShow] ++ partIf (wbit v 2) (fun (t : State) => outState (execRunNow p t) t)))
  else if a = BIST_SCAN_CTL then some (if wbit v 0 then outState (execBistScanStart p s) s else s.plainWrite p a v)
  else if a = OWL_CTL then
    some (s.writeParts ([fun (t : State) => t.plainWrite p a v] ++ partIf (wbit v 0) (fun (t : State) => outState (execOwlRelease p t) t) ++
      partIf (wbit v 1) (fun (t : State) => outState (execOwlFlushAck p t) t)))
  else if a = OWL_MARK then some (outState (execOwlMark p v s) s)
  else if a = CAL_CTL then
    some (s.writeParts (partIf (wbit v 1) (fun (t : State) => outState (execCalAbort p t) t) ++
      [fun (t : State) => if wbit v 0 then outState (execCalStart p (v.extractLsb' 16 10) (wbit v 8) (if wbit v 4 then 1 else 0) t) t else t.plainWrite p a v]))
  else if a = CAL_ACK then some (if wbit v 0 then outState (execCalAck p s) s else s.plainWrite p a v)
  else none

/-- A write of a mapped register by a path that may write registers: what its own row does where one does, else its
fields take it (R11, R13).
DESIGN CHOICE (notes/assumptions/12.md, safe). -/
def State.writeReg (s : State) (p : Path) (a : Nat) (v : Word) : State :=
  match indexReg a with
  | some r => s.indexWrite p r v
  | none =>
  match s.indexKey a with
  | some k => match s.writeRefusal p with
    | some code => s.status code
    | none => if a = PLC_POL_DATA then s.writeFields p k (tableFields k) v else s.plainWrite p a v
  | none =>
    ((((s.writeCe p a v).orElse fun _ => s.writeMotion p a v).orElse fun _ => s.writeShell p a v).orElse fun _ => s.writeWatch p a v).getD
      (s.plainWrite p a v)

end Sys2Proof.Machine
end

