-- ==== Sys2Proof/Machine/Registers.lean ====
section
/-!
DEFINITION. The meanings of the register accesses: REG_READ, REG_WRITE, latched pairs and index-data registers (R9, R59,
R518, R519, R637).
-/

namespace Sys2Proof.Machine

open Sys2Proof

/-- LATCHED_PAIR_READ (R59): a read of the LO register of a pair. -/
def execLatchedPairRead (p : Path) (pair : PairReg) (s : State) : Out := .next (s.readBy p false fun t => t.readLow pair)

/-- INDEX_DATA_ACCESS (R519): a read, or a write of a word, of an index-data register; its index advances. -/
def execIndexDataAccess (p : Path) (reg : IndexReg) (write : Option Word) (s : State) : Out :=
  match write with
  | none => .next (s.readBy p false fun t => ([t.indexWord reg], t.advance reg))
  | some v => .next (if s.silent p then s else (s.rxMessage p false).indexWrite p reg v)

/-- A REG_READ that has been admitted (R519, R637): the first word is RESULT0, and LEN 4·n delivers n words; at the first
unmapped word it ends with BAD_ADDRESS, the words before it delivered. -/
def State.runRegRead (s : State) (c : Cmd) : State :=
  let (l, ok, t) := State.readWords c.path (max 1 (c.e.len.toNat / 4)) c.e.arg0.toNat s
  let kept : State := { t with wstat := s.wstat, rdata := s.rdata }
  (kept.setReg NET_SVC_STAT (s.reg NET_SVC_STAT)).finish c
    { status := if ok then stOk else stBadAddress, res0 := (l.headD 0).toNat, data := if c.e.len = 0 then [] else wordBytes l }

/-- REG_READ (R9, R41, R378, R518, R519). -/
def execRegRead (p : Path) (e : Entry) (s : State) : Out := .next (s.command p opRegRead e State.runRegRead)

/-- A REG_WRITE of SYS_RST completes, then the device resets (R54, R55). -/
def State.runSysRst (s : State) (c : Cmd) : State :=
  match s.rstRefusal c.path with
  | some code => s.finishWith c code
  | none =>
    if c.e.arg1.getLsbD 0 = false then s.finish c {}
    else if bitsOf c.e.arg1.toNat 31 16 = 0xA5C3 then (s.finish c {}).deviceReset rcSoft
    else s.finishWith c stRegRefused

/-- A REG_WRITE that has been admitted (R28, R637): it ends when the register holds the value, or with the status that
refuses it. A page word for which the write buffer has no room completes at the boundary that makes room (R113). -/
def State.runRegWrite (s : State) (c : Cmd) : State :=
  let a := c.e.arg0.toNat
  if !isMapped a then s.finishWith c stBadAddress
  else if a = SYS_RST then s.runSysRst c
  else
    let t := s.writeReg c.path a c.e.arg1
    let code := t.wstat
    let u := { t with wstat := s.wstat, rdata := s.rdata }.setReg NET_SVC_STAT (s.reg NET_SVC_STAT)
    if s.ce.wwait.length < t.ce.wwait.length then { u with cmd := { u.cmd with cmds := u.cmd.cmds ++ [{ c with started := true }] } }.cmdCounts
    else u.finishWith c code

/-- REG_WRITE (R9 to R13, R28, R41, R518, R522, R523, R637).
DESIGN CHOICE (notes/assumptions/12.md, safe). -/
def execRegWrite (p : Path) (e : Entry) (s : State) : Out := .next (s.command p opRegWrite e State.runRegWrite)

end Sys2Proof.Machine
end

