-- ==== Sys2Proof/Machine/SecOps.lean ====
section
/-!
DEFINITION. Life cycle, quotes, keys, bundles and the overwrite of the components (15_security_update.md).
DEDUCED (notes/assumptions/36.md, unsafe): Security: quotes and KEY_LOAD are closed in BLANK, RESULT0 of ATTEST is 52,096, a chunk repeated on a complete bundle verifies again, a bundle outside its ranges is FORMAT.
-/

namespace Sys2Proof.Machine

open Sys2Proof

def State.modSec (s : State) (f : SecSt → SecSt) : State := { s with sec := f s.sec }

/-- The reply to a service message that is no submission entry (R377). -/
def State.svcReply (s : State) (status : Nat) (data : List Byte) : State := s.writeEntry { path := .service, cid := 0, status := status, data := data }

/-- The low 256 bits of a hash. -/
def hash256 (l : List Byte) : BitVec 256 := (Config.shake256 l).setWidth 256

/-- A number read from little-endian bytes `o` to `o + n - 1`. -/
def fieldOf (l : List Byte) (o n : Nat) : Nat := ofBytes ((l.drop o).take n)

/-! ### Life cycle (R579 to R585) -/

abbrev lcBlank : Nat := 1
abbrev lcIssued : Nat := 2
abbrev lcField : Nat := 3
abbrev lcReturned : Nat := 4

/-- The life-cycle state. -/
def State.lc (s : State) : Nat := s.get SEC_LC_STATE

/-- MSR_7 is extended with the life-cycle record (R585). -/
def State.extendLife (s : State) : State := s.extendMsr 7 s.lifeRecord

/-- LC_CHANGED is raised, with bit 15 when a fuse has failed its read-back. -/
def State.lcChanged (s : State) (failed : Bool) : State :=
  s.raise 0x0E0 2 (s.get SEC_LC_STATE + 256 * s.get SEC_LC_DEBUG + if failed then 0x8000 else 0)

/-- Every loaded key and the ephemeral key pair are discarded (R583, R584). -/
def State.dropKeys (s : State) : State :=
  let s1 := (s.setKeys []).modSec fun x => { x with domain := none, ek := none }
  ((s1.set SEC_KEYS_DOMAIN 0).set SEC_KEYS_EK_VALID 0).set SYS_STAT_DOMAIN_KEY 0

/-- RETURN clears the keys, the memories and the Owl before its reset (R583). -/
def State.zeroise (s : State) : State :=
  let s1 := s.dropKeys
  let s2 : State := { s1 with mem := { s1.mem with dram := [], rows := [], sram := [], last := none }, cch := {}, owl := {} }
  [6, 7].foldl (fun (t : State) n => ((t.journal jStart n).eraseSector n).journal jEnd n) s2

/-- A life-cycle message is taken by the service port, but in BOOT (R378); it is accepted in PROVISION and MAINTAIN
(R580). -/
def State.lcOrder (s : State) (f : State → State) : State :=
  if s.silent .service then s
  else if s.jackOnly then s.svcReply stMode []
  else
    let t := s.rxMessage .service false
    if t.mode = modeProvision ∨ t.mode = modeMaintain then f t else t.svcReply stMode []

/-- The challenge is given and shown (R581). -/
def State.newChallenge (s : State) : State :=
  let ws := (List.range 8).map fun k => Config.freeWord (s.free + k)
  let s1 : State := { s with free := s.free + 8 }
  let s2 := (ws.zip (List.range 8)).foldl (fun (t : State) (e : Word × Nat) => t.setReg (SEC_CHAL e.2) e.1) s1
  (s2.modSec fun x => { x with challenge := some (BitVec.ofNat 256 (ofBytes (wordBytes ws))) }).svcReply stOk (wordBytes ws)

/-- The challenge is no longer valid. -/
def State.endChallenge (s : State) : State := s.modSec fun x => { x with challenge := none }

/-- The staged token, when a bundle of KIND 0x02 is STAGED. -/
def State.token (s : State) : Option Bundle :=
  if s.get UPD_STAT_STATE = 3 then (match s.sec.bundle with
    | some b => if b.token then some b else none
    | none => none)
  else none

/-- The token may be applied: its challenge is the valid one and the state agrees with its OP (R581, Table: Life-cycle
orders). -/
def State.tokenOk (s : State) (b : Bundle) : Bool :=
  let from_ : List Nat :=
    if b.op = 1 then [lcBlank] else if b.op = 2 then [lcIssued, lcField]
    else if b.op = 3 then [lcIssued, lcReturned] else if b.op = 4 then [lcIssued, lcField, lcReturned] else []
  s.sec.challenge == some b.challenge && from_.contains s.lc && !(b.op == 4 && decide (4 ≤ b.arg))

/-- APPLY_TOKEN, as the order of OP `op`. The token staged decides which order it is; with none staged, or one that does
not agree, the order completes with BAD_FIELD. Every APPLY_TOKEN ends the challenge (R581). -/
def State.applyToken (s : State) (op : Nat) (f : State → Bundle → State) : State :=
  let mine := match s.token with
    | some b => b.op == op
    | none => true
  if !mine then s
  else
    let t := s.lcOrder fun u => match u.token with
      | some b => if u.tokenOk b then f u b else u.svcReply stBadField []
      | none => u.svcReply stBadField []
    if s.silent .service || s.jackOnly then t else t.endChallenge

/-- The classes of Table: Status classes. -/
def statusClasses : List Nat := [0x0, 0x1, 0x2, 0x4, 0x8, 0x9]

/-- A fuse that fails its read-back: the state does not advance (R582). The spec names no status for it: a free value of a
listed class (R17). -/
def State.fuseFails (s : State) : State :=
  let (w, t) := (s.lcChanged true).draw
  t.svcReply (4096 * statusClasses.getD (w.toNat / 4096 % 6) 0 + w.toNat % 4096) []

/-- A transition to a life-cycle state: the fuse is burnt and read back, MSR_7 extended, and the order completes (R582). -/
def State.lcAdvance (s : State) (st : Nat) : State := (((s.set SEC_LC_STATE st).lcChanged false).extendLife).svcReply stOk []

/-- TO_FIELD needs its CONFIRM word, ASCII FELD (R580); it closes vendor debug for good. -/
def State.toField (s : State) (confirm : Word) (fuseOk : Bool) : State :=
  if confirm.toNat ≠ ofBytes (asciiBytes "FELD") ∨ s.lc ≠ lcIssued then s.svcReply stBadField []
  else if fuseOk then (s.set SEC_LC_DEBUG 0).lcAdvance lcField
  else s.fuseFails

/-- ISSUE draws the 96 bytes of the identity and burns them (R586). -/
def State.issue (s : State) (fuseOk : Bool) : State :=
  let s1 := ({ s with free := s.free + 24 } : State).modSec fun x => { x with ident := (List.range 24).map fun k => Config.freeWord (s.free + k) }
  if fuseOk then s1.lcAdvance lcIssued else s.fuseFails

/-- RETURN (R583). -/
def State.returnPart (s : State) (fuseOk : Bool) : State :=
  if fuseOk then ((s.lcAdvance lcReturned).zeroise).deviceReset rcSoft else s.fuseFails

/-- DEBUG_OPEN (R584). -/
def State.debugOpen (s : State) : State :=
  (((((s.set SEC_LC_DEBUG 1).dropKeys).lcChanged false).extendLife)).svcReply stOk []

/-- REVOKE_SLOT burns the fuse of the token's image key slot (R599). -/
def State.revokeSlot (s : State) (slot : Nat) (fuseOk : Bool) : State :=
  if fuseOk then ((s.set SEC_LC_REVOKED (s.get SEC_LC_REVOKED ||| 2 ^ slot)).extendLife).svcReply stOk [] else s.fuseFails

/-! ### Quotes (R588 to R592) -/

/-- The size of a quote. -/
abbrev quoteBytes : Nat := 52096

/-- Bytes 0x000 to 0x8BF of a quote as they are captured (Table: Quote). -/
def State.quoteBody (s : State) (q : Quote) : List Byte :=
  let src := match q.path with
    | .session id => id.toNat
    | .service => 0x8000
  let ptp := if s.flag TICK_STAT_PTP_VALID then s.ptpNow / 1000000000 else 0
  let msr := (List.range 8).flatMap fun n => toBytes 64 ((s.sec.msr[n]?).getD 0).toNat
  let ek := match s.sec.ek with
    | some n => Config.ekBytes n
    | none => []
  asciiBytes "KQTE" ++ toBytes 2 0x0100 ++ toBytes 1 s.lc ++ toBytes 1 s.mode ++ toBytes 4 quoteBytes ++ toBytes 2 src ++
    toBytes 2 (s.get SEC_LC_DEBUG + 256 * (s.get SEC_LC_REVOKED % 4)) ++ s.serialBytes ++ toBytes 8 s.tick ++ toBytes 8 ptp ++
    toBytes 32 q.nonce.toNat ++ s.verBytes ++ s.flashBytes 0x38008 32 ++ toBytes 8 0 ++ msr ++ padTo 1568 ek

/-- SEC_ATT.PENDING counts the quotes waiting or being signed. -/
def State.attShow (s : State) : State := s.set SEC_ATT_PENDING (s.sec.quotes.filter fun q => decide (q.state < 2)).length

/-- Signing of the first quote that waits starts when none is being signed. -/
def State.signNext (s : State) : State :=
  if s.sec.quotes.any fun q => q.state == 1 then s.attShow
  else match s.sec.quotes.find? fun q => q.state == 0 with
    | none => s.attShow
    | some q =>
      let q1 := { q with state := 1, body := s.quoteBody q }
      (s.modSec fun x => { x with quotes := x.quotes.map fun r => if r = q then q1 else r }).attShow

/-- A REQUEST by a path is queued (R590, R591). -/
def State.quoteRequest (s : State) (p : Path) (nonce : BitVec 256) : State :=
  let q : Quote := { path := p, nonce := nonce, reqAt := s.tick }
  let l := s.sec.quotes
  let waits (r : Quote) : Bool := r.path == p && r.state == 0
  let l1 :=
    if l.any waits then l.map fun r => if waits r then q else r
    else
      (l.filterMap fun r => if r.path = p then (if r.state = 1 then some { r with dropped := true } else none) else some r) ++ [q]
  (s.modSec fun x => { x with quotes := l1 }).signNext

/-- ATTEST REQUEST. Quotes are closed in BLANK, which has no identity (R579). -/
def State.runAttRequest (s : State) (nonce : BitVec 256) (c : Cmd) : State :=
  if s.lc = lcBlank then s.finishWith c stNotPermitted
  else if c.e.len.toNat ≠ 32 then s.finishWith c stBadField
  else (s.quoteRequest c.path nonce).finish c { res0 := quoteBytes }

/-- The quote a path fetches. -/
def State.quoteOf (s : State) (p : Path) : Option Quote := s.sec.quotes.find? fun q => q.path == p && !q.dropped

/-- The path's quote is replaced. -/
def State.setQuote (s : State) (q r : Quote) : State := s.modSec fun x => { x with quotes := x.quotes.map fun y => if y = q then r else y }

/-- ATTEST FETCH (R420 to R422, R592): on a session the whole quote, into a buffer that holds it; over the service port the
next piece of 992 bytes. -/
def State.runAttFetch (s : State) (c : Cmd) : State :=
  let service := c.path == .service
  if !service && decide (c.e.len.toNat < quoteBytes) then (s.draw.2).finish c { status := 0x4013, res0 := quoteBytes, time := s.draw.1.toNat }
  else match s.quoteOf c.path with
    | none => s.finish c { res0 := quoteBytes, data := List.replicate (if service then 992 else quoteBytes) 0 }
    | some q =>
      if q.state < 2 then s.finish c { res0 := quoteBytes, data := List.replicate (if service then 992 else quoteBytes) 0 }
      else
        let all := padTo quoteBytes (q.body ++ q.sig)
        let rstate := q.state - 1
        if service then
          let end_ := decide (quoteBytes ≤ 992 * (q.piece + 1))
          let q1 := { q with piece := if end_ then 0 else q.piece + 1, state := if end_ then 3 else q.state }
          (s.setQuote q q1).finish c { res0 := quoteBytes, rstate := rstate, data := (all.drop (992 * q.piece)).take 992 }
        else
          let q1 := if s.mgmtPath c.path then { q with state := 3 } else q
          (s.setQuote q q1).finish c { res0 := quoteBytes, rstate := rstate, data := all }

/-- The quote being signed is finished (R590, R591). -/
def State.quoteSigned (s : State) (signature : List Byte) : State :=
  match s.sec.quotes.find? fun q => q.state == 1 with
  | none => s
  | some q =>
    let s1 := s.incWrap SEC_CNT_QUOTES
    let s2 := if q.dropped then s1.modSec fun x => { x with quotes := x.quotes.erase q }
      else (s1.setQuote q { q with state := 2, sig := signature }).set SEC_ATT_LAST_MS (min 65535 ((s.tick - q.reqAt) / 500))
    s2.signNext

/-! ### Keys (R593 to R596) -/

/-- The wrapped key agrees with its entry (R594, R595): MODE, TARGET, KEY_GEN, the zeros and the digest of the ephemeral
key. -/
def State.wrapOk (s : State) (c : Cmd) (blob : List Byte) : Bool :=
  let mode := fieldOf blob 4 1
  let domain := c.e.arg0.getLsbD 31
  let ek := match s.sec.ek with
    | some n => Config.ekBytes n
    | none => []
  blob.length == c.e.len.toNat && ((mode == 1 && blob.length == 1664) || (mode == 2 && blob.length == 96)) &&
    blob.take 4 == asciiBytes "KWRP" && fieldOf blob 5 3 == 0 && fieldOf blob 8 4 == c.e.arg0.toNat && fieldOf blob 12 4 == c.e.arg1.toNat &&
    c.e.arg1.toNat != 0xFFFFFFFF && fieldOf blob 0x58 8 == 0 &&
    (if mode = 1 then s.sec.ek.isSome && fieldOf blob 0x10 32 == (hash256 ek).toNat
     else fieldOf blob 0x10 32 == 0 && s.sec.domain.isSome && !domain)

/-- The key-encryption key (R594). -/
def State.kekOf (s : State) (blob : List Byte) : BitVec 256 :=
  let secret := if fieldOf blob 4 1 = 1 then Config.decaps (s.sec.ek.getD 0) (blob.drop 0x60)
    else toBytes 32 ((s.sec.domain.getD 0).toNat)
  hash256 (secret ++ asciiBytes "kek" ++ blob.take 0x30)

/-- A tenant key is stored: the pair held before is replaced. -/
def State.storeKey (s : State) (t g : Nat) (k : BitVec 256) : State :=
  s.setKeys ((s.sec.keys.filter fun x => !(x.tenant == t && x.gen == g)) ++ [{ tenant := t, gen := g, key := k }])

/-- A tenant key fits in the store (R596). -/
def State.keyFits (s : State) (t g : Nat) : Bool :=
  decide (s.sec.keys.length < 8192) || s.sec.keys.any fun x => x.tenant == t && x.gen == g

/-- An unwrapped key is loaded. -/
def State.loadKey (s : State) (c : Cmd) (k : BitVec 256) : State :=
  let t := c.e.arg0.toNat % 4096
  let g := c.e.arg1.toNat
  if c.e.arg0.getLsbD 31 then
    match s.sec.domain with
    | some d => if d = k then s.finish c {} else s.finishWith c stBadField
    | none => (((s.modSec fun x => { x with domain := some k }).set SEC_KEYS_DOMAIN 1).set SYS_STAT_DOMAIN_KEY 1).finish c {}
  else if s.keyFits t g then (s.storeKey t g k).finish c {}
  else s.finishWith c stBadField

/-- KEY_LOAD (R594 to R596). -/
def State.runKeyLoad (s : State) (blob : List Byte) (c : Cmd) : State :=
  let t := c.e.arg0.toNat % 4096
  let domain := c.e.arg0.getLsbD 31
  if s.lc = lcBlank ∨ s.lc = lcReturned ∨ s.get SEC_LC_DEBUG = 1 then s.finishWith c stNotPermitted
  else if c.e.len = 0 then
    (if domain then s else s.setKeys (s.sec.keys.filter fun x => !(x.tenant == t && x.gen == c.e.arg1.toNat))).finish c {}
  else if !s.wrapOk c blob then s.finishWith c stBadField
  else match Config.keyUnwrap (s.kekOf blob) ((blob.drop 0x30).take 40) with
    | some k => s.loadKey c k
    | none => ((s.addSat SEC_CNT_UNWRAP_FAIL 1).raise 0x0E0 1 (if domain then 0xFFFF else t)).finishWith c 0x800C

/-! ### Staging (R598) -/

abbrev upEmpty : Nat := 0
abbrev upReceiving : Nat := 1
abbrev upVerifying : Nat := 2
abbrev upStaged : Nat := 3
abbrev upRejected : Nat := 4
abbrev upWriting : Nat := 5

/-- Nothing of a bundle is held any more; an activation that waits for it is cancelled (R598, R604). -/
def State.dropBundle (s : State) : State :=
  let s1 := s.modSec fun x => { x with chunks := [], bundle := none }
  (((s1.setReg UPD_STAT 0).setReg UPD_BUNDLE 0).setReg UPD_COUNT 0).actCancel 4

/-- A chunk's own fields are in range (Table: Chunk payload). -/
def chunkOk (index count len : Nat) (data : List Byte) : Bool :=
  decide (1 ≤ count) && decide (count ≤ 16645) && decide (index < count) && data.length == len &&
    (if index + 1 = count then decide (1 ≤ len) && decide (len ≤ 1008) else len == 1008)

/-- The chunk agrees with the bundle that is staged. -/
def State.chunkFits (s : State) (index count len : Nat) : Bool :=
  count == s.get UPD_COUNT_COUNT && s.sec.chunks.all fun k => k.1 != index || k.2.length == len

/-- A chunk is held; with every index held the bundle is verified. -/
def State.holdChunk (s : State) (index : Nat) (data : List Byte) : State :=
  let l := (s.sec.chunks.filter fun k => k.1 != index) ++ [(index, data)]
  let s1 := (s.modSec fun x => { x with chunks := l, bundle := none }).set UPD_STAT_CHUNKS l.length
  ((s1.set UPD_STAT_REASON 0).set UPD_STAT_TOKEN 0).set UPD_STAT_STATE
    (if l.length = s.get UPD_COUNT_COUNT then upVerifying else upReceiving)

/-- A chunk arrives over the service port. -/
def State.chunk (s : State) (bundle index count len : Nat) (data : List Byte) : State :=
  if s.silent .service then s
  else
    let t := s.rxMessage .service true
    if t.get UPD_STAT_STATE = upWriting ∨ t.mode = modeSafeStop then t.svcReply stMode []
    else if !chunkOk index count len data then t.svcReply stBadField []
    else
      let fresh := t.get UPD_STAT_STATE == upEmpty || t.get UPD_BUNDLE_ID != bundle
      let t1 := if fresh then ((t.dropBundle).set UPD_BUNDLE_ID bundle).set UPD_COUNT_COUNT count else t
      if !t1.chunkFits index count len then t1.svcReply stBadField []
      else (t1.holdChunk index data).svcReply stOk []

/-! ### Verification (R599 to R601) -/

/-- The bytes of the staged bundle. -/
def State.bundleBytes (s : State) : List Byte :=
  (sortBy (fun (a b : Nat × List Byte) => decide (a.1 ≤ b.1)) s.sec.chunks).flatMap fun k => k.2

/-- The component directory of an image bundle: TYPE, OFFSET, LENGTH, DIGEST. -/
def bundleDir (b : List Byte) : List (Nat × Nat × Nat × Nat) :=
  (List.range (fieldOf b 0x60 4)).map fun i =>
    let o := 0x70 + 48 * i
    (fieldOf b o 1, fieldOf b (o + 4) 4, fieldOf b (o + 8) 4, fieldOf b (o + 16) 32)

/-- A component of a bundle as stored. -/
def compSlice (b : List Byte) (d : Nat × Nat × Nat × Nat) : List Byte := (b.drop d.2.1).take d.2.2.1

/-- What the header of a stored component says (Table: Component header, Table: Jack twin header). -/
def compHeader (type : Nat) (c : List Byte) : CompInfo :=
  { type := type, ver := BitVec.ofNat 64 (fieldOf c 0x10 8)
    mins := if type = 0 then [] else (List.range 5).map fun k => BitVec.ofNat 16 (fieldOf c (0x18 + 2 * k) 2)
    calFormat := if type = 1 then BitVec.ofNat 16 (fieldOf c 0x0C 2) else 0 }

/-- First sector, number of sectors and size of a component's region; of Jack, one twin (Table: Component regions). -/
def compRegion (type : Nat) : Nat × Nat × Nat :=
  if type = 0 then (0, 1, 65536)
  else if type = 1 then (10, 60, 7864320)
  else if type = 2 then (72, 2, 262144)
  else if type = 3 then (76, 24, 3145728)
  else (100, 8, 1048576)

/-- Where the signature of a bundle stands. -/
def sigAt (b : List Byte) : Nat := 0x70 + 48 * (if fieldOf b 6 1 = 1 then fieldOf b 0x60 4 else 1)

/-- The signature's size. -/
abbrev sigBytes : Nat := 29792

/-- Check 0x1: magic, version, length, KIND, directory within the bundle, no TYPE repeated. -/
def formatOk (b : List Byte) : Bool :=
  let kind := fieldOf b 6 1
  let n := fieldOf b 0x60 4
  let dir := bundleDir b
  b.take 4 == asciiBytes "KUPD" && fieldOf b 4 2 == 0x0100 && fieldOf b 8 4 == b.length && decide (sigAt b + sigBytes ≤ b.length) &&
    (if kind = 1 then
      decide (1 ≤ n) && decide (n ≤ 5) && (dir.all fun d => decide (d.1 ≤ 4) && decide (sigAt b + sigBytes ≤ d.2.1) &&
        decide (d.2.1 + d.2.2.1 ≤ b.length)) && decide ((dir.map fun d => d.1).Nodup)
    else kind == 2 && n == 0)

/-- The authorisation key's place beside the four image key slots. -/
abbrev authSlot : Nat := 4

/-- Check 0x2: the digest of PUBKEY is that of its slot, which is not revoked; of the authorisation key for a token. -/
def State.bundleKeyOk (s : State) (b : List Byte) : Bool :=
  let d := hash256 ((b.drop 0x20).take 64)
  let slot := fieldOf b 7 1
  if fieldOf b 6 1 = 2 then d == Config.romKey authSlot
  else decide (slot < 4) && !(s.get SEC_LC_REVOKED).testBit slot && d == Config.romKey slot

/-- Check 0x4: each component matches its DIGEST and each header its own. -/
def digestsOk (b : List Byte) : Bool :=
  (bundleDir b).all fun d =>
    let c := compSlice b d
    let (head, at_) := if d.1 = 0 then (64, 0x20) else (96, 0x40)
    (hash256 c).toNat == d.2.2.2 && (hash256 ((c.drop head).take (fieldOf c 8 4))).toNat == fieldOf c at_ 32

/-- The interface level of a type, and its minimum for another, in a set of components; none stands for the factory
release. -/
def setLevel (f : Nat → Option CompInfo) (t : Nat) : Nat := match f t with
  | some c => levelOf c
  | none => bitsOf (Config.factoryVersion t).toNat 63 48

def setMin (f : Nat → Option CompInfo) (t u : Nat) : Nat := match f t with
  | some c => minOf c u
  | none => if t = 0 then 0 else (Config.factoryMin t u).toNat

/-- The set is compatible (R600); the factory release is with itself. -/
def compatSet (f : Nat → Option CompInfo) : Bool :=
  (List.range 5).all fun t => (List.range 5).all fun u =>
    t == u || ((f t).isNone && (f u).isNone) || decide (setMin f t u ≤ setLevel f u)

/-- The components as an install of the bundle would leave them. -/
def State.installed (s : State) (b : List Byte) (t : Nat) : Option CompInfo :=
  match (bundleDir b).find? fun d => d.1 == t with
  | some d => some (compHeader t (compSlice b d))
  | none => s.compOf t

/-- The first check of Table: Bundle rejection reasons that the staged bundle fails. -/
def State.bundleReason (s : State) (b : List Byte) : Option Nat :=
  let image := fieldOf b 6 1 == 1
  let serial := (b.drop 0x10).take 16
  let own := serial == s.serialBytes
  let sig := (b.drop (sigAt b)).take sigBytes
  if !formatOk b then some 1
  else if !s.bundleKeyOk b then some 2
  else if !Config.sigVerify ((b.drop 0x20).take 64) (b.take (sigAt b)) sig then some 3
  else if image && !digestsOk b then some 4
  else if !(own || (image && serial.all fun x => x == 0)) then some 5
  else if fieldOf b 0x0C 1 < s.get SEC_LC_SVN then some 6
  else if image && !((bundleDir b).all fun d => decide (d.2.2.1 ≤ (compRegion d.1).2.2)) then some 7
  else if image && !compatSet (s.installed b) then some 8
  else none

/-- The bundle as it is kept once it has verified. -/
def parseBundle (b : List Byte) : Bundle :=
  { token := fieldOf b 6 1 == 2, svn := fieldOf b 0x0C 1, advance := (fieldOf b 0x0D 1).testBit 0
    comps := if fieldOf b 6 1 = 1 then (bundleDir b).map fun d => { info := compHeader d.1 (compSlice b d), off := d.2.1, len := d.2.2.1 } else []
    op := fieldOf b 0x70 1, arg := fieldOf b 0x71 1, challenge := BitVec.ofNat 256 (fieldOf b 0x80 32) }

/-! ### The overwrite (R605 to R607) -/

/-- The components in the order in which Jack overwrites them. -/
def writeOrder : List Nat := [0, 2, 4, 3, 1]

/-- Components of the image state record, with one replaced. -/
def State.recComps (s : State) (t : Nat) (count : Nat) (ok : Bool) : List (Nat × Nat × Bool) :=
  let now := match s.imgNow with
    | some r => r.comps
    | none => [(10, 0, false), (72, 0, false), (76, 0, false), (100, 0, false)]
  if t = 0 then now else now.set (t - 1) ((compRegion t).1, count, ok)

/-- The twin that the current record names; twin A when none is valid (R498). -/
def State.activeTwin (s : State) : Bool := match s.imgNow with
  | some r => r.twinB
  | none => false

/-- A sector is erased with its journal entries. -/
def State.eraseNow (s : State) (n : Nat) : State := ((s.journal jStart n).eraseSector n).journal jEnd n

/-- The sectors that a component of a length takes; the twin that is not active for Jack. -/
def State.compSectors (s : State) (t len : Nat) : List Nat :=
  if t = 0 then [if s.activeTwin then 0 else 1]
  else (List.range ((len + 131071) / 131072)).map fun k => (compRegion t).1 + k

/-- Percent of the bytes to be written that have been. -/
def State.writePercent (s : State) : Nat :=
  let total := (match s.sec.bundle with
    | some b => (b.comps.map fun c => c.len).sum
    | none => 0)
  let left := (s.sec.writing.map fun c => c.len).sum
  if total = 0 then 0 else 100 * (total - left) / total

/-- The next component is begun: a record says that it is incomplete, and its sectors are erased (R606). -/
def State.beginComp (s : State) : State := match s.sec.writing with
  | [] => s
  | c :: _ =>
    let t := c.info.type
    let s1 := if t = 0 then s else s.imgPut s.activeTwin (s.recComps t 0 false)
    (((s1.compSectors t c.len).foldl (fun (u : State) n => u.eraseNow n) s1).set UPD_PROG_COMP t).set UPD_PROG_PERCENT s.writePercent

/-- The overwrite begins: UPD_STAT.STATE becomes WRITING. -/
def State.beginWrite (s : State) (b : Bundle) : State :=
  let l := writeOrder.filterMap fun t => b.comps.find? fun c => c.info.type == t
  ((s.modSec fun x => { x with writing := l }).set UPD_STAT_STATE upWriting).beginComp

/-- The device is ready for the overwrite: in MAINTAIN for activation, both stations STOPPED, the bundle STAGED (R605), and
no SAFE_STOP due, which goes first (R34, R37). -/
def State.writeDue (s : State) : Bool :=
  s.sys.overwrite && s.mode == modeMaintain && s.flag (SPN_STAT_STOPPED 0) && s.flag (SPN_STAT_STOPPED 1) &&
    s.get UPD_STAT_STATE == upStaged && s.token.isNone && s.sys.safeStopDue.isNone

/-- Every session is closed, the ports go down and the housekeeper stops (R605, step 4). -/
def State.writeStart (s : State) : State :=
  if s.writeDue then
    match s.sec.bundle with
    | none => s
    | some b =>
      let s0 := s.disconnectAll
      let s1 := ((((s0.egress 0 s0.net.out.length).egress 1 s0.net.out.length).portDown 0 false).portDown 1 false)
      let s2 := [0, 1].foldl (fun (t : State) p => t.set (NET_PORT_STAT_STATE p) 0) s1
      (s2.modSys fun y => { y with wdogArmed := false }).beginWrite b
  else s

/-- SVN fuses are burnt when the bundle asks for it (R607). -/
def State.burnSvn (s : State) : State := match s.sec.bundle with
  | some b => if b.advance then (s.set SEC_LC_SVN (max (s.get SEC_LC_SVN) b.svn)).extendLife else s
  | none => s

/-- The overwrite is over: the device resets with cause UPDATE (R512, R607). -/
def State.writeOver (s : State) : State :=
  let s1 := s.burnSvn
  let s2 := if s1.mode = modeMaintain then (s1.set UPD_ACT_STAT_OUTCOME 1).changeMode modeBoot mcJack else s1
  s2.deviceReset rcUpdate

/-- A component has been written and verified (R606). -/
def State.compWritten (s : State) : State :=
  match s.sec.writing with
  | [] => s
  | c :: rest =>
    if s.get UPD_STAT_STATE ≠ upWriting then s
    else
      let t := c.info.type
      let bytes := (s.bundleBytes.drop c.off).take c.len
      let secs := s.compSectors t c.len
      let s1 := s.programBytes (sectorBase (secs.headD 0)) bytes
      let twin := !s.activeTwin
      let s2 := if t = 0 then
          (s1.modSec fun x => { x with jack := x.jack.setIfInBounds (if twin then 1 else 0) (some c.info) }).imgPut twin (s1.recComps 0 0 true)
        else (s1.modSec fun x => { x with comps := (x.comps.filter fun k => k.type != t) ++ [c.info] }).imgPut s1.activeTwin
          (s1.recComps t secs.length true)
      let s3 := s2.modSec fun x => { x with writing := rest }
      if rest.isEmpty then s3.writeOver else s3.beginComp

/-- Verification ends (R601): STAGED, or REJECTED with its reason. In BOOT an image bundle that has passed is written at
once (R512). -/
def State.verdict (s : State) : State :=
  if s.get UPD_STAT_STATE ≠ upVerifying then s
  else
    let b := s.bundleBytes
    let s1 := s.set UPD_STAT_TOKEN (if fieldOf b 6 1 = 2 then 1 else 0)
    match s1.bundleReason b with
    | some r => ((s1.set UPD_STAT_STATE upRejected).set UPD_STAT_REASON r).raise 0x0E1 1 r
    | none =>
      let s2 := (s1.modSec fun x => { x with bundle := some (parseBundle b) }).set UPD_STAT_STATE upStaged
      if s2.mode = modeBoot ∧ s2.get SYS_STAT_BOOT_WAIT ≠ 0 ∧ (parseBundle b).token = false then s2.beginWrite (parseBundle b) else s2

/-! ### Activation (R602) -/

/-- ACTIVATE_AT. -/
def State.runActivateAt (s : State) (c : Cmd) : State :=
  let sec := c.e.arg2.toNat
  let ns := c.e.arg1.toNat
  if sec = 0 then (s.actCancel 2).finish c {}
  else
    let staged := s.get UPD_STAT_STATE == upStaged && s.token.isNone
    if !staged || !s.ce.rephased || decide (sec * 1000000000 + ns < s.ptpNow + 2000000000) || decide (1000000000 ≤ ns) then
      s.finishWith c stBadField
    else
      ((((s.setReg UPD_ACT_LO (BitVec.ofNat 32 sec)).setReg UPD_ACT_HI (BitVec.ofNat 32 (sec / 2 ^ 32 % 65536))).setReg UPD_ACT_NS
        (BitVec.ofNat 32 ns)).set SYS_STAT_ACT_PENDING 1).finish c {}

end Sys2Proof.Machine
end

