-- ==== Sys2Proof/Machine/Security.lean ====
section
/-!
DEFINITION. The meanings of the life-cycle, quote, key and update commands (15_security_update.md).
DEDUCED (notes/assumptions/36.md, unsafe): Security: quotes and KEY_LOAD are closed in BLANK, RESULT0 of ATTEST is 52,096, a chunk repeated on a complete bundle verifies again, a bundle outside its ranges is FORMAT.
-/

namespace Sys2Proof.Machine

open Sys2Proof

/-- ATTEST_REQUEST (R588, R590, R591): `nonce` is what the RDMA READ delivers, or what follows the entry. -/
def execAttestRequest (p : Path) (e : Entry) (nonce : BitVec 256) (s : State) : Out :=
  if e.arg0 = 0 then .next (s.command p opAttest e fun t c => t.runAttRequest nonce c) else .next s

/-- ATTEST_FETCH (R420 to R422, R592). -/
def execAttestFetch (p : Path) (e : Entry) (s : State) : Out :=
  if e.arg0 = 0 then .next s else .next (s.command p opAttest e State.runAttFetch)

/-- QUOTE_SIGNED (R590). -/
def execQuoteSigned (signature : List Byte) (s : State) : Out := .next (s.quoteSigned signature)

/-- KEY_LOAD (R594 to R596): `blob` is the wrapped key. -/
def execKeyLoad (p : Path) (e : Entry) (blob : List Byte) (s : State) : Out :=
  .next (s.command p opKeyLoad e fun t c => t.runKeyLoad blob c)

/-- ACTIVATE_AT (R602, R604). -/
def execActivateAt (p : Path) (e : Entry) (s : State) : Out := .next (s.command p opActivate e State.runActivateAt)

/-- GET_CHALLENGE (R581). It is none of the orders of R580, so no mode but BOOT refuses it. -/
def execGetChallenge (s : State) : Out :=
  if s.silent .service then .next s
  else if s.jackOnly then .next (s.svcReply stMode [])
  else .next (s.rxMessage .service false).newChallenge

/-- TO_FIELD (R580, R582). -/
def execToField (confirm : Word) (fuseOk : Bool) (s : State) : Out := .next (s.lcOrder fun t => t.toField confirm fuseOk)

/-- ISSUE (R581, R582, R586). -/
def execIssue (fuseOk : Bool) (s : State) : Out := .next (s.applyToken 1 fun t _ => t.issue fuseOk)

/-- RETURN (R581 to R583). -/
def execReturnPart (fuseOk : Bool) (s : State) : Out := .next (s.applyToken 2 fun t _ => t.returnPart fuseOk)

/-- DEBUG_OPEN (R581, R584). -/
def execDebugOpen (s : State) : Out := .next (s.applyToken 3 fun t _ => t.debugOpen)

/-- REVOKE_SLOT (R581, R599). -/
def execRevokeSlot (fuseOk : Bool) (s : State) : Out := .next (s.applyToken 4 fun t b => t.revokeSlot b.arg fuseOk)

/-- UPD_CHUNK (R598). -/
def execUpdChunk (bundle index count : Word) (dataLen : BitVec 16) (data : List Byte) (s : State) : Out :=
  .next (s.chunk bundle.toNat index.toNat count.toNat dataLen.toNat data)

/-- BUNDLE_VERDICT (R599 to R601, R512). -/
def execBundleVerdict (s : State) : Out := .next s.verdict

/-- ACTIVATION_WRITE_START (R605). -/
def execActivationWriteStart (s : State) : Out := .next s.writeStart

/-- COMPONENT_WRITTEN (R606, R607). -/
def execComponentWritten (s : State) : Out := .next s.compWritten

/-- TRNG_FAIL (R610): the argument names the health test. -/
def execTrngFail (test : BitVec 16) (s : State) : Out := .next (s.raise 0x0E0 3 test.toNat)

end Sys2Proof.Machine
end

