-- ==== Sys2Proof/Machine/TickOps.lean ====
section
/-!
DEFINITION. What a tick boundary brings beside the work of each block (R31): the epochs (R65 to R67, R396, R435, R438), the
arbitration round of both arbiters (R291, R292, R434), the energy of the tick (R425, R426), REHINT entries (R399) and the
arbiter's displays.
DESIGN CHOICE (notes/assumptions/31.md, safe): Energy and start estimates use the duration model of R440 as exact rationals; DEFICIT rounds toward zero.
DEDUCED (notes/assumptions/37.md, unsafe): Power: chopper test, brake rows and hold-up follow Table: Braking by VBUS; a consumer that gives power back is charged nothing; house jobs' station time goes to the house account.
-/

namespace Sys2Proof.Machine

open Sys2Proof

/-! ### Epochs -/

/-- An epoch ends at this tick boundary (R65 to R67): before the first re-phase at the multiples of 500,000, afterwards at
the boundary nearest a PTP second while LOCKED, else 500,000 ticks after the last one.
DESIGN CHOICE (notes/assumptions/49.md, unsafe): so too while LOCKED is 0 outside holdover. -/
def State.epochDue (s : State) : Bool :=
  decide (s.ce.epTick < s.tick) &&
    (if s.ce.epochAt.isSome then s.ce.epochAt == some s.tick
     else if !s.ce.rephased then s.tick % 500000 == 0
     else !s.flag TICK_STAT_LOCKED && decide (s.ce.epTick + 500000 ≤ s.tick))

/-- PTP seconds at this tick boundary. -/
def State.secNow (s : State) : Nat :=
  if s.tick ≤ s.ce.secTick then s.ce.ptpSec else s.ce.ptpSec + (s.tick - s.ce.secTick + 250000) / 500000

/-- Tenants with a job that waits for or holds a station, house jobs apart (R396). -/
def State.askers (s : State) : List Nat := ((s.allJobs.filter fun j => !j.kind.house && j.kind != .maint).map Job.tenant).eraseDups

/-- The deficits after an epoch of `l` ticks, in µs (R396). -/
def State.newDeficits (s : State) (l : Nat) : List (Nat × Int) :=
  let who := s.askers
  let share (t : Nat) : Nat := bitsOf (s.reg (keyTc t 0)).toNat 7 0
  let all := (who.map share).sum
  let given := 2 * l * ((List.range 2).filter fun st => s.inService st).length
  let limit : Int := (1000 * s.get CMD_ADM_CFG2_DEF_CLAMP : Nat)
  who.map fun t =>
    let used := ((s.arb.used.find? fun e => e.1 == t).map (·.2)).getD 0
    let d := s.deficitOf t + ((if all = 0 then 0 else given * share t / all : Nat) : Int) - ((2 * used : Nat) : Int)
    (t, max (-limit) (min limit d))

/-- An epoch ends (R67): it is counted, a slot table that waits applies (R438), the table restarts, deficits are renewed. -/
def State.epochEnd (s : State) : State :=
  let l := s.tick - s.ce.epTick
  let s1 := { s with ce := { s.ce with epTick := s.tick, epPtp := s.secNow, epochAt := none }, arb := { s.arb with deficit := s.newDeficits l, used := [] } }
  let s2 := ((s1.incWrap TICK_EPOCH_EPOCH).set ARB_SLOT_CUR_SLOT 0).set ARB_SLOT_CUR_L 500000
  (s2.when s2.mtr.on fun t => t.addSat MTR_STAT_EPOCH 1).epochApply

/-- The epoch's boundary is put at a tick boundary, which may be this one; the epoch's length follows.
DEDUCED (notes/assumptions/18.md, unsafe). -/
def State.epochEndsAt (s : State) (at_ : Nat) : State :=
  let s1 := s.set ARB_SLOT_CUR_L (at_ - s.ce.epTick)
  if at_ ≤ s.tick then (if s.ce.epTick < s.tick then s1.epochEnd else s) else { s1 with ce := { s1.ce with epochAt := some at_ } }

/-- The re-phase of R66, at the first PTP second after LOCKED has set, whose nearest tick boundary is `at_`, `phase` cycles late:
made when the second lies more than 1 tk from the epoch boundaries before and after it. -/
def State.rephase (s : State) (at_ : Nat) (phase : Int) : State :=
  let s1 := { s with ce := { s.ce with rephaseDue := false } }
  let second : Int := 1600 * (at_ : Int) - phase
  if 1600 < second - 1600 * (s.ce.epTick : Int) ∧ 1600 < 1600 * ((s.ce.epTick : Int) + 500000) - second then
    let s2 := ({ s1 with ce := { s1.ce with rephased := true } }.set TICK_STAT_EP_REPHASE 1)
    if 250000 ≤ at_ - s.ce.epTick then s2.epochEndsAt at_ else s2.set ARB_SLOT_CUR_L (at_ + 500000 - s.ce.epTick)
  else s1

/-- The length of the tick by which a phase step puts a boundary on the following PTP second: a boundary `phase` cycles late is
followed by one tick longer by the rest of 1,600 cycles (R57, R62). -/
def stepLength (phase : Int) : Nat := 1600 + ((-phase) % 1600).toNat

/-- The greatest rate correction, in parts per 10^9: one cycle in eight ticks (R61). -/
abbrev slewLimit : Int := 78125

/-- The phase of a PTP second (R60 to R63): reported, corrected by a step or by slewing, and judged for LOCKED. A step lengthens the
tick that follows.
DEDUCED (notes/assumptions/18.md, unsafe). -/
def State.phaseMeasured (s : State) (phase : Int) (rate : Word) : State :=
  let thr := s.get TICK_CTL_LOCK_THR
  let off := phase.natAbs
  let driven := s.visited.any fun n => drives (s.get (CE_PAGE_TYPE n)) && s.slotEn n
  let moving := (List.range 7).any fun a => s.axInMotion a
  let s1 := s.setReg TICK_PHASE (BitVec.ofInt 32 phase)
  let s2 : State := if s.flag TICK_CTL_STEP_EN = true ∧ driven = false ∧ moving = false ∧ thr < off then
      { s1 with ce := { s1.ce with stepLen := some (stepLength phase) } }.set TICK_STAT_STEPPED 1
    else s1.setReg TICK_RATE (BitVec.ofInt 32 (max (-slewLimit) (min slewLimit rate.toInt)))
  let run := if off ≤ thr then s.ce.lockRun + 1 else 0
  let locks := decide (3 ≤ run) && !s.flag TICK_STAT_LOCKED
  let s3 := { s2 with ce := { s2.ce with lockRun := min 3 run, rephaseDue := s.ce.rephaseDue || (locks && !s.ce.rephased) } }
  if 3 ≤ run then s3.set TICK_STAT_LOCKED 1
  else if 2 * thr < off then s3.set TICK_STAT_LOCKED 0
  else s3

/-- A PTP second passes (R60 to R67) while PTP time is valid. A boundary that is late lies after the second: it is the next
one; else the nearest boundary is the last one. -/
def State.secondPasses (s : State) (phase : Int) (rate : Word) (sec : Nat) : State :=
  let at_ := if 0 < phase then s.tick + 1 else s.tick
  let s1 := { s with ce := { s.ce with ptpSec := sec, secTick := at_ } }
  let wasDue := s.ce.rephaseDue && s.flag TICK_STAT_LOCKED
  let s2 := if s.flag TICK_CTL_DISC_EN then s1.phaseMeasured phase rate else s1
  if !s2.flag TICK_STAT_LOCKED then s2
  else if s2.ce.rephased then (if 250000 ≤ at_ - s2.ce.epTick then s2.epochEndsAt at_ else s2)
  else if wasDue then s2.rephase at_ phase
  else s2

/-! ### The arbitration round -/

/-- The current slot (R435). -/
def State.slotTick (s : State) : State :=
  s.maxIn ARB_SLOT_CUR_SLOT (slotAt (s.get ARB_SLOT_CUR_L) (s.tick - s.ce.epTick))

/-- Requests of the picker whose job holds its station no longer are withdrawn, the others take their job's class; a station
whose exchange has ended may ask again (R291). -/
def State.pickerRequests (s : State) : State :=
  let now (o : MagOrder) : MagOrder :=
    if o.by_ = .maint then o else { o with prio := ((s.arbOf o.stn).job.map Job.cls).getD o.prio }
  let s1 := s.modMag fun m =>
    { m with waiting := (m.waiting.filter fun o => o.by_ == .maint || ((s.arbOf o.stn).job.isSome && (s.arbOf o.stn).asked)).map now }
  [0, 1].foldl (fun (t : State) st =>
    let active := t.mag.waiting.any (fun o => o.by_ != .maint && o.stn == st) || t.mag.run.any (fun o => o.stn == st) || t.mag.focusing == some st
    if (t.arbOf st).asked && !active then t.modArb st fun a => { a with asked := false } else t) s1

/-- The picker's round (R291, R292): a grant is held while its order runs, then stays parked on its owner until another
requester asks; a free Badger takes the best order that may start. -/
def State.pickerRound (s0 : State) : State :=
  let s := s0.pickerRequests
  if s.mag.run.isSome then s
  else
    let s1 := if s.get ARB_PK_STAT_STATE = 1 then s.set ARB_PK_STAT_STATE 2 else s
    let other := s1.mag.waiting.any fun o => o.by_.code != s1.get ARB_PK_STAT_OWNER
    let s2 := if s1.get ARB_PK_STAT_STATE = 2 ∧ other = true then s1.set ARB_PK_STAT_STATE 0 else s1
    if s2.mag.stage ≠ .idle then s2
    else match s2.pickerBest with
      | some o =>
        let s3 := (s2.set ARB_PK_STAT_STATE 1).set ARB_PK_STAT_OWNER o.by_.code
        { s3 with arb := { s3.arb with pkAt := s.tick } }.magStart o
      | none => s2

/-- A maintenance order runs on a station in MAINTAIN: of its spindle, of a pickup or sled of it, or an exchange of its disc. -/
def State.maintRuns (s : State) (st : Nat) : Bool :=
  s.mode == modeMaintain &&
    (s.get (SPN_CMD_STAT_RESULT st) == resRunning ||
      [2 * st, 2 * st + 1].any (fun n => s.get (OPU_CMD_STAT_RESULT n) == resRunning || s.get (AX_RES_RESULT n) == resRunning) ||
      (s.mag.run.toList ++ s.mag.waiting).any fun o => o.by_ == .maint && decide (3 ≤ o.op) && decide (o.op ≤ 5) && o.stn == st)

/-- A maintenance order asks for its station above every class while it runs, and leaves it IDLE as it stands when it ends (R433).
DESIGN CHOICE (notes/assumptions/59.md, safe): one request of a station stands for all its running orders. -/
def State.maintRound (s : State) (st : Nat) : State :=
  let mine (j : Job) : Bool := j.kind == .maint && j.station == st
  let holds := (s.arbOf st).job.any mine
  if s.maintRuns st then
    if holds || s.arb.jobs.any mine then s
    else s.addJob { id := 0, kind := .maint, tenant := 0, cls := 8, at_ := s.tick, station := st, slot := none, write := false }
  else if holds then s.idleStn st
  else if s.arb.jobs.any mine then s.dropJobs mine
  else s

/-- Both arbiters and the work of the holders of the stations. -/
def State.arbTick (s : State) : State :=
  let s1 := ((s.slotTick.serviceTick 0).serviceTick 1).rebuildTick
  let s2 := (((s1.calQueue 0).calQueue 1).maintRound 0).maintRound 1
  let round (t : State) (st : Nat) : State := if t.grantState st = stnOut then t else t.stnRound st
  ((((round (round s2 0) 1).workStn 0).workStn 1).pickerRound).magHomingTick.magFocusTick

/-- What ARB_STN_s and ARB_PK_STAT show of times and queues. -/
def State.arbShow (s : State) : State :=
  let ms (since : Nat) : Nat := (s.tick - since) / 500
  let s1 := [0, 1].foldl (fun (t : State) st =>
    let g := t.grantState st
    let held := g = stnHeld ∨ g = stnParked
    ((t.set (ARB_STN_W1_HELD_MS st) (if held then min 0xFFFFFFFF (ms (t.arbOf st).since) else 0)).set (ARB_STN_W2_WAITING st)
      (t.waiting st).length).set (ARB_STN_W3_REMAIN_MS st) (if g = stnHeld then (t.remain st).floor.toNat else 0)) s
  s1.set ARB_PK_STAT_HELD_MS (if s1.get ARB_PK_STAT_STATE = 1 then min 0xFFFF (ms s1.arb.pkAt) else 0)

/-! ### Metering of the tick (R425, R426) -/

/-- Station of a consumer of Table: Energy consumers; none for a magazine bridge. -/
def consumerStn (k : Nat) : Option Nat :=
  if k < 2 then some k
  else if k < 6 then some ((k - 2) / 2)
  else if k < 9 then none
  else if k < 17 then some ((k - 9) % 4 / 2)
  else some ((k - 17) / 2)

/-- Owner of a station's consumers: of the job that holds it, else the house account. -/
def State.stnOwner (s : State) (st : Nat) : Nat :=
  if s.mode = modeProvision ∨ s.mode = modeSafeStop then 0
  else match (s.arbOf st).job with
    | some j => j.owner
    | none => 0

/-- Owner of a consumer; of Z, X and G the job whose picker grant is held. -/
def State.consumerOwner (s : State) (k : Nat) : Nat := match consumerStn k with
  | some st => s.stnOwner st
  | none => match s.mag.run with
    | some o => if o.by_ = .maint then 0 else s.stnOwner o.stn
    | none => 0

/-- Energy is charged to an account, in µJ. -/
def State.charge (s : State) (t : Nat) (e : Rat) : State :=
  if e = 0 then s else s.modAcct t fun a => { a with energy := a.energy + e }

/-- The power of a consumer in mW as its own current sense gives it, signed; lasers and voice coils are fed by the 12 V rail, and
their power is divided by that buck's efficiency (R425, Table: Power tree). -/
def State.consumerPower (s : State) (x : Samples) (k : Nat) : Int :=
  let p := ((x.consumers[k]?).getD 0).toInt
  let eff := s.get PWR_RAIL_12_EFF
  if k < 9 ∨ eff = 0 then p else (100 * p).tdiv eff

/-- The tick's energy and station time are charged: 1 mW for 2 µs is 0.002 µJ. A consumer that gives power back is charged nothing,
which keeps R427. MTR_CONS shows each consumer's power and owner. -/
def State.meterTick (x : Samples) (s : State) : State :=
  if !s.mtr.on then s
  else
    let p : Rat := ((s.vbusOf x * s.ibusOf x : Nat) : Rat) / 10
    let all := (List.range 21).map fun k => (k, s.consumerPower x k)
    let each := all.filter fun e => decide (0 < e.2)
    let sum : Rat := (((each.map fun e => e.2).sum : Int) : Rat)
    let scale : Rat := if sum ≤ p then 1 else p / sum
    let s1 := each.foldl (fun (t : State) e => t.charge (s.consumerOwner e.1) ((e.2 : Rat) * scale / 500)) s
    let s2 := s1.charge 0 (if sum ≤ p then (p - sum) / 500 else 0)
    let show_ (t : State) (e : Nat × Int) : State :=
      (t.set (MTR_CONS_OWNER e.1) (s.consumerOwner e.1)).setInt (MTR_CONS_POWER e.1) e.2
    let s3 := all.foldl show_ { s2 with mtr := { s2.mtr with bus := s2.mtr.bus + p / 500 } }
    [0, 1].foldl (fun (t : State) st => match (t.arbOf st).job with
      | some j => t.modAcct j.owner fun a => if st = 0 then { a with held0 := a.held0 + 1 } else { a with held1 := a.held1 + 1 }
      | none => t) s3

/-- A tick of station time is counted for the deficits (R396). -/
def State.usedTick (s : State) : State :=
  [0, 1].foldl (fun (t : State) st => match (t.arbOf st).job with
    | some j =>
      if j.kind.house ∨ j.kind = .maint then t
      else
        let n := ((t.arb.used.find? fun e => e.1 == j.tenant).map (·.2)).getD 0
        { t with arb := { t.arb with used := (t.arb.used.filter fun e => e.1 != j.tenant) ++ [(j.tenant, n + 1)] } }
    | none => t) s

/-! ### PROGRESS (R308) -/

/-- Frames verified so far of the extent that this device writes for a peer's unit. -/
def State.verified (s : State) (h : Incoming) : Nat :=
  (s.chn.ext.toList.findSome? fun e => match e with
    | some x => if x.peer = some (h.src, h.xid) then some (1154 - x.left) else none
    | none => none).getD 0

/-- A unit held for a peer is reported on every 10 ms. -/
def State.progressTick (s : State) : State :=
  (s.plc.held.filter fun h => decide (h.progAt + 5000 ≤ s.tick)).foldl (fun (t : State) h =>
    (t.tell h.src pmProgress h.xid [s.verified h]).modPlc fun p =>
      { p with held := p.held.map fun y => if y.src = h.src ∧ y.xid = h.xid then { y with progAt := s.tick } else y }) s

/-! ### REHINT (R399, R441) -/

/-- A deferred command whose position has changed, or whose estimate has moved by more than REHINT_MS, receives a REHINT, at
most one per epoch. -/
def State.hintOne (s : State) (c : Cmd) : State :=
  match (if c.deferred && !c.started && c.hinted != some (s.get TICK_EPOCH_EPOCH) then s.jobOf c else none) with
  | none => s
  | some j =>
    let e := s.tick / 500 + s.estimate j
    if s.position j ≠ c.pos ∨ s.get CMD_ADM_CFG_REHINT_MS < (e - c.est) + (c.est - e) then s.rehint c.id else s

/-- Estimates are computed afresh every 500 ticks. -/
def State.hintTick (s : State) : State := if s.tick % 500 = 0 then s.cmd.cmds.foldl State.hintOne s else s

/-! ### The boundary -/

/-- The command whose REG_WRITE of a page word waits for room (R113). -/
def State.waiter (s : State) (w : Path × Nat × Word) : Option Cmd :=
  s.cmd.cmds.find? fun c => c.op == opRegWrite && c.started && c.path == w.1 && c.e.arg0.toNat == w.2.1 && c.e.arg1 == w.2.2

/-- A page write that waited is made once the boundary has emptied the buffer, and its REG_WRITE completes (R76, R113); it
waits on where there is still no room. -/
def State.waitedWrite (s : State) (w : Path × Nat × Word) : State :=
  let t := s.writePage w.1 ((w.2.1 - 0x24000) / 0x100) ((w.2.1 - 0x24000) % 0x100 / 4) w.2.2
  if s.ce.wwait.length < t.ce.wwait.length then t
  else match s.waiter w with
    | some c => { t with wstat := s.wstat }.finishWith c t.wstat
    | none => { t with wstat := s.wstat }

def State.waitedWrites (s : State) : State :=
  s.ce.wwait.foldl State.waitedWrite { s with ce := { s.ce with wwait := [] } }

/-- The collector at the boundary that ends a tick (R32, R553, R557): the self-check and the collection belong to the tick
that ends, the reactions to the messages of the tick before it act at the boundary.
DEDUCED (notes/assumptions/19.md, unsafe). -/
def State.boundaryFaults (s : State) (ok : Bool) : State :=
  let due := s.flt.due
  let s1 := ({ s with flt := { s.flt with due := [] } }.selfCheck ok).collect
  let fresh := s1.flt.due
  let s2 : State := { s1 with flt := { s1.flt with due := due }, tick := s.tick + 1 }.react
  (({ s2 with flt := { s2.flt with due := fresh } }).stnShow 0).stnShow 1

/-- A tick begins: EN clears of the last tick are forgotten (R77), the cycles of the last tick have passed, and the tick takes its
length: that of a phase step, else the slewed one its report gives where discipline is enabled and the last slewed tick lies
8 ticks back, else 1,600 (R57, R61, R62). -/
def State.beginTick (s : State) (x : Samples) : State :=
  let free := s.flag TICK_CTL_DISC_EN && match s.ce.slewAt with
    | some t => decide (t + 8 ≤ s.tick + 1)
    | none => true
  let slew := if free then x.slew else .none
  let len := match s.ce.stepLen, slew with
    | some l, _ => l
    | none, .shorter => 1599
    | none, .longer => 1601
    | none, .none => 1600
  let slewed := decide (slew ≠ .none) && s.ce.stepLen.isNone
  { s with ce := { s.ce with
    enClr := [], cycles := s.ce.cycles + s.ce.tickLen, tickLen := len, stepLen := none
    slewAt := if slewed then some (s.tick + 1) else s.ce.slewAt } }

/-- The boundary: the collector, mode changes (R33), committed transactions in ascending domain order (R526, R531), pending
page words (R113) and the end of an epoch.
DEDUCED (notes/assumptions/16.md, unsafe). -/
def State.boundary (s : State) (ok : Bool) : State :=
  let s1 := (s.boundaryFaults ok).modeTick
  let s2 := (List.range 4).foldl (fun (t : State) d => t.applyTxn d) s1
  let s3 := s2.applyWbuf.waitedWrites
  s3.when s3.epochDue State.epochEnd

/-- The analogue core after the boundary: samples, stations, bridges, pickups, the channel, profile units, the control-engine schedule and the
trace units. -/
def State.coreTick (x : Samples) (s : State) : State :=
  let s1 := State.spnTick x (State.spnTick x (State.pwrTick x s) 0) 1
  let s2 := ((List.range 4).foldl (State.puTick x) s1).chnTick
  let s3 := State.magInputs x ((List.range 7).foldl State.stepperTick ([axZ, axX].foldl State.followTick ((List.range 7).foldl (State.axTick x) s2)))
  let s4 := (List.range 4).foldl State.rampTick (State.phaseTick x (State.phaseTick x (s3.runSchedule x) 0) 1)
  s4.traceTicks x s3.ce.outs

/-- The digital shell after the boundary. -/
def State.shellTick (x : Samples) (s : State) : State :=
  let s1 := (State.meterTick x (State.netTick x s).arbTick).usedTick
  let s2 := (State.mr4Tick x (s1.hintTick.progressTick.scrubTick)).writeStart
  (s2.setFlag PLC_STAT_PLACE_OK (s2.mode == modeServe && s2.flag PLC_STAT_DM_VALID && !s2.flag PLC_STAT_STALE)).arbShow

/-- A tick boundary passes (R31, R58). While reset is held there is no tick, and a stopped boot ROM leaves only the count.
DEDUCED (notes/assumptions/16.md, unsafe). -/
def State.tickPasses (s : State) (x : Samples) : State :=
  if s.sys.boot = .held then s
  else if s.sys.boot = .stopped then { s with tick := s.tick + 1 }
  else State.shellTick x (State.coreTick x ((s.beginTick x).boundary x.checkOk))

end Sys2Proof.Machine
end

