-- ==== Sys2Proof/Machine/Tick.lean ====
section
/-!
DEFINITION. The meanings of the commands of time: tick boundary, PTP second and epoch boundary (R31, R57 to R67).
-/

namespace Sys2Proof.Machine

open Sys2Proof

/-- TICK_BOUNDARY (R31): `x` is what the device samples at the boundary.
DESIGN CHOICE (notes/assumptions/2.md, safe).
DEDUCED (notes/assumptions/16.md, unsafe).
DESIGN CHOICE (notes/assumptions/17.md, safe). -/
def execTickBoundary (x : Samples) (s : State) : Out := .next (s.tickPasses x)

/-- PTP_SECOND (R60 to R67): the phase measured in CE cycles, the rate correction learned, the PTP seconds.
DEDUCED (notes/assumptions/18.md, unsafe). -/
def execPtpSecond (phase rate : BitVec 32) (sec : BitVec 48) (s : State) : Out :=
  .next (if s.flag TICK_STAT_PTP_VALID then s.secondPasses phase.toInt rate sec.toNat else s)

/-- EPOCH_BOUNDARY (R65, R67, R396, R438): an epoch that is due ends. TICK_BOUNDARY ends it itself, so the event finds
nothing left to do after it. -/
def execEpochBoundary (s : State) : Out := .next (if s.epochDue then s.epochEnd else s)

end Sys2Proof.Machine
end

