-- ==== Sys2Proof/Machine/Dispatch.lean ====
section
/-!
DEFINITION. One arm per command: a command that has its meaning calls it, one that has none yet is rejected by name.
-/

namespace Sys2Proof.Machine

open Sys2Proof

def exec (i : Instr) (s : State) : Host.Outcome State Fault Refusal :=
  match i with
  | .powerOnReset => Sys2Proof.Machine.execPowerOnReset s
  | .resetPin => Sys2Proof.Machine.execResetPin s
  | .watchdogReset => Sys2Proof.Machine.execWatchdogReset s
  | .brownout => Sys2Proof.Machine.execBrownout s
  | .powerGood a b => Sys2Proof.Machine.execPowerGood a b s
  | .jackStageDone ok board => Sys2Proof.Machine.execJackStageDone ok board s
  | .bootComplete => Sys2Proof.Machine.execBootComplete s
  | .portLinkUp port => Sys2Proof.Machine.execPortLinkUp port s
  | .portLinkDown port => Sys2Proof.Machine.execPortLinkDown port s
  | .linkHiSer port => Sys2Proof.Machine.execLinkHiSer port s
  | .portEnable p port en => Sys2Proof.Machine.execPortEnable p port en s
  | .d2dFlitCrcFail side failed => Sys2Proof.Machine.execD2dFlitCrcFail side failed s
  | .d2dLinkLoss side => Sys2Proof.Machine.execD2dLinkLoss side s
  | .tickBoundary x => Sys2Proof.Machine.execTickBoundary x s
  | .tickOverrun arg => Sys2Proof.Machine.execTickOverrun arg s
  | .followErr n => Sys2Proof.Machine.execFollowErr n s
  | .ptpSecond phase rate sec => Sys2Proof.Machine.execPtpSecond phase rate sec s
  | .ptpValidityChange valid => Sys2Proof.Machine.execPtpValidityChange valid s
  | .epochBoundary => Sys2Proof.Machine.execEpochBoundary s
  | .meterMinuteClose => Sys2Proof.Machine.execMeterMinuteClose s
  | .syncInPulse frac falling => Sys2Proof.Machine.execSyncInPulse frac falling s
  | .syncTimeout => Sys2Proof.Machine.execSyncTimeout s
  | .ceAuxEnable p slot en => Sys2Proof.Machine.execCeAuxEnable p slot en s
  | .cePageWrite p n w v => Sys2Proof.Machine.execCePageWrite p n w v s
  | .wbufGate p gate => Sys2Proof.Machine.execWbufGate p gate s
  | .traceArm p n => Sys2Proof.Machine.execTraceArm p n s
  | .traceForce p n => Sys2Proof.Machine.execTraceForce p n s
  | .traceAck p n => Sys2Proof.Machine.execTraceAck p n s
  | .traceDone n => Sys2Proof.Machine.execTraceDone n s
  | .traceRdataRead p n => Sys2Proof.Machine.execTraceRdataRead p n s
  | .latchedPairRead p pair => Sys2Proof.Machine.execLatchedPairRead p pair s
  | .indexDataAccess p reg write => Sys2Proof.Machine.execIndexDataAccess p reg write s
  | .modeReqProvision p => Sys2Proof.Machine.execModeReqProvision p s
  | .modeReqServe p => Sys2Proof.Machine.execModeReqServe p s
  | .modeReqDrain p => Sys2Proof.Machine.execModeReqDrain p s
  | .modeReqMaintain p => Sys2Proof.Machine.execModeReqMaintain p s
  | .modeReqOther p target => Sys2Proof.Machine.execModeReqOther p target s
  | .modeRequestDecide => Sys2Proof.Machine.execModeRequestDecide s
  | .drainComplete => Sys2Proof.Machine.execDrainComplete s
  | .activationInstant => Sys2Proof.Machine.execActivationInstant s
  | .actDrainTmo => Sys2Proof.Machine.execActDrainTmo s
  | .safeStopBridgesOff => Sys2Proof.Machine.execSafeStopBridgesOff s
  | .sysRst p key devRst => Sys2Proof.Machine.execSysRst p key devRst s
  | .recoveringEnd => Sys2Proof.Machine.execRecoveringEnd s
  | .acquire p n layer turn => Sys2Proof.Machine.execAcquire p n layer turn s
  | .layerJump p n layer => Sys2Proof.Machine.execLayerJump p n layer s
  | .seek p n turn => Sys2Proof.Machine.execSeek p n turn s
  | .opuPark p n => Sys2Proof.Machine.execOpuPark p n s
  | .readMode p n => Sys2Proof.Machine.execReadMode p n s
  | .writeMode p n => Sys2Proof.Machine.execWriteMode p n s
  | .opuEnable p n en => Sys2Proof.Machine.execOpuEnable p n en s
  | .wiForce p n => Sys2Proof.Machine.execWiForce p n s
  | .focusCapture n => Sys2Proof.Machine.execFocusCapture n s
  | .focusSweepEnd n => Sys2Proof.Machine.execFocusSweepEnd n s
  | .saSettleDone n => Sys2Proof.Machine.execSaSettleDone n s
  | .ljCapture n => Sys2Proof.Machine.execLjCapture n s
  | .layerJumpDone n => Sys2Proof.Machine.execLayerJumpDone n s
  | .ljTimeout n => Sys2Proof.Machine.execLjTimeout n s
  | .seekComplete n => Sys2Proof.Machine.execSeekComplete n s
  | .servoField n k r => Sys2Proof.Machine.execServoField n k r s
  | .sfieldLoss n => Sys2Proof.Machine.execSfieldLoss n s
  | .defectDropoutStart n env => Sys2Proof.Machine.execDefectDropoutStart n env s
  | .defectDropoutEnd n env => Sys2Proof.Machine.execDefectDropoutEnd n env s
  | .defectHoldExpiry n => Sys2Proof.Machine.execDefectHoldExpiry n s
  | .reacqDone n => Sys2Proof.Machine.execReacqDone n s
  | .lensRange n => Sys2Proof.Machine.execLensRange n s
  | .writeInhibit n pp shockX shockY => Sys2Proof.Machine.execWriteInhibit n pp shockX shockY s
  | .writeInhibitRearm n => Sys2Proof.Machine.execWriteInhibitRearm n s
  | .laserFault n write => Sys2Proof.Machine.execLaserFault n write s
  | .puOvertemp n => Sys2Proof.Machine.execPuOvertemp n s
  | .frameReceived k frame r => Sys2Proof.Machine.execFrameReceived k frame r s
  | .ldpcAttemptDone k e r => Sys2Proof.Machine.execLdpcAttemptDone k e r s
  | .ladderRungDone n first => Sys2Proof.Machine.execLadderRungDone n first s
  | .relocationWrite n => Sys2Proof.Machine.execRelocationWrite n s
  | .extentWriteStart n => Sys2Proof.Machine.execExtentWriteStart n s
  | .opcDone n errors area control => Sys2Proof.Machine.execOpcDone n errors area control s
  | .opcAck p n => Sys2Proof.Machine.execOpcAck p n s
  | .opcStatRead p n => Sys2Proof.Machine.execOpcStatRead p n s
  | .verifyVerdict n frame r => Sys2Proof.Machine.execVerifyVerdict n frame r s
  | .commitRecordVerdict n r => Sys2Proof.Machine.execCommitRecordVerdict n r s
  | .writeFrontSearch n layer reads => Sys2Proof.Machine.execWriteFrontSearch n layer reads s
  | .indexFrameWrite n layer r => Sys2Proof.Machine.execIndexFrameWrite n layer r s
  | .indexAgeExpiry slot side layer => Sys2Proof.Machine.execIndexAgeExpiry slot side layer s
  | .spin p st target => Sys2Proof.Machine.execSpin p st target s
  | .spnStop p st => Sys2Proof.Machine.execSpnStop p st s
  | .coast p st => Sys2Proof.Machine.execCoast p st s
  | .spnEnable p st en => Sys2Proof.Machine.execSpnEnable p st en s
  | .alignDone st slopes => Sys2Proof.Machine.execAlignDone st slopes s
  | .encoderIndex st count => Sys2Proof.Machine.execEncoderIndex st count s
  | .encLost st => Sys2Proof.Machine.execEncLost st s
  | .observerInvalid st => Sys2Proof.Machine.execObserverInvalid st s
  | .rotorDisagree st => Sys2Proof.Machine.execRotorDisagree st s
  | .rotorLost st => Sys2Proof.Machine.execRotorLost st s
  | .recatchSuccess st speeds agree => Sys2Proof.Machine.execRecatchSuccess st speeds agree s
  | .recatchTimeout st => Sys2Proof.Machine.execRecatchTimeout st s
  | .shortBrakeStart st => Sys2Proof.Machine.execShortBrakeStart st s
  | .shortBrakeEnd st => Sys2Proof.Machine.execShortBrakeEnd st s
  | .spnOvercurrent st leg => Sys2Proof.Machine.execSpnOvercurrent st leg s
  | .atSpeed st => Sys2Proof.Machine.execAtSpeed st s
  | .stopped st => Sys2Proof.Machine.execStopped st s
  | .spinTmo st => Sys2Proof.Machine.execSpinTmo st s
  | .keCheck st => Sys2Proof.Machine.execKeCheck st s
  | .vbusThreshold vbus => Sys2Proof.Machine.execVbusThreshold vbus s
  | .vbus90v vbus => Sys2Proof.Machine.execVbus90v vbus s
  | .uvlo vbus => Sys2Proof.Machine.execUvlo vbus s
  | .holdupEnd st => Sys2Proof.Machine.execHoldupEnd st s
  | .chopperTestPulse ma => Sys2Proof.Machine.execChopperTestPulse ma s
  | .brkStuck ma => Sys2Proof.Machine.execBrkStuck ma s
  | .vinReverse => Sys2Proof.Machine.execVinReverse s
  | .vinReverseClear => Sys2Proof.Machine.execVinReverseClear s
  | .brkHot => Sys2Proof.Machine.execBrkHot s
  | .railFault rail => Sys2Proof.Machine.execRailFault rail s
  | .tjThreshold die temp => Sys2Proof.Machine.execTjThreshold die temp s
  | .tjHwTrip die => Sys2Proof.Machine.execTjHwTrip die s
  | .axStart p a => Sys2Proof.Machine.execAxStart p a s
  | .axStop p a => Sys2Proof.Machine.execAxStop p a s
  | .estop p a => Sys2Proof.Machine.execEstop p a s
  | .axHome p a => Sys2Proof.Machine.execAxHome p a s
  | .axPark p a => Sys2Proof.Machine.execAxPark p a s
  | .axMode p a mode => Sys2Proof.Machine.execAxMode p a mode s
  | .axEnable p a en => Sys2Proof.Machine.execAxEnable p a en s
  | .axProfileWrite p a w v => Sys2Proof.Machine.execAxProfileWrite p a w v s
  | .axMoveDone a => Sys2Proof.Machine.execAxMoveDone a s
  | .axOvercurrent a => Sys2Proof.Machine.execAxOvercurrent a s
  | .limitSwitchChange a input active => Sys2Proof.Machine.execLimitSwitchChange a input active s
  | .limitChatter a input => Sys2Proof.Machine.execLimitChatter a input s
  | .axDetent a => Sys2Proof.Machine.execAxDetent a s
  | .gearChange a => Sys2Proof.Machine.execGearChange a s
  | .homeAll p => Sys2Proof.Machine.execHomeAll p s
  | .moveZx p => Sys2Proof.Machine.execMoveZx p s
  | .load p st slot => Sys2Proof.Machine.execLoad p st slot s
  | .unload p st => Sys2Proof.Machine.execUnload p st s
  | .exchange p st slot => Sys2Proof.Machine.execExchange p st slot s
  | .recover p => Sys2Proof.Machine.execRecover p s
  | .exchangeStepDone => Sys2Proof.Machine.execExchangeStepDone s
  | .gripFail => Sys2Proof.Machine.execGripFail s
  | .pickerWdog => Sys2Proof.Machine.execPickerWdog s
  | .unitPlace => Sys2Proof.Machine.execUnitPlace s
  | .hintReq h asks => Sys2Proof.Machine.execHintReq h asks s
  | .hint h held ver seq energy start => Sys2Proof.Machine.execHint h held ver seq energy start s
  | .bidReq h u policy => Sys2Proof.Machine.execBidReq h u policy s
  | .bid h refusal energy start => Sys2Proof.Machine.execBid h refusal energy start s
  | .bidTimeout xid => Sys2Proof.Machine.execBidTimeout xid s
  | .award h => Sys2Proof.Machine.execAward h s
  | .peerData h seg total data len flags => Sys2Proof.Machine.execPeerData h seg total data len flags s
  | .dataAck h segs => Sys2Proof.Machine.execDataAck h segs s
  | .dataRetransmit xid => Sys2Proof.Machine.execDataRetransmit xid s
  | .progress h => Sys2Proof.Machine.execProgress h s
  | .peerCommitted h hdr => Sys2Proof.Machine.execPeerCommitted h hdr s
  | .peerFailed h reason => Sys2Proof.Machine.execPeerFailed h reason s
  | .progTmo xid dev => Sys2Proof.Machine.execProgTmo xid dev s
  | .readReq h u start len => Sys2Proof.Machine.execReadReq h u start len s
  | .nack h reason => Sys2Proof.Machine.execNack h reason s
  | .tomb h u whole => Sys2Proof.Machine.execTomb h u whole s
  | .tombAck h => Sys2Proof.Machine.execTombAck h s
  | .hintTimeout xid => Sys2Proof.Machine.execHintTimeout xid s
  | .peerDownHoldExpiry dev => Sys2Proof.Machine.execPeerDownHoldExpiry dev s
  | .rereplicationStart => Sys2Proof.Machine.execRereplicationStart s
  | .rebuildDisc slot r => Sys2Proof.Machine.execRebuildDisc slot r s
  | .unreachedSlotRebuild slot => Sys2Proof.Machine.execUnreachedSlotRebuild slot s
  | .migrationStart p slot => Sys2Proof.Machine.execMigrationStart p slot s
  | .migrationStop p => Sys2Proof.Machine.execMigrationStop p s
  | .hostFrameRx port f => Sys2Proof.Machine.execHostFrameRx port f s
  | .pfcFrameRx port prio quanta => Sys2Proof.Machine.execPfcFrameRx port prio quanta s
  | .learnAgeOut mac => Sys2Proof.Machine.execLearnAgeOut mac s
  | .neighbourAgeOut addr => Sys2Proof.Machine.execNeighbourAgeOut addr s
  | .announceTimer => Sys2Proof.Machine.execAnnounceTimer s
  | .ptpMessageRx port m => Sys2Proof.Machine.execPtpMessageRx port m s
  | .ptpAnnounceTimeout port => Sys2Proof.Machine.execPtpAnnounceTimeout port s
  | .roceSend sid len items => Sys2Proof.Machine.execRoceSend sid len items s
  | .roceAckRx sid k => Sys2Proof.Machine.execRoceAckRx sid k s
  | .rdmaReadResponse sid cid data ok => Sys2Proof.Machine.execRdmaReadResponse sid cid data ok s
  | .roceRetryExhausted sid => Sys2Proof.Machine.execRoceRetryExhausted sid s
  | .cnpRx sid => Sys2Proof.Machine.execCnpRx sid s
  | .dcqcnAlphaTimer sid => Sys2Proof.Machine.execDcqcnAlphaTimer sid s
  | .dcqcnRateTimer sid mib10 => Sys2Proof.Machine.execDcqcnRateTimer sid mib10 s
  | .cmReq r => Sys2Proof.Machine.execCmReq r s
  | .cmRtu sid => Sys2Proof.Machine.execCmRtu sid s
  | .cmDreq sid => Sys2Proof.Machine.execCmDreq sid s
  | .cmDrep sid => Sys2Proof.Machine.execCmDrep sid s
  | .svcPlca clash => Sys2Proof.Machine.execSvcPlca clash s
  | .put p e => Sys2Proof.Machine.execPut p e s
  | .get p e => Sys2Proof.Machine.execGet p e s
  | .seal p e => Sys2Proof.Machine.execSeal p e s
  | .delete p e => Sys2Proof.Machine.execDelete p e s
  | .deleteTenant p e => Sys2Proof.Machine.execDeleteTenant p e s
  | .flush p e => Sys2Proof.Machine.execFlush p e s
  | .flushAll p e => Sys2Proof.Machine.execFlushAll p e s
  | .stat p e => Sys2Proof.Machine.execStat p e s
  | .list p e => Sys2Proof.Machine.execList p e s
  | .reserve p e => Sys2Proof.Machine.execReserve p e s
  | .queueRestart p e => Sys2Proof.Machine.execQueueRestart p e s
  | .identify p e => Sys2Proof.Machine.execIdentify p e s
  | .selfTestShort p e => Sys2Proof.Machine.execSelfTestShort p e s
  | .selfTestExtended p e => Sys2Proof.Machine.execSelfTestExtended p e s
  | .selfTestAbort p e => Sys2Proof.Machine.execSelfTestAbort p e s
  | .selfTestStep ok src finished bad => Sys2Proof.Machine.execSelfTestStep ok src finished bad s
  | .selfTestAck p => Sys2Proof.Machine.execSelfTestAck p s
  | .getLog p e => Sys2Proof.Machine.execGetLog p e s
  | .meterRead p e => Sys2Proof.Machine.execMeterRead p e s
  | .meterAck p e => Sys2Proof.Machine.execMeterAck p e s
  | .attestRequest p e nonce => Sys2Proof.Machine.execAttestRequest p e nonce s
  | .attestFetch p e => Sys2Proof.Machine.execAttestFetch p e s
  | .quoteSigned signature => Sys2Proof.Machine.execQuoteSigned signature s
  | .regRead p e => Sys2Proof.Machine.execRegRead p e s
  | .regWrite p e => Sys2Proof.Machine.execRegWrite p e s
  | .txnBegin p e => Sys2Proof.Machine.execTxnBegin p e s
  | .txnCommit p e => Sys2Proof.Machine.execTxnCommit p e s
  | .txnApply d => Sys2Proof.Machine.execTxnApply d s
  | .txnRollback p e => Sys2Proof.Machine.execTxnRollback p e s
  | .txnTimeout d => Sys2Proof.Machine.execTxnTimeout d s
  | .keyLoad p e blob => Sys2Proof.Machine.execKeyLoad p e blob s
  | .calSave p e => Sys2Proof.Machine.execCalSave p e s
  | .calLoad p e blob => Sys2Proof.Machine.execCalLoad p e blob s
  | .calLoadApply st => Sys2Proof.Machine.execCalLoadApply st s
  | .activateAt p e => Sys2Proof.Machine.execActivateAt p e s
  | .deferredCommandStart st => Sys2Proof.Machine.execDeferredCommandStart st s
  | .jobEnd st delivered => Sys2Proof.Machine.execJobEnd st delivered s
  | .parkTimeout st => Sys2Proof.Machine.execParkTimeout st s
  | .stnWdog st => Sys2Proof.Machine.execStnWdog st s
  | .invLine p => Sys2Proof.Machine.execInvLine p s
  | .invRange p => Sys2Proof.Machine.execInvRange p s
  | .invAll p => Sys2Proof.Machine.execInvAll p s
  | .lock p => Sys2Proof.Machine.execLock p s
  | .unlock p => Sys2Proof.Machine.execUnlock p s
  | .unlockAll p => Sys2Proof.Machine.execUnlockAll p s
  | .cchMaintDone => Sys2Proof.Machine.execCchMaintDone s
  | .cacheRead addr => Sys2Proof.Machine.execCacheRead addr s
  | .cacheWrite addr bytes => Sys2Proof.Machine.execCacheWrite addr bytes s
  | .cacheFillDone => Sys2Proof.Machine.execCacheFillDone s
  | .dramRead addr upset => Sys2Proof.Machine.execDramRead addr upset s
  | .dramPartialWrite addr bytes upset => Sys2Proof.Machine.execDramPartialWrite addr bytes upset s
  | .sramRead id offset upset => Sys2Proof.Machine.execSramRead id offset upset s
  | .writeRaw p target => Sys2Proof.Machine.execWriteRaw p target s
  | .readRaw p target => Sys2Proof.Machine.execReadRaw p target s
  | .readCorr p target => Sys2Proof.Machine.execReadCorr p target s
  | .flashRead by_ tag addr len => Sys2Proof.Machine.execFlashRead by_ tag addr len s
  | .flashCheck by_ tag addr len => Sys2Proof.Machine.execFlashCheck by_ tag addr len s
  | .flashBlankCheck by_ tag addr len => Sys2Proof.Machine.execFlashBlankCheck by_ tag addr len s
  | .flashProgram urgent addr data => Sys2Proof.Machine.execFlashProgram urgent addr data s
  | .flashErase addr => Sys2Proof.Machine.execFlashErase addr s
  | .flashOpDone reading ok upset => Sys2Proof.Machine.execFlashOpDone reading ok upset s
  | .flCmplRead p => Sys2Proof.Machine.execFlCmplRead p s
  | .flRefreshStart p => Sys2Proof.Machine.execFlRefreshStart p s
  | .flRefreshStop p => Sys2Proof.Machine.execFlRefreshStop p s
  | .flashRefreshDue => Sys2Proof.Machine.execFlashRefreshDue s
  | .calStart p mask autoEn stn => Sys2Proof.Machine.execCalStart p mask autoEn stn s
  | .calAbort p => Sys2Proof.Machine.execCalAbort p s
  | .calAck p => Sys2Proof.Machine.execCalAck p s
  | .calProcedureDone proc stn words offs => Sys2Proof.Machine.execCalProcedureDone proc stn words offs s
  | .autoCampaignStart st => Sys2Proof.Machine.execAutoCampaignStart st s
  | .faultMessage src kind arg => Sys2Proof.Machine.execFaultMessage src kind arg s
  | .stnHoldExpiry st => Sys2Proof.Machine.execStnHoldExpiry st s
  | .fltStnRel p st => Sys2Proof.Machine.execFltStnRel p st s
  | .fltInject p => Sys2Proof.Machine.execFltInject p s
  | .fltSevWrite p v => Sys2Proof.Machine.execFltSevWrite p v s
  | .fallbackMessage src kind arg => Sys2Proof.Machine.execFallbackMessage src kind arg s
  | .hedgehogSlice ok msgs => Sys2Proof.Machine.execHedgehogSlice ok msgs s
  | .hedgehogCycleStart => Sys2Proof.Machine.execHedgehogCycleStart s
  | .runNow p => Sys2Proof.Machine.execRunNow p s
  | .bistScanStart p => Sys2Proof.Machine.execBistScanStart p s
  | .owlFreeze => Sys2Proof.Machine.execOwlFreeze s
  | .owlRelease p => Sys2Proof.Machine.execOwlRelease p s
  | .owlFlushAck p => Sys2Proof.Machine.execOwlFlushAck p s
  | .owlMark p v => Sys2Proof.Machine.execOwlMark p v s
  | .getChallenge => Sys2Proof.Machine.execGetChallenge s
  | .toField confirm fuseOk => Sys2Proof.Machine.execToField confirm fuseOk s
  | .issue fuseOk => Sys2Proof.Machine.execIssue fuseOk s
  | .returnPart fuseOk => Sys2Proof.Machine.execReturnPart fuseOk s
  | .debugOpen => Sys2Proof.Machine.execDebugOpen s
  | .revokeSlot fuseOk => Sys2Proof.Machine.execRevokeSlot fuseOk s
  | .metaMessage => Sys2Proof.Machine.execMetaMessage s
  | .updChunk bundle index count dataLen data => Sys2Proof.Machine.execUpdChunk bundle index count dataLen data s
  | .bundleVerdict => Sys2Proof.Machine.execBundleVerdict s
  | .activationWriteStart => Sys2Proof.Machine.execActivationWriteStart s
  | .componentWritten => Sys2Proof.Machine.execComponentWritten s
  | .trngFail test => Sys2Proof.Machine.execTrngFail test s
  | .logicScanEnd fail patterns => Sys2Proof.Machine.execLogicScanEnd fail patterns s
  | .peerReadTimeout xid => Sys2Proof.Machine.execPeerReadTimeout xid s
  | .autoNegotiationDone port ok => Sys2Proof.Machine.execAutoNegotiationDone port ok s
  | .linkTrainingDone port => Sys2Proof.Machine.execLinkTrainingDone port s
  | .servicePhyLinkChange up => Sys2Proof.Machine.execServicePhyLinkChange up s
  | .ackTimeoutRetry sid => Sys2Proof.Machine.execAckTimeoutRetry sid s
  | .calResRead p => Sys2Proof.Machine.execCalResRead p s
  | .bistScanStatRead p => Sys2Proof.Machine.execBistScanStatRead p s

end Sys2Proof.Machine
end

