-- ==== Sys2Proof/Machine/Step.lean ====
section
/-!
DEFINITION. The step: the command at the front of the queue takes its effect on the state with the queue's rest. With
nothing waiting the block idles; time passes only by the commands TICK_BOUNDARY and PTP_SECOND (notes/assumptions/2.md).
-/

namespace Sys2Proof.Machine

open Sys2Proof

/-- One step.
DESIGN CHOICE (notes/assumptions/2.md, safe). -/
def step (s : State) : Host.Outcome State Fault Refusal :=
  match s.pending with
  | [] => .next s
  | c :: rest => exec c { s with pending := rest }

/-- The state with a command put at the front of its queue. -/
def State.push (s : State) (c : Instr) : State := { s with pending := c :: s.pending }

/-- The state with the command that a table word spells at the front of its queue; unchanged where it spells none.
DESIGN CHOICE (notes/assumptions/3.md, safe). -/
def State.withFetchWord (s : State) (nbits w : Nat) : State :=
  match decodeTableWord nbits w with
  | some c => s.push c
  | none => s

end Sys2Proof.Machine
end

