-- ==== Sys2Proof/Safety.lean ====
section
/-!
DEFINITION. The terms in which claims about the block are stated: the canonical form of its stores, the gate of a register
write, which registers two states share, and what a safe run is.
-/

namespace Sys2Proof.Machine

open Sys2Proof

/-- The register store is in canonical form. -/
abbrev State.regsWf (s : State) : Prop := swf resetWord s.regs = true

/-- The memories are in canonical form: the DRAM, the SRAM test rows and the flash cells. -/
abbrev Memory.wf (s : State) : Prop :=
  swf dramDefault s.mem.dram = true ∧ swf (fun _ => (0 : BitVec 13)) s.mem.rows = true ∧
    swf (fun _ => (0xFF : Byte)) s.flash.cells = true

/-- The invariant that every step keeps: the register store and the memories are in canonical form; the Owl holds at most
4,096 events (Table: Owl) and 256 bus samples. -/
abbrev State.Inv (s : State) : Prop :=
  s.regsWf ∧ Memory.wf s ∧ s.owl.ring.length ≤ 4096 ∧ s.owl.vbus.length ≤ 256

/-- A register write by the path passes the gate (R41, R377, R378, R518). -/
abbrev State.opens (s : State) (p : Path) : Prop := s.silent p = false ∧ s.writeRefusal p = none

/-- Two states agree on every word of the register store outside `A`. -/
abbrev sameRegs (A : Nat → Prop) (s t : State) : Prop := ∀ a, ¬ A a → t.reg a = s.reg a

/-- The words of a block's registers: `b` is the block's number (Table: Block bases). -/
abbrev inBlock (b : Nat) (a : Nat) : Prop := a / 0x10000 = b

/-- The words that raising a fault changes: COUNT, LAST and TICK of the sources, and the fall-back latches. -/
abbrev faultWord (a : Nat) : Prop := 0x1400000 ≤ a ∨ inBlock 0xF a

/-- A word of no listed block and of no fault record: what a command whose effect lies in those blocks leaves. -/
abbrev outside (blocks : List Nat) (a : Nat) : Prop := a / 0x10000 ∉ blocks ∧ ¬ faultWord a

/-- No command, open version, search, tombstone or migration is in progress: nothing comes due among the commands. -/
abbrev State.still (s : State) : Prop :=
  s.cmd.cmds = [] ∧ s.plc.opens = [] ∧ s.plc.searches = [] ∧ s.plc.tombJobs = [] ∧ s.plc.mig = none

/-- Beside that no unit is being placed and no deferred error waits: nothing follows from a command but its own effect. -/
abbrev State.quiet (s : State) : Prop := s.still ∧ s.plc.units = [] ∧ s.cmd.deferredErr = []

/-- A peer message is acted on (R315, R318): SERVE or DRAIN, a good tag, and domain, epoch and map tag of the applied map. -/
abbrev State.hears (s : State) (h : PeerHdr) : Prop :=
  (s.mode = modeServe ∨ s.mode = modeDrain) ∧ h.auth = true ∧ s.flag PLC_STAT_DM_VALID = true ∧ h.domain = s.domainId ∧
    h.epoch.toNat = s.get PLC_DM_EPOCH_EPOCH ∧ h.tag = s.mapTag

/-- A peer request has not been answered within the last second (R319). -/
abbrev State.fresh (s : State) (h : PeerHdr) : Prop :=
  (s.plc.answered.any fun a => a.1 == h.src.toNat && a.2.1 == h.xid.toNat && decide (s.tick < a.2.2.2 + 500000)) = false

/-- The messages sent to peers from `s` to `t`: receiver and type. -/
abbrev told (s t : State) (l : List (Nat × Nat)) : Prop :=
  (t.plc.out.drop s.plc.out.length).map (fun m => (m.dst, m.type)) = l

/-- An entry of the path is answered at once: over the answering service port, or on an idle management session. -/
abbrev State.clear (s : State) (p : Path) : Prop :=
  s.silent p = false ∧ s.mgmtPath p = true ∧ s.cmdsOf p = [] ∧
    ((s.sessOf p).all fun x => !x.frozen && x.arrivals.isEmpty && decide (0 < x.depth)) = true

/-- The device is in SERVE with one data session `x`, whose tenant has a contract: the session is idle, and no command,
search, tombstone or migration is in progress. An object may be open. -/
abbrev State.serves (s : State) (x : Session) : Prop :=
  s.mode = modeServe ∧ s.get UPD_STAT_STATE ≠ 5 ∧ s.cmd.sessions = [x] ∧ x.mgmt = false ∧ x.frozen = false ∧ x.arrivals = [] ∧
    0 < x.depth ∧ s.contract x.tenant = true ∧ s.flag SYS_STAT_RECOVERING = false ∧ s.cmd.cmds = [] ∧ s.cmd.deferredErr = [] ∧
    s.plc.searches = [] ∧ s.plc.tombJobs = [] ∧ s.plc.mig = none

/-- The entry's estimate lies within the time for which a command is accepted at once (R389, step 9). -/
abbrev State.prompt (s : State) (p : Path) (op : Nat) (e : Entry) : Prop :=
  (s.newCmd p op e).2.cmdEstimate (s.newCmd p op e).1 ≤ s.get CMD_ADM_CFG_DEFER_MS

/-- The last completion entry written. -/
def State.lastEntry (s : State) : Option Completion := s.cmd.done.getLast?

/-- From `s` to `t` one entry was written: the final entry of `e` on path `p`, with a status. -/
abbrev replied (s t : State) (p : Path) (e : Entry) (code : Nat) : Prop :=
  t.cmd.done.length = s.cmd.done.length + 1 ∧
    (t.lastEntry.map fun k => (k.path, k.cid, k.status, k.interim)) = some (p, e.cid, code, false)

/-- A step goes on: it answers a next state. -/
def Goes (s : State) : Prop := ∃ t, step s = .next t

/-- A run of `n` steps that no fault and no refusal ends. -/
def SafeRun (n : Nat) (s : State) : Prop := ∃ t, Host.Core.run Sys2Proof.core n s = .next t

end Sys2Proof.Machine
end

