-- ==== Sys2Proof/WellFormed.lean ====
section
/-!
DEFINITION. Which commands are well formed: the lists and numbers among their operands keep the sizes that the spec's
tables give them. The operand types keep every other bound (a pickup is a `Fin 4`, an entry's fields have their widths).
`exec` gives every command a meaning, well formed or not; this predicate says what the block's own sensors and its
transport can deliver.
-/

namespace Sys2Proof

/-- The report of a tick boundary: 48 ADC channels (Table: CE input IDs), two stations, four pickups, seven axes, 21
consumers of R425. -/
def Samples.wf (x : Samples) : Bool :=
  decide (x.adc.length ≤ 48) && decide (x.encoder.length ≤ 2) && decide (x.consumers.length ≤ 21) &&
  decide (x.speed.length ≤ 2) && decide (x.obsSpeed.length ≤ 2) && decide (x.obsAngle.length ≤ 2) && decide (x.legs.length ≤ 6) && decide (x.twoHigh.length ≤ 2) &&
  decide (x.obsRes.length ≤ 2) && decide (x.bemf.length ≤ 2) && decide (x.wrMon.length ≤ 4) &&
  decide (x.switches.length ≤ 7) && decide (x.fecCorr.length ≤ 2) && decide (x.fecUncorr.length ≤ 2)

/-- A servo field is one of the 2,880 of a revolution (R128). -/
def FieldRead.wf (r : FieldRead) : Bool := decide (r.field.toNat < 2880)

/-- The end of an LDPC attempt: 4,096 parity checks (R196), at most the 4,096 bytes of a frame. -/
def LdpcResult.wf (r : LdpcResult) : Bool := decide (r.unsat.toNat ≤ 4096) && decide (r.payload.length ≤ 4096)

/-- A well-formed command. -/
def Instr.wf : Instr → Bool
  | .tickBoundary x => x.wf
  | .servoField _ _ r => r.wf
  -- one sample per channel bit of a frame (Table: Detection chain per spot)
  | .frameReceived _ _ r => decide (r.samples.length ≤ 55616)
  | .ldpcAttemptDone _ _ r => r.wf
  -- the steps of a calibration run (R205)
  | .opcDone _ errors _ _ => decide (errors.length ≤ 11)
  -- the logical frames of an extent that are verified (R207)
  | .verifyVerdict _ frame _ => decide (frame.toNat < 1154)
  | .jackStageDone ok _ => decide (ok.length ≤ 4)
  -- segments are numbered from 0 (R319)
  | .peerData _ seg total _ _ _ => decide (seg.toNat < total.toNat)
  -- the size of SIG (Table: Quote)
  | .quoteSigned signature => decide (signature.length = 29792)
  | .updChunk _ _ _ n data => decide (data.length = n.toNat)
  -- the payload has the length that the entry states (Table: Submission entry)
  | .keyLoad _ e blob => decide (blob.length = e.len.toNat)
  | .calLoad _ e blob => decide (blob.length = e.len.toNat)
  -- bytes of one granule (R467)
  | .dramPartialWrite a bytes _ => decide (a.toNat % 32 + bytes.length ≤ 32)
  -- a cache write stays in its line (R451)
  | .cacheWrite a bytes => decide (a.toNat % 64 + bytes.length ≤ 64)
  -- R479
  | .flashProgram _ _ data => decide (16 ≤ data.length) && decide (data.length ≤ 4096) && decide (data.length % 16 = 0)
  | _ => true

end Sys2Proof
end

