-- ==== Sys2Proof/Certificates/Slice0/Obligations.lean ====
section
/-!
DEFINITION. The statements for the provers. Each is about the machine, over every state and operands that meet its
hypotheses. A clause of the form "there is t with exec c s = next t and ..." says where the command c completes and what
the next state holds.
-/

open Sys2Proof Sys2Proof.Machine


/-- POWER_ON_RESET starts SYS_RST_CAUSE from bit 0 and loses the Owl ring; RESET_PIN, BROWNOUT, an armed WATCHDOG_RESET, a
  SYS_RST write with the key and the end of a logic scan reset a running device, add their bit and keep the Owl ring.
  After each the device holds reset, the flash cells and the waiting commands are as before. With no activation
  pending, a register that RESET_PIN does not keep reads its reset word. While reset is held RESET_PIN only sets its
  bit. A SYS_RST write with another key is refused and changes nothing but the service port's message count. (R493,
  R494, R495, R496, R514, R54, R55, R572, R14.) -/
def Obligations.ResetSourcesHoldReset : Prop :=
  (∀ (s : State), ∃ t, exec .powerOnReset s = .next t ∧ t.sys.boot = .held ∧ t.reg SYS_RST_CAUSE = 0x1 ∧ t.owl.ring =
    [] ∧ t.flash.cells = s.flash.cells ∧ t.pending = s.pending) ∧
  (∀ (s : State), s.sys.boot ≠ .held → ∃ t, exec .resetPin s = .next t ∧ t.sys.boot = .held ∧ t.reg SYS_RST_CAUSE =
    s.reg SYS_RST_CAUSE ||| 0x2 ∧ t.owl.ring = s.owl.ring ∧ t.flash.cells = s.flash.cells ∧ (s.flag
    SYS_STAT_ACT_PENDING = false → ∀ a, a ∉ [SYS_RST_CAUSE, SEC_LC, OWL_STAT, BIST_SCAN_STAT] → t.reg a = resetWord
    a)) ∧
  (∀ (s : State), s.sys.boot = .held → ∃ t, exec .resetPin s = .next t ∧ t.reg SYS_RST_CAUSE = s.reg SYS_RST_CAUSE |||
    0x2 ∧ (∀ a, a ≠ SYS_RST_CAUSE → t.reg a = s.reg a)) ∧
  (∀ (s : State), s.sys.boot ≠ .held → ∃ t, exec .brownout s = .next t ∧ t.sys.boot = .held ∧ t.reg SYS_RST_CAUSE =
    s.reg SYS_RST_CAUSE ||| 0x10 ∧ t.owl.ring = s.owl.ring ∧ t.flash.cells = s.flash.cells) ∧
  (∀ (s : State), s.sys.boot ≠ .held → s.sys.wdogArmed = true → ∃ t, exec .watchdogReset s = .next t ∧ t.sys.boot =
    .held ∧ t.reg SYS_RST_CAUSE = s.reg SYS_RST_CAUSE ||| 0x8 ∧ t.owl.ring = s.owl.ring ∧ t.flash.cells =
    s.flash.cells) ∧
  (∀ (p : Path) (s : State), s.silent p = false → s.rstRefusal p = none → ∃ t, exec (.sysRst p 0xA5C3 true) s = .next
    t ∧ t.sys.boot = .held ∧ t.wstat = stOk ∧ t.reg SYS_RST_CAUSE = s.reg SYS_RST_CAUSE ||| 0x4 ∧ t.owl.ring =
    s.owl.ring) ∧
  (∀ (p : Path) (key : BitVec 16) (s : State), s.silent p = false → s.rstRefusal p = none → key ≠ 0xA5C3 → ∃ t, exec
    (.sysRst p key true) s = .next t ∧ t.wstat = stRegRefused ∧ t.sys = s.sys ∧ (∀ a, a ≠ NET_SVC_STAT → t.reg a =
    s.reg a)) ∧
  (∀ (fail : Bool) (patterns : BitVec 29) (s : State), s.bist.scanning = true → s.sys.boot ≠ .held → ∃ t, exec
    (.logicScanEnd fail patterns) s = .next t ∧ t.sys.boot = .held ∧ t.get BIST_SCAN_STAT_RES = 1 ∧ t.flag
    BIST_SCAN_STAT_FAIL = fail ∧ t.get BIST_SCAN_STAT_PATTERNS = patterns.toNat ∧ t.reg SYS_RST_CAUSE = s.reg
    SYS_RST_CAUSE ||| 0x4)

/-- POWER_GOOD counts TICK_COUNT from 0 and starts Jack when a twin is valid, and stops the ROM when none is. The end of
  stage 1, 3 or 6 starts the next stage; stage 1 clears execute-in-place of bank 0, stage 3 makes the DRAM ready,
  stage 6 sets execute-in-place of bank 1 and arms the watchdog. BOOT_COMPLETE with a port up enters PROVISION with
  CAUSE 0x9. The first read of BIST_SCAN_STAT after READY consumes the result. (R497, R498, R502, R506, R420, R34.) -/
def Obligations.StartUpRunsItsStages : Prop :=
  (∀ (a b : Bool) (s : State), s.sys.boot = .held → (s.twinAccepted false a || s.twinAccepted true b) = true → ∃ t,
    exec (.powerGood a b) s = .next t ∧ t.tick = 0 ∧ t.sys.boot = .stage 1) ∧
  (∀ (a b : Bool) (s : State), s.sys.boot = .held → s.twinAccepted false a = false → s.twinAccepted true b = false → ∃
    t, exec (.powerGood a b) s = .next t ∧ t.tick = 0 ∧ t.sys.boot = .stopped) ∧
  (∀ (ok : List Bool) (board : List Byte) (s : State), s.sys.boot = .stage 1 → s.get SYS_STAT_BOOT_WAIT = 0 → ∃ t,
    exec (.jackStageDone ok board) s = .next t ∧ t.sys.boot = .stage 2 ∧ t.get FL_XIP_EN_BANK0 = 0) ∧
  (∀ (ok : List Bool) (board : List Byte) (s : State), s.sys.boot = .stage 3 → s.get SYS_STAT_BOOT_WAIT = 0 → ∃ t,
    exec (.jackStageDone ok board) s = .next t ∧ t.sys.boot = .stage 4 ∧ t.get MEM_DRAM_STAT_READY = 1) ∧
  (∀ (ok : List Bool) (board : List Byte) (s : State), s.sys.boot = .stage 6 → s.get SYS_STAT_BOOT_WAIT = 0 → ∃ t,
    exec (.jackStageDone ok board) s = .next t ∧ t.sys.boot = .stage 7 ∧ t.sys.wdogArmed = true ∧ t.get
    FL_XIP_EN_BANK1 = 1) ∧
  (∀ (s : State), s.mode = modeBoot → s.sys.boot = .done → s.get SYS_STAT_BOOT_WAIT = 0 → s.portUp = true → ∃ t, exec
    .bootComplete s = .next t ∧ t.mode = modeProvision ∧ t.get SYS_MODE_CAUSE = 9 ∧ t.get SYS_MODE_PREV = modeBoot) ∧
  (∀ (p : Path) (s : State), s.silent p = false → s.readRefusal p false = none → s.get BIST_SCAN_STAT_RES = 1 → ∃ t,
    exec (.bistScanStatRead p) s = .next t ∧ t.rdata = [s.reg BIST_SCAN_STAT] ∧ t.get BIST_SCAN_STAT_RES = 2 ∧ t.wstat
    = stOk)

/-- A mode request that passes the gate sets TARGET, advances SEQ (after 255 comes 1), is PENDING until a boundary decides
  it, or is DONE at once when the device is in that mode, and supersedes a request that was pending. The mode itself
  does not change. (R33, R34, R51.) -/
def Obligations.ModeRequestsAreRecorded : Prop :=
  (∀ (p : Path) (m : BitVec 4) (r : Instr) (s : State), (r = .modeReqProvision p ∧ m = 2 ∨ r = .modeReqServe p ∧ m = 3
    ∨ r = .modeReqDrain p ∧ m = 4 ∨ r = .modeReqMaintain p ∧ m = 5 ∨ r = .modeReqOther p m) → s.opens p → ∃ t, exec r
    s = .next t ∧ t.wstat = stOk ∧ t.get SYS_MODE_RES_TARGET = m.toNat ∧ t.get SYS_MODE_RES_COND = 0 ∧ t.get
    SYS_MODE_RES_SEQ = (if s.get SYS_MODE_RES_SEQ = 255 then 1 else s.get SYS_MODE_RES_SEQ + 1) ∧ t.get
    SYS_MODE_RES_RESULT = (if m.toNat = s.mode then 0 else 1) ∧ t.sys.reqPending = (m.toNat != s.mode) ∧
    (s.sys.reqPending = true → t.get SYS_MODE_RES_SUP_SEQ = s.get SYS_MODE_RES_SEQ) ∧ t.mode = s.mode)

/-- MODE_REQUEST_DECIDE with nothing higher due: from PROVISION a request for MAINTAIN is granted; one for SERVE that
  lacks a condition reports PRECONDITION with the missing conditions and leaves the mode; a request in SAFE_STOP is
  REFUSED_TRANSITION and leaves the mode. (R33, R34, R35, R36, R51.) -/
def Obligations.ModeRequestDecided : Prop :=
  (∀ (s : State), s.higherDue = false → s.sys.reqPending = true → s.sys.maintainWaits = false → s.changed = false →
    s.mode = modeProvision → s.get SYS_MODE_RES_TARGET = modeMaintain → ∃ t, exec .modeRequestDecide s = .next t ∧
    t.mode = modeMaintain ∧ t.get SYS_MODE_CAUSE = 1 ∧ t.get SYS_MODE_PREV = modeProvision) ∧
  (∀ (s : State), s.higherDue = false → s.sys.reqPending = true → s.sys.maintainWaits = false → s.changed = false →
    s.mode = modeProvision → s.get SYS_MODE_RES_TARGET = modeServe → s.serveLacks false ≠ 0 → ∃ t, exec
    .modeRequestDecide s = .next t ∧ t.mode = modeProvision ∧ t.get SYS_MODE_RES_RESULT = 3 ∧ t.get SYS_MODE_RES_COND
    = s.serveLacks false ∧ t.sys.reqPending = false) ∧
  (∀ (s : State), s.higherDue = false → s.sys.reqPending = true → s.sys.maintainWaits = false → s.changed = false →
    s.mode = modeSafeStop → ∃ t, exec .modeRequestDecide s = .next t ∧ t.mode = modeSafeStop ∧ t.get
    SYS_MODE_RES_RESULT = 2 ∧ t.sys.reqPending = false)

/-- DRAIN_COMPLETE of a host drain sets DRAIN_DONE and stays in DRAIN; a due ACTIVATION_INSTANT enters MAINTAIN from
  PROVISION and prepares the Jack overwrite there and in MAINTAIN, and in SAFE_STOP cancels the activation with
  OUTCOME 3; ACT_DRAIN_TMO takes DRAIN to MAINTAIN with CAUSE 0xA; RECOVERING_END with every slot settled clears
  RECOVERING; SAFE_STOP_BRIDGES_OFF, when both stations are stopped or SS_TMO has passed, switches the bridges off.
  (R34, R36, R37, R44, R49, R417, R565, R38.) -/
def Obligations.ModesChangeByTheirEvents : Prop :=
  (∀ (s : State), s.sys.safeStopDue = none → s.actDue = false → s.mode = modeDrain → s.sys.drain = .host → s.changed =
    false → s.flag SYS_STAT_DRAIN_DONE = false → s.sys.maintainWaits = false → (∀ x ∈ s.cmd.cmds, x.started = false ∧
    x.op ≠ opFlush) → ∃ t, exec .drainComplete s = .next t ∧ t.flag SYS_STAT_DRAIN_DONE = true ∧ t.mode = modeDrain ∧
    (∀ a, a ≠ SYS_STAT → t.reg a = s.reg a)) ∧
  (∀ (s : State), s.sys.safeStopDue = none → s.mode = modeSafeStop → s.changed = false → s.actDue = true → ∃ t, exec
    .activationInstant s = .next t ∧ t.flag SYS_STAT_ACT_PENDING = false ∧ t.get UPD_ACT_STAT_OUTCOME = 3 ∧ t.mode =
    modeSafeStop) ∧
  (∀ (s : State), s.sys.safeStopDue = none → s.mode = modeProvision → s.changed = false → s.actDue = true → ∃ t, exec
    .activationInstant s = .next t ∧ t.mode = modeMaintain ∧ t.get SYS_MODE_PREV = modeProvision ∧ t.get
    SYS_MODE_CAUSE = mcActivation ∧ t.sys.overwrite = true ∧ t.flag SYS_STAT_ACT_PENDING = false) ∧
  (∀ (s : State), s.sys.safeStopDue = none → s.mode = modeMaintain → s.changed = false → s.actDue = true → ∃ t, exec
    .activationInstant s = .next t ∧ t.mode = modeMaintain ∧ t.sys.overwrite = true ∧ t.flag SYS_STAT_ACT_PENDING =
    false) ∧
  (∀ (s : State), s.sys.safeStopDue = none → s.actExpired = true → ∃ t, exec .actDrainTmo s = .next t ∧ t.mode =
    modeMaintain ∧ t.get SYS_MODE_CAUSE = 10 ∧ t.sys.overwrite = true) ∧
  (∀ (s : State), s.flag SYS_STAT_RECOVERING = true → s.get SYS_STAT_REBUILT = 24 → ∃ t, exec .recoveringEnd s = .next
    t ∧ t.flag SYS_STAT_RECOVERING = false) ∧
  (∀ (s : State), s.bridgesDue = true → ∃ t, exec .safeStopBridgesOff s = .next t ∧ t.sys.bridgesOff = true)

/-- AUTO_NEGOTIATION_DONE takes a negotiating port to training, LINK_TRAINING_DONE to alignment, PORT_LINK_UP to UP with
  its LINK bit; PORT_LINK_DOWN and LINK_HI_SER (after 8 bad ticks) take an UP port down, count it and clear its LINK
  bit, the second with HI_SER set; PORT_ENABLE changes ENABLE and restarts the port. The service PHY reports UP and
  runs PLCA unless its node ID is 255, and a lost beacon raises SVC_PLCA. (R336, R337, R339, R341, R354, R375.) -/
def Obligations.HostPortsComeUpAndGoDown : Prop :=
  (∀ (port : Fin 2) (s : State), s.portState port = 1 → ∃ t, exec (.autoNegotiationDone port true) s = .next t ∧
    t.portState port = 2 ∧ t.get (NET_PORT_STAT_AN_FAIL port) = 0) ∧
  (∀ (port : Fin 2) (s : State), s.portState port = 1 → ∃ t, exec (.autoNegotiationDone port false) s = .next t ∧
    t.portState port = 1 ∧ t.get (NET_PORT_STAT_AN_FAIL port) = 1) ∧
  (∀ (port : Fin 2) (s : State), s.portState port = 2 → ∃ t, exec (.linkTrainingDone port) s = .next t ∧ t.portState
    port = 3 ∧ (∀ a, a ≠ NET_PORT_STAT port → t.reg a = s.reg a)) ∧
  (∀ (port : Fin 2) (s : State), s.portState port = 3 → ∃ t, exec (.portLinkUp port) s = .next t ∧ t.isUp port = true
    ∧ t.flag (if port = 0 then SYS_STAT_LINK_A else SYS_STAT_LINK_B) = true ∧ t.flag (NET_PORT_STAT_HI_SER port) =
    false ∧ t.net.annAt = s.tick) ∧
  (∀ (port : Fin 2) (s : State), s.isUp port = true → ∃ t, exec (.portLinkDown port) s = .next t ∧ t.isUp port = false
    ∧ t.flag (if port = 0 then SYS_STAT_LINK_A else SYS_STAT_LINK_B) = false ∧ t.get (NET_PORT_DOWNS_COUNT port) = min
    (NET_PORT_DOWNS_COUNT port).top (s.get (NET_PORT_DOWNS_COUNT port) + 1)) ∧
  (∀ (port : Fin 2) (s : State), s.isUp port = true → 8 ≤ s.net.serRun[port] → ∃ t, exec (.linkHiSer port) s = .next t
    ∧ t.isUp port = false ∧ t.flag (NET_PORT_STAT_HI_SER port) = true) ∧
  (∀ (p : Path) (port : Fin 2) (en : Bool) (s : State), s.opens p → s.flag (NET_PORT_CTL_ENABLE port) ≠ en → ∃ t, exec
    (.portEnable p port en) s = .next t ∧ t.wstat = stOk ∧ t.flag (NET_PORT_CTL_ENABLE port) = en ∧ t.isUp port =
    false) ∧
  (∀ (up : Bool) (s : State), ∃ t, exec (.servicePhyLinkChange up) s = .next t ∧ t.flag NET_SVC_STAT_UP = up ∧ t.flag
    NET_SVC_STAT_PLCA = (up && s.get NET_SVC_CFG_NODE_ID != 255) ∧ (∀ a, a ≠ NET_SVC_STAT → t.reg a = s.reg a)) ∧
  (∀ (clash : Bool) (s : State), s.flag NET_SVC_STAT_PLCA = true → ∃ t, exec (.svcPlca clash) s = .next t ∧ (t.reg
    (keySrc 0x070 0)).toNat = min 0xFFFFFFFF ((s.reg (keySrc 0x070 0)).toNat + 1) ∧ (∀ a, ¬ faultWord a → t.reg a =
    s.reg a))

/-- D2D_FLIT_CRC_FAIL with fewer than four failed replays adds the failures to CRC_ERR and the replays to REPLAY and
  changes nothing else; the fourth failed replay and D2D_LINK_LOSS clear D2D_UP and, in a mode that SAFE_STOP can
  follow, make SAFE_STOP due with CAUSE 8. (R19, R21, R23, R34.) -/
def Obligations.DieLinkErrorsAreCountedAndLossStops : Prop :=
  (∀ (side : Fin 2) (failed : Fin 5) (s : State), failed.val < 4 → ∃ t, exec (.d2dFlitCrcFail side failed) s = .next t
    ∧ t.get SYS_D2D_CNT_CRC_ERR = min SYS_D2D_CNT_CRC_ERR.top (s.get SYS_D2D_CNT_CRC_ERR + (1 + failed.val)) ∧ t.get
    SYS_D2D_CNT_REPLAY = min SYS_D2D_CNT_REPLAY.top (s.get SYS_D2D_CNT_REPLAY + (failed.val + 1)) ∧ t.sys = s.sys ∧ (∀
    a, a ≠ SYS_D2D_CNT → t.reg a = s.reg a)) ∧
  (∀ (side : Fin 2) (s : State), s.flag SYS_STAT_D2D_UP = true → s.mode = modeServe → s.get UPD_STAT_STATE ≠ 5 →
    s.sys.safeStopDue = none → ∃ t, exec (.d2dFlitCrcFail side 4) s = .next t ∧ t.flag SYS_STAT_D2D_UP = false ∧
    t.sys.safeStopDue = some 8) ∧
  (∀ (side : Fin 2) (s : State), s.flag SYS_STAT_D2D_UP = true → s.mode = modeServe → s.get UPD_STAT_STATE ≠ 5 →
    s.sys.safeStopDue = none → ∃ t, exec (.d2dLinkLoss side) s = .next t ∧ t.flag SYS_STAT_D2D_UP = false ∧
    t.sys.safeStopDue = some 8)

/-- Whatever the samples report, TICK_BOUNDARY of a device not held in reset completes and raises TICK_COUNT by one; with
  the boot ROM stopped it changes nothing else. (R31, R58, R497.) -/
def Obligations.TickBoundaryCountsOneTick : Prop :=
  (∀ (x : Samples) (s : State), s.sys.boot ≠ .held → ∃ t, exec (.tickBoundary x) s = .next t ∧ t.tick = s.tick + 1) ∧
  (∀ (x : Samples) (s : State), s.sys.boot = .stopped → ∃ t, exec (.tickBoundary x) s = .next t ∧ t =
    { s with tick := s.tick + 1 })

/-- PTP_SECOND with discipline on reports the measured phase and the second; PTP_VALIDITY_CHANGE sets PTP_VALID and ends
  or opens holdover; EPOCH_BOUNDARY when due counts the epoch and starts the next at this tick; TICK_OVERRUN records
  and counts the slot; FOLLOW_ERR is raised once; METER_MINUTE_CLOSE counts the minute. (R60, R63, R64, R65, R67, R96,
  R103, R104, R423.) -/
def Obligations.TimeEventsMoveTheTickGenerator : Prop :=
  (∀ (phase rate : BitVec 32) (sec : BitVec 48) (s : State), s.flag TICK_STAT_PTP_VALID = true → s.flag
    TICK_CTL_DISC_EN = true → ∃ t, exec (.ptpSecond phase rate sec) s = .next t ∧ t.reg TICK_PHASE = phase ∧
    t.ce.ptpSec = sec.toNat) ∧
  (∀ (s : State), ∃ t, exec (.ptpValidityChange true) s = .next t ∧ t.flag TICK_STAT_PTP_VALID = true ∧ t.flag
    TICK_STAT_HOLDOVER = false ∧ t.flag NET_PTP_STAT_VALID = true) ∧
  (∀ (s : State), s.flag TICK_STAT_PTP_VALID = true → ∃ t, exec (.ptpValidityChange false) s = .next t ∧ t.flag
    TICK_STAT_PTP_VALID = false ∧ t.flag TICK_STAT_LOCKED = false ∧ t.flag TICK_STAT_HOLDOVER = true) ∧
  (∀ (s : State), s.epochDue = true → ∃ t, exec .epochBoundary s = .next t ∧ t.ce.epTick = s.tick ∧ t.get
    TICK_EPOCH_EPOCH = (s.get TICK_EPOCH_EPOCH + 1) % (TICK_EPOCH_EPOCH.top + 1)) ∧
  (∀ (arg : BitVec 8) (s : State), ∃ t, exec (.tickOverrun arg) s = .next t ∧ t.flag CE_OVR_VALID = true ∧ t.get
    CE_OVR_SLOT = arg.toNat ∧ t.get CE_OVR_COUNT = min CE_OVR_COUNT.top (s.get CE_OVR_COUNT + 1)) ∧
  (∀ (n : Fin 48) (s : State), (s.page n 3).toNat ≠ 0 → (s.page n 3).toNat ≤ s.get (CE_KST_W3_FE_CNT n) → (s.slot
    n).feRaised = false → ∃ t, exec (.followErr n) s = .next t ∧ (t.slot n).feRaised = true ∧ (t.reg (keySrc 0x002
    0)).toNat = min 0xFFFFFFFF ((s.reg (keySrc 0x002 0)).toNat + 1)) ∧
  (∀ (s : State), s.mtr.on = true → s.ce.rephased = false → 60 ≤ s.get MTR_STAT_EPOCH → ∃ t, exec .meterMinuteClose s
    = .next t ∧ t.get MTR_STAT_EPOCH = 0 ∧ t.get MTR_MINUTE_MINUTE = (s.get MTR_MINUTE_MINUTE + 1) %
    (MTR_MINUTE_MINUTE.top + 1))

/-- A SYNC_IN pulse of the edge chosen while capture is enabled records timestamp and cycle and counts; its time-out
  clears VALID. CE_AUX_CTL.EN is set in MAINTAIN and refused elsewhere. A parameter word of a page enters the write
  buffer, without its reserved bits, while that has room and GATE is stored as written. (R29, R76, R97, R98, R100,
  R113, R114.) -/
def Obligations.SynchronisationAndExternalSetPoints : Prop :=
  (∀ (frac : BitVec 11) (falling : Bool) (s : State), s.flag CE_SYNC_CTL_EN = true → s.flag CE_SYNC_CTL_EDGE = falling
    → ∃ t, exec (.syncInPulse frac falling) s = .next t ∧ t.reg CE_SYNC_TS = BitVec.ofNat 32 s.tick ∧ t.get
    CE_SYNC_STAT_FRAC = frac.toNat ∧ t.get CE_SYNC_STAT_PULSES = (s.get CE_SYNC_STAT_PULSES + 1) %
    (CE_SYNC_STAT_PULSES.top + 1)) ∧
  (∀ (s : State), s.flag CE_SYNC_STAT_VALID = true → s.syncOverdue = true → ∃ t, exec .syncTimeout s = .next t ∧
    t.flag CE_SYNC_STAT_VALID = false ∧ (t.reg (keySrc 0x002 0)).toNat = min 0xFFFFFFFF ((s.reg (keySrc 0x002
    0)).toNat + 1)) ∧
  (∀ (p : Path) (slot : BitVec 6) (s : State), s.opens p → s.mode = modeMaintain → ∃ t, exec (.ceAuxEnable p slot
    true) s = .next t ∧ t.wstat = stOk ∧ t.flag CE_AUX_CTL_EN = true ∧ t.get CE_AUX_CTL_SLOT = slot.toNat) ∧
  (∀ (p : Path) (slot : BitVec 6) (s : State), s.opens p → s.mode ≠ modeMaintain → ∃ t, exec (.ceAuxEnable p slot
    true) s = .next t ∧ t.wstat = stRegRefused ∧ (∀ a, a ≠ NET_SVC_STAT → t.reg a = s.reg a)) ∧
  (∀ (p : Path) (n : Fin 48) (w : Fin 64) (v : Word) (s : State), s.opens p → 1 ≤ w.val → w.val ≤ 5 → s.ce.wbuf.length
    < 64 → ∃ t, exec (.cePageWrite p n w v) s = .next t ∧ t.wstat = stOk ∧ (pageAddr n w, if w.val = 3 then v else v
    &&& 0x7FFFFF) ∈ t.ce.wbuf) ∧
  (∀ (p : Path) (gate : Bool) (s : State), s.opens p → ∃ t, exec (.wbufGate p gate) s = .next t ∧ t.wstat = stOk ∧
    t.flag CE_WBUF_CTL_GATE = gate ∧ t.ce = s.ce)

/-- ARM restarts the unit ARMED with no samples; FORCE on an ARMED unit of condition 0 with its PRE samples makes it
  TRIGGERED with PRE samples kept; the last sample makes it DONE and READY; a read while NOT_READY delivers 0, one
  while READY the sample at RDPTR, and each advances RDPTR; ACK of a DONE unit returns it to IDLE and discards the
  samples. (R107, R109, R110, R111, R112.) -/
def Obligations.TraceUnitsArmTriggerAndDeliver : Prop :=
  (∀ (p : Path) (n : Fin 4) (s : State), s.opens p → nodeListed (s.get (CE_TRC_NODE_NODE n)) = true → nodeListed
    (s.get (CE_TRC_TRIG_NODE n)) = true → ∃ t, exec (.traceArm p n) s = .next t ∧ t.wstat = stOk ∧ t.get
    (CE_TRC_STAT_STATE n) = 1 ∧ t.get (CE_TRC_STAT_RES n) = 0 ∧ (t.trace n).samples = []) ∧
  (∀ (p : Path) (n : Fin 4) (s : State), s.opens p → s.get (CE_TRC_TRIG_COND n) = 0 → s.get (CE_TRC_STAT_STATE n) = 1
    → s.get (CE_TRC_PRE_PRE n) ≤ (s.trace n).samples.length → ∃ t, exec (.traceForce p n) s = .next t ∧ t.wstat = stOk
    ∧ t.get (CE_TRC_STAT_STATE n) = 2 ∧ t.get (CE_TRC_STAT_TRIG_IDX n) = s.get (CE_TRC_PRE_PRE n) ∧ (t.trace
    n).samples.length = s.get (CE_TRC_PRE_PRE n)) ∧
  (∀ (n : Fin 4) (s : State), s.get (CE_TRC_STAT_STATE n) = 2 → (s.trace n).left = 0 → ∃ t, exec (.traceDone n) s =
    .next t ∧ t.get (CE_TRC_STAT_STATE n) = 3 ∧ t.get (CE_TRC_STAT_RES n) = 1 ∧ t.ce = s.ce ∧ (∀ a, a ≠ CE_TRC_STAT n
    → t.reg a = s.reg a)) ∧
  (∀ (p : Path) (n : Fin 4) (s : State), s.silent p = false → s.readRefusal p false = none → s.get (CE_TRC_STAT_RES n)
    = 0 → ∃ t, exec (.traceRdataRead p n) s = .next t ∧ t.rdata = [0] ∧ t.wstat = stOk ∧ t.get (CE_TRC_RDPTR_RDPTR n)
    = (s.get (CE_TRC_RDPTR_RDPTR n) + 1) % 16384) ∧
  (∀ (p : Path) (n : Fin 4) (s : State), s.silent p = false → s.readRefusal p false = none → s.get (CE_TRC_STAT_RES n)
    = 1 → ∃ t, exec (.traceRdataRead p n) s = .next t ∧ t.rdata = [((s.trace n).samples[s.get (CE_TRC_RDPTR_RDPTR
    n)]?).getD 0] ∧ t.get (CE_TRC_RDPTR_RDPTR n) = (s.get (CE_TRC_RDPTR_RDPTR n) + 1) % 16384) ∧
  (∀ (p : Path) (n : Fin 4) (s : State), s.opens p → s.get (CE_TRC_STAT_STATE n) = 3 → ∃ t, exec (.traceAck p n) s =
    .next t ∧ t.wstat = stOk ∧ t.get (CE_TRC_STAT_STATE n) = 0 ∧ t.get (CE_TRC_STAT_RES n) = 0 ∧ (t.trace n).samples =
    [])

/-- LATCHED_PAIR_READ delivers the low 32 bits of the live value and latches the high 32 bits for the HI register.
  INDEX_DATA_ACCESS that reads delivers the word its index names and advances the index by one word; one that writes
  COUNT of a fault source clears it and advances. Beside the index only the service port's message count changes. META
  over an answering service port adds one to that count. (R59, R377, R519.) -/
def Obligations.RegisterReadsLatchAndAdvance : Prop :=
  (∀ (p : Path) (pair : PairReg) (s : State), s.silent p = false → s.readRefusal p false = none → ∃ t, exec
    (.latchedPairRead p pair) s = .next t ∧ t.wstat = stOk ∧ t.rdata = [BitVec.ofNat 32 (s.pairOf pair).2.2] ∧
    t.readHigh (s.pairOf pair).2.1 = BitVec.ofNat 32 ((s.pairOf pair).2.2 / 2 ^ 32) ∧ t.tick = s.tick ∧ (∀ a, a ≠
    NET_SVC_STAT → t.reg a = s.reg a)) ∧
  (∀ (p : Path) (reg : IndexReg) (s : State), s.silent p = false → s.readRefusal p false = none → ∃ t, exec
    (.indexDataAccess p reg none) s = .next t ∧ t.wstat = stOk ∧ t.rdata = [s.indexWord reg]) ∧
  (∀ (p : Path) (s : State), s.silent p = false → s.readRefusal p false = none → s.get CMD_TC_IDX_WORD = 3 → ∃ t, exec
    (.indexDataAccess p .contract none) s = .next t ∧ t.get CMD_TC_IDX_WORD = 0 ∧ t.get CMD_TC_IDX_TENANT = (s.get
    CMD_TC_IDX_TENANT + 1) % 4096 ∧ (∀ a, a ≠ NET_SVC_STAT → a ≠ CMD_TC_IDX → t.reg a = s.reg a)) ∧
  (∀ (p : Path) (s : State), s.silent p = false → s.readRefusal p false = none → s.get MTR_CUR_IDX_WORD < 15 → ∃ t,
    exec (.indexDataAccess p .meterNow none) s = .next t ∧ t.get MTR_CUR_IDX_WORD = s.get MTR_CUR_IDX_WORD + 1 ∧ t.get
    MTR_CUR_IDX_TENANT = s.get MTR_CUR_IDX_TENANT) ∧
  (∀ (p : Path) (v : Word) (s : State), s.opens p → s.get FLT_SRC_IDX_WORD = 0 → v ≠ 0 → ∃ t, exec (.indexDataAccess p
    .faultSource (some v)) s = .next t ∧ t.wstat = stOk ∧ t.reg (keySrc (s.get FLT_SRC_IDX_SRC) 0) = 0 ∧ t.get
    FLT_SRC_IDX_WORD = 1 ∧ t.get FLT_SRC_IDX_SRC = s.get FLT_SRC_IDX_SRC) ∧
  (∀ (s : State), s.jackOnly = false → ∃ t, exec .metaMessage s = .next t ∧ t.get NET_SVC_STAT_RX_MSG = (s.get
    NET_SVC_STAT_RX_MSG + 1) % (NET_SVC_STAT_RX_MSG.top + 1) ∧ t = { s with regs := t.regs } ∧ (∀ a, a ≠ NET_SVC_STAT
    → t.reg a = s.reg a))

/-- On a quiet device, over the service port or the management session: REG_READ of a mapped register below 0x9_0000 whose
  read has no effect of its own completes with that word in RESULT0 and changes no such register; at an unmapped
  address it completes with BAD_ADDRESS. REG_WRITE of a register of the tick generator within its ranges completes
  with status 0 and the RW fields hold the written bits, W1C fields with a 1 are cleared; at an unmapped address it
  completes with BAD_ADDRESS and changes no register below 0x9_0000. (R9, R28, R378, R389, R518, R519, R637.) -/
def Obligations.RegisterCommandsRead : Prop :=
  (∀ (p : Path) (e : Entry) (s : State), s.quiet → s.clear p → s.entryCode p opRegRead e = none → s.modeCode p
    opRegRead e = none → e.len = 0 → e.arg0.toNat < 0x90000 → isMapped e.arg0.toNat = true → (s.readActs p
    e.arg0.toNat).isNone = true → ∃ t, exec (.regRead p e) s = .next t ∧ replied s t p e stOk ∧ (t.lastEntry.map fun k
    => k.res0) = some (s.readPlain e.arg0.toNat).toNat ∧ (∀ a, a / 0x10000 ≠ 9 ∧ a / 0x10000 ≠ 0xA → t.reg a = s.reg
    a)) ∧
  (∀ (p : Path) (e : Entry) (s : State), s.quiet → s.clear p → s.entryCode p opRegRead e = none → s.modeCode p
    opRegRead e = none → isMapped e.arg0.toNat = false → ∃ t, exec (.regRead p e) s = .next t ∧ replied s t p e
    stBadAddress) ∧
  (∀ (p : Path) (e : Entry) (s : State), s.quiet → s.clear p → s.entryCode p opRegWrite e = none → s.modeCode p
    opRegWrite e = none → s.writeRefusal p = none → inBlock 1 e.arg0.toNat → isMapped e.arg0.toNat = true → inRange
    e.arg0.toNat e.arg1 = true → ∃ t, exec (.regWrite p e) s = .next t ∧ replied s t p e stOk ∧ (t.reg
    e.arg0.toNat).toNat = mergeBy .rw (fieldsAt e.arg0.toNat) (clearBy (fieldsAt e.arg0.toNat) (s.reg
    e.arg0.toNat).toNat e.arg1.toNat) e.arg1.toNat ∧ (∀ a, a / 0x10000 ≠ 9 ∧ a / 0x10000 ≠ 0xA ∧ a ≠ e.arg0.toNat →
    t.reg a = s.reg a)) ∧
  (∀ (p : Path) (e : Entry) (s : State), s.quiet → s.clear p → s.entryCode p opRegWrite e = none → s.modeCode p
    opRegWrite e = none → isMapped e.arg0.toNat = false → ∃ t, exec (.regWrite p e) s = .next t ∧ replied s t p e
    stBadAddress ∧ (∀ a, a / 0x10000 ≠ 9 ∧ a / 0x10000 ≠ 0xA → t.reg a = s.reg a))

/-- With no sequence running and the slots configured, ACQUIRE of a parked pickup whose sled is enabled enters ACQ_FOCUS
  for its layer, LAYER_JUMP and SEEK of a tracking pickup enter LAYER_JUMP and SEEK, PARK parks it, and READ_MODE and
  WRITE_MODE of a tracking pickup arm the sled's ratio 1.6384 or 0.4096 for the next field 0. Each advances SEQ and
  shows its OP. OPU_ENABLE with 0 turns a usable pickup OFF. An order outside MAINTAIN is refused and changes no
  register but the message count. (R117, R118, R133, R134, R135, R137, R140, R149, R161.) -/
def Obligations.PickupOrdersStartTheirSequences : Prop :=
  (∀ (p : Path) (n : Fin 4) (layer : BitVec 5) (turn : BitVec 18) (s : State), s.opens p → s.mode = modeMaintain →
    layer.toNat ≤ 23 → (s.puOf n).op = none → (s.puOf n).next = none → s.calHolds (n / 2) = false → s.acqSlots n =
    true → s.puState n = puParked → s.axState n ≠ axDisabled → ∃ t, exec (.acquire p n layer turn) s = .next t ∧
    t.wstat = stOk ∧ t.puState n = puAcqFocus ∧ t.get (OPU_LAYER_TARGET n) = layer.toNat ∧ t.get (OPU_LAYER_SA n) =
    layer.toNat ∧ t.get (OPU_CMD_STAT_OP n) = 1 ∧ t.get (OPU_CMD_STAT_RESULT n) = 1 ∧ t.get (OPU_CMD_STAT_SEQ n) =
    (s.get (OPU_CMD_STAT_SEQ n) + 1) % ((OPU_CMD_STAT_SEQ n).top + 1) ∧ t.get (OPU_LAYER_CUR n) = s.get (OPU_LAYER_CUR
    n)) ∧
  (∀ (p : Path) (n : Fin 4) (layer : BitVec 5) (s : State), s.opens p → s.mode = modeMaintain → layer.toNat ≤ 23 →
    (s.puOf n).op = none → (s.puOf n).next = none → s.calHolds (n / 2) = false → s.jumpSlots n = true → s.puState n =
    puTracking → s.flag (OPU_STAT_GATE n) = false → ∃ t, exec (.layerJump p n layer) s = .next t ∧ t.wstat = stOk ∧
    t.puState n = puLayerJump ∧ t.get (OPU_LAYER_TARGET n) = layer.toNat ∧ t.flag (OPU_STAT_SA_READY n) = false ∧
    t.get (OPU_LJ_STAT_COUNT n) = (s.get (OPU_LJ_STAT_COUNT n) + 1) % ((OPU_LJ_STAT_COUNT n).top + 1) ∧ t.get
    (OPU_CMD_STAT_OP n) = 2 ∧ t.get (OPU_CMD_STAT_RESULT n) = 1 ∧ t.get (OPU_LAYER_CUR n) = s.get (OPU_LAYER_CUR n)) ∧
  (∀ (p : Path) (n : Fin 4) (turn : BitVec 18) (s : State), s.opens p → s.mode = modeMaintain → (s.puOf n).op = none →
    (s.puOf n).next = none → s.calHolds (n / 2) = false → s.slotsReady n = true → s.puState n = puTracking → ∃ t, exec
    (.seek p n turn) s = .next t ∧ t.wstat = stOk ∧ t.puState n = puSeek ∧ (t.puOf n).turn = min turn.toNat lastTurn ∧
    t.get (OPU_CMD_STAT_OP n) = 3 ∧ t.get (OPU_CMD_STAT_RESULT n) = 1) ∧
  (∀ (p : Path) (n : Fin 4) (s : State), s.opens p → s.mode = modeMaintain → (s.puOf n).op = none → (s.puOf n).next =
    none → s.calHolds (n / 2) = false → s.slotsReady n = true → s.puState n ≠ puOff → s.puState n ≠ puUnusable → ∃ t,
    exec (.opuPark p n) s = .next t ∧ t.wstat = stOk ∧ t.puState n = puParked ∧ t.get (OPU_LAYER_CUR n) = 0 ∧ t.flag
    (OPU_STAT_GATE n) = false ∧ t.get (OPU_CMD_STAT_OP n) = 4 ∧ t.get (OPU_CMD_STAT_RESULT n) = 0) ∧
  (∀ (p : Path) (n : Fin 4) (s : State), s.opens p → s.mode = modeMaintain → (s.puOf n).op = none → (s.puOf n).next =
    none → s.calHolds (n / 2) = false → s.slotsReady n = true → s.puState n = puTracking → ∃ t, exec (.readMode p n) s
    = .next t ∧ t.wstat = stOk ∧ t.reg (AX_GEAR_NEXT n) = 107374 ∧ t.flag (AX_GEAR_AT_ARM n) = true ∧ (t.puOf
    n).modeNext = some false ∧ t.get (OPU_CMD_STAT_RESULT n) = 1) ∧
  (∀ (p : Path) (n : Fin 4) (s : State), s.opens p → s.mode = modeMaintain → (s.puOf n).op = none → (s.puOf n).next =
    none → s.calHolds (n / 2) = false → s.slotsReady n = true → s.puState n = puTracking → ∃ t, exec (.writeMode p n)
    s = .next t ∧ t.wstat = stOk ∧ t.reg (AX_GEAR_NEXT n) = 26844 ∧ t.flag (AX_GEAR_AT_ARM n) = true ∧ (t.puOf
    n).modeNext = some true ∧ t.get (OPU_CMD_STAT_RESULT n) = 1) ∧
  (∀ (p : Path) (n : Fin 4) (s : State), s.opens p → s.puState n ≠ puUnusable → ∃ t, exec (.opuEnable p n false) s =
    .next t ∧ t.wstat = stOk ∧ t.flag (OPU_CTL_ENABLE n) = false ∧ t.puState n = puOff ∧ t.flag (OPU_STAT_GATE n) =
    false) ∧
  (∀ (p : Path) (n : Fin 4) (s : State), s.opens p → ∃ t, exec (.opuEnable p n true) s = .next t ∧ t.wstat = stOk ∧
    t.flag (OPU_CTL_ENABLE n) = true ∧ (∀ a, a ≠ NET_SVC_STAT → a ≠ OPU_CTL n → t.reg a = s.reg a)) ∧
  (∀ (p : Path) (n : Fin 4) (turn : BitVec 18) (s : State), s.opens p → s.mode ≠ modeMaintain → ∃ t, exec (.seek p n
    turn) s = .next t ∧ t.wstat = stRegRefused ∧ (∀ a, a ≠ NET_SVC_STAT → t.reg a = s.reg a)) ∧
  (∀ (p : Path) (n : Fin 4) (layer : BitVec 5) (turn : BitVec 18) (en : Bool) (s t : State), (exec (.acquire p n layer
    turn) s = .next t ∨ exec (.layerJump p n layer) s = .next t ∨ exec (.seek p n turn) s = .next t ∨ exec (.opuPark p
    n) s = .next t ∨ exec (.readMode p n) s = .next t ∨ exec (.writeMode p n) s = .next t ∨ exec (.opuEnable p n en) s
    = .next t) → t =
    { s with regs := t.regs, wstat := t.wstat, pu := t.pu, ce := t.ce, ax := t.ax, flt := t.flt, owl := t.owl, chn := t.chn }
    ∧ (∀ a, outside [2, 3, 6, 9] a → t.reg a = s.reg a))

/-- FOCUS_CAPTURE of an acquisition and LJ_CAPTURE, where their conditions hold, set CUR to the layer sought;
  FOCUS_SWEEP_END after the sweep counts a retry, with none left the pickup is UNUSABLE and FOCUS_FAIL is counted, and
  of the last attempt of a re-acquisition FOCUS_LOST; SA_SETTLE_DONE sets SA_READY once SETTLE ticks have passed;
  LAYER_JUMP_DONE of a captured and confirmed jump whose seek has settled on its turn leaves TRACKING, ON_LAYER and
  OUTCOME 1 or 2; LJ_TIMEOUT after TMO ticks with no retry left counts LJ_TIMEOUT and enters REACQ; SEEK_COMPLETE of a
  seek settled on its turn leaves TRACKING on it, and off its turn after the third re-seek counts SEEK_FAIL and enters
  REACQ. (R119, R121, R138, R143, R144, R146, R150, R153.) -/
def Obligations.FocusAndJumpsAdvance : Prop :=
  (∀ (n : Fin 4) (s : State), s.focusCaptures n = true → s.puState n = puAcqFocus → (s.puOf n).layer < 32 → ∃ t, exec
    (.focusCapture n) s = .next t ∧ t.get (OPU_LAYER_CUR n) = (s.puOf n).layer ∧ t.flag (OPU_STAT_ON_LAYER n) = false
    ∧ (t.puOf n).captured = true ∧ t.puState n = puAcqFocus) ∧
  (∀ (n : Fin 4) (s : State), s.puState n = puAcqFocus → (s.puOf n).captured = false → s.sweepOver n = true → (s.puOf
    n).tries < s.get (OPU_FA_CFG_RETRY n) → ∃ t, exec (.focusSweepEnd n) s = .next t ∧ (t.puOf n).tries = (s.puOf
    n).tries + 1 ∧ t.puState n = puAcqFocus ∧ (t.puOf n).rampAt = s.tick) ∧
  (∀ (n : Fin 4) (s : State), s.puState n = puAcqFocus → (s.puOf n).captured = false → s.sweepOver n = true → s.get
    (OPU_FA_CFG_RETRY n) ≤ (s.puOf n).tries → ∃ t, exec (.focusSweepEnd n) s = .next t ∧ t.puState n = puUnusable ∧
    (t.reg (keySrc (0x010 + n) 0)).toNat = min 0xFFFFFFFF ((s.reg (keySrc (0x010 + n) 0)).toNat + 1)) ∧
  (∀ (n : Fin 4) (s : State), s.puState n = puReacq → (s.puOf n).captured = false → s.sweepOver n = true → (s.puOf
    n).full = true → s.get (OPU_FA_CFG_RETRY n) ≤ (s.puOf n).tries → ∃ t, exec (.focusSweepEnd n) s = .next t ∧
    t.puState n = puUnusable ∧ (t.reg (keySrc (0x010 + n) 0)).toNat = min 0xFFFFFFFF ((s.reg (keySrc (0x010 + n)
    0)).toNat + 1)) ∧
  (∀ (n : Fin 4) (k : Nat) (s : State), (s.puOf n).saSince = some k → s.get (OPU_SA_CFG_SETTLE n) ≤ s.tick - k → ∃ t,
    exec (.saSettleDone n) s = .next t ∧ t.flag (OPU_STAT_SA_READY n) = true ∧ (∀ a, a ≠ OPU_STAT n → t.reg a = s.reg
    a)) ∧
  (∀ (n : Fin 4) (s : State), s.jumpCaptures n = true → ∃ t, exec (.ljCapture n) s = .next t ∧ t.get (OPU_LAYER_CUR n)
    = s.get (OPU_LAYER_TARGET n) ∧ (t.puOf n).captured = true ∧ t.puState n = puLayerJump) ∧
  (∀ (n : Fin 4) (s : State), s.puState n = puLayerJump → (s.puOf n).captured = true → (s.puOf n).confirmed = true →
    (s.puOf n).profileDone = true → (s.puOf n).seen = (s.puOf n).turn → s.get (OPU_TRK_CFG_TRK_SETTLE n) ≤ (s.puOf
    n).trkOk → ∃ t, exec (.layerJumpDone n) s = .next t ∧ t.puState n = puTracking ∧ t.flag (OPU_STAT_ON_LAYER n) =
    true ∧ t.get (OPU_LJ_STAT_OUTCOME n) = (if (s.puOf n).tries = 0 then 1 else 2) ∧ (t.puOf n).op = none) ∧
  (∀ (n : Fin 4) (s : State), s.puState n = puLayerJump → s.get (OPU_LJ_CFG_TMO n) ≤ s.tick - (s.puOf n).attempt →
    s.get (OPU_LJ_CFG_RETRY n) ≤ (s.puOf n).tries → ∃ t, exec (.ljTimeout n) s = .next t ∧ t.puState n = puReacq ∧
    t.get (OPU_LJ_STAT_OUTCOME n) = 3 ∧ t.get (OPU_DEF_STAT_REACQ n) = min (OPU_DEF_STAT_REACQ n).top (s.get
    (OPU_DEF_STAT_REACQ n) + 1) ∧ (t.reg (keySrc (0x010 + n) 0)).toNat = min 0xFFFFFFFF ((s.reg (keySrc (0x010 + n)
    0)).toNat + 1)) ∧
  (∀ (n : Fin 4) (s : State), (s.puState n = puSeek ∨ s.puState n = puAcqTrack) → (s.puOf n).thenJump = none → (s.puOf
    n).turn < 2 ^ 18 → (s.puOf n).profileDone = true → (s.puOf n).seen = (s.puOf n).turn → s.get
    (OPU_TRK_CFG_TRK_SETTLE n) ≤ (s.puOf n).trkOk → ∃ t, exec (.seekComplete n) s = .next t ∧ t.puState n = puTracking
    ∧ t.get (OPU_SPIRAL_TURN n) = (s.puOf n).turn ∧ (t.puOf n).op = none) ∧
  (∀ (n : Fin 4) (s : State), (s.puState n = puSeek ∨ s.puState n = puAcqTrack) → (s.puOf n).thenJump = none → (s.puOf
    n).profileDone = true → (s.puOf n).seen ≠ (s.puOf n).turn → (s.puOf n).seeks = 3 → ∃ t, exec (.seekComplete n) s =
    .next t ∧ t.puState n = puReacq ∧ (t.reg (keySrc (0x010 + n) 0)).toNat = min 0xFFFFFFFF ((s.reg (keySrc (0x010 +
    n) 0)).toNat + 1)) ∧
  (∀ (n : Fin 4) (s t : State), (exec (.focusCapture n) s = .next t ∨ exec (.focusSweepEnd n) s = .next t ∨ exec
    (.saSettleDone n) s = .next t ∨ exec (.ljCapture n) s = .next t ∨ exec (.layerJumpDone n) s = .next t ∨ exec
    (.ljTimeout n) s = .next t ∨ exec (.seekComplete n) s = .next t) → t =
    { s with regs := t.regs, pu := t.pu, ce := t.ce, ax := t.ax, flt := t.flt, chn := t.chn } ∧ (∀ a, outside [2, 3,
    6] a → t.reg a = s.reg a))

/-- A SERVO_FIELD of any spot that the checks of R123 place on the layer of CUR counts VALID and sets the spot's position
  to what R123 gives; every other one counts INVALID, and one that they place nowhere leaves the pickup's state.
  SFIELD_LOSS of a tracking pickup with every enabled spot past MISS_MAX, or of a seeking one with no spot left, and
  DEFECT_HOLD_EXPIRY after MAXHOLD ticks of a dropout enter REACQ with the turn kept. A dropout starts, and is
  counted, where the envelope falls below THR percent of the average, and ends above THR + HYS percent. REACQ_DONE of
  a captured and confirmed re-acquisition settled on its turn returns to TRACKING on it. LENS_RANGE after 500 ticks
  beyond LIM is counted as a fault. (R123, R124, R125, R131, R132, R150, R151, R152, R153.) -/
def Obligations.ServoFieldsAndDefects : Prop :=
  (∀ (n k : Fin 4) (r : FieldRead) (s : State), (s.fieldPlace n r).map Prod.fst ≠ some (s.get (OPU_LAYER_CUR n)) → ∃
    t, exec (.servoField n k r) s = .next t ∧ t.get (OPU_SF_CNT_INVALID n) = min (OPU_SF_CNT_INVALID n).top (s.get
    (OPU_SF_CNT_INVALID n) + 1) ∧ t.get (OPU_SF_CNT_VALID n) = s.get (OPU_SF_CNT_VALID n)) ∧
  (∀ (n k : Fin 4) (r : FieldRead) (s : State), s.fieldPlace n r = none → ∃ t, exec (.servoField n k r) s = .next t ∧
    t.puState n = s.puState n) ∧
  (∀ (n k : Fin 4) (r : FieldRead) (v : Int) (s : State), s.fieldPlace n r = some (s.get (OPU_LAYER_CUR n), v) → ∃ t,
    exec (.servoField n k r) s = .next t ∧ t.get (OPU_SF_CNT_VALID n) = (s.get (OPU_SF_CNT_VALID n) + 1) %
    ((OPU_SF_CNT_VALID n).top + 1) ∧ t.get (OPU_SF_CNT_INVALID n) = s.get (OPU_SF_CNT_INVALID n) ∧ t.flag
    (OPU_SPOT_POS_VALID n k) = true ∧ t.get (OPU_SPOT_POS_FINE n k) = unsignedOf 26 v % 256) ∧
  (∀ (n : Fin 4) (s : State), s.puState n = puTracking → (s.enabledSpots n).all (fun k => decide (s.get
    (OPU_SF_CFG_MISS_MAX n) ≤ nth (s.puOf n).miss.toList k 0)) = true → ∃ t, exec (.sfieldLoss n) s = .next t ∧
    t.puState n = puReacq ∧ t.get (OPU_DEF_STAT_REACQ n) = min (OPU_DEF_STAT_REACQ n).top (s.get (OPU_DEF_STAT_REACQ
    n) + 1) ∧ (t.puOf n).turn = s.get (OPU_SPIRAL_TURN n) ∧ (t.reg (keySrc (0x010 + n) 0)).toNat = min 0xFFFFFFFF
    ((s.reg (keySrc (0x010 + n) 0)).toNat + 1)) ∧
  (∀ (n : Fin 4) (s : State), s.puState n = puSeek → s.enabledSpots n = [] → ∃ t, exec (.sfieldLoss n) s = .next t ∧
    t.puState n = puReacq ∧ (t.puOf n).turn = s.get (OPU_SPIRAL_TURN n) ∧ (t.reg (keySrc (0x010 + n) 0)).toNat = min
    0xFFFFFFFF ((s.reg (keySrc (0x010 + n) 0)).toNat + 1)) ∧
  (∀ (n : Fin 4) (env : BitVec 14) (s : State), (s.puOf n).dropout = false → ((100 * env.toNat : Nat) : Rat) < ((s.get
    (OPU_DEF_CFG_THR n) : Nat) : Rat) * s.rfAverage n → ∃ t, exec (.defectDropoutStart n env) s = .next t ∧ t.get
    (OPU_DEF_STAT_DROPOUTS n) = min (OPU_DEF_STAT_DROPOUTS n).top (s.get (OPU_DEF_STAT_DROPOUTS n) + 1) ∧ (t.puOf
    n).dropout = true ∧ (t.puOf n).dropSeen = true ∧ (∀ a, a ≠ OPU_DEF_STAT n → t.reg a = s.reg a)) ∧
  (∀ (n : Fin 4) (env : BitVec 14) (s : State), ((s.get (OPU_DEF_CFG_THR n) + s.get (OPU_DEF_CFG_HYS n) : Nat) : Rat)
    * s.rfAverage n < ((100 * env.toNat : Nat) : Rat) → ∃ t, exec (.defectDropoutEnd n env) s = .next t ∧ (t.puOf
    n).dropout = false ∧ t.regs = s.regs) ∧
  (∀ (n : Fin 4) (s : State), (s.puState n = puTracking ∨ s.puState n = puSeek) → (s.puOf n).dropout = true → s.get
    (OPU_DEF_CFG_MAXHOLD n) ≤ (s.puOf n).hold → ∃ t, exec (.defectHoldExpiry n) s = .next t ∧ t.puState n = puReacq ∧
    (t.puOf n).turn = s.get (OPU_SPIRAL_TURN n)) ∧
  (∀ (n : Fin 4) (s : State), s.puState n = puReacq → (s.puOf n).captured = true → (s.puOf n).confirmed = true →
    (s.puOf n).turn < 2 ^ 18 → (s.puOf n).profileDone = true → (s.puOf n).seen = (s.puOf n).turn → s.get
    (OPU_TRK_CFG_TRK_SETTLE n) ≤ (s.puOf n).trkOk → ∃ t, exec (.reacqDone n) s = .next t ∧ t.puState n = puTracking ∧
    t.flag (OPU_STAT_ON_LAYER n) = true ∧ t.get (OPU_SPIRAL_TURN n) = (s.puOf n).turn) ∧
  (∀ (n : Fin 4) (s : State), 500 ≤ (s.puOf n).lensRun → ∃ t, exec (.lensRange n) s = .next t ∧ (t.reg (keySrc (0x010
    + n) 0)).toNat = min 0xFFFFFFFF ((s.reg (keySrc (0x010 + n) 0)).toNat + 1)) ∧
  (∀ (n k : Fin 4) (r : FieldRead) (env : BitVec 14) (s t : State), (exec (.servoField n k r) s = .next t ∨ exec
    (.sfieldLoss n) s = .next t ∨ exec (.defectDropoutStart n env) s = .next t ∨ exec (.defectDropoutEnd n env) s =
    .next t ∨ exec (.defectHoldExpiry n) s = .next t ∨ exec (.reacqDone n) s = .next t ∨ exec (.lensRange n) s = .next
    t) → t = { s with regs := t.regs, pu := t.pu, ce := t.ce, ax := t.ax, flt := t.flt, owl := t.owl, chn := t.chn } ∧
    (∀ a, outside [2, 3, 4, 6, 0x11] a → t.reg a = s.reg a))

/-- WI_FORCE, and WRITE_INHIBIT with measures that trip a cause, set WI_ACTIVE and clear WRITE_READY; with the gate raised
  they drop it, record the causes and the tick and count the drop. WRITE_INHIBIT_REARM after REARM clear ticks clears
  WI_ACTIVE. LASER_FAULT after 250 ticks at the limit and PU_OVERTEMP beyond LIM are counted at their source. (R154,
  R155, R156, R157, R160.) -/
def Obligations.WriteGateAndLaserGuards : Prop :=
  (∀ (p : Path) (n : Fin 4) (s : State), s.opens p → s.flag (OPU_STAT_GATE n) = true → ∃ t, exec (.wiForce p n) s =
    .next t ∧ t.wstat = stOk ∧ t.flag (OPU_STAT_WI_ACTIVE n) = true ∧ t.flag (OPU_STAT_GATE n) = false ∧ t.get
    (OPU_WI_STAT_CAUSE n) = 32 ∧ t.reg (OPU_WI_TS n) = BitVec.ofNat 32 s.tick) ∧
  (∀ (n : Fin 4) (pp : BitVec 16) (shockX shockY : BitVec 12) (v : Nat) (s : State), s.wiCauses n ((pp.toInt : Int) :
    Rat) ((shockX.toNat : Nat) : Rat) ((shockY.toNat : Nat) : Rat) = v → v ≠ 0 → s.flag (OPU_STAT_GATE n) = true → ∃
    t, exec (.writeInhibit n pp shockX shockY) s = .next t ∧ t.flag (OPU_STAT_WI_ACTIVE n) = true ∧ t.flag
    (OPU_STAT_WRITE_READY n) = false ∧ t.flag (OPU_STAT_GATE n) = false ∧ t.get (OPU_WI_STAT_CAUSE n) = v % 64 ∧ t.get
    (OPU_WI_STAT_COUNT n) = min (OPU_WI_STAT_COUNT n).top (s.get (OPU_WI_STAT_COUNT n) + 1) ∧ t.reg (OPU_WI_TS n) =
    BitVec.ofNat 32 s.tick ∧ (t.puOf n).rewriteMark = true) ∧
  (∀ (n : Fin 4) (pp : BitVec 16) (shockX shockY : BitVec 12) (v : Nat) (s : State), s.wiCauses n ((pp.toInt : Int) :
    Rat) ((shockX.toNat : Nat) : Rat) ((shockY.toNat : Nat) : Rat) = v → v ≠ 0 → s.flag (OPU_STAT_GATE n) = false → ∃
    t, exec (.writeInhibit n pp shockX shockY) s = .next t ∧ t.flag (OPU_STAT_WI_ACTIVE n) = true ∧ t.flag
    (OPU_STAT_WRITE_READY n) = false ∧ (∀ a, a ≠ OPU_STAT n → t.reg a = s.reg a)) ∧
  (∀ (n : Fin 4) (s : State), s.flag (OPU_STAT_WI_ACTIVE n) = true → s.get (OPU_WI_CFG_REARM n) ≤ s.tick - (s.puOf
    n).clearSince → ∃ t, exec (.writeInhibitRearm n) s = .next t ∧ t.flag (OPU_STAT_WI_ACTIVE n) = false ∧ (t.puOf
    n).inhibit = 0 ∧ (∀ a, a ≠ OPU_STAT n → t.reg a = s.reg a)) ∧
  (∀ (n : Fin 4) (write : Bool) (s : State), 250 ≤ (if write then (s.puOf n).wrLimRun else (s.puOf n).rdLimRun) → ∃ t,
    exec (.laserFault n write) s = .next t ∧ (t.reg (keySrc (0x010 + n) 0)).toNat = min 0xFFFFFFFF ((s.reg (keySrc
    (0x010 + n) 0)).toNat + 1)) ∧
  (∀ (n : Fin 4) (s : State), (s.get (OPU_TEMP_LIM n) : Int) < s.getInt (OPU_TEMP_TEMP n) → ∃ t, exec (.puOvertemp n)
    s = .next t ∧ (t.reg (keySrc (0x010 + n) 0)).toNat = min 0xFFFFFFFF ((s.reg (keySrc (0x010 + n) 0)).toNat + 1)) ∧
  (∀ (p : Path) (n : Fin 4) (pp : BitVec 16) (shockX shockY : BitVec 12) (write : Bool) (s t : State), (exec (.wiForce
    p n) s = .next t ∨ exec (.writeInhibit n pp shockX shockY) s = .next t ∨ exec (.writeInhibitRearm n) s = .next t ∨
    exec (.laserFault n write) s = .next t ∨ exec (.puOvertemp n) s = .next t) → t =
    { s with regs := t.regs, wstat := t.wstat, pu := t.pu, flt := t.flt, owl := t.owl } ∧ (∀ a, outside [3, 9, 0x11] a
    → t.reg a = s.reg a))

/-- A frame under a spot that decodes nothing only shows its zone; a second copy is discarded; one during which the read
  gate was closed counts FAILED; under an open gate a blank one shows BLANK and decodes nothing, one without either
  mark counts ERASED, and one with a framing starts its first attempt with it. LDPC_ATTEMPT_DONE of a running attempt
  waits for its iterations; one that converges counts the frame OK and shows it; one that fails goes on to the next
  attempt, or without one counts the frame FAILED. LADDER_RUNG_DONE after the revolutions of the rung, with frames
  still failed, takes the block to its next rung, recovers it by RS decoding of at most two, or loses it. (R187, R188,
  R190, R194, R195, R196, R197, R200, R201, R212, R214, R215.) -/
def Obligations.FramesAndBlocksAreRead : Prop :=
  (∀ (k : Fin 16) (frame : BitVec 24) (r : FrameRead) (s : State), s.decodes k = false → ∃ t, exec (.frameReceived k
    frame r) s = .next t ∧ t.get (CHN_SPOT_STAT_ZONE k) = zoneOf frame.toNat % 16 ∧ t.chn = s.chn ∧ (∀ a, a ≠
    CHN_SPOT_STAT k → t.reg a = s.reg a)) ∧
  (∀ (k : Fin 16) (frame : BitVec 24) (r : FrameRead) (s : State), s.secondCopy (k / 4) frame.toNat = true → ∃ t, exec
    (.frameReceived k frame r) s = .next t ∧ t.chn = s.chn ∧ t.get (CHN_FRM_CNT_0_OK k) = s.get (CHN_FRM_CNT_0_OK k) ∧
    t.get (CHN_FRM_CNT_1_FAILED k) = s.get (CHN_FRM_CNT_1_FAILED k)) ∧
  (∀ (k : Fin 16) (frame : BitVec 24) (r : FrameRead) (s : State), s.decodes k = true → s.readGate k = false →
    s.servesFrame (k / 4) frame.toNat = true → s.secondCopy (k / 4) frame.toNat = false → ∃ t, exec (.frameReceived k
    frame r) s = .next t ∧ t.get (CHN_FRM_CNT_1_FAILED k) = min (CHN_FRM_CNT_1_FAILED k).top (s.get
    (CHN_FRM_CNT_1_FAILED k) + 1) ∧ t.get (CHN_SPOT_STAT_ZONE k) = zoneOf frame.toNat % 16) ∧
  (∀ (k : Fin 16) (frame : BitVec 24) (r : FrameRead) (g : Nat) (s : State), s.readGate k = true →
    (s.chn.gateAt[k.val]?).getD none = some g → g + r.age.toNat ≤ s.tick → s.servesFrame (k / 4) frame.toNat = true →
    s.secondCopy (k / 4) frame.toNat = false → r.env.toNat < 20 → s.heldFrame (k / 4) frame.toNat = false → ∃ t, exec
    (.frameReceived k frame r) s = .next t ∧ t.flag (CHN_SPOT_STAT_BLANK k) = true ∧ t.get (CHN_SPOT_STAT_ZONE k) =
    zoneOf frame.toNat % 16 ∧ t.chn.frames = s.chn.frames ∧ t.chn.blocks = s.chn.blocks) ∧
  (∀ (k : Fin 16) (frame : BitVec 24) (r : FrameRead) (g : Nat) (s : State), s.readGate k = true →
    (s.chn.gateAt[k.val]?).getD none = some g → g + r.age.toNat ≤ s.tick → s.servesFrame (k / 4) frame.toNat = true →
    s.secondCopy (k / 4) frame.toNat = false → (20 ≤ r.env.toNat ∨ s.heldFrame (k / 4) frame.toNat = true) →
    firstFraming (s.candidatesOf k (markScores r.bits syncMarkA 160 (s.get (CHN_SYNC_CFG_WIN k)))) (s.candidatesOf k
    (markScores r.bits syncMarkB 27856 (s.get (CHN_SYNC_CFG_WIN k)))) = none → ∃ t, exec (.frameReceived k frame r) s
    = .next t ∧ t.flag (CHN_SPOT_STAT_BLANK k) = false ∧ t.get (CHN_FRM_CNT_3_ERASED k) = min (CHN_FRM_CNT_3_ERASED
    k).top (s.get (CHN_FRM_CNT_3_ERASED k) + 1) ∧ t.get (CHN_FRM_CNT_2_A_MISS k) = min (CHN_FRM_CNT_2_A_MISS k).top
    (s.get (CHN_FRM_CNT_2_A_MISS k) + 1) ∧ t.get (CHN_FRM_CNT_2_B_MISS k) = min (CHN_FRM_CNT_2_B_MISS k).top (s.get
    (CHN_FRM_CNT_2_B_MISS k) + 1) ∧ t.chn.frames = s.chn.frames) ∧
  (∀ (k : Fin 16) (frame : BitVec 24) (r : FrameRead) (g : Nat) (x : Framing) (s : State), s.readGate k = true →
    (s.chn.gateAt[k.val]?).getD none = some g → g + r.age.toNat ≤ s.tick → s.servesFrame (k / 4) frame.toNat = true →
    s.secondCopy (k / 4) frame.toNat = false → (20 ≤ r.env.toNat ∨ s.heldFrame (k / 4) frame.toNat = true) →
    firstFraming (s.candidatesOf k (markScores r.bits syncMarkA 160 (s.get (CHN_SYNC_CFG_WIN k)))) (s.candidatesOf k
    (markScores r.bits syncMarkB 27856 (s.get (CHN_SYNC_CFG_WIN k)))) = some x → (s.chn.frames[2 * k.val]?).getD none
    = none → ∃ t, exec (.frameReceived k frame r) s = .next t ∧ t.flag (CHN_SYNC_LAST_INCONS k) = (x.a != x.b) ∧
    ((t.chn.frames[2 * k.val]?).getD none).map (fun f => (f.frame, f.attempts, f.tried)) = some (frame.toNat, 1, [x])) ∧
  (∀ (k : Fin 16) (e : Fin 2) (r : LdpcResult) (f : FrameSt) (s : State), (s.chn.frames[2 * k.val + e.val]?).getD none
    = some f → s.tick < f.at_ + 1 + (if r.ok = true ∧ r.iter.toNat ≤ s.get (CHN_LDPC_CFG_ITER_MAX k) then r.iter.toNat
    else s.get (CHN_LDPC_CFG_ITER_MAX k)) → ∃ t, exec (.ldpcAttemptDone k e r) s = .next t ∧ t = s) ∧
  (∀ (k : Fin 16) (e : Fin 2) (r : LdpcResult) (f : FrameSt) (s : State), (s.chn.frames[2 * k.val + e.val]?).getD none
    = some f → r.ok = true → r.iter.toNat ≤ s.get (CHN_LDPC_CFG_ITER_MAX k) → f.at_ + 1 + r.iter.toNat ≤ s.tick →
    f.extra = 0 → f.frame < 2 ^ 24 → (s.chn.queued[k.val]?).getD [] = [] → ∃ t, exec (.ldpcAttemptDone k e r) s =
    .next t ∧ t.get (CHN_FRM_CNT_0_OK k) = (s.get (CHN_FRM_CNT_0_OK k) + 1) % ((CHN_FRM_CNT_0_OK k).top + 1) ∧ t.get
    (CHN_SPOT_STAT_FRAME k) = f.frame ∧ t.get (CHN_LDPC_LAST_ITER k) = r.iter.toNat ∧ ((t.chn.frames[2 * k.val +
    e.val]?).getD none) = none) ∧
  (∀ (k : Fin 16) (e : Fin 2) (r : LdpcResult) (f x : FrameSt) (s : State), (s.chn.frames[2 * k.val + e.val]?).getD
    none = some f → r.ok = false → f.at_ + 1 + s.get (CHN_LDPC_CFG_ITER_MAX k) ≤ s.tick → f.next (f.suspect || decide
    (s.get (CHN_SYNC_CFG_FRM_SUSP k) * 4096 < r.unsat.toNat * 100) || s.onFourth (k / 4) f.frame) = some x → ∃ t, exec
    (.ldpcAttemptDone k e r) s = .next t ∧ (t.chn.frames[2 * k.val + e.val]?).getD none = some
    { x with at_ := s.tick } ∧ t.get (CHN_LDPC_LAST_ITER k) = s.get (CHN_LDPC_CFG_ITER_MAX k) ∧ t.get
    (CHN_FRM_CNT_1_FAILED k) = s.get (CHN_FRM_CNT_1_FAILED k)) ∧
  (∀ (k : Fin 16) (e : Fin 2) (r : LdpcResult) (f : FrameSt) (s : State), (s.chn.frames[2 * k.val + e.val]?).getD none
    = some f → r.ok = false → f.at_ + 1 + s.get (CHN_LDPC_CFG_ITER_MAX k) ≤ s.tick → f.next (f.suspect || decide
    (s.get (CHN_SYNC_CFG_FRM_SUSP k) * 4096 < r.unsat.toNat * 100) || s.onFourth (k / 4) f.frame) = none →
    (s.chn.queued[k.val]?).getD [] = [] → ∃ t, exec (.ldpcAttemptDone k e r) s = .next t ∧ t.get (CHN_FRM_CNT_1_FAILED
    k) = min (CHN_FRM_CNT_1_FAILED k).top (s.get (CHN_FRM_CNT_1_FAILED k) + 1) ∧ ((t.chn.frames[2 * k.val +
    e.val]?).getD none) = none) ∧
  (∀ (n : Fin 4) (first : BitVec 24) (b : BlockSt) (m : Nat) (s : State), s.chn.blocks.find? (fun b => b.pu == n.val
    && b.first == first.toNat && decide (0 < b.rung) && !b.waits && decide (rungTurns b.rung ≤ b.revs)) = some b →
    b.failed ≠ [] → s.nextRung b.rung = m → m < 6 → ∃ t, exec (.ladderRungDone n first) s = .next t ∧
    (t.chn.blocks.find? (fun x => x.pu == b.pu && x.first == b.first)).map (fun x => (x.rung, x.revs, x.failed)) =
    some (m, 0, b.failed) ∧ t.regs = s.regs) ∧
  (∀ (n : Fin 4) (first : BitVec 24) (b : BlockSt) (s : State), s.chn.blocks.find? (fun b => b.pu == n.val && b.first
    == first.toNat && decide (0 < b.rung) && !b.waits && decide (rungTurns b.rung ≤ b.revs)) = some b → b.failed ≠ []
    → s.nextRung b.rung = 6 → b.failed.length ≤ 2 → ∃ t, exec (.ladderRungDone n first) s = .next t ∧ t.get
    (CHN_RL_CNT_COUNT 5) = min (CHN_RL_CNT_COUNT 5).top (s.get (CHN_RL_CNT_COUNT 5) + 1) ∧ b ∉ t.chn.blocks ∧ (t.reg
    (keySrc (0x034 + n / 2) 0)).toNat = min 0xFFFFFFFF ((s.reg (keySrc (0x034 + n / 2) 0)).toNat + 1)) ∧
  (∀ (n : Fin 4) (first : BitVec 24) (b : BlockSt) (s : State), s.chn.blocks.find? (fun b => b.pu == n.val && b.first
    == first.toNat && decide (0 < b.rung) && !b.waits && decide (rungTurns b.rung ≤ b.revs)) = some b → s.nextRung
    b.rung = 6 → 2 < b.failed.length → (s.blockIn n b).isNone = true → ∃ t, exec (.ladderRungDone n first) s = .next t
    ∧ t.get (CHN_RL_LOST_COUNT) = min (CHN_RL_LOST_COUNT).top (s.get (CHN_RL_LOST_COUNT) + 1) ∧ b ∉ t.chn.blocks ∧
    (t.reg (keySrc (0x034 + n / 2) 0)).toNat = min 0xFFFFFFFF ((s.reg (keySrc (0x034 + n / 2) 0)).toNat + 1)) ∧
  (∀ (n : Fin 4) (first : BitVec 24) (b : BlockSt) (e : MapEnt) (blk : Nat) (s : State), s.chn.blocks.find? (fun b =>
    b.pu == n.val && b.first == first.toNat && decide (0 < b.rung) && !b.waits && decide (rungTurns b.rung ≤ b.revs))
    = some b → s.nextRung b.rung = 6 → 2 < b.failed.length → s.blockIn n b = some (e, blk) → ∃ t, exec
    (.ladderRungDone n first) s = .next t ∧ t.get (CHN_RL_LOST_COUNT) = min (CHN_RL_LOST_COUNT).top (s.get
    (CHN_RL_LOST_COUNT) + 1) ∧ t.chn.lost = s.chn.lost ++ [e.id]) ∧
  (∀ (k : Fin 16) (frame : BitVec 24) (r : FrameRead) (e : Fin 2) (l : LdpcResult) (n : Fin 4) (first : BitVec 24) (s
    t : State), (exec (.frameReceived k frame r) s = .next t ∨ exec (.ldpcAttemptDone k e l) s = .next t ∨ exec
    (.ladderRungDone n first) s = .next t) → t =
    { s with regs := t.regs, chn := t.chn, plc := t.plc, flt := t.flt, cmd := t.cmd } ∧ (∀ a, outside [4, 0xA] a →
    t.reg a = s.reg a))

/-- EXTENT_WRITE_START on a located layer with room, with the pickup ready, raises the gate at the layer's first blank
  run; on a layer OPC has not served it starts OPC. A frame that passes is counted; one that fails joins the rewrite
  tail, and beyond REWR_MAX the extent is aborted and counted; an extent that was given up is aborted at its next
  frame. A record copy that failed is followed by another; the last verdict commits the extent with a copy that passed
  and aborts it without one. OPC_DONE with good errors takes the step with the fewest, scales the powers by it and
  sets RES; with 1,000 errors passed, or an end step, the layer is not writable; without a blank turn the strategy
  stays and PCA_FULL is counted. Reading the result consumes it and the acknowledgement discards it. (R187, R203,
  R205, R206, R207, R208, R209, R210.) -/
def Obligations.ExtentsAreWrittenAndCommitted : Prop :=
  (∀ (n : Fin 4) (slot : Nat) (j : Job) (u : JobUnit) (d : UnitData) (s : State), s.discAt n = some slot → (s.arbOf (n
    / 2)).job = some j → j.write = true → j.slot = some slot → j.units.find? (fun u => u.side == n.val % 2) = some u →
    s.unitData u.id = some d → (s.chn.ext[n.val]?).getD none = none → (s.chn.opc[n.val]?).getD none = none → s.get
    (OPU_LAYER_CUR n) = u.layer → (s.layerOf slot (n.val % 2) u.layer).unwritable = false → s.hasRoom (s.layerOf slot
    (n.val % 2) u.layer) n = true → (s.layerOf slot (n.val % 2) u.layer).found = true → s.flag (OPU_STAT_WRITE_READY
    n) = true → s.flag (OPU_STAT_WRITE_MODE n) = true → s.puState n = puTracking → (s.layerOf slot (n.val % 2)
    u.layer).opcDone = true → ∃ t, exec (.extentWriteStart n) s = .next t ∧ t.flag (OPU_STAT_GATE n) = true ∧ t.flag
    (CHN_WR_STAT_ACTIVE n) = true ∧ t.get (CHN_WR_STAT_TAIL n) = 0 ∧ ((t.chn.ext[n.val]?).getD none).map (fun x =>
    (x.id, x.hdr, x.len, x.peer)) = some (u.id, frameAddr (n.val % 2) u.layer ((s.layerOf slot (n.val % 2)
    u.layer).blankRun (s.roomNeeded n)), d.len, d.peer)) ∧
  (∀ (n : Fin 4) (slot : Nat) (j : Job) (u : JobUnit) (d : UnitData) (s : State), s.discAt n = some slot → (s.arbOf (n
    / 2)).job = some j → j.write = true → j.slot = some slot → j.units.find? (fun u => u.side == n.val % 2) = some u →
    s.unitData u.id = some d → (s.chn.ext[n.val]?).getD none = none → (s.chn.opc[n.val]?).getD none = none → s.get
    (OPU_LAYER_CUR n) = u.layer → (s.layerOf slot (n.val % 2) u.layer).unwritable = false → s.hasRoom (s.layerOf slot
    (n.val % 2) u.layer) n = true → (s.layerOf slot (n.val % 2) u.layer).found = true → s.flag (OPU_STAT_WRITE_READY
    n) = true → s.flag (OPU_STAT_WRITE_MODE n) = true → s.puState n = puTracking → (s.layerOf slot (n.val % 2)
    u.layer).opcDone = false → ∃ t, exec (.extentWriteStart n) s = .next t ∧ (t.chn.opc[n.val]?).getD none = some
    u.layer ∧ t.reg (CHN_OPC_STAT n) = 0 ∧ (t.chn.ext[n.val]?).getD none = none ∧ (∀ a, a ≠ CHN_OPC_STAT n → t.reg a =
    s.reg a)) ∧
  (∀ (n : Fin 4) (frame : BitVec 11) (r : FrameCheck) (x : ExtSt) (s : State), (s.chn.ext[n.val]?).getD none = some x
    → x.left ≠ 0 → frame.toNat = x.frameAt → x.doomed = false → s.checkOk n r = true → ∃ t, exec (.verifyVerdict n
    frame r) s = .next t ∧ t.get (CHN_VER_CNT_PASSED n) = (s.get (CHN_VER_CNT_PASSED n) + 1) % ((CHN_VER_CNT_PASSED
    n).top + 1) ∧ ((t.chn.ext[n.val]?).getD none).map (fun y => (y.left, y.tail, y.at_)) = some (x.left - 1, x.tail,
    x.at_ + 1)) ∧
  (∀ (n : Fin 4) (frame : BitVec 11) (r : FrameCheck) (x : ExtSt) (s : State), (s.chn.ext[n.val]?).getD none = some x
    → x.left ≠ 0 → frame.toNat = x.frameAt → x.doomed = false → s.checkOk n r = false → x.tail.length < s.get
    (CHN_WR_CTL_REWR_MAX n) → x.tail.length < 63 → ∃ t, exec (.verifyVerdict n frame r) s = .next t ∧ t.get
    (CHN_VER_CNT_FAILED n) = min (CHN_VER_CNT_FAILED n).top (s.get (CHN_VER_CNT_FAILED n) + 1) ∧
    ((t.chn.ext[n.val]?).getD none).map (fun y => (y.left, y.tail, y.at_)) = some (x.left, x.tail ++ [frame.toNat],
    x.at_ + 1) ∧ t.get (CHN_WR_STAT_TAIL n) = x.tail.length + 1) ∧
  (∀ (n : Fin 4) (frame : BitVec 11) (r : FrameCheck) (x : ExtSt) (s : State), s.quiet → (s.chn.ext[n.val]?).getD none
    = some x → x.left ≠ 0 → frame.toNat = x.frameAt → x.doomed = false → s.checkOk n r = false → s.get
    (CHN_WR_CTL_REWR_MAX n) ≤ x.tail.length → ∃ t, exec (.verifyVerdict n frame r) s = .next t ∧ t.get
    (CHN_VER_CNT_FAILED n) = min (CHN_VER_CNT_FAILED n).top (s.get (CHN_VER_CNT_FAILED n) + 1) ∧ t.get
    (CHN_EXT_CNT_ABORTED n) = min (CHN_EXT_CNT_ABORTED n).top (s.get (CHN_EXT_CNT_ABORTED n) + 1) ∧ t.flag
    (OPU_STAT_GATE n) = false ∧ ((t.chn.ext[n.val]?).getD none) = none ∧ (t.reg (keySrc (0x030 + n) 0)).toNat = min
    0xFFFFFFFF ((s.reg (keySrc (0x030 + n) 0)).toNat + 1)) ∧
  (∀ (n : Fin 4) (frame : BitVec 11) (r : FrameCheck) (x : ExtSt) (s : State), s.quiet → (s.chn.ext[n.val]?).getD none
    = some x → x.left ≠ 0 → frame.toNat = x.frameAt → x.doomed = true → ∃ t, exec (.verifyVerdict n frame r) s = .next
    t ∧ t.get (CHN_EXT_CNT_ABORTED n) = min (CHN_EXT_CNT_ABORTED n).top (s.get (CHN_EXT_CNT_ABORTED n) + 1) ∧ t.flag
    (OPU_STAT_GATE n) = false ∧ ((t.chn.ext[n.val]?).getD none) = none ∧ t.get (CHN_VER_CNT_PASSED n) = s.get
    (CHN_VER_CNT_PASSED n)) ∧
  (∀ (n : Fin 4) (r : FrameCheck) (x : ExtSt) (s : State), (s.chn.ext[n.val]?).getD none = some x → x.left = 0 →
    s.checkOk n r = false → x.judged + 1 < min 4 (x.copies + 1) → ∃ t, exec (.commitRecordVerdict n r) s = .next t ∧
    ((t.chn.ext[n.val]?).getD none).map (fun y => (y.copies, y.judged, y.passed)) = some (min 4 (x.copies + 1),
    x.judged + 1, x.passed) ∧ t.regs = s.regs) ∧
  (∀ (n : Fin 4) (r : FrameCheck) (x : ExtSt) (s : State), s.quiet → (s.chn.ext[n.val]?).getD none = some x → x.left =
    0 → x.doomed = false → s.checkOk n r = true → x.copies ≤ x.judged + 1 → ∃ t, exec (.commitRecordVerdict n r) s =
    .next t ∧ t.get (CHN_EXT_CNT_COMMITTED n) = (s.get (CHN_EXT_CNT_COMMITTED n) + 1) % ((CHN_EXT_CNT_COMMITTED n).top
    + 1) ∧ ((t.chn.ext[n.val]?).getD none) = none ∧ t.flag (OPU_STAT_GATE n) = false) ∧
  (∀ (n : Fin 4) (r : FrameCheck) (x : ExtSt) (s : State), s.quiet → (s.chn.ext[n.val]?).getD none = some x → x.left =
    0 → s.checkOk n r = false → x.passed = 0 → min 4 (x.copies + 1) ≤ x.judged + 1 → ∃ t, exec (.commitRecordVerdict n
    r) s = .next t ∧ t.get (CHN_EXT_CNT_ABORTED n) = min (CHN_EXT_CNT_ABORTED n).top (s.get (CHN_EXT_CNT_ABORTED n) +
    1) ∧ ((t.chn.ext[n.val]?).getD none) = none ∧ (t.reg (keySrc (0x030 + n) 0)).toNat = min 0xFFFFFFFF ((s.reg
    (keySrc (0x030 + n) 0)).toNat + 1)) ∧
  (∀ (n : Fin 4) (errors : List (BitVec 16)) (control : List Byte) (l slot : Nat) (s : State),
    (s.chn.opc[n.val]?).getD none = some l → s.discAt n = some slot → l < 24 → (nth errors (bestStep errors)
    0xFFFF).toNat ≤ 1000 → bestStep errors ≠ 0 → bestStep errors ≠ 10 → s.wsValid n l = true → ∃ t, exec (.opcDone n
    errors true control) s = .next t ∧ t.get (CHN_OPC_STAT_RES n) = 1 ∧ t.flag (CHN_OPC_STAT_FAILED n) = false ∧ t.get
    (CHN_OPC_STAT_STEP n) = bestStep errors ∧ t.get (CHN_OPC_STAT_ERRORS n) = (nth errors (bestStep errors)
    0xFFFF).toNat ∧ t.get (CHN_WS_W0_PW n l) = scaled (s.get (CHN_WS_W0_PW n l)) (bestStep errors) % ((CHN_WS_W0_PW n
    l).top + 1) ∧ (t.layerOf slot (n.val % 2) l).opcDone = true) ∧
  (∀ (n : Fin 4) (errors : List (BitVec 16)) (control : List Byte) (l slot : Nat) (s : State),
    (s.chn.opc[n.val]?).getD none = some l → s.discAt n = some slot → l < 24 → (nth errors (bestStep errors)
    0xFFFF).toNat ≤ 1000 → bestStep errors ≠ 0 → bestStep errors ≠ 10 → s.wsValid n l = false → ∃ t, exec (.opcDone n
    errors true control) s = .next t ∧ t.get (CHN_OPC_STAT_RES n) = 1 ∧ t.wsValid n l = true ∧ t.flag
    (CHN_WR_STAT_WS_VALID n) = true ∧ (t.layerOf slot (n.val % 2) l).opcDone = true) ∧
  (∀ (n : Fin 4) (errors : List (BitVec 16)) (control : List Byte) (l slot : Nat) (s : State),
    (s.chn.opc[n.val]?).getD none = some l → s.discAt n = some slot → (1000 < (nth errors (bestStep errors)
    0xFFFF).toNat ∨ bestStep errors = 0 ∨ bestStep errors = 10) → ∃ t, exec (.opcDone n errors true control) s = .next
    t ∧ t.get (CHN_OPC_STAT_RES n) = 1 ∧ t.flag (CHN_OPC_STAT_FAILED n) = true ∧ (t.layerOf slot (n.val % 2)
    l).unwritable = true ∧ (t.reg (keySrc (0x034 + n / 2) 0)).toNat = min 0xFFFFFFFF ((s.reg (keySrc (0x034 + n / 2)
    0)).toNat + 1)) ∧
  (∀ (n : Fin 4) (errors : List (BitVec 16)) (control : List Byte) (l slot : Nat) (s : State),
    (s.chn.opc[n.val]?).getD none = some l → s.discAt n = some slot → ∃ t, exec (.opcDone n errors false control) s =
    .next t ∧ (t.layerOf slot (n.val % 2) l).opcDone = true ∧ t.reg (CHN_OPC_STAT n) = s.reg (CHN_OPC_STAT n) ∧
    (t.chn.opc[n.val]?).getD none = none ∧ (t.reg (keySrc (0x034 + n / 2) 0)).toNat = min 0xFFFFFFFF ((s.reg (keySrc
    (0x034 + n / 2) 0)).toNat + 1)) ∧
  (∀ (p : Path) (n : Fin 4) (s : State), s.silent p = false → s.readRefusal p false = none → s.get (CHN_OPC_STAT_RES
    n) = 1 → ∃ t, exec (.opcStatRead p n) s = .next t ∧ t.wstat = stOk ∧ t.rdata = [s.reg (CHN_OPC_STAT n)] ∧ t.get
    (CHN_OPC_STAT_RES n) = 2) ∧
  (∀ (p : Path) (n : Fin 4) (s : State), s.opens p → ∃ t, exec (.opcAck p n) s = .next t ∧ t.wstat = stOk ∧ t.reg
    (CHN_OPC_STAT n) = 0 ∧ (∀ a, a ≠ NET_SVC_STAT → a ≠ CHN_OPC_STAT n → t.reg a = s.reg a)) ∧
  (∀ (p : Path) (n : Fin 4) (errors : List (BitVec 16)) (area : Bool) (control : List Byte) (s t : State), (exec
    (.opcDone n errors area control) s = .next t ∨ exec (.opcAck p n) s = .next t ∨ exec (.opcStatRead p n) s = .next
    t) → t = { s with regs := t.regs, wstat := t.wstat, rdata := t.rdata, chn := t.chn, plc := t.plc, flt := t.flt } ∧
    (∀ a, outside [4, 9] a → t.reg a = s.reg a))

/-- WRITE_FRONT_SEARCH of a tracked layer without a located front sets it to where the search of the frames read ends;
  INDEX_FRAME_WRITE of a due frame that verified takes up to 31 records from the layer's pending list, and one that
  failed takes none and leaves the frame due at the next position with the same IDX_SEQ; the first one in a full area
  counts INDEX_FULL; INDEX_AGE_EXPIRY makes a frame due when the oldest record is AGE seconds old; RELOCATION_WRITE at
  a write session writes the first block queued for the side, counts it and leaves one fewer pending. (R184, R185,
  R186, R216, R217.) -/
def Obligations.LayersKeepTheirFrontsAndRecords : Prop :=
  (∀ (n : Fin 4) (layer : BitVec 5) (reads : List FrameSeen) (slot : Nat) (s : State), s.discAt n = some slot →
    layer.toNat < 24 → s.puState n = puTracking → s.get (OPU_LAYER_CUR n) = layer.toNat → (s.layerOf slot (n.val % 2)
    layer.toNat).found = false → ∃ t, exec (.writeFrontSearch n layer reads) s = .next t ∧ (t.layerOf slot (n.val % 2)
    layer.toNat).found = true ∧ (t.layerOf slot (n.val % 2) layer.toNat).front = (searchFront true reads (reads.length
    + 1) (searchFrom reads) []).1) ∧
  (∀ (n : Fin 4) (layer : BitVec 5) (r : FrameCheck) (slot : Nat) (s : State), s.quiet → s.discAt n = some slot →
    layer.toNat < 24 → (s.layerOf slot (n.val % 2) layer.toNat).pending ≠ [] → (s.layerOf slot (n.val % 2)
    layer.toNat).due = true → s.checkFrame n r = true → (s.layerOf slot (n.val % 2) layer.toNat).idxUsed < 147072 → ∃
    t, exec (.indexFrameWrite n layer r) s = .next t ∧ (t.layerOf slot (n.val % 2) layer.toNat).pending = (s.layerOf
    slot (n.val % 2) layer.toNat).pending.drop 31 ∧ (t.layerOf slot (n.val % 2) layer.toNat).idxUsed = (s.layerOf slot
    (n.val % 2) layer.toNat).idxUsed + 1 ∧ (t.layerOf slot (n.val % 2) layer.toNat).idxSeq = (s.layerOf slot (n.val %
    2) layer.toNat).idxSeq + 1 ∧ (t.layerOf slot (n.val % 2) layer.toNat).due = decide (31 ≤ ((s.layerOf slot (n.val %
    2) layer.toNat).pending.drop 31).length)) ∧
  (∀ (n : Fin 4) (layer : BitVec 5) (r : FrameCheck) (slot : Nat) (s : State), s.discAt n = some slot → layer.toNat <
    24 → (s.layerOf slot (n.val % 2) layer.toNat).pending ≠ [] → (s.layerOf slot (n.val % 2) layer.toNat).due = true →
    s.checkFrame n r = false → ∃ t, exec (.indexFrameWrite n layer r) s = .next t ∧ (t.layerOf slot (n.val % 2)
    layer.toNat).pending = (s.layerOf slot (n.val % 2) layer.toNat).pending ∧ (t.layerOf slot (n.val % 2)
    layer.toNat).due = true ∧ (t.layerOf slot (n.val % 2) layer.toNat).idxUsed = (s.layerOf slot (n.val % 2)
    layer.toNat).idxUsed + 1 ∧ (t.layerOf slot (n.val % 2) layer.toNat).idxSeq = (s.layerOf slot (n.val % 2)
    layer.toNat).idxSeq) ∧
  (∀ (n : Fin 4) (layer : BitVec 5) (r : FrameCheck) (slot : Nat) (s : State), s.discAt n = some slot → layer.toNat <
    24 → (s.layerOf slot (n.val % 2) layer.toNat).pending ≠ [] → (s.layerOf slot (n.val % 2) layer.toNat).due = true →
    s.checkFrame n r = false → 147072 ≤ (s.layerOf slot (n.val % 2) layer.toNat).idxUsed → (s.layerOf slot (n.val % 2)
    layer.toNat).idxFull = false → ∃ t, exec (.indexFrameWrite n layer r) s = .next t ∧ (t.layerOf slot (n.val % 2)
    layer.toNat).idxFull = true ∧ (t.reg (keySrc (0x034 + n / 2) 0)).toNat = min 0xFFFFFFFF ((s.reg (keySrc (0x034 + n
    / 2) 0)).toNat + 1)) ∧
  (∀ (n : Fin 4) (layer : BitVec 5) (r : FrameCheck) (slot : Nat) (s : State), s.discAt n = some slot → ((s.layerOf
    slot (n.val % 2) layer.toNat).pending = [] ∨ (s.layerOf slot (n.val % 2) layer.toNat).due = false) → ∃ t, exec
    (.indexFrameWrite n layer r) s = .next t ∧ t = s) ∧
  (∀ (slot : BitVec 5) (side : Fin 2) (layer : BitVec 5) (r : IdxRec) (s : State), (s.layerOf slot.toNat side
    layer.toNat).pending.head? = some r → s.get CHN_IDX_CFG_AGE * 500000 ≤ s.tick - r.at_ → ∃ t, exec (.indexAgeExpiry
    slot side layer) s = .next t ∧ (t.layerOf slot.toNat side layer.toNat).due = true ∧ (t.layerOf slot.toNat side
    layer.toNat).pending = (s.layerOf slot.toNat side layer.toNat).pending ∧ t.regs = s.regs) ∧
  (∀ (n : Fin 4) (slot : Nat) (r : RelocSt) (s : State), s.discAt n = some slot → s.flag (OPU_STAT_WRITE_MODE n) =
    true → s.puState n = puTracking → (s.chn.ext[n.val]?).getD none = none → s.chn.reloc.find? (fun r => some r.slot
    == s.discAt n && r.side == n.val % 2) = some r → (s.layerOf slot r.side r.layer).front + 18 ≤ (s.layerOf slot
    r.side r.layer).spareRun → r.layer < 24 → ∃ t, exec (.relocationWrite n) s = .next t ∧ t.get (CHN_RELOC_DONE) =
    (s.get (CHN_RELOC_DONE) + 1) % ((CHN_RELOC_DONE).top + 1) ∧ t.chn.reloc.length + 1 = s.chn.reloc.length ∧
    (t.layerOf slot r.side r.layer).spareLow = (s.layerOf slot r.side r.layer).spareRun - 18) ∧
  (∀ (n : Fin 4) (layer : BitVec 5) (reads : List FrameSeen) (slot : BitVec 5) (side : Fin 2) (s t : State), (exec
    (.writeFrontSearch n layer reads) s = .next t ∨ exec (.indexAgeExpiry slot side layer) s = .next t ∨ exec
    (.relocationWrite n) s = .next t) → t = { s with regs := t.regs, chn := t.chn, plc := t.plc, flt := t.flt } ∧ (∀
    a, outside [4, 8] a → t.reg a = s.reg a))

/-- In MAINTAIN with no campaign on the station: an accepted SPIN of a station OFF with homed sleds enters ALIGN with its
  target and counts a spin-up; SPIN in RUN sets the new target; one that is not accepted reports REFUSED_STATE and
  leaves the state; STOP in RUN enters SPIN_DOWN with target 0, and in OFF is DONE; COAST in RUN enters COAST. ENABLE
  = 0 takes a turning station in RUN to SPIN_DOWN. Outside MAINTAIN SPN_CMD is refused. (R236, R237, R238, R239, R248,
  R276, R645.) -/
def Obligations.SpindleOrders : Prop :=
  (∀ (p : Path) (st : Fin 2) (target : BitVec 16) (s : State), s.opens p → s.mode = modeMaintain → s.calHolds st =
    false → s.spinAccepted st target.toNat (s.calOk st) = true → s.spnState st = spOff → s.sledsHomed st = true → ∃ t,
    exec (.spin p st target) s = .next t ∧ t.wstat = stOk ∧ t.spnState st = spAlign ∧ t.get (SPN_SPEED_TARGET st) =
    target.toNat ∧ t.get (SPN_CMD_STAT_RESULT st) = 1 ∧ t.get (SPN_CMD_STAT_OP st) = 1 ∧ t.get (SPN_CNT_SPINUPS st) =
    (s.get (SPN_CNT_SPINUPS st) + 1) % ((SPN_CNT_SPINUPS st).top + 1)) ∧
  (∀ (p : Path) (st : Fin 2) (target : BitVec 16) (s : State), s.opens p → s.mode = modeMaintain → s.calHolds st =
    false → s.spinAccepted st target.toNat (s.calOk st) = true → s.spnState st = spRun → ∃ t, exec (.spin p st target)
    s = .next t ∧ t.wstat = stOk ∧ t.spnState st = spRun ∧ t.get (SPN_SPEED_TARGET st) = target.toNat ∧ t.get
    (SPN_CMD_STAT_RESULT st) = 1 ∧ t.flag (SPN_STAT_AT_SPEED st) = false) ∧
  (∀ (p : Path) (st : Fin 2) (target : BitVec 16) (s : State), s.opens p → s.mode = modeMaintain → s.spinAccepted st
    target.toNat (s.calOk st) = false → ∃ t, exec (.spin p st target) s = .next t ∧ t.wstat = stOk ∧ t.get
    (SPN_CMD_STAT_RESULT st) = 3 ∧ t.spnState st = s.spnState st ∧ t.get (SPN_SPEED_TARGET st) = s.get
    (SPN_SPEED_TARGET st)) ∧
  (∀ (p : Path) (st : Fin 2) (s : State), s.opens p → s.mode = modeMaintain → s.calHolds st = false → s.spnState st =
    spRun → ∃ t, exec (.spnStop p st) s = .next t ∧ t.wstat = stOk ∧ t.spnState st = spDown ∧ t.get (SPN_SPEED_TARGET
    st) = 0 ∧ t.get (SPN_STAT_BRAKE st) = s.firstBrake st ∧ t.get (SPN_CMD_STAT_RESULT st) = 1) ∧
  (∀ (p : Path) (st : Fin 2) (s : State), s.opens p → s.mode = modeMaintain → s.calHolds st = false → s.spnState st =
    spOff → ∃ t, exec (.spnStop p st) s = .next t ∧ t.wstat = stOk ∧ t.spnState st = spOff ∧ t.get
    (SPN_CMD_STAT_RESULT st) = 0) ∧
  (∀ (p : Path) (st : Fin 2) (s : State), s.opens p → s.mode = modeMaintain → s.calHolds st = false → s.spnState st =
    spRun → ∃ t, exec (.coast p st) s = .next t ∧ t.wstat = stOk ∧ t.spnState st = spCoast ∧ t.get (SPN_SPEED_TARGET
    st) = 0 ∧ t.get (SPN_STAT_BRAKE st) = 4 ∧ t.get (SPN_CMD_STAT_RESULT st) = 1) ∧
  (∀ (p : Path) (st : Fin 2) (s : State), s.opens p → s.spnState st = spRun → s.flag (SPN_STAT_STOPPED st) = false → ∃
    t, exec (.spnEnable p st false) s = .next t ∧ t.wstat = stOk ∧ t.flag (SPN_CTL_ENABLE st) = false ∧ t.spnState st
    = spDown ∧ t.get (SPN_SPEED_TARGET st) = 0) ∧
  (∀ (p : Path) (st : Fin 2) (s : State), s.opens p → ∃ t, exec (.spnEnable p st true) s = .next t ∧ t.wstat = stOk ∧
    t.flag (SPN_CTL_ENABLE st) = true ∧ (∀ a, a ≠ NET_SVC_STAT → a ≠ SPN_CTL st → t.reg a = s.reg a)) ∧
  (∀ (p : Path) (st : Fin 2) (s : State), s.opens p → s.mode ≠ modeMaintain → ∃ t, exec (.spnStop p st) s = .next t ∧
    t.wstat = stRegRefused ∧ (∀ a, a ≠ NET_SVC_STAT → t.reg a = s.reg a)) ∧
  (∀ (p : Path) (st : Fin 2) (target : BitVec 16) (en : Bool) (s t : State), (exec (.spin p st target) s = .next t ∨
    exec (.spnStop p st) s = .next t ∨ exec (.coast p st) s = .next t ∨ exec (.spnEnable p st en) s = .next t) → t =
    { s with regs := t.regs, wstat := t.wstat, stn := t.stn, ce := t.ce, ax := t.ax, pu := t.pu, flt := t.flt } ∧ (∀
    a, outside [2, 5, 6, 9] a → t.reg a = s.reg a))

/-- ALIGN_DONE at the end of the alignment with enough quality enters START; a first pass with too little is repeated, a
  second one counts a fault and falls back to 0 degrees in ALIGN. The first encoder index sets the count to 0 and
  INDEXED and takes START to RUN; one within INDEX_TOL only counts a revolution, and one outside it is counted as a
  fault and invalidates the encoder. AT_SPEED after 50 ms near the target ends the order DONE; STOPPED after 50 ms
  below 30 rpm clears INDEXED, takes SPIN_DOWN and COAST to OFF, and a station that was re-caught to UNUSABLE;
  SPIN_TMO 2.5 s after the order counts a fault; KE_CHECK after 50,000 ticks of a window shows the constant that the
  window measured. (R227, R229, R230, R231, R236, R241, R243, R245.) -/
def Obligations.SpindleStartsAndTurns : Prop :=
  (∀ (st : Fin 2) (slopes : Vector (BitVec 16) 6) (s : State), s.spnState st = spAlign → (s.stnOf st).fallAt = none →
    (s.stnOf st).vec = 6 → s.get (SPN_INIT_MIN_DIFF st) ≤ (alignAngle slopes).2 → ∃ t, exec (.alignDone st slopes) s =
    .next t ∧ t.spnState st = spStart ∧ t.flag (SPN_INIT_STAT_VALID st) = true ∧ t.get (SPN_INIT_STAT_ANGLE st) =
    (alignAngle slopes).1 ∧ t.get (SPN_INIT_STAT_QUALITY st) = (alignAngle slopes).2) ∧
  (∀ (st : Fin 2) (slopes : Vector (BitVec 16) 6) (s : State), s.spnState st = spAlign → (s.stnOf st).fallAt = none →
    (s.stnOf st).vec = 6 → (alignAngle slopes).2 < s.get (SPN_INIT_MIN_DIFF st) → (s.stnOf st).pass2 = false → ∃ t,
    exec (.alignDone st slopes) s = .next t ∧ t.spnState st = spAlign ∧ (t.stnOf st).pass2 = true ∧ (t.stnOf st).vec =
    0 ∧ (t.stnOf st).vecAt = s.tick) ∧
  (∀ (st : Fin 2) (slopes : Vector (BitVec 16) 6) (s : State), s.spnState st = spAlign → (s.stnOf st).fallAt = none →
    (s.stnOf st).vec = 6 → (alignAngle slopes).2 < s.get (SPN_INIT_MIN_DIFF st) → (s.stnOf st).pass2 = true → ∃ t,
    exec (.alignDone st slopes) s = .next t ∧ t.spnState st = spAlign ∧ (t.stnOf st).fallAt = some s.tick ∧ t.flag
    (SPN_INIT_STAT_FALLBACK st) = true ∧ t.get (SPN_INIT_STAT_ANGLE st) = 0 ∧ (t.reg (keySrc (0x040 + st) 0)).toNat =
    min 0xFFFFFFFF ((s.reg (keySrc (0x040 + st) 0)).toNat + 1)) ∧
  (∀ (st : Fin 2) (count : BitVec 17) (s : State), s.flag (SPN_STAT_INDEXED st) = false → ∃ t, exec (.encoderIndex st
    count) s = .next t ∧ t.flag (SPN_STAT_INDEXED st) = true ∧ t.get (SPN_ANGLE_COUNT st) = 0 ∧ t.spnState st = (if
    s.spnState st = spStart then spRun else s.spnState st) ∧ t.get (SPN_ANGLE_REVS st) = (s.get (SPN_ANGLE_REVS st) +
    1) % ((SPN_ANGLE_REVS st).top + 1)) ∧
  (∀ (st : Fin 2) (count : BitVec 17) (s : State), s.flag (SPN_STAT_INDEXED st) = true → (count.toNat ≤ s.get
    (SPN_ENC_CFG_INDEX_TOL st) ∨ 131072 ≤ count.toNat + s.get (SPN_ENC_CFG_INDEX_TOL st)) → ∃ t, exec (.encoderIndex
    st count) s = .next t ∧ t.get (SPN_ANGLE_REVS st) = (s.get (SPN_ANGLE_REVS st) + 1) % ((SPN_ANGLE_REVS st).top +
    1) ∧ (∀ a, a ≠ SPN_ANGLE st → t.reg a = s.reg a)) ∧
  (∀ (st : Fin 2) (count : BitVec 17) (s : State), s.flag (SPN_STAT_INDEXED st) = true → s.get (SPN_ENC_CFG_INDEX_TOL
    st) < count.toNat → count.toNat + s.get (SPN_ENC_CFG_INDEX_TOL st) < 131072 → ∃ t, exec (.encoderIndex st count) s
    = .next t ∧ t.flag (SPN_STAT_ENC_VALID st) = false ∧ t.spnState st = s.spnState st ∧ t.get (SPN_ANGLE_REVS st) =
    (s.get (SPN_ANGLE_REVS st) + 1) % ((SPN_ANGLE_REVS st).top + 1) ∧ (t.reg (keySrc (0x040 + st) 0)).toNat = min
    0xFFFFFFFF ((s.reg (keySrc (0x040 + st) 0)).toNat + 1)) ∧
  (∀ (st : Fin 2) (s : State), s.spnState st = spRun → s.get (SPN_SPEED_TARGET st) ≠ 0 → 25000 ≤ (s.stnOf st).nearRun
    → ∃ t, exec (.atSpeed st) s = .next t ∧ t.flag (SPN_STAT_AT_SPEED st) = true ∧ t.get (SPN_CMD_STAT_RESULT st) =
    (if (s.stnOf st).running = true then 0 else s.get (SPN_CMD_STAT_RESULT st)) ∧ (t.stnOf st).orderAt = none ∧
    t.spnState st = spRun) ∧
  (∀ (st : Fin 2) (s : State), 25000 ≤ (s.stnOf st).slowRun → (s.spnState st = spDown ∨ s.spnState st = spCoast) →
    (s.stnOf st).recaught = false → ∃ t, exec (.stopped st) s = .next t ∧ t.flag (SPN_STAT_STOPPED st) = true ∧ t.flag
    (SPN_STAT_INDEXED st) = false ∧ t.spnState st = spOff ∧ t.get (SPN_STAT_SRC st) = 0) ∧
  (∀ (st : Fin 2) (s : State), 25000 ≤ (s.stnOf st).slowRun → s.spnState st = spDown → (s.stnOf st).recaught = true →
    ∃ t, exec (.stopped st) s = .next t ∧ t.flag (SPN_STAT_STOPPED st) = true ∧ t.flag (SPN_STAT_INDEXED st) = false ∧
    t.spnState st = spUnusable) ∧
  (∀ (st : Fin 2) (k : Nat) (s : State), (s.stnOf st).orderAt = some k → 1250000 ≤ s.tick - k → ∃ t, exec (.spinTmo
    st) s = .next t ∧ (t.reg (keySrc (0x040 + st) 0)).toNat = min 0xFFFFFFFF ((s.reg (keySrc (0x040 + st) 0)).toNat +
    1) ∧ t.get (SPN_CMD_STAT_RESULT st) = (if (s.stnOf st).running = true then 4 else s.get (SPN_CMD_STAT_RESULT st))
    ∧ (t.stnOf st).orderAt = none) ∧
  (∀ (st : Fin 2) (s : State), 50000 ≤ (s.stnOf st).keN → ∃ t, exec (.keCheck st) s = .next t ∧ t.get (SPN_KE_MEAS st)
    = (s.stnOf st).ke % ((SPN_KE_MEAS st).top + 1) ∧ t.get (SPN_KE_STAT_CHECKS st) = (s.get (SPN_KE_STAT_CHECKS st) +
    1) % ((SPN_KE_STAT_CHECKS st).top + 1) ∧ (t.stnOf st).keN = 0) ∧
  (∀ (st : Fin 2) (slopes : Vector (BitVec 16) 6) (count : BitVec 17) (s t : State), (exec (.alignDone st slopes) s =
    .next t ∨ exec (.encoderIndex st count) s = .next t ∨ exec (.atSpeed st) s = .next t ∨ exec (.stopped st) s =
    .next t ∨ exec (.spinTmo st) s = .next t ∨ exec (.keCheck st) s = .next t) → t =
    { s with regs := t.regs, stn := t.stn, ce := t.ce, flt := t.flt } ∧ (∀ a, outside [2, 5] a → t.reg a = s.reg a))

/-- ENC_LOST after 4 ticks of amplitude out of range and OBSERVER_INVALID after 8 ticks of residual beyond its limit clear
  their source's valid bit, the first counted as a fault; ROTOR_DISAGREE after 8 ticks apart with both sources valid
  is counted; ROTOR_LOST in START, RUN, or SPIN_DOWN above 600 rpm without a source enters RECATCH, records the speed
  and parks the pickups; three zero-crossing speeds within 5% and 8 agreeing ticks within 50 ms enter SPIN_DOWN on the
  back-EMF; the time-out opens the bridge; 200 ms after the loss the short brake starts, and below 60 rpm the station
  is UNUSABLE; an over-current makes a turning station coast, takes ALIGN to OFF, and fails the order. (R224, R226,
  R232, R233, R246, R247.) -/
def Obligations.RotorLossAndCurrentTrips : Prop :=
  (∀ (st : Fin 2) (s : State), 4 ≤ (s.stnOf st).ampRun → ∃ t, exec (.encLost st) s = .next t ∧ t.flag
    (SPN_STAT_ENC_VALID st) = false ∧ (t.reg (keySrc (0x040 + st) 0)).toNat = min 0xFFFFFFFF ((s.reg (keySrc (0x040 +
    st) 0)).toNat + 1) ∧ t.spnState st = s.spnState st) ∧
  (∀ (st : Fin 2) (s : State), 8 ≤ (s.stnOf st).resRun → ∃ t, exec (.observerInvalid st) s = .next t ∧ t.flag
    (SPN_STAT_OBS_VALID st) = false ∧ (∀ a, a ≠ SPN_STAT st → t.reg a = s.reg a)) ∧
  (∀ (st : Fin 2) (s : State), s.encOk st = true → s.obsOk st = true → 8 ≤ (s.stnOf st).disRun → ∃ t, exec
    (.rotorDisagree st) s = .next t ∧ t.get (SPN_DIS_CNT_DISAGREE st) = min (SPN_DIS_CNT_DISAGREE st).top (s.get
    (SPN_DIS_CNT_DISAGREE st) + 1) ∧ (t.reg (keySrc (0x040 + st) 0)).toNat = min 0xFFFFFFFF ((s.reg (keySrc (0x040 +
    st) 0)).toNat + 2)) ∧
  (∀ (st : Fin 2) (s : State), (s.spnState st = spStart ∨ s.spnState st = spRun ∨ (s.spnState st = spDown ∧ 4800 <
    s.speedOf st)) → s.source st = 0 → ∃ t, exec (.rotorLost st) s = .next t ∧ t.spnState st = spRecatch ∧ (t.stnOf
    st).lostAt = s.tick ∧ t.get (SPN_LOST_STAT_SPEED st) = s.rpm st % ((SPN_LOST_STAT_SPEED st).top + 1) ∧ t.get
    (SPN_STAT_BRAKE st) = 4 ∧ t.flag (OPU_STAT_GATE (2 * st)) = false ∧ t.flag (OPU_STAT_GATE (2 * st + 1)) = false ∧
    (t.reg (keySrc (0x040 + st) 0)).toNat = min 0xFFFFFFFF ((s.reg (keySrc (0x040 + st) 0)).toNat + 1)) ∧
  (∀ (st : Fin 2) (speeds : Vector (BitVec 16) 3) (agree : BitVec 8) (s : State), s.spnState st = spRecatch → (s.stnOf
    st).noRecatch = false → s.tick - (s.stnOf st).lostAt ≤ 25000 → 8 ≤ agree.toNat → (∀ i : Fin 3, 95 * s.get
    (SPN_LOST_STAT_SPEED st) ≤ 100 * speeds[i].toNat ∧ 100 * speeds[i].toNat ≤ 105 * s.get (SPN_LOST_STAT_SPEED st)) →
    ∃ t, exec (.recatchSuccess st speeds agree) s = .next t ∧ t.spnState st = spDown ∧ t.get (SPN_STAT_SRC st) = 3 ∧
    t.get (SPN_LOST_STAT_OUTCOME st) = 1 ∧ (t.stnOf st).recaught = true) ∧
  (∀ (st : Fin 2) (s : State), s.spnState st = spRecatch → 25000 ≤ s.tick - (s.stnOf st).lostAt → ∃ t, exec
    (.recatchTimeout st) s = .next t ∧ t.spnState st = spRecatch ∧ (t.stnOf st).noRecatch = true) ∧
  (∀ (st : Fin 2) (s : State), s.spnState st = spRecatch → 100000 ≤ s.tick - (s.stnOf st).lostAt → ∃ t, exec
    (.shortBrakeStart st) s = .next t ∧ t.spnState st = spShort ∧ t.get (SPN_STAT_BRAKE st) = 6 ∧ (∀ a, a ≠ SPN_STAT
    st → t.reg a = s.reg a)) ∧
  (∀ (st : Fin 2) (s : State), s.spnState st = spShort → s.get (SPN_OBS_SPEED st) < 480 → ∃ t, exec (.shortBrakeEnd
    st) s = .next t ∧ t.spnState st = spUnusable ∧ t.get (SPN_LOST_STAT_OUTCOME st) = 2 ∧ (t.stnOf st).forGood = true) ∧
  (∀ (st : Fin 2) (leg : Fin 3) (s : State), (s.spnState st = spRun ∨ s.spnState st = spDown ∨ s.spnState st =
    spStart) → ∃ t, exec (.spnOvercurrent st leg) s = .next t ∧ t.spnState st = spCoast ∧ t.get (SPN_STAT_BRAKE st) =
    4 ∧ t.get (SPN_SPEED_TARGET st) = 0 ∧ t.get (SPN_CMD_STAT_RESULT st) = (if (s.stnOf st).running = true then 4 else
    s.get (SPN_CMD_STAT_RESULT st)) ∧ (t.reg (keySrc (0x040 + st) 0)).toNat = min 0xFFFFFFFF ((s.reg (keySrc (0x040 +
    st) 0)).toNat + 1)) ∧
  (∀ (st : Fin 2) (leg : Fin 3) (s : State), s.spnState st = spAlign → ∃ t, exec (.spnOvercurrent st leg) s = .next t
    ∧ t.spnState st = spOff ∧ t.get (SPN_CMD_STAT_RESULT st) = (if (s.stnOf st).running = true then 4 else s.get
    (SPN_CMD_STAT_RESULT st)) ∧ (t.reg (keySrc (0x040 + st) 0)).toNat = min 0xFFFFFFFF ((s.reg (keySrc (0x040 + st)
    0)).toNat + 1)) ∧
  (∀ (st : Fin 2) (leg : Fin 3) (speeds : Vector (BitVec 16) 3) (agree : BitVec 8) (s t : State), (exec (.encLost st)
    s = .next t ∨ exec (.observerInvalid st) s = .next t ∨ exec (.rotorDisagree st) s = .next t ∨ exec (.rotorLost st)
    s = .next t ∨ exec (.recatchSuccess st speeds agree) s = .next t ∨ exec (.recatchTimeout st) s = .next t ∨ exec
    (.shortBrakeStart st) s = .next t ∨ exec (.shortBrakeEnd st) s = .next t ∨ exec (.spnOvercurrent st leg) s = .next
    t) → t = { s with regs := t.regs, stn := t.stn, ce := t.ce, pu := t.pu, ax := t.ax, flt := t.flt } ∧ (∀ a, outside
    [2, 3, 5, 6] a → t.reg a = s.reg a))

/-- VBUS_THRESHOLD shows VBUS, its row and band, and counts an entry into the 82 V row; VBUS_90V switches every bridge off
  and orders SAFE_STOP with CAUSE 6; UVLO latches and orders SAFE_STOP with CAUSE 7; HOLDUP_END ends hold-up; a
  chopper test pulse shows the measured and expected currents and marks a chopper out of band; BRK_STUCK, VIN_REVERSE,
  its clearing, BRK_HOT and RAIL_FAULT set their flags and counts. (R250, R251, R252, R253, R614, R616, R617, R619,
  R625.) -/
def Obligations.BusVoltageRowsTakeEffect : Prop :=
  (∀ (vbus : BitVec 16) (s : State), s.pwr.zone = 3 → 820 ≤ vbus.toNat → vbus.toNat < 900 → s.flag PWR_STAT_UV_WARN =
    false → ∃ t, exec (.vbusThreshold vbus) s = .next t ∧ t.get PWR_VBUS_VBUS = vbus.toNat ∧ t.pwr.zone = 4 ∧ t.get
    PWR_STAT_BAND = 5 ∧ t.get PWR_CNT_OV_82 = min PWR_CNT_OV_82.top (s.get PWR_CNT_OV_82 + 1) ∧ (t.reg (keySrc 0x0C0
    0)).toNat = min 0xFFFFFFFF ((s.reg (keySrc 0x0C0 0)).toNat + 1)) ∧
  (∀ (vbus : BitVec 16) (s : State), s.pwr.zone = 0 → 340 < vbus.toNat → vbus.toNat < 760 → ∃ t, exec (.vbusThreshold
    vbus) s = .next t ∧ t.get PWR_VBUS_VBUS = vbus.toNat ∧ t.pwr.zone = 0 ∧ t.owl.ring = s.owl.ring ∧ (∀ a, a ≠
    PWR_VBUS → a ≠ PWR_STAT → t.reg a = s.reg a)) ∧
  (∀ (vbus : BitVec 16) (s : State), 900 ≤ vbus.toNat → s.mode = modeServe → s.get UPD_STAT_STATE ≠ 5 →
    s.sys.safeStopDue = none → s.flag OWL_STAT_FROZEN = false → ∃ t, exec (.vbus90v vbus) s = .next t ∧
    t.sys.bridgesOff = true ∧ t.sys.safeStopDue = some 6 ∧ t.ce.outs = [] ∧ t.get PWR_STAT_BAND = 6 ∧ (t.reg (keySrc
    0x0C0 0)).toNat = min 0xFFFFFFFF ((s.reg (keySrc 0x0C0 0)).toNat + 1)) ∧
  (∀ (vbus : BitVec 16) (s : State), vbus.toNat ≤ 310 → s.flag PWR_STAT_UVLO = false → s.mode = modeServe → s.get
    UPD_STAT_STATE ≠ 5 → s.sys.safeStopDue = none → ∃ t, exec (.uvlo vbus) s = .next t ∧ t.flag PWR_STAT_UVLO = true ∧
    t.sys.safeStopDue = some 7 ∧ t.flag PWR_STAT_UV_WARN = true ∧ (s.spnState 0 = spRun → (t.stnOf 0).holdup = true) ∧
    t.owl.flushDue = s.sys.wdogArmed) ∧
  (∀ (st : Fin 2) (s : State), (s.stnOf st).holdup = true → s.rpm st < s.get (SPN_HOLD_MIN_RPM st) → ∃ t, exec
    (.holdupEnd st) s = .next t ∧ (t.stnOf st).holdup = false ∧ t.regs = s.regs) ∧
  (∀ (ma : BitVec 16) (s : State), s.flag PWR_STAT_BRK_FAULT = false → s.flag PWR_STAT_BRK_ON = false →
    s.pwr.choppedLast = false → s.get PWR_VBUS_VBUS < 760 → s.get PWR_BRK_CFG_RES ≠ 0 → s.chopperExpect < 65536 →
    outOfBand ma.toNat s.chopperExpect = true → ∃ t, exec (.chopperTestPulse ma) s = .next t ∧ t.get PWR_BRK_I_MEAS =
    ma.toNat ∧ t.get PWR_BRK_I_EXP = s.chopperExpect ∧ t.flag PWR_STAT_BRK_FAULT = true ∧ t.get PWR_BRK_E_TESTS =
    (s.get PWR_BRK_E_TESTS + 1) % (PWR_BRK_E_TESTS.top + 1) ∧ (t.reg (keySrc 0x0C0 0)).toNat = min 0xFFFFFFFF ((s.reg
    (keySrc 0x0C0 0)).toNat + 1)) ∧
  (∀ (ma : BitVec 16) (s : State), s.flag PWR_STAT_BRK_ON = false → ∃ t, exec (.brkStuck ma) s = .next t ∧ t.flag
    PWR_STAT_BRK_STUCK = true ∧ (t.reg (keySrc 0x0C0 0)).toNat = min 0xFFFFFFFF ((s.reg (keySrc 0x0C0 0)).toNat + 1) ∧
    t = { s with regs := t.regs, flt := t.flt }) ∧
  (∀ (s : State), 8 ≤ s.pwr.reverseFor → s.flag PWR_STAT_VIN_REVERSE = false → ∃ t, exec .vinReverse s = .next t ∧
    t.flag PWR_STAT_VIN_REVERSE = true ∧ (∀ a, a ≠ PWR_STAT → ¬ faultWord a → t.reg a = s.reg a) ∧ (t.reg (keySrc
    0x0C0 0)).toNat = min 0xFFFFFFFF ((s.reg (keySrc 0x0C0 0)).toNat + 1)) ∧
  (∀ (s : State), s.pwr.reverseFor < 8 → ∃ t, exec .vinReverse s = .next t ∧ t = s) ∧
  (∀ (s : State), s.flag PWR_STAT_VIN_REVERSE = true → s.pwr.reverseAt + 500000 ≤ s.tick → ∃ t, exec .vinReverseClear
    s = .next t ∧ t.flag PWR_STAT_VIN_REVERSE = false ∧ (∀ a, a ≠ PWR_STAT → t.reg a = s.reg a)) ∧
  (∀ (s : State), s.flag PWR_STAT_BRK_HOT = false → s.get PWR_BRK_CFG_RATING ≠ 0 → 60 * s.get PWR_BRK_CFG_RATING <
    s.get PWR_BRK_E_E60 → ∃ t, exec .brkHot s = .next t ∧ t.flag PWR_STAT_BRK_HOT = true ∧ (∀ a, a ≠ PWR_STAT → ¬
    faultWord a → t.reg a = s.reg a) ∧ (t.reg (keySrc 0x0C0 0)).toNat = min 0xFFFFFFFF ((s.reg (keySrc 0x0C0 0)).toNat
    + 1)) ∧
  (∀ (s : State), s.flag PWR_STAT_BRK_HOT = true → s.get PWR_BRK_E_E60 < 30 * s.get PWR_BRK_CFG_RATING → ∃ t, exec
    .brkHot s = .next t ∧ t.flag PWR_STAT_BRK_HOT = false ∧ (∀ a, a ≠ PWR_STAT → t.reg a = s.reg a)) ∧
  (∀ (rail : Fin 2) (s : State), 5 ≤ s.pwr.railBad[rail] → ∃ t, exec (.railFault rail) s = .next t ∧ (t.reg (keySrc
    0x0C0 0)).toNat = min 0xFFFFFFFF ((s.reg (keySrc 0x0C0 0)).toNat + 1) ∧ (∀ a, ¬ faultWord a → t.reg a = s.reg a) ∧
    t = { s with regs := t.regs, flt := t.flt }) ∧
  (∀ (vbus ma : BitVec 16) (rail : Fin 2) (s t : State), (exec (.vbusThreshold vbus) s = .next t ∨ exec
    (.chopperTestPulse ma) s = .next t ∨ exec (.brkStuck ma) s = .next t ∨ exec .vinReverse s = .next t ∨ exec
    .vinReverseClear s = .next t ∨ exec .brkHot s = .next t ∨ exec (.railFault rail) s = .next t) → t =
    { s with regs := t.regs, pwr := t.pwr, flt := t.flt, owl := t.owl } ∧ (∀ a, outside [0x11, 0x16] a → t.reg a =
    s.reg a))

/-- TJ_THRESHOLD above the warning and not above the stop value shows the temperature, sets TJ_WARN and counts a fault;
  above the stop value with TJ_WARN already set it counts a fault; TJ_HW_TRIP switches every bridge off and, in a mode
  that SAFE_STOP can follow, makes SAFE_STOP due with CAUSE 5. (R625.) -/
def Obligations.JunctionTemperaturesTrip : Prop :=
  (∀ (temp : BitVec 8) (s : State), s.get PWR_TEMP_WARN ≠ 0 → (s.get PWR_TEMP_WARN : Int) < temp.toInt → temp.toInt ≤
    (s.get PWR_TEMP_STOP : Int) → s.flag PWR_STAT_TJ_WARN = false → ∃ t, exec (.tjThreshold 0 temp) s = .next t ∧
    t.flag PWR_STAT_TJ_WARN = true ∧ t.get PWR_TEMP_TJ_SHELL = temp.toNat ∧ (t.reg (keySrc 0x0C0 0)).toNat = min
    0xFFFFFFFF ((s.reg (keySrc 0x0C0 0)).toNat + 1)) ∧
  (∀ (temp : BitVec 8) (s : State), s.get PWR_TEMP_WARN ≠ 0 → s.get PWR_TEMP_WARN ≤ s.get PWR_TEMP_STOP → (s.get
    PWR_TEMP_STOP : Int) < temp.toInt → s.flag PWR_STAT_TJ_WARN = true → ∃ t, exec (.tjThreshold 1 temp) s = .next t ∧
    t.flag PWR_STAT_TJ_WARN = true ∧ t.get PWR_TEMP_TJ_CORE = temp.toNat ∧ (t.reg (keySrc 0x0C0 0)).toNat = min
    0xFFFFFFFF ((s.reg (keySrc 0x0C0 0)).toNat + 1)) ∧
  (∀ (die : Fin 2) (s : State), s.mode = modeServe → s.get UPD_STAT_STATE ≠ 5 → s.sys.safeStopDue = none → ∃ t, exec
    (.tjHwTrip die) s = .next t ∧ t.sys.bridgesOff = true ∧ t.sys.safeStopDue = some 5 ∧ t.ce.outs = [] ∧ t.get (if
    die = 0 then PWR_TEMP_TJ_SHELL else PWR_TEMP_TJ_CORE) = 125) ∧
  (∀ (temp : BitVec 8) (die : Fin 2) (s t : State), exec (.tjThreshold die temp) s = .next t → t =
    { s with regs := t.regs, flt := t.flt } ∧ (∀ a, outside [0x16] a → t.reg a = s.reg a)) ∧
  (∀ (die : Fin 2) (s t : State), exec (.tjHwTrip die) s = .next t → t =
    { s with regs := t.regs, ce := t.ce, stn := t.stn, pu := t.pu, ax := t.ax, sys := t.sys } ∧ (∀ a, outside [2, 3,
    5, 6, 0x16] a → t.reg a = s.reg a))

/-- With good parameters and the rules of the corridor and of a tripped end kept, AX_START and AX_PARK of an idle axis
  start a move to AX_TGT or to the low limit; AX_STOP and ESTOP of a moving axis enter STOPPING, the second with
  EMERG_DEC; AX_HOME of an idle axis starts the search; AX_MODE 1 gears an idle sled and AX_MODE 0 takes an axis out
  of gear. Bad parameters report REFUSED_PARAM. AX_ENABLE takes a disabled axis to IDLE, and 0 switches a standing one
  off. (R266, R267, R271, R272, R273, R275, R278, R280, R281.) -/
def Obligations.AxisOrdersAreReported : Prop :=
  (∀ (p : Path) (a : Fin 7) (s : State), s.opens p → s.mode = modeMaintain → s.sledHeld a = false → s.axBadParam a
    (s.getInt (AX_TGT_TGT a)) = false → s.axState a = axIdle → s.zxRule a (s.getInt (AX_TGT_TGT a)) = true →
    s.awayFromTrip a (s.getInt (AX_TGT_TGT a)) = true → ∃ t, exec (.axStart p a) s = .next t ∧ t.wstat = stOk ∧
    t.axState a = axMoving ∧ (t.axOf a).dest = some (s.getInt (AX_TGT_TGT a)) ∧ t.get (AX_RES_RESULT a) = 1 ∧ t.get
    (AX_RES_OP a) = 1 ∧ t.get (AX_RES_SEQ a) = (s.get (AX_RES_SEQ a) + 1) % ((AX_RES_SEQ a).top + 1)) ∧
  (∀ (p : Path) (a : Fin 7) (s : State), s.opens p → s.mode = modeMaintain → s.sledHeld a = false → s.axBadParam a
    (s.getInt (AX_TGT_TGT a)) = true → ∃ t, exec (.axStart p a) s = .next t ∧ t.wstat = stOk ∧ t.get (AX_RES_RESULT a)
    = 6 ∧ t.axState a = s.axState a) ∧
  (∀ (p : Path) (a : Fin 7) (s : State), s.opens p → s.mode = modeMaintain → s.sledHeld a = false → s.axBadParam a
    (s.getInt (AX_SLIM_LO_LIM a)) = false → s.axState a = axIdle → s.zxRule a (s.getInt (AX_SLIM_LO_LIM a)) = true →
    s.awayFromTrip a (s.getInt (AX_SLIM_LO_LIM a)) = true → ∃ t, exec (.axPark p a) s = .next t ∧ t.wstat = stOk ∧
    t.axState a = axMoving ∧ (t.axOf a).dest = some (s.getInt (AX_SLIM_LO_LIM a)) ∧ t.get (AX_RES_RESULT a) = 1) ∧
  (∀ (p : Path) (a : Fin 7) (s : State), s.opens p → s.mode = modeMaintain → s.sledHeld a = false → s.axState a =
    axMoving → ∃ t, exec (.axStop p a) s = .next t ∧ t.wstat = stOk ∧ t.axState a = axStopping ∧ (t.axOf a).dest =
    none ∧ t.get (AX_RES_RESULT a) = 1 ∧ t.get (AX_RES_OP a) = 2) ∧
  (∀ (p : Path) (a : Fin 7) (s : State), s.opens p → s.mode = modeMaintain → s.sledHeld a = false → s.axState a =
    axMoving → ∃ t, exec (.estop p a) s = .next t ∧ t.wstat = stOk ∧ t.axState a = axStopping ∧ (t.axOf a).emerg =
    true ∧ t.get (AX_RES_RESULT a) = 1 ∧ t.get (AX_RES_OP a) = 3) ∧
  (∀ (p : Path) (a : Fin 7) (s : State), s.opens p → s.mode = modeMaintain → s.sledHeld a = false → s.axBadParam a
    (s.getInt (AX_SLIM_LO_LIM a)) = false → s.axState a = axIdle → (a.val = axZ → s.xInCorridor = true) → ∃ t, exec
    (.axHome p a) s = .next t ∧ t.wstat = stOk ∧ t.axState a = axHoming ∧ (t.axOf a).home = s.homeSearch a ∧ t.flag
    (AX_STAT_HOME_REV a) = s.endActive a (s.homeDir a) ∧ t.get (AX_RES_RESULT a) = 1) ∧
  (∀ (p : Path) (a : Fin 7) (s : State), s.opens p → s.mode = modeMaintain → s.sledHeld a = false → a.val < 4 →
    s.axState a = axIdle → ∃ t, exec (.axMode p a 1) s = .next t ∧ t.wstat = stOk ∧ t.axState a = axGeared ∧ t.get
    (AX_CTL_MODE a) = 1 ∧ t.get (AX_RES_RESULT a) = 0) ∧
  (∀ (p : Path) (a : Fin 7) (s : State), s.opens p → s.mode = modeMaintain → s.sledHeld a = false → ∃ t, exec (.axMode
    p a 0) s = .next t ∧ t.wstat = stOk ∧ t.axState a = (if s.axState a = axGeared then axIdle else s.axState a) ∧
    t.get (AX_CTL_MODE a) = 0 ∧ t.get (AX_RES_RESULT a) = 0) ∧
  (∀ (p : Path) (a : Fin 7) (s : State), s.opens p → s.axState a = axDisabled → ∃ t, exec (.axEnable p a true) s =
    .next t ∧ t.wstat = stOk ∧ t.axState a = axIdle ∧ t.flag (AX_CTL_ENABLE a) = true ∧ t.flag (AX_STAT_CHATTER a) =
    false) ∧
  (∀ (p : Path) (a : Fin 7) (s : State), s.opens p → s.axState a = axIdle → ∃ t, exec (.axEnable p a false) s = .next
    t ∧ t.wstat = stOk ∧ t.axState a = axDisabled ∧ t.flag (AX_CTL_ENABLE a) = false) ∧
  (∀ (p : Path) (a : Fin 7) (s : State), s.opens p → s.mode ≠ modeMaintain → ∃ t, exec (.axStop p a) s = .next t ∧
    t.wstat = stRegRefused ∧ (∀ b, b ≠ NET_SVC_STAT → t.reg b = s.reg b)) ∧
  (∀ (p : Path) (a : Fin 7) (m : BitVec 2) (en : Bool) (s t : State), (exec (.axStart p a) s = .next t ∨ exec (.axPark
    p a) s = .next t ∨ exec (.axStop p a) s = .next t ∨ exec (.estop p a) s = .next t ∨ exec (.axHome p a) s = .next t
    ∨ exec (.axMode p a m) s = .next t ∨ exec (.axEnable p a en) s = .next t) → t =
    { s with regs := t.regs, wstat := t.wstat, ax := t.ax } ∧ (∀ b, b / 0x1000 ≠ 0x60 + a → b ≠ NET_SVC_STAT → t.reg b
    = s.reg b))

/-- AX_PROFILE_WRITE stores its word and a moving axis latches it; AX_MOVE_DONE of a move that stands on its target leaves
  the axis idle on its target; AX_OVERCURRENT of a sled, and LIMIT_CHATTER with more than CHAT_N transitions of an
  input, count a fault and clear HOMED, the first leaving it DISABLED; a debounced switch that trips an idle sled
  counts a fault and clears HOMED; HOME shows its input; AX_DETENT sets DETENT; GEAR_CHANGE when armed and AX_GEAR_AT
  is reached makes NEXT the ratio. (R262, R265, R266, R268, R269, R274, R280, R281, R282, R283, R290.) -/
def Obligations.AxesMoveHomeAndTrip : Prop :=
  (∀ (p : Path) (a : Fin 7) (w : Fin 5) (v : Word) (s : State), s.opens p → w.val < 4 → ∃ t, exec (.axProfileWrite p a
    w v) s = .next t ∧ t.wstat = stOk ∧ t.reg (AX_VSS a + 4 * w.val) = v ∧ (s.axInMotion a = true → s.flag
    (AX_STAT_INTERP a) = false → (t.axOf a).latched = true) ∧ (∀ b, b ≠ NET_SVC_STAT → b ≠ AX_VSS a + 4 * w.val →
    t.reg b = s.reg b)) ∧
  (∀ (a : Fin 7) (d : Int) (s : State), s.axState a = axMoving → (s.axOf a).home = .no → (s.axOf a).dest = some d →
    (s.axOf a).offAfter = false → (s.axOf a).coarse = false → s.axAtRest a = true → -(2 ^ 31) ≤ d → d < 2 ^ 31 → ∃ t,
    exec (.axMoveDone a) s = .next t ∧ t.axState a = axIdle ∧ t.axPos a = d ∧ t.get (AX_VEL_VEL a) = 0 ∧ (t.axOf
    a).dest = none) ∧
  (∀ (a : Fin 7) (s : State), a.val < 4 → ∃ t, exec (.axOvercurrent a) s = .next t ∧ t.axState a = axDisabled ∧
    t.axHomed a = false ∧ (t.reg (keySrc (0x050 + a) 0)).toNat = min 0xFFFFFFFF ((s.reg (keySrc (0x050 + a) 0)).toNat
    + 1)) ∧
  (∀ (a : Fin 7) (i : Fin 3) (s : State), a.val < 4 → s.get (AX_LIM_CFG_CHAT_N a) < s.transOf a i → ∃ t, exec
    (.limitChatter a i) s = .next t ∧ t.flag (AX_STAT_CHATTER a) = true ∧ t.axHomed a = false ∧ t.get (AX_SW_CHAT_CNT
    a) = min (AX_SW_CHAT_CNT a).top (s.get (AX_SW_CHAT_CNT a) + 1) ∧ (t.reg (keySrc (0x050 + a) 0)).toNat = min
    0xFFFFFFFF ((s.reg (keySrc (0x050 + a) 0)).toNat + 1)) ∧
  (∀ (a : Fin 7) (s : State), a.val < 4 → s.axState a = axIdle → s.debounced a 2 true = true → ∃ t, exec
    (.limitSwitchChange a 2 true) s = .next t ∧ t.flag (AX_STAT_LIM_POS a) = true ∧ t.axHomed a = false ∧ (t.axOf
    a).tripped = some true ∧ t.axState a = axIdle ∧ (t.reg (keySrc (0x050 + a) 0)).toNat = min 0xFFFFFFFF ((s.reg
    (keySrc (0x050 + a) 0)).toNat + 1)) ∧
  (∀ (a : Fin 7) (active : Bool) (s : State), s.axState a ≠ axHoming → s.debounced a 0 active = true → ∃ t, exec
    (.limitSwitchChange a 0 active) s = .next t ∧ t.flag (AX_STAT_HOME_SW a) = active ∧ t.ax = s.ax ∧ (∀ b, b ≠ AX_SW
    a → b ≠ AX_STAT a → t.reg b = s.reg b)) ∧
  (∀ (a : Fin 7) (s : State), s.axState a = axIdle → s.flag (AX_CUR_AUTO_OFF a) = true → s.axPos a % 256 = 0 → 250000
    ≤ s.tick - (s.axOf a).since → ∃ t, exec (.axDetent a) s = .next t ∧ t.flag (AX_STAT_DETENT a) = true ∧ t.flag
    (AX_STAT_STRONG a) = false ∧ (∀ b, b ≠ AX_STAT a → t.reg b = s.reg b)) ∧
  (∀ (a : Fin 4) (s : State), s.flag (AX_GEAR_AT_ARM a) = true → s.gearAtReached a = true → ∃ t, exec (.gearChange a)
    s = .next t ∧ t.reg (AX_GEAR_RATIO a) = s.reg (AX_GEAR_NEXT a) ∧ t.flag (AX_GEAR_AT_ARM a) = false ∧ t.axState a =
    s.axState a ∧ (∀ b, b ≠ AX_GEAR_RATIO a → b ≠ AX_GEAR_AT a → t.reg b = s.reg b)) ∧
  (∀ (p : Path) (a : Fin 7) (g : Fin 4) (w : Fin 5) (v : Word) (s t : State), (exec (.axProfileWrite p a w v) s =
    .next t ∨ exec (.axMoveDone a) s = .next t ∨ exec (.axDetent a) s = .next t ∨ exec (.gearChange g) s = .next t) →
    t = { s with regs := t.regs, wstat := t.wstat, ax := t.ax } ∧ (∀ a, outside [6, 9] a → t.reg a = s.reg a))

/-- HOME_ALL, MOVE_ZX, LOAD, UNLOAD, EXCHANGE and RECOVER whose conditions hold and behind which no order of MAG_CMD runs
  are reported RUNNING with SEQ one higher and wait for the picker; a LOAD whose conditions fail reports
  REFUSED_STATE; outside MAINTAIN the write is refused. (R277, R284, R285, R286, R289, R290, R643.) -/
def Obligations.PickerOrdersWaitForTheGrant : Prop :=
  (∀ (p : Path) (s : State), s.opens p → s.mode = modeMaintain → (s.mag.run.any fun o => o.by_ == .maint) = false →
    s.magAccepts 1 0 0 = true → ∃ t, exec (.homeAll p) s = .next t ∧ t.wstat = stOk ∧ t.get MAG_CMD_STAT_RESULT = 1 ∧
    t.get MAG_CMD_STAT_OP = 1 ∧ t.get MAG_CMD_STAT_SEQ = (s.get MAG_CMD_STAT_SEQ + 1) % (MAG_CMD_STAT_SEQ.top + 1) ∧
    (t.mag.waiting.getLast?.map fun o => (o.by_, o.op)) = some (.maint, 1)) ∧
  (∀ (p : Path) (s : State), s.opens p → s.mode = modeMaintain → (s.mag.run.any fun o => o.by_ == .maint) = false →
    s.magAccepts 2 0 0 = true → ∃ t, exec (.moveZx p) s = .next t ∧ t.wstat = stOk ∧ t.get MAG_CMD_STAT_RESULT = 1 ∧
    t.get MAG_CMD_STAT_OP = 2 ∧ t.get MAG_CMD_STAT_SEQ = (s.get MAG_CMD_STAT_SEQ + 1) % (MAG_CMD_STAT_SEQ.top + 1) ∧
    (t.mag.waiting.getLast?.map fun o => (o.by_, o.op)) = some (.maint, 2)) ∧
  (∀ (p : Path) (st : Fin 2) (slot : BitVec 5) (s : State), s.opens p → s.mode = modeMaintain → (s.mag.run.any fun o
    => o.by_ == .maint) = false → slot.toNat ≤ 23 → s.magAccepts 3 st slot.toNat = true → ∃ t, exec (.load p st slot)
    s = .next t ∧ t.wstat = stOk ∧ t.get MAG_CMD_STAT_RESULT = 1 ∧ t.get MAG_CMD_STAT_OP = 3 ∧ t.get MAG_CMD_STAT_SEQ
    = (s.get MAG_CMD_STAT_SEQ + 1) % (MAG_CMD_STAT_SEQ.top + 1) ∧ (t.mag.waiting.getLast?.map fun o => (o.by_, o.op,
    o.stn, o.slot)) = some (.maint, 3, st.val, slot.toNat)) ∧
  (∀ (p : Path) (st : Fin 2) (slot : BitVec 5) (s : State), s.opens p → s.mode = modeMaintain → (s.mag.run.any fun o
    => o.by_ == .maint) = false → slot.toNat ≤ 23 → s.magAccepts 3 st slot.toNat = false → ∃ t, exec (.load p st slot)
    s = .next t ∧ t.wstat = stOk ∧ t.get MAG_CMD_STAT_RESULT = 3 ∧ t.ax = s.ax) ∧
  (∀ (p : Path) (st : Fin 2) (s : State), s.opens p → s.mode = modeMaintain → (s.mag.run.any fun o => o.by_ == .maint)
    = false → s.magAccepts 4 st 0 = true → ∃ t, exec (.unload p st) s = .next t ∧ t.wstat = stOk ∧ t.get
    MAG_CMD_STAT_RESULT = 1 ∧ t.get MAG_CMD_STAT_OP = 4 ∧ t.get MAG_CMD_STAT_SEQ = (s.get MAG_CMD_STAT_SEQ + 1) %
    (MAG_CMD_STAT_SEQ.top + 1) ∧ (t.mag.waiting.getLast?.map fun o => (o.by_, o.op, o.stn)) = some (.maint, 4,
    st.val)) ∧
  (∀ (p : Path) (st : Fin 2) (slot : BitVec 5) (s : State), s.opens p → s.mode = modeMaintain → (s.mag.run.any fun o
    => o.by_ == .maint) = false → slot.toNat ≤ 23 → s.magAccepts 5 st slot.toNat = true → ∃ t, exec (.exchange p st
    slot) s = .next t ∧ t.wstat = stOk ∧ t.get MAG_CMD_STAT_RESULT = 1 ∧ t.get MAG_CMD_STAT_OP = 5 ∧ t.get
    MAG_CMD_STAT_SEQ = (s.get MAG_CMD_STAT_SEQ + 1) % (MAG_CMD_STAT_SEQ.top + 1) ∧ (t.mag.waiting.getLast?.map fun o
    => (o.by_, o.op, o.stn, o.slot)) = some (.maint, 5, st.val, slot.toNat)) ∧
  (∀ (p : Path) (s : State), s.opens p → s.mode = modeMaintain → (s.mag.run.any fun o => o.by_ == .maint) = false →
    s.magState ≠ mgUnusable → ∃ t, exec (.recover p) s = .next t ∧ t.wstat = stOk ∧ t.get MAG_CMD_STAT_RESULT = 1 ∧
    t.get MAG_CMD_STAT_OP = 6 ∧ t.get MAG_CMD_STAT_SEQ = (s.get MAG_CMD_STAT_SEQ + 1) % (MAG_CMD_STAT_SEQ.top + 1) ∧
    (t.mag.waiting.getLast?.map fun o => (o.by_, o.op)) = some (.maint, 6)) ∧
  (∀ (p : Path) (s : State), s.opens p → s.mode ≠ modeMaintain → ∃ t, exec (.homeAll p) s = .next t ∧ t.wstat =
    stRegRefused ∧ (∀ a, a ≠ NET_SVC_STAT → t.reg a = s.reg a)) ∧
  (∀ (p : Path) (st : Fin 2) (slot : BitVec 5) (s t : State), (exec (.homeAll p) s = .next t ∨ exec (.moveZx p) s =
    .next t ∨ exec (.load p st slot) s = .next t ∨ exec (.unload p st) s = .next t ∨ exec (.exchange p st slot) s =
    .next t ∨ exec (.recover p) s = .next t) → t =
    { s with regs := t.regs, wstat := t.wstat, mag := t.mag, ax := t.ax } ∧ (∀ a, a / 0x10000 ≠ 6 → a / 0x10000 ≠ 7 →
    a ≠ NET_SVC_STAT → t.reg a = s.reg a))

/-- EXCHANGE_STEP_DONE once the moves have settled: of step 2 with the disc gripped forgets the station's source and
  starts step 3; of step 10 with the disc gripped it records the slot empty and starts step 11; step 15 of a
  maintenance order ends it DONE. GRIP_FAIL after 0.5 s without the disc in step 10 is counted and starts step 12.
  PICKER_WDOG past ARB_PK_WDOG, with no magazine axis disabled, ends the exchange FAILED with WATCHDOG, is counted and
  starts RECOVER. (R286, R287, R288, R289, R290, R293.) -/
def Obligations.ExchangesStepAndFail : Prop :=
  (∀ (o : MagOrder) (s : State), s.mag.stage = .exchange → s.mag.run = some o → s.magSettled = true → s.mag.plan = []
    → s.flag MAG_STAT_GRIP_DISC = true → s.get MAG_STAT_STEP = 2 → ∃ t, exec .exchangeStepDone s = .next t ∧ t.get
    MAG_STAT_STEP = 3 ∧ t.srcOf o.stn = none ∧ t.mag.holding = true ∧ t.flag MAG_STAT_GRIP_DISC = true) ∧
  (∀ (o : MagOrder) (s : State), s.mag.stage = .exchange → s.mag.run = some o → s.magSettled = true → s.mag.plan = []
    → s.flag MAG_STAT_GRIP_DISC = true → s.get MAG_STAT_STEP = 10 → o.slot < 24 → ∃ t, exec .exchangeStepDone s =
    .next t ∧ t.get MAG_STAT_STEP = 11 ∧ t.slotKnown o.slot = true ∧ t.slotFull o.slot = false ∧ t.mag.held = some
    o.slot) ∧
  (∀ (o : MagOrder) (s : State), s.mag.stage = .exchange → s.mag.run = some o → s.magSettled = true → s.mag.plan = []
    → s.get MAG_STAT_STEP = 15 → o.by_ = .maint → s.get MAG_CMD_STAT_RESULT = 1 → ∃ t, exec .exchangeStepDone s =
    .next t ∧ t.get MAG_CMD_STAT_RESULT = 0 ∧ t.get MAG_EXCH_STAT_OUTCOME = 1 ∧ t.mag.run = none ∧ t.mag.stage =
    .idle) ∧
  (∀ (o : MagOrder) (s : State), s.mag.stage = .exchange → s.mag.run = some o → s.gripStuck = true → s.get
    MAG_STAT_STEP = 10 → o.slot < 24 → ∃ t, exec .gripFail s = .next t ∧ t.get MAG_STAT_STEP = 12 ∧ t.mag.failing =
    some rsEmpty ∧ t.slotFull o.slot = false ∧ (t.reg (keySrc 0x057 0)).toNat = min 0xFFFFFFFF ((s.reg (keySrc 0x057
    0)).toNat + 1)) ∧
  (∀ (o : MagOrder) (s : State), s.mag.run = some o → s.pickerLate = true → (∀ a : Fin 7, 4 ≤ a.val → s.axState a =
    axIdle ∨ s.axInMotion a = true) → ∃ t, exec .pickerWdog s = .next t ∧ t.magState = mgRecover ∧ t.get
    MAG_EXCH_STAT_OUTCOME = 2 ∧ t.get MAG_EXCH_STAT_REASON = 4 ∧ t.mag.recovering = true ∧ (t.reg (keySrc 0x057
    0)).toNat = min 0xFFFFFFFF ((s.reg (keySrc 0x057 0)).toNat + 1)) ∧
  (∀ (s t : State), (exec .exchangeStepDone s = .next t ∨ exec .gripFail s = .next t ∨ exec .pickerWdog s = .next t) →
    t = { s with regs := t.regs, mag := t.mag, ax := t.ax, stn := t.stn, ce := t.ce, chn := t.chn, flt := t.flt } ∧ (∀
    a, outside [2, 4, 5, 6, 7] a → t.reg a = s.reg a))

/-- In SERVE or DRAIN: a message that fails authentication only counts BAD_TAG; one of another domain, or without an
  applied map, only counts FOREIGN; one of a lower epoch is answered with NACK and changes no register. A request
  repeated within a second is answered with the same reply. Outside SERVE and DRAIN a message changes nothing. (R41,
  R315, R318, R319.) -/
def Obligations.PeerMessagesAreScreened : Prop :=
  (∀ (h : PeerHdr) (r : Instr) (s : State), (r = .bid h none 0 0 ∨ r = .award h ∨ r = .dataAck h [] ∨ r = .progress h
    ∨ r = .peerCommitted h 0 ∨ r = .peerFailed h 0 ∨ r = .nack h 0 ∨ r = .tombAck h ∨ r = .hint h true 0 0 0 0 ∨ r =
    .hintReq h [] ∨ r = .peerData h 0 1 [] 0 0) → s.mode = modeServe ∨ s.mode = modeDrain → h.auth = false → ∃ t, exec
    r s = .next t ∧ t.get PLC_PEER_CNT_BAD_TAG = min PLC_PEER_CNT_BAD_TAG.top (s.get PLC_PEER_CNT_BAD_TAG + 1) ∧ t =
    { s with regs := t.regs } ∧ (∀ a, a ≠ PLC_PEER_CNT → t.reg a = s.reg a)) ∧
  (∀ (h : PeerHdr) (r : Instr) (s : State), (r = .bid h none 0 0 ∨ r = .award h ∨ r = .dataAck h [] ∨ r = .progress h
    ∨ r = .peerCommitted h 0 ∨ r = .peerFailed h 0 ∨ r = .nack h 0 ∨ r = .tombAck h ∨ r = .hint h true 0 0 0 0 ∨ r =
    .hintReq h [] ∨ r = .peerData h 0 1 [] 0 0) → s.mode = modeServe ∨ s.mode = modeDrain → h.auth = true → s.flag
    PLC_STAT_DM_VALID = false ∨ h.domain ≠ s.domainId → ∃ t, exec r s = .next t ∧ t.get PLC_PEER_CNT_FOREIGN = min
    PLC_PEER_CNT_FOREIGN.top (s.get PLC_PEER_CNT_FOREIGN + 1) ∧ t = { s with regs := t.regs } ∧ (∀ a, a ≠ PLC_PEER_CNT
    → t.reg a = s.reg a)) ∧
  (∀ (h : PeerHdr) (r : Instr) (s : State), (r = .bid h none 0 0 ∨ r = .award h ∨ r = .dataAck h [] ∨ r = .progress h
    ∨ r = .peerCommitted h 0 ∨ r = .peerFailed h 0 ∨ r = .nack h 0 ∨ r = .tombAck h ∨ r = .hint h true 0 0 0 0 ∨ r =
    .hintReq h [] ∨ r = .peerData h 0 1 [] 0 0) → s.mode = modeServe ∨ s.mode = modeDrain → h.auth = true → s.flag
    PLC_STAT_DM_VALID = true → h.domain = s.domainId → h.epoch.toNat < s.get PLC_DM_EPOCH_EPOCH → ∃ t, exec r s =
    .next t ∧ told s t [(h.src.toNat, pmNack)] ∧ t.regs = s.regs) ∧
  (∀ (h : PeerHdr) (r : Instr) (s : State), (r = .bid h none 0 0 ∨ r = .award h ∨ r = .dataAck h [] ∨ r = .progress h
    ∨ r = .peerCommitted h 0 ∨ r = .peerFailed h 0 ∨ r = .nack h 0 ∨ r = .tombAck h ∨ r = .hint h true 0 0 0 0 ∨ r =
    .hintReq h [] ∨ r = .peerData h 0 1 [] 0 0) → s.mode ≠ modeServe → s.mode ≠ modeDrain → ∃ t, exec r s = .next t ∧
    t = s) ∧
  (∀ (h : PeerHdr) (s : State), s.mode = modeServe → h.auth = true → s.flag PLC_STAT_DM_VALID = true → h.domain =
    s.domainId → s.get PLC_DM_EPOCH_EPOCH < h.epoch.toNat → ∃ t, exec (.progress h) s = .next t ∧ t.flag
    PLC_STAT_STALE = true ∧ t.flag PLC_STAT_PLACE_OK = false ∧ (t.reg (keySrc 0x060 0)).toNat = min 0xFFFFFFFF ((s.reg
    (keySrc 0x060 0)).toNat + 1)) ∧
  (∀ (h : PeerHdr) (asks : List UnitRef) (a : Nat × Nat × PeerMsg × Nat) (s : State), s.hears h → s.plc.answered.find?
    (fun a => a.1 == h.src.toNat && a.2.1 == h.xid.toNat && decide (s.tick < a.2.2.2 + 500000)) = some a → ∃ t, exec
    (.hintReq h asks) s = .next t ∧ t.plc.out = s.plc.out ++ [a.2.2.1] ∧ t.regs = s.regs)

/-- Messages pass the screen (Safety: hears). UNIT_PLACE, map not stale, of the next unit, no sealing copy: BID_REQ to
  every candidate that is up and holds no copy, and it is bidding. BID_REQ not answered within the second: in SERVE
  with a key, a map not full and a target, answered with its cost, the offer kept; where this device makes no bid,
  with the reason alone. BID with others still asked: off the list, and among the bids unless refused. BID_TIMEOUT
  early: nothing; due, of a moved or re-replicated unit, a single bid apart from its copies is awarded; of a
  migration's only unit without bids, it is given up. AWARD: without an offer FAILED; with one a unit held; repeated,
  nothing. PROGRESS renews the attempt. COMMITTED of a first placing, others running: the copy counts, and with too
  few for ACK the unit goes on, else it is complete. FAILED by the issuer: the unit held is given up; by a holder,
  REPL_WAIT 0, another copy running: the attempt has failed. PROG_TMO due: the peer is DOWN with PEER_DOWN, its
  attempt has failed, and a migration whose only attempt at a replacement it was ends. Where a unit goes on, the
  commands hold nothing that comes due (still). (R304, R305, R306, R308, R309, R310, R316, R320.) -/
def Obligations.UnitsArePlacedByBids : Prop :=
  (∀ (u : UnitSt) (d : Nat) (l : List Nat) (s : State), s.still → s.nextToPlace = some u → s.unitN u.n = some u →
    s.flag PLC_STAT_STALE = false → u.sealing = false → ((s.candidates u.id).filter (fun d => !(u.devs.contains
    d))).filter (fun d => d != s.self && !s.isDown d) = d :: l → ∃ t, exec .unitPlace s = .next t ∧ told s t ((d ::
    l).map fun d => (d, pmBidReq)) ∧ (t.unitN u.n).map (fun x => (x.phase, x.asked)) = some (.bidding, d :: l) ∧
    t.regs = s.regs) ∧
  (∀ (h : PeerHdr) (u : UnitRef) (policy : BitVec 32) (x : Target) (s : State), s.hears h → s.fresh h → s.mode =
    modeServe → s.flag PLC_STAT_STALE = false → s.hasKey u.tenant.toNat = true → s.mapFull = none → (s.setReg (keyPol
    u.tenant.toNat) policy).bestTarget (unitRefId u) = some x → ∃ t, exec (.bidReq h u policy) s = .next t ∧ told s t
    [(h.src.toNat, pmBid)] ∧ (t.plc.out.getLast?).map (fun m => m.body) = some [0, ((s.setReg (keyPol u.tenant.toNat)
    policy).bidOn (unitRefId u) x).energy, ((s.setReg (keyPol u.tenant.toNat) policy).bidOn (unitRefId u) x).start,
    x.loaded] ∧ t.plc.offers = s.plc.offers ++
    [{ src := h.src.toNat, xid := h.xid.toNat, id := unitRefId u, len := 0, flags := 0, repl := bitsOf policy.toNat 3 0 * 16, target := x }]
    ∧ t.regs = s.regs) ∧
  (∀ (h : PeerHdr) (u : UnitRef) (policy : BitVec 32) (k : Nat) (s : State), s.hears h → s.fresh h → s.mapFull = none
    → (s.setReg (keyPol u.tenant.toNat) policy).bid (unitRefId u) = .inr k → ∃ t, exec (.bidReq h u policy) s = .next
    t ∧ told s t [(h.src.toNat, pmBid)] ∧ (t.plc.out.getLast?).map (fun m => m.body) = some [k, 0, 0] ∧ t.plc.offers =
    s.plc.offers ∧ t.regs = s.regs) ∧
  (∀ (h : PeerHdr) (refusal : Option (BitVec 16)) (energy : BitVec 48) (start : BitVec 32) (u : UnitSt) (e : Nat) (l :
    List Nat) (s : State), s.hears h → s.still → (s.plc.units.find? fun u => u.xid == h.xid.toNat && u.asked.contains
    h.src.toNat) = some u → s.unitN u.n = some u → u.asked.filter (fun d => d != h.src.toNat) = e :: l → ∃ t, exec
    (.bid h refusal energy start) s = .next t ∧ (t.unitN u.n).map (fun x => (x.asked, x.bids)) = some (e :: l, if
    refusal.isNone then u.bids ++ [{ dev := h.src.toNat, energy := energy.toNat, start := start.toNat }] else u.bids)
    ∧ t.regs = s.regs) ∧
  (∀ (xid : BitVec 32) (u : UnitSt) (s : State), (s.plc.units.find? fun u => u.xid == xid.toNat && !u.asked.isEmpty) =
    some u → s.tick < u.bidAt + 500 * s.get PLC_PEER_TMO_BID → ∃ t, exec (.bidTimeout xid) s = .next t ∧ t = s) ∧
  (∀ (xid : BitVec 32) (u : UnitSt) (b : BidRec) (s : State), s.still → (s.plc.units.find? fun u => u.xid == xid.toNat
    && !u.asked.isEmpty) = some u → u.bidAt + 500 * s.get PLC_PEER_TMO_BID ≤ s.tick → s.unitN u.n = some u → u.phase =
    .bidding → u.again = false → (u.rerepl = true ∨ u.mig = true) → u.bids = [b] → b.dev ≠ s.self → s.apart
    u.id.tenant b.dev u.devs = true → 1 ≤ u.reps → u.ack ≤ 1 → ∃ t, exec (.bidTimeout xid) s = .next t ∧ told s t
    [(b.dev, pmAward), (b.dev, pmData)] ∧ (t.unitN u.n).map (fun x => (x.phase, x.asked, x.atts.map fun a => a.dev)) =
    some (.placed, [], (u.atts.map fun a => a.dev) ++ [b.dev])) ∧
  (∀ (xid : BitVec 32) (u : UnitSt) (s : State), s.still → s.plc.units = [u] → u.xid = xid.toNat → u.asked ≠ [] →
    u.phase = .bidding → u.rerepl = false → u.mig = true → u.again = false → u.bids = [] → 0 < u.ack → u.bidAt + 500 *
    s.get PLC_PEER_TMO_BID ≤ s.tick → ∃ t, exec (.bidTimeout xid) s = .next t ∧ t.plc.units = [] ∧ t.plc.migSkip =
    s.plc.migSkip ++ [u.id] ∧ t.regs = s.regs) ∧
  (∀ (h : PeerHdr) (s : State), s.hears h → s.plc.held.any (fun o => o.src == h.src.toNat && o.xid == h.xid.toNat) =
    false → s.plc.offers.find? (fun o => o.src == h.src.toNat && o.xid == h.xid.toNat) = none → ∃ t, exec (.award h) s
    = .next t ∧ told s t [(h.src.toNat, pmFailed)] ∧ t.regs = s.regs) ∧
  (∀ (h : PeerHdr) (o : Incoming) (s : State), s.hears h → s.plc.held.any (fun o => o.src == h.src.toNat && o.xid ==
    h.xid.toNat) = false → s.plc.offers.find? (fun o => o.src == h.src.toNat && o.xid == h.xid.toNat) = some o → ∃ t,
    exec (.award h) s = .next t ∧ t.plc.offers = s.plc.offers.filter (fun x => !((fun o => o.src == h.src.toNat &&
    o.xid == h.xid.toNat) x)) ∧ t.plc.held = s.plc.held ++ [{ o with progAt := s.tick }]) ∧
  (∀ (h : PeerHdr) (s : State), s.hears h → s.plc.held.any (fun o => o.src == h.src.toNat && o.xid == h.xid.toNat) =
    true → ∃ t, exec (.award h) s = .next t ∧ t = s) ∧
  (∀ (h : PeerHdr) (u : UnitSt) (a : Attempt) (s : State), s.hears h → u ∈ s.plc.units → a ∈ u.atts → a.dev =
    h.src.toNat → a.xid = h.xid.toNat → a.st = .running → ∃ t, exec (.progress h) s = .next t ∧ (t.plc.units.any fun x
    => x.n == u.n && x.atts.any fun y => y.dev == a.dev && y.xid == a.xid && y.st == .running && y.seen == s.tick) =
    true ∧ t.regs = s.regs) ∧
  (∀ (h : PeerHdr) (hdr : BitVec 32) (u : UnitSt) (s : State), s.hears h → s.still → (s.plc.units.find? fun u => ofXid
    h.src.toNat h.xid.toNat u && u.atts.any fun a => a.dev == h.src.toNat && a.st == .running) = some u → s.unitN u.n
    = some u → u.phase = .placed → u.rerepl = false → u.mig = false → (u.atts.any fun a => a.dev != h.src.toNat &&
    a.st == .running) = true → (u.atts.filter fun a => a.st == .committed || a.dev == h.src.toNat && a.st ==
    .running).length < u.ack → ∃ t, exec (.peerCommitted h hdr) s = .next t ∧ (t.unitN u.n).map (fun x => x.atts) =
    some (u.atts.map fun a => if a.dev = h.src.toNat ∧ a.st = .running then { a with st := .committed } else a) ∧
    (t.unitN u.n).map (fun x => x.phase) = some .placed ∧ t.regs = s.regs) ∧
  (∀ (h : PeerHdr) (hdr : BitVec 32) (u : UnitSt) (s : State), s.hears h → s.still → (s.plc.units.find? fun u => ofXid
    h.src.toNat h.xid.toNat u && u.atts.any fun a => a.dev == h.src.toNat && a.st == .running) = some u → s.unitN u.n
    = some u → u.phase = .placed → u.rerepl = false → u.mig = false → (u.atts.any fun a => a.dev != h.src.toNat &&
    a.st == .running) = true → u.ack ≤ (u.atts.filter fun a => a.st == .committed || a.dev == h.src.toNat && a.st ==
    .running).length → ∃ t, exec (.peerCommitted h hdr) s = .next t ∧ (t.unitN u.n).map (fun x => x.atts) = some
    (u.atts.map fun a => if a.dev = h.src.toNat ∧ a.st = .running then { a with st := .committed } else a) ∧ (t.unitN
    u.n).map (fun x => x.phase) = some .complete ∧ t.regs = s.regs) ∧
  (∀ (h : PeerHdr) (reason : BitVec 16) (o : Incoming) (s : State), s.hears h → s.plc.held.find? (fun o => o.src ==
    h.src.toNat && o.xid == h.xid.toNat) = some o → ∃ t, exec (.peerFailed h reason) s = .next t ∧ t.plc.held =
    s.plc.held.filter (fun x => !(x.src == h.src.toNat && x.xid == h.xid.toNat)) ∧ t.plc.out = s.plc.out) ∧
  (∀ (h : PeerHdr) (reason : BitVec 16) (u : UnitSt) (s : State), s.hears h → s.still → s.plc.held.find? (fun o =>
    o.src == h.src.toNat && o.xid == h.xid.toNat) = none → s.plc.units = [u] → ofXid h.src.toNat h.xid.toNat u = true
    → (u.atts.any fun a => a.dev == h.src.toNat && a.st == .running) = true → u.phase = .placed → u.rerepl = false →
    u.mig = false → s.polWait u.id.tenant = 0 → u.asked = [] → (u.atts.any fun a => a.dev != h.src.toNat && a.st ==
    .running) = true → u.copies < u.ack → ∃ t, exec (.peerFailed h reason) s = .next t ∧ (t.unitN u.n).map (fun x =>
    x.atts) = some (u.atts.map fun a => if a.dev = h.src.toNat ∧ a.st = .running then { a with st := .failed } else a)
    ∧ (t.unitN u.n).map (fun x => x.phase) = some .placed ∧ t.regs = s.regs) ∧
  (∀ (xid : BitVec 32) (d : BitVec 9) (u : UnitSt) (s : State), d.toNat ≠ s.self → s.still → s.plc.units = [u] →
    (u.atts.any fun a => a.dev == d.toNat && a.xid == xid.toNat && a.st == .running && decide (a.seen + 500 * s.get
    PLC_PEER_CFG_PROG_TMO ≤ s.tick)) = true → u.phase = .placed → u.rerepl = false → u.mig = false → s.polWait
    u.id.tenant = 0 → s.isDown d.toNat = false → (u.atts.any fun a => a.dev != d.toNat && a.st == .running) = true →
    u.copies < u.ack → ∃ t, exec (.progTmo xid d) s = .next t ∧ t.isDown d.toNat = true ∧ (t.unitN u.n).map (fun x =>
    x.atts) = some (u.atts.map fun a => if a.dev = d.toNat ∧ a.st = .running then { a with st := .failed } else a) ∧
    (t.reg (keySrc 0x060 0)).toNat = min 0xFFFFFFFF ((s.reg (keySrc 0x060 0)).toNat + 1)) ∧
  (∀ (xid : BitVec 32) (d : BitVec 9) (u : UnitSt) (a : Attempt) (s : State), d.toNat ≠ s.self → s.still → s.plc.units
    = [u] → u.phase = .placed → u.atts = [a] → a.dev = d.toNat → a.xid = xid.toNat → a.st = .running → a.seen + 500 *
    s.get PLC_PEER_CFG_PROG_TMO ≤ s.tick → u.mig = true → u.rerepl = false → u.again = false → u.replaced.contains
    a.dev = true → s.isDown d.toNat = false → ∃ t, exec (.progTmo xid d) s = .next t ∧ t.isDown d.toNat = true ∧
    t.plc.units = [] ∧ (t.reg (keySrc 0x060 0)).toNat = min 0xFFFFFFFF ((s.reg (keySrc 0x060 0)).toNat + 1))

/-- Messages pass the screen (hears). PEER_DATA of a unit held adds its segment, if new, and the length, total and flags
  it names; with the last segment, all of them, or a multiple of 64 it is acknowledged, else not. DATA_ACK takes the
  segments it names from what the exchange has outstanding. DATA_RETRANSMIT sends what is 1 ms old again and takes the
  time anew. READ_REQ not answered within the second: in DRAIN, NACK; in SERVE, not being served already: without the
  tenant's key FAILED; of a unit held on a slot this device can serve, the read is noted and a peer job on that slot's
  station reads it. NACK to a BID_REQ, with others still asked and the commands still, takes the peer off the list; to
  the only attempt of a migration's only unit, already a replacement, it gives the unit up. PEER_READ_TIMEOUT of a
  re-replication's read, commands still: the next holder that is up is asked; with none named, the only unit ends with
  its fault and two log records. (R43, R308, R319, R322, R323.) -/
def Obligations.PeerDataAndReadsAreServed : Prop :=
  (∀ (h : PeerHdr) (seg total : BitVec 13) (data : List Byte) (len : BitVec 23) (flags : BitVec 8) (o : Incoming) (s :
    State), s.hears h → s.plc.held = [o] → o.src = h.src.toNat → o.xid = h.xid.toNat → ∃ t, exec (.peerData h seg
    total data len flags) s = .next t ∧ (t.plc.held.map fun x => (x.segs, x.parts, x.total, x.len, x.flags)) = [((if
    o.segs.contains seg.toNat then o.segs else o.segs ++ [seg.toNat]), if o.segs.contains seg.toNat then o.parts else
    o.parts ++ [(seg.toNat, data)], total.toNat, len.toNat, flags.toNat)] ∧ told s t (if (if o.segs.contains seg.toNat
    then o.segs else o.segs ++ [seg.toNat]).length % 64 = 0 ∨ seg.toNat + 1 = total.toNat ∨ (if o.segs.contains
    seg.toNat then o.segs else o.segs ++ [seg.toNat]).length = total.toNat then [(h.src.toNat, pmDataAck)] else []) ∧
    t.regs = s.regs) ∧
  (∀ (h : PeerHdr) (segs : List (BitVec 13)) (s : State), s.hears h → ∃ t, exec (.dataAck h segs) s = .next t ∧ (∀ x ∈
    t.plc.sending, x.dev = h.src.toNat → x.xid = h.xid.toNat → ∀ n ∈ segs, n.toNat ∉ x.segs) ∧ (∀ x ∈ s.plc.sending, ¬
    (x.dev = h.src.toNat ∧ x.xid = h.xid.toNat) → x.segs ≠ [] → x ∈ t.plc.sending) ∧ t.regs = s.regs) ∧
  (∀ (xid : BitVec 32) (s : State), ∃ t, exec (.dataRetransmit xid) s = .next t ∧ (∀ x ∈ t.plc.sending, x.xid =
    xid.toNat → s.tick < x.at_ + 500) ∧ told s t ((s.plc.sending.filter fun x => x.xid == xid.toNat && decide (x.at_ +
    500 ≤ s.tick)).map fun x => (x.dev, pmData)) ∧ t.plc.sending.map (fun x => x.segs) = s.plc.sending.map (fun x =>
    x.segs) ∧ t.regs = s.regs) ∧
  (∀ (h : PeerHdr) (u : UnitRef) (start len : BitVec 23) (s : State), s.hears h → s.fresh h → s.mode = modeDrain → ∃
    t, exec (.readReq h u start len) s = .next t ∧ told s t [(h.src.toNat, pmNack)] ∧ t.plc.reads = s.plc.reads ∧
    t.regs = s.regs) ∧
  (∀ (h : PeerHdr) (u : UnitRef) (start len : BitVec 23) (s : State), s.hears h → s.fresh h → s.mode = modeServe →
    (s.plc.reads.any fun r => r.src == h.src.toNat && r.xid == h.xid.toNat) = false → s.hasKey u.tenant.toNat = false
    → ∃ t, exec (.readReq h u start len) s = .next t ∧ told s t [(h.src.toNat, pmFailed)] ∧ (t.plc.out.getLast?).map
    (fun m => m.body) = some [rfNoKey] ∧ t.plc.reads = s.plc.reads ∧ t.regs = s.regs) ∧
  (∀ (h : PeerHdr) (u : UnitRef) (start len : BitVec 23) (m : MapEnt) (st k : Nat) (s : State), s.hears h → s.fresh h
    → s.mode = modeServe → (s.plc.reads.any fun r => r.src == h.src.toNat && r.xid == h.xid.toNat) = false → s.hasKey
    u.tenant.toNat = true → s.entOf (unitRefId u) = some m → s.whereIs m.slot = some (st, k) → ∃ t, exec (.readReq h u
    start len) s = .next t ∧ t.plc.reads = s.plc.reads ++
    [{ src := h.src.toNat, xid := h.xid.toNat, id := unitRefId u, from_ := start.toNat, len := len.toNat }] ∧ (∃ j ∈
    t.allJobs, j.kind = .peer ∧ j.station = st ∧ j.slot = some m.slot ∧ j.write = false ∧ readUnit m ∈ j.units) ∧
    t.plc.out = s.plc.out ∧ t.regs = s.regs) ∧
  (∀ (h : PeerHdr) (reason : BitVec 16) (u : UnitSt) (e : Nat) (l : List Nat) (s : State), s.hears h → s.still →
    (s.plc.units.find? fun u => u.xid == h.xid.toNat && u.asked.contains h.src.toNat) = some u → s.unitN u.n = some u
    → u.asked.filter (fun d => d != h.src.toNat) = e :: l → (s.plc.units.any fun w => ofXid h.src.toNat h.xid.toNat w)
    = false → (s.plc.units.any fun w => w.rerepl && w.phase == .fetch && w.xid == h.xid.toNat) = false → ∃ t, exec
    (.nack h reason) s = .next t ∧ (t.unitN u.n).map (fun x => (x.asked, x.bids)) = some (e :: l, u.bids) ∧ t.regs =
    s.regs) ∧
  (∀ (h : PeerHdr) (reason : BitVec 16) (u : UnitSt) (a : Attempt) (s : State), s.hears h → s.still → s.plc.units =
    [u] → u.phase = .placed → u.atts = [a] → a.dev = h.src.toNat → a.xid = h.xid.toNat → a.st = .running → u.mig =
    true → u.rerepl = false → u.again = false → u.asked = [] → u.replaced.contains a.dev = true → ∃ t, exec (.nack h
    reason) s = .next t ∧ t.plc.units = [] ∧ t.plc.migSkip = s.plc.migSkip ++ [u.id]) ∧
  (∀ (xid : BitVec 32) (u : UnitSt) (d : Nat) (l : List Nat) (s : State), s.still → (s.plc.units.find? fun u =>
    u.rerepl && u.phase == .fetch && u.xid == xid.toNat) = some u → s.unitN u.n = some u → u.cands.filter (fun d =>
    !s.isDown d) = d :: l → ∃ t, exec (.peerReadTimeout xid) s = .next t ∧ told s t [(d, pmReadReq)] ∧ (t.unitN
    u.n).map (fun x => (x.phase, x.cands)) = some (.fetch, l) ∧ t.regs = s.regs) ∧
  (∀ (xid : BitVec 32) (u : UnitSt) (s : State), s.still → s.plc.units = [u] → u.rerepl = true → u.phase = .fetch →
    u.xid = xid.toNat → u.cands = [] → ∃ t, exec (.peerReadTimeout xid) s = .next t ∧ t.plc.units = [] ∧ (t.reg
    (keySrc 0x060 0)).toNat = min 0xFFFFFFFF ((s.reg (keySrc 0x060 0)).toNat + 1) ∧ t.cmd.log.length = min 65536
    (s.cmd.log.length + 2))

/-- Messages pass the screen (hears). HINT_REQ not answered within the second is answered HINT. A HINT that answers a
  question, while every search under way still waits for another answer and nothing else is due among the commands,
  takes the question away, joins its search's answers and clears the peer's misses. HINT_TIMEOUT of a due question, on
  a still device with no unit being placed, takes it away and counts a miss; the third marks the peer, not DOWN
  before, DOWN, with PEER_DOWN. PEER_DOWN_HOLD_EXPIRY, due, clears DOWN and the misses and sends the peer the
  tombstones owed to it. TOMB of an object's version in SERVE, not answered within the second, on a quiet device with
  a disc side for the tombstone and room for it: what it covers here is no longer live, it is recorded, and its
  writing is under way for the peer. TOMB_ACK, for the one DELETE held, with another peer still asked, is counted and
  the peer is no longer asked. (R320, R321, R322, R329, R330.) -/
def Obligations.LookupsAndTombstones : Prop :=
  (∀ (h : PeerHdr) (asks : List UnitRef) (s : State), s.hears h → s.fresh h → ∃ t, exec (.hintReq h asks) s = .next t
    ∧ told s t [(h.src.toNat, pmHint)] ∧ (t.plc.out.getLast?).map (fun m => m.body) = some ((asks.take 32).flatMap fun
    u => s.hintFor u) ∧ t.regs = s.regs) ∧
  (∀ (h : PeerHdr) (held : Bool) (ver seq start : BitVec 32) (energy : BitVec 48) (a : HintAsk) (s : State), s.hears h
    → s.settleOne = none → s.plc.tombJobs = [] → s.plc.mig = none → (s.plc.asks.find? fun a => a.dev == h.src.toNat &&
    a.xid == h.xid.toNat) = some a → (∀ x ∈ s.plc.searches, (s.plc.asks.erase a).any (fun b => b.srch == x.n) = true)
    → ∃ t, exec (.hint h held ver seq energy start) s = .next t ∧ t.plc.asks = s.plc.asks.erase a ∧ t.plc.searches =
    s.plc.searches.map (fun x => if x.n = a.srch then
    { x with found := x.found ++ [{ dev := h.src.toNat, held := held, ver := ver.toNat, seq := seq.toNat, energy := energy.toNat, start := start.toNat, at_ := s.tick }] }
    else x) ∧ (t.peerOf h.src.toNat).misses = 0 ∧ t.regs = s.regs) ∧
  (∀ (xid : BitVec 32) (a : HintAsk) (s : State), s.still → s.plc.units = [] → (s.plc.asks.find? fun a => a.xid ==
    xid.toNat && decide (a.at_ + 500 * s.get PLC_PEER_TMO_HINT ≤ s.tick)) = some a → (s.peerOf a.dev).misses < 2 →
    (s.peerOf a.dev).dev = a.dev → ∃ t, exec (.hintTimeout xid) s = .next t ∧ t.plc.asks = s.plc.asks.erase a ∧
    (t.peerOf a.dev).misses = (s.peerOf a.dev).misses + 1 ∧ t.regs = s.regs) ∧
  (∀ (xid : BitVec 32) (a : HintAsk) (s : State), s.still → s.plc.units = [] → (s.plc.asks.find? fun a => a.xid ==
    xid.toNat && decide (a.at_ + 500 * s.get PLC_PEER_TMO_HINT ≤ s.tick)) = some a → 2 ≤ (s.peerOf a.dev).misses →
    s.isDown a.dev = false → (s.peerOf a.dev).dev = a.dev → ∃ t, exec (.hintTimeout xid) s = .next t ∧ t.plc.asks =
    s.plc.asks.erase a ∧ t.isDown a.dev = true ∧ (t.reg (keySrc 0x060 0)).toNat = min 0xFFFFFFFF ((s.reg (keySrc 0x060
    0)).toNat + 1)) ∧
  (∀ (d : BitVec 9) (k : Nat) (s : State), (s.peerOf d.toNat).downAt = some k → k + 500000 * s.get
    PLC_PEER_TMO_DOWN_HOLD ≤ s.tick → (s.peerOf d.toNat).dev = d.toNat → ∃ t, exec (.peerDownHoldExpiry d) s = .next t
    ∧ t.isDown d.toNat = false ∧ (t.peerOf d.toNat).misses = 0 ∧ (t.peerOf d.toNat).owed = [] ∧ told s t ((s.peerOf
    d.toNat).owed.map fun _ => (d.toNat, pmTomb)) ∧ (∀ a, a / 0x10000 ≠ 8 → ¬ faultWord a → t.reg a = s.reg a)) ∧
  (∀ (h : PeerHdr) (u : UnitRef) (s : State), s.hears h → s.fresh h → s.quiet → s.mode = modeServe →
    s.plc.tombs.length < 262144 → s.tombSides ≠ [] → ∃ t, exec (.tomb h u false) s = .next t ∧ t.plc.tombs.contains
    { tenant := u.tenant.toNat, key := u.key.toNat, ver := u.ver.toNat : Tomb } = true ∧ (t.plc.tombJobs.map fun j =>
    j.peer) = [some (h.src.toNat, h.xid.toNat)] ∧ (∀ m ∈ t.plc.map, Tomb.covers
    { tenant := u.tenant.toNat, key := u.key.toNat, ver := u.ver.toNat : Tomb } m = true → m.live = false)) ∧
  (∀ (h : PeerHdr) (k : Cmd) (s : State), s.hears h → s.cmd.cmds = [k] → k.asked.contains (h.src.toNat, h.xid.toNat) =
    true → k.asked.erase (h.src.toNat, h.xid.toNat) ≠ [] → k.op = opDelete → k.started = true → s.plc.opens = [] →
    s.plc.searches = [] → s.plc.tombJobs = [] → s.plc.mig = none → ∃ t, exec (.tombAck h) s = .next t ∧
    (t.cmd.cmds.map fun x => (x.acks, x.asked)) = [(k.acks + 1, k.asked.erase (h.src.toNat, h.xid.toNat))] ∧ t.regs =
    s.regs)

/-- REREPLICATION_START in SERVE takes the first unit queued: with a copy here on a slot this device can serve a job reads
  it, with no copy here the first holder that is up is asked. REBUILD_DISC in the recovering phase, of the slot whose
  job, the only one, holds station 0 with its disc there, the disc read: another format version settles as unreadable,
  another domain as foreign with its fault, any other disc as readable, with nothing on it the map unchanged.
  UNREACHED_SLOT_REBUILD in SERVE after the recovering phase, with no job in the arbiter, a path to the slot and a
  station for it: a rebuild job waits. MIGRATION_START outside SERVE is refused; in SERVE with no migration, no unit
  being moved and no migration read under way: of a readable slot with a live unit whose key is loaded it runs, and a
  job there reads the first such unit; of a readable slot without live units it ends DONE, the slot emptied; of any
  other slot it ends DONE. MIGRATION_STOP in SERVE with no unit being moved and no migration read under way ends a
  migration, its slot readable. (R311, R326, R327, R328, R333.) -/
def Obligations.CopiesAreRestoredAndMoved : Prop :=
  (∀ (u : UnitSt) (l : List UnitSt) (d : Nat) (m : List Nat) (s : State), s.plc.rerepl = u :: l → s.mode = modeServe →
    (s.entOf u.id).isNone = true → s.unitN s.plc.nextUnit = none → ((u.atts.filter fun a => a.st == .committed &&
    a.dev != s.self).map fun a => a.dev).filter (fun d => !s.isDown d) = d :: m → ∃ t, exec .rereplicationStart s =
    .next t ∧ t.plc.rerepl = l ∧ told s t [(d, pmReadReq)] ∧ ((t.plc.units.drop s.plc.units.length).map fun x =>
    (x.id, x.phase, x.cands)) = [(u.id, .fetch, m)] ∧ t.get PLC_REREPL_PENDING = min 0xFFFF l.length) ∧
  (∀ (u : UnitSt) (l : List UnitSt) (m : MapEnt) (st k : Nat) (s : State), s.plc.rerepl = u :: l → s.mode = modeServe
    → s.entOf u.id = some m → s.whereIs m.slot = some (st, k) → ∃ t, exec .rereplicationStart s = .next t ∧
    t.plc.rerepl = l ∧ ((t.plc.units.drop s.plc.units.length).map fun x => (x.id, x.phase)) = [(u.id, .fetch)] ∧ (∃ j
    ∈ t.allJobs, j.kind = .rerepl ∧ j.station = st ∧ j.slot = some m.slot ∧ readUnit m ∈ j.units) ∧ t.get
    PLC_REREPL_PENDING = min 0xFFFF l.length) ∧
  (∀ (slot : BitVec 5) (r : DiscFound) (j : Job) (s : State), r.failed = false → controlOk r.control = true →
    s.foreignDisc r = true → slot.toNat < 24 → (s.arbOf 0).job = some j → j.kind = .rebuild → j.slot = some slot.toNat
    → (s.view 0).slot = some slot.toNat → s.flag SYS_STAT_RECOVERING = true → s.arb.jobs = [] → ∃ t, exec
    (.rebuildDisc slot r) s = .next t ∧ t.slotState slot.toNat = 2 ∧ (t.reg (keySrc 0x060 0)).toNat = min 0xFFFFFFFF
    ((s.reg (keySrc 0x060 0)).toNat + 1)) ∧
  (∀ (slot : BitVec 5) (r : DiscFound) (j : Job) (s : State), r.failed = false → controlOk r.control = false →
    slot.toNat < 24 → (s.arbOf 0).job = some j → j.kind = .rebuild → j.slot = some slot.toNat → (s.view 0).slot = some
    slot.toNat → s.flag SYS_STAT_RECOVERING = true → s.arb.jobs = [] → ∃ t, exec (.rebuildDisc slot r) s = .next t ∧
    t.slotState slot.toNat = 6 ∧ t.plc.map = s.plc.map) ∧
  (∀ (slot : BitVec 5) (r : DiscFound) (j : Job) (s : State), r.failed = false → controlOk r.control = true →
    s.foreignDisc r = false → slot.toNat < 24 → (s.arbOf 0).job = some j → j.kind = .rebuild → j.slot = some
    slot.toNat → (s.view 0).slot = some slot.toNat → s.flag SYS_STAT_RECOVERING = true → s.arb.jobs = [] → ∃ t, exec
    (.rebuildDisc slot r) s = .next t ∧ t.slotState slot.toNat = 1) ∧
  (∀ (slot : BitVec 5) (j : Job) (s : State), slot.toNat < 24 → (s.arbOf 0).job = some j → j.kind = .rebuild → j.slot
    = some slot.toNat → (s.view 0).slot = some slot.toNat → s.flag SYS_STAT_RECOVERING = true → s.arb.jobs = [] → ∃ t,
    exec (.rebuildDisc slot {}) s = .next t ∧ t.slotState slot.toNat = 1 ∧ t.plc.map = s.plc.map) ∧
  (∀ (slot : BitVec 5) (st : Nat) (s : State), slot.toNat < 24 → s.slotState slot.toNat = 7 → s.flag
    SYS_STAT_RECOVERING = false → s.mode = modeServe → s.unreachable slot.toNat = false → s.allJobs = [] → s.bindSlot
    slot.toNat = some st → ∃ t, exec (.unreachedSlotRebuild slot) s = .next t ∧ (t.arb.jobs.map fun j => (j.kind,
    j.slot, j.station)) = [(.rebuild, some slot.toNat, st)]) ∧
  (∀ (p : Path) (slot : BitVec 5) (m : MapEnt) (st k : Nat) (s : State), s.opens p → s.mode = modeServe → slot.toNat <
    24 → s.slotState slot.toNat = 1 → s.plc.mig = none → (s.plc.units.any fun u => u.mig) = false → (s.allJobs.any fun
    j => j.kind == .mig && !j.write) = false → ((s.plc.map.filter fun e => e.slot == slot.toNat && e.live).find? fun e
    => s.hasKey e.id.tenant) = some m → s.whereIs slot.toNat = some (st, k) → ∃ t, exec (.migrationStart p slot) s =
    .next t ∧ t.wstat = stOk ∧ t.get PLC_MIG_STAT_STATE = 1 ∧ t.slotState slot.toNat = 3 ∧ t.plc.mig = some slot.toNat
    ∧ (∃ j ∈ t.allJobs, j.kind = .mig ∧ j.station = st ∧ j.slot = some slot.toNat ∧ readUnit m ∈ j.units)) ∧
  (∀ (p : Path) (slot : BitVec 5) (s : State), s.opens p → s.mode = modeServe → slot.toNat < 24 → s.slotState
    slot.toNat = 1 → s.plc.mig = none → (s.plc.units.any fun u => u.mig) = false → (s.allJobs.any fun j => j.kind ==
    .mig && !j.write) = false → (s.plc.map.any fun e => e.slot == slot.toNat && e.live) = false → ∃ t, exec
    (.migrationStart p slot) s = .next t ∧ t.wstat = stOk ∧ t.get PLC_MIG_STAT_STATE = 2 ∧ t.slotState slot.toNat = 4
    ∧ t.plc.mig = none) ∧
  (∀ (p : Path) (slot : BitVec 5) (s : State), s.opens p → s.mode = modeServe → slot.toNat < 24 → s.slotState
    slot.toNat ≠ 1 → s.plc.mig = none → ∃ t, exec (.migrationStart p slot) s = .next t ∧ t.wstat = stOk ∧ t.get
    PLC_MIG_STAT_STATE = 2 ∧ t.plc = s.plc) ∧
  (∀ (p : Path) (slot : BitVec 5) (s : State), s.opens p → s.mode ≠ modeServe → ∃ t, exec (.migrationStart p slot) s =
    .next t ∧ t.wstat = stRegRefused ∧ t.plc = s.plc ∧ (∀ a, a ≠ NET_SVC_STAT → t.reg a = s.reg a)) ∧
  (∀ (p : Path) (k : Nat) (s : State), s.opens p → s.mode = modeServe → s.plc.mig = some k → k < 24 → (s.plc.units.any
    fun u => u.mig) = false → (s.allJobs.any fun j => j.kind == .mig && !j.write) = false → ∃ t, exec (.migrationStop
    p) s = .next t ∧ t.wstat = stOk ∧ t.plc.mig = none ∧ t.get PLC_MIG_STAT_STATE = 3 ∧ t.slotState k = 1) ∧
  (∀ (p : Path) (slot : BitVec 5) (s t : State), (exec (.migrationStop p) s = .next t ∨ exec (.migrationStart p slot)
    s = .next t) → (∀ a, a / 0x10000 ≠ 8 → a ≠ NET_SVC_STAT → a / 0x10000 ≠ 0xB → t.reg a = s.reg a) ∧ t =
    { s with regs := t.regs, wstat := t.wstat, plc := t.plc, arb := t.arb })

/-- HOST_FRAME_RX: a port that is not UP takes nothing; a frame whose source is the device's own address is counted LOOP;
  a PAUSE frame from another is counted and dropped; with PFC off, a frame for another address that is no group of the
  device and no PTP or priority pause leaves the other port unchanged when that is UP, its FCS holds, it is not too
  long, bears no ECN mark and fits the buffer, and is counted DOWN when the other port is not UP. PFC_FRAME_RX with
  PFC on, for its priority and with quanta, holds it for them. LEARN_AGE_OUT and NEIGHBOUR_AGE_OUT take out the
  entries of the address named that have reached the age, and no other; ANNOUNCE_TIMER counts a due announcement.
  (R340, R347, R348, R349, R352, R353, R374, R344.) -/
def Obligations.FramesAreForwardedOrCounted : Prop :=
  (∀ (port : Fin 2) (f : Frame) (s : State), s.isUp port = false → ∃ t, exec (.hostFrameRx port f) s = .next t ∧ t =
    s) ∧
  (∀ (port : Fin 2) (f : Frame) (s : State), s.isUp port = true → f.src = s.mac → ∃ t, exec (.hostFrameRx port f) s =
    .next t ∧ t.get NET_FWD_STAT_LOOP = min NET_FWD_STAT_LOOP.top (s.get NET_FWD_STAT_LOOP + 1) ∧ t.net.out =
    s.net.out) ∧
  (∀ (port : Fin 2) (f : Frame) (s : State), s.isUp port = true → f.src ≠ s.mac → f.dst = 0x0180C2000001 → f.kind =
    .pause → ∃ t, exec (.hostFrameRx port f) s = .next t ∧ t.get (NET_PORT_DROP_PAUSE port) = min (NET_PORT_DROP_PAUSE
    port).top (s.get (NET_PORT_DROP_PAUSE port) + 1) ∧ t = { s with regs := t.regs }) ∧
  (∀ (port : Fin 2) (f : Frame) (s : State), s.isUp port = true → s.isUp (1 - port.val) = true → f.src ≠ s.mac → f.dst
    ≠ s.mac → f.dst ≠ 0x0180C2000001 → f.dst ≠ 0xFFFFFFFFFFFF → s.groups.contains f.dst = false → f.kind = .other →
    f.fcsOk = true → f.len.toNat ≤ 9216 → f.ecn = 0 → s.transitBytes (1 - port.val) + f.len.toNat ≤ 524288 → s.flag
    NET_PFC_CFG_EN = false → ∃ t, exec (.hostFrameRx port f) s = .next t ∧ t.net.out = s.net.out ++
    [{ port := 1 - port.val, prio := f.tag.map (fun x => x.2.toNat), what := .fwd f.len.toNat false false none }] ∧ t
    = { s with net := t.net }) ∧
  (∀ (port : Fin 2) (f : Frame) (s : State), s.isUp port = true → s.isUp (1 - port.val) = false → f.src ≠ s.mac →
    f.dst ≠ s.mac → f.dst ≠ 0x0180C2000001 → f.dst ≠ 0xFFFFFFFFFFFF → s.groups.contains f.dst = false → s.flag
    NET_PFC_CFG_EN = false → ∃ t, exec (.hostFrameRx port f) s = .next t ∧ t.get (NET_PORT_DROP_DOWN (1 - port.val)) =
    min (NET_PORT_DROP_DOWN (1 - port.val)).top (s.get (NET_PORT_DROP_DOWN (1 - port.val)) + 1) ∧ t.net = s.net) ∧
  (∀ (port : Fin 2) (prio : BitVec 3) (quanta : BitVec 16) (s : State), s.isUp port = true → s.flag NET_PFC_CFG_EN =
    true → prio.toNat = s.get NET_PFC_CFG_PRIO → quanta ≠ 0 → ∃ t, exec (.pfcFrameRx port prio quanta) s = .next t ∧
    t.flag (NET_PORT_STAT_PFC_HELD port) = true ∧ (t.net.pfcUntil[port.val]?).getD 0 = s.tick + (quanta.toNat * 512 +
    199999) / 200000 ∧ (∀ a, a ≠ NET_PORT_STAT port → t.reg a = s.reg a)) ∧
  (∀ (m : BitVec 48) (s : State), ∃ t, exec (.learnAgeOut m) s = .next t ∧ t.net.learn = s.net.learn.filter (fun e =>
    !(e.1 == m && decide (500000 * s.get NET_FWD_CFG_AGE ≤ s.tick - e.2.2))) ∧ t.get NET_FWD_STAT_LEARNED =
    t.net.learn.length % (NET_FWD_STAT_LEARNED.top + 1)) ∧
  (∀ (x : BitVec 128) (s : State), ∃ t, exec (.neighbourAgeOut x) s = .next t ∧ t.net.neigh = s.net.neigh.filter (fun
    e => !(e.1 == x && decide (150000000 ≤ s.tick - e.2.2))) ∧ t.regs = s.regs) ∧
  (∀ (s : State), s.net.annDone < annTimes.countP (fun k => decide (s.net.annAt + k ≤ s.tick)) → ∃ t, exec
    .announceTimer s = .next t ∧ t.net.annDone = s.net.annDone + 1 ∧ t.regs = s.regs) ∧
  (∀ (port : Fin 2) (f : Frame) (prio : BitVec 3) (quanta : BitVec 16) (m : BitVec 48) (x : BitVec 128) (s t : State),
    (exec (.hostFrameRx port f) s = .next t ∨ exec (.pfcFrameRx port prio quanta) s = .next t ∨ exec (.learnAgeOut m)
    s = .next t ∨ exec (.neighbourAgeOut x) s = .next t ∨ exec .announceTimer s = .next t) → t =
    { s with regs := t.regs, net := t.net, flt := t.flt } ∧ (∀ a, outside [9] a → t.reg a = s.reg a))

/-- With the client enabled, the first Announce of the configured domain on a port that is UP becomes the master and
  starts four delay exchanges; the announce time-out of the port of the only master makes PTP time invalid. An ACK
  clears the session's retries; ACK_TIMEOUT_RETRY of an open connection with retries left counts one;
  ROCE_RETRY_EXHAUSTED closes an open session, counts it and waits for its DREP. CNP_RX cuts the session's rate, the
  alpha timer decays its alpha, and the rate timer without 10 MiB sent, within the fast stages, takes the rate half
  the way to its target, never below the floor. (R360, R361, R362, R370, R373.) -/
def Obligations.TimeClientAndTransport : Prop :=
  (∀ (port : Fin 2) (p1 cl ac p2 : BitVec 8) (var st : BitVec 16) (gid : BitVec 64) (d : BitVec 8) (s : State), s.isUp
    port = true → s.flag NET_PTP_CFG_CLIENT_EN = true → d.toNat = s.get NET_PTP_CFG_DOMAIN → s.net.masters = [] →
    s.net.master = none → ∃ t, exec (.ptpMessageRx port (.announce d p1 cl ac var p2 gid st)) s = .next t ∧
    (t.net.master.map fun a => (a.port, a.id)) = some (port.val, gid) ∧ t.net.delays = 4 ∧ t.get NET_PTP_STAT_PORT =
    port.val ∧ t.reg NET_PTP_GM_LO = gid.setWidth 32) ∧
  (∀ (port : Fin 2) (m : Master) (s : State), s.net.masters = [m] → s.net.master = some m → m.port = port.val → ∃ t,
    exec (.ptpAnnounceTimeout port) s = .next t ∧ t.net.masters = [] ∧ t.net.master = none ∧ t.flag NET_PTP_STAT_VALID
    = false ∧ t.flag TICK_STAT_PTP_VALID = false) ∧
  (∀ (sid : BitVec 14) (s : State), ∃ t, exec (.roceAckRx sid .ack) s = .next t ∧ t.net.conns = s.net.conns.map (fun c
    => if c.sid = sid then { c with used := 0, rnrUsed := 0 } else c) ∧ t.regs = s.regs) ∧
  (∀ (sid : BitVec 14) (c : Conn) (s : State), s.connOf sid = some c → c.opened = true → c.used < c.retry → ∃ t, exec
    (.ackTimeoutRetry sid) s = .next t ∧ t.net.conns = s.net.conns.map (fun c => if c.sid = sid then
    { c with used := c.used + 1 } else c) ∧ t.regs = s.regs) ∧
  (∀ (sid : BitVec 14) (s : State), (s.session? sid).isSome = true → ∃ t, exec (.roceRetryExhausted sid) s = .next t ∧
    (t.session? sid).isSome = false ∧ (t.connOf sid).isSome = false ∧ sid ∈ t.net.closing ∧ t.get NET_SESS_OPEN =
    t.cmd.sessions.length % (NET_SESS_OPEN.top + 1) ∧ t.get NET_CM_CNT_TRANSPORT = min NET_CM_CNT_TRANSPORT.top (s.get
    NET_CM_CNT_TRANSPORT + 1)) ∧
  (∀ (sid : BitVec 14) (s : State), ∃ t, exec (.cnpRx sid) s = .next t ∧ t.net.conns = s.net.conns.map (fun c => if
    c.sid = sid then
    { c with target := c.rate, rate := max s.rateFloor (c.rate * (1 - c.alpha / 2)), alpha := (1 - s.rateGain) * c.alpha + s.rateGain, tStage := 0, bStage := 0, alphaAt := s.tick, rateAt := s.tick }
    else c) ∧ t.regs = s.regs) ∧
  (∀ (sid : BitVec 14) (s : State), ∃ t, exec (.dcqcnAlphaTimer sid) s = .next t ∧ t.net.conns = s.net.conns.map (fun
    c => if c.sid = sid ∧ 2 * c.alphaAt + s.get NET_RC_CFG_ALPHA_T ≤ 2 * s.tick then
    { c with alpha := (1 - s.rateGain) * c.alpha, alphaAt := s.tick } else c) ∧ t.regs = s.regs) ∧
  (∀ (sid : BitVec 14) (c : Conn) (s : State), s.connOf sid = some c → c.tStage < 4 → c.bStage < 5 → 2 * c.rateAt +
    s.get NET_RC_CFG_RATE_T ≤ 2 * s.tick → ∃ t, exec (.dcqcnRateTimer sid 0) s = .next t ∧ t.connOf sid = some
    { c with tStage := c.tStage + 1, rateAt := s.tick, rate := max s.rateFloor (min 100000 ((c.target + c.rate) / 2)) }
    ∧ (∀ x ∈ s.net.conns, x.sid ≠ sid → x ∈ t.net.conns) ∧ t.regs = s.regs)

/-- Outside BOOT, CM_REQ that passes every check, with an ID free, is granted the free session ID and its depth; one that
  fails a check is counted REJ and leaves the connections. Outside BOOT CM_RTU of a granted data connection opens its
  session and NET_SESS counts it. ROCE_SEND to a session of a wrong length adds no entry; one listed entry within the
  depth, with none waiting, waits. RDMA_READ_RESPONSE for the one PUT held, whose only unit of a known version is
  being fetched, adds its bytes; one that fills the unit makes it ready. CM_DREQ of a connection not yet open frees
  its ID; of an open one the session closes and its ID is freed; CM_DREP ends a disconnection. (R362, R363, R364,
  R365, R367, R369, R371, R381, R415, R454.) -/
def Obligations.ConnectionsOpenCarryEntriesAndClose : Prop :=
  (∀ (r : ConnReq) (sid : BitVec 14) (s : State), s.mode ≠ modeBoot → s.connRefusal r = none → s.freeSid = some sid →
    ∃ t, exec (.cmReq r) s = .next t ∧ (t.net.conns.getLast?.map fun c => (c.sid, c.tenant, c.depth, c.opened)) = some
    (sid, r.tenant.toNat, r.depth.toNat, false) ∧ t.net.conns.length = s.net.conns.length + 1 ∧ t.regs = s.regs) ∧
  (∀ (r : ConnReq) (code : Nat) (s : State), s.mode ≠ modeBoot → s.connRefusal r = some code → ∃ t, exec (.cmReq r) s
    = .next t ∧ t.get NET_CM_CNT_REJ = min NET_CM_CNT_REJ.top (s.get NET_CM_CNT_REJ + 1) ∧ t.net.conns = s.net.conns ∧
    (∀ a, a ≠ NET_CM_CNT → t.reg a = s.reg a)) ∧
  (∀ (sid : BitVec 14) (c : Conn) (s : State), s.connOf sid = some c → c.opened = false → s.mode ≠ modeBoot → c.mgmt =
    false → ∃ t, exec (.cmRtu sid) s = .next t ∧ t.net.conns = s.net.conns.map (fun c => if c.sid = sid then
    { c with opened := true } else c) ∧ (t.cmd.sessions.getLast?.map fun x => (x.id, x.mgmt, x.tenant, x.depth,
    x.phase)) = some (sid, false, c.tenant, c.depth, true) ∧ t.get NET_SESS_OPEN = (s.cmd.sessions.length + 1) %
    (NET_SESS_OPEN.top + 1)) ∧
  (∀ (sid : BitVec 14) (len : BitVec 16) (items : List (BitVec 8 × Entry)) (s : State), (s.session? sid).isSome = true
    → sendItems len.toNat items = false → ∃ t, exec (.roceSend sid len items) s = .next t ∧ t.cmd = s.cmd ∧ t.regs =
    s.regs) ∧
  (∀ (sid : BitVec 14) (op : BitVec 8) (e : Entry) (x : Session) (s : State), s.session? sid = some x → x.arrivals =
    [] → s.sessLoad (.session sid) < x.depth → opListed op.toNat = true → ∃ t, exec (.roceSend sid 64 [(op, e)]) s =
    .next t ∧ (t.session? sid).map (fun y => y.arrivals) = some [(op.toNat, e)] ∧ t.regs = s.regs) ∧
  (∀ (sid : BitVec 14) (data : List Byte) (k : Cmd) (u : UnitSt) (v : BitVec 16) (s : State), s.cmd.cmds = [k] →
    k.path = .session sid → k.e.cid = v → k.op = opPut → k.started = true → s.plc.units = [u] → u.cmd = some k.id →
    u.phase = .fetch → u.rerepl = false → u.id.ver ≠ 0 → s.plc.opens = [] → s.plc.searches = [] → s.plc.tombJobs = []
    → s.plc.mig = none → u.counted = false → u.got + data.length = u.len → ∃ t, exec (.rdmaReadResponse sid v data
    true) s = .next t ∧ t.plc.units = [{ u with got := u.len, phase := .ready, data := u.data ++ data }] ∧ t.regs =
    s.regs) ∧
  (∀ (sid : BitVec 14) (data : List Byte) (k : Cmd) (u : UnitSt) (v : BitVec 16) (s : State), s.cmd.cmds = [k] →
    k.path = .session sid → k.e.cid = v → k.op = opPut → k.started = true → s.plc.units = [u] → u.cmd = some k.id →
    u.phase = .fetch → u.rerepl = false → u.id.ver ≠ 0 → s.plc.opens = [] → s.plc.searches = [] → s.plc.tombJobs = []
    → s.plc.mig = none → u.counted = false → u.got + data.length < u.len → ∃ t, exec (.rdmaReadResponse sid v data
    true) s = .next t ∧ t.plc.units = [{ u with got := u.got + data.length, data := u.data ++ data }] ∧ t.regs =
    s.regs) ∧
  (∀ (sid : BitVec 14) (c : Conn) (s : State), s.connOf sid = some c → c.opened = false → ∃ t, exec (.cmDreq sid) s =
    .next t ∧ t.net.conns = s.net.conns.filter (fun x => x.sid != sid) ∧ t.net.freed = s.net.freed ++ [(sid, s.tick)]
    ∧ t.regs = s.regs) ∧
  (∀ (sid : BitVec 14) (c : Conn) (s : State), s.connOf sid = some c → c.opened = true → (s.session? sid).isSome =
    true → ∃ t, exec (.cmDreq sid) s = .next t ∧ (t.session? sid).isSome = false ∧ (t.connOf sid).isSome = false ∧
    t.net.freed = s.net.freed ++ [(sid, s.tick)] ∧ t.get NET_SESS_OPEN = t.cmd.sessions.length % (NET_SESS_OPEN.top +
    1)) ∧
  (∀ (sid : BitVec 14) (s : State), ∃ t, exec (.cmDrep sid) s = .next t ∧ t =
    { s with net := { s.net with closing := s.net.closing.filter (fun x => x != sid) } })

/-- On an idle data session in SERVE whose tenant has a contract (Safety: serves), with nothing due among the commands, a
  lawful entry and, of a command that queues, an estimate within DEFER_MS. PUT of an open version from its counted
  units on, with a valid policy and key: each unit of the range joins the write buffer, to be fetched. PUT of unit 0,
  no version open, a version of the object held here, buffer empty: the version one sequence above is opened and its
  units are to be fetched. GET of a part of one unit of a named version whose last unit this device does not hold:
  held by the write buffer, its bytes go out and the command completes; with an empty buffer and the unit on a slot
  this device can serve, a job there reads it. SEAL of an open version with a counted unit: that unit is written again
  with FLAGS 3. DELETE of a version with live units here and room for a tombstone: what it covers here is no longer
  live, and the tombstone is recorded. STAT of a version sealed here, or of an object with only an open version,
  completes with its size. LIST completes with the count of its records. RESERVE of a named unit: with the unit on a
  slot this device can serve, a job with its HOLD waits there; of one not held here, the devices of the first tier
  asked, if it has any, are asked for a hint. FLUSH completes. (R298, R301, R309, R330, R389, R402, R405, R406, R407,
  R408, R409, R381.) -/
def Obligations.DataCommandsStartTheirWork : Prop :=
  (∀ (v : OpenVer) (x : Session) (e : Entry) (s : State), s.serves x → s.entryCode (.session x.id) opPut e = none →
    s.settleOne = none → s.prompt (.session x.id) opPut e → s.openOf x.tenant e.objKey.toNat = some v → v.counted ≤
    e.offset.toNat / unitBytes → s.polValid x.tenant = true → s.hasKey x.tenant = true → ∃ t, exec (.put (.session
    x.id) e) s = .next t ∧ t.plc.units.take s.plc.units.length = s.plc.units ∧ ((t.plc.units.drop
    s.plc.units.length).map fun u => (u.id, u.phase, u.cmd)) = (List.range (rangeUnits e.offset.toNat
    e.len.toNat).2).map (fun i =>
    ({ tenant := x.tenant, key := e.objKey.toNat, ver := v.ver, unit := e.offset.toNat / unitBytes + i }, .fetch, some
    s.cmd.nextId)) ∧ (t.cmd.cmds.map fun k => (k.op, k.e, k.started)) = [(opPut, e, true)] ∧ t.cmd.done = s.cmd.done ∧
    t.get CMD_CNT_ACC_COUNT = (s.get CMD_CNT_ACC_COUNT + 1) % (CMD_CNT_ACC_COUNT.top + 1)) ∧
  (∀ (q : Nat) (x : Session) (e : Entry) (s : State), s.serves x → s.entryCode (.session x.id) opPut e = none →
    s.settleOne = none → s.prompt (.session x.id) opPut e → s.openOf x.tenant e.objKey.toNat = none → e.offset.toNat /
    unitBytes = 0 → s.polValid x.tenant = true → s.hasKey x.tenant = true → s.ownSeq x.tenant e.objKey.toNat = some q
    → q < 8388607 → s.plc.units = [] → ∃ t, exec (.put (.session x.id) e) s = .next t ∧ t.plc.opens = s.plc.opens ++
    [{ tenant := x.tenant, key := e.objKey.toNat, ver := (q + 1) * 512 + s.self, session := (.session x.id) }] ∧
    (t.plc.units.map fun u => (u.id, u.phase)) = (List.range (rangeUnits e.offset.toNat e.len.toNat).2).map (fun i =>
    ({ tenant := x.tenant, key := e.objKey.toNat, ver := (q + 1) * 512 + s.self, unit := i }, .fetch)) ∧
    (t.cmd.cmds.map fun k => (k.op, k.e, k.started)) = [(opPut, e, true)] ∧ t.cmd.done = s.cmd.done ∧ t.get
    CMD_CNT_ACC_COUNT = (s.get CMD_CNT_ACC_COUNT + 1) % (CMD_CNT_ACC_COUNT.top + 1)) ∧
  (∀ (x : Session) (e : Entry) (s : State), s.serves x → s.entryCode (.session x.id) opGet e = none → s.settleOne =
    none → s.prompt (.session x.id) opGet e → 0 < e.len.toNat → e.offset.toNat % unitBytes + e.len.toNat ≤ unitBytes →
    e.objVer ≠ 0 → (s.plc.map.any fun m => m.id.tenant == x.tenant && m.id.key == e.objKey.toNat && m.id.ver ==
    e.objVer.toNat && m.live && m.flags.testBit 0) = false → s.hasKey x.tenant = true → (∃ u ∈ s.plc.units, u.id =
    { tenant := x.tenant, key := e.objKey.toNat, ver := e.objVer.toNat, unit := e.offset.toNat / unitBytes } ∧ u.held
    = true ∧ e.offset.toNat % unitBytes + e.len.toNat ≤ u.got) → ∃ t, exec (.get (.session x.id) e) s = .next t ∧
    replied s t (.session x.id) e stOk ∧ (t.lastEntry.map fun k => (k.res0, k.res1)) = some (e.len.toNat,
    e.objVer.toNat) ∧ t.cmd.cmds = [] ∧ t.get CMD_CNT_ACC_COUNT = (s.get CMD_CNT_ACC_COUNT + 1) %
    (CMD_CNT_ACC_COUNT.top + 1)) ∧
  (∀ (m : MapEnt) (st k : Nat) (x : Session) (e : Entry) (s : State), s.serves x → s.entryCode (.session x.id) opGet e
    = none → s.settleOne = none → s.prompt (.session x.id) opGet e → 0 < e.len.toNat → e.offset.toNat % unitBytes +
    e.len.toNat ≤ unitBytes → e.objVer ≠ 0 → (s.plc.map.any fun m => m.id.tenant == x.tenant && m.id.key ==
    e.objKey.toNat && m.id.ver == e.objVer.toNat && m.live && m.flags.testBit 0) = false → s.hasKey x.tenant = true →
    s.plc.units = [] → s.entOf
    { tenant := x.tenant, key := e.objKey.toNat, ver := e.objVer.toNat, unit := e.offset.toNat / unitBytes } = some m
    → s.whereIs m.slot = some (st, k) → ∃ t, exec (.get (.session x.id) e) s = .next t ∧ (∃ j ∈ t.allJobs, j.cmd =
    some s.cmd.nextId ∧ j.station = st ∧ j.slot = some m.slot ∧ j.write = false ∧ readUnit m ∈ j.units) ∧
    (t.cmd.cmds.map fun k => (k.op, k.e, k.started)) = [(opGet, e, true)] ∧ t.cmd.done = s.cmd.done ∧ t.get
    CMD_CNT_ACC_COUNT = (s.get CMD_CNT_ACC_COUNT + 1) % (CMD_CNT_ACC_COUNT.top + 1)) ∧
  (∀ (v : OpenVer) (x : Session) (e : Entry) (s : State), s.serves x → s.entryCode (.session x.id) opSeal e = none →
    s.settleOne = none → s.prompt (.session x.id) opSeal e → s.openOf x.tenant e.objKey.toNat = some v → 0 < v.counted
    → ∃ t, exec (.seal (.session x.id) e) s = .next t ∧ ((t.plc.units.drop s.plc.units.length).map fun u => (u.id,
    u.flags, u.sealing, u.len, u.phase)) =
    [({ tenant := v.tenant, key := v.key, ver := v.ver, unit := v.counted - 1 }, 3, true, v.lastLen, .ready)] ∧
    (t.cmd.cmds.map fun k => (k.op, k.e, k.started)) = [(opSeal, e, true)] ∧ t.cmd.done = s.cmd.done ∧ t.get
    CMD_CNT_ACC_COUNT = (s.get CMD_CNT_ACC_COUNT + 1) % (CMD_CNT_ACC_COUNT.top + 1)) ∧
  (∀ (x : Session) (e : Entry) (s : State), s.serves x → s.entryCode (.session x.id) opDelete e = none → s.settleOne =
    none → s.prompt (.session x.id) opDelete e → e.objVer ≠ 0 → (s.plc.map.any fun m => m.id.tenant == x.tenant &&
    m.id.key == e.objKey.toNat && m.live) = true → s.plc.tombs.length < 262144 → ∃ t, exec (.delete (.session x.id) e)
    s = .next t ∧ (∀ m ∈ t.plc.map, m.id.tenant = x.tenant → m.id.key = e.objKey.toNat → m.id.ver ≤ e.objVer.toNat →
    m.live = false) ∧ t.plc.tombs.contains { tenant := x.tenant, key := e.objKey.toNat, ver := e.objVer.toNat } = true
    ∧ (t.cmd.cmds.map fun k => (k.op, k.e, k.started)) = [(opDelete, e, true)] ∧ t.cmd.done = s.cmd.done ∧ t.get
    CMD_CNT_ACC_COUNT = (s.get CMD_CNT_ACC_COUNT + 1) % (CMD_CNT_ACC_COUNT.top + 1)) ∧
  (∀ (x : Session) (e : Entry) (s : State), s.serves x → s.entryCode (.session x.id) opStat e = none → s.settleOne =
    none → e.objVer ≠ 0 → (s.sealedVers x.tenant e.objKey.toNat).contains e.objVer.toNat = true → ∃ t, exec (.stat
    (.session x.id) e) s = .next t ∧ replied s t (.session x.id) e stOk ∧ (t.lastEntry.map fun k => (k.res0, k.res1))
    = some ((s.verSize x.tenant e.objKey.toNat e.objVer.toNat).1, e.objVer.toNat + (s.verSize x.tenant e.objKey.toNat
    e.objVer.toNat).2 * 2 ^ 32) ∧ t.plc = s.plc) ∧
  (∀ (v : OpenVer) (x : Session) (e : Entry) (s : State), s.serves x → s.entryCode (.session x.id) opStat e = none →
    s.settleOne = none → s.newest x.tenant e.objKey.toNat = none → s.openOf x.tenant e.objKey.toNat = some v →
    e.objVer = 0 → ∃ t, exec (.stat (.session x.id) e) s = .next t ∧ replied s t (.session x.id) e stOk ∧
    (t.lastEntry.map fun k => (k.res0, k.res1)) = some (0, 0) ∧ t.plc = s.plc) ∧
  (∀ (x : Session) (e : Entry) (s : State), s.serves x → s.entryCode (.session x.id) opList e = none → s.settleOne =
    none → ∃ t, exec (.list (.session x.id) e) s = .next t ∧ replied s t (.session x.id) e stOk ∧ (t.lastEntry.map fun
    k => k.res0) = some (min (e.len.toNat / 32) ((s.plc.map.filter fun m => m.id.tenant == x.tenant && m.live &&
    (e.arg0.getLsbD 0 || decide (e.objKey.toNat < m.id.key))).map fun m => m.id.key).dedup.length) ∧ t.plc = s.plc) ∧
  (∀ (m : MapEnt) (st k : Nat) (x : Session) (e : Entry) (s : State), s.serves x → s.entryCode (.session x.id)
    opReserve e = none → s.settleOne = none → s.prompt (.session x.id) opReserve e → e.objVer ≠ 0 → s.entOf
    { tenant := x.tenant, key := e.objKey.toNat, ver := e.objVer.toNat, unit := e.offset.toNat / unitBytes } = some m
    → s.whereIs m.slot = some (st, k) → (s.allJobs.any fun j => j.cmd == some s.cmd.nextId) = false → ∃ t, exec
    (.reserve (.session x.id) e) s = .next t ∧ (∃ j ∈ t.allJobs, j.cmd = some s.cmd.nextId ∧ j.station = st ∧ j.slot =
    some m.slot ∧ j.hold = some e.arg0.toNat) ∧ (t.cmd.cmds.map fun k => (k.op, k.e, k.started)) = [(opReserve, e,
    true)] ∧ t.cmd.done = s.cmd.done) ∧
  (∀ (d : Nat) (l : List Nat) (x : Session) (e : Entry) (s : State), s.serves x → s.entryCode (.session x.id)
    opReserve e = none → s.settleOne = none → s.prompt (.session x.id) opReserve e → e.objVer ≠ 0 → s.entOf
    { tenant := x.tenant, key := e.objKey.toNat, ver := e.objVer.toNat, unit := e.offset.toNat / unitBytes } = none →
    s.tierOf
    { n := s.plc.nextSearch, for_ := .res s.cmd.nextId, id := { tenant := x.tenant, key := e.objKey.toNat, ver := e.objVer.toNat, unit := e.offset.toNat / unitBytes }, skip := [] }
    = d :: l → ∃ t, exec (.reserve (.session x.id) e) s = .next t ∧ told s t ((d :: l).map fun q => (q, pmHintReq)) ∧
    (t.cmd.cmds.map fun k => (k.op, k.e, k.started)) = [(opReserve, e, true)] ∧ t.cmd.done = s.cmd.done) ∧
  (∀ (x : Session) (e : Entry) (s : State), s.serves x → s.entryCode (.session x.id) opFlush e = none → s.settleOne =
    none → ∃ t, exec (.flush (.session x.id) e) s = .next t ∧ replied s t (.session x.id) e stOk ∧ (t.lastEntry.map
    fun k => k.res0) = some 0 ∧ t.cmd.cmds = [] ∧ t.plc = s.plc)

/-- On a quiet device (Safety: quiet), over a management path that answers at once, the entry lawful and allowed in the
  mode. IDENTIFY completes with SYS_ID and 256 bytes. GET_LOG of page 1 delivers the records held from the sequence
  number asked for on, as many as LEN allows. METER_READ for one tenant, with no minute in progress, delivers its
  records from a minute on, as many as LEN allows, and those delivered READY become CONSUMED. METER_ACK for one tenant
  discards its records up to a minute. FLUSH with ALL, no activation drain running, is held. DELETE with TENANT
  removes the tenant's keys up to the generation; the tenant's units here are no longer live, the tombstone is
  recorded if there is room, and the command runs on. QUEUE_RESTART without DISCARD, of the one session, frozen and
  with nothing waiting, ends the freeze and completes with 0. (R331, R401, R411, R412, R420, R422, R428, R596, R389,
  R377.) -/
def Obligations.ManagementCommandsComplete : Prop :=
  (∀ (p : Path) (e : Entry) (s : State), s.quiet → s.clear p → s.entryCode p opIdentify e = none → s.modeCode p
    opIdentify e = none → ∃ t, exec (.identify p e) s = .next t ∧ replied s t p e stOk ∧ (t.lastEntry.map fun k =>
    (k.res0, k.data.length, k.data.take 4)) = some ((s.reg SYS_ID).toNat, 256, toBytes 4 (s.reg SYS_ID).toNat) ∧ t.plc
    = s.plc) ∧
  (∀ (p : Path) (e : Entry) (s : State), s.quiet → s.clear p → s.entryCode p opGetLog e = none → s.modeCode p opGetLog
    e = none → e.arg0 = 1 → ∃ t, exec (.getLog p e) s = .next t ∧ replied s t p e stOk ∧ (t.lastEntry.map fun k =>
    (k.res0, k.data)) = some (min (e.len.toNat / 64) (s.cmd.log.filter fun r => decide (e.arg1.toNat ≤ r.seq)).length,
    ((s.cmd.log.filter fun r => decide (e.arg1.toNat ≤ r.seq)).take (e.len.toNat / 64)).flatMap LogRec.bytes) ∧
    t.cmd.log = s.cmd.log) ∧
  (∀ (p : Path) (e : Entry) (s : State), s.quiet → s.clear p → s.entryCode p opMeterRead e = none → s.modeCode p
    opMeterRead e = none → s.mtr.on = false → e.arg0.getLsbD 31 = false → ∃ t, exec (.meterRead p e) s = .next t ∧
    replied s t p e stOk ∧ (t.lastEntry.map fun k => (k.res0, k.data)) = some (((sortBy (fun (a b : MeterRec) =>
    decide (a.minute ≤ b.minute)) (s.mtr.recs.filter fun r => r.acc.tenant == e.arg0.toNat % 4096 && decide
    (e.arg1.toNat ≤ r.minute))).take (e.len.toNat / 64)).length, ((sortBy (fun (a b : MeterRec) => decide (a.minute ≤
    b.minute)) (s.mtr.recs.filter fun r => r.acc.tenant == e.arg0.toNat % 4096 && decide (e.arg1.toNat ≤
    r.minute))).take (e.len.toNat / 64)).flatMap fun r => r.bytes r.res) ∧ t.mtr.recs = s.mtr.recs.map fun r => if
    ((sortBy (fun (a b : MeterRec) => decide (a.minute ≤ b.minute)) (s.mtr.recs.filter fun r => r.acc.tenant ==
    e.arg0.toNat % 4096 && decide (e.arg1.toNat ≤ r.minute))).take (e.len.toNat / 64)).contains r ∧ r.res = 1 then
    { r with res := 2 } else r) ∧
  (∀ (p : Path) (e : Entry) (s : State), s.quiet → s.clear p → s.entryCode p opMeterAck e = none → s.modeCode p
    opMeterAck e = none → e.arg0.getLsbD 31 = false → ∃ t, exec (.meterAck p e) s = .next t ∧ replied s t p e stOk ∧
    (t.lastEntry.map fun k => k.res0) = some (s.mtr.recs.filter fun r => r.acc.tenant == e.arg0.toNat % 4096 && decide
    (r.minute ≤ e.arg1.toNat)).length ∧ t.mtr.recs = s.mtr.recs.filter fun r => !(r.acc.tenant == e.arg0.toNat % 4096
    && decide (r.minute ≤ e.arg1.toNat))) ∧
  (∀ (p : Path) (e : Entry) (s : State), s.quiet → s.clear p → s.entryCode p opFlush e = none → s.modeCode p opFlush e
    = none → e.arg0 = 1 → s.sys.drain ≠ .activation → ∃ t, exec (.flushAll p e) s = .next t ∧ (t.cmd.cmds.map fun k =>
    (k.op, k.waited)) = [(opFlush, 0)] ∧ t.cmd.done = s.cmd.done ∧ t.get CMD_CNT_ACC_COUNT = (s.get CMD_CNT_ACC_COUNT
    + 1) % (CMD_CNT_ACC_COUNT.top + 1)) ∧
  (∀ (p : Path) (e : Entry) (s : State), s.quiet → s.clear p → s.entryCode p opDelete e = none → s.modeCode p opDelete
    e = none → e.arg0 = 1 → ∃ t, exec (.deleteTenant p e) s = .next t ∧ t.sec.keys = s.sec.keys.filter (fun k =>
    !(k.tenant == e.arg1.toNat && decide (k.gen ≤ e.arg2.toNat))) ∧ (∀ m ∈ t.plc.map, m.id.tenant = e.arg1.toNat →
    m.live = false) ∧ (s.plc.tombs.length < 262144 → t.plc.tombs.contains
    { tenant := e.arg1.toNat, key := 0, ver := 0xFFFFFFFF, whole := true, keyGen := e.arg2.toNat } = true) ∧
    (t.cmd.cmds.map fun k => (k.op, k.e, k.started)) = [(opDelete, e, true)]) ∧
  (∀ (x : Session) (e : Entry) (s : State), s.quiet → s.cmd.sessions = [x] → x.mgmt = true → x.frozen = true →
    x.arrivals = [] → 0 < x.depth → e.arg0.getLsbD 0 = false → s.entryCode (.session x.id) opRestart e = none →
    s.modeCode (.session x.id) opRestart e = none → ∃ t, exec (.queueRestart (.session x.id) e) s = .next t ∧ replied
    s t (.session x.id) e stOk ∧ (t.lastEntry.map fun k => k.res0) = some 0 ∧ (t.cmd.sessions.map fun y => (y.id,
    y.frozen)) = [(x.id, false)])

/-- On a quiet device over a management path: SELF_TEST_SHORT and SELF_TEST_EXTENDED with no test running replace the old
  result, complete and leave the test running with a Hedgehog cycle at FAST_GAP (no job is made when no station is in
  service and no slot holds a disc); SELF_TEST_ABORT ends a test with OUTCOME 2; the last step of the last part (the
  cycle, or the homing of an axis) of a test that has not failed makes the result READY with OUTCOME 0, a failed one
  OUTCOME 1 with its source and a log record; a step while the cycle still runs changes nothing, and a part that ends
  leaves the next under way; SELF_TEST_ACK with no test running discards the result. (R418, R419, R420, R389.) -/
def Obligations.SelfTestsRunAndReport : Prop :=
  (∀ (p : Path) (e : Entry) (s : State), s.quiet → s.clear p → s.entryCode p opSelfTest { e with arg0 := 1 } = none →
    s.modeCode p opSelfTest { e with arg0 := 1 } = none → s.cmd.test = none → s.hedgehogOn = true → s.inService 0 =
    false → s.inService 1 = false → (s.arb.jobs.all fun j => j.kind != .selftest) = true → ∃ t, exec (.selfTestShort p
    e) s = .next t ∧ replied s t p e stOk ∧ t.cmd.test = some { kind := 1, left := [.cycle] } ∧ t.reg CMD_ST_STAT = 0
    ∧ t.bist.running = true ∧ t.bist.fast = true ∧ t.bist.rest = List.range 117 ∧ t.arb = s.arb) ∧
  (∀ (p : Path) (e : Entry) (s : State), s.quiet → s.clear p → s.entryCode p opSelfTest { e with arg0 := 2 } = none →
    s.modeCode p opSelfTest { e with arg0 := 2 } = none → s.cmd.test = none → s.hedgehogOn = true → s.inService 0 =
    false → s.inService 1 = false → (∀ k < 24, s.slotFull k = false) → (s.arb.jobs.all fun j => j.kind != .selftest) =
    true → ∃ t, exec (.selfTestExtended p e) s = .next t ∧ replied s t p e stOk ∧ (t.cmd.test.map fun x => (x.kind,
    x.left.head?, x.left.length)) = some (2, some .cycle, 22) ∧ t.reg CMD_ST_STAT = 0 ∧ t.bist.running = true ∧
    t.bist.fast = true ∧ t.arb = s.arb) ∧
  (∀ (p : Path) (e : Entry) (x : SelfTest) (s : State), s.quiet → s.clear p → s.entryCode p opSelfTest
    { e with arg0 := 15 } = none → s.modeCode p opSelfTest { e with arg0 := 15 } = none → s.cmd.test = some x → x.fail
    = none → x.kind < 4 → s.arb.jobs = [] → (s.arbOf 0).job = none → (s.arbOf 1).job = none → ∃ t, exec
    (.selfTestAbort p e) s = .next t ∧ replied s t p e stOk ∧ t.cmd.test = none ∧ t.get CMD_ST_STAT_RES = 1 ∧ t.get
    CMD_ST_STAT_OUTCOME = 2 ∧ t.get CMD_ST_STAT_KIND = x.kind ∧ t.get CMD_ST_STAT_PROGRESS = s.get
    CMD_ST_STAT_PROGRESS) ∧
  (∀ (src : BitVec 10) (dmg : List UnitRef) (n : Nat) (x : SelfTest) (s : State), s.cmd.test = some x → x.fail = none
    → x.kind < 4 → x.left = [.axis n 2] → s.axInMotion n = false → s.arb.jobs = [] → (s.arbOf 0).job = none → (s.arbOf
    1).job = none → ∃ t, exec (.selfTestStep true src true dmg) s = .next t ∧ t.cmd.test = none ∧ t.get
    CMD_ST_STAT_RES = 1 ∧ t.get CMD_ST_STAT_OUTCOME = 0 ∧ t.get CMD_ST_STAT_PROGRESS = 100 ∧ t.get CMD_ST_STAT_KIND =
    x.kind ∧ (∀ a, a ≠ CMD_ST_STAT → t.reg a = s.reg a) ∧ t.cmd.log = s.cmd.log) ∧
  (∀ (src : BitVec 10) (dmg : List UnitRef) (x : SelfTest) (s : State), s.cmd.test = some x → x.fail = none → x.left =
    [.cycle] → s.bist.running = false → s.arb.jobs = [] → (s.arbOf 0).job = none → (s.arbOf 1).job = none → ∃ t, exec
    (.selfTestStep false src true dmg) s = .next t ∧ t.cmd.test = none ∧ t.get CMD_ST_STAT_RES = 1 ∧ t.get
    CMD_ST_STAT_OUTCOME = 1 ∧ t.get CMD_ST_STAT_FAIL_SRC = src.toNat ∧ (t.cmd.log.getLast?.map fun r => (r.type,
    r.arg)) = some (logSelfTest, src.toNat)) ∧
  (∀ (ok : Bool) (src : BitVec 10) (finished : Bool) (dmg : List UnitRef) (x : SelfTest) (rest : List TestPart) (s :
    State), s.cmd.test = some x → x.left = .cycle :: rest → s.bist.running = true → s.arb.jobs = [] → (s.arbOf 0).job
    = none → (s.arbOf 1).job = none → ∃ t, exec (.selfTestStep ok src finished dmg) s = .next t ∧ t = s) ∧
  (∀ (src : BitVec 10) (st : Nat) (slot : Option Nat) (side layer : Nat) (x : SelfTest) (s : State), s.cmd.test = some
    x → x.left = [.cycle, .read st slot side layer] → s.bist.running = false → s.arb.jobs = [] → (s.arbOf 0).job =
    none → (s.arbOf 1).job = none → ∃ t, exec (.selfTestStep true src true []) s = .next t ∧ t.cmd.test = some
    { x with left := [.read st slot side layer] } ∧ t.bist = s.bist) ∧
  (∀ (p : Path) (s : State), s.opens p → s.cmd.test = none → ∃ t, exec (.selfTestAck p) s = .next t ∧ t.wstat = stOk ∧
    t.reg CMD_ST_STAT = 0 ∧ (∀ a, a ≠ CMD_ST_STAT → a ≠ NET_SVC_STAT → t.reg a = s.reg a) ∧ t.cmd = s.cmd)

/-- On a quiet device over a management path: TXN_BEGIN of an IDLE domain opens it for the path; TXN_COMMIT by the owner
  of a shadow that breaks no rule waits for its boundary; TXN_ROLLBACK by the owner and TXN_TIMEOUT return the domain
  to IDLE with the outcome ROLLED_BACK or TIMED_OUT, the time-out raising its fault. TXN_APPLY of a commit that waits,
  with none of a lower domain waiting and no word of the slot table changed, ends the transaction COMMITTED, raises
  SEQ and completes its command, the one held; a network commit whose one change is NET_MTU, with PFC on, writes it.
  Another path's TXN_COMMIT and TXN_ROLLBACK are refused and leave the transaction. (R521, R523, R524, R525, R526,
  R527, R528, R529, R532, R346.) -/
def Obligations.TransactionsOpenCommitAndEnd : Prop :=
  (∀ (p : Path) (e : Entry) (s : State), s.quiet → s.clear p → s.entryCode p opTxnBegin e = none → s.modeCode p
    opTxnBegin e = none → s.txnState e.arg0.toNat = 0 → ∃ t, exec (.txnBegin p e) s = .next t ∧ replied s t p e stOk ∧
    t.txnState e.arg0.toNat = 1 ∧ t.ownsTxn p e.arg0.toNat = true ∧ (t.txnOf e.arg0.toNat).shadow = [] ∧ (t.txnOf
    e.arg0.toNat).lastAt = s.tick) ∧
  (∀ (p : Path) (e : Entry) (s : State), s.quiet → s.clear p → s.entryCode p opTxnCommit e = none → s.modeCode p
    opTxnCommit e = none → s.txnOpen e.arg0.toNat = true → s.ownsTxn p e.arg0.toNat = true → s.txnCheck e.arg0.toNat =
    none → ∃ t, exec (.txnCommit p e) s = .next t ∧ (t.txnOf e.arg0.toNat).commit = some s.cmd.nextId ∧
    (t.cmd.cmds.map fun k => (k.id, k.op, k.e)) = [(s.cmd.nextId, opTxnCommit, e)] ∧ t.cmd.done = s.cmd.done ∧
    t.txnState e.arg0.toNat = 1) ∧
  (∀ (p : Path) (e : Entry) (s : State), s.quiet → s.clear p → s.entryCode p opTxnCommit e = none → s.modeCode p
    opTxnCommit e = none → s.ownsTxn p e.arg0.toNat = false → ∃ t, exec (.txnCommit p e) s = .next t ∧ replied s t p e
    0x4010 ∧ t.txn = s.txn ∧ t.cmd.cmds = []) ∧
  (∀ (p : Path) (e : Entry) (s : State), s.quiet → s.clear p → s.entryCode p opTxnRollback e = none → s.modeCode p
    opTxnRollback e = none → s.ownsTxn p e.arg0.toNat = false → ∃ t, exec (.txnRollback p e) s = .next t ∧ replied s t
    p e 0x4010 ∧ t.txn = s.txn) ∧
  (∀ (p : Path) (e : Entry) (s : State), s.quiet → s.clear p → s.entryCode p opTxnRollback e = none → s.modeCode p
    opTxnRollback e = none → s.txnOpen e.arg0.toNat = true → s.ownsTxn p e.arg0.toNat = true → ∃ t, exec (.txnRollback
    p e) s = .next t ∧ replied s t p e stOk ∧ t.txnState e.arg0.toNat = 0 ∧ t.get (TXN_STAT_W2_LAST e.arg0.toNat) = 3
    ∧ (t.txnOf e.arg0.toNat).shadow = []) ∧
  (∀ (d : Fin 4) (s : State), s.txnOpen d = true → 500000 * s.get TXN_CFG_TMO ≤ s.tick - (s.txnOf d).lastAt → ∃ t,
    exec (.txnTimeout d) s = .next t ∧ t.txnState d = 0 ∧ t.get (TXN_STAT_W2_LAST d) = 4 ∧ (t.txnOf d).shadow = [] ∧
    (t.reg (keySrc 0x0B0 0)).toNat = min 0xFFFFFFFF ((s.reg (keySrc 0x0B0 0)).toNat + 1)) ∧
  (∀ (v : Word) (k : Cmd) (s : State), s.txnState 3 = 1 → s.txnState 0 = 0 → s.txnState 1 = 0 → s.txnState 2 = 0 →
    (s.txnOf 3).commit = some k.id → s.txnChanges 3 = [(NET_MTU, v)] → s.cmd.cmds = [k] → s.flag NET_PFC_CFG_EN = true
    → ∃ t, exec (.txnApply 3) s = .next t ∧ t.reg NET_MTU = v ∧ t.txnState 3 = 0 ∧ t.get (TXN_STAT_W2_LAST 3) = 1 ∧
    t.get (TXN_STAT_W1_SEQ 3) = (s.get (TXN_STAT_W1_SEQ 3) + 1) % ((TXN_STAT_W1_SEQ 3).top + 1) ∧ replied s t k.path
    k.e stOk ∧ t.cmd.cmds = []) ∧
  (∀ (d : Fin 4) (k : Cmd) (s : State), s.txnState d = 1 → ((List.range d.val).any fun i => (s.txnOf i).commit.isSome
    && s.txnState i == 1) = false → (s.txnOf d).commit = some k.id → ((s.txnChanges d).any fun e => isSlotKey e.1) =
    false → s.cmd.cmds = [k] → k.op = opTxnCommit → ∃ t, exec (.txnApply d) s = .next t ∧ t.txnState d = 0 ∧ t.get
    (TXN_STAT_W2_LAST d) = 1 ∧ t.get (TXN_STAT_W1_SEQ d) = (s.get (TXN_STAT_W1_SEQ d) + 1) % ((TXN_STAT_W1_SEQ d).top
    + 1) ∧ replied s t k.path k.e stOk ∧ t.cmd.cmds = [])

/-- On a quiet device over a management path: CAL_SAVE on a session completes with 3,488 bytes that begin with the magic;
  CAL_LOAD waits for its station when the blob fails no check, and completes with BAD_FIELD and the check when it
  fails check 1, 3, 4 or 5, changing no result; CAL_LOAD_APPLY at an OFF station loads the oldest waiting blob, sets
  the bits it flags and completes its command; ACTIVATE_AT with 0 cancels a pending activation with OUTCOME 2, and
  with an instant at least 2 s ahead and a STAGED image bundle makes it pending. (R544, R545, R546, R548, R602, R604.) -/
def Obligations.CalibrationBlobsAndActivation : Prop :=
  (∀ (p : Path) (e : Entry) (s : State), s.quiet → s.clear p → s.entryCode p opCalSave e = none → s.modeCode p
    opCalSave e = none → p ≠ .service → 3488 ≤ e.len.toNat → ∃ t, exec (.calSave p e) s = .next t ∧ replied s t p e
    stOk ∧ (t.lastEntry.map fun k => (k.res0, k.data.take 4)) = some (3488, [0x4B, 0x43, 0x41, 0x4C]) ∧ t.cal = s.cal) ∧
  (∀ (p : Path) (e : Entry) (blob : List Byte) (s : State), s.quiet → s.clear p → s.entryCode p opCalLoad e = none →
    s.modeCode p opCalLoad e = none → s.spnState e.arg0.toNat = spOff → ∃ t, exec (.calLoad p e blob) s = .next t ∧
    (s.blobFails e.arg0.toNat (blob.take e.len.toNat) = none → t.cal.loads = s.cal.loads ++
    [{ cmd := s.cmd.nextId, stn := e.arg0.toNat, blob := blob.take e.len.toNat }] ∧ (t.cmd.cmds.map fun k => (k.id,
    k.op)) = [(s.cmd.nextId, opCalLoad)]) ∧ (∀ n, s.blobFails e.arg0.toNat (blob.take e.len.toNat) = some n → n ≠ 2 →
    replied s t p e stBadField ∧ (t.lastEntry.map fun k => k.res0) = some n ∧ t.cal = s.cal)) ∧
  (∀ (st : Fin 2) (l : CalLoad) (k : Cmd) (s : State), s.cal.loads = [l] → l.stn = st.val → s.spnState st = spOff →
    s.cmd.cmds = [k] → k.id = l.cmd → s.plc.opens = [] → s.plc.searches = [] → s.plc.tombJobs = [] → s.plc.mig = none
    → ∃ t, exec (.calLoadApply st) s = .next t ∧ t.cal.loads = [] ∧ t.get (calOutFld st) = 1 ∧ t.get (calStnFld st) =
    s.get (calStnFld st) ||| bitsOf (fieldAt l.blob 0x0C 2) 9 3 ∧ replied s t k.path k.e stOk ∧ t.cmd.cmds = []) ∧
  (∀ (p : Path) (e : Entry) (s : State), s.quiet → s.clear p → s.entryCode p opActivate e = none → s.modeCode p
    opActivate e = none → e.arg2 = 0 → s.flag SYS_STAT_ACT_PENDING = true → ∃ t, exec (.activateAt p e) s = .next t ∧
    replied s t p e stOk ∧ t.flag SYS_STAT_ACT_PENDING = false ∧ t.get UPD_ACT_STAT_OUTCOME = 2 ∧ (t.reg (keySrc 0x0E1
    0)).toNat = min 0xFFFFFFFF ((s.reg (keySrc 0x0E1 0)).toNat + 1)) ∧
  (∀ (p : Path) (e : Entry) (s : State), s.quiet → s.clear p → s.entryCode p opActivate e = none → s.modeCode p
    opActivate e = none → e.arg2.toNat ≠ 0 → s.get UPD_STAT_STATE = 3 → (s.sec.bundle.all fun b => !b.token) = true →
    s.ce.rephased = true → s.ptpNow + 2000000000 ≤ e.arg2.toNat * 1000000000 + e.arg1.toNat → ∃ t, exec (.activateAt p
    e) s = .next t ∧ replied s t p e stOk ∧ t.flag SYS_STAT_ACT_PENDING = true ∧ t.actInstant = e.arg2.toNat *
    1000000000 + e.arg1.toNat)

/-- On a quiet device over a management path: ATTEST_REQUEST with a 32-byte nonce outside BLANK queues a quote and signing
  starts when none is being signed; QUOTE_SIGNED makes it READY and counts it; ATTEST_FETCH into a buffer that holds
  it delivers a READY quote and makes it CONSUMED; KEY_LOAD of length 0 removes the pair of tenant and generation;
  KEY_LOAD of a tenant blob that agrees with its entry stores the key it unwraps to, and one that does not unwrap is
  counted and raised. (R579, R588, R590, R591, R592, R594, R595, R596.) -/
def Obligations.QuotesAndKeys : Prop :=
  (∀ (p : Path) (e : Entry) (nonce : BitVec 256) (s : State), s.quiet → s.clear p → s.entryCode p opAttest e = none →
    s.modeCode p opAttest e = none → e.arg0 = 0 → s.lc ≠ lcBlank → e.len = 32 → s.sec.quotes = [] → ∃ t, exec
    (.attestRequest p e nonce) s = .next t ∧ replied s t p e stOk ∧ (t.lastEntry.map fun k => k.res0) = some 52096 ∧
    (t.sec.quotes.map fun q => (q.path, q.nonce, q.state, q.reqAt)) = [(p, nonce, 1, s.tick)] ∧ t.get SEC_ATT_PENDING
    = 1) ∧
  (∀ (sig : List Byte) (q : Quote) (s : State), s.sec.quotes = [q] → q.state = 1 → q.dropped = false → ∃ t, exec
    (.quoteSigned sig) s = .next t ∧ t.sec.quotes = [{ q with state := 2, sig := sig }] ∧ t.get SEC_CNT_QUOTES =
    (s.get SEC_CNT_QUOTES + 1) % (SEC_CNT_QUOTES.top + 1) ∧ t.get SEC_ATT_PENDING = 0 ∧ t.get SEC_ATT_LAST_MS = min
    65535 ((s.tick - q.reqAt) / 500) ∧ t = { s with regs := t.regs, sec := t.sec } ∧ (∀ a, a / 0x10000 ≠ 0x12 → t.reg
    a = s.reg a)) ∧
  (∀ (p : Path) (e : Entry) (q : Quote) (s : State), s.quiet → s.clear p → s.entryCode p opAttest e = none →
    s.modeCode p opAttest e = none → e.arg0 = 1 → p ≠ .service → 52096 ≤ e.len.toNat → s.sec.quotes = [q] → q.path = p
    → q.state = 2 → q.dropped = false → ∃ t, exec (.attestFetch p e) s = .next t ∧ replied s t p e stOk ∧
    (t.lastEntry.map fun k => (k.res0, k.rstate)) = some (52096, 1) ∧ t.sec.quotes = [{ q with state := 3 }]) ∧
  (∀ (p : Path) (e : Entry) (blob : List Byte) (s : State), s.quiet → s.clear p → s.entryCode p opKeyLoad e = none →
    s.modeCode p opKeyLoad e = none → s.lc = lcIssued ∨ s.lc = lcField → s.get SEC_LC_DEBUG = 0 → e.len = 0 →
    e.arg0.getLsbD 31 = false → ∃ t, exec (.keyLoad p e blob) s = .next t ∧ replied s t p e stOk ∧ t.sec.keys =
    s.sec.keys.filter (fun x => !(x.tenant == e.arg0.toNat % 4096 && x.gen == e.arg1.toNat))) ∧
  (∀ (p : Path) (e : Entry) (blob : List Byte) (s : State), s.quiet → s.clear p → s.entryCode p opKeyLoad e = none →
    s.modeCode p opKeyLoad e = none → s.lc = lcIssued ∨ s.lc = lcField → s.get SEC_LC_DEBUG = 0 → e.len ≠ 0 →
    e.arg0.getLsbD 31 = false → s.keyFits (e.arg0.toNat % 4096) e.arg1.toNat = true → s.wrapOk (s.newCmd p opKeyLoad
    e).1 blob = true → ∃ t, exec (.keyLoad p e blob) s = .next t ∧ (∀ k, Config.keyUnwrap (s.kekOf blob) ((blob.drop
    0x30).take 40) = some k → replied s t p e stOk ∧ t.sec.keys = s.sec.keys.filter (fun x => !(x.tenant ==
    e.arg0.toNat % 4096 && x.gen == e.arg1.toNat)) ++
    [{ tenant := e.arg0.toNat % 4096, gen := e.arg1.toNat, key := k }]) ∧ (Config.keyUnwrap (s.kekOf blob) ((blob.drop
    0x30).take 40) = none → replied s t p e 0x800C ∧ t.sec.keys = s.sec.keys ∧ t.get SEC_CNT_UNWRAP_FAIL = min
    SEC_CNT_UNWRAP_FAIL.top (s.get SEC_CNT_UNWRAP_FAIL + 1)))

/-- No search, tombstone or migration runs. DEFERRED_COMMAND_START with the job of the one command held, a deferred PUT of
  at most one unit from the counted units of the one open version on, holding the station with its disc and the
  spindle at speed, the order of its session letting it start, a valid policy, a loaded key and an empty write buffer:
  the PUT starts, no longer deferred, and its unit is to be fetched. JOB_END of the only job, a tenant read of one
  unit for the one command held, a GET that reads this unit alone from here, the unit delivered with a key generation
  that is loaded, no map entry, no extent on the station, no open version and PARK_TMO not 0: the GET completes with
  its bytes and the grant parks on the tenant. PARK_TIMEOUT of a parked grant without HOLD after PARK_TMO, or with one
  after it, makes it IDLE. STN_WDOG after STN_WDOG seconds, of the job of the one command held, a DELETE of the
  service port, no extent on the station and the other station without a job: it is counted and raised, the grant is
  IDLE and the command ends with 0x800B. (R394, R404, R431, R443, R445, R447, R597.) -/
def Obligations.GrantsServeAndEnd : Prop :=
  (∀ (st : Fin 2) (j : Job) (k : Cmd) (v : OpenVer) (s : State), (s.arbOf st).job = some j → j.cmd = some k.id →
    j.hold = none → s.cmd.cmds = [k] → k.op = opPut → k.deferred = true → k.started = false → (s.view st).holds j =
    true → s.flag (SPN_STAT_AT_SPEED st) = true → s.mayStart k = true → s.plc.opens = [v] → v.tenant = k.tenant →
    v.key = k.e.objKey.toNat → v.counted ≤ k.e.offset.toNat / unitBytes → k.e.offset.toNat % unitBytes = 0 → 0 <
    k.e.len.toNat → k.e.len.toNat ≤ unitBytes → s.polValid k.tenant = true → s.hasKey k.tenant = true → s.plc.units =
    [] → s.plc.searches = [] → s.plc.tombJobs = [] → s.plc.mig = none → ∃ t, exec (.deferredCommandStart st) s = .next
    t ∧ (t.cmd.cmds.map fun x => (x.id, x.started, x.deferred, x.ver)) = [(k.id, true, false, v.ver)] ∧
    (t.plc.units.map fun u => (u.cmd, u.phase, u.len)) = [(some k.id, .fetch, k.e.len.toNat)] ∧ t.get
    CMD_DEFERRED_COUNT = 0 ∧ t.cmd.done = s.cmd.done) ∧
  (∀ (st : Fin 2) (j : Job) (k : Cmd) (u : JobUnit) (r : RdUnit) (w : Word) (s : State), (s.arbOf st).job = some j →
    s.arb.jobs = [] → j.kind = .tenant → j.write = false → j.hold = none → j.units = [u] → j.cmd = some k.id →
    s.cmd.cmds = [k] → k.op = opGet → k.started = true → k.reads = [r] → r.now = some s.self → r.done = false →
    r.failed = false → k.unitId r.unit = u.id → (s.sec.keys.any fun x => x.tenant == u.id.tenant && x.gen == w.toNat)
    = true → s.plc.map = [] → s.chn.lost = [] → (s.chn.ext[2 * st.val]?).getD none = none → (s.chn.ext[2 * st.val +
    1]?).getD none = none → 0 < s.get ARB_PARK_PARK_TMO → s.plc.opens = [] → s.plc.searches = [] → s.plc.tombJobs = []
    → s.plc.mig = none → ∃ t, exec (.jobEnd st [some w]) s = .next t ∧ replied s t k.path k.e stOk ∧ (t.lastEntry.map
    fun x => x.res0) = some (r.len % 2 ^ 64) ∧ t.cmd.cmds = [] ∧ (t.arbOf st).job = none ∧ (t.arbOf st).parked = some
    j.tenant ∧ t.grantState st = stnParked) ∧
  (∀ (st : Fin 2) (s : State), s.grantState st = stnParked → (s.arbOf st).since + 500000 * ((s.arbOf st).hold.getD
    (s.get ARB_PARK_PARK_TMO)) ≤ s.tick → ∃ t, exec (.parkTimeout st) s = .next t ∧ t.grantState st = stnIdle ∧
    (t.arbOf st).parked = none ∧ t.get (ARB_STN_W0_TENANT st) = 0) ∧
  (∀ (st : Fin 2) (j : Job) (k : Cmd) (s : State), (s.arbOf st).job = some j → j.kind = .tenant → j.cmd = some k.id →
    s.cmd.cmds = [k] → k.op = opDelete → k.path = .service → (s.chn.ext[2 * st.val]?).getD none = none → (s.chn.ext[2
    * st.val + 1]?).getD none = none → (s.arbOf st).since + 500000 * s.get ARB_STN_WDOG_STN_WDOG ≤ s.tick → (∀ i : Fin
    2, i ≠ st → (s.arbOf i).job = none) → s.plc.opens = [] → s.plc.searches = [] → s.plc.tombJobs = [] → s.plc.mig =
    none → ∃ t, exec (.stnWdog st) s = .next t ∧ t.grantState st = stnIdle ∧ (t.arbOf st).job = none ∧ t.get
    ARB_CNT_EVT_WDOG = min ARB_CNT_EVT_WDOG.top (s.get ARB_CNT_EVT_WDOG + 1) ∧ replied s t k.path k.e 0x800B ∧
    t.cmd.cmds = [] ∧ (t.reg (keySrc 0x090 0)).toNat = min 0xFFFFFFFF ((s.reg (keySrc 0x090 0)).toNat + 1))

/-- Each of INV_LINE, INV_RANGE, INV_ALL, LOCK, UNLOCK and UNLOCK_ALL with cacheable addresses and none running sets BUSY
  and OP and its write completes; while one runs it is refused and changes no register. CCH_MAINT_DONE of an
  invalidation that reaches no outstanding miss and holds no access leaves no valid line that it reaches, keeps the
  others and reports the lines reached; of UNLOCK_ALL with no miss outstanding it leaves no lock; of LOCK, with no
  miss outstanding, of a line present, valid and unlocked, the only one of its tag, with fewer than eight locks in its
  set, it locks the line. (R448, R454, R455, R456, R457, R458.) -/
def Obligations.CacheMaintenanceIsOrderedAndEnds : Prop :=
  (∀ (p : Path) (r : Instr) (op : Nat) (s : State), (r = .invLine p ∧ op = 1 ∨ r = .invRange p ∧ op = 2 ∨ r = .invAll
    p ∧ op = 3 ∨ r = .lock p ∧ op = 4 ∨ r = .unlock p ∧ op = 5 ∨ r = .unlockAll p ∧ op = 6) → s.opens p → s.flag
    CCH_MAINT_STAT_BUSY = false → cacheable (64 * s.get CCH_MAINT_ADDR_LINE) = true → cacheable (64 * s.get
    CCH_MAINT_END_LINE) = true → ∃ t, exec r s = .next t ∧ t.wstat = stOk ∧ t.flag CCH_MAINT_STAT_BUSY = true ∧ t.get
    CCH_MAINT_STAT_OP = op ∧ t.get CCH_MAINT_STAT_LINES = 0 ∧ t.cch.lines = s.cch.lines ∧ (∀ a, a ≠ CCH_MAINT_STAT → a
    ≠ CCH_MISS → a ≠ NET_SVC_STAT → t.reg a = s.reg a)) ∧
  (∀ (p : Path) (r : Instr) (op : Nat) (s : State), (r = .invLine p ∧ op = 1 ∨ r = .invRange p ∧ op = 2 ∨ r = .invAll
    p ∧ op = 3 ∨ r = .lock p ∧ op = 4 ∨ r = .unlock p ∧ op = 5 ∨ r = .unlockAll p ∧ op = 6) → s.opens p → s.flag
    CCH_MAINT_STAT_BUSY = true → ∃ t, exec r s = .next t ∧ t.wstat = stRegRefused ∧ t.cch = s.cch ∧ (∀ a, a ≠
    NET_SVC_STAT → t.reg a = s.reg a)) ∧
  (∀ (op : Nat) (s : State), s.flag CCH_MAINT_STAT_BUSY = true → s.get CCH_MAINT_STAT_OP = op → 1 ≤ op → op ≤ 3 →
    (s.cch.miss.any fun m => s.invReaches op m) = false → s.cch.held = [] → ∃ t, exec .cchMaintDone s = .next t ∧
    t.flag CCH_MAINT_STAT_BUSY = false ∧ t.get CCH_MAINT_STAT_RESULT = 0 ∧ (t.cch.lines.any fun l => l.valid &&
    s.invReaches op l.tag) = false ∧ (t.cch.lines.filter fun l => !s.invReaches op l.tag) = ((s.cch.lines.filter fun l
    => !s.invReaches op l.tag).filter fun l => l.valid || l.locked) ∧ t.get CCH_MAINT_STAT_LINES = (s.cch.lines.filter
    fun l => l.valid && s.invReaches op l.tag).length % (CCH_MAINT_STAT_LINES.top + 1) ∧ (∀ a, a ≠ CCH_MAINT_STAT → a
    ≠ CCH_INV_LOCKED_CNT → t.reg a = s.reg a) ∧ t.mem = s.mem) ∧
  (∀ (s : State), s.flag CCH_MAINT_STAT_BUSY = true → s.get CCH_MAINT_STAT_OP = 6 → s.cch.miss = none → ∃ t, exec
    .cchMaintDone s = .next t ∧ t.flag CCH_MAINT_STAT_BUSY = false ∧ (t.cch.lines.any fun l => l.locked) = false ∧
    t.get CCH_LOCKED_TOTAL = 0 ∧ t.mem = s.mem) ∧
  (∀ (l : CLine) (s : State), s.flag CCH_MAINT_STAT_BUSY = true → s.get CCH_MAINT_STAT_OP = 4 → s.cch.miss = none → l
    ∈ s.cch.lines → l.tag = s.get CCH_MAINT_ADDR_LINE → l.valid = true → l.locked = false → (s.cch.lines.filter fun m
    => m.tag == l.tag) = [l] → s.locksInSet l.tag < 8 → ∃ t, exec .cchMaintDone s = .next t ∧ t.flag
    CCH_MAINT_STAT_BUSY = false ∧ t.get CCH_MAINT_STAT_RESULT = 0 ∧ t.cch.lines = s.cch.lines.map (fun m => if m.tag =
    l.tag then { m with locked := true } else m) ∧ t.get CCH_LOCKED_TOTAL = (t.cch.lines.filter fun m =>
    m.locked).length % (CCH_LOCKED_TOTAL.top + 1)) ∧
  (∀ (p : Path) (r : Instr) (op : Nat) (s t : State), (r = .invLine p ∧ op = 1 ∨ r = .invRange p ∧ op = 2 ∨ r =
    .invAll p ∧ op = 3 ∨ r = .lock p ∧ op = 4 ∨ r = .unlock p ∧ op = 5 ∨ r = .unlockAll p ∧ op = 6) → exec r s = .next
    t → t = { s with regs := t.regs, cch := t.cch, wstat := t.wstat } ∧ (∀ a, outside [9, 0xC] a → t.reg a = s.reg a))

/-- While no INV_RANGE covers the line and no access is stalled: CACHE_READ of a cacheable address whose line is valid and
  not the outstanding miss counts HIT and delivers the line; of one whose line is not valid, with no miss outstanding,
  counts MISS and becomes the miss. Outside the cacheable regions, within the DRAM and with its two granules clean, it
  delivers them. CACHE_WRITE of a whole granule that misses, its line no outstanding miss, counts MISS and stores data
  and CHK; of one that hits it counts HIT, stores them, and the line holds the new bytes. CACHE_FILL_DONE with clean
  granules, nothing stalled, no invalidation covering the line and no second way of its tag delivers the line and
  allocates it. (R448, R450, R451, R452, R457, R467.) -/
def Obligations.CacheServesReadsAndWrites : Prop :=
  (∀ (addr : BitVec 34) (l : CLine) (s : State), cacheable addr.toNat = true → s.inWalk (addr.toNat / 64) = false →
    s.cch.stalled = [] → s.lineOf (addr.toNat / 64) = some l → l.valid = true → s.cch.miss ≠ some (addr.toNat / 64) →
    ∃ t, exec (.cacheRead addr) s = .next t ∧ t.cch.out = [l.data] ∧ t.cch.lines = s.cch.lines ∧ t.get CCH_HIT_COUNT =
    (s.get CCH_HIT_COUNT + 1) % (CCH_HIT_COUNT.top + 1) ∧ t.mem = s.mem ∧ (∀ a, a ≠ CCH_HIT → a ≠ CCH_HUM → t.reg a =
    s.reg a)) ∧
  (∀ (addr : BitVec 34) (s : State), cacheable addr.toNat = true → s.inWalk (addr.toNat / 64) = false → s.cch.stalled
    = [] → s.hits (addr.toNat / 64) = false → s.cch.miss = none → ∃ t, exec (.cacheRead addr) s = .next t ∧ t.cch.miss
    = some (addr.toNat / 64) ∧ t.cch.waiters = [{ addr := addr.toNat }] ∧ t.get CCH_MISS_COUNT = (s.get CCH_MISS_COUNT
    + 1) % (CCH_MISS_COUNT.top + 1) ∧ t.mem = s.mem ∧ (∀ a, a ≠ CCH_MISS → t.reg a = s.reg a)) ∧
  (∀ (addr : BitVec 34) (d : BitVec 512) (s : State), cacheable addr.toNat = false → addr.toNat < dramBytes →
    s.fetchLine (addr.toNat / 64) = (some d, s) → ∃ t, exec (.cacheRead addr) s = .next t ∧ t.cch.out = [d] ∧ t =
    { s with cch := t.cch }) ∧
  (∀ (addr : BitVec 34) (bytes : List Byte) (s : State), cacheable addr.toNat = true → s.inWalk (addr.toNat / 64) =
    false → s.cch.stalled = [] → s.hits (addr.toNat / 64) = false → s.cch.miss ≠ some (addr.toNat / 64) → addr.toNat %
    32 = 0 → bytes.length = 32 → ∃ t, exec (.cacheWrite addr bytes) s = .next t ∧ (List.range 32).map (fun i =>
    t.dramByte (addr.toNat + i)) = bytes ∧ t.granChk (addr.toNat / 32) = chkOf (addr.toNat / 32) (ofBytes bytes) ∧ (∀
    a, a / 32 ≠ addr.toNat / 32 → a ≠ chkAddr (addr.toNat / 32) → a ≠ chkAddr (addr.toNat / 32) + 1 → t.dramByte a =
    s.dramByte a) ∧ t.get CCH_MISS_COUNT = (s.get CCH_MISS_COUNT + 1) % (CCH_MISS_COUNT.top + 1) ∧ t.cch = s.cch) ∧
  (∀ (addr : BitVec 34) (bytes : List Byte) (l : CLine) (s : State), cacheable addr.toNat = true → s.inWalk
    (addr.toNat / 64) = false → s.cch.stalled = [] → s.lineOf (addr.toNat / 64) = some l → l.valid = true → s.cch.miss
    ≠ some (addr.toNat / 64) → addr.toNat % 32 = 0 → bytes.length = 32 → ∃ t, exec (.cacheWrite addr bytes) s = .next
    t ∧ (List.range 32).map (fun i => t.dramByte (addr.toNat + i)) = bytes ∧ t.granChk (addr.toNat / 32) = chkOf
    (addr.toNat / 32) (ofBytes bytes) ∧ (∀ a, a / 32 ≠ addr.toNat / 32 → a ≠ chkAddr (addr.toNat / 32) → a ≠ chkAddr
    (addr.toNat / 32) + 1 → t.dramByte a = s.dramByte a) ∧ t.get CCH_HIT_COUNT = (s.get CCH_HIT_COUNT + 1) %
    (CCH_HIT_COUNT.top + 1) ∧ (t.lineOf (addr.toNat / 64)).map (fun m => ((toBytes 64 m.data.toNat).drop (addr.toNat %
    64)).take 32) = some bytes) ∧
  (∀ (tag : Nat) (d : BitVec 512) (s : State), s.cch.miss = some tag → s.cch.stalled = [] → (s.cch.lines.all fun l =>
    l.tag != tag || (l.set == lineSet tag && l.way == s.victim tag)) = true → (s.flag CCH_MAINT_STAT_BUSY && decide
    (s.get CCH_MAINT_STAT_OP ≤ 3) && s.invReaches (s.get CCH_MAINT_STAT_OP) tag) = false → s.fetchLine tag = (some d,
    s) → ∃ t, exec .cacheFillDone s = .next t ∧ t.cch.miss = none ∧ t.cch.out = [d] ∧ t.cch.waiters = [] ∧ t.hits tag
    = true ∧ (t.lineOf tag).map (fun l => l.data) = some d ∧ t.mem = s.mem ∧ t.regs = s.regs) ∧
  (∀ (addr : BitVec 34) (bytes : List Byte) (s t : State), (exec (.cacheRead addr) s = .next t ∨ exec (.cacheWrite
    addr bytes) s = .next t ∨ exec .cacheFillDone s = .next t) → t =
    { s with regs := t.regs, cch := t.cch, mem := t.mem, flt := t.flt } ∧ (∀ a, outside [0xC, 0xE] a → t.reg a = s.reg
    a))

/-- With the DRAM ready and no bit upset: DRAM_READ of a clean granule delivers its data and changes nothing;
  DRAM_PARTIAL_WRITE of bytes within one clean granule merges them, keeps the others and stores the new CHK. SRAM_READ
  of clean cells changes nothing and of a correctable byte outside SRAM 0 counts and records it, costing the control
  engine 4 cycles in SRAM 2. Where the checker accepts the DRAM target (chkAccepts), WRITE_RAW stores the data words
  and CODE as they are, READ_RAW returns what is stored, and READ_CORR of a clean granule returns its data with KIND
  0; outside MAINTAIN each of the three is refused. (R460, R461, R462, R465, R466, R467, R469, R471, R472, R473.) -/
def Obligations.MemoriesAreReadWrittenAndChecked : Prop :=
  (∀ (addr : BitVec 34) (s : State), addr.toNat / 32 < granules → s.flag MEM_DRAM_STAT_READY = true → s.granChk
    (addr.toNat / 32) = chkOf (addr.toNat / 32) (s.granData (addr.toNat / 32)) → ∃ t, exec (.dramRead addr 0) s =
    .next t ∧ t = { s with mem := { s.mem with last := some (BitVec.ofNat 256 (s.granData (addr.toNat / 32))) } }) ∧
  (∀ (addr : BitVec 34) (bytes : List Byte) (s : State), addr.toNat / 32 < granules → s.flag MEM_DRAM_STAT_READY =
    true → s.granChk (addr.toNat / 32) = chkOf (addr.toNat / 32) (s.granData (addr.toNat / 32)) → addr.toNat % 32 +
    bytes.length ≤ 32 → bytes ≠ [] → ∃ t, exec (.dramPartialWrite addr bytes 0) s = .next t ∧ (List.range
    bytes.length).map (fun i => t.dramByte (addr.toNat + i)) = bytes ∧ t.granChk (addr.toNat / 32) = chkOf (addr.toNat
    / 32) (t.granData (addr.toNat / 32)) ∧ (∀ a, ¬ (addr.toNat ≤ a ∧ a < addr.toNat + bytes.length) → a ≠ chkAddr
    (addr.toNat / 32) → a ≠ chkAddr (addr.toNat / 32) + 1 → t.dramByte a = s.dramByte a) ∧ t.regs = s.regs) ∧
  (∀ (i : Fin 9) (offset : BitVec 24) (s : State), (s.sramUpset i offset.toNat) = 0 → ∃ t, exec (.sramRead i offset 0)
    s = .next t ∧ t = s) ∧
  (∀ (i : Fin 9) (offset : BitVec 24) (upset : BitVec 13) (s : State), upset ≠ 0 → offset.toNat < sramSize i →
    s.sramUpset i offset.toNat = 0 → (eccDecode 8 4 (upset.toNat % 256) (upset.toNat / 256)).kind = 1 → i ≠ 0 → ∃ t,
    exec (.sramRead i offset upset) s = .next t ∧ t.get (MEM_ECC_SRAM_CNT_CORR i) = min (MEM_ECC_SRAM_CNT_CORR i).top
    (s.get (MEM_ECC_SRAM_CNT_CORR i) + 1) ∧ t.get MEM_ECC_SRAM_LAST_KIND = 1 ∧ t.get MEM_ECC_SRAM_LAST_ID = i ∧ t =
    { s with regs := t.regs, mem := t.mem, ce := { s.ce with fixed := if i = 2 then s.ce.fixed + 4 else s.ce.fixed } }
    ∧ t.mem.dram = s.mem.dram ∧ t.mem.rows = s.mem.rows ∧ (∀ a, outside [0xE] a → t.reg a = s.reg a)) ∧
  (∀ (p : Path) (target : BitVec 4) (s : State), s.opens p → s.chkAccepts target.toNat = true → target = 15 → ∃ t,
    exec (.writeRaw p target) s = .next t ∧ t.wstat = stOk ∧ t.granData s.chkGranule = s.chkData ∧ t.granChk
    s.chkGranule = s.get MEM_CHK_CODE_CODE % 65536 ∧ (∀ a, a / 32 ≠ s.chkGranule → a ≠ chkAddr s.chkGranule → a ≠
    chkAddr s.chkGranule + 1 → t.dramByte a = s.dramByte a)) ∧
  (∀ (p : Path) (target : BitVec 4) (s : State), s.opens p → s.chkAccepts target.toNat = true → target = 15 → ∃ t,
    exec (.readRaw p target) s = .next t ∧ t.wstat = stOk ∧ t.chkData = s.granData s.chkGranule ∧ t.get
    MEM_CHK_CODE_CODE = s.granChk s.chkGranule ∧ t.mem = s.mem) ∧
  (∀ (p : Path) (target : BitVec 4) (s : State), s.opens p → s.chkAccepts target.toNat = true → target = 15 →
    s.granChk s.chkGranule = chkOf s.chkGranule (s.granData s.chkGranule) → ∃ t, exec (.readCorr p target) s = .next t
    ∧ t.wstat = stOk ∧ t.chkData = s.granData s.chkGranule ∧ t.get MEM_CHK_RES_KIND = 0 ∧ t.mem = s.mem ∧ t.flt =
    s.flt) ∧
  (∀ (p : Path) (target : BitVec 4) (r : Instr) (s : State), (r = .writeRaw p target ∨ r = .readRaw p target ∨ r =
    .readCorr p target) → s.opens p → s.mode ≠ modeMaintain → ∃ t, exec r s = .next t ∧ t.wstat = stRegRefused ∧ t.mem
    = s.mem ∧ (∀ a, a ≠ NET_SVC_STAT → t.reg a = s.reg a)) ∧
  (∀ (p : Path) (target : BitVec 4) (addr : BitVec 34) (bytes : List Byte) (u : BitVec 272) (s t : State), (exec
    (.writeRaw p target) s = .next t ∨ exec (.readRaw p target) s = .next t ∨ exec (.readCorr p target) s = .next t ∨
    exec (.dramRead addr u) s = .next t ∨ exec (.dramPartialWrite addr bytes u) s = .next t) → t =
    { s with regs := t.regs, mem := t.mem, cch := t.cch, wstat := t.wstat, flt := t.flt } ∧ (∀ a, outside [9, 0xC,
    0xE] a → t.reg a = s.reg a)) ∧
  (∀ (i : Fin 9) (offset : BitVec 24) (upset : BitVec 13) (s t : State), exec (.sramRead i offset upset) s = .next t →
    t =
    { s with regs := t.regs, mem := { s.mem with sram := t.mem.sram }, cch := t.cch, flt := t.flt, ce := { s.ce with fixed := t.ce.fixed }, owl := { s.owl with ring := t.owl.ring }, chn := { s.chn with frames := t.chn.frames }, net := { s.net with ramBad := t.net.ramBad } }
    ∧ (i ≠ 2 → t.ce = s.ce) ∧ (i ≠ 7 → t.chn = s.chn) ∧ (i ≠ 8 → t.net = s.net) ∧ (i ≠ 5 → t.owl = s.owl) ∧ (∀ a,
    outside [9, 0xC, 0xE] a → t.reg a = s.reg a))

/-- With nothing queued or running: a host FLASH_READ, FLASH_CHECK or FLASH_BLANK_CHECK within one bank is accepted and
  runs; so does one of a device core; FLASH_PROGRAM of aligned data within one blank sector, and FLASH_ERASE of a
  sector, run where execute-in-place of the bank is off. FLASH_OP_DONE of a verified program stores its data and
  leaves every other byte; of a verified erase it leaves the sector blank; of a blank check it gives the host its
  completion. FL_CMPL_READ delivers the oldest completion and removes it, or 0 when there is none. (R476, R477, R478,
  R479, R482, R484.) -/
def Obligations.FlashDescriptorsRunAndComplete : Prop :=
  (∀ (p : Path) (b : Option Path) (r : Instr) (op : Nat) (tag : BitVec 8) (addr : BitVec 24) (len : BitVec 25) (s :
    State), (r = .flashRead b tag addr len ∧ op = flRead ∧ len.toNat ≤ 256 ∨ r = .flashCheck b tag addr len ∧ op =
    flCheck ∨ r = .flashBlankCheck b tag addr len ∧ op = flBlank) → b = some p → s.opens p → s.flHost < 4 →
    ({ host := true, tag := tag.toNat, op := op, addr := addr.toNat, len := len.toNat } : FlDesc).rangeOk = true →
    s.flash.queue = [] → s.flash.run = none → s.flash.susp = none → s.flash.rd = none → ∃ t, exec r s = .next t ∧
    t.wstat = stOk ∧ t.flash.rd = some
    { host := true, tag := tag.toNat, op := op, addr := addr.toNat, len := len.toNat } ∧ t.flash.queue = [] ∧
    t.flash.cells = s.flash.cells) ∧
  (∀ (b : Option Path) (r : Instr) (op : Nat) (tag : BitVec 8) (addr : BitVec 24) (len : BitVec 25) (s : State), (r =
    .flashRead b tag addr len ∧ op = flRead ∧ len.toNat ≤ 256 ∨ r = .flashCheck b tag addr len ∧ op = flCheck ∨ r =
    .flashBlankCheck b tag addr len ∧ op = flBlank) → b = none →
    ({ host := false, tag := tag.toNat, op := op, addr := addr.toNat, len := len.toNat } : FlDesc).rangeOk = true →
    s.flash.queue = [] → s.flash.run = none → s.flash.susp = none → s.flash.rd = none → ∃ t, exec r s = .next t ∧
    t.flash.rd = some { host := false, tag := tag.toNat, op := op, addr := addr.toNat, len := len.toNat } ∧
    t.flash.cells = s.flash.cells) ∧
  (∀ (urgent : Bool) (addr : BitVec 24) (data : List Byte) (s : State),
    ({ host := false, urgent := urgent, op := flProgram, addr := addr.toNat, len := data.length, data := data } :
    FlDesc).rangeOk = true → s.flag (if bankOf addr.toNat = 0 then FL_XIP_EN_BANK0 else FL_XIP_EN_BANK1) = false →
    s.rangeBlank addr.toNat data.length = true → s.jrnlOpen (sectorOf addr.toNat) = false → s.flash.queue = [] →
    s.flash.run = none → s.flash.susp = none → s.flash.rd = none → ∃ t, exec (.flashProgram urgent addr data) s =
    .next t ∧ t.flash.run = some
    { host := false, urgent := urgent, op := flProgram, addr := addr.toNat, len := data.length, data := data } ∧
    t.flash.cells = s.flash.cells ∧ t.flag FL_STAT_MOD_BUSY = true) ∧
  (∀ (addr : BitVec 24) (s : State), sectorBase (sectorOf addr.toNat) = addr.toNat → s.flag (if bankOf addr.toNat = 0
    then FL_XIP_EN_BANK0 else FL_XIP_EN_BANK1) = false → s.flash.queue = [] → s.flash.run = none → s.flash.susp = none
    → s.flash.rd = none → ∃ t, exec (.flashErase addr) s = .next t ∧ t.flash.run = some
    { host := false, op := flErase, addr := addr.toNat } ∧ t.flash.cells = s.flash.cells ∧ t.get FL_STAT_SUSP_CNT = 0) ∧
  (∀ (d : FlDesc) (s : State), s.flash.queue = [] → s.flash.susp = none → s.flash.rd = none → s.flash.run = some d →
    d.op = flProgram → d.owl = false → d.refresh = false → d.host = false → s.flash.factory = [] → (∀ i <
    d.data.length, 10 ≤ sectorOf (d.addr + i)) → ∃ t, exec (.flashOpDone false true []) s = .next t ∧ (List.range
    d.data.length).map (fun i => t.flashByte (d.addr + i)) = d.data ∧ (∀ a, ¬ (d.addr ≤ a ∧ a < d.addr +
    d.data.length) → t.flashByte a = s.flashByte a) ∧ t.flash.run = none ∧ t.flash.coreDone = some (flProgram, 0)) ∧
  (∀ (d : FlDesc) (s : State), s.flash.queue = [] → s.flash.susp = none → s.flash.rd = none → s.flash.run = some d →
    d.op = flErase → d.owl = false → d.refresh = false → d.host = false → 10 ≤ sectorOf d.addr → ∃ t, exec
    (.flashOpDone false true []) s = .next t ∧ t.sectorBlank (sectorOf d.addr) = true ∧ t.flash.run = none ∧
    t.flash.coreDone = some (flErase, 0) ∧ (∀ a, ¬ (sectorBase (sectorOf d.addr) ≤ a ∧ a < sectorBase (sectorOf
    d.addr) + sectorSize (sectorOf d.addr)) → t.flash.cells.find? (fun e => e.1 == a) = s.flash.cells.find? (fun e =>
    e.1 == a))) ∧
  (∀ (d : FlDesc) (s : State), s.flash.queue = [] → s.flash.susp = none → s.flash.run = none → s.flash.rd = some d →
    d.op = flBlank → d.host = true → s.flash.cmpl = [] → ∃ t, exec (.flashOpDone true true []) s = .next t ∧
    t.flash.rd = none ∧ t.flash.cmpl = [(d.tag, flBlank, if s.rangeBlank d.addr d.len then 0 else 3)] ∧ t.get
    FL_Q_STAT_CMPL_AVAIL = 1) ∧
  (∀ (p : Path) (k : Nat × Nat × Nat) (s : State), s.silent p = false → s.readRefusal p false = none → s.flash.cmpl =
    [k] → ∃ t, exec (.flCmplRead p) s = .next t ∧ t.wstat = stOk ∧ t.rdata = [BitVec.ofNat 32 (0x80000000 + 0x10000 *
    (k.1 % 256) + 0x1000 * (k.2.1 % 16) + k.2.2 % 16)] ∧ t.flash.cmpl = [] ∧ t.get FL_Q_STAT_CMPL_AVAIL = 0) ∧
  (∀ (p : Path) (s : State), s.silent p = false → s.readRefusal p false = none → s.flash.cmpl = [] → ∃ t, exec
    (.flCmplRead p) s = .next t ∧ t.wstat = stOk ∧ t.rdata = [0] ∧ t.flash = s.flash ∧ (∀ a, a ≠ NET_SVC_STAT → t.reg
    a = s.reg a)) ∧
  (∀ (p : Path) (b : Option Path) (urgent : Bool) (data : List Byte) (tag : BitVec 8) (addr : BitVec 24) (len : BitVec
    25) (s t : State), (exec (.flashRead b tag addr len) s = .next t ∨ exec (.flashCheck b tag addr len) s = .next t ∨
    exec (.flashBlankCheck b tag addr len) s = .next t ∨ exec (.flCmplRead p) s = .next t ∨ exec (.flashProgram urgent
    addr data) s = .next t ∨ exec (.flashErase addr) s = .next t) → t =
    { s with regs := t.regs, flash := t.flash, wstat := t.wstat, rdata := t.rdata, owl := t.owl, flt := t.flt } ∧ (∀
    a, outside [9, 0xD] a → t.reg a = s.reg a))

/-- FL_REFRESH_START in MAINTAIN with no pass running or halted and the flash idle sets STATE to running, turns
  execute-in-place of both banks off and starts an erase; outside MAINTAIN it is refused. FL_REFRESH_STOP while a pass
  runs asks it to halt after its sector. FLASH_REFRESH_DUE 315,576,000 s past the last pass with PTP time valid sets
  DUE and raises its fault. (R489, R490, R491.) -/
def Obligations.FlashRefreshStartsStopsAndFallsDue : Prop :=
  (∀ (p : Path) (s : State), s.opens p → s.mode = modeMaintain → s.get FL_REFRESH_STAT_STATE ≠ 1 → s.get
    FL_REFRESH_STAT_STATE ≠ 3 → s.flash.queue = [] → s.flash.run = none → s.flash.susp = none → s.flash.rd = none → ∃
    t, exec (.flRefreshStart p) s = .next t ∧ t.wstat = stOk ∧ t.get FL_REFRESH_STAT_STATE = 1 ∧ t.flag
    FL_XIP_EN_BANK0 = false ∧ t.flag FL_XIP_EN_BANK1 = false ∧ (t.flash.run.map fun d => (d.op, d.refresh)) = some
    (flErase, true)) ∧
  (∀ (p : Path) (s : State), s.opens p → s.mode ≠ modeMaintain → ∃ t, exec (.flRefreshStart p) s = .next t ∧ t.wstat =
    stRegRefused ∧ t.flash = s.flash ∧ (∀ a, a ≠ NET_SVC_STAT → t.reg a = s.reg a)) ∧
  (∀ (p : Path) (s : State), s.opens p → s.get FL_REFRESH_STAT_STATE = 1 → ∃ t, exec (.flRefreshStop p) s = .next t ∧
    t.wstat = stOk ∧ t.flash = { s.flash with stopRefresh := true } ∧ (∀ a, a ≠ NET_SVC_STAT → t.reg a = s.reg a)) ∧
  (∀ (s : State), s.flag TICK_STAT_PTP_VALID = true → s.lastRefresh + 315576000 ≤ s.ce.ptpSec → s.flag
    FL_REFRESH_STAT_DUE = false → ∃ t, exec .flashRefreshDue s = .next t ∧ t.flag FL_REFRESH_STAT_DUE = true ∧ t.flash
    = s.flash ∧ (t.reg (keySrc 0x0AA 0)).toNat = min 0xFFFFFFFF ((s.reg (keySrc 0x0AA 0)).toNat + 1) ∧ (∀ a, a ≠
    FL_REFRESH_STAT → ¬ faultWord a → t.reg a = s.reg a)) ∧
  (∀ (p : Path) (s t : State), (exec (.flRefreshStart p) s = .next t ∨ exec (.flRefreshStop p) s = .next t ∨ exec
    .flashRefreshDue s = .next t) → t =
    { s with regs := t.regs, flash := t.flash, wstat := t.wstat, owl := t.owl, flt := t.flt } ∧ (∀ a, outside [9, 0xD]
    a → t.reg a = s.reg a))

/-- CAL_START in MAINTAIN with no campaign running and a MASK whose first procedure needs no spinning station starts the
  campaign and counts it; in another mode it is refused. CAL_PROCEDURE_DONE of the last procedure, a device procedure
  whose values keep their limits, writes them, sets its CAL_VALID bit and ends the campaign with OUTCOME 0. CAL_ABORT
  ends one with OUTCOME 2. CAL_RES_READ makes a READY result CONSUMED, CAL_ACK discards it. AUTO_CAMPAIGN_START runs
  procedures 3 to 9 on the job's station. (R535, R536, R537, R539, R540, R542, R543, R547.) -/
def Obligations.CampaignsRunTheirProcedures : Prop :=
  (∀ (p : Path) (mask : BitVec 10) (a : Bool) (stn : Fin 2) (s : State), s.opens p → s.mode = modeMaintain →
    s.cal.camp = none → mask.toNat % 16 ≠ 0 → mask.toNat < 8 ∨ s.clamped stn = true → ∃ t, exec (.calStart p mask a
    stn) s = .next t ∧ t.wstat = stOk ∧ t.cal.camp = some
    { stn := stn.val, mask := mask.toNat, left := (List.range 10).filter fun k => mask.toNat.testBit k } ∧ t.get
    CAL_STAT_STATE = 1 ∧ t.get CAL_STAT_STN = stn ∧ t.flag CAL_CTL_AUTO_EN = a ∧ t.get CAL_CNT_CAMPAIGNS = (s.get
    CAL_CNT_CAMPAIGNS + 1) % (CAL_CNT_CAMPAIGNS.top + 1) ∧ t.reg CAL_RES = 0) ∧
  (∀ (p : Path) (mask : BitVec 10) (a : Bool) (stn : Fin 2) (s : State), s.opens p → s.mode ≠ modeMaintain → ∃ t, exec
    (.calStart p mask a stn) s = .next t ∧ t.wstat = stRegRefused ∧ t.cal = s.cal ∧ (∀ a, a ≠ NET_SVC_STAT → t.reg a =
    s.reg a)) ∧
  (∀ (proc : Fin 10) (stn : Fin 2) (words : List Word) (k : CalCamp) (s : State), s.cal.camp = some k → k.left =
    [proc.val] → proc.val < 3 → k.passed = [] → k.spun = false → words.length = (procRegs proc stn).length →
    (s.putResults proc stn words).procOk proc stn = true → (s.arbOf k.stn).job = none → ∃ t, exec (.calProcedureDone
    proc stn words []) s = .next t ∧ (procRegs proc stn).map t.reg = words ∧ (t.get CAL_VALID_DEV).testBit proc = true
    ∧ t.cal.camp = none ∧ t.get CAL_RES_RES = 1 ∧ t.get CAL_RES_OUTCOME = 0 ∧ t.get CAL_RES_PASSED = 2 ^ proc.val) ∧
  (∀ (p : Path) (k : CalCamp) (s : State), s.opens p → s.cal.camp = some k → k.spun = false → k.passed = [] → k.stn <
    2 → (s.arbOf k.stn).job = none → ∃ t, exec (.calAbort p) s = .next t ∧ t.wstat = stOk ∧ t.cal.camp = none ∧ t.get
    CAL_RES_RES = 1 ∧ t.get CAL_RES_OUTCOME = 2 ∧ t.get CAL_RES_STN = k.stn ∧ t.get CAL_RES_PASSED = 0 ∧ t.get
    CAL_STAT_STATE = 0) ∧
  (∀ (p : Path) (s : State), s.opens p → ∃ t, exec (.calAck p) s = .next t ∧ t.wstat = stOk ∧ t.reg CAL_RES = 0 ∧
    t.cal = s.cal ∧ (∀ a, a ≠ CAL_RES → a ≠ NET_SVC_STAT → t.reg a = s.reg a)) ∧
  (∀ (p : Path) (s : State), s.silent p = false → s.readRefusal p false = none → s.get CAL_RES_RES = 1 → ∃ t, exec
    (.calResRead p) s = .next t ∧ t.wstat = stOk ∧ t.rdata = [s.reg CAL_RES] ∧ t.get CAL_RES_RES = 2 ∧ (∀ a, a ≠
    CAL_RES → a ≠ NET_SVC_STAT → t.reg a = s.reg a)) ∧
  (∀ (st : Fin 2) (j : Job) (s : State), (s.arbOf st).job = some j → j.kind = .cal → (s.view st).holds j = true →
    s.clamped st = true → s.cal.camp = none → s.flag (calPendFld st) = true → ∃ t, exec (.autoCampaignStart st) s =
    .next t ∧ t.cal.camp = some { stn := st.val, mask := 0x3F8, auto := true, left := [3, 4, 5, 6, 7, 8, 9] } ∧ t.flag
    CAL_STAT_AUTO = true ∧ t.get CAL_STAT_PROC = 3 ∧ t.arb = s.arb)

/-- FAULT_MESSAGE of a listed kind raises COUNT of its source by one up to its maximum and takes the empty slot; a kind
  not listed changes nothing. FALLBACK_MESSAGE in fall-back latches KIND and ARG of the source, and outside it changes
  nothing. FLT_INJECT in PROVISION or MAINTAIN sends the staged message marked injected, elsewhere it is refused.
  FLT_SEV_WRITE of a severity that the pair may take sets it for the messages of the ticks to come; a fixed one is
  refused. (R551, R552, R553, R555, R556, R562, R564.) -/
def Obligations.FaultMessagesAreTakenAndInjected : Prop :=
  (∀ (src : BitVec 10) (kind : BitVec 6) (arg : BitVec 16) (s : State), (pairDefault src.toNat kind.toNat).isSome =
    true → kind ≠ 0x3F → (s.flt.slots.find? fun o => o.src == src.toNat) = none → s.flag FLT_STAT_FALLBACK = false → ∃
    t, exec (.faultMessage src kind arg) s = .next t ∧ (t.reg (keySrc src.toNat 0)).toNat = min 0xFFFFFFFF ((s.reg
    (keySrc src.toNat 0)).toNat + 1) ∧ t.flt =
    { s.flt with slots := s.flt.slots ++ [{ src := src.toNat, kind := kind.toNat, arg := arg.toNat }] } ∧ (∀ a, a ≠
    keySrc src.toNat 0 → t.reg a = s.reg a)) ∧
  (∀ (src : BitVec 10) (kind : BitVec 6) (arg : BitVec 16) (s : State), pairDefault src.toNat kind.toNat = none → ∃ t,
    exec (.faultMessage src kind arg) s = .next t ∧ t = s) ∧
  (∀ (src : BitVec 10) (kind : BitVec 6) (arg : BitVec 16) (s : State), (pairDefault src.toNat kind.toNat).isSome =
    true → kind ≠ 0x3F → s.flag FLT_STAT_FALLBACK = true → ∃ t, exec (.fallbackMessage src kind arg) s = .next t ∧
    t.get (FLT_FB_PEND src.toNat) = 1 ∧ t.get (FLT_FB_KIND src.toNat) = kind.toNat ∧ t.get (FLT_FB_ARG src.toNat) =
    arg.toNat ∧ (t.reg (keySrc src.toNat 0)).toNat = min 0xFFFFFFFF ((s.reg (keySrc src.toNat 0)).toNat + 1)) ∧
  (∀ (src : BitVec 10) (kind : BitVec 6) (arg : BitVec 16) (s : State), s.flag FLT_STAT_FALLBACK = false → ∃ t, exec
    (.fallbackMessage src kind arg) s = .next t ∧ t = s) ∧
  (∀ (p : Path) (src : BitVec 10) (kind : BitVec 6) (arg : BitVec 16) (s : State), s.opens p → s.mode = modeProvision
    ∨ s.mode = modeMaintain → s.reg FLT_INJ = src ++ kind ++ arg → (pairDefault src.toNat kind.toNat).isSome = true →
    kind ≠ 0 → kind ≠ 0x3F → (s.flt.slots.find? fun o => o.src == src.toNat) = none → ∃ t, exec (.fltInject p) s =
    .next t ∧ t.wstat = stOk ∧ t.flt.slots = s.flt.slots ++
    [{ src := src.toNat, kind := kind.toNat, arg := arg.toNat, injected := true }] ∧ (t.reg (keySrc src.toNat
    0)).toNat = min 0xFFFFFFFF ((s.reg (keySrc src.toNat 0)).toNat + 1)) ∧
  (∀ (p : Path) (s : State), s.opens p → s.mode ≠ modeProvision → s.mode ≠ modeMaintain → ∃ t, exec (.fltInject p) s =
    .next t ∧ t.wstat = stRegRefused ∧ t.flt = s.flt ∧ (∀ a, a ≠ NET_SVC_STAT → t.reg a = s.reg a)) ∧
  (∀ (p : Path) (v : Word) (d : Nat) (s : State), s.opens p → pairDefault (s.get FLT_SEV_IDX_SRC) (s.get
    FLT_SEV_IDX_KIND) = some (d, false) → bitsOf v.toNat 2 0 ≤ 4 → bitsOf v.toNat 2 0 ≠ sevSession → ∃ t, exec
    (.fltSevWrite p v) s = .next t ∧ t.wstat = stOk ∧ t.sevOf (s.get FLT_SEV_IDX_SRC) (s.get FLT_SEV_IDX_KIND) =
    bitsOf v.toNat 2 0 ∧ t.flt.sevNow = s.flt.sevNow ∧ t.flt.slots = s.flt.slots) ∧
  (∀ (p : Path) (v : Word) (d : Nat) (s : State), s.opens p → pairDefault (s.get FLT_SEV_IDX_SRC) (s.get
    FLT_SEV_IDX_KIND) = some (d, true) → ∃ t, exec (.fltSevWrite p v) s = .next t ∧ t.wstat = stRegRefused ∧ t.flt =
    s.flt) ∧
  (∀ (p : Path) (src : BitVec 10) (kind : BitVec 6) (arg : BitVec 16) (v : Word) (s t : State), (exec (.faultMessage
    src kind arg) s = .next t ∨ exec (.fallbackMessage src kind arg) s = .next t ∨ exec (.fltInject p) s = .next t ∨
    exec (.fltSevWrite p v) s = .next t) → t = { s with regs := t.regs, flt := t.flt, wstat := t.wstat } ∧ (∀ a,
    outside [9] a → t.reg a = s.reg a))

/-- STN_HOLD_EXPIRY after STN_HOLD seconds and no more than STN_RETRY reactions, and FLT_STN_REL of a station that is not
  UNUSABLE, end the hold. OWL_FREEZE with its last event captured freezes the ring, OWL_RELEASE thaws it; OWL_MARK of
  a ring that is not frozen appends a MARKER event; OWL_FLUSH_ACK of a flush discards its result. TRNG_FAIL is raised.
  (R560, R561, R573, R574, R577, R610.) -/
def Obligations.HeldStationsReturnAndTheOwlAnswers : Prop :=
  (∀ (st : Fin 2) (k : Nat) (s : State), (s.flt.reacts[st.val]?).getD [] = [k] → s.flag (FLT_STN_HELD st) = true →
    s.flag (FLT_STN_LOCKED st) = false → k + s.get FLT_CFG_STN_HOLD * 500000 ≤ s.tick → s.tick < k + 1800000000 → 1 ≤
    s.get FLT_CFG_STN_RETRY → s.spnState st ≠ spUnusable → s.grantState st = stnOut → ∃ t, exec (.stnHoldExpiry st) s
    = .next t ∧ t.flag (FLT_STN_HELD st) = false ∧ t.flag (FLT_STN_LOCKED st) = false ∧ t.get (FLT_STN_REMAIN st) = 0) ∧
  (∀ (p : Path) (st : Fin 2) (s : State), s.opens p → s.spnState st ≠ spUnusable → s.flag (FLT_STN_HELD st) = true →
    s.grantState st = stnOut → ∃ t, exec (.fltStnRel p st) s = .next t ∧ t.wstat = stOk ∧ t.flag (FLT_STN_HELD st) =
    false ∧ t.flag (FLT_STN_LOCKED st) = false) ∧
  (∀ (p : Path) (st : Fin 2) (s : State), s.opens p → s.spnState st = spUnusable → ∃ t, exec (.fltStnRel p st) s =
    .next t ∧ t.wstat = stRegRefused ∧ (∀ a, a ≠ NET_SVC_STAT → t.reg a = s.reg a) ∧ t.arb = s.arb) ∧
  (∀ (s : State), s.owl.post = some 0 → ∃ t, exec .owlFreeze s = .next t ∧ t.flag OWL_STAT_FROZEN = true ∧ t.owl.ring
    = s.owl.ring ∧ (∀ a, a ≠ OWL_STAT → t.reg a = s.reg a)) ∧
  (∀ (p : Path) (s : State), s.opens p → ∃ t, exec (.owlRelease p) s = .next t ∧ t.wstat = stOk ∧ t.flag
    OWL_STAT_FROZEN = false ∧ t.owl = s.owl ∧ (∀ a, a ≠ OWL_STAT → a ≠ NET_SVC_STAT → t.reg a = s.reg a)) ∧
  (∀ (p : Path) (v : Word) (s : State), s.opens p → s.flag OWL_STAT_FROZEN = false → s.owl.ring = [] → ∃ t, exec
    (.owlMark p v) s = .next t ∧ t.wstat = stOk ∧ (t.owl.ring.map fun e => (e.tick, e.kind.toNat, e.data)) = [(s.tick,
    evMarker, v)] ∧ t.get OWL_STAT_SEQ = (s.get OWL_STAT_SEQ + 1) % (OWL_STAT_SEQ.top + 1)) ∧
  (∀ (p : Path) (s : State), s.opens p → s.get OWL_FLUSH_RES ≠ 0 → ∃ t, exec (.owlFlushAck p) s = .next t ∧ t.wstat =
    stOk ∧ t.reg OWL_FLUSH = 0 ∧ t.owl = s.owl) ∧
  (∀ (test : BitVec 16) (s : State), ∃ t, exec (.trngFail test) s = .next t ∧ (t.reg (keySrc 0x0E0 0)).toNat = min
    0xFFFFFFFF ((s.reg (keySrc 0x0E0 0)).toNat + 1) ∧ t = { s with regs := t.regs, flt := t.flt } ∧ (∀ a, ¬ faultWord
    a → t.reg a = s.reg a)) ∧
  (∀ (p : Path) (v : Word) (s t : State), (exec .owlFreeze s = .next t ∨ exec (.owlRelease p) s = .next t ∨ exec
    (.owlMark p v) s = .next t) → t = { s with regs := t.regs, owl := t.owl, wstat := t.wstat } ∧ (∀ a, outside [9,
    0x11] a → t.reg a = s.reg a))

/-- With Hedgehog on: HEDGEHOG_CYCLE_START when none has started begins a cycle over all units; RUN_NOW begins one at
  FAST_GAP, or quickens the one that runs. A slice that is due and is not the cycle's last, with re-admission off: a
  unit that passes shows STATE 0 and LATE 0; one that fails for the first time counts FAILS, shows STATE 1 and is
  tested again next. BIST_SCAN_START is accepted in MAINTAIN of a BLANK or RETURNED part and refused of an ISSUED one.
  (R567, R568, R570, R572.) -/
def Obligations.HedgehogCyclesAndSlices : Prop :=
  (∀ (s : State), s.hedgehogOn = true → s.bist.running = false → s.bist.start = none → ∃ t, exec .hedgehogCycleStart s
    = .next t ∧ t.bist.running = true ∧ t.bist.fast = false ∧ t.bist.rest = List.range 117 ∧ t.bist.start = some
    s.tick ∧ t.get BIST_STAT_PROGRESS = 0 ∧ t.get BIST_STAT_STATE = 2 ∧ (∀ a, a ≠ BIST_STAT → t.reg a = s.reg a)) ∧
  (∀ (p : Path) (s : State), s.opens p → s.hedgehogOn = true → s.bist.running = false → ∃ t, exec (.runNow p) s =
    .next t ∧ t.wstat = stOk ∧ t.bist.running = true ∧ t.bist.fast = true ∧ t.bist.rest = List.range 117 ∧ t.get
    BIST_STAT_STATE = 2) ∧
  (∀ (p : Path) (s : State), s.opens p → s.hedgehogOn = true → s.bist.running = true → ∃ t, exec (.runNow p) s = .next
    t ∧ t.wstat = stOk ∧ t.bist = { s.bist with fast := true } ∧ (∀ a, a ≠ NET_SVC_STAT → t.reg a = s.reg a)) ∧
  (∀ (u v : Nat) (l sk : List Nat) (s : State), s.sliceDue = true → s.nextUnit = (some u, v :: l, sk) → u < 115 →
    s.flag BIST_CTL_READMIT_EN = false → ∃ t, exec (.hedgehogSlice true []) s = .next t ∧ t.get (bistState u) = 0 ∧
    t.get (bistLate u) = 0 ∧ t.get BIST_STAT_UNIT = u ∧ t.bist.rest = v :: l ∧ t.bist.running = true) ∧
  (∀ (u v : Nat) (l sk : List Nat) (s : State), s.sliceDue = true → s.nextUnit = (some u, v :: l, sk) → u < 115 →
    s.get (bistState u) ≠ buOnce → s.get (bistState u) ≠ buUnusable → ∃ t, exec (.hedgehogSlice false []) s = .next t
    ∧ t.get (bistState u) = 1 ∧ t.get (bistFails u) = min (bistFails u).top (s.get (bistFails u) + 1) ∧ t.bist.retest
    = some u ∧ t.bist.rest = v :: l) ∧
  (∀ (p : Path) (s : State), s.opens p → s.mode = modeMaintain → s.get SEC_LC_STATE = 1 ∨ s.get SEC_LC_STATE = 4 → ∃
    t, exec (.bistScanStart p) s = .next t ∧ t.wstat = stOk ∧ t.bist.scanning = true ∧ t.reg BIST_SCAN_STAT = 0 ∧ (∀
    a, a ≠ BIST_SCAN_STAT → a ≠ NET_SVC_STAT → t.reg a = s.reg a)) ∧
  (∀ (p : Path) (s : State), s.opens p → s.get SEC_LC_STATE = 2 → ∃ t, exec (.bistScanStart p) s = .next t ∧ t.wstat =
    stRegRefused ∧ t.bist = s.bist ∧ (∀ a, a ≠ NET_SVC_STAT → t.reg a = s.reg a))

/-- GET_CHALLENGE makes a challenge valid and shows it in SEC_CHAL. In PROVISION or MAINTAIN: TO_FIELD of an ISSUED part
  with FELD makes it FIELD and closes debug; ISSUE of a BLANK part with its token makes it ISSUED; RETURN of an ISSUED
  or FIELD part makes it RETURNED, discards every key and what the DRAM holds, and resets; DEBUG_OPEN opens debug and
  discards every key; REVOKE_SLOT revokes the slot named. A TO_FIELD whose fuse fails its read-back leaves the state
  and is counted. ISSUE, DEBUG_OPEN and REVOKE_SLOT end the challenge; RETURN resets the device. (R580, R581, R582,
  R583, R584, R585, R586, R599.) -/
def Obligations.LifeCycleAdvancesByItsOrders : Prop :=
  (∀ (s : State), s.silent .service = false → s.jackOnly = false → ∃ t, exec .getChallenge s = .next t ∧
    t.sec.challenge.isSome = true ∧ (List.range 8).map (fun k => t.reg (SEC_CHAL k)) = (List.range 8).map (fun k =>
    Config.freeWord (s.free + k)) ∧ t.free = s.free + 8 ∧ (t.lastEntry.map fun k => (k.path, k.status)) = some
    (.service, 0)) ∧
  (∀ (s : State), s.silent .service = false → s.jackOnly = false → s.mode = modeProvision ∨ s.mode = modeMaintain →
    s.lc = lcIssued → ∃ t, exec (.toField 0x444C4546 true) s = .next t ∧ t.lc = lcField ∧ t.get SEC_LC_DEBUG = 0 ∧
    (t.lastEntry.map fun k => (k.path, k.status)) = some (.service, 0) ∧ (t.reg (keySrc 0x0E0 0)).toNat = min
    0xFFFFFFFF ((s.reg (keySrc 0x0E0 0)).toNat + 1)) ∧
  (∀ (s : State), s.silent .service = false → s.jackOnly = false → s.mode = modeProvision ∨ s.mode = modeMaintain →
    s.lc = lcIssued → ∃ t, exec (.toField 0x444C4546 false) s = .next t ∧ t.lc = lcIssued ∧ t.sec = s.sec ∧ (t.reg
    (keySrc 0x0E0 0)).toNat = min 0xFFFFFFFF ((s.reg (keySrc 0x0E0 0)).toNat + 1)) ∧
  (∀ (b : Bundle) (s : State), s.silent .service = false → s.jackOnly = false → s.mode = modeProvision ∨ s.mode =
    modeMaintain → s.token = some b → b.op = 1 → s.tokenOk b = true → ∃ t, exec (.issue true) s = .next t ∧ t.lc =
    lcIssued ∧ t.sec.ident = (List.range 24).map (fun k => Config.freeWord (s.free + k)) ∧ t.sec.challenge = none ∧
    (t.lastEntry.map fun k => (k.path, k.status)) = some (.service, 0)) ∧
  (∀ (b : Bundle) (s : State), s.silent .service = false → s.jackOnly = false → s.mode = modeProvision ∨ s.mode =
    modeMaintain → s.token = some b → b.op = 2 → s.tokenOk b = true → s.sys.boot ≠ .held → ∃ t, exec (.returnPart
    true) s = .next t ∧ t.lc = lcReturned ∧ t.sec.keys = [] ∧ t.sec.domain = none ∧ t.mem.dram = [] ∧ t.owl.ring = []
    ∧ t.sys.boot = .held ∧ t.reg SYS_RST_CAUSE = s.reg SYS_RST_CAUSE ||| 0x4) ∧
  (∀ (b : Bundle) (s : State), s.silent .service = false → s.jackOnly = false → s.mode = modeProvision ∨ s.mode =
    modeMaintain → s.token = some b → b.op = 3 → s.tokenOk b = true → ∃ t, exec .debugOpen s = .next t ∧ t.get
    SEC_LC_DEBUG = 1 ∧ t.sec.keys = [] ∧ t.sec.domain = none ∧ t.lc = s.lc ∧ t.sec.challenge = none ∧ (t.lastEntry.map
    fun k => (k.path, k.status)) = some (.service, 0)) ∧
  (∀ (b : Bundle) (s : State), s.silent .service = false → s.jackOnly = false → s.mode = modeProvision ∨ s.mode =
    modeMaintain → s.token = some b → b.op = 4 → s.tokenOk b = true → b.arg < 4 → ∃ t, exec (.revokeSlot true) s =
    .next t ∧ t.get SEC_LC_REVOKED = s.get SEC_LC_REVOKED ||| 2 ^ b.arg ∧ t.lc = s.lc ∧ t.sec.challenge = none ∧
    (t.lastEntry.map fun k => (k.path, k.status)) = some (.service, 0))

/-- UPD_CHUNK of a new bundle of several chunks makes it RECEIVING with that chunk; BUNDLE_VERDICT of a bundle that is not
  well formed makes it REJECTED with reason 1 and raises it, and otherwise REJECTED with its first failing check or
  STAGED as parsed; ACTIVATION_WRITE_START when the overwrite is due makes the state WRITING; COMPONENT_WRITTEN of a
  component other than Jack records it, stores its bytes and goes on with the next. (R598, R599, R600, R601, R605,
  R606.) -/
def Obligations.UpdatesAreStagedVerifiedAndWritten : Prop :=
  (∀ (bundle index count : Word) (len : BitVec 16) (data : List Byte) (s : State), s.silent .service = false → s.get
    UPD_STAT_STATE = 0 → s.mode ≠ modeSafeStop → chunkOk index.toNat count.toNat len.toNat data = true → 1 <
    count.toNat → s.flag SYS_STAT_ACT_PENDING = false → ∃ t, exec (.updChunk bundle index count len data) s = .next t
    ∧ t.get UPD_STAT_STATE = 1 ∧ t.sec.chunks = [(index.toNat, data)] ∧ t.get UPD_BUNDLE_ID = bundle.toNat ∧ t.get
    UPD_COUNT_COUNT = count.toNat ∧ t.get UPD_STAT_CHUNKS = 1 ∧ (t.lastEntry.map fun k => (k.path, k.status)) = some
    (.service, 0)) ∧
  (∀ (s : State), s.get UPD_STAT_STATE = 2 → formatOk s.bundleBytes = false → ∃ t, exec .bundleVerdict s = .next t ∧
    t.get UPD_STAT_STATE = 4 ∧ t.get UPD_STAT_REASON = 1 ∧ t.sec = s.sec ∧ (t.reg (keySrc 0x0E1 0)).toNat = min
    0xFFFFFFFF ((s.reg (keySrc 0x0E1 0)).toNat + 1)) ∧
  (∀ (s : State), s.get UPD_STAT_STATE = 2 → s.mode ≠ modeBoot → ∃ t, exec .bundleVerdict s = .next t ∧ (∀ r,
    s.bundleReason s.bundleBytes = some r → t.get UPD_STAT_STATE = 4 ∧ t.get UPD_STAT_REASON = r ∧ t.sec = s.sec) ∧
    (s.bundleReason s.bundleBytes = none → t.get UPD_STAT_STATE = 3 ∧ t.sec =
    { s.sec with bundle := some (parseBundle s.bundleBytes) })) ∧
  (∀ (b : Bundle) (s : State), s.writeDue = true → s.sec.bundle = some b → s.cmd.sessions = [] → s.cmd.cmds = [] →
    b.comps = [] → ∃ t, exec .activationWriteStart s = .next t ∧ t.get UPD_STAT_STATE = 5 ∧ t.sec.writing = [] ∧
    t.isUp 0 = false ∧ t.isUp 1 = false ∧ t.sys.wdogArmed = false) ∧
  (∀ (w v : BundleComp) (s : State), s.get UPD_STAT_STATE = 5 → s.sec.writing = [w, v] → w.info.type = 2 ∨ w.info.type
    = 3 ∨ w.info.type = 4 → v.info.type = 1 ∨ v.info.type = 3 ∨ v.info.type = 4 → v.info.type ≠ w.info.type → ∃ t,
    exec .componentWritten s = .next t ∧ t.sec.writing = [v] ∧ w.info ∈ t.sec.comps ∧ t.get UPD_STAT_STATE = 5 ∧ t.get
    UPD_PROG_COMP = v.info.type)

/-- The write, as the row SYS_RST on a path that takes it and as REG_WRITE on the management session or over the service
  port in any mode: the status is of class 0x8, no register changes but NET_SVC_STAT, which counts the message (for
  REG_WRITE: none below 0x9_0000), and every other record of the device is as before; no reset takes place. (R54.) -/
def Obligations.ResetWritesWithAnotherKeyDoNothing : Prop :=
  (∀ (p : Path) (key : BitVec 16) (s : State), s.silent p = false → s.rstRefusal p = none → key ≠ 0xA5C3 → ∃ t, exec
    (.sysRst p key true) s = .next t ∧ t.wstat / 0x1000 = 8 ∧ t = { s with regs := t.regs, wstat := t.wstat } ∧ (∀ a,
    a ≠ NET_SVC_STAT → t.reg a = s.reg a)) ∧
  (∀ (p : Path) (e : Entry) (s : State), s.quiet → s.clear p → s.entryCode p opRegWrite e = none → s.modeCode p
    opRegWrite e = none → e.arg0.toNat = SYS_RST → s.rstRefusal p = none → e.arg1.getLsbD 0 = true → bitsOf
    e.arg1.toNat 31 16 ≠ 0xA5C3 → ∃ t, exec (.regWrite p e) s = .next t ∧ replied s t p e stRegRefused ∧ stRegRefused
    / 0x1000 = 8 ∧ t.sys = s.sys ∧ t.mem = s.mem ∧ t.owl = s.owl ∧ t.plc = s.plc ∧ t.chn = s.chn ∧ t.flash = s.flash ∧
    t.sec = s.sec ∧ t.tick = s.tick ∧ (∀ a, a / 0x10000 ≠ 9 ∧ a / 0x10000 ≠ 0xA → t.reg a = s.reg a))

/-- The write that sets EN, as the row CE_AUX_ENABLE on a path that passes the gate and as REG_WRITE on the management
  session or over the service port: in MAINTAIN it is made and EN reads 1; in every other mode its status is of class
  0x8 and CE_AUX_CTL keeps its word. (R100.) -/
def Obligations.AuxiliaryInputIsEnabledOnlyInMaintain : Prop :=
  (∀ (p : Path) (slot : BitVec 6) (s : State), s.opens p → s.mode = modeMaintain → ∃ t, exec (.ceAuxEnable p slot
    true) s = .next t ∧ t.wstat = 0 ∧ t.flag CE_AUX_CTL_EN = true) ∧
  (∀ (p : Path) (slot : BitVec 6) (s : State), s.opens p → s.mode ≠ modeMaintain → ∃ t, exec (.ceAuxEnable p slot
    true) s = .next t ∧ t.wstat / 0x1000 = 8 ∧ t.reg CE_AUX_CTL = s.reg CE_AUX_CTL) ∧
  (∀ (p : Path) (e : Entry) (s : State), s.quiet → s.clear p → s.entryCode p opRegWrite e = none → s.modeCode p
    opRegWrite e = none → e.arg0.toNat = CE_AUX_CTL → s.writeRefusal p = none → e.arg1.getLsbD 0 = true → s.mode =
    modeMaintain → ∃ t, exec (.regWrite p e) s = .next t ∧ replied s t p e 0 ∧ t.flag CE_AUX_CTL_EN = true) ∧
  (∀ (p : Path) (e : Entry) (s : State), s.quiet → s.clear p → s.entryCode p opRegWrite e = none → s.modeCode p
    opRegWrite e = none → e.arg0.toNat = CE_AUX_CTL → s.writeRefusal p = none → e.arg1.getLsbD 0 = true → s.mode ≠
    modeMaintain → ∃ t, exec (.regWrite p e) s = .next t ∧ replied s t p e stRegRefused ∧ stRegRefused / 0x1000 = 8 ∧
    t.reg CE_AUX_CTL = s.reg CE_AUX_CTL)

/-- For every command c and state s with c at the front of its queue, step of s is exec of c on s with the queue's rest.
  On an empty queue step answers the state itself: that the block idles then is the model's choice (assumption log,
  entry 2). (R29, R31.) -/
def Obligations.StepRunsTheFrontCommand : Prop :=
  (∀ (c : Instr) (rest : List Instr) (s : State), s.pending = c :: rest → step s = exec c { s with pending := rest }) ∧
  (∀ s : State, s.pending = [] → step s = .next s) ∧
  ∀ (c : Instr) (s : State), step (s.push c) = exec c s

/-- State.reset meets the invariant that every step keeps; its queue is empty, TICK_COUNT is 0, SYS_RST_CAUSE shows POR
  alone, SYS_MODE shows BOOT, SYS_ID reads 0x4D48_2404 and SYS_STEP reads 0xB0. (R8, R14, R53, R493, R494.) -/
def Obligations.ResetMeetsTheInvariant : Prop :=
  State.reset.Inv ∧ State.reset.pending = [] ∧ State.reset.tick = 0 ∧ State.reset.reg SYS_RST_CAUSE = 1 ∧ State.reset.mode = modeBoot ∧
  State.reset.reg SYS_ID = 0x4D482404 ∧ State.reset.reg SYS_STEP = 0xB0 ∧
  ∀ a, a ≠ SYS_RST_CAUSE → State.reset.reg a = resetWord a

/-- For every state s that meets the invariant (the register store, the DRAM, the SRAM test rows and the flash cells in
  canonical form; at most 4,096 events and 256 bus samples in the Owl), whatever the command in front: if step answers
  next t, then t meets the invariant, the queue of t is the queue of s without its front, and no free value that s has
  drawn is drawn again. (R14, R466, R474, R573, R574.) -/
def Obligations.EveryStepKeepsTheInvariant : Prop :=
  ∀ s t : State, s.Inv → step s = .next t → t.Inv ∧ t.pending = s.pending.tail ∧ s.free ≤ t.free
end

