-- ==== Sys2Proof/Laws/Codec.lean ====
section
/-!
SUPPORT. The codes of a frame and of a block give back what went in: the scrambler undoes itself, the channel decoder reads
what the encoder wrote, the parity blocks satisfy every check, the parity bytes leave no syndrome.
-/

namespace Sys2Proof.Machine

open Sys2Proof

/-- The scrambler is its own inverse (R174). -/
theorem scramble_scramble (s : BitVec 16) (l : List Bool) : scramble s (scramble s l) = l := by
  induction l generalizing s with
  | nil => rfl
  | cons b t ih => simp [scramble, ih]

@[simp] theorem scramble_length (s : BitVec 16) (l : List Bool) : (scramble s l).length = l.length := by
  induction l generalizing s with
  | nil => rfl
  | cons b t ih => simp [scramble, ih]

/-- What the encoder writes never begins with the group 000, so a group before it is read by its own row. -/
theorem chanEncode_head (l : List Bool) : ∀ t, chanEncode l ≠ false :: false :: false :: t := by
  intro t
  fun_cases chanEncode l with
  | case1 a b c d r h => cases a <;> cases d <;> simp [pairCode]
  | case2 a b c d r h => cases a <;> cases b <;> simp [pairCode]
  | case3 a b => cases a <;> cases b <;> simp [pairCode]
  | case4 => simp

/-- A group that no 000 follows is read by the single-pair rows. -/
theorem chanDecode_single {x y z : Bool} {t : List Bool} (h : ∀ r, t ≠ false :: false :: false :: r) :
    chanDecode (x :: y :: z :: t) = match pairData x y z, chanDecode t with
      | some (a, b), some l => some (a :: b :: l)
      | _, _ => none := by
  rw [chanDecode] <;> first | rfl | exact fun r e => h r e

/-- The decoder reads what the encoder wrote (R176). -/
theorem chanDecode_chanEncode (l : List Bool) (h : l.length % 2 = 0) : chanDecode (chanEncode l) = some l := by
  fun_induction chanEncode l with
  | case1 a b c d t hs ih =>
    obtain ⟨rfl, rfl⟩ := hs
    have ht := ih (by simp only [List.length_cons] at h; omega)
    cases a <;> cases d <;> simp [pairCode, chanDecode, pairData, ht]
  | case2 a b c d t hs ih =>
    have ht := ih (by simp only [List.length_cons] at h ⊢; omega)
    have hd := chanEncode_head (c :: d :: t)
    cases a <;> cases b <;> simp only [pairCode, List.cons_append, List.nil_append] <;>
      rw [chanDecode_single hd, ht] <;> rfl
  | case3 a b => cases a <;> cases b <;> rfl
  | case4 l h1 h2 =>
    match l, h, h1, h2 with
    | [], _, _, _ => rfl
    | [a], h, _, _ => simp at h
    | [a, b], _, _, h2 => exact absurd rfl (h2 a b)
    | [a, b, c], h, _, _ => simp at h
    | a :: b :: c :: d :: t, _, h1, _ => exact absurd rfl (h1 a b c d t)

/-! ### The outer code -/

theorem gfDouble_xor (a b : Byte) : gfDouble (a ^^^ b) = gfDouble a ^^^ gfDouble b := by
  unfold gfDouble
  rw [BitVec.shiftLeft_xor_distrib, BitVec.getLsbD_xor]
  cases a.getLsbD 7 <;> cases b.getLsbD 7 <;> simp [BitVec.xor_assoc]
  rw [BitVec.xor_comm]

theorem gfMul_two (a : Byte) : gfMul 2 a = gfDouble a := by revert a; decide
theorem gfMul_three (a : Byte) : gfMul 3 a = gfDouble a ^^^ a := by revert a; decide

/-- The division and the syndromes of a column agree at every step: its remainder takes the column's values at 1 and α. -/
theorem rsParity_values (l : List Byte) :
    (rsSyndromes l).1 = (rsParity l).1 ^^^ (rsParity l).2 ∧
      gfDouble (gfDouble (rsSyndromes l).2) = gfDouble (rsParity l).1 ^^^ (rsParity l).2 := by
  induction l using List.reverseRecOn with
  | nil => decide
  | append_singleton l d ih =>
    obtain ⟨h1, h2⟩ := ih
    simp only [rsSyndromes, rsParity, List.foldl_append, List.foldl_cons, List.foldl_nil] at *
    rw [h1]
    simp only [gfMul_two, gfMul_three, gfDouble_xor, h2]
    constructor
    · ac_nf
      simp [← BitVec.xor_assoc]
    · ac_nf
      simp [← BitVec.xor_assoc]

/-- A column closed by its parity bytes has no syndrome (R179, R198). -/
theorem rsSyndromes_rsParity (l : List Byte) : rsSyndromes (l ++ [(rsParity l).1, (rsParity l).2]) = (0, 0) := by
  obtain ⟨h1, h2⟩ := rsParity_values l
  have e : rsSyndromes (l ++ [(rsParity l).1, (rsParity l).2]) =
      ((rsSyndromes l).1 ^^^ (rsParity l).1 ^^^ (rsParity l).2,
        gfDouble (gfDouble (rsSyndromes l).2 ^^^ (rsParity l).1) ^^^ (rsParity l).2) := by
    simp [rsSyndromes, List.foldl_append]
  rw [e, h1, gfDouble_xor, h2]
  simp

/-! ### The inner code -/

@[simp] theorem circulate_zero (x : BitVec 512) : circulate 0 x = x := by
  apply BitVec.eq_of_getLsbD_eq
  intro i hi
  simp [circulate, hi]

theorem checkRow_append (data p : List (BitVec 512)) (r : Nat) :
    checkRow (data ++ p) r = (p.zipIdx data.length).foldl (fun a e => match circulant r e.2 with
      | some v => a ^^^ circulate v e.1
      | none => a) (checkRow data r) := by
  rw [checkRow, List.zipIdx_append, List.foldl_append, Nat.zero_add]
  rfl

/-- Every block row of a payload with its parity blocks adds up to 0 (R178). -/
theorem checkRow_ldpcParity (data : List (BitVec 512)) (h : data.length = 64) (r : Nat) (hr : r < 8) :
    checkRow (data ++ ldpcParity data) r = 0 := by
  rw [checkRow_append, h]
  interval_cases r <;> simp [ldpcParity, List.range_succ, circulant, List.zipIdx_cons]

end Sys2Proof.Machine
end

