-- ==== Sys2Proof/Laws/Sparse.lean ====
section
/-!
SUPPORT. The basic laws of sparse stores: a read after a write to the same key gives the value written, a write leaves
every other key alone, and every write keeps the canonical form.
-/

namespace Sys2Proof.Machine

variable {α : Type}

theorem sget_sdel_same (d : Nat → α) (l : List (Nat × α)) (k : Nat) : sget d (sdel k l) k = d k := by
  induction l with
  | nil => rfl
  | cons e t ih =>
    obtain ⟨k', v⟩ := e
    by_cases h : k' = k
    · simp [sdel, h, ih]
    · simp [sdel, h, sget, ih]

theorem sget_sdel_other (d : Nat → α) (l : List (Nat × α)) {k j : Nat} (h : j ≠ k) :
    sget d (sdel k l) j = sget d l j := by
  induction l with
  | nil => rfl
  | cons e t ih =>
    obtain ⟨k', v⟩ := e
    by_cases hk : k' = k
    · subst hk
      simp [sdel, sget, ih, Ne.symm h]
    · by_cases hj : k' = j
      · simp [sdel, hk, sget, hj]
        simp [hj ▸ hk, sget]
      · simp [sdel, hk, sget, hj, ih]

theorem sget_sins_same (d : Nat → α) (l : List (Nat × α)) (k : Nat) (v : α) (h : ∀ e ∈ l, e.1 ≠ k) :
    sget d (sins k v l) k = v := by
  induction l with
  | nil => simp [sins, sget]
  | cons e t ih =>
    obtain ⟨k', v'⟩ := e
    have h1 : k' ≠ k := h (k', v') (by simp)
    have h2 : ∀ e ∈ t, e.1 ≠ k := fun e he => h e (by simp [he])
    by_cases hk : k < k'
    · simp [sins, hk, sget]
    · simp [sins, hk, sget, h1, ih h2]

theorem sget_sins_other (d : Nat → α) (l : List (Nat × α)) {k j : Nat} (v : α) (h : j ≠ k) :
    sget d (sins k v l) j = sget d l j := by
  induction l with
  | nil => simp [sins, sget, Ne.symm h]
  | cons e t ih =>
    obtain ⟨k', v'⟩ := e
    by_cases hk : k < k'
    · simp [sins, hk, sget, Ne.symm h]
    · by_cases hj : k' = j
      · simp [sins, hk, sget, hj]
        rw [if_neg (by omega)]
        simp [sget]
      · simp [sins, hk, sget, hj, ih]

theorem mem_sdel {k : Nat} {l : List (Nat × α)} {e : Nat × α} (h : e ∈ sdel k l) : e ∈ l ∧ e.1 ≠ k := by
  induction l with
  | nil => simp [sdel] at h
  | cons a t ih =>
    obtain ⟨k', v⟩ := a
    by_cases hk : k' = k
    · simp [sdel, hk] at h
      exact ⟨by simp [(ih h).1], (ih h).2⟩
    · simp only [sdel, hk, if_false, List.mem_cons] at h
      rcases h with h | h
      · subst h; exact ⟨by simp, hk⟩
      · exact ⟨by simp [(ih h).1], (ih h).2⟩

/-- A read after a write to the same key gives the value written. -/
@[simp] theorem sget_sput_same [DecidableEq α] (d : Nat → α) (l : List (Nat × α)) (k : Nat) (v : α) :
    sget d (sput d l k v) k = v := by
  by_cases h : v = d k
  · simp [sput, h, sget_sdel_same]
  · simp only [sput, h, if_false]
    exact sget_sins_same d _ k v fun e he => (mem_sdel he).2

/-- A write leaves every other key alone. -/
theorem sget_sput_other [DecidableEq α] (d : Nat → α) (l : List (Nat × α)) {k j : Nat} (v : α) (h : j ≠ k) :
    sget d (sput d l k v) j = sget d l j := by
  by_cases hv : v = d k
  · simp [sput, hv, sget_sdel_other d l h]
  · simp [sput, hv, sget_sins_other d _ v h, sget_sdel_other d l h]

theorem sabove_sdel {k j : Nat} {l : List (Nat × α)} (h : sabove j l = true) : sabove j (sdel k l) = true := by
  simp only [sabove, List.all_eq_true] at *
  exact fun e he => h e (mem_sdel he).1

theorem sabove_sins {k j : Nat} {v : α} {l : List (Nat × α)} (hj : j < k) (h : sabove j l = true) :
    sabove j (sins k v l) = true := by
  induction l with
  | nil => simp [sins, sabove, hj]
  | cons e t ih =>
    obtain ⟨k', v'⟩ := e
    simp only [sabove, List.all_cons, Bool.and_eq_true, decide_eq_true_eq] at h
    by_cases hk : k < k'
    · simp [sins, hk, sabove, hj, h.1]
      simpa using h.2
    · have := ih h.2
      simp only [sabove] at this
      simp only [sins, hk, if_false, sabove, List.all_cons, Bool.and_eq_true, decide_eq_true_eq]
      exact ⟨h.1, this⟩

theorem swf_sdel [DecidableEq α] (d : Nat → α) (k : Nat) {l : List (Nat × α)} (h : swf d l = true) :
    swf d (sdel k l) = true := by
  induction l with
  | nil => rfl
  | cons e t ih =>
    obtain ⟨k', v⟩ := e
    simp only [swf, Bool.and_eq_true] at h
    by_cases hk : k' = k
    · simp [sdel, hk, ih h.2]
    · simp only [sdel, hk, if_false, swf, Bool.and_eq_true]
      exact ⟨⟨h.1.1, sabove_sdel h.1.2⟩, ih h.2⟩

theorem swf_sins [DecidableEq α] (d : Nat → α) {k : Nat} {v : α} (hv : v ≠ d k) {l : List (Nat × α)}
    (h : swf d l = true) (hn : ∀ e ∈ l, e.1 ≠ k) : swf d (sins k v l) = true := by
  induction l with
  | nil => simp [sins, swf, sabove, hv]
  | cons e t ih =>
    obtain ⟨k', v'⟩ := e
    simp only [swf, Bool.and_eq_true] at h
    have h1 : k' ≠ k := hn (k', v') (by simp)
    have h2 : ∀ e ∈ t, e.1 ≠ k := fun e he => hn e (by simp [he])
    by_cases hk : k < k'
    · simp only [sins, hk, if_true, swf, Bool.and_eq_true, decide_eq_true_eq]
      refine ⟨⟨hv, ?_⟩, ⟨by simpa using h.1.1, h.1.2⟩, h.2⟩
      have h3 := h.1.2
      simp only [sabove, List.all_cons, Bool.and_eq_true, List.all_eq_true, decide_eq_true_eq] at *
      exact ⟨hk, fun e he => by have := h3 e he; omega⟩
    · simp only [sins, hk, if_false, swf, Bool.and_eq_true]
      exact ⟨⟨h.1.1, sabove_sins (by omega) h.1.2⟩, ih h.2 h2⟩

/-- Every write keeps the canonical form. -/
theorem swf_sput [DecidableEq α] (d : Nat → α) {l : List (Nat × α)} (k : Nat) (v : α) (h : swf d l = true) :
    swf d (sput d l k v) = true := by
  by_cases hv : v = d k
  · simp [sput, hv, swf_sdel d k h]
  · simp only [sput, hv, if_false]
    exact swf_sins d hv (swf_sdel d k h) fun e he => (mem_sdel he).2

end Sys2Proof.Machine
end

