-- ==== Sys2Proof/Laws/Fields.lean ====
section
/-!
SUPPORT. The laws of registers and their fields: reading a field after a write to it, after a write to another field or
another register, and what a register write leaves alone.
-/

namespace Sys2Proof.Machine

open Sys2Proof

/-! ### Bits of numbers -/

theorem bitsOf_lt (n hi lo : Nat) : bitsOf n hi lo < 2 ^ (hi + 1 - lo) := Nat.mod_lt _ (Nat.two_pow_pos _)

theorem bitsOf_testBit (n hi lo j : Nat) : (bitsOf n hi lo).testBit j = (decide (j < hi + 1 - lo) && n.testBit (lo + j)) := by
  simp [bitsOf, Nat.testBit_mod_two_pow, Nat.testBit_div_two_pow, Nat.add_comm]

theorem putBits_testBit {hi lo : Nat} (h : lo ≤ hi) (n v j : Nat) :
    (putBits n hi lo v).testBit j =
      if j < lo then n.testBit j else if j ≤ hi then v.testBit (j - lo) else n.testBit j := by
  have hlo : n % 2 ^ lo < 2 ^ lo := Nat.mod_lt _ (Nat.two_pow_pos _)
  have hw : v % 2 ^ (hi + 1 - lo) < 2 ^ (hi + 1 - lo) := Nat.mod_lt _ (Nat.two_pow_pos _)
  have hpow : 2 ^ (hi + 1) = 2 ^ lo * 2 ^ (hi + 1 - lo) := by rw [← Nat.pow_add]; congr 1; omega
  have hform : putBits n hi lo v =
      2 ^ lo * (2 ^ (hi + 1 - lo) * (n / 2 ^ (hi + 1)) + v % 2 ^ (hi + 1 - lo)) + n % 2 ^ lo := by
    simp only [putBits, hpow]; ring
  rw [hform, Nat.testBit_two_pow_mul_add _ hlo]
  by_cases h1 : j < lo
  · simp [h1, Nat.testBit_mod_two_pow]
  · rw [if_neg h1, if_neg h1, Nat.testBit_two_pow_mul_add _ hw]
    by_cases h2 : j ≤ hi
    · have : j - lo < hi + 1 - lo := by omega
      simp [this, h2, Nat.testBit_mod_two_pow]
    · have : ¬ (j - lo < hi + 1 - lo) := by omega
      rw [if_neg this, if_neg h2, Nat.testBit_div_two_pow]
      congr 1; omega

theorem putBits_lt {n hi lo v : Nat} (h : lo ≤ hi) (hh : hi < 32) (hn : n < 2 ^ 32) : putBits n hi lo v < 2 ^ 32 := by
  apply Nat.lt_pow_two_of_testBit
  intro i hi32
  rw [putBits_testBit h]
  have : n.testBit i = false := Nat.testBit_lt_two_pow (lt_of_lt_of_le hn (Nat.pow_le_pow_right (by norm_num) hi32))
  simp only [this]
  split
  · rfl
  · split
    · omega
    · rfl

theorem bitsOf_putBits_same {n hi lo v : Nat} (h : lo ≤ hi) : bitsOf (putBits n hi lo v) hi lo = v % 2 ^ (hi + 1 - lo) := by
  apply Nat.eq_of_testBit_eq
  intro j
  rw [bitsOf_testBit, putBits_testBit h, Nat.testBit_mod_two_pow]
  by_cases hj : j < hi + 1 - lo
  · have h1 : ¬ (lo + j < lo) := by omega
    have h2 : lo + j ≤ hi := by omega
    simp [hj, h2]
  · simp [hj]

theorem bitsOf_putBits_other {n hi lo hi' lo' v : Nat} (h : lo ≤ hi) (hd : hi' < lo ∨ hi < lo') :
    bitsOf (putBits n hi lo v) hi' lo' = bitsOf n hi' lo' := by
  apply Nat.eq_of_testBit_eq
  intro j
  rw [bitsOf_testBit, bitsOf_testBit, putBits_testBit h]
  by_cases hj : j < hi' + 1 - lo'
  · rcases hd with hd | hd
    · rw [if_pos (by omega)]
    · rw [if_neg (by omega), if_neg (by omega)]
  · simp [hj]

/-! ### Registers -/

@[simp] theorem State.reg_setReg_same (s : State) (a : Nat) (v : Word) : (s.setReg a v).reg a = v := by
  simp [State.reg, State.setReg]

theorem State.reg_setReg_other (s : State) {a b : Nat} (v : Word) (h : b ≠ a) : (s.setReg a v).reg b = s.reg b := by
  simp [State.reg, State.setReg, sget_sput_other _ _ _ h]

/-- A field is within its register. -/
abbrev Fld.ok (f : Fld) : Prop := f.lo ≤ f.hi ∧ f.hi < 32

/-- Two fields share no bit. -/
abbrev Fld.apart (f g : Fld) : Prop := f.addr ≠ g.addr ∨ f.hi < g.lo ∨ g.hi < f.lo

theorem State.get_set_same (s : State) {f : Fld} (v : Nat) (h : f.ok) : (s.set f v).get f = v % 2 ^ (f.hi + 1 - f.lo) := by
  have hl := putBits_lt (v := v) h.1 h.2 (s.reg f.addr).isLt
  simp only [State.get, State.set, State.reg_setReg_same, BitVec.toNat_ofNat, Nat.mod_eq_of_lt hl]
  exact bitsOf_putBits_same h.1

theorem State.get_set_other (s : State) {f g : Fld} (v : Nat) (h : g.ok) (hd : f.apart g) : (s.set g v).get f = s.get f := by
  by_cases ha : f.addr = g.addr
  · have hl := putBits_lt (v := v) h.1 h.2 (s.reg g.addr).isLt
    simp only [State.get, State.set, ha, State.reg_setReg_same, BitVec.toNat_ofNat, Nat.mod_eq_of_lt hl]
    exact bitsOf_putBits_other h.1 (by rcases hd with hd | hd | hd; exact absurd ha hd; exact .inl hd; exact .inr hd)
  · simp only [State.get, State.set]
    rw [State.reg_setReg_other _ _ ha]

theorem State.reg_set_other (s : State) {g : Fld} {a : Nat} (v : Nat) (h : a ≠ g.addr) : (s.set g v).reg a = s.reg a :=
  State.reg_setReg_other _ _ h

theorem State.get_setReg_other (s : State) {f : Fld} {a : Nat} (v : Word) (h : f.addr ≠ a) : (s.setReg a v).get f = s.get f := by
  simp only [State.get, State.reg_setReg_other _ _ h]

theorem State.get_lt (s : State) (f : Fld) : s.get f < 2 ^ (f.hi + 1 - f.lo) := bitsOf_lt _ _ _

/-! ### The canonical form of the register store -/

theorem State.setReg_swf (s : State) (a : Nat) (v : Word) (h : swf resetWord s.regs = true) :
    swf resetWord (s.setReg a v).regs = true := swf_sput _ _ _ h

theorem State.set_swf (s : State) (f : Fld) (v : Nat) (h : swf resetWord s.regs = true) :
    swf resetWord (s.set f v).regs = true := s.setReg_swf _ _ h

end Sys2Proof.Machine
end

