-- ==== Sys2Proof/Laws/Keeps.lean ====
section
/-!
SUPPORT. What every operation of the block keeps, and how a proof of it is put together: the queue of commands, the count of
free values, the canonical form of the register store, the memories and the flash cells, and the bounds of the Owl's ring.
Every write keeps the canonical form (`swf_sput`); leaving entries out and programming bytes keep it too.
-/

namespace Sys2Proof.Machine

open Sys2Proof

theorem sabove_filter {α : Type} (f : Nat × α → Bool) {k : Nat} {l : List (Nat × α)} (h : sabove k l = true) :
    sabove k (l.filter f) = true := by
  simp only [sabove, List.all_eq_true, List.mem_filter] at *
  exact fun e he => h e he.1

/-- Leaving entries out keeps the canonical form. -/
theorem swf_filter {α : Type} [DecidableEq α] (d : Nat → α) (f : Nat × α → Bool) {l : List (Nat × α)} (h : swf d l = true) :
    swf d (l.filter f) = true := by
  induction l with
  | nil => rfl
  | cons e t ih =>
    obtain ⟨k, v⟩ := e
    simp only [swf, Bool.and_eq_true] at h
    by_cases hf : f (k, v) = true
    · simp only [List.filter_cons, hf, if_true, swf, Bool.and_eq_true]
      exact ⟨⟨h.1.1, sabove_filter f h.1.2⟩, ih h.2⟩
    · simp only [List.filter_cons, hf]
      exact ih h.2

/-- From `z` on, the queue is that of `z` and no free value is given back; the register store, the memories and the flash
cells are in canonical form; the Owl keeps at most 4,096 events and 256 bus samples. -/
def State.keeps (s z : State) : Prop :=
  s.pending = z.pending ∧ z.free ≤ s.free ∧ swf resetWord s.regs = true ∧ swf dramDefault s.mem.dram = true ∧
    swf (fun _ => (0 : BitVec 13)) s.mem.rows = true ∧ swf (fun _ => (0xFF : Byte)) s.flash.cells = true ∧
    s.owl.ring.length ≤ 4096 ∧ s.owl.vbus.length ≤ 256

/-- The next state, where there is one, keeps them. -/
def keepsOut (z : State) : Out → Prop
  | .next t => t.keeps z
  | _ => True

/-- The state answered, where there is one, keeps them. -/
def keepsOpt (z : State) : Option State → Prop
  | some t => t.keeps z
  | none => True

theorem keepsNext {z : State} {t : State} (h : t.keeps z) : keepsOut z (.next t) := h

theorem keepsSome {z : State} {t : State} (h : t.keeps z) : keepsOpt z (some t) := h

theorem keepsFst {z : State} {α : Type} {x : State × α} {a : State} {b : α} (e : x = (a, b)) (h : x.1.keeps z) :
    a.keeps z := by subst e; exact h

theorem keepsSnd {z : State} {α : Type} {x : α × State} {a : α} {b : State} (e : x = (a, b)) (h : x.2.keeps z) :
    b.keeps z := by subst e; exact h

theorem keepsOf {z : State} {x : Option State} {t : State} (e : x = some t) (h : keepsOpt z x) : t.keeps z := by
  subst e; exact h

theorem keepsFold {z : State} {α : Type} {f : State → α → State} {l : List α} {s : State}
    (hf : ∀ s a, s.keeps z → (f s a).keeps z) (h : s.keeps z) : (l.foldl f s).keeps z := by
  induction l generalizing s with
  | nil => exact h
  | cons a t ih => exact ih (hf s a h)

/-- Writing the other records of the state keeps them. -/
theorem keepsMk {z s : State} {tick wstat : Nat} {rdata : List Word} {latch : List (Nat × Word)} {sys : SysSt} {ce : CeSt} {pu : Vector PuSt 4} {flt : FltSt} {bist : BistSt} {txn : Vector TxnSt 4} {cal : CalSt} {ax : Vector AxSt 7} {mag : MagSt} {stn : Vector StnSt 2} {pwr : PwrSt} {net : NetSt} {cmd : CmdSt} {cch : CchSt} {plc : PlcSt} {chn : ChnSt} {arb : ArbSt} {mtr : MtrSt} {sec : SecSt}
    (h : s.keeps z) :
    (State.mk s.regs tick s.pending s.free wstat rdata latch sys ce pu flt bist s.owl txn cal ax mag stn pwr net cmd s.mem cch s.flash plc chn arb mtr sec).keeps z := h

/-- Writing the other records, and what the memories, the flash and the Owl hold beside, keeps them. -/
theorem keepsMem {z s : State} {tick free wstat : Nat} {rdata : List Word} {latch : List (Nat × Word)} {sys : SysSt} {ce : CeSt} {pu : Vector PuSt 4} {flt : FltSt} {bist : BistSt} {owl : OwlSt} {txn : Vector TxnSt 4} {cal : CalSt} {ax : Vector AxSt 7} {mag : MagSt} {stn : Vector StnSt 2} {pwr : PwrSt} {net : NetSt} {cmd : CmdSt} {mem : MemSt} {cch : CchSt} {flash : FlashSt} {plc : PlcSt} {chn : ChnSt} {arb : ArbSt} {mtr : MtrSt} {sec : SecSt}
    (h : s.keeps z) (e1 : mem.dram = s.mem.dram) (e2 : mem.rows = s.mem.rows) (e3 : flash.cells = s.flash.cells)
    (e4 : owl.ring = s.owl.ring) (e5 : owl.vbus = s.owl.vbus) (e6 : s.free ≤ free) :
    (State.mk s.regs tick s.pending free wstat rdata latch sys ce pu flt bist owl txn cal ax mag stn pwr net cmd mem cch flash plc chn arb mtr sec).keeps z := by
  obtain ⟨h1, h2, h3, h4, h5, h6, h7, h8⟩ := h
  exact ⟨h1, Nat.le_trans h2 e6, h3, e1 ▸ h4, e2 ▸ h5, e3 ▸ h6, e4 ▸ h7, e5 ▸ h8⟩

theorem keepsIte {z : State} {c : Prop} [Decidable c] {a b : State} (ha : a.keeps z) (hb : b.keeps z) :
    (if c then a else b).keeps z := by split <;> assumption

theorem keepsIteOut {z : State} {c : Prop} [Decidable c] {a b : Out} (ha : keepsOut z a) (hb : keepsOut z b) :
    keepsOut z (if c then a else b) := by split <;> assumption

theorem keepsIteOpt {z : State} {c : Prop} [Decidable c] {a b : Option State} (ha : keepsOpt z a) (hb : keepsOpt z b) :
    keepsOpt z (if c then a else b) := by split <;> assumption

theorem keepsSnd2 {z : State} {α β : Type} {x : α × β × State} {a : α} {b : β} {c : State} (e : x = (a, b, c))
    (h : x.2.2.keeps z) : c.keeps z := by subst e; exact h

/-- Programming bytes keeps the canonical form. -/
theorem swf_program (d : Nat → Byte) (a : Nat) (l : List (Byte × Nat)) {c : List (Nat × Byte)} (h : swf d c = true) :
    swf d (l.foldl (fun c e => sput d c (a + e.2) e.1) c) = true := by
  induction l generalizing c with
  | nil => exact h
  | cons e t ih => exact ih (swf_sput _ _ _ h)

theorem keepsOrElse {z : State} {a : Option State} {b : Unit → Option State} (ha : keepsOpt z a) (hb : ∀ u, keepsOpt z (b u)) :
    keepsOpt z (a.orElse b) := by
  cases a with
  | none => exact hb ()
  | some t => exact ha

theorem keepsFindSome {z : State} {α : Type} {f : α → Option State} {l : List α} (h : ∀ x, keepsOpt z (f x)) :
    keepsOpt z (l.findSome? f) := by
  induction l with
  | nil => exact trivial
  | cons a t ih =>
    rw [List.findSome?_cons]
    have h1 := h a
    split
    · rename_i e
      exact e ▸ h1
    · exact ih

theorem keepsMap {z : State} {α : Type} {f : α → State} {o : Option α} (h : ∀ x, (f x).keeps z) : keepsOpt z (o.map f) := by
  cases o with
  | none => exact trivial
  | some a => exact h a

theorem keepsGetD {z : State} {o : Option State} {s : State} (h : keepsOpt z o) (hs : s.keeps z) : (o.getD s).keeps z := by
  cases o with
  | none => exact hs
  | some t => exact h

theorem keepsFoldFst {z : State} {α β : Type} {f : State × β → α → State × β} {l : List α} {x : State × β}
    (hf : ∀ x a, x.1.keeps z → (f x a).1.keeps z) (h : x.1.keeps z) : (l.foldl f x).1.keeps z := by
  induction l generalizing x with
  | nil => exact h
  | cons a t ih => exact ih (hf x a h)

/-- Every action of the list keeps them. -/
def keepsAll (z : State) (l : List (State → State)) : Prop := ∀ f ∈ l, ∀ s : State, s.keeps z → (f s).keeps z

theorem keepsNil {z : State} : keepsAll z [] := fun _ h => by simp at h

theorem keepsCons {z : State} {f : State → State} {l : List (State → State)} (hf : ∀ s : State, s.keeps z → (f s).keeps z)
    (h : keepsAll z l) : keepsAll z (f :: l) := by
  intro g hg
  rcases List.mem_cons.mp hg with e | e
  · exact e ▸ hf
  · exact h g e

theorem keepsAppend {z : State} {l r : List (State → State)} (hl : keepsAll z l) (hr : keepsAll z r) : keepsAll z (l ++ r) := by
  intro g hg
  rcases List.mem_append.mp hg with e | e
  · exact hl g e
  · exact hr g e

/-- A fresh state with the queue, the count of free values, flash cells in canonical form and an Owl within its bounds. -/
theorem keepsFresh {z s : State} (h1 : s.pending = z.pending) (h2 : z.free ≤ s.free) (h3 : s.regs = []) (h4 : s.mem.dram = [] ∧ s.mem.rows = [])
    (h5 : swf (fun _ => (0xFF : Byte)) s.flash.cells = true) (h6 : s.owl.ring.length ≤ 4096) (h7 : s.owl.vbus.length ≤ 256) :
    s.keeps z := by
  refine ⟨h1, h2, ?_, ?_, ?_, h5, h6, h7⟩
  · rw [h3]; rfl
  · rw [h4.1]; rfl
  · rw [h4.2]; rfl

/-- Clearing the memories and the Owl keeps them. -/
theorem keepsClear {z s t : State} (h : s.keeps z) (h1 : t.pending = s.pending) (h2 : t.regs = s.regs) (h3 : t.free = s.free)
    (h4 : t.mem.dram = []) (h5 : t.mem.rows = []) (h6 : t.flash = s.flash) (h7 : t.owl = {}) : t.keeps z := by
  obtain ⟨a, b, c, _, _, e, _⟩ := h
  refine ⟨h1 ▸ a, h3 ▸ b, h2 ▸ c, ?_, ?_, h6 ▸ e, ?_⟩
  · rw [h4]; rfl
  · rw [h5]; rfl
  · rw [h7]; decide

/-- The Owl's ring stays within its 4,096 events when one is pushed. -/
theorem owlPush_length {l : List OwlEvent} (e : OwlEvent) (h : l.length ≤ 4096) : (owlPush l e).length ≤ 4096 := by
  unfold owlPush
  split
  · simp; omega
  · simp; omega

theorem keepsRing {z s : State} {e : OwlEvent} (h : s.keeps z) :
    State.keeps { s with owl := { s.owl with ring := owlPush s.owl.ring e } } z := by
  obtain ⟨h1, h2, h3, h4, h5, h6, h7, h8⟩ := h
  exact ⟨h1, h2, h3, h4, h5, h6, owlPush_length e h7, h8⟩

theorem keepsVbus {z s : State} {v : BitVec 16} (h : s.keeps z) :
    State.keeps { s with owl := { s.owl with vbus := (s.owl.vbus ++ [v]).drop (s.owl.vbus.length + 1 - 256) } } z := by
  obtain ⟨h1, h2, h3, h4, h5, h6, h7, h8⟩ := h
  refine ⟨h1, h2, h3, h4, h5, h6, h7, ?_⟩
  simp only [List.length_drop, List.length_append, List.length_singleton]
  omega

/-- The state that a read leaves, where it acts, keeps them. -/
def keepsRead (z : State) (o : Option (List Word × State)) : Prop := ∀ x, o = some x → x.2.keeps z

theorem keepsReadSome {z : State} {x : List Word × State} (h : x.2.keeps z) : keepsRead z (some x) := by
  intro y e
  cases e
  exact h

theorem keepsReadMap {z : State} {α : Type} {o : Option α} {f : α → List Word × State} (h : ∀ a, (f a).2.keeps z) :
    keepsRead z (o.map f) := by
  cases o with
  | none => intro y e; cases e
  | some a => exact keepsReadSome (h a)

theorem keepsReadOrElse {z : State} {o q : Option (List Word × State)} (ho : keepsRead z o) (hq : keepsRead z q) :
    keepsRead z (o.orElse fun _ => q) := by
  cases o with
  | none => exact hq
  | some x => exact ho

theorem keepsReadIte {z : State} {c : Prop} [Decidable c] {a b : Option (List Word × State)} (ha : keepsRead z a)
    (hb : keepsRead z b) : keepsRead z (if c then a else b) := by split <;> assumption

end Sys2Proof.Machine
end

