-- ==== Sys2Proof/Laws/KeepsServo.lean ====
section
/-!
SUPPORT. One lemma per operation of the servo core: registers, faults, messages, kernels, pickups, stations, magazine, commands' ends, arbiter, campaigns, power:
it keeps what `State.keeps` says.
-/

namespace Sys2Proof.Machine

open Sys2Proof

/-! ### Ops -/

theorem State.setReg_keeps {z : State} {s : State} {a : Nat} {v : Word} (hs : s.keeps z) :
    (State.setReg s a v).keeps z := by
  obtain ⟨h1, h2, h3, h4⟩ := hs
  exact ⟨h1, h2, swf_sput _ _ _ h3, h4⟩

theorem State.set_keeps {z : State} {s : State} {f : Fld} {v : Nat} (hs : s.keeps z) :
    (State.set s f v).keeps z := by
  unfold State.set
  exact State.setReg_keeps (by assumption)

theorem State.setInt_keeps {z : State} {s : State} {f : Fld} {i : Int} (hs : s.keeps z) :
    (State.setInt s f i).keeps z := by
  unfold State.setInt
  exact State.set_keeps (by assumption)

theorem State.setFlag_keeps {z : State} {s : State} {f : Fld} {b : Bool} (hs : s.keeps z) :
    (State.setFlag s f b).keeps z := by
  unfold State.setFlag
  exact State.set_keeps (by assumption)

theorem State.addSat_keeps {z : State} {s : State} {f : Fld} {n : Nat} (hs : s.keeps z) :
    (State.addSat s f n).keeps z := by
  unfold State.addSat
  exact State.set_keeps (by assumption)

theorem State.incWrap_keeps {z : State} {s : State} {f : Fld} (hs : s.keeps z) :
    (State.incWrap s f).keeps z := by
  unfold State.incWrap
  exact State.set_keeps (by assumption)

theorem State.maxIn_keeps {z : State} {s : State} {f : Fld} {v : Nat} (hs : s.keeps z) :
    (State.maxIn s f v).keeps z := by
  unfold State.maxIn
  exact State.set_keeps (by assumption)

theorem State.draw_keeps {z : State} {s : State} (hs : s.keeps z) :
    (State.draw s).2.keeps z := by
  unfold State.draw
  dsimp only
  exact keepsMem (by assumption) rfl rfl rfl rfl rfl (Nat.le_add_right _ _)

theorem State.capture_keeps {z : State} {s : State} {kind : Nat} {flags : Nat} {data : Word} (hs : s.keeps z) :
    (State.capture s kind flags data).keeps z := by
  unfold State.capture
  dsimp only
  apply keepsIte
  exact State.addSat_keeps (by assumption)
  split
  apply State.incWrap_keeps
  refine keepsRing ?_
  assumption
  apply keepsIte
  apply State.set_keeps
  refine keepsMem ?_ rfl rfl rfl rfl rfl (by exact Nat.le_refl _)
  apply State.incWrap_keeps
  refine keepsRing ?_
  assumption
  refine keepsMem ?_ rfl rfl rfl rfl rfl (by exact Nat.le_refl _)
  apply State.incWrap_keeps
  refine keepsRing ?_
  assumption

theorem State.send_keeps {z : State} {s : State} {m : Msg} (hs : s.keeps z) :
    (State.send s m).keeps z := by
  unfold State.send
  dsimp only
  apply keepsIte
  assumption
  exact keepsIte (State.set_keeps (State.set_keeps (State.set_keeps (keepsMk (State.setReg_keeps (by assumption)))))) (keepsMk (State.setReg_keeps (by assumption)))

theorem State.raise_keeps {z : State} {s : State} {src : Nat} {kind : Nat} {arg : Nat} (hs : s.keeps z) :
    (State.raise s src kind arg).keeps z := by
  unfold State.raise
  exact State.send_keeps (by assumption)

theorem State.status_keeps {z : State} {s : State} {code : Nat} (hs : s.keeps z) :
    (State.status s code).keeps z := by
  unfold State.status
  exact keepsMk (by assumption)

theorem State.rxMessage_keeps {z : State} {s : State} {p : Path} {inBoot : Bool} (hs : s.keeps z) :
    (State.rxMessage s p inBoot).keeps z := by
  unfold State.rxMessage
  split
  exact keepsIte (by assumption) (State.incWrap_keeps (by assumption))
  assumption

theorem State.writeBy_keeps {z : State} {s : State} {p : Path} {ok : Bool} {f : State → State} (hs : s.keeps z) (hf : ∀ s, s.keeps z → (f s).keeps z) :
    (State.writeBy s p ok f).keeps z := by
  unfold State.writeBy
  apply keepsIte
  assumption
  split
  exact State.status_keeps (State.rxMessage_keeps (by assumption))
  apply keepsIte
  apply State.status_keeps
  apply hf
  exact State.rxMessage_keeps (by assumption)
  exact State.status_keeps (State.rxMessage_keeps (by assumption))

/-! ### Regs -/

theorem State.setTxn_keeps {z : State} {s : State} {d : Nat} {t : TxnSt} (hs : s.keeps z) :
    (State.setTxn s d t).keeps z := by
  unfold State.setTxn
  exact keepsMk (by assumption)

theorem State.putShadow_keeps {z : State} {s : State} {d : Nat} {key : Nat} {v : Word} (hs : s.keeps z) :
    (State.putShadow s d key v).keeps z := by
  unfold State.putShadow
  dsimp only
  exact State.set_keeps (State.setTxn_keeps (by assumption))

theorem State.writeFields_keeps {z : State} {s : State} {p : Path} {a : Nat} {fs : List FieldRow} {v : Word} (hs : s.keeps z) :
    (State.writeFields s p a fs v).keeps z := by
  unfold State.writeFields
  dsimp only
  split
  apply keepsIte
  apply keepsIte
  exact State.status_keeps (State.setReg_keeps (State.putShadow_keeps (by assumption)))
  exact keepsIte (State.status_keeps (by assumption)) (State.status_keeps (State.setReg_keeps (by assumption)))
  exact State.status_keeps (State.setReg_keeps (by assumption))
  exact State.status_keeps (State.setReg_keeps (by assumption))

/-! ### CeOps -/

theorem State.setSlot_keeps {z : State} {s : State} {n : Nat} {k : KSlot} (hs : s.keeps z) :
    (State.setSlot s n k).keeps z := by
  unfold State.setSlot
  dsimp only
  exact keepsMk (by assumption)

theorem State.clearEn_keeps {z : State} {s : State} {n : Nat} (hs : s.keeps z) :
    (State.clearEn s n).keeps z := by
  unfold State.clearEn
  dsimp only
  exact keepsMk (State.setSlot_keeps (keepsIte (by assumption) (State.set_keeps (by assumption))))

theorem State.setEn_keeps {z : State} {s : State} {n : Nat} (hs : s.keeps z) :
    (State.setEn s n).keeps z := by
  unfold State.setEn
  dsimp only
  exact keepsIte (by assumption) (State.setSlot_keeps (State.set_keeps (by assumption)))

theorem State.clearOut_keeps {z : State} {s : State} {out : Nat} (hs : s.keeps z) :
    (State.clearOut s out).keeps z := by
  unfold State.clearOut
  split
  exact State.clearEn_keeps (by assumption)
  assumption

theorem State.enableOut_keeps {z : State} {s : State} {out : Nat} (hs : s.keeps z) :
    (State.enableOut s out).keeps z := by
  unfold State.enableOut
  split
  exact State.setEn_keeps (by assumption)
  assumption

theorem State.withOut_keeps {z : State} {s : State} {out : Nat} {f : KSlot → KSlot} (hs : s.keeps z) :
    (State.withOut s out f).keeps z := by
  unfold State.withOut
  split
  exact State.setSlot_keeps (by assumption)
  assumption

theorem State.wbufUsed_keeps {z : State} {s : State} (hs : s.keeps z) :
    (State.wbufUsed s).keeps z := by
  unfold State.wbufUsed
  exact State.set_keeps (by assumption)

theorem State.bufferPage_keeps {z : State} {s : State} {a : Nat} {v : Word} (hs : s.keeps z) :
    (State.bufferPage s a v).keeps z := by
  unfold State.bufferPage
  dsimp only
  exact State.status_keeps (State.wbufUsed_keeps (keepsMk (by assumption)))

theorem State.noRoom_keeps {z : State} {s : State} {p : Path} {a : Nat} {v : Word} (hs : s.keeps z) :
    (State.noRoom s p a v).keeps z := by
  unfold State.noRoom
  dsimp only
  exact keepsIte (State.status_keeps (by assumption)) (keepsMk (by assumption))

theorem State.writeRws_keeps {z : State} {s : State} {p : Path} {key : Nat} {fs : List FieldRow} {v : Word} (hs : s.keeps z) :
    (State.writeRws s p key fs v).1.keeps z := by
  unfold State.writeRws
  split
  dsimp only
  assumption
  split
  dsimp only
  exact State.putShadow_keeps (by assumption)
  dsimp only
  assumption

theorem State.writePage_keeps {z : State} {s : State} {p : Path} {n : Nat} {w : Nat} {v : Word} (hs : s.keeps z) :
    (State.writePage s p n w v).keeps z := by
  unfold State.writePage
  dsimp only
  apply keepsIte
  apply keepsIte
  exact State.status_keeps (by assumption)
  apply keepsIte
  exact State.status_keeps (State.writeRws_keeps (by assumption))
  exact keepsIte (State.noRoom_keeps (by assumption)) (keepsIte (State.status_keeps (by assumption)) (State.bufferPage_keeps (State.writeRws_keeps (by assumption))))
  apply keepsIte
  exact keepsIte (State.bufferPage_keeps (by assumption)) (State.noRoom_keeps (by assumption))
  apply keepsIte
  exact State.status_keeps (by assumption)
  apply keepsIte
  exact keepsIte (State.status_keeps (by assumption)) (State.status_keeps (by assumption))
  apply keepsIte
  exact keepsIte (State.status_keeps (State.writeRws_keeps (by assumption))) (State.status_keeps (by assumption))
  exact keepsIte (State.bufferPage_keeps (by assumption)) (State.noRoom_keeps (by assumption))

theorem State.noteTilt_keeps {z : State} {s : State} {n : Nat} (hs : s.keeps z) :
    (State.noteTilt s n).keeps z := by
  unfold State.noteTilt
  dsimp only
  exact keepsIte (keepsMk (by assumption)) (by assumption)

theorem State.applyPage_keeps {z : State} {s : State} {a : Nat} {v : Word} (hs : s.keeps z) :
    (State.applyPage s a v).keeps z := by
  unfold State.applyPage
  dsimp only
  exact keepsIte (keepsIte (State.noteTilt_keeps (State.clearEn_keeps (by assumption))) (State.setEn_keeps (by assumption))) (State.setReg_keeps (by assumption))

theorem State.applyWbuf_keeps {z : State} {s : State} (hs : s.keeps z) :
    (State.applyWbuf s).keeps z := by
  unfold State.applyWbuf
  dsimp only
  apply keepsIte
  assumption
  apply State.wbufUsed_keeps
  with_reducible apply keepsMk
  apply keepsFold
  exact fun _ _ _ => (State.applyPage_keeps (by assumption))
  apply keepsFold
  exact fun _ _ _ => (State.applyPage_keeps (by assumption))
  assumption

theorem State.saturated_keeps {z : State} {s : State} {n : Nat} (hs : s.keeps z) :
    (State.saturated s n).keeps z := by
  unfold State.saturated
  dsimp only
  exact State.raise_keeps (keepsIte (State.setReg_keeps (by assumption)) (State.setReg_keeps (by assumption)))

theorem State.putKst_keeps {z : State} {s : State} {n : Nat} {e : Word} {sl : Word} {out : Word} {hold : Bool} {clamp : Bool} {sat : Bool} {q : Bool} (hs : s.keeps z) :
    (State.putKst s n e sl out hold clamp sat q).keeps z := by
  unfold State.putKst
  dsimp only
  apply keepsIte
  apply State.saturated_keeps
  apply State.setFlag_keeps
  apply State.set_keeps
  exact State.setFlag_keeps (State.setFlag_keeps (State.setFlag_keeps (State.setFlag_keeps (State.setReg_keeps (State.setReg_keeps (State.setReg_keeps (by assumption)))))))
  apply State.setFlag_keeps
  apply State.set_keeps
  exact State.setFlag_keeps (State.setFlag_keeps (State.setFlag_keeps (State.setFlag_keeps (State.setReg_keeps (State.setReg_keeps (State.setReg_keeps (by assumption)))))))

theorem State.drive_keeps {z : State} {s : State} {out : Nat} {v : Word} (hs : s.keeps z) :
    (State.drive s out v).keeps z := by
  unfold State.drive
  dsimp only
  exact keepsMk (by assumption)

theorem State.undrive_keeps {z : State} {s : State} {out : Nat} (hs : s.keeps z) :
    (State.undrive s out).keeps z := by
  unfold State.undrive
  dsimp only
  exact keepsMk (by assumption)

theorem State.smc_keeps {z : State} {s : State} {x : Samples} {n : Nat} {sp : Rat} {u : Word} {b : Word} (hs : s.keeps z) :
    (State.smc s x n sp u b).keeps z := by
  unfold State.smc
  dsimp only
  apply keepsIte
  exact State.setSlot_keeps (State.setFlag_keeps (State.set_keeps (State.set_keeps (by assumption))))
  exact State.drive_keeps (State.setSlot_keeps (State.putKst_keeps (by assumption)))

theorem State.runLpc_keeps {z : State} {s : State} {x : Samples} {n : Nat} (hs : s.keeps z) :
    (State.runLpc s x n).keeps z := by
  unfold State.runLpc
  dsimp only
  exact State.drive_keeps (State.setSlot_keeps (State.putKst_keeps (by assumption)))

theorem State.runSa_keeps {z : State} {s : State} {n : Nat} (hs : s.keeps z) :
    (State.runSa s n).keeps z := by
  unfold State.runSa
  dsimp only
  exact State.drive_keeps (State.setSlot_keeps (State.putKst_keeps (by assumption)))

theorem State.runObs_keeps {z : State} {s : State} {x : Samples} {n : Nat} (hs : s.keeps z) :
    (State.runObs s x n).keeps z := by
  unfold State.runObs
  dsimp only
  exact State.putKst_keeps (State.setSlot_keeps (State.draw_keeps (State.draw_keeps (State.draw_keeps (by assumption)))))

theorem State.superviseSlot_keeps {z : State} {s : State} {n : Nat} (hs : s.keeps z) :
    (State.superviseSlot s n).keeps z := by
  unfold State.superviseSlot
  dsimp only
  exact keepsIte (State.setSlot_keeps (State.set_keeps (by assumption))) (State.set_keeps (by assumption))

theorem State.runSup_keeps {z : State} {s : State} {n : Nat} (hs : s.keeps z) :
    (State.runSup s n).keeps z := by
  unfold State.runSup
  dsimp only
  apply State.set_keeps
  apply keepsFold
  exact fun _ _ _ => (keepsIte (State.superviseSlot_keeps (by assumption)) (by assumption))
  assumption

theorem State.slotOff_keeps {z : State} {s : State} {n : Nat} (hs : s.keeps z) :
    (State.slotOff s n).keeps z := by
  unfold State.slotOff
  dsimp only
  exact State.setSlot_keeps (State.undrive_keeps (State.set_keeps (by assumption)))

theorem State.runKernel_keeps {z : State} {s : State} {x : Samples} {n : Nat} (hs : s.keeps z) :
    (State.runKernel s x n).keeps z := by
  unfold State.runKernel
  dsimp only
  apply keepsIte
  exact State.smc_keeps (by assumption)
  apply keepsIte
  exact keepsIte (State.saturated_keeps (State.set_keeps (State.smc_keeps (State.setSlot_keeps (by assumption))))) (State.smc_keeps (State.setSlot_keeps (by assumption)))
  apply keepsIte
  exact State.runLpc_keeps (by assumption)
  exact keepsIte (State.runSa_keeps (by assumption)) (keepsIte (State.runObs_keeps (by assumption)) (keepsIte (State.runSup_keeps (by assumption)) (by assumption)))

theorem State.runSlot_keeps {z : State} {x : Samples} {acc : State × Nat × Option Nat} {n : Nat} (hs : acc.1.keeps z) :
    (State.runSlot x acc n).1.keeps z := by
  unfold State.runSlot
  dsimp only
  split
  split
  dsimp only
  exact State.set_keeps (by assumption)
  dsimp only
  exact State.slotOff_keeps (by assumption)
  split
  dsimp only
  exact State.set_keeps (by assumption)
  dsimp only
  exact State.maxIn_keeps (State.set_keeps (State.runKernel_keeps (by assumption)))

theorem State.overrun_keeps {z : State} {s : State} {arg : Nat} (hs : s.keeps z) :
    (State.overrun s arg).keeps z := by
  unfold State.overrun
  exact State.raise_keeps (State.addSat_keeps (State.set_keeps (State.set_keeps (by assumption))))

theorem State.runSchedule_keeps {z : State} {s : State} {x : Samples} (hs : s.keeps z) :
    (State.runSchedule s x).keeps z := by
  unfold State.runSchedule
  dsimp only
  split
  apply State.overrun_keeps
  with_reducible apply keepsMk
  apply State.maxIn_keeps
  apply State.set_keeps
  apply keepsFoldFst
  exact fun _ _ _ => (State.runSlot_keeps (by assumption))
  dsimp only
  exact State.set_keeps (keepsMk (by assumption))
  with_reducible apply keepsMk
  apply State.maxIn_keeps
  apply State.set_keeps
  apply keepsFoldFst
  exact fun _ _ _ => (State.runSlot_keeps (by assumption))
  dsimp only
  exact State.set_keeps (keepsMk (by assumption))

theorem State.undoRun_keeps {z : State} {n : Nat} {s : State} {u : SlotPrev} (hs : s.keeps z) :
    (State.undoRun n s u).keeps z := by
  unfold State.undoRun
  dsimp only
  apply State.setSlot_keeps
  apply State.set_keeps
  apply keepsIte
  apply State.setSlot_keeps
  apply keepsIte
  split
  exact State.drive_keeps (State.set_keeps (State.setReg_keeps (State.setReg_keeps (State.setReg_keeps (State.setReg_keeps (State.setReg_keeps (by assumption)))))))
  exact State.undrive_keeps (State.set_keeps (State.setReg_keeps (State.setReg_keeps (State.setReg_keeps (State.setReg_keeps (State.setReg_keeps (by assumption)))))))
  apply keepsIte
  apply State.set_keeps
  split
  exact State.drive_keeps (State.set_keeps (State.setReg_keeps (State.setReg_keeps (State.setReg_keeps (State.setReg_keeps (State.setReg_keeps (by assumption)))))))
  exact State.undrive_keeps (State.set_keeps (State.setReg_keeps (State.setReg_keeps (State.setReg_keeps (State.setReg_keeps (State.setReg_keeps (by assumption)))))))
  apply State.set_keeps
  split
  exact State.drive_keeps (State.set_keeps (State.setReg_keeps (State.setReg_keeps (State.setReg_keeps (State.setReg_keeps (State.setReg_keeps (by assumption)))))))
  exact State.undrive_keeps (State.set_keeps (State.setReg_keeps (State.setReg_keeps (State.setReg_keeps (State.setReg_keeps (State.setReg_keeps (by assumption)))))))
  assumption

theorem State.abandonFrom_keeps {z : State} {s : State} {n : Nat} (hs : s.keeps z) :
    (State.abandonFrom s n).keeps z := by
  unfold State.abandonFrom
  dsimp only
  apply keepsFold
  exact fun _ _ _ => (State.undoRun_keeps (by assumption))
  exact keepsMk (by assumption)

theorem State.setTrace_keeps {z : State} {s : State} {n : Nat} {t : Trace} (hs : s.keeps z) :
    (State.setTrace s n t).keeps z := by
  unfold State.setTrace
  dsimp only
  exact keepsMk (by assumption)

theorem State.takeTrigger_keeps {z : State} {s : State} {n : Nat} (hs : s.keeps z) :
    (State.takeTrigger s n).keeps z := by
  unfold State.takeTrigger
  dsimp only
  exact State.set_keeps (State.set_keeps (State.setTrace_keeps (by assumption)))

theorem State.traceTick_keeps {z : State} {x : Samples} {outs : List (Nat × Word)} {s : State} {e : Nat × Bool} (hs : s.keeps z) :
    (State.traceTick x outs s e).keeps z := by
  unfold State.traceTick
  dsimp only
  apply keepsIte
  apply keepsIte
  apply keepsIte
  exact keepsIte (keepsIte (State.takeTrigger_keeps (by assumption)) (by assumption)) (State.setTrace_keeps (keepsIte (State.takeTrigger_keeps (by assumption)) (by assumption)))
  exact State.setTrace_keeps (keepsIte (State.takeTrigger_keeps (by assumption)) (by assumption))
  exact State.setTrace_keeps (keepsIte (State.takeTrigger_keeps (by assumption)) (by assumption))
  assumption

theorem State.traceTicks_keeps {z : State} {s : State} {x : Samples} {outs : List (Nat × Word)} (hs : s.keeps z) :
    (State.traceTicks s x outs).keeps z := by
  unfold State.traceTicks
  dsimp only
  with_reducible apply keepsMk
  apply keepsFold
  exact fun _ _ _ => (State.traceTick_keeps (by assumption))
  assumption

theorem State.ptpValidity_keeps {z : State} {s : State} {valid : Bool} (hs : s.keeps z) :
    (State.ptpValidity s valid).keeps z := by
  unfold State.ptpValidity
  dsimp only
  apply keepsIte
  exact State.set_keeps (State.set_keeps (State.setFlag_keeps (by assumption)))
  exact keepsIte (State.raise_keeps (keepsMk (State.set_keeps (State.set_keeps (State.set_keeps (State.setFlag_keeps (by assumption))))))) (State.setFlag_keeps (by assumption))

/-! ### AxOps -/

theorem State.when_keeps {z : State} {s : State} {b : Bool} {f : State → State} (hs : s.keeps z) (hf : ∀ s, s.keeps z → (f s).keeps z) :
    (State.when s b f).keeps z := by
  unfold State.when
  apply keepsIte
  apply hf
  assumption
  assumption

theorem State.setAx_keeps {z : State} {s : State} {a : Nat} {k : AxSt} (hs : s.keeps z) :
    (State.setAx s a k).keeps z := by
  unfold State.setAx
  exact keepsMk (by assumption)

theorem State.modAx_keeps {z : State} {s : State} {a : Nat} {f : AxSt → AxSt} (hs : s.keeps z) :
    (State.modAx s a f).keeps z := by
  unfold State.modAx
  exact State.setAx_keeps (by assumption)

theorem State.axStandAt_keeps {z : State} {s : State} {a : Nat} {x : Int} (hs : s.keeps z) :
    (State.axStandAt s a x).keeps z := by
  unfold State.axStandAt
  exact State.set_keeps (State.setInt_keeps (State.modAx_keeps (by assumption)))

theorem State.axReport_keeps {z : State} {s : State} {a : Nat} {op : Nat} {result : Nat} (hs : s.keeps z) :
    (State.axReport s a op result).keeps z := by
  unfold State.axReport
  exact State.modAx_keeps (State.set_keeps (State.set_keeps (State.incWrap_keeps (by assumption))))

theorem State.axResult_keeps {z : State} {s : State} {a : Nat} {result : Nat} (hs : s.keeps z) :
    (State.axResult s a result).keeps z := by
  unfold State.axResult
  exact keepsIte (State.modAx_keeps (State.set_keeps (by assumption))) (by assumption)

theorem State.axMove_keeps {z : State} {s : State} {a : Nat} {dest : Int} (hs : s.keeps z) :
    (State.axMove s a dest).keeps z := by
  unfold State.axMove
  dsimp only
  exact State.when_keeps (State.set_keeps (State.set_keeps (State.modAx_keeps (by assumption)))) (fun _ _ => (State.set_keeps (by assumption)))

theorem State.axHalt_keeps {z : State} {s : State} {a : Nat} {emerg : Bool} (hs : s.keeps z) :
    (State.axHalt s a emerg).keeps z := by
  unfold State.axHalt
  exact keepsIte (State.set_keeps (State.modAx_keeps (by assumption))) (keepsIte (State.set_keeps (State.set_keeps (State.modAx_keeps (by assumption)))) (by assumption))

theorem State.axOff_keeps {z : State} {s : State} {a : Nat} (hs : s.keeps z) :
    (State.axOff s a).keeps z := by
  unfold State.axOff
  exact State.set_keeps (State.set_keeps (State.set_keeps (State.modAx_keeps (by assumption))))

theorem State.axOn_keeps {z : State} {s : State} {a : Nat} (hs : s.keeps z) :
    (State.axOn s a).keeps z := by
  unfold State.axOn
  exact keepsIte (by assumption) (keepsIte (State.set_keeps (State.modAx_keeps (by assumption))) (State.modAx_keeps (by assumption)))

theorem State.axHaltOff_keeps {z : State} {s : State} {a : Nat} {emerg : Bool} (hs : s.keeps z) :
    (State.axHaltOff s a emerg).keeps z := by
  unfold State.axHaltOff
  exact keepsIte (State.modAx_keeps (State.axHalt_keeps (by assumption))) (State.axOff_keeps (by assumption))

theorem State.axHomeStart_keeps {z : State} {s : State} {a : Nat} (hs : s.keeps z) :
    (State.axHomeStart s a).keeps z := by
  unfold State.axHomeStart
  dsimp only
  exact State.set_keeps (State.setFlag_keeps (State.set_keeps (State.modAx_keeps (by assumption))))

theorem State.homeStep_keeps {z : State} {s : State} {a : Nat} {at_ : HomeAt} {dest : Option Int} (hs : s.keeps z) :
    (State.homeStep s a at_ dest).keeps z := by
  unfold State.homeStep
  exact State.set_keeps (State.modAx_keeps (by assumption))

theorem State.switchTick_keeps {z : State} {x : Samples} {s : State} {a : Nat} (hs : s.keeps z) :
    (State.switchTick x s a).keeps z := by
  unfold State.switchTick
  dsimp only
  split
  assumption
  exact State.set_keeps (State.set_keeps (State.modAx_keeps (by assumption)))

theorem State.homeReference_keeps {z : State} {s : State} {a : Nat} (hs : s.keeps z) :
    (State.homeReference s a).keeps z := by
  unfold State.homeReference
  dsimp only
  exact State.axResult_keeps (State.set_keeps (State.set_keeps (State.modAx_keeps (State.axStandAt_keeps (by assumption)))))

theorem State.axGear_keeps {z : State} {s : State} {a : Nat} (hs : s.keeps z) :
    (State.axGear s a).keeps z := by
  unfold State.axGear
  dsimp only
  exact State.set_keeps (State.set_keeps (State.set_keeps (State.modAx_keeps (by assumption))))

theorem State.gearRebase_keeps {z : State} {s : State} {a : Nat} (hs : s.keeps z) :
    (State.gearRebase s a).keeps z := by
  unfold State.gearRebase
  exact State.modAx_keeps (by assumption)

theorem State.sledPark_keeps {z : State} {s : State} {n : Nat} (hs : s.keeps z) :
    (State.sledPark s n).keeps z := by
  unfold State.sledPark
  exact keepsIte (by assumption) (State.axMove_keeps (State.set_keeps (by assumption)))

theorem State.axLatch_keeps {z : State} {s : State} {a : Nat} (hs : s.keeps z) :
    (State.axLatch s a).keeps z := by
  unfold State.axLatch
  dsimp only
  exact keepsIte (by assumption) (keepsIte (State.set_keeps (State.modAx_keeps (by assumption))) (State.modAx_keeps (by assumption)))

theorem State.axStrong_keeps {z : State} {s : State} {a : Nat} (hs : s.keeps z) :
    (State.axStrong s a).keeps z := by
  unfold State.axStrong
  dsimp only
  exact keepsIte (by assumption) (keepsIte (State.set_keeps (by assumption)) (keepsIte (State.set_keeps (by assumption)) (keepsIte (State.set_keeps (by assumption)) (by assumption))))

theorem State.axTick_keeps {z : State} {x : Samples} {s0 : State} {a : Nat} (hs : s0.keeps z) :
    (State.axTick x s0 a).keeps z := by
  unfold State.axTick
  dsimp only
  apply keepsIte
  exact State.axStrong_keeps (State.modAx_keeps (State.axLatch_keeps (State.switchTick_keeps (by assumption))))
  apply keepsIte
  exact State.axLatch_keeps (State.switchTick_keeps (by assumption))
  apply keepsIte
  exact State.axStrong_keeps (State.setInt_keeps (State.setInt_keeps (State.modAx_keeps (State.axLatch_keeps (State.switchTick_keeps (by assumption))))))
  apply keepsIte
  exact State.axStrong_keeps (State.setInt_keeps (State.setInt_keeps (State.modAx_keeps (State.axLatch_keeps (State.switchTick_keeps (by assumption))))))
  apply keepsIte
  apply State.modAx_keeps
  exact State.axStrong_keeps (State.setInt_keeps (State.setInt_keeps (State.modAx_keeps (State.modAx_keeps (State.axLatch_keeps (State.switchTick_keeps (by assumption)))))))
  exact State.axStrong_keeps (State.axLatch_keeps (State.switchTick_keeps (by assumption)))

theorem State.stepperTick_keeps {z : State} {s : State} {a : Nat} (hs : s.keeps z) :
    (State.stepperTick s a).keeps z := by
  unfold State.stepperTick
  dsimp only
  exact State.modAx_keeps (by assumption)

theorem State.followTick_keeps {z : State} {s : State} {a : Nat} (hs : s.keeps z) :
    (State.followTick s a).keeps z := by
  unfold State.followTick
  dsimp only
  split
  exact keepsIte (State.axStrong_keeps (State.setInt_keeps (State.setInt_keeps (State.modAx_keeps (by assumption))))) (by assumption)
  assumption

theorem State.writeRatio_keeps {z : State} {s : State} {a : Nat} {v : Word} (hs : s.keeps z) :
    (State.writeRatio s a v).keeps z := by
  unfold State.writeRatio
  exact keepsIte (State.setReg_keeps (State.gearRebase_keeps (by assumption))) (State.setReg_keeps (by assumption))

theorem State.axArrive_keeps {z : State} {s : State} {a : Nat} (hs : s.keeps z) :
    (State.axArrive s a).keeps z := by
  unfold State.axArrive
  dsimp only
  split
  apply keepsIte
  exact State.axOff_keeps (State.axResult_keeps (State.set_keeps (State.set_keeps (State.modAx_keeps (State.axStandAt_keeps (by assumption))))))
  apply keepsIte
  exact State.axGear_keeps (State.axResult_keeps (State.set_keeps (State.set_keeps (State.modAx_keeps (State.axStandAt_keeps (by assumption))))))
  exact State.set_keeps (State.modAx_keeps (State.axResult_keeps (State.set_keeps (State.set_keeps (State.modAx_keeps (State.axStandAt_keeps (by assumption)))))))
  exact keepsIte (State.homeStep_keeps (State.modAx_keeps (State.axStandAt_keeps (by assumption)))) (State.homeStep_keeps (State.modAx_keeps (State.axStandAt_keeps (by assumption))))
  exact State.set_keeps (State.set_keeps (State.modAx_keeps (State.axStandAt_keeps (by assumption))))
  exact State.homeStep_keeps (State.axStandAt_keeps (by assumption))
  assumption

theorem State.axLoseHome_keeps {z : State} {s : State} {a : Nat} (hs : s.keeps z) :
    (State.axLoseHome s a).keeps z := by
  unfold State.axLoseHome
  exact State.set_keeps (by assumption)

/-! ### PuOps -/

theorem State.setPu_keeps {z : State} {s : State} {n : Nat} {k : PuSt} (hs : s.keeps z) :
    (State.setPu s n k).keeps z := by
  unfold State.setPu
  exact keepsMk (by assumption)

theorem State.modPu_keeps {z : State} {s : State} {n : Nat} {f : PuSt → PuSt} (hs : s.keeps z) :
    (State.modPu s n f).keeps z := by
  unfold State.modPu
  exact State.setPu_keeps (by assumption)

theorem State.puFault_keeps {z : State} {s : State} {n : Nat} {kind : Nat} {arg : Nat} (hs : s.keeps z) :
    (State.puFault s n kind arg).keeps z := by
  unfold State.puFault
  exact State.raise_keeps (by assumption)

theorem State.lasers_keeps {z : State} {s : State} {n : Nat} (hs : s.keeps z) :
    (State.lasers s n).keeps z := by
  unfold State.lasers
  dsimp only
  exact State.setFlag_keeps (State.setFlag_keeps (by assumption))

theorem State.prevLost_keeps {z : State} {s : State} {n : Nat} (hs : s.keeps z) :
    (State.prevLost s n).keeps z := by
  unfold State.prevLost
  dsimp only
  exact keepsMk (by assumption)

theorem State.dropGate_keeps {z : State} {s : State} {n : Nat} (hs : s.keeps z) :
    (State.dropGate s n).keeps z := by
  unfold State.dropGate
  exact State.set_keeps (State.when_keeps (by assumption) (fun _ _ => (State.modPu_keeps (by assumption))))

theorem State.releaseSlots_keeps {z : State} {s : State} {n : Nat} (hs : s.keeps z) :
    (State.releaseSlots s n).keeps z := by
  unfold State.releaseSlots
  exact State.withOut_keeps (State.withOut_keeps (by assumption))

theorem State.setCur_keeps {z : State} {s : State} {n : Nat} {layer : Nat} (hs : s.keeps z) :
    (State.setCur s n layer).keeps z := by
  unfold State.setCur
  exact State.set_keeps (State.set_keeps (State.set_keeps (State.set_keeps (State.set_keeps (State.set_keeps (by assumption))))))

theorem State.setSa_keeps {z : State} {s : State} {n : Nat} {layer : Nat} (hs : s.keeps z) :
    (State.setSa s n layer).keeps z := by
  unfold State.setSa
  exact keepsIte (by assumption) (State.modPu_keeps (State.set_keeps (State.set_keeps (by assumption))))

theorem State.endOp_keeps {z : State} {s : State} {n : Nat} {result : Nat} (hs : s.keeps z) :
    (State.endOp s n result).keeps z := by
  unfold State.endOp
  dsimp only
  apply State.modPu_keeps
  exact State.releaseSlots_keeps (State.when_keeps (State.when_keeps (by assumption) (fun _ _ => (State.set_keeps (by assumption)))) (fun _ _ => (State.set_keeps (by assumption))))

theorem State.puRest_keeps {z : State} {s : State} {n : Nat} {st : Nat} (hs : s.keeps z) :
    (State.puRest s n st).keeps z := by
  unfold State.puRest
  dsimp only
  apply State.lasers_keeps
  apply State.when_keeps
  apply State.sledPark_keeps
  apply State.set_keeps
  apply State.set_keeps
  exact State.set_keeps (State.clearOut_keeps (State.clearOut_keeps (State.clearOut_keeps (State.clearOut_keeps (State.set_keeps (State.dropGate_keeps (by assumption)))))))
  exact fun _ _ => (State.setCur_keeps (by assumption))

theorem State.puFail_keeps {z : State} {s : State} {n : Nat} (hs : s.keeps z) :
    (State.puFail s n).keeps z := by
  unfold State.puFail
  exact State.puRest_keeps (State.endOp_keeps (by assumption))

theorem State.puTurnOff_keeps {z : State} {s : State} {n : Nat} (hs : s.keeps z) :
    (State.puTurnOff s n).keeps z := by
  unfold State.puTurnOff
  exact keepsIte (by assumption) (State.puRest_keeps (State.endOp_keeps (by assumption)))

theorem State.puPark_keeps {z : State} {s : State} {n : Nat} {result : Nat} (hs : s.keeps z) :
    (State.puPark s n result).keeps z := by
  unfold State.puPark
  exact keepsIte (by assumption) (State.puRest_keeps (State.endOp_keeps (by assumption)))

theorem State.enterReacq_keeps {z : State} {s : State} {n : Nat} (hs : s.keeps z) :
    (State.enterReacq s n).keeps z := by
  unfold State.enterReacq
  dsimp only
  exact State.lasers_keeps (State.modPu_keeps (State.clearOut_keeps (State.addSat_keeps (State.set_keeps (State.endOp_keeps (by assumption))))))

theorem State.inhibit_keeps {z : State} {s : State} {n : Nat} {causes : Nat} (hs : s.keeps z) :
    (State.inhibit s n causes).keeps z := by
  unfold State.inhibit
  dsimp only
  apply keepsIte
  apply State.when_keeps
  apply State.puFault_keeps
  apply State.capture_keeps
  exact State.setReg_keeps (State.addSat_keeps (State.set_keeps (State.modPu_keeps (State.dropGate_keeps (State.modPu_keeps (State.set_keeps (State.set_keeps (by assumption))))))))
  exact fun _ _ => (State.puFault_keeps (by assumption))
  exact State.modPu_keeps (State.set_keeps (State.set_keeps (by assumption)))

theorem State.startAcquire_keeps {z : State} {s : State} {n : Nat} {layer : Nat} {turn : Nat} {byCmd : Bool} (hs : s.keeps z) :
    (State.startAcquire s n layer turn byCmd).keeps z := by
  unfold State.startAcquire
  dsimp only
  exact State.lasers_keeps (State.modPu_keeps (State.enableOut_keeps (State.setSa_keeps (State.set_keeps (State.set_keeps (by assumption))))))

theorem State.jumpAttempt_keeps {z : State} {s : State} {n : Nat} {layer : Nat} (hs : s.keeps z) :
    (State.jumpAttempt s n layer).keeps z := by
  unfold State.jumpAttempt
  dsimp only
  apply State.set_keeps
  apply State.modPu_keeps
  exact State.withOut_keeps (State.withOut_keeps (State.clearOut_keeps (State.set_keeps (State.setSa_keeps (State.set_keeps (State.set_keeps (State.prevLost_keeps (by assumption))))))))

theorem State.startJump_keeps {z : State} {s : State} {n : Nat} {layer : Nat} {turn : Nat} {byCmd : Bool} {acqJump : Bool} (hs : s.keeps z) :
    (State.startJump s n layer turn byCmd acqJump).keeps z := by
  unfold State.startJump
  exact State.modPu_keeps (State.set_keeps (State.incWrap_keeps (State.jumpAttempt_keeps (by assumption))))

theorem State.jumpStat_keeps {z : State} {s : State} {n : Nat} {outcome : Nat} (hs : s.keeps z) :
    (State.jumpStat s n outcome).keeps z := by
  unfold State.jumpStat
  exact State.set_keeps (State.set_keeps (by assumption))

theorem State.seekMotion_keeps {z : State} {s : State} {n : Nat} {turn : Nat} (hs : s.keeps z) :
    (State.seekMotion s n turn).keeps z := by
  unfold State.seekMotion
  dsimp only
  apply State.when_keeps
  apply State.when_keeps
  exact State.withOut_keeps (State.modPu_keeps (by assumption))
  exact fun _ _ => (State.modAx_keeps (State.axMove_keeps (State.set_keeps (State.withOut_keeps (by assumption)))))
  exact fun _ _ => (State.puFault_keeps (by assumption))

theorem State.sledThere_keeps {z : State} {s : State} {n : Nat} (hs : s.keeps z) :
    (State.sledThere s n).keeps z := by
  unfold State.sledThere
  exact keepsIte (State.seekMotion_keeps (State.withOut_keeps (State.set_keeps (by assumption)))) (by assumption)

theorem State.seekEnd_keeps {z : State} {s : State} {n : Nat} {done : State → State} (hs : s.keeps z) (hf : ∀ s, s.keeps z → (done s).keeps z) :
    (State.seekEnd s n done).keeps z := by
  unfold State.seekEnd
  dsimp only
  apply keepsIte
  assumption
  apply keepsIte
  exact keepsIte (State.enterReacq_keeps (State.puFault_keeps (State.set_keeps (by assumption)))) (State.seekMotion_keeps (State.modPu_keeps (State.set_keeps (by assumption))))
  apply keepsIte
  apply hf
  assumption
  assumption

theorem State.startSeek_keeps {z : State} {s : State} {n : Nat} {turn : Nat} {byCmd : Bool} (hs : s.keeps z) :
    (State.startSeek s n turn byCmd).keeps z := by
  unfold State.startSeek
  dsimp only
  exact State.seekMotion_keeps (State.enableOut_keeps (State.modPu_keeps (State.set_keeps (State.prevLost_keeps (by assumption)))))

theorem State.orderMode_keeps {z : State} {s : State} {n : Nat} {write : Bool} {byCmd : Bool} (hs : s.keeps z) :
    (State.orderMode s n write byCmd).keeps z := by
  unfold State.orderMode
  dsimp only
  exact State.modPu_keeps (State.set_keeps (State.set_keeps (State.set_keeps (State.setReg_keeps (by assumption)))))

theorem State.puBegin_keeps {z : State} {s0 : State} {n : Nat} {op : Nat} {layer : Nat} {turn : Nat} (hs : s0.keeps z) :
    (State.puBegin s0 n op layer turn).keeps z := by
  unfold State.puBegin
  dsimp only
  apply keepsIte
  apply keepsIte
  exact State.set_keeps (State.set_keeps (State.set_keeps (State.set_keeps (by assumption))))
  exact keepsIte (State.set_keeps (State.startAcquire_keeps (State.set_keeps (State.set_keeps (by assumption))))) (State.set_keeps (State.set_keeps (State.set_keeps (by assumption))))
  apply keepsIte
  apply keepsIte
  exact State.set_keeps (State.set_keeps (State.set_keeps (State.set_keeps (by assumption))))
  exact keepsIte (State.set_keeps (State.startJump_keeps (State.set_keeps (State.set_keeps (by assumption))))) (State.set_keeps (State.set_keeps (State.set_keeps (by assumption))))
  apply keepsIte
  apply keepsIte
  exact State.set_keeps (State.set_keeps (State.set_keeps (State.set_keeps (by assumption))))
  exact keepsIte (State.set_keeps (State.startSeek_keeps (State.set_keeps (State.set_keeps (by assumption))))) (State.set_keeps (State.set_keeps (State.set_keeps (by assumption))))
  apply keepsIte
  exact State.set_keeps (State.set_keeps (State.set_keeps (State.set_keeps (by assumption))))
  apply keepsIte
  apply keepsIte
  exact State.set_keeps (State.set_keeps (State.set_keeps (by assumption)))
  exact State.set_keeps (State.puRest_keeps (State.endOp_keeps (State.set_keeps (State.set_keeps (by assumption)))))
  exact keepsIte (State.set_keeps (State.orderMode_keeps (State.set_keeps (State.set_keeps (by assumption))))) (State.set_keeps (State.set_keeps (State.set_keeps (by assumption))))

theorem State.puCommand_keeps {z : State} {s : State} {n : Nat} {op : Nat} {layer : Nat} {turn : Nat} (hs : s.keeps z) :
    (State.puCommand s n op layer turn).keeps z := by
  unfold State.puCommand
  dsimp only
  apply keepsIte
  exact State.set_keeps (State.set_keeps (State.incWrap_keeps (by assumption)))
  apply keepsIte
  exact State.modPu_keeps (State.endOp_keeps (State.when_keeps (State.incWrap_keeps (by assumption)) (fun _ _ => (State.jumpStat_keeps (by assumption)))))
  exact keepsIte (State.modPu_keeps (State.incWrap_keeps (by assumption))) (State.puBegin_keeps (State.incWrap_keeps (by assumption)))

theorem State.spTick_keeps {z : State} {s : State} {n : Nat} (hs : s.keeps z) :
    (State.spTick s n).keeps z := by
  unfold State.spTick
  dsimp only
  exact keepsIte (by assumption) (State.withOut_keeps (State.modPu_keeps (by assumption)))

theorem State.puAdvance_keeps {z : State} {s : State} {n : Nat} (hs : s.keeps z) :
    (State.puAdvance s n).keeps z := by
  unfold State.puAdvance
  dsimp only
  apply keepsIte
  exact State.set_keeps (State.set_keeps (by assumption))
  apply keepsIte
  apply keepsIte
  exact State.modPu_keeps (State.enableOut_keeps (State.set_keeps (State.set_keeps (by assumption))))
  exact State.seekMotion_keeps (State.modPu_keeps (State.enableOut_keeps (State.set_keeps (State.set_keeps (by assumption)))))
  apply keepsIte
  exact State.seekMotion_keeps (State.modPu_keeps (State.withOut_keeps (State.withOut_keeps (State.set_keeps (by assumption)))))
  exact keepsIte (State.seekMotion_keeps (State.modPu_keeps (State.enableOut_keeps (State.set_keeps (by assumption))))) (by assumption)

theorem State.holdTick_keeps {z : State} {s : State} {n : Nat} (hs : s.keeps z) :
    (State.holdTick s n).keeps z := by
  unfold State.holdTick
  dsimp only
  apply State.when_keeps
  exact State.when_keeps (State.setFlag_keeps (State.modPu_keeps (by assumption))) (fun _ _ => (State.maxIn_keeps (by assumption)))
  exact fun _ _ => (State.dropGate_keeps (by assumption))

theorem State.depthTick_keeps {z : State} {s : State} {n : Nat} {rise : Bool} (hs : s.keeps z) :
    (State.depthTick s n rise).keeps z := by
  unfold State.depthTick
  dsimp only
  exact State.modPu_keeps (keepsIte (by assumption) (State.set_keeps (State.modPu_keeps (by assumption))))

theorem State.rampTick_keeps {z : State} {s : State} {n : Nat} (hs : s.keeps z) :
    (State.rampTick s n).keeps z := by
  unfold State.rampTick
  dsimp only
  exact State.modPu_keeps (keepsIte (State.drive_keeps (by assumption)) (keepsIte (State.undrive_keeps (by assumption)) (by assumption)))

theorem State.measureTick_keeps {z : State} {x : Samples} {s : State} {n : Nat} (hs : s.keeps z) :
    (State.measureTick x s n).keeps z := by
  unfold State.measureTick
  dsimp only
  exact State.modPu_keeps (State.modPu_keeps (keepsIte (State.depthTick_keeps (by assumption)) (by assumption)))

theorem State.monitorTick_keeps {z : State} {x : Samples} {s : State} {n : Nat} (hs : s.keeps z) :
    (State.monitorTick x s n).keeps z := by
  unfold State.monitorTick
  dsimp only
  exact State.modPu_keeps (State.setFlag_keeps (State.setFlag_keeps (State.set_keeps (State.set_keeps (State.set_keeps (by assumption))))))

theorem State.inhibitTick_keeps {z : State} {x : Samples} {s : State} {n : Nat} (hs : s.keeps z) :
    (State.inhibitTick x s n).keeps z := by
  unfold State.inhibitTick
  dsimp only
  exact keepsIte (State.modPu_keeps (by assumption)) (State.inhibit_keeps (State.modPu_keeps (by assumption)))

theorem State.puTick_keeps {z : State} {x : Samples} {s0 : State} {n : Nat} (hs : s0.keeps z) :
    (State.puTick x s0 n).keeps z := by
  unfold State.puTick
  dsimp only
  apply State.when_keeps
  apply State.setFlag_keeps
  apply State.inhibitTick_keeps
  apply State.spTick_keeps
  apply State.puAdvance_keeps
  apply State.sledThere_keeps
  apply State.modPu_keeps
  apply State.measureTick_keeps
  apply State.lasers_keeps
  apply State.holdTick_keeps
  apply State.monitorTick_keeps
  apply keepsIte
  apply State.puRest_keeps
  split
  apply State.puBegin_keeps
  apply State.modPu_keeps
  split
  exact keepsIte (State.jumpAttempt_keeps (State.setCur_keeps (State.modPu_keeps (by assumption)))) (State.setCur_keeps (State.modPu_keeps (by assumption)))
  assumption
  split
  exact keepsIte (State.jumpAttempt_keeps (State.setCur_keeps (State.modPu_keeps (by assumption)))) (State.setCur_keeps (State.modPu_keeps (by assumption)))
  assumption
  split
  apply State.puBegin_keeps
  apply State.modPu_keeps
  split
  exact keepsIte (State.jumpAttempt_keeps (State.setCur_keeps (State.modPu_keeps (by assumption)))) (State.setCur_keeps (State.modPu_keeps (by assumption)))
  assumption
  split
  exact keepsIte (State.jumpAttempt_keeps (State.setCur_keeps (State.modPu_keeps (by assumption)))) (State.setCur_keeps (State.modPu_keeps (by assumption)))
  assumption
  exact fun _ _ => (State.set_keeps (by assumption))

/-! ### SpnOps -/

theorem State.setStn_keeps {z : State} {s : State} {st : Nat} {k : StnSt} (hs : s.keeps z) :
    (State.setStn s st k).keeps z := by
  unfold State.setStn
  exact keepsMk (by assumption)

theorem State.modStn_keeps {z : State} {s : State} {st : Nat} {f : StnSt → StnSt} (hs : s.keeps z) :
    (State.modStn s st f).keeps z := by
  unfold State.modStn
  exact State.setStn_keeps (by assumption)

theorem State.spnFault_keeps {z : State} {s : State} {st : Nat} {kind : Nat} {arg : Nat} (hs : s.keeps z) :
    (State.spnFault s st kind arg).keeps z := by
  unfold State.spnFault
  exact State.raise_keeps (by assumption)

theorem State.refreshSource_keeps {z : State} {s : State} {st : Nat} (hs : s.keeps z) :
    (State.refreshSource s st).keeps z := by
  unfold State.refreshSource
  dsimp only
  exact keepsIte (State.set_keeps (by assumption)) (by assumption)

theorem State.spnMask_keeps {z : State} {s : State} {st : Nat} {b : Bool} (hs : s.keeps z) :
    (State.spnMask s st b).keeps z := by
  unfold State.spnMask
  exact State.withOut_keeps (by assumption)

theorem State.spnSetPoint_keeps {z : State} {s : State} {st : Nat} {v : Rat} (hs : s.keeps z) :
    (State.spnSetPoint s st v).keeps z := by
  unfold State.spnSetPoint
  exact State.withOut_keeps (by assumption)

theorem State.workMeasured_keeps {z : State} {s : State} {st : Nat} (hs : s.keeps z) :
    (State.workMeasured s st).keeps z := by
  unfold State.workMeasured
  exact State.withOut_keeps (by assumption)

theorem State.spnReport_keeps {z : State} {s : State} {st : Nat} {op : Nat} {result : Nat} (hs : s.keeps z) :
    (State.spnReport s st op result).keeps z := by
  unfold State.spnReport
  exact State.modStn_keeps (State.set_keeps (State.set_keeps (State.incWrap_keeps (by assumption))))

theorem State.spnResult_keeps {z : State} {s : State} {st : Nat} {result : Nat} (hs : s.keeps z) :
    (State.spnResult s st result).keeps z := by
  unfold State.spnResult
  exact keepsIte (State.modStn_keeps (State.set_keeps (by assumption))) (by assumption)

theorem State.bridgeOff_keeps {z : State} {s : State} {st : Nat} (hs : s.keeps z) :
    (State.bridgeOff s st).keeps z := by
  unfold State.bridgeOff
  exact State.clearOut_keeps (by assumption)

theorem State.spnOff_keeps {z : State} {s : State} {st : Nat} (hs : s.keeps z) :
    (State.spnOff s st).keeps z := by
  unfold State.spnOff
  exact State.modStn_keeps (State.set_keeps (State.set_keeps (State.set_keeps (State.set_keeps (State.set_keeps (State.bridgeOff_keeps (by assumption)))))))

theorem State.spinDown_keeps {z : State} {s : State} {st : Nat} (hs : s.keeps z) :
    (State.spinDown s st).keeps z := by
  unfold State.spinDown
  apply State.refreshSource_keeps
  exact State.modStn_keeps (State.spnSetPoint_keeps (State.spnMask_keeps (State.set_keeps (State.set_keeps (State.set_keeps (State.set_keeps (by assumption)))))))

theorem State.discIndexDue_keeps {z : State} {s : State} {st : Nat} (hs : s.keeps z) :
    (State.discIndexDue s st).keeps z := by
  unfold State.discIndexDue
  dsimp only
  exact keepsMk (by assumption)

theorem State.spinAborted_keeps {z : State} {s : State} {st : Nat} (hs : s.keeps z) :
    (State.spinAborted s st).keeps z := by
  unfold State.spinAborted
  exact keepsIte (State.spnResult_keeps (by assumption)) (by assumption)

theorem State.spnStop_keeps {z : State} {s0 : State} {st : Nat} (hs : s0.keeps z) :
    (State.spnStop s0 st).keeps z := by
  unfold State.spnStop
  dsimp only
  apply keepsIte
  exact State.spnOff_keeps (State.modStn_keeps (State.spinAborted_keeps (State.discIndexDue_keeps (by assumption))))
  apply keepsIte
  exact State.spinDown_keeps (State.modStn_keeps (State.spinAborted_keeps (State.discIndexDue_keeps (by assumption))))
  exact State.modStn_keeps (State.spinAborted_keeps (State.discIndexDue_keeps (by assumption)))

theorem State.spnCoast_keeps {z : State} {s : State} {st : Nat} (hs : s.keeps z) :
    (State.spnCoast s st).keeps z := by
  unfold State.spnCoast
  exact State.modStn_keeps (State.set_keeps (State.set_keeps (State.set_keeps (State.set_keeps (State.bridgeOff_keeps (by assumption))))))

theorem State.exchangeRefused_keeps {z : State} {s : State} {st : Nat} (hs : s.keeps z) :
    (State.exchangeRefused s st).keeps z := by
  unfold State.exchangeRefused
  dsimp only
  exact keepsMk (keepsIte (State.set_keeps (by assumption)) (by assumption))

theorem State.enterAlign_keeps {z : State} {s : State} {st : Nat} {target : Nat} (hs : s.keeps z) :
    (State.enterAlign s st target).keeps z := by
  unfold State.enterAlign
  apply State.modStn_keeps
  exact State.spnMask_keeps (State.set_keeps (State.set_keeps (State.set_keeps (State.set_keeps (State.set_keeps (State.incWrap_keeps (State.set_keeps (by assumption))))))))

theorem State.startRotor_keeps {z : State} {s : State} {st : Nat} {angle : Nat} (hs : s.keeps z) :
    (State.startRotor s st angle).keeps z := by
  unfold State.startRotor
  apply State.refreshSource_keeps
  exact State.modStn_keeps (State.spnSetPoint_keeps (State.withOut_keeps (State.enableOut_keeps (State.set_keeps (State.set_keeps (State.set_keeps (by assumption)))))))

theorem State.homeSleds_keeps {z : State} {s : State} {st : Nat} (hs : s.keeps z) :
    (State.homeSleds s st).keeps z := by
  unfold State.homeSleds
  apply keepsFold
  exact fun _ _ _ => (keepsIte (by assumption) (State.axHomeStart_keeps (by assumption)))
  assumption

theorem State.sledHomedNow_keeps {z : State} {s : State} {st : Nat} (hs : s.keeps z) :
    (State.sledHomedNow s st).keeps z := by
  unfold State.sledHomedNow
  split
  exact keepsIte (State.enterAlign_keeps (by assumption)) (by assumption)
  assumption

theorem State.retarget_keeps {z : State} {s : State} {st : Nat} {target : Nat} (hs : s.keeps z) :
    (State.retarget s st target).keeps z := by
  unfold State.retarget
  apply State.refreshSource_keeps
  exact State.modStn_keeps (State.enableOut_keeps (State.spnSetPoint_keeps (State.set_keeps (State.set_keeps (State.set_keeps (State.set_keeps (by assumption)))))))

theorem State.spin_keeps {z : State} {s0 : State} {st : Nat} {target : Nat} (hs : s0.keeps z) :
    (State.spin s0 st target).keeps z := by
  unfold State.spin
  dsimp only
  apply keepsIte
  apply keepsIte
  exact State.enterAlign_keeps (State.modStn_keeps (State.exchangeRefused_keeps (by assumption)))
  exact State.homeSleds_keeps (State.modStn_keeps (State.exchangeRefused_keeps (by assumption)))
  exact State.retarget_keeps (State.exchangeRefused_keeps (by assumption))

theorem State.dropStationGates_keeps {z : State} {s : State} {st : Nat} (hs : s.keeps z) :
    (State.dropStationGates s st).keeps z := by
  unfold State.dropStationGates
  exact State.dropGate_keeps (State.dropGate_keeps (by assumption))

theorem State.rotorLost_keeps {z : State} {s : State} {st : Nat} (hs : s.keeps z) :
    (State.rotorLost s st).keeps z := by
  unfold State.rotorLost
  dsimp only
  apply State.modStn_keeps
  apply State.spnResult_keeps
  apply State.set_keeps
  apply State.set_keeps
  apply State.set_keeps
  apply State.set_keeps
  exact State.puPark_keeps (State.puPark_keeps (State.dropStationGates_keeps (State.bridgeOff_keeps (State.set_keeps (State.set_keeps (State.spnFault_keeps (by assumption)))))))

theorem State.spnUnusable_keeps {z : State} {s : State} {st : Nat} {forGood : Bool} (hs : s.keeps z) :
    (State.spnUnusable s st forGood).keeps z := by
  unfold State.spnUnusable
  exact State.modStn_keeps (State.spnResult_keeps (State.set_keeps (State.spnOff_keeps (by assumption))))

theorem State.marUnlock_keeps {z : State} {s : State} {st : Nat} (hs : s.keeps z) :
    (State.marUnlock s st).keeps z := by
  unfold State.marUnlock
  dsimp only
  exact keepsIte (State.when_keeps (State.set_keeps (State.modStn_keeps (by assumption))) (fun _ _ => (State.spnFault_keeps (by assumption)))) (State.modStn_keeps (by assumption))

theorem State.marTick_keeps {z : State} {s : State} {st : Nat} (hs : s.keeps z) :
    (State.marTick s st).keeps z := by
  unfold State.marTick
  dsimp only
  exact keepsIte (State.setFlag_keeps (by assumption)) (State.marUnlock_keeps (State.modStn_keeps (State.setFlag_keeps (by assumption))))

theorem State.alignTick_keeps {z : State} {s : State} {st : Nat} {l : List LegRead} {now : Vector Int 3} (hs : s.keeps z) :
    (State.alignTick s st l now).keeps z := by
  unfold State.alignTick
  dsimp only
  exact State.modStn_keeps (by assumption)

theorem State.phaseTick_keeps {z : State} {x : Samples} {s : State} {st : Nat} (hs : s.keeps z) :
    (State.phaseTick x s st).keeps z := by
  unfold State.phaseTick
  dsimp only
  exact keepsIte (State.alignTick_keeps (by assumption)) (State.modStn_keeps (by assumption))

theorem State.marPulse_keeps {z : State} {s : State} {frac : Nat} {st : Nat} (hs : s.keeps z) :
    (State.marPulse s frac st).keeps z := by
  unfold State.marPulse
  dsimp only
  split
  assumption
  apply keepsIte
  apply keepsIte
  exact State.when_keeps (State.modStn_keeps (State.modStn_keeps (State.setInt_keeps (by assumption)))) (fun _ _ => (State.set_keeps (by assumption)))
  exact keepsIte (State.marUnlock_keeps (State.modStn_keeps (State.setInt_keeps (by assumption)))) (State.modStn_keeps (State.modStn_keeps (State.setInt_keeps (by assumption))))
  exact State.marUnlock_keeps (State.modStn_keeps (State.setInt_keeps (by assumption)))

theorem State.brakeTick_keeps {z : State} {s : State} {st : Nat} (hs : s.keeps z) :
    (State.brakeTick s st).keeps z := by
  unfold State.brakeTick
  dsimp only
  apply State.when_keeps
  apply State.when_keeps
  exact State.when_keeps (State.set_keeps (by assumption)) (fun _ _ => (State.capture_keeps (State.addSat_keeps (by assumption))))
  exact fun _ _ => (State.dropStationGates_keeps (by assumption))
  exact fun _ _ => (State.workMeasured_keeps (by assumption))

theorem State.obsTick_keeps {z : State} {x : Samples} {s : State} {st : Nat} (hs : s.keeps z) :
    (State.obsTick x s st).keeps z := by
  unfold State.obsTick
  dsimp only
  exact State.setFlag_keeps (State.modStn_keeps (State.set_keeps (by assumption)))

theorem State.keTick_keeps {z : State} {x : Samples} {s : State} {st : Nat} (hs : s.keeps z) :
    (State.keTick x s st).keeps z := by
  unfold State.keTick
  dsimp only
  exact State.modStn_keeps (by assumption)

theorem State.spnCounts_keeps {z : State} {x : Samples} {s : State} {st : Nat} (hs : s.keeps z) :
    (State.spnCounts x s st).keeps z := by
  unfold State.spnCounts
  dsimp only
  split
  exact keepsIte (State.startRotor_keeps (State.modStn_keeps (State.setFlag_keeps (by assumption)))) (State.modStn_keeps (State.setFlag_keeps (by assumption)))
  exact State.modStn_keeps (State.setFlag_keeps (by assumption))

theorem State.spnTick_keeps {z : State} {x : Samples} {s0 : State} {st : Nat} (hs : s0.keeps z) :
    (State.spnTick x s0 st).keeps z := by
  unfold State.spnTick
  dsimp only
  apply State.keTick_keeps
  apply State.marTick_keeps
  apply State.brakeTick_keeps
  apply State.modStn_keeps
  apply State.when_keeps
  split
  apply State.setFlag_keeps
  apply State.when_keeps
  apply State.when_keeps
  exact State.refreshSource_keeps (State.spnCounts_keeps (State.setInt_keeps (State.obsTick_keeps (State.set_keeps (State.set_keeps (by assumption))))))
  exact fun _ _ => (State.set_keeps (by assumption))
  exact fun _ _ => (State.set_keeps (by assumption))
  apply keepsIte
  apply State.spnMask_keeps
  apply State.spnSetPoint_keeps
  apply State.setFlag_keeps
  apply State.when_keeps
  apply State.when_keeps
  exact State.refreshSource_keeps (State.spnCounts_keeps (State.setInt_keeps (State.obsTick_keeps (State.set_keeps (State.set_keeps (by assumption))))))
  exact fun _ _ => (State.set_keeps (by assumption))
  exact fun _ _ => (State.set_keeps (by assumption))
  apply State.setFlag_keeps
  apply State.when_keeps
  apply State.when_keeps
  exact State.refreshSource_keeps (State.spnCounts_keeps (State.setInt_keeps (State.obsTick_keeps (State.set_keeps (State.set_keeps (by assumption))))))
  exact fun _ _ => (State.set_keeps (by assumption))
  exact fun _ _ => (State.set_keeps (by assumption))
  exact fun _ _ => (State.spnFault_keeps (by assumption))

/-! ### MagOps -/

theorem State.modMag_keeps {z : State} {s : State} {f : MagSt → MagSt} (hs : s.keeps z) :
    (State.modMag s f).keeps z := by
  unfold State.modMag
  exact keepsMk (by assumption)

theorem State.magFault_keeps {z : State} {s : State} {kind : Nat} {arg : Nat} (hs : s.keeps z) :
    (State.magFault s kind arg).keeps z := by
  unfold State.magFault
  exact State.raise_keeps (by assumption)

theorem State.recordSlot_keeps {z : State} {s : State} {k : Nat} {full : Bool} (hs : s.keeps z) :
    (State.recordSlot s k full).keeps z := by
  unfold State.recordSlot
  dsimp only
  exact State.set_keeps (State.set_keeps (by assumption))

theorem State.setSrc_keeps {z : State} {s : State} {st : Nat} {k : Option Nat} (hs : s.keeps z) :
    (State.setSrc s st k).keeps z := by
  unfold State.setSrc
  split
  exact keepsIte (State.set_keeps (State.set_keeps (by assumption))) (State.set_keeps (State.set_keeps (by assumption)))
  exact keepsIte (State.set_keeps (by assumption)) (State.set_keeps (by assumption))

theorem State.magResult_keeps {z : State} {s : State} {result : Nat} {reason : Nat} (hs : s.keeps z) :
    (State.magResult s result reason).keeps z := by
  unfold State.magResult
  split
  exact keepsIte (State.set_keeps (State.set_keeps (by assumption))) (by assumption)
  assumption

theorem State.magRest_keeps {z : State} {s : State} (hs : s.keeps z) :
    (State.magRest s).keeps z := by
  unfold State.magRest
  exact State.modMag_keeps (State.set_keeps (State.set_keeps (by assumption)))

theorem State.exchStat_keeps {z : State} {s : State} {outcome : Nat} {reason : Nat} {start : Nat} (hs : s.keeps z) :
    (State.exchStat s outcome reason start).keeps z := by
  unfold State.exchStat
  exact State.set_keeps (State.set_keeps (State.set_keeps (State.set_keeps (by assumption))))

theorem State.magFail_keeps {z : State} {s : State} {reason : Nat} (hs : s.keeps z) :
    (State.magFail s reason).keeps z := by
  unfold State.magFail
  exact State.magRest_keeps (State.modMag_keeps (State.magResult_keeps (by assumption)))

theorem State.magHalt_keeps {z : State} {s : State} {emerg : Bool} (hs : s.keeps z) :
    (State.magHalt s emerg).keeps z := by
  unfold State.magHalt
  exact State.axHalt_keeps (State.axHalt_keeps (State.axHalt_keeps (by assumption)))

theorem State.magHomeNext_keeps {z : State} {s : State} {a : Nat} (hs : s.keeps z) :
    (State.magHomeNext s a).keeps z := by
  unfold State.magHomeNext
  exact keepsIte (by assumption) (keepsIte (State.magFail_keeps (by assumption)) (State.axHomeStart_keeps (by assumption)))

theorem State.magHomingTick_keeps {z : State} {s : State} (hs : s.keeps z) :
    (State.magHomingTick s).keeps z := by
  unfold State.magHomingTick
  split
  exact State.magHomeNext_keeps (by assumption)
  assumption

theorem State.magHome_keeps {z : State} {s : State} {state : Nat} (hs : s.keeps z) :
    (State.magHome s state).keeps z := by
  unfold State.magHome
  dsimp only
  exact State.magHomingTick_keeps (State.modMag_keeps (State.set_keeps (by assumption)))

theorem State.moveZx_keeps {z : State} {s : State} {z0 : Int} {x : Int} (hs : s.keeps z) :
    (State.moveZx s z0 x).keeps z := by
  unfold State.moveZx
  dsimp only
  exact State.set_keeps (State.set_keeps (State.modAx_keeps (State.axMove_keeps (State.axMove_keeps (by assumption)))))

theorem State.magPlan_keeps {z : State} {s : State} {ms : List MagMove} (hs : s.keeps z) :
    (State.magPlan s ms).keeps z := by
  unfold State.magPlan
  split
  exact State.modMag_keeps (by assumption)
  exact State.moveZx_keeps (State.modMag_keeps (by assumption))
  exact State.axMove_keeps (State.modMag_keeps (by assumption))

theorem State.recover_keeps {z : State} {s : State} (hs : s.keeps z) :
    (State.recover s).keeps z := by
  unfold State.recover
  exact State.magHome_keeps (State.modMag_keeps (by assumption))

theorem State.placeHeld_keeps {z : State} {s : State} (hs : s.keeps z) :
    (State.placeHeld s).keeps z := by
  unfold State.placeHeld
  dsimp only
  split
  exact State.magPlan_keeps (State.modMag_keeps (by assumption))
  split
  exact State.magPlan_keeps (State.modMag_keeps (by assumption))
  split
  exact State.magPlan_keeps (State.modMag_keeps (by assumption))
  exact State.magFail_keeps (by assumption)

theorem State.magHomed_keeps {z : State} {s : State} (hs : s.keeps z) :
    (State.magHomed s).keeps z := by
  unfold State.magHomed
  exact State.magRest_keeps (State.magResult_keeps (by assumption))

theorem State.magAxisHomed_keeps {z : State} {s : State} {a : Nat} (hs : s.keeps z) :
    (State.magAxisHomed s a).keeps z := by
  unfold State.magAxisHomed
  split
  apply keepsIte
  assumption
  split
  exact State.magHomeNext_keeps (State.modMag_keeps (by assumption))
  exact keepsIte (State.placeHeld_keeps (by assumption)) (keepsIte (State.magPlan_keeps (State.modMag_keeps (by assumption))) (State.magHomed_keeps (by assumption)))
  assumption

theorem State.magTrip_keeps {z : State} {s : State} (hs : s.keeps z) :
    (State.magTrip s).keeps z := by
  unfold State.magTrip
  dsimp only
  split
  exact State.recover_keeps (State.magResult_keeps (State.exchStat_keeps (State.magHalt_keeps (by assumption))))
  exact State.recover_keeps (State.magResult_keeps (State.exchStat_keeps (State.magHalt_keeps (by assumption))))
  exact State.recover_keeps (State.magResult_keeps (State.exchStat_keeps (State.magHalt_keeps (by assumption))))
  exact State.magHome_keeps (State.modMag_keeps (State.magResult_keeps (State.magHalt_keeps (by assumption))))
  exact keepsIte (State.magHome_keeps (State.magHalt_keeps (by assumption))) (State.magHalt_keeps (by assumption))
  exact State.magFail_keeps (State.magHalt_keeps (by assumption))

theorem State.magDegrade_keeps {z : State} {s : State} (hs : s.keeps z) :
    (State.magDegrade s).keeps z := by
  unfold State.magDegrade
  exact keepsIte (State.modMag_keeps (by assumption)) (State.set_keeps (by assumption))

theorem State.startStep_keeps {z : State} {s : State} {o : MagOrder} {step : Nat} (hs : s.keeps z) :
    (State.startStep s o step).keeps z := by
  unfold State.startStep
  exact State.magPlan_keeps (State.set_keeps (by assumption))

theorem State.firstStep_keeps {z : State} {s : State} {o : MagOrder} (hs : s.keeps z) :
    (State.firstStep s o).keeps z := by
  unfold State.firstStep
  dsimp only
  exact State.startStep_keeps (State.modMag_keeps (State.set_keeps (by assumption)))

theorem State.probeSlot_keeps {z : State} {s : State} {k : Nat} (hs : s.keeps z) :
    (State.probeSlot s k).keeps z := by
  unfold State.probeSlot
  exact State.magPlan_keeps (State.modMag_keeps (by assumption))

theorem State.probeOver_keeps {z : State} {s : State} {k : Nat} {full : Bool} (hs : s.keeps z) :
    (State.probeOver s k full).keeps z := by
  unfold State.probeOver
  exact State.magPlan_keeps (State.modMag_keeps (State.recordSlot_keeps (by assumption)))

theorem State.magStart_keeps {z : State} {s : State} {o : MagOrder} (hs : s.keeps z) :
    (State.magStart s o).keeps z := by
  unfold State.magStart
  dsimp only
  apply keepsIte
  exact State.magHome_keeps (State.modMag_keeps (State.modMag_keeps (by assumption)))
  apply keepsIte
  exact State.magPlan_keeps (State.modMag_keeps (State.modMag_keeps (by assumption)))
  apply keepsIte
  exact State.recover_keeps (State.modMag_keeps (by assumption))
  apply keepsIte
  split
  exact State.firstStep_keeps (State.modMag_keeps (State.modMag_keeps (by assumption)))
  split
  exact State.firstStep_keeps (State.modMag_keeps (State.modMag_keeps (by assumption)))
  split
  exact State.probeSlot_keeps (State.set_keeps (State.modMag_keeps (by assumption)))
  exact State.magRest_keeps (State.magResult_keeps (State.exchStat_keeps (State.modMag_keeps (by assumption))))
  exact State.firstStep_keeps (State.modMag_keeps (by assumption))

theorem State.magArrive_keeps {z : State} {s : State} (hs : s.keeps z) :
    (State.magArrive s).keeps z := by
  unfold State.magArrive
  dsimp only
  apply keepsIte
  apply State.axArrive_keeps
  exact keepsIte (State.axArrive_keeps (keepsIte (State.axArrive_keeps (by assumption)) (by assumption))) (keepsIte (State.axArrive_keeps (by assumption)) (by assumption))
  exact keepsIte (State.axArrive_keeps (keepsIte (State.axArrive_keeps (by assumption)) (by assumption))) (keepsIte (State.axArrive_keeps (by assumption)) (by assumption))

theorem State.exchFail_keeps {z : State} {s : State} {reason : Nat} (hs : s.keeps z) :
    (State.exchFail s reason).keeps z := by
  unfold State.exchFail
  exact State.magRest_keeps (State.magResult_keeps (State.exchStat_keeps (by assumption)))

theorem State.exchDone_keeps {z : State} {s : State} {o : MagOrder} {loaded : Bool} (hs : s.keeps z) :
    (State.exchDone s o loaded).keeps z := by
  unfold State.exchDone
  dsimp only
  apply keepsIte
  exact State.magRest_keeps (State.magResult_keeps (State.exchStat_keeps (by assumption)))
  apply keepsIte
  exact State.spin_keeps (State.modMag_keeps (State.magRest_keeps (State.set_keeps (by assumption))))
  exact State.modMag_keeps (State.magRest_keeps (State.set_keeps (by assumption)))

theorem State.clampFail_keeps {z : State} {s : State} {o : MagOrder} (hs : s.keeps z) :
    (State.clampFail s o).keeps z := by
  unfold State.clampFail
  dsimp only
  exact keepsIte (State.magPlan_keeps (State.modMag_keeps (State.magFault_keeps (by assumption)))) (State.magPlan_keeps (State.modMag_keeps (State.magFault_keeps (by assumption))))

theorem State.magInputs_keeps {z : State} {x : Samples} {s : State} (hs : s.keeps z) :
    (State.magInputs x s).keeps z := by
  unfold State.magInputs
  exact State.setFlag_keeps (State.setFlag_keeps (State.setFlag_keeps (State.setFlag_keeps (by assumption))))

theorem State.newDisc_keeps {z : State} {s : State} {st : Nat} (hs : s.keeps z) :
    (State.newDisc s st).keeps z := by
  unfold State.newDisc
  dsimp only
  apply keepsFold
  exact fun _ _ _ => (State.set_keeps (keepsMk (by assumption)))
  exact keepsMk (by assumption)

theorem State.discGone_keeps {z : State} {s : State} {slot : Option Nat} (hs : s.keeps z) :
    (State.discGone s slot).keeps z := by
  unfold State.discGone
  dsimp only
  exact State.set_keeps (keepsMk (by assumption))

theorem State.exchStep_keeps {z : State} {s : State} {o : MagOrder} (hs : s.keeps z) :
    (State.exchStep s o).keeps z := by
  unfold State.exchStep
  dsimp only
  apply keepsIte
  exact keepsIte (State.startStep_keeps (State.modMag_keeps (State.setSrc_keeps (State.discGone_keeps (by assumption))))) (by assumption)
  apply keepsIte
  apply keepsIte
  assumption
  apply State.startStep_keeps
  apply State.modMag_keeps
  split
  exact State.recordSlot_keeps (by assumption)
  assumption
  apply keepsIte
  split
  exact State.exchFail_keeps (by assumption)
  exact keepsIte (State.exchDone_keeps (by assumption)) (State.startStep_keeps (by assumption))
  apply keepsIte
  exact keepsIte (State.startStep_keeps (State.modMag_keeps (State.recordSlot_keeps (by assumption)))) (by assumption)
  apply keepsIte
  split
  exact State.exchFail_keeps (by assumption)
  exact keepsIte (State.startStep_keeps (by assumption)) (by assumption)
  apply keepsIte
  apply keepsIte
  exact State.startStep_keeps (by assumption)
  exact keepsIte (State.startStep_keeps (State.modMag_keeps (State.newDisc_keeps (State.setSrc_keeps (by assumption))))) (State.clampFail_keeps (by assumption))
  exact keepsIte (State.exchDone_keeps (by assumption)) (keepsIte (by assumption) (State.startStep_keeps (by assumption)))

theorem State.probeNext_keeps {z : State} {s : State} {o : MagOrder} {full : Bool} (hs : s.keeps z) :
    (State.probeNext s o full).keeps z := by
  unfold State.probeNext
  apply keepsIte
  split
  exact State.probeSlot_keeps (by assumption)
  exact State.exchFail_keeps (by assumption)
  exact State.firstStep_keeps (by assumption)

theorem State.stageStep_keeps {z : State} {s : State} (hs : s.keeps z) :
    (State.stageStep s).keeps z := by
  unfold State.stageStep
  split
  exact State.exchStep_keeps (by assumption)
  exact keepsIte (State.probeOver_keeps (by assumption)) (by assumption)
  exact State.probeNext_keeps (by assumption)
  exact State.magRest_keeps (State.magResult_keeps (by assumption))
  exact State.magHomeNext_keeps (State.modMag_keeps (by assumption))
  exact State.magHomeNext_keeps (State.modMag_keeps (State.setSrc_keeps (by assumption)))
  apply keepsIte
  exact State.magFail_keeps (by assumption)
  apply State.magHomed_keeps
  split
  exact State.recordSlot_keeps (by assumption)
  assumption
  assumption

theorem State.magStep_keeps {z : State} {s : State} (hs : s.keeps z) :
    (State.magStep s).keeps z := by
  unfold State.magStep
  dsimp only
  exact keepsIte (by assumption) (keepsIte (State.stageStep_keeps (State.magArrive_keeps (by assumption))) (State.magPlan_keeps (State.magArrive_keeps (by assumption))))

theorem State.gripFail_keeps {z : State} {s0 : State} {o : MagOrder} (hs : s0.keeps z) :
    (State.gripFail s0 o).keeps z := by
  unfold State.gripFail
  dsimp only
  apply keepsIte
  apply keepsIte
  exact State.startStep_keeps (State.setSrc_keeps (State.magFault_keeps (State.magArrive_keeps (by assumption))))
  exact State.startStep_keeps (State.setSrc_keeps (State.magFault_keeps (State.magArrive_keeps (by assumption))))
  apply keepsIte
  exact State.startStep_keeps (State.modMag_keeps (State.recordSlot_keeps (State.magFault_keeps (State.magArrive_keeps (by assumption)))))
  exact keepsIte (State.recover_keeps (State.magResult_keeps (State.exchStat_keeps (State.magFault_keeps (State.magArrive_keeps (by assumption)))))) (by assumption)

theorem State.magFocusTick_keeps {z : State} {s : State} (hs : s.keeps z) :
    (State.magFocusTick s).keeps z := by
  unfold State.magFocusTick
  dsimp only
  split
  assumption
  apply keepsIte
  exact State.modMag_keeps (State.set_keeps (State.set_keeps (State.set_keeps (by assumption))))
  apply keepsFold
  exact fun _ _ _ => (keepsIte (State.startAcquire_keeps (by assumption)) (by assumption))
  assumption

theorem State.magCommand_keeps {z : State} {s : State} {op : Nat} {st : Nat} {slot : Nat} (hs : s.keeps z) :
    (State.magCommand s op st slot).keeps z := by
  unfold State.magCommand
  dsimp only
  apply keepsIte
  apply keepsIte
  apply keepsFold
  exact fun _ _ _ => (keepsIte (by assumption) (State.sledPark_keeps (by assumption)))
  exact State.modMag_keeps (State.set_keeps (State.modMag_keeps (State.set_keeps (State.set_keeps (State.incWrap_keeps (by assumption))))))
  exact State.modMag_keeps (State.set_keeps (State.modMag_keeps (State.set_keeps (State.set_keeps (State.incWrap_keeps (by assumption))))))
  exact State.set_keeps (State.modMag_keeps (State.set_keeps (State.set_keeps (State.incWrap_keeps (by assumption)))))

theorem State.magCmd_keeps {z : State} {s : State} {p : Path} {op : Nat} {st : Nat} {slot : Nat} (hs : s.keeps z) :
    (State.magCmd s p op st slot).keeps z := by
  unfold State.magCmd
  dsimp only
  exact State.writeBy_keeps (by assumption) (fun _ _ => (State.magCommand_keeps (by assumption)))

theorem State.axesOn_keeps {z : State} {s : State} (hs : s.keeps z) :
    (State.axesOn s).keeps z := by
  unfold State.axesOn
  apply keepsFold
  exact fun _ _ _ => (State.axOn_keeps (by assumption))
  assumption

theorem State.badgerHoming_keeps {z : State} {s : State} (hs : s.keeps z) :
    (State.badgerHoming s).keeps z := by
  unfold State.badgerHoming
  exact keepsIte (by assumption) (keepsIte (keepsIte (State.set_keeps (by assumption)) (by assumption)) (State.magHome_keeps (by assumption)))

/-! ### EndOps -/

theorem State.modSess_keeps {z : State} {s : State} {p : Path} {f : Session → Session} (hs : s.keeps z) :
    (State.modSess s p f).keeps z := by
  unfold State.modSess
  dsimp only
  split
  exact keepsMk (by assumption)
  assumption

theorem State.cmdCounts_keeps {z : State} {s : State} (hs : s.keeps z) :
    (State.cmdCounts s).keeps z := by
  unfold State.cmdCounts
  exact State.set_keeps (State.set_keeps (by assumption))

theorem State.modCmd_keeps {z : State} {s : State} {id : Nat} {f : Cmd → Cmd} (hs : s.keeps z) :
    (State.modCmd s id f).keeps z := by
  unfold State.modCmd
  dsimp only
  exact keepsMk (by assumption)

theorem State.modAcct_keeps {z : State} {s : State} {t : Nat} {f : MeterAcc → MeterAcc} (hs : s.keeps z) :
    (State.modAcct s t f).keeps z := by
  unfold State.modAcct
  dsimp only
  exact keepsIte (keepsMk (by assumption)) (by assumption)

theorem State.logPut_keeps {z : State} {s : State} {r : LogRec} (hs : s.keeps z) :
    (State.logPut s r).keeps z := by
  unfold State.logPut
  dsimp only
  exact State.set_keeps (State.incWrap_keeps (keepsMk (by assumption)))

theorem State.deferError_keeps {z : State} {s : State} {t : Nat} {r : LogRec} (hs : s.keeps z) :
    (State.deferError s t r).keeps z := by
  unfold State.deferError
  dsimp only
  exact State.raise_keeps (keepsMk (State.logPut_keeps (by assumption)))

theorem State.writeEntry_keeps {z : State} {s : State} {k : Completion} (hs : s.keeps z) :
    (State.writeEntry s k).keeps z := by
  unfold State.writeEntry
  dsimp only
  split
  exact State.modSess_keeps (keepsMk (by assumption))
  exact keepsMk (by assumption)

theorem State.interim_keeps {z : State} {s : State} {c : Cmd} {r : Reply} (hs : s.keeps z) :
    (State.interim s c r).keeps z := by
  unfold State.interim
  split
  exact keepsIte (State.writeEntry_keeps (by assumption)) (State.modSess_keeps (by assumption))
  assumption

theorem State.freeze_keeps {z : State} {s : State} {c : Cmd} {status : Nat} (hs : s.keeps z) :
    (State.freeze s c status).keeps z := by
  unfold State.freeze
  dsimp only
  exact State.modSess_keeps (State.logPut_keeps (by assumption))

theorem State.finish_keeps {z : State} {s : State} {c : Cmd} {r : Reply} (hs : s.keeps z) :
    (State.finish s c r).keeps z := by
  unfold State.finish
  dsimp only
  apply keepsIte
  exact State.writeEntry_keeps (State.freeze_keeps (State.cmdCounts_keeps (keepsMk (by assumption))))
  exact State.writeEntry_keeps (State.cmdCounts_keeps (keepsMk (by assumption)))

theorem State.finishWith_keeps {z : State} {s : State} {c : Cmd} {status : Nat} (hs : s.keeps z) :
    (State.finishWith s c status).keeps z := by
  unfold State.finishWith
  exact keepsIte (State.finish_keeps (State.draw_keeps (by assumption))) (State.finish_keeps (by assumption))

theorem State.noteHead_keeps {z : State} {s : State} {p : Path} {e : Entry} (hs : s.keeps z) :
    (State.noteHead s p e).keeps z := by
  unfold State.noteHead
  exact keepsIte (State.modSess_keeps (by assumption)) (by assumption)

/-! ### ArbOps -/

theorem State.modArb_keeps {z : State} {s : State} {st : Nat} {f : StnArb → StnArb} (hs : s.keeps z) :
    (State.modArb s st f).keeps z := by
  unfold State.modArb
  dsimp only
  exact keepsMk (by assumption)

theorem State.grant_keeps {z : State} {s : State} {st : Nat} {j : Job} (hs : s.keeps z) :
    (State.grant s st j).keeps z := by
  unfold State.grant
  dsimp only
  apply State.incWrap_keeps
  exact State.set_keeps (State.set_keeps (State.set_keeps (State.set_keeps (State.modArb_keeps (State.prevLost_keeps (State.prevLost_keeps (keepsMk (by assumption))))))))

theorem State.idleStn_keeps {z : State} {s : State} {st : Nat} (hs : s.keeps z) :
    (State.idleStn s st).keeps z := by
  unfold State.idleStn
  exact State.set_keeps (State.set_keeps (State.set_keeps (State.set_keeps (State.modArb_keeps (by assumption)))))

theorem State.parkStn_keeps {z : State} {s : State} {st : Nat} {owner : Nat} {hold : Option Nat} (hs : s.keeps z) :
    (State.parkStn s st owner hold).keeps z := by
  unfold State.parkStn
  exact State.set_keeps (State.set_keeps (State.set_keeps (State.modArb_keeps (by assumption))))

theorem State.releaseStn_keeps {z : State} {s : State} {st : Nat} (hs : s.keeps z) :
    (State.releaseStn s st).keeps z := by
  unfold State.releaseStn
  split
  exact keepsIte (keepsIte (State.spnStop_keeps (State.idleStn_keeps (by assumption))) (State.parkStn_keeps (by assumption))) (State.idleStn_keeps (by assumption))
  assumption

theorem State.stnRound_keeps {z : State} {s : State} {st : Nat} (hs : s.keeps z) :
    (State.stnRound s st).keeps z := by
  unfold State.stnRound
  dsimp only
  apply keepsIte
  split
  exact State.grant_keeps (by assumption)
  assumption
  apply keepsIte
  apply keepsIte
  split
  exact State.grant_keeps (by assumption)
  assumption
  split
  exact State.grant_keeps (State.addSat_keeps (State.idleStn_keeps (by assumption)))
  exact State.addSat_keeps (State.idleStn_keeps (by assumption))
  assumption

theorem State.addJob_keeps {z : State} {s : State} {j : Job} (hs : s.keeps z) :
    (State.addJob s j).keeps z := by
  unfold State.addJob
  dsimp only
  exact keepsMk (by assumption)

theorem State.dropJobs_keeps {z : State} {s : State} {f : Job → Bool} (hs : s.keeps z) :
    (State.dropJobs s f).keeps z := by
  unfold State.dropJobs
  dsimp only
  exact keepsMk (by assumption)

theorem State.modJob_keeps {z : State} {s : State} {id : Nat} {f : Job → Job} (hs : s.keeps z) :
    (State.modJob s id f).keeps z := by
  unfold State.modJob
  dsimp only
  apply keepsFold
  intro _ _ _
  split
  exact keepsIte (State.modArb_keeps (by assumption)) (by assumption)
  assumption
  exact keepsMk (by assumption)

theorem State.askPicker_keeps {z : State} {s : State} {st : Nat} {j : Job} {slot : Nat} (hs : s.keeps z) :
    (State.askPicker s st j slot).keeps z := by
  unfold State.askPicker
  dsimp only
  apply keepsIte
  assumption
  exact State.when_keeps (State.puPark_keeps (State.puPark_keeps (State.modArb_keeps (State.modMag_keeps (by assumption))))) (fun _ _ => (State.spnStop_keeps (by assumption)))

theorem State.steer_keeps {z : State} {s : State} {st : Nat} {side : Nat} {j : Job} {u : JobUnit} (hs : s.keeps z) :
    (State.steer s st side j u).keeps z := by
  unfold State.steer
  dsimp only
  apply keepsIte
  assumption
  apply keepsIte
  exact keepsIte (State.startAcquire_keeps (by assumption)) (by assumption)
  apply keepsIte
  exact keepsIte (State.startSeek_keeps (by assumption)) (by assumption)
  apply keepsIte
  apply keepsIte
  assumption
  apply keepsIte
  exact keepsIte (State.startJump_keeps (by assumption)) (by assumption)
  apply keepsIte
  exact keepsIte (State.orderMode_keeps (by assumption)) (by assumption)
  exact keepsIte (by assumption) (keepsIte (State.modArb_keeps (by assumption)) (keepsIte (State.modArb_keeps (State.startSeek_keeps (by assumption))) (by assumption)))
  assumption

theorem State.workStn_keeps {z : State} {s : State} {st : Nat} (hs : s.keeps z) :
    (State.workStn s st).keeps z := by
  unfold State.workStn
  dsimp only
  split
  assumption
  apply keepsIte
  assumption
  apply keepsIte
  split
  exact keepsIte (by assumption) (State.askPicker_keeps (by assumption))
  assumption
  apply keepsIte
  assumption
  apply keepsIte
  exact keepsIte (State.spin_keeps (by assumption)) (by assumption)
  apply keepsIte
  apply keepsFold
  intro _ _ _
  split
  exact State.steer_keeps (by assumption)
  exact keepsIte (State.startAcquire_keeps (by assumption)) (by assumption)
  assumption
  assumption

/-! ### CampOps -/

theorem State.modCal_keeps {z : State} {s : State} {f : CalSt → CalSt} (hs : s.keeps z) :
    (State.modCal s f).keeps z := by
  unfold State.modCal
  exact keepsMk (by assumption)

theorem State.calShow_keeps {z : State} {s : State} (hs : s.keeps z) :
    (State.calShow s).keeps z := by
  unfold State.calShow
  dsimp only
  exact State.setFlag_keeps (State.setFlag_keeps (by assumption))

theorem State.procSet_keeps {z : State} {s : State} {p : Nat} {st : Nat} (hs : s.keeps z) :
    (State.procSet s p st).keeps z := by
  unfold State.procSet
  dsimp only
  exact State.calShow_keeps (State.set_keeps (by assumption))

theorem State.calFail_keeps {z : State} {s : State} {p : Nat} {st : Nat} {auto : Bool} (hs : s.keeps z) :
    (State.calFail s p st auto).keeps z := by
  unfold State.calFail
  exact State.raise_keeps (State.addSat_keeps (by assumption))

theorem State.campEnd_keeps {z : State} {s : State} {outcome : Nat} {failProc : Nat} (hs : s.keeps z) :
    (State.campEnd s outcome failProc).keeps z := by
  unfold State.campEnd
  dsimp only
  split
  assumption
  apply keepsIte
  apply State.releaseStn_keeps
  apply State.when_keeps
  apply State.when_keeps
  apply State.set_keeps
  apply State.set_keeps
  apply State.set_keeps
  apply State.setFlag_keeps
  apply State.set_keeps
  apply State.set_keeps
  apply State.set_keeps
  apply State.set_keeps
  apply State.set_keeps
  exact State.setReg_keeps (keepsIte (State.spnStop_keeps (State.puPark_keeps (State.puPark_keeps (State.modCal_keeps (by assumption))))) (State.modCal_keeps (by assumption)))
  exact fun _ _ => (State.set_keeps (by assumption))
  exact fun _ _ => (State.set_keeps (by assumption))
  apply State.when_keeps
  apply State.when_keeps
  apply State.set_keeps
  apply State.set_keeps
  apply State.set_keeps
  apply State.setFlag_keeps
  apply State.set_keeps
  apply State.set_keeps
  apply State.set_keeps
  apply State.set_keeps
  apply State.set_keeps
  exact State.setReg_keeps (keepsIte (State.spnStop_keeps (State.puPark_keeps (State.puPark_keeps (State.modCal_keeps (by assumption))))) (State.modCal_keeps (by assumption)))
  exact fun _ _ => (State.set_keeps (by assumption))
  exact fun _ _ => (State.set_keeps (by assumption))

theorem State.campFail_keeps {z : State} {s : State} {p : Nat} (hs : s.keeps z) :
    (State.campFail s p).keeps z := by
  unfold State.campFail
  split
  assumption
  exact State.campEnd_keeps (State.calFail_keeps (by assumption))

theorem State.campNext_keeps {z : State} {s : State} (hs : s.keeps z) :
    (State.campNext s).keeps z := by
  unfold State.campNext
  dsimp only
  split
  assumption
  split
  exact State.campEnd_keeps (by assumption)
  apply keepsIte
  apply keepsIte
  exact State.campFail_keeps (State.set_keeps (by assumption))
  exact keepsIte (State.spin_keeps (State.modCal_keeps (State.set_keeps (by assumption)))) (State.campFail_keeps (State.set_keeps (by assumption)))
  exact State.set_keeps (by assumption)

theorem State.campStart_keeps {z : State} {s : State} {mask : Nat} {st : Nat} {auto : Bool} (hs : s.keeps z) :
    (State.campStart s mask st auto).keeps z := by
  unfold State.campStart
  dsimp only
  apply State.campNext_keeps
  apply keepsIte
  exact State.incWrap_keeps (State.set_keeps (State.setFlag_keeps (State.set_keeps (State.set_keeps (State.modCal_keeps (by assumption))))))
  exact State.setReg_keeps (State.incWrap_keeps (State.set_keeps (State.setFlag_keeps (State.set_keeps (State.set_keeps (State.modCal_keeps (by assumption)))))))

theorem State.campAbort_keeps {z : State} {s : State} (hs : s.keeps z) :
    (State.campAbort s).keeps z := by
  unfold State.campAbort
  exact State.campEnd_keeps (by assumption)

theorem State.campPass_keeps {z : State} {s : State} {p : Nat} (hs : s.keeps z) :
    (State.campPass s p).keeps z := by
  unfold State.campPass
  dsimp only
  split
  assumption
  exact State.campNext_keeps (State.set_keeps (State.modCal_keeps (State.draw_keeps (by assumption))))

theorem State.calQueue_keeps {z : State} {s : State} {st : Nat} (hs : s.keeps z) :
    (State.calQueue s st).keeps z := by
  unfold State.calQueue
  dsimp only
  exact keepsIte (keepsIte (State.addJob_keeps (by assumption)) (by assumption)) (by assumption)

/-! ### Ce -/

theorem execTickOverrun_keeps {z : State} {arg : BitVec 8} {s : State} (hs : s.keeps z) :
    keepsOut z (execTickOverrun arg s) := by
  unfold execTickOverrun
  exact keepsNext (State.overrun_keeps (keepsIte (State.abandonFrom_keeps (by assumption)) (by assumption)))

theorem execFollowErr_keeps {z : State} {n : Fin 48} {s : State} (hs : s.keeps z) :
    keepsOut z (execFollowErr n s) := by
  unfold execFollowErr
  dsimp only
  exact keepsIteOut (keepsNext (State.raise_keeps (State.setSlot_keeps (by assumption)))) (keepsNext (by assumption))

theorem execPtpValidityChange_keeps {z : State} {valid : Bool} {s : State} (hs : s.keeps z) :
    keepsOut z (execPtpValidityChange valid s) := by
  unfold execPtpValidityChange
  exact keepsNext (State.ptpValidity_keeps (by assumption))

theorem State.syncLost_keeps {z : State} {s : State} (hs : s.keeps z) :
    (State.syncLost s).keeps z := by
  unfold State.syncLost
  exact keepsIte (State.raise_keeps (State.set_keeps (by assumption))) (by assumption)

theorem State.syncPeriod_keeps {z : State} {s : State} {period : Nat} (hs : s.keeps z) :
    (State.syncPeriod s period).keeps z := by
  unfold State.syncPeriod
  dsimp only
  apply keepsIte
  exact State.when_keeps (keepsMk (by assumption)) (fun _ _ => (State.set_keeps (by assumption)))
  exact State.when_keeps (keepsMk (by assumption)) (fun _ _ => (State.syncLost_keeps (by assumption)))

theorem execSyncInPulse_keeps {z : State} {frac : BitVec 11} {falling : Bool} {s : State} (hs : s.keeps z) :
    keepsOut z (execSyncInPulse frac falling s) := by
  unfold execSyncInPulse
  dsimp only
  apply keepsIteOut
  exact keepsNext (by assumption)
  apply keepsNext
  apply State.marPulse_keeps
  apply State.marPulse_keeps
  with_reducible apply keepsMk
  split
  exact State.syncPeriod_keeps (State.setReg_keeps (State.incWrap_keeps (State.set_keeps (State.setReg_keeps (by assumption)))))
  exact State.incWrap_keeps (State.set_keeps (State.setReg_keeps (by assumption)))

theorem execSyncTimeout_keeps {z : State} {s : State} (hs : s.keeps z) :
    keepsOut z (execSyncTimeout s) := by
  unfold execSyncTimeout
  dsimp only
  exact keepsNext (keepsIte (State.syncLost_keeps (keepsMk (by assumption))) (by assumption))

theorem execCeAuxEnable_keeps {z : State} {p : Path} {slot : BitVec 6} {en : Bool} {s : State} (hs : s.keeps z) :
    keepsOut z (execCeAuxEnable p slot en s) := by
  unfold execCeAuxEnable
  exact keepsNext (State.writeBy_keeps (by assumption) (fun _ _ => (State.setFlag_keeps (State.set_keeps (by assumption)))))

theorem execCePageWrite_keeps {z : State} {p : Path} {n : Fin 48} {w : Fin 64} {v : Word} {s : State} (hs : s.keeps z) :
    keepsOut z (execCePageWrite p n w v s) := by
  unfold execCePageWrite
  apply keepsIteOut
  exact keepsNext (by assumption)
  split
  exact keepsNext (State.status_keeps (State.rxMessage_keeps (by assumption)))
  exact keepsNext (State.writePage_keeps (State.rxMessage_keeps (by assumption)))

theorem execWbufGate_keeps {z : State} {p : Path} {gate : Bool} {s : State} (hs : s.keeps z) :
    keepsOut z (execWbufGate p gate s) := by
  unfold execWbufGate
  exact keepsNext (State.writeBy_keeps (by assumption) (fun _ _ => (State.setFlag_keeps (by assumption))))

theorem execTraceArm_keeps {z : State} {p : Path} {n : Fin 4} {s : State} (hs : s.keeps z) :
    keepsOut z (execTraceArm p n s) := by
  unfold execTraceArm
  exact keepsNext (State.writeBy_keeps (by assumption) (fun _ _ => (State.set_keeps (State.set_keeps (State.set_keeps (State.setTrace_keeps (by assumption)))))))

theorem execTraceForce_keeps {z : State} {p : Path} {n : Fin 4} {s : State} (hs : s.keeps z) :
    keepsOut z (execTraceForce p n s) := by
  unfold execTraceForce
  exact keepsNext (State.writeBy_keeps (by assumption) (fun _ _ => (keepsIte (State.takeTrigger_keeps (by assumption)) (by assumption))))

theorem execTraceAck_keeps {z : State} {p : Path} {n : Fin 4} {s : State} (hs : s.keeps z) :
    keepsOut z (execTraceAck p n s) := by
  unfold execTraceAck
  exact keepsNext (State.writeBy_keeps (by assumption) (fun _ _ => (State.set_keeps (State.set_keeps (State.setTrace_keeps (by assumption))))))

theorem execTraceDone_keeps {z : State} {n : Fin 4} {s : State} (hs : s.keeps z) :
    keepsOut z (execTraceDone n s) := by
  unfold execTraceDone
  exact keepsIteOut (keepsNext (State.set_keeps (State.set_keeps (by assumption)))) (keepsNext (by assumption))

theorem State.readBy_keeps {z : State} {s : State} {p : Path} {sys : Bool} {f : State → List Word × State} (hs : s.keeps z) (hf : ∀ s, s.keeps z → (f s).2.keeps z) :
    (State.readBy s p sys f).keeps z := by
  unfold State.readBy
  dsimp only
  apply keepsIte
  assumption
  split
  exact State.status_keeps (State.rxMessage_keeps (keepsMk (by assumption)))
  apply State.status_keeps
  with_reducible apply keepsMk
  apply hf
  exact State.rxMessage_keeps (by assumption)

theorem execTraceRdataRead_keeps {z : State} {p : Path} {n : Fin 4} {s : State} (hs : s.keeps z) :
    keepsOut z (execTraceRdataRead p n s) := by
  unfold execTraceRdataRead
  dsimp only
  apply keepsNext
  apply State.readBy_keeps
  assumption
  intro _ _
  split
  dsimp only
  exact State.set_keeps (by assumption)
  dsimp only
  exact keepsIte (State.set_keeps (State.set_keeps (by assumption))) (State.set_keeps (by assumption))

/-! ### Power -/

theorem State.pwrFault_keeps {z : State} {s : State} {kind : Nat} {arg : Nat} (hs : s.keeps z) :
    (State.pwrFault s kind arg).keeps z := by
  unfold State.pwrFault
  exact State.raise_keeps (by assumption)

theorem State.orderSafeStop_keeps {z : State} {s : State} {cause : Nat} (hs : s.keeps z) :
    (State.orderSafeStop s cause).keeps z := by
  unfold State.orderSafeStop
  dsimp only
  exact keepsIte (by assumption) (keepsMk (by assumption))

theorem State.setBand_keeps {z : State} {s : State} {v : Nat} (hs : s.keeps z) :
    (State.setBand s v).keeps z := by
  unfold State.setBand
  exact State.set_keeps (by assumption)

theorem State.vbusEvent_keeps {z : State} {s : State} {row : Nat} {v : Nat} (hs : s.keeps z) :
    (State.vbusEvent s row v).keeps z := by
  unfold State.vbusEvent
  exact State.capture_keeps (by assumption)

theorem State.uvWarn_keeps {z : State} {s : State} {v : Nat} (hs : s.keeps z) :
    (State.uvWarn s v).keeps z := by
  unfold State.uvWarn
  exact keepsIte (State.pwrFault_keeps (State.vbusEvent_keeps (State.addSat_keeps (State.set_keeps (by assumption))))) (keepsIte (State.set_keeps (by assumption)) (by assumption))

theorem execVbusThreshold_keeps {z : State} {vbus : BitVec 16} {s : State} (hs : s.keeps z) :
    keepsOut z (execVbusThreshold vbus s) := by
  unfold execVbusThreshold
  dsimp only
  apply keepsNext
  apply State.setBand_keeps
  apply State.setFlag_keeps
  apply State.uvWarn_keeps
  apply State.when_keeps
  apply keepsFold
  exact fun _ _ _ => (State.vbusEvent_keeps (by assumption))
  exact keepsMk (State.set_keeps (by assumption))
  exact fun _ _ => (State.pwrFault_keeps (State.addSat_keeps (by assumption)))

theorem State.allBridgesOff_keeps {z : State} {s : State} (hs : s.keeps z) :
    (State.allBridgesOff s).keeps z := by
  unfold State.allBridgesOff
  dsimp only
  with_reducible apply keepsMk
  apply keepsFold
  exact fun _ _ _ => (State.axOff_keeps (by assumption))
  apply keepsFold
  exact fun _ _ _ => (keepsIte (State.spnOff_keeps (by assumption)) (keepsIte (State.spnCoast_keeps (State.dropStationGates_keeps (by assumption))) (by assumption)))
  assumption

theorem execVbus90v_keeps {z : State} {vbus : BitVec 16} {s : State} (hs : s.keeps z) :
    keepsOut z (execVbus90v vbus s) := by
  unfold execVbus90v
  dsimp only
  apply keepsIteOut
  apply keepsNext
  exact State.orderSafeStop_keeps (State.allBridgesOff_keeps (State.pwrFault_keeps (State.setBand_keeps (State.vbusEvent_keeps (keepsMk (State.set_keeps (by assumption)))))))
  exact keepsNext (by assumption)

theorem State.holdUp_keeps {z : State} {s : State} {st : Nat} (hs : s.keeps z) :
    (State.holdUp s st).keeps z := by
  unfold State.holdUp
  exact keepsIte (State.modStn_keeps (by assumption)) (by assumption)

theorem execUvlo_keeps {z : State} {vbus : BitVec 16} {s : State} (hs : s.keeps z) :
    keepsOut z (execUvlo vbus s) := by
  unfold execUvlo
  dsimp only
  apply keepsIteOut
  apply keepsNext
  refine keepsMem ?_ rfl rfl rfl rfl rfl (by exact Nat.le_refl _)
  apply State.holdUp_keeps
  apply State.holdUp_keeps
  exact State.orderSafeStop_keeps (State.pwrFault_keeps (State.vbusEvent_keeps (State.setBand_keeps (State.set_keeps (State.uvWarn_keeps (State.set_keeps (by assumption)))))))
  exact keepsNext (by assumption)

theorem execHoldupEnd_keeps {z : State} {st : Fin 2} {s : State} (hs : s.keeps z) :
    keepsOut z (execHoldupEnd st s) := by
  unfold execHoldupEnd
  exact keepsIteOut (keepsNext (State.modStn_keeps (by assumption))) (keepsNext (by assumption))

theorem State.brkFault_keeps {z : State} {s : State} {arg : Nat} (hs : s.keeps z) :
    (State.brkFault s arg).keeps z := by
  unfold State.brkFault
  exact keepsIte (by assumption) (State.pwrFault_keeps (State.set_keeps (State.set_keeps (by assumption))))

theorem execChopperTestPulse_keeps {z : State} {i : BitVec 16} {s : State} (hs : s.keeps z) :
    keepsOut z (execChopperTestPulse i s) := by
  unfold execChopperTestPulse
  dsimp only
  apply keepsIteOut
  exact keepsNext (by assumption)
  exact keepsNext (State.when_keeps (State.set_keeps (State.set_keeps (State.incWrap_keeps (by assumption)))) (fun _ _ => (State.brkFault_keeps (by assumption))))

theorem execBrkStuck_keeps {z : State} {i : BitVec 16} {s : State} (hs : s.keeps z) :
    keepsOut z (execBrkStuck i s) := by
  unfold execBrkStuck
  exact keepsIteOut (keepsNext (by assumption)) (keepsNext (State.pwrFault_keeps (State.set_keeps (by assumption))))

theorem execVinReverse_keeps {z : State} {s : State} (hs : s.keeps z) :
    keepsOut z (execVinReverse s) := by
  unfold execVinReverse
  exact keepsNext (keepsIte (by assumption) (State.pwrFault_keeps (State.set_keeps (by assumption))))

theorem execVinReverseClear_keeps {z : State} {s : State} (hs : s.keeps z) :
    keepsOut z (execVinReverseClear s) := by
  unfold execVinReverseClear
  exact keepsIteOut (keepsNext (State.set_keeps (by assumption))) (keepsNext (by assumption))

theorem execBrkHot_keeps {z : State} {s : State} (hs : s.keeps z) :
    keepsOut z (execBrkHot s) := by
  unfold execBrkHot
  dsimp only
  apply keepsIteOut
  exact keepsNext (keepsIte (State.set_keeps (by assumption)) (by assumption))
  exact keepsNext (keepsIte (State.pwrFault_keeps (State.set_keeps (by assumption))) (by assumption))

theorem execRailFault_keeps {z : State} {rail : Fin 2} {s : State} (hs : s.keeps z) :
    keepsOut z (execRailFault rail s) := by
  unfold execRailFault
  exact keepsNext (keepsIte (by assumption) (State.pwrFault_keeps (by assumption)))

theorem State.junction_keeps {z : State} {s : State} {die : Nat} {t : BitVec 8} (hs : s.keeps z) :
    (State.junction s die t).keeps z := by
  unfold State.junction
  dsimp only
  exact keepsIte (State.set_keeps (State.set_keeps (by assumption))) (State.set_keeps (by assumption))

theorem execTjThreshold_keeps {z : State} {die : Fin 2} {temp : BitVec 8} {s : State} (hs : s.keeps z) :
    keepsOut z (execTjThreshold die temp s) := by
  unfold execTjThreshold
  dsimp only
  apply keepsIteOut
  exact keepsNext (State.junction_keeps (by assumption))
  apply keepsNext
  apply keepsIte
  apply State.pwrFault_keeps
  apply keepsIte
  exact State.pwrFault_keeps (State.set_keeps (State.junction_keeps (by assumption)))
  exact keepsIte (State.set_keeps (State.junction_keeps (by assumption))) (State.junction_keeps (by assumption))
  apply keepsIte
  exact State.pwrFault_keeps (State.set_keeps (State.junction_keeps (by assumption)))
  exact keepsIte (State.set_keeps (State.junction_keeps (by assumption))) (State.junction_keeps (by assumption))

theorem execTjHwTrip_keeps {z : State} {die : Fin 2} {s : State} (hs : s.keeps z) :
    keepsOut z (execTjHwTrip die s) := by
  unfold execTjHwTrip
  exact keepsNext (State.orderSafeStop_keeps (State.allBridgesOff_keeps (State.junction_keeps (by assumption))))

theorem State.chopTick_keeps {z : State} {s0 : State} {i : Nat} (hs : s0.keeps z) :
    (State.chopTick s0 i).keeps z := by
  unfold State.chopTick
  dsimp only
  apply keepsIte
  exact State.when_keeps (State.set_keeps (State.set_keeps (keepsMk (State.setFlag_keeps (by assumption))))) (fun _ _ => (State.brkFault_keeps (by assumption)))
  exact keepsMk (State.setFlag_keeps (by assumption))

theorem State.chopSecond_keeps {z : State} {s : State} (hs : s.keeps z) :
    (State.chopSecond s).keeps z := by
  unfold State.chopSecond
  dsimp only
  exact keepsMk (by assumption)

theorem State.ilimFactor_keeps {z : State} {s : State} (hs : s.keeps z) :
    (State.ilimFactor s).2.keeps z := by
  unfold State.ilimFactor
  dsimp only
  split
  dsimp only
  exact State.draw_keeps (by assumption)
  dsimp only
  assumption

theorem State.ilimTick_keeps {z : State} {s0 : State} (hs : s0.keeps z) :
    (State.ilimTick s0).keeps z := by
  unfold State.ilimTick
  dsimp only
  apply keepsIte
  apply State.when_keeps
  with_reducible apply keepsMk
  apply keepsIte
  apply State.addSat_keeps
  apply State.when_keeps
  exact State.when_keeps (State.setFlag_keeps (keepsMk (State.ilimFactor_keeps (by assumption)))) (fun _ _ => (State.workMeasured_keeps (by assumption)))
  exact fun _ _ => (State.workMeasured_keeps (by assumption))
  apply State.when_keeps
  exact State.when_keeps (State.setFlag_keeps (keepsMk (State.ilimFactor_keeps (by assumption)))) (fun _ _ => (State.workMeasured_keeps (by assumption)))
  exact fun _ _ => (State.workMeasured_keeps (by assumption))
  exact fun _ _ => (State.pwrFault_keeps (by assumption))
  exact State.setFlag_keeps (keepsMk (State.ilimFactor_keeps (by assumption)))

theorem State.inputTick_keeps {z : State} {s : State} {x : Samples} (hs : s.keeps z) :
    (State.inputTick s x).keeps z := by
  unfold State.inputTick
  dsimp only
  exact keepsMk (by assumption)

theorem State.railTick_keeps {z : State} {s : State} {r : Fld × Fld × Fld} {x : RailRead} (hs : s.keeps z) :
    (State.railTick s r x).keeps z := by
  unfold State.railTick
  dsimp only
  exact keepsIte (State.set_keeps (State.draw_keeps (State.set_keeps (State.set_keeps (by assumption))))) (State.set_keeps (State.set_keeps (State.set_keeps (by assumption))))

theorem State.pwrTick_keeps {z : State} {x : Samples} {s0 : State} (hs : s0.keeps z) :
    (State.pwrTick x s0).keeps z := by
  unfold State.pwrTick
  dsimp only
  apply State.ilimTick_keeps
  apply State.inputTick_keeps
  apply State.set_keeps
  apply State.when_keeps
  apply State.chopTick_keeps
  refine keepsVbus ?_
  apply State.setReg_keeps
  with_reducible apply keepsMk
  apply State.junction_keeps
  exact State.junction_keeps (State.railTick_keeps (State.railTick_keeps (State.maxIn_keeps (State.set_keeps (State.set_keeps (State.set_keeps (by assumption)))))))
  exact fun _ _ => (State.chopSecond_keeps (by assumption))

end Sys2Proof.Machine
end

