-- ==== Sys2Proof/Laws/KeepsData.lean ====
section
/-!
SUPPORT. One lemma per operation of the data side: memories, flash, map, placement, commands, write channels and rebuilds:
it keeps what `State.keeps` says.
-/

namespace Sys2Proof.Machine

open Sys2Proof

/-! ### MemOps -/

theorem State.setDramByte_keeps {z : State} {s : State} {a : Nat} {b : Byte} (hs : s.keeps z) :
    (State.setDramByte s a b).keeps z := by
  obtain ⟨h1, h2, h3, h4, h5⟩ := hs
  exact ⟨h1, h2, h3, swf_sput _ _ _ h4, h5⟩

theorem State.putBytes_keeps {z : State} {s : State} {a : Nat} {l : List Byte} (hs : s.keeps z) :
    (State.putBytes s a l).keeps z := by
  unfold State.putBytes
  apply keepsFold
  exact fun _ _ _ => (State.setDramByte_keeps (by assumption))
  assumption

theorem State.putGran_keeps {z : State} {s : State} {g : Nat} {data : Nat} {chk : Nat} (hs : s.keeps z) :
    (State.putGran s g data chk).keeps z := by
  unfold State.putGran
  exact State.putBytes_keeps (State.putBytes_keeps (by assumption))

theorem State.upsetGran_keeps {z : State} {s : State} {g : Nat} {u : BitVec 272} (hs : s.keeps z) :
    (State.upsetGran s g u).keeps z := by
  unfold State.upsetGran
  exact keepsIte (by assumption) (State.putGran_keeps (by assumption))

theorem State.dramError_keeps {z : State} {s : State} {g : Nat} {kind : Nat} {scrub : Bool} (hs : s.keeps z) :
    (State.dramError s g kind scrub).keeps z := by
  unfold State.dramError
  dsimp only
  apply keepsIte
  assumption
  apply State.when_keeps
  exact State.set_keeps (State.setFlag_keeps (State.set_keeps (keepsIte (State.addSat_keeps (by assumption)) (State.addSat_keeps (by assumption)))))
  exact fun _ _ => (State.raise_keeps (by assumption))

theorem State.readGran_keeps {z : State} {s : State} {g : Nat} {scrub : Bool} (hs : s.keeps z) :
    (State.readGran s g scrub).2.keeps z := by
  unfold State.readGran
  dsimp only
  split
  dsimp only
  exact State.dramError_keeps (by assumption)
  split
  dsimp only
  exact State.dramError_keeps (by assumption)
  split
  dsimp only
  exact State.dramError_keeps (State.putGran_keeps (by assumption))
  dsimp only
  assumption

theorem State.writeGran_keeps {z : State} {s : State} {a : Nat} {bytes : List Byte} (hs : s.keeps z) :
    (State.writeGran s a bytes).2.keeps z := by
  unfold State.writeGran
  dsimp only
  split
  dsimp only
  assumption
  split
  dsimp only
  exact State.putGran_keeps (by assumption)
  split
  dsimp only
  refine keepsSnd (by assumption) ?_
  exact State.readGran_keeps (by assumption)
  dsimp only
  apply State.putGran_keeps
  refine keepsSnd (by assumption) ?_
  exact State.readGran_keeps (by assumption)

theorem State.writeDram_keeps {z : State} {s : State} {a : Nat} {bytes : List Byte} (hs : s.keeps z) :
    (State.writeDram s a bytes).keeps z := by
  unfold State.writeDram
  dsimp only
  apply keepsFold
  exact fun _ _ _ => (State.writeGran_keeps (by assumption))
  exact State.writeGran_keeps (by assumption)

theorem State.sramError_keeps {z : State} {s : State} {i : Nat} {offset : Nat} {kind : Nat} {scrub : Bool} (hs : s.keeps z) :
    (State.sramError s i offset kind scrub).keeps z := by
  unfold State.sramError
  dsimp only
  apply State.when_keeps
  exact State.set_keeps (State.set_keeps (State.setFlag_keeps (State.set_keeps (keepsIte (State.addSat_keeps (by assumption)) (State.addSat_keeps (by assumption))))))
  exact fun _ _ => (State.raise_keeps (by assumption))

theorem State.scrubGran_keeps {z : State} {s : State} (hs : s.keeps z) :
    (State.scrubGran s).keeps z := by
  unfold State.scrubGran
  dsimp only
  apply keepsIte
  exact State.set_keeps (keepsIte (State.readGran_keeps (by assumption)) (by assumption))
  exact State.incWrap_keeps (State.set_keeps (keepsIte (State.readGran_keeps (by assumption)) (by assumption)))

theorem State.setSram_keeps {z : State} {s : State} {i : Nat} {offset : Nat} {v : BitVec 13} (hs : s.keeps z) :
    (State.setSram s i offset v).keeps z := by
  unfold State.setSram
  dsimp only
  exact keepsMem (by assumption) rfl rfl rfl rfl rfl (Nat.le_refl _)

theorem State.owlDamage_keeps {z : State} {s : State} {offset : Nat} (hs : s.keeps z) :
    (State.owlDamage s offset).keeps z := by
  obtain ⟨h1, h2, h3, h4, h5, h6, h7, h8⟩ := hs
  exact ⟨h1, h2, h3, h4, h5, h6, by simpa [State.owlDamage] using h7, h8⟩

theorem State.dropLine_keeps {z : State} {s : State} {set : Nat} {way : Nat} (hs : s.keeps z) :
    (State.dropLine s set way).keeps z := by
  unfold State.dropLine
  dsimp only
  exact keepsMk (by assumption)

theorem State.sramLost_keeps {z : State} {s : State} {i : Nat} {offset : Nat} (hs : s.keeps z) :
    (State.sramLost s i offset).keeps z := by
  unfold State.sramLost
  dsimp only
  apply keepsIte
  exact State.setSram_keeps (State.raise_keeps (State.dropLine_keeps (State.addSat_keeps (by assumption))))
  exact keepsIte (State.owlDamage_keeps (by assumption)) (keepsIte (keepsMk (by assumption)) (keepsIte (keepsMk (by assumption)) (by assumption)))

theorem State.readSram_keeps {z : State} {s : State} {i : Nat} {offset : Nat} {scrub : Bool} (hs : s.keeps z) :
    (State.readSram s i offset scrub).keeps z := by
  unfold State.readSram
  dsimp only
  apply keepsIte
  assumption
  apply keepsIte
  exact State.sramLost_keeps (State.sramError_keeps (by assumption))
  apply keepsIte
  exact State.addSat_keeps (State.setSram_keeps (State.sramError_keeps (by assumption)))
  exact keepsIte (keepsMk (State.setSram_keeps (State.sramError_keeps (by assumption)))) (State.setSram_keeps (State.sramError_keeps (by assumption)))

theorem State.mr4Tick_keeps {z : State} {x : Samples} {s : State} (hs : s.keeps z) :
    (State.mr4Tick x s).keeps z := by
  unfold State.mr4Tick
  exact keepsIte (State.set_keeps (by assumption)) (by assumption)

theorem State.scrubTick_keeps {z : State} {s : State} (hs : s.keeps z) :
    (State.scrubTick s).keeps z := by
  unfold State.scrubTick
  dsimp only
  apply keepsIte
  assumption
  apply keepsIte
  apply State.when_keeps
  refine keepsMem ?_ rfl rfl rfl rfl rfl (by exact Nat.le_refl _)
  apply keepsFold
  exact fun _ _ _ => (State.readSram_keeps (by assumption))
  apply keepsIte
  apply keepsFold
  exact fun _ _ _ => (State.scrubGran_keeps (by assumption))
  assumption
  assumption
  exact fun _ _ => (State.incWrap_keeps (by assumption))
  apply keepsIte
  apply keepsFold
  exact fun _ _ _ => (State.scrubGran_keeps (by assumption))
  assumption
  assumption

theorem State.touchWay_keeps {z : State} {s : State} {set : Nat} {way : Nat} (hs : s.keeps z) :
    (State.touchWay s set way).keeps z := by
  unfold State.touchWay
  dsimp only
  exact keepsMk (by assumption)

theorem State.countLocks_keeps {z : State} {s : State} (hs : s.keeps z) :
    (State.countLocks s).keeps z := by
  unfold State.countLocks
  dsimp only
  exact State.set_keeps (State.set_keeps (by assumption))

theorem State.allocate_keeps {z : State} {s : State} {tag : Nat} {data : BitVec 512} (hs : s.keeps z) :
    (State.allocate s tag data).keeps z := by
  unfold State.allocate
  dsimp only
  exact State.touchWay_keeps (keepsMk (by assumption))

theorem State.fetchLine_keeps {z : State} {s : State} {tag : Nat} (hs : s.keeps z) :
    (State.fetchLine s tag).2.keeps z := by
  unfold State.fetchLine
  split
  dsimp only
  refine keepsSnd (by assumption) ?_
  exact State.readGran_keeps (by assumption)
  split
  dsimp only
  refine keepsSnd (by assumption) ?_
  apply State.readGran_keeps
  refine keepsSnd (by assumption) ?_
  exact State.readGran_keeps (by assumption)
  dsimp only
  refine keepsSnd (by assumption) ?_
  apply State.readGran_keeps
  refine keepsSnd (by assumption) ?_
  exact State.readGran_keeps (by assumption)

theorem State.serve_keeps {z : State} {s : State} {a : CAccess} (hs : s.keeps z) :
    (State.serve s a).keeps z := by
  unfold State.serve
  dsimp only
  split
  assumption
  split
  exact keepsMk (State.touchWay_keeps (by assumption))
  exact State.writeDram_keeps (keepsMk (State.touchWay_keeps (by assumption)))

theorem State.access_keeps {z : State} {s : State} {a : CAccess} (hs : s.keeps z) :
    (State.access s a).keeps z := by
  unfold State.access
  dsimp only
  apply keepsIte
  exact keepsMk (by assumption)
  apply keepsIte
  exact keepsMk (by assumption)
  apply keepsIte
  split
  exact State.writeDram_keeps (by assumption)
  exact keepsMk (by assumption)
  apply keepsIte
  exact State.serve_keeps (State.when_keeps (State.incWrap_keeps (by assumption)) (fun _ _ => (State.incWrap_keeps (by assumption))))
  split
  exact State.writeDram_keeps (State.incWrap_keeps (by assumption))
  exact keepsIte (keepsMk (State.incWrap_keeps (by assumption))) (keepsMk (State.incWrap_keeps (by assumption)))

theorem State.replay_keeps {z : State} {s : State} {l : List CAccess} (hs : s.keeps z) :
    (State.replay s l).keeps z := by
  unfold State.replay
  apply keepsFold
  exact fun _ _ _ => (State.access_keeps (by assumption))
  assumption

theorem State.invalidate_keeps {z : State} {s : State} {f : CLine → Bool} (hs : s.keeps z) :
    (State.invalidate s f).keeps z := by
  unfold State.invalidate
  dsimp only
  exact keepsMk (by assumption)

theorem State.unlockWays_keeps {z : State} {s : State} {f : CLine → Bool} (hs : s.keeps z) :
    (State.unlockWays s f).keeps z := by
  unfold State.unlockWays
  dsimp only
  exact State.countLocks_keeps (keepsMk (by assumption))

theorem State.lockWay_keeps {z : State} {s : State} {tag : Nat} (hs : s.keeps z) :
    (State.lockWay s tag).keeps z := by
  unfold State.lockWay
  dsimp only
  exact State.countLocks_keeps (keepsMk (by assumption))

theorem State.lockLine_keeps {z : State} {s : State} {tag : Nat} (hs : s.keeps z) :
    (State.lockLine s tag).keeps z := by
  unfold State.lockLine
  apply keepsIte
  assumption
  apply keepsIte
  exact State.lockWay_keeps (by assumption)
  split
  refine keepsSnd (by assumption) ?_
  exact State.fetchLine_keeps (by assumption)
  apply State.lockWay_keeps
  apply State.allocate_keeps
  refine keepsSnd (by assumption) ?_
  exact State.fetchLine_keeps (by assumption)

/-! ### FlashOps -/

theorem State.flFault_keeps {z : State} {s : State} {kind : Nat} {arg : Nat} (hs : s.keeps z) :
    (State.flFault s kind arg).keeps z := by
  unfold State.flFault
  exact State.raise_keeps (by assumption)

theorem State.upsetWords_keeps {z : State} {s : State} {l : List (BitVec 24 × BitVec 137)} (hs : s.keeps z) :
    (State.upsetWords s l).keeps z := by
  unfold State.upsetWords
  dsimp only
  apply keepsFold
  exact fun _ _ _ => (keepsMem (by assumption) rfl rfl rfl rfl rfl (Nat.le_refl _))
  assumption

theorem State.jrnlStat_keeps {z : State} {s : State} (hs : s.keeps z) :
    (State.jrnlStat s).keeps z := by
  unfold State.jrnlStat
  exact State.set_keeps (State.set_keeps (by assumption))

theorem State.jrnlPut_keeps {z : State} {s : State} {kind : Nat} {sector : Nat} (hs : s.keeps z) :
    (State.jrnlPut s kind sector).keeps z := by
  unfold State.jrnlPut
  dsimp only
  exact keepsMem (by assumption) rfl rfl rfl rfl rfl (Nat.le_refl _)

theorem State.jrnlTurn_keeps {z : State} {s : State} (hs : s.keeps z) :
    (State.jrnlTurn s).keeps z := by
  unfold State.jrnlTurn
  dsimp only
  exact keepsIte (by assumption) (keepsMem (State.jrnlPut_keeps (State.jrnlPut_keeps (by assumption))) rfl rfl rfl rfl rfl (Nat.le_refl _))

theorem State.journal_keeps {z : State} {s : State} {kind : Nat} {sector : Nat} (hs : s.keeps z) :
    (State.journal s kind sector).keeps z := by
  unfold State.journal
  exact State.jrnlStat_keeps (State.jrnlPut_keeps (keepsIte (State.jrnlTurn_keeps (by assumption)) (by assumption)))

theorem State.imgPut_keeps {z : State} {s : State} {twinB : Bool} {comps : List (Nat × Nat × Bool)} (hs : s.keeps z) :
    (State.imgPut s twinB comps).keeps z := by
  unfold State.imgPut
  dsimp only
  apply State.setFlag_keeps
  apply State.set_keeps
  apply keepsIte
  exact keepsMem (by assumption) rfl rfl rfl rfl rfl (Nat.le_refl _)
  exact State.journal_keeps (State.journal_keeps (keepsMem (by assumption) rfl rfl rfl rfl rfl (Nat.le_refl _)))

theorem State.refrPut_keeps {z : State} {s : State} {state : Nat} {sector : Nat} (hs : s.keeps z) :
    (State.refrPut s state sector).keeps z := by
  unfold State.refrPut
  dsimp only
  exact keepsMem (by assumption) rfl rfl rfl rfl rfl (Nat.le_refl _)

theorem State.refreshShow_keeps {z : State} {s : State} (hs : s.keeps z) :
    (State.refreshShow s).keeps z := by
  unfold State.refreshShow
  exact State.setReg_keeps (State.setReg_keeps (by assumption))

theorem State.eraseSector_keeps {z : State} {s : State} {n : Nat} (hs : s.keeps z) :
    (State.eraseSector s n).keeps z := by
  obtain ⟨h1, h2, h3, h4, h5, h6, h7⟩ := hs
  have h : ∀ f : FlashSt,
      f.cells = s.flash.cells.filter (fun e => !(decide (sectorBase n ≤ e.1) && decide (e.1 < sectorBase n + sectorSize n))) →
      State.keeps { s with flash := f } z := fun f e => ⟨h1, h2, h3, h4, h5, e ▸ swf_filter _ _ h6, h7⟩
  unfold State.eraseSector
  apply h
  dsimp only
  repeat' split
  all_goals rfl

theorem State.programBytes_keeps {z : State} {s : State} {a : Nat} {l : List Byte} (hs : s.keeps z) :
    (State.programBytes s a l).keeps z := by
  obtain ⟨h1, h2, h3, h4, h5, h6, h7⟩ := hs
  exact ⟨h1, h2, h3, h4, h5, swf_program _ _ _ h6, h7⟩

theorem State.flStat_keeps {z : State} {s : State} (hs : s.keeps z) :
    (State.flStat s).keeps z := by
  unfold State.flStat
  dsimp only
  exact State.set_keeps (State.set_keeps (State.set_keeps (State.set_keeps (State.set_keeps (State.setFlag_keeps (State.setFlag_keeps (State.setFlag_keeps (by assumption))))))))

theorem State.refreshNext_keeps {z : State} {s : State} (hs : s.keeps z) :
    (State.refreshNext s).keeps z := by
  unfold State.refreshNext
  dsimp only
  apply keepsIte
  exact State.set_keeps (State.set_keeps (keepsMem (by assumption) rfl rfl rfl rfl rfl (Nat.le_refl _)))
  split
  exact State.set_keeps (State.set_keeps (keepsMem (by assumption) rfl rfl rfl rfl rfl (Nat.le_refl _)))
  exact State.set_keeps (State.refreshShow_keeps (State.set_keeps (State.set_keeps (State.set_keeps (State.refrPut_keeps (by assumption))))))

theorem State.refreshDone_keeps {z : State} {s : State} {d : FlDesc} (hs : s.keeps z) :
    (State.refreshDone s d).keeps z := by
  unfold State.refreshDone
  dsimp only
  apply keepsIte
  exact keepsIte (State.refrPut_keeps (by assumption)) (keepsIte (State.set_keeps (State.refrPut_keeps (by assumption))) (by assumption))
  exact State.refreshNext_keeps (keepsIte (State.refrPut_keeps (by assumption)) (keepsIte (State.set_keeps (State.refrPut_keeps (by assumption))) (by assumption)))

theorem State.flushDone_keeps {z : State} {s : State} {status : Nat} (hs : s.keeps z) :
    (State.flushDone s status).keeps z := by
  unfold State.flushDone
  dsimp only
  split
  exact keepsMem (by assumption) rfl rfl rfl rfl rfl (Nat.le_refl _)
  apply keepsIte
  exact keepsMem (by assumption) rfl rfl rfl rfl rfl (Nat.le_refl _)
  exact keepsIte (keepsMem (by assumption) rfl rfl rfl rfl rfl (Nat.le_refl _)) (keepsMem (by assumption) rfl rfl rfl rfl rfl (Nat.le_refl _))

theorem State.flComplete_keeps {z : State} {s : State} {d : FlDesc} {status : Nat} (hs : s.keeps z) :
    (State.flComplete s d status).keeps z := by
  unfold State.flComplete
  dsimp only
  apply keepsIte
  exact keepsMem (by assumption) rfl rfl rfl rfl rfl (Nat.le_refl _)
  apply keepsIte
  exact State.flushDone_keeps (keepsMem (by assumption) rfl rfl rfl rfl rfl (Nat.le_refl _))
  exact keepsIte (State.refreshDone_keeps (keepsMem (by assumption) rfl rfl rfl rfl rfl (Nat.le_refl _))) (keepsMem (by assumption) rfl rfl rfl rfl rfl (Nat.le_refl _))

theorem State.startModify_keeps {z : State} {s : State} {d : FlDesc} (hs : s.keeps z) :
    (State.startModify s d).keeps z := by
  unfold State.startModify
  dsimp only
  refine keepsMem ?_ rfl rfl rfl rfl rfl (by exact Nat.le_refl _)
  apply keepsIte
  apply State.journal_keeps
  apply State.set_keeps
  split
  exact State.set_keeps (keepsMem (by assumption) rfl rfl rfl rfl rfl (Nat.le_refl _))
  assumption
  split
  exact State.set_keeps (keepsMem (by assumption) rfl rfl rfl rfl rfl (Nat.le_refl _))
  assumption

theorem State.flAdvance_keeps {z : State} {s : State} {a : Nat} (hs : s.keeps z) :
    (State.flAdvance s a).keeps z := by
  induction a generalizing s
  · exact hs
  · rename_i n ih
    unfold State.flAdvance
    dsimp only
    split
    split
    apply ih
    exact State.flComplete_keeps (keepsMem (by assumption) rfl rfl rfl rfl rfl (Nat.le_refl _))
    apply ih
    exact State.startModify_keeps (keepsMem (by assumption) rfl rfl rfl rfl rfl (Nat.le_refl _))
    split
    split
    exact keepsMem (by assumption) rfl rfl rfl rfl rfl (Nat.le_refl _)
    assumption
    split
    split
    apply ih
    exact State.flComplete_keeps (keepsMem (keepsMem (by assumption) rfl rfl rfl rfl rfl (Nat.le_refl _)) rfl rfl rfl rfl rfl (Nat.le_refl _))
    apply ih
    exact State.flComplete_keeps (keepsMem (by assumption) rfl rfl rfl rfl rfl (Nat.le_refl _))
    split
    apply ih
    exact keepsMem (keepsMem (by assumption) rfl rfl rfl rfl rfl (Nat.le_refl _)) rfl rfl rfl rfl rfl (Nat.le_refl _)
    apply ih
    exact keepsMem (by assumption) rfl rfl rfl rfl rfl (Nat.le_refl _)

theorem State.flGo_keeps {z : State} {s : State} (hs : s.keeps z) :
    (State.flGo s).keeps z := by
  unfold State.flGo
  exact State.flStat_keeps (State.flAdvance_keeps (by assumption))

theorem State.flPush_keeps {z : State} {s : State} {d : FlDesc} (hs : s.keeps z) :
    (State.flPush s d).keeps z := by
  unfold State.flPush
  dsimp only
  exact keepsIte (State.flGo_keeps (keepsMem (by assumption) rfl rfl rfl rfl rfl (Nat.le_refl _))) (by assumption)

theorem State.eraseOwl_keeps {z : State} {s : State} (hs : s.keeps z) :
    (State.eraseOwl s).keeps z := by
  unfold State.eraseOwl
  dsimp only
  exact State.flPush_keeps (State.flPush_keeps (by assumption))

theorem State.loadWords_keeps {z : State} {s : State} {base : Nat} {l : List Byte} (hs : s.keeps z) :
    (State.loadWords s base l).keeps z := by
  unfold State.loadWords
  apply keepsFold
  exact fun _ _ _ => (State.setReg_keeps (by assumption))
  assumption

theorem State.flEcc_keeps {z : State} {s : State} {e : Nat × BitVec 137} (hs : s.keeps z) :
    (State.flEcc s e).keeps z := by
  unfold State.flEcc
  dsimp only
  apply keepsIte
  assumption
  apply State.when_keeps
  exact State.set_keeps (State.set_keeps (keepsIte (State.addSat_keeps (by assumption)) (State.addSat_keeps (by assumption))))
  exact fun _ _ => (State.flFault_keeps (by assumption))

theorem State.flMet_keeps {z : State} {s : State} {a : Nat} {n : Nat} (hs : s.keeps z) :
    (State.flMet s a n).keeps z := by
  unfold State.flMet
  apply keepsFold
  exact fun _ _ _ => (State.flEcc_keeps (by assumption))
  assumption

theorem State.readDone_keeps {z : State} {s : State} {d : FlDesc} (hs : s.keeps z) :
    (State.readDone s d).keeps z := by
  unfold State.readDone
  dsimp only
  apply keepsIte
  exact State.flComplete_keeps (keepsMem (State.flMet_keeps (by assumption)) rfl rfl rfl rfl rfl (Nat.le_refl _))
  apply State.flComplete_keeps
  apply keepsIte
  apply keepsIte
  exact State.loadWords_keeps (keepsMem (State.flMet_keeps (by assumption)) rfl rfl rfl rfl rfl (Nat.le_refl _))
  exact State.loadWords_keeps (keepsMem (State.flMet_keeps (by assumption)) rfl rfl rfl rfl rfl (Nat.le_refl _))
  exact keepsMem (State.flMet_keeps (by assumption)) rfl rfl rfl rfl rfl (Nat.le_refl _)

theorem State.freeBytes_keeps {z : State} {s : State} {n : Nat} (hs : s.keeps z) :
    (State.freeBytes s n).2.keeps z := by
  unfold State.freeBytes
  dsimp only
  exact keepsMem (by assumption) rfl rfl rfl rfl rfl (Nat.le_add_right _ _)

theorem State.modifyDone_keeps {z : State} {s : State} {d : FlDesc} {ok : Bool} (hs : s.keeps z) :
    (State.modifyDone s d ok).keeps z := by
  unfold State.modifyDone
  dsimp only
  apply keepsIte
  apply keepsIte
  apply State.flComplete_keeps
  apply State.journal_keeps
  exact keepsIte (keepsMem (by assumption) rfl rfl rfl rfl rfl (Nat.le_refl _)) (State.eraseSector_keeps (keepsMem (by assumption) rfl rfl rfl rfl rfl (Nat.le_refl _)))
  apply keepsIte
  exact keepsMem (by assumption) rfl rfl rfl rfl rfl (Nat.le_refl _)
  exact State.flComplete_keeps (State.flFault_keeps (keepsMem (by assumption) rfl rfl rfl rfl rfl (Nat.le_refl _)))
  apply keepsIte
  apply State.flComplete_keeps
  exact keepsIte (keepsMem (by assumption) rfl rfl rfl rfl rfl (Nat.le_refl _)) (State.programBytes_keeps (keepsMem (by assumption) rfl rfl rfl rfl rfl (Nat.le_refl _)))
  apply State.flComplete_keeps
  apply keepsIte
  exact keepsMem (by assumption) rfl rfl rfl rfl rfl (Nat.le_refl _)
  exact State.programBytes_keeps (State.freeBytes_keeps (keepsMem (by assumption) rfl rfl rfl rfl rfl (Nat.le_refl _)))

/-! ### MapOps -/

theorem State.modPlc_keeps {z : State} {s : State} {f : PlcSt → PlcSt} (hs : s.keeps z) :
    (State.modPlc s f).keeps z := by
  unfold State.modPlc
  exact keepsMk (by assumption)

theorem State.plcFault_keeps {z : State} {s : State} {kind : Nat} {arg : Nat} (hs : s.keeps z) :
    (State.plcFault s kind arg).keeps z := by
  unfold State.plcFault
  exact State.raise_keeps (by assumption)

theorem State.setKeys_keeps {z : State} {s : State} {l : List TenantKey} (hs : s.keeps z) :
    (State.setKeys s l).keeps z := by
  unfold State.setKeys
  dsimp only
  exact State.set_keeps (keepsMk (by assumption))

theorem State.modPeer_keeps {z : State} {s : State} {d : Nat} {f : PeerSt → PeerSt} (hs : s.keeps z) :
    (State.modPeer s d f).keeps z := by
  unfold State.modPeer
  exact State.modPlc_keeps (by assumption)

theorem State.showDown_keeps {z : State} {s : State} {d : Nat} {b : Bool} (hs : s.keeps z) :
    (State.showDown s d b).keeps z := by
  unfold State.showDown
  dsimp only
  exact State.set_keeps (State.set_keeps (by assumption))

theorem State.markDown_keeps {z : State} {s : State} {d : Nat} (hs : s.keeps z) :
    (State.markDown s d).keeps z := by
  unfold State.markDown
  exact keepsIte (by assumption) (State.plcFault_keeps (State.showDown_keeps (State.modPeer_keeps (by assumption))))

theorem State.tell_keeps {z : State} {s : State} {dst : Nat} {type : Nat} {xid : Nat} {body : List Nat} (hs : s.keeps z) :
    (State.tell s dst type xid body).keeps z := by
  unfold State.tell
  exact State.modPlc_keeps (by assumption)

theorem State.reply_keeps {z : State} {s : State} {dst : Nat} {type : Nat} {xid : Nat} {body : List Nat} (hs : s.keeps z) :
    (State.reply s dst type xid body).keeps z := by
  unfold State.reply
  exact State.modPlc_keeps (State.tell_keeps (by assumption))

theorem State.newXid_keeps {z : State} {s : State} (hs : s.keeps z) :
    (State.newXid s).2.keeps z := by
  unfold State.newXid
  dsimp only
  exact State.modPlc_keeps (by assumption)

theorem State.sendData_keeps {z : State} {s : State} {dst : Nat} {xid : Nat} {segs : List Nat} (hs : s.keeps z) :
    (State.sendData s dst xid segs).keeps z := by
  unfold State.sendData
  exact State.tell_keeps (State.modPlc_keeps (by assumption))

theorem State.slotCounts_keeps {z : State} {s : State} {k : Nat} {live : Int} {dead : Int} (hs : s.keeps z) :
    (State.slotCounts s k live dead).keeps z := by
  unfold State.slotCounts
  exact State.set_keeps (State.set_keeps (by assumption))

theorem State.mapUsed_keeps {z : State} {s : State} (hs : s.keeps z) :
    (State.mapUsed s).keeps z := by
  unfold State.mapUsed
  exact State.set_keeps (by assumption)

theorem State.mapEnts_keeps {z : State} {s : State} {f : MapEnt → Bool} {g : MapEnt → MapEnt} (hs : s.keeps z) :
    (State.mapEnts s f g).keeps z := by
  unfold State.mapEnts
  dsimp only
  apply keepsFold
  intro _ _ _
  apply keepsIte
  apply keepsIte
  exact State.slotCounts_keeps (State.modPlc_keeps (by assumption))
  exact keepsIte (State.slotCounts_keeps (State.modPlc_keeps (by assumption))) (State.modPlc_keeps (by assumption))
  assumption
  assumption

theorem State.enterMove_keeps {z : State} {s : State} {which : MapEnt → Bool} {b : Nat} {addr : Nat} (hs : s.keeps z) :
    (State.enterMove s which b addr).keeps z := by
  unfold State.enterMove
  exact keepsIte (State.plcFault_keeps (by assumption)) (State.mapEnts_keeps (by assumption))

theorem State.enterUnit_keeps {z : State} {s : State} {e : MapEnt} (hs : s.keeps z) :
    (State.enterUnit s e).keeps z := by
  unfold State.enterUnit
  apply keepsIte
  exact State.plcFault_keeps (by assumption)
  exact keepsIte (State.plcFault_keeps (by assumption)) (State.mapUsed_keeps (State.slotCounts_keeps (State.modPlc_keeps (by assumption))))

theorem State.supersede_keeps {z : State} {s : State} {t : Nat} {k : Nat} (hs : s.keeps z) :
    (State.supersede s t k).keeps z := by
  unfold State.supersede
  dsimp only
  split
  assumption
  exact State.mapEnts_keeps (by assumption)

theorem State.applyTomb_keeps {z : State} {s : State} {b : Tomb} (hs : s.keeps z) :
    (State.applyTomb s b).keeps z := by
  unfold State.applyTomb
  dsimp only
  exact keepsIte (State.mapEnts_keeps (by assumption)) (keepsIte (State.plcFault_keeps (State.mapEnts_keeps (by assumption))) (State.modPlc_keeps (State.mapEnts_keeps (by assumption))))

theorem State.modLayer_keeps {z : State} {s : State} {slot : Nat} {side : Nat} {layer : Nat} {f : LayerSt → LayerSt} (hs : s.keeps z) :
    (State.modLayer s slot side layer f).keeps z := by
  unfold State.modLayer
  exact State.modPlc_keeps (by assumption)

theorem State.showFree_keeps {z : State} {s : State} {slot : Nat} (hs : s.keeps z) :
    (State.showFree s slot).keeps z := by
  unfold State.showFree
  dsimp only
  exact State.set_keeps (by assumption)

theorem State.enqueue_keeps {z : State} {s : State} {k : JobKind} {t : Nat} {cmd : Option Nat} {st : Nat} {slot : Nat} {write : Bool} {u : JobUnit} (hs : s.keeps z) :
    (State.enqueue s k t cmd st slot write u).keeps z := by
  unfold State.enqueue
  dsimp only
  apply keepsIte
  assumption
  split
  exact State.modJob_keeps (by assumption)
  exact State.addJob_keeps (by assumption)

theorem State.dropUnit_keeps {z : State} {s : State} {id : UnitId} {write : Bool} {cmd : Option Nat} (hs : s.keeps z) :
    (State.dropUnit s id write cmd).keeps z := by
  unfold State.dropUnit
  dsimp only
  apply keepsFold
  exact fun _ _ _ => (State.modArb_keeps (by assumption))
  exact keepsMk (by assumption)

/-! ### PlcOps -/

theorem State.modUnit_keeps {z : State} {s : State} {n : Nat} {f : UnitSt → UnitSt} (hs : s.keeps z) :
    (State.modUnit s n f).keeps z := by
  unfold State.modUnit
  exact State.modPlc_keeps (by assumption)

theorem State.addUnit_keeps {z : State} {s : State} {u : UnitSt} (hs : s.keeps z) :
    (State.addUnit s u).keeps z := by
  unfold State.addUnit
  exact State.modPlc_keeps (by assumption)

theorem State.modOpen_keeps {z : State} {s : State} {t : Nat} {k : Nat} {f : OpenVer → OpenVer} (hs : s.keeps z) :
    (State.modOpen s t k f).keeps z := by
  unfold State.modOpen
  exact State.modPlc_keeps (by assumption)

theorem State.logUnit_keeps {z : State} {s : State} {u : UnitSt} {type : Nat} {copies : Nat} {dev : Nat} {code : Nat} (hs : s.keeps z) :
    (State.logUnit s u type copies dev code).keeps z := by
  unfold State.logUnit
  exact State.logPut_keeps (by assumption)

theorem State.showRerepl_keeps {z : State} {s : State} (hs : s.keeps z) :
    (State.showRerepl s).keeps z := by
  unfold State.showRerepl
  exact State.set_keeps (by assumption)

theorem State.queueRerepl_keeps {z : State} {s : State} {u : UnitSt} {n : Nat} (hs : s.keeps z) :
    (State.queueRerepl s u n).keeps z := by
  unfold State.queueRerepl
  dsimp only
  exact keepsIte (by assumption) (State.showRerepl_keeps (State.logUnit_keeps (State.modPlc_keeps (by assumption))))

theorem State.giveUpCopy_keeps {z : State} {s : State} {id : UnitId} {cmd : Option Nat} (hs : s.keeps z) :
    (State.giveUpCopy s id cmd).keeps z := by
  unfold State.giveUpCopy
  dsimp only
  exact keepsMk (State.dropUnit_keeps (by assumption))

theorem State.abandon_keeps {z : State} {s : State} {id : UnitId} {cause : Nat} (hs : s.keeps z) :
    (State.abandon s id cause).keeps z := by
  unfold State.abandon
  dsimp only
  apply keepsFold
  intro _ _ _
  apply keepsIte
  assumption
  split
  apply State.modCmd_keeps
  apply State.modUnit_keeps
  apply State.logUnit_keeps
  apply keepsFold
  exact fun _ _ _ => (keepsIte (State.mapEnts_keeps (State.giveUpCopy_keeps (by assumption))) (keepsIte (State.tell_keeps (by assumption)) (by assumption)))
  assumption
  apply State.modUnit_keeps
  apply State.logUnit_keeps
  apply keepsFold
  exact fun _ _ _ => (keepsIte (State.mapEnts_keeps (State.giveUpCopy_keeps (by assumption))) (keepsIte (State.tell_keeps (by assumption)) (by assumption)))
  assumption
  assumption

theorem State.rereplFail_keeps {z : State} {s : State} {u : UnitSt} (hs : s.keeps z) :
    (State.rereplFail s u).keeps z := by
  unfold State.rereplFail
  dsimp only
  exact State.deferError_keeps (State.logUnit_keeps (State.plcFault_keeps (State.modPlc_keeps (by assumption))))

theorem State.failUnit_keeps {z : State} {s : State} {u : UnitSt} {cause : Nat} (hs : s.keeps z) :
    (State.failUnit s u cause).keeps z := by
  unfold State.failUnit
  exact keepsIte (State.rereplFail_keeps (by assumption)) (keepsIte (State.modPlc_keeps (by assumption)) (State.abandon_keeps (by assumption)))

theorem State.bidRound_keeps {z : State} {s : State} {u : UnitSt} {cands : List Nat} {again : Bool} (hs : s.keeps z) :
    (State.bidRound s u cands again).keeps z := by
  unfold State.bidRound
  dsimp only
  apply State.modUnit_keeps
  apply keepsFold
  exact fun _ _ _ => (State.tell_keeps (by assumption))
  exact State.newXid_keeps (by assumption)

theorem State.awardBid_keeps {z : State} {s : State} {n : Nat} {b : BidRec} {repl : Bool} (hs : s.keeps z) :
    (State.awardBid s n b repl).keeps z := by
  unfold State.awardBid
  dsimp only
  split
  assumption
  apply keepsIte
  split
  exact State.enqueue_keeps (State.modUnit_keeps (by assumption))
  exact State.modUnit_keeps (by assumption)
  exact State.sendData_keeps (State.tell_keeps (State.modUnit_keeps (by assumption)))

theorem State.decideBids_keeps {z : State} {s : State} {n : Nat} (hs : s.keeps z) :
    (State.decideBids s n).keeps z := by
  unfold State.decideBids
  dsimp only
  split
  assumption
  apply keepsIte
  apply State.modUnit_keeps
  apply keepsFold
  exact fun _ _ _ => (State.awardBid_keeps (by assumption))
  exact State.modUnit_keeps (by assumption)
  apply keepsIte
  exact State.failUnit_keeps (State.modUnit_keeps (by assumption))
  apply keepsIte
  apply State.modUnit_keeps
  apply keepsFold
  exact fun _ _ _ => (State.awardBid_keeps (by assumption))
  exact State.modUnit_keeps (by assumption)
  split
  apply State.queueRerepl_keeps
  apply State.modUnit_keeps
  apply keepsFold
  exact fun _ _ _ => (State.awardBid_keeps (by assumption))
  exact State.modUnit_keeps (by assumption)
  apply State.modUnit_keeps
  apply keepsFold
  exact fun _ _ _ => (State.awardBid_keeps (by assumption))
  exact State.modUnit_keeps (by assumption)

theorem State.bidsIn_keeps {z : State} {s : State} {n : Nat} (hs : s.keeps z) :
    (State.bidsIn s n).keeps z := by
  unfold State.bidsIn
  split
  exact keepsIte (State.decideBids_keeps (by assumption)) (by assumption)
  assumption

theorem State.placeUnit_keeps {z : State} {s : State} {u : UnitSt} (hs : s.keeps z) :
    (State.placeUnit s u).keeps z := by
  unfold State.placeUnit
  dsimp only
  apply keepsIte
  exact State.failUnit_keeps (by assumption)
  split
  exact State.bidsIn_keeps (State.bidRound_keeps (keepsIte (by assumption) (State.modUnit_keeps (by assumption))))
  assumption

theorem State.completeUnit_keeps {z : State} {s : State} {u : UnitSt} (hs : s.keeps z) :
    (State.completeUnit s u).keeps z := by
  unfold State.completeUnit
  dsimp only
  apply keepsIte
  exact State.logUnit_keeps (State.incWrap_keeps (State.modPlc_keeps (by assumption)))
  apply keepsIte
  split
  exact State.incWrap_keeps (State.mapEnts_keeps (State.modPlc_keeps (by assumption)))
  exact State.modPlc_keeps (by assumption)
  exact keepsIte (State.modUnit_keeps (by assumption)) (State.queueRerepl_keeps (State.modUnit_keeps (by assumption)))

theorem State.unitCheck_keeps {z : State} {s : State} {n : Nat} (hs : s.keeps z) :
    (State.unitCheck s n).keeps z := by
  unfold State.unitCheck
  dsimp only
  split
  assumption
  apply keepsIte
  exact keepsIte (keepsIte (State.modPlc_keeps (State.queueRerepl_keeps (by assumption))) (State.queueRerepl_keeps (by assumption))) (by assumption)
  apply keepsIte
  exact keepsIte (State.completeUnit_keeps (by assumption)) (State.failUnit_keeps (by assumption))
  apply keepsIte
  assumption
  exact keepsIte (State.completeUnit_keeps (by assumption)) (keepsIte (by assumption) (keepsIte (State.completeUnit_keeps (by assumption)) (State.failUnit_keeps (by assumption))))

theorem State.copyDone_keeps {z : State} {s : State} {dev : Nat} {f : UnitSt → Bool} (hs : s.keeps z) :
    (State.copyDone s dev f).keeps z := by
  unfold State.copyDone
  split
  assumption
  exact State.unitCheck_keeps (State.modUnit_keeps (by assumption))

theorem State.copyFailed_keeps {z : State} {s : State} {dev : Nat} {f : UnitSt → Bool} (hs : s.keeps z) :
    (State.copyFailed s dev f).keeps z := by
  unfold State.copyFailed
  dsimp only
  split
  assumption
  apply keepsIte
  exact State.unitCheck_keeps (State.modUnit_keeps (by assumption))
  split
  exact State.unitCheck_keeps (State.bidsIn_keeps (State.bidRound_keeps (State.modUnit_keeps (State.modUnit_keeps (by assumption)))))
  exact State.modUnit_keeps (State.modUnit_keeps (by assumption))

theorem State.countUnit_keeps {z : State} {s : State} {v : OpenVer} {u : UnitSt} (hs : s.keeps z) :
    (State.countUnit s v u).keeps z := by
  unfold State.countUnit
  dsimp only
  exact keepsIte (State.supersede_keeps (State.modPlc_keeps (State.modOpen_keeps (State.modUnit_keeps (by assumption))))) (State.modOpen_keeps (State.modUnit_keeps (by assumption)))

theorem State.askTier_keeps {z : State} {s : State} {x : Search} {a : Nat} (hs : s.keeps z) :
    (State.askTier s x a).keeps z := by
  induction a generalizing s x
  · exact hs
  · rename_i n ih
    unfold State.askTier
    dsimp only
    apply keepsIte
    exact State.modPlc_keeps (by assumption)
    split
    apply ih
    assumption
    apply keepsFold
    exact fun _ _ _ => (State.tell_keeps (State.modPlc_keeps (State.newXid_keeps (by assumption))))
    exact State.modPlc_keeps (by assumption)

theorem State.startSearch_keeps {z : State} {s : State} {for_ : SearchFor} {id : UnitId} {skip : List Nat} (hs : s.keeps z) :
    (State.startSearch s for_ id skip).keeps z := by
  unfold State.startSearch
  dsimp only
  exact State.askTier_keeps (State.modPlc_keeps (by assumption))

theorem State.modRead_keeps {z : State} {s : State} {cmd : Nat} {unit : Nat} {f : RdUnit → RdUnit} (hs : s.keeps z) :
    (State.modRead s cmd unit f).keeps z := by
  unfold State.modRead
  exact State.modCmd_keeps (by assumption)

theorem State.readLocal_keeps {z : State} {s : State} {c : Cmd} {unit : Nat} {e : MapEnt} (hs : s.keeps z) :
    keepsOpt z (State.readLocal s c unit e) := by
  unfold State.readLocal
  split
  trivial
  exact keepsSome (State.enqueue_keeps (State.modRead_keeps (by assumption)))

theorem State.readNext_keeps {z : State} {s : State} {c : Cmd} {r : RdUnit} (hs : s.keeps z) :
    (State.readNext s c r).keeps z := by
  unfold State.readNext
  dsimp only
  split
  exact State.modRead_keeps (by assumption)
  exact State.tell_keeps (State.modRead_keeps (State.newXid_keeps (by assumption)))

theorem State.readFailed_keeps {z : State} {s : State} {c : Cmd} {r : RdUnit} (hs : s.keeps z) :
    (State.readFailed s c r).keeps z := by
  unfold State.readFailed
  dsimp only
  apply keepsIte
  exact State.modRead_keeps (State.modRead_keeps (by assumption))
  exact keepsIte (State.startSearch_keeps (State.addSat_keeps (State.modRead_keeps (by assumption)))) (State.readNext_keeps (State.addSat_keeps (State.modRead_keeps (by assumption))))

theorem State.readDelivered_keeps {z : State} {s : State} {c : Cmd} {unit : Nat} {len : Nat} (hs : s.keeps z) :
    (State.readDelivered s c unit len).keeps z := by
  unfold State.readDelivered
  exact State.modAcct_keeps (State.modRead_keeps (by assumption))

theorem State.pendRecord_keeps {z : State} {s : State} {slot : Nat} {side : Nat} {layer : Nat} {r : IdxRec} (hs : s.keeps z) :
    (State.pendRecord s slot side layer r).keeps z := by
  unfold State.pendRecord
  exact State.modLayer_keeps (by assumption)

theorem State.writeTomb_keeps {z : State} {s : State} {b : Tomb} {cmd : Option Nat} {peer : Option (Nat × Nat)} (hs : s.keeps z) :
    (State.writeTomb s b cmd peer).keeps z := by
  unfold State.writeTomb
  dsimp only
  apply keepsFold
  intro _ _ _
  split
  exact State.addJob_keeps (State.modLayer_keeps (State.pendRecord_keeps (by assumption)))
  exact State.modLayer_keeps (State.pendRecord_keeps (by assumption))
  exact State.modPlc_keeps (by assumption)

theorem State.tombsDone_keeps {z : State} {s : State} (hs : s.keeps z) :
    (State.tombsDone s).keeps z := by
  unfold State.tombsDone
  dsimp only
  apply keepsFold
  intro _ _ _
  split
  apply State.modCmd_keeps
  split
  exact State.reply_keeps (by assumption)
  assumption
  split
  exact State.reply_keeps (by assumption)
  assumption
  exact State.modPlc_keeps (by assumption)

theorem State.sendTomb_keeps {z : State} {s : State} {c : Cmd} {b : Tomb} {d : Nat} (hs : s.keeps z) :
    (State.sendTomb s c b d).keeps z := by
  unfold State.sendTomb
  dsimp only
  exact keepsIte (State.modCmd_keeps (State.logPut_keeps (State.modPeer_keeps (by assumption)))) (State.modCmd_keeps (State.tell_keeps (State.newXid_keeps (by assumption))))

theorem State.peerDown_keeps {z : State} {s : State} {d : Nat} (hs : s.keeps z) :
    (State.peerDown s d).keeps z := by
  unfold State.peerDown
  apply keepsFold
  exact fun _ _ _ => (keepsIte (State.modCmd_keeps (State.logPut_keeps (State.modPeer_keeps (by assumption)))) (by assumption))
  exact State.markDown_keeps (by assumption)

theorem State.migRead_keeps {z : State} {s : State} {slot : Nat} {e : MapEnt} (hs : s.keeps z) :
    (State.migRead s slot e).keeps z := by
  unfold State.migRead
  split
  exact State.enqueue_keeps (by assumption)
  assumption

theorem State.migNext_keeps {z : State} {s : State} (hs : s.keeps z) :
    (State.migNext s).keeps z := by
  unfold State.migNext
  dsimp only
  split
  assumption
  apply keepsIte
  assumption
  apply keepsIte
  exact State.set_keeps (State.set_keeps (State.modPlc_keeps (by assumption)))
  split
  exact State.migRead_keeps (State.addSat_keeps (State.modPlc_keeps (by assumption)))
  exact State.set_keeps (State.set_keeps (State.modPlc_keeps (State.addSat_keeps (State.modPlc_keeps (by assumption)))))

/-! ### CmdOps -/

theorem State.openVersion_keeps {z : State} {s : State} {c : Cmd} {seq : Nat} (hs : s.keeps z) :
    (State.openVersion s c seq).keeps z := by
  unfold State.openVersion
  dsimp only
  exact keepsIte (State.finishWith_keeps (by assumption)) (State.modPlc_keeps (State.modCmd_keeps (State.modPlc_keeps (by assumption))))

theorem State.startPut_keeps {z : State} {s : State} {c : Cmd} (hs : s.keeps z) :
    (State.startPut s c).keeps z := by
  unfold State.startPut
  dsimp only
  apply keepsIte
  exact State.finishWith_keeps (by assumption)
  apply keepsIte
  exact State.finishWith_keeps (by assumption)
  split
  apply keepsIte
  exact State.finishWith_keeps (by assumption)
  apply State.modCmd_keeps
  apply keepsFold
  exact fun _ _ _ => (State.addUnit_keeps (by assumption))
  assumption
  apply keepsIte
  exact State.finishWith_keeps (by assumption)
  split
  apply State.openVersion_keeps
  apply State.modCmd_keeps
  apply keepsFold
  exact fun _ _ _ => (State.addUnit_keeps (by assumption))
  assumption
  apply State.startSearch_keeps
  apply State.modCmd_keeps
  apply keepsFold
  exact fun _ _ _ => (State.addUnit_keeps (by assumption))
  assumption

theorem State.startReads_keeps {z : State} {s : State} {id : Nat} (hs : s.keeps z) :
    (State.startReads s id).keeps z := by
  unfold State.startReads
  dsimp only
  split
  assumption
  apply keepsFold
  intro _ _ _
  apply keepsIte
  assumption
  apply keepsIte
  assumption
  apply keepsIte
  exact State.readDelivered_keeps (by assumption)
  split
  split
  refine keepsOf (by assumption) ?_
  exact State.readLocal_keeps (State.modRead_keeps (by assumption))
  exact State.startSearch_keeps (State.modRead_keeps (by assumption))
  exact State.startSearch_keeps (by assumption)
  assumption

theorem State.startGet_keeps {z : State} {s : State} {c : Cmd} (hs : s.keeps z) :
    (State.startGet s c).keeps z := by
  unfold State.startGet
  dsimp only
  exact keepsIte (State.finishWith_keeps (by assumption)) (State.startReads_keeps (State.modCmd_keeps (by assumption)))

theorem State.startSeal_keeps {z : State} {s : State} {c : Cmd} (hs : s.keeps z) :
    (State.startSeal s c).keeps z := by
  unfold State.startSeal
  dsimp only
  split
  exact State.finishWith_keeps (by assumption)
  exact keepsIte (State.finishWith_keeps (by assumption)) (State.addUnit_keeps (State.modCmd_keeps (by assumption)))

theorem State.deleteNow_keeps {z : State} {s : State} {c : Cmd} {ver : Nat} {holders : List Nat} (hs : s.keeps z) :
    (State.deleteNow s c ver holders).keeps z := by
  unfold State.deleteNow
  dsimp only
  apply keepsFold
  exact fun _ _ _ => (State.sendTomb_keeps (by assumption))
  exact State.writeTomb_keeps (State.applyTomb_keeps (State.modCmd_keeps (by assumption)))

theorem State.startDelete_keeps {z : State} {s : State} {c : Cmd} (hs : s.keeps z) :
    (State.startDelete s c).keeps z := by
  unfold State.startDelete
  dsimp only
  exact keepsIte (State.startSearch_keeps (State.deleteNow_keeps (State.modCmd_keeps (by assumption)))) (State.startSearch_keeps (State.modCmd_keeps (by assumption)))

theorem State.deleteTenant_keeps {z : State} {s : State} {c : Cmd} (hs : s.keeps z) :
    (State.deleteTenant s c).keeps z := by
  unfold State.deleteTenant
  dsimp only
  apply keepsFold
  exact fun _ _ _ => (State.sendTomb_keeps (by assumption))
  exact State.writeTomb_keeps (State.applyTomb_keeps (State.setKeys_keeps (State.modCmd_keeps (by assumption))))

theorem State.startReserve_keeps {z : State} {s : State} {c : Cmd} (hs : s.keeps z) :
    (State.startReserve s c).keeps z := by
  unfold State.startReserve
  dsimp only
  split
  split
  exact State.modCmd_keeps (keepsIte (State.modCmd_keeps (by assumption)) (State.addJob_keeps (State.modCmd_keeps (by assumption))))
  exact State.startSearch_keeps (State.modCmd_keeps (by assumption))
  exact State.startSearch_keeps (State.modCmd_keeps (by assumption))

theorem State.runStat_keeps {z : State} {s : State} {c : Cmd} (hs : s.keeps z) :
    (State.runStat s c).keeps z := by
  unfold State.runStat
  dsimp only
  exact keepsIte (State.finishWith_keeps (by assumption)) (State.finish_keeps (by assumption))

theorem State.runList_keeps {z : State} {s : State} {c : Cmd} (hs : s.keeps z) :
    (State.runList s c).keeps z := by
  unfold State.runList
  dsimp only
  exact State.finish_keeps (by assumption)

theorem State.startCmd_keeps {z : State} {s : State} {c : Cmd} (hs : s.keeps z) :
    (State.startCmd s c).keeps z := by
  unfold State.startCmd
  apply keepsIte
  exact State.startPut_keeps (by assumption)
  apply keepsIte
  exact State.startGet_keeps (by assumption)
  apply keepsIte
  exact State.startSeal_keeps (by assumption)
  apply keepsIte
  exact keepsIte (State.deleteTenant_keeps (by assumption)) (State.startDelete_keeps (by assumption))
  apply keepsIte
  exact State.startReserve_keeps (by assumption)
  exact keepsIte (State.runStat_keeps (by assumption)) (keepsIte (State.runList_keeps (by assumption)) (State.modCmd_keeps (by assumption)))

theorem State.endJobs_keeps {z : State} {s : State} {id : Nat} (hs : s.keeps z) :
    (State.endJobs s id).keeps z := by
  unfold State.endJobs
  apply keepsFold
  exact fun _ _ _ => (keepsIte (State.releaseStn_keeps (by assumption)) (by assumption))
  exact State.dropJobs_keeps (by assumption)

theorem State.endPut_keeps {z : State} {s : State} {c : Cmd} (hs : s.keeps z) :
    keepsOpt z (State.endPut s c) := by
  unfold State.endPut
  dsimp only
  apply keepsIteOpt
  trivial
  apply keepsIteOpt
  apply keepsIteOpt
  exact keepsSome (State.finish_keeps (State.modPlc_keeps (State.modPlc_keeps (State.endJobs_keeps (by assumption)))))
  exact keepsSome (State.finish_keeps (State.modPlc_keeps (State.modPlc_keeps (State.endJobs_keeps (by assumption)))))
  apply keepsIteOpt
  apply keepsIteOpt
  exact keepsSome (State.finishWith_keeps (State.modPlc_keeps (State.modPlc_keeps (State.endJobs_keeps (by assumption)))))
  exact keepsSome (State.finishWith_keeps (State.modPlc_keeps (State.modPlc_keeps (State.endJobs_keeps (by assumption)))))
  exact keepsSome (State.finish_keeps (State.modPlc_keeps (State.modPlc_keeps (State.endJobs_keeps (by assumption)))))

theorem State.endGet_keeps {z : State} {s : State} {c : Cmd} (hs : s.keeps z) :
    keepsOpt z (State.endGet s c) := by
  unfold State.endGet
  dsimp only
  apply keepsIteOpt
  trivial
  apply keepsIteOpt
  exact keepsSome (State.finish_keeps (State.endJobs_keeps (by assumption)))
  apply keepsIteOpt
  exact keepsSome (State.finishWith_keeps (State.endJobs_keeps (by assumption)))
  apply keepsIteOpt
  apply keepsSome
  apply State.finish_keeps
  apply keepsFold
  exact fun _ _ _ => (State.logPut_keeps (by assumption))
  exact State.endJobs_keeps (by assumption)
  apply keepsIteOpt
  apply keepsSome
  apply State.finishWith_keeps
  apply keepsFold
  exact fun _ _ _ => (State.logPut_keeps (by assumption))
  exact State.endJobs_keeps (by assumption)
  apply keepsIteOpt
  exact keepsSome (State.finishWith_keeps (State.endJobs_keeps (by assumption)))
  apply keepsSome
  apply State.finishWith_keeps
  apply keepsFold
  exact fun _ _ _ => (State.logPut_keeps (by assumption))
  exact State.endJobs_keeps (by assumption)

theorem State.endDelete_keeps {z : State} {s : State} {c : Cmd} (hs : s.keeps z) :
    keepsOpt z (State.endDelete s c) := by
  unfold State.endDelete
  exact keepsIteOpt trivial (keepsSome (State.finish_keeps (State.endJobs_keeps (by assumption))))

theorem State.endReserve_keeps {z : State} {s : State} {c : Cmd} (hs : s.keeps z) :
    keepsOpt z (State.endReserve s c) := by
  unfold State.endReserve
  dsimp only
  split
  trivial
  split
  exact keepsIteOpt (keepsSome (State.finish_keeps (State.releaseStn_keeps (by assumption)))) trivial
  trivial

theorem State.endFlush_keeps {z : State} {s : State} {c : Cmd} (hs : s.keeps z) :
    keepsOpt z (State.endFlush s c) := by
  unfold State.endFlush
  exact keepsIteOpt (keepsIteOpt (keepsSome (State.finish_keeps (by assumption))) trivial) (keepsIteOpt (keepsSome (State.finish_keeps (by assumption))) trivial)

theorem State.endCmd_keeps {z : State} {s : State} {c : Cmd} (hs : s.keeps z) :
    keepsOpt z (State.endCmd s c) := by
  unfold State.endCmd
  apply keepsIteOpt
  exact State.endFlush_keeps (by assumption)
  apply keepsIteOpt
  trivial
  apply keepsIteOpt
  exact State.endPut_keeps (by assumption)
  exact keepsIteOpt (State.endGet_keeps (by assumption)) (keepsIteOpt (State.endDelete_keeps (by assumption)) (keepsIteOpt (State.endReserve_keeps (by assumption)) trivial))

theorem State.searchDone_keeps {z : State} {s : State} {x : Search} (hs : s.keeps z) :
    (State.searchDone s x).keeps z := by
  unfold State.searchDone
  dsimp only
  split
  split
  exact State.openVersion_keeps (State.modPlc_keeps (by assumption))
  exact State.modPlc_keeps (by assumption)
  split
  exact State.modPlc_keeps (by assumption)
  split
  exact State.modRead_keeps (keepsIte (State.modCmd_keeps (State.modPlc_keeps (by assumption))) (State.modPlc_keeps (by assumption)))
  apply keepsIte
  apply keepsIte
  exact State.modPlc_keeps (by assumption)
  exact State.readNext_keeps (State.dropUnit_keeps (State.modRead_keeps (keepsIte (State.modCmd_keeps (State.modPlc_keeps (by assumption))) (State.modPlc_keeps (by assumption)))))
  apply keepsIte
  exact State.modCmd_keeps (State.modRead_keeps (keepsIte (State.modCmd_keeps (State.modPlc_keeps (by assumption))) (State.modPlc_keeps (by assumption))))
  exact State.startReads_keeps (State.readNext_keeps (State.modRead_keeps (keepsIte (State.modCmd_keeps (State.modPlc_keeps (by assumption))) (State.modPlc_keeps (by assumption)))))
  split
  exact State.modPlc_keeps (by assumption)
  apply keepsIte
  apply keepsFold
  exact fun _ _ _ => (State.sendTomb_keeps (by assumption))
  exact State.modPlc_keeps (by assumption)
  exact keepsIte (State.finishWith_keeps (State.endJobs_keeps (State.modPlc_keeps (by assumption)))) (State.deleteNow_keeps (State.modPlc_keeps (by assumption)))
  split
  exact State.finish_keeps (State.endJobs_keeps (State.modPlc_keeps (by assumption)))
  exact State.finishWith_keeps (State.endJobs_keeps (State.modPlc_keeps (by assumption)))
  exact State.modPlc_keeps (by assumption)

theorem State.tierDone_keeps {z : State} {s : State} {n : Nat} (hs : s.keeps z) :
    (State.tierDone s n).keeps z := by
  unfold State.tierDone
  dsimp only
  split
  assumption
  apply keepsIte
  assumption
  apply keepsIte
  exact State.searchDone_keeps (by assumption)
  exact keepsIte (State.searchDone_keeps (by assumption)) (keepsIte (State.askTier_keeps (by assumption)) (State.searchDone_keeps (State.askTier_keeps (by assumption))))

theorem State.settleOne_keeps {z : State} {s : State} (hs : s.keeps z) :
    keepsOpt z (State.settleOne s) := by
  unfold State.settleOne
  dsimp only
  split
  apply keepsSome
  refine keepsOf (by assumption) ?_
  apply keepsOrElse
  apply keepsFindSome
  intro _
  apply keepsMap
  exact fun _ => (State.countUnit_keeps (by assumption))
  intro _
  apply keepsMap
  exact fun _ => (State.tierDone_keeps (by assumption))
  split
  apply keepsSome
  refine keepsOf (by assumption) ?_
  apply keepsFindSome
  exact fun _ => (State.endCmd_keeps (by assumption))
  split
  exact keepsSome (State.startCmd_keeps (by assumption))
  trivial

theorem State.settleFor_keeps {z : State} {a : Nat} {a1 : State} (hs : a1.keeps z) :
    (State.settleFor a a1).keeps z := by
  induction a generalizing a1
  · exact hs
  · rename_i n ih
    unfold State.settleFor
    split
    apply ih
    refine keepsOf (by assumption) ?_
    exact State.settleOne_keeps (by assumption)
    assumption

theorem State.settle_keeps {z : State} {s : State} (hs : s.keeps z) :
    (State.settle s).keeps z := by
  unfold State.settle
  exact State.settleFor_keeps (State.migNext_keeps (State.tombsDone_keeps (by assumption)))

theorem State.counted_keeps {z : State} {s : State} {t : Nat} {f : MeterAcc → MeterAcc} (hs : s.keeps z) :
    (State.counted s t f).keeps z := by
  unfold State.counted
  dsimp only
  exact State.modAcct_keeps (by assumption)

theorem State.refuse_keeps {z : State} {s : State} {c : Cmd} {code : Nat} {retry : Nat} (hs : s.keeps z) :
    (State.refuse s c code retry).keeps z := by
  unfold State.refuse
  exact State.finish_keeps (State.incWrap_keeps (State.counted_keeps (by assumption)))

theorem State.accept_keeps {z : State} {s : State} {c : Cmd} {run : State → Cmd → State} (hs : s.keeps z) (hf : ∀ s c, s.keeps z → (run s c).keeps z) :
    (State.accept s c run).keeps z := by
  unfold State.accept
  dsimp only
  apply keepsIte
  exact State.settle_keeps (State.cmdCounts_keeps (keepsMk (State.incWrap_keeps (State.counted_keeps (by assumption)))))
  apply State.settle_keeps
  apply hf
  exact State.incWrap_keeps (State.counted_keeps (by assumption))

theorem State.defer_keeps {z : State} {s : State} {c : Cmd} {code : Nat} {e : Nat} {recov : Bool} {pos0 : Nat} (hs : s.keeps z) :
    (State.defer s c code e recov pos0).keeps z := by
  unfold State.defer
  dsimp only
  apply State.settle_keeps
  apply State.interim_keeps
  apply keepsIte
  apply State.modCmd_keeps
  apply State.startDelete_keeps
  apply State.cmdCounts_keeps
  with_reducible apply keepsMk
  split
  exact State.addJob_keeps (State.incWrap_keeps (State.counted_keeps (by assumption)))
  exact State.incWrap_keeps (State.counted_keeps (by assumption))
  apply State.cmdCounts_keeps
  with_reducible apply keepsMk
  split
  exact State.addJob_keeps (State.incWrap_keeps (State.counted_keeps (by assumption)))
  exact State.incWrap_keeps (State.counted_keeps (by assumption))

theorem State.admitCmd_keeps {z : State} {s : State} {c : Cmd} {run : State → Cmd → State} (hs : s.keeps z) (hf : ∀ s c, s.keeps z → (run s c).keeps z) :
    (State.admitCmd s c run).keeps z := by
  unfold State.admitCmd
  dsimp only
  split
  exact State.finish_keeps (State.counted_keeps (keepsMk (by assumption)))
  split
  exact keepsIte (State.refuse_keeps (by assumption)) (State.refuse_keeps (State.draw_keeps (by assumption)))
  apply keepsIte
  exact State.refuse_keeps (by assumption)
  apply keepsIte
  exact State.refuse_keeps (keepsIte (State.raise_keeps (keepsMk (by assumption))) (by assumption))
  apply keepsIte
  exact State.defer_keeps (State.draw_keeps (State.draw_keeps (by assumption)))
  apply keepsIte
  apply State.accept_keeps
  assumption
  intro _ _ _
  apply hf
  assumption
  apply keepsIte
  apply State.accept_keeps
  assumption
  intro _ _ _
  apply hf
  assumption
  exact keepsIte (State.refuse_keeps (by assumption)) (keepsIte (State.refuse_keeps (by assumption)) (State.defer_keeps (by assumption)))

theorem State.newCmd_keeps {z : State} {s : State} {p : Path} {op : Nat} {e : Entry} (hs : s.keeps z) :
    (State.newCmd s p op e).2.keeps z := by
  unfold State.newCmd
  dsimp only
  exact keepsMk (by assumption)

theorem State.outcome_keeps {z : State} {s : State} {p : Path} {op : Nat} {e : Entry} {run : State → Cmd → State} (hs : s.keeps z) (hf : ∀ s c, s.keeps z → (run s c).keeps z) :
    (State.outcome s p op e run).keeps z := by
  unfold State.outcome
  dsimp only
  split
  exact State.finishWith_keeps (State.counted_keeps (State.newCmd_keeps (by assumption)))
  apply State.admitCmd_keeps
  exact State.newCmd_keeps (by assumption)
  intro _ _ _
  apply hf
  assumption

theorem State.badHeads_keeps {z : State} {a : Nat} {a1 : State} {a2 : Path} (hs : a1.keeps z) :
    (State.badHeads a a1 a2).keeps z := by
  induction a generalizing a1 a2
  · exact hs
  · rename_i n ih
    unfold State.badHeads
    split
    split
    apply keepsIte
    assumption
    apply ih
    exact State.outcome_keeps (State.modSess_keeps (by assumption)) (fun _ _ _ => (by assumption))
    assumption
    assumption

theorem State.dropVersions_keeps {z : State} {s : State} {keys : List (Nat × Nat)} (hs : s.keeps z) :
    (State.dropVersions s keys).keeps z := by
  unfold State.dropVersions
  dsimp only
  apply keepsFold
  intro _ _ _
  split
  assumption
  apply State.modPlc_keeps
  apply State.mapEnts_keeps
  apply keepsFold
  exact fun _ _ _ => (State.giveUpCopy_keeps (by assumption))
  assumption
  assumption

theorem State.sessionReset_keeps {z : State} {s : State} {p : Path} {dreq : Bool} (hs : s.keeps z) :
    (State.sessionReset s p dreq).keeps z := by
  unfold State.sessionReset
  dsimp only
  split
  assumption
  apply State.cmdCounts_keeps
  apply State.modSess_keeps
  with_reducible apply keepsMk
  apply State.modPlc_keeps
  apply keepsFold
  exact fun _ _ _ => (State.endJobs_keeps (by assumption))
  apply State.dropVersions_keeps
  apply keepsFold
  exact fun _ _ _ => (keepsIte (State.finishWith_keeps (State.newCmd_keeps (State.modSess_keeps (by assumption)))) (State.logPut_keeps (by assumption)))
  apply keepsFold
  exact fun _ _ _ => (keepsIte (State.finishWith_keeps (State.dropJobs_keeps (by assumption))) (State.logPut_keeps (State.dropJobs_keeps (by assumption))))
  assumption

theorem State.arrive_keeps {z : State} {s : State} {p : Path} {op : Nat} {e : Entry} (hs : s.keeps z) :
    (State.arrive s p op e).keeps z := by
  unfold State.arrive
  dsimp only
  split
  assumption
  exact keepsIte (State.modSess_keeps (State.noteHead_keeps (by assumption))) (State.sessionReset_keeps (State.raise_keeps (by assumption)))

theorem State.command_keeps {z : State} {s : State} {p : Path} {op : Nat} {e : Entry} {run : State → Cmd → State} (hs : s.keeps z) (hf : ∀ s c, s.keeps z → (run s c).keeps z) :
    (State.command s p op e run).keeps z := by
  unfold State.command
  dsimp only
  split
  apply keepsIte
  assumption
  apply State.outcome_keeps
  exact State.rxMessage_keeps (by assumption)
  intro _ _ _
  apply hf
  assumption
  split
  split
  exact keepsIte (State.arrive_keeps (by assumption)) (by assumption)
  assumption
  apply keepsIte
  split
  exact keepsIte (State.arrive_keeps (by assumption)) (by assumption)
  assumption
  apply keepsIte
  split
  exact keepsIte (State.arrive_keeps (by assumption)) (by assumption)
  assumption
  apply keepsIte
  split
  exact keepsIte (State.arrive_keeps (by assumption)) (by assumption)
  assumption
  apply State.badHeads_keeps
  apply State.outcome_keeps
  apply State.modSess_keeps
  split
  exact keepsIte (State.arrive_keeps (by assumption)) (by assumption)
  assumption
  intro _ _ _
  apply hf
  assumption

/-! ### Channel -/

theorem State.modChn_keeps {z : State} {s : State} {f : ChnSt → ChnSt} (hs : s.keeps z) :
    (State.modChn s f).keeps z := by
  unfold State.modChn
  exact keepsMk (by assumption)

theorem State.chnFault_keeps {z : State} {s : State} {st : Nat} {kind : Nat} {arg : Nat} (hs : s.keeps z) :
    (State.chnFault s st kind arg).keeps z := by
  unfold State.chnFault
  exact State.raise_keeps (by assumption)

theorem State.gateTick_keeps {z : State} {s : State} {k : Nat} (hs : s.keeps z) :
    (State.gateTick s k).keeps z := by
  unfold State.gateTick
  dsimp only
  exact State.modChn_keeps (State.setFlag_keeps (by assumption))

theorem State.showSingle_keeps {z : State} {s : State} {n : Nat} (hs : s.keeps z) :
    (State.showSingle s n).keeps z := by
  unfold State.showSingle
  dsimp only
  apply keepsFold
  exact fun _ _ _ => (State.setFlag_keeps (by assumption))
  assumption

theorem State.chnTick_keeps {z : State} {s : State} (hs : s.keeps z) :
    (State.chnTick s).keeps z := by
  unfold State.chnTick
  dsimp only
  apply keepsFold
  exact fun _ _ _ => (State.gateTick_keeps (by assumption))
  apply keepsFold
  exact fun _ _ _ => (State.showSingle_keeps (by assumption))
  exact State.modChn_keeps (by assumption)

theorem State.adapt_keeps {z : State} {s : State} {k : Nat} {f : Nat} (hs : s.keeps z) :
    (State.adapt s k f).keeps z := by
  unfold State.adapt
  dsimp only
  apply keepsFold
  exact fun _ _ _ => (State.setReg_keeps (by assumption))
  apply keepsFold
  exact fun _ _ _ => (State.setReg_keeps (by assumption))
  assumption

theorem State.buffer_keeps {z : State} {s : State} {k : Nat} {f : Nat} {r : FrameRead} (hs : s.keeps z) :
    (State.buffer s k f r).keeps z := by
  unfold State.buffer
  dsimp only
  exact State.modChn_keeps (by assumption)

theorem State.showFraming_keeps {z : State} {s : State} {k : Nat} {f : Framing} (hs : s.keeps z) :
    (State.showFraming s k f).keeps z := by
  unfold State.showFraming
  exact State.setInt_keeps (State.setInt_keeps (State.set_keeps (State.set_keeps (by assumption))))

theorem State.putBlock_keeps {z : State} {s : State} {b : BlockSt} (hs : s.keeps z) :
    (State.putBlock s b).keeps z := by
  unfold State.putBlock
  exact State.modChn_keeps (by assumption)

theorem State.dropBlock_keeps {z : State} {s : State} {b : BlockSt} (hs : s.keeps z) :
    (State.dropBlock s b).keeps z := by
  unfold State.dropBlock
  exact State.modChn_keeps (by assumption)

theorem State.deliverBlock_keeps {z : State} {s : State} {n : Nat} {b : BlockSt} {ps : List (List Byte)} (hs : s.keeps z) :
    (State.deliverBlock s n b ps).keeps z := by
  unfold State.deliverBlock
  split
  exact State.modChn_keeps (State.dropBlock_keeps (by assumption))
  exact State.dropBlock_keeps (by assumption)

theorem State.queueReloc_keeps {z : State} {s : State} {n : Nat} {b : BlockSt} {ps : List (List Byte)} (hs : s.keeps z) :
    (State.queueReloc s n b ps).keeps z := by
  unfold State.queueReloc
  split
  exact State.set_keeps (State.modChn_keeps (by assumption))
  assumption

theorem State.blockRecovered_keeps {z : State} {s : State} {n : Nat} {b : BlockSt} {rung : Nat} {ps : List (List Byte)} (hs : s.keeps z) :
    (State.blockRecovered s n b rung ps).keeps z := by
  unfold State.blockRecovered
  dsimp only
  apply State.deliverBlock_keeps
  apply keepsIte
  exact State.chnFault_keeps (keepsIte (State.addSat_keeps (by assumption)) (State.addSat_keeps (by assumption)))
  exact State.queueReloc_keeps (State.chnFault_keeps (keepsIte (State.addSat_keeps (by assumption)) (State.addSat_keeps (by assumption))))

theorem State.blockLost_keeps {z : State} {s : State} {n : Nat} {b : BlockSt} (hs : s.keeps z) :
    (State.blockLost s n b).keeps z := by
  unfold State.blockLost
  dsimp only
  split
  apply keepsIte
  exact State.deferError_keeps (State.modChn_keeps (State.dropBlock_keeps (State.chnFault_keeps (State.addSat_keeps (by assumption)))))
  exact State.modChn_keeps (State.dropBlock_keeps (State.chnFault_keeps (State.addSat_keeps (by assumption))))
  exact State.dropBlock_keeps (State.chnFault_keeps (State.addSat_keeps (by assumption)))

theorem State.climb_keeps {z : State} {s : State} {n : Nat} {b : BlockSt} (hs : s.keeps z) :
    (State.climb s n b).keeps z := by
  unfold State.climb
  dsimp only
  exact keepsIte (State.putBlock_keeps (by assumption)) (keepsIte (State.blockRecovered_keeps (by assumption)) (State.blockLost_keeps (by assumption)))

theorem State.blockJudged_keeps {z : State} {s : State} {n : Nat} {b : BlockSt} (hs : s.keeps z) :
    (State.blockJudged s n b).keeps z := by
  unfold State.blockJudged
  split
  exact keepsIte (State.deliverBlock_keeps (by assumption)) (State.blockRecovered_keeps (by assumption))
  exact State.climb_keeps (by assumption)

theorem State.frameJudged_keeps {z : State} {s : State} {n : Nat} {frame : Nat} {ok : Bool} {payload : List Byte} (hs : s.keeps z) :
    (State.frameJudged s n frame ok payload).keeps z := by
  unfold State.frameJudged
  dsimp only
  split
  assumption
  apply keepsIte
  exact keepsIte (by assumption) (keepsIte (State.blockJudged_keeps (by assumption)) (State.putBlock_keeps (by assumption)))
  apply keepsIte
  assumption
  apply keepsIte
  exact State.putBlock_keeps (by assumption)
  exact keepsIte (State.blockJudged_keeps (by assumption)) (keepsIte (State.blockRecovered_keeps (by assumption)) (State.climb_keeps (by assumption)))

theorem State.noteRecord_keeps {z : State} {s : State} {n : Nat} {frame : Nat} {payload : List Byte} (hs : s.keeps z) :
    (State.noteRecord s n frame payload).keeps z := by
  unfold State.noteRecord
  dsimp only
  split
  assumption
  exact keepsIte (State.mapEnts_keeps (by assumption)) (by assumption)

theorem State.markFrame_keeps {z : State} {s : State} {n : Nat} {f : Nat} (hs : s.keeps z) :
    (State.markFrame s n f).keeps z := by
  unfold State.markFrame
  dsimp only
  split
  exact keepsIte (State.modLayer_keeps (by assumption)) (by assumption)
  assumption

theorem State.loadEngine_keeps {z : State} {s : State} {k : Nat} {f : FrameSt} (hs : s.keeps z) :
    (State.loadEngine s k f).keeps z := by
  unfold State.loadEngine
  dsimp only
  exact State.modChn_keeps (by assumption)

theorem State.freeEngine_keeps {z : State} {s : State} {k : Nat} {e : Nat} (hs : s.keeps z) :
    (State.freeEngine s k e).keeps z := by
  unfold State.freeEngine
  exact State.modChn_keeps (by assumption)

theorem execFrameReceived_keeps {z : State} {k : Fin 16} {frame : BitVec 24} {r : FrameRead} {s : State} (hs : s.keeps z) :
    keepsOut z (execFrameReceived k frame r s) := by
  unfold execFrameReceived
  dsimp only
  apply keepsIteOut
  exact keepsNext (State.set_keeps (by assumption))
  apply keepsIteOut
  exact keepsNext (State.set_keeps (by assumption))
  apply keepsIteOut
  exact keepsNext (State.frameJudged_keeps (State.addSat_keeps (State.set_keeps (by assumption))))
  apply keepsIteOut
  exact keepsNext (State.buffer_keeps (State.setFlag_keeps (State.set_keeps (by assumption))))
  split
  apply keepsNext
  apply State.frameJudged_keeps
  apply State.addSat_keeps
  apply State.when_keeps
  apply State.when_keeps
  apply State.setFlag_keeps
  exact State.setFlag_keeps (State.setReg_keeps (State.adapt_keeps (State.markFrame_keeps (State.buffer_keeps (State.setFlag_keeps (State.set_keeps (by assumption)))))))
  exact fun _ _ => (State.addSat_keeps (by assumption))
  exact fun _ _ => (State.addSat_keeps (by assumption))
  apply keepsNext
  apply State.loadEngine_keeps
  apply State.showFraming_keeps
  apply State.setFlag_keeps
  apply State.when_keeps
  apply State.when_keeps
  apply State.setFlag_keeps
  exact State.setFlag_keeps (State.setReg_keeps (State.adapt_keeps (State.markFrame_keeps (State.buffer_keeps (State.setFlag_keeps (State.set_keeps (by assumption)))))))
  exact fun _ _ => (State.addSat_keeps (by assumption))
  exact fun _ _ => (State.addSat_keeps (by assumption))

theorem execLdpcAttemptDone_keeps {z : State} {k : Fin 16} {e : Fin 2} {r : LdpcResult} {s : State} (hs : s.keeps z) :
    keepsOut z (execLdpcAttemptDone k e r s) := by
  unfold execLdpcAttemptDone
  dsimp only
  split
  exact keepsNext (by assumption)
  apply keepsIteOut
  exact keepsNext (by assumption)
  apply keepsIteOut
  apply keepsNext
  apply State.frameJudged_keeps
  apply State.noteRecord_keeps
  apply State.when_keeps
  exact State.set_keeps (State.incWrap_keeps (State.freeEngine_keeps (State.set_keeps (State.set_keeps (State.set_keeps (State.set_keeps (by assumption)))))))
  exact fun _ _ => (State.set_keeps (State.addSat_keeps (by assumption)))
  split
  apply keepsNext
  apply State.modChn_keeps
  exact State.when_keeps (State.set_keeps (State.set_keeps (State.set_keeps (State.set_keeps (by assumption))))) (fun _ _ => (State.showFraming_keeps (by assumption)))
  exact keepsNext (State.frameJudged_keeps (State.addSat_keeps (State.freeEngine_keeps (State.set_keeps (State.set_keeps (State.set_keeps (State.set_keeps (by assumption))))))))

theorem execLadderRungDone_keeps {z : State} {n : Fin 4} {first : BitVec 24} {s : State} (hs : s.keeps z) :
    keepsOut z (execLadderRungDone n first s) := by
  unfold execLadderRungDone
  split
  exact keepsNext (by assumption)
  exact keepsNext (keepsIte (State.blockJudged_keeps (by assumption)) (State.climb_keeps (by assumption)))

theorem execRelocationWrite_keeps {z : State} {n : Fin 4} {s : State} (hs : s.keeps z) :
    keepsOut z (execRelocationWrite n s) := by
  unfold execRelocationWrite
  dsimp only
  split
  apply keepsIteOut
  exact keepsNext (by assumption)
  split
  exact keepsNext (keepsIte (State.set_keeps (State.modChn_keeps (by assumption))) (State.chnFault_keeps (State.set_keeps (State.modChn_keeps (by assumption)))))
  apply keepsNext
  apply State.showFree_keeps
  apply State.pendRecord_keeps
  apply State.enterMove_keeps
  apply State.incWrap_keeps
  exact State.modLayer_keeps (keepsIte (State.set_keeps (State.modChn_keeps (by assumption))) (State.chnFault_keeps (State.set_keeps (State.modChn_keeps (by assumption)))))
  exact keepsNext (by assumption)

theorem State.modExt_keeps {z : State} {s : State} {n : Nat} {x : Option ExtSt} (hs : s.keeps z) :
    (State.modExt s n x).keeps z := by
  unfold State.modExt
  exact State.modChn_keeps (by assumption)

theorem State.copyLost_keeps {z : State} {s : State} {id : UnitId} {peer : Option (Nat × Nat)} {reason : Nat} (hs : s.keeps z) :
    (State.copyLost s id peer reason).keeps z := by
  unfold State.copyLost
  split
  exact State.modPlc_keeps (State.tell_keeps (by assumption))
  exact State.copyFailed_keeps (by assumption)

theorem State.setExtSeq_keeps {z : State} {s : State} {slot : Nat} {side : Nat} {v : Nat} (hs : s.keeps z) :
    (State.setExtSeq s slot side v).keeps z := by
  unfold State.setExtSeq
  exact State.modPlc_keeps (by assumption)

theorem execExtentWriteStart_keeps {z : State} {n : Fin 4} {s : State} (hs : s.keeps z) :
    keepsOut z (execExtentWriteStart n s) := by
  unfold execExtentWriteStart
  dsimp only
  split
  split
  exact keepsNext (by assumption)
  split
  exact keepsNext (by assumption)
  apply keepsIteOut
  exact keepsNext (by assumption)
  apply keepsIteOut
  split
  exact keepsNext (State.enqueue_keeps (State.dropUnit_keeps (by assumption)))
  exact keepsNext (State.settle_keeps (State.copyLost_keeps (State.dropUnit_keeps (by assumption))))
  apply keepsIteOut
  exact keepsNext (by assumption)
  apply keepsIteOut
  exact keepsNext (State.setReg_keeps (State.modChn_keeps (by assumption)))
  apply keepsNext
  exact State.modPu_keeps (State.set_keeps (State.setFlag_keeps (State.set_keeps (State.set_keeps (State.set_keeps (State.setExtSeq_keeps (State.modExt_keeps (by assumption))))))))
  exact keepsNext (by assumption)

theorem State.extEnd_keeps {z : State} {s : State} {n : Nat} {x : ExtSt} {front : Nat} (hs : s.keeps z) :
    (State.extEnd s n x front).keeps z := by
  unfold State.extEnd
  dsimp only
  exact State.showFree_keeps (State.modArb_keeps (keepsMk (State.modLayer_keeps (State.set_keeps (State.set_keeps (State.set_keeps (State.modExt_keeps (by assumption))))))))

theorem State.extAbort_keeps {z : State} {s : State} {n : Nat} {x : ExtSt} (hs : s.keeps z) :
    (State.extAbort s n x).keeps z := by
  unfold State.extAbort
  dsimp only
  apply keepsIte
  exact State.pendRecord_keeps (State.slotCounts_keeps (State.raise_keeps (State.addSat_keeps (State.extEnd_keeps (by assumption)))))
  exact State.copyLost_keeps (State.pendRecord_keeps (State.slotCounts_keeps (State.raise_keeps (State.addSat_keeps (State.extEnd_keeps (by assumption))))))

theorem State.extCommit_keeps {z : State} {s : State} {n : Nat} {x : ExtSt} (hs : s.keeps z) :
    (State.extCommit s n x).keeps z := by
  unfold State.extCommit
  dsimp only
  split
  apply State.modPlc_keeps
  exact State.tell_keeps (State.pendRecord_keeps (State.enterUnit_keeps (State.mapEnts_keeps (State.modLayer_keeps (State.incWrap_keeps (State.extEnd_keeps (by assumption)))))))
  exact State.copyDone_keeps (State.pendRecord_keeps (State.enterUnit_keeps (State.mapEnts_keeps (State.modLayer_keeps (State.incWrap_keeps (State.extEnd_keeps (by assumption)))))))

theorem State.clearMark_keeps {z : State} {s : State} {n : Nat} {ok : Bool} (hs : s.keeps z) :
    (State.clearMark s n ok).keeps z := by
  unfold State.clearMark
  exact keepsIte (State.modPu_keeps (by assumption)) (by assumption)

theorem execVerifyVerdict_keeps {z : State} {n : Fin 4} {frame : BitVec 11} {r : FrameCheck} {s : State} (hs : s.keeps z) :
    keepsOut z (execVerifyVerdict n frame r s) := by
  unfold execVerifyVerdict
  dsimp only
  split
  exact keepsNext (by assumption)
  apply keepsIteOut
  exact keepsNext (by assumption)
  apply keepsIteOut
  exact keepsNext (State.settle_keeps (State.extAbort_keeps (by assumption)))
  apply keepsIteOut
  exact keepsNext (State.incWrap_keeps (State.modExt_keeps (State.clearMark_keeps (by assumption))))
  apply keepsIteOut
  exact keepsNext (State.settle_keeps (State.extAbort_keeps (State.addSat_keeps (State.clearMark_keeps (by assumption)))))
  exact keepsNext (State.set_keeps (State.modExt_keeps (State.addSat_keeps (State.clearMark_keeps (by assumption)))))

theorem execCommitRecordVerdict_keeps {z : State} {n : Fin 4} {r : FrameCheck} {s : State} (hs : s.keeps z) :
    keepsOut z (execCommitRecordVerdict n r s) := by
  unfold execCommitRecordVerdict
  dsimp only
  split
  exact keepsNext (by assumption)
  apply keepsIteOut
  exact keepsNext (by assumption)
  apply keepsIteOut
  exact keepsNext (State.modExt_keeps (State.clearMark_keeps (by assumption)))
  apply keepsIteOut
  exact keepsNext (State.settle_keeps (State.extCommit_keeps (State.clearMark_keeps (by assumption))))
  exact keepsNext (State.settle_keeps (State.extAbort_keeps (State.clearMark_keeps (by assumption))))

theorem execOpcDone_keeps {z : State} {n : Fin 4} {errors : List (BitVec 16)} {area : Bool} {control : List Byte} {s : State} (hs : s.keeps z) :
    keepsOut z (execOpcDone n errors area control s) := by
  unfold execOpcDone
  dsimp only
  split
  apply keepsIteOut
  exact keepsNext (State.modLayer_keeps (State.chnFault_keeps (State.modChn_keeps (by assumption))))
  apply keepsIteOut
  apply keepsNext
  apply State.modLayer_keeps
  exact State.modLayer_keeps (State.chnFault_keeps (State.set_keeps (State.set_keeps (State.set_keeps (State.setFlag_keeps (State.set_keeps (State.modChn_keeps (by assumption))))))))
  apply keepsNext
  apply State.set_keeps
  apply State.modChn_keeps
  apply State.modLayer_keeps
  apply State.set_keeps
  apply State.set_keeps
  apply State.set_keeps
  apply keepsIte
  exact State.set_keeps (State.set_keeps (State.set_keeps (State.setFlag_keeps (State.set_keeps (State.modChn_keeps (by assumption))))))
  apply keepsFold
  exact fun _ _ _ => (State.setReg_keeps (by assumption))
  exact State.set_keeps (State.set_keeps (State.set_keeps (State.setFlag_keeps (State.set_keeps (State.modChn_keeps (by assumption))))))
  exact keepsNext (by assumption)

theorem execOpcAck_keeps {z : State} {p : Path} {n : Fin 4} {s : State} (hs : s.keeps z) :
    keepsOut z (execOpcAck p n s) := by
  unfold execOpcAck
  exact keepsNext (State.writeBy_keeps (by assumption) (fun _ _ => (State.setReg_keeps (by assumption))))

theorem execOpcStatRead_keeps {z : State} {p : Path} {n : Fin 4} {s : State} (hs : s.keeps z) :
    keepsOut z (execOpcStatRead p n s) := by
  unfold execOpcStatRead
  apply keepsNext
  apply State.readBy_keeps
  assumption
  intro _ _
  dsimp only
  exact keepsIte (State.set_keeps (by assumption)) (by assumption)

theorem State.enterSearched_keeps {z : State} {s : State} {slot : Nat} {side : Nat} {layer : Nat} {x : FoundExt} (hs : s.keeps z) :
    (State.enterSearched s slot side layer x).keeps z := by
  unfold State.enterSearched
  dsimp only
  apply keepsIte
  exact State.setExtSeq_keeps (State.pendRecord_keeps (by assumption))
  apply keepsIte
  exact State.enterUnit_keeps (State.setExtSeq_keeps (State.pendRecord_keeps (by assumption)))
  exact State.slotCounts_keeps (State.setExtSeq_keeps (State.pendRecord_keeps (by assumption)))

theorem execWriteFrontSearch_keeps {z : State} {n : Fin 4} {layer : BitVec 5} {reads : List FrameSeen} {s : State} (hs : s.keeps z) :
    keepsOut z (execWriteFrontSearch n layer reads s) := by
  unfold execWriteFrontSearch
  dsimp only
  split
  exact keepsNext (by assumption)
  apply keepsIteOut
  exact keepsNext (by assumption)
  apply keepsNext
  apply State.showFree_keeps
  apply State.modLayer_keeps
  apply keepsFold
  exact fun _ _ _ => (State.enterSearched_keeps (by assumption))
  assumption

theorem State.indexed_keeps {z : State} {s : State} {slot : Nat} {side : Nat} {l : List IdxRec} (hs : s.keeps z) :
    (State.indexed s slot side l).keeps z := by
  unfold State.indexed
  apply keepsFold
  exact fun _ _ _ => (keepsIte (State.mapEnts_keeps (by assumption)) (keepsIte (State.modPlc_keeps (by assumption)) (by assumption)))
  assumption

theorem execIndexFrameWrite_keeps {z : State} {n : Fin 4} {layer : BitVec 5} {r : FrameCheck} {s : State} (hs : s.keeps z) :
    keepsOut z (execIndexFrameWrite n layer r s) := by
  unfold execIndexFrameWrite
  dsimp only
  split
  exact keepsNext (by assumption)
  apply keepsIteOut
  exact keepsNext (by assumption)
  apply keepsNext
  apply keepsIte
  exact State.settle_keeps (State.indexed_keeps (State.modLayer_keeps (keepsIte (State.chnFault_keeps (by assumption)) (by assumption))))
  exact State.modLayer_keeps (keepsIte (State.chnFault_keeps (by assumption)) (by assumption))

theorem execIndexAgeExpiry_keeps {z : State} {slot : BitVec 5} {side : Fin 2} {layer : BitVec 5} {s : State} (hs : s.keeps z) :
    keepsOut z (execIndexAgeExpiry slot side layer s) := by
  unfold execIndexAgeExpiry
  dsimp only
  split
  exact keepsIteOut (keepsNext (State.modLayer_keeps (by assumption))) (keepsNext (by assumption))
  exact keepsNext (by assumption)

/-! ### RebuildOps -/

theorem State.settleSlot_keeps {z : State} {s : State} {k : Nat} {state : Nat} (hs : s.keeps z) :
    (State.settleSlot s k state).keeps z := by
  unfold State.settleSlot
  exact State.showFree_keeps (State.dropJobs_keeps (State.set_keeps (by assumption)))

theorem State.rebuildTick_keeps {z : State} {s : State} (hs : s.keeps z) :
    (State.rebuildTick s).keeps z := by
  unfold State.rebuildTick
  dsimp only
  apply keepsIte
  apply State.set_keeps
  apply keepsFold
  exact fun _ _ _ => (keepsIte (by assumption) (keepsIte (State.settleSlot_keeps (by assumption)) (keepsIte (State.settleSlot_keeps (by assumption)) (by assumption))))
  assumption
  assumption

theorem State.rebuildJob_keeps {z : State} {s : State} {slot : Nat} {st : Nat} (hs : s.keeps z) :
    (State.rebuildJob s slot st).keeps z := by
  unfold State.rebuildJob
  exact State.addJob_keeps (by assumption)

theorem State.startRebuild_keeps {z : State} {s : State} (hs : s.keeps z) :
    (State.startRebuild s).keeps z := by
  unfold State.startRebuild
  dsimp only
  apply keepsFold
  exact fun _ _ _ => (State.rebuildJob_keeps (by assumption))
  apply keepsFold
  exact fun _ _ _ => (State.rebuildJob_keeps (by assumption))
  apply State.set_keeps
  apply State.set_keeps
  apply State.mapUsed_keeps
  apply keepsFold
  exact fun _ _ _ => (State.set_keeps (State.set_keeps (State.set_keeps (State.set_keeps (by assumption)))))
  exact State.modPlc_keeps (by assumption)

theorem State.enterFound_keeps {z : State} {s : State} {e : MapEnt} (hs : s.keeps z) :
    (State.enterFound s e).keeps z := by
  unfold State.enterFound
  dsimp only
  split
  exact State.enterUnit_keeps (by assumption)
  exact keepsIte (State.enterUnit_keeps (State.mapEnts_keeps (by assumption))) (State.enterUnit_keeps (by assumption))

theorem State.applyRebuilt_keeps {z : State} {s : State} (hs : s.keeps z) :
    (State.applyRebuilt s).keeps z := by
  unfold State.applyRebuilt
  dsimp only
  apply keepsFold
  exact fun _ _ _ => (State.supersede_keeps (by assumption))
  apply keepsFold
  exact fun _ _ _ => (State.mapEnts_keeps (by assumption))
  assumption

theorem State.rebuildFailed_keeps {z : State} {s : State} {slot : Nat} {st : Nat} (hs : s.keeps z) :
    (State.rebuildFailed s slot st).keeps z := by
  unfold State.rebuildFailed
  dsimp only
  exact keepsIte (State.settleSlot_keeps (State.modPlc_keeps (by assumption))) (State.rebuildJob_keeps (State.modPlc_keeps (by assumption)))

theorem State.enterReloc_keeps {z : State} {s : State} {slot : Nat} {r : List Byte} (hs : s.keeps z) :
    (State.enterReloc s slot r).keeps z := by
  unfold State.enterReloc
  exact State.enterMove_keeps (by assumption)

theorem State.enterTomb_keeps {z : State} {s : State} {r : List Byte} (hs : s.keeps z) :
    (State.enterTomb s r).keeps z := by
  unfold State.enterTomb
  dsimp only
  exact keepsIte (by assumption) (keepsIte (State.plcFault_keeps (by assumption)) (State.modPlc_keeps (by assumption)))

theorem State.seenSeq_keeps {z : State} {s : State} {slot : Nat} {side : Nat} {seq : Nat} (hs : s.keeps z) :
    (State.seenSeq s slot side seq).keeps z := by
  unfold State.seenSeq
  exact State.modPlc_keeps (by assumption)

theorem State.enterLayer_keeps {z : State} {s : State} {slot : Nat} {r : LayerSeen} (hs : s.keeps z) :
    (State.enterLayer s slot r).keeps z := by
  unfold State.enterLayer
  dsimp only
  apply State.modLayer_keeps
  apply keepsFold
  exact fun _ _ _ => (State.seenSeq_keeps (State.slotCounts_keeps (by assumption)))
  apply keepsFold
  exact fun _ _ _ => (State.seenSeq_keeps (State.enterFound_keeps (by assumption)))
  assumption

theorem State.enterDisc_keeps {z : State} {s : State} {slot : Nat} {r : DiscFound} (hs : s.keeps z) :
    (State.enterDisc s slot r).keeps z := by
  unfold State.enterDisc
  dsimp only
  apply keepsFold
  exact fun _ _ _ => (State.deferError_keeps (by assumption))
  apply keepsFold
  exact fun _ _ _ => (State.enterTomb_keeps (by assumption))
  apply keepsFold
  exact fun _ _ _ => (State.enterReloc_keeps (by assumption))
  apply keepsFold
  exact fun _ _ _ => (State.enterLayer_keeps (by assumption))
  assumption

/-! ### Placement -/

theorem State.seenMap_keeps {z : State} {s : State} {h : PeerHdr} (hs : s.keeps z) :
    (State.seenMap s h).keeps z := by
  unfold State.seenMap
  exact keepsIte (State.set_keeps (State.set_keeps (State.set_keeps (State.set_keeps (State.set_keeps (by assumption)))))) (by assumption)

theorem State.peerIn_keeps {z : State} {s : State} {h : PeerHdr} {act : State → State} (hs : s.keeps z) (hf : ∀ s, s.keeps z → (act s).keeps z) :
    (State.peerIn s h act).keeps z := by
  unfold State.peerIn
  dsimp only
  apply keepsIte
  assumption
  apply keepsIte
  exact State.addSat_keeps (by assumption)
  apply keepsIte
  exact State.addSat_keeps (by assumption)
  apply keepsIte
  apply hf
  exact State.plcFault_keeps (State.set_keeps (State.set_keeps (State.seenMap_keeps (by assumption))))
  apply keepsIte
  exact State.tell_keeps (by assumption)
  apply keepsIte
  apply hf
  exact State.plcFault_keeps (State.set_keeps (State.set_keeps (State.set_keeps (State.seenMap_keeps (by assumption)))))
  apply hf
  assumption

theorem State.peerRequest_keeps {z : State} {s : State} {h : PeerHdr} {act : State → State} (hs : s.keeps z) (hf : ∀ s, s.keeps z → (act s).keeps z) :
    (State.peerRequest s h act).keeps z := by
  unfold State.peerRequest
  apply State.peerIn_keeps
  assumption
  intro _ _
  split
  exact State.tell_keeps (by assumption)
  apply hf
  assumption

theorem execUnitPlace_keeps {z : State} {s : State} (hs : s.keeps z) :
    keepsOut z (execUnitPlace s) := by
  unfold execUnitPlace
  split
  exact keepsNext (State.settle_keeps (State.placeUnit_keeps (by assumption)))
  exact keepsNext (by assumption)

theorem execBidReq_keeps {z : State} {h : PeerHdr} {u : UnitRef} {policy : BitVec 32} {s : State} (hs : s.keeps z) :
    keepsOut z (execBidReq h u policy s) := by
  unfold execBidReq
  dsimp only
  apply keepsNext
  apply State.peerRequest_keeps
  assumption
  intro _ _
  split
  split
  exact State.plcFault_keeps (State.reply_keeps (by assumption))
  exact State.reply_keeps (by assumption)
  split
  exact State.modPlc_keeps (State.reply_keeps (by assumption))
  assumption

theorem execBid_keeps {z : State} {h : PeerHdr} {refusal : Option (BitVec 16)} {energy : BitVec 48} {start : BitVec 32} {s : State} (hs : s.keeps z) :
    keepsOut z (execBid h refusal energy start s) := by
  unfold execBid
  dsimp only
  apply keepsNext
  apply State.peerIn_keeps
  assumption
  intro _ _
  split
  assumption
  exact State.settle_keeps (State.bidsIn_keeps (State.modUnit_keeps (by assumption)))

theorem execBidTimeout_keeps {z : State} {xid : BitVec 32} {s : State} (hs : s.keeps z) :
    keepsOut z (execBidTimeout xid s) := by
  unfold execBidTimeout
  split
  exact keepsNext (by assumption)
  exact keepsIteOut (keepsNext (by assumption)) (keepsNext (State.settle_keeps (State.bidsIn_keeps (State.modUnit_keeps (by assumption)))))

theorem execAward_keeps {z : State} {h : PeerHdr} {s : State} (hs : s.keeps z) :
    keepsOut z (execAward h s) := by
  unfold execAward
  dsimp only
  apply keepsNext
  apply State.peerIn_keeps
  assumption
  intro _ _
  apply keepsIte
  assumption
  split
  exact State.tell_keeps (by assumption)
  exact State.enqueue_keeps (State.modPlc_keeps (by assumption))

theorem State.ackSegs_keeps {z : State} {s : State} {h : PeerHdr} {seg : Nat} {total : Nat} {segs : List Nat} (hs : s.keeps z) :
    (State.ackSegs s h seg total segs).keeps z := by
  unfold State.ackSegs
  exact keepsIte (State.tell_keeps (by assumption)) (by assumption)

theorem execPeerData_keeps {z : State} {h : PeerHdr} {seg : BitVec 13} {total : BitVec 13} {data : List Byte} {len : BitVec 23} {flags : BitVec 8} {s : State} (hs : s.keeps z) :
    keepsOut z (execPeerData h seg total data len flags s) := by
  unfold execPeerData
  dsimp only
  apply keepsNext
  apply State.peerIn_keeps
  assumption
  intro _ _
  split
  exact State.ackSegs_keeps (State.modPlc_keeps (by assumption))
  split
  exact keepsIte (State.settle_keeps (State.readDelivered_keeps (State.ackSegs_keeps (State.modRead_keeps (by assumption))))) (State.ackSegs_keeps (State.modRead_keeps (by assumption)))
  split
  exact State.ackSegs_keeps (State.modUnit_keeps (by assumption))
  assumption

theorem execDataAck_keeps {z : State} {h : PeerHdr} {segs : List (BitVec 13)} {s : State} (hs : s.keeps z) :
    keepsOut z (execDataAck h segs s) := by
  unfold execDataAck
  exact keepsNext (State.peerIn_keeps (by assumption) (fun _ _ => (State.modPlc_keeps (by assumption))))

theorem execDataRetransmit_keeps {z : State} {xid : BitVec 32} {s : State} (hs : s.keeps z) :
    keepsOut z (execDataRetransmit xid s) := by
  unfold execDataRetransmit
  apply keepsNext
  apply keepsFold
  exact fun _ _ _ => (State.tell_keeps (State.modPlc_keeps (by assumption)))
  assumption

theorem execProgress_keeps {z : State} {h : PeerHdr} {s : State} (hs : s.keeps z) :
    keepsOut z (execProgress h s) := by
  unfold execProgress
  exact keepsNext (State.peerIn_keeps (by assumption) (fun _ _ => (State.modPlc_keeps (by assumption))))

theorem execPeerCommitted_keeps {z : State} {h : PeerHdr} {_hdr : BitVec 32} {s : State} (hs : s.keeps z) :
    keepsOut z (execPeerCommitted h _hdr s) := by
  unfold execPeerCommitted
  exact keepsNext (State.peerIn_keeps (by assumption) (fun _ _ => (State.settle_keeps (State.copyDone_keeps (by assumption)))))

theorem State.rereplNext_keeps {z : State} {s : State} {u : UnitSt} (hs : s.keeps z) :
    (State.rereplNext s u).keeps z := by
  unfold State.rereplNext
  dsimp only
  split
  exact State.rereplFail_keeps (by assumption)
  exact State.tell_keeps (State.modUnit_keeps (State.newXid_keeps (by assumption)))

theorem State.peerRefused_keeps {z : State} {s : State} {dev : Nat} {xid : Nat} (hs : s.keeps z) :
    (State.peerRefused s dev xid).keeps z := by
  unfold State.peerRefused
  dsimp only
  apply State.settle_keeps
  apply keepsFold
  exact fun _ _ _ => (keepsIte (State.modCmd_keeps (by assumption)) (by assumption))
  split
  apply State.bidsIn_keeps
  apply State.modUnit_keeps
  split
  apply State.rereplNext_keeps
  split
  exact State.readFailed_keeps (State.copyFailed_keeps (by assumption))
  exact State.copyFailed_keeps (by assumption)
  split
  exact State.readFailed_keeps (State.copyFailed_keeps (by assumption))
  exact State.copyFailed_keeps (by assumption)
  split
  apply State.rereplNext_keeps
  split
  exact State.readFailed_keeps (State.copyFailed_keeps (by assumption))
  exact State.copyFailed_keeps (by assumption)
  split
  exact State.readFailed_keeps (State.copyFailed_keeps (by assumption))
  exact State.copyFailed_keeps (by assumption)

theorem execPeerFailed_keeps {z : State} {h : PeerHdr} {_reason : BitVec 16} {s : State} (hs : s.keeps z) :
    keepsOut z (execPeerFailed h _reason s) := by
  unfold execPeerFailed
  dsimp only
  apply keepsNext
  apply State.peerIn_keeps
  assumption
  intro _ _
  split
  exact keepsMk (State.dropUnit_keeps (State.modPlc_keeps (by assumption)))
  exact State.peerRefused_keeps (by assumption)

theorem execProgTmo_keeps {z : State} {xid : BitVec 32} {dev : BitVec 9} {s : State} (hs : s.keeps z) :
    keepsOut z (execProgTmo xid dev s) := by
  unfold execProgTmo
  dsimp only
  exact keepsIteOut (keepsNext (State.settle_keeps (State.copyFailed_keeps (State.peerDown_keeps (by assumption))))) (keepsNext (by assumption))

theorem execReadReq_keeps {z : State} {h : PeerHdr} {u : UnitRef} {start : BitVec 23} {len : BitVec 23} {s : State} (hs : s.keeps z) :
    keepsOut z (execReadReq h u start len s) := by
  unfold execReadReq
  dsimp only
  apply keepsNext
  apply State.peerRequest_keeps
  assumption
  intro _ _
  apply keepsIte
  exact State.reply_keeps (by assumption)
  apply keepsIte
  assumption
  apply keepsIte
  exact State.reply_keeps (by assumption)
  split
  exact State.reply_keeps (by assumption)
  split
  exact State.reply_keeps (by assumption)
  exact State.enqueue_keeps (State.modPlc_keeps (by assumption))

theorem execNack_keeps {z : State} {h : PeerHdr} {_reason : BitVec 16} {s : State} (hs : s.keeps z) :
    keepsOut z (execNack h _reason s) := by
  unfold execNack
  exact keepsNext (State.peerIn_keeps (by assumption) (fun _ _ => (State.peerRefused_keeps (by assumption))))

theorem execHintReq_keeps {z : State} {h : PeerHdr} {asks : List UnitRef} {s : State} (hs : s.keeps z) :
    keepsOut z (execHintReq h asks s) := by
  unfold execHintReq
  exact keepsNext (State.peerRequest_keeps (by assumption) (fun _ _ => (State.reply_keeps (by assumption))))

theorem execHint_keeps {z : State} {h : PeerHdr} {held : Bool} {ver : BitVec 32} {seq : BitVec 32} {energy : BitVec 48} {start : BitVec 32} {s : State} (hs : s.keeps z) :
    keepsOut z (execHint h held ver seq energy start s) := by
  unfold execHint
  dsimp only
  apply keepsNext
  apply State.peerIn_keeps
  assumption
  intro _ _
  split
  assumption
  exact State.settle_keeps (State.modPeer_keeps (State.modPlc_keeps (by assumption)))

theorem execHintTimeout_keeps {z : State} {xid : BitVec 32} {s : State} (hs : s.keeps z) :
    keepsOut z (execHintTimeout xid s) := by
  unfold execHintTimeout
  dsimp only
  split
  exact keepsNext (by assumption)
  apply keepsNext
  exact State.settle_keeps (keepsIte (State.peerDown_keeps (State.modPeer_keeps (State.modPlc_keeps (by assumption)))) (State.modPeer_keeps (State.modPlc_keeps (by assumption))))

theorem execPeerDownHoldExpiry_keeps {z : State} {dev : BitVec 9} {s : State} (hs : s.keeps z) :
    keepsOut z (execPeerDownHoldExpiry dev s) := by
  unfold execPeerDownHoldExpiry
  dsimp only
  split
  apply keepsIteOut
  exact keepsNext (by assumption)
  apply keepsNext
  apply keepsFold
  exact fun _ _ _ => (State.tell_keeps (State.newXid_keeps (by assumption)))
  exact State.showDown_keeps (State.modPeer_keeps (by assumption))
  exact keepsNext (by assumption)

theorem execPeerReadTimeout_keeps {z : State} {xid : BitVec 32} {s : State} (hs : s.keeps z) :
    keepsOut z (execPeerReadTimeout xid s) := by
  unfold execPeerReadTimeout
  split
  exact keepsNext (State.settle_keeps (State.readFailed_keeps (by assumption)))
  split
  exact keepsNext (State.settle_keeps (State.rereplNext_keeps (by assumption)))
  exact keepsNext (by assumption)

theorem execTomb_keeps {z : State} {h : PeerHdr} {u : UnitRef} {whole : Bool} {s : State} (hs : s.keeps z) :
    keepsOut z (execTomb h u whole s) := by
  unfold execTomb
  dsimp only
  exact keepsNext (State.peerRequest_keeps (by assumption) (fun _ _ => (keepsIte (by assumption) (State.settle_keeps (State.writeTomb_keeps (State.applyTomb_keeps (by assumption)))))))

theorem execTombAck_keeps {z : State} {h : PeerHdr} {s : State} (hs : s.keeps z) :
    keepsOut z (execTombAck h s) := by
  unfold execTombAck
  dsimp only
  apply keepsNext
  apply State.peerIn_keeps
  assumption
  intro _ _
  apply State.settle_keeps
  apply keepsFold
  exact fun _ _ _ => (keepsIte (State.modCmd_keeps (by assumption)) (by assumption))
  assumption

theorem execRereplicationStart_keeps {z : State} {s : State} (hs : s.keeps z) :
    keepsOut z (execRereplicationStart s) := by
  unfold execRereplicationStart
  dsimp only
  split
  exact keepsNext (by assumption)
  apply keepsIteOut
  exact keepsNext (by assumption)
  split
  exact keepsNext (State.enqueue_keeps (State.showRerepl_keeps (State.addUnit_keeps (State.modPlc_keeps (by assumption)))))
  exact keepsNext (State.rereplNext_keeps (State.showRerepl_keeps (State.addUnit_keeps (State.modPlc_keeps (by assumption)))))
  exact keepsNext (State.showRerepl_keeps (State.addUnit_keeps (State.modPlc_keeps (by assumption))))

theorem execRebuildDisc_keeps {z : State} {slot : BitVec 5} {r : DiscFound} {s : State} (hs : s.keeps z) :
    keepsOut z (execRebuildDisc slot r s) := by
  unfold execRebuildDisc
  dsimp only
  split
  exact keepsNext (by assumption)
  apply keepsIteOut
  exact keepsNext (State.rebuildFailed_keeps (State.releaseStn_keeps (by assumption)))
  apply keepsIteOut
  exact keepsNext (by assumption)
  apply keepsIteOut
  exact keepsNext (State.settleSlot_keeps (State.releaseStn_keeps (by assumption)))
  apply keepsIteOut
  exact keepsNext (State.plcFault_keeps (State.settleSlot_keeps (State.releaseStn_keeps (by assumption))))
  apply keepsNext
  apply keepsIte
  exact State.settleSlot_keeps (State.enterDisc_keeps (State.set_keeps (State.releaseStn_keeps (by assumption))))
  exact State.applyRebuilt_keeps (State.settleSlot_keeps (State.enterDisc_keeps (State.set_keeps (State.releaseStn_keeps (by assumption)))))

theorem execUnreachedSlotRebuild_keeps {z : State} {slot : BitVec 5} {s : State} (hs : s.keeps z) :
    keepsOut z (execUnreachedSlotRebuild slot s) := by
  unfold execUnreachedSlotRebuild
  dsimp only
  apply keepsIteOut
  split
  exact keepsNext (State.rebuildJob_keeps (by assumption))
  exact keepsNext (by assumption)
  exact keepsNext (by assumption)

theorem execMigrationStart_keeps {z : State} {p : Path} {slot : BitVec 5} {s : State} (hs : s.keeps z) :
    keepsOut z (execMigrationStart p slot s) := by
  unfold execMigrationStart
  dsimp only
  apply keepsNext
  apply State.writeBy_keeps
  assumption
  intro _ _
  apply keepsIte
  apply State.migNext_keeps
  apply State.modPlc_keeps
  apply State.set_keeps
  apply State.set_keeps
  apply State.set_keeps
  apply State.set_keeps
  split
  exact State.set_keeps (by assumption)
  assumption
  apply State.set_keeps
  apply State.modPlc_keeps
  apply State.set_keeps
  apply State.set_keeps
  apply State.set_keeps
  split
  exact State.set_keeps (by assumption)
  assumption

theorem execMigrationStop_keeps {z : State} {p : Path} {s : State} (hs : s.keeps z) :
    keepsOut z (execMigrationStop p s) := by
  unfold execMigrationStop
  exact keepsNext (State.writeBy_keeps (by assumption) (fun _ _ => (keepsIte (State.migNext_keeps (State.modPlc_keeps (by assumption))) (by assumption))))

/-! ### StnWork -/

theorem State.noteGen_keeps {z : State} {s : State} {id : UnitId} {g : Nat} (hs : s.keeps z) :
    (State.noteGen s id g).keeps z := by
  unfold State.noteGen
  exact State.mapEnts_keeps (by assumption)

theorem State.readEnd_keeps {z : State} {s0 : State} {j : Job} {id : UnitId} {gen : Option Nat} (hs : s0.keeps z) :
    (State.readEnd s0 j id gen).keeps z := by
  unfold State.readEnd
  dsimp only
  split
  split
  apply keepsIte
  apply State.readDelivered_keeps
  split
  exact State.noteGen_keeps (by assumption)
  assumption
  apply keepsIte
  apply State.modRead_keeps
  apply State.modCmd_keeps
  split
  exact State.noteGen_keeps (by assumption)
  assumption
  apply State.readFailed_keeps
  split
  exact State.noteGen_keeps (by assumption)
  assumption
  split
  exact State.noteGen_keeps (by assumption)
  assumption
  split
  apply keepsIte
  apply State.sendData_keeps
  apply State.modPlc_keeps
  split
  exact State.noteGen_keeps (by assumption)
  assumption
  apply State.reply_keeps
  apply State.modPlc_keeps
  split
  exact State.noteGen_keeps (by assumption)
  assumption
  split
  exact State.noteGen_keeps (by assumption)
  assumption
  split
  apply keepsIte
  apply State.modUnit_keeps
  split
  exact State.noteGen_keeps (by assumption)
  assumption
  apply State.rereplNext_keeps
  split
  exact State.noteGen_keeps (by assumption)
  assumption
  split
  exact State.noteGen_keeps (by assumption)
  assumption
  split
  apply keepsIte
  apply State.addUnit_keeps
  split
  exact State.noteGen_keeps (by assumption)
  assumption
  apply State.modPlc_keeps
  split
  exact State.noteGen_keeps (by assumption)
  assumption
  split
  exact State.noteGen_keeps (by assumption)
  assumption
  split
  exact State.noteGen_keeps (by assumption)
  assumption

theorem State.writeEnd_keeps {z : State} {s : State} {_j : Job} {id : UnitId} (hs : s.keeps z) :
    (State.writeEnd s _j id).keeps z := by
  unfold State.writeEnd
  split
  exact State.copyLost_keeps (by assumption)
  exact State.copyFailed_keeps (by assumption)

theorem State.joinNext_keeps {z : State} {s : State} {j : Job} (hs : s.keeps z) :
    (State.joinNext s j).keeps z := by
  unfold State.joinNext
  split
  exact State.modJob_keeps (by assumption)
  assumption

theorem State.jobEnd_keeps {z : State} {s : State} {st : Nat} {delivered : List (Option Word)} (hs : s.keeps z) :
    (State.jobEnd s st delivered).keeps z := by
  unfold State.jobEnd
  dsimp only
  split
  assumption
  apply keepsIte
  exact State.settle_keeps (by assumption)
  apply State.settle_keeps
  apply State.modChn_keeps
  apply keepsFold
  exact fun _ _ _ => (keepsIte (State.writeEnd_keeps (by assumption)) (State.readEnd_keeps (by assumption)))
  exact State.releaseStn_keeps (State.joinNext_keeps (by assumption))

theorem State.cmdRevoked_keeps {z : State} {s : State} {c : Cmd} (hs : s.keeps z) :
    (State.cmdRevoked s c).keeps z := by
  unfold State.cmdRevoked
  apply keepsIte
  split
  assumption
  exact State.abandon_keeps (by assumption)
  exact keepsIte (State.modCmd_keeps (by assumption)) (State.finishWith_keeps (State.endJobs_keeps (by assumption)))

theorem State.revoke_keeps {z : State} {s : State} {st : Nat} {watchdog : Bool} (hs : s.keeps z) :
    (State.revoke s st watchdog).keeps z := by
  unfold State.revoke
  dsimp only
  split
  assumption
  split
  split
  apply State.settle_keeps
  apply State.cmdRevoked_keeps
  apply State.idleStn_keeps
  apply keepsFold
  intro _ _ _
  split
  exact State.extAbort_keeps (by assumption)
  exact State.modChn_keeps (by assumption)
  assumption
  apply State.idleStn_keeps
  apply keepsFold
  intro _ _ _
  split
  exact State.extAbort_keeps (by assumption)
  exact State.modChn_keeps (by assumption)
  assumption
  split
  apply keepsIte
  apply State.rebuildFailed_keeps
  apply State.idleStn_keeps
  apply keepsFold
  intro _ _ _
  split
  exact State.extAbort_keeps (by assumption)
  exact State.modChn_keeps (by assumption)
  assumption
  apply State.rebuildJob_keeps
  apply State.idleStn_keeps
  apply keepsFold
  intro _ _ _
  split
  exact State.extAbort_keeps (by assumption)
  exact State.modChn_keeps (by assumption)
  assumption
  apply State.idleStn_keeps
  apply keepsFold
  intro _ _ _
  split
  exact State.extAbort_keeps (by assumption)
  exact State.modChn_keeps (by assumption)
  assumption
  apply State.campAbort_keeps
  apply State.idleStn_keeps
  apply keepsFold
  intro _ _ _
  split
  exact State.extAbort_keeps (by assumption)
  exact State.modChn_keeps (by assumption)
  assumption
  apply State.settle_keeps
  apply keepsFold
  exact fun _ _ _ => (keepsIte (State.writeEnd_keeps (by assumption)) (State.readEnd_keeps (by assumption)))
  apply State.idleStn_keeps
  apply keepsFold
  intro _ _ _
  split
  exact State.extAbort_keeps (by assumption)
  exact State.modChn_keeps (by assumption)
  assumption

theorem State.endStranded_keeps {z : State} {s : State} {st : Nat} (hs : s.keeps z) :
    (State.endStranded s st).keeps z := by
  unfold State.endStranded
  dsimp only
  apply keepsFold
  intro _ _ _
  split
  exact State.cmdRevoked_keeps (State.dropJobs_keeps (by assumption))
  apply keepsFold
  exact fun _ _ _ => (keepsIte (State.writeEnd_keeps (by assumption)) (State.readEnd_keeps (by assumption)))
  exact State.dropJobs_keeps (by assumption)
  assumption

theorem State.rebind_keeps {z : State} {s : State} {st : Nat} {j : Job} (hs : s.keeps z) :
    (State.rebind s st j).keeps z := by
  unfold State.rebind
  dsimp only
  apply keepsIte
  assumption
  apply keepsIte
  exact keepsIte (State.modJob_keeps (by assumption)) (by assumption)
  apply keepsIte
  apply keepsFold
  intro _ _ _
  split
  exact State.startSearch_keeps (by assumption)
  assumption
  assumption
  assumption

theorem State.leaveService_keeps {z : State} {s : State} {st : Nat} (hs : s.keeps z) :
    (State.leaveService s st).keeps z := by
  unfold State.leaveService
  dsimp only
  apply State.settle_keeps
  apply State.set_keeps
  apply State.set_keeps
  apply State.modArb_keeps
  apply keepsIte
  apply State.endStranded_keeps
  apply keepsFold
  exact fun _ _ _ => (State.rebind_keeps (by assumption))
  exact State.revoke_keeps (by assumption)
  apply keepsFold
  exact fun _ _ _ => (State.rebind_keeps (by assumption))
  exact State.revoke_keeps (by assumption)

theorem State.serviceTick_keeps {z : State} {s : State} {st : Nat} (hs : s.keeps z) :
    (State.serviceTick s st).keeps z := by
  unfold State.serviceTick
  dsimp only
  apply keepsIte
  exact keepsIte (State.idleStn_keeps (by assumption)) (by assumption)
  exact keepsIte (State.leaveService_keeps (by assumption)) (keepsIte (State.settle_keeps (State.endStranded_keeps (by assumption))) (by assumption))

/-! ### Arbiter -/

theorem execDeferredCommandStart_keeps {z : State} {st : Fin 2} {s : State} (hs : s.keeps z) :
    keepsOut z (execDeferredCommandStart st s) := by
  unfold execDeferredCommandStart
  dsimp only
  split
  exact keepsNext (by assumption)
  split
  exact keepsNext (by assumption)
  apply keepsIteOut
  exact keepsNext (State.settle_keeps (State.cmdCounts_keeps (State.startCmd_keeps (State.modCmd_keeps (keepsIte (by assumption) (State.modJob_keeps (by assumption)))))))
  exact keepsNext (by assumption)

theorem execJobEnd_keeps {z : State} {st : Fin 2} {delivered : List (Option Word)} {s : State} (hs : s.keeps z) :
    keepsOut z (execJobEnd st delivered s) := by
  unfold execJobEnd
  exact keepsNext (State.jobEnd_keeps (by assumption))

theorem execParkTimeout_keeps {z : State} {st : Fin 2} {s : State} (hs : s.keeps z) :
    keepsOut z (execParkTimeout st s) := by
  unfold execParkTimeout
  dsimp only
  exact keepsIteOut (keepsNext (State.spnStop_keeps (State.idleStn_keeps (by assumption)))) (keepsNext (by assumption))

theorem execStnWdog_keeps {z : State} {st : Fin 2} {s : State} (hs : s.keeps z) :
    keepsOut z (execStnWdog st s) := by
  unfold execStnWdog
  split
  exact keepsNext (by assumption)
  exact keepsIteOut (keepsNext (State.revoke_keeps (State.addSat_keeps (State.raise_keeps (by assumption))))) (keepsNext (by assumption))

end Sys2Proof.Machine
end

