-- ==== Sys2Proof/Laws/KeepsShell.lean ====
section
/-!
SUPPORT. One lemma per operation of the shell: axes, command rows, transactions, network, calibration, faults, self-tests, modes and resets:
it keeps what `State.keeps` says.
-/

namespace Sys2Proof.Machine

open Sys2Proof

/-! ### Axes -/

theorem State.axFault_keeps {z : State} {s : State} {a : Nat} {kind : Nat} {arg : Nat} (hs : s.keeps z) :
    (State.axFault s a kind arg).keeps z := by
  unfold State.axFault
  exact State.raise_keeps (by assumption)

theorem State.axOrderTo_keeps {z : State} {s : State} {a : Nat} {op : Nat} {target : Int} (hs : s.keeps z) :
    (State.axOrderTo s a op target).keeps z := by
  unfold State.axOrderTo
  dsimp only
  apply keepsIte
  exact State.axReport_keeps (by assumption)
  exact keepsIte (State.axReport_keeps (by assumption)) (keepsIte (State.axMove_keeps (State.axReport_keeps (by assumption))) (State.axReport_keeps (by assumption)))

theorem execAxStart_keeps {z : State} {p : Path} {a : Fin 7} {s : State} (hs : s.keeps z) :
    keepsOut z (execAxStart p a s) := by
  unfold execAxStart
  exact keepsNext (State.writeBy_keeps (by assumption) (fun _ _ => (State.axOrderTo_keeps (by assumption))))

theorem execAxPark_keeps {z : State} {p : Path} {a : Fin 7} {s : State} (hs : s.keeps z) :
    keepsOut z (execAxPark p a s) := by
  unfold execAxPark
  dsimp only
  apply keepsNext
  exact State.writeBy_keeps (by assumption) (fun _ _ => (State.axOrderTo_keeps (keepsIte (State.set_keeps (State.set_keeps (State.axStandAt_keeps (by assumption)))) (by assumption))))

theorem State.axStopOrder_keeps {z : State} {s : State} {a : Nat} {op : Nat} {emerg : Bool} (hs : s.keeps z) :
    (State.axStopOrder s a op emerg).keeps z := by
  unfold State.axStopOrder
  exact keepsIte (State.axReport_keeps (by assumption)) (keepsIte (State.axHalt_keeps (State.axReport_keeps (by assumption))) (State.axReport_keeps (by assumption)))

theorem execAxStop_keeps {z : State} {p : Path} {a : Fin 7} {s : State} (hs : s.keeps z) :
    keepsOut z (execAxStop p a s) := by
  unfold execAxStop
  exact keepsNext (State.writeBy_keeps (by assumption) (fun _ _ => (State.axStopOrder_keeps (by assumption))))

theorem execEstop_keeps {z : State} {p : Path} {a : Fin 7} {s : State} (hs : s.keeps z) :
    keepsOut z (execEstop p a s) := by
  unfold execEstop
  exact keepsNext (State.writeBy_keeps (by assumption) (fun _ _ => (State.axStopOrder_keeps (by assumption))))

theorem execAxHome_keeps {z : State} {p : Path} {a : Fin 7} {s : State} (hs : s.keeps z) :
    keepsOut z (execAxHome p a s) := by
  unfold execAxHome
  apply keepsNext
  apply State.writeBy_keeps
  assumption
  intro _ _
  apply keepsIte
  exact State.axReport_keeps (by assumption)
  exact keepsIte (State.axReport_keeps (by assumption)) (keepsIte (State.axHomeStart_keeps (State.axReport_keeps (by assumption))) (State.axReport_keeps (by assumption)))

theorem execAxMode_keeps {z : State} {p : Path} {a : Fin 7} {mode : BitVec 2} {s : State} (hs : s.keeps z) :
    keepsOut z (execAxMode p a mode s) := by
  unfold execAxMode
  apply keepsNext
  apply State.writeBy_keeps
  assumption
  intro _ _
  apply keepsIte
  exact State.axReport_keeps (by assumption)
  apply keepsIte
  exact keepsIte (State.axReport_keeps (State.set_keeps (State.set_keeps (State.axStandAt_keeps (by assumption))))) (State.axReport_keeps (State.set_keeps (by assumption)))
  exact keepsIte (State.axReport_keeps (State.axGear_keeps (by assumption))) (keepsIte (State.axReport_keeps (by assumption)) (State.axReport_keeps (by assumption)))

theorem execAxEnable_keeps {z : State} {p : Path} {a : Fin 7} {en : Bool} {s : State} (hs : s.keeps z) :
    keepsOut z (execAxEnable p a en s) := by
  unfold execAxEnable
  dsimp only
  apply keepsNext
  apply State.writeBy_keeps
  assumption
  intro _ _
  exact keepsIte (State.axOn_keeps (State.modAx_keeps (State.set_keeps (State.setFlag_keeps (by assumption))))) (State.axHaltOff_keeps (State.setFlag_keeps (by assumption)))

theorem execAxProfileWrite_keeps {z : State} {p : Path} {a : Fin 7} {w : Fin 5} {v : Word} {s : State} (hs : s.keeps z) :
    keepsOut z (execAxProfileWrite p a w v s) := by
  unfold execAxProfileWrite
  dsimp only
  exact keepsNext (State.writeBy_keeps (by assumption) (fun _ _ => (keepsIte (State.modAx_keeps (State.setReg_keeps (by assumption))) (State.setReg_keeps (by assumption)))))

theorem execAxMoveDone_keeps {z : State} {a : Fin 7} {s : State} (hs : s.keeps z) :
    keepsOut z (execAxMoveDone a s) := by
  unfold execAxMoveDone
  exact keepsIteOut (keepsNext (State.axArrive_keeps (by assumption))) (keepsNext (by assumption))

theorem State.axTripped_keeps {z : State} {s : State} {a : Nat} (hs : s.keeps z) :
    (State.axTripped s a).keeps z := by
  unfold State.axTripped
  exact keepsIte (State.magTrip_keeps (by assumption)) (by assumption)

theorem execAxOvercurrent_keeps {z : State} {a : Fin 7} {s : State} (hs : s.keeps z) :
    keepsOut z (execAxOvercurrent a s) := by
  unfold execAxOvercurrent
  exact keepsNext (State.axTripped_keeps (State.modAx_keeps (State.axOff_keeps (State.axResult_keeps (State.axLoseHome_keeps (State.axFault_keeps (by assumption)))))))

theorem execLimitChatter_keeps {z : State} {a : Fin 7} {input : Fin 3} {s : State} (hs : s.keeps z) :
    keepsOut z (execLimitChatter a input s) := by
  unfold execLimitChatter
  dsimp only
  apply keepsIteOut
  apply keepsNext
  apply State.axTripped_keeps
  exact State.axHaltOff_keeps (State.modAx_keeps (State.axResult_keeps (State.axLoseHome_keeps (State.set_keeps (State.addSat_keeps (State.axFault_keeps (by assumption)))))))
  exact keepsNext (by assumption)

theorem State.limitHit_keeps {z : State} {s : State} {a : Nat} {pos : Bool} (hs : s.keeps z) :
    (State.limitHit s a pos).keeps z := by
  unfold State.limitHit
  dsimp only
  exact State.axTripped_keeps (State.modAx_keeps (State.axLoseHome_keeps (State.axHalt_keeps (State.axResult_keeps (State.axFault_keeps (by assumption))))))

theorem State.homeEnd_keeps {z : State} {s : State} {a : Nat} {pos : Bool} (hs : s.keeps z) :
    (State.homeEnd s a pos).keeps z := by
  unfold State.homeEnd
  exact keepsIte (State.axTripped_keeps (State.axHalt_keeps (State.axResult_keeps (State.axFault_keeps (by assumption))))) (keepsIte (by assumption) (State.modAx_keeps (by assumption)))

theorem State.homeFlag_keeps {z : State} {s : State} {a : Nat} {active : Bool} (hs : s.keeps z) :
    (State.homeFlag s a active).keeps z := by
  unfold State.homeFlag
  dsimp only
  split
  exact keepsIte (State.modAx_keeps (by assumption)) (by assumption)
  exact keepsIte (by assumption) (State.homeStep_keeps (by assumption))
  exact keepsIte (keepsIte (State.sledHomedNow_keeps (State.homeReference_keeps (by assumption))) (State.magAxisHomed_keeps (State.homeReference_keeps (by assumption)))) (by assumption)
  assumption

theorem execLimitSwitchChange_keeps {z : State} {a : Fin 7} {input : Fin 3} {active : Bool} {s : State} (hs : s.keeps z) :
    keepsOut z (execLimitSwitchChange a input active s) := by
  unfold execLimitSwitchChange
  dsimp only
  apply keepsIteOut
  exact keepsNext (by assumption)
  apply keepsIteOut
  exact keepsNext (keepsIte (State.homeFlag_keeps (State.setFlag_keeps (State.setFlag_keeps (by assumption)))) (State.setFlag_keeps (State.setFlag_keeps (by assumption))))
  apply keepsNext
  apply keepsIte
  exact keepsIte (State.setFlag_keeps (State.setFlag_keeps (by assumption))) (State.setFlag_keeps (State.setFlag_keeps (by assumption)))
  apply keepsIte
  exact State.homeEnd_keeps (keepsIte (State.setFlag_keeps (State.setFlag_keeps (by assumption))) (State.setFlag_keeps (State.setFlag_keeps (by assumption))))
  exact State.limitHit_keeps (keepsIte (State.setFlag_keeps (State.setFlag_keeps (by assumption))) (State.setFlag_keeps (State.setFlag_keeps (by assumption))))

theorem execAxDetent_keeps {z : State} {a : Fin 7} {s : State} (hs : s.keeps z) :
    keepsOut z (execAxDetent a s) := by
  unfold execAxDetent
  exact keepsIteOut (keepsNext (State.set_keeps (State.set_keeps (State.modAx_keeps (by assumption))))) (keepsNext (by assumption))

theorem execGearChange_keeps {z : State} {a : Fin 4} {s : State} (hs : s.keeps z) :
    keepsOut z (execGearChange a s) := by
  unfold execGearChange
  dsimp only
  exact keepsIteOut (keepsNext (State.set_keeps (State.setReg_keeps (keepsIte (State.gearRebase_keeps (by assumption)) (by assumption))))) (keepsNext (by assumption))

/-! ### Commands -/

theorem held_keeps {z : State} {s : State} {x : Cmd} (hs : s.keeps z) :
    (held s x).keeps z := by
  unfold held
  assumption

theorem execPut_keeps {z : State} {p : Path} {e : Entry} {s : State} (hs : s.keeps z) :
    keepsOut z (execPut p e s) := by
  unfold execPut
  exact keepsNext (State.command_keeps (by assumption) (fun _ _ _ => (held_keeps (by assumption))))

theorem execGet_keeps {z : State} {p : Path} {e : Entry} {s : State} (hs : s.keeps z) :
    keepsOut z (execGet p e s) := by
  unfold execGet
  exact keepsNext (State.command_keeps (by assumption) (fun _ _ _ => (held_keeps (by assumption))))

theorem execSeal_keeps {z : State} {p : Path} {e : Entry} {s : State} (hs : s.keeps z) :
    keepsOut z (execSeal p e s) := by
  unfold execSeal
  exact keepsNext (State.command_keeps (by assumption) (fun _ _ _ => (held_keeps (by assumption))))

theorem execDelete_keeps {z : State} {p : Path} {e : Entry} {s : State} (hs : s.keeps z) :
    keepsOut z (execDelete p e s) := by
  unfold execDelete
  exact keepsIteOut (keepsNext (by assumption)) (keepsNext (State.command_keeps (by assumption) (fun _ _ _ => (held_keeps (by assumption)))))

theorem execDeleteTenant_keeps {z : State} {p : Path} {e : Entry} {s : State} (hs : s.keeps z) :
    keepsOut z (execDeleteTenant p e s) := by
  unfold execDeleteTenant
  exact keepsIteOut (keepsNext (State.command_keeps (by assumption) (fun _ _ _ => (held_keeps (by assumption))))) (keepsNext (by assumption))

theorem execFlush_keeps {z : State} {p : Path} {e : Entry} {s : State} (hs : s.keeps z) :
    keepsOut z (execFlush p e s) := by
  unfold execFlush
  exact keepsIteOut (keepsNext (by assumption)) (keepsNext (State.command_keeps (by assumption) (fun _ _ _ => (held_keeps (by assumption)))))

theorem execFlushAll_keeps {z : State} {p : Path} {e : Entry} {s : State} (hs : s.keeps z) :
    keepsOut z (execFlushAll p e s) := by
  unfold execFlushAll
  exact keepsIteOut (keepsNext (State.command_keeps (by assumption) (fun _ _ _ => (held_keeps (by assumption))))) (keepsNext (by assumption))

theorem execStat_keeps {z : State} {p : Path} {e : Entry} {s : State} (hs : s.keeps z) :
    keepsOut z (execStat p e s) := by
  unfold execStat
  exact keepsNext (State.command_keeps (by assumption) (fun _ _ _ => (held_keeps (by assumption))))

theorem execList_keeps {z : State} {p : Path} {e : Entry} {s : State} (hs : s.keeps z) :
    keepsOut z (execList p e s) := by
  unfold execList
  exact keepsNext (State.command_keeps (by assumption) (fun _ _ _ => (held_keeps (by assumption))))

theorem execReserve_keeps {z : State} {p : Path} {e : Entry} {s : State} (hs : s.keeps z) :
    keepsOut z (execReserve p e s) := by
  unfold execReserve
  exact keepsNext (State.command_keeps (by assumption) (fun _ _ _ => (held_keeps (by assumption))))

theorem State.runRestart_keeps {z : State} {s : State} {c : Cmd} (hs : s.keeps z) :
    (State.runRestart s c).keeps z := by
  unfold State.runRestart
  dsimp only
  split
  exact State.finish_keeps (by assumption)
  apply keepsIte
  exact State.finish_keeps (by assumption)
  apply keepsIte
  apply State.finish_keeps
  apply keepsFold
  exact fun _ _ _ => (State.finishWith_keeps (State.newCmd_keeps (State.modSess_keeps (by assumption))))
  apply keepsFold
  exact fun _ _ _ => (State.finishWith_keeps (State.dropJobs_keeps (by assumption)))
  exact State.modSess_keeps (by assumption)
  exact State.finish_keeps (State.modSess_keeps (by assumption))

theorem execQueueRestart_keeps {z : State} {p : Path} {e : Entry} {s : State} (hs : s.keeps z) :
    keepsOut z (execQueueRestart p e s) := by
  unfold execQueueRestart
  exact keepsNext (State.command_keeps (by assumption) (fun _ _ _ => (State.runRestart_keeps (by assumption))))

theorem execIdentify_keeps {z : State} {p : Path} {e : Entry} {s : State} (hs : s.keeps z) :
    keepsOut z (execIdentify p e s) := by
  unfold execIdentify
  exact keepsNext (State.command_keeps (by assumption) (fun _ _ _ => (State.finish_keeps (by assumption))))

theorem State.runGetLog_keeps {z : State} {s : State} {c : Cmd} (hs : s.keeps z) :
    (State.runGetLog s c).keeps z := by
  unfold State.runGetLog
  dsimp only
  apply keepsIte
  apply keepsIte
  exact State.finishWith_keeps (by assumption)
  apply keepsIte
  split
  exact keepsIte (State.finishWith_keeps (by assumption)) (State.finish_keeps (by assumption))
  exact State.finish_keeps (State.when_keeps (by assumption) (fun _ _ => (State.set_keeps (by assumption))))
  exact State.finish_keeps (by assumption)
  exact keepsIte (State.finish_keeps (State.when_keeps (by assumption) (fun _ _ => (State.set_keeps (by assumption))))) (State.finish_keeps (by assumption))

theorem execGetLog_keeps {z : State} {p : Path} {e : Entry} {s : State} (hs : s.keeps z) :
    keepsOut z (execGetLog p e s) := by
  unfold execGetLog
  exact keepsNext (State.command_keeps (by assumption) (fun _ _ _ => (State.runGetLog_keeps (by assumption))))

theorem State.runMeterRead_keeps {z : State} {s : State} {c : Cmd} (hs : s.keeps z) :
    (State.runMeterRead s c).keeps z := by
  unfold State.runMeterRead
  dsimp only
  exact State.finish_keeps (keepsIte (by assumption) (keepsMk (by assumption)))

theorem execMeterRead_keeps {z : State} {p : Path} {e : Entry} {s : State} (hs : s.keeps z) :
    keepsOut z (execMeterRead p e s) := by
  unfold execMeterRead
  exact keepsNext (State.command_keeps (by assumption) (fun _ _ _ => (State.runMeterRead_keeps (by assumption))))

theorem State.runMeterAck_keeps {z : State} {s : State} {c : Cmd} (hs : s.keeps z) :
    (State.runMeterAck s c).keeps z := by
  unfold State.runMeterAck
  dsimp only
  exact State.finish_keeps (keepsMk (by assumption))

theorem execMeterAck_keeps {z : State} {p : Path} {e : Entry} {s : State} (hs : s.keeps z) :
    keepsOut z (execMeterAck p e s) := by
  unfold execMeterAck
  exact keepsNext (State.command_keeps (by assumption) (fun _ _ _ => (State.runMeterAck_keeps (by assumption))))

theorem State.putMeter_keeps {z : State} {s : State} {r : MeterRec} (hs : s.keeps z) :
    (State.putMeter s r).keeps z := by
  unfold State.putMeter
  dsimp only
  apply keepsIte
  exact keepsMk (by assumption)
  split
  exact State.raise_keeps (State.addSat_keeps (keepsMk (by assumption)))
  assumption

theorem execMeterMinuteClose_keeps {z : State} {s : State} (hs : s.keeps z) :
    keepsOut z (execMeterMinuteClose s) := by
  unfold execMeterMinuteClose
  dsimp only
  apply keepsIteOut
  exact keepsNext (by assumption)
  apply keepsNext
  apply keepsIte
  apply State.set_keeps
  apply State.set_keeps
  apply State.set_keeps
  apply State.set_keeps
  apply State.set_keeps
  apply State.set_keeps
  apply State.set_keeps
  with_reducible apply keepsMk
  apply keepsFoldFst
  intro _ _ _
  dsimp only
  exact keepsIte (State.putMeter_keeps (keepsMk (by assumption))) (keepsMk (by assumption))
  dsimp only
  assumption
  apply State.set_keeps
  apply State.set_keeps
  apply State.set_keeps
  apply State.set_keeps
  apply State.set_keeps
  apply State.set_keeps
  with_reducible apply keepsMk
  apply keepsFoldFst
  intro _ _ _
  dsimp only
  exact keepsIte (State.putMeter_keeps (keepsMk (by assumption))) (keepsMk (by assumption))
  dsimp only
  assumption

/-! ### BoardOps -/

theorem State.withTlv_keeps {z : State} {s : State} {b : List Byte} {ty : Nat} {inst : Nat} {f : State → List Byte → State} (hs : s.keeps z) (hf : ∀ s c, s.keeps z → (f s c).keeps z) :
    (State.withTlv s b ty inst f).keeps z := by
  unfold State.withTlv
  split
  apply hf
  assumption
  assumption

theorem State.loadBoard_keeps {z : State} {s : State} (hs : s.keeps z) :
    (State.loadBoard s).keeps z := by
  unfold State.loadBoard
  dsimp only
  apply State.withTlv_keeps
  apply State.withTlv_keeps
  apply keepsFold
  intro _ _ _
  apply State.withTlv_keeps
  assumption
  intro _ _ _
  apply State.setReg_keeps
  apply State.setReg_keeps
  apply State.setReg_keeps
  apply State.setReg_keeps
  exact State.setReg_keeps (State.setReg_keeps (State.setReg_keeps (State.setReg_keeps (State.set_keeps (State.set_keeps (State.set_keeps (State.set_keeps (by assumption))))))))
  apply keepsFold
  intro _ _ _
  apply State.withTlv_keeps
  assumption
  intro _ _ _
  apply State.set_keeps
  apply State.set_keeps
  apply State.set_keeps
  apply State.set_keeps
  apply State.set_keeps
  apply keepsFold
  exact fun _ _ _ => (State.setInt_keeps (by assumption))
  assumption
  apply State.withTlv_keeps
  apply keepsFold
  exact fun _ _ _ => (State.withTlv_keeps (by assumption) (fun _ _ _ => (State.set_keeps (State.set_keeps (by assumption)))))
  apply State.withTlv_keeps
  apply State.withTlv_keeps
  assumption
  intro _ _ _
  apply keepsFold
  exact fun _ _ _ => (State.set_keeps (State.setReg_keeps (State.set_keeps (by assumption))))
  assumption
  exact fun _ _ _ => (State.set_keeps (State.set_keeps (by assumption)))
  exact fun _ _ _ => (State.set_keeps (State.set_keeps (by assumption)))
  intro _ _ _
  apply keepsFold
  exact fun _ _ _ => (State.setReg_keeps (by assumption))
  assumption
  exact fun _ _ _ => (State.set_keeps (State.set_keeps (by assumption)))

/-! ### TxnOps -/

theorem State.extendMsr_keeps {z : State} {s : State} {n : Nat} {data : List Byte} (hs : s.keeps z) :
    (State.extendMsr s n data).keeps z := by
  unfold State.extendMsr
  dsimp only
  exact keepsMk (by assumption)

theorem State.closeTxn_keeps {z : State} {s : State} {d : Nat} {last : Nat} (hs : s.keeps z) :
    (State.closeTxn s d last).keeps z := by
  unfold State.closeTxn
  dsimp only
  exact State.set_keeps (State.set_keeps (State.set_keeps (State.set_keeps (State.set_keeps (State.set_keeps (State.setTxn_keeps (by assumption)))))))

theorem State.ownerLost_keeps {z : State} {s : State} {p : Path} (hs : s.keeps z) :
    (State.ownerLost s p).keeps z := by
  unfold State.ownerLost
  apply keepsFold
  exact fun _ _ _ => (keepsIte (State.closeTxn_keeps (by assumption)) (by assumption))
  assumption

theorem State.discardTxns_keeps {z : State} {s : State} (hs : s.keeps z) :
    (State.discardTxns s).keeps z := by
  unfold State.discardTxns
  dsimp only
  apply keepsFold
  intro _ _ _
  apply keepsIte
  assumption
  split
  split
  exact State.finishWith_keeps (State.closeTxn_keeps (by assumption))
  exact State.closeTxn_keeps (by assumption)
  exact State.closeTxn_keeps (by assumption)
  assumption

theorem State.proposed_keeps {z : State} {s : State} {d : Nat} (hs : s.keeps z) :
    (State.proposed s d).keeps z := by
  unfold State.proposed
  apply keepsFold
  exact fun _ _ _ => (State.setReg_keeps (by assumption))
  assumption

theorem State.txnDone_keeps {z : State} {s : State} {d : Nat} {changed : List (Nat × Word)} (hs : s.keeps z) :
    (State.txnDone s d changed).keeps z := by
  unfold State.txnDone
  dsimp only
  split
  exact State.finish_keeps (State.capture_keeps (State.extendMsr_keeps (State.incWrap_keeps (State.closeTxn_keeps (by assumption)))))
  exact State.capture_keeps (State.extendMsr_keeps (State.incWrap_keeps (State.closeTxn_keeps (by assumption))))

theorem State.retype_keeps {z : State} {s : State} {old : State} {n : Nat} (hs : s.keeps z) :
    (State.retype s old n).keeps z := by
  unfold State.retype
  dsimp only
  apply keepsIte
  apply State.withTlv_keeps
  apply keepsIte
  assumption
  apply keepsFold
  exact fun _ _ _ => (State.setReg_keeps (by assumption))
  assumption
  exact fun _ _ _ => (State.setReg_keeps (State.setReg_keeps (State.setReg_keeps (State.draw_keeps (by assumption)))))
  apply keepsIte
  assumption
  apply keepsFold
  exact fun _ _ _ => (State.setReg_keeps (by assumption))
  assumption

theorem State.resetSlot_keeps {z : State} {s : State} {n : Nat} (hs : s.keeps z) :
    (State.resetSlot s n).keeps z := by
  unfold State.resetSlot
  dsimp only
  exact State.wbufUsed_keeps (keepsMk (State.setReg_keeps (State.setReg_keeps (State.setReg_keeps (State.setReg_keeps (State.setSlot_keeps (State.set_keeps (by assumption))))))))

theorem State.clearCounts_keeps {z : State} {s : State} {n : Nat} (hs : s.keeps z) :
    (State.clearCounts s n).keeps z := by
  unfold State.clearCounts
  dsimp only
  apply keepsIte
  assumption
  apply keepsFold
  exact fun _ _ _ => (keepsIte (State.setSlot_keeps (State.set_keeps (by assumption))) (by assumption))
  assumption

theorem State.applyServo_keeps {z : State} {old : State} {s : State} (hs : s.keeps z) :
    (State.applyServo old s).keeps z := by
  unfold State.applyServo
  dsimp only
  apply State.set_keeps
  apply State.set_keeps
  apply keepsFold
  exact fun _ _ _ => (State.clearCounts_keeps (State.resetSlot_keeps (State.retype_keeps (by assumption))))
  assumption

theorem State.applyMap_keeps {z : State} {s : State} (hs : s.keeps z) :
    (State.applyMap s).keeps z := by
  unfold State.applyMap
  dsimp only
  apply keepsIte
  exact State.set_keeps (State.set_keeps (State.set_keeps (State.set_keeps (State.set_keeps (State.setReg_keeps (State.setReg_keeps (by assumption)))))))
  exact State.set_keeps (State.set_keeps (State.set_keeps (State.setReg_keeps (State.setReg_keeps (by assumption)))))

theorem State.rehint_keeps {z : State} {s : State} {id : Nat} (hs : s.keeps z) :
    (State.rehint s id).keeps z := by
  unfold State.rehint
  dsimp only
  split
  assumption
  split
  assumption
  exact State.interim_keeps (State.modCmd_keeps (by assumption))

theorem State.reclass_keeps {z : State} {old : State} {s : State} (hs : s.keeps z) :
    (State.reclass old s).keeps z := by
  unfold State.reclass
  dsimp only
  apply keepsFold
  exact fun _ _ _ => (State.rehint_keeps (by assumption))
  with_reducible apply keepsMk
  apply keepsFold
  exact fun _ _ _ => (State.modCmd_keeps (by assumption))
  assumption

theorem State.reclassHouse_keeps {z : State} {s : State} (hs : s.keeps z) :
    (State.reclassHouse s).keeps z := by
  unfold State.reclassHouse
  dsimp only
  exact keepsMk (by assumption)

/-! ### NetOps -/

theorem State.modNet_keeps {z : State} {s : State} {f : NetSt → NetSt} (hs : s.keeps z) :
    (State.modNet s f).keeps z := by
  unfold State.modNet
  exact keepsMk (by assumption)

theorem State.emit_keeps {z : State} {s : State} {p : Nat} {prio : Option Nat} {what : NetOut} {event : optParam Bool Bool.false} (hs : s.keeps z) :
    (State.emit s p prio what event).keeps z := by
  unfold State.emit
  exact State.modNet_keeps (by assumption)

theorem State.egress_keeps {z : State} {s : State} {p : Nat} {k : Nat} (hs : s.keeps z) :
    (State.egress s p k).keeps z := by
  unfold State.egress
  dsimp only
  exact State.modNet_keeps (by assumption)

theorem State.egressTick_keeps {z : State} {s : State} {p : Nat} (hs : s.keeps z) :
    (State.egressTick s p).keeps z := by
  unfold State.egressTick
  dsimp only
  exact keepsIte (by assumption) (State.egress_keeps (State.draw_keeps (by assumption)))

theorem State.sendTo_keeps {z : State} {s : State} {m : BitVec 48} {prio : Option Nat} {what : NetOut} (hs : s.keeps z) :
    (State.sendTo s m prio what).keeps z := by
  unfold State.sendTo
  split
  exact State.emit_keeps (by assumption)
  assumption

theorem State.sendIp_keeps {z : State} {s : State} {a : BitVec 128} {prio : Option Nat} {what : NetOut} (hs : s.keeps z) :
    (State.sendIp s a prio what).keeps z := by
  unfold State.sendIp
  dsimp only
  split
  exact State.sendTo_keeps (State.modNet_keeps (by assumption))
  apply keepsFold
  exact fun _ _ _ => (keepsIte (State.emit_keeps (by assumption)) (by assumption))
  exact State.modNet_keeps (by assumption)

theorem State.noteNeighbour_keeps {z : State} {s : State} {a : BitVec 128} {m : BitVec 48} (hs : s.keeps z) :
    (State.noteNeighbour s a m).keeps z := by
  unfold State.noteNeighbour
  dsimp only
  apply keepsFold
  exact fun _ _ _ => (State.sendTo_keeps (by assumption))
  exact State.modNet_keeps (by assumption)

theorem State.announce_keeps {z : State} {s : State} (hs : s.keeps z) :
    (State.announce s).keeps z := by
  unfold State.announce
  dsimp only
  apply keepsFold
  intro _ _ _
  apply keepsIte
  assumption
  split
  apply State.emit_keeps
  apply keepsFold
  exact fun _ _ _ => (State.emit_keeps (by assumption))
  assumption
  apply keepsFold
  exact fun _ _ _ => (State.emit_keeps (by assumption))
  assumption
  assumption

theorem State.chooseMaster_keeps {z : State} {s : State} (hs : s.keeps z) :
    (State.chooseMaster s).keeps z := by
  unfold State.chooseMaster
  dsimp only
  split
  exact State.modNet_keeps (by assumption)
  apply keepsIte
  exact State.modNet_keeps (State.setReg_keeps (State.setReg_keeps (State.set_keeps (by assumption))))
  exact State.emit_keeps (State.modNet_keeps (State.setReg_keeps (State.setReg_keeps (State.set_keeps (by assumption)))))

theorem State.loseMasters_keeps {z : State} {s : State} {p : Nat} (hs : s.keeps z) :
    (State.loseMasters s p).keeps z := by
  unfold State.loseMasters
  dsimp only
  apply keepsIte
  exact keepsIte (State.ptpValidity_keeps (State.chooseMaster_keeps (State.modNet_keeps (by assumption)))) (State.chooseMaster_keeps (State.modNet_keeps (by assumption)))
  exact State.modNet_keeps (by assumption)

theorem State.linkChange_keeps {z : State} {s : State} {p : Nat} {up : Bool} (hs : s.keeps z) :
    (State.linkChange s p up).keeps z := by
  unfold State.linkChange
  dsimp only
  exact State.modNet_keeps (State.capture_keeps (State.setFlag_keeps (by assumption)))

theorem State.portDown_keeps {z : State} {s : State} {p : Nat} {fault : Bool} (hs : s.keeps z) :
    (State.portDown s p fault).keeps z := by
  unfold State.portDown
  dsimp only
  apply keepsIte
  apply State.loseMasters_keeps
  apply keepsIte
  apply State.raise_keeps
  apply State.modNet_keeps
  exact State.linkChange_keeps (State.addSat_keeps (State.addSat_keeps (State.modNet_keeps (State.set_keeps (State.set_keeps (State.set_keeps (State.set_keeps (by assumption))))))))
  apply State.modNet_keeps
  exact State.linkChange_keeps (State.addSat_keeps (State.addSat_keeps (State.modNet_keeps (State.set_keeps (State.set_keeps (State.set_keeps (State.set_keeps (by assumption))))))))
  exact State.addSat_keeps (State.modNet_keeps (State.set_keeps (State.set_keeps (State.set_keeps (State.set_keeps (by assumption))))))

theorem State.portComes_keeps {z : State} {s : State} {p : Nat} (hs : s.keeps z) :
    (State.portComes s p).keeps z := by
  unfold State.portComes
  exact State.linkChange_keeps (State.set_keeps (State.set_keeps (State.set_keeps (State.set_keeps (State.set_keeps (by assumption))))))

theorem State.modConn_keeps {z : State} {s : State} {sid : BitVec 14} {f : Conn → Conn} (hs : s.keeps z) :
    (State.modConn s sid f).keeps z := by
  unfold State.modConn
  exact State.modNet_keeps (by assumption)

theorem State.sendSess_keeps {z : State} {s : State} {sid : BitVec 14} {prio : Option Nat} {what : NetOut} (hs : s.keeps z) :
    (State.sendSess s sid prio what).keeps z := by
  unfold State.sendSess
  split
  exact State.sendIp_keeps (by assumption)
  assumption

theorem State.netSess_keeps {z : State} {s : State} (hs : s.keeps z) :
    (State.netSess s).keeps z := by
  unfold State.netSess
  dsimp only
  split
  exact State.set_keeps (State.set_keeps (State.set_keeps (by assumption)))
  exact State.set_keeps (State.set_keeps (State.set_keeps (by assumption)))

theorem State.closeSession_keeps {z : State} {s : State} {sid : BitVec 14} {dreq : Bool} (hs : s.keeps z) :
    (State.closeSession s sid dreq).keeps z := by
  unfold State.closeSession
  dsimp only
  split
  assumption
  apply State.netSess_keeps
  apply State.modNet_keeps
  with_reducible apply keepsMk
  apply keepsIte
  exact State.countLocks_keeps (State.unlockWays_keeps (State.ownerLost_keeps (State.sessionReset_keeps (by assumption))))
  exact State.ownerLost_keeps (State.sessionReset_keeps (by assumption))

theorem State.disconnect_keeps {z : State} {s : State} {sid : BitVec 14} (hs : s.keeps z) :
    (State.disconnect s sid).keeps z := by
  unfold State.disconnect
  dsimp only
  exact keepsIte (State.modNet_keeps (State.closeSession_keeps (State.sendSess_keeps (by assumption)))) (by assumption)

theorem State.disconnectAll_keeps {z : State} {s : State} (hs : s.keeps z) :
    (State.disconnectAll s).keeps z := by
  unfold State.disconnectAll
  apply keepsFold
  exact fun _ _ _ => (State.disconnect_keeps (by assumption))
  assumption

theorem State.transportFail_keeps {z : State} {s : State} {sid : BitVec 14} (hs : s.keeps z) :
    (State.transportFail s sid).keeps z := by
  unfold State.transportFail
  exact keepsIte (State.raise_keeps (State.addSat_keeps (State.disconnect_keeps (by assumption)))) (by assumption)

theorem State.hostAccess_keeps {z : State} {s : State} {sid : BitVec 14} {cid : BitVec 16} (hs : s.keeps z) :
    (State.hostAccess s sid cid).keeps z := by
  unfold State.hostAccess
  split
  assumption
  apply keepsIte
  split
  exact State.settle_keeps (State.failUnit_keeps (by assumption))
  assumption
  exact keepsIte (State.settle_keeps (State.finishWith_keeps (State.endJobs_keeps (by assumption)))) (by assumption)

theorem State.fecTick_keeps {z : State} {x : Samples} {s : State} {p : Nat} (hs : s.keeps z) :
    (State.fecTick x s p).keeps z := by
  unfold State.fecTick
  dsimp only
  exact keepsIte (State.modNet_keeps (by assumption)) (State.modNet_keeps (State.setFlag_keeps (State.addSat_keeps (State.addSat_keeps (by assumption)))))

theorem State.netTick_keeps {z : State} {x : Samples} {s0 : State} (hs : s0.keeps z) :
    (State.netTick x s0).keeps z := by
  unfold State.netTick
  dsimp only
  split
  apply keepsIte
  apply State.disconnectAll_keeps
  apply State.modNet_keeps
  apply State.egressTick_keeps
  apply State.egressTick_keeps
  apply keepsFold
  exact fun _ _ _ => (keepsIte (State.set_keeps (by assumption)) (by assumption))
  exact State.set_keeps (State.modNet_keeps (State.fecTick_keeps (State.fecTick_keeps (by assumption))))
  apply State.egressTick_keeps
  apply State.egressTick_keeps
  apply keepsFold
  exact fun _ _ _ => (keepsIte (State.set_keeps (by assumption)) (by assumption))
  exact State.set_keeps (State.modNet_keeps (State.fecTick_keeps (State.fecTick_keeps (by assumption))))
  apply State.egressTick_keeps
  apply State.egressTick_keeps
  apply keepsFold
  exact fun _ _ _ => (keepsIte (State.set_keeps (by assumption)) (by assumption))
  exact State.set_keeps (State.modNet_keeps (State.fecTick_keeps (State.fecTick_keeps (by assumption))))

/-! ### TxnApply -/

theorem State.putWords_keeps {z : State} {s : State} {l : List (Nat × Word)} (hs : s.keeps z) :
    (State.putWords s l).keeps z := by
  unfold State.putWords
  apply keepsFold
  exact fun _ _ _ => (State.setReg_keeps (by assumption))
  assumption

theorem State.applyNet_keeps {z : State} {old : State} {s : State} {l : List (Nat × Word)} (hs : s.keeps z) :
    (State.applyNet old s l).keeps z := by
  unfold State.applyNet
  dsimp only
  apply State.when_keeps
  apply keepsIte
  apply State.setFlag_keeps
  apply keepsFold
  exact fun _ _ _ => (keepsIte (by assumption) (State.portDown_keeps (by assumption)))
  assumption
  apply State.set_keeps
  apply State.set_keeps
  apply State.setFlag_keeps
  apply keepsFold
  exact fun _ _ _ => (keepsIte (by assumption) (State.portDown_keeps (by assumption)))
  assumption
  exact fun _ _ => (State.modNet_keeps (by assumption))

theorem State.applyDomain_keeps {z : State} {old : State} {s : State} {d : Nat} {l : List (Nat × Word)} (hs : s.keeps z) :
    (State.applyDomain old s d l).keeps z := by
  unfold State.applyDomain
  apply keepsIte
  exact State.reclass_keeps (State.set_keeps (by assumption))
  apply keepsIte
  exact State.settle_keeps (State.reclassHouse_keeps (keepsIte (State.applyMap_keeps (by assumption)) (by assumption)))
  exact keepsIte (State.applyServo_keeps (by assumption)) (State.applyNet_keeps (by assumption))

theorem State.epochApply_keeps {z : State} {s : State} (hs : s.keeps z) :
    (State.epochApply s).keeps z := by
  unfold State.epochApply
  dsimp only
  exact keepsIte (State.txnDone_keeps (State.putWords_keeps (by assumption))) (by assumption)

theorem State.applyTxn_keeps {z : State} {s : State} {d : Nat} (hs : s.keeps z) :
    (State.applyTxn s d).keeps z := by
  unfold State.applyTxn
  dsimp only
  apply keepsIte
  assumption
  apply keepsIte
  exact State.txnDone_keeps (State.applyDomain_keeps (State.putWords_keeps (by assumption)))
  apply keepsIte
  exact State.epochApply_keeps (State.set_keeps (State.setTxn_keeps (State.applyDomain_keeps (State.putWords_keeps (by assumption)))))
  exact State.set_keeps (State.setTxn_keeps (State.applyDomain_keeps (State.putWords_keeps (by assumption))))

theorem State.runBegin_keeps {z : State} {s : State} {c : Cmd} (hs : s.keeps z) :
    (State.runBegin s c).keeps z := by
  unfold State.runBegin
  dsimp only
  apply keepsIte
  exact State.finishWith_keeps (by assumption)
  apply State.finish_keeps
  split
  exact State.set_keeps (State.set_keeps (State.setTxn_keeps (by assumption)))
  exact State.set_keeps (State.set_keeps (State.setTxn_keeps (by assumption)))

theorem State.runCommit_keeps {z : State} {s : State} {c : Cmd} (hs : s.keeps z) :
    (State.runCommit s c).keeps z := by
  unfold State.runCommit
  dsimp only
  apply keepsIte
  exact State.finishWith_keeps (by assumption)
  split
  exact State.finish_keeps (State.draw_keeps (State.setReg_keeps (State.set_keeps (State.set_keeps (State.setTxn_keeps (by assumption))))))
  exact State.cmdCounts_keeps (keepsMk (State.setTxn_keeps (State.setTxn_keeps (by assumption))))

theorem State.runRollback_keeps {z : State} {s : State} {c : Cmd} (hs : s.keeps z) :
    (State.runRollback s c).keeps z := by
  unfold State.runRollback
  dsimp only
  exact keepsIte (State.finishWith_keeps (by assumption)) (State.finish_keeps (State.closeTxn_keeps (by assumption)))

theorem execTxnBegin_keeps {z : State} {p : Path} {e : Entry} {s : State} (hs : s.keeps z) :
    keepsOut z (execTxnBegin p e s) := by
  unfold execTxnBegin
  exact keepsNext (State.command_keeps (by assumption) (fun _ _ _ => (State.runBegin_keeps (by assumption))))

theorem execTxnCommit_keeps {z : State} {p : Path} {e : Entry} {s : State} (hs : s.keeps z) :
    keepsOut z (execTxnCommit p e s) := by
  unfold execTxnCommit
  exact keepsNext (State.command_keeps (by assumption) (fun _ _ _ => (State.runCommit_keeps (by assumption))))

theorem execTxnRollback_keeps {z : State} {p : Path} {e : Entry} {s : State} (hs : s.keeps z) :
    keepsOut z (execTxnRollback p e s) := by
  unfold execTxnRollback
  exact keepsNext (State.command_keeps (by assumption) (fun _ _ _ => (State.runRollback_keeps (by assumption))))

theorem execTxnApply_keeps {z : State} {d : Fin 4} {s : State} (hs : s.keeps z) :
    keepsOut z (execTxnApply d s) := by
  unfold execTxnApply
  exact keepsNext (State.applyTxn_keeps (by assumption))

theorem execTxnTimeout_keeps {z : State} {d : Fin 4} {s : State} (hs : s.keeps z) :
    keepsOut z (execTxnTimeout d s) := by
  unfold execTxnTimeout
  exact keepsIteOut (keepsNext (State.raise_keeps (State.closeTxn_keeps (by assumption)))) (keepsNext (by assumption))

/-! ### Cal -/

theorem execCalStart_keeps {z : State} {p : Path} {mask : BitVec 10} {autoEn : Bool} {stn : Fin 2} {s : State} (hs : s.keeps z) :
    keepsOut z (execCalStart p mask autoEn stn s) := by
  unfold execCalStart
  dsimp only
  exact keepsNext (State.writeBy_keeps (by assumption) (fun _ _ => (State.campStart_keeps (State.set_keeps (State.setFlag_keeps (State.set_keeps (by assumption)))))))

theorem execCalAbort_keeps {z : State} {p : Path} {s : State} (hs : s.keeps z) :
    keepsOut z (execCalAbort p s) := by
  unfold execCalAbort
  exact keepsNext (State.writeBy_keeps (by assumption) (fun _ _ => (State.campAbort_keeps (by assumption))))

theorem execCalAck_keeps {z : State} {p : Path} {s : State} (hs : s.keeps z) :
    keepsOut z (execCalAck p s) := by
  unfold execCalAck
  exact keepsNext (State.writeBy_keeps (by assumption) (fun _ _ => (State.setReg_keeps (by assumption))))

theorem execCalResRead_keeps {z : State} {p : Path} {s : State} (hs : s.keeps z) :
    keepsOut z (execCalResRead p s) := by
  unfold execCalResRead
  apply keepsNext
  apply State.readBy_keeps
  assumption
  intro _ _
  dsimp only
  exact keepsIte (State.set_keeps (by assumption)) (by assumption)

theorem State.putResults_keeps {z : State} {s : State} {proc : Nat} {stn : Nat} {words : List Word} (hs : s.keeps z) :
    (State.putResults s proc stn words).keeps z := by
  unfold State.putResults
  apply keepsFold
  exact fun _ _ _ => (keepsIte (State.set_keeps (by assumption)) (State.setReg_keeps (by assumption)))
  assumption

theorem State.procDone_keeps {z : State} {s : State} {proc : Nat} {stn : Nat} {words : List Word} {offs : List (BitVec 16)} (hs : s.keeps z) :
    (State.procDone s proc stn words offs).keeps z := by
  unfold State.procDone
  dsimp only
  apply keepsIte
  assumption
  apply keepsIte
  exact keepsIte (State.campFail_keeps (by assumption)) (keepsIte (State.calFail_keeps (by assumption)) (State.modCal_keeps (State.calFail_keeps (by assumption))))
  apply keepsIte
  apply keepsIte
  apply State.campPass_keeps
  apply keepsIte
  apply State.set_keeps
  apply State.set_keeps
  apply keepsIte
  exact State.modCal_keeps (keepsIte (State.procSet_keeps (State.putResults_keeps (by assumption))) (State.modCal_keeps (State.procSet_keeps (State.putResults_keeps (by assumption)))))
  exact keepsIte (State.procSet_keeps (State.putResults_keeps (by assumption))) (State.modCal_keeps (State.procSet_keeps (State.putResults_keeps (by assumption))))
  apply keepsIte
  exact State.modCal_keeps (keepsIte (State.procSet_keeps (State.putResults_keeps (by assumption))) (State.modCal_keeps (State.procSet_keeps (State.putResults_keeps (by assumption)))))
  exact keepsIte (State.procSet_keeps (State.putResults_keeps (by assumption))) (State.modCal_keeps (State.procSet_keeps (State.putResults_keeps (by assumption))))
  apply keepsIte
  apply State.set_keeps
  apply State.set_keeps
  apply keepsIte
  exact State.modCal_keeps (keepsIte (State.procSet_keeps (State.putResults_keeps (by assumption))) (State.modCal_keeps (State.procSet_keeps (State.putResults_keeps (by assumption)))))
  exact keepsIte (State.procSet_keeps (State.putResults_keeps (by assumption))) (State.modCal_keeps (State.procSet_keeps (State.putResults_keeps (by assumption))))
  apply keepsIte
  exact State.modCal_keeps (keepsIte (State.procSet_keeps (State.putResults_keeps (by assumption))) (State.modCal_keeps (State.procSet_keeps (State.putResults_keeps (by assumption)))))
  exact keepsIte (State.procSet_keeps (State.putResults_keeps (by assumption))) (State.modCal_keeps (State.procSet_keeps (State.putResults_keeps (by assumption))))
  apply State.modCal_keeps
  apply keepsIte
  apply State.campPass_keeps
  apply keepsIte
  apply State.set_keeps
  apply State.set_keeps
  apply keepsIte
  exact State.modCal_keeps (keepsIte (State.procSet_keeps (State.putResults_keeps (by assumption))) (State.modCal_keeps (State.procSet_keeps (State.putResults_keeps (by assumption)))))
  exact keepsIte (State.procSet_keeps (State.putResults_keeps (by assumption))) (State.modCal_keeps (State.procSet_keeps (State.putResults_keeps (by assumption))))
  apply keepsIte
  exact State.modCal_keeps (keepsIte (State.procSet_keeps (State.putResults_keeps (by assumption))) (State.modCal_keeps (State.procSet_keeps (State.putResults_keeps (by assumption)))))
  exact keepsIte (State.procSet_keeps (State.putResults_keeps (by assumption))) (State.modCal_keeps (State.procSet_keeps (State.putResults_keeps (by assumption))))
  apply keepsIte
  apply State.set_keeps
  apply State.set_keeps
  apply keepsIte
  exact State.modCal_keeps (keepsIte (State.procSet_keeps (State.putResults_keeps (by assumption))) (State.modCal_keeps (State.procSet_keeps (State.putResults_keeps (by assumption)))))
  exact keepsIte (State.procSet_keeps (State.putResults_keeps (by assumption))) (State.modCal_keeps (State.procSet_keeps (State.putResults_keeps (by assumption))))
  apply keepsIte
  exact State.modCal_keeps (keepsIte (State.procSet_keeps (State.putResults_keeps (by assumption))) (State.modCal_keeps (State.procSet_keeps (State.putResults_keeps (by assumption)))))
  exact keepsIte (State.procSet_keeps (State.putResults_keeps (by assumption))) (State.modCal_keeps (State.procSet_keeps (State.putResults_keeps (by assumption))))

theorem execCalProcedureDone_keeps {z : State} {proc : Fin 10} {stn : Fin 2} {words : List Word} {offs : List (BitVec 16)} {s : State} (hs : s.keeps z) :
    keepsOut z (execCalProcedureDone proc stn words offs s) := by
  unfold execCalProcedureDone
  exact keepsNext (State.procDone_keeps (by assumption))

theorem execAutoCampaignStart_keeps {z : State} {st : Fin 2} {s : State} (hs : s.keeps z) :
    keepsOut z (execAutoCampaignStart st s) := by
  unfold execAutoCampaignStart
  dsimp only
  exact keepsIteOut (keepsNext (State.campStart_keeps (by assumption))) (keepsNext (by assumption))

theorem State.runCalSave_keeps {z : State} {s : State} {c : Cmd} (hs : s.keeps z) :
    (State.runCalSave s c).keeps z := by
  unfold State.runCalSave
  dsimp only
  exact keepsIte (State.finishWith_keeps (by assumption)) (keepsIte (State.finish_keeps (State.draw_keeps (by assumption))) (State.finish_keeps (by assumption)))

theorem execCalSave_keeps {z : State} {p : Path} {e : Entry} {s : State} (hs : s.keeps z) :
    keepsOut z (execCalSave p e s) := by
  unfold execCalSave
  exact keepsNext (State.command_keeps (by assumption) (fun _ _ _ => (State.runCalSave_keeps (by assumption))))

theorem State.putBlob_keeps {z : State} {s : State} {st : Nat} {b : List Byte} (hs : s.keeps z) :
    (State.putBlob s st b).keeps z := by
  unfold State.putBlob
  dsimp only
  apply keepsFold
  exact fun _ _ _ => (State.setReg_keeps (by assumption))
  assumption

theorem State.dropResults_keeps {z : State} {s : State} {st : Nat} (hs : s.keeps z) :
    (State.dropResults s st).keeps z := by
  unfold State.dropResults
  dsimp only
  apply State.when_keeps
  apply State.calShow_keeps
  apply State.set_keeps
  apply keepsFold
  exact fun _ _ _ => (keepsIte (State.set_keeps (by assumption)) (State.setReg_keeps (by assumption)))
  assumption
  exact fun _ _ => (State.set_keeps (by assumption))

theorem State.stationDown_keeps {z : State} {s : State} {st : Nat} (hs : s.keeps z) :
    (State.stationDown s st).keeps z := by
  unfold State.stationDown
  exact State.spnStop_keeps (State.puPark_keeps (State.puPark_keeps (State.leaveService_keeps (by assumption))))

theorem State.runCalLoad_keeps {z : State} {blob : List Byte} {s : State} {c : Cmd} (hs : s.keeps z) :
    (State.runCalLoad blob s c).keeps z := by
  unfold State.runCalLoad
  dsimp only
  split
  exact State.finish_keeps (State.when_keeps (State.draw_keeps (State.set_keeps (State.dropResults_keeps (by assumption)))) (fun _ _ => (State.stationDown_keeps (by assumption))))
  exact State.finish_keeps (State.set_keeps (by assumption))
  exact keepsIte (State.modCal_keeps (State.cmdCounts_keeps (keepsMk (by assumption)))) (State.stationDown_keeps (State.modCal_keeps (State.cmdCounts_keeps (keepsMk (by assumption)))))

theorem execCalLoad_keeps {z : State} {p : Path} {e : Entry} {blob : List Byte} {s : State} (hs : s.keeps z) :
    keepsOut z (execCalLoad p e blob s) := by
  unfold execCalLoad
  exact keepsNext (State.command_keeps (by assumption) (fun _ _ _ => (State.runCalLoad_keeps (by assumption))))

theorem execCalLoadApply_keeps {z : State} {st : Fin 2} {s : State} (hs : s.keeps z) :
    keepsOut z (execCalLoadApply st s) := by
  unfold execCalLoadApply
  dsimp only
  split
  exact keepsNext (by assumption)
  apply keepsIteOut
  exact keepsNext (by assumption)
  apply keepsNext
  split
  apply State.settle_keeps
  exact State.finish_keeps (State.dropJobs_keeps (State.set_keeps (State.set_keeps (State.modCal_keeps (State.calShow_keeps (State.set_keeps (State.putBlob_keeps (by assumption))))))))
  exact State.dropJobs_keeps (State.set_keeps (State.set_keeps (State.modCal_keeps (State.calShow_keeps (State.set_keeps (State.putBlob_keeps (by assumption)))))))

/-! ### FltOps -/

theorem State.faultEvent_keeps {z : State} {s : State} {m : Msg} {sev : Nat} (hs : s.keeps z) :
    (State.faultEvent s m sev).keeps z := by
  unfold State.faultEvent
  exact State.capture_keeps (by assumption)

theorem State.logEvent_keeps {z : State} {s : State} {m : Msg} (hs : s.keeps z) :
    (State.logEvent s m).keeps z := by
  unfold State.logEvent
  dsimp only
  exact keepsIte (by assumption) (keepsMk (State.faultEvent_keeps (by assumption)))

theorem State.startPost_keeps {z : State} {s : State} (hs : s.keeps z) :
    (State.startPost s).keeps z := by
  unfold State.startPost
  dsimp only
  exact keepsIte (by assumption) (keepsIte (State.set_keeps (by assumption)) (keepsMem (by assumption) rfl rfl rfl rfl rfl (Nat.le_refl _)))

theorem State.collectOne_keeps {z : State} {s : State} {m : Msg} (hs : s.keeps z) :
    (State.collectOne s m).keeps z := by
  unfold State.collectOne
  dsimp only
  apply keepsIte
  apply keepsIte
  exact State.logEvent_keeps (State.setReg_keeps (State.setReg_keeps (by assumption)))
  exact keepsIte (State.setReg_keeps (State.setReg_keeps (by assumption))) (State.faultEvent_keeps (State.setReg_keeps (State.setReg_keeps (by assumption))))
  with_reducible apply keepsMk
  apply keepsIte
  exact State.logEvent_keeps (State.setReg_keeps (State.setReg_keeps (by assumption)))
  exact keepsIte (State.setReg_keeps (State.setReg_keeps (by assumption))) (State.faultEvent_keeps (State.setReg_keeps (State.setReg_keeps (by assumption))))

theorem State.collect_keeps {z : State} {s : State} (hs : s.keeps z) :
    (State.collect s).keeps z := by
  unfold State.collect
  dsimp only
  with_reducible apply keepsMk
  apply keepsFold
  exact fun _ _ _ => (State.collectOne_keeps (by assumption))
  exact keepsMk (by assumption)

theorem State.stnShow_keeps {z : State} {s : State} {st : Nat} (hs : s.keeps z) :
    (State.stnShow s st).keeps z := by
  unfold State.stnShow
  dsimp only
  split
  exact State.set_keeps (State.set_keeps (keepsMk (by assumption)))
  exact State.set_keeps (State.set_keeps (keepsMk (by assumption)))

theorem State.stationReact_keeps {z : State} {s : State} {st : Nat} (hs : s.keeps z) :
    (State.stationReact s st).keeps z := by
  unfold State.stationReact
  dsimp only
  apply State.stnShow_keeps
  with_reducible apply keepsMk
  apply keepsIte
  apply keepsIte
  apply State.set_keeps
  apply keepsFold
  exact fun _ _ _ => (State.puPark_keeps (by assumption))
  exact State.dropStationGates_keeps (by assumption)
  apply State.leaveService_keeps
  apply State.set_keeps
  apply keepsFold
  exact fun _ _ _ => (State.puPark_keeps (by assumption))
  exact State.dropStationGates_keeps (by assumption)
  apply State.spnStop_keeps
  apply keepsIte
  apply State.set_keeps
  apply keepsFold
  exact fun _ _ _ => (State.puPark_keeps (by assumption))
  exact State.dropStationGates_keeps (by assumption)
  apply State.leaveService_keeps
  apply State.set_keeps
  apply keepsFold
  exact fun _ _ _ => (State.puPark_keeps (by assumption))
  exact State.dropStationGates_keeps (by assumption)

theorem State.setUnusable_keeps {z : State} {s : State} {src : Nat} {b : Bool} (hs : s.keeps z) :
    (State.setUnusable s src b).keeps z := by
  unfold State.setUnusable
  dsimp only
  exact State.set_keeps (by assumption)

theorem State.markUnit_keeps {z : State} {s0 : State} {src : Nat} {kind : Nat} (hs : s0.keeps z) :
    (State.markUnit s0 src kind).keeps z := by
  unfold State.markUnit
  dsimp only
  apply keepsIte
  exact keepsIte (State.setUnusable_keeps (keepsMk (by assumption))) (State.puFail_keeps (State.setUnusable_keeps (keepsMk (by assumption))))
  apply keepsIte
  exact State.set_keeps (State.setUnusable_keeps (keepsMk (by assumption)))
  apply keepsIte
  exact keepsMk (State.setUnusable_keeps (keepsMk (by assumption)))
  apply keepsIte
  apply keepsIte
  exact State.set_keeps (State.setUnusable_keeps (keepsMk (by assumption)))
  apply keepsIte
  exact State.set_keeps (State.setUnusable_keeps (keepsMk (by assumption)))
  exact keepsIte (State.setUnusable_keeps (keepsMk (by assumption))) (State.spnUnusable_keeps (State.setUnusable_keeps (keepsMk (by assumption))))
  exact keepsIte (State.magDegrade_keeps (State.setUnusable_keeps (keepsMk (by assumption)))) (State.setUnusable_keeps (keepsMk (by assumption)))

theorem State.degrade_keeps {z : State} {s : State} {m : Msg} (hs : s.keeps z) :
    (State.degrade s m).keeps z := by
  unfold State.degrade
  apply keepsIte
  apply keepsFold
  exact fun _ _ _ => (State.markUnit_keeps (by assumption))
  assumption
  exact State.markUnit_keeps (by assumption)

theorem State.freezeSession_keeps {z : State} {s : State} {sid : Nat} (hs : s.keeps z) :
    (State.freezeSession s sid).keeps z := by
  unfold State.freezeSession
  dsimp only
  split
  assumption
  exact keepsIte (by assumption) (State.modSess_keeps (State.logPut_keeps (by assumption)))

theorem State.react_keeps {z : State} {s0 : State} (hs : s0.keeps z) :
    (State.react s0).keeps z := by
  unfold State.react
  dsimp only
  apply keepsIte
  apply keepsFold
  exact fun _ _ _ => (keepsIte (State.stationReact_keeps (by assumption)) (by assumption))
  apply keepsFold
  exact fun _ _ _ => (keepsIte (State.freezeSession_keeps (by assumption)) (by assumption))
  apply keepsFold
  exact fun _ _ _ => (keepsIte (State.degrade_keeps (by assumption)) (by assumption))
  exact keepsMk (by assumption)
  apply keepsFold
  exact fun _ _ _ => (State.orderSafeStop_keeps (State.set_keeps (State.startPost_keeps (State.faultEvent_keeps (by assumption)))))
  exact keepsMk (by assumption)

theorem State.fallBack_keeps {z : State} {s : State} (hs : s.keeps z) :
    (State.fallBack s).keeps z := by
  unfold State.fallBack
  exact keepsIte (by assumption) (State.raise_keeps (State.set_keeps (by assumption)))

theorem State.selfCheck_keeps {z : State} {s : State} {ok : Bool} (hs : s.keeps z) :
    (State.selfCheck s ok).keeps z := by
  unfold State.selfCheck
  dsimp only
  exact keepsIte (keepsMk (by assumption)) (keepsIte (State.fallBack_keeps (keepsMk (by assumption))) (keepsMk (by assumption)))

theorem State.fltTick_keeps {z : State} {s : State} {ok : Bool} (hs : s.keeps z) :
    (State.fltTick s ok).keeps z := by
  unfold State.fltTick
  exact State.stnShow_keeps (State.stnShow_keeps (State.collect_keeps (State.selfCheck_keeps (State.react_keeps (by assumption)))))

theorem State.release_keeps {z : State} {s : State} {st : Nat} (hs : s.keeps z) :
    (State.release s st).keeps z := by
  unfold State.release
  exact State.serviceTick_keeps (State.set_keeps (State.set_keeps (State.set_keeps (by assumption))))

/-! ### BistOps -/

theorem State.modBist_keeps {z : State} {s : State} {f : BistSt → BistSt} (hs : s.keeps z) :
    (State.modBist s f).keeps z := by
  unfold State.modBist
  exact keepsMk (by assumption)

theorem State.bistShow_keeps {z : State} {s : State} (hs : s.keeps z) :
    (State.bistShow s).keeps z := by
  unfold State.bistShow
  exact State.set_keeps (by assumption)

theorem State.cycleStart_keeps {z : State} {s : State} {fast : Bool} (hs : s.keeps z) :
    (State.cycleStart s fast).keeps z := by
  unfold State.cycleStart
  exact State.bistShow_keeps (State.set_keeps (State.modBist_keeps (by assumption)))

theorem State.unitLate_keeps {z : State} {s : State} {u : Nat} (hs : s.keeps z) :
    (State.unitLate s u).keeps z := by
  unfold State.unitLate
  dsimp only
  apply keepsIte
  exact State.raise_keeps (keepsIte (State.set_keeps (State.set_keeps (by assumption))) (State.set_keeps (by assumption)))
  exact keepsIte (State.set_keeps (State.set_keeps (by assumption))) (State.set_keeps (by assumption))

theorem State.cycleEnd_keeps {z : State} {s : State} (hs : s.keeps z) :
    (State.cycleEnd s).keeps z := by
  unfold State.cycleEnd
  dsimp only
  apply State.bistShow_keeps
  apply State.set_keeps
  apply State.incWrap_keeps
  apply State.modBist_keeps
  apply keepsFold
  exact fun _ _ _ => (State.unitLate_keeps (by assumption))
  assumption

theorem State.noteReturn_keeps {z : State} {s : State} {src : Nat} (hs : s.keeps z) :
    (State.noteReturn s src).keeps z := by
  unfold State.noteReturn
  exact State.modBist_keeps (by assumption)

theorem State.readmitWhole_keeps {z : State} {s : State} {src : Nat} (hs : s.keeps z) :
    (State.readmitWhole s src).keeps z := by
  unfold State.readmitWhole
  dsimp only
  apply keepsIte
  apply keepsIte
  exact keepsIte (State.puRest_keeps (State.noteReturn_keeps (State.setUnusable_keeps (by assumption)))) (State.noteReturn_keeps (State.setUnusable_keeps (by assumption)))
  apply keepsIte
  exact State.set_keeps (State.noteReturn_keeps (State.setUnusable_keeps (by assumption)))
  apply keepsIte
  exact keepsMk (State.noteReturn_keeps (State.setUnusable_keeps (by assumption)))
  apply keepsIte
  apply keepsIte
  exact State.noteReturn_keeps (State.setUnusable_keeps (by assumption))
  apply keepsIte
  exact State.set_keeps (State.noteReturn_keeps (State.setUnusable_keeps (by assumption)))
  exact State.badgerHoming_keeps (State.set_keeps (State.noteReturn_keeps (State.setUnusable_keeps (by assumption))))
  exact State.noteReturn_keeps (State.setUnusable_keeps (by assumption))
  assumption

theorem State.readmitStation_keeps {z : State} {s : State} {st : Nat} (hs : s.keeps z) :
    (State.readmitStation s st).keeps z := by
  unfold State.readmitStation
  dsimp only
  apply keepsIte
  assumption
  apply keepsIte
  assumption
  apply State.noteReturn_keeps
  apply State.setUnusable_keeps
  apply State.when_keeps
  exact State.when_keeps (State.when_keeps (by assumption) (fun _ _ => (State.modStn_keeps (State.set_keeps (by assumption))))) (fun _ _ => (State.set_keeps (by assumption)))
  exact fun _ _ => (State.spnOff_keeps (by assumption))

theorem State.readmit_keeps {z : State} {s : State} {u : Nat} (hs : s.keeps z) :
    (State.readmit s u).keeps z := by
  unfold State.readmit
  apply keepsIte
  apply keepsFold
  exact fun _ _ _ => (keepsIte (State.readmitStation_keeps (by assumption)) (State.readmitWhole_keeps (by assumption)))
  assumption
  assumption

theorem State.unitPass_keeps {z : State} {s : State} {u : Nat} (hs : s.keeps z) :
    (State.unitPass s u).keeps z := by
  unfold State.unitPass
  dsimp only
  exact State.readmit_keeps (State.modBist_keeps (State.set_keeps (State.set_keeps (by assumption))))

theorem State.unitFailed_keeps {z : State} {s : State} {u : Nat} (hs : s.keeps z) :
    (State.unitFailed s u).keeps z := by
  unfold State.unitFailed
  dsimp only
  apply keepsIte
  exact State.fallBack_keeps (State.modBist_keeps (State.set_keeps (by assumption)))
  apply keepsIte
  exact State.modBist_keeps (State.set_keeps (by assumption))
  exact keepsIte (State.raise_keeps (State.modBist_keeps (State.set_keeps (by assumption)))) (State.raise_keeps (State.modBist_keeps (State.set_keeps (by assumption))))

theorem State.unitFail_keeps {z : State} {s : State} {u : Nat} (hs : s.keeps z) :
    (State.unitFail s u).keeps z := by
  unfold State.unitFail
  dsimp only
  apply keepsIte
  exact State.modBist_keeps (State.set_keeps (State.addSat_keeps (by assumption)))
  apply keepsIte
  exact State.unitFailed_keeps (State.modBist_keeps (State.set_keeps (State.addSat_keeps (by assumption))))
  exact State.modBist_keeps (State.set_keeps (State.modBist_keeps (State.set_keeps (State.addSat_keeps (by assumption)))))

theorem State.flashSlice_keeps {z : State} {s : State} (hs : s.keeps z) :
    (State.flashSlice s).keeps z := by
  unfold State.flashSlice
  exact State.modBist_keeps (State.flMet_keeps (by assumption))

theorem State.slice_keeps {z : State} {s : State} {u : Nat} {ok : Bool} {msgs : List (BitVec 6 × BitVec 16)} (hs : s.keeps z) :
    (State.slice s u ok msgs).keeps z := by
  unfold State.slice
  dsimp only
  apply State.capture_keeps
  apply State.set_keeps
  apply keepsIte
  apply State.unitPass_keeps
  apply State.when_keeps
  apply keepsIte
  with_reducible apply keepsMk
  split
  apply keepsFold
  exact fun _ _ _ => (keepsIte (State.send_keeps (by assumption)) (by assumption))
  assumption
  assumption
  split
  apply keepsFold
  exact fun _ _ _ => (keepsIte (State.send_keeps (by assumption)) (by assumption))
  assumption
  assumption
  exact fun _ _ => (State.flashSlice_keeps (by assumption))
  apply State.unitFail_keeps
  apply State.when_keeps
  apply keepsIte
  with_reducible apply keepsMk
  split
  apply keepsFold
  exact fun _ _ _ => (keepsIte (State.send_keeps (by assumption)) (by assumption))
  assumption
  assumption
  split
  apply keepsFold
  exact fun _ _ _ => (keepsIte (State.send_keeps (by assumption)) (by assumption))
  assumption
  assumption
  exact fun _ _ => (State.flashSlice_keeps (by assumption))

theorem State.hedgehogSlice_keeps {z : State} {s : State} {ok : Bool} {msgs : List (BitVec 6 × BitVec 16)} (hs : s.keeps z) :
    (State.hedgehogSlice s ok msgs).keeps z := by
  unfold State.hedgehogSlice
  dsimp only
  split
  apply State.cycleEnd_keeps
  apply State.modBist_keeps
  apply keepsFold
  exact fun _ _ _ => (State.capture_keeps (by assumption))
  assumption
  apply keepsIte
  apply State.cycleEnd_keeps
  apply State.set_keeps
  apply State.draw_keeps
  apply State.slice_keeps
  apply State.modBist_keeps
  apply keepsFold
  exact fun _ _ _ => (State.capture_keeps (by assumption))
  assumption
  apply State.set_keeps
  apply State.draw_keeps
  apply State.slice_keeps
  apply State.modBist_keeps
  apply keepsFold
  exact fun _ _ _ => (State.capture_keeps (by assumption))
  assumption

/-! ### Bist -/

theorem execHedgehogSlice_keeps {z : State} {ok : Bool} {msgs : List (BitVec 6 × BitVec 16)} {s : State} (hs : s.keeps z) :
    keepsOut z (execHedgehogSlice ok msgs s) := by
  unfold execHedgehogSlice
  exact keepsNext (keepsIte (State.hedgehogSlice_keeps (by assumption)) (by assumption))

theorem execHedgehogCycleStart_keeps {z : State} {s : State} (hs : s.keeps z) :
    keepsOut z (execHedgehogCycleStart s) := by
  unfold execHedgehogCycleStart
  dsimp only
  exact keepsNext (keepsIte (State.cycleStart_keeps (by assumption)) (by assumption))

theorem State.runNow_keeps {z : State} {s : State} (hs : s.keeps z) :
    (State.runNow s).keeps z := by
  unfold State.runNow
  exact keepsIte (by assumption) (keepsIte (State.modBist_keeps (by assumption)) (State.cycleStart_keeps (by assumption)))

theorem execRunNow_keeps {z : State} {p : Path} {s : State} (hs : s.keeps z) :
    keepsOut z (execRunNow p s) := by
  unfold execRunNow
  exact keepsNext (State.writeBy_keeps (by assumption) (fun _ _ => (State.runNow_keeps (by assumption))))

theorem execBistScanStart_keeps {z : State} {p : Path} {s : State} (hs : s.keeps z) :
    keepsOut z (execBistScanStart p s) := by
  unfold execBistScanStart
  dsimp only
  exact keepsNext (State.writeBy_keeps (by assumption) (fun _ _ => (State.setReg_keeps (State.modBist_keeps (by assumption)))))

/-! ### SelfTest -/

theorem State.testJobs_keeps {z : State} {s : State} {kind : Nat} (hs : s.keeps z) :
    (State.testJobs s kind).keeps z := by
  unfold State.testJobs
  dsimp only
  apply keepsIte
  apply keepsFold
  intro _ _ _
  split
  exact State.addJob_keeps (by assumption)
  assumption
  apply keepsFold
  exact fun _ _ _ => (keepsIte (State.addJob_keeps (by assumption)) (by assumption))
  assumption
  apply keepsFold
  exact fun _ _ _ => (keepsIte (State.addJob_keeps (by assumption)) (by assumption))
  assumption

theorem State.partBegin_keeps {z : State} {s : State} {p : TestPart} (hs : s.keeps z) :
    (State.partBegin s p).keeps z := by
  unfold State.partBegin
  dsimp only
  split
  exact keepsIte (by assumption) (keepsIte (keepsIte (State.axMove_keeps (by assumption)) (by assumption)) (keepsIte (by assumption) (State.axHomeStart_keeps (by assumption))))
  exact keepsIte (State.spin_keeps (by assumption)) (by assumption)
  assumption

theorem State.testStart_keeps {z : State} {s : State} {kind : Nat} (hs : s.keeps z) :
    (State.testStart s kind).keeps z := by
  unfold State.testStart
  dsimp only
  split
  exact State.partBegin_keeps (keepsMk (State.testJobs_keeps (keepsIte (State.cycleStart_keeps (State.setReg_keeps (by assumption))) (State.setReg_keeps (by assumption)))))
  exact keepsMk (State.testJobs_keeps (keepsIte (State.cycleStart_keeps (State.setReg_keeps (by assumption))) (State.setReg_keeps (by assumption))))

theorem State.partDone_keeps {z : State} {s : State} {p : TestPart} {rest : List TestPart} (hs : s.keeps z) :
    (State.partDone s p rest).keeps z := by
  unfold State.partDone
  dsimp only
  split
  apply State.spnStop_keeps
  apply keepsFold
  exact fun _ _ _ => (keepsIte (State.releaseStn_keeps (by assumption)) (by assumption))
  exact State.dropJobs_keeps (by assumption)
  apply keepsFold
  exact fun _ _ _ => (keepsIte (State.releaseStn_keeps (by assumption)) (by assumption))
  exact State.dropJobs_keeps (by assumption)

theorem State.testClear_keeps {z : State} {s : State} (hs : s.keeps z) :
    (State.testClear s).keeps z := by
  unfold State.testClear
  apply keepsFold
  exact fun _ _ _ => (keepsIte (State.releaseStn_keeps (by assumption)) (by assumption))
  exact State.dropJobs_keeps (by assumption)

theorem State.testEnd_keeps {z : State} {s : State} {t : SelfTest} {outcome : Nat} (hs : s.keeps z) :
    (State.testEnd s t outcome).keeps z := by
  unfold State.testEnd
  dsimp only
  apply State.set_keeps
  apply State.set_keeps
  exact State.set_keeps (State.set_keeps (keepsIte (State.testClear_keeps (keepsMk (by assumption))) (State.set_keeps (State.testClear_keeps (keepsMk (by assumption))))))

theorem State.testAbort_keeps {z : State} {s : State} (hs : s.keeps z) :
    (State.testAbort s).keeps z := by
  unfold State.testAbort
  split
  exact State.testEnd_keeps (by assumption)
  assumption

theorem State.runSelfTest_keeps {z : State} {s : State} {c : Cmd} (hs : s.keeps z) :
    (State.runSelfTest s c).keeps z := by
  unfold State.runSelfTest
  apply keepsIte
  exact State.finish_keeps (State.testAbort_keeps (by assumption))
  split
  exact State.finishWith_keeps (by assumption)
  exact State.finish_keeps (State.testStart_keeps (by assumption))

theorem State.testYield_keeps {z : State} {s : State} (hs : s.keeps z) :
    (State.testYield s).keeps z := by
  unfold State.testYield
  apply keepsFold
  intro _ _ _
  split
  exact keepsIte (State.addJob_keeps (State.idleStn_keeps (by assumption))) (by assumption)
  assumption
  assumption

theorem State.testBad_keeps {z : State} {s : State} {p : TestPart} {bad : List UnitRef} (hs : s.keeps z) :
    (State.testBad s p bad).keeps z := by
  unfold State.testBad
  dsimp only
  split
  apply keepsFold
  exact fun _ _ _ => (keepsIte (State.deferError_keeps (by assumption)) (by assumption))
  assumption
  assumption

theorem State.testStep_keeps {z : State} {s : State} {t : SelfTest} {ok : Bool} {src : Nat} {finished : Bool} {bad : List UnitRef} (hs : s.keeps z) :
    (State.testStep s t ok src finished bad).keeps z := by
  unfold State.testStep
  dsimp only
  split
  exact State.testEnd_keeps (by assumption)
  apply keepsIte
  exact State.testYield_keeps (by assumption)
  apply keepsIte
  exact State.testYield_keeps (keepsMk (State.testBad_keeps (keepsIte (by assumption) (State.logPut_keeps (by assumption)))))
  split
  exact State.testEnd_keeps (State.partDone_keeps (State.testBad_keeps (keepsIte (by assumption) (State.logPut_keeps (by assumption)))))
  apply State.partBegin_keeps
  exact State.testYield_keeps (State.set_keeps (State.draw_keeps (keepsMk (State.partDone_keeps (State.testBad_keeps (keepsIte (by assumption) (State.logPut_keeps (by assumption))))))))

theorem execSelfTestShort_keeps {z : State} {p : Path} {e : Entry} {s : State} (hs : s.keeps z) :
    keepsOut z (execSelfTestShort p e s) := by
  unfold execSelfTestShort
  exact keepsNext (State.command_keeps (by assumption) (fun _ _ _ => (State.runSelfTest_keeps (by assumption))))

theorem execSelfTestExtended_keeps {z : State} {p : Path} {e : Entry} {s : State} (hs : s.keeps z) :
    keepsOut z (execSelfTestExtended p e s) := by
  unfold execSelfTestExtended
  exact keepsNext (State.command_keeps (by assumption) (fun _ _ _ => (State.runSelfTest_keeps (by assumption))))

theorem execSelfTestAbort_keeps {z : State} {p : Path} {e : Entry} {s : State} (hs : s.keeps z) :
    keepsOut z (execSelfTestAbort p e s) := by
  unfold execSelfTestAbort
  exact keepsNext (State.command_keeps (by assumption) (fun _ _ _ => (State.runSelfTest_keeps (by assumption))))

theorem execSelfTestStep_keeps {z : State} {ok : Bool} {src : BitVec 10} {finished : Bool} {bad : List UnitRef} {s : State} (hs : s.keeps z) :
    keepsOut z (execSelfTestStep ok src finished bad s) := by
  unfold execSelfTestStep
  apply keepsNext
  split
  exact State.testStep_keeps (by assumption)
  assumption

theorem State.testAck_keeps {z : State} {s : State} (hs : s.keeps z) :
    (State.testAck s).keeps z := by
  unfold State.testAck
  exact keepsIte (by assumption) (State.setReg_keeps (by assumption))

theorem execSelfTestAck_keeps {z : State} {p : Path} {s : State} (hs : s.keeps z) :
    keepsOut z (execSelfTestAck p s) := by
  unfold execSelfTestAck
  exact keepsNext (State.writeBy_keeps (by assumption) (fun _ _ => (State.testAck_keeps (by assumption))))

/-! ### ModeOps -/

theorem State.modSys_keeps {z : State} {s : State} {f : SysSt → SysSt} (hs : s.keeps z) :
    (State.modSys s f).keeps z := by
  unfold State.modSys
  exact keepsMk (by assumption)

theorem State.reqResult_keeps {z : State} {s : State} {result : Nat} (hs : s.keeps z) :
    (State.reqResult s result).keeps z := by
  unfold State.reqResult
  exact State.modSys_keeps (State.set_keeps (by assumption))

theorem State.reqSuperseded_keeps {z : State} {s : State} (hs : s.keeps z) :
    (State.reqSuperseded s).keeps z := by
  unfold State.reqSuperseded
  exact State.set_keeps (State.reqResult_keeps (by assumption))

theorem State.reqOvertaken_keeps {z : State} {s : State} {m : Nat} (hs : s.keeps z) :
    (State.reqOvertaken s m).keeps z := by
  unfold State.reqOvertaken
  exact keepsIte (keepsIte (State.reqResult_keeps (by assumption)) (State.reqSuperseded_keeps (by assumption))) (by assumption)

theorem State.allOff_keeps {z : State} {s : State} (hs : s.keeps z) :
    (State.allOff s).keeps z := by
  unfold State.allOff
  dsimp only
  apply State.set_keeps
  apply keepsFold
  exact fun _ _ _ => (State.axHaltOff_keeps (by assumption))
  apply keepsFold
  exact fun _ _ _ => (keepsIte (by assumption) (State.spnOff_keeps (by assumption)))
  apply keepsFold
  exact fun _ _ _ => (State.puTurnOff_keeps (by assumption))
  assumption

theorem State.owlCheck_keeps {z : State} {s : State} (hs : s.keeps z) :
    (State.owlCheck s).keeps z := by
  unfold State.owlCheck
  dsimp only
  apply keepsIte
  assumption
  split
  exact State.set_keeps (State.set_keeps (State.set_keeps (State.flMet_keeps (keepsMem (by assumption) rfl rfl rfl rfl rfl (Nat.le_refl _)))))
  apply keepsIte
  exact State.eraseOwl_keeps (State.flMet_keeps (keepsMem (by assumption) rfl rfl rfl rfl rfl (Nat.le_refl _)))
  exact State.flMet_keeps (keepsMem (by assumption) rfl rfl rfl rfl rfl (Nat.le_refl _))

theorem State.enterProvision_keeps {z : State} {s : State} (hs : s.keeps z) :
    (State.enterProvision s).keeps z := by
  unfold State.enterProvision
  dsimp only
  exact State.modSys_keeps (keepsMk (State.owlCheck_keeps (State.allOff_keeps (by assumption))))

theorem State.leaveMode_keeps {z : State} {s : State} (hs : s.keeps z) :
    (State.leaveMode s).keeps z := by
  unfold State.leaveMode
  dsimp only
  apply keepsIte
  apply keepsIte
  exact keepsMem (State.set_keeps (keepsIte (State.campAbort_keeps (by assumption)) (by assumption))) rfl rfl rfl rfl rfl (Nat.le_refl _)
  exact State.set_keeps (keepsIte (State.campAbort_keeps (by assumption)) (by assumption))
  exact keepsIte (State.campAbort_keeps (by assumption)) (by assumption)

theorem State.changeMode_keeps {z : State} {s : State} {m : Nat} {cause : Nat} (hs : s.keeps z) :
    (State.changeMode s m cause).keeps z := by
  unfold State.changeMode
  dsimp only
  apply keepsIte
  apply State.enterProvision_keeps
  apply State.modSys_keeps
  exact State.set_keeps (State.reqOvertaken_keeps (State.capture_keeps (State.set_keeps (State.set_keeps (State.set_keeps (State.leaveMode_keeps (by assumption)))))))
  apply keepsIte
  apply keepsIte
  apply State.startRebuild_keeps
  apply State.badgerHoming_keeps
  apply State.axesOn_keeps
  apply State.modSys_keeps
  exact State.set_keeps (State.reqOvertaken_keeps (State.capture_keeps (State.set_keeps (State.set_keeps (State.set_keeps (State.leaveMode_keeps (by assumption)))))))
  apply State.badgerHoming_keeps
  apply State.axesOn_keeps
  apply State.modSys_keeps
  exact State.set_keeps (State.reqOvertaken_keeps (State.capture_keeps (State.set_keeps (State.set_keeps (State.set_keeps (State.leaveMode_keeps (by assumption)))))))
  apply keepsIte
  apply State.badgerHoming_keeps
  apply State.axesOn_keeps
  apply State.modSys_keeps
  exact State.set_keeps (State.reqOvertaken_keeps (State.capture_keeps (State.set_keeps (State.set_keeps (State.set_keeps (State.leaveMode_keeps (by assumption)))))))
  apply State.modSys_keeps
  exact State.set_keeps (State.reqOvertaken_keeps (State.capture_keeps (State.set_keeps (State.set_keeps (State.set_keeps (State.leaveMode_keeps (by assumption)))))))

theorem State.refuseUnstarted_keeps {z : State} {s : State} {code : Nat} (hs : s.keeps z) :
    (State.refuseUnstarted s code).keeps z := by
  unfold State.refuseUnstarted
  dsimp only
  apply State.settle_keeps
  apply keepsFold
  exact fun _ _ _ => (State.finishWith_keeps (State.dropJobs_keeps (by assumption)))
  assumption

theorem State.indexDue_keeps {z : State} {s : State} (hs : s.keeps z) :
    (State.indexDue s).keeps z := by
  unfold State.indexDue
  exact State.modPlc_keeps (by assumption)

theorem State.drainBegins_keeps {z : State} {s : State} {cause : DrainCause} (hs : s.keeps z) :
    (State.drainBegins s cause).keeps z := by
  unfold State.drainBegins
  dsimp only
  split
  exact State.refuseUnstarted_keeps (by assumption)
  exact keepsMk (State.refuseUnstarted_keeps (by assumption))
  assumption

theorem State.enterDrain_keeps {z : State} {s : State} {cause : DrainCause} {code : Nat} (hs : s.keeps z) :
    (State.enterDrain s cause code).keeps z := by
  unfold State.enterDrain
  exact State.drainBegins_keeps (State.indexDue_keeps (State.changeMode_keeps (State.modSys_keeps (by assumption))))

theorem State.flushAllDone_keeps {z : State} {s : State} (hs : s.keeps z) :
    (State.flushAllDone s).keeps z := by
  unfold State.flushAllDone
  apply keepsFold
  exact fun _ _ _ => (State.finish_keeps (by assumption))
  assumption

theorem State.prepareOverwrite_keeps {z : State} {s : State} (hs : s.keeps z) :
    (State.prepareOverwrite s).keeps z := by
  unfold State.prepareOverwrite
  dsimp only
  apply State.bistShow_keeps
  apply State.modSys_keeps
  apply State.magHalt_keeps
  apply keepsFold
  exact fun _ _ _ => (State.spnStop_keeps (by assumption))
  apply keepsFold
  exact fun _ _ _ => (State.puPark_keeps (by assumption))
  exact State.modBist_keeps (State.testAbort_keeps (State.campAbort_keeps (by assumption)))

theorem State.drainComplete_keeps {z : State} {s : State} (hs : s.keeps z) :
    (State.drainComplete s).keeps z := by
  unfold State.drainComplete
  apply keepsIte
  split
  exact State.settle_keeps (State.flushAllDone_keeps (State.changeMode_keeps (by assumption)))
  exact State.prepareOverwrite_keeps (State.changeMode_keeps (by assumption))
  exact keepsIte (State.changeMode_keeps (by assumption)) (State.set_keeps (by assumption))
  assumption

theorem State.flushAllDrain_keeps {z : State} {s : State} (hs : s.keeps z) :
    (State.flushAllDrain s).keeps z := by
  unfold State.flushAllDrain
  exact keepsIte (State.enterDrain_keeps (by assumption)) (by assumption)

theorem State.actClear_keeps {z : State} {s : State} (hs : s.keeps z) :
    (State.actClear s).keeps z := by
  unfold State.actClear
  exact State.setReg_keeps (State.setReg_keeps (State.setReg_keeps (State.set_keeps (by assumption))))

theorem State.actCancel_keeps {z : State} {s : State} {outcome : Nat} (hs : s.keeps z) :
    (State.actCancel s outcome).keeps z := by
  unfold State.actCancel
  exact keepsIte (State.raise_keeps (State.set_keeps (State.actClear_keeps (by assumption)))) (by assumption)

theorem State.actOvertakes_keeps {z : State} {s : State} (hs : s.keeps z) :
    (State.actOvertakes s).keeps z := by
  unfold State.actOvertakes
  exact State.modSys_keeps (keepsIte (State.reqSuperseded_keeps (by assumption)) (by assumption))

theorem State.activate_keeps {z : State} {s : State} (hs : s.keeps z) :
    (State.activate s).keeps z := by
  unfold State.activate
  dsimp only
  apply keepsIte
  apply keepsIte
  exact State.actCancel_keeps (by assumption)
  apply keepsIte
  exact State.enterDrain_keeps (State.set_keeps (State.set_keeps (State.set_keeps (State.actClear_keeps (by assumption)))))
  apply keepsIte
  apply State.settle_keeps
  apply State.drainBegins_keeps
  exact State.set_keeps (State.modSys_keeps (State.actOvertakes_keeps (State.set_keeps (State.set_keeps (State.set_keeps (State.actClear_keeps (by assumption)))))))
  apply keepsIte
  exact State.prepareOverwrite_keeps (State.changeMode_keeps (State.set_keeps (State.set_keeps (State.set_keeps (State.actClear_keeps (by assumption))))))
  exact State.prepareOverwrite_keeps (State.actOvertakes_keeps (State.set_keeps (State.set_keeps (State.set_keeps (State.actClear_keeps (by assumption))))))
  assumption

theorem State.abortCommands_keeps {z : State} {s : State} {code : Nat} (hs : s.keeps z) :
    (State.abortCommands s code).keeps z := by
  unfold State.abortCommands
  dsimp only
  apply keepsFold
  exact fun _ _ _ => (State.finishWith_keeps (by assumption))
  apply State.modPlc_keeps
  apply keepsFold
  exact fun _ _ _ => (State.endJobs_keeps (by assumption))
  exact State.dropVersions_keeps (by assumption)

theorem State.actTimeout_keeps {z : State} {s : State} (hs : s.keeps z) :
    (State.actTimeout s).keeps z := by
  unfold State.actTimeout
  dsimp only
  apply keepsIte
  exact State.prepareOverwrite_keeps (State.changeMode_keeps (State.raise_keeps (State.set_keeps (State.set_keeps (State.abortCommands_keeps (by assumption))))))
  assumption

theorem State.startFlush_keeps {z : State} {s : State} {before : Nat} (hs : s.keeps z) :
    (State.startFlush s before).keeps z := by
  unfold State.startFlush
  dsimp only
  apply keepsIte
  exact State.raise_keeps (keepsMem (by assumption) rfl rfl rfl rfl rfl (Nat.le_refl _))
  apply keepsFold
  exact fun _ _ _ => (State.flPush_keeps (by assumption))
  exact keepsMem (by assumption) rfl rfl rfl rfl rfl (Nat.le_refl _)

theorem State.endCommands_keeps {z : State} {s : State} (hs : s.keeps z) :
    (State.endCommands s).keeps z := by
  unfold State.endCommands
  dsimp only
  apply keepsFold
  exact fun _ _ _ => (State.finishWith_keeps (State.endJobs_keeps (by assumption)))
  apply State.settle_keeps
  apply keepsFold
  intro _ _ _
  split
  assumption
  exact keepsIte (State.cmdRevoked_keeps (by assumption)) (State.finishWith_keeps (State.dropJobs_keeps (by assumption)))
  assumption

theorem State.safeStation_keeps {z : State} {s : State} {st : Nat} (hs : s.keeps z) :
    (State.safeStation s st).keeps z := by
  unfold State.safeStation
  exact State.spnStop_keeps (by assumption)

theorem State.safeAxes_keeps {z : State} {s : State} (hs : s.keeps z) :
    (State.safeAxes s).keeps z := by
  unfold State.safeAxes
  dsimp only
  apply keepsIte
  apply keepsFold
  exact fun _ _ _ => (State.axLoseHome_keeps (State.axHaltOff_keeps (by assumption)))
  exact keepsIte (State.exchFail_keeps (by assumption)) (by assumption)
  apply State.set_keeps
  apply State.magResult_keeps
  apply keepsFold
  exact fun _ _ _ => (State.axLoseHome_keeps (State.axHaltOff_keeps (by assumption)))
  exact keepsIte (State.exchFail_keeps (by assumption)) (by assumption)

theorem State.safeStop_keeps {z : State} {s : State} {cause : Nat} (hs : s.keeps z) :
    (State.safeStop s cause).keeps z := by
  unfold State.safeStop
  dsimp only
  apply keepsIte
  apply State.startFlush_keeps
  apply State.bistShow_keeps
  apply State.actCancel_keeps
  apply keepsFold
  exact fun _ _ _ => (State.safeStation_keeps (by assumption))
  with_reducible apply keepsMk
  apply State.endCommands_keeps
  apply keepsFold
  exact fun _ _ _ => (keepsIte (by assumption) (State.leaveService_keeps (by assumption)))
  apply State.testAbort_keeps
  apply State.discardTxns_keeps
  apply State.safeAxes_keeps
  apply keepsFold
  exact fun _ _ _ => (State.puTurnOff_keeps (by assumption))
  exact State.dropStationGates_keeps (State.dropStationGates_keeps (State.changeMode_keeps (State.modSys_keeps (by assumption))))
  apply State.bistShow_keeps
  apply State.actCancel_keeps
  apply keepsFold
  exact fun _ _ _ => (State.safeStation_keeps (by assumption))
  with_reducible apply keepsMk
  apply State.endCommands_keeps
  apply keepsFold
  exact fun _ _ _ => (keepsIte (by assumption) (State.leaveService_keeps (by assumption)))
  apply State.testAbort_keeps
  apply State.discardTxns_keeps
  apply State.safeAxes_keeps
  apply keepsFold
  exact fun _ _ _ => (State.puTurnOff_keeps (by assumption))
  exact State.dropStationGates_keeps (State.dropStationGates_keeps (State.changeMode_keeps (State.modSys_keeps (by assumption))))

theorem State.bridgesEnd_keeps {z : State} {s : State} (hs : s.keeps z) :
    (State.bridgesEnd s).keeps z := by
  unfold State.bridgesEnd
  exact keepsIte (State.allBridgesOff_keeps (by assumption)) (by assumption)

theorem State.modeRequest_keeps {z : State} {s : State} {target : Nat} (hs : s.keeps z) :
    (State.modeRequest s target).keeps z := by
  unfold State.modeRequest
  dsimp only
  exact State.modSys_keeps (State.set_keeps (State.set_keeps (State.set_keeps (State.set_keeps (keepsIte (State.set_keeps (by assumption)) (by assumption))))))

theorem State.reqGrant_keeps {z : State} {s : State} {m : Nat} (hs : s.keeps z) :
    (State.reqGrant s m).keeps z := by
  unfold State.reqGrant
  exact State.changeMode_keeps (State.reqResult_keeps (by assumption))

theorem State.reqLacks_keeps {z : State} {s : State} {cond : Nat} (hs : s.keeps z) :
    (State.reqLacks s cond).keeps z := by
  unfold State.reqLacks
  exact State.set_keeps (State.reqResult_keeps (by assumption))

theorem State.decideRequest_keeps {z : State} {s : State} (hs : s.keeps z) :
    (State.decideRequest s).keeps z := by
  unfold State.decideRequest
  dsimp only
  apply keepsIte
  assumption
  apply keepsIte
  apply keepsIte
  exact keepsIte (State.reqGrant_keeps (by assumption)) (State.reqLacks_keeps (by assumption))
  exact keepsIte (State.reqGrant_keeps (by assumption)) (State.reqResult_keeps (by assumption))
  apply keepsIte
  apply keepsIte
  exact State.enterDrain_keeps (State.reqResult_keeps (by assumption))
  exact keepsIte (State.modSys_keeps (State.enterDrain_keeps (State.modSys_keeps (by assumption)))) (State.reqResult_keeps (by assumption))
  apply keepsIte
  apply keepsIte
  exact State.reqGrant_keeps (by assumption)
  apply keepsIte
  exact keepsIte (State.reqGrant_keeps (by assumption)) (State.modSys_keeps (by assumption))
  exact keepsIte (State.reqLacks_keeps (by assumption)) (State.reqResult_keeps (by assumption))
  apply keepsIte
  apply keepsIte
  exact keepsIte (State.reqGrant_keeps (by assumption)) (State.reqLacks_keeps (by assumption))
  exact keepsIte (keepsIte (State.reqLacks_keeps (by assumption)) (State.reqGrant_keeps (by assumption))) (State.reqResult_keeps (by assumption))
  exact State.reqResult_keeps (by assumption)

theorem State.safeStopTick_keeps {z : State} {s : State} (hs : s.keeps z) :
    (State.safeStopTick s).keeps z := by
  unfold State.safeStopTick
  split
  exact State.safeStop_keeps (by assumption)
  exact keepsIte (State.startFlush_keeps (by assumption)) (by assumption)

theorem State.recoverEnd_keeps {z : State} {s : State} (hs : s.keeps z) :
    (State.recoverEnd s).keeps z := by
  unfold State.recoverEnd
  dsimp only
  exact keepsIte (State.settle_keeps (State.cmdCounts_keeps (keepsMk (State.set_keeps (State.applyRebuilt_keeps (by assumption)))))) (by assumption)

theorem State.bootEnd_keeps {z : State} {s : State} (hs : s.keeps z) :
    (State.bootEnd s).keeps z := by
  unfold State.bootEnd
  exact keepsIte (State.changeMode_keeps (by assumption)) (by assumption)

theorem State.modeTick_keeps {z : State} {s : State} (hs : s.keeps z) :
    (State.modeTick s).keeps z := by
  unfold State.modeTick
  apply State.bistShow_keeps
  apply State.bridgesEnd_keeps
  apply State.bootEnd_keeps
  apply State.recoverEnd_keeps
  exact State.decideRequest_keeps (State.drainComplete_keeps (State.actTimeout_keeps (State.flushAllDrain_keeps (State.activate_keeps (State.safeStopTick_keeps (by assumption))))))

/-! ### BootOps -/

theorem State.deviceReset_keeps {z : State} {s : State} {cause : Nat} (hs : s.keeps z) :
    (State.deviceReset s cause).keeps z := by
  have hf : ∀ f : State, f.keeps z →
      ((s.keptRegs cause).foldl (fun (t : State) (r : Nat × Word) => t.setReg r.1 r.2) f).keeps z :=
    fun f h => keepsFold (fun s a hs => State.setReg_keeps hs) h
  obtain ⟨h1, h2, _, _, _, h6, h7, _⟩ := hs
  have ho : (s.keptOwl cause).ring.length ≤ 4096 ∧ (s.keptOwl cause).vbus.length ≤ 256 := by
    unfold State.keptOwl
    split
    · decide
    · exact ⟨h7, Nat.zero_le _⟩
  unfold State.deviceReset
  dsimp only
  apply keepsIte
  · apply State.raise_keeps
    exact hf _ (keepsFresh h1 h2 rfl ⟨rfl, rfl⟩ h6 ho.1 ho.2)
  · exact hf _ (keepsFresh h1 h2 rfl ⟨rfl, rfl⟩ h6 ho.1 ho.2)

theorem State.resetBy_keeps {z : State} {s : State} {cause : Nat} (hs : s.keeps z) :
    (State.resetBy s cause).keeps z := by
  unfold State.resetBy
  exact keepsIte (keepsIte (State.deviceReset_keeps (by assumption)) (State.setReg_keeps (by assumption))) (State.deviceReset_keeps (by assumption))

theorem State.twinShow_keeps {z : State} {s : State} (hs : s.keeps z) :
    (State.twinShow s).keeps z := by
  unfold State.twinShow
  split
  exact State.setFlag_keeps (State.set_keeps (by assumption))
  exact State.set_keeps (by assumption)

theorem State.startTwin_keeps {z : State} {s0 : State} {b : Bool} (hs : s0.keeps z) :
    (State.startTwin s0 b).keeps z := by
  unfold State.startTwin
  dsimp only
  exact State.extendMsr_keeps (State.modSys_keeps (State.flMet_keeps (by assumption)))

theorem State.powerGood_keeps {z : State} {s : State} {a : Bool} {b : Bool} (hs : s.keeps z) :
    (State.powerGood s a b).keeps z := by
  unfold State.powerGood
  dsimp only
  apply keepsIte
  exact State.startTwin_keeps (State.twinShow_keeps (State.capture_keeps (keepsMk (by assumption))))
  apply keepsIte
  exact State.startTwin_keeps (State.twinShow_keeps (State.capture_keeps (keepsMk (by assumption))))
  exact State.modSys_keeps (State.twinShow_keeps (State.capture_keeps (keepsMk (by assumption))))

theorem State.flashStart_keeps {z : State} {s : State} (hs : s.keeps z) :
    (State.flashStart s).keeps z := by
  unfold State.flashStart
  dsimp only
  apply State.modSys_keeps
  apply State.refreshShow_keeps
  apply State.twinShow_keeps
  apply State.jrnlStat_keeps
  apply State.set_keeps
  split
  apply State.refrPut_keeps
  apply keepsFold
  exact fun _ _ _ => (State.journal_keeps (keepsIte (State.eraseSector_keeps (by assumption)) (by assumption)))
  assumption
  apply keepsFold
  exact fun _ _ _ => (State.journal_keeps (keepsIte (State.eraseSector_keeps (by assumption)) (by assumption)))
  assumption

theorem State.loadComp_keeps {z : State} {ok : List Bool} {acc : State × Bool} {i : Nat} (hs : acc.1.keeps z) :
    (State.loadComp ok acc i).1.keeps z := by
  unfold State.loadComp
  dsimp only
  split
  assumption
  split
  dsimp only
  exact State.extendMsr_keeps (State.flMet_keeps (by assumption))
  dsimp only
  exact State.set_keeps (State.flMet_keeps (by assumption))

theorem State.takeNode_keeps {z : State} {s : State} (hs : s.keeps z) :
    (State.takeNode s).keeps z := by
  unfold State.takeNode
  exact State.withTlv_keeps (by assumption) (fun _ _ _ => (State.set_keeps (State.set_keeps (by assumption))))

theorem State.loadStage_keeps {z : State} {s : State} {ok : List Bool} {board : List Byte} (hs : s.keeps z) :
    (State.loadStage s ok board).keeps z := by
  unfold State.loadStage
  dsimp only
  apply keepsIte
  apply State.set_keeps
  apply keepsIte
  apply State.takeNode_keeps
  apply keepsFoldFst
  exact fun _ _ _ => (State.loadComp_keeps (by assumption))
  dsimp only
  apply keepsIte
  apply State.extendMsr_keeps
  apply State.modSys_keeps
  apply State.loadComp_keeps
  dsimp only
  assumption
  apply State.modSys_keeps
  apply State.loadComp_keeps
  dsimp only
  assumption
  apply keepsFoldFst
  exact fun _ _ _ => (State.loadComp_keeps (by assumption))
  dsimp only
  apply keepsIte
  apply State.extendMsr_keeps
  apply State.modSys_keeps
  apply State.loadComp_keeps
  dsimp only
  assumption
  apply State.modSys_keeps
  apply State.loadComp_keeps
  dsimp only
  assumption
  apply keepsIte
  apply State.takeNode_keeps
  apply keepsFoldFst
  exact fun _ _ _ => (State.loadComp_keeps (by assumption))
  dsimp only
  apply keepsIte
  apply State.extendMsr_keeps
  apply State.modSys_keeps
  apply State.loadComp_keeps
  dsimp only
  assumption
  apply State.modSys_keeps
  apply State.loadComp_keeps
  dsimp only
  assumption
  apply keepsFoldFst
  exact fun _ _ _ => (State.loadComp_keeps (by assumption))
  dsimp only
  apply keepsIte
  apply State.extendMsr_keeps
  apply State.modSys_keeps
  apply State.loadComp_keeps
  dsimp only
  assumption
  apply State.modSys_keeps
  apply State.loadComp_keeps
  dsimp only
  assumption

theorem State.newEk_keeps {z : State} {s : State} (hs : s.keeps z) :
    (State.newEk s).keeps z := by
  unfold State.newEk
  dsimp only
  exact State.set_keeps (keepsMem (by assumption) rfl rfl rfl rfl rfl (Nat.le_add_right _ _))

theorem State.stageEnd_keeps {z : State} {s : State} {n : Nat} {ok : List Bool} {board : List Byte} (hs : s.keeps z) :
    (State.stageEnd s n ok board).keeps z := by
  unfold State.stageEnd
  dsimp only
  apply keepsIte
  exact State.modSys_keeps (State.set_keeps (by assumption))
  apply keepsIte
  exact State.modSys_keeps (State.flashStart_keeps (by assumption))
  apply keepsIte
  exact State.modSys_keeps (State.set_keeps (State.set_keeps (by assumption)))
  apply keepsIte
  exact keepsIte (State.modSys_keeps (State.loadStage_keeps (by assumption))) (State.loadStage_keeps (by assumption))
  apply keepsIte
  exact State.modSys_keeps (State.extendMsr_keeps (State.loadBoard_keeps (by assumption)))
  apply keepsIte
  exact State.modSys_keeps (State.modSys_keeps (State.set_keeps (by assumption)))
  apply keepsFold
  exact fun _ _ _ => (State.set_keeps (by assumption))
  apply State.modSys_keeps
  apply State.set_keeps
  apply State.newEk_keeps
  split
  exact State.set_keeps (by assumption)
  assumption

end Sys2Proof.Machine
end

