-- ==== Sys2Proof/Laws/KeepsRows.lean ====
section
/-!
SUPPORT. One lemma per operation of the remaining rows, register access, security, the tick and `exec` itself:
it keeps what `State.keeps` says.
-/

namespace Sys2Proof.Machine

open Sys2Proof

/-! ### Boot -/

theorem execPowerOnReset_keeps {z : State} {s : State} (hs : s.keeps z) :
    keepsOut z (execPowerOnReset s) := by
  unfold execPowerOnReset
  exact keepsNext (State.resetBy_keeps (by assumption))

theorem execResetPin_keeps {z : State} {s : State} (hs : s.keeps z) :
    keepsOut z (execResetPin s) := by
  unfold execResetPin
  exact keepsNext (State.resetBy_keeps (by assumption))

theorem execWatchdogReset_keeps {z : State} {s : State} (hs : s.keeps z) :
    keepsOut z (execWatchdogReset s) := by
  unfold execWatchdogReset
  exact keepsNext (keepsIte (State.resetBy_keeps (by assumption)) (by assumption))

theorem execBrownout_keeps {z : State} {s : State} (hs : s.keeps z) :
    keepsOut z (execBrownout s) := by
  unfold execBrownout
  exact keepsNext (State.resetBy_keeps (by assumption))

theorem execPowerGood_keeps {z : State} {a : Bool} {b : Bool} {s : State} (hs : s.keeps z) :
    keepsOut z (execPowerGood a b s) := by
  unfold execPowerGood
  exact keepsNext (keepsIte (State.powerGood_keeps (by assumption)) (by assumption))

theorem execJackStageDone_keeps {z : State} {ok : List Bool} {board : List Byte} {s : State} (hs : s.keeps z) :
    keepsOut z (execJackStageDone ok board s) := by
  unfold execJackStageDone
  apply keepsNext
  split
  exact keepsIte (State.stageEnd_keeps (by assumption)) (by assumption)
  assumption

theorem execBootComplete_keeps {z : State} {s : State} (hs : s.keeps z) :
    keepsOut z (execBootComplete s) := by
  unfold execBootComplete
  exact keepsNext (State.bootEnd_keeps (by assumption))

theorem State.sysRst_keeps {z : State} {s : State} {p : Path} {key : Nat} {devRst : Bool} (hs : s.keeps z) :
    (State.sysRst s p key devRst).keeps z := by
  unfold State.sysRst
  dsimp only
  apply keepsIte
  assumption
  split
  exact State.status_keeps (State.rxMessage_keeps (by assumption))
  apply keepsIte
  exact State.status_keeps (State.rxMessage_keeps (by assumption))
  exact keepsIte (State.deviceReset_keeps (State.status_keeps (State.rxMessage_keeps (by assumption)))) (State.status_keeps (State.rxMessage_keeps (by assumption)))

theorem execSysRst_keeps {z : State} {p : Path} {key : BitVec 16} {devRst : Bool} {s : State} (hs : s.keeps z) :
    keepsOut z (execSysRst p key devRst s) := by
  unfold execSysRst
  exact keepsNext (State.sysRst_keeps (by assumption))

theorem execLogicScanEnd_keeps {z : State} {fail : Bool} {patterns : BitVec 29} {s : State} (hs : s.keeps z) :
    keepsOut z (execLogicScanEnd fail patterns s) := by
  unfold execLogicScanEnd
  exact keepsNext (keepsIte (State.deviceReset_keeps (State.set_keeps (State.setFlag_keeps (State.set_keeps (by assumption))))) (by assumption))

theorem State.scanRead_keeps {z : State} {s : State} (hs : s.keeps z) :
    (State.scanRead s).2.keeps z := by
  unfold State.scanRead
  dsimp only
  exact keepsIte (State.set_keeps (by assumption)) (by assumption)

theorem execBistScanStatRead_keeps {z : State} {p : Path} {s : State} (hs : s.keeps z) :
    keepsOut z (execBistScanStatRead p s) := by
  unfold execBistScanStatRead
  exact keepsNext (State.readBy_keeps (by assumption) (fun _ _ => (State.scanRead_keeps (by assumption))))

/-! ### Faults -/

theorem State.sends_keeps {z : State} {s : State} {src : Nat} {kind : Nat} {arg : Nat} (hs : s.keeps z) :
    (State.sends s src kind arg).keeps z := by
  unfold State.sends
  exact keepsIte (State.raise_keeps (by assumption)) (by assumption)

theorem execFaultMessage_keeps {z : State} {src : BitVec 10} {kind : BitVec 6} {arg : BitVec 16} {s : State} (hs : s.keeps z) :
    keepsOut z (execFaultMessage src kind arg s) := by
  unfold execFaultMessage
  exact keepsNext (State.sends_keeps (by assumption))

theorem execFallbackMessage_keeps {z : State} {src : BitVec 10} {kind : BitVec 6} {arg : BitVec 16} {s : State} (hs : s.keeps z) :
    keepsOut z (execFallbackMessage src kind arg s) := by
  unfold execFallbackMessage
  exact keepsNext (keepsIte (State.sends_keeps (by assumption)) (by assumption))

theorem execStnHoldExpiry_keeps {z : State} {st : Fin 2} {s0 : State} (hs : s0.keeps z) :
    keepsOut z (execStnHoldExpiry st s0) := by
  unfold execStnHoldExpiry
  dsimp only
  split
  exact keepsNext (State.stnShow_keeps (by assumption))
  apply keepsIteOut
  exact keepsNext (State.stnShow_keeps (by assumption))
  apply keepsIteOut
  exact keepsNext (State.set_keeps (State.stnShow_keeps (by assumption)))
  exact keepsIteOut (keepsNext (State.stnShow_keeps (by assumption))) (keepsNext (State.release_keeps (State.stnShow_keeps (by assumption))))

theorem execFltStnRel_keeps {z : State} {p : Path} {st : Fin 2} {s : State} (hs : s.keeps z) :
    keepsOut z (execFltStnRel p st s) := by
  unfold execFltStnRel
  exact keepsNext (State.writeBy_keeps (by assumption) (fun _ _ => (keepsIte (State.release_keeps (by assumption)) (by assumption))))

theorem execFltInject_keeps {z : State} {p : Path} {s : State} (hs : s.keeps z) :
    keepsOut z (execFltInject p s) := by
  unfold execFltInject
  dsimp only
  exact keepsNext (State.writeBy_keeps (by assumption) (fun _ _ => (State.send_keeps (by assumption))))

theorem execFltSevWrite_keeps {z : State} {p : Path} {v : Word} {s : State} (hs : s.keeps z) :
    keepsOut z (execFltSevWrite p v s) := by
  unfold execFltSevWrite
  dsimp only
  exact keepsNext (State.writeBy_keeps (by assumption) (fun _ _ => (keepsMk (by assumption))))

theorem execOwlFreeze_keeps {z : State} {s : State} (hs : s.keeps z) :
    keepsOut z (execOwlFreeze s) := by
  unfold execOwlFreeze
  dsimp only
  exact keepsNext (keepsIte (State.set_keeps (keepsMem (by assumption) rfl rfl rfl rfl rfl (Nat.le_refl _))) (by assumption))

theorem execOwlRelease_keeps {z : State} {p : Path} {s : State} (hs : s.keeps z) :
    keepsOut z (execOwlRelease p s) := by
  unfold execOwlRelease
  exact keepsNext (State.writeBy_keeps (by assumption) (fun _ _ => (State.set_keeps (by assumption))))

theorem State.flushAck_keeps {z : State} {s : State} (hs : s.keeps z) :
    (State.flushAck s).keeps z := by
  unfold State.flushAck
  exact keepsIte (by assumption) (State.eraseOwl_keeps (State.setReg_keeps (by assumption)))

theorem execOwlFlushAck_keeps {z : State} {p : Path} {s : State} (hs : s.keeps z) :
    keepsOut z (execOwlFlushAck p s) := by
  unfold execOwlFlushAck
  exact keepsNext (State.writeBy_keeps (by assumption) (fun _ _ => (State.flushAck_keeps (by assumption))))

theorem execOwlMark_keeps {z : State} {p : Path} {v : Word} {s : State} (hs : s.keeps z) :
    keepsOut z (execOwlMark p v s) := by
  unfold execOwlMark
  exact keepsNext (State.writeBy_keeps (by assumption) (fun _ _ => (State.capture_keeps (by assumption))))

/-! ### Flash -/

theorem State.flHostPush_keeps {z : State} {s : State} {p : Path} {d : FlDesc} (hs : s.keeps z) :
    (State.flHostPush s p d).keeps z := by
  unfold State.flHostPush
  dsimp only
  exact State.writeBy_keeps (by assumption) (fun _ _ => (State.flGo_keeps (keepsMem (by assumption) rfl rfl rfl rfl rfl (Nat.le_refl _))))

theorem State.flReading_keeps {z : State} {s : State} {by_ : Option Path} {op : Nat} {tag : BitVec 8} {addr : BitVec 24} {len : BitVec 25} (hs : s.keeps z) :
    (State.flReading s by_ op tag addr len).keeps z := by
  unfold State.flReading
  split
  exact State.flHostPush_keeps (by assumption)
  exact State.flPush_keeps (by assumption)

theorem execFlashRead_keeps {z : State} {by_ : Option Path} {tag : BitVec 8} {addr : BitVec 24} {len : BitVec 25} {s : State} (hs : s.keeps z) :
    keepsOut z (execFlashRead by_ tag addr len s) := by
  unfold execFlashRead
  exact keepsNext (State.flReading_keeps (by assumption))

theorem execFlashCheck_keeps {z : State} {by_ : Option Path} {tag : BitVec 8} {addr : BitVec 24} {len : BitVec 25} {s : State} (hs : s.keeps z) :
    keepsOut z (execFlashCheck by_ tag addr len s) := by
  unfold execFlashCheck
  exact keepsNext (State.flReading_keeps (by assumption))

theorem execFlashBlankCheck_keeps {z : State} {by_ : Option Path} {tag : BitVec 8} {addr : BitVec 24} {len : BitVec 25} {s : State} (hs : s.keeps z) :
    keepsOut z (execFlashBlankCheck by_ tag addr len s) := by
  unfold execFlashBlankCheck
  exact keepsNext (State.flReading_keeps (by assumption))

theorem execFlashProgram_keeps {z : State} {urgent : Bool} {addr : BitVec 24} {data : List Byte} {s : State} (hs : s.keeps z) :
    keepsOut z (execFlashProgram urgent addr data s) := by
  unfold execFlashProgram
  exact keepsNext (State.flPush_keeps (by assumption))

theorem execFlashErase_keeps {z : State} {addr : BitVec 24} {s : State} (hs : s.keeps z) :
    keepsOut z (execFlashErase addr s) := by
  unfold execFlashErase
  exact keepsNext (State.flPush_keeps (by assumption))

theorem execFlashOpDone_keeps {z : State} {reading : Bool} {ok : Bool} {upset : List (BitVec 24 × BitVec 137)} {s : State} (hs : s.keeps z) :
    keepsOut z (execFlashOpDone reading ok upset s) := by
  unfold execFlashOpDone
  apply keepsIteOut
  split
  exact keepsNext (State.flGo_keeps (State.readDone_keeps (State.upsetWords_keeps (by assumption))))
  exact keepsNext (by assumption)
  split
  exact keepsNext (State.flGo_keeps (State.modifyDone_keeps (by assumption)))
  exact keepsNext (by assumption)

theorem execFlCmplRead_keeps {z : State} {p : Path} {s : State} (hs : s.keeps z) :
    keepsOut z (execFlCmplRead p s) := by
  unfold execFlCmplRead
  dsimp only
  apply keepsNext
  apply State.readBy_keeps
  assumption
  intro _ _
  split
  dsimp only
  assumption
  dsimp only
  exact State.flStat_keeps (keepsMem (by assumption) rfl rfl rfl rfl rfl (Nat.le_refl _))

theorem execFlRefreshStart_keeps {z : State} {p : Path} {s : State} (hs : s.keeps z) :
    keepsOut z (execFlRefreshStart p s) := by
  unfold execFlRefreshStart
  dsimp only
  apply keepsNext
  apply State.writeBy_keeps
  assumption
  intro _ _
  apply keepsIte
  exact keepsMem (by assumption) rfl rfl rfl rfl rfl (Nat.le_refl _)
  apply keepsIte
  exact State.flGo_keeps (State.refreshNext_keeps (State.set_keeps (State.set_keeps (State.set_keeps (by assumption)))))
  exact State.flGo_keeps (State.set_keeps (keepsMem (State.set_keeps (State.set_keeps (State.set_keeps (State.set_keeps (by assumption))))) rfl rfl rfl rfl rfl (Nat.le_refl _)))

theorem execFlRefreshStop_keeps {z : State} {p : Path} {s : State} (hs : s.keeps z) :
    keepsOut z (execFlRefreshStop p s) := by
  unfold execFlRefreshStop
  dsimp only
  exact keepsNext (State.writeBy_keeps (by assumption) (fun _ _ => (keepsIte (keepsMem (by assumption) rfl rfl rfl rfl rfl (Nat.le_refl _)) (by assumption))))

theorem execFlashRefreshDue_keeps {z : State} {s : State} (hs : s.keeps z) :
    keepsOut z (execFlashRefreshDue s) := by
  unfold execFlashRefreshDue
  exact keepsIteOut (keepsNext (State.flFault_keeps (State.set_keeps (by assumption)))) (keepsNext (by assumption))

/-! ### Magazine -/

theorem execHomeAll_keeps {z : State} {p : Path} {s : State} (hs : s.keeps z) :
    keepsOut z (execHomeAll p s) := by
  unfold execHomeAll
  exact keepsNext (State.magCmd_keeps (by assumption))

theorem execMoveZx_keeps {z : State} {p : Path} {s : State} (hs : s.keeps z) :
    keepsOut z (execMoveZx p s) := by
  unfold execMoveZx
  exact keepsNext (State.magCmd_keeps (by assumption))

theorem execLoad_keeps {z : State} {p : Path} {st : Fin 2} {slot : BitVec 5} {s : State} (hs : s.keeps z) :
    keepsOut z (execLoad p st slot s) := by
  unfold execLoad
  exact keepsNext (State.magCmd_keeps (by assumption))

theorem execUnload_keeps {z : State} {p : Path} {st : Fin 2} {s : State} (hs : s.keeps z) :
    keepsOut z (execUnload p st s) := by
  unfold execUnload
  exact keepsNext (State.magCmd_keeps (by assumption))

theorem execExchange_keeps {z : State} {p : Path} {st : Fin 2} {slot : BitVec 5} {s : State} (hs : s.keeps z) :
    keepsOut z (execExchange p st slot s) := by
  unfold execExchange
  exact keepsNext (State.magCmd_keeps (by assumption))

theorem execRecover_keeps {z : State} {p : Path} {s : State} (hs : s.keeps z) :
    keepsOut z (execRecover p s) := by
  unfold execRecover
  exact keepsNext (State.magCmd_keeps (by assumption))

theorem execExchangeStepDone_keeps {z : State} {s : State} (hs : s.keeps z) :
    keepsOut z (execExchangeStepDone s) := by
  unfold execExchangeStepDone
  exact keepsNext (State.magStep_keeps (by assumption))

theorem execGripFail_keeps {z : State} {s : State} (hs : s.keeps z) :
    keepsOut z (execGripFail s) := by
  unfold execGripFail
  apply keepsIteOut
  exact keepsNext (by assumption)
  split
  exact keepsNext (State.gripFail_keeps (by assumption))
  exact keepsNext (State.probeOver_keeps (State.magArrive_keeps (by assumption)))
  exact keepsNext (by assumption)

theorem execPickerWdog_keeps {z : State} {s : State} (hs : s.keeps z) :
    keepsOut z (execPickerWdog s) := by
  unfold execPickerWdog
  split
  apply keepsIteOut
  exact keepsNext (by assumption)
  exact keepsNext (State.recover_keeps (State.magResult_keeps (State.exchStat_keeps (State.magHalt_keeps (State.magFault_keeps (by assumption))))))
  exact keepsNext (by assumption)

/-! ### Memory -/

theorem State.maintEnd_keeps {z : State} {s : State} {result : Nat} {lines : Nat} (hs : s.keeps z) :
    (State.maintEnd s result lines).keeps z := by
  unfold State.maintEnd
  exact State.set_keeps (State.set_keeps (State.set_keeps (by assumption)))

theorem State.maintOrder_keeps {z : State} {s : State} {p : Path} {op : Nat} (hs : s.keeps z) :
    (State.maintOrder s p op).keeps z := by
  unfold State.maintOrder
  dsimp only
  apply State.writeBy_keeps
  assumption
  intro _ _
  apply keepsIte
  exact State.maintEnd_keeps (State.set_keeps (State.set_keeps (State.set_keeps (by assumption))))
  apply keepsIte
  exact keepsMk (State.incWrap_keeps (State.set_keeps (State.set_keeps (State.set_keeps (by assumption)))))
  exact State.set_keeps (State.set_keeps (State.set_keeps (by assumption)))

theorem execInvLine_keeps {z : State} {p : Path} {s : State} (hs : s.keeps z) :
    keepsOut z (execInvLine p s) := by
  unfold execInvLine
  exact keepsNext (State.maintOrder_keeps (by assumption))

theorem execInvRange_keeps {z : State} {p : Path} {s : State} (hs : s.keeps z) :
    keepsOut z (execInvRange p s) := by
  unfold execInvRange
  exact keepsNext (State.maintOrder_keeps (by assumption))

theorem execInvAll_keeps {z : State} {p : Path} {s : State} (hs : s.keeps z) :
    keepsOut z (execInvAll p s) := by
  unfold execInvAll
  exact keepsNext (State.maintOrder_keeps (by assumption))

theorem execLock_keeps {z : State} {p : Path} {s : State} (hs : s.keeps z) :
    keepsOut z (execLock p s) := by
  unfold execLock
  exact keepsNext (State.maintOrder_keeps (by assumption))

theorem execUnlock_keeps {z : State} {p : Path} {s : State} (hs : s.keeps z) :
    keepsOut z (execUnlock p s) := by
  unfold execUnlock
  exact keepsNext (State.maintOrder_keeps (by assumption))

theorem execUnlockAll_keeps {z : State} {p : Path} {s : State} (hs : s.keeps z) :
    keepsOut z (execUnlockAll p s) := by
  unfold execUnlockAll
  exact keepsNext (State.maintOrder_keeps (by assumption))

theorem execCchMaintDone_keeps {z : State} {s : State} (hs : s.keeps z) :
    keepsOut z (execCchMaintDone s) := by
  unfold execCchMaintDone
  dsimp only
  apply keepsIteOut
  exact keepsNext (by assumption)
  apply keepsIteOut
  exact keepsNext (State.replay_keeps (keepsMk (State.when_keeps (State.maintEnd_keeps (State.invalidate_keeps (by assumption))) (fun _ _ => (State.addSat_keeps (by assumption))))))
  apply keepsIteOut
  apply keepsIteOut
  exact keepsNext (State.maintEnd_keeps (by assumption))
  apply keepsIteOut
  exact keepsNext (State.maintEnd_keeps (by assumption))
  exact keepsIteOut (keepsNext (State.maintEnd_keeps (State.lockWay_keeps (by assumption)))) (keepsNext (State.maintEnd_keeps (State.lockLine_keeps (by assumption))))
  apply keepsIteOut
  split
  exact keepsIteOut (keepsNext (State.maintEnd_keeps (State.unlockWays_keeps (by assumption)))) (keepsNext (State.maintEnd_keeps (by assumption)))
  exact keepsNext (State.maintEnd_keeps (by assumption))
  exact keepsNext (State.maintEnd_keeps (State.unlockWays_keeps (by assumption)))

theorem execCacheRead_keeps {z : State} {addr : BitVec 34} {s : State} (hs : s.keeps z) :
    keepsOut z (execCacheRead addr s) := by
  unfold execCacheRead
  dsimp only
  exact keepsIteOut (keepsNext (State.access_keeps (by assumption))) (keepsIteOut (keepsNext (by assumption)) (keepsNext (keepsMk (State.fetchLine_keeps (by assumption)))))

theorem execCacheWrite_keeps {z : State} {addr : BitVec 34} {bytes : List Byte} {s : State} (hs : s.keeps z) :
    keepsOut z (execCacheWrite addr bytes s) := by
  unfold execCacheWrite
  dsimp only
  exact keepsIteOut (keepsNext (State.access_keeps (by assumption))) (keepsIteOut (keepsNext (by assumption)) (keepsNext (State.writeDram_keeps (by assumption))))

theorem execCacheFillDone_keeps {z : State} {s : State} (hs : s.keeps z) :
    keepsOut z (execCacheFillDone s) := by
  unfold execCacheFillDone
  dsimp only
  split
  exact keepsNext (by assumption)
  apply keepsNext
  apply State.replay_keeps
  split
  exact keepsIte (keepsMk (State.fetchLine_keeps (by assumption))) (State.allocate_keeps (keepsMk (State.fetchLine_keeps (by assumption))))
  exact keepsMk (State.fetchLine_keeps (by assumption))

theorem execDramRead_keeps {z : State} {addr : BitVec 34} {upset : BitVec 272} {s : State} (hs : s.keeps z) :
    keepsOut z (execDramRead addr upset s) := by
  unfold execDramRead
  dsimp only
  exact keepsIteOut (keepsNext (by assumption)) (keepsNext (keepsMem (State.readGran_keeps (State.upsetGran_keeps (by assumption))) rfl rfl rfl rfl rfl (Nat.le_refl _)))

theorem execDramPartialWrite_keeps {z : State} {addr : BitVec 34} {bytes : List Byte} {upset : BitVec 272} {s : State} (hs : s.keeps z) :
    keepsOut z (execDramPartialWrite addr bytes upset s) := by
  unfold execDramPartialWrite
  dsimp only
  exact keepsIteOut (keepsNext (by assumption)) (keepsNext (keepsMem (State.writeGran_keeps (State.upsetGran_keeps (by assumption))) rfl rfl rfl rfl rfl (Nat.le_refl _)))

theorem execSramRead_keeps {z : State} {i : Fin 9} {offset : BitVec 24} {upset : BitVec 13} {s : State} (hs : s.keeps z) :
    keepsOut z (execSramRead i offset upset s) := by
  unfold execSramRead
  dsimp only
  exact keepsIteOut (keepsNext (by assumption)) (keepsNext (State.readSram_keeps (keepsIte (by assumption) (State.setSram_keeps (by assumption)))))

theorem State.setChkData_keeps {z : State} {s : State} {n : Nat} {v : Nat} (hs : s.keeps z) :
    (State.setChkData s n v).keeps z := by
  unfold State.setChkData
  apply keepsFold
  exact fun _ _ _ => (State.setReg_keeps (by assumption))
  assumption

theorem State.setRowByte_keeps {z : State} {s : State} {target : Nat} {b : Nat} {v : Nat} (hs : s.keeps z) :
    (State.setRowByte s target b v).keeps z := by
  obtain ⟨h1, h2, h3, h4, h5, h6⟩ := hs
  exact ⟨h1, h2, h3, h4, swf_sput _ _ _ h5, h6⟩

theorem execWriteRaw_keeps {z : State} {p : Path} {target : BitVec 4} {s : State} (hs : s.keeps z) :
    keepsOut z (execWriteRaw p target s) := by
  unfold execWriteRaw
  dsimp only
  apply keepsNext
  apply State.writeBy_keeps
  assumption
  intro _ _
  apply keepsIte
  exact State.putGran_keeps (State.set_keeps (by assumption))
  apply keepsFold
  exact fun _ _ _ => (State.setRowByte_keeps (by assumption))
  exact State.set_keeps (by assumption)

theorem execReadRaw_keeps {z : State} {p : Path} {target : BitVec 4} {s : State} (hs : s.keeps z) :
    keepsOut z (execReadRaw p target s) := by
  unfold execReadRaw
  dsimp only
  apply keepsNext
  apply State.writeBy_keeps
  assumption
  exact fun _ _ => (keepsIte (State.setChkData_keeps (State.set_keeps (State.set_keeps (by assumption)))) (State.setChkData_keeps (State.set_keeps (State.set_keeps (by assumption)))))

theorem State.chkResult_keeps {z : State} {s : State} {kind : Nat} {synd : Nat} {asynd : Nat} {par : Bool} {bit : Nat} (hs : s.keeps z) :
    (State.chkResult s kind synd asynd par bit).keeps z := by
  unfold State.chkResult
  exact State.set_keeps (State.setFlag_keeps (State.set_keeps (State.set_keeps (State.set_keeps (by assumption)))))

theorem execReadCorr_keeps {z : State} {p : Path} {target : BitVec 4} {s : State} (hs : s.keeps z) :
    keepsOut z (execReadCorr p target s) := by
  unfold execReadCorr
  dsimp only
  apply keepsNext
  apply State.writeBy_keeps
  assumption
  intro _ _
  apply keepsIte
  exact State.chkResult_keeps (State.setChkData_keeps (State.set_keeps (State.set_keeps (by assumption))))
  split
  exact State.chkResult_keeps (State.setChkData_keeps (State.set_keeps (State.set_keeps (by assumption))))
  exact State.chkResult_keeps (State.setChkData_keeps (State.set_keeps (State.set_keeps (by assumption))))

/-! ### Modes -/

theorem execModeReqProvision_keeps {z : State} {p : Path} {s : State} (hs : s.keeps z) :
    keepsOut z (execModeReqProvision p s) := by
  unfold execModeReqProvision
  exact keepsNext (State.writeBy_keeps (by assumption) (fun _ _ => (State.modeRequest_keeps (by assumption))))

theorem execModeReqServe_keeps {z : State} {p : Path} {s : State} (hs : s.keeps z) :
    keepsOut z (execModeReqServe p s) := by
  unfold execModeReqServe
  exact keepsNext (State.writeBy_keeps (by assumption) (fun _ _ => (State.modeRequest_keeps (by assumption))))

theorem execModeReqDrain_keeps {z : State} {p : Path} {s : State} (hs : s.keeps z) :
    keepsOut z (execModeReqDrain p s) := by
  unfold execModeReqDrain
  exact keepsNext (State.writeBy_keeps (by assumption) (fun _ _ => (State.modeRequest_keeps (by assumption))))

theorem execModeReqMaintain_keeps {z : State} {p : Path} {s : State} (hs : s.keeps z) :
    keepsOut z (execModeReqMaintain p s) := by
  unfold execModeReqMaintain
  exact keepsNext (State.writeBy_keeps (by assumption) (fun _ _ => (State.modeRequest_keeps (by assumption))))

theorem execModeReqOther_keeps {z : State} {p : Path} {target : BitVec 4} {s : State} (hs : s.keeps z) :
    keepsOut z (execModeReqOther p target s) := by
  unfold execModeReqOther
  exact keepsNext (State.writeBy_keeps (by assumption) (fun _ _ => (State.modeRequest_keeps (by assumption))))

theorem execModeRequestDecide_keeps {z : State} {s : State} (hs : s.keeps z) :
    keepsOut z (execModeRequestDecide s) := by
  unfold execModeRequestDecide
  exact keepsNext (keepsIte (by assumption) (State.decideRequest_keeps (by assumption)))

theorem execDrainComplete_keeps {z : State} {s : State} (hs : s.keeps z) :
    keepsOut z (execDrainComplete s) := by
  unfold execDrainComplete
  exact keepsNext (keepsIte (by assumption) (State.drainComplete_keeps (by assumption)))

theorem execActivationInstant_keeps {z : State} {s : State} (hs : s.keeps z) :
    keepsOut z (execActivationInstant s) := by
  unfold execActivationInstant
  exact keepsNext (keepsIte (by assumption) (State.activate_keeps (by assumption)))

theorem execActDrainTmo_keeps {z : State} {s : State} (hs : s.keeps z) :
    keepsOut z (execActDrainTmo s) := by
  unfold execActDrainTmo
  exact keepsNext (keepsIte (by assumption) (State.actTimeout_keeps (by assumption)))

theorem execRecoveringEnd_keeps {z : State} {s : State} (hs : s.keeps z) :
    keepsOut z (execRecoveringEnd s) := by
  unfold execRecoveringEnd
  exact keepsNext (State.recoverEnd_keeps (by assumption))

theorem execSafeStopBridgesOff_keeps {z : State} {s : State} (hs : s.keeps z) :
    keepsOut z (execSafeStopBridgesOff s) := by
  unfold execSafeStopBridgesOff
  exact keepsNext (State.bridgesEnd_keeps (by assumption))

theorem State.linkLost_keeps {z : State} {s : State} {side : Nat} (hs : s.keeps z) :
    (State.linkLost s side).keeps z := by
  unfold State.linkLost
  apply keepsIte
  apply State.orderSafeStop_keeps
  apply State.raise_keeps
  apply State.set_keeps
  apply keepsFold
  exact fun _ _ _ => (State.inhibit_keeps (by assumption))
  assumption
  assumption

theorem execD2dFlitCrcFail_keeps {z : State} {side : Fin 2} {failed : Fin 5} {s : State} (hs : s.keeps z) :
    keepsOut z (execD2dFlitCrcFail side failed s) := by
  unfold execD2dFlitCrcFail
  dsimp only
  exact keepsNext (keepsIte (State.linkLost_keeps (State.addSat_keeps (State.addSat_keeps (by assumption)))) (State.addSat_keeps (State.addSat_keeps (by assumption))))

theorem execD2dLinkLoss_keeps {z : State} {side : Fin 2} {s : State} (hs : s.keeps z) :
    keepsOut z (execD2dLinkLoss side s) := by
  unfold execD2dLinkLoss
  exact keepsNext (State.linkLost_keeps (by assumption))

/-! ### Net -/

theorem execPortLinkUp_keeps {z : State} {port : Fin 2} {s : State} (hs : s.keeps z) :
    keepsOut z (execPortLinkUp port s) := by
  unfold execPortLinkUp
  exact keepsIteOut (keepsNext (State.portComes_keeps (by assumption))) (keepsNext (by assumption))

theorem execPortLinkDown_keeps {z : State} {port : Fin 2} {s : State} (hs : s.keeps z) :
    keepsOut z (execPortLinkDown port s) := by
  unfold execPortLinkDown
  exact keepsNext (keepsIte (State.portDown_keeps (by assumption)) (by assumption))

theorem execLinkHiSer_keeps {z : State} {port : Fin 2} {s : State} (hs : s.keeps z) :
    keepsOut z (execLinkHiSer port s) := by
  unfold execLinkHiSer
  exact keepsNext (keepsIte (State.portDown_keeps (State.raise_keeps (State.set_keeps (by assumption)))) (by assumption))

theorem State.portEnable_keeps {z : State} {s : State} {port : Nat} {en : Bool} (hs : s.keeps z) :
    (State.portEnable s port en).keeps z := by
  unfold State.portEnable
  exact keepsIte (by assumption) (State.portDown_keeps (State.setFlag_keeps (by assumption)))

theorem execPortEnable_keeps {z : State} {p : Path} {port : Fin 2} {en : Bool} {s : State} (hs : s.keeps z) :
    keepsOut z (execPortEnable p port en s) := by
  unfold execPortEnable
  exact keepsNext (State.writeBy_keeps (by assumption) (fun _ _ => (State.portEnable_keeps (by assumption))))

theorem execAutoNegotiationDone_keeps {z : State} {port : Fin 2} {ok : Bool} {s : State} (hs : s.keeps z) :
    keepsOut z (execAutoNegotiationDone port ok s) := by
  unfold execAutoNegotiationDone
  exact keepsIteOut (keepsNext (keepsIte (State.set_keeps (State.set_keeps (by assumption))) (State.set_keeps (by assumption)))) (keepsNext (by assumption))

theorem execLinkTrainingDone_keeps {z : State} {port : Fin 2} {s : State} (hs : s.keeps z) :
    keepsOut z (execLinkTrainingDone port s) := by
  unfold execLinkTrainingDone
  exact keepsNext (keepsIte (State.set_keeps (by assumption)) (by assumption))

theorem State.learnFrom_keeps {z : State} {s : State} {p : Nat} {m : BitVec 48} (hs : s.keeps z) :
    (State.learnFrom s p m).keeps z := by
  unfold State.learnFrom
  dsimp only
  exact State.set_keeps (keepsIte (State.modNet_keeps (by assumption)) (by assumption))

theorem State.notify_keeps {z : State} {s : State} {sid : BitVec 14} (hs : s.keeps z) :
    (State.notify s sid).keeps z := by
  unfold State.notify
  dsimp only
  split
  assumption
  exact keepsIte (State.modConn_keeps (State.sendSess_keeps (by assumption))) (by assumption)

theorem State.deliver_keeps {z : State} {s : State} {p : Nat} {f : Frame} (hs : s.keeps z) :
    (State.deliver s p f).keeps z := by
  unfold State.deliver
  dsimp only
  split
  apply keepsIte
  exact State.sendTo_keeps (State.learnFrom_keeps (by assumption))
  split
  exact keepsIte (State.sendTo_keeps (State.learnFrom_keeps (by assumption))) (State.learnFrom_keeps (by assumption))
  exact State.learnFrom_keeps (by assumption)
  exact State.noteNeighbour_keeps (State.learnFrom_keeps (by assumption))
  exact keepsIte (State.notify_keeps (State.learnFrom_keeps (by assumption))) (State.learnFrom_keeps (by assumption))
  exact keepsIte (State.sendSess_keeps (State.learnFrom_keeps (by assumption))) (State.learnFrom_keeps (by assumption))
  exact State.learnFrom_keeps (by assumption)

theorem State.forward_keeps {z : State} {s : State} {in_ : Nat} {out : Nat} {f : Frame} (hs : s.keeps z) :
    (State.forward s in_ out f).keeps z := by
  unfold State.forward
  dsimp only
  apply keepsIte
  exact State.addSat_keeps (by assumption)
  apply keepsIte
  exact State.addSat_keeps (by assumption)
  apply State.emit_keeps
  split
  split
  dsimp only
  apply keepsIte
  exact State.addSat_keeps (State.when_keeps (by assumption) (fun _ _ => (State.modNet_keeps (by assumption))))
  exact State.when_keeps (by assumption) (fun _ _ => (State.modNet_keeps (by assumption)))
  split
  dsimp only
  apply State.addSat_keeps
  apply keepsIte
  exact State.addSat_keeps (State.when_keeps (by assumption) (fun _ _ => (State.modNet_keeps (by assumption))))
  exact State.when_keeps (by assumption) (fun _ _ => (State.modNet_keeps (by assumption)))
  dsimp only
  apply keepsIte
  exact State.addSat_keeps (State.when_keeps (by assumption) (fun _ _ => (State.modNet_keeps (by assumption))))
  exact State.when_keeps (by assumption) (fun _ _ => (State.modNet_keeps (by assumption)))
  dsimp only
  apply keepsIte
  exact State.addSat_keeps (State.when_keeps (by assumption) (fun _ _ => (State.modNet_keeps (by assumption))))
  exact State.when_keeps (by assumption) (fun _ _ => (State.modNet_keeps (by assumption)))

theorem State.pfcSend_keeps {z : State} {s : State} {p : Nat} {occ : Nat} (hs : s.keeps z) :
    (State.pfcSend s p occ).keeps z := by
  unfold State.pfcSend
  dsimp only
  exact keepsIte (by assumption) (keepsIte (State.modNet_keeps (State.emit_keeps (by assumption))) (keepsIte (State.modNet_keeps (State.emit_keeps (by assumption))) (by assumption)))

theorem State.frameRx_keeps {z : State} {s : State} {p : Nat} {f : Frame} (hs : s.keeps z) :
    (State.frameRx s p f).keeps z := by
  unfold State.frameRx
  dsimp only
  apply keepsIte
  assumption
  apply keepsIte
  exact keepsIte (State.addSat_keeps (by assumption)) (State.raise_keeps (State.modNet_keeps (State.addSat_keeps (by assumption))))
  apply keepsIte
  exact keepsIte (State.addSat_keeps (by assumption)) (by assumption)
  apply State.pfcSend_keeps
  exact keepsIte (keepsIte (State.deliver_keeps (by assumption)) (by assumption)) (State.forward_keeps (keepsIte (State.deliver_keeps (by assumption)) (by assumption)))

theorem execHostFrameRx_keeps {z : State} {port : Fin 2} {f : Frame} {s : State} (hs : s.keeps z) :
    keepsOut z (execHostFrameRx port f s) := by
  unfold execHostFrameRx
  exact keepsNext (State.frameRx_keeps (by assumption))

theorem execPfcFrameRx_keeps {z : State} {port : Fin 2} {prio : BitVec 3} {quanta : BitVec 16} {s : State} (hs : s.keeps z) :
    keepsOut z (execPfcFrameRx port prio quanta s) := by
  unfold execPfcFrameRx
  dsimp only
  exact keepsIteOut (keepsIteOut (keepsNext (State.set_keeps (by assumption))) (keepsNext (State.modNet_keeps (State.set_keeps (by assumption))))) (keepsNext (by assumption))

theorem execLearnAgeOut_keeps {z : State} {mac : BitVec 48} {s : State} (hs : s.keeps z) :
    keepsOut z (execLearnAgeOut mac s) := by
  unfold execLearnAgeOut
  dsimp only
  exact keepsNext (State.set_keeps (State.modNet_keeps (by assumption)))

theorem execNeighbourAgeOut_keeps {z : State} {addr : BitVec 128} {s : State} (hs : s.keeps z) :
    keepsOut z (execNeighbourAgeOut addr s) := by
  unfold execNeighbourAgeOut
  exact keepsNext (State.modNet_keeps (by assumption))

theorem execAnnounceTimer_keeps {z : State} {s : State} (hs : s.keeps z) :
    keepsOut z (execAnnounceTimer s) := by
  unfold execAnnounceTimer
  dsimp only
  exact keepsIteOut (keepsNext (State.modNet_keeps (State.announce_keeps (by assumption)))) (keepsNext (by assumption))

theorem State.ptpMessage_keeps {z : State} {s : State} {p : Nat} {m : PtpMsg} (hs : s.keeps z) :
    (State.ptpMessage s p m).keeps z := by
  unfold State.ptpMessage
  dsimp only
  apply keepsIte
  assumption
  split
  exact keepsIte (by assumption) (State.chooseMaster_keeps (State.modNet_keeps (by assumption)))
  apply keepsIte
  assumption
  apply keepsIte
  exact State.ptpValidity_keeps (State.modNet_keeps (State.setReg_keeps (by assumption)))
  exact keepsIte (State.ptpValidity_keeps (State.modNet_keeps (State.setReg_keeps (by assumption)))) (State.modNet_keeps (State.setReg_keeps (by assumption)))
  exact keepsIte (keepsIte (State.modNet_keeps (by assumption)) (State.emit_keeps (State.modNet_keeps (by assumption)))) (by assumption)

theorem execPtpMessageRx_keeps {z : State} {port : Fin 2} {m : PtpMsg} {s : State} (hs : s.keeps z) :
    keepsOut z (execPtpMessageRx port m s) := by
  unfold execPtpMessageRx
  exact keepsNext (State.ptpMessage_keeps (by assumption))

theorem execPtpAnnounceTimeout_keeps {z : State} {port : Fin 2} {s : State} (hs : s.keeps z) :
    keepsOut z (execPtpAnnounceTimeout port s) := by
  unfold execPtpAnnounceTimeout
  exact keepsNext (State.loseMasters_keeps (by assumption))

theorem execRoceSend_keeps {z : State} {sid : BitVec 14} {len : BitVec 16} {items : List (BitVec 8 × Entry)} {s : State} (hs : s.keeps z) :
    keepsOut z (execRoceSend sid len items s) := by
  unfold execRoceSend
  dsimp only
  apply keepsIteOut
  exact keepsNext (by assumption)
  apply keepsIteOut
  exact keepsNext (State.sendSess_keeps (by assumption))
  apply keepsNext
  apply State.badHeads_keeps
  apply keepsFold
  exact fun _ _ _ => (State.arrive_keeps (by assumption))
  assumption

theorem State.retry_keeps {z : State} {s : State} {sid : BitVec 14} (hs : s.keeps z) :
    (State.retry s sid).keeps z := by
  unfold State.retry
  split
  assumption
  exact keepsIte (by assumption) (keepsIte (State.sendSess_keeps (State.modConn_keeps (by assumption))) (State.transportFail_keeps (by assumption)))

theorem execRoceAckRx_keeps {z : State} {sid : BitVec 14} {k : AckKind} {s : State} (hs : s.keeps z) :
    keepsOut z (execRoceAckRx sid k s) := by
  unfold execRoceAckRx
  split
  exact keepsNext (State.modConn_keeps (by assumption))
  exact keepsNext (State.retry_keeps (by assumption))
  split
  apply keepsIteOut
  exact keepsNext (by assumption)
  exact keepsIteOut (keepsNext (State.sendSess_keeps (State.modConn_keeps (by assumption)))) (keepsNext (State.transportFail_keeps (by assumption)))
  exact keepsNext (by assumption)
  exact keepsNext (State.hostAccess_keeps (by assumption))

theorem execRdmaReadResponse_keeps {z : State} {sid : BitVec 14} {cid : BitVec 16} {data : List Byte} {ok : Bool} {s : State} (hs : s.keeps z) :
    keepsOut z (execRdmaReadResponse sid cid data ok s) := by
  unfold execRdmaReadResponse
  apply keepsIteOut
  exact keepsNext (State.hostAccess_keeps (by assumption))
  split
  exact keepsNext (by assumption)
  exact keepsNext (State.settle_keeps (State.modPlc_keeps (by assumption)))

theorem execRoceRetryExhausted_keeps {z : State} {sid : BitVec 14} {s : State} (hs : s.keeps z) :
    keepsOut z (execRoceRetryExhausted sid s) := by
  unfold execRoceRetryExhausted
  exact keepsNext (State.transportFail_keeps (by assumption))

theorem execAckTimeoutRetry_keeps {z : State} {sid : BitVec 14} {s : State} (hs : s.keeps z) :
    keepsOut z (execAckTimeoutRetry sid s) := by
  unfold execAckTimeoutRetry
  exact keepsNext (State.retry_keeps (by assumption))

theorem execCnpRx_keeps {z : State} {sid : BitVec 14} {s : State} (hs : s.keeps z) :
    keepsOut z (execCnpRx sid s) := by
  unfold execCnpRx
  dsimp only
  exact keepsNext (State.modConn_keeps (by assumption))

theorem execDcqcnAlphaTimer_keeps {z : State} {sid : BitVec 14} {s : State} (hs : s.keeps z) :
    keepsOut z (execDcqcnAlphaTimer sid s) := by
  unfold execDcqcnAlphaTimer
  exact keepsNext (State.modConn_keeps (by assumption))

theorem execDcqcnRateTimer_keeps {z : State} {sid : BitVec 14} {mib10 : BitVec 8} {s : State} (hs : s.keeps z) :
    keepsOut z (execDcqcnRateTimer sid mib10 s) := by
  unfold execDcqcnRateTimer
  exact keepsNext (State.modConn_keeps (by assumption))

theorem execCmReq_keeps {z : State} {r : ConnReq} {s : State} (hs : s.keeps z) :
    keepsOut z (execCmReq r s) := by
  unfold execCmReq
  dsimp only
  apply keepsIteOut
  exact keepsNext (by assumption)
  split
  exact keepsNext (State.sendTo_keeps (State.addSat_keeps (by assumption)))
  exact keepsNext (State.sendTo_keeps (State.addSat_keeps (by assumption)))
  exact keepsNext (State.sendTo_keeps (State.modNet_keeps (State.noteNeighbour_keeps (by assumption))))

theorem execCmRtu_keeps {z : State} {sid : BitVec 14} {s : State} (hs : s.keeps z) :
    keepsOut z (execCmRtu sid s) := by
  unfold execCmRtu
  dsimp only
  split
  exact keepsNext (by assumption)
  apply keepsIteOut
  exact keepsNext (by assumption)
  apply keepsNext
  apply keepsIte
  apply State.countLocks_keeps
  apply keepsFold
  exact fun _ _ _ => (State.lockLine_keeps (by assumption))
  exact State.netSess_keeps (State.modConn_keeps (keepsMk (by assumption)))
  exact State.netSess_keeps (State.modConn_keeps (keepsMk (by assumption)))

theorem execCmDreq_keeps {z : State} {sid : BitVec 14} {s : State} (hs : s.keeps z) :
    keepsOut z (execCmDreq sid s) := by
  unfold execCmDreq
  dsimp only
  split
  exact keepsNext (by assumption)
  exact keepsNext (State.sendIp_keeps (keepsIte (State.closeSession_keeps (by assumption)) (State.modNet_keeps (by assumption))))

theorem execCmDrep_keeps {z : State} {sid : BitVec 14} {s : State} (hs : s.keeps z) :
    keepsOut z (execCmDrep sid s) := by
  unfold execCmDrep
  exact keepsNext (State.modNet_keeps (by assumption))

theorem execSvcPlca_keeps {z : State} {clash : Bool} {s : State} (hs : s.keeps z) :
    keepsOut z (execSvcPlca clash s) := by
  unfold execSvcPlca
  exact keepsNext (keepsIte (State.raise_keeps (by assumption)) (by assumption))

theorem execServicePhyLinkChange_keeps {z : State} {up : Bool} {s : State} (hs : s.keeps z) :
    keepsOut z (execServicePhyLinkChange up s) := by
  unfold execServicePhyLinkChange
  exact keepsNext (State.setFlag_keeps (State.setFlag_keeps (by assumption)))

theorem execMetaMessage_keeps {z : State} {s : State} (hs : s.keeps z) :
    keepsOut z (execMetaMessage s) := by
  unfold execMetaMessage
  exact keepsNext (State.rxMessage_keeps (by assumption))

/-! ### Opu -/

theorem State.opuCmd_keeps {z : State} {s : State} {p : Path} {n : Nat} {op : Nat} {layer : Nat} {turn : Nat} (hs : s.keeps z) :
    (State.opuCmd s p n op layer turn).keeps z := by
  unfold State.opuCmd
  exact State.writeBy_keeps (by assumption) (fun _ _ => (State.puCommand_keeps (by assumption)))

theorem execAcquire_keeps {z : State} {p : Path} {n : Fin 4} {layer : BitVec 5} {turn : BitVec 18} {s : State} (hs : s.keeps z) :
    keepsOut z (execAcquire p n layer turn s) := by
  unfold execAcquire
  exact keepsNext (State.opuCmd_keeps (by assumption))

theorem execLayerJump_keeps {z : State} {p : Path} {n : Fin 4} {layer : BitVec 5} {s : State} (hs : s.keeps z) :
    keepsOut z (execLayerJump p n layer s) := by
  unfold execLayerJump
  exact keepsNext (State.opuCmd_keeps (by assumption))

theorem execSeek_keeps {z : State} {p : Path} {n : Fin 4} {turn : BitVec 18} {s : State} (hs : s.keeps z) :
    keepsOut z (execSeek p n turn s) := by
  unfold execSeek
  exact keepsNext (State.opuCmd_keeps (by assumption))

theorem execOpuPark_keeps {z : State} {p : Path} {n : Fin 4} {s : State} (hs : s.keeps z) :
    keepsOut z (execOpuPark p n s) := by
  unfold execOpuPark
  exact keepsNext (State.opuCmd_keeps (by assumption))

theorem execReadMode_keeps {z : State} {p : Path} {n : Fin 4} {s : State} (hs : s.keeps z) :
    keepsOut z (execReadMode p n s) := by
  unfold execReadMode
  exact keepsNext (State.opuCmd_keeps (by assumption))

theorem execWriteMode_keeps {z : State} {p : Path} {n : Fin 4} {s : State} (hs : s.keeps z) :
    keepsOut z (execWriteMode p n s) := by
  unfold execWriteMode
  exact keepsNext (State.opuCmd_keeps (by assumption))

theorem execOpuEnable_keeps {z : State} {p : Path} {n : Fin 4} {en : Bool} {s : State} (hs : s.keeps z) :
    keepsOut z (execOpuEnable p n en s) := by
  unfold execOpuEnable
  exact keepsNext (State.writeBy_keeps (by assumption) (fun _ _ => (State.when_keeps (State.setFlag_keeps (by assumption)) (fun _ _ => (State.puTurnOff_keeps (by assumption))))))

theorem execWiForce_keeps {z : State} {p : Path} {n : Fin 4} {s : State} (hs : s.keeps z) :
    keepsOut z (execWiForce p n s) := by
  unfold execWiForce
  exact keepsNext (State.writeBy_keeps (by assumption) (fun _ _ => (State.inhibit_keeps (by assumption))))

theorem execFocusCapture_keeps {z : State} {n : Fin 4} {s : State} (hs : s.keeps z) :
    keepsOut z (execFocusCapture n s) := by
  unfold execFocusCapture
  dsimp only
  exact keepsIteOut (keepsNext (State.modPu_keeps (State.enableOut_keeps (keepsIte (by assumption) (State.setCur_keeps (by assumption)))))) (keepsNext (by assumption))

theorem State.ramp0_keeps {z : State} {s : State} {n : Nat} (hs : s.keeps z) :
    (State.ramp0 s n).keeps z := by
  unfold State.ramp0
  exact State.modPu_keeps (State.clearOut_keeps (by assumption))

theorem State.reacqFails_keeps {z : State} {s : State} {n : Nat} (hs : s.keeps z) :
    (State.reacqFails s n).keeps z := by
  unfold State.reacqFails
  dsimp only
  apply keepsIte
  exact keepsIte (State.ramp0_keeps (State.modPu_keeps (by assumption))) (State.puFail_keeps (State.puFault_keeps (by assumption)))
  apply keepsIte
  exact State.ramp0_keeps (State.modPu_keeps (by assumption))
  exact State.ramp0_keeps (State.modPu_keeps (State.enableOut_keeps (State.setSa_keeps (State.set_keeps (by assumption)))))

theorem execFocusSweepEnd_keeps {z : State} {n : Fin 4} {s : State} (hs : s.keeps z) :
    keepsOut z (execFocusSweepEnd n s) := by
  unfold execFocusSweepEnd
  apply keepsIteOut
  exact keepsNext (by assumption)
  apply keepsIteOut
  exact keepsIteOut (keepsNext (State.ramp0_keeps (State.modPu_keeps (by assumption)))) (keepsNext (State.puFail_keeps (State.puFault_keeps (by assumption))))
  exact keepsIteOut (keepsNext (State.reacqFails_keeps (by assumption))) (keepsNext (by assumption))

theorem execSaSettleDone_keeps {z : State} {n : Fin 4} {s : State} (hs : s.keeps z) :
    keepsOut z (execSaSettleDone n s) := by
  unfold execSaSettleDone
  split
  exact keepsIteOut (keepsNext (State.set_keeps (by assumption))) (keepsNext (by assumption))
  exact keepsNext (by assumption)

theorem execLjCapture_keeps {z : State} {n : Fin 4} {s : State} (hs : s.keeps z) :
    keepsOut z (execLjCapture n s) := by
  unfold execLjCapture
  exact keepsIteOut (keepsNext (State.modPu_keeps (State.withOut_keeps (State.setCur_keeps (by assumption))))) (keepsNext (by assumption))

theorem State.jumpDone_keeps {z : State} {s : State} {n : Nat} (hs : s.keeps z) :
    (State.jumpDone s n).keeps z := by
  unfold State.jumpDone
  dsimp only
  apply State.lasers_keeps
  apply State.endOp_keeps
  exact State.when_keeps (State.set_keeps (State.set_keeps (State.set_keeps (State.jumpStat_keeps (by assumption))))) (fun _ _ => (State.enableOut_keeps (by assumption)))

theorem execLayerJumpDone_keeps {z : State} {n : Fin 4} {s : State} (hs : s.keeps z) :
    keepsOut z (execLayerJumpDone n s) := by
  unfold execLayerJumpDone
  dsimp only
  exact keepsNext (keepsIte (State.seekEnd_keeps (by assumption) (fun _ _ => (State.jumpDone_keeps (by assumption)))) (by assumption))

theorem execLjTimeout_keeps {z : State} {n : Fin 4} {s : State} (hs : s.keeps z) :
    keepsOut z (execLjTimeout n s) := by
  unfold execLjTimeout
  dsimp only
  apply keepsIteOut
  apply keepsIteOut
  exact keepsNext (State.modPu_keeps (State.jumpAttempt_keeps (State.puFault_keeps (by assumption))))
  exact keepsNext (State.enterReacq_keeps (State.jumpStat_keeps (State.puFault_keeps (by assumption))))
  exact keepsNext (by assumption)

theorem State.seekDone_keeps {z : State} {s : State} {n : Nat} (hs : s.keeps z) :
    (State.seekDone s n).keeps z := by
  unfold State.seekDone
  dsimp only
  split
  exact State.startJump_keeps (State.releaseSlots_keeps (State.enableOut_keeps (State.set_keeps (State.set_keeps (by assumption)))))
  exact State.lasers_keeps (State.endOp_keeps (State.enableOut_keeps (State.set_keeps (State.set_keeps (by assumption)))))

theorem execSeekComplete_keeps {z : State} {n : Fin 4} {s : State} (hs : s.keeps z) :
    keepsOut z (execSeekComplete n s) := by
  unfold execSeekComplete
  exact keepsNext (keepsIte (State.seekEnd_keeps (by assumption) (fun _ _ => (State.seekDone_keeps (by assumption)))) (by assumption))

theorem State.wrongLayer_keeps {z : State} {s : State} {n : Nat} {layer : Nat} (hs : s.keeps z) :
    (State.wrongLayer s n layer).keeps z := by
  unfold State.wrongLayer
  dsimp only
  apply keepsIte
  exact keepsIte (State.ramp0_keeps (State.modPu_keeps (by assumption))) (State.modPu_keeps (by assumption))
  apply keepsIte
  exact keepsIte (State.modPu_keeps (State.puFault_keeps (by assumption))) (State.enterReacq_keeps (State.jumpStat_keeps (State.modPu_keeps (State.puFault_keeps (by assumption)))))
  exact keepsIte (State.reacqFails_keeps (by assumption)) (by assumption)

theorem State.ladderTurn_keeps {z : State} {s : State} {n : Nat} (hs : s.keeps z) :
    (State.ladderTurn s n).keeps z := by
  unfold State.ladderTurn
  dsimp only
  exact keepsMk (by assumption)

theorem State.fieldZero_keeps {z : State} {s : State} {n : Nat} (hs : s.keeps z) :
    (State.fieldZero s n).keeps z := by
  unfold State.fieldZero
  dsimp only
  split
  apply State.lasers_keeps
  apply State.endOp_keeps
  apply State.modPu_keeps
  apply State.setFlag_keeps
  apply State.modPu_keeps
  exact State.withOut_keeps (State.when_keeps (State.set_keeps (State.ladderTurn_keeps (by assumption))) (fun _ _ => (State.prevLost_keeps (State.addSat_keeps (by assumption)))))
  apply State.modPu_keeps
  exact State.withOut_keeps (State.when_keeps (State.set_keeps (State.ladderTurn_keeps (by assumption))) (fun _ _ => (State.prevLost_keeps (State.addSat_keeps (by assumption)))))

theorem State.fieldSpiral_keeps {z : State} {s : State} {n : Nat} (hs : s.keeps z) :
    (State.fieldSpiral s n).keeps z := by
  unfold State.fieldSpiral
  exact keepsIte (by assumption) (keepsIte (State.modPu_keeps (by assumption)) (State.modPu_keeps (by assumption)))

theorem State.indexField_keeps {z : State} {s : State} {n : Nat} {field : Nat} (hs : s.keeps z) :
    (State.indexField s n field).keeps z := by
  unfold State.indexField
  dsimp only
  exact keepsIte (State.puFault_keeps (State.modPu_keeps (by assumption))) (State.modPu_keeps (by assumption))

theorem State.clockField_keeps {z : State} {s : State} {k : Nat} {gap : Nat} (hs : s.keeps z) :
    (State.clockField s k gap).keeps z := by
  unfold State.clockField
  dsimp only
  exact State.when_keeps (State.setFlag_keeps (keepsMk (by assumption))) (fun _ _ => (State.raise_keeps (by assumption)))

theorem execServoField_keeps {z : State} {n : Fin 4} {k : Fin 4} {r : FieldRead} {s0 : State} (hs : s0.keeps z) :
    keepsOut z (execServoField n k r s0) := by
  unfold execServoField
  dsimp only
  apply keepsNext
  split
  apply keepsIte
  apply State.when_keeps
  apply State.modPu_keeps
  apply State.when_keeps
  apply State.when_keeps
  apply State.when_keeps
  split
  apply State.when_keeps
  split
  apply State.set_keeps
  apply State.set_keeps
  apply State.set_keeps
  apply State.modPu_keeps
  apply State.when_keeps
  exact keepsIte (State.incWrap_keeps (State.clockField_keeps (by assumption))) (State.addSat_keeps (State.clockField_keeps (by assumption)))
  exact fun _ _ => (State.set_keeps (State.set_keeps (State.setFlag_keeps (State.setFlag_keeps (by assumption)))))
  apply State.modPu_keeps
  apply State.when_keeps
  exact keepsIte (State.incWrap_keeps (State.clockField_keeps (by assumption))) (State.addSat_keeps (State.clockField_keeps (by assumption)))
  exact fun _ _ => (State.set_keeps (State.set_keeps (State.setFlag_keeps (State.setFlag_keeps (by assumption)))))
  exact fun _ _ => (State.wrongLayer_keeps (by assumption))
  split
  apply State.set_keeps
  apply State.set_keeps
  apply State.set_keeps
  apply State.modPu_keeps
  apply State.when_keeps
  exact keepsIte (State.incWrap_keeps (State.clockField_keeps (by assumption))) (State.addSat_keeps (State.clockField_keeps (by assumption)))
  exact fun _ _ => (State.set_keeps (State.set_keeps (State.setFlag_keeps (State.setFlag_keeps (by assumption)))))
  apply State.modPu_keeps
  apply State.when_keeps
  exact keepsIte (State.incWrap_keeps (State.clockField_keeps (by assumption))) (State.addSat_keeps (State.clockField_keeps (by assumption)))
  exact fun _ _ => (State.set_keeps (State.set_keeps (State.setFlag_keeps (State.setFlag_keeps (by assumption)))))
  exact fun _ _ => (State.indexField_keeps (by assumption))
  exact fun _ _ => (State.fieldZero_keeps (by assumption))
  exact fun _ _ => (State.fieldSpiral_keeps (by assumption))
  exact fun _ _ => (State.inhibit_keeps (by assumption))
  apply State.when_keeps
  apply State.when_keeps
  apply State.when_keeps
  split
  apply State.when_keeps
  split
  apply State.set_keeps
  apply State.set_keeps
  apply State.set_keeps
  apply State.modPu_keeps
  apply State.when_keeps
  exact keepsIte (State.incWrap_keeps (State.clockField_keeps (by assumption))) (State.addSat_keeps (State.clockField_keeps (by assumption)))
  exact fun _ _ => (State.set_keeps (State.set_keeps (State.setFlag_keeps (State.setFlag_keeps (by assumption)))))
  apply State.modPu_keeps
  apply State.when_keeps
  exact keepsIte (State.incWrap_keeps (State.clockField_keeps (by assumption))) (State.addSat_keeps (State.clockField_keeps (by assumption)))
  exact fun _ _ => (State.set_keeps (State.set_keeps (State.setFlag_keeps (State.setFlag_keeps (by assumption)))))
  exact fun _ _ => (State.wrongLayer_keeps (by assumption))
  split
  apply State.set_keeps
  apply State.set_keeps
  apply State.set_keeps
  apply State.modPu_keeps
  apply State.when_keeps
  exact keepsIte (State.incWrap_keeps (State.clockField_keeps (by assumption))) (State.addSat_keeps (State.clockField_keeps (by assumption)))
  exact fun _ _ => (State.set_keeps (State.set_keeps (State.setFlag_keeps (State.setFlag_keeps (by assumption)))))
  apply State.modPu_keeps
  apply State.when_keeps
  exact keepsIte (State.incWrap_keeps (State.clockField_keeps (by assumption))) (State.addSat_keeps (State.clockField_keeps (by assumption)))
  exact fun _ _ => (State.set_keeps (State.set_keeps (State.setFlag_keeps (State.setFlag_keeps (by assumption)))))
  exact fun _ _ => (State.indexField_keeps (by assumption))
  exact fun _ _ => (State.fieldZero_keeps (by assumption))
  exact fun _ _ => (State.fieldSpiral_keeps (by assumption))
  apply State.when_keeps
  apply State.when_keeps
  apply State.when_keeps
  split
  apply State.when_keeps
  split
  apply State.set_keeps
  apply State.set_keeps
  apply State.set_keeps
  apply State.modPu_keeps
  apply State.when_keeps
  exact keepsIte (State.incWrap_keeps (State.clockField_keeps (by assumption))) (State.addSat_keeps (State.clockField_keeps (by assumption)))
  exact fun _ _ => (State.set_keeps (State.set_keeps (State.setFlag_keeps (State.setFlag_keeps (by assumption)))))
  apply State.modPu_keeps
  apply State.when_keeps
  exact keepsIte (State.incWrap_keeps (State.clockField_keeps (by assumption))) (State.addSat_keeps (State.clockField_keeps (by assumption)))
  exact fun _ _ => (State.set_keeps (State.set_keeps (State.setFlag_keeps (State.setFlag_keeps (by assumption)))))
  exact fun _ _ => (State.wrongLayer_keeps (by assumption))
  split
  apply State.set_keeps
  apply State.set_keeps
  apply State.set_keeps
  apply State.modPu_keeps
  apply State.when_keeps
  exact keepsIte (State.incWrap_keeps (State.clockField_keeps (by assumption))) (State.addSat_keeps (State.clockField_keeps (by assumption)))
  exact fun _ _ => (State.set_keeps (State.set_keeps (State.setFlag_keeps (State.setFlag_keeps (by assumption)))))
  apply State.modPu_keeps
  apply State.when_keeps
  exact keepsIte (State.incWrap_keeps (State.clockField_keeps (by assumption))) (State.addSat_keeps (State.clockField_keeps (by assumption)))
  exact fun _ _ => (State.set_keeps (State.set_keeps (State.setFlag_keeps (State.setFlag_keeps (by assumption)))))
  exact fun _ _ => (State.indexField_keeps (by assumption))
  exact fun _ _ => (State.fieldZero_keeps (by assumption))
  exact fun _ _ => (State.fieldSpiral_keeps (by assumption))

theorem execSfieldLoss_keeps {z : State} {n : Fin 4} {s : State} (hs : s.keeps z) :
    keepsOut z (execSfieldLoss n s) := by
  unfold execSfieldLoss
  dsimp only
  exact keepsIteOut (keepsNext (State.enterReacq_keeps (State.puFault_keeps (by assumption)))) (keepsNext (by assumption))

theorem execDefectDropoutStart_keeps {z : State} {n : Fin 4} {env : BitVec 14} {s : State} (hs : s.keeps z) :
    keepsOut z (execDefectDropoutStart n env s) := by
  unfold execDefectDropoutStart
  exact keepsIteOut (keepsNext (State.addSat_keeps (State.modPu_keeps (by assumption)))) (keepsNext (by assumption))

theorem execDefectDropoutEnd_keeps {z : State} {n : Fin 4} {env : BitVec 14} {s : State} (hs : s.keeps z) :
    keepsOut z (execDefectDropoutEnd n env s) := by
  unfold execDefectDropoutEnd
  exact keepsIteOut (keepsNext (State.modPu_keeps (by assumption))) (keepsNext (by assumption))

theorem execDefectHoldExpiry_keeps {z : State} {n : Fin 4} {s : State} (hs : s.keeps z) :
    keepsOut z (execDefectHoldExpiry n s) := by
  unfold execDefectHoldExpiry
  dsimp only
  exact keepsIteOut (keepsNext (State.enterReacq_keeps (by assumption))) (keepsNext (by assumption))

theorem State.reacqDone_keeps {z : State} {s : State} {n : Nat} (hs : s.keeps z) :
    (State.reacqDone s n).keeps z := by
  unfold State.reacqDone
  dsimp only
  exact State.lasers_keeps (State.endOp_keeps (State.set_keeps (State.set_keeps (State.set_keeps (State.enableOut_keeps (State.enableOut_keeps (by assumption)))))))

theorem execReacqDone_keeps {z : State} {n : Fin 4} {s : State} (hs : s.keeps z) :
    keepsOut z (execReacqDone n s) := by
  unfold execReacqDone
  exact keepsNext (keepsIte (State.seekEnd_keeps (by assumption) (fun _ _ => (State.reacqDone_keeps (by assumption)))) (by assumption))

theorem execLensRange_keeps {z : State} {n : Fin 4} {s : State} (hs : s.keeps z) :
    keepsOut z (execLensRange n s) := by
  unfold execLensRange
  exact keepsIteOut (keepsNext (State.puFault_keeps (by assumption))) (keepsNext (by assumption))

theorem execWriteInhibit_keeps {z : State} {n : Fin 4} {pp : BitVec 16} {shockX : BitVec 12} {shockY : BitVec 12} {s : State} (hs : s.keeps z) :
    keepsOut z (execWriteInhibit n pp shockX shockY s) := by
  unfold execWriteInhibit
  dsimp only
  exact keepsIteOut (keepsNext (by assumption)) (keepsNext (State.inhibit_keeps (by assumption)))

theorem execWriteInhibitRearm_keeps {z : State} {n : Fin 4} {s : State} (hs : s.keeps z) :
    keepsOut z (execWriteInhibitRearm n s) := by
  unfold execWriteInhibitRearm
  exact keepsIteOut (keepsNext (State.modPu_keeps (State.set_keeps (by assumption)))) (keepsNext (by assumption))

theorem execLaserFault_keeps {z : State} {n : Fin 4} {write : Bool} {s : State} (hs : s.keeps z) :
    keepsOut z (execLaserFault n write s) := by
  unfold execLaserFault
  exact keepsIteOut (keepsNext (State.puFault_keeps (by assumption))) (keepsNext (by assumption))

theorem execPuOvertemp_keeps {z : State} {n : Fin 4} {s : State} (hs : s.keeps z) :
    keepsOut z (execPuOvertemp n s) := by
  unfold execPuOvertemp
  dsimp only
  exact keepsIteOut (keepsNext (State.puFault_keeps (by assumption))) (keepsNext (by assumption))

/-! ### Spn -/

theorem State.spnCommand_keeps {z : State} {s : State} {st : Nat} {op : Nat} {target : Nat} (hs : s.keeps z) :
    (State.spnCommand s st op target).keeps z := by
  unfold State.spnCommand
  dsimp only
  apply keepsIte
  exact State.spnReport_keeps (by assumption)
  apply keepsIte
  exact keepsIte (State.spin_keeps (State.spnReport_keeps (by assumption))) (State.spnReport_keeps (by assumption))
  apply keepsIte
  apply keepsIte
  exact State.modStn_keeps (State.spnReport_keeps (by assumption))
  apply keepsIte
  exact State.spnResult_keeps (State.spnStop_keeps (State.spnReport_keeps (by assumption)))
  exact keepsIte (State.spnStop_keeps (State.spnReport_keeps (by assumption))) (State.spnReport_keeps (by assumption))
  exact keepsIte (State.spnReport_keeps (by assumption)) (keepsIte (State.spnCoast_keeps (State.spnReport_keeps (by assumption))) (State.spnReport_keeps (by assumption)))

theorem State.spnCmd_keeps {z : State} {s : State} {p : Path} {st : Nat} {op : Nat} {target : Nat} (hs : s.keeps z) :
    (State.spnCmd s p st op target).keeps z := by
  unfold State.spnCmd
  exact State.writeBy_keeps (by assumption) (fun _ _ => (State.spnCommand_keeps (by assumption)))

theorem execSpin_keeps {z : State} {p : Path} {st : Fin 2} {target : BitVec 16} {s : State} (hs : s.keeps z) :
    keepsOut z (execSpin p st target s) := by
  unfold execSpin
  exact keepsNext (State.spnCmd_keeps (by assumption))

theorem execSpnStop_keeps {z : State} {p : Path} {st : Fin 2} {s : State} (hs : s.keeps z) :
    keepsOut z (execSpnStop p st s) := by
  unfold execSpnStop
  exact keepsNext (State.spnCmd_keeps (by assumption))

theorem execCoast_keeps {z : State} {p : Path} {st : Fin 2} {s : State} (hs : s.keeps z) :
    keepsOut z (execCoast p st s) := by
  unfold execCoast
  exact keepsNext (State.spnCmd_keeps (by assumption))

theorem execSpnEnable_keeps {z : State} {p : Path} {st : Fin 2} {en : Bool} {s : State} (hs : s.keeps z) :
    keepsOut z (execSpnEnable p st en s) := by
  unfold execSpnEnable
  apply keepsNext
  apply State.writeBy_keeps
  assumption
  intro _ _
  apply State.when_keeps
  exact State.setFlag_keeps (by assumption)
  exact fun _ _ => (State.when_keeps (State.spnStop_keeps (by assumption)) (fun _ _ => (State.spnOff_keeps (State.spnResult_keeps (by assumption)))))

theorem execAlignDone_keeps {z : State} {st : Fin 2} {slopes : Vector (BitVec 16) 6} {s : State} (hs : s.keeps z) :
    keepsOut z (execAlignDone st slopes s) := by
  unfold execAlignDone
  dsimp only
  apply keepsIteOut
  apply keepsIteOut
  exact keepsNext (State.startRotor_keeps (State.set_keeps (by assumption)))
  apply keepsIteOut
  exact keepsNext (State.modStn_keeps (State.set_keeps (State.set_keeps (State.spnFault_keeps (State.set_keeps (by assumption))))))
  exact keepsNext (State.modStn_keeps (State.set_keeps (by assumption)))
  exact keepsNext (by assumption)

theorem execEncoderIndex_keeps {z : State} {st : Fin 2} {count : BitVec 17} {s : State} (hs : s.keeps z) :
    keepsOut z (execEncoderIndex st count s) := by
  unfold execEncoderIndex
  dsimp only
  apply keepsIteOut
  apply keepsNext
  apply State.refreshSource_keeps
  exact State.when_keeps (State.modStn_keeps (State.set_keeps (State.set_keeps (State.incWrap_keeps (by assumption))))) (fun _ _ => (State.set_keeps (by assumption)))
  apply keepsIteOut
  exact keepsNext (State.incWrap_keeps (by assumption))
  exact keepsNext (State.refreshSource_keeps (State.modStn_keeps (State.set_keeps (State.spnFault_keeps (State.incWrap_keeps (by assumption))))))

theorem execEncLost_keeps {z : State} {st : Fin 2} {s : State} (hs : s.keeps z) :
    keepsOut z (execEncLost st s) := by
  unfold execEncLost
  exact keepsIteOut (keepsNext (by assumption)) (keepsNext (State.refreshSource_keeps (State.set_keeps (State.spnFault_keeps (by assumption)))))

theorem execObserverInvalid_keeps {z : State} {st : Fin 2} {s : State} (hs : s.keeps z) :
    keepsOut z (execObserverInvalid st s) := by
  unfold execObserverInvalid
  exact keepsIteOut (keepsNext (by assumption)) (keepsNext (State.refreshSource_keeps (State.set_keeps (by assumption))))

theorem execRotorDisagree_keeps {z : State} {st : Fin 2} {s : State} (hs : s.keeps z) :
    keepsOut z (execRotorDisagree st s) := by
  unfold execRotorDisagree
  exact keepsIteOut (keepsNext (State.spnFault_keeps (State.spnFault_keeps (State.addSat_keeps (by assumption))))) (keepsNext (by assumption))

theorem execRotorLost_keeps {z : State} {st : Fin 2} {s : State} (hs : s.keeps z) :
    keepsOut z (execRotorLost st s) := by
  unfold execRotorLost
  dsimp only
  exact keepsIteOut (keepsNext (State.rotorLost_keeps (by assumption))) (keepsNext (by assumption))

theorem execRecatchSuccess_keeps {z : State} {st : Fin 2} {speeds : Vector (BitVec 16) 3} {agree : BitVec 8} {s : State} (hs : s.keeps z) :
    keepsOut z (execRecatchSuccess st speeds agree s) := by
  unfold execRecatchSuccess
  dsimp only
  apply keepsIteOut
  exact keepsNext (State.modStn_keeps (State.workMeasured_keeps (State.enableOut_keeps (State.set_keeps (State.spinDown_keeps (State.set_keeps (by assumption)))))))
  exact keepsNext (by assumption)

theorem execRecatchTimeout_keeps {z : State} {st : Fin 2} {s : State} (hs : s.keeps z) :
    keepsOut z (execRecatchTimeout st s) := by
  unfold execRecatchTimeout
  exact keepsIteOut (keepsNext (State.modStn_keeps (State.bridgeOff_keeps (by assumption)))) (keepsNext (by assumption))

theorem execShortBrakeStart_keeps {z : State} {st : Fin 2} {s : State} (hs : s.keeps z) :
    keepsOut z (execShortBrakeStart st s) := by
  unfold execShortBrakeStart
  exact keepsIteOut (keepsNext (State.set_keeps (State.set_keeps (by assumption)))) (keepsNext (by assumption))

theorem execShortBrakeEnd_keeps {z : State} {st : Fin 2} {s : State} (hs : s.keeps z) :
    keepsOut z (execShortBrakeEnd st s) := by
  unfold execShortBrakeEnd
  exact keepsIteOut (keepsNext (State.spnUnusable_keeps (State.set_keeps (by assumption)))) (keepsNext (by assumption))

theorem execSpnOvercurrent_keeps {z : State} {st : Fin 2} {leg : Fin 3} {s : State} (hs : s.keeps z) :
    keepsOut z (execSpnOvercurrent st leg s) := by
  unfold execSpnOvercurrent
  dsimp only
  apply keepsIteOut
  exact keepsNext (State.spnResult_keeps (State.spnCoast_keeps (State.bridgeOff_keeps (State.spnFault_keeps (by assumption)))))
  apply keepsIteOut
  exact keepsNext (State.spnResult_keeps (State.spnOff_keeps (State.bridgeOff_keeps (State.spnFault_keeps (by assumption)))))
  exact keepsNext (State.bridgeOff_keeps (State.spnFault_keeps (by assumption)))

theorem execAtSpeed_keeps {z : State} {st : Fin 2} {s : State} (hs : s.keeps z) :
    keepsOut z (execAtSpeed st s) := by
  unfold execAtSpeed
  exact keepsIteOut (keepsNext (State.spnResult_keeps (State.modStn_keeps (State.set_keeps (by assumption))))) (keepsNext (by assumption))

theorem execStopped_keeps {z : State} {st : Fin 2} {s : State} (hs : s.keeps z) :
    keepsOut z (execStopped st s) := by
  unfold execStopped
  dsimp only
  apply keepsIteOut
  exact keepsNext (by assumption)
  apply keepsIteOut
  exact keepsNext (State.spnUnusable_keeps (State.modStn_keeps (State.set_keeps (State.set_keeps (by assumption)))))
  apply keepsIteOut
  exact keepsNext (State.spnResult_keeps (State.spnOff_keeps (State.modStn_keeps (State.set_keeps (State.set_keeps (by assumption))))))
  exact keepsNext (State.modStn_keeps (State.set_keeps (State.set_keeps (by assumption))))

theorem execSpinTmo_keeps {z : State} {st : Fin 2} {s : State} (hs : s.keeps z) :
    keepsOut z (execSpinTmo st s) := by
  unfold execSpinTmo
  split
  exact keepsIteOut (keepsNext (State.spnResult_keeps (State.modStn_keeps (State.spnFault_keeps (by assumption))))) (keepsNext (by assumption))
  exact keepsNext (by assumption)

theorem execKeCheck_keeps {z : State} {st : Fin 2} {s : State} (hs : s.keeps z) :
    keepsOut z (execKeCheck st s) := by
  unfold execKeCheck
  dsimp only
  apply keepsIteOut
  apply keepsNext
  exact State.when_keeps (State.setInt_keeps (State.incWrap_keeps (State.set_keeps (State.modStn_keeps (by assumption))))) (fun _ _ => (State.spnFault_keeps (by assumption)))
  exact keepsNext (by assumption)

/-! ### RegOps -/

theorem State.readLow_keeps {z : State} {s : State} {k : PairReg} (hs : s.keeps z) :
    (State.readLow s k).2.keeps z := by
  unfold State.readLow
  dsimp only
  exact keepsMk (by assumption)

theorem State.advance_keeps {z : State} {s : State} {r : IndexReg} (hs : s.keeps z) :
    (State.advance s r).keeps z := by
  unfold State.advance
  dsimp only
  split
  exact State.set_keeps (State.set_keeps (by assumption))
  exact State.set_keeps (State.set_keeps (by assumption))
  exact State.set_keeps (State.set_keeps (by assumption))
  exact State.set_keeps (State.set_keeps (by assumption))
  exact State.set_keeps (State.set_keeps (by assumption))
  exact State.set_keeps (State.set_keeps (by assumption))

theorem outState_keeps {z : State} {o : Out} {s : State} (ho : keepsOut z o) (hs : s.keeps z) :
    (outState o s).keeps z := by
  unfold outState
  split
  assumption
  assumption

theorem viaRow_keeps {z : State} {s : State} {o : Out} (hs : s.keeps z) (ho : keepsOut z o) :
    (viaRow s o).2.keeps z := by
  unfold viaRow
  dsimp only
  exact outState_keeps (by assumption) (by assumption)

theorem State.readActs_keeps {z : State} {s : State} {p : Path} {a : Nat} (hs : s.keeps z) : keepsRead z (s.readActs p a) := by
  unfold State.readActs
  refine keepsReadOrElse (keepsReadMap fun k => State.readLow_keeps hs) ?_
  refine keepsReadOrElse (keepsReadMap fun r => State.advance_keeps hs) ?_
  refine keepsReadOrElse (keepsReadMap fun n => viaRow_keeps hs (execTraceRdataRead_keeps hs)) ?_
  refine keepsReadOrElse (keepsReadMap fun n => viaRow_keeps hs (execOpcStatRead_keeps hs)) ?_
  refine keepsReadIte (keepsReadSome (viaRow_keeps hs (execFlCmplRead_keeps hs))) ?_
  refine keepsReadIte (keepsReadSome (viaRow_keeps hs (execCalResRead_keeps hs))) ?_
  exact keepsReadIte (keepsReadSome (State.scanRead_keeps hs)) fun _ h => by simp at h

theorem State.readReg_keeps {z : State} {s : State} {p : Path} {a : Nat} (hs : s.keeps z) :
    (State.readReg s p a).2.keeps z := by
  unfold State.readReg
  split
  dsimp only
  refine State.readActs_keeps ?_ _ (by assumption)
  assumption
  dsimp only
  assumption

theorem State.readWords_keeps {z : State} {p : Path} {a : Nat} {a1 : Nat} {a2 : State} (hs : a2.keeps z) :
    (State.readWords p a a1 a2).2.2.keeps z := by
  induction a generalizing a1 a2
  · exact hs
  · rename_i n ih
    unfold State.readWords
    dsimp only
    split
    dsimp only
    apply ih
    exact State.readReg_keeps (by assumption)
    dsimp only
    assumption

theorem State.plainWrite_keeps {z : State} {s : State} {p : Path} {a : Nat} {v : Word} (hs : s.keeps z) :
    (State.plainWrite s p a v).keeps z := by
  unfold State.plainWrite
  split
  exact State.status_keeps (by assumption)
  exact keepsIte (State.writeFields_keeps (by assumption)) (State.status_keeps (by assumption))

theorem State.refuseWrite_keeps {z : State} {s : State} {p : Path} (hs : s.keeps z) :
    (State.refuseWrite s p).keeps z := by
  unfold State.refuseWrite
  exact State.status_keeps (by assumption)

theorem State.indexWrite_keeps {z : State} {s : State} {p : Path} {r : IndexReg} {v : Word} (hs : s.keeps z) :
    (State.indexWrite s p r v).keeps z := by
  unfold State.indexWrite
  dsimp only
  split
  exact State.status_keeps (by assumption)
  apply keepsIte
  apply State.advance_keeps
  split
  exact State.writeFields_keeps (by assumption)
  exact State.status_keeps (by assumption)
  split
  exact State.writeFields_keeps (by assumption)
  exact State.status_keeps (by assumption)

theorem State.writeParts_keeps {z : State} {s : State} {parts : List (State → State)} (hs : s.keeps z) (hl : keepsAll z parts) :
    (s.writeParts parts).keeps z := by
  have h1 : ∀ t : State, t.keeps z →
      (parts.foldl (fun (t : State) (f : State → State) => if t.wstat = stOk then f t else t) t).keeps z := by
    induction parts with
    | nil => exact fun t ht => ht
    | cons f r ih =>
      intro t ht
      exact ih (fun g hg => hl g (List.mem_cons_of_mem _ hg)) _ (keepsIte (hl f (List.mem_cons_self ..) t ht) ht)
  unfold State.writeParts
  dsimp only
  apply keepsIte
  · exact h1 _ (State.status_keeps hs)
  · exact State.status_keeps hs

theorem partIf_keeps {z : State} {b : Bool} {f : State → State} (h : ∀ s : State, s.keeps z → (f s).keeps z) :
    keepsAll z (partIf b f) := by
  unfold partIf
  split
  · exact keepsCons h keepsNil
  · exact keepsNil

theorem axCtlParts_keeps {z : State} {s : State} {p : Path} {a : Fin 7} {v : Word} : keepsAll z (axCtlParts s p a v) := by
  unfold axCtlParts
  dsimp only
  apply keepsAppend
  apply keepsAppend
  apply keepsAppend
  apply keepsAppend
  apply keepsAppend
  apply keepsAppend
  exact partIf_keeps (fun _ _ => (outState_keeps (execAxEnable_keeps (by assumption)) (by assumption)))
  exact partIf_keeps (fun _ _ => (outState_keeps (execAxMode_keeps (by assumption)) (by assumption)))
  exact partIf_keeps (fun _ _ => (outState_keeps (execEstop_keeps (by assumption)) (by assumption)))
  exact partIf_keeps (fun _ _ => (outState_keeps (execAxStop_keeps (by assumption)) (by assumption)))
  exact partIf_keeps (fun _ _ => (outState_keeps (execAxStart_keeps (by assumption)) (by assumption)))
  exact partIf_keeps (fun _ _ => (outState_keeps (execAxHome_keeps (by assumption)) (by assumption)))
  exact partIf_keeps (fun _ _ => (outState_keeps (execAxPark_keeps (by assumption)) (by assumption)))

theorem State.writeCe_keeps {z : State} {s : State} {p : Path} {a : Nat} {v : Word} (hs : s.keeps z) :
    keepsOpt z (State.writeCe s p a v) := by
  unfold State.writeCe
  dsimp only
  split
  exact keepsSome (outState_keeps (execCePageWrite_keeps (by assumption)) (by assumption))
  apply keepsIteOpt
  exact keepsSome (outState_keeps (execCeAuxEnable_keeps (by assumption)) (by assumption))
  apply keepsIteOpt
  exact keepsSome (outState_keeps (execWbufGate_keeps (by assumption)) (by assumption))
  split
  apply keepsIteOpt
  apply keepsIteOpt
  apply keepsSome
  apply State.writeParts_keeps
  assumption
  apply keepsCons
  exact fun _ _ => (State.plainWrite_keeps (by assumption))
  apply keepsAppend
  apply keepsAppend
  exact partIf_keeps (fun _ _ => (outState_keeps (execTraceForce_keeps (by assumption)) (by assumption)))
  exact partIf_keeps (fun _ _ => (outState_keeps (execTraceAck_keeps (by assumption)) (by assumption)))
  exact partIf_keeps (fun _ _ => (outState_keeps (execTraceArm_keeps (by assumption)) (by assumption)))
  apply keepsIteOpt
  apply keepsSome
  apply State.writeParts_keeps
  assumption
  apply keepsAppend
  apply keepsAppend
  exact partIf_keeps (fun _ _ => (outState_keeps (execTraceForce_keeps (by assumption)) (by assumption)))
  exact partIf_keeps (fun _ _ => (outState_keeps (execTraceAck_keeps (by assumption)) (by assumption)))
  exact partIf_keeps (fun _ _ => (outState_keeps (execTraceArm_keeps (by assumption)) (by assumption)))
  exact keepsSome (State.refuseWrite_keeps (by assumption))
  exact keepsIteOpt (keepsIteOpt trivial (keepsSome (State.refuseWrite_keeps (by assumption)))) trivial
  trivial

theorem State.writeMotion_keeps {z : State} {s : State} {p : Path} {a : Nat} {v : Word} (hs : s.keeps z) :
    keepsOpt z (State.writeMotion s p a v) := by
  unfold State.writeMotion
  dsimp only
  apply keepsOrElse
  apply keepsMap
  intro _
  apply State.writeParts_keeps
  assumption
  apply keepsAppend
  exact keepsCons (fun _ _ => (outState_keeps (execOpuEnable_keeps (by assumption)) (by assumption))) (keepsCons (fun _ _ => (State.plainWrite_keeps (by assumption))) keepsNil)
  exact partIf_keeps (fun _ _ => (outState_keeps (execWiForce_keeps (by assumption)) (by assumption)))
  intro _
  apply keepsOrElse
  apply keepsMap
  exact fun _ => (State.opuCmd_keeps (by assumption))
  intro _
  apply keepsOrElse
  apply keepsMap
  exact fun _ => (keepsIte (outState_keeps (execOpcAck_keeps (by assumption)) (by assumption)) (State.plainWrite_keeps (by assumption)))
  intro _
  apply keepsOrElse
  apply keepsMap
  exact fun _ => (outState_keeps (execSpnEnable_keeps (by assumption)) (by assumption))
  intro _
  apply keepsOrElse
  apply keepsMap
  exact fun _ => (State.spnCmd_keeps (by assumption))
  intro _
  apply keepsOrElse
  apply keepsMap
  exact fun _ => (State.writeParts_keeps (by assumption) (keepsAppend axCtlParts_keeps (keepsCons (fun _ _ => (State.status_keeps (by assumption))) keepsNil)))
  intro _
  split
  exact keepsSome (outState_keeps (execAxProfileWrite_keeps (by assumption)) (by assumption))
  apply keepsIteOpt
  exact keepsSome (State.magCmd_keeps (by assumption))
  exact keepsIteOpt (keepsIteOpt (keepsSome (State.modPu_keeps (State.set_keeps (State.plainWrite_keeps (by assumption))))) (keepsSome (State.plainWrite_keeps (by assumption)))) trivial

theorem State.writeShell_keeps {z : State} {s : State} {p : Path} {a : Nat} {v : Word} (hs : s.keeps z) :
    keepsOpt z (State.writeShell s p a v) := by
  unfold State.writeShell
  dsimp only
  apply keepsIteOpt
  exact keepsSome (State.writeBy_keeps (by assumption) (fun _ _ => (State.modeRequest_keeps (by assumption))))
  apply keepsIteOpt
  exact keepsSome (keepsIte (outState_keeps (execMigrationStop_keeps (by assumption)) (by assumption)) (outState_keeps (execMigrationStart_keeps (by assumption)) (by assumption)))
  apply keepsIteOpt
  apply keepsSome
  apply State.writeParts_keeps
  assumption
  apply keepsAppend
  exact partIf_keeps (fun _ _ => (outState_keeps (execPortEnable_keeps (by assumption)) (by assumption)))
  exact keepsCons (fun _ _ => (State.plainWrite_keeps (by assumption))) keepsNil
  apply keepsIteOpt
  exact keepsSome (keepsIte (outState_keeps (execSelfTestAck_keeps (by assumption)) (by assumption)) (State.plainWrite_keeps (by assumption)))
  apply keepsIteOpt
  exact keepsSome (State.maintOrder_keeps (by assumption))
  apply keepsIteOpt
  exact keepsSome (keepsIte (State.flHostPush_keeps (by assumption)) (State.plainWrite_keeps (by assumption)))
  apply keepsIteOpt
  apply keepsSome
  apply State.writeParts_keeps
  assumption
  apply keepsAppend
  apply keepsAppend
  exact keepsCons (fun _ _ => (State.plainWrite_keeps (by assumption))) keepsNil
  exact partIf_keeps (fun _ _ => (outState_keeps (execFlRefreshStart_keeps (by assumption)) (by assumption)))
  exact partIf_keeps (fun _ _ => (outState_keeps (execFlRefreshStop_keeps (by assumption)) (by assumption)))
  apply keepsIteOpt
  apply keepsSome
  apply keepsIte
  exact outState_keeps (execWriteRaw_keeps (by assumption)) (by assumption)
  apply keepsIte
  exact outState_keeps (execReadRaw_keeps (by assumption)) (by assumption)
  exact keepsIte (outState_keeps (execReadCorr_keeps (by assumption)) (by assumption)) (State.refuseWrite_keeps (by assumption))
  trivial

theorem State.writeWatch_keeps {z : State} {s : State} {p : Path} {a : Nat} {v : Word} (hs : s.keeps z) :
    keepsOpt z (State.writeWatch s p a v) := by
  unfold State.writeWatch
  apply keepsIteOpt
  exact keepsSome (outState_keeps (execFltSevWrite_keeps (by assumption)) (by assumption))
  apply keepsIteOpt
  exact keepsSome (keepsIte (outState_keeps (execFltInject_keeps (by assumption)) (by assumption)) (State.plainWrite_keeps (by assumption)))
  apply keepsIteOpt
  exact keepsSome (keepsIte (outState_keeps (execFltStnRel_keeps (by assumption)) (by assumption)) (State.plainWrite_keeps (by assumption)))
  apply keepsIteOpt
  apply keepsSome
  apply State.writeParts_keeps
  assumption
  apply keepsAppend
  exact keepsCons (fun _ _ => (State.bistShow_keeps (State.plainWrite_keeps (by assumption)))) keepsNil
  exact partIf_keeps (fun _ _ => (outState_keeps (execRunNow_keeps (by assumption)) (by assumption)))
  apply keepsIteOpt
  exact keepsSome (keepsIte (outState_keeps (execBistScanStart_keeps (by assumption)) (by assumption)) (State.plainWrite_keeps (by assumption)))
  apply keepsIteOpt
  apply keepsSome
  apply State.writeParts_keeps
  assumption
  apply keepsAppend
  apply keepsAppend
  exact keepsCons (fun _ _ => (State.plainWrite_keeps (by assumption))) keepsNil
  exact partIf_keeps (fun _ _ => (outState_keeps (execOwlRelease_keeps (by assumption)) (by assumption)))
  exact partIf_keeps (fun _ _ => (outState_keeps (execOwlFlushAck_keeps (by assumption)) (by assumption)))
  apply keepsIteOpt
  exact keepsSome (outState_keeps (execOwlMark_keeps (by assumption)) (by assumption))
  apply keepsIteOpt
  apply keepsSome
  apply State.writeParts_keeps
  assumption
  apply keepsAppend
  exact partIf_keeps (fun _ _ => (outState_keeps (execCalAbort_keeps (by assumption)) (by assumption)))
  exact keepsCons (fun _ _ => (keepsIte (outState_keeps (execCalStart_keeps (by assumption)) (by assumption)) (State.plainWrite_keeps (by assumption)))) keepsNil
  exact keepsIteOpt (keepsSome (keepsIte (outState_keeps (execCalAck_keeps (by assumption)) (by assumption)) (State.plainWrite_keeps (by assumption)))) trivial

theorem State.writeReg_keeps {z : State} {s : State} {p : Path} {a : Nat} {v : Word} (hs : s.keeps z) :
    (State.writeReg s p a v).keeps z := by
  unfold State.writeReg
  split
  exact State.indexWrite_keeps (by assumption)
  split
  split
  exact State.status_keeps (by assumption)
  exact keepsIte (State.writeFields_keeps (by assumption)) (State.plainWrite_keeps (by assumption))
  apply keepsGetD
  apply keepsOrElse
  apply keepsOrElse
  apply keepsOrElse
  exact State.writeCe_keeps (by assumption)
  exact fun _ => (State.writeMotion_keeps (by assumption))
  exact fun _ => (State.writeShell_keeps (by assumption))
  exact fun _ => (State.writeWatch_keeps (by assumption))
  exact State.plainWrite_keeps (by assumption)

/-! ### Registers -/

theorem execLatchedPairRead_keeps {z : State} {p : Path} {pair : PairReg} {s : State} (hs : s.keeps z) :
    keepsOut z (execLatchedPairRead p pair s) := by
  unfold execLatchedPairRead
  exact keepsNext (State.readBy_keeps (by assumption) (fun _ _ => (State.readLow_keeps (by assumption))))

theorem execIndexDataAccess_keeps {z : State} {p : Path} {reg : IndexReg} {write : Option Word} {s : State} (hs : s.keeps z) :
    keepsOut z (execIndexDataAccess p reg write s) := by
  unfold execIndexDataAccess
  split
  apply keepsNext
  apply State.readBy_keeps
  assumption
  intro _ _
  dsimp only
  exact State.advance_keeps (by assumption)
  exact keepsNext (keepsIte (by assumption) (State.indexWrite_keeps (State.rxMessage_keeps (by assumption))))

theorem State.runRegRead_keeps {z : State} {s : State} {c : Cmd} (hs : s.keeps z) :
    (State.runRegRead s c).keeps z := by
  unfold State.runRegRead
  dsimp only
  exact State.finish_keeps (State.setReg_keeps (keepsMk (State.readWords_keeps (by assumption))))

theorem execRegRead_keeps {z : State} {p : Path} {e : Entry} {s : State} (hs : s.keeps z) :
    keepsOut z (execRegRead p e s) := by
  unfold execRegRead
  exact keepsNext (State.command_keeps (by assumption) (fun _ _ _ => (State.runRegRead_keeps (by assumption))))

theorem State.runSysRst_keeps {z : State} {s : State} {c : Cmd} (hs : s.keeps z) :
    (State.runSysRst s c).keeps z := by
  unfold State.runSysRst
  split
  exact State.finishWith_keeps (by assumption)
  exact keepsIte (State.finish_keeps (by assumption)) (keepsIte (State.deviceReset_keeps (State.finish_keeps (by assumption))) (State.finishWith_keeps (by assumption)))

theorem State.runRegWrite_keeps {z : State} {s : State} {c : Cmd} (hs : s.keeps z) :
    (State.runRegWrite s c).keeps z := by
  unfold State.runRegWrite
  dsimp only
  apply keepsIte
  exact State.finishWith_keeps (by assumption)
  apply keepsIte
  exact State.runSysRst_keeps (by assumption)
  apply keepsIte
  exact State.cmdCounts_keeps (keepsMk (State.setReg_keeps (keepsMk (State.writeReg_keeps (by assumption)))))
  exact State.finishWith_keeps (State.setReg_keeps (keepsMk (State.writeReg_keeps (by assumption))))

theorem execRegWrite_keeps {z : State} {p : Path} {e : Entry} {s : State} (hs : s.keeps z) :
    keepsOut z (execRegWrite p e s) := by
  unfold execRegWrite
  exact keepsNext (State.command_keeps (by assumption) (fun _ _ _ => (State.runRegWrite_keeps (by assumption))))

/-! ### SecOps -/

theorem State.modSec_keeps {z : State} {s : State} {f : SecSt → SecSt} (hs : s.keeps z) :
    (State.modSec s f).keeps z := by
  unfold State.modSec
  exact keepsMk (by assumption)

theorem State.svcReply_keeps {z : State} {s : State} {status : Nat} {data : List Byte} (hs : s.keeps z) :
    (State.svcReply s status data).keeps z := by
  unfold State.svcReply
  exact State.writeEntry_keeps (by assumption)

theorem State.extendLife_keeps {z : State} {s : State} (hs : s.keeps z) :
    (State.extendLife s).keeps z := by
  unfold State.extendLife
  exact State.extendMsr_keeps (by assumption)

theorem State.lcChanged_keeps {z : State} {s : State} {failed : Bool} (hs : s.keeps z) :
    (State.lcChanged s failed).keeps z := by
  unfold State.lcChanged
  exact State.raise_keeps (by assumption)

theorem State.dropKeys_keeps {z : State} {s : State} (hs : s.keeps z) :
    (State.dropKeys s).keeps z := by
  unfold State.dropKeys
  dsimp only
  exact State.set_keeps (State.set_keeps (State.set_keeps (State.modSec_keeps (State.setKeys_keeps (by assumption)))))

theorem State.zeroise_keeps {z : State} {s : State} (hs : s.keeps z) :
    (State.zeroise s).keeps z := by
  unfold State.zeroise
  dsimp only
  apply keepsFold
  · intro t n h
    exact State.journal_keeps (State.eraseSector_keeps (State.journal_keeps h))
  · have h1 : s.dropKeys.keeps z := State.dropKeys_keeps hs
    generalize s.dropKeys = s1 at h1 ⊢
    exact keepsClear h1 rfl rfl rfl rfl rfl rfl rfl

theorem State.lcOrder_keeps {z : State} {s : State} {f : State → State} (hs : s.keeps z) (hf : ∀ s, s.keeps z → (f s).keeps z) :
    (State.lcOrder s f).keeps z := by
  unfold State.lcOrder
  dsimp only
  apply keepsIte
  assumption
  apply keepsIte
  exact State.svcReply_keeps (by assumption)
  apply keepsIte
  apply hf
  exact State.rxMessage_keeps (by assumption)
  exact State.svcReply_keeps (State.rxMessage_keeps (by assumption))

theorem State.newChallenge_keeps {z : State} {s : State} (hs : s.keeps z) :
    (State.newChallenge s).keeps z := by
  unfold State.newChallenge
  dsimp only
  apply State.svcReply_keeps
  apply State.modSec_keeps
  apply keepsFold
  exact fun _ _ _ => (State.setReg_keeps (by assumption))
  exact keepsMem (by assumption) rfl rfl rfl rfl rfl (Nat.le_add_right _ _)

theorem State.endChallenge_keeps {z : State} {s : State} (hs : s.keeps z) :
    (State.endChallenge s).keeps z := by
  unfold State.endChallenge
  exact State.modSec_keeps (by assumption)

theorem State.applyToken_keeps {z : State} {s : State} {op : Nat} {f : State → Bundle → State} (hs : s.keeps z) (hf : ∀ s c, s.keeps z → (f s c).keeps z) :
    (State.applyToken s op f).keeps z := by
  unfold State.applyToken
  dsimp only
  apply keepsIte
  assumption
  apply keepsIte
  apply State.lcOrder_keeps
  assumption
  intro _ _
  split
  apply keepsIte
  apply hf
  assumption
  exact State.svcReply_keeps (by assumption)
  exact State.svcReply_keeps (by assumption)
  apply State.endChallenge_keeps
  apply State.lcOrder_keeps
  assumption
  intro _ _
  split
  apply keepsIte
  apply hf
  assumption
  exact State.svcReply_keeps (by assumption)
  exact State.svcReply_keeps (by assumption)

theorem State.fuseFails_keeps {z : State} {s : State} (hs : s.keeps z) :
    (State.fuseFails s).keeps z := by
  unfold State.fuseFails
  dsimp only
  exact State.svcReply_keeps (State.draw_keeps (State.lcChanged_keeps (by assumption)))

theorem State.lcAdvance_keeps {z : State} {s : State} {st : Nat} (hs : s.keeps z) :
    (State.lcAdvance s st).keeps z := by
  unfold State.lcAdvance
  exact State.svcReply_keeps (State.extendLife_keeps (State.lcChanged_keeps (State.set_keeps (by assumption))))

theorem State.toField_keeps {z : State} {s : State} {confirm : Word} {fuseOk : Bool} (hs : s.keeps z) :
    (State.toField s confirm fuseOk).keeps z := by
  unfold State.toField
  exact keepsIte (State.svcReply_keeps (by assumption)) (keepsIte (State.lcAdvance_keeps (State.set_keeps (by assumption))) (State.fuseFails_keeps (by assumption)))

theorem State.issue_keeps {z : State} {s : State} {fuseOk : Bool} (hs : s.keeps z) :
    (State.issue s fuseOk).keeps z := by
  unfold State.issue
  dsimp only
  exact keepsIte (State.lcAdvance_keeps (State.modSec_keeps (keepsMem (by assumption) rfl rfl rfl rfl rfl (Nat.le_add_right _ _)))) (State.fuseFails_keeps (by assumption))

theorem State.returnPart_keeps {z : State} {s : State} {fuseOk : Bool} (hs : s.keeps z) :
    (State.returnPart s fuseOk).keeps z := by
  unfold State.returnPart
  exact keepsIte (State.deviceReset_keeps (State.zeroise_keeps (State.lcAdvance_keeps (by assumption)))) (State.fuseFails_keeps (by assumption))

theorem State.debugOpen_keeps {z : State} {s : State} (hs : s.keeps z) :
    (State.debugOpen s).keeps z := by
  unfold State.debugOpen
  exact State.svcReply_keeps (State.extendLife_keeps (State.lcChanged_keeps (State.dropKeys_keeps (State.set_keeps (by assumption)))))

theorem State.revokeSlot_keeps {z : State} {s : State} {slot : Nat} {fuseOk : Bool} (hs : s.keeps z) :
    (State.revokeSlot s slot fuseOk).keeps z := by
  unfold State.revokeSlot
  exact keepsIte (State.svcReply_keeps (State.extendLife_keeps (State.set_keeps (by assumption)))) (State.fuseFails_keeps (by assumption))

theorem State.attShow_keeps {z : State} {s : State} (hs : s.keeps z) :
    (State.attShow s).keeps z := by
  unfold State.attShow
  exact State.set_keeps (by assumption)

theorem State.signNext_keeps {z : State} {s : State} (hs : s.keeps z) :
    (State.signNext s).keeps z := by
  unfold State.signNext
  dsimp only
  apply keepsIte
  exact State.attShow_keeps (by assumption)
  split
  exact State.attShow_keeps (by assumption)
  exact State.attShow_keeps (State.modSec_keeps (by assumption))

theorem State.quoteRequest_keeps {z : State} {s : State} {p : Path} {nonce : BitVec 256} (hs : s.keeps z) :
    (State.quoteRequest s p nonce).keeps z := by
  unfold State.quoteRequest
  dsimp only
  exact State.signNext_keeps (State.modSec_keeps (by assumption))

theorem State.runAttRequest_keeps {z : State} {s : State} {nonce : BitVec 256} {c : Cmd} (hs : s.keeps z) :
    (State.runAttRequest s nonce c).keeps z := by
  unfold State.runAttRequest
  exact keepsIte (State.finishWith_keeps (by assumption)) (keepsIte (State.finishWith_keeps (by assumption)) (State.finish_keeps (State.quoteRequest_keeps (by assumption))))

theorem State.setQuote_keeps {z : State} {s : State} {q : Quote} {r : Quote} (hs : s.keeps z) :
    (State.setQuote s q r).keeps z := by
  unfold State.setQuote
  exact State.modSec_keeps (by assumption)

theorem State.runAttFetch_keeps {z : State} {s : State} {c : Cmd} (hs : s.keeps z) :
    (State.runAttFetch s c).keeps z := by
  unfold State.runAttFetch
  dsimp only
  apply keepsIte
  exact State.finish_keeps (State.draw_keeps (by assumption))
  split
  exact State.finish_keeps (by assumption)
  exact keepsIte (State.finish_keeps (by assumption)) (keepsIte (State.finish_keeps (State.setQuote_keeps (by assumption))) (State.finish_keeps (State.setQuote_keeps (by assumption))))

theorem State.quoteSigned_keeps {z : State} {s : State} {signature : List Byte} (hs : s.keeps z) :
    (State.quoteSigned s signature).keeps z := by
  unfold State.quoteSigned
  dsimp only
  split
  assumption
  exact State.signNext_keeps (keepsIte (State.modSec_keeps (State.incWrap_keeps (by assumption))) (State.set_keeps (State.setQuote_keeps (State.incWrap_keeps (by assumption)))))

theorem State.storeKey_keeps {z : State} {s : State} {t : Nat} {g : Nat} {k : BitVec 256} (hs : s.keeps z) :
    (State.storeKey s t g k).keeps z := by
  unfold State.storeKey
  exact State.setKeys_keeps (by assumption)

theorem State.loadKey_keeps {z : State} {s : State} {c : Cmd} {k : BitVec 256} (hs : s.keeps z) :
    (State.loadKey s c k).keeps z := by
  unfold State.loadKey
  dsimp only
  apply keepsIte
  split
  exact keepsIte (State.finish_keeps (by assumption)) (State.finishWith_keeps (by assumption))
  exact State.finish_keeps (State.set_keeps (State.set_keeps (State.modSec_keeps (by assumption))))
  exact keepsIte (State.finish_keeps (State.storeKey_keeps (by assumption))) (State.finishWith_keeps (by assumption))

theorem State.runKeyLoad_keeps {z : State} {s : State} {blob : List Byte} {c : Cmd} (hs : s.keeps z) :
    (State.runKeyLoad s blob c).keeps z := by
  unfold State.runKeyLoad
  dsimp only
  apply keepsIte
  exact State.finishWith_keeps (by assumption)
  apply keepsIte
  exact State.finish_keeps (keepsIte (by assumption) (State.setKeys_keeps (by assumption)))
  apply keepsIte
  exact State.finishWith_keeps (by assumption)
  split
  exact State.loadKey_keeps (by assumption)
  exact State.finishWith_keeps (State.raise_keeps (State.addSat_keeps (by assumption)))

theorem State.dropBundle_keeps {z : State} {s : State} (hs : s.keeps z) :
    (State.dropBundle s).keeps z := by
  unfold State.dropBundle
  dsimp only
  exact State.actCancel_keeps (State.setReg_keeps (State.setReg_keeps (State.setReg_keeps (State.modSec_keeps (by assumption)))))

theorem State.holdChunk_keeps {z : State} {s : State} {index : Nat} {data : List Byte} (hs : s.keeps z) :
    (State.holdChunk s index data).keeps z := by
  unfold State.holdChunk
  dsimp only
  exact State.set_keeps (State.set_keeps (State.set_keeps (State.set_keeps (State.modSec_keeps (by assumption)))))

theorem State.chunk_keeps {z : State} {s : State} {bundle : Nat} {index : Nat} {count : Nat} {len : Nat} {data : List Byte} (hs : s.keeps z) :
    (State.chunk s bundle index count len data).keeps z := by
  unfold State.chunk
  dsimp only
  apply keepsIte
  assumption
  apply keepsIte
  exact State.svcReply_keeps (State.rxMessage_keeps (by assumption))
  apply keepsIte
  exact State.svcReply_keeps (State.rxMessage_keeps (by assumption))
  apply keepsIte
  exact State.svcReply_keeps (keepsIte (State.set_keeps (State.set_keeps (State.dropBundle_keeps (State.rxMessage_keeps (by assumption))))) (State.rxMessage_keeps (by assumption)))
  apply State.svcReply_keeps
  exact State.holdChunk_keeps (keepsIte (State.set_keeps (State.set_keeps (State.dropBundle_keeps (State.rxMessage_keeps (by assumption))))) (State.rxMessage_keeps (by assumption)))

theorem State.eraseNow_keeps {z : State} {s : State} {n : Nat} (hs : s.keeps z) :
    (State.eraseNow s n).keeps z := by
  unfold State.eraseNow
  exact State.journal_keeps (State.eraseSector_keeps (State.journal_keeps (by assumption)))

theorem State.beginComp_keeps {z : State} {s : State} (hs : s.keeps z) :
    (State.beginComp s).keeps z := by
  unfold State.beginComp
  dsimp only
  split
  assumption
  apply State.set_keeps
  apply State.set_keeps
  apply keepsFold
  exact fun _ _ _ => (State.eraseNow_keeps (by assumption))
  exact keepsIte (by assumption) (State.imgPut_keeps (by assumption))

theorem State.beginWrite_keeps {z : State} {s : State} {b : Bundle} (hs : s.keeps z) :
    (State.beginWrite s b).keeps z := by
  unfold State.beginWrite
  dsimp only
  exact State.beginComp_keeps (State.set_keeps (State.modSec_keeps (by assumption)))

theorem State.writeStart_keeps {z : State} {s : State} (hs : s.keeps z) :
    (State.writeStart s).keeps z := by
  unfold State.writeStart
  dsimp only
  apply keepsIte
  split
  assumption
  apply State.beginWrite_keeps
  apply State.modSys_keeps
  apply keepsFold
  exact fun _ _ _ => (State.set_keeps (by assumption))
  exact State.portDown_keeps (State.portDown_keeps (State.egress_keeps (State.egress_keeps (State.disconnectAll_keeps (by assumption)))))
  assumption

theorem State.burnSvn_keeps {z : State} {s : State} (hs : s.keeps z) :
    (State.burnSvn s).keeps z := by
  unfold State.burnSvn
  split
  exact keepsIte (State.extendLife_keeps (State.set_keeps (by assumption))) (by assumption)
  assumption

theorem State.writeOver_keeps {z : State} {s : State} (hs : s.keeps z) :
    (State.writeOver s).keeps z := by
  unfold State.writeOver
  dsimp only
  exact State.deviceReset_keeps (keepsIte (State.changeMode_keeps (State.set_keeps (State.burnSvn_keeps (by assumption)))) (State.burnSvn_keeps (by assumption)))

theorem State.compWritten_keeps {z : State} {s : State} (hs : s.keeps z) :
    (State.compWritten s).keeps z := by
  unfold State.compWritten
  dsimp only
  split
  assumption
  apply keepsIte
  assumption
  apply keepsIte
  apply State.writeOver_keeps
  apply State.modSec_keeps
  apply keepsIte
  exact State.imgPut_keeps (State.modSec_keeps (State.programBytes_keeps (by assumption)))
  exact State.imgPut_keeps (State.modSec_keeps (State.programBytes_keeps (by assumption)))
  apply State.beginComp_keeps
  apply State.modSec_keeps
  apply keepsIte
  exact State.imgPut_keeps (State.modSec_keeps (State.programBytes_keeps (by assumption)))
  exact State.imgPut_keeps (State.modSec_keeps (State.programBytes_keeps (by assumption)))

theorem State.verdict_keeps {z : State} {s : State} (hs : s.keeps z) :
    (State.verdict s).keeps z := by
  unfold State.verdict
  dsimp only
  apply keepsIte
  assumption
  split
  exact State.raise_keeps (State.set_keeps (State.set_keeps (State.set_keeps (by assumption))))
  apply keepsIte
  exact State.beginWrite_keeps (State.set_keeps (State.modSec_keeps (State.set_keeps (by assumption))))
  exact State.set_keeps (State.modSec_keeps (State.set_keeps (by assumption)))

theorem State.runActivateAt_keeps {z : State} {s : State} {c : Cmd} (hs : s.keeps z) :
    (State.runActivateAt s c).keeps z := by
  unfold State.runActivateAt
  dsimp only
  apply keepsIte
  exact State.finish_keeps (State.actCancel_keeps (by assumption))
  exact keepsIte (State.finishWith_keeps (by assumption)) (State.finish_keeps (State.set_keeps (State.setReg_keeps (State.setReg_keeps (State.setReg_keeps (by assumption))))))

/-! ### Security -/

theorem execAttestRequest_keeps {z : State} {p : Path} {e : Entry} {nonce : BitVec 256} {s : State} (hs : s.keeps z) :
    keepsOut z (execAttestRequest p e nonce s) := by
  unfold execAttestRequest
  exact keepsIteOut (keepsNext (State.command_keeps (by assumption) (fun _ _ _ => (State.runAttRequest_keeps (by assumption))))) (keepsNext (by assumption))

theorem execAttestFetch_keeps {z : State} {p : Path} {e : Entry} {s : State} (hs : s.keeps z) :
    keepsOut z (execAttestFetch p e s) := by
  unfold execAttestFetch
  exact keepsIteOut (keepsNext (by assumption)) (keepsNext (State.command_keeps (by assumption) (fun _ _ _ => (State.runAttFetch_keeps (by assumption)))))

theorem execQuoteSigned_keeps {z : State} {signature : List Byte} {s : State} (hs : s.keeps z) :
    keepsOut z (execQuoteSigned signature s) := by
  unfold execQuoteSigned
  exact keepsNext (State.quoteSigned_keeps (by assumption))

theorem execKeyLoad_keeps {z : State} {p : Path} {e : Entry} {blob : List Byte} {s : State} (hs : s.keeps z) :
    keepsOut z (execKeyLoad p e blob s) := by
  unfold execKeyLoad
  exact keepsNext (State.command_keeps (by assumption) (fun _ _ _ => (State.runKeyLoad_keeps (by assumption))))

theorem execActivateAt_keeps {z : State} {p : Path} {e : Entry} {s : State} (hs : s.keeps z) :
    keepsOut z (execActivateAt p e s) := by
  unfold execActivateAt
  exact keepsNext (State.command_keeps (by assumption) (fun _ _ _ => (State.runActivateAt_keeps (by assumption))))

theorem execGetChallenge_keeps {z : State} {s : State} (hs : s.keeps z) :
    keepsOut z (execGetChallenge s) := by
  unfold execGetChallenge
  apply keepsIteOut
  exact keepsNext (by assumption)
  exact keepsIteOut (keepsNext (State.svcReply_keeps (by assumption))) (keepsNext (State.newChallenge_keeps (State.rxMessage_keeps (by assumption))))

theorem execToField_keeps {z : State} {confirm : Word} {fuseOk : Bool} {s : State} (hs : s.keeps z) :
    keepsOut z (execToField confirm fuseOk s) := by
  unfold execToField
  exact keepsNext (State.lcOrder_keeps (by assumption) (fun _ _ => (State.toField_keeps (by assumption))))

theorem execIssue_keeps {z : State} {fuseOk : Bool} {s : State} (hs : s.keeps z) :
    keepsOut z (execIssue fuseOk s) := by
  unfold execIssue
  exact keepsNext (State.applyToken_keeps (by assumption) (fun _ _ _ => (State.issue_keeps (by assumption))))

theorem execReturnPart_keeps {z : State} {fuseOk : Bool} {s : State} (hs : s.keeps z) :
    keepsOut z (execReturnPart fuseOk s) := by
  unfold execReturnPart
  exact keepsNext (State.applyToken_keeps (by assumption) (fun _ _ _ => (State.returnPart_keeps (by assumption))))

theorem execDebugOpen_keeps {z : State} {s : State} (hs : s.keeps z) :
    keepsOut z (execDebugOpen s) := by
  unfold execDebugOpen
  exact keepsNext (State.applyToken_keeps (by assumption) (fun _ _ _ => (State.debugOpen_keeps (by assumption))))

theorem execRevokeSlot_keeps {z : State} {fuseOk : Bool} {s : State} (hs : s.keeps z) :
    keepsOut z (execRevokeSlot fuseOk s) := by
  unfold execRevokeSlot
  exact keepsNext (State.applyToken_keeps (by assumption) (fun _ _ _ => (State.revokeSlot_keeps (by assumption))))

theorem execUpdChunk_keeps {z : State} {bundle : Word} {index : Word} {count : Word} {dataLen : BitVec 16} {data : List Byte} {s : State} (hs : s.keeps z) :
    keepsOut z (execUpdChunk bundle index count dataLen data s) := by
  unfold execUpdChunk
  exact keepsNext (State.chunk_keeps (by assumption))

theorem execBundleVerdict_keeps {z : State} {s : State} (hs : s.keeps z) :
    keepsOut z (execBundleVerdict s) := by
  unfold execBundleVerdict
  exact keepsNext (State.verdict_keeps (by assumption))

theorem execActivationWriteStart_keeps {z : State} {s : State} (hs : s.keeps z) :
    keepsOut z (execActivationWriteStart s) := by
  unfold execActivationWriteStart
  exact keepsNext (State.writeStart_keeps (by assumption))

theorem execComponentWritten_keeps {z : State} {s : State} (hs : s.keeps z) :
    keepsOut z (execComponentWritten s) := by
  unfold execComponentWritten
  exact keepsNext (State.compWritten_keeps (by assumption))

theorem execTrngFail_keeps {z : State} {test : BitVec 16} {s : State} (hs : s.keeps z) :
    keepsOut z (execTrngFail test s) := by
  unfold execTrngFail
  exact keepsNext (State.raise_keeps (by assumption))

/-! ### TickOps -/

theorem State.epochEnd_keeps {z : State} {s : State} (hs : s.keeps z) :
    (State.epochEnd s).keeps z := by
  unfold State.epochEnd
  dsimp only
  exact State.epochApply_keeps (State.when_keeps (State.set_keeps (State.set_keeps (State.incWrap_keeps (keepsMk (by assumption))))) (fun _ _ => (State.addSat_keeps (by assumption))))

theorem State.epochEndsAt_keeps {z : State} {s : State} {at_ : Nat} (hs : s.keeps z) :
    (State.epochEndsAt s at_).keeps z := by
  unfold State.epochEndsAt
  dsimp only
  exact keepsIte (keepsIte (State.epochEnd_keeps (State.set_keeps (by assumption))) (by assumption)) (keepsMk (State.set_keeps (by assumption)))

theorem State.rephase_keeps {z : State} {s : State} {at_ : Nat} {phase : Int} (hs : s.keeps z) :
    (State.rephase s at_ phase).keeps z := by
  unfold State.rephase
  dsimp only
  exact keepsIte (keepsIte (State.epochEndsAt_keeps (State.set_keeps (keepsMk (by assumption)))) (State.set_keeps (State.set_keeps (keepsMk (by assumption))))) (keepsMk (by assumption))

theorem State.phaseMeasured_keeps {z : State} {s : State} {phase : Int} {rate : Word} (hs : s.keeps z) :
    (State.phaseMeasured s phase rate).keeps z := by
  unfold State.phaseMeasured
  dsimp only
  apply keepsIte
  exact State.set_keeps (keepsMk (keepsIte (State.set_keeps (keepsMk (State.setReg_keeps (by assumption)))) (State.setReg_keeps (State.setReg_keeps (by assumption)))))
  apply keepsIte
  exact State.set_keeps (keepsMk (keepsIte (State.set_keeps (keepsMk (State.setReg_keeps (by assumption)))) (State.setReg_keeps (State.setReg_keeps (by assumption)))))
  exact keepsMk (keepsIte (State.set_keeps (keepsMk (State.setReg_keeps (by assumption)))) (State.setReg_keeps (State.setReg_keeps (by assumption))))

theorem State.secondPasses_keeps {z : State} {s : State} {phase : Int} {rate : Word} {sec : Nat} (hs : s.keeps z) :
    (State.secondPasses s phase rate sec).keeps z := by
  unfold State.secondPasses
  dsimp only
  apply keepsIte
  exact keepsIte (State.phaseMeasured_keeps (keepsMk (by assumption))) (keepsMk (by assumption))
  apply keepsIte
  apply keepsIte
  exact State.epochEndsAt_keeps (keepsIte (State.phaseMeasured_keeps (keepsMk (by assumption))) (keepsMk (by assumption)))
  exact keepsIte (State.phaseMeasured_keeps (keepsMk (by assumption))) (keepsMk (by assumption))
  apply keepsIte
  exact State.rephase_keeps (keepsIte (State.phaseMeasured_keeps (keepsMk (by assumption))) (keepsMk (by assumption)))
  exact keepsIte (State.phaseMeasured_keeps (keepsMk (by assumption))) (keepsMk (by assumption))

theorem State.slotTick_keeps {z : State} {s : State} (hs : s.keeps z) :
    (State.slotTick s).keeps z := by
  unfold State.slotTick
  exact State.maxIn_keeps (by assumption)

theorem State.pickerRequests_keeps {z : State} {s : State} (hs : s.keeps z) :
    (State.pickerRequests s).keeps z := by
  unfold State.pickerRequests
  dsimp only
  apply keepsFold
  exact fun _ _ _ => (keepsIte (State.modArb_keeps (by assumption)) (by assumption))
  exact State.modMag_keeps (by assumption)

theorem State.pickerRound_keeps {z : State} {s0 : State} (hs : s0.keeps z) :
    (State.pickerRound s0).keeps z := by
  unfold State.pickerRound
  dsimp only
  apply keepsIte
  exact State.pickerRequests_keeps (by assumption)
  apply keepsIte
  apply keepsIte
  exact State.set_keeps (keepsIte (State.set_keeps (State.pickerRequests_keeps (by assumption))) (State.pickerRequests_keeps (by assumption)))
  exact keepsIte (State.set_keeps (State.pickerRequests_keeps (by assumption))) (State.pickerRequests_keeps (by assumption))
  split
  apply State.magStart_keeps
  with_reducible apply keepsMk
  apply State.set_keeps
  apply State.set_keeps
  apply keepsIte
  exact State.set_keeps (keepsIte (State.set_keeps (State.pickerRequests_keeps (by assumption))) (State.pickerRequests_keeps (by assumption)))
  exact keepsIte (State.set_keeps (State.pickerRequests_keeps (by assumption))) (State.pickerRequests_keeps (by assumption))
  apply keepsIte
  exact State.set_keeps (keepsIte (State.set_keeps (State.pickerRequests_keeps (by assumption))) (State.pickerRequests_keeps (by assumption)))
  exact keepsIte (State.set_keeps (State.pickerRequests_keeps (by assumption))) (State.pickerRequests_keeps (by assumption))

theorem State.maintRound_keeps {z : State} {s : State} {st : Nat} (hs : s.keeps z) :
    (State.maintRound s st).keeps z := by
  unfold State.maintRound
  dsimp only
  apply keepsIte
  exact keepsIte (by assumption) (State.addJob_keeps (by assumption))
  exact keepsIte (State.idleStn_keeps (by assumption)) (keepsIte (State.dropJobs_keeps (by assumption)) (by assumption))

theorem State.arbTick_keeps {z : State} {s : State} (hs : s.keeps z) :
    (State.arbTick s).keeps z := by
  unfold State.arbTick
  dsimp only
  apply State.magFocusTick_keeps
  apply State.magHomingTick_keeps
  apply State.pickerRound_keeps
  apply State.workStn_keeps
  apply State.workStn_keeps
  apply keepsIte
  apply keepsIte
  apply State.maintRound_keeps
  apply State.maintRound_keeps
  exact State.calQueue_keeps (State.calQueue_keeps (State.rebuildTick_keeps (State.serviceTick_keeps (State.serviceTick_keeps (State.slotTick_keeps (by assumption))))))
  apply State.stnRound_keeps
  apply State.maintRound_keeps
  apply State.maintRound_keeps
  exact State.calQueue_keeps (State.calQueue_keeps (State.rebuildTick_keeps (State.serviceTick_keeps (State.serviceTick_keeps (State.slotTick_keeps (by assumption))))))
  apply State.stnRound_keeps
  apply keepsIte
  apply State.maintRound_keeps
  apply State.maintRound_keeps
  exact State.calQueue_keeps (State.calQueue_keeps (State.rebuildTick_keeps (State.serviceTick_keeps (State.serviceTick_keeps (State.slotTick_keeps (by assumption))))))
  apply State.stnRound_keeps
  apply State.maintRound_keeps
  apply State.maintRound_keeps
  exact State.calQueue_keeps (State.calQueue_keeps (State.rebuildTick_keeps (State.serviceTick_keeps (State.serviceTick_keeps (State.slotTick_keeps (by assumption))))))

theorem State.arbShow_keeps {z : State} {s : State} (hs : s.keeps z) :
    (State.arbShow s).keeps z := by
  unfold State.arbShow
  dsimp only
  apply State.set_keeps
  apply keepsFold
  exact fun _ _ _ => (State.set_keeps (State.set_keeps (State.set_keeps (by assumption))))
  assumption

theorem State.charge_keeps {z : State} {s : State} {t : Nat} {e : Rat} (hs : s.keeps z) :
    (State.charge s t e).keeps z := by
  unfold State.charge
  exact keepsIte (by assumption) (State.modAcct_keeps (by assumption))

theorem State.meterTick_keeps {z : State} {x : Samples} {s : State} (hs : s.keeps z) :
    (State.meterTick x s).keeps z := by
  unfold State.meterTick
  dsimp only
  apply keepsIte
  assumption
  apply keepsFold
  intro _ _ _
  split
  exact State.modAcct_keeps (by assumption)
  assumption
  apply keepsFold
  exact fun _ _ _ => (State.setInt_keeps (State.set_keeps (by assumption)))
  with_reducible apply keepsMk
  apply State.charge_keeps
  apply keepsFold
  exact fun _ _ _ => (State.charge_keeps (by assumption))
  assumption

theorem State.usedTick_keeps {z : State} {s : State} (hs : s.keeps z) :
    (State.usedTick s).keeps z := by
  unfold State.usedTick
  dsimp only
  apply keepsFold
  intro _ _ _
  split
  exact keepsIte (by assumption) (keepsMk (by assumption))
  assumption
  assumption

theorem State.progressTick_keeps {z : State} {s : State} (hs : s.keeps z) :
    (State.progressTick s).keeps z := by
  unfold State.progressTick
  apply keepsFold
  exact fun _ _ _ => (State.modPlc_keeps (State.tell_keeps (by assumption)))
  assumption

theorem State.hintOne_keeps {z : State} {s : State} {c : Cmd} (hs : s.keeps z) :
    (State.hintOne s c).keeps z := by
  unfold State.hintOne
  dsimp only
  split
  assumption
  exact keepsIte (State.rehint_keeps (by assumption)) (by assumption)

theorem State.hintTick_keeps {z : State} {s : State} (hs : s.keeps z) :
    (State.hintTick s).keeps z := by
  unfold State.hintTick
  apply keepsIte
  apply keepsFold
  exact fun _ _ _ => (State.hintOne_keeps (by assumption))
  assumption
  assumption

theorem State.waitedWrite_keeps {z : State} {s : State} {w : Path × Nat × Word} (hs : s.keeps z) :
    (State.waitedWrite s w).keeps z := by
  unfold State.waitedWrite
  dsimp only
  apply keepsIte
  exact State.writePage_keeps (by assumption)
  split
  exact State.finishWith_keeps (keepsMk (State.writePage_keeps (by assumption)))
  exact keepsMk (State.writePage_keeps (by assumption))

theorem State.waitedWrites_keeps {z : State} {s : State} (hs : s.keeps z) :
    (State.waitedWrites s).keeps z := by
  unfold State.waitedWrites
  dsimp only
  apply keepsFold
  exact fun _ _ _ => (State.waitedWrite_keeps (by assumption))
  exact keepsMk (by assumption)

theorem State.boundaryFaults_keeps {z : State} {s : State} {ok : Bool} (hs : s.keeps z) :
    (State.boundaryFaults s ok).keeps z := by
  unfold State.boundaryFaults
  dsimp only
  exact State.stnShow_keeps (State.stnShow_keeps (keepsMk (State.react_keeps (keepsMk (State.collect_keeps (State.selfCheck_keeps (keepsMk (by assumption))))))))

theorem State.beginTick_keeps {z : State} {s : State} {x : Samples} (hs : s.keeps z) :
    (State.beginTick s x).keeps z := by
  unfold State.beginTick
  dsimp only
  exact keepsMk (by assumption)

theorem State.boundary_keeps {z : State} {s : State} {ok : Bool} (hs : s.keeps z) :
    (State.boundary s ok).keeps z := by
  unfold State.boundary
  dsimp only
  apply State.when_keeps
  apply State.waitedWrites_keeps
  apply State.applyWbuf_keeps
  apply keepsFold
  exact fun _ _ _ => (State.applyTxn_keeps (by assumption))
  exact State.modeTick_keeps (State.boundaryFaults_keeps (by assumption))
  exact fun _ _ => (State.epochEnd_keeps (by assumption))

theorem State.coreTick_keeps {z : State} {x : Samples} {s : State} (hs : s.keeps z) :
    (State.coreTick x s).keeps z := by
  unfold State.coreTick
  dsimp only
  apply State.traceTicks_keeps
  apply keepsFold
  exact fun _ _ _ => (State.rampTick_keeps (by assumption))
  apply State.phaseTick_keeps
  apply State.phaseTick_keeps
  apply State.runSchedule_keeps
  apply State.magInputs_keeps
  apply keepsFold
  exact fun _ _ _ => (State.stepperTick_keeps (by assumption))
  apply keepsFold
  exact fun _ _ _ => (State.followTick_keeps (by assumption))
  apply keepsFold
  exact fun _ _ _ => (State.axTick_keeps (by assumption))
  apply State.chnTick_keeps
  apply keepsFold
  exact fun _ _ _ => (State.puTick_keeps (by assumption))
  exact State.spnTick_keeps (State.spnTick_keeps (State.pwrTick_keeps (by assumption)))

theorem State.shellTick_keeps {z : State} {x : Samples} {s : State} (hs : s.keeps z) :
    (State.shellTick x s).keeps z := by
  unfold State.shellTick
  dsimp only
  apply State.arbShow_keeps
  apply State.setFlag_keeps
  apply State.writeStart_keeps
  apply State.mr4Tick_keeps
  apply State.scrubTick_keeps
  exact State.progressTick_keeps (State.hintTick_keeps (State.usedTick_keeps (State.meterTick_keeps (State.arbTick_keeps (State.netTick_keeps (by assumption))))))

theorem State.tickPasses_keeps {z : State} {s : State} {x : Samples} (hs : s.keeps z) :
    (State.tickPasses s x).keeps z := by
  unfold State.tickPasses
  exact keepsIte (by assumption) (keepsIte (keepsMk (by assumption)) (State.shellTick_keeps (State.coreTick_keeps (State.boundary_keeps (State.beginTick_keeps (by assumption))))))

/-! ### Tick -/

theorem execTickBoundary_keeps {z : State} {x : Samples} {s : State} (hs : s.keeps z) :
    keepsOut z (execTickBoundary x s) := by
  unfold execTickBoundary
  exact keepsNext (State.tickPasses_keeps (by assumption))

theorem execPtpSecond_keeps {z : State} {phase : BitVec 32} {rate : BitVec 32} {sec : BitVec 48} {s : State} (hs : s.keeps z) :
    keepsOut z (execPtpSecond phase rate sec s) := by
  unfold execPtpSecond
  exact keepsNext (keepsIte (State.secondPasses_keeps (by assumption)) (by assumption))

theorem execEpochBoundary_keeps {z : State} {s : State} (hs : s.keeps z) :
    keepsOut z (execEpochBoundary s) := by
  unfold execEpochBoundary
  exact keepsNext (keepsIte (State.epochEnd_keeps (by assumption)) (by assumption))

/-! ### Dispatch -/

theorem exec_keeps {z : State} {i : Instr} {s : State} (hs : s.keeps z) :
    keepsOut z (exec i s) := by
  unfold exec
  split
  exact execPowerOnReset_keeps (by assumption)
  exact execResetPin_keeps (by assumption)
  exact execWatchdogReset_keeps (by assumption)
  exact execBrownout_keeps (by assumption)
  exact execPowerGood_keeps (by assumption)
  exact execJackStageDone_keeps (by assumption)
  exact execBootComplete_keeps (by assumption)
  exact execPortLinkUp_keeps (by assumption)
  exact execPortLinkDown_keeps (by assumption)
  exact execLinkHiSer_keeps (by assumption)
  exact execPortEnable_keeps (by assumption)
  exact execD2dFlitCrcFail_keeps (by assumption)
  exact execD2dLinkLoss_keeps (by assumption)
  exact execTickBoundary_keeps (by assumption)
  exact execTickOverrun_keeps (by assumption)
  exact execFollowErr_keeps (by assumption)
  exact execPtpSecond_keeps (by assumption)
  exact execPtpValidityChange_keeps (by assumption)
  exact execEpochBoundary_keeps (by assumption)
  exact execMeterMinuteClose_keeps (by assumption)
  exact execSyncInPulse_keeps (by assumption)
  exact execSyncTimeout_keeps (by assumption)
  exact execCeAuxEnable_keeps (by assumption)
  exact execCePageWrite_keeps (by assumption)
  exact execWbufGate_keeps (by assumption)
  exact execTraceArm_keeps (by assumption)
  exact execTraceForce_keeps (by assumption)
  exact execTraceAck_keeps (by assumption)
  exact execTraceDone_keeps (by assumption)
  exact execTraceRdataRead_keeps (by assumption)
  exact execLatchedPairRead_keeps (by assumption)
  exact execIndexDataAccess_keeps (by assumption)
  exact execModeReqProvision_keeps (by assumption)
  exact execModeReqServe_keeps (by assumption)
  exact execModeReqDrain_keeps (by assumption)
  exact execModeReqMaintain_keeps (by assumption)
  exact execModeReqOther_keeps (by assumption)
  exact execModeRequestDecide_keeps (by assumption)
  exact execDrainComplete_keeps (by assumption)
  exact execActivationInstant_keeps (by assumption)
  exact execActDrainTmo_keeps (by assumption)
  exact execSafeStopBridgesOff_keeps (by assumption)
  exact execSysRst_keeps (by assumption)
  exact execRecoveringEnd_keeps (by assumption)
  exact execAcquire_keeps (by assumption)
  exact execLayerJump_keeps (by assumption)
  exact execSeek_keeps (by assumption)
  exact execOpuPark_keeps (by assumption)
  exact execReadMode_keeps (by assumption)
  exact execWriteMode_keeps (by assumption)
  exact execOpuEnable_keeps (by assumption)
  exact execWiForce_keeps (by assumption)
  exact execFocusCapture_keeps (by assumption)
  exact execFocusSweepEnd_keeps (by assumption)
  exact execSaSettleDone_keeps (by assumption)
  exact execLjCapture_keeps (by assumption)
  exact execLayerJumpDone_keeps (by assumption)
  exact execLjTimeout_keeps (by assumption)
  exact execSeekComplete_keeps (by assumption)
  exact execServoField_keeps (by assumption)
  exact execSfieldLoss_keeps (by assumption)
  exact execDefectDropoutStart_keeps (by assumption)
  exact execDefectDropoutEnd_keeps (by assumption)
  exact execDefectHoldExpiry_keeps (by assumption)
  exact execReacqDone_keeps (by assumption)
  exact execLensRange_keeps (by assumption)
  exact execWriteInhibit_keeps (by assumption)
  exact execWriteInhibitRearm_keeps (by assumption)
  exact execLaserFault_keeps (by assumption)
  exact execPuOvertemp_keeps (by assumption)
  exact execFrameReceived_keeps (by assumption)
  exact execLdpcAttemptDone_keeps (by assumption)
  exact execLadderRungDone_keeps (by assumption)
  exact execRelocationWrite_keeps (by assumption)
  exact execExtentWriteStart_keeps (by assumption)
  exact execOpcDone_keeps (by assumption)
  exact execOpcAck_keeps (by assumption)
  exact execOpcStatRead_keeps (by assumption)
  exact execVerifyVerdict_keeps (by assumption)
  exact execCommitRecordVerdict_keeps (by assumption)
  exact execWriteFrontSearch_keeps (by assumption)
  exact execIndexFrameWrite_keeps (by assumption)
  exact execIndexAgeExpiry_keeps (by assumption)
  exact execSpin_keeps (by assumption)
  exact execSpnStop_keeps (by assumption)
  exact execCoast_keeps (by assumption)
  exact execSpnEnable_keeps (by assumption)
  exact execAlignDone_keeps (by assumption)
  exact execEncoderIndex_keeps (by assumption)
  exact execEncLost_keeps (by assumption)
  exact execObserverInvalid_keeps (by assumption)
  exact execRotorDisagree_keeps (by assumption)
  exact execRotorLost_keeps (by assumption)
  exact execRecatchSuccess_keeps (by assumption)
  exact execRecatchTimeout_keeps (by assumption)
  exact execShortBrakeStart_keeps (by assumption)
  exact execShortBrakeEnd_keeps (by assumption)
  exact execSpnOvercurrent_keeps (by assumption)
  exact execAtSpeed_keeps (by assumption)
  exact execStopped_keeps (by assumption)
  exact execSpinTmo_keeps (by assumption)
  exact execKeCheck_keeps (by assumption)
  exact execVbusThreshold_keeps (by assumption)
  exact execVbus90v_keeps (by assumption)
  exact execUvlo_keeps (by assumption)
  exact execHoldupEnd_keeps (by assumption)
  exact execChopperTestPulse_keeps (by assumption)
  exact execBrkStuck_keeps (by assumption)
  exact execVinReverse_keeps (by assumption)
  exact execVinReverseClear_keeps (by assumption)
  exact execBrkHot_keeps (by assumption)
  exact execRailFault_keeps (by assumption)
  exact execTjThreshold_keeps (by assumption)
  exact execTjHwTrip_keeps (by assumption)
  exact execAxStart_keeps (by assumption)
  exact execAxStop_keeps (by assumption)
  exact execEstop_keeps (by assumption)
  exact execAxHome_keeps (by assumption)
  exact execAxPark_keeps (by assumption)
  exact execAxMode_keeps (by assumption)
  exact execAxEnable_keeps (by assumption)
  exact execAxProfileWrite_keeps (by assumption)
  exact execAxMoveDone_keeps (by assumption)
  exact execAxOvercurrent_keeps (by assumption)
  exact execLimitSwitchChange_keeps (by assumption)
  exact execLimitChatter_keeps (by assumption)
  exact execAxDetent_keeps (by assumption)
  exact execGearChange_keeps (by assumption)
  exact execHomeAll_keeps (by assumption)
  exact execMoveZx_keeps (by assumption)
  exact execLoad_keeps (by assumption)
  exact execUnload_keeps (by assumption)
  exact execExchange_keeps (by assumption)
  exact execRecover_keeps (by assumption)
  exact execExchangeStepDone_keeps (by assumption)
  exact execGripFail_keeps (by assumption)
  exact execPickerWdog_keeps (by assumption)
  exact execUnitPlace_keeps (by assumption)
  exact execHintReq_keeps (by assumption)
  exact execHint_keeps (by assumption)
  exact execBidReq_keeps (by assumption)
  exact execBid_keeps (by assumption)
  exact execBidTimeout_keeps (by assumption)
  exact execAward_keeps (by assumption)
  exact execPeerData_keeps (by assumption)
  exact execDataAck_keeps (by assumption)
  exact execDataRetransmit_keeps (by assumption)
  exact execProgress_keeps (by assumption)
  exact execPeerCommitted_keeps (by assumption)
  exact execPeerFailed_keeps (by assumption)
  exact execProgTmo_keeps (by assumption)
  exact execReadReq_keeps (by assumption)
  exact execNack_keeps (by assumption)
  exact execTomb_keeps (by assumption)
  exact execTombAck_keeps (by assumption)
  exact execHintTimeout_keeps (by assumption)
  exact execPeerDownHoldExpiry_keeps (by assumption)
  exact execRereplicationStart_keeps (by assumption)
  exact execRebuildDisc_keeps (by assumption)
  exact execUnreachedSlotRebuild_keeps (by assumption)
  exact execMigrationStart_keeps (by assumption)
  exact execMigrationStop_keeps (by assumption)
  exact execHostFrameRx_keeps (by assumption)
  exact execPfcFrameRx_keeps (by assumption)
  exact execLearnAgeOut_keeps (by assumption)
  exact execNeighbourAgeOut_keeps (by assumption)
  exact execAnnounceTimer_keeps (by assumption)
  exact execPtpMessageRx_keeps (by assumption)
  exact execPtpAnnounceTimeout_keeps (by assumption)
  exact execRoceSend_keeps (by assumption)
  exact execRoceAckRx_keeps (by assumption)
  exact execRdmaReadResponse_keeps (by assumption)
  exact execRoceRetryExhausted_keeps (by assumption)
  exact execCnpRx_keeps (by assumption)
  exact execDcqcnAlphaTimer_keeps (by assumption)
  exact execDcqcnRateTimer_keeps (by assumption)
  exact execCmReq_keeps (by assumption)
  exact execCmRtu_keeps (by assumption)
  exact execCmDreq_keeps (by assumption)
  exact execCmDrep_keeps (by assumption)
  exact execSvcPlca_keeps (by assumption)
  exact execPut_keeps (by assumption)
  exact execGet_keeps (by assumption)
  exact execSeal_keeps (by assumption)
  exact execDelete_keeps (by assumption)
  exact execDeleteTenant_keeps (by assumption)
  exact execFlush_keeps (by assumption)
  exact execFlushAll_keeps (by assumption)
  exact execStat_keeps (by assumption)
  exact execList_keeps (by assumption)
  exact execReserve_keeps (by assumption)
  exact execQueueRestart_keeps (by assumption)
  exact execIdentify_keeps (by assumption)
  exact execSelfTestShort_keeps (by assumption)
  exact execSelfTestExtended_keeps (by assumption)
  exact execSelfTestAbort_keeps (by assumption)
  exact execSelfTestStep_keeps (by assumption)
  exact execSelfTestAck_keeps (by assumption)
  exact execGetLog_keeps (by assumption)
  exact execMeterRead_keeps (by assumption)
  exact execMeterAck_keeps (by assumption)
  exact execAttestRequest_keeps (by assumption)
  exact execAttestFetch_keeps (by assumption)
  exact execQuoteSigned_keeps (by assumption)
  exact execRegRead_keeps (by assumption)
  exact execRegWrite_keeps (by assumption)
  exact execTxnBegin_keeps (by assumption)
  exact execTxnCommit_keeps (by assumption)
  exact execTxnApply_keeps (by assumption)
  exact execTxnRollback_keeps (by assumption)
  exact execTxnTimeout_keeps (by assumption)
  exact execKeyLoad_keeps (by assumption)
  exact execCalSave_keeps (by assumption)
  exact execCalLoad_keeps (by assumption)
  exact execCalLoadApply_keeps (by assumption)
  exact execActivateAt_keeps (by assumption)
  exact execDeferredCommandStart_keeps (by assumption)
  exact execJobEnd_keeps (by assumption)
  exact execParkTimeout_keeps (by assumption)
  exact execStnWdog_keeps (by assumption)
  exact execInvLine_keeps (by assumption)
  exact execInvRange_keeps (by assumption)
  exact execInvAll_keeps (by assumption)
  exact execLock_keeps (by assumption)
  exact execUnlock_keeps (by assumption)
  exact execUnlockAll_keeps (by assumption)
  exact execCchMaintDone_keeps (by assumption)
  exact execCacheRead_keeps (by assumption)
  exact execCacheWrite_keeps (by assumption)
  exact execCacheFillDone_keeps (by assumption)
  exact execDramRead_keeps (by assumption)
  exact execDramPartialWrite_keeps (by assumption)
  exact execSramRead_keeps (by assumption)
  exact execWriteRaw_keeps (by assumption)
  exact execReadRaw_keeps (by assumption)
  exact execReadCorr_keeps (by assumption)
  exact execFlashRead_keeps (by assumption)
  exact execFlashCheck_keeps (by assumption)
  exact execFlashBlankCheck_keeps (by assumption)
  exact execFlashProgram_keeps (by assumption)
  exact execFlashErase_keeps (by assumption)
  exact execFlashOpDone_keeps (by assumption)
  exact execFlCmplRead_keeps (by assumption)
  exact execFlRefreshStart_keeps (by assumption)
  exact execFlRefreshStop_keeps (by assumption)
  exact execFlashRefreshDue_keeps (by assumption)
  exact execCalStart_keeps (by assumption)
  exact execCalAbort_keeps (by assumption)
  exact execCalAck_keeps (by assumption)
  exact execCalProcedureDone_keeps (by assumption)
  exact execAutoCampaignStart_keeps (by assumption)
  exact execFaultMessage_keeps (by assumption)
  exact execStnHoldExpiry_keeps (by assumption)
  exact execFltStnRel_keeps (by assumption)
  exact execFltInject_keeps (by assumption)
  exact execFltSevWrite_keeps (by assumption)
  exact execFallbackMessage_keeps (by assumption)
  exact execHedgehogSlice_keeps (by assumption)
  exact execHedgehogCycleStart_keeps (by assumption)
  exact execRunNow_keeps (by assumption)
  exact execBistScanStart_keeps (by assumption)
  exact execOwlFreeze_keeps (by assumption)
  exact execOwlRelease_keeps (by assumption)
  exact execOwlFlushAck_keeps (by assumption)
  exact execOwlMark_keeps (by assumption)
  exact execGetChallenge_keeps (by assumption)
  exact execToField_keeps (by assumption)
  exact execIssue_keeps (by assumption)
  exact execReturnPart_keeps (by assumption)
  exact execDebugOpen_keeps (by assumption)
  exact execRevokeSlot_keeps (by assumption)
  exact execMetaMessage_keeps (by assumption)
  exact execUpdChunk_keeps (by assumption)
  exact execBundleVerdict_keeps (by assumption)
  exact execActivationWriteStart_keeps (by assumption)
  exact execComponentWritten_keeps (by assumption)
  exact execTrngFail_keeps (by assumption)
  exact execLogicScanEnd_keeps (by assumption)
  exact execPeerReadTimeout_keeps (by assumption)
  exact execAutoNegotiationDone_keeps (by assumption)
  exact execLinkTrainingDone_keeps (by assumption)
  exact execServicePhyLinkChange_keeps (by assumption)
  exact execAckTimeoutRetry_keeps (by assumption)
  exact execCalResRead_keeps (by assumption)
  exact execBistScanStatRead_keeps (by assumption)

end Sys2Proof.Machine
end

