-- ==== Sys2Proof/Laws/State.lean ====
section
/-!
SUPPORT. One lemma per field per update of the state, each true by unfolding: what an update leaves alone, and how
registers and their fields read after an update of another record.
-/

namespace Sys2Proof.Machine

open Sys2Proof

variable (s : State)

/-! ### setReg -/

@[simp] theorem State.setReg_tick (a : Nat) (v : Word) : (s.setReg a v).tick = s.tick := rfl
@[simp] theorem State.setReg_pending (a : Nat) (v : Word) : (s.setReg a v).pending = s.pending := rfl
@[simp] theorem State.setReg_free (a : Nat) (v : Word) : (s.setReg a v).free = s.free := rfl
@[simp] theorem State.setReg_wstat (a : Nat) (v : Word) : (s.setReg a v).wstat = s.wstat := rfl
@[simp] theorem State.setReg_rdata (a : Nat) (v : Word) : (s.setReg a v).rdata = s.rdata := rfl
@[simp] theorem State.setReg_latch (a : Nat) (v : Word) : (s.setReg a v).latch = s.latch := rfl
@[simp] theorem State.setReg_sys (a : Nat) (v : Word) : (s.setReg a v).sys = s.sys := rfl
@[simp] theorem State.setReg_ce (a : Nat) (v : Word) : (s.setReg a v).ce = s.ce := rfl
@[simp] theorem State.setReg_pu (a : Nat) (v : Word) : (s.setReg a v).pu = s.pu := rfl
@[simp] theorem State.setReg_flt (a : Nat) (v : Word) : (s.setReg a v).flt = s.flt := rfl
@[simp] theorem State.setReg_bist (a : Nat) (v : Word) : (s.setReg a v).bist = s.bist := rfl
@[simp] theorem State.setReg_owl (a : Nat) (v : Word) : (s.setReg a v).owl = s.owl := rfl
@[simp] theorem State.setReg_txn (a : Nat) (v : Word) : (s.setReg a v).txn = s.txn := rfl
@[simp] theorem State.setReg_cal (a : Nat) (v : Word) : (s.setReg a v).cal = s.cal := rfl
@[simp] theorem State.setReg_ax (a : Nat) (v : Word) : (s.setReg a v).ax = s.ax := rfl
@[simp] theorem State.setReg_mag (a : Nat) (v : Word) : (s.setReg a v).mag = s.mag := rfl
@[simp] theorem State.setReg_stn (a : Nat) (v : Word) : (s.setReg a v).stn = s.stn := rfl
@[simp] theorem State.setReg_pwr (a : Nat) (v : Word) : (s.setReg a v).pwr = s.pwr := rfl
@[simp] theorem State.setReg_net (a : Nat) (v : Word) : (s.setReg a v).net = s.net := rfl
@[simp] theorem State.setReg_cmd (a : Nat) (v : Word) : (s.setReg a v).cmd = s.cmd := rfl
@[simp] theorem State.setReg_mem (a : Nat) (v : Word) : (s.setReg a v).mem = s.mem := rfl
@[simp] theorem State.setReg_cch (a : Nat) (v : Word) : (s.setReg a v).cch = s.cch := rfl
@[simp] theorem State.setReg_flash (a : Nat) (v : Word) : (s.setReg a v).flash = s.flash := rfl
@[simp] theorem State.setReg_plc (a : Nat) (v : Word) : (s.setReg a v).plc = s.plc := rfl
@[simp] theorem State.setReg_chn (a : Nat) (v : Word) : (s.setReg a v).chn = s.chn := rfl
@[simp] theorem State.setReg_arb (a : Nat) (v : Word) : (s.setReg a v).arb = s.arb := rfl
@[simp] theorem State.setReg_mtr (a : Nat) (v : Word) : (s.setReg a v).mtr = s.mtr := rfl
@[simp] theorem State.setReg_sec (a : Nat) (v : Word) : (s.setReg a v).sec = s.sec := rfl

/-! ### set -/

@[simp] theorem State.set_tick (f : Fld) (v : Nat) : (s.set f v).tick = s.tick := rfl
@[simp] theorem State.set_pending (f : Fld) (v : Nat) : (s.set f v).pending = s.pending := rfl
@[simp] theorem State.set_free (f : Fld) (v : Nat) : (s.set f v).free = s.free := rfl
@[simp] theorem State.set_wstat (f : Fld) (v : Nat) : (s.set f v).wstat = s.wstat := rfl
@[simp] theorem State.set_rdata (f : Fld) (v : Nat) : (s.set f v).rdata = s.rdata := rfl
@[simp] theorem State.set_latch (f : Fld) (v : Nat) : (s.set f v).latch = s.latch := rfl
@[simp] theorem State.set_sys (f : Fld) (v : Nat) : (s.set f v).sys = s.sys := rfl
@[simp] theorem State.set_ce (f : Fld) (v : Nat) : (s.set f v).ce = s.ce := rfl
@[simp] theorem State.set_pu (f : Fld) (v : Nat) : (s.set f v).pu = s.pu := rfl
@[simp] theorem State.set_flt (f : Fld) (v : Nat) : (s.set f v).flt = s.flt := rfl
@[simp] theorem State.set_bist (f : Fld) (v : Nat) : (s.set f v).bist = s.bist := rfl
@[simp] theorem State.set_owl (f : Fld) (v : Nat) : (s.set f v).owl = s.owl := rfl
@[simp] theorem State.set_txn (f : Fld) (v : Nat) : (s.set f v).txn = s.txn := rfl
@[simp] theorem State.set_cal (f : Fld) (v : Nat) : (s.set f v).cal = s.cal := rfl
@[simp] theorem State.set_ax (f : Fld) (v : Nat) : (s.set f v).ax = s.ax := rfl
@[simp] theorem State.set_mag (f : Fld) (v : Nat) : (s.set f v).mag = s.mag := rfl
@[simp] theorem State.set_stn (f : Fld) (v : Nat) : (s.set f v).stn = s.stn := rfl
@[simp] theorem State.set_pwr (f : Fld) (v : Nat) : (s.set f v).pwr = s.pwr := rfl
@[simp] theorem State.set_net (f : Fld) (v : Nat) : (s.set f v).net = s.net := rfl
@[simp] theorem State.set_cmd (f : Fld) (v : Nat) : (s.set f v).cmd = s.cmd := rfl
@[simp] theorem State.set_mem (f : Fld) (v : Nat) : (s.set f v).mem = s.mem := rfl
@[simp] theorem State.set_cch (f : Fld) (v : Nat) : (s.set f v).cch = s.cch := rfl
@[simp] theorem State.set_flash (f : Fld) (v : Nat) : (s.set f v).flash = s.flash := rfl
@[simp] theorem State.set_plc (f : Fld) (v : Nat) : (s.set f v).plc = s.plc := rfl
@[simp] theorem State.set_chn (f : Fld) (v : Nat) : (s.set f v).chn = s.chn := rfl
@[simp] theorem State.set_arb (f : Fld) (v : Nat) : (s.set f v).arb = s.arb := rfl
@[simp] theorem State.set_mtr (f : Fld) (v : Nat) : (s.set f v).mtr = s.mtr := rfl
@[simp] theorem State.set_sec (f : Fld) (v : Nat) : (s.set f v).sec = s.sec := rfl

/-! ### setInt -/

@[simp] theorem State.setInt_tick (f : Fld) (i : Int) : (s.setInt f i).tick = s.tick := rfl
@[simp] theorem State.setInt_pending (f : Fld) (i : Int) : (s.setInt f i).pending = s.pending := rfl
@[simp] theorem State.setInt_free (f : Fld) (i : Int) : (s.setInt f i).free = s.free := rfl
@[simp] theorem State.setInt_wstat (f : Fld) (i : Int) : (s.setInt f i).wstat = s.wstat := rfl
@[simp] theorem State.setInt_rdata (f : Fld) (i : Int) : (s.setInt f i).rdata = s.rdata := rfl
@[simp] theorem State.setInt_latch (f : Fld) (i : Int) : (s.setInt f i).latch = s.latch := rfl
@[simp] theorem State.setInt_sys (f : Fld) (i : Int) : (s.setInt f i).sys = s.sys := rfl
@[simp] theorem State.setInt_ce (f : Fld) (i : Int) : (s.setInt f i).ce = s.ce := rfl
@[simp] theorem State.setInt_pu (f : Fld) (i : Int) : (s.setInt f i).pu = s.pu := rfl
@[simp] theorem State.setInt_flt (f : Fld) (i : Int) : (s.setInt f i).flt = s.flt := rfl
@[simp] theorem State.setInt_bist (f : Fld) (i : Int) : (s.setInt f i).bist = s.bist := rfl
@[simp] theorem State.setInt_owl (f : Fld) (i : Int) : (s.setInt f i).owl = s.owl := rfl
@[simp] theorem State.setInt_txn (f : Fld) (i : Int) : (s.setInt f i).txn = s.txn := rfl
@[simp] theorem State.setInt_cal (f : Fld) (i : Int) : (s.setInt f i).cal = s.cal := rfl
@[simp] theorem State.setInt_ax (f : Fld) (i : Int) : (s.setInt f i).ax = s.ax := rfl
@[simp] theorem State.setInt_mag (f : Fld) (i : Int) : (s.setInt f i).mag = s.mag := rfl
@[simp] theorem State.setInt_stn (f : Fld) (i : Int) : (s.setInt f i).stn = s.stn := rfl
@[simp] theorem State.setInt_pwr (f : Fld) (i : Int) : (s.setInt f i).pwr = s.pwr := rfl
@[simp] theorem State.setInt_net (f : Fld) (i : Int) : (s.setInt f i).net = s.net := rfl
@[simp] theorem State.setInt_cmd (f : Fld) (i : Int) : (s.setInt f i).cmd = s.cmd := rfl
@[simp] theorem State.setInt_mem (f : Fld) (i : Int) : (s.setInt f i).mem = s.mem := rfl
@[simp] theorem State.setInt_cch (f : Fld) (i : Int) : (s.setInt f i).cch = s.cch := rfl
@[simp] theorem State.setInt_flash (f : Fld) (i : Int) : (s.setInt f i).flash = s.flash := rfl
@[simp] theorem State.setInt_plc (f : Fld) (i : Int) : (s.setInt f i).plc = s.plc := rfl
@[simp] theorem State.setInt_chn (f : Fld) (i : Int) : (s.setInt f i).chn = s.chn := rfl
@[simp] theorem State.setInt_arb (f : Fld) (i : Int) : (s.setInt f i).arb = s.arb := rfl
@[simp] theorem State.setInt_mtr (f : Fld) (i : Int) : (s.setInt f i).mtr = s.mtr := rfl
@[simp] theorem State.setInt_sec (f : Fld) (i : Int) : (s.setInt f i).sec = s.sec := rfl

/-! ### setFlag -/

@[simp] theorem State.setFlag_tick (f : Fld) (b : Bool) : (s.setFlag f b).tick = s.tick := rfl
@[simp] theorem State.setFlag_pending (f : Fld) (b : Bool) : (s.setFlag f b).pending = s.pending := rfl
@[simp] theorem State.setFlag_free (f : Fld) (b : Bool) : (s.setFlag f b).free = s.free := rfl
@[simp] theorem State.setFlag_wstat (f : Fld) (b : Bool) : (s.setFlag f b).wstat = s.wstat := rfl
@[simp] theorem State.setFlag_rdata (f : Fld) (b : Bool) : (s.setFlag f b).rdata = s.rdata := rfl
@[simp] theorem State.setFlag_latch (f : Fld) (b : Bool) : (s.setFlag f b).latch = s.latch := rfl
@[simp] theorem State.setFlag_sys (f : Fld) (b : Bool) : (s.setFlag f b).sys = s.sys := rfl
@[simp] theorem State.setFlag_ce (f : Fld) (b : Bool) : (s.setFlag f b).ce = s.ce := rfl
@[simp] theorem State.setFlag_pu (f : Fld) (b : Bool) : (s.setFlag f b).pu = s.pu := rfl
@[simp] theorem State.setFlag_flt (f : Fld) (b : Bool) : (s.setFlag f b).flt = s.flt := rfl
@[simp] theorem State.setFlag_bist (f : Fld) (b : Bool) : (s.setFlag f b).bist = s.bist := rfl
@[simp] theorem State.setFlag_owl (f : Fld) (b : Bool) : (s.setFlag f b).owl = s.owl := rfl
@[simp] theorem State.setFlag_txn (f : Fld) (b : Bool) : (s.setFlag f b).txn = s.txn := rfl
@[simp] theorem State.setFlag_cal (f : Fld) (b : Bool) : (s.setFlag f b).cal = s.cal := rfl
@[simp] theorem State.setFlag_ax (f : Fld) (b : Bool) : (s.setFlag f b).ax = s.ax := rfl
@[simp] theorem State.setFlag_mag (f : Fld) (b : Bool) : (s.setFlag f b).mag = s.mag := rfl
@[simp] theorem State.setFlag_stn (f : Fld) (b : Bool) : (s.setFlag f b).stn = s.stn := rfl
@[simp] theorem State.setFlag_pwr (f : Fld) (b : Bool) : (s.setFlag f b).pwr = s.pwr := rfl
@[simp] theorem State.setFlag_net (f : Fld) (b : Bool) : (s.setFlag f b).net = s.net := rfl
@[simp] theorem State.setFlag_cmd (f : Fld) (b : Bool) : (s.setFlag f b).cmd = s.cmd := rfl
@[simp] theorem State.setFlag_mem (f : Fld) (b : Bool) : (s.setFlag f b).mem = s.mem := rfl
@[simp] theorem State.setFlag_cch (f : Fld) (b : Bool) : (s.setFlag f b).cch = s.cch := rfl
@[simp] theorem State.setFlag_flash (f : Fld) (b : Bool) : (s.setFlag f b).flash = s.flash := rfl
@[simp] theorem State.setFlag_plc (f : Fld) (b : Bool) : (s.setFlag f b).plc = s.plc := rfl
@[simp] theorem State.setFlag_chn (f : Fld) (b : Bool) : (s.setFlag f b).chn = s.chn := rfl
@[simp] theorem State.setFlag_arb (f : Fld) (b : Bool) : (s.setFlag f b).arb = s.arb := rfl
@[simp] theorem State.setFlag_mtr (f : Fld) (b : Bool) : (s.setFlag f b).mtr = s.mtr := rfl
@[simp] theorem State.setFlag_sec (f : Fld) (b : Bool) : (s.setFlag f b).sec = s.sec := rfl

/-! ### addSat -/

@[simp] theorem State.addSat_tick (f : Fld) (n : Nat) : (s.addSat f n).tick = s.tick := rfl
@[simp] theorem State.addSat_pending (f : Fld) (n : Nat) : (s.addSat f n).pending = s.pending := rfl
@[simp] theorem State.addSat_free (f : Fld) (n : Nat) : (s.addSat f n).free = s.free := rfl
@[simp] theorem State.addSat_wstat (f : Fld) (n : Nat) : (s.addSat f n).wstat = s.wstat := rfl
@[simp] theorem State.addSat_rdata (f : Fld) (n : Nat) : (s.addSat f n).rdata = s.rdata := rfl
@[simp] theorem State.addSat_latch (f : Fld) (n : Nat) : (s.addSat f n).latch = s.latch := rfl
@[simp] theorem State.addSat_sys (f : Fld) (n : Nat) : (s.addSat f n).sys = s.sys := rfl
@[simp] theorem State.addSat_ce (f : Fld) (n : Nat) : (s.addSat f n).ce = s.ce := rfl
@[simp] theorem State.addSat_pu (f : Fld) (n : Nat) : (s.addSat f n).pu = s.pu := rfl
@[simp] theorem State.addSat_flt (f : Fld) (n : Nat) : (s.addSat f n).flt = s.flt := rfl
@[simp] theorem State.addSat_bist (f : Fld) (n : Nat) : (s.addSat f n).bist = s.bist := rfl
@[simp] theorem State.addSat_owl (f : Fld) (n : Nat) : (s.addSat f n).owl = s.owl := rfl
@[simp] theorem State.addSat_txn (f : Fld) (n : Nat) : (s.addSat f n).txn = s.txn := rfl
@[simp] theorem State.addSat_cal (f : Fld) (n : Nat) : (s.addSat f n).cal = s.cal := rfl
@[simp] theorem State.addSat_ax (f : Fld) (n : Nat) : (s.addSat f n).ax = s.ax := rfl
@[simp] theorem State.addSat_mag (f : Fld) (n : Nat) : (s.addSat f n).mag = s.mag := rfl
@[simp] theorem State.addSat_stn (f : Fld) (n : Nat) : (s.addSat f n).stn = s.stn := rfl
@[simp] theorem State.addSat_pwr (f : Fld) (n : Nat) : (s.addSat f n).pwr = s.pwr := rfl
@[simp] theorem State.addSat_net (f : Fld) (n : Nat) : (s.addSat f n).net = s.net := rfl
@[simp] theorem State.addSat_cmd (f : Fld) (n : Nat) : (s.addSat f n).cmd = s.cmd := rfl
@[simp] theorem State.addSat_mem (f : Fld) (n : Nat) : (s.addSat f n).mem = s.mem := rfl
@[simp] theorem State.addSat_cch (f : Fld) (n : Nat) : (s.addSat f n).cch = s.cch := rfl
@[simp] theorem State.addSat_flash (f : Fld) (n : Nat) : (s.addSat f n).flash = s.flash := rfl
@[simp] theorem State.addSat_plc (f : Fld) (n : Nat) : (s.addSat f n).plc = s.plc := rfl
@[simp] theorem State.addSat_chn (f : Fld) (n : Nat) : (s.addSat f n).chn = s.chn := rfl
@[simp] theorem State.addSat_arb (f : Fld) (n : Nat) : (s.addSat f n).arb = s.arb := rfl
@[simp] theorem State.addSat_mtr (f : Fld) (n : Nat) : (s.addSat f n).mtr = s.mtr := rfl
@[simp] theorem State.addSat_sec (f : Fld) (n : Nat) : (s.addSat f n).sec = s.sec := rfl

/-! ### incWrap -/

@[simp] theorem State.incWrap_tick (f : Fld) : (s.incWrap f).tick = s.tick := rfl
@[simp] theorem State.incWrap_pending (f : Fld) : (s.incWrap f).pending = s.pending := rfl
@[simp] theorem State.incWrap_free (f : Fld) : (s.incWrap f).free = s.free := rfl
@[simp] theorem State.incWrap_wstat (f : Fld) : (s.incWrap f).wstat = s.wstat := rfl
@[simp] theorem State.incWrap_rdata (f : Fld) : (s.incWrap f).rdata = s.rdata := rfl
@[simp] theorem State.incWrap_latch (f : Fld) : (s.incWrap f).latch = s.latch := rfl
@[simp] theorem State.incWrap_sys (f : Fld) : (s.incWrap f).sys = s.sys := rfl
@[simp] theorem State.incWrap_ce (f : Fld) : (s.incWrap f).ce = s.ce := rfl
@[simp] theorem State.incWrap_pu (f : Fld) : (s.incWrap f).pu = s.pu := rfl
@[simp] theorem State.incWrap_flt (f : Fld) : (s.incWrap f).flt = s.flt := rfl
@[simp] theorem State.incWrap_bist (f : Fld) : (s.incWrap f).bist = s.bist := rfl
@[simp] theorem State.incWrap_owl (f : Fld) : (s.incWrap f).owl = s.owl := rfl
@[simp] theorem State.incWrap_txn (f : Fld) : (s.incWrap f).txn = s.txn := rfl
@[simp] theorem State.incWrap_cal (f : Fld) : (s.incWrap f).cal = s.cal := rfl
@[simp] theorem State.incWrap_ax (f : Fld) : (s.incWrap f).ax = s.ax := rfl
@[simp] theorem State.incWrap_mag (f : Fld) : (s.incWrap f).mag = s.mag := rfl
@[simp] theorem State.incWrap_stn (f : Fld) : (s.incWrap f).stn = s.stn := rfl
@[simp] theorem State.incWrap_pwr (f : Fld) : (s.incWrap f).pwr = s.pwr := rfl
@[simp] theorem State.incWrap_net (f : Fld) : (s.incWrap f).net = s.net := rfl
@[simp] theorem State.incWrap_cmd (f : Fld) : (s.incWrap f).cmd = s.cmd := rfl
@[simp] theorem State.incWrap_mem (f : Fld) : (s.incWrap f).mem = s.mem := rfl
@[simp] theorem State.incWrap_cch (f : Fld) : (s.incWrap f).cch = s.cch := rfl
@[simp] theorem State.incWrap_flash (f : Fld) : (s.incWrap f).flash = s.flash := rfl
@[simp] theorem State.incWrap_plc (f : Fld) : (s.incWrap f).plc = s.plc := rfl
@[simp] theorem State.incWrap_chn (f : Fld) : (s.incWrap f).chn = s.chn := rfl
@[simp] theorem State.incWrap_arb (f : Fld) : (s.incWrap f).arb = s.arb := rfl
@[simp] theorem State.incWrap_mtr (f : Fld) : (s.incWrap f).mtr = s.mtr := rfl
@[simp] theorem State.incWrap_sec (f : Fld) : (s.incWrap f).sec = s.sec := rfl

/-! ### maxIn -/

@[simp] theorem State.maxIn_tick (f : Fld) (n : Nat) : (s.maxIn f n).tick = s.tick := rfl
@[simp] theorem State.maxIn_pending (f : Fld) (n : Nat) : (s.maxIn f n).pending = s.pending := rfl
@[simp] theorem State.maxIn_free (f : Fld) (n : Nat) : (s.maxIn f n).free = s.free := rfl
@[simp] theorem State.maxIn_wstat (f : Fld) (n : Nat) : (s.maxIn f n).wstat = s.wstat := rfl
@[simp] theorem State.maxIn_rdata (f : Fld) (n : Nat) : (s.maxIn f n).rdata = s.rdata := rfl
@[simp] theorem State.maxIn_latch (f : Fld) (n : Nat) : (s.maxIn f n).latch = s.latch := rfl
@[simp] theorem State.maxIn_sys (f : Fld) (n : Nat) : (s.maxIn f n).sys = s.sys := rfl
@[simp] theorem State.maxIn_ce (f : Fld) (n : Nat) : (s.maxIn f n).ce = s.ce := rfl
@[simp] theorem State.maxIn_pu (f : Fld) (n : Nat) : (s.maxIn f n).pu = s.pu := rfl
@[simp] theorem State.maxIn_flt (f : Fld) (n : Nat) : (s.maxIn f n).flt = s.flt := rfl
@[simp] theorem State.maxIn_bist (f : Fld) (n : Nat) : (s.maxIn f n).bist = s.bist := rfl
@[simp] theorem State.maxIn_owl (f : Fld) (n : Nat) : (s.maxIn f n).owl = s.owl := rfl
@[simp] theorem State.maxIn_txn (f : Fld) (n : Nat) : (s.maxIn f n).txn = s.txn := rfl
@[simp] theorem State.maxIn_cal (f : Fld) (n : Nat) : (s.maxIn f n).cal = s.cal := rfl
@[simp] theorem State.maxIn_ax (f : Fld) (n : Nat) : (s.maxIn f n).ax = s.ax := rfl
@[simp] theorem State.maxIn_mag (f : Fld) (n : Nat) : (s.maxIn f n).mag = s.mag := rfl
@[simp] theorem State.maxIn_stn (f : Fld) (n : Nat) : (s.maxIn f n).stn = s.stn := rfl
@[simp] theorem State.maxIn_pwr (f : Fld) (n : Nat) : (s.maxIn f n).pwr = s.pwr := rfl
@[simp] theorem State.maxIn_net (f : Fld) (n : Nat) : (s.maxIn f n).net = s.net := rfl
@[simp] theorem State.maxIn_cmd (f : Fld) (n : Nat) : (s.maxIn f n).cmd = s.cmd := rfl
@[simp] theorem State.maxIn_mem (f : Fld) (n : Nat) : (s.maxIn f n).mem = s.mem := rfl
@[simp] theorem State.maxIn_cch (f : Fld) (n : Nat) : (s.maxIn f n).cch = s.cch := rfl
@[simp] theorem State.maxIn_flash (f : Fld) (n : Nat) : (s.maxIn f n).flash = s.flash := rfl
@[simp] theorem State.maxIn_plc (f : Fld) (n : Nat) : (s.maxIn f n).plc = s.plc := rfl
@[simp] theorem State.maxIn_chn (f : Fld) (n : Nat) : (s.maxIn f n).chn = s.chn := rfl
@[simp] theorem State.maxIn_arb (f : Fld) (n : Nat) : (s.maxIn f n).arb = s.arb := rfl
@[simp] theorem State.maxIn_mtr (f : Fld) (n : Nat) : (s.maxIn f n).mtr = s.mtr := rfl
@[simp] theorem State.maxIn_sec (f : Fld) (n : Nat) : (s.maxIn f n).sec = s.sec := rfl

/-! ### status -/

@[simp] theorem State.status_regs (c : Nat) : (s.status c).regs = s.regs := rfl
@[simp] theorem State.status_tick (c : Nat) : (s.status c).tick = s.tick := rfl
@[simp] theorem State.status_pending (c : Nat) : (s.status c).pending = s.pending := rfl
@[simp] theorem State.status_free (c : Nat) : (s.status c).free = s.free := rfl
@[simp] theorem State.status_rdata (c : Nat) : (s.status c).rdata = s.rdata := rfl
@[simp] theorem State.status_latch (c : Nat) : (s.status c).latch = s.latch := rfl
@[simp] theorem State.status_sys (c : Nat) : (s.status c).sys = s.sys := rfl
@[simp] theorem State.status_ce (c : Nat) : (s.status c).ce = s.ce := rfl
@[simp] theorem State.status_pu (c : Nat) : (s.status c).pu = s.pu := rfl
@[simp] theorem State.status_flt (c : Nat) : (s.status c).flt = s.flt := rfl
@[simp] theorem State.status_bist (c : Nat) : (s.status c).bist = s.bist := rfl
@[simp] theorem State.status_owl (c : Nat) : (s.status c).owl = s.owl := rfl
@[simp] theorem State.status_txn (c : Nat) : (s.status c).txn = s.txn := rfl
@[simp] theorem State.status_cal (c : Nat) : (s.status c).cal = s.cal := rfl
@[simp] theorem State.status_ax (c : Nat) : (s.status c).ax = s.ax := rfl
@[simp] theorem State.status_mag (c : Nat) : (s.status c).mag = s.mag := rfl
@[simp] theorem State.status_stn (c : Nat) : (s.status c).stn = s.stn := rfl
@[simp] theorem State.status_pwr (c : Nat) : (s.status c).pwr = s.pwr := rfl
@[simp] theorem State.status_net (c : Nat) : (s.status c).net = s.net := rfl
@[simp] theorem State.status_cmd (c : Nat) : (s.status c).cmd = s.cmd := rfl
@[simp] theorem State.status_mem (c : Nat) : (s.status c).mem = s.mem := rfl
@[simp] theorem State.status_cch (c : Nat) : (s.status c).cch = s.cch := rfl
@[simp] theorem State.status_flash (c : Nat) : (s.status c).flash = s.flash := rfl
@[simp] theorem State.status_plc (c : Nat) : (s.status c).plc = s.plc := rfl
@[simp] theorem State.status_chn (c : Nat) : (s.status c).chn = s.chn := rfl
@[simp] theorem State.status_arb (c : Nat) : (s.status c).arb = s.arb := rfl
@[simp] theorem State.status_mtr (c : Nat) : (s.status c).mtr = s.mtr := rfl
@[simp] theorem State.status_sec (c : Nat) : (s.status c).sec = s.sec := rfl
@[simp] theorem State.status_reg (c : Nat) (x : Nat) : (s.status c).reg x = s.reg x := rfl
@[simp] theorem State.status_get (c : Nat) (x : Fld) : (s.status c).get x = s.get x := rfl

/-! ### modSys -/

@[simp] theorem State.modSys_regs (g : SysSt → SysSt) : (s.modSys g).regs = s.regs := rfl
@[simp] theorem State.modSys_tick (g : SysSt → SysSt) : (s.modSys g).tick = s.tick := rfl
@[simp] theorem State.modSys_pending (g : SysSt → SysSt) : (s.modSys g).pending = s.pending := rfl
@[simp] theorem State.modSys_free (g : SysSt → SysSt) : (s.modSys g).free = s.free := rfl
@[simp] theorem State.modSys_wstat (g : SysSt → SysSt) : (s.modSys g).wstat = s.wstat := rfl
@[simp] theorem State.modSys_rdata (g : SysSt → SysSt) : (s.modSys g).rdata = s.rdata := rfl
@[simp] theorem State.modSys_latch (g : SysSt → SysSt) : (s.modSys g).latch = s.latch := rfl
@[simp] theorem State.modSys_ce (g : SysSt → SysSt) : (s.modSys g).ce = s.ce := rfl
@[simp] theorem State.modSys_pu (g : SysSt → SysSt) : (s.modSys g).pu = s.pu := rfl
@[simp] theorem State.modSys_flt (g : SysSt → SysSt) : (s.modSys g).flt = s.flt := rfl
@[simp] theorem State.modSys_bist (g : SysSt → SysSt) : (s.modSys g).bist = s.bist := rfl
@[simp] theorem State.modSys_owl (g : SysSt → SysSt) : (s.modSys g).owl = s.owl := rfl
@[simp] theorem State.modSys_txn (g : SysSt → SysSt) : (s.modSys g).txn = s.txn := rfl
@[simp] theorem State.modSys_cal (g : SysSt → SysSt) : (s.modSys g).cal = s.cal := rfl
@[simp] theorem State.modSys_ax (g : SysSt → SysSt) : (s.modSys g).ax = s.ax := rfl
@[simp] theorem State.modSys_mag (g : SysSt → SysSt) : (s.modSys g).mag = s.mag := rfl
@[simp] theorem State.modSys_stn (g : SysSt → SysSt) : (s.modSys g).stn = s.stn := rfl
@[simp] theorem State.modSys_pwr (g : SysSt → SysSt) : (s.modSys g).pwr = s.pwr := rfl
@[simp] theorem State.modSys_net (g : SysSt → SysSt) : (s.modSys g).net = s.net := rfl
@[simp] theorem State.modSys_cmd (g : SysSt → SysSt) : (s.modSys g).cmd = s.cmd := rfl
@[simp] theorem State.modSys_mem (g : SysSt → SysSt) : (s.modSys g).mem = s.mem := rfl
@[simp] theorem State.modSys_cch (g : SysSt → SysSt) : (s.modSys g).cch = s.cch := rfl
@[simp] theorem State.modSys_flash (g : SysSt → SysSt) : (s.modSys g).flash = s.flash := rfl
@[simp] theorem State.modSys_plc (g : SysSt → SysSt) : (s.modSys g).plc = s.plc := rfl
@[simp] theorem State.modSys_chn (g : SysSt → SysSt) : (s.modSys g).chn = s.chn := rfl
@[simp] theorem State.modSys_arb (g : SysSt → SysSt) : (s.modSys g).arb = s.arb := rfl
@[simp] theorem State.modSys_mtr (g : SysSt → SysSt) : (s.modSys g).mtr = s.mtr := rfl
@[simp] theorem State.modSys_sec (g : SysSt → SysSt) : (s.modSys g).sec = s.sec := rfl
@[simp] theorem State.modSys_reg (g : SysSt → SysSt) (x : Nat) : (s.modSys g).reg x = s.reg x := rfl
@[simp] theorem State.modSys_get (g : SysSt → SysSt) (x : Fld) : (s.modSys g).get x = s.get x := rfl

/-! ### modBist -/

@[simp] theorem State.modBist_regs (g : BistSt → BistSt) : (s.modBist g).regs = s.regs := rfl
@[simp] theorem State.modBist_tick (g : BistSt → BistSt) : (s.modBist g).tick = s.tick := rfl
@[simp] theorem State.modBist_pending (g : BistSt → BistSt) : (s.modBist g).pending = s.pending := rfl
@[simp] theorem State.modBist_free (g : BistSt → BistSt) : (s.modBist g).free = s.free := rfl
@[simp] theorem State.modBist_wstat (g : BistSt → BistSt) : (s.modBist g).wstat = s.wstat := rfl
@[simp] theorem State.modBist_rdata (g : BistSt → BistSt) : (s.modBist g).rdata = s.rdata := rfl
@[simp] theorem State.modBist_latch (g : BistSt → BistSt) : (s.modBist g).latch = s.latch := rfl
@[simp] theorem State.modBist_sys (g : BistSt → BistSt) : (s.modBist g).sys = s.sys := rfl
@[simp] theorem State.modBist_ce (g : BistSt → BistSt) : (s.modBist g).ce = s.ce := rfl
@[simp] theorem State.modBist_pu (g : BistSt → BistSt) : (s.modBist g).pu = s.pu := rfl
@[simp] theorem State.modBist_flt (g : BistSt → BistSt) : (s.modBist g).flt = s.flt := rfl
@[simp] theorem State.modBist_owl (g : BistSt → BistSt) : (s.modBist g).owl = s.owl := rfl
@[simp] theorem State.modBist_txn (g : BistSt → BistSt) : (s.modBist g).txn = s.txn := rfl
@[simp] theorem State.modBist_cal (g : BistSt → BistSt) : (s.modBist g).cal = s.cal := rfl
@[simp] theorem State.modBist_ax (g : BistSt → BistSt) : (s.modBist g).ax = s.ax := rfl
@[simp] theorem State.modBist_mag (g : BistSt → BistSt) : (s.modBist g).mag = s.mag := rfl
@[simp] theorem State.modBist_stn (g : BistSt → BistSt) : (s.modBist g).stn = s.stn := rfl
@[simp] theorem State.modBist_pwr (g : BistSt → BistSt) : (s.modBist g).pwr = s.pwr := rfl
@[simp] theorem State.modBist_net (g : BistSt → BistSt) : (s.modBist g).net = s.net := rfl
@[simp] theorem State.modBist_cmd (g : BistSt → BistSt) : (s.modBist g).cmd = s.cmd := rfl
@[simp] theorem State.modBist_mem (g : BistSt → BistSt) : (s.modBist g).mem = s.mem := rfl
@[simp] theorem State.modBist_cch (g : BistSt → BistSt) : (s.modBist g).cch = s.cch := rfl
@[simp] theorem State.modBist_flash (g : BistSt → BistSt) : (s.modBist g).flash = s.flash := rfl
@[simp] theorem State.modBist_plc (g : BistSt → BistSt) : (s.modBist g).plc = s.plc := rfl
@[simp] theorem State.modBist_chn (g : BistSt → BistSt) : (s.modBist g).chn = s.chn := rfl
@[simp] theorem State.modBist_arb (g : BistSt → BistSt) : (s.modBist g).arb = s.arb := rfl
@[simp] theorem State.modBist_mtr (g : BistSt → BistSt) : (s.modBist g).mtr = s.mtr := rfl
@[simp] theorem State.modBist_sec (g : BistSt → BistSt) : (s.modBist g).sec = s.sec := rfl
@[simp] theorem State.modBist_reg (g : BistSt → BistSt) (x : Nat) : (s.modBist g).reg x = s.reg x := rfl
@[simp] theorem State.modBist_get (g : BistSt → BistSt) (x : Fld) : (s.modBist g).get x = s.get x := rfl

/-! ### modCal -/

@[simp] theorem State.modCal_regs (g : CalSt → CalSt) : (s.modCal g).regs = s.regs := rfl
@[simp] theorem State.modCal_tick (g : CalSt → CalSt) : (s.modCal g).tick = s.tick := rfl
@[simp] theorem State.modCal_pending (g : CalSt → CalSt) : (s.modCal g).pending = s.pending := rfl
@[simp] theorem State.modCal_free (g : CalSt → CalSt) : (s.modCal g).free = s.free := rfl
@[simp] theorem State.modCal_wstat (g : CalSt → CalSt) : (s.modCal g).wstat = s.wstat := rfl
@[simp] theorem State.modCal_rdata (g : CalSt → CalSt) : (s.modCal g).rdata = s.rdata := rfl
@[simp] theorem State.modCal_latch (g : CalSt → CalSt) : (s.modCal g).latch = s.latch := rfl
@[simp] theorem State.modCal_sys (g : CalSt → CalSt) : (s.modCal g).sys = s.sys := rfl
@[simp] theorem State.modCal_ce (g : CalSt → CalSt) : (s.modCal g).ce = s.ce := rfl
@[simp] theorem State.modCal_pu (g : CalSt → CalSt) : (s.modCal g).pu = s.pu := rfl
@[simp] theorem State.modCal_flt (g : CalSt → CalSt) : (s.modCal g).flt = s.flt := rfl
@[simp] theorem State.modCal_bist (g : CalSt → CalSt) : (s.modCal g).bist = s.bist := rfl
@[simp] theorem State.modCal_owl (g : CalSt → CalSt) : (s.modCal g).owl = s.owl := rfl
@[simp] theorem State.modCal_txn (g : CalSt → CalSt) : (s.modCal g).txn = s.txn := rfl
@[simp] theorem State.modCal_ax (g : CalSt → CalSt) : (s.modCal g).ax = s.ax := rfl
@[simp] theorem State.modCal_mag (g : CalSt → CalSt) : (s.modCal g).mag = s.mag := rfl
@[simp] theorem State.modCal_stn (g : CalSt → CalSt) : (s.modCal g).stn = s.stn := rfl
@[simp] theorem State.modCal_pwr (g : CalSt → CalSt) : (s.modCal g).pwr = s.pwr := rfl
@[simp] theorem State.modCal_net (g : CalSt → CalSt) : (s.modCal g).net = s.net := rfl
@[simp] theorem State.modCal_cmd (g : CalSt → CalSt) : (s.modCal g).cmd = s.cmd := rfl
@[simp] theorem State.modCal_mem (g : CalSt → CalSt) : (s.modCal g).mem = s.mem := rfl
@[simp] theorem State.modCal_cch (g : CalSt → CalSt) : (s.modCal g).cch = s.cch := rfl
@[simp] theorem State.modCal_flash (g : CalSt → CalSt) : (s.modCal g).flash = s.flash := rfl
@[simp] theorem State.modCal_plc (g : CalSt → CalSt) : (s.modCal g).plc = s.plc := rfl
@[simp] theorem State.modCal_chn (g : CalSt → CalSt) : (s.modCal g).chn = s.chn := rfl
@[simp] theorem State.modCal_arb (g : CalSt → CalSt) : (s.modCal g).arb = s.arb := rfl
@[simp] theorem State.modCal_mtr (g : CalSt → CalSt) : (s.modCal g).mtr = s.mtr := rfl
@[simp] theorem State.modCal_sec (g : CalSt → CalSt) : (s.modCal g).sec = s.sec := rfl
@[simp] theorem State.modCal_reg (g : CalSt → CalSt) (x : Nat) : (s.modCal g).reg x = s.reg x := rfl
@[simp] theorem State.modCal_get (g : CalSt → CalSt) (x : Fld) : (s.modCal g).get x = s.get x := rfl

/-! ### modChn -/

@[simp] theorem State.modChn_regs (g : ChnSt → ChnSt) : (s.modChn g).regs = s.regs := rfl
@[simp] theorem State.modChn_tick (g : ChnSt → ChnSt) : (s.modChn g).tick = s.tick := rfl
@[simp] theorem State.modChn_pending (g : ChnSt → ChnSt) : (s.modChn g).pending = s.pending := rfl
@[simp] theorem State.modChn_free (g : ChnSt → ChnSt) : (s.modChn g).free = s.free := rfl
@[simp] theorem State.modChn_wstat (g : ChnSt → ChnSt) : (s.modChn g).wstat = s.wstat := rfl
@[simp] theorem State.modChn_rdata (g : ChnSt → ChnSt) : (s.modChn g).rdata = s.rdata := rfl
@[simp] theorem State.modChn_latch (g : ChnSt → ChnSt) : (s.modChn g).latch = s.latch := rfl
@[simp] theorem State.modChn_sys (g : ChnSt → ChnSt) : (s.modChn g).sys = s.sys := rfl
@[simp] theorem State.modChn_ce (g : ChnSt → ChnSt) : (s.modChn g).ce = s.ce := rfl
@[simp] theorem State.modChn_pu (g : ChnSt → ChnSt) : (s.modChn g).pu = s.pu := rfl
@[simp] theorem State.modChn_flt (g : ChnSt → ChnSt) : (s.modChn g).flt = s.flt := rfl
@[simp] theorem State.modChn_bist (g : ChnSt → ChnSt) : (s.modChn g).bist = s.bist := rfl
@[simp] theorem State.modChn_owl (g : ChnSt → ChnSt) : (s.modChn g).owl = s.owl := rfl
@[simp] theorem State.modChn_txn (g : ChnSt → ChnSt) : (s.modChn g).txn = s.txn := rfl
@[simp] theorem State.modChn_cal (g : ChnSt → ChnSt) : (s.modChn g).cal = s.cal := rfl
@[simp] theorem State.modChn_ax (g : ChnSt → ChnSt) : (s.modChn g).ax = s.ax := rfl
@[simp] theorem State.modChn_mag (g : ChnSt → ChnSt) : (s.modChn g).mag = s.mag := rfl
@[simp] theorem State.modChn_stn (g : ChnSt → ChnSt) : (s.modChn g).stn = s.stn := rfl
@[simp] theorem State.modChn_pwr (g : ChnSt → ChnSt) : (s.modChn g).pwr = s.pwr := rfl
@[simp] theorem State.modChn_net (g : ChnSt → ChnSt) : (s.modChn g).net = s.net := rfl
@[simp] theorem State.modChn_cmd (g : ChnSt → ChnSt) : (s.modChn g).cmd = s.cmd := rfl
@[simp] theorem State.modChn_mem (g : ChnSt → ChnSt) : (s.modChn g).mem = s.mem := rfl
@[simp] theorem State.modChn_cch (g : ChnSt → ChnSt) : (s.modChn g).cch = s.cch := rfl
@[simp] theorem State.modChn_flash (g : ChnSt → ChnSt) : (s.modChn g).flash = s.flash := rfl
@[simp] theorem State.modChn_plc (g : ChnSt → ChnSt) : (s.modChn g).plc = s.plc := rfl
@[simp] theorem State.modChn_arb (g : ChnSt → ChnSt) : (s.modChn g).arb = s.arb := rfl
@[simp] theorem State.modChn_mtr (g : ChnSt → ChnSt) : (s.modChn g).mtr = s.mtr := rfl
@[simp] theorem State.modChn_sec (g : ChnSt → ChnSt) : (s.modChn g).sec = s.sec := rfl
@[simp] theorem State.modChn_reg (g : ChnSt → ChnSt) (x : Nat) : (s.modChn g).reg x = s.reg x := rfl
@[simp] theorem State.modChn_get (g : ChnSt → ChnSt) (x : Fld) : (s.modChn g).get x = s.get x := rfl

/-! ### modMag -/

@[simp] theorem State.modMag_regs (g : MagSt → MagSt) : (s.modMag g).regs = s.regs := rfl
@[simp] theorem State.modMag_tick (g : MagSt → MagSt) : (s.modMag g).tick = s.tick := rfl
@[simp] theorem State.modMag_pending (g : MagSt → MagSt) : (s.modMag g).pending = s.pending := rfl
@[simp] theorem State.modMag_free (g : MagSt → MagSt) : (s.modMag g).free = s.free := rfl
@[simp] theorem State.modMag_wstat (g : MagSt → MagSt) : (s.modMag g).wstat = s.wstat := rfl
@[simp] theorem State.modMag_rdata (g : MagSt → MagSt) : (s.modMag g).rdata = s.rdata := rfl
@[simp] theorem State.modMag_latch (g : MagSt → MagSt) : (s.modMag g).latch = s.latch := rfl
@[simp] theorem State.modMag_sys (g : MagSt → MagSt) : (s.modMag g).sys = s.sys := rfl
@[simp] theorem State.modMag_ce (g : MagSt → MagSt) : (s.modMag g).ce = s.ce := rfl
@[simp] theorem State.modMag_pu (g : MagSt → MagSt) : (s.modMag g).pu = s.pu := rfl
@[simp] theorem State.modMag_flt (g : MagSt → MagSt) : (s.modMag g).flt = s.flt := rfl
@[simp] theorem State.modMag_bist (g : MagSt → MagSt) : (s.modMag g).bist = s.bist := rfl
@[simp] theorem State.modMag_owl (g : MagSt → MagSt) : (s.modMag g).owl = s.owl := rfl
@[simp] theorem State.modMag_txn (g : MagSt → MagSt) : (s.modMag g).txn = s.txn := rfl
@[simp] theorem State.modMag_cal (g : MagSt → MagSt) : (s.modMag g).cal = s.cal := rfl
@[simp] theorem State.modMag_ax (g : MagSt → MagSt) : (s.modMag g).ax = s.ax := rfl
@[simp] theorem State.modMag_stn (g : MagSt → MagSt) : (s.modMag g).stn = s.stn := rfl
@[simp] theorem State.modMag_pwr (g : MagSt → MagSt) : (s.modMag g).pwr = s.pwr := rfl
@[simp] theorem State.modMag_net (g : MagSt → MagSt) : (s.modMag g).net = s.net := rfl
@[simp] theorem State.modMag_cmd (g : MagSt → MagSt) : (s.modMag g).cmd = s.cmd := rfl
@[simp] theorem State.modMag_mem (g : MagSt → MagSt) : (s.modMag g).mem = s.mem := rfl
@[simp] theorem State.modMag_cch (g : MagSt → MagSt) : (s.modMag g).cch = s.cch := rfl
@[simp] theorem State.modMag_flash (g : MagSt → MagSt) : (s.modMag g).flash = s.flash := rfl
@[simp] theorem State.modMag_plc (g : MagSt → MagSt) : (s.modMag g).plc = s.plc := rfl
@[simp] theorem State.modMag_chn (g : MagSt → MagSt) : (s.modMag g).chn = s.chn := rfl
@[simp] theorem State.modMag_arb (g : MagSt → MagSt) : (s.modMag g).arb = s.arb := rfl
@[simp] theorem State.modMag_mtr (g : MagSt → MagSt) : (s.modMag g).mtr = s.mtr := rfl
@[simp] theorem State.modMag_sec (g : MagSt → MagSt) : (s.modMag g).sec = s.sec := rfl
@[simp] theorem State.modMag_reg (g : MagSt → MagSt) (x : Nat) : (s.modMag g).reg x = s.reg x := rfl
@[simp] theorem State.modMag_get (g : MagSt → MagSt) (x : Fld) : (s.modMag g).get x = s.get x := rfl

/-! ### modNet -/

@[simp] theorem State.modNet_regs (g : NetSt → NetSt) : (s.modNet g).regs = s.regs := rfl
@[simp] theorem State.modNet_tick (g : NetSt → NetSt) : (s.modNet g).tick = s.tick := rfl
@[simp] theorem State.modNet_pending (g : NetSt → NetSt) : (s.modNet g).pending = s.pending := rfl
@[simp] theorem State.modNet_free (g : NetSt → NetSt) : (s.modNet g).free = s.free := rfl
@[simp] theorem State.modNet_wstat (g : NetSt → NetSt) : (s.modNet g).wstat = s.wstat := rfl
@[simp] theorem State.modNet_rdata (g : NetSt → NetSt) : (s.modNet g).rdata = s.rdata := rfl
@[simp] theorem State.modNet_latch (g : NetSt → NetSt) : (s.modNet g).latch = s.latch := rfl
@[simp] theorem State.modNet_sys (g : NetSt → NetSt) : (s.modNet g).sys = s.sys := rfl
@[simp] theorem State.modNet_ce (g : NetSt → NetSt) : (s.modNet g).ce = s.ce := rfl
@[simp] theorem State.modNet_pu (g : NetSt → NetSt) : (s.modNet g).pu = s.pu := rfl
@[simp] theorem State.modNet_flt (g : NetSt → NetSt) : (s.modNet g).flt = s.flt := rfl
@[simp] theorem State.modNet_bist (g : NetSt → NetSt) : (s.modNet g).bist = s.bist := rfl
@[simp] theorem State.modNet_owl (g : NetSt → NetSt) : (s.modNet g).owl = s.owl := rfl
@[simp] theorem State.modNet_txn (g : NetSt → NetSt) : (s.modNet g).txn = s.txn := rfl
@[simp] theorem State.modNet_cal (g : NetSt → NetSt) : (s.modNet g).cal = s.cal := rfl
@[simp] theorem State.modNet_ax (g : NetSt → NetSt) : (s.modNet g).ax = s.ax := rfl
@[simp] theorem State.modNet_mag (g : NetSt → NetSt) : (s.modNet g).mag = s.mag := rfl
@[simp] theorem State.modNet_stn (g : NetSt → NetSt) : (s.modNet g).stn = s.stn := rfl
@[simp] theorem State.modNet_pwr (g : NetSt → NetSt) : (s.modNet g).pwr = s.pwr := rfl
@[simp] theorem State.modNet_cmd (g : NetSt → NetSt) : (s.modNet g).cmd = s.cmd := rfl
@[simp] theorem State.modNet_mem (g : NetSt → NetSt) : (s.modNet g).mem = s.mem := rfl
@[simp] theorem State.modNet_cch (g : NetSt → NetSt) : (s.modNet g).cch = s.cch := rfl
@[simp] theorem State.modNet_flash (g : NetSt → NetSt) : (s.modNet g).flash = s.flash := rfl
@[simp] theorem State.modNet_plc (g : NetSt → NetSt) : (s.modNet g).plc = s.plc := rfl
@[simp] theorem State.modNet_chn (g : NetSt → NetSt) : (s.modNet g).chn = s.chn := rfl
@[simp] theorem State.modNet_arb (g : NetSt → NetSt) : (s.modNet g).arb = s.arb := rfl
@[simp] theorem State.modNet_mtr (g : NetSt → NetSt) : (s.modNet g).mtr = s.mtr := rfl
@[simp] theorem State.modNet_sec (g : NetSt → NetSt) : (s.modNet g).sec = s.sec := rfl
@[simp] theorem State.modNet_reg (g : NetSt → NetSt) (x : Nat) : (s.modNet g).reg x = s.reg x := rfl
@[simp] theorem State.modNet_get (g : NetSt → NetSt) (x : Fld) : (s.modNet g).get x = s.get x := rfl

/-! ### modPlc -/

@[simp] theorem State.modPlc_regs (g : PlcSt → PlcSt) : (s.modPlc g).regs = s.regs := rfl
@[simp] theorem State.modPlc_tick (g : PlcSt → PlcSt) : (s.modPlc g).tick = s.tick := rfl
@[simp] theorem State.modPlc_pending (g : PlcSt → PlcSt) : (s.modPlc g).pending = s.pending := rfl
@[simp] theorem State.modPlc_free (g : PlcSt → PlcSt) : (s.modPlc g).free = s.free := rfl
@[simp] theorem State.modPlc_wstat (g : PlcSt → PlcSt) : (s.modPlc g).wstat = s.wstat := rfl
@[simp] theorem State.modPlc_rdata (g : PlcSt → PlcSt) : (s.modPlc g).rdata = s.rdata := rfl
@[simp] theorem State.modPlc_latch (g : PlcSt → PlcSt) : (s.modPlc g).latch = s.latch := rfl
@[simp] theorem State.modPlc_sys (g : PlcSt → PlcSt) : (s.modPlc g).sys = s.sys := rfl
@[simp] theorem State.modPlc_ce (g : PlcSt → PlcSt) : (s.modPlc g).ce = s.ce := rfl
@[simp] theorem State.modPlc_pu (g : PlcSt → PlcSt) : (s.modPlc g).pu = s.pu := rfl
@[simp] theorem State.modPlc_flt (g : PlcSt → PlcSt) : (s.modPlc g).flt = s.flt := rfl
@[simp] theorem State.modPlc_bist (g : PlcSt → PlcSt) : (s.modPlc g).bist = s.bist := rfl
@[simp] theorem State.modPlc_owl (g : PlcSt → PlcSt) : (s.modPlc g).owl = s.owl := rfl
@[simp] theorem State.modPlc_txn (g : PlcSt → PlcSt) : (s.modPlc g).txn = s.txn := rfl
@[simp] theorem State.modPlc_cal (g : PlcSt → PlcSt) : (s.modPlc g).cal = s.cal := rfl
@[simp] theorem State.modPlc_ax (g : PlcSt → PlcSt) : (s.modPlc g).ax = s.ax := rfl
@[simp] theorem State.modPlc_mag (g : PlcSt → PlcSt) : (s.modPlc g).mag = s.mag := rfl
@[simp] theorem State.modPlc_stn (g : PlcSt → PlcSt) : (s.modPlc g).stn = s.stn := rfl
@[simp] theorem State.modPlc_pwr (g : PlcSt → PlcSt) : (s.modPlc g).pwr = s.pwr := rfl
@[simp] theorem State.modPlc_net (g : PlcSt → PlcSt) : (s.modPlc g).net = s.net := rfl
@[simp] theorem State.modPlc_cmd (g : PlcSt → PlcSt) : (s.modPlc g).cmd = s.cmd := rfl
@[simp] theorem State.modPlc_mem (g : PlcSt → PlcSt) : (s.modPlc g).mem = s.mem := rfl
@[simp] theorem State.modPlc_cch (g : PlcSt → PlcSt) : (s.modPlc g).cch = s.cch := rfl
@[simp] theorem State.modPlc_flash (g : PlcSt → PlcSt) : (s.modPlc g).flash = s.flash := rfl
@[simp] theorem State.modPlc_chn (g : PlcSt → PlcSt) : (s.modPlc g).chn = s.chn := rfl
@[simp] theorem State.modPlc_arb (g : PlcSt → PlcSt) : (s.modPlc g).arb = s.arb := rfl
@[simp] theorem State.modPlc_mtr (g : PlcSt → PlcSt) : (s.modPlc g).mtr = s.mtr := rfl
@[simp] theorem State.modPlc_sec (g : PlcSt → PlcSt) : (s.modPlc g).sec = s.sec := rfl
@[simp] theorem State.modPlc_reg (g : PlcSt → PlcSt) (x : Nat) : (s.modPlc g).reg x = s.reg x := rfl
@[simp] theorem State.modPlc_get (g : PlcSt → PlcSt) (x : Fld) : (s.modPlc g).get x = s.get x := rfl

/-! ### modSec -/

@[simp] theorem State.modSec_regs (g : SecSt → SecSt) : (s.modSec g).regs = s.regs := rfl
@[simp] theorem State.modSec_tick (g : SecSt → SecSt) : (s.modSec g).tick = s.tick := rfl
@[simp] theorem State.modSec_pending (g : SecSt → SecSt) : (s.modSec g).pending = s.pending := rfl
@[simp] theorem State.modSec_free (g : SecSt → SecSt) : (s.modSec g).free = s.free := rfl
@[simp] theorem State.modSec_wstat (g : SecSt → SecSt) : (s.modSec g).wstat = s.wstat := rfl
@[simp] theorem State.modSec_rdata (g : SecSt → SecSt) : (s.modSec g).rdata = s.rdata := rfl
@[simp] theorem State.modSec_latch (g : SecSt → SecSt) : (s.modSec g).latch = s.latch := rfl
@[simp] theorem State.modSec_sys (g : SecSt → SecSt) : (s.modSec g).sys = s.sys := rfl
@[simp] theorem State.modSec_ce (g : SecSt → SecSt) : (s.modSec g).ce = s.ce := rfl
@[simp] theorem State.modSec_pu (g : SecSt → SecSt) : (s.modSec g).pu = s.pu := rfl
@[simp] theorem State.modSec_flt (g : SecSt → SecSt) : (s.modSec g).flt = s.flt := rfl
@[simp] theorem State.modSec_bist (g : SecSt → SecSt) : (s.modSec g).bist = s.bist := rfl
@[simp] theorem State.modSec_owl (g : SecSt → SecSt) : (s.modSec g).owl = s.owl := rfl
@[simp] theorem State.modSec_txn (g : SecSt → SecSt) : (s.modSec g).txn = s.txn := rfl
@[simp] theorem State.modSec_cal (g : SecSt → SecSt) : (s.modSec g).cal = s.cal := rfl
@[simp] theorem State.modSec_ax (g : SecSt → SecSt) : (s.modSec g).ax = s.ax := rfl
@[simp] theorem State.modSec_mag (g : SecSt → SecSt) : (s.modSec g).mag = s.mag := rfl
@[simp] theorem State.modSec_stn (g : SecSt → SecSt) : (s.modSec g).stn = s.stn := rfl
@[simp] theorem State.modSec_pwr (g : SecSt → SecSt) : (s.modSec g).pwr = s.pwr := rfl
@[simp] theorem State.modSec_net (g : SecSt → SecSt) : (s.modSec g).net = s.net := rfl
@[simp] theorem State.modSec_cmd (g : SecSt → SecSt) : (s.modSec g).cmd = s.cmd := rfl
@[simp] theorem State.modSec_mem (g : SecSt → SecSt) : (s.modSec g).mem = s.mem := rfl
@[simp] theorem State.modSec_cch (g : SecSt → SecSt) : (s.modSec g).cch = s.cch := rfl
@[simp] theorem State.modSec_flash (g : SecSt → SecSt) : (s.modSec g).flash = s.flash := rfl
@[simp] theorem State.modSec_plc (g : SecSt → SecSt) : (s.modSec g).plc = s.plc := rfl
@[simp] theorem State.modSec_chn (g : SecSt → SecSt) : (s.modSec g).chn = s.chn := rfl
@[simp] theorem State.modSec_arb (g : SecSt → SecSt) : (s.modSec g).arb = s.arb := rfl
@[simp] theorem State.modSec_mtr (g : SecSt → SecSt) : (s.modSec g).mtr = s.mtr := rfl
@[simp] theorem State.modSec_reg (g : SecSt → SecSt) (x : Nat) : (s.modSec g).reg x = s.reg x := rfl
@[simp] theorem State.modSec_get (g : SecSt → SecSt) (x : Fld) : (s.modSec g).get x = s.get x := rfl

/-! ### modPu -/

@[simp] theorem State.modPu_regs (n : Nat) (g : PuSt → PuSt) : (s.modPu n g).regs = s.regs := rfl
@[simp] theorem State.modPu_tick (n : Nat) (g : PuSt → PuSt) : (s.modPu n g).tick = s.tick := rfl
@[simp] theorem State.modPu_pending (n : Nat) (g : PuSt → PuSt) : (s.modPu n g).pending = s.pending := rfl
@[simp] theorem State.modPu_free (n : Nat) (g : PuSt → PuSt) : (s.modPu n g).free = s.free := rfl
@[simp] theorem State.modPu_wstat (n : Nat) (g : PuSt → PuSt) : (s.modPu n g).wstat = s.wstat := rfl
@[simp] theorem State.modPu_rdata (n : Nat) (g : PuSt → PuSt) : (s.modPu n g).rdata = s.rdata := rfl
@[simp] theorem State.modPu_latch (n : Nat) (g : PuSt → PuSt) : (s.modPu n g).latch = s.latch := rfl
@[simp] theorem State.modPu_sys (n : Nat) (g : PuSt → PuSt) : (s.modPu n g).sys = s.sys := rfl
@[simp] theorem State.modPu_ce (n : Nat) (g : PuSt → PuSt) : (s.modPu n g).ce = s.ce := rfl
@[simp] theorem State.modPu_flt (n : Nat) (g : PuSt → PuSt) : (s.modPu n g).flt = s.flt := rfl
@[simp] theorem State.modPu_bist (n : Nat) (g : PuSt → PuSt) : (s.modPu n g).bist = s.bist := rfl
@[simp] theorem State.modPu_owl (n : Nat) (g : PuSt → PuSt) : (s.modPu n g).owl = s.owl := rfl
@[simp] theorem State.modPu_txn (n : Nat) (g : PuSt → PuSt) : (s.modPu n g).txn = s.txn := rfl
@[simp] theorem State.modPu_cal (n : Nat) (g : PuSt → PuSt) : (s.modPu n g).cal = s.cal := rfl
@[simp] theorem State.modPu_ax (n : Nat) (g : PuSt → PuSt) : (s.modPu n g).ax = s.ax := rfl
@[simp] theorem State.modPu_mag (n : Nat) (g : PuSt → PuSt) : (s.modPu n g).mag = s.mag := rfl
@[simp] theorem State.modPu_stn (n : Nat) (g : PuSt → PuSt) : (s.modPu n g).stn = s.stn := rfl
@[simp] theorem State.modPu_pwr (n : Nat) (g : PuSt → PuSt) : (s.modPu n g).pwr = s.pwr := rfl
@[simp] theorem State.modPu_net (n : Nat) (g : PuSt → PuSt) : (s.modPu n g).net = s.net := rfl
@[simp] theorem State.modPu_cmd (n : Nat) (g : PuSt → PuSt) : (s.modPu n g).cmd = s.cmd := rfl
@[simp] theorem State.modPu_mem (n : Nat) (g : PuSt → PuSt) : (s.modPu n g).mem = s.mem := rfl
@[simp] theorem State.modPu_cch (n : Nat) (g : PuSt → PuSt) : (s.modPu n g).cch = s.cch := rfl
@[simp] theorem State.modPu_flash (n : Nat) (g : PuSt → PuSt) : (s.modPu n g).flash = s.flash := rfl
@[simp] theorem State.modPu_plc (n : Nat) (g : PuSt → PuSt) : (s.modPu n g).plc = s.plc := rfl
@[simp] theorem State.modPu_chn (n : Nat) (g : PuSt → PuSt) : (s.modPu n g).chn = s.chn := rfl
@[simp] theorem State.modPu_arb (n : Nat) (g : PuSt → PuSt) : (s.modPu n g).arb = s.arb := rfl
@[simp] theorem State.modPu_mtr (n : Nat) (g : PuSt → PuSt) : (s.modPu n g).mtr = s.mtr := rfl
@[simp] theorem State.modPu_sec (n : Nat) (g : PuSt → PuSt) : (s.modPu n g).sec = s.sec := rfl
@[simp] theorem State.modPu_reg (n : Nat) (g : PuSt → PuSt) (x : Nat) : (s.modPu n g).reg x = s.reg x := rfl
@[simp] theorem State.modPu_get (n : Nat) (g : PuSt → PuSt) (x : Fld) : (s.modPu n g).get x = s.get x := rfl

/-! ### modStn -/

@[simp] theorem State.modStn_regs (n : Nat) (g : StnSt → StnSt) : (s.modStn n g).regs = s.regs := rfl
@[simp] theorem State.modStn_tick (n : Nat) (g : StnSt → StnSt) : (s.modStn n g).tick = s.tick := rfl
@[simp] theorem State.modStn_pending (n : Nat) (g : StnSt → StnSt) : (s.modStn n g).pending = s.pending := rfl
@[simp] theorem State.modStn_free (n : Nat) (g : StnSt → StnSt) : (s.modStn n g).free = s.free := rfl
@[simp] theorem State.modStn_wstat (n : Nat) (g : StnSt → StnSt) : (s.modStn n g).wstat = s.wstat := rfl
@[simp] theorem State.modStn_rdata (n : Nat) (g : StnSt → StnSt) : (s.modStn n g).rdata = s.rdata := rfl
@[simp] theorem State.modStn_latch (n : Nat) (g : StnSt → StnSt) : (s.modStn n g).latch = s.latch := rfl
@[simp] theorem State.modStn_sys (n : Nat) (g : StnSt → StnSt) : (s.modStn n g).sys = s.sys := rfl
@[simp] theorem State.modStn_ce (n : Nat) (g : StnSt → StnSt) : (s.modStn n g).ce = s.ce := rfl
@[simp] theorem State.modStn_pu (n : Nat) (g : StnSt → StnSt) : (s.modStn n g).pu = s.pu := rfl
@[simp] theorem State.modStn_flt (n : Nat) (g : StnSt → StnSt) : (s.modStn n g).flt = s.flt := rfl
@[simp] theorem State.modStn_bist (n : Nat) (g : StnSt → StnSt) : (s.modStn n g).bist = s.bist := rfl
@[simp] theorem State.modStn_owl (n : Nat) (g : StnSt → StnSt) : (s.modStn n g).owl = s.owl := rfl
@[simp] theorem State.modStn_txn (n : Nat) (g : StnSt → StnSt) : (s.modStn n g).txn = s.txn := rfl
@[simp] theorem State.modStn_cal (n : Nat) (g : StnSt → StnSt) : (s.modStn n g).cal = s.cal := rfl
@[simp] theorem State.modStn_ax (n : Nat) (g : StnSt → StnSt) : (s.modStn n g).ax = s.ax := rfl
@[simp] theorem State.modStn_mag (n : Nat) (g : StnSt → StnSt) : (s.modStn n g).mag = s.mag := rfl
@[simp] theorem State.modStn_pwr (n : Nat) (g : StnSt → StnSt) : (s.modStn n g).pwr = s.pwr := rfl
@[simp] theorem State.modStn_net (n : Nat) (g : StnSt → StnSt) : (s.modStn n g).net = s.net := rfl
@[simp] theorem State.modStn_cmd (n : Nat) (g : StnSt → StnSt) : (s.modStn n g).cmd = s.cmd := rfl
@[simp] theorem State.modStn_mem (n : Nat) (g : StnSt → StnSt) : (s.modStn n g).mem = s.mem := rfl
@[simp] theorem State.modStn_cch (n : Nat) (g : StnSt → StnSt) : (s.modStn n g).cch = s.cch := rfl
@[simp] theorem State.modStn_flash (n : Nat) (g : StnSt → StnSt) : (s.modStn n g).flash = s.flash := rfl
@[simp] theorem State.modStn_plc (n : Nat) (g : StnSt → StnSt) : (s.modStn n g).plc = s.plc := rfl
@[simp] theorem State.modStn_chn (n : Nat) (g : StnSt → StnSt) : (s.modStn n g).chn = s.chn := rfl
@[simp] theorem State.modStn_arb (n : Nat) (g : StnSt → StnSt) : (s.modStn n g).arb = s.arb := rfl
@[simp] theorem State.modStn_mtr (n : Nat) (g : StnSt → StnSt) : (s.modStn n g).mtr = s.mtr := rfl
@[simp] theorem State.modStn_sec (n : Nat) (g : StnSt → StnSt) : (s.modStn n g).sec = s.sec := rfl
@[simp] theorem State.modStn_reg (n : Nat) (g : StnSt → StnSt) (x : Nat) : (s.modStn n g).reg x = s.reg x := rfl
@[simp] theorem State.modStn_get (n : Nat) (g : StnSt → StnSt) (x : Fld) : (s.modStn n g).get x = s.get x := rfl

/-! ### modAx -/

@[simp] theorem State.modAx_regs (n : Nat) (g : AxSt → AxSt) : (s.modAx n g).regs = s.regs := rfl
@[simp] theorem State.modAx_tick (n : Nat) (g : AxSt → AxSt) : (s.modAx n g).tick = s.tick := rfl
@[simp] theorem State.modAx_pending (n : Nat) (g : AxSt → AxSt) : (s.modAx n g).pending = s.pending := rfl
@[simp] theorem State.modAx_free (n : Nat) (g : AxSt → AxSt) : (s.modAx n g).free = s.free := rfl
@[simp] theorem State.modAx_wstat (n : Nat) (g : AxSt → AxSt) : (s.modAx n g).wstat = s.wstat := rfl
@[simp] theorem State.modAx_rdata (n : Nat) (g : AxSt → AxSt) : (s.modAx n g).rdata = s.rdata := rfl
@[simp] theorem State.modAx_latch (n : Nat) (g : AxSt → AxSt) : (s.modAx n g).latch = s.latch := rfl
@[simp] theorem State.modAx_sys (n : Nat) (g : AxSt → AxSt) : (s.modAx n g).sys = s.sys := rfl
@[simp] theorem State.modAx_ce (n : Nat) (g : AxSt → AxSt) : (s.modAx n g).ce = s.ce := rfl
@[simp] theorem State.modAx_pu (n : Nat) (g : AxSt → AxSt) : (s.modAx n g).pu = s.pu := rfl
@[simp] theorem State.modAx_flt (n : Nat) (g : AxSt → AxSt) : (s.modAx n g).flt = s.flt := rfl
@[simp] theorem State.modAx_bist (n : Nat) (g : AxSt → AxSt) : (s.modAx n g).bist = s.bist := rfl
@[simp] theorem State.modAx_owl (n : Nat) (g : AxSt → AxSt) : (s.modAx n g).owl = s.owl := rfl
@[simp] theorem State.modAx_txn (n : Nat) (g : AxSt → AxSt) : (s.modAx n g).txn = s.txn := rfl
@[simp] theorem State.modAx_cal (n : Nat) (g : AxSt → AxSt) : (s.modAx n g).cal = s.cal := rfl
@[simp] theorem State.modAx_mag (n : Nat) (g : AxSt → AxSt) : (s.modAx n g).mag = s.mag := rfl
@[simp] theorem State.modAx_stn (n : Nat) (g : AxSt → AxSt) : (s.modAx n g).stn = s.stn := rfl
@[simp] theorem State.modAx_pwr (n : Nat) (g : AxSt → AxSt) : (s.modAx n g).pwr = s.pwr := rfl
@[simp] theorem State.modAx_net (n : Nat) (g : AxSt → AxSt) : (s.modAx n g).net = s.net := rfl
@[simp] theorem State.modAx_cmd (n : Nat) (g : AxSt → AxSt) : (s.modAx n g).cmd = s.cmd := rfl
@[simp] theorem State.modAx_mem (n : Nat) (g : AxSt → AxSt) : (s.modAx n g).mem = s.mem := rfl
@[simp] theorem State.modAx_cch (n : Nat) (g : AxSt → AxSt) : (s.modAx n g).cch = s.cch := rfl
@[simp] theorem State.modAx_flash (n : Nat) (g : AxSt → AxSt) : (s.modAx n g).flash = s.flash := rfl
@[simp] theorem State.modAx_plc (n : Nat) (g : AxSt → AxSt) : (s.modAx n g).plc = s.plc := rfl
@[simp] theorem State.modAx_chn (n : Nat) (g : AxSt → AxSt) : (s.modAx n g).chn = s.chn := rfl
@[simp] theorem State.modAx_arb (n : Nat) (g : AxSt → AxSt) : (s.modAx n g).arb = s.arb := rfl
@[simp] theorem State.modAx_mtr (n : Nat) (g : AxSt → AxSt) : (s.modAx n g).mtr = s.mtr := rfl
@[simp] theorem State.modAx_sec (n : Nat) (g : AxSt → AxSt) : (s.modAx n g).sec = s.sec := rfl
@[simp] theorem State.modAx_reg (n : Nat) (g : AxSt → AxSt) (x : Nat) : (s.modAx n g).reg x = s.reg x := rfl
@[simp] theorem State.modAx_get (n : Nat) (g : AxSt → AxSt) (x : Fld) : (s.modAx n g).get x = s.get x := rfl

/-! ### modArb -/

@[simp] theorem State.modArb_regs (n : Nat) (g : StnArb → StnArb) : (s.modArb n g).regs = s.regs := rfl
@[simp] theorem State.modArb_tick (n : Nat) (g : StnArb → StnArb) : (s.modArb n g).tick = s.tick := rfl
@[simp] theorem State.modArb_pending (n : Nat) (g : StnArb → StnArb) : (s.modArb n g).pending = s.pending := rfl
@[simp] theorem State.modArb_free (n : Nat) (g : StnArb → StnArb) : (s.modArb n g).free = s.free := rfl
@[simp] theorem State.modArb_wstat (n : Nat) (g : StnArb → StnArb) : (s.modArb n g).wstat = s.wstat := rfl
@[simp] theorem State.modArb_rdata (n : Nat) (g : StnArb → StnArb) : (s.modArb n g).rdata = s.rdata := rfl
@[simp] theorem State.modArb_latch (n : Nat) (g : StnArb → StnArb) : (s.modArb n g).latch = s.latch := rfl
@[simp] theorem State.modArb_sys (n : Nat) (g : StnArb → StnArb) : (s.modArb n g).sys = s.sys := rfl
@[simp] theorem State.modArb_ce (n : Nat) (g : StnArb → StnArb) : (s.modArb n g).ce = s.ce := rfl
@[simp] theorem State.modArb_pu (n : Nat) (g : StnArb → StnArb) : (s.modArb n g).pu = s.pu := rfl
@[simp] theorem State.modArb_flt (n : Nat) (g : StnArb → StnArb) : (s.modArb n g).flt = s.flt := rfl
@[simp] theorem State.modArb_bist (n : Nat) (g : StnArb → StnArb) : (s.modArb n g).bist = s.bist := rfl
@[simp] theorem State.modArb_owl (n : Nat) (g : StnArb → StnArb) : (s.modArb n g).owl = s.owl := rfl
@[simp] theorem State.modArb_txn (n : Nat) (g : StnArb → StnArb) : (s.modArb n g).txn = s.txn := rfl
@[simp] theorem State.modArb_cal (n : Nat) (g : StnArb → StnArb) : (s.modArb n g).cal = s.cal := rfl
@[simp] theorem State.modArb_ax (n : Nat) (g : StnArb → StnArb) : (s.modArb n g).ax = s.ax := rfl
@[simp] theorem State.modArb_mag (n : Nat) (g : StnArb → StnArb) : (s.modArb n g).mag = s.mag := rfl
@[simp] theorem State.modArb_stn (n : Nat) (g : StnArb → StnArb) : (s.modArb n g).stn = s.stn := rfl
@[simp] theorem State.modArb_pwr (n : Nat) (g : StnArb → StnArb) : (s.modArb n g).pwr = s.pwr := rfl
@[simp] theorem State.modArb_net (n : Nat) (g : StnArb → StnArb) : (s.modArb n g).net = s.net := rfl
@[simp] theorem State.modArb_cmd (n : Nat) (g : StnArb → StnArb) : (s.modArb n g).cmd = s.cmd := rfl
@[simp] theorem State.modArb_mem (n : Nat) (g : StnArb → StnArb) : (s.modArb n g).mem = s.mem := rfl
@[simp] theorem State.modArb_cch (n : Nat) (g : StnArb → StnArb) : (s.modArb n g).cch = s.cch := rfl
@[simp] theorem State.modArb_flash (n : Nat) (g : StnArb → StnArb) : (s.modArb n g).flash = s.flash := rfl
@[simp] theorem State.modArb_plc (n : Nat) (g : StnArb → StnArb) : (s.modArb n g).plc = s.plc := rfl
@[simp] theorem State.modArb_chn (n : Nat) (g : StnArb → StnArb) : (s.modArb n g).chn = s.chn := rfl
@[simp] theorem State.modArb_mtr (n : Nat) (g : StnArb → StnArb) : (s.modArb n g).mtr = s.mtr := rfl
@[simp] theorem State.modArb_sec (n : Nat) (g : StnArb → StnArb) : (s.modArb n g).sec = s.sec := rfl
@[simp] theorem State.modArb_reg (n : Nat) (g : StnArb → StnArb) (x : Nat) : (s.modArb n g).reg x = s.reg x := rfl
@[simp] theorem State.modArb_get (n : Nat) (g : StnArb → StnArb) (x : Fld) : (s.modArb n g).get x = s.get x := rfl

/-! ### setSlot -/

@[simp] theorem State.setSlot_regs (n : Nat) (k : KSlot) : (s.setSlot n k).regs = s.regs := rfl
@[simp] theorem State.setSlot_tick (n : Nat) (k : KSlot) : (s.setSlot n k).tick = s.tick := rfl
@[simp] theorem State.setSlot_pending (n : Nat) (k : KSlot) : (s.setSlot n k).pending = s.pending := rfl
@[simp] theorem State.setSlot_free (n : Nat) (k : KSlot) : (s.setSlot n k).free = s.free := rfl
@[simp] theorem State.setSlot_wstat (n : Nat) (k : KSlot) : (s.setSlot n k).wstat = s.wstat := rfl
@[simp] theorem State.setSlot_rdata (n : Nat) (k : KSlot) : (s.setSlot n k).rdata = s.rdata := rfl
@[simp] theorem State.setSlot_latch (n : Nat) (k : KSlot) : (s.setSlot n k).latch = s.latch := rfl
@[simp] theorem State.setSlot_sys (n : Nat) (k : KSlot) : (s.setSlot n k).sys = s.sys := rfl
@[simp] theorem State.setSlot_pu (n : Nat) (k : KSlot) : (s.setSlot n k).pu = s.pu := rfl
@[simp] theorem State.setSlot_flt (n : Nat) (k : KSlot) : (s.setSlot n k).flt = s.flt := rfl
@[simp] theorem State.setSlot_bist (n : Nat) (k : KSlot) : (s.setSlot n k).bist = s.bist := rfl
@[simp] theorem State.setSlot_owl (n : Nat) (k : KSlot) : (s.setSlot n k).owl = s.owl := rfl
@[simp] theorem State.setSlot_txn (n : Nat) (k : KSlot) : (s.setSlot n k).txn = s.txn := rfl
@[simp] theorem State.setSlot_cal (n : Nat) (k : KSlot) : (s.setSlot n k).cal = s.cal := rfl
@[simp] theorem State.setSlot_ax (n : Nat) (k : KSlot) : (s.setSlot n k).ax = s.ax := rfl
@[simp] theorem State.setSlot_mag (n : Nat) (k : KSlot) : (s.setSlot n k).mag = s.mag := rfl
@[simp] theorem State.setSlot_stn (n : Nat) (k : KSlot) : (s.setSlot n k).stn = s.stn := rfl
@[simp] theorem State.setSlot_pwr (n : Nat) (k : KSlot) : (s.setSlot n k).pwr = s.pwr := rfl
@[simp] theorem State.setSlot_net (n : Nat) (k : KSlot) : (s.setSlot n k).net = s.net := rfl
@[simp] theorem State.setSlot_cmd (n : Nat) (k : KSlot) : (s.setSlot n k).cmd = s.cmd := rfl
@[simp] theorem State.setSlot_mem (n : Nat) (k : KSlot) : (s.setSlot n k).mem = s.mem := rfl
@[simp] theorem State.setSlot_cch (n : Nat) (k : KSlot) : (s.setSlot n k).cch = s.cch := rfl
@[simp] theorem State.setSlot_flash (n : Nat) (k : KSlot) : (s.setSlot n k).flash = s.flash := rfl
@[simp] theorem State.setSlot_plc (n : Nat) (k : KSlot) : (s.setSlot n k).plc = s.plc := rfl
@[simp] theorem State.setSlot_chn (n : Nat) (k : KSlot) : (s.setSlot n k).chn = s.chn := rfl
@[simp] theorem State.setSlot_arb (n : Nat) (k : KSlot) : (s.setSlot n k).arb = s.arb := rfl
@[simp] theorem State.setSlot_mtr (n : Nat) (k : KSlot) : (s.setSlot n k).mtr = s.mtr := rfl
@[simp] theorem State.setSlot_sec (n : Nat) (k : KSlot) : (s.setSlot n k).sec = s.sec := rfl
@[simp] theorem State.setSlot_reg (n : Nat) (k : KSlot) (x : Nat) : (s.setSlot n k).reg x = s.reg x := rfl
@[simp] theorem State.setSlot_get (n : Nat) (k : KSlot) (x : Fld) : (s.setSlot n k).get x = s.get x := rfl

/-! ### setTrace -/

@[simp] theorem State.setTrace_regs (n : Nat) (k : Trace) : (s.setTrace n k).regs = s.regs := rfl
@[simp] theorem State.setTrace_tick (n : Nat) (k : Trace) : (s.setTrace n k).tick = s.tick := rfl
@[simp] theorem State.setTrace_pending (n : Nat) (k : Trace) : (s.setTrace n k).pending = s.pending := rfl
@[simp] theorem State.setTrace_free (n : Nat) (k : Trace) : (s.setTrace n k).free = s.free := rfl
@[simp] theorem State.setTrace_wstat (n : Nat) (k : Trace) : (s.setTrace n k).wstat = s.wstat := rfl
@[simp] theorem State.setTrace_rdata (n : Nat) (k : Trace) : (s.setTrace n k).rdata = s.rdata := rfl
@[simp] theorem State.setTrace_latch (n : Nat) (k : Trace) : (s.setTrace n k).latch = s.latch := rfl
@[simp] theorem State.setTrace_sys (n : Nat) (k : Trace) : (s.setTrace n k).sys = s.sys := rfl
@[simp] theorem State.setTrace_pu (n : Nat) (k : Trace) : (s.setTrace n k).pu = s.pu := rfl
@[simp] theorem State.setTrace_flt (n : Nat) (k : Trace) : (s.setTrace n k).flt = s.flt := rfl
@[simp] theorem State.setTrace_bist (n : Nat) (k : Trace) : (s.setTrace n k).bist = s.bist := rfl
@[simp] theorem State.setTrace_owl (n : Nat) (k : Trace) : (s.setTrace n k).owl = s.owl := rfl
@[simp] theorem State.setTrace_txn (n : Nat) (k : Trace) : (s.setTrace n k).txn = s.txn := rfl
@[simp] theorem State.setTrace_cal (n : Nat) (k : Trace) : (s.setTrace n k).cal = s.cal := rfl
@[simp] theorem State.setTrace_ax (n : Nat) (k : Trace) : (s.setTrace n k).ax = s.ax := rfl
@[simp] theorem State.setTrace_mag (n : Nat) (k : Trace) : (s.setTrace n k).mag = s.mag := rfl
@[simp] theorem State.setTrace_stn (n : Nat) (k : Trace) : (s.setTrace n k).stn = s.stn := rfl
@[simp] theorem State.setTrace_pwr (n : Nat) (k : Trace) : (s.setTrace n k).pwr = s.pwr := rfl
@[simp] theorem State.setTrace_net (n : Nat) (k : Trace) : (s.setTrace n k).net = s.net := rfl
@[simp] theorem State.setTrace_cmd (n : Nat) (k : Trace) : (s.setTrace n k).cmd = s.cmd := rfl
@[simp] theorem State.setTrace_mem (n : Nat) (k : Trace) : (s.setTrace n k).mem = s.mem := rfl
@[simp] theorem State.setTrace_cch (n : Nat) (k : Trace) : (s.setTrace n k).cch = s.cch := rfl
@[simp] theorem State.setTrace_flash (n : Nat) (k : Trace) : (s.setTrace n k).flash = s.flash := rfl
@[simp] theorem State.setTrace_plc (n : Nat) (k : Trace) : (s.setTrace n k).plc = s.plc := rfl
@[simp] theorem State.setTrace_chn (n : Nat) (k : Trace) : (s.setTrace n k).chn = s.chn := rfl
@[simp] theorem State.setTrace_arb (n : Nat) (k : Trace) : (s.setTrace n k).arb = s.arb := rfl
@[simp] theorem State.setTrace_mtr (n : Nat) (k : Trace) : (s.setTrace n k).mtr = s.mtr := rfl
@[simp] theorem State.setTrace_sec (n : Nat) (k : Trace) : (s.setTrace n k).sec = s.sec := rfl
@[simp] theorem State.setTrace_reg (n : Nat) (k : Trace) (x : Nat) : (s.setTrace n k).reg x = s.reg x := rfl
@[simp] theorem State.setTrace_get (n : Nat) (k : Trace) (x : Fld) : (s.setTrace n k).get x = s.get x := rfl

/-! ### setTxn -/

@[simp] theorem State.setTxn_regs (d : Nat) (k : TxnSt) : (s.setTxn d k).regs = s.regs := rfl
@[simp] theorem State.setTxn_tick (d : Nat) (k : TxnSt) : (s.setTxn d k).tick = s.tick := rfl
@[simp] theorem State.setTxn_pending (d : Nat) (k : TxnSt) : (s.setTxn d k).pending = s.pending := rfl
@[simp] theorem State.setTxn_free (d : Nat) (k : TxnSt) : (s.setTxn d k).free = s.free := rfl
@[simp] theorem State.setTxn_wstat (d : Nat) (k : TxnSt) : (s.setTxn d k).wstat = s.wstat := rfl
@[simp] theorem State.setTxn_rdata (d : Nat) (k : TxnSt) : (s.setTxn d k).rdata = s.rdata := rfl
@[simp] theorem State.setTxn_latch (d : Nat) (k : TxnSt) : (s.setTxn d k).latch = s.latch := rfl
@[simp] theorem State.setTxn_sys (d : Nat) (k : TxnSt) : (s.setTxn d k).sys = s.sys := rfl
@[simp] theorem State.setTxn_ce (d : Nat) (k : TxnSt) : (s.setTxn d k).ce = s.ce := rfl
@[simp] theorem State.setTxn_pu (d : Nat) (k : TxnSt) : (s.setTxn d k).pu = s.pu := rfl
@[simp] theorem State.setTxn_flt (d : Nat) (k : TxnSt) : (s.setTxn d k).flt = s.flt := rfl
@[simp] theorem State.setTxn_bist (d : Nat) (k : TxnSt) : (s.setTxn d k).bist = s.bist := rfl
@[simp] theorem State.setTxn_owl (d : Nat) (k : TxnSt) : (s.setTxn d k).owl = s.owl := rfl
@[simp] theorem State.setTxn_cal (d : Nat) (k : TxnSt) : (s.setTxn d k).cal = s.cal := rfl
@[simp] theorem State.setTxn_ax (d : Nat) (k : TxnSt) : (s.setTxn d k).ax = s.ax := rfl
@[simp] theorem State.setTxn_mag (d : Nat) (k : TxnSt) : (s.setTxn d k).mag = s.mag := rfl
@[simp] theorem State.setTxn_stn (d : Nat) (k : TxnSt) : (s.setTxn d k).stn = s.stn := rfl
@[simp] theorem State.setTxn_pwr (d : Nat) (k : TxnSt) : (s.setTxn d k).pwr = s.pwr := rfl
@[simp] theorem State.setTxn_net (d : Nat) (k : TxnSt) : (s.setTxn d k).net = s.net := rfl
@[simp] theorem State.setTxn_cmd (d : Nat) (k : TxnSt) : (s.setTxn d k).cmd = s.cmd := rfl
@[simp] theorem State.setTxn_mem (d : Nat) (k : TxnSt) : (s.setTxn d k).mem = s.mem := rfl
@[simp] theorem State.setTxn_cch (d : Nat) (k : TxnSt) : (s.setTxn d k).cch = s.cch := rfl
@[simp] theorem State.setTxn_flash (d : Nat) (k : TxnSt) : (s.setTxn d k).flash = s.flash := rfl
@[simp] theorem State.setTxn_plc (d : Nat) (k : TxnSt) : (s.setTxn d k).plc = s.plc := rfl
@[simp] theorem State.setTxn_chn (d : Nat) (k : TxnSt) : (s.setTxn d k).chn = s.chn := rfl
@[simp] theorem State.setTxn_arb (d : Nat) (k : TxnSt) : (s.setTxn d k).arb = s.arb := rfl
@[simp] theorem State.setTxn_mtr (d : Nat) (k : TxnSt) : (s.setTxn d k).mtr = s.mtr := rfl
@[simp] theorem State.setTxn_sec (d : Nat) (k : TxnSt) : (s.setTxn d k).sec = s.sec := rfl
@[simp] theorem State.setTxn_reg (d : Nat) (k : TxnSt) (x : Nat) : (s.setTxn d k).reg x = s.reg x := rfl
@[simp] theorem State.setTxn_get (d : Nat) (k : TxnSt) (x : Fld) : (s.setTxn d k).get x = s.get x := rfl

/-! ### Fields of registers -/

/-- A field of another register, or other bits of the same one, reads as before. -/
theorem State.get_set_apart {a h l b k m : Nat} (v : Nat) (h1 : m ≤ k) (h2 : k < 32) (hd : a ≠ b ∨ h < m ∨ k < l) :
    (s.set ⟨b, k, m⟩ v).get ⟨a, h, l⟩ = s.get ⟨a, h, l⟩ := State.get_set_other s v ⟨h1, h2⟩ hd

/-- A field reads what was written to it. -/
theorem State.get_set_here {b k m : Nat} (v : Nat) (h1 : m ≤ k) (h2 : k < 32) :
    (s.set ⟨b, k, m⟩ v).get ⟨b, k, m⟩ = v % 2 ^ (k + 1 - m) := State.get_set_same s v ⟨h1, h2⟩

/-- A write of a field leaves the words of other registers. -/
theorem State.reg_set_apart {a b k m : Nat} (v : Nat) (h : a ≠ b) : (s.set ⟨b, k, m⟩ v).reg a = s.reg a :=
  State.reg_set_other s v h

@[simp] theorem State.draw_reg (a : Nat) : s.draw.2.reg a = s.reg a := rfl
@[simp] theorem State.draw_get (f : Fld) : s.draw.2.get f = s.get f := rfl

end Sys2Proof.Machine
end

