-- ==== Sys2Proof/Tests/Slice0.lean ====
section
/-!
SUPPORT. Tests: a term that each check of WellFormed refuses, worked figures of the manual, and for every statement
operands and a state that meet its hypotheses.
-/

namespace Sys2Proof.Tests

open Sys2Proof Sys2Proof.Machine

set_option maxRecDepth 20000
set_option Elab.async false

/-- A device in mode `m` with start-up done, management session 1 open, and fields set. -/
def dev (m : Nat) (l : List (Fld × Nat)) : State :=
  l.foldl (fun (t : State) e => t.set e.1 e.2)
    ({ State.reset with sys := { boot := .done }, cmd := { sessions := [{ id := 1, mgmt := true, tenant := 0, depth := 16 }] } }.set SYS_MODE_MODE m)

/-- Management session 1. -/
abbrev mgmt : Path := .session 1

/-- A device whose control engine visits five slots for pickup 0: focus, tracking, tilt, read power and aberration. -/
def servo (m : Nat) (l : List (Fld × Nat)) : State :=
  let page (t : State) (k : Nat) (out : Nat) : State :=
    (((t.set (CE_PAGE_TYPE k) 1).set (CE_PAGE_SP_SRC k) 1).set (CE_PAGE_HOLD_EN k) 1).set (CE_PAGE_OUT_SEL k) out
  l.foldl (fun (t : State) e => t.set e.1 e.2)
    (page (page (page (page (page ((dev m []).set CE_SCHED_LEN_LEN 5) 0 0) 1 1) 2 2) 3 0x18) 4 0x20)

/-- A unit. -/
def u7 : UnitId := { tenant := 1, key := 7, ver := 1, unit := 0 }

/-- Disc 3 is clamped in station 0. -/
def disc3 : List (Fld × Nat) := [(MAG_STAT_CLAMP_0, 1), (MAG_STN_SRC_VALID_0, 1), (MAG_STN_SRC_SLOT_0, 3), (SYS_STAT_CAL_STN_0, 1)]

/-- A servo field of turn 7, layer 0, read on its track: its channel bits, and the slanted marks of pairs A and B 29 and 11 bits from
their references. -/
def field7 : FieldRead := { bits := 0xCCCE3C555555565556, dA := 464, dB := 176, field := 5 }

/-- The bytes before the digest of an index frame of domain 1 that carries no record. -/
def head7 : List Byte := magic 'I' ++ [0, 1] ++ List.replicate 18 0 ++ [1] ++ List.replicate 4007 0

/-- An index frame of domain 1. -/
def indexed7 : List Byte := head7 ++ toBytes 32 ((Config.shake256 head7).toNat % 2 ^ 256)

theorem head7_length : head7.length = 4032 := by
  simp only [head7, magic, List.length_append, List.length_replicate, List.length_cons, List.length_nil]

theorem indexed7_valid : copyValid 'I' 0xFC0 indexed7 = true := by
  have h1 : indexed7.take 4032 = head7 := by simp [indexed7, ← head7_length]
  have h2 : indexed7.drop 4032 = toBytes 32 ((Config.shake256 head7).toNat % 2 ^ 256) := by simp [indexed7, ← head7_length]
  have h3 : indexed7.take 4 = magic 'I' := by rfl
  have h4 : (indexed7.drop 4).take 2 = toBytes 2 0x100 := by rfl
  simp only [copyValid, h1, h2, h3, h4, beq_self_eq_true, Bool.true_and]
  simp [toBytes]

/-- It stands first in its index area. -/
def seen7 : FrameSeen := { frame := 49536, payload := indexed7 }

/-- A disc of domain 1. -/
def foreign7 : DiscFound := { layers := [{ reads := [seen7] }] }

theorem seen7_index : idxKept [seen7] = [seen7] := by
  have h1 : seenIndex seen7 = true := indexed7_valid
  have h2 : seenSorted [seen7] = [seen7] := by rfl
  have h3 : idxPositions [seen7] = 1 := by rfl
  have h4 : seen7.frame.toNat = 49536 := by rfl
  simp [idxKept, idxFrames, h1, h2, h3, h4]

theorem foreign7_foreign (s : State) (h : s.domainId = 0) : s.foreignDisc foreign7 = true := by
  have h1 : fieldAt seen7.payload 24 8 = 1 := by decide +kernel
  simp [State.foreignDisc, foreign7, seen7_index, h, h1]

/-- A job of unit `u7` on disc 3 in station 0. -/
def job7 (write : Bool) : Job :=
  { id := 1, kind := .tenant, tenant := 1, cls := 0, at_ := 0, station := 0, slot := some 3, write := write, units := [{ id := u7, side := 0, layer := 2, zone := 0 }] }

/-- An extent of unit `u7` on pickup 0. -/
def ext7 : ExtSt := { id := u7, slot := 3, side := 0, layer := 2, hdr := frameAddr 0 2 196608, seq := 1, len := 4194304, flags := 0, repl := 0 }

/-- A device of ID 1 whose applied map holds the active device 2. -/
def pair (m : Nat) (l : List (Fld × Nat)) : State :=
  (dev m ([(PLC_STAT_DM_VALID, 1), (PLC_DM_SELF_SELF, 1), (PLC_PEER_CFG_CAND, 4)] ++ l)).setReg (keyDm 2 0) 0x40000000

/-- A message of device 2. -/
def from2 : PeerHdr := { src := 2, epoch := 0, tag := 0, domain := 0, xid := 9, auth := true }

/-- A unit of no command. -/
def unit7 : UnitSt := { n := 1, id := u7, cmd := none, len := 4194304, flags := 0 }

/-- The state with the device's own address set to 0x000600000005: reset gives it from the factory, so it is placed by hand. -/
def ownMac (s : State) : State :=
  { s with regs := s.regs.takeWhile (fun e => decide (e.1 < min NET_MAC_LO NET_MAC_HI)) ++
      (if NET_MAC_LO < NET_MAC_HI then [(NET_MAC_LO, 5), (NET_MAC_HI, 6)] else [(NET_MAC_HI, 6), (NET_MAC_LO, 5)]) ++
      s.regs.dropWhile (fun e => decide (e.1 ≤ max NET_MAC_LO NET_MAC_HI)) }

/-- A data session of tenant 1. -/
def sess1 : Session := { id := 1, mgmt := false, tenant := 1, depth := 16 }

/-- A device in SERVE with the data session of tenant 1, its contract, policy and key; `plc` says what is placed. -/
def hosted (l : List (Fld × Nat)) (plc : PlcSt) : State :=
  (({ dev 3 l with cmd := { sessions := [sess1] }, plc := plc, sec := { keys := [{ tenant := 1, gen := 1, key := 9 }] } }.setReg
    (keyTc 1 0) 0x80000002).setReg (keyPol 1) 0x80100011)

/-- An open version of tenant 1, object 7, with two units counted. -/
def open7 : OpenVer := { tenant := 1, key := 7, ver := 513, session := .session 1, counted := 2, lastLen := 4194304, lastDevs := [] }

/-- A live unit of object 7, sealed. -/
def ent7 : MapEnt := { id := { tenant := 1, key := 7, ver := 513, unit := 0 }, slot := 3, hdr := 0, flags := 3, len := 100 }


/-- Every clause of ResetSourcesHoldReset has operands and a state that meet its hypotheses. -/
theorem witness_ResetSourcesHoldReset :
    (∃ (s : State), s.sys.boot ≠ .held) ∧
    (∃ (s : State), s.sys.boot = .held) ∧
    (∃ (s : State), s.sys.boot ≠ .held) ∧
    (∃ (s : State), s.sys.boot ≠ .held ∧ s.sys.wdogArmed = true) ∧
    (∃ (p : Path) (s : State), s.silent p = false ∧ s.rstRefusal p = none) ∧
    (∃ (p : Path) (key : BitVec 16) (s : State), s.silent p = false ∧ s.rstRefusal p = none ∧ key ≠ 0xA5C3) ∧
    (∃ (s : State), s.bist.scanning = true ∧ s.sys.boot ≠ .held) :=
  ⟨⟨dev 3 [], by decide +kernel⟩, ⟨State.reset, by decide +kernel⟩, ⟨dev 3 [], by decide +kernel⟩, ⟨(dev 3 []).modSys fun y => { y with wdogArmed := true }, by decide +kernel⟩, ⟨mgmt, dev 3 [], by decide +kernel⟩, ⟨mgmt, 0, dev 3 [], by decide +kernel⟩, ⟨(dev 5 []).modBist fun b => { b with scanning := true }, by decide +kernel⟩⟩

/-- Every clause of StartUpRunsItsStages has operands and a state that meet its hypotheses. -/
theorem witness_StartUpRunsItsStages :
    (∃ (a : Bool) (b : Bool) (s : State), s.sys.boot = .held ∧ (s.twinAccepted false a || s.twinAccepted true b) =
      true) ∧
    (∃ (a : Bool) (b : Bool) (s : State), s.sys.boot = .held ∧ s.twinAccepted false a = false ∧ s.twinAccepted true b
      = false) ∧
    (∃ (s : State), s.sys.boot = .stage 1 ∧ s.get SYS_STAT_BOOT_WAIT = 0) ∧
    (∃ (s : State), s.sys.boot = .stage 3 ∧ s.get SYS_STAT_BOOT_WAIT = 0) ∧
    (∃ (s : State), s.sys.boot = .stage 6 ∧ s.get SYS_STAT_BOOT_WAIT = 0) ∧
    (∃ (s : State), s.mode = modeBoot ∧ s.sys.boot = .done ∧ s.get SYS_STAT_BOOT_WAIT = 0 ∧ s.portUp = true) ∧
    (∃ (p : Path) (s : State), s.silent p = false ∧ s.readRefusal p false = none ∧ s.get BIST_SCAN_STAT_RES = 1) :=
  ⟨⟨true, false, State.reset, by decide +kernel⟩, ⟨false, false, State.reset, by decide +kernel⟩, ⟨(dev 1 []).modSys fun y => { y with boot := .stage 1 }, by decide +kernel⟩, ⟨(dev 1 []).modSys fun y => { y with boot := .stage 3 }, by decide +kernel⟩, ⟨(dev 1 []).modSys fun y => { y with boot := .stage 6 }, by decide +kernel⟩, ⟨dev 1 [(SYS_STAT_LINK_A, 1)], by decide +kernel⟩, ⟨mgmt, dev 3 [(BIST_SCAN_STAT_RES, 1)], by decide +kernel⟩⟩

/-- ModeRequestsAreRecorded has operands and a state that meet its hypotheses. -/
theorem witness_ModeRequestsAreRecorded :
    (∃ (p : Path) (m : BitVec 4) (r : Instr) (s : State), (r = .modeReqProvision p ∧ m = 2 ∨ r = .modeReqServe p ∧ m =
      3 ∨ r = .modeReqDrain p ∧ m = 4 ∨ r = .modeReqMaintain p ∧ m = 5 ∨ r = .modeReqOther p m) ∧ s.opens p) :=
  ⟨mgmt, 3, .modeReqServe mgmt, dev 2 [], by decide +kernel⟩

/-- Every clause of ModeRequestDecided has operands and a state that meet its hypotheses. -/
theorem witness_ModeRequestDecided :
    (∃ (s : State), s.higherDue = false ∧ s.sys.reqPending = true ∧ s.sys.maintainWaits = false ∧ s.changed = false ∧
      s.mode = modeProvision ∧ s.get SYS_MODE_RES_TARGET = modeMaintain) ∧
    (∃ (s : State), s.higherDue = false ∧ s.sys.reqPending = true ∧ s.sys.maintainWaits = false ∧ s.changed = false ∧
      s.mode = modeProvision ∧ s.get SYS_MODE_RES_TARGET = modeServe ∧ s.serveLacks false ≠ 0) ∧
    (∃ (s : State), s.higherDue = false ∧ s.sys.reqPending = true ∧ s.sys.maintainWaits = false ∧ s.changed = false ∧
      s.mode = modeSafeStop) :=
  ⟨⟨(dev 2 [(SYS_MODE_RES_TARGET, 5)]).modSys fun y => { y with reqPending := true }, by decide +kernel⟩, ⟨(dev 2 [(SYS_MODE_RES_TARGET, 3)]).modSys fun y => { y with reqPending := true }, by decide +kernel⟩, ⟨(dev 6 []).modSys fun y => { y with reqPending := true }, by decide +kernel⟩⟩

/-- Every clause of ModesChangeByTheirEvents has operands and a state that meet its hypotheses. -/
theorem witness_ModesChangeByTheirEvents :
    (∃ (s : State), s.sys.safeStopDue = none ∧ s.actDue = false ∧ s.mode = modeDrain ∧ s.sys.drain = .host ∧ s.changed
      = false ∧ s.flag SYS_STAT_DRAIN_DONE = false ∧ s.sys.maintainWaits = false ∧ (∀ x ∈ s.cmd.cmds, x.started =
      false ∧ x.op ≠ opFlush)) ∧
    (∃ (s : State), s.sys.safeStopDue = none ∧ s.mode = modeSafeStop ∧ s.changed = false ∧ s.actDue = true) ∧
    (∃ (s : State), s.sys.safeStopDue = none ∧ s.mode = modeProvision ∧ s.changed = false ∧ s.actDue = true) ∧
    (∃ (s : State), s.sys.safeStopDue = none ∧ s.mode = modeMaintain ∧ s.changed = false ∧ s.actDue = true) ∧
    (∃ (s : State), s.sys.safeStopDue = none ∧ s.actExpired = true) ∧
    (∃ (s : State), s.flag SYS_STAT_RECOVERING = true ∧ s.get SYS_STAT_REBUILT = 24) ∧
    (∃ (s : State), s.bridgesDue = true) :=
  ⟨⟨(dev 4 []).modSys fun y => { y with drain := .host }, by decide +kernel⟩, ⟨dev 6 [(SYS_STAT_ACT_PENDING, 1)], by decide +kernel⟩, ⟨dev 2 [(SYS_STAT_ACT_PENDING, 1)], by decide +kernel⟩, ⟨dev 5 [(SYS_STAT_ACT_PENDING, 1)], by decide +kernel⟩, ⟨{ ((dev 4 []).modSys fun y => { y with drain := .activation }).modSec fun x => { x with actAt := some 0 } with tick := 2000000000 }, by decide +kernel⟩, ⟨dev 3 [(SYS_STAT_RECOVERING, 1), (SYS_STAT_REBUILT, 24)], by decide +kernel⟩, ⟨dev 6 [(SPN_STAT_STOPPED 0, 1), (SPN_STAT_STOPPED 1, 1)], by decide +kernel⟩⟩

/-- Every clause of HostPortsComeUpAndGoDown has operands and a state that meet its hypotheses. -/
theorem witness_HostPortsComeUpAndGoDown :
    (∃ (port : Fin 2) (s : State), s.portState port = 1) ∧
    (∃ (port : Fin 2) (s : State), s.portState port = 1) ∧
    (∃ (port : Fin 2) (s : State), s.portState port = 2) ∧
    (∃ (port : Fin 2) (s : State), s.portState port = 3) ∧
    (∃ (port : Fin 2) (s : State), s.isUp port = true) ∧
    (∃ (port : Fin 2) (s : State), s.isUp port = true ∧ 8 ≤ s.net.serRun[port]) ∧
    (∃ (p : Path) (port : Fin 2) (en : Bool) (s : State), s.opens p ∧ s.flag (NET_PORT_CTL_ENABLE port) ≠ en) ∧
    (∃ (s : State), s.flag NET_SVC_STAT_PLCA = true) :=
  ⟨⟨1, dev 2 [(NET_PORT_STAT_STATE 1, 1)], by decide +kernel⟩, ⟨0, dev 2 [(NET_PORT_STAT_STATE 0, 1)], by decide +kernel⟩, ⟨0, dev 2 [(NET_PORT_STAT_STATE 0, 2)], by decide +kernel⟩, ⟨1, dev 2 [(NET_PORT_CTL_ENABLE 1, 1), (NET_PORT_CTL_PMD 1, 3), (NET_PORT_STAT_STATE 1, 3)], by decide +kernel⟩, ⟨0, dev 2 [(NET_PORT_STAT_STATE 0, 4), (SYS_STAT_LINK_A, 1)], by decide +kernel⟩, ⟨0, (dev 2 [(NET_PORT_STAT_STATE 0, 4), (SYS_STAT_LINK_A, 1)]).modNet fun n => { n with serRun := #v[8, 0] }, by decide +kernel⟩, ⟨mgmt, 0, true, dev 2 [(NET_PORT_CTL_ENABLE 0, 0)], by decide +kernel⟩, ⟨dev 2 [(NET_SVC_STAT_PLCA, 1)], by decide +kernel⟩⟩

/-- Every clause of DieLinkErrorsAreCountedAndLossStops has operands and a state that meet its hypotheses. -/
theorem witness_DieLinkErrorsAreCountedAndLossStops :
    (∃ (failed : Fin 5), failed.val < 4) ∧
    (∃ (s : State), s.flag SYS_STAT_D2D_UP = true ∧ s.mode = modeServe ∧ s.get UPD_STAT_STATE ≠ 5 ∧ s.sys.safeStopDue
      = none) ∧
    (∃ (s : State), s.flag SYS_STAT_D2D_UP = true ∧ s.mode = modeServe ∧ s.get UPD_STAT_STATE ≠ 5 ∧ s.sys.safeStopDue
      = none) :=
  ⟨⟨2, by decide +kernel⟩, ⟨dev 3 [(SYS_STAT_D2D_UP, 1)], by decide +kernel⟩, ⟨dev 3 [(SYS_STAT_D2D_UP, 1)], by decide +kernel⟩⟩

/-- Every clause of TickBoundaryCountsOneTick has operands and a state that meet its hypotheses. -/
theorem witness_TickBoundaryCountsOneTick :
    (∃ (s : State), s.sys.boot ≠ .held) ∧
    (∃ (s : State), s.sys.boot = .stopped) :=
  ⟨⟨dev 2 [], by decide +kernel⟩, ⟨(dev 1 []).modSys fun y => { y with boot := .stopped }, by decide +kernel⟩⟩

/-- Every clause of TimeEventsMoveTheTickGenerator has operands and a state that meet its hypotheses. -/
theorem witness_TimeEventsMoveTheTickGenerator :
    (∃ (s : State), s.flag TICK_STAT_PTP_VALID = true ∧ s.flag TICK_CTL_DISC_EN = true) ∧
    (∃ (s : State), s.flag TICK_STAT_PTP_VALID = true) ∧
    (∃ (s : State), s.epochDue = true) ∧
    (∃ (n : Fin 48) (s : State), (s.page n 3).toNat ≠ 0 ∧ (s.page n 3).toNat ≤ s.get (CE_KST_W3_FE_CNT n) ∧ (s.slot
      n).feRaised = false) ∧
    (∃ (s : State), s.mtr.on = true ∧ s.ce.rephased = false ∧ 60 ≤ s.get MTR_STAT_EPOCH) :=
  ⟨⟨dev 3 [(TICK_STAT_PTP_VALID, 1), (TICK_CTL_DISC_EN, 1)], by decide +kernel⟩, ⟨dev 3 [(TICK_STAT_PTP_VALID, 1)], by decide +kernel⟩, ⟨{ dev 3 [] with tick := 500000 }, by decide +kernel⟩, ⟨7, (dev 3 [(CE_KST_W3_FE_CNT 7, 9)]).setReg (pageAddr 7 3) 9, by decide +kernel⟩, ⟨{ dev 3 [(MTR_STAT_EPOCH, 60)] with mtr := { on := true } }, by decide +kernel⟩⟩

/-- Every clause of SynchronisationAndExternalSetPoints has operands and a state that meet its hypotheses. -/
theorem witness_SynchronisationAndExternalSetPoints :
    (∃ (falling : Bool) (s : State), s.flag CE_SYNC_CTL_EN = true ∧ s.flag CE_SYNC_CTL_EDGE = falling) ∧
    (∃ (s : State), s.flag CE_SYNC_STAT_VALID = true ∧ s.syncOverdue = true) ∧
    (∃ (p : Path) (s : State), s.opens p ∧ s.mode = modeMaintain) ∧
    (∃ (p : Path) (s : State), s.opens p ∧ s.mode ≠ modeMaintain) ∧
    (∃ (p : Path) (w : Fin 64) (s : State), s.opens p ∧ 1 ≤ w.val ∧ w.val ≤ 5 ∧ s.ce.wbuf.length < 64) ∧
    (∃ (p : Path) (s : State), s.opens p) :=
  ⟨⟨false, dev 3 [(CE_SYNC_CTL_EN, 1)], by decide +kernel⟩, ⟨dev 3 [(CE_SYNC_STAT_VALID, 1)], by decide +kernel⟩, ⟨mgmt, dev 5 [], by decide +kernel⟩, ⟨mgmt, dev 3 [], by decide +kernel⟩, ⟨mgmt, 3, dev 3 [], by decide +kernel⟩, ⟨mgmt, dev 3 [], by decide +kernel⟩⟩

/-- Every clause of TraceUnitsArmTriggerAndDeliver has operands and a state that meet its hypotheses. -/
theorem witness_TraceUnitsArmTriggerAndDeliver :
    (∃ (p : Path) (n : Fin 4) (s : State), s.opens p ∧ nodeListed (s.get (CE_TRC_NODE_NODE n)) = true ∧ nodeListed
      (s.get (CE_TRC_TRIG_NODE n)) = true) ∧
    (∃ (p : Path) (n : Fin 4) (s : State), s.opens p ∧ s.get (CE_TRC_TRIG_COND n) = 0 ∧ s.get (CE_TRC_STAT_STATE n) =
      1 ∧ s.get (CE_TRC_PRE_PRE n) ≤ (s.trace n).samples.length) ∧
    (∃ (n : Fin 4) (s : State), s.get (CE_TRC_STAT_STATE n) = 2 ∧ (s.trace n).left = 0) ∧
    (∃ (p : Path) (n : Fin 4) (s : State), s.silent p = false ∧ s.readRefusal p false = none ∧ s.get (CE_TRC_STAT_RES
      n) = 0) ∧
    (∃ (p : Path) (n : Fin 4) (s : State), s.silent p = false ∧ s.readRefusal p false = none ∧ s.get (CE_TRC_STAT_RES
      n) = 1) ∧
    (∃ (p : Path) (n : Fin 4) (s : State), s.opens p ∧ s.get (CE_TRC_STAT_STATE n) = 3) :=
  ⟨⟨mgmt, 2, dev 3 [], by decide +kernel⟩, ⟨mgmt, 2, dev 3 [(CE_TRC_STAT_STATE 2, 1)], by decide +kernel⟩, ⟨1, dev 3 [(CE_TRC_STAT_STATE 1, 2)], by decide +kernel⟩, ⟨mgmt, 1, dev 3 [], by decide +kernel⟩, ⟨mgmt, 1, dev 3 [(CE_TRC_STAT_RES 1, 1)], by decide +kernel⟩, ⟨mgmt, 0, dev 3 [(CE_TRC_STAT_STATE 0, 3)], by decide +kernel⟩⟩

/-- Every clause of RegisterReadsLatchAndAdvance has operands and a state that meet its hypotheses. -/
theorem witness_RegisterReadsLatchAndAdvance :
    (∃ (p : Path) (s : State), s.silent p = false ∧ s.readRefusal p false = none) ∧
    (∃ (p : Path) (s : State), s.silent p = false ∧ s.readRefusal p false = none) ∧
    (∃ (p : Path) (s : State), s.silent p = false ∧ s.readRefusal p false = none ∧ s.get CMD_TC_IDX_WORD = 3) ∧
    (∃ (p : Path) (s : State), s.silent p = false ∧ s.readRefusal p false = none ∧ s.get MTR_CUR_IDX_WORD < 15) ∧
    (∃ (p : Path) (v : Word) (s : State), s.opens p ∧ s.get FLT_SRC_IDX_WORD = 0 ∧ v ≠ 0) ∧
    (∃ (s : State), s.jackOnly = false) :=
  ⟨⟨mgmt, { dev 3 [] with tick := 0x500000007 }, by decide +kernel⟩, ⟨mgmt, dev 3 [(FLT_SRC_IDX_SRC, 5)], by decide +kernel⟩, ⟨mgmt, dev 3 [(CMD_TC_IDX_WORD, 3)], by decide +kernel⟩, ⟨mgmt, dev 3 [], by decide +kernel⟩, ⟨mgmt, 1, dev 3 [(FLT_SRC_IDX_SRC, 5)], by decide +kernel⟩, ⟨dev 3 [], by decide +kernel⟩⟩

/-- Every clause of RegisterCommandsRead has operands and a state that meet its hypotheses. -/
theorem witness_RegisterCommandsRead :
    (∃ (p : Path) (e : Entry) (s : State), s.quiet ∧ s.clear p ∧ s.entryCode p opRegRead e = none ∧ s.modeCode p
      opRegRead e = none ∧ e.len = 0 ∧ e.arg0.toNat < 0x90000 ∧ isMapped e.arg0.toNat = true ∧ (s.readActs p
      e.arg0.toNat).isNone = true) ∧
    (∃ (p : Path) (e : Entry) (s : State), s.quiet ∧ s.clear p ∧ s.entryCode p opRegRead e = none ∧ s.modeCode p
      opRegRead e = none ∧ isMapped e.arg0.toNat = false) ∧
    (∃ (p : Path) (e : Entry) (s : State), s.quiet ∧ s.clear p ∧ s.entryCode p opRegWrite e = none ∧ s.modeCode p
      opRegWrite e = none ∧ s.writeRefusal p = none ∧ inBlock 1 e.arg0.toNat ∧ isMapped e.arg0.toNat = true ∧ inRange
      e.arg0.toNat e.arg1 = true) ∧
    (∃ (p : Path) (e : Entry) (s : State), s.quiet ∧ s.clear p ∧ s.entryCode p opRegWrite e = none ∧ s.modeCode p
      opRegWrite e = none ∧ isMapped e.arg0.toNat = false) :=
  ⟨⟨mgmt, { arg0 := 8 }, dev 3 [], by decide +kernel⟩, ⟨.service, { arg0 := 4096 }, { dev 3 [] with cmd := {} }, by decide +kernel⟩, ⟨.service, { arg0 := 0x10000, arg1 := 1 }, { dev 3 [] with cmd := {} }, by decide +kernel⟩, ⟨.service, { arg0 := 4096 }, { dev 3 [] with cmd := {} }, by decide +kernel⟩⟩

/-- Every clause of PickupOrdersStartTheirSequences has operands and a state that meet its hypotheses. -/
theorem witness_PickupOrdersStartTheirSequences :
    (∃ (p : Path) (n : Fin 4) (layer : BitVec 5) (s : State), s.opens p ∧ s.mode = modeMaintain ∧ layer.toNat ≤ 23 ∧
      (s.puOf n).op = none ∧ (s.puOf n).next = none ∧ s.calHolds (n / 2) = false ∧ s.acqSlots n = true ∧ s.puState n =
      puParked ∧ s.axState n ≠ axDisabled) ∧
    (∃ (p : Path) (n : Fin 4) (layer : BitVec 5) (s : State), s.opens p ∧ s.mode = modeMaintain ∧ layer.toNat ≤ 23 ∧
      (s.puOf n).op = none ∧ (s.puOf n).next = none ∧ s.calHolds (n / 2) = false ∧ s.jumpSlots n = true ∧ s.puState n
      = puTracking ∧ s.flag (OPU_STAT_GATE n) = false) ∧
    (∃ (p : Path) (n : Fin 4) (s : State), s.opens p ∧ s.mode = modeMaintain ∧ (s.puOf n).op = none ∧ (s.puOf n).next
      = none ∧ s.calHolds (n / 2) = false ∧ s.slotsReady n = true ∧ s.puState n = puTracking) ∧
    (∃ (p : Path) (n : Fin 4) (s : State), s.opens p ∧ s.mode = modeMaintain ∧ (s.puOf n).op = none ∧ (s.puOf n).next
      = none ∧ s.calHolds (n / 2) = false ∧ s.slotsReady n = true ∧ s.puState n ≠ puOff ∧ s.puState n ≠ puUnusable) ∧
    (∃ (p : Path) (n : Fin 4) (s : State), s.opens p ∧ s.mode = modeMaintain ∧ (s.puOf n).op = none ∧ (s.puOf n).next
      = none ∧ s.calHolds (n / 2) = false ∧ s.slotsReady n = true ∧ s.puState n = puTracking) ∧
    (∃ (p : Path) (n : Fin 4) (s : State), s.opens p ∧ s.mode = modeMaintain ∧ (s.puOf n).op = none ∧ (s.puOf n).next
      = none ∧ s.calHolds (n / 2) = false ∧ s.slotsReady n = true ∧ s.puState n = puTracking) ∧
    (∃ (p : Path) (n : Fin 4) (s : State), s.opens p ∧ s.puState n ≠ puUnusable) ∧
    (∃ (p : Path) (s : State), s.opens p) ∧
    (∃ (p : Path) (s : State), s.opens p ∧ s.mode ≠ modeMaintain) :=
  ⟨⟨mgmt, 0, 7, servo 5 [(OPU_STAT_STATE 0, 1), (AX_STAT_STATE 0, 1)], by decide +kernel⟩, ⟨mgmt, 0, 7, servo 5 [(OPU_STAT_STATE 0, 5)], by decide +kernel⟩, ⟨mgmt, 0, servo 5 [(OPU_STAT_STATE 0, 5)], by decide +kernel⟩, ⟨mgmt, 0, servo 5 [(OPU_STAT_STATE 0, 5)], by decide +kernel⟩, ⟨mgmt, 0, servo 5 [(OPU_STAT_STATE 0, 5)], by decide +kernel⟩, ⟨mgmt, 0, servo 5 [(OPU_STAT_STATE 0, 5)], by decide +kernel⟩, ⟨mgmt, 1, dev 3 [(OPU_STAT_STATE 1, 5), (OPU_CTL_ENABLE 1, 1)], by decide +kernel⟩, ⟨mgmt, dev 3 [], by decide +kernel⟩, ⟨mgmt, dev 3 [], by decide +kernel⟩⟩

/-- Every clause of FocusAndJumpsAdvance has operands and a state that meet its hypotheses. -/
theorem witness_FocusAndJumpsAdvance :
    (∃ (n : Fin 4) (s : State), s.focusCaptures n = true ∧ s.puState n = puAcqFocus ∧ (s.puOf n).layer < 32) ∧
    (∃ (n : Fin 4) (s : State), s.puState n = puAcqFocus ∧ (s.puOf n).captured = false ∧ s.sweepOver n = true ∧
      (s.puOf n).tries < s.get (OPU_FA_CFG_RETRY n)) ∧
    (∃ (n : Fin 4) (s : State), s.puState n = puAcqFocus ∧ (s.puOf n).captured = false ∧ s.sweepOver n = true ∧ s.get
      (OPU_FA_CFG_RETRY n) ≤ (s.puOf n).tries) ∧
    (∃ (n : Fin 4) (s : State), s.puState n = puReacq ∧ (s.puOf n).captured = false ∧ s.sweepOver n = true ∧ (s.puOf
      n).full = true ∧ s.get (OPU_FA_CFG_RETRY n) ≤ (s.puOf n).tries) ∧
    (∃ (n : Fin 4) (k : Nat) (s : State), (s.puOf n).saSince = some k ∧ s.get (OPU_SA_CFG_SETTLE n) ≤ s.tick - k) ∧
    (∃ (n : Fin 4) (s : State), s.jumpCaptures n = true) ∧
    (∃ (n : Fin 4) (s : State), s.puState n = puLayerJump ∧ (s.puOf n).captured = true ∧ (s.puOf n).confirmed = true ∧
      (s.puOf n).profileDone = true ∧ (s.puOf n).seen = (s.puOf n).turn ∧ s.get (OPU_TRK_CFG_TRK_SETTLE n) ≤ (s.puOf
      n).trkOk) ∧
    (∃ (n : Fin 4) (s : State), s.puState n = puLayerJump ∧ s.get (OPU_LJ_CFG_TMO n) ≤ s.tick - (s.puOf n).attempt ∧
      s.get (OPU_LJ_CFG_RETRY n) ≤ (s.puOf n).tries) ∧
    (∃ (n : Fin 4) (s : State), (s.puState n = puSeek ∨ s.puState n = puAcqTrack) ∧ (s.puOf n).thenJump = none ∧
      (s.puOf n).turn < 2 ^ 18 ∧ (s.puOf n).profileDone = true ∧ (s.puOf n).seen = (s.puOf n).turn ∧ s.get
      (OPU_TRK_CFG_TRK_SETTLE n) ≤ (s.puOf n).trkOk) ∧
    (∃ (n : Fin 4) (s : State), (s.puState n = puSeek ∨ s.puState n = puAcqTrack) ∧ (s.puOf n).thenJump = none ∧
      (s.puOf n).profileDone = true ∧ (s.puOf n).seen ≠ (s.puOf n).turn ∧ (s.puOf n).seeks = 3) :=
  ⟨⟨2, (dev 3 [(OPU_STAT_STATE 2, 2)]).modPu 2 fun k => { k with op := some .acquire, layer := 9, feZero := true, peak := true, peaks := 11 }, by decide +kernel⟩, ⟨2, { dev 3 [(OPU_STAT_STATE 2, 2), (OPU_FA_CFG_RETRY 2, 2)] with tick := 900000 }, by decide +kernel⟩, ⟨2, { ((dev 3 [(OPU_STAT_STATE 2, 2)]).modPu 2 fun k => { k with tries := 9 }) with tick := 900000 }, by decide +kernel⟩, ⟨2, { ((dev 3 [(OPU_STAT_STATE 2, 8)]).modPu 2 fun k => { k with tries := 9, full := true }) with tick := 900000 }, by decide +kernel⟩, ⟨2, 4, { ((dev 3 []).modPu 2 fun k => { k with saSince := some 4 }) with tick := 900000 }, by decide +kernel⟩, ⟨1, (dev 3 [(OPU_STAT_STATE 1, 6), (OPU_LAYER_TARGET 1, 4)]).modPu 1 fun k => { k with layer := 4, xings := 4, sumOk := true }, by decide +kernel⟩, ⟨1, (dev 3 [(OPU_STAT_STATE 1, 6)]).modPu 1 fun k => { k with captured := true, confirmed := true, op := some .jump, trkOk := 9999 }, by decide +kernel⟩, ⟨1, { ((dev 3 [(OPU_STAT_STATE 1, 6)]).modPu 1 fun k => { k with tries := 7 }) with tick := 9000000 }, by decide +kernel⟩, ⟨3, (dev 3 [(OPU_STAT_STATE 3, 7)]).modPu 3 fun k => { k with turn := 5, seen := 5, op := some .seek, trkOk := 9999 }, by decide +kernel⟩, ⟨3, (dev 3 [(OPU_STAT_STATE 3, 7)]).modPu 3 fun k => { k with turn := 5, seeks := 3 }, by decide +kernel⟩⟩

/-- Every clause of ServoFieldsAndDefects has operands and a state that meet its hypotheses. -/
theorem witness_ServoFieldsAndDefects :
    (∃ (n : Fin 4) (r : FieldRead) (s : State), (s.fieldPlace n r).map Prod.fst ≠ some (s.get (OPU_LAYER_CUR n))) ∧
    (∃ (n : Fin 4) (r : FieldRead) (s : State), s.fieldPlace n r = none) ∧
    (∃ (n : Fin 4) (r : FieldRead) (v : Int) (s : State), s.fieldPlace n r = some (s.get (OPU_LAYER_CUR n), v)) ∧
    (∃ (n : Fin 4) (s : State), s.puState n = puTracking ∧ (s.enabledSpots n).all (fun k => decide (s.get
      (OPU_SF_CFG_MISS_MAX n) ≤ nth (s.puOf n).miss.toList k 0)) = true) ∧
    (∃ (n : Fin 4) (s : State), s.puState n = puSeek ∧ s.enabledSpots n = []) ∧
    (∃ (n : Fin 4) (env : BitVec 14) (s : State), (s.puOf n).dropout = false ∧ ((100 * env.toNat : Nat) : Rat) <
      ((s.get (OPU_DEF_CFG_THR n) : Nat) : Rat) * s.rfAverage n) ∧
    (∃ (n : Fin 4) (env : BitVec 14) (s : State), ((s.get (OPU_DEF_CFG_THR n) + s.get (OPU_DEF_CFG_HYS n) : Nat) :
      Rat) * s.rfAverage n < ((100 * env.toNat : Nat) : Rat)) ∧
    (∃ (n : Fin 4) (s : State), (s.puState n = puTracking ∨ s.puState n = puSeek) ∧ (s.puOf n).dropout = true ∧ s.get
      (OPU_DEF_CFG_MAXHOLD n) ≤ (s.puOf n).hold) ∧
    (∃ (n : Fin 4) (s : State), s.puState n = puReacq ∧ (s.puOf n).captured = true ∧ (s.puOf n).confirmed = true ∧
      (s.puOf n).turn < 2 ^ 18 ∧ (s.puOf n).profileDone = true ∧ (s.puOf n).seen = (s.puOf n).turn ∧ s.get
      (OPU_TRK_CFG_TRK_SETTLE n) ≤ (s.puOf n).trkOk) ∧
    (∃ (n : Fin 4) (s : State), 500 ≤ (s.puOf n).lensRun) :=
  ⟨⟨1, { bits := 0, dA := 0, dB := 0, field := 5 }, dev 3 [], by decide +kernel⟩, ⟨1, { bits := 0, dA := 0, dB := 0, field := 5 }, dev 3 [], by decide +kernel⟩, ⟨1, field7, 7 * 256, dev 3 [], by decide +kernel⟩, ⟨1, (dev 3 [(OPU_STAT_STATE 1, 5)]).modPu 1 fun k => { k with miss := Vector.replicate 4 99 }, by decide +kernel⟩, ⟨1, dev 3 [(OPU_STAT_STATE 1, 7), (OPU_TRK_CFG_SPOT_MASK 1, 0)], by decide +kernel⟩, ⟨1, 0, { (dev 3 [(OPU_DEF_CFG_THR 1, 60)]).setReg (CAL_ADC 17) 0x80000000 with ce := { adc := List.replicate 48 100 } }, by decide +kernel⟩, ⟨1, 9, (dev 3 []).setReg (CAL_ADC 17) 0x1000, by decide +kernel⟩, ⟨1, (dev 3 [(OPU_STAT_STATE 1, 5)]).modPu 1 fun k => { k with dropout := true, hold := 9999 }, by decide +kernel⟩, ⟨1, (dev 3 [(OPU_STAT_STATE 1, 8)]).modPu 1 fun k => { k with captured := true, confirmed := true, trkOk := 9999 }, by decide +kernel⟩, ⟨0, (dev 3 []).modPu 0 fun k => { k with lensRun := 500 }, by decide +kernel⟩⟩

/-- Every clause of WriteGateAndLaserGuards has operands and a state that meet its hypotheses. -/
theorem witness_WriteGateAndLaserGuards :
    (∃ (p : Path) (n : Fin 4) (s : State), s.opens p ∧ s.flag (OPU_STAT_GATE n) = true) ∧
    (∃ (n : Fin 4) (pp : BitVec 16) (shockX : BitVec 12) (shockY : BitVec 12) (v : Nat) (s : State), s.wiCauses n
      ((pp.toInt : Int) : Rat) ((shockX.toNat : Nat) : Rat) ((shockY.toNat : Nat) : Rat) = v ∧ v ≠ 0 ∧ s.flag
      (OPU_STAT_GATE n) = true) ∧
    (∃ (n : Fin 4) (pp : BitVec 16) (shockX : BitVec 12) (shockY : BitVec 12) (v : Nat) (s : State), s.wiCauses n
      ((pp.toInt : Int) : Rat) ((shockX.toNat : Nat) : Rat) ((shockY.toNat : Nat) : Rat) = v ∧ v ≠ 0 ∧ s.flag
      (OPU_STAT_GATE n) = false) ∧
    (∃ (n : Fin 4) (s : State), s.flag (OPU_STAT_WI_ACTIVE n) = true ∧ s.get (OPU_WI_CFG_REARM n) ≤ s.tick - (s.puOf
      n).clearSince) ∧
    (∃ (n : Fin 4) (write : Bool) (s : State), 250 ≤ (if write then (s.puOf n).wrLimRun else (s.puOf n).rdLimRun)) ∧
    (∃ (n : Fin 4) (s : State), (s.get (OPU_TEMP_LIM n) : Int) < s.getInt (OPU_TEMP_TEMP n)) :=
  ⟨⟨mgmt, 1, dev 3 [(OPU_STAT_GATE 1, 1)], by decide +kernel⟩, ⟨1, 5, 0, 0, 1, dev 3 [(OPU_STAT_GATE 1, 1)], by decide +kernel⟩, ⟨1, 5, 0, 0, 1, dev 3 [], by decide +kernel⟩, ⟨1, { dev 3 [(OPU_STAT_WI_ACTIVE 1, 1)] with tick := 999999 }, by decide +kernel⟩, ⟨1, true, (dev 3 []).modPu 1 fun k => { k with wrLimRun := 250 }, by decide +kernel⟩, ⟨1, dev 3 [(OPU_TEMP_LIM 1, 900), (OPU_TEMP_TEMP 1, 901)], by decide +kernel⟩⟩

/-- Every clause of FramesAndBlocksAreRead has operands and a state that meet its hypotheses. -/
theorem witness_FramesAndBlocksAreRead :
    (∃ (k : Fin 16) (s : State), s.decodes k = false) ∧
    (∃ (k : Fin 16) (frame : BitVec 24) (s : State), s.secondCopy (k / 4) frame.toNat = true) ∧
    (∃ (k : Fin 16) (frame : BitVec 24) (s : State), s.decodes k = true ∧ s.readGate k = false ∧ s.servesFrame (k / 4)
      frame.toNat = true ∧ s.secondCopy (k / 4) frame.toNat = false) ∧
    (∃ (k : Fin 16) (frame : BitVec 24) (r : FrameRead) (g : Nat) (s : State), s.readGate k = true ∧
      (s.chn.gateAt[k.val]?).getD none = some g ∧ g + r.age.toNat ≤ s.tick ∧ s.servesFrame (k / 4) frame.toNat = true
      ∧ s.secondCopy (k / 4) frame.toNat = false ∧ r.env.toNat < 20 ∧ s.heldFrame (k / 4) frame.toNat = false) ∧
    (∃ (k : Fin 16) (frame : BitVec 24) (r : FrameRead) (g : Nat) (s : State), s.readGate k = true ∧
      (s.chn.gateAt[k.val]?).getD none = some g ∧ g + r.age.toNat ≤ s.tick ∧ s.servesFrame (k / 4) frame.toNat = true
      ∧ s.secondCopy (k / 4) frame.toNat = false ∧ (20 ≤ r.env.toNat ∨ s.heldFrame (k / 4) frame.toNat = true) ∧
      firstFraming (s.candidatesOf k (markScores r.bits syncMarkA 160 (s.get (CHN_SYNC_CFG_WIN k)))) (s.candidatesOf k
      (markScores r.bits syncMarkB 27856 (s.get (CHN_SYNC_CFG_WIN k)))) = none) ∧
    (∃ (k : Fin 16) (frame : BitVec 24) (r : FrameRead) (g : Nat) (x : Framing) (s : State), s.readGate k = true ∧
      (s.chn.gateAt[k.val]?).getD none = some g ∧ g + r.age.toNat ≤ s.tick ∧ s.servesFrame (k / 4) frame.toNat = true
      ∧ s.secondCopy (k / 4) frame.toNat = false ∧ (20 ≤ r.env.toNat ∨ s.heldFrame (k / 4) frame.toNat = true) ∧
      firstFraming (s.candidatesOf k (markScores r.bits syncMarkA 160 (s.get (CHN_SYNC_CFG_WIN k)))) (s.candidatesOf k
      (markScores r.bits syncMarkB 27856 (s.get (CHN_SYNC_CFG_WIN k)))) = some x ∧ (s.chn.frames[2 * k.val]?).getD
      none = none) ∧
    (∃ (k : Fin 16) (e : Fin 2) (r : LdpcResult) (f : FrameSt) (s : State), (s.chn.frames[2 * k.val + e.val]?).getD
      none = some f ∧ s.tick < f.at_ + 1 + (if r.ok = true ∧ r.iter.toNat ≤ s.get (CHN_LDPC_CFG_ITER_MAX k) then
      r.iter.toNat else s.get (CHN_LDPC_CFG_ITER_MAX k))) ∧
    (∃ (k : Fin 16) (e : Fin 2) (r : LdpcResult) (f : FrameSt) (s : State), (s.chn.frames[2 * k.val + e.val]?).getD
      none = some f ∧ r.ok = true ∧ r.iter.toNat ≤ s.get (CHN_LDPC_CFG_ITER_MAX k) ∧ f.at_ + 1 + r.iter.toNat ≤ s.tick
      ∧ f.extra = 0 ∧ f.frame < 2 ^ 24 ∧ (s.chn.queued[k.val]?).getD [] = []) ∧
    (∃ (k : Fin 16) (e : Fin 2) (r : LdpcResult) (f : FrameSt) (x : FrameSt) (s : State), (s.chn.frames[2 * k.val +
      e.val]?).getD none = some f ∧ r.ok = false ∧ f.at_ + 1 + s.get (CHN_LDPC_CFG_ITER_MAX k) ≤ s.tick ∧ f.next
      (f.suspect || decide (s.get (CHN_SYNC_CFG_FRM_SUSP k) * 4096 < r.unsat.toNat * 100) || s.onFourth (k / 4)
      f.frame) = some x) ∧
    (∃ (k : Fin 16) (e : Fin 2) (r : LdpcResult) (f : FrameSt) (s : State), (s.chn.frames[2 * k.val + e.val]?).getD
      none = some f ∧ r.ok = false ∧ f.at_ + 1 + s.get (CHN_LDPC_CFG_ITER_MAX k) ≤ s.tick ∧ f.next (f.suspect ||
      decide (s.get (CHN_SYNC_CFG_FRM_SUSP k) * 4096 < r.unsat.toNat * 100) || s.onFourth (k / 4) f.frame) = none ∧
      (s.chn.queued[k.val]?).getD [] = []) ∧
    (∃ (n : Fin 4) (first : BitVec 24) (b : BlockSt) (m : Nat) (s : State), s.chn.blocks.find? (fun b => b.pu == n.val
      && b.first == first.toNat && decide (0 < b.rung) && !b.waits && decide (rungTurns b.rung ≤ b.revs)) = some b ∧
      b.failed ≠ [] ∧ s.nextRung b.rung = m ∧ m < 6) ∧
    (∃ (n : Fin 4) (first : BitVec 24) (b : BlockSt) (s : State), s.chn.blocks.find? (fun b => b.pu == n.val &&
      b.first == first.toNat && decide (0 < b.rung) && !b.waits && decide (rungTurns b.rung ≤ b.revs)) = some b ∧
      b.failed ≠ [] ∧ s.nextRung b.rung = 6 ∧ b.failed.length ≤ 2) ∧
    (∃ (n : Fin 4) (first : BitVec 24) (b : BlockSt) (s : State), s.chn.blocks.find? (fun b => b.pu == n.val &&
      b.first == first.toNat && decide (0 < b.rung) && !b.waits && decide (rungTurns b.rung ≤ b.revs)) = some b ∧
      s.nextRung b.rung = 6 ∧ 2 < b.failed.length ∧ (s.blockIn n b).isNone = true) ∧
    (∃ (n : Fin 4) (first : BitVec 24) (b : BlockSt) (e : MapEnt) (blk : Nat) (s : State), s.chn.blocks.find? (fun b
      => b.pu == n.val && b.first == first.toNat && decide (0 < b.rung) && !b.waits && decide (rungTurns b.rung ≤
      b.revs)) = some b ∧ s.nextRung b.rung = 6 ∧ 2 < b.failed.length ∧ s.blockIn n b = some (e, blk)) :=
  ⟨⟨1, dev 3 [(CHN_SPOT_CTL_ENABLE 1, 0)], by decide +kernel⟩, ⟨1, 300000, ((dev 3 [(OPU_STAT_STATE 0, 5), (OPU_STAT_ON_LAYER 0, 1), (CHN_SPOT_CTL_ENABLE 1, 1)]).modChn fun c => { c with gateAt := c.gateAt.setIfInBounds 1 (some 0) }).modChn fun c => { c with frames := c.frames.setIfInBounds 3 (some { frame := 300000 }) }, by decide +kernel⟩, ⟨1, 300000, dev 3 [(OPU_STAT_STATE 0, 7), (CHN_SPOT_CTL_ENABLE 1, 1)], by decide +kernel⟩, ⟨1, 300000, { env := 5 }, 0, ((dev 3 [(OPU_STAT_STATE 0, 5), (OPU_STAT_ON_LAYER 0, 1), (CHN_SPOT_CTL_ENABLE 1, 1)]).modChn fun c => { c with gateAt := c.gateAt.setIfInBounds 1 (some 0) }), by decide +kernel⟩, ⟨1, 300000, {}, 0, ((dev 3 [(OPU_STAT_STATE 0, 5), (OPU_STAT_ON_LAYER 0, 1), (CHN_SPOT_CTL_ENABLE 1, 1)]).modChn fun c => { c with gateAt := c.gateAt.setIfInBounds 1 (some 0) }), by decide +kernel⟩, ⟨1, 300000, {}, 0, { a := 0, b := 0, sa := matchBits 0 48 syncMarkA 160, sb := matchBits 0 48 syncMarkB 27856 }, (((dev 3 [(OPU_STAT_STATE 0, 5), (OPU_STAT_ON_LAYER 0, 1), (CHN_SPOT_CTL_ENABLE 1, 1)]).modChn fun c => { c with gateAt := c.gateAt.setIfInBounds 1 (some 0) }).set (CHN_SYNC_CFG_THR 1) 0).set (CHN_SYNC_CFG_WIN 1) 0, by decide +kernel⟩, ⟨1, 1, { ok := true, iter := 4 }, { frame := 300000, at_ := 4999 }, { (dev 3 []).modChn fun c => { c with frames := c.frames.setIfInBounds 3 (some { frame := 300000, at_ := 4999 }) } with tick := 5000 }, by decide +kernel⟩, ⟨1, 1, { ok := true, iter := 4 }, { frame := 300000 }, { (dev 3 []).modChn fun c => { c with frames := c.frames.setIfInBounds 3 (some { frame := 300000 }) } with tick := 5000 }, by decide +kernel⟩, ⟨1, 1, { ok := false }, { frame := 300000, trySeeds := true }, { frame := 300000, trySeeds := true, seed := 1, attempts := 2 }, { (dev 3 []).modChn fun c => { c with frames := c.frames.setIfInBounds 3 (some { frame := 300000, trySeeds := true }) } with tick := 5000 }, by decide +kernel⟩, ⟨1, 1, { ok := false }, { frame := 300000, extra := 3 }, { (dev 3 []).modChn fun c => { c with frames := c.frames.setIfInBounds 3 (some { frame := 300000, extra := 3 }) } with tick := 5000 }, by decide +kernel⟩, ⟨2, 300000, { pu := 2, first := 300000, rung := 1, revs := 3, failed := [4, 5, 6] }, 2, (dev 3 []).modChn fun c => { c with blocks := [{ pu := 2, first := 300000, rung := 1, revs := 3, failed := [4, 5, 6] }] }, by decide +kernel⟩, ⟨2, 300000, { pu := 2, first := 300000, rung := 5, revs := 3, failed := [4] }, (dev 3 []).modChn fun c => { c with blocks := [{ pu := 2, first := 300000, rung := 5, revs := 3, failed := [4] }] }, by decide +kernel⟩, ⟨2, 300000, { pu := 2, first := 300000, rung := 5, revs := 3, failed := [1, 2, 3] }, (dev 3 []).modChn fun c => { c with blocks := [{ pu := 2, first := 300000, rung := 5, revs := 3, failed := [1, 2, 3] }] }, by decide +kernel⟩, ⟨2, 196610, { pu := 2, first := 196610, rung := 5, revs := 3, failed := [1, 2, 3] }, { id := u7, slot := 3, hdr := 196608, flags := 3, len := 100 }, 0, (({ (dev 3 []).modChn fun c => { c with blocks := [{ pu := 2, first := 196610, rung := 5, revs := 3, failed := [1, 2, 3] }] } with plc := { map := [{ id := u7, slot := 3, hdr := 196608, flags := 3, len := 100 }] } } : State).modArb 1 fun a => { a with job := some (job7 false) }), by decide +kernel⟩⟩

/-- Every clause of ExtentsAreWrittenAndCommitted has operands and a state that meet its hypotheses. -/
theorem witness_ExtentsAreWrittenAndCommitted :
    (∃ (n : Fin 4) (slot : Nat) (j : Job) (u : JobUnit) (d : UnitData) (s : State), s.discAt n = some slot ∧ (s.arbOf
      (n / 2)).job = some j ∧ j.write = true ∧ j.slot = some slot ∧ j.units.find? (fun u => u.side == n.val % 2) =
      some u ∧ s.unitData u.id = some d ∧ (s.chn.ext[n.val]?).getD none = none ∧ (s.chn.opc[n.val]?).getD none = none
      ∧ s.get (OPU_LAYER_CUR n) = u.layer ∧ (s.layerOf slot (n.val % 2) u.layer).unwritable = false ∧ s.hasRoom
      (s.layerOf slot (n.val % 2) u.layer) n = true ∧ (s.layerOf slot (n.val % 2) u.layer).found = true ∧ s.flag
      (OPU_STAT_WRITE_READY n) = true ∧ s.flag (OPU_STAT_WRITE_MODE n) = true ∧ s.puState n = puTracking ∧ (s.layerOf
      slot (n.val % 2) u.layer).opcDone = true) ∧
    (∃ (n : Fin 4) (slot : Nat) (j : Job) (u : JobUnit) (d : UnitData) (s : State), s.discAt n = some slot ∧ (s.arbOf
      (n / 2)).job = some j ∧ j.write = true ∧ j.slot = some slot ∧ j.units.find? (fun u => u.side == n.val % 2) =
      some u ∧ s.unitData u.id = some d ∧ (s.chn.ext[n.val]?).getD none = none ∧ (s.chn.opc[n.val]?).getD none = none
      ∧ s.get (OPU_LAYER_CUR n) = u.layer ∧ (s.layerOf slot (n.val % 2) u.layer).unwritable = false ∧ s.hasRoom
      (s.layerOf slot (n.val % 2) u.layer) n = true ∧ (s.layerOf slot (n.val % 2) u.layer).found = true ∧ s.flag
      (OPU_STAT_WRITE_READY n) = true ∧ s.flag (OPU_STAT_WRITE_MODE n) = true ∧ s.puState n = puTracking ∧ (s.layerOf
      slot (n.val % 2) u.layer).opcDone = false) ∧
    (∃ (n : Fin 4) (frame : BitVec 11) (r : FrameCheck) (x : ExtSt) (s : State), (s.chn.ext[n.val]?).getD none = some
      x ∧ x.left ≠ 0 ∧ frame.toNat = x.frameAt ∧ x.doomed = false ∧ s.checkOk n r = true) ∧
    (∃ (n : Fin 4) (frame : BitVec 11) (r : FrameCheck) (x : ExtSt) (s : State), (s.chn.ext[n.val]?).getD none = some
      x ∧ x.left ≠ 0 ∧ frame.toNat = x.frameAt ∧ x.doomed = false ∧ s.checkOk n r = false ∧ x.tail.length < s.get
      (CHN_WR_CTL_REWR_MAX n) ∧ x.tail.length < 63) ∧
    (∃ (n : Fin 4) (frame : BitVec 11) (r : FrameCheck) (x : ExtSt) (s : State), s.quiet ∧ (s.chn.ext[n.val]?).getD
      none = some x ∧ x.left ≠ 0 ∧ frame.toNat = x.frameAt ∧ x.doomed = false ∧ s.checkOk n r = false ∧ s.get
      (CHN_WR_CTL_REWR_MAX n) ≤ x.tail.length) ∧
    (∃ (n : Fin 4) (frame : BitVec 11) (x : ExtSt) (s : State), s.quiet ∧ (s.chn.ext[n.val]?).getD none = some x ∧
      x.left ≠ 0 ∧ frame.toNat = x.frameAt ∧ x.doomed = true) ∧
    (∃ (n : Fin 4) (r : FrameCheck) (x : ExtSt) (s : State), (s.chn.ext[n.val]?).getD none = some x ∧ x.left = 0 ∧
      s.checkOk n r = false ∧ x.judged + 1 < min 4 (x.copies + 1)) ∧
    (∃ (n : Fin 4) (r : FrameCheck) (x : ExtSt) (s : State), s.quiet ∧ (s.chn.ext[n.val]?).getD none = some x ∧ x.left
      = 0 ∧ x.doomed = false ∧ s.checkOk n r = true ∧ x.copies ≤ x.judged + 1) ∧
    (∃ (n : Fin 4) (r : FrameCheck) (x : ExtSt) (s : State), s.quiet ∧ (s.chn.ext[n.val]?).getD none = some x ∧ x.left
      = 0 ∧ s.checkOk n r = false ∧ x.passed = 0 ∧ min 4 (x.copies + 1) ≤ x.judged + 1) ∧
    (∃ (n : Fin 4) (errors : List (BitVec 16)) (l : Nat) (slot : Nat) (s : State), (s.chn.opc[n.val]?).getD none =
      some l ∧ s.discAt n = some slot ∧ l < 24 ∧ (nth errors (bestStep errors) 0xFFFF).toNat ≤ 1000 ∧ bestStep errors
      ≠ 0 ∧ bestStep errors ≠ 10 ∧ s.wsValid n l = true) ∧
    (∃ (n : Fin 4) (errors : List (BitVec 16)) (l : Nat) (slot : Nat) (s : State), (s.chn.opc[n.val]?).getD none =
      some l ∧ s.discAt n = some slot ∧ l < 24 ∧ (nth errors (bestStep errors) 0xFFFF).toNat ≤ 1000 ∧ bestStep errors
      ≠ 0 ∧ bestStep errors ≠ 10 ∧ s.wsValid n l = false) ∧
    (∃ (n : Fin 4) (errors : List (BitVec 16)) (l : Nat) (slot : Nat) (s : State), (s.chn.opc[n.val]?).getD none =
      some l ∧ s.discAt n = some slot ∧ (1000 < (nth errors (bestStep errors) 0xFFFF).toNat ∨ bestStep errors = 0 ∨
      bestStep errors = 10)) ∧
    (∃ (n : Fin 4) (l : Nat) (slot : Nat) (s : State), (s.chn.opc[n.val]?).getD none = some l ∧ s.discAt n = some
      slot) ∧
    (∃ (p : Path) (n : Fin 4) (s : State), s.silent p = false ∧ s.readRefusal p false = none ∧ s.get (CHN_OPC_STAT_RES
      n) = 1) ∧
    (∃ (p : Path) (s : State), s.opens p) :=
  ⟨⟨0, 3, job7 true, { id := u7, side := 0, layer := 2, zone := 0 }, { len := 4194304, flags := 0, repl := 0, data := [], peer := some (9, 1) }, (({ dev 3 (disc3 ++ [(OPU_LAYER_CUR 0, 2), (OPU_STAT_WRITE_READY 0, 1), (OPU_STAT_WRITE_MODE 0, 1), (OPU_STAT_STATE 0, 5)]) with plc := { held := [{ src := 9, xid := 1, id := u7, len := 4194304, flags := 0, repl := 0, total := 1, segs := [0], target := { slot := 3, side := 0, layer := 2, station := 0, loaded := 0 } }], layers := [{ slot := 3, side := 0, layer := 2, found := true, opcDone := true }] } }).modArb 0 fun a => { a with job := some (job7 true) }), by decide +kernel⟩, ⟨0, 3, job7 true, { id := u7, side := 0, layer := 2, zone := 0 }, { len := 4194304, flags := 0, repl := 0, data := [], peer := some (9, 1) }, (({ dev 3 (disc3 ++ [(OPU_LAYER_CUR 0, 2), (OPU_STAT_WRITE_READY 0, 1), (OPU_STAT_WRITE_MODE 0, 1), (OPU_STAT_STATE 0, 5)]) with plc := { held := [{ src := 9, xid := 1, id := u7, len := 4194304, flags := 0, repl := 0, total := 1, segs := [0], target := { slot := 3, side := 0, layer := 2, station := 0, loaded := 0 } }], layers := [{ slot := 3, side := 0, layer := 2, found := true, opcDone := false }] } }).modArb 0 fun a => { a with job := some (job7 true) }), by decide +kernel⟩, ⟨0, 0, {}, ext7, (dev 3 [(OPU_STAT_GATE 0, 1), (CHN_WR_CTL_REWR_MAX 0, 4)]).modExt 0 (some ext7), by decide +kernel⟩, ⟨0, 0, { converged := false }, ext7, (dev 3 [(OPU_STAT_GATE 0, 1), (CHN_WR_CTL_REWR_MAX 0, 4)]).modExt 0 (some ext7), by decide +kernel⟩, ⟨0, 0, { converged := false }, ext7, (dev 3 [(OPU_STAT_GATE 0, 1), (CHN_WR_CTL_REWR_MAX 0, 0)]).modExt 0 (some ext7), by decide +kernel⟩, ⟨0, 0, { ext7 with doomed := true }, (dev 3 [(OPU_STAT_GATE 0, 1), (CHN_WR_CTL_REWR_MAX 0, 4)]).modExt 0 (some { ext7 with doomed := true }), by decide +kernel⟩, ⟨0, { converged := false }, { ext7 with left := 0, copies := 2 }, (dev 3 [(OPU_STAT_GATE 0, 1), (CHN_WR_CTL_REWR_MAX 0, 4)]).modExt 0 (some { ext7 with left := 0, copies := 2 }), by decide +kernel⟩, ⟨0, {}, { ext7 with left := 0, copies := 2, judged := 1 }, (dev 3 [(OPU_STAT_GATE 0, 1), (CHN_WR_CTL_REWR_MAX 0, 4)]).modExt 0 (some { ext7 with left := 0, copies := 2, judged := 1 }), by decide +kernel⟩, ⟨0, { converged := false }, { ext7 with left := 0, copies := 4, judged := 3 }, (dev 3 [(OPU_STAT_GATE 0, 1), (CHN_WR_CTL_REWR_MAX 0, 4)]).modExt 0 (some { ext7 with left := 0, copies := 4, judged := 3 }), by decide +kernel⟩, ⟨0, [900, 800, 700, 600, 500, 12, 500, 600, 700, 800, 900], 2, 3, (dev 3 disc3).modChn fun c => { c with opc := c.opc.setIfInBounds 0 (some 2), wsValid := c.wsValid.setIfInBounds 0 [2] }, by decide +kernel⟩, ⟨0, [900, 800, 700, 600, 500, 12, 500, 600, 700, 800, 900], 2, 3, (dev 3 disc3).modChn fun c => { c with opc := c.opc.setIfInBounds 0 (some 2) }, by decide +kernel⟩, ⟨0, [1, 2, 3], 2, 3, (dev 3 disc3).modChn fun c => { c with opc := c.opc.setIfInBounds 0 (some 2) }, by decide +kernel⟩, ⟨0, 2, 3, (dev 3 disc3).modChn fun c => { c with opc := c.opc.setIfInBounds 0 (some 2) }, by decide +kernel⟩, ⟨mgmt, 2, dev 3 [(CHN_OPC_STAT_RES 2, 1)], by decide +kernel⟩, ⟨mgmt, dev 3 [(CHN_OPC_STAT_RES 2, 1)], by decide +kernel⟩⟩

/-- Every clause of LayersKeepTheirFrontsAndRecords has operands and a state that meet its hypotheses. -/
theorem witness_LayersKeepTheirFrontsAndRecords :
    (∃ (n : Fin 4) (layer : BitVec 5) (slot : Nat) (s : State), s.discAt n = some slot ∧ layer.toNat < 24 ∧ s.puState
      n = puTracking ∧ s.get (OPU_LAYER_CUR n) = layer.toNat ∧ (s.layerOf slot (n.val % 2) layer.toNat).found = false) ∧
    (∃ (n : Fin 4) (layer : BitVec 5) (r : FrameCheck) (slot : Nat) (s : State), s.quiet ∧ s.discAt n = some slot ∧
      layer.toNat < 24 ∧ (s.layerOf slot (n.val % 2) layer.toNat).pending ≠ [] ∧ (s.layerOf slot (n.val % 2)
      layer.toNat).due = true ∧ s.checkFrame n r = true ∧ (s.layerOf slot (n.val % 2) layer.toNat).idxUsed < 147072) ∧
    (∃ (n : Fin 4) (layer : BitVec 5) (r : FrameCheck) (slot : Nat) (s : State), s.discAt n = some slot ∧ layer.toNat
      < 24 ∧ (s.layerOf slot (n.val % 2) layer.toNat).pending ≠ [] ∧ (s.layerOf slot (n.val % 2) layer.toNat).due =
      true ∧ s.checkFrame n r = false) ∧
    (∃ (n : Fin 4) (layer : BitVec 5) (r : FrameCheck) (slot : Nat) (s : State), s.discAt n = some slot ∧ layer.toNat
      < 24 ∧ (s.layerOf slot (n.val % 2) layer.toNat).pending ≠ [] ∧ (s.layerOf slot (n.val % 2) layer.toNat).due =
      true ∧ s.checkFrame n r = false ∧ 147072 ≤ (s.layerOf slot (n.val % 2) layer.toNat).idxUsed ∧ (s.layerOf slot
      (n.val % 2) layer.toNat).idxFull = false) ∧
    (∃ (n : Fin 4) (layer : BitVec 5) (slot : Nat) (s : State), s.discAt n = some slot ∧ ((s.layerOf slot (n.val % 2)
      layer.toNat).pending = [] ∨ (s.layerOf slot (n.val % 2) layer.toNat).due = false)) ∧
    (∃ (slot : BitVec 5) (side : Fin 2) (layer : BitVec 5) (r : IdxRec) (s : State), (s.layerOf slot.toNat side
      layer.toNat).pending.head? = some r ∧ s.get CHN_IDX_CFG_AGE * 500000 ≤ s.tick - r.at_) ∧
    (∃ (n : Fin 4) (slot : Nat) (r : RelocSt) (s : State), s.discAt n = some slot ∧ s.flag (OPU_STAT_WRITE_MODE n) =
      true ∧ s.puState n = puTracking ∧ (s.chn.ext[n.val]?).getD none = none ∧ s.chn.reloc.find? (fun r => some r.slot
      == s.discAt n && r.side == n.val % 2) = some r ∧ (s.layerOf slot r.side r.layer).front + 18 ≤ (s.layerOf slot
      r.side r.layer).spareRun ∧ r.layer < 24) :=
  ⟨⟨0, 2, 3, dev 3 (disc3 ++ [(OPU_LAYER_CUR 0, 2), (OPU_STAT_STATE 0, 5)]), by decide +kernel⟩, ⟨0, 2, {}, 3, { dev 3 disc3 with plc := { layers := [{ slot := 3, side := 0, layer := 2, due := true, pending := [{ type := 2, id := u7, hdr := 5 }] }] } }, by decide +kernel⟩, ⟨0, 2, { converged := false }, 3, { dev 3 disc3 with plc := { layers := [{ slot := 3, side := 0, layer := 2, due := true, pending := [{ type := 2, id := u7, hdr := 5 }] }] } }, by decide +kernel⟩, ⟨0, 2, { converged := false }, 3, { dev 3 disc3 with plc := { layers := [{ slot := 3, side := 0, layer := 2, due := true, idxUsed := 147072, pending := [{ type := 2, id := u7, hdr := 5 }] }] } }, by decide +kernel⟩, ⟨0, 2, 3, dev 3 disc3, by decide +kernel⟩, ⟨3, 0, 2, { type := 2, id := u7, hdr := 5 }, { dev 3 disc3 with tick := 400000000, plc := { layers := [{ slot := 3, side := 0, layer := 2,  pending := [{ type := 2, id := u7, hdr := 5 }] }] } }, by decide +kernel⟩, ⟨0, 3, { slot := 3, side := 0, layer := 2, hdr := 5, block := 1, id := u7 }, (dev 3 (disc3 ++ [(OPU_STAT_WRITE_MODE 0, 1), (OPU_STAT_STATE 0, 5)])).modChn fun c => { c with reloc := [{ slot := 3, side := 0, layer := 2, hdr := 5, block := 1, id := u7 }] }, by decide +kernel⟩⟩

/-- Every clause of SpindleOrders has operands and a state that meet its hypotheses. -/
theorem witness_SpindleOrders :
    (∃ (p : Path) (st : Fin 2) (target : BitVec 16) (s : State), s.opens p ∧ s.mode = modeMaintain ∧ s.calHolds st =
      false ∧ s.spinAccepted st target.toNat (s.calOk st) = true ∧ s.spnState st = spOff ∧ s.sledsHomed st = true) ∧
    (∃ (p : Path) (st : Fin 2) (target : BitVec 16) (s : State), s.opens p ∧ s.mode = modeMaintain ∧ s.calHolds st =
      false ∧ s.spinAccepted st target.toNat (s.calOk st) = true ∧ s.spnState st = spRun) ∧
    (∃ (p : Path) (st : Fin 2) (target : BitVec 16) (s : State), s.opens p ∧ s.mode = modeMaintain ∧ s.spinAccepted st
      target.toNat (s.calOk st) = false) ∧
    (∃ (p : Path) (st : Fin 2) (s : State), s.opens p ∧ s.mode = modeMaintain ∧ s.calHolds st = false ∧ s.spnState st
      = spRun) ∧
    (∃ (p : Path) (st : Fin 2) (s : State), s.opens p ∧ s.mode = modeMaintain ∧ s.calHolds st = false ∧ s.spnState st
      = spOff) ∧
    (∃ (p : Path) (st : Fin 2) (s : State), s.opens p ∧ s.mode = modeMaintain ∧ s.calHolds st = false ∧ s.spnState st
      = spRun) ∧
    (∃ (p : Path) (st : Fin 2) (s : State), s.opens p ∧ s.spnState st = spRun ∧ s.flag (SPN_STAT_STOPPED st) = false) ∧
    (∃ (p : Path) (s : State), s.opens p) ∧
    (∃ (p : Path) (s : State), s.opens p ∧ s.mode ≠ modeMaintain) :=
  ⟨⟨mgmt, 0, 7200, ((dev 5 (disc3 ++ [(SPN_CTL_ENABLE 0, 1), (SPN_STAT_STOPPED 0, 1), (SPN_LIM_SPD_MAX 0, 7300), (CE_SCHED_LEN_LEN, 1), (CE_PAGE_TYPE 0, 2), (CE_PAGE_SP_SRC 0, 1), (CE_PAGE_OUT_SEL 0, 0x10), (AX_STAT_HOMED 0, 1), (AX_STAT_HOMED 1, 1)])).setReg (pageAddr 0 3) 9), by decide +kernel⟩, ⟨mgmt, 0, 5400, dev 5 [(SPN_CTL_ENABLE 0, 1), (SPN_STAT_STATE 0, 3), (SPN_LIM_SPD_MAX 0, 7300)], by decide +kernel⟩, ⟨mgmt, 0, 5400, dev 5 [], by decide +kernel⟩, ⟨mgmt, 1, dev 5 [(SPN_STAT_STATE 1, 3)], by decide +kernel⟩, ⟨mgmt, 1, dev 5 [], by decide +kernel⟩, ⟨mgmt, 1, dev 5 [(SPN_STAT_STATE 1, 3)], by decide +kernel⟩, ⟨mgmt, 1, dev 3 [(SPN_STAT_STATE 1, 3), (SPN_CTL_ENABLE 1, 1), (SPN_STAT_STOPPED 1, 0)], by decide +kernel⟩, ⟨mgmt, dev 3 [], by decide +kernel⟩, ⟨mgmt, dev 3 [], by decide +kernel⟩⟩

/-- Every clause of SpindleStartsAndTurns has operands and a state that meet its hypotheses. -/
theorem witness_SpindleStartsAndTurns :
    (∃ (st : Fin 2) (slopes : Vector (BitVec 16) 6) (s : State), s.spnState st = spAlign ∧ (s.stnOf st).fallAt = none
      ∧ (s.stnOf st).vec = 6 ∧ s.get (SPN_INIT_MIN_DIFF st) ≤ (alignAngle slopes).2) ∧
    (∃ (st : Fin 2) (slopes : Vector (BitVec 16) 6) (s : State), s.spnState st = spAlign ∧ (s.stnOf st).fallAt = none
      ∧ (s.stnOf st).vec = 6 ∧ (alignAngle slopes).2 < s.get (SPN_INIT_MIN_DIFF st) ∧ (s.stnOf st).pass2 = false) ∧
    (∃ (st : Fin 2) (slopes : Vector (BitVec 16) 6) (s : State), s.spnState st = spAlign ∧ (s.stnOf st).fallAt = none
      ∧ (s.stnOf st).vec = 6 ∧ (alignAngle slopes).2 < s.get (SPN_INIT_MIN_DIFF st) ∧ (s.stnOf st).pass2 = true) ∧
    (∃ (st : Fin 2) (s : State), s.flag (SPN_STAT_INDEXED st) = false) ∧
    (∃ (st : Fin 2) (count : BitVec 17) (s : State), s.flag (SPN_STAT_INDEXED st) = true ∧ (count.toNat ≤ s.get
      (SPN_ENC_CFG_INDEX_TOL st) ∨ 131072 ≤ count.toNat + s.get (SPN_ENC_CFG_INDEX_TOL st))) ∧
    (∃ (st : Fin 2) (count : BitVec 17) (s : State), s.flag (SPN_STAT_INDEXED st) = true ∧ s.get
      (SPN_ENC_CFG_INDEX_TOL st) < count.toNat ∧ count.toNat + s.get (SPN_ENC_CFG_INDEX_TOL st) < 131072) ∧
    (∃ (st : Fin 2) (s : State), s.spnState st = spRun ∧ s.get (SPN_SPEED_TARGET st) ≠ 0 ∧ 25000 ≤ (s.stnOf
      st).nearRun) ∧
    (∃ (st : Fin 2) (s : State), 25000 ≤ (s.stnOf st).slowRun ∧ (s.spnState st = spDown ∨ s.spnState st = spCoast) ∧
      (s.stnOf st).recaught = false) ∧
    (∃ (st : Fin 2) (s : State), 25000 ≤ (s.stnOf st).slowRun ∧ s.spnState st = spDown ∧ (s.stnOf st).recaught = true) ∧
    (∃ (st : Fin 2) (k : Nat) (s : State), (s.stnOf st).orderAt = some k ∧ 1250000 ≤ s.tick - k) ∧
    (∃ (st : Fin 2) (s : State), 50000 ≤ (s.stnOf st).keN) :=
  ⟨⟨0, #v[100, 300, 500, 400, 200, 100], { (dev 3 [(SPN_STAT_STATE 0, 1), (SPN_INIT_MIN_DIFF 0, 30)]).modStn 0 fun k => { k with vec := 6 } with tick := 900 }, by decide +kernel⟩, ⟨0, #v[500, 500, 500, 500, 500, 500], { (dev 3 [(SPN_STAT_STATE 0, 1), (SPN_INIT_MIN_DIFF 0, 30)]).modStn 0 fun k => { k with vec := 6 } with tick := 900 }, by decide +kernel⟩, ⟨0, #v[500, 500, 500, 500, 500, 500], { (dev 3 [(SPN_STAT_STATE 0, 1), (SPN_INIT_MIN_DIFF 0, 30)]).modStn 0 fun k => { k with pass2 := true, vec := 6 } with tick := 900 }, by decide +kernel⟩, ⟨1, dev 3 [(SPN_STAT_STATE 1, 2)], by decide +kernel⟩, ⟨1, 7, dev 3 [(SPN_STAT_STATE 1, 3), (SPN_STAT_INDEXED 1, 1), (SPN_ENC_CFG_INDEX_TOL 1, 8)], by decide +kernel⟩, ⟨1, 777, dev 3 [(SPN_STAT_STATE 1, 3), (SPN_STAT_INDEXED 1, 1), (SPN_STAT_ENC_VALID 1, 1), (SPN_ENC_CFG_INDEX_TOL 1, 8)], by decide +kernel⟩, ⟨1, (dev 3 [(SPN_STAT_STATE 1, 3), (SPN_SPEED_TARGET 1, 7200)]).modStn 1 fun k => { k with nearRun := 25000 }, by decide +kernel⟩, ⟨1, (dev 3 [(SPN_STAT_STATE 1, 4)]).modStn 1 fun k => { k with slowRun := 25000 }, by decide +kernel⟩, ⟨1, (dev 3 [(SPN_STAT_STATE 1, 4)]).modStn 1 fun k => { k with slowRun := 25000, recaught := true }, by decide +kernel⟩, ⟨1, 5, { (dev 3 []).modStn 1 fun k => { k with orderAt := some 5, running := true } with tick := 2000000 }, by decide +kernel⟩, ⟨1, (dev 3 [(SPN_STAT_AT_SPEED 1, 1)]).modStn 1 fun k => { k with keN := 50000, keE := 50000000, keV := 288000000 }, by decide +kernel⟩⟩

/-- Every clause of RotorLossAndCurrentTrips has operands and a state that meet its hypotheses. -/
theorem witness_RotorLossAndCurrentTrips :
    (∃ (st : Fin 2) (s : State), 4 ≤ (s.stnOf st).ampRun) ∧
    (∃ (st : Fin 2) (s : State), 8 ≤ (s.stnOf st).resRun) ∧
    (∃ (st : Fin 2) (s : State), s.encOk st = true ∧ s.obsOk st = true ∧ 8 ≤ (s.stnOf st).disRun) ∧
    (∃ (st : Fin 2) (s : State), (s.spnState st = spStart ∨ s.spnState st = spRun ∨ (s.spnState st = spDown ∧ 4800 <
      s.speedOf st)) ∧ s.source st = 0) ∧
    (∃ (st : Fin 2) (speeds : Vector (BitVec 16) 3) (agree : BitVec 8) (s : State), s.spnState st = spRecatch ∧
      (s.stnOf st).noRecatch = false ∧ s.tick - (s.stnOf st).lostAt ≤ 25000 ∧ 8 ≤ agree.toNat ∧ (∀ i : Fin 3, 95 *
      s.get (SPN_LOST_STAT_SPEED st) ≤ 100 * speeds[i].toNat ∧ 100 * speeds[i].toNat ≤ 105 * s.get
      (SPN_LOST_STAT_SPEED st))) ∧
    (∃ (st : Fin 2) (s : State), s.spnState st = spRecatch ∧ 25000 ≤ s.tick - (s.stnOf st).lostAt) ∧
    (∃ (st : Fin 2) (s : State), s.spnState st = spRecatch ∧ 100000 ≤ s.tick - (s.stnOf st).lostAt) ∧
    (∃ (st : Fin 2) (s : State), s.spnState st = spShort ∧ s.get (SPN_OBS_SPEED st) < 480) ∧
    (∃ (st : Fin 2) (s : State), (s.spnState st = spRun ∨ s.spnState st = spDown ∨ s.spnState st = spStart)) ∧
    (∃ (st : Fin 2) (s : State), s.spnState st = spAlign) :=
  ⟨⟨1, (dev 3 [(SPN_STAT_ENC_VALID 1, 1)]).modStn 1 fun k => { k with ampRun := 4 }, by decide +kernel⟩, ⟨1, (dev 3 [(SPN_STAT_OBS_VALID 1, 1)]).modStn 1 fun k => { k with resRun := 8 }, by decide +kernel⟩, ⟨1, (dev 3 [(SPN_STAT_ENC_VALID 1, 1), (SPN_STAT_OBS_VALID 1, 1)]).modStn 1 fun k => { k with disRun := 8 }, by decide +kernel⟩, ⟨1, dev 3 [(SPN_STAT_STATE 1, 3), (SPN_SPEED_MEAS 1, 40000), (OPU_STAT_GATE 2, 1)], by decide +kernel⟩, ⟨1, #v[4000, 4100, 3900], 8, dev 3 [(SPN_STAT_STATE 1, 6), (SPN_LOST_STAT_SPEED 1, 4000)], by decide +kernel⟩, ⟨1, { dev 3 [(SPN_STAT_STATE 1, 6)] with tick := 25000 }, by decide +kernel⟩, ⟨1, { dev 3 [(SPN_STAT_STATE 1, 6)] with tick := 100000 }, by decide +kernel⟩, ⟨1, dev 3 [(SPN_STAT_STATE 1, 7)], by decide +kernel⟩, ⟨1, dev 3 [(SPN_STAT_STATE 1, 3)], by decide +kernel⟩, ⟨1, dev 3 [(SPN_STAT_STATE 1, 1)], by decide +kernel⟩⟩

/-- Every clause of BusVoltageRowsTakeEffect has operands and a state that meet its hypotheses. -/
theorem witness_BusVoltageRowsTakeEffect :
    (∃ (vbus : BitVec 16) (s : State), s.pwr.zone = 3 ∧ 820 ≤ vbus.toNat ∧ vbus.toNat < 900 ∧ s.flag PWR_STAT_UV_WARN
      = false) ∧
    (∃ (vbus : BitVec 16) (s : State), s.pwr.zone = 0 ∧ 340 < vbus.toNat ∧ vbus.toNat < 760) ∧
    (∃ (vbus : BitVec 16) (s : State), 900 ≤ vbus.toNat ∧ s.mode = modeServe ∧ s.get UPD_STAT_STATE ≠ 5 ∧
      s.sys.safeStopDue = none ∧ s.flag OWL_STAT_FROZEN = false) ∧
    (∃ (vbus : BitVec 16) (s : State), vbus.toNat ≤ 310 ∧ s.flag PWR_STAT_UVLO = false ∧ s.mode = modeServe ∧ s.get
      UPD_STAT_STATE ≠ 5 ∧ s.sys.safeStopDue = none) ∧
    (∃ (st : Fin 2) (s : State), (s.stnOf st).holdup = true ∧ s.rpm st < s.get (SPN_HOLD_MIN_RPM st)) ∧
    (∃ (ma : BitVec 16) (s : State), s.flag PWR_STAT_BRK_FAULT = false ∧ s.flag PWR_STAT_BRK_ON = false ∧
      s.pwr.choppedLast = false ∧ s.get PWR_VBUS_VBUS < 760 ∧ s.get PWR_BRK_CFG_RES ≠ 0 ∧ s.chopperExpect < 65536 ∧
      outOfBand ma.toNat s.chopperExpect = true) ∧
    (∃ (s : State), s.flag PWR_STAT_BRK_ON = false) ∧
    (∃ (s : State), 8 ≤ s.pwr.reverseFor ∧ s.flag PWR_STAT_VIN_REVERSE = false) ∧
    (∃ (s : State), s.pwr.reverseFor < 8) ∧
    (∃ (s : State), s.flag PWR_STAT_VIN_REVERSE = true ∧ s.pwr.reverseAt + 500000 ≤ s.tick) ∧
    (∃ (s : State), s.flag PWR_STAT_BRK_HOT = false ∧ s.get PWR_BRK_CFG_RATING ≠ 0 ∧ 60 * s.get PWR_BRK_CFG_RATING <
      s.get PWR_BRK_E_E60) ∧
    (∃ (s : State), s.flag PWR_STAT_BRK_HOT = true ∧ s.get PWR_BRK_E_E60 < 30 * s.get PWR_BRK_CFG_RATING) ∧
    (∃ (rail : Fin 2) (s : State), 5 ≤ s.pwr.railBad[rail]) :=
  ⟨⟨830, { dev 3 [] with pwr := { zone := 3 } }, by decide +kernel⟩, ⟨480, dev 3 [], by decide +kernel⟩, ⟨905, dev 3 [], by decide +kernel⟩, ⟨300, dev 3 [(SPN_STAT_STATE 0, 3)], by decide +kernel⟩, ⟨1, (dev 3 [(SPN_HOLD_MIN_RPM 1, 600)]).modStn 1 fun k => { k with holdup := true }, by decide +kernel⟩, ⟨5, { dev 3 [(PWR_BRK_CFG_RES, 4700), (PWR_VBUS_VBUS, 480)] with pwr := { choppedLast := false } }, by decide +kernel⟩, ⟨dev 3 [], by decide +kernel⟩, ⟨{ dev 3 [] with pwr := { reverse := 500, reverseFor := 8 } }, by decide +kernel⟩, ⟨dev 3 [], by decide +kernel⟩, ⟨{ dev 3 [(PWR_STAT_VIN_REVERSE, 1)] with tick := 600000 }, by decide +kernel⟩, ⟨dev 3 [(PWR_BRK_CFG_RATING, 100), (PWR_BRK_E_E60, 7000)], by decide +kernel⟩, ⟨dev 3 [(PWR_STAT_BRK_HOT, 1), (PWR_BRK_CFG_RATING, 100), (PWR_BRK_E_E60, 100)], by decide +kernel⟩, ⟨1, { dev 3 [] with pwr := { railBad := #v[0, 5] } }, by decide +kernel⟩⟩

/-- Every clause of JunctionTemperaturesTrip has operands and a state that meet its hypotheses. -/
theorem witness_JunctionTemperaturesTrip :
    (∃ (temp : BitVec 8) (s : State), s.get PWR_TEMP_WARN ≠ 0 ∧ (s.get PWR_TEMP_WARN : Int) < temp.toInt ∧ temp.toInt
      ≤ (s.get PWR_TEMP_STOP : Int) ∧ s.flag PWR_STAT_TJ_WARN = false) ∧
    (∃ (temp : BitVec 8) (s : State), s.get PWR_TEMP_WARN ≠ 0 ∧ s.get PWR_TEMP_WARN ≤ s.get PWR_TEMP_STOP ∧ (s.get
      PWR_TEMP_STOP : Int) < temp.toInt ∧ s.flag PWR_STAT_TJ_WARN = true) ∧
    (∃ (s : State), s.mode = modeServe ∧ s.get UPD_STAT_STATE ≠ 5 ∧ s.sys.safeStopDue = none) :=
  ⟨⟨100, dev 3 [(PWR_TEMP_WARN, 95), (PWR_TEMP_STOP, 110)], by decide +kernel⟩, ⟨115, dev 3 [(PWR_TEMP_WARN, 95), (PWR_TEMP_STOP, 110), (PWR_STAT_TJ_WARN, 1)], by decide +kernel⟩, ⟨dev 3 [], by decide +kernel⟩⟩

/-- Every clause of AxisOrdersAreReported has operands and a state that meet its hypotheses. -/
theorem witness_AxisOrdersAreReported :
    (∃ (p : Path) (a : Fin 7) (s : State), s.opens p ∧ s.mode = modeMaintain ∧ s.sledHeld a = false ∧ s.axBadParam a
      (s.getInt (AX_TGT_TGT a)) = false ∧ s.axState a = axIdle ∧ s.zxRule a (s.getInt (AX_TGT_TGT a)) = true ∧
      s.awayFromTrip a (s.getInt (AX_TGT_TGT a)) = true) ∧
    (∃ (p : Path) (a : Fin 7) (s : State), s.opens p ∧ s.mode = modeMaintain ∧ s.sledHeld a = false ∧ s.axBadParam a
      (s.getInt (AX_TGT_TGT a)) = true) ∧
    (∃ (p : Path) (a : Fin 7) (s : State), s.opens p ∧ s.mode = modeMaintain ∧ s.sledHeld a = false ∧ s.axBadParam a
      (s.getInt (AX_SLIM_LO_LIM a)) = false ∧ s.axState a = axIdle ∧ s.zxRule a (s.getInt (AX_SLIM_LO_LIM a)) = true ∧
      s.awayFromTrip a (s.getInt (AX_SLIM_LO_LIM a)) = true) ∧
    (∃ (p : Path) (a : Fin 7) (s : State), s.opens p ∧ s.mode = modeMaintain ∧ s.sledHeld a = false ∧ s.axState a =
      axMoving) ∧
    (∃ (p : Path) (a : Fin 7) (s : State), s.opens p ∧ s.mode = modeMaintain ∧ s.sledHeld a = false ∧ s.axState a =
      axMoving) ∧
    (∃ (p : Path) (a : Fin 7) (s : State), s.opens p ∧ s.mode = modeMaintain ∧ s.sledHeld a = false ∧ s.axBadParam a
      (s.getInt (AX_SLIM_LO_LIM a)) = false ∧ s.axState a = axIdle ∧ (a.val = axZ → s.xInCorridor = true)) ∧
    (∃ (p : Path) (a : Fin 7) (s : State), s.opens p ∧ s.mode = modeMaintain ∧ s.sledHeld a = false ∧ a.val < 4 ∧
      s.axState a = axIdle) ∧
    (∃ (p : Path) (a : Fin 7) (s : State), s.opens p ∧ s.mode = modeMaintain ∧ s.sledHeld a = false) ∧
    (∃ (p : Path) (a : Fin 7) (s : State), s.opens p ∧ s.axState a = axDisabled) ∧
    (∃ (p : Path) (a : Fin 7) (s : State), s.opens p ∧ s.axState a = axIdle) ∧
    (∃ (p : Path) (s : State), s.opens p ∧ s.mode ≠ modeMaintain) :=
  ⟨⟨mgmt, 2, dev 5 [(AX_STAT_STATE 2, 1), (AX_VBM_VMAX 2, 900), (AX_VBM_V_BREAK 2, 500), (AX_VSS_V_START 2, 100), (AX_VSS_V_STOP 2, 100), (AX_ACC_ACC_1 2, 9), (AX_ACC_ACC_2 2, 9), (AX_DEC_DEC_1 2, 9), (AX_DEC_DEC_2 2, 9), (AX_EDEC_EMERG_DEC 2, 9), (AX_SLIM_HI_LIM 2, 9000), (AX_TGT_TGT 2, 500)], by decide +kernel⟩, ⟨mgmt, 2, dev 5 [(AX_STAT_STATE 2, 1)], by decide +kernel⟩, ⟨mgmt, 2, dev 5 [(AX_STAT_STATE 2, 1), (AX_VBM_VMAX 2, 900), (AX_VBM_V_BREAK 2, 500), (AX_VSS_V_START 2, 100), (AX_VSS_V_STOP 2, 100), (AX_ACC_ACC_1 2, 9), (AX_ACC_ACC_2 2, 9), (AX_DEC_DEC_1 2, 9), (AX_DEC_DEC_2 2, 9), (AX_EDEC_EMERG_DEC 2, 9), (AX_SLIM_HI_LIM 2, 9000), (AX_TGT_TGT 2, 500)], by decide +kernel⟩, ⟨mgmt, 5, dev 5 [(AX_STAT_STATE 5, 2)], by decide +kernel⟩, ⟨mgmt, 5, dev 5 [(AX_STAT_STATE 5, 2)], by decide +kernel⟩, ⟨mgmt, 2, dev 5 [(AX_STAT_STATE 2, 1), (AX_VBM_VMAX 2, 900), (AX_VBM_V_BREAK 2, 500), (AX_VSS_V_START 2, 100), (AX_VSS_V_STOP 2, 100), (AX_ACC_ACC_1 2, 9), (AX_ACC_ACC_2 2, 9), (AX_DEC_DEC_1 2, 9), (AX_DEC_DEC_2 2, 9), (AX_EDEC_EMERG_DEC 2, 9), (AX_SLIM_HI_LIM 2, 9000)], by decide +kernel⟩, ⟨mgmt, 2, dev 5 [(AX_STAT_STATE 2, 1)], by decide +kernel⟩, ⟨mgmt, 2, dev 5 [(AX_STAT_STATE 2, 4)], by decide +kernel⟩, ⟨mgmt, 2, dev 3 [], by decide +kernel⟩, ⟨mgmt, 2, dev 3 [(AX_STAT_STATE 2, 1)], by decide +kernel⟩, ⟨mgmt, dev 3 [], by decide +kernel⟩⟩

/-- Every clause of AxesMoveHomeAndTrip has operands and a state that meet its hypotheses. -/
theorem witness_AxesMoveHomeAndTrip :
    (∃ (p : Path) (w : Fin 5) (s : State), s.opens p ∧ w.val < 4) ∧
    (∃ (a : Fin 7) (d : Int) (s : State), s.axState a = axMoving ∧ (s.axOf a).home = .no ∧ (s.axOf a).dest = some d ∧
      (s.axOf a).offAfter = false ∧ (s.axOf a).coarse = false ∧ s.axAtRest a = true ∧ -(2 ^ 31) ≤ d ∧ d < 2 ^ 31) ∧
    (∃ (a : Fin 7), a.val < 4) ∧
    (∃ (a : Fin 7) (i : Fin 3) (s : State), a.val < 4 ∧ s.get (AX_LIM_CFG_CHAT_N a) < s.transOf a i) ∧
    (∃ (a : Fin 7) (s : State), a.val < 4 ∧ s.axState a = axIdle ∧ s.debounced a 2 true = true) ∧
    (∃ (a : Fin 7) (active : Bool) (s : State), s.axState a ≠ axHoming ∧ s.debounced a 0 active = true) ∧
    (∃ (a : Fin 7) (s : State), s.axState a = axIdle ∧ s.flag (AX_CUR_AUTO_OFF a) = true ∧ s.axPos a % 256 = 0 ∧
      250000 ≤ s.tick - (s.axOf a).since) ∧
    (∃ (a : Fin 4) (s : State), s.flag (AX_GEAR_AT_ARM a) = true ∧ s.gearAtReached a = true) :=
  ⟨⟨mgmt, 1, dev 3 [(AX_STAT_STATE 2, 2)], by decide +kernel⟩, ⟨2, -700, (dev 3 [(AX_STAT_STATE 2, 2)]).modAx 2 fun k => { k with dest := some (-700), x := -700 }, by decide +kernel⟩, ⟨2, by decide +kernel⟩, ⟨2, 1, (dev 3 [(AX_STAT_HOMED 2, 1)]).modAx 2 fun k => { k with sw := k.sw.set 1 { edges := List.replicate 9 0 } }, by decide +kernel⟩, ⟨2, { (dev 3 [(AX_STAT_HOMED 2, 1), (AX_STAT_STATE 2, 1)]).modAx 2 fun k => { k with sw := k.sw.set 2 { raw := true } } with tick := 70000 }, by decide +kernel⟩, ⟨2, true, { (dev 3 []).modAx 2 fun k => { k with sw := k.sw.set 0 { raw := true } } with tick := 70000 }, by decide +kernel⟩, ⟨2, { dev 3 [(AX_STAT_STATE 2, 1), (AX_CUR_AUTO_OFF 2, 1)] with tick := 300000 }, by decide +kernel⟩, ⟨2, (dev 3 [(AX_GEAR_AT_ARM 2, 1)]).setReg (AX_GEAR_NEXT 2) 26844, by decide +kernel⟩⟩

/-- Every clause of PickerOrdersWaitForTheGrant has operands and a state that meet its hypotheses. -/
theorem witness_PickerOrdersWaitForTheGrant :
    (∃ (p : Path) (s : State), s.opens p ∧ s.mode = modeMaintain ∧ (s.mag.run.any fun o => o.by_ == .maint) = false ∧
      s.magAccepts 1 0 0 = true) ∧
    (∃ (p : Path) (s : State), s.opens p ∧ s.mode = modeMaintain ∧ (s.mag.run.any fun o => o.by_ == .maint) = false ∧
      s.magAccepts 2 0 0 = true) ∧
    (∃ (p : Path) (st : Fin 2) (slot : BitVec 5) (s : State), s.opens p ∧ s.mode = modeMaintain ∧ (s.mag.run.any fun o
      => o.by_ == .maint) = false ∧ slot.toNat ≤ 23 ∧ s.magAccepts 3 st slot.toNat = true) ∧
    (∃ (p : Path) (st : Fin 2) (slot : BitVec 5) (s : State), s.opens p ∧ s.mode = modeMaintain ∧ (s.mag.run.any fun o
      => o.by_ == .maint) = false ∧ slot.toNat ≤ 23 ∧ s.magAccepts 3 st slot.toNat = false) ∧
    (∃ (p : Path) (st : Fin 2) (s : State), s.opens p ∧ s.mode = modeMaintain ∧ (s.mag.run.any fun o => o.by_ ==
      .maint) = false ∧ s.magAccepts 4 st 0 = true) ∧
    (∃ (p : Path) (st : Fin 2) (slot : BitVec 5) (s : State), s.opens p ∧ s.mode = modeMaintain ∧ (s.mag.run.any fun o
      => o.by_ == .maint) = false ∧ slot.toNat ≤ 23 ∧ s.magAccepts 5 st slot.toNat = true) ∧
    (∃ (p : Path) (s : State), s.opens p ∧ s.mode = modeMaintain ∧ (s.mag.run.any fun o => o.by_ == .maint) = false ∧
      s.magState ≠ mgUnusable) ∧
    (∃ (p : Path) (s : State), s.opens p ∧ s.mode ≠ modeMaintain) :=
  ⟨⟨mgmt, dev 5 [(MAG_STAT_STATE, 3)], by decide +kernel⟩, ⟨mgmt, dev 5 [(MAG_STAT_STATE, 3), (AX_STAT_HOMED 4, 1), (AX_STAT_HOMED 5, 1), (AX_STAT_STATE 5, 1)], by decide +kernel⟩, ⟨mgmt, 0, 4, dev 5 [(MAG_STAT_STATE, 3), (SPN_STAT_STOPPED 0, 1), (AX_STAT_HOMED 0, 1), (AX_STAT_HOMED 1, 1)], by decide +kernel⟩, ⟨mgmt, 0, 4, dev 5 [], by decide +kernel⟩, ⟨mgmt, 0, dev 5 [(MAG_STAT_STATE, 3), (SPN_STAT_STOPPED 0, 1), (AX_STAT_HOMED 0, 1), (AX_STAT_HOMED 1, 1), (MAG_STAT_CLAMP_0, 1)], by decide +kernel⟩, ⟨mgmt, 0, 4, dev 5 [(MAG_STAT_STATE, 3), (SPN_STAT_STOPPED 0, 1), (AX_STAT_HOMED 0, 1), (AX_STAT_HOMED 1, 1), (MAG_STAT_CLAMP_0, 1)], by decide +kernel⟩, ⟨mgmt, dev 5 [], by decide +kernel⟩, ⟨mgmt, dev 3 [], by decide +kernel⟩⟩

/-- Every clause of ExchangesStepAndFail has operands and a state that meet its hypotheses. -/
theorem witness_ExchangesStepAndFail :
    (∃ (o : MagOrder) (s : State), s.mag.stage = .exchange ∧ s.mag.run = some o ∧ s.magSettled = true ∧ s.mag.plan =
      [] ∧ s.flag MAG_STAT_GRIP_DISC = true ∧ s.get MAG_STAT_STEP = 2) ∧
    (∃ (o : MagOrder) (s : State), s.mag.stage = .exchange ∧ s.mag.run = some o ∧ s.magSettled = true ∧ s.mag.plan =
      [] ∧ s.flag MAG_STAT_GRIP_DISC = true ∧ s.get MAG_STAT_STEP = 10 ∧ o.slot < 24) ∧
    (∃ (o : MagOrder) (s : State), s.mag.stage = .exchange ∧ s.mag.run = some o ∧ s.magSettled = true ∧ s.mag.plan =
      [] ∧ s.get MAG_STAT_STEP = 15 ∧ o.by_ = .maint ∧ s.get MAG_CMD_STAT_RESULT = 1) ∧
    (∃ (o : MagOrder) (s : State), s.mag.stage = .exchange ∧ s.mag.run = some o ∧ s.gripStuck = true ∧ s.get
      MAG_STAT_STEP = 10 ∧ o.slot < 24) ∧
    (∃ (o : MagOrder) (s : State), s.mag.run = some o ∧ s.pickerLate = true ∧ (∀ a : Fin 7, 4 ≤ a.val → s.axState a =
      axIdle ∨ s.axInMotion a = true)) :=
  ⟨⟨{ by_ := .maint, op := 5, slot := 4 }, { (dev 5 [(MAG_STAT_STEP, 2), (MAG_STAT_GRIP_DISC, 1), (MAG_STN_SRC_VALID_0, 1)]).modMag fun m => { m with stage := .exchange, run := some { by_ := .maint, op := 5, slot := 4 } } with tick := 300000000 }, by decide +kernel⟩, ⟨{ by_ := .maint, op := 5, slot := 4 }, { (dev 5 [(MAG_STAT_STEP, 10), (MAG_STAT_GRIP_DISC, 1), (MAG_INV_PRES_PRES, 16)]).modMag fun m => { m with stage := .exchange, run := some { by_ := .maint, op := 5, slot := 4 } } with tick := 300000000 }, by decide +kernel⟩, ⟨{ by_ := .maint, op := 5, slot := 4 }, { (dev 5 [(MAG_STAT_STEP, 15), (MAG_CMD_STAT_RESULT, 1)]).modMag fun m => { m with stage := .exchange, run := some { by_ := .maint, op := 5, slot := 4 } } with tick := 300000000 }, by decide +kernel⟩, ⟨{ by_ := .maint, op := 5, slot := 4 }, { (dev 5 [(MAG_STAT_STEP, 10)]).modMag fun m => { m with stage := .exchange, run := some { by_ := .maint, op := 5, slot := 4 } } with tick := 300000000 }, by decide +kernel⟩, ⟨{ by_ := .maint, op := 5, slot := 4 }, { (dev 5 [(MAG_STAT_STEP, 10), (AX_STAT_STATE 4, 1), (AX_STAT_STATE 5, 2), (AX_STAT_STATE 6, 1)]).modMag fun m => { m with stage := .exchange, run := some { by_ := .maint, op := 5, slot := 4 } } with tick := 300000000 }, by decide +kernel⟩⟩

/-- Every clause of PeerMessagesAreScreened has operands and a state that meet its hypotheses. -/
theorem witness_PeerMessagesAreScreened :
    (∃ (h : PeerHdr) (r : Instr) (s : State), (r = .bid h none 0 0 ∨ r = .award h ∨ r = .dataAck h [] ∨ r = .progress
      h ∨ r = .peerCommitted h 0 ∨ r = .peerFailed h 0 ∨ r = .nack h 0 ∨ r = .tombAck h ∨ r = .hint h true 0 0 0 0 ∨ r
      = .hintReq h [] ∨ r = .peerData h 0 1 [] 0 0) ∧ s.mode = modeServe ∨ s.mode = modeDrain ∧ h.auth = false) ∧
    (∃ (h : PeerHdr) (r : Instr) (s : State), (r = .bid h none 0 0 ∨ r = .award h ∨ r = .dataAck h [] ∨ r = .progress
      h ∨ r = .peerCommitted h 0 ∨ r = .peerFailed h 0 ∨ r = .nack h 0 ∨ r = .tombAck h ∨ r = .hint h true 0 0 0 0 ∨ r
      = .hintReq h [] ∨ r = .peerData h 0 1 [] 0 0) ∧ s.mode = modeServe ∨ s.mode = modeDrain ∧ h.auth = true ∧ s.flag
      PLC_STAT_DM_VALID = false ∨ h.domain ≠ s.domainId) ∧
    (∃ (h : PeerHdr) (r : Instr) (s : State), (r = .bid h none 0 0 ∨ r = .award h ∨ r = .dataAck h [] ∨ r = .progress
      h ∨ r = .peerCommitted h 0 ∨ r = .peerFailed h 0 ∨ r = .nack h 0 ∨ r = .tombAck h ∨ r = .hint h true 0 0 0 0 ∨ r
      = .hintReq h [] ∨ r = .peerData h 0 1 [] 0 0) ∧ s.mode = modeServe ∨ s.mode = modeDrain ∧ h.auth = true ∧ s.flag
      PLC_STAT_DM_VALID = true ∧ h.domain = s.domainId ∧ h.epoch.toNat < s.get PLC_DM_EPOCH_EPOCH) ∧
    (∃ (h : PeerHdr) (r : Instr) (s : State), (r = .bid h none 0 0 ∨ r = .award h ∨ r = .dataAck h [] ∨ r = .progress
      h ∨ r = .peerCommitted h 0 ∨ r = .peerFailed h 0 ∨ r = .nack h 0 ∨ r = .tombAck h ∨ r = .hint h true 0 0 0 0 ∨ r
      = .hintReq h [] ∨ r = .peerData h 0 1 [] 0 0) ∧ s.mode ≠ modeServe ∧ s.mode ≠ modeDrain) ∧
    (∃ (h : PeerHdr) (s : State), s.mode = modeServe ∧ h.auth = true ∧ s.flag PLC_STAT_DM_VALID = true ∧ h.domain =
      s.domainId ∧ s.get PLC_DM_EPOCH_EPOCH < h.epoch.toNat) ∧
    (∃ (h : PeerHdr) (a : Nat × Nat × PeerMsg × Nat) (s : State), s.hears h ∧ s.plc.answered.find? (fun a => a.1 ==
      h.src.toNat && a.2.1 == h.xid.toNat && decide (s.tick < a.2.2.2 + 500000)) = some a) :=
  ⟨⟨{ from2 with auth := false }, .progress { from2 with auth := false }, pair 3 [], by decide +kernel⟩, ⟨{ from2 with domain := 8 }, .progress { from2 with domain := 8 }, pair 3 [], by decide +kernel⟩, ⟨from2, .progress from2, pair 3 [(PLC_DM_EPOCH_EPOCH, 4)], by decide +kernel⟩, ⟨from2, .progress from2, pair 5 [], by decide +kernel⟩, ⟨{ from2 with epoch := 4 }, pair 3 [], by decide +kernel⟩, ⟨from2, (2, 9, { dst := 2, type := pmHint, xid := 9 }, 0), { pair 3 [] with plc := { answered := [(2, 9, { dst := 2, type := pmHint, xid := 9 }, 0)] } }, by decide +kernel⟩⟩

/-- Every clause of UnitsArePlacedByBids has operands and a state that meet its hypotheses. -/
theorem witness_UnitsArePlacedByBids :
    (∃ (u : UnitSt) (d : Nat) (l : List Nat) (s : State), s.still ∧ s.nextToPlace = some u ∧ s.unitN u.n = some u ∧
      s.flag PLC_STAT_STALE = false ∧ u.sealing = false ∧ ((s.candidates u.id).filter (fun d => !(u.devs.contains
      d))).filter (fun d => d != s.self && !s.isDown d) = d :: l) ∧
    (∃ (h : PeerHdr) (u : UnitRef) (policy : BitVec 32) (x : Target) (s : State), s.hears h ∧ s.fresh h ∧ s.mode =
      modeServe ∧ s.flag PLC_STAT_STALE = false ∧ s.hasKey u.tenant.toNat = true ∧ s.mapFull = none ∧ (s.setReg
      (keyPol u.tenant.toNat) policy).bestTarget (unitRefId u) = some x) ∧
    (∃ (h : PeerHdr) (u : UnitRef) (policy : BitVec 32) (k : Nat) (s : State), s.hears h ∧ s.fresh h ∧ s.mapFull =
      none ∧ (s.setReg (keyPol u.tenant.toNat) policy).bid (unitRefId u) = .inr k) ∧
    (∃ (h : PeerHdr) (u : UnitSt) (e : Nat) (l : List Nat) (s : State), s.hears h ∧ s.still ∧ (s.plc.units.find? fun u
      => u.xid == h.xid.toNat && u.asked.contains h.src.toNat) = some u ∧ s.unitN u.n = some u ∧ u.asked.filter (fun d
      => d != h.src.toNat) = e :: l) ∧
    (∃ (xid : BitVec 32) (u : UnitSt) (s : State), (s.plc.units.find? fun u => u.xid == xid.toNat && !u.asked.isEmpty)
      = some u ∧ s.tick < u.bidAt + 500 * s.get PLC_PEER_TMO_BID) ∧
    (∃ (xid : BitVec 32) (u : UnitSt) (b : BidRec) (s : State), s.still ∧ (s.plc.units.find? fun u => u.xid ==
      xid.toNat && !u.asked.isEmpty) = some u ∧ u.bidAt + 500 * s.get PLC_PEER_TMO_BID ≤ s.tick ∧ s.unitN u.n = some u
      ∧ u.phase = .bidding ∧ u.again = false ∧ (u.rerepl = true ∨ u.mig = true) ∧ u.bids = [b] ∧ b.dev ≠ s.self ∧
      s.apart u.id.tenant b.dev u.devs = true ∧ 1 ≤ u.reps ∧ u.ack ≤ 1) ∧
    (∃ (xid : BitVec 32) (u : UnitSt) (s : State), s.still ∧ s.plc.units = [u] ∧ u.xid = xid.toNat ∧ u.asked ≠ [] ∧
      u.phase = .bidding ∧ u.rerepl = false ∧ u.mig = true ∧ u.again = false ∧ u.bids = [] ∧ 0 < u.ack ∧ u.bidAt + 500
      * s.get PLC_PEER_TMO_BID ≤ s.tick) ∧
    (∃ (h : PeerHdr) (s : State), s.hears h ∧ s.plc.held.any (fun o => o.src == h.src.toNat && o.xid == h.xid.toNat) =
      false ∧ s.plc.offers.find? (fun o => o.src == h.src.toNat && o.xid == h.xid.toNat) = none) ∧
    (∃ (h : PeerHdr) (o : Incoming) (s : State), s.hears h ∧ s.plc.held.any (fun o => o.src == h.src.toNat && o.xid ==
      h.xid.toNat) = false ∧ s.plc.offers.find? (fun o => o.src == h.src.toNat && o.xid == h.xid.toNat) = some o) ∧
    (∃ (h : PeerHdr) (s : State), s.hears h ∧ s.plc.held.any (fun o => o.src == h.src.toNat && o.xid == h.xid.toNat) =
      true) ∧
    (∃ (h : PeerHdr) (u : UnitSt) (a : Attempt) (s : State), s.hears h ∧ u ∈ s.plc.units ∧ a ∈ u.atts ∧ a.dev =
      h.src.toNat ∧ a.xid = h.xid.toNat ∧ a.st = .running) ∧
    (∃ (h : PeerHdr) (u : UnitSt) (s : State), s.hears h ∧ s.still ∧ (s.plc.units.find? fun u => ofXid h.src.toNat
      h.xid.toNat u && u.atts.any fun a => a.dev == h.src.toNat && a.st == .running) = some u ∧ s.unitN u.n = some u ∧
      u.phase = .placed ∧ u.rerepl = false ∧ u.mig = false ∧ (u.atts.any fun a => a.dev != h.src.toNat && a.st ==
      .running) = true ∧ (u.atts.filter fun a => a.st == .committed || a.dev == h.src.toNat && a.st ==
      .running).length < u.ack) ∧
    (∃ (h : PeerHdr) (u : UnitSt) (s : State), s.hears h ∧ s.still ∧ (s.plc.units.find? fun u => ofXid h.src.toNat
      h.xid.toNat u && u.atts.any fun a => a.dev == h.src.toNat && a.st == .running) = some u ∧ s.unitN u.n = some u ∧
      u.phase = .placed ∧ u.rerepl = false ∧ u.mig = false ∧ (u.atts.any fun a => a.dev != h.src.toNat && a.st ==
      .running) = true ∧ u.ack ≤ (u.atts.filter fun a => a.st == .committed || a.dev == h.src.toNat && a.st ==
      .running).length) ∧
    (∃ (h : PeerHdr) (o : Incoming) (s : State), s.hears h ∧ s.plc.held.find? (fun o => o.src == h.src.toNat && o.xid
      == h.xid.toNat) = some o) ∧
    (∃ (h : PeerHdr) (u : UnitSt) (s : State), s.hears h ∧ s.still ∧ s.plc.held.find? (fun o => o.src == h.src.toNat
      && o.xid == h.xid.toNat) = none ∧ s.plc.units = [u] ∧ ofXid h.src.toNat h.xid.toNat u = true ∧ (u.atts.any fun a
      => a.dev == h.src.toNat && a.st == .running) = true ∧ u.phase = .placed ∧ u.rerepl = false ∧ u.mig = false ∧
      s.polWait u.id.tenant = 0 ∧ u.asked = [] ∧ (u.atts.any fun a => a.dev != h.src.toNat && a.st == .running) = true
      ∧ u.copies < u.ack) ∧
    (∃ (xid : BitVec 32) (d : BitVec 9) (u : UnitSt) (s : State), d.toNat ≠ s.self ∧ s.still ∧ s.plc.units = [u] ∧
      (u.atts.any fun a => a.dev == d.toNat && a.xid == xid.toNat && a.st == .running && decide (a.seen + 500 * s.get
      PLC_PEER_CFG_PROG_TMO ≤ s.tick)) = true ∧ u.phase = .placed ∧ u.rerepl = false ∧ u.mig = false ∧ s.polWait
      u.id.tenant = 0 ∧ s.isDown d.toNat = false ∧ (u.atts.any fun a => a.dev != d.toNat && a.st == .running) = true ∧
      u.copies < u.ack) ∧
    (∃ (xid : BitVec 32) (d : BitVec 9) (u : UnitSt) (a : Attempt) (s : State), d.toNat ≠ s.self ∧ s.still ∧
      s.plc.units = [u] ∧ u.phase = .placed ∧ u.atts = [a] ∧ a.dev = d.toNat ∧ a.xid = xid.toNat ∧ a.st = .running ∧
      a.seen + 500 * s.get PLC_PEER_CFG_PROG_TMO ≤ s.tick ∧ u.mig = true ∧ u.rerepl = false ∧ u.again = false ∧
      u.replaced.contains a.dev = true ∧ s.isDown d.toNat = false) :=
  ⟨⟨{ unit7 with phase := .ready, rerepl := true }, 2, [], { pair 3 [] with plc := { units := [{ unit7 with phase := .ready, rerepl := true }] } }, by decide +kernel⟩, ⟨from2, { tenant := 1, key := 7, ver := 1, unit := 0 }, 5, { slot := 3, side := 0, layer := 0, station := 0, loaded := 2 }, { pair 3 [(SPN_CTL_ENABLE 0, 1), (SYS_STAT_CAL_STN_0, 1), (PLC_SLOT_W0_STATE 3, 1)] with sec := { keys := [{ tenant := 1, gen := 1, key := 9 }] } }, by decide +kernel⟩, ⟨from2, { tenant := 1, key := 7, ver := 1, unit := 0 }, 5, 2, pair 4 [], by decide +kernel⟩, ⟨from2, { unit7 with phase := .bidding, xid := 9, asked := [2, 3] }, 3, [], { pair 3 [] with plc := { units := [{ unit7 with phase := .bidding, xid := 9, asked := [2, 3] }] } }, by decide +kernel⟩, ⟨9, { unit7 with phase := .bidding, xid := 9, asked := [2], mig := true }, { pair 3 [(PLC_PEER_TMO_BID, 10)] with plc := { units := [{ unit7 with phase := .bidding, xid := 9, asked := [2], mig := true }] } }, by decide +kernel⟩, ⟨9, { unit7 with phase := .bidding, xid := 9, asked := [2], mig := true, reps := 1, ack := 1, bids := [{ dev := 2, energy := 1, start := 1 }] }, { dev := 2, energy := 1, start := 1 }, { pair 3 [] with tick := 40000000, plc := { units := [{ unit7 with phase := .bidding, xid := 9, asked := [2], mig := true, reps := 1, ack := 1, bids := [{ dev := 2, energy := 1, start := 1 }] }] } }, by decide +kernel⟩, ⟨9, { unit7 with phase := .bidding, xid := 9, asked := [2], mig := true }, { pair 3 [] with tick := 40000000, plc := { units := [{ unit7 with phase := .bidding, xid := 9, asked := [2], mig := true }] } }, by decide +kernel⟩, ⟨from2, pair 3 [], by decide +kernel⟩, ⟨from2, { src := 2, xid := 9, id := u7, len := 0, flags := 0, repl := 0, target := { slot := 3, side := 0, layer := 2, station := 0, loaded := 0 } }, { pair 3 [] with plc := { offers := [{ src := 2, xid := 9, id := u7, len := 0, flags := 0, repl := 0, target := { slot := 3, side := 0, layer := 2, station := 0, loaded := 0 } }] } }, by decide +kernel⟩, ⟨from2, { pair 3 [] with plc := { held := [{ src := 2, xid := 9, id := u7, len := 0, flags := 0, repl := 0, target := { slot := 3, side := 0, layer := 2, station := 0, loaded := 0 } }] } }, by decide +kernel⟩, ⟨from2, { unit7 with phase := .placed, atts := [{ dev := 2, xid := 9, seen := 0 }] }, { dev := 2, xid := 9, seen := 0 }, { pair 3 [] with tick := 77, plc := { units := [{ unit7 with phase := .placed, atts := [{ dev := 2, xid := 9, seen := 0 }] }] } }, by decide +kernel⟩, ⟨from2, { unit7 with phase := .placed, ack := 2, reps := 2, atts := [{ dev := 2, xid := 9, seen := 0 }, { dev := 3, xid := 9, seen := 0 }] }, { pair 3 [] with plc := { units := [{ unit7 with phase := .placed, ack := 2, reps := 2, atts := [{ dev := 2, xid := 9, seen := 0 }, { dev := 3, xid := 9, seen := 0 }] }] } }, by decide +kernel⟩, ⟨from2, { unit7 with phase := .placed, ack := 1, reps := 2, atts := [{ dev := 2, xid := 9, seen := 0 }, { dev := 3, xid := 9, seen := 0 }] }, { pair 3 [] with plc := { units := [{ unit7 with phase := .placed, ack := 1, reps := 2, atts := [{ dev := 2, xid := 9, seen := 0 }, { dev := 3, xid := 9, seen := 0 }] }] } }, by decide +kernel⟩, ⟨from2, { src := 2, xid := 9, id := u7, len := 0, flags := 0, repl := 0, target := { slot := 3, side := 0, layer := 2, station := 0, loaded := 0 } }, { pair 3 [] with plc := { held := [{ src := 2, xid := 9, id := u7, len := 0, flags := 0, repl := 0, target := { slot := 3, side := 0, layer := 2, station := 0, loaded := 0 } }] } }, by decide +kernel⟩, ⟨from2, { unit7 with phase := .placed, ack := 2, reps := 2, atts := [{ dev := 2, xid := 9, seen := 0 }, { dev := 3, xid := 9, seen := 0 }] }, { (pair 3 []).setReg (keyPol 1) 0x80100011 with plc := { units := [{ unit7 with phase := .placed, ack := 2, reps := 2, atts := [{ dev := 2, xid := 9, seen := 0 }, { dev := 3, xid := 9, seen := 0 }] }] } }, by decide +kernel⟩, ⟨9, 2, { unit7 with phase := .placed, ack := 2, reps := 2, atts := [{ dev := 2, xid := 9, seen := 0 }, { dev := 3, xid := 9, seen := 0 }] }, { (pair 3 []).setReg (keyPol 1) 0x80100011 with tick := 400000000, plc := { units := [{ unit7 with phase := .placed, ack := 2, reps := 2, atts := [{ dev := 2, xid := 9, seen := 0 }, { dev := 3, xid := 9, seen := 0 }] }] } }, by decide +kernel⟩, ⟨9, 2, { unit7 with phase := .placed, mig := true, replaced := [2], atts := [{ dev := 2, xid := 9, seen := 0 }] }, { dev := 2, xid := 9, seen := 0 }, { pair 3 [] with tick := 400000000, plc := { units := [{ unit7 with phase := .placed, mig := true, replaced := [2], atts := [{ dev := 2, xid := 9, seen := 0 }] }] } }, by decide +kernel⟩⟩

/-- Every clause of PeerDataAndReadsAreServed has operands and a state that meet its hypotheses. -/
theorem witness_PeerDataAndReadsAreServed :
    (∃ (h : PeerHdr) (o : Incoming) (s : State), s.hears h ∧ s.plc.held = [o] ∧ o.src = h.src.toNat ∧ o.xid =
      h.xid.toNat) ∧
    (∃ (h : PeerHdr) (s : State), s.hears h) ∧
    (∃ (h : PeerHdr) (s : State), s.hears h ∧ s.fresh h ∧ s.mode = modeDrain) ∧
    (∃ (h : PeerHdr) (u : UnitRef) (s : State), s.hears h ∧ s.fresh h ∧ s.mode = modeServe ∧ (s.plc.reads.any fun r =>
      r.src == h.src.toNat && r.xid == h.xid.toNat) = false ∧ s.hasKey u.tenant.toNat = false) ∧
    (∃ (h : PeerHdr) (u : UnitRef) (m : MapEnt) (st : Nat) (k : Nat) (s : State), s.hears h ∧ s.fresh h ∧ s.mode =
      modeServe ∧ (s.plc.reads.any fun r => r.src == h.src.toNat && r.xid == h.xid.toNat) = false ∧ s.hasKey
      u.tenant.toNat = true ∧ s.entOf (unitRefId u) = some m ∧ s.whereIs m.slot = some (st, k)) ∧
    (∃ (h : PeerHdr) (u : UnitSt) (e : Nat) (l : List Nat) (s : State), s.hears h ∧ s.still ∧ (s.plc.units.find? fun u
      => u.xid == h.xid.toNat && u.asked.contains h.src.toNat) = some u ∧ s.unitN u.n = some u ∧ u.asked.filter (fun d
      => d != h.src.toNat) = e :: l ∧ (s.plc.units.any fun w => ofXid h.src.toNat h.xid.toNat w) = false ∧
      (s.plc.units.any fun w => w.rerepl && w.phase == .fetch && w.xid == h.xid.toNat) = false) ∧
    (∃ (h : PeerHdr) (u : UnitSt) (a : Attempt) (s : State), s.hears h ∧ s.still ∧ s.plc.units = [u] ∧ u.phase =
      .placed ∧ u.atts = [a] ∧ a.dev = h.src.toNat ∧ a.xid = h.xid.toNat ∧ a.st = .running ∧ u.mig = true ∧ u.rerepl =
      false ∧ u.again = false ∧ u.asked = [] ∧ u.replaced.contains a.dev = true) ∧
    (∃ (xid : BitVec 32) (u : UnitSt) (d : Nat) (l : List Nat) (s : State), s.still ∧ (s.plc.units.find? fun u =>
      u.rerepl && u.phase == .fetch && u.xid == xid.toNat) = some u ∧ s.unitN u.n = some u ∧ u.cands.filter (fun d =>
      !s.isDown d) = d :: l) ∧
    (∃ (xid : BitVec 32) (u : UnitSt) (s : State), s.still ∧ s.plc.units = [u] ∧ u.rerepl = true ∧ u.phase = .fetch ∧
      u.xid = xid.toNat ∧ u.cands = []) :=
  ⟨⟨from2, { src := 2, xid := 9, id := u7, len := 0, flags := 0, repl := 0, target := { slot := 3, side := 0, layer := 2, station := 0, loaded := 0 } }, { pair 3 [] with plc := { held := [{ src := 2, xid := 9, id := u7, len := 0, flags := 0, repl := 0, target := { slot := 3, side := 0, layer := 2, station := 0, loaded := 0 } }] } }, by decide +kernel⟩, ⟨from2, { pair 3 [] with plc := { sending := [{ xid := 9, dev := 2, segs := [5], at_ := 0 }] } }, by decide +kernel⟩, ⟨from2, pair 4 [], by decide +kernel⟩, ⟨from2, { tenant := 1, key := 7, ver := 1, unit := 0 }, pair 3 [], by decide +kernel⟩, ⟨from2, { tenant := 1, key := 7, ver := 513, unit := 0 }, ent7, 0, 2, { pair 3 [(SPN_CTL_ENABLE 0, 1), (SYS_STAT_CAL_STN_0, 1), (PLC_SLOT_W0_STATE 3, 1)] with sec := { keys := [{ tenant := 1, gen := 1, key := 9 }] }, plc := { map := [ent7] } }, by decide +kernel⟩, ⟨from2, { unit7 with phase := .bidding, xid := 9, asked := [2, 3] }, 3, [], { pair 3 [] with plc := { units := [{ unit7 with phase := .bidding, xid := 9, asked := [2, 3] }] } }, by decide +kernel⟩, ⟨from2, { unit7 with phase := .placed, mig := true, replaced := [2], atts := [{ dev := 2, xid := 9, seen := 0 }] }, { dev := 2, xid := 9, seen := 0 }, { pair 3 [] with plc := { units := [{ unit7 with phase := .placed, mig := true, replaced := [2], atts := [{ dev := 2, xid := 9, seen := 0 }] }] } }, by decide +kernel⟩, ⟨9, { unit7 with rerepl := true, xid := 9, cands := [2] }, 2, [], { pair 3 [] with plc := { units := [{ unit7 with rerepl := true, xid := 9, cands := [2] }] } }, by decide +kernel⟩, ⟨9, { unit7 with rerepl := true, xid := 9 }, { pair 3 [] with plc := { units := [{ unit7 with rerepl := true, xid := 9 }] } }, by decide +kernel⟩⟩

/-- Every clause of LookupsAndTombstones has operands and a state that meet its hypotheses. -/
theorem witness_LookupsAndTombstones :
    (∃ (h : PeerHdr) (s : State), s.hears h ∧ s.fresh h) ∧
    (∃ (h : PeerHdr) (a : HintAsk) (s : State), s.hears h ∧ s.settleOne = none ∧ s.plc.tombJobs = [] ∧ s.plc.mig =
      none ∧ (s.plc.asks.find? fun a => a.dev == h.src.toNat && a.xid == h.xid.toNat) = some a ∧ (∀ x ∈
      s.plc.searches, (s.plc.asks.erase a).any (fun b => b.srch == x.n) = true)) ∧
    (∃ (xid : BitVec 32) (a : HintAsk) (s : State), s.still ∧ s.plc.units = [] ∧ (s.plc.asks.find? fun a => a.xid ==
      xid.toNat && decide (a.at_ + 500 * s.get PLC_PEER_TMO_HINT ≤ s.tick)) = some a ∧ (s.peerOf a.dev).misses < 2 ∧
      (s.peerOf a.dev).dev = a.dev) ∧
    (∃ (xid : BitVec 32) (a : HintAsk) (s : State), s.still ∧ s.plc.units = [] ∧ (s.plc.asks.find? fun a => a.xid ==
      xid.toNat && decide (a.at_ + 500 * s.get PLC_PEER_TMO_HINT ≤ s.tick)) = some a ∧ 2 ≤ (s.peerOf a.dev).misses ∧
      s.isDown a.dev = false ∧ (s.peerOf a.dev).dev = a.dev) ∧
    (∃ (d : BitVec 9) (k : Nat) (s : State), (s.peerOf d.toNat).downAt = some k ∧ k + 500000 * s.get
      PLC_PEER_TMO_DOWN_HOLD ≤ s.tick ∧ (s.peerOf d.toNat).dev = d.toNat) ∧
    (∃ (h : PeerHdr) (s : State), s.hears h ∧ s.fresh h ∧ s.quiet ∧ s.mode = modeServe ∧ s.plc.tombs.length < 262144 ∧
      s.tombSides ≠ []) ∧
    (∃ (h : PeerHdr) (k : Cmd) (s : State), s.hears h ∧ s.cmd.cmds = [k] ∧ k.asked.contains (h.src.toNat, h.xid.toNat)
      = true ∧ k.asked.erase (h.src.toNat, h.xid.toNat) ≠ [] ∧ k.op = opDelete ∧ k.started = true ∧ s.plc.opens = [] ∧
      s.plc.searches = [] ∧ s.plc.tombJobs = [] ∧ s.plc.mig = none) :=
  ⟨⟨from2, pair 4 [], by decide +kernel⟩, ⟨from2, { dev := 2, xid := 9, srch := 1, at_ := 0 }, { pair 3 [] with plc := { asks := [{ dev := 2, xid := 9, srch := 1, at_ := 0 }, { dev := 3, xid := 9, srch := 1, at_ := 0 }], searches := [{ n := 1, for_ := .res 5, id := u7, skip := [] }] } }, by decide +kernel⟩, ⟨9, { dev := 2, xid := 9, srch := 1, at_ := 0 }, { pair 3 [] with tick := 400000000, plc := { peers := [{ dev := 2, misses := 1 }], asks := [{ dev := 2, xid := 9, srch := 1, at_ := 0 }] } }, by decide +kernel⟩, ⟨9, { dev := 2, xid := 9, srch := 1, at_ := 0 }, { pair 3 [] with tick := 400000000, plc := { peers := [{ dev := 2, misses := 2 }], asks := [{ dev := 2, xid := 9, srch := 1, at_ := 0 }] } }, by decide +kernel⟩, ⟨2, 5, { pair 3 [] with tick := 4000000000, plc := { peers := [{ dev := 2, downAt := some 5, owed := [{ tenant := 1, key := 7, ver := 513 }] }] } }, by decide +kernel⟩, ⟨from2, { pair 3 (disc3 ++ [(PLC_SLOT_W0_STATE 3, 1), (PLC_TOMB_COPIES, 2), (SPN_CTL_ENABLE 0, 1), (OPU_STAT_STATE 0, 5), (SPN_STAT_STOPPED 0, 1)]) with plc := { map := [ent7] } }, by decide +kernel⟩, ⟨from2, { id := 1, path := mgmt, op := opDelete, e := {}, tenant := 0, prio := 0, at_ := 0, started := true, asked := [(2, 9), (2, 10)] }, { pair 3 [] with cmd := { cmds := [{ id := 1, path := mgmt, op := opDelete, e := {}, tenant := 0, prio := 0, at_ := 0, started := true, asked := [(2, 9), (2, 10)] }] } }, by decide +kernel⟩⟩

/-- Every clause of CopiesAreRestoredAndMoved has operands and a state that meet its hypotheses. -/
theorem witness_CopiesAreRestoredAndMoved :
    (∃ (u : UnitSt) (l : List UnitSt) (d : Nat) (m : List Nat) (s : State), s.plc.rerepl = u :: l ∧ s.mode = modeServe
      ∧ (s.entOf u.id).isNone = true ∧ s.unitN s.plc.nextUnit = none ∧ ((u.atts.filter fun a => a.st == .committed &&
      a.dev != s.self).map fun a => a.dev).filter (fun d => !s.isDown d) = d :: m) ∧
    (∃ (u : UnitSt) (l : List UnitSt) (m : MapEnt) (st : Nat) (k : Nat) (s : State), s.plc.rerepl = u :: l ∧ s.mode =
      modeServe ∧ s.entOf u.id = some m ∧ s.whereIs m.slot = some (st, k)) ∧
    (∃ (slot : BitVec 5) (r : DiscFound) (j : Job) (s : State), r.failed = false ∧ controlOk r.control = true ∧
      s.foreignDisc r = true ∧ slot.toNat < 24 ∧ (s.arbOf 0).job = some j ∧ j.kind = .rebuild ∧ j.slot = some
      slot.toNat ∧ (s.view 0).slot = some slot.toNat ∧ s.flag SYS_STAT_RECOVERING = true ∧ s.arb.jobs = []) ∧
    (∃ (slot : BitVec 5) (r : DiscFound) (j : Job) (s : State), r.failed = false ∧ controlOk r.control = false ∧
      slot.toNat < 24 ∧ (s.arbOf 0).job = some j ∧ j.kind = .rebuild ∧ j.slot = some slot.toNat ∧ (s.view 0).slot =
      some slot.toNat ∧ s.flag SYS_STAT_RECOVERING = true ∧ s.arb.jobs = []) ∧
    (∃ (slot : BitVec 5) (r : DiscFound) (j : Job) (s : State), r.failed = false ∧ controlOk r.control = true ∧
      s.foreignDisc r = false ∧ slot.toNat < 24 ∧ (s.arbOf 0).job = some j ∧ j.kind = .rebuild ∧ j.slot = some
      slot.toNat ∧ (s.view 0).slot = some slot.toNat ∧ s.flag SYS_STAT_RECOVERING = true ∧ s.arb.jobs = []) ∧
    (∃ (slot : BitVec 5) (j : Job) (s : State), slot.toNat < 24 ∧ (s.arbOf 0).job = some j ∧ j.kind = .rebuild ∧
      j.slot = some slot.toNat ∧ (s.view 0).slot = some slot.toNat ∧ s.flag SYS_STAT_RECOVERING = true ∧ s.arb.jobs =
      []) ∧
    (∃ (slot : BitVec 5) (st : Nat) (s : State), slot.toNat < 24 ∧ s.slotState slot.toNat = 7 ∧ s.flag
      SYS_STAT_RECOVERING = false ∧ s.mode = modeServe ∧ s.unreachable slot.toNat = false ∧ s.allJobs = [] ∧
      s.bindSlot slot.toNat = some st) ∧
    (∃ (p : Path) (slot : BitVec 5) (m : MapEnt) (st : Nat) (k : Nat) (s : State), s.opens p ∧ s.mode = modeServe ∧
      slot.toNat < 24 ∧ s.slotState slot.toNat = 1 ∧ s.plc.mig = none ∧ (s.plc.units.any fun u => u.mig) = false ∧
      (s.allJobs.any fun j => j.kind == .mig && !j.write) = false ∧ ((s.plc.map.filter fun e => e.slot == slot.toNat
      && e.live).find? fun e => s.hasKey e.id.tenant) = some m ∧ s.whereIs slot.toNat = some (st, k)) ∧
    (∃ (p : Path) (slot : BitVec 5) (s : State), s.opens p ∧ s.mode = modeServe ∧ slot.toNat < 24 ∧ s.slotState
      slot.toNat = 1 ∧ s.plc.mig = none ∧ (s.plc.units.any fun u => u.mig) = false ∧ (s.allJobs.any fun j => j.kind ==
      .mig && !j.write) = false ∧ (s.plc.map.any fun e => e.slot == slot.toNat && e.live) = false) ∧
    (∃ (p : Path) (slot : BitVec 5) (s : State), s.opens p ∧ s.mode = modeServe ∧ slot.toNat < 24 ∧ s.slotState
      slot.toNat ≠ 1 ∧ s.plc.mig = none) ∧
    (∃ (p : Path) (s : State), s.opens p ∧ s.mode ≠ modeServe) ∧
    (∃ (p : Path) (k : Nat) (s : State), s.opens p ∧ s.mode = modeServe ∧ s.plc.mig = some k ∧ k < 24 ∧
      (s.plc.units.any fun u => u.mig) = false ∧ (s.allJobs.any fun j => j.kind == .mig && !j.write) = false) :=
  ⟨⟨{ unit7 with rerepl := true, atts := [{ dev := 2, xid := 5, st := .committed, seen := 0 }] }, [], 2, [], { pair 3 [] with plc := { rerepl := [{ unit7 with rerepl := true, atts := [{ dev := 2, xid := 5, st := .committed, seen := 0 }] }] } }, by decide +kernel⟩, ⟨{ unit7 with rerepl := true, atts := [{ dev := 2, xid := 5, st := .committed, seen := 0 }] }, [], { ent7 with id := u7 }, 0, 2, { pair 3 [(SPN_CTL_ENABLE 0, 1), (SYS_STAT_CAL_STN_0, 1), (PLC_SLOT_W0_STATE 3, 1)] with plc := { rerepl := [{ unit7 with rerepl := true, atts := [{ dev := 2, xid := 5, st := .committed, seen := 0 }] }], map := [{ ent7 with id := u7 }] } }, by decide +kernel⟩, ⟨3, foreign7, { id := 1, kind := .rebuild, tenant := 0, cls := 0, at_ := 0, station := 0, slot := some 3, write := false }, (pair 3 (disc3 ++ [(SYS_STAT_RECOVERING, 1)])).modArb 0 fun a => { a with job := some { id := 1, kind := .rebuild, tenant := 0, cls := 0, at_ := 0, station := 0, slot := some 3, write := false } }, ⟨by decide, by decide, foreign7_foreign _ (by decide), by decide, by decide, by decide, by decide, by decide, by decide, by decide⟩⟩, ⟨3, { control := [] }, { id := 1, kind := .rebuild, tenant := 0, cls := 0, at_ := 0, station := 0, slot := some 3, write := false }, (pair 3 (disc3 ++ [(SYS_STAT_RECOVERING, 1)])).modArb 0 fun a => { a with job := some { id := 1, kind := .rebuild, tenant := 0, cls := 0, at_ := 0, station := 0, slot := some 3, write := false } }, by decide +kernel⟩, ⟨3, {}, { id := 1, kind := .rebuild, tenant := 0, cls := 0, at_ := 0, station := 0, slot := some 3, write := false }, (pair 3 (disc3 ++ [(SYS_STAT_RECOVERING, 1)])).modArb 0 fun a => { a with job := some { id := 1, kind := .rebuild, tenant := 0, cls := 0, at_ := 0, station := 0, slot := some 3, write := false } }, by decide +kernel⟩, ⟨3, { id := 1, kind := .rebuild, tenant := 0, cls := 0, at_ := 0, station := 0, slot := some 3, write := false }, (pair 3 (disc3 ++ [(SYS_STAT_RECOVERING, 1)])).modArb 0 fun a => { a with job := some { id := 1, kind := .rebuild, tenant := 0, cls := 0, at_ := 0, station := 0, slot := some 3, write := false } }, by decide +kernel⟩, ⟨3, 0, pair 3 (disc3 ++ [(PLC_SLOT_W0_STATE 3, 7)]), by decide +kernel⟩, ⟨mgmt, 3, ent7, 0, 2, { pair 3 [(SPN_CTL_ENABLE 0, 1), (SYS_STAT_CAL_STN_0, 1), (PLC_SLOT_W0_STATE 3, 1)] with sec := { keys := [{ tenant := 1, gen := 1, key := 9 }] }, plc := { map := [ent7] } }, by decide +kernel⟩, ⟨mgmt, 3, pair 3 [(PLC_SLOT_W0_STATE 3, 1)], by decide +kernel⟩, ⟨mgmt, 3, pair 3 [], by decide +kernel⟩, ⟨mgmt, pair 5 [], by decide +kernel⟩, ⟨mgmt, 3, { pair 3 [(PLC_SLOT_W0_STATE 3, 3), (PLC_MIG_STAT_STATE, 1)] with plc := { mig := some 3 } }, by decide +kernel⟩⟩

/-- Every clause of FramesAreForwardedOrCounted has operands and a state that meet its hypotheses. -/
theorem witness_FramesAreForwardedOrCounted :
    (∃ (port : Fin 2) (s : State), s.isUp port = false) ∧
    (∃ (port : Fin 2) (f : Frame) (s : State), s.isUp port = true ∧ f.src = s.mac) ∧
    (∃ (port : Fin 2) (f : Frame) (s : State), s.isUp port = true ∧ f.src ≠ s.mac ∧ f.dst = 0x0180C2000001 ∧ f.kind =
      .pause) ∧
    (∃ (port : Fin 2) (f : Frame) (s : State), s.isUp port = true ∧ s.isUp (1 - port.val) = true ∧ f.src ≠ s.mac ∧
      f.dst ≠ s.mac ∧ f.dst ≠ 0x0180C2000001 ∧ f.dst ≠ 0xFFFFFFFFFFFF ∧ s.groups.contains f.dst = false ∧ f.kind =
      .other ∧ f.fcsOk = true ∧ f.len.toNat ≤ 9216 ∧ f.ecn = 0 ∧ s.transitBytes (1 - port.val) + f.len.toNat ≤ 524288
      ∧ s.flag NET_PFC_CFG_EN = false) ∧
    (∃ (port : Fin 2) (f : Frame) (s : State), s.isUp port = true ∧ s.isUp (1 - port.val) = false ∧ f.src ≠ s.mac ∧
      f.dst ≠ s.mac ∧ f.dst ≠ 0x0180C2000001 ∧ f.dst ≠ 0xFFFFFFFFFFFF ∧ s.groups.contains f.dst = false ∧ s.flag
      NET_PFC_CFG_EN = false) ∧
    (∃ (port : Fin 2) (prio : BitVec 3) (quanta : BitVec 16) (s : State), s.isUp port = true ∧ s.flag NET_PFC_CFG_EN =
      true ∧ prio.toNat = s.get NET_PFC_CFG_PRIO ∧ quanta ≠ 0) ∧
    (∃ (s : State), s.net.annDone < annTimes.countP (fun k => decide (s.net.annAt + k ≤ s.tick))) :=
  ⟨⟨0, dev 3 [], by decide +kernel⟩, ⟨0, { dst := 1, src := 0x000600000005 }, (ownMac (dev 3 [(NET_PORT_STAT_STATE 0, 4), (NET_PORT_STAT_STATE 1, 4)])), by decide +kernel⟩, ⟨0, { dst := 0x0180C2000001, src := 2, kind := .pause }, (ownMac (dev 3 [(NET_PORT_STAT_STATE 0, 4), (NET_PORT_STAT_STATE 1, 4)])), by decide +kernel⟩, ⟨0, { dst := 8, src := 2 }, (ownMac (dev 3 [(NET_PORT_STAT_STATE 0, 4), (NET_PORT_STAT_STATE 1, 4)])), by decide +kernel⟩, ⟨0, { dst := 8, src := 2 }, (ownMac (dev 3 [(NET_PORT_STAT_STATE 0, 4)])), by decide +kernel⟩, ⟨0, 3, 900, (dev 3 [(NET_PORT_STAT_STATE 0, 4), (NET_PORT_STAT_STATE 1, 4), (NET_PFC_CFG_EN, 1), (NET_PFC_CFG_PRIO, 3)]), by decide +kernel⟩, ⟨{ dev 3 [] with tick := 600, net := { annDone := 0 } }, by decide +kernel⟩⟩

/-- Every clause of TimeClientAndTransport has operands and a state that meet its hypotheses. -/
theorem witness_TimeClientAndTransport :
    (∃ (port : Fin 2) (d : BitVec 8) (s : State), s.isUp port = true ∧ s.flag NET_PTP_CFG_CLIENT_EN = true ∧ d.toNat =
      s.get NET_PTP_CFG_DOMAIN ∧ s.net.masters = [] ∧ s.net.master = none) ∧
    (∃ (port : Fin 2) (m : Master) (s : State), s.net.masters = [m] ∧ s.net.master = some m ∧ m.port = port.val) ∧
    (∃ (sid : BitVec 14) (c : Conn) (s : State), s.connOf sid = some c ∧ c.opened = true ∧ c.used < c.retry) ∧
    (∃ (sid : BitVec 14) (s : State), (s.session? sid).isSome = true) ∧
    (∃ (sid : BitVec 14) (c : Conn) (s : State), s.connOf sid = some c ∧ c.tStage < 4 ∧ c.bStage < 5 ∧ 2 * c.rateAt +
      s.get NET_RC_CFG_RATE_T ≤ 2 * s.tick) :=
  ⟨⟨1, 0, (dev 3 [(NET_PORT_STAT_STATE 0, 4), (NET_PORT_STAT_STATE 1, 4), (NET_PTP_CFG_CLIENT_EN, 1), (NET_PTP_CFG_DOMAIN, 0)]), by decide +kernel⟩, ⟨1, { port := 1, prio1 := 1, cls := 1, acc := 1, var := 1, prio2 := 1, id := 7, steps := 1 }, { dev 3 [(TICK_STAT_PTP_VALID, 1)] with net := { masters := [{ port := 1, prio1 := 1, cls := 1, acc := 1, var := 1, prio2 := 1, id := 7, steps := 1 }], master := some { port := 1, prio1 := 1, cls := 1, acc := 1, var := 1, prio2 := 1, id := 7, steps := 1 } } }, by decide +kernel⟩, ⟨3, { sid := 3, mgmt := false, tenant := 1, depth := 4, cqEntries := 16, cqAddr := 0, mac := 0x020000000009, mtu := 4096, opened := true, retry := 7, rnr := 7 }, (dev 3 [(NET_PORT_STAT_STATE 0, 4), (NET_PORT_STAT_STATE 1, 4)]).modNet fun n => { n with conns := [{ sid := 3, mgmt := false, tenant := 1, depth := 4, cqEntries := 16, cqAddr := 0, mac := 0x020000000009, mtu := 4096, opened := true, retry := 7, rnr := 7 }] }, by decide +kernel⟩, ⟨1, { dev 3 [] with cmd := { sessions := [{ id := 1, mgmt := false, tenant := 2, depth := 4 }] } }, by decide +kernel⟩, ⟨3, { sid := 3, mgmt := false, tenant := 1, depth := 4, cqEntries := 16, cqAddr := 0, mac := 0x020000000009, mtu := 4096, retry := 7, rnr := 7 }, { (dev 3 [(NET_PORT_STAT_STATE 0, 4), (NET_PORT_STAT_STATE 1, 4)]).modNet fun n => { n with conns := [{ sid := 3, mgmt := false, tenant := 1, depth := 4, cqEntries := 16, cqAddr := 0, mac := 0x020000000009, mtu := 4096, retry := 7, rnr := 7 }] } with tick := 100000 }, by decide +kernel⟩⟩

/-- Every clause of ConnectionsOpenCarryEntriesAndClose has operands and a state that meet its hypotheses. -/
theorem witness_ConnectionsOpenCarryEntriesAndClose :
    (∃ (r : ConnReq) (sid : BitVec 14) (s : State), s.mode ≠ modeBoot ∧ s.connRefusal r = none ∧ s.freeSid = some sid) ∧
    (∃ (r : ConnReq) (code : Nat) (s : State), s.mode ≠ modeBoot ∧ s.connRefusal r = some code) ∧
    (∃ (sid : BitVec 14) (c : Conn) (s : State), s.connOf sid = some c ∧ c.opened = false ∧ s.mode ≠ modeBoot ∧ c.mgmt
      = false) ∧
    (∃ (sid : BitVec 14) (len : BitVec 16) (items : List (BitVec 8 × Entry)) (s : State), (s.session? sid).isSome =
      true ∧ sendItems len.toNat items = false) ∧
    (∃ (sid : BitVec 14) (op : BitVec 8) (x : Session) (s : State), s.session? sid = some x ∧ x.arrivals = [] ∧
      s.sessLoad (.session sid) < x.depth ∧ opListed op.toNat = true) ∧
    (∃ (sid : BitVec 14) (data : List Byte) (k : Cmd) (u : UnitSt) (v : BitVec 16) (s : State), s.cmd.cmds = [k] ∧
      k.path = .session sid ∧ k.e.cid = v ∧ k.op = opPut ∧ k.started = true ∧ s.plc.units = [u] ∧ u.cmd = some k.id ∧
      u.phase = .fetch ∧ u.rerepl = false ∧ u.id.ver ≠ 0 ∧ s.plc.opens = [] ∧ s.plc.searches = [] ∧ s.plc.tombJobs =
      [] ∧ s.plc.mig = none ∧ u.counted = false ∧ u.got + data.length = u.len) ∧
    (∃ (sid : BitVec 14) (data : List Byte) (k : Cmd) (u : UnitSt) (v : BitVec 16) (s : State), s.cmd.cmds = [k] ∧
      k.path = .session sid ∧ k.e.cid = v ∧ k.op = opPut ∧ k.started = true ∧ s.plc.units = [u] ∧ u.cmd = some k.id ∧
      u.phase = .fetch ∧ u.rerepl = false ∧ u.id.ver ≠ 0 ∧ s.plc.opens = [] ∧ s.plc.searches = [] ∧ s.plc.tombJobs =
      [] ∧ s.plc.mig = none ∧ u.counted = false ∧ u.got + data.length < u.len) ∧
    (∃ (sid : BitVec 14) (c : Conn) (s : State), s.connOf sid = some c ∧ c.opened = false) ∧
    (∃ (sid : BitVec 14) (c : Conn) (s : State), s.connOf sid = some c ∧ c.opened = true ∧ (s.session? sid).isSome =
      true) :=
  ⟨⟨{ mac := 9, mtu := 4096, kind := 1, depth := 16 }, 0, dev 3 [], by decide +kernel⟩, ⟨{ mac := 9, mtu := 4096, kind := 1, depth := 0 }, 1, dev 3 [], by decide +kernel⟩, ⟨3, { sid := 3, mgmt := false, tenant := 1, depth := 4, cqEntries := 16, cqAddr := 0, mac := 0x020000000009, mtu := 4096, retry := 7, rnr := 7 }, (dev 3 [(NET_PORT_STAT_STATE 0, 4), (NET_PORT_STAT_STATE 1, 4)]).modNet fun n => { n with conns := [{ sid := 3, mgmt := false, tenant := 1, depth := 4, cqEntries := 16, cqAddr := 0, mac := 0x020000000009, mtu := 4096, retry := 7, rnr := 7 }] }, by decide +kernel⟩, ⟨1, 63, [], dev 3 [], by decide +kernel⟩, ⟨1, 0x20, { id := 1, mgmt := true, tenant := 0, depth := 16 }, dev 3 [], by decide +kernel⟩, ⟨1, [1, 2], { id := 1, path := mgmt, op := opPut, e := {}, tenant := 1, prio := 0, at_ := 0, started := true }, { unit7 with cmd := some 1, len := 2 }, 0, { dev 3 [] with cmd := { cmds := [{ id := 1, path := mgmt, op := opPut, e := {}, tenant := 1, prio := 0, at_ := 0, started := true }] }, plc := { units := [{ unit7 with cmd := some 1, len := 2 }] } }, by decide +kernel⟩, ⟨1, [1, 2], { id := 1, path := mgmt, op := opPut, e := {}, tenant := 1, prio := 0, at_ := 0, started := true }, { unit7 with cmd := some 1, len := 9 }, 0, { dev 3 [] with cmd := { cmds := [{ id := 1, path := mgmt, op := opPut, e := {}, tenant := 1, prio := 0, at_ := 0, started := true }] }, plc := { units := [{ unit7 with cmd := some 1, len := 9 }] } }, by decide +kernel⟩, ⟨3, { sid := 3, mgmt := false, tenant := 1, depth := 4, cqEntries := 16, cqAddr := 0, mac := 0x020000000009, mtu := 4096, retry := 7, rnr := 7 }, (dev 3 [(NET_PORT_STAT_STATE 0, 4), (NET_PORT_STAT_STATE 1, 4)]).modNet fun n => { n with conns := [{ sid := 3, mgmt := false, tenant := 1, depth := 4, cqEntries := 16, cqAddr := 0, mac := 0x020000000009, mtu := 4096, retry := 7, rnr := 7 }] }, by decide +kernel⟩, ⟨3, { sid := 3, mgmt := false, tenant := 1, depth := 4, cqEntries := 16, cqAddr := 0, mac := 0x020000000009, mtu := 4096, opened := true, retry := 7, rnr := 7 }, { (dev 3 [(NET_PORT_STAT_STATE 0, 4), (NET_PORT_STAT_STATE 1, 4)]).modNet fun n => { n with conns := [{ sid := 3, mgmt := false, tenant := 1, depth := 4, cqEntries := 16, cqAddr := 0, mac := 0x020000000009, mtu := 4096, opened := true, retry := 7, rnr := 7 }] } with cmd := { sessions := [{ id := 3, mgmt := false, tenant := 1, depth := 4 }] } }, by decide +kernel⟩⟩

/-- Every clause of DataCommandsStartTheirWork has operands and a state that meet its hypotheses. -/
theorem witness_DataCommandsStartTheirWork :
    (∃ (v : OpenVer) (x : Session) (e : Entry) (s : State), s.serves x ∧ s.entryCode (.session x.id) opPut e = none ∧
      s.settleOne = none ∧ s.prompt (.session x.id) opPut e ∧ s.openOf x.tenant e.objKey.toNat = some v ∧ v.counted ≤
      e.offset.toNat / unitBytes ∧ s.polValid x.tenant = true ∧ s.hasKey x.tenant = true) ∧
    (∃ (q : Nat) (x : Session) (e : Entry) (s : State), s.serves x ∧ s.entryCode (.session x.id) opPut e = none ∧
      s.settleOne = none ∧ s.prompt (.session x.id) opPut e ∧ s.openOf x.tenant e.objKey.toNat = none ∧ e.offset.toNat
      / unitBytes = 0 ∧ s.polValid x.tenant = true ∧ s.hasKey x.tenant = true ∧ s.ownSeq x.tenant e.objKey.toNat =
      some q ∧ q < 8388607 ∧ s.plc.units = []) ∧
    (∃ (x : Session) (e : Entry) (s : State), s.serves x ∧ s.entryCode (.session x.id) opGet e = none ∧ s.settleOne =
      none ∧ s.prompt (.session x.id) opGet e ∧ 0 < e.len.toNat ∧ e.offset.toNat % unitBytes + e.len.toNat ≤ unitBytes
      ∧ e.objVer ≠ 0 ∧ (s.plc.map.any fun m => m.id.tenant == x.tenant && m.id.key == e.objKey.toNat && m.id.ver ==
      e.objVer.toNat && m.live && m.flags.testBit 0) = false ∧ s.hasKey x.tenant = true ∧ (∃ u ∈ s.plc.units, u.id =
      { tenant := x.tenant, key := e.objKey.toNat, ver := e.objVer.toNat, unit := e.offset.toNat / unitBytes } ∧
      u.held = true ∧ e.offset.toNat % unitBytes + e.len.toNat ≤ u.got)) ∧
    (∃ (m : MapEnt) (st : Nat) (k : Nat) (x : Session) (e : Entry) (s : State), s.serves x ∧ s.entryCode (.session
      x.id) opGet e = none ∧ s.settleOne = none ∧ s.prompt (.session x.id) opGet e ∧ 0 < e.len.toNat ∧ e.offset.toNat
      % unitBytes + e.len.toNat ≤ unitBytes ∧ e.objVer ≠ 0 ∧ (s.plc.map.any fun m => m.id.tenant == x.tenant &&
      m.id.key == e.objKey.toNat && m.id.ver == e.objVer.toNat && m.live && m.flags.testBit 0) = false ∧ s.hasKey
      x.tenant = true ∧ s.plc.units = [] ∧ s.entOf
      { tenant := x.tenant, key := e.objKey.toNat, ver := e.objVer.toNat, unit := e.offset.toNat / unitBytes } = some
      m ∧ s.whereIs m.slot = some (st, k)) ∧
    (∃ (v : OpenVer) (x : Session) (e : Entry) (s : State), s.serves x ∧ s.entryCode (.session x.id) opSeal e = none ∧
      s.settleOne = none ∧ s.prompt (.session x.id) opSeal e ∧ s.openOf x.tenant e.objKey.toNat = some v ∧ 0 <
      v.counted) ∧
    (∃ (x : Session) (e : Entry) (s : State), s.serves x ∧ s.entryCode (.session x.id) opDelete e = none ∧ s.settleOne
      = none ∧ s.prompt (.session x.id) opDelete e ∧ e.objVer ≠ 0 ∧ (s.plc.map.any fun m => m.id.tenant == x.tenant &&
      m.id.key == e.objKey.toNat && m.live) = true ∧ s.plc.tombs.length < 262144) ∧
    (∃ (x : Session) (e : Entry) (s : State), s.serves x ∧ s.entryCode (.session x.id) opStat e = none ∧ s.settleOne =
      none ∧ e.objVer ≠ 0 ∧ (s.sealedVers x.tenant e.objKey.toNat).contains e.objVer.toNat = true) ∧
    (∃ (v : OpenVer) (x : Session) (e : Entry) (s : State), s.serves x ∧ s.entryCode (.session x.id) opStat e = none ∧
      s.settleOne = none ∧ s.newest x.tenant e.objKey.toNat = none ∧ s.openOf x.tenant e.objKey.toNat = some v ∧
      e.objVer = 0) ∧
    (∃ (x : Session) (e : Entry) (s : State), s.serves x ∧ s.entryCode (.session x.id) opList e = none ∧ s.settleOne =
      none) ∧
    (∃ (m : MapEnt) (st : Nat) (k : Nat) (x : Session) (e : Entry) (s : State), s.serves x ∧ s.entryCode (.session
      x.id) opReserve e = none ∧ s.settleOne = none ∧ s.prompt (.session x.id) opReserve e ∧ e.objVer ≠ 0 ∧ s.entOf
      { tenant := x.tenant, key := e.objKey.toNat, ver := e.objVer.toNat, unit := e.offset.toNat / unitBytes } = some
      m ∧ s.whereIs m.slot = some (st, k) ∧ (s.allJobs.any fun j => j.cmd == some s.cmd.nextId) = false) ∧
    (∃ (d : Nat) (l : List Nat) (x : Session) (e : Entry) (s : State), s.serves x ∧ s.entryCode (.session x.id)
      opReserve e = none ∧ s.settleOne = none ∧ s.prompt (.session x.id) opReserve e ∧ e.objVer ≠ 0 ∧ s.entOf
      { tenant := x.tenant, key := e.objKey.toNat, ver := e.objVer.toNat, unit := e.offset.toNat / unitBytes } = none
      ∧ s.tierOf
      { n := s.plc.nextSearch, for_ := .res s.cmd.nextId, id := { tenant := x.tenant, key := e.objKey.toNat, ver := e.objVer.toNat, unit := e.offset.toNat / unitBytes }, skip := [] }
      = d :: l) ∧
    (∃ (x : Session) (e : Entry) (s : State), s.serves x ∧ s.entryCode (.session x.id) opFlush e = none ∧ s.settleOne
      = none) :=
  ⟨⟨open7, sess1, { objKey := 7, offset := 8388608, len := 4194304, cid := 5 }, hosted [] { opens := [open7] }, by decide +kernel⟩, ⟨1, sess1, { objKey := 7, len := 4194304, cid := 5 }, hosted [] { map := [ent7] }, by decide +kernel⟩, ⟨sess1, { objKey := 7, objVer := 513, offset := 8388608, len := 4096, cid := 5 }, hosted [] { opens := [open7], units := [{ n := 1, id := { tenant := 1, key := 7, ver := 513, unit := 2 }, cmd := none, len := 4194304, got := 4194304, flags := 0, phase := .placed }] }, by decide +kernel⟩, ⟨{ ent7 with flags := 0 }, 0, 2, sess1, { objKey := 7, objVer := 513, len := 4096, cid := 5 }, hosted [(SPN_CTL_ENABLE 0, 1), (SYS_STAT_CAL_STN_0, 1), (CMD_ADM_CFG_DEFER_MS, 65535)] { map := [{ ent7 with flags := 0 }] }, by decide +kernel⟩, ⟨open7, sess1, { objKey := 7, cid := 5 }, hosted [] { opens := [open7] }, by decide +kernel⟩, ⟨sess1, { objKey := 7, objVer := 513, cid := 5 }, hosted [] { map := [ent7] }, by decide +kernel⟩, ⟨sess1, { objKey := 7, objVer := 513, len := 64, cid := 5 }, hosted [] { map := [{ ent7 with flags := 3 }] }, by decide +kernel⟩, ⟨open7, sess1, { objKey := 7, len := 64, cid := 5 }, hosted [] { opens := [open7] }, by decide +kernel⟩, ⟨sess1, { objKey := 3, len := 64, cid := 5 }, hosted [] { map := [ent7] }, by decide +kernel⟩, ⟨{ ent7 with flags := 0 }, 0, 2, sess1, { objKey := 7, objVer := 513, arg0 := 60, cid := 5 }, hosted [(SPN_CTL_ENABLE 0, 1), (SYS_STAT_CAL_STN_0, 1), (CMD_ADM_CFG_DEFER_MS, 65535)] { map := [{ ent7 with flags := 0 }] }, by decide +kernel⟩, ⟨2, [], sess1, { objKey := 7, objVer := 513, arg0 := 60, cid := 5 }, ((hosted [(PLC_STAT_DM_VALID, 1), (PLC_DM_SELF_SELF, 1), (PLC_PEER_CFG_CAND, 4)] {}).setReg (keyDm 2 0) 0x40000000), by decide +kernel⟩, ⟨sess1, { cid := 5 }, hosted [] {}, by decide +kernel⟩⟩

/-- Every clause of ManagementCommandsComplete has operands and a state that meet its hypotheses. -/
theorem witness_ManagementCommandsComplete :
    (∃ (p : Path) (e : Entry) (s : State), s.quiet ∧ s.clear p ∧ s.entryCode p opIdentify e = none ∧ s.modeCode p
      opIdentify e = none) ∧
    (∃ (p : Path) (e : Entry) (s : State), s.quiet ∧ s.clear p ∧ s.entryCode p opGetLog e = none ∧ s.modeCode p
      opGetLog e = none ∧ e.arg0 = 1) ∧
    (∃ (p : Path) (e : Entry) (s : State), s.quiet ∧ s.clear p ∧ s.entryCode p opMeterRead e = none ∧ s.modeCode p
      opMeterRead e = none ∧ s.mtr.on = false ∧ e.arg0.getLsbD 31 = false) ∧
    (∃ (p : Path) (e : Entry) (s : State), s.quiet ∧ s.clear p ∧ s.entryCode p opMeterAck e = none ∧ s.modeCode p
      opMeterAck e = none ∧ e.arg0.getLsbD 31 = false) ∧
    (∃ (p : Path) (e : Entry) (s : State), s.quiet ∧ s.clear p ∧ s.entryCode p opFlush e = none ∧ s.modeCode p opFlush
      e = none ∧ e.arg0 = 1 ∧ s.sys.drain ≠ .activation) ∧
    (∃ (p : Path) (e : Entry) (s : State), s.quiet ∧ s.clear p ∧ s.entryCode p opDelete e = none ∧ s.modeCode p
      opDelete e = none ∧ e.arg0 = 1) ∧
    (∃ (x : Session) (e : Entry) (s : State), s.quiet ∧ s.cmd.sessions = [x] ∧ x.mgmt = true ∧ x.frozen = true ∧
      x.arrivals = [] ∧ 0 < x.depth ∧ e.arg0.getLsbD 0 = false ∧ s.entryCode (.session x.id) opRestart e = none ∧
      s.modeCode (.session x.id) opRestart e = none) :=
  ⟨⟨mgmt, { len := 256, cid := 5 }, dev 3 [], by decide +kernel⟩, ⟨mgmt, { len := 64, cid := 5, arg0 := 1 }, { dev 3 [] with cmd := { sessions := [{ id := 1, mgmt := true, tenant := 0, depth := 16 }], log := [{ seq := 4, type := 1 }] } }, by decide +kernel⟩, ⟨mgmt, { len := 64, cid := 5, arg0 := 1 }, { dev 3 [] with mtr := { recs := [{ minute := 4, ptp := false, epochs := 60, acc := { tenant := 1 }, mj := 5 }] } }, by decide +kernel⟩, ⟨mgmt, { cid := 5, arg0 := 1, arg1 := 9 }, { dev 3 [] with mtr := { recs := [{ minute := 4, ptp := false, epochs := 60, acc := { tenant := 1 }, mj := 5 }] } }, by decide +kernel⟩, ⟨mgmt, { arg0 := 1, cid := 5 }, dev 3 [], by decide +kernel⟩, ⟨mgmt, { arg0 := 1, arg1 := 1, arg2 := 3, objVer := 0, cid := 5 }, { dev 3 [] with sec := { keys := [{ tenant := 1, gen := 3, key := 9 }, { tenant := 1, gen := 4, key := 8 }] }, plc := { map := [ent7] } }, by decide +kernel⟩, ⟨{ id := 1, mgmt := true, tenant := 0, depth := 16, frozen := true }, { cid := 5 }, { dev 3 [] with cmd := { sessions := [{ id := 1, mgmt := true, tenant := 0, depth := 16, frozen := true }] } }, by decide +kernel⟩⟩

/-- Every clause of SelfTestsRunAndReport has operands and a state that meet its hypotheses. -/
theorem witness_SelfTestsRunAndReport :
    (∃ (p : Path) (e : Entry) (s : State), s.quiet ∧ s.clear p ∧ s.entryCode p opSelfTest { e with arg0 := 1 } = none
      ∧ s.modeCode p opSelfTest { e with arg0 := 1 } = none ∧ s.cmd.test = none ∧ s.hedgehogOn = true ∧ s.inService 0
      = false ∧ s.inService 1 = false ∧ (s.arb.jobs.all fun j => j.kind != .selftest) = true) ∧
    (∃ (p : Path) (e : Entry) (s : State), s.quiet ∧ s.clear p ∧ s.entryCode p opSelfTest { e with arg0 := 2 } = none
      ∧ s.modeCode p opSelfTest { e with arg0 := 2 } = none ∧ s.cmd.test = none ∧ s.hedgehogOn = true ∧ s.inService 0
      = false ∧ s.inService 1 = false ∧ (∀ k < 24, s.slotFull k = false) ∧ (s.arb.jobs.all fun j => j.kind !=
      .selftest) = true) ∧
    (∃ (p : Path) (e : Entry) (x : SelfTest) (s : State), s.quiet ∧ s.clear p ∧ s.entryCode p opSelfTest
      { e with arg0 := 15 } = none ∧ s.modeCode p opSelfTest { e with arg0 := 15 } = none ∧ s.cmd.test = some x ∧
      x.fail = none ∧ x.kind < 4 ∧ s.arb.jobs = [] ∧ (s.arbOf 0).job = none ∧ (s.arbOf 1).job = none) ∧
    (∃ (n : Nat) (x : SelfTest) (s : State), s.cmd.test = some x ∧ x.fail = none ∧ x.kind < 4 ∧ x.left = [.axis n 2] ∧
      s.axInMotion n = false ∧ s.arb.jobs = [] ∧ (s.arbOf 0).job = none ∧ (s.arbOf 1).job = none) ∧
    (∃ (x : SelfTest) (s : State), s.cmd.test = some x ∧ x.fail = none ∧ x.left = [.cycle] ∧ s.bist.running = false ∧
      s.arb.jobs = [] ∧ (s.arbOf 0).job = none ∧ (s.arbOf 1).job = none) ∧
    (∃ (x : SelfTest) (rest : List TestPart) (s : State), s.cmd.test = some x ∧ x.left = .cycle :: rest ∧
      s.bist.running = true ∧ s.arb.jobs = [] ∧ (s.arbOf 0).job = none ∧ (s.arbOf 1).job = none) ∧
    (∃ (st : Nat) (slot : Option Nat) (side : Nat) (layer : Nat) (x : SelfTest) (s : State), s.cmd.test = some x ∧
      x.left = [.cycle, .read st slot side layer] ∧ s.bist.running = false ∧ s.arb.jobs = [] ∧ (s.arbOf 0).job = none
      ∧ (s.arbOf 1).job = none) ∧
    (∃ (p : Path) (s : State), s.opens p ∧ s.cmd.test = none) :=
  ⟨⟨mgmt, { cid := 5 }, dev 5 [(BIST_CTL_EN, 1), (SPN_CTL_ENABLE 0, 0), (SPN_CTL_ENABLE 1, 0)], by decide +kernel⟩, ⟨mgmt, { cid := 5 }, dev 5 [(BIST_CTL_EN, 1), (SPN_CTL_ENABLE 0, 0), (SPN_CTL_ENABLE 1, 0)], by decide +kernel⟩, ⟨mgmt, { cid := 5 }, { kind := 1 }, { dev 5 [] with cmd := { sessions := [{ id := 1, mgmt := true, tenant := 0, depth := 16 }], test := some { kind := 1 } } }, by decide +kernel⟩, ⟨4, { kind := 1, left := [.axis 4 2] }, { dev 5 [] with cmd := { test := some { kind := 1, left := [.axis 4 2] } } }, by decide +kernel⟩, ⟨{ kind := 1, left := [.cycle] }, { dev 5 [] with cmd := { test := some { kind := 1, left := [.cycle] } } }, by decide +kernel⟩, ⟨{ kind := 1, left := [.cycle, .spin 0] }, [.spin 0], { dev 5 [] with cmd := { test := some { kind := 1, left := [.cycle, .spin 0] } }, bist := { running := true } }, by decide +kernel⟩, ⟨0, none, 0, 0, { kind := 1, left := [.cycle, .read 0 none 0 0] }, { dev 5 [] with cmd := { test := some { kind := 1, left := [.cycle, .read 0 none 0 0] } } }, by decide +kernel⟩, ⟨mgmt, dev 5 [(CMD_ST_STAT_RES, 1)], by decide +kernel⟩⟩

/-- Every clause of TransactionsOpenCommitAndEnd has operands and a state that meet its hypotheses. -/
theorem witness_TransactionsOpenCommitAndEnd :
    (∃ (p : Path) (e : Entry) (s : State), s.quiet ∧ s.clear p ∧ s.entryCode p opTxnBegin e = none ∧ s.modeCode p
      opTxnBegin e = none ∧ s.txnState e.arg0.toNat = 0) ∧
    (∃ (p : Path) (e : Entry) (s : State), s.quiet ∧ s.clear p ∧ s.entryCode p opTxnCommit e = none ∧ s.modeCode p
      opTxnCommit e = none ∧ s.txnOpen e.arg0.toNat = true ∧ s.ownsTxn p e.arg0.toNat = true ∧ s.txnCheck e.arg0.toNat
      = none) ∧
    (∃ (p : Path) (e : Entry) (s : State), s.quiet ∧ s.clear p ∧ s.entryCode p opTxnCommit e = none ∧ s.modeCode p
      opTxnCommit e = none ∧ s.ownsTxn p e.arg0.toNat = false) ∧
    (∃ (p : Path) (e : Entry) (s : State), s.quiet ∧ s.clear p ∧ s.entryCode p opTxnRollback e = none ∧ s.modeCode p
      opTxnRollback e = none ∧ s.ownsTxn p e.arg0.toNat = false) ∧
    (∃ (p : Path) (e : Entry) (s : State), s.quiet ∧ s.clear p ∧ s.entryCode p opTxnRollback e = none ∧ s.modeCode p
      opTxnRollback e = none ∧ s.txnOpen e.arg0.toNat = true ∧ s.ownsTxn p e.arg0.toNat = true) ∧
    (∃ (d : Fin 4) (s : State), s.txnOpen d = true ∧ 500000 * s.get TXN_CFG_TMO ≤ s.tick - (s.txnOf d).lastAt) ∧
    (∃ (v : Word) (k : Cmd) (s : State), s.txnState 3 = 1 ∧ s.txnState 0 = 0 ∧ s.txnState 1 = 0 ∧ s.txnState 2 = 0 ∧
      (s.txnOf 3).commit = some k.id ∧ s.txnChanges 3 = [(NET_MTU, v)] ∧ s.cmd.cmds = [k] ∧ s.flag NET_PFC_CFG_EN =
      true) ∧
    (∃ (d : Fin 4) (k : Cmd) (s : State), s.txnState d = 1 ∧ ((List.range d.val).any fun i => (s.txnOf
      i).commit.isSome && s.txnState i == 1) = false ∧ (s.txnOf d).commit = some k.id ∧ ((s.txnChanges d).any fun e =>
      isSlotKey e.1) = false ∧ s.cmd.cmds = [k] ∧ k.op = opTxnCommit) :=
  ⟨⟨mgmt, { arg0 := 3, cid := 5 }, dev 5 [], by decide +kernel⟩, ⟨mgmt, { arg0 := 3, cid := 5 }, ownMac (dev 5 [(TXN_STAT_W0_STATE 3, 1), (TXN_STAT_W0_SESSION 3, 1)]), by decide +kernel⟩, ⟨mgmt, { arg0 := 3, cid := 5 }, dev 5 [(TXN_STAT_W0_STATE 3, 1), (TXN_STAT_W0_SESSION 3, 9)], by decide +kernel⟩, ⟨mgmt, { arg0 := 3, cid := 5 }, dev 5 [(TXN_STAT_W0_STATE 3, 1), (TXN_STAT_W0_SESSION 3, 9)], by decide +kernel⟩, ⟨mgmt, { arg0 := 3, cid := 5 }, dev 5 [(TXN_STAT_W0_STATE 3, 1), (TXN_STAT_W0_SESSION 3, 1)], by decide +kernel⟩, ⟨2, { dev 5 [(TXN_STAT_W0_STATE 2, 1), (TXN_CFG_TMO, 60)] with tick := 60000000 }, by decide +kernel⟩, ⟨1, { id := 1, path := mgmt, op := opTxnCommit, e := { arg0 := 3 }, tenant := 0, prio := 0, at_ := 0, started := true }, ({ dev 5 [(TXN_STAT_W0_STATE 3, 1), (NET_PFC_CFG_EN, 1)] with cmd := { cmds := [{ id := 1, path := mgmt, op := opTxnCommit, e := { arg0 := 3 }, tenant := 0, prio := 0, at_ := 0, started := true }] } }).setTxn 3 { shadow := [(NET_MTU, 1)], commit := some 1 }, by decide +kernel⟩, ⟨0, { id := 1, path := mgmt, op := opTxnCommit, e := { arg0 := 0 }, tenant := 0, prio := 0, at_ := 0, started := true }, ({ dev 5 [(TXN_STAT_W0_STATE 0, 1)] with cmd := { cmds := [{ id := 1, path := mgmt, op := opTxnCommit, e := { arg0 := 0 }, tenant := 0, prio := 0, at_ := 0, started := true }] } }).setTxn 0 { commit := some 1 }, by decide +kernel⟩⟩

/-- Every clause of CalibrationBlobsAndActivation has operands and a state that meet its hypotheses. -/
theorem witness_CalibrationBlobsAndActivation :
    (∃ (p : Path) (e : Entry) (s : State), s.quiet ∧ s.clear p ∧ s.entryCode p opCalSave e = none ∧ s.modeCode p
      opCalSave e = none ∧ p ≠ .service ∧ 3488 ≤ e.len.toNat) ∧
    (∃ (p : Path) (e : Entry) (s : State), s.quiet ∧ s.clear p ∧ s.entryCode p opCalLoad e = none ∧ s.modeCode p
      opCalLoad e = none ∧ s.spnState e.arg0.toNat = spOff) ∧
    (∃ (st : Fin 2) (l : CalLoad) (k : Cmd) (s : State), s.cal.loads = [l] ∧ l.stn = st.val ∧ s.spnState st = spOff ∧
      s.cmd.cmds = [k] ∧ k.id = l.cmd ∧ s.plc.opens = [] ∧ s.plc.searches = [] ∧ s.plc.tombJobs = [] ∧ s.plc.mig =
      none) ∧
    (∃ (p : Path) (e : Entry) (s : State), s.quiet ∧ s.clear p ∧ s.entryCode p opActivate e = none ∧ s.modeCode p
      opActivate e = none ∧ e.arg2 = 0 ∧ s.flag SYS_STAT_ACT_PENDING = true) ∧
    (∃ (p : Path) (e : Entry) (s : State), s.quiet ∧ s.clear p ∧ s.entryCode p opActivate e = none ∧ s.modeCode p
      opActivate e = none ∧ e.arg2.toNat ≠ 0 ∧ s.get UPD_STAT_STATE = 3 ∧ (s.sec.bundle.all fun b => !b.token) = true
      ∧ s.ce.rephased = true ∧ s.ptpNow + 2000000000 ≤ e.arg2.toNat * 1000000000 + e.arg1.toNat) :=
  ⟨⟨mgmt, { len := 4096, cid := 5 }, dev 5 [], by decide +kernel⟩, ⟨mgmt, { len := 96, cid := 5 }, dev 5 [], by decide +kernel⟩, ⟨0, { cmd := 1, stn := 0, blob := [] }, { id := 1, path := .service, op := opCalLoad, e := {}, tenant := 0, prio := 0, at_ := 0, started := true }, { dev 5 [] with cal := { loads := [{ cmd := 1, stn := 0, blob := [] }] }, cmd := { cmds := [{ id := 1, path := .service, op := opCalLoad, e := {}, tenant := 0, prio := 0, at_ := 0, started := true }] } }, by decide +kernel⟩, ⟨mgmt, { cid := 5 }, dev 3 [(SYS_STAT_ACT_PENDING, 1)], by decide +kernel⟩, ⟨mgmt, { arg1 := 7, arg2 := 100, cid := 5 }, { dev 3 [(UPD_STAT_STATE, 3)] with ce := { rephased := true }, sec := { bundle := some { token := false, svn := 0, advance := false } } }, by decide +kernel⟩⟩

/-- Every clause of QuotesAndKeys has operands and a state that meet its hypotheses. -/
theorem witness_QuotesAndKeys :
    (∃ (p : Path) (e : Entry) (s : State), s.quiet ∧ s.clear p ∧ s.entryCode p opAttest e = none ∧ s.modeCode p
      opAttest e = none ∧ e.arg0 = 0 ∧ s.lc ≠ lcBlank ∧ e.len = 32 ∧ s.sec.quotes = []) ∧
    (∃ (q : Quote) (s : State), s.sec.quotes = [q] ∧ q.state = 1 ∧ q.dropped = false) ∧
    (∃ (p : Path) (e : Entry) (q : Quote) (s : State), s.quiet ∧ s.clear p ∧ s.entryCode p opAttest e = none ∧
      s.modeCode p opAttest e = none ∧ e.arg0 = 1 ∧ p ≠ .service ∧ 52096 ≤ e.len.toNat ∧ s.sec.quotes = [q] ∧ q.path =
      p ∧ q.state = 2 ∧ q.dropped = false) ∧
    (∃ (p : Path) (e : Entry) (s : State), s.quiet ∧ s.clear p ∧ s.entryCode p opKeyLoad e = none ∧ s.modeCode p
      opKeyLoad e = none ∧ s.lc = lcIssued ∨ s.lc = lcField ∧ s.get SEC_LC_DEBUG = 0 ∧ e.len = 0 ∧ e.arg0.getLsbD 31 =
      false) ∧
    (∃ (p : Path) (e : Entry) (blob : List Byte) (s : State), s.quiet ∧ s.clear p ∧ s.entryCode p opKeyLoad e = none ∧
      s.modeCode p opKeyLoad e = none ∧ s.lc = lcIssued ∨ s.lc = lcField ∧ s.get SEC_LC_DEBUG = 0 ∧ e.len ≠ 0 ∧
      e.arg0.getLsbD 31 = false ∧ s.keyFits (e.arg0.toNat % 4096) e.arg1.toNat = true ∧ s.wrapOk (s.newCmd p opKeyLoad
      e).1 blob = true) :=
  ⟨⟨mgmt, { len := 32, cid := 5 }, dev 3 [], by decide +kernel⟩, ⟨{ path := mgmt, nonce := 7, state := 1, reqAt := 0 }, { dev 3 [] with tick := 1000, sec := { quotes := [{ path := mgmt, nonce := 7, state := 1, reqAt := 0 }] } }, by decide +kernel⟩, ⟨mgmt, { arg0 := 1, len := 60000, cid := 5 }, { path := mgmt, nonce := 7, state := 2, reqAt := 0 }, { dev 3 [] with sec := { quotes := [{ path := mgmt, nonce := 7, state := 2, reqAt := 0 }] } }, by decide +kernel⟩, ⟨mgmt, { arg0 := 1, arg1 := 3, cid := 5 }, { dev 3 [(SEC_LC_STATE, 2), (SEC_LC_DEBUG, 0)] with sec := { keys := [{ tenant := 1, gen := 3, key := 9 }] } }, by decide +kernel⟩, ⟨mgmt, { arg0 := 1, arg1 := 3, len := 96, cid := 5 }, [0x4B, 0x57, 0x52, 0x50, 2, 0, 0, 0, 1, 0, 0, 0, 3, 0, 0, 0] ++ List.replicate 80 0, { dev 3 [(SEC_LC_STATE, 2), (SEC_LC_DEBUG, 0)] with sec := { domain := some 5 } }, by decide +kernel⟩⟩

/-- Every clause of GrantsServeAndEnd has operands and a state that meet its hypotheses. -/
theorem witness_GrantsServeAndEnd :
    (∃ (st : Fin 2) (j : Job) (k : Cmd) (v : OpenVer) (s : State), (s.arbOf st).job = some j ∧ j.cmd = some k.id ∧
      j.hold = none ∧ s.cmd.cmds = [k] ∧ k.op = opPut ∧ k.deferred = true ∧ k.started = false ∧ (s.view st).holds j =
      true ∧ s.flag (SPN_STAT_AT_SPEED st) = true ∧ s.mayStart k = true ∧ s.plc.opens = [v] ∧ v.tenant = k.tenant ∧
      v.key = k.e.objKey.toNat ∧ v.counted ≤ k.e.offset.toNat / unitBytes ∧ k.e.offset.toNat % unitBytes = 0 ∧ 0 <
      k.e.len.toNat ∧ k.e.len.toNat ≤ unitBytes ∧ s.polValid k.tenant = true ∧ s.hasKey k.tenant = true ∧ s.plc.units
      = [] ∧ s.plc.searches = [] ∧ s.plc.tombJobs = [] ∧ s.plc.mig = none) ∧
    (∃ (st : Fin 2) (j : Job) (k : Cmd) (u : JobUnit) (r : RdUnit) (w : Word) (s : State), (s.arbOf st).job = some j ∧
      s.arb.jobs = [] ∧ j.kind = .tenant ∧ j.write = false ∧ j.hold = none ∧ j.units = [u] ∧ j.cmd = some k.id ∧
      s.cmd.cmds = [k] ∧ k.op = opGet ∧ k.started = true ∧ k.reads = [r] ∧ r.now = some s.self ∧ r.done = false ∧
      r.failed = false ∧ k.unitId r.unit = u.id ∧ (s.sec.keys.any fun x => x.tenant == u.id.tenant && x.gen ==
      w.toNat) = true ∧ s.plc.map = [] ∧ s.chn.lost = [] ∧ (s.chn.ext[2 * st.val]?).getD none = none ∧ (s.chn.ext[2 *
      st.val + 1]?).getD none = none ∧ 0 < s.get ARB_PARK_PARK_TMO ∧ s.plc.opens = [] ∧ s.plc.searches = [] ∧
      s.plc.tombJobs = [] ∧ s.plc.mig = none) ∧
    (∃ (st : Fin 2) (s : State), s.grantState st = stnParked ∧ (s.arbOf st).since + 500000 * ((s.arbOf st).hold.getD
      (s.get ARB_PARK_PARK_TMO)) ≤ s.tick) ∧
    (∃ (st : Fin 2) (j : Job) (k : Cmd) (s : State), (s.arbOf st).job = some j ∧ j.kind = .tenant ∧ j.cmd = some k.id
      ∧ s.cmd.cmds = [k] ∧ k.op = opDelete ∧ k.path = .service ∧ (s.chn.ext[2 * st.val]?).getD none = none ∧
      (s.chn.ext[2 * st.val + 1]?).getD none = none ∧ (s.arbOf st).since + 500000 * s.get ARB_STN_WDOG_STN_WDOG ≤
      s.tick ∧ (∀ i : Fin 2, i ≠ st → (s.arbOf i).job = none) ∧ s.plc.opens = [] ∧ s.plc.searches = [] ∧
      s.plc.tombJobs = [] ∧ s.plc.mig = none) :=
  ⟨⟨0, { id := 4, kind := .tenant, tenant := 1, cls := 0, cmd := some 1, at_ := 0, station := 0, slot := some 3, write := true }, { id := 1, path := .session 1, op := opPut, e := { objKey := 7, offset := 8388608, len := 4194304 }, tenant := 1, prio := 0, at_ := 0, deferred := true }, open7, (({ hosted (disc3 ++ [(SPN_STAT_AT_SPEED 0, 1)]) { opens := [open7] } with cmd := { sessions := [sess1], cmds := [{ id := 1, path := .session 1, op := opPut, e := { objKey := 7, offset := 8388608, len := 4194304 }, tenant := 1, prio := 0, at_ := 0, deferred := true }] } }).modArb 0 fun a => { a with job := some { id := 4, kind := .tenant, tenant := 1, cls := 0, cmd := some 1, at_ := 0, station := 0, slot := some 3, write := true } }), by decide +kernel⟩, ⟨0, { id := 4, kind := .tenant, tenant := 1, cls := 0, cmd := some 1, at_ := 0, station := 0, slot := some 3, write := false, units := [{ id := { tenant := 1, key := 7, ver := 513, unit := 0 }, side := 0, layer := 2, zone := 0 }] }, { id := 1, path := mgmt, op := opGet, e := { objKey := 7 }, tenant := 1, prio := 0, at_ := 0, started := true, ver := 513, reads := [{ unit := 0, before := 0, len := 64, now := some 0 }] }, { id := { tenant := 1, key := 7, ver := 513, unit := 0 }, side := 0, layer := 2, zone := 0 }, { unit := 0, before := 0, len := 64, now := some 0 }, 2, (({ dev 3 [(ARB_PARK_PARK_TMO, 60)] with cmd := { sessions := [{ id := 1, mgmt := true, tenant := 0, depth := 16 }], cmds := [{ id := 1, path := mgmt, op := opGet, e := { objKey := 7 }, tenant := 1, prio := 0, at_ := 0, started := true, ver := 513, reads := [{ unit := 0, before := 0, len := 64, now := some 0 }] }] }, sec := { keys := [{ tenant := 1, gen := 2, key := 9 }] } }).modArb 0 fun a => { a with job := some { id := 4, kind := .tenant, tenant := 1, cls := 0, cmd := some 1, at_ := 0, station := 0, slot := some 3, write := false, units := [{ id := { tenant := 1, key := 7, ver := 513, unit := 0 }, side := 0, layer := 2, zone := 0 }] } }), by decide +kernel⟩, ⟨1, { dev 3 [(ARB_STN_W0_STATE 1, 2), (ARB_PARK_PARK_TMO, 60)] with tick := 40000000 }, by decide +kernel⟩, ⟨0, { id := 4, kind := .tenant, tenant := 0, cls := 0, cmd := some 1, at_ := 0, station := 0, slot := none, write := true }, { id := 1, path := .service, op := opDelete, e := { cid := 5 }, tenant := 0, prio := 0, at_ := 0, started := true }, (({ dev 3 [] with tick := 400000000, cmd := { cmds := [{ id := 1, path := .service, op := opDelete, e := { cid := 5 }, tenant := 0, prio := 0, at_ := 0, started := true }] } }).modArb 0 fun a => { a with job := some { id := 4, kind := .tenant, tenant := 0, cls := 0, cmd := some 1, at_ := 0, station := 0, slot := none, write := true } }), by decide +kernel⟩⟩

/-- Every clause of CacheMaintenanceIsOrderedAndEnds has operands and a state that meet its hypotheses. -/
theorem witness_CacheMaintenanceIsOrderedAndEnds :
    (∃ (p : Path) (r : Instr) (op : Nat) (s : State), (r = .invLine p ∧ op = 1 ∨ r = .invRange p ∧ op = 2 ∨ r =
      .invAll p ∧ op = 3 ∨ r = .lock p ∧ op = 4 ∨ r = .unlock p ∧ op = 5 ∨ r = .unlockAll p ∧ op = 6) ∧ s.opens p ∧
      s.flag CCH_MAINT_STAT_BUSY = false ∧ cacheable (64 * s.get CCH_MAINT_ADDR_LINE) = true ∧ cacheable (64 * s.get
      CCH_MAINT_END_LINE) = true) ∧
    (∃ (p : Path) (r : Instr) (op : Nat) (s : State), (r = .invLine p ∧ op = 1 ∨ r = .invRange p ∧ op = 2 ∨ r =
      .invAll p ∧ op = 3 ∨ r = .lock p ∧ op = 4 ∨ r = .unlock p ∧ op = 5 ∨ r = .unlockAll p ∧ op = 6) ∧ s.opens p ∧
      s.flag CCH_MAINT_STAT_BUSY = true) ∧
    (∃ (op : Nat) (s : State), s.flag CCH_MAINT_STAT_BUSY = true ∧ s.get CCH_MAINT_STAT_OP = op ∧ 1 ≤ op ∧ op ≤ 3 ∧
      (s.cch.miss.any fun m => s.invReaches op m) = false ∧ s.cch.held = []) ∧
    (∃ (s : State), s.flag CCH_MAINT_STAT_BUSY = true ∧ s.get CCH_MAINT_STAT_OP = 6 ∧ s.cch.miss = none) ∧
    (∃ (l : CLine) (s : State), s.flag CCH_MAINT_STAT_BUSY = true ∧ s.get CCH_MAINT_STAT_OP = 4 ∧ s.cch.miss = none ∧
      l ∈ s.cch.lines ∧ l.tag = s.get CCH_MAINT_ADDR_LINE ∧ l.valid = true ∧ l.locked = false ∧ (s.cch.lines.filter
      fun m => m.tag == l.tag) = [l] ∧ s.locksInSet l.tag < 8) :=
  ⟨⟨mgmt, .lock mgmt, 4, dev 3 [(CCH_MAINT_ADDR_LINE, 0x10000), (CCH_MAINT_END_LINE, 0x10004)], by decide +kernel⟩, ⟨mgmt, .invAll mgmt, 3, dev 3 [(CCH_MAINT_STAT_BUSY, 1)], by decide +kernel⟩, ⟨3, { dev 3 [(CCH_MAINT_STAT_BUSY, 1), (CCH_MAINT_STAT_OP, 3)] with cch := { lines := [{ set := 1, way := 0, tag := 65537, data := 5 }] } }, by decide +kernel⟩, ⟨{ dev 3 [(CCH_MAINT_STAT_BUSY, 1), (CCH_MAINT_STAT_OP, 6)] with cch := { lines := [{ set := 1, way := 0, tag := 65537, locked := true, data := 5 }] } }, by decide +kernel⟩, ⟨{ set := 1, way := 0, tag := 65537, data := 5 }, { dev 3 [(CCH_MAINT_STAT_BUSY, 1), (CCH_MAINT_STAT_OP, 4), (CCH_MAINT_ADDR_LINE, 65537)] with cch := { lines := [{ set := 1, way := 0, tag := 65537, data := 5 }] } }, by decide +kernel⟩⟩

/-- Every clause of CacheServesReadsAndWrites has operands and a state that meet its hypotheses. -/
theorem witness_CacheServesReadsAndWrites :
    (∃ (addr : BitVec 34) (l : CLine) (s : State), cacheable addr.toNat = true ∧ s.inWalk (addr.toNat / 64) = false ∧
      s.cch.stalled = [] ∧ s.lineOf (addr.toNat / 64) = some l ∧ l.valid = true ∧ s.cch.miss ≠ some (addr.toNat / 64)) ∧
    (∃ (addr : BitVec 34) (s : State), cacheable addr.toNat = true ∧ s.inWalk (addr.toNat / 64) = false ∧
      s.cch.stalled = [] ∧ s.hits (addr.toNat / 64) = false ∧ s.cch.miss = none) ∧
    (∃ (addr : BitVec 34) (d : BitVec 512) (s : State), cacheable addr.toNat = false ∧ addr.toNat < dramBytes ∧
      s.fetchLine (addr.toNat / 64) = (some d, s)) ∧
    (∃ (addr : BitVec 34) (bytes : List Byte) (s : State), cacheable addr.toNat = true ∧ s.inWalk (addr.toNat / 64) =
      false ∧ s.cch.stalled = [] ∧ s.hits (addr.toNat / 64) = false ∧ s.cch.miss ≠ some (addr.toNat / 64) ∧ addr.toNat
      % 32 = 0 ∧ bytes.length = 32) ∧
    (∃ (addr : BitVec 34) (bytes : List Byte) (l : CLine) (s : State), cacheable addr.toNat = true ∧ s.inWalk
      (addr.toNat / 64) = false ∧ s.cch.stalled = [] ∧ s.lineOf (addr.toNat / 64) = some l ∧ l.valid = true ∧
      s.cch.miss ≠ some (addr.toNat / 64) ∧ addr.toNat % 32 = 0 ∧ bytes.length = 32) ∧
    (∃ (tag : Nat) (d : BitVec 512) (s : State), s.cch.miss = some tag ∧ s.cch.stalled = [] ∧ (s.cch.lines.all fun l
      => l.tag != tag || (l.set == lineSet tag && l.way == s.victim tag)) = true ∧ (s.flag CCH_MAINT_STAT_BUSY &&
      decide (s.get CCH_MAINT_STAT_OP ≤ 3) && s.invReaches (s.get CCH_MAINT_STAT_OP) tag) = false ∧ s.fetchLine tag =
      (some d, s)) :=
  ⟨⟨0x400040, { set := 1, way := 0, tag := 65537, data := 5 }, { dev 3 [] with cch := { lines := [{ set := 1, way := 0, tag := 65537, data := 5 }] } }, by decide +kernel⟩, ⟨0x400040, dev 3 [], by decide +kernel⟩, ⟨0, 0, dev 3 [], by decide +kernel⟩, ⟨0x400040, List.replicate 32 7, dev 3 [], by decide +kernel⟩, ⟨0x400040, List.replicate 32 7, { set := 1, way := 0, tag := 65537, data := 5 }, { dev 3 [] with cch := { lines := [{ set := 1, way := 0, tag := 65537, data := 5 }] } }, by decide +kernel⟩, ⟨65537, 0, { dev 3 [] with cch := { miss := some 65537 } }, by decide +kernel⟩⟩

/-- Every clause of MemoriesAreReadWrittenAndChecked has operands and a state that meet its hypotheses. -/
theorem witness_MemoriesAreReadWrittenAndChecked :
    (∃ (addr : BitVec 34) (s : State), addr.toNat / 32 < granules ∧ s.flag MEM_DRAM_STAT_READY = true ∧ s.granChk
      (addr.toNat / 32) = chkOf (addr.toNat / 32) (s.granData (addr.toNat / 32))) ∧
    (∃ (addr : BitVec 34) (bytes : List Byte) (s : State), addr.toNat / 32 < granules ∧ s.flag MEM_DRAM_STAT_READY =
      true ∧ s.granChk (addr.toNat / 32) = chkOf (addr.toNat / 32) (s.granData (addr.toNat / 32)) ∧ addr.toNat % 32 +
      bytes.length ≤ 32 ∧ bytes ≠ []) ∧
    (∃ (i : Fin 9) (offset : BitVec 24) (s : State), (s.sramUpset i offset.toNat) = 0) ∧
    (∃ (i : Fin 9) (offset : BitVec 24) (upset : BitVec 13) (s : State), upset ≠ 0 ∧ offset.toNat < sramSize i ∧
      s.sramUpset i offset.toNat = 0 ∧ (eccDecode 8 4 (upset.toNat % 256) (upset.toNat / 256)).kind = 1 ∧ i ≠ 0) ∧
    (∃ (p : Path) (target : BitVec 4) (s : State), s.opens p ∧ s.chkAccepts target.toNat = true ∧ target = 15) ∧
    (∃ (p : Path) (target : BitVec 4) (s : State), s.opens p ∧ s.chkAccepts target.toNat = true ∧ target = 15) ∧
    (∃ (p : Path) (target : BitVec 4) (s : State), s.opens p ∧ s.chkAccepts target.toNat = true ∧ target = 15 ∧
      s.granChk s.chkGranule = chkOf s.chkGranule (s.granData s.chkGranule)) ∧
    (∃ (p : Path) (target : BitVec 4) (r : Instr) (s : State), (r = .writeRaw p target ∨ r = .readRaw p target ∨ r =
      .readCorr p target) ∧ s.opens p ∧ s.mode ≠ modeMaintain) :=
  ⟨⟨64, dev 3 [(MEM_DRAM_STAT_READY, 1)], by decide +kernel⟩, ⟨67, [1, 2, 3], dev 3 [(MEM_DRAM_STAT_READY, 1)], by decide +kernel⟩, ⟨3, 16, dev 3 [], by decide +kernel⟩, ⟨3, 16, 1, dev 3 [], by decide +kernel⟩, ⟨mgmt, 15, ((dev 5 [(MEM_CHK_CODE_CODE, 77)]).setReg (MEM_CHK_DATA 1) 5), by decide +kernel⟩, ⟨mgmt, 15, dev 5 [], by decide +kernel⟩, ⟨mgmt, 15, dev 5 [], by decide +kernel⟩, ⟨mgmt, 15, .readRaw mgmt 15, dev 3 [], by decide +kernel⟩⟩

/-- Every clause of FlashDescriptorsRunAndComplete has operands and a state that meet its hypotheses. -/
theorem witness_FlashDescriptorsRunAndComplete :
    (∃ (p : Path) (b : Option Path) (r : Instr) (op : Nat) (tag : BitVec 8) (addr : BitVec 24) (len : BitVec 25) (s :
      State), (r = .flashRead b tag addr len ∧ op = flRead ∧ len.toNat ≤ 256 ∨ r = .flashCheck b tag addr len ∧ op =
      flCheck ∨ r = .flashBlankCheck b tag addr len ∧ op = flBlank) ∧ b = some p ∧ s.opens p ∧ s.flHost < 4 ∧
      ({ host := true, tag := tag.toNat, op := op, addr := addr.toNat, len := len.toNat } : FlDesc).rangeOk = true ∧
      s.flash.queue = [] ∧ s.flash.run = none ∧ s.flash.susp = none ∧ s.flash.rd = none) ∧
    (∃ (b : Option Path) (r : Instr) (op : Nat) (tag : BitVec 8) (addr : BitVec 24) (len : BitVec 25) (s : State), (r
      = .flashRead b tag addr len ∧ op = flRead ∧ len.toNat ≤ 256 ∨ r = .flashCheck b tag addr len ∧ op = flCheck ∨ r
      = .flashBlankCheck b tag addr len ∧ op = flBlank) ∧ b = none ∧
      ({ host := false, tag := tag.toNat, op := op, addr := addr.toNat, len := len.toNat } : FlDesc).rangeOk = true ∧
      s.flash.queue = [] ∧ s.flash.run = none ∧ s.flash.susp = none ∧ s.flash.rd = none) ∧
    (∃ (urgent : Bool) (addr : BitVec 24) (data : List Byte) (s : State),
      ({ host := false, urgent := urgent, op := flProgram, addr := addr.toNat, len := data.length, data := data } :
      FlDesc).rangeOk = true ∧ s.flag (if bankOf addr.toNat = 0 then FL_XIP_EN_BANK0 else FL_XIP_EN_BANK1) = false ∧
      s.rangeBlank addr.toNat data.length = true ∧ s.jrnlOpen (sectorOf addr.toNat) = false ∧ s.flash.queue = [] ∧
      s.flash.run = none ∧ s.flash.susp = none ∧ s.flash.rd = none) ∧
    (∃ (addr : BitVec 24) (s : State), sectorBase (sectorOf addr.toNat) = addr.toNat ∧ s.flag (if bankOf addr.toNat =
      0 then FL_XIP_EN_BANK0 else FL_XIP_EN_BANK1) = false ∧ s.flash.queue = [] ∧ s.flash.run = none ∧ s.flash.susp =
      none ∧ s.flash.rd = none) ∧
    (∃ (d : FlDesc) (s : State), s.flash.queue = [] ∧ s.flash.susp = none ∧ s.flash.rd = none ∧ s.flash.run = some d ∧
      d.op = flProgram ∧ d.owl = false ∧ d.refresh = false ∧ d.host = false ∧ s.flash.factory = [] ∧ (∀ i <
      d.data.length, 10 ≤ sectorOf (d.addr + i))) ∧
    (∃ (d : FlDesc) (s : State), s.flash.queue = [] ∧ s.flash.susp = none ∧ s.flash.rd = none ∧ s.flash.run = some d ∧
      d.op = flErase ∧ d.owl = false ∧ d.refresh = false ∧ d.host = false ∧ 10 ≤ sectorOf d.addr) ∧
    (∃ (d : FlDesc) (s : State), s.flash.queue = [] ∧ s.flash.susp = none ∧ s.flash.run = none ∧ s.flash.rd = some d ∧
      d.op = flBlank ∧ d.host = true ∧ s.flash.cmpl = []) ∧
    (∃ (p : Path) (k : Nat × Nat × Nat) (s : State), s.silent p = false ∧ s.readRefusal p false = none ∧ s.flash.cmpl
      = [k]) ∧
    (∃ (p : Path) (s : State), s.silent p = false ∧ s.readRefusal p false = none ∧ s.flash.cmpl = []) :=
  ⟨⟨mgmt, some mgmt, .flashCheck (some mgmt) 5 0x60000 100000, flCheck, 5, 0x60000, 100000, dev 3 [], by decide +kernel⟩, ⟨none, .flashRead none 5 0x60000 100, flRead, 5, 0x60000, 100, dev 3 [], by decide +kernel⟩, ⟨false, 0x7E0000, List.replicate 16 7, dev 3 [(FL_XIP_EN_BANK0, 0)], by decide +kernel⟩, ⟨0x60000, dev 3 [(FL_XIP_EN_BANK0, 0)], by decide +kernel⟩, ⟨{ host := false, op := flProgram, addr := 0x60000, len := 16, data := List.replicate 16 7 }, { dev 3 [] with flash := { factory := [], run := some { host := false, op := flProgram, addr := 0x60000, len := 16, data := List.replicate 16 7 } } }, by decide +kernel⟩, ⟨{ host := false, op := flErase, addr := 0x60000 }, { dev 3 [] with flash := { cells := [(0x60005, 3)], run := some { host := false, op := flErase, addr := 0x60000 } } }, by decide +kernel⟩, ⟨{ host := true, tag := 5, op := flBlank, addr := 0x7E0000, len := 16 }, { dev 3 [] with flash := { rd := some { host := true, tag := 5, op := flBlank, addr := 0x7E0000, len := 16 } } }, by decide +kernel⟩, ⟨mgmt, (5, 1, 0), { dev 3 [] with flash := { cmpl := [(5, 1, 0)] } }, by decide +kernel⟩, ⟨mgmt, dev 3 [], by decide +kernel⟩⟩

/-- Every clause of FlashRefreshStartsStopsAndFallsDue has operands and a state that meet its hypotheses. -/
theorem witness_FlashRefreshStartsStopsAndFallsDue :
    (∃ (p : Path) (s : State), s.opens p ∧ s.mode = modeMaintain ∧ s.get FL_REFRESH_STAT_STATE ≠ 1 ∧ s.get
      FL_REFRESH_STAT_STATE ≠ 3 ∧ s.flash.queue = [] ∧ s.flash.run = none ∧ s.flash.susp = none ∧ s.flash.rd = none) ∧
    (∃ (p : Path) (s : State), s.opens p ∧ s.mode ≠ modeMaintain) ∧
    (∃ (p : Path) (s : State), s.opens p ∧ s.get FL_REFRESH_STAT_STATE = 1) ∧
    (∃ (s : State), s.flag TICK_STAT_PTP_VALID = true ∧ s.lastRefresh + 315576000 ≤ s.ce.ptpSec ∧ s.flag
      FL_REFRESH_STAT_DUE = false) :=
  ⟨⟨mgmt, dev 5 [], by decide +kernel⟩, ⟨mgmt, dev 3 [], by decide +kernel⟩, ⟨mgmt, dev 5 [(FL_REFRESH_STAT_STATE, 1)], by decide +kernel⟩, ⟨{ dev 3 [(TICK_STAT_PTP_VALID, 1)] with ce := { ptpSec := 400000000 } }, by decide +kernel⟩⟩

/-- Every clause of CampaignsRunTheirProcedures has operands and a state that meet its hypotheses. -/
theorem witness_CampaignsRunTheirProcedures :
    (∃ (p : Path) (mask : BitVec 10) (stn : Fin 2) (s : State), s.opens p ∧ s.mode = modeMaintain ∧ s.cal.camp = none
      ∧ mask.toNat % 16 ≠ 0 ∧ mask.toNat < 8 ∨ s.clamped stn = true) ∧
    (∃ (p : Path) (s : State), s.opens p ∧ s.mode ≠ modeMaintain) ∧
    (∃ (proc : Fin 10) (stn : Fin 2) (words : List Word) (k : CalCamp) (s : State), s.cal.camp = some k ∧ k.left =
      [proc.val] ∧ proc.val < 3 ∧ k.passed = [] ∧ k.spun = false ∧ words.length = (procRegs proc stn).length ∧
      (s.putResults proc stn words).procOk proc stn = true ∧ (s.arbOf k.stn).job = none) ∧
    (∃ (p : Path) (k : CalCamp) (s : State), s.opens p ∧ s.cal.camp = some k ∧ k.spun = false ∧ k.passed = [] ∧ k.stn
      < 2 ∧ (s.arbOf k.stn).job = none) ∧
    (∃ (p : Path) (s : State), s.opens p) ∧
    (∃ (p : Path) (s : State), s.silent p = false ∧ s.readRefusal p false = none ∧ s.get CAL_RES_RES = 1) ∧
    (∃ (st : Fin 2) (j : Job) (s : State), (s.arbOf st).job = some j ∧ j.kind = .cal ∧ (s.view st).holds j = true ∧
      s.clamped st = true ∧ s.cal.camp = none ∧ s.flag (calPendFld st) = true) :=
  ⟨⟨mgmt, 5, 1, dev 5 [], by decide +kernel⟩, ⟨mgmt, dev 3 [], by decide +kernel⟩, ⟨0, 0, List.replicate 48 0x80000000, { stn := 0, mask := 1, left := [0] }, { dev 5 [] with cal := { camp := some { stn := 0, mask := 1, left := [0] } } }, by decide +kernel⟩, ⟨mgmt, { stn := 0, mask := 1, left := [0] }, { dev 5 [] with cal := { camp := some { stn := 0, mask := 1, left := [0] } } }, by decide +kernel⟩, ⟨mgmt, dev 5 [(CAL_RES_RES, 1)], by decide +kernel⟩, ⟨mgmt, dev 5 [(CAL_RES_RES, 1)], by decide +kernel⟩, ⟨0, { id := 1, kind := .cal, tenant := 0, cls := 0, at_ := 0, station := 0, slot := none, write := false }, (dev 3 (disc3 ++ [(CAL_STAT_PENDING_0, 1)])).modArb 0 fun a => { a with job := some { id := 1, kind := .cal, tenant := 0, cls := 0, at_ := 0, station := 0, slot := none, write := false } }, by decide +kernel⟩⟩

/-- Every clause of FaultMessagesAreTakenAndInjected has operands and a state that meet its hypotheses. -/
theorem witness_FaultMessagesAreTakenAndInjected :
    (∃ (src : BitVec 10) (kind : BitVec 6) (s : State), (pairDefault src.toNat kind.toNat).isSome = true ∧ kind ≠ 0x3F
      ∧ (s.flt.slots.find? fun o => o.src == src.toNat) = none ∧ s.flag FLT_STAT_FALLBACK = false) ∧
    (∃ (src : BitVec 10) (kind : BitVec 6), pairDefault src.toNat kind.toNat = none) ∧
    (∃ (src : BitVec 10) (kind : BitVec 6) (s : State), (pairDefault src.toNat kind.toNat).isSome = true ∧ kind ≠ 0x3F
      ∧ s.flag FLT_STAT_FALLBACK = true) ∧
    (∃ (s : State), s.flag FLT_STAT_FALLBACK = false) ∧
    (∃ (p : Path) (src : BitVec 10) (kind : BitVec 6) (arg : BitVec 16) (s : State), s.opens p ∧ s.mode =
      modeProvision ∨ s.mode = modeMaintain ∧ s.reg FLT_INJ = src ++ kind ++ arg ∧ (pairDefault src.toNat
      kind.toNat).isSome = true ∧ kind ≠ 0 ∧ kind ≠ 0x3F ∧ (s.flt.slots.find? fun o => o.src == src.toNat) = none) ∧
    (∃ (p : Path) (s : State), s.opens p ∧ s.mode ≠ modeProvision ∧ s.mode ≠ modeMaintain) ∧
    (∃ (p : Path) (v : Word) (d : Nat) (s : State), s.opens p ∧ pairDefault (s.get FLT_SEV_IDX_SRC) (s.get
      FLT_SEV_IDX_KIND) = some (d, false) ∧ bitsOf v.toNat 2 0 ≤ 4 ∧ bitsOf v.toNat 2 0 ≠ sevSession) ∧
    (∃ (p : Path) (d : Nat) (s : State), s.opens p ∧ pairDefault (s.get FLT_SEV_IDX_SRC) (s.get FLT_SEV_IDX_KIND) =
      some (d, true)) :=
  ⟨⟨0x060, 2, dev 3 [], by decide +kernel⟩, ⟨0x3FF, 2, by decide +kernel⟩, ⟨0x060, 2, dev 3 [(FLT_STAT_FALLBACK, 1)], by decide +kernel⟩, ⟨dev 3 [], by decide +kernel⟩, ⟨mgmt, 0x060, 2, 7, (dev 5 []).setReg FLT_INJ 0x18020007, by decide +kernel⟩, ⟨mgmt, dev 3 [], by decide +kernel⟩, ⟨mgmt, 3, 0, dev 3 [(FLT_SEV_IDX_SRC, 0x060), (FLT_SEV_IDX_KIND, 2)], by decide +kernel⟩, ⟨mgmt, 4, dev 3 [(FLT_SEV_IDX_SRC, 0x0F0), (FLT_SEV_IDX_KIND, 1)], by decide +kernel⟩⟩

/-- Every clause of HeldStationsReturnAndTheOwlAnswers has operands and a state that meet its hypotheses. -/
theorem witness_HeldStationsReturnAndTheOwlAnswers :
    (∃ (st : Fin 2) (k : Nat) (s : State), (s.flt.reacts[st.val]?).getD [] = [k] ∧ s.flag (FLT_STN_HELD st) = true ∧
      s.flag (FLT_STN_LOCKED st) = false ∧ k + s.get FLT_CFG_STN_HOLD * 500000 ≤ s.tick ∧ s.tick < k + 1800000000 ∧ 1
      ≤ s.get FLT_CFG_STN_RETRY ∧ s.spnState st ≠ spUnusable ∧ s.grantState st = stnOut) ∧
    (∃ (p : Path) (st : Fin 2) (s : State), s.opens p ∧ s.spnState st ≠ spUnusable ∧ s.flag (FLT_STN_HELD st) = true ∧
      s.grantState st = stnOut) ∧
    (∃ (p : Path) (st : Fin 2) (s : State), s.opens p ∧ s.spnState st = spUnusable) ∧
    (∃ (s : State), s.owl.post = some 0) ∧
    (∃ (p : Path) (s : State), s.opens p) ∧
    (∃ (p : Path) (s : State), s.opens p ∧ s.flag OWL_STAT_FROZEN = false ∧ s.owl.ring = []) ∧
    (∃ (p : Path) (s : State), s.opens p ∧ s.get OWL_FLUSH_RES ≠ 0) :=
  ⟨⟨0, 1, { dev 3 [(FLT_STN_HELD 0, 1), (ARB_STN_W0_STATE 0, 3), (SPN_CTL_ENABLE 0, 0), (SPN_STAT_STATE 0, 1)] with tick := 100000000, flt := { reacts := #v[[1], []] } }, by decide +kernel⟩, ⟨mgmt, 0, { dev 3 [(FLT_STN_HELD 0, 1), (ARB_STN_W0_STATE 0, 3), (SPN_CTL_ENABLE 0, 0), (SPN_STAT_STATE 0, 1)] with tick := 100000000, flt := { reacts := #v[[1], []] } }, by decide +kernel⟩, ⟨mgmt, 0, dev 3 [(SPN_STAT_STATE 0, 8)], by decide +kernel⟩, ⟨{ dev 3 [] with owl := { post := some 0 } }, by decide +kernel⟩, ⟨mgmt, dev 3 [(OWL_STAT_FROZEN, 1)], by decide +kernel⟩, ⟨mgmt, dev 3 [], by decide +kernel⟩, ⟨mgmt, dev 3 [(OWL_FLUSH_RES, 1), (FL_XIP_EN_BANK0, 0)], by decide +kernel⟩⟩

/-- Every clause of HedgehogCyclesAndSlices has operands and a state that meet its hypotheses. -/
theorem witness_HedgehogCyclesAndSlices :
    (∃ (s : State), s.hedgehogOn = true ∧ s.bist.running = false ∧ s.bist.start = none) ∧
    (∃ (p : Path) (s : State), s.opens p ∧ s.hedgehogOn = true ∧ s.bist.running = false) ∧
    (∃ (p : Path) (s : State), s.opens p ∧ s.hedgehogOn = true ∧ s.bist.running = true) ∧
    (∃ (u : Nat) (v : Nat) (l : List Nat) (sk : List Nat) (s : State), s.sliceDue = true ∧ s.nextUnit = (some u, v ::
      l, sk) ∧ u < 115 ∧ s.flag BIST_CTL_READMIT_EN = false) ∧
    (∃ (u : Nat) (v : Nat) (l : List Nat) (sk : List Nat) (s : State), s.sliceDue = true ∧ s.nextUnit = (some u, v ::
      l, sk) ∧ u < 115 ∧ s.get (bistState u) ≠ buOnce ∧ s.get (bistState u) ≠ buUnusable) ∧
    (∃ (p : Path) (s : State), s.opens p ∧ s.mode = modeMaintain ∧ s.get SEC_LC_STATE = 1 ∨ s.get SEC_LC_STATE = 4) ∧
    (∃ (p : Path) (s : State), s.opens p ∧ s.get SEC_LC_STATE = 2) :=
  ⟨⟨dev 3 [(BIST_CTL_EN, 1)], by decide +kernel⟩, ⟨mgmt, dev 3 [(BIST_CTL_EN, 1)], by decide +kernel⟩, ⟨mgmt, (dev 3 [(BIST_CTL_EN, 1)]).modBist fun b => { b with running := true, rest := [0, 1, 2] }, by decide +kernel⟩, ⟨0, 1, [2], [], (dev 3 [(BIST_CTL_EN, 1), (BIST_CTL_READMIT_EN, 0)]).modBist fun b => { b with running := true, rest := [0, 1, 2] }, by decide +kernel⟩, ⟨0, 1, [2], [], (dev 3 [(BIST_CTL_EN, 1)]).modBist fun b => { b with running := true, rest := [0, 1, 2] }, by decide +kernel⟩, ⟨mgmt, dev 5 [(SEC_LC_STATE, 1)], by decide +kernel⟩, ⟨mgmt, dev 5 [(SEC_LC_STATE, 2)], by decide +kernel⟩⟩

/-- Every clause of LifeCycleAdvancesByItsOrders has operands and a state that meet its hypotheses. -/
theorem witness_LifeCycleAdvancesByItsOrders :
    (∃ (s : State), s.silent .service = false ∧ s.jackOnly = false) ∧
    (∃ (s : State), s.silent .service = false ∧ s.jackOnly = false ∧ s.mode = modeProvision ∨ s.mode = modeMaintain ∧
      s.lc = lcIssued) ∧
    (∃ (s : State), s.silent .service = false ∧ s.jackOnly = false ∧ s.mode = modeProvision ∨ s.mode = modeMaintain ∧
      s.lc = lcIssued) ∧
    (∃ (b : Bundle) (s : State), s.silent .service = false ∧ s.jackOnly = false ∧ s.mode = modeProvision ∨ s.mode =
      modeMaintain ∧ s.token = some b ∧ b.op = 1 ∧ s.tokenOk b = true) ∧
    (∃ (b : Bundle) (s : State), s.silent .service = false ∧ s.jackOnly = false ∧ s.mode = modeProvision ∨ s.mode =
      modeMaintain ∧ s.token = some b ∧ b.op = 2 ∧ s.tokenOk b = true ∧ s.sys.boot ≠ .held) ∧
    (∃ (b : Bundle) (s : State), s.silent .service = false ∧ s.jackOnly = false ∧ s.mode = modeProvision ∨ s.mode =
      modeMaintain ∧ s.token = some b ∧ b.op = 3 ∧ s.tokenOk b = true) ∧
    (∃ (b : Bundle) (s : State), s.silent .service = false ∧ s.jackOnly = false ∧ s.mode = modeProvision ∨ s.mode =
      modeMaintain ∧ s.token = some b ∧ b.op = 4 ∧ s.tokenOk b = true ∧ b.arg < 4) :=
  ⟨⟨dev 5 [], by decide +kernel⟩, ⟨dev 5 [(SEC_LC_STATE, 2)], by decide +kernel⟩, ⟨dev 5 [(SEC_LC_STATE, 2)], by decide +kernel⟩, ⟨{ token := true, svn := 0, advance := false, op := 1, arg := 0, challenge := 9 }, { dev 5 [(UPD_STAT_STATE, 3), (SEC_LC_STATE, 1)] with sec := { challenge := some 9, keys := [{ tenant := 1, gen := 1, key := 9 }], bundle := some { token := true, svn := 0, advance := false, op := 1, arg := 0, challenge := 9 } } }, by decide +kernel⟩, ⟨{ token := true, svn := 0, advance := false, op := 2, arg := 0, challenge := 9 }, { dev 5 [(UPD_STAT_STATE, 3), (SEC_LC_STATE, 2)] with sec := { challenge := some 9, keys := [{ tenant := 1, gen := 1, key := 9 }], bundle := some { token := true, svn := 0, advance := false, op := 2, arg := 0, challenge := 9 } } }, by decide +kernel⟩, ⟨{ token := true, svn := 0, advance := false, op := 3, arg := 0, challenge := 9 }, { dev 5 [(UPD_STAT_STATE, 3), (SEC_LC_STATE, 2)] with sec := { challenge := some 9, keys := [{ tenant := 1, gen := 1, key := 9 }], bundle := some { token := true, svn := 0, advance := false, op := 3, arg := 0, challenge := 9 } } }, by decide +kernel⟩, ⟨{ token := true, svn := 0, advance := false, op := 4, arg := 1, challenge := 9 }, { dev 5 [(UPD_STAT_STATE, 3), (SEC_LC_STATE, 2)] with sec := { challenge := some 9, keys := [{ tenant := 1, gen := 1, key := 9 }], bundle := some { token := true, svn := 0, advance := false, op := 4, arg := 1, challenge := 9 } } }, by decide +kernel⟩⟩

/-- Every clause of UpdatesAreStagedVerifiedAndWritten has operands and a state that meet its hypotheses. -/
theorem witness_UpdatesAreStagedVerifiedAndWritten :
    (∃ (index : Word) (count : Word) (len : BitVec 16) (data : List Byte) (s : State), s.silent .service = false ∧
      s.get UPD_STAT_STATE = 0 ∧ s.mode ≠ modeSafeStop ∧ chunkOk index.toNat count.toNat len.toNat data = true ∧ 1 <
      count.toNat ∧ s.flag SYS_STAT_ACT_PENDING = false) ∧
    (∃ (s : State), s.get UPD_STAT_STATE = 2 ∧ formatOk s.bundleBytes = false) ∧
    (∃ (s : State), s.get UPD_STAT_STATE = 2 ∧ s.mode ≠ modeBoot) ∧
    (∃ (b : Bundle) (s : State), s.writeDue = true ∧ s.sec.bundle = some b ∧ s.cmd.sessions = [] ∧ s.cmd.cmds = [] ∧
      b.comps = []) ∧
    (∃ (w : BundleComp) (v : BundleComp) (s : State), s.get UPD_STAT_STATE = 5 ∧ s.sec.writing = [w, v] ∧ w.info.type
      = 2 ∨ w.info.type = 3 ∨ w.info.type = 4 ∧ v.info.type = 1 ∨ v.info.type = 3 ∨ v.info.type = 4 ∧ v.info.type ≠
      w.info.type) :=
  ⟨⟨1, 2, 4, [1, 2, 3, 4], dev 3 [], by decide +kernel⟩, ⟨dev 3 [(UPD_STAT_STATE, 2)], by decide +kernel⟩, ⟨dev 3 [(UPD_STAT_STATE, 2)], by decide +kernel⟩, ⟨{ token := false, svn := 0, advance := false }, { dev 5 [(UPD_STAT_STATE, 3), (SPN_STAT_STOPPED 0, 1), (SPN_STAT_STOPPED 1, 1)] with cmd := {}, sys := { boot := .done, overwrite := true }, sec := { bundle := some { token := false, svn := 0, advance := false } } }, by decide +kernel⟩, ⟨{ info := { type := 2, ver := 5 }, off := 0, len := 4 }, { info := { type := 3, ver := 5 }, off := 4, len := 4 }, { dev 5 [(UPD_STAT_STATE, 5)] with sec := { chunks := [(0, [1, 2, 3, 4, 5, 6, 7, 8])], writing := [{ info := { type := 2, ver := 5 }, off := 0, len := 4 }, { info := { type := 3, ver := 5 }, off := 4, len := 4 }] } }, by decide +kernel⟩⟩

/-- Every clause of ResetWritesWithAnotherKeyDoNothing has operands and a state that meet its hypotheses. -/
theorem witness_ResetWritesWithAnotherKeyDoNothing :
    (∃ (p : Path) (key : BitVec 16) (s : State), s.silent p = false ∧ s.rstRefusal p = none ∧ key ≠ 0xA5C3) ∧
    (∃ (p : Path) (e : Entry) (s : State), s.quiet ∧ s.clear p ∧ s.entryCode p opRegWrite e = none ∧ s.modeCode p
      opRegWrite e = none ∧ e.arg0.toNat = SYS_RST ∧ s.rstRefusal p = none ∧ e.arg1.getLsbD 0 = true ∧ bitsOf
      e.arg1.toNat 31 16 ≠ 0xA5C3) :=
  ⟨⟨mgmt, 0xA5C2, dev 3 [], by decide +kernel⟩, ⟨mgmt, { arg0 := SYS_RST, arg1 := 0xA5C20001 }, dev 6 [], by decide +kernel⟩⟩

/-- Every clause of AuxiliaryInputIsEnabledOnlyInMaintain has operands and a state that meet its hypotheses. -/
theorem witness_AuxiliaryInputIsEnabledOnlyInMaintain :
    (∃ (p : Path) (s : State), s.opens p ∧ s.mode = modeMaintain) ∧
    (∃ (p : Path) (s : State), s.opens p ∧ s.mode ≠ modeMaintain) ∧
    (∃ (p : Path) (e : Entry) (s : State), s.quiet ∧ s.clear p ∧ s.entryCode p opRegWrite e = none ∧ s.modeCode p
      opRegWrite e = none ∧ e.arg0.toNat = CE_AUX_CTL ∧ s.writeRefusal p = none ∧ e.arg1.getLsbD 0 = true ∧ s.mode =
      modeMaintain) ∧
    (∃ (p : Path) (e : Entry) (s : State), s.quiet ∧ s.clear p ∧ s.entryCode p opRegWrite e = none ∧ s.modeCode p
      opRegWrite e = none ∧ e.arg0.toNat = CE_AUX_CTL ∧ s.writeRefusal p = none ∧ e.arg1.getLsbD 0 = true ∧ s.mode ≠
      modeMaintain) :=
  ⟨⟨mgmt, dev 5 [], by decide +kernel⟩, ⟨mgmt, dev 3 [], by decide +kernel⟩, ⟨mgmt, { arg0 := CE_AUX_CTL, arg1 := 0x501 }, dev 5 [], by decide +kernel⟩, ⟨mgmt, { arg0 := CE_AUX_CTL, arg1 := 0x501 }, dev 3 [], by decide +kernel⟩⟩

/-- StepRunsTheFrontCommand: a state with a command in front and a state with none. -/
theorem witness_StepRunsTheFrontCommand :
    (∃ (c : Instr) (rest : List Instr) (s : State), s.pending = c :: rest) ∧ ∃ s : State, s.pending = [] :=
  ⟨⟨.powerGood true true, [], State.reset.push (.powerGood true true), by decide⟩, ⟨State.reset, by decide⟩⟩

/-- EveryStepKeepsTheInvariant: a state that meets the invariant and steps. -/
theorem witness_EveryStepKeepsTheInvariant :
    ∃ s t : State, s.Inv ∧ step s = .next t ∧ s.pending ≠ [] :=
  ⟨(dev 3 []).push (.modeReqMaintain mgmt), _, by decide, rfl, by decide⟩

/-! ### Well-formedness: a term that each check refuses -/

theorem test_wf_adc : (Instr.tickBoundary { adc := List.replicate 49 0 }).wf = false := by decide
theorem test_wf_encoder : (Instr.tickBoundary { encoder := [0, 0, 0] }).wf = false := by decide
theorem test_wf_consumers : (Instr.tickBoundary { consumers := List.replicate 22 0 }).wf = false := by decide
theorem test_wf_speed : (Instr.tickBoundary { speed := [0, 0, 0] }).wf = false := by decide
theorem test_wf_obsSpeed : (Instr.tickBoundary { obsSpeed := [0, 0, 0] }).wf = false := by decide
theorem test_wf_obsRes : (Instr.tickBoundary { obsRes := [0, 0, 0] }).wf = false := by decide
theorem test_wf_obsAngle : (Instr.tickBoundary { obsAngle := [0, 0, 0] }).wf = false := by decide
theorem test_wf_legs : (Instr.tickBoundary { legs := List.replicate 7 {} }).wf = false := by decide
theorem test_wf_twoHigh : (Instr.tickBoundary { twoHigh := [0, 0, 0] }).wf = false := by decide
theorem test_wf_wrMon : (Instr.tickBoundary { wrMon := [0, 0, 0, 0, 0] }).wf = false := by decide
theorem test_wf_bemf : (Instr.tickBoundary { bemf := [0, 0, 0] }).wf = false := by decide
theorem test_wf_switches : (Instr.tickBoundary { switches := List.replicate 8 0 }).wf = false := by decide
theorem test_wf_samples : (Instr.tickBoundary { adc := List.replicate 48 0, encoder := [0, 0] }).wf = true := by decide
theorem test_wf_field (n k : Fin 4) : (Instr.servoField n k { field := 2880, bits := 0, dA := 0, dB := 0 }).wf = false := by rfl
theorem test_wf_ldpc_unsat (k : Fin 16) (e : Fin 2) : (Instr.ldpcAttemptDone k e { ok := false, unsat := 4097 }).wf = false := by rfl
theorem test_wf_ldpc_payload (k : Fin 16) (e : Fin 2) (l : List Byte) (h : 4096 < l.length) :
    (Instr.ldpcAttemptDone k e { ok := true, payload := l }).wf = false := by
  simp [Instr.wf, LdpcResult.wf, h]
theorem test_wf_frame (k : Fin 16) (f : BitVec 24) (l : List (BitVec 8)) (h : 55616 < l.length) :
    (Instr.frameReceived k f { samples := l }).wf = false := by
  simp [Instr.wf, h]
theorem test_wf_opc (n : Fin 4) (a : Bool) : (Instr.opcDone n (List.replicate 12 0) a []).wf = false := by rfl
theorem test_wf_verify (n : Fin 4) (r : FrameCheck) : (Instr.verifyVerdict n 1154 r).wf = false := by rfl
theorem test_wf_peerData : (Instr.peerData from2 3 3 [] 0 0).wf = false := by decide
theorem test_wf_jack : (Instr.jackStageDone [true, true, true, true, true] []).wf = false := by decide
theorem test_wf_quote : (Instr.quoteSigned []).wf = false := by decide
theorem test_wf_chunk : (Instr.updChunk 0 0 1 2 [0]).wf = false := by decide
theorem test_wf_keyLoad (p : Path) : (Instr.keyLoad p { len := 1 } []).wf = false := by rfl
theorem test_wf_calLoad (p : Path) : (Instr.calLoad p { len := 1 } []).wf = false := by rfl
theorem test_wf_dram : (Instr.dramPartialWrite 31 [0, 0] 0).wf = false := by decide
theorem test_wf_cache : (Instr.cacheWrite 63 [0, 0]).wf = false := by decide
theorem test_wf_program (u : Bool) (a : BitVec 24) : (Instr.flashProgram u a (List.replicate 17 0)).wf = false := by rfl

/-! ### Worked figures of the manual -/

/-- 02_servo_tick.md: λ = 6.0 tk is stored as 0x30_0003. -/
theorem test_bfp_lambda : bfpVal 0x300003 = 6 := by
  have h1 : (((0x300003 : Word).extractLsb 22 5).toInt : Int) = 98304 := by decide
  have h2 : (((0x300003 : Word).extractLsb 4 0).toInt : Int) = 3 := by decide
  simp only [bfpVal, h1, h2, pow2]
  have h3 : Int.toNat 14 = 14 := rfl
  norm_num [h3]
/-- 10_arbitration_cache.md: line 0 of the context of session 0x0800 falls in set 0x024. -/
theorem test_set_of_context : lineSet ((0x400000 + 0x80000) / 64) = 0x024 := by decide
theorem test_set_of_last_context : lineSet ((0x400000 + 31 * 0x80000) / 64) = 0x09C := by decide
/-- 11_memory_flash.md: an all-zero granule 0 of the test window has CHK = 0x8C00. -/
theorem test_chk_of_zero : chkOf (0x3BFFFF000 / 32) 0 = 0x8C00 := by decide
/-- 17_register_index.md: three addresses. -/
theorem test_address_lj_stat : OPU_LJ_STAT 2 = 0x38020 := by decide
theorem test_address_sync_last : CHN_SYNC_LAST 9 = 0x4480C := by decide
theorem test_address_wr_stat : CHN_WR_STAT 3 = 0x49804 := by decide
/-- 04_channel_and_media.md, Table: Sprinsel zones: the first frame of zone 15 and its channel clock at 7,200 rpm. -/
theorem test_frame_of_turn : frameNumber 132810 0 = 10970106 := by decide
theorem test_channel_clock : channelClock 15 7200 = 884736000 := by decide

end Sys2Proof.Tests
end

section
/-!
PROOFS of the statements of 00_scope.md. The invariant of a step comes from what every operation keeps (Laws/Keeps*). For
REG_READ and REG_WRITE the admission of a command on a quiet device is followed once, for every opcode that queues nothing:
`command_finishes` gives the reply of such a command from what its run does.
-/

namespace Sys2Proof.Machine

open Sys2Proof

/-! ### The invariant of a step -/

/-- A state that meets the invariant keeps it from a queue equal to its own on. -/
theorem State.keeps_of_inv {s : State} {q : List Instr} (h : s.Inv) (hq : s.pending = q) :
    s.keeps { s with pending := q } := by
  obtain ⟨hregs, ⟨hdram, hrows, hcells⟩, hring, hvbus⟩ := h
  exact ⟨hq, Nat.le_refl _, hregs, hdram, hrows, hcells, hring, hvbus⟩

/-- What an operation keeps contains the invariant. -/
theorem State.inv_of_keeps {s z : State} (h : s.keeps z) : s.Inv := by
  obtain ⟨_, _, hregs, hdram, hrows, hcells, hring, hvbus⟩ := h
  exact ⟨hregs, ⟨hdram, hrows, hcells⟩, hring, hvbus⟩

/-- A step takes the front of the queue and keeps the rest: what `exec` keeps of the state without its front, and the
idle step of an empty queue. -/
theorem step_keeps {s : State} (h : s.Inv) : keepsOut { s with pending := s.pending.tail } (step s) := by
  unfold step
  split
  next hq => exact keepsNext (State.keeps_of_inv h (by rw [hq, List.tail_nil]))
  next c rest hq =>
    have hrest : ({ s with pending := rest } : State).Inv := h
    rw [hq, List.tail_cons]
    exact exec_keeps (State.keeps_of_inv hrest rfl)

/-- Settles O60: every command keeps the invariant of the state without its front (`exec_keeps`), and an empty queue idles. -/
theorem everyStepKeepsTheInvariant : Obligations.EveryStepKeepsTheInvariant := by
  intro s t h hstep
  have hk : t.keeps { s with pending := s.pending.tail } := by
    have := step_keeps h
    rwa [hstep] at this
  exact ⟨State.inv_of_keeps hk, hk.1, hk.2.1⟩

/-! ### The state after power-on reset -/

/-- After power-on reset every register but SYS_RST_CAUSE reads its reset word. -/
theorem reg_reset {a : Nat} (h : a ≠ SYS_RST_CAUSE) : State.reset.reg a = resetWord a := by
  simp [State.reg, State.reset, sget, Ne.symm h]

/-- The stores of the reset state are in canonical form, and its Owl is empty. -/
theorem inv_reset : State.reset.Inv := by decide +kernel

/-- Settles O59: the reset words are those of the register map, and the invariant is checked on the reset state. -/
theorem resetMeetsTheInvariant : Obligations.ResetMeetsTheInvariant := by
  have hid : resetWord SYS_ID = 0x4D482404 := by decide
  have hstep : resetWord SYS_STEP = 0xB0 := by decide
  have hmode : State.reset.mode = modeBoot := by decide
  refine ⟨inv_reset, rfl, rfl, rfl, hmode, ?_, ?_, fun _ => reg_reset⟩
  · rw [reg_reset (by decide), hid]
  · rw [reg_reset (by decide), hstep]

/-! ### What taking in a command leaves alone -/

/-- A word of the host's registers: of NET, where the service port counts its messages, or of CMD, where commands and log
records are counted. -/
abbrev hostWord (a : Nat) : Prop := inBlock 9 a ∨ inBlock 0xA a

/-- What an admission reads of a path's session: its kind and what has arrived on it. -/
def Session.view (x : Session) : Bool × List (Nat × Entry) := (x.mgmt, x.arrivals)

/-- `t` differs from `s` in registers, accounts and the bookkeeping of commands and sessions at most; both hold the same
commands and deferred errors, and their sessions are of the same kinds with the same arrivals. -/
structure State.alike (s t : State) : Prop where
  frame : ∃ regs cmd mtr, t = { s with regs := regs, cmd := cmd, mtr := mtr }
  cmds : t.cmd.cmds = s.cmd.cmds
  errs : t.cmd.deferredErr = s.cmd.deferredErr
  view : ∀ id, (t.session? id).map Session.view = (s.session? id).map Session.view
  mgmt : t.mgmtOpen = s.mgmtOpen

/-- A session's path is a management path where the session is the management session. -/
theorem mgmtPath_session (s : State) (id : BitVec 14) :
    s.mgmtPath (.session id) = ((s.session? id).map Session.mgmt).getD false := by
  cases h : s.session? id <;> simp [State.mgmtPath, State.sessOf, h]

/-- A session's path may write registers where it is the management session and the mode takes writes (R41, R518). -/
theorem writeRefusal_session (s : State) (id : BitVec 14) :
    s.writeRefusal (.session id) =
      if ((s.session? id).map Session.mgmt).getD false = false then some stNotPermitted
      else if s.mode = modeBoot then some stMode
      else if s.mode = modeSafeStop then some stRegRefused
      else none := by
  cases h : s.session? id <;> simp [State.writeRefusal, h]

namespace State.alike

variable {s t u : State}

theorem refl (s : State) : s.alike s := ⟨⟨_, _, _, rfl⟩, rfl, rfl, fun _ => rfl, rfl⟩

theorem trans (h : s.alike t) (k : t.alike u) : s.alike u := by
  obtain ⟨⟨_, _, _, rfl⟩, hc, he, hv, ho⟩ := h
  obtain ⟨⟨_, _, _, rfl⟩, kc, ke, kv, ko⟩ := k
  exact ⟨⟨_, _, _, rfl⟩, kc.trans hc, ke.trans he, fun id => (kv id).trans (hv id), ko.trans ho⟩

/-- A change of registers and accounts alone. -/
theorem of_regs_mtr (s : State) (regs : List (Nat × Word)) (mtr : MtrSt) : s.alike { s with regs := regs, mtr := mtr } :=
  ⟨⟨_, _, _, rfl⟩, rfl, rfl, fun _ => rfl, rfl⟩

theorem setReg (s : State) (a : Nat) (v : Word) : s.alike (s.setReg a v) := of_regs_mtr s _ _

theorem plc_eq (h : s.alike t) : t.plc = s.plc := by obtain ⟨_, _, _, rfl⟩ := h.frame; rfl
theorem sys_eq (h : s.alike t) : t.sys = s.sys := by obtain ⟨_, _, _, rfl⟩ := h.frame; rfl
theorem latch_eq (h : s.alike t) : t.latch = s.latch := by obtain ⟨_, _, _, rfl⟩ := h.frame; rfl

theorem quiet (h : s.alike t) (hq : s.quiet) : t.quiet := by
  obtain ⟨⟨hc, hplc⟩, hu, he⟩ := hq
  unfold State.quiet State.still
  rw [h.cmds, h.errs, h.plc_eq]
  exact ⟨⟨hc, hplc⟩, hu, he⟩

theorem session_mgmt_eq (h : s.alike t) (id : BitVec 14) :
    (t.session? id).map Session.mgmt = (s.session? id).map Session.mgmt := by
  simpa [Function.comp_def, Session.view] using congrArg (Option.map Prod.fst) (h.view id)

theorem session_arrivals_eq (h : s.alike t) (id : BitVec 14) :
    (t.session? id).map Session.arrivals = (s.session? id).map Session.arrivals := by
  simpa [Function.comp_def, Session.view] using congrArg (Option.map Prod.snd) (h.view id)

theorem mgmtPath_eq (h : s.alike t) (p : Path) : t.mgmtPath p = s.mgmtPath p := by
  cases p with
  | service => rfl
  | session id => rw [mgmtPath_session, mgmtPath_session, h.session_mgmt_eq]

theorem cmdsOf_eq (h : s.alike t) (p : Path) : t.cmdsOf p = s.cmdsOf p := by
  unfold State.cmdsOf; rw [h.cmds]

theorem entryCode_eq (h : s.alike t) (p : Path) (op : Nat) (e : Entry) : t.entryCode p op e = s.entryCode p op e := by
  unfold State.entryCode; rw [h.mgmtPath_eq]

end State.alike

/-! ### Words beyond the host's registers -/

namespace sameRegs

variable {s t : State}

theorem get_eq (h : sameRegs hostWord s t) {f : Fld} (hf : ¬ hostWord f.addr) : t.get f = s.get f := by
  unfold State.get; rw [h _ hf]

theorem flag_eq (h : sameRegs hostWord s t) {f : Fld} (hf : ¬ hostWord f.addr) : t.flag f = s.flag f := by
  unfold State.flag; rw [get_eq h hf]

theorem mode_eq (h : sameRegs hostWord s t) : t.mode = s.mode := get_eq h (by decide)

theorem jackOnly_eq (h : sameRegs hostWord s t) : t.jackOnly = s.jackOnly := by
  unfold State.jackOnly; rw [mode_eq h, get_eq h (by decide)]

theorem setReg {A : Nat → Prop} (s : State) {a : Nat} (v : Word) (ha : A a) : sameRegs A s (s.setReg a v) :=
  fun _ hb => State.reg_setReg_other s v fun e => hb (e ▸ ha)

theorem set {A : Nat → Prop} (s : State) {f : Fld} (v : Nat) (ha : A f.addr) : sameRegs A s (s.set f v) := setReg s _ ha

theorem incWrap {A : Nat → Prop} (s : State) {f : Fld} (ha : A f.addr) : sameRegs A s (s.incWrap f) := set s _ ha

theorem trans {A : Nat → Prop} {u : State} (h : sameRegs A s t) (k : sameRegs A t u) : sameRegs A s u :=
  fun a ha => (k a ha).trans (h a ha)

end sameRegs

theorem modeCode_eq {s t : State} (h : s.alike t) (hw : sameRegs hostWord s t) (p : Path) (op : Nat) (e : Entry) :
    t.modeCode p op e = s.modeCode p op e := by
  unfold State.modeCode; rw [sameRegs.mode_eq hw, sameRegs.jackOnly_eq hw, h.sys_eq]

theorem writeRefusal_eq {s t : State} (h : s.alike t) (hw : sameRegs hostWord s t) (p : Path) :
    t.writeRefusal p = s.writeRefusal p := by
  cases p with
  | service =>
    have hup : t.portUp = s.portUp := by
      unfold State.portUp; rw [sameRegs.flag_eq hw (by decide), sameRegs.flag_eq hw (by decide)]
    simp only [State.writeRefusal, sameRegs.jackOnly_eq hw, sameRegs.mode_eq hw, h.mgmt, hup]
  | session id => rw [writeRefusal_session, writeRefusal_session, h.session_mgmt_eq, sameRegs.mode_eq hw]

/-! ### Sessions -/

/-- Looking up a session after a change of one session's record. -/
theorem session?_modSess (s : State) {f : Session → Session} (hf : ∀ x, (f x).id = x.id) (id j : BitVec 14) :
    (s.modSess (.session id) f).session? j = (s.session? j).map fun x => if x.id = id then f x else x := by
  have hid : ∀ x : Session, (if x.id = id then f x else x).id = x.id := fun x => by split <;> simp [hf]
  simp only [State.session?, State.modSess, List.find?_map]
  congr 2
  funext x
  simp [hid]

theorem session?_id {s : State} {id : BitVec 14} {x : Session} (h : s.session? id = some x) : x.id = id := by
  simpa using List.find?_some h

/-- A change of a session's record that keeps its ID, its kind and what it shows of its arrivals. -/
theorem State.alike.modSess (s : State) (p : Path) {f : Session → Session} (hid : ∀ x, (f x).id = x.id)
    (hm : ∀ x, (f x).mgmt = x.mgmt) (ha : ∀ x, s.sessOf p = some x → (f x).arrivals = x.arrivals) :
    s.alike (s.modSess p f) := by
  cases p with
  | service => exact State.alike.refl s
  | session id =>
    refine ⟨⟨_, _, _, rfl⟩, rfl, rfl, fun j => ?_, ?_⟩
    · rw [session?_modSess s hid]
      cases hx : s.session? j with
      | none => rfl
      | some x =>
        by_cases he : x.id = id
        · have hj : j = id := (session?_id hx).symm.trans he
          simp [Session.view, he, hm, ha x (hj ▸ hx)]
        · simp [he]
    · simp only [State.mgmtOpen, State.modSess, List.any_map]
      congr 1
      funext x
      simp only [Function.comp_apply]
      split
      · exact hm x
      · rfl

/-! ### Accounts and entries -/

theorem State.alike.counted (s : State) (n : Nat) (f : MeterAcc → MeterAcc) : s.alike (s.counted n f) := by
  unfold State.counted State.modAcct
  split
  · exact State.alike.of_regs_mtr s s.regs _
  · exact State.alike.refl s

@[simp] theorem counted_reg (s : State) (n : Nat) (f : MeterAcc → MeterAcc) (a : Nat) : (s.counted n f).reg a = s.reg a := by
  unfold State.counted State.modAcct; split <;> rfl

@[simp] theorem counted_cmd (s : State) (n : Nat) (f : MeterAcc → MeterAcc) : (s.counted n f).cmd = s.cmd := by
  unfold State.counted State.modAcct; split <;> rfl

@[simp] theorem modSess_reg (s : State) (p : Path) (f : Session → Session) (a : Nat) : (s.modSess p f).reg a = s.reg a := by
  cases p <;> rfl

@[simp] theorem modSess_done (s : State) (p : Path) (f : Session → Session) : (s.modSess p f).cmd.done = s.cmd.done := by
  cases p <;> rfl

/-- Writing an entry adds it, with its PHASE and SQ_FREE on a session, and changes nothing else that admissions read. -/
theorem writeEntry_spec (s : State) (k : Completion) :
    s.alike (s.writeEntry k) ∧ (∀ a, (s.writeEntry k).reg a = s.reg a) ∧
      ∃ ph n, (s.writeEntry k).cmd.done = s.cmd.done ++ [{ k with phase := ph, sqFree := n }] := by
  have hdone : ∀ l, s.alike { s with cmd := { s.cmd with done := l } } :=
    fun _ => ⟨⟨_, _, _, rfl⟩, rfl, rfl, fun _ => rfl, rfl⟩
  unfold State.writeEntry
  split
  · exact ⟨(hdone _).trans (State.alike.modSess _ _ (fun _ => rfl) (fun _ => rfl) fun _ _ => rfl),
      fun a => modSess_reg _ _ _ a, _, _, modSess_done _ _ _⟩
  · exact ⟨hdone _, fun _ => rfl, _, _, rfl⟩

/-- From `s` to `t` no entry was written, and beside the bookkeeping of commands only words of the host's registers may
differ. -/
structure State.noted (s t : State) : Prop where
  alike : s.alike t
  words : sameRegs hostWord s t
  done : t.cmd.done = s.cmd.done

namespace State.noted

variable {s t u : State}

theorem refl (s : State) : s.noted s := ⟨State.alike.refl s, fun _ _ => rfl, rfl⟩

theorem trans (h : s.noted t) (k : t.noted u) : s.noted u :=
  ⟨h.alike.trans k.alike, sameRegs.trans h.words k.words, k.done.trans h.done⟩

theorem setReg (s : State) {a : Nat} (v : Word) (h : hostWord a) : s.noted (s.setReg a v) :=
  ⟨State.alike.setReg s a v, sameRegs.setReg s v h, rfl⟩

theorem set (s : State) {f : Fld} (v : Nat) (h : hostWord f.addr) : s.noted (s.set f v) := setReg s _ h

theorem incWrap (s : State) {f : Fld} (h : hostWord f.addr) : s.noted (s.incWrap f) := set s _ h

theorem modSess (s : State) (p : Path) {f : Session → Session} (hid : ∀ x, (f x).id = x.id)
    (hm : ∀ x, (f x).mgmt = x.mgmt) (ha : ∀ x, s.sessOf p = some x → (f x).arrivals = x.arrivals) :
    s.noted (s.modSess p f) :=
  ⟨State.alike.modSess s p hid hm ha, fun a _ => modSess_reg s p f a, modSess_done s p f⟩

theorem counted (s : State) (n : Nat) (f : MeterAcc → MeterAcc) : s.noted (s.counted n f) :=
  ⟨State.alike.counted s n f, fun a _ => counted_reg s n f a, by rw [counted_cmd]⟩

theorem cmdCounts (s : State) : s.noted s.cmdCounts := (set s _ (.inr rfl)).trans (set _ _ (.inr rfl))

theorem logPut (s : State) (r : LogRec) : s.noted (s.logPut r) := by
  have hlog : ∀ l, s.noted { s with cmd := { s.cmd with log := l } } :=
    fun _ => ⟨⟨⟨_, _, _, rfl⟩, rfl, rfl, fun _ => rfl, rfl⟩, fun _ _ => rfl, rfl⟩
  exact ((hlog _).trans (incWrap _ (.inr rfl))).trans (set _ _ (.inr rfl))

theorem freeze (s : State) (c : Cmd) (status : Nat) : s.noted (s.freeze c status) :=
  (logPut s _).trans (modSess _ _ (fun _ => rfl) (fun _ => rfl) fun _ _ => rfl)

end State.noted

/-- With no command held, a command ends by its final entry, after the counts and, where its status freezes the session,
the record of the freeze. -/
theorem finish_eq {s : State} (c : Cmd) (r : Reply) (hc : s.cmd.cmds = []) :
    ∃ u q, s.noted u ∧ q.status = r.status ∧ q.res0 = r.res0 ∧ s.finish c r = u.writeEntry (c.entry q false) := by
  have hcut : ({ s with cmd := { s.cmd with cmds := s.cmd.cmds.filter fun x => x.id != c.id } } : State) = s := by
    rw [hc, List.filter_nil, ← hc]
  unfold State.finish
  rw [hcut]
  dsimp only
  generalize (freezes r.status && _) = b
  cases b
  · exact ⟨_, r, State.noted.cmdCounts s, rfl, rfl, rfl⟩
  · exact ⟨_, { r with logged := true, aux := _ }, (State.noted.cmdCounts s).trans (State.noted.freeze _ c r.status),
      rfl, rfl, rfl⟩

/-- With no command held, a command's end writes its final entry on its path; only words of the host's registers differ. -/
theorem finish_spec {s : State} (c : Cmd) (r : Reply) (hc : s.cmd.cmds = []) :
    s.alike (s.finish c r) ∧ sameRegs hostWord s (s.finish c r) ∧
      ∃ k : Completion, (s.finish c r).cmd.done = s.cmd.done ++ [k] ∧
        (k.path, k.cid, k.status, k.interim) = (c.path, c.e.cid, r.status, false) ∧ k.res0 = r.res0 % 2 ^ 64 := by
  obtain ⟨u, q, hu, hst, hres, hfin⟩ := finish_eq c r hc
  obtain ⟨he, hw, ph, n, hd⟩ := writeEntry_spec u (c.entry q false)
  rw [hfin]
  refine ⟨hu.alike.trans he, sameRegs.trans hu.words fun a _ => hw a, _, by rw [hd, hu.done], ?_, ?_⟩
  · simp [Cmd.entry, hst]
  · simp [Cmd.entry, hres]

/-! ### What comes due after a command -/

/-- On a quiet device nothing comes due among the commands. -/
theorem settle_of_quiet {s : State} (h : s.quiet) : s.settle = s := by
  obtain ⟨⟨hcmds, hopens, hsearches, htombs, hmig⟩, hunits, -⟩ := h
  have htomb : s.tombsDone = s := by
    simp only [State.tombsDone, htombs, State.modPlc, List.filter_nil, List.foldl_nil]
    rw [← htombs]
  have hnext : s.migNext = s := by simp only [State.migNext, hmig]
  have hone : s.settleOne = none := by simp [State.settleOne, hcmds, hopens, hsearches]
  have hfor : ∀ n, State.settleFor n s = s := fun n => by cases n <;> simp [State.settleFor, hone]
  rw [State.settle, htomb, hnext, hfor]

/-- Nothing waits on the path. -/
abbrev State.noArrivals (s : State) (p : Path) : Prop := ∀ x, s.sessOf p = some x → x.arrivals = []

/-- Where nothing waits on the path, no unlisted opcode heads its arrivals. -/
theorem badHeads_of_noArrivals {s : State} {p : Path} (h : s.noArrivals p) (n : Nat) : State.badHeads n s p = s := by
  cases n with
  | zero => rfl
  | succ n =>
    unfold State.badHeads
    cases hs : s.sessOf p with
    | none => rfl
    | some x => simp [h x hs]

/-- What waits on a path is a matter of the sessions' arrivals. -/
theorem State.alike.noArrivals {s t : State} {p : Path} (h : s.alike t) (hs : s.noArrivals p) : t.noArrivals p := by
  intro y hy
  cases p with
  | service => cases hy
  | session id =>
    have hmap := h.session_arrivals_eq id
    rw [show t.session? id = some y from hy] at hmap
    obtain ⟨x, hx, hxy⟩ := Option.map_eq_some_iff.mp hmap.symm
    exact hxy ▸ hs x hx

/-! ### Admission on a quiet device -/

/-- A command that a management path may give, and that queues nothing, runs at its admission. -/
theorem admitCmd_immediate {s : State} {c : Cmd} (run : State → Cmd → State) (hp : s.mgmtPath c.path = true)
    (hm : s.modeCode c.path c.op c.e = none) (hc : s.cmd.cmds = []) (hop : opQueues c.op = false) :
    s.admitCmd c run = (run ((s.counted c.tenant id).incWrap CMD_CNT_ACC_COUNT) c).settle := by
  have hget : c.op ≠ opGet ∧ c.op ≠ opStat ∧ c.op ≠ opList := by
    have hne : ∀ o, opQueues o = true → c.op ≠ o := fun o ho h => by simp [h, ho] at hop
    exact ⟨hne _ rfl, hne _ rfl, hne _ rfl⟩
  have hacc : s.accept c run = (run ((s.counted c.tenant id).incWrap CMD_CNT_ACC_COUNT) c).settle := by
    simp [State.accept, hop]
  rw [← hacc]
  unfold State.admitCmd
  cases hpath : c.path with
  | service => simp_all [State.sessOf]
  | session id =>
    cases hs : s.session? id <;> simp_all [State.mgmtPath, State.sessOf]

/-- A service message is counted in NET_SVC_STAT at most. -/
theorem State.noted.rxMessage (s : State) (p : Path) (b : Bool) : s.noted (s.rxMessage p b) := by
  cases p with
  | session id => exact State.noted.refl s
  | service =>
    simp only [State.rxMessage]
    split
    · exact State.noted.refl s
    · exact State.noted.incWrap s (.inl rfl)

/-- An entry of a management path that nothing refuses, whose opcode queues nothing, runs at its admission. -/
theorem outcome_immediate {s : State} {p : Path} {op : Nat} {e : Entry} (run : State → Cmd → State) (hq : s.quiet)
    (hp : s.mgmtPath p = true) (he : s.entryCode p op e = none) (hm : s.modeCode p op e = none)
    (hop : opQueues op = false) :
    ∃ u c, s.noted u ∧ c.path = p ∧ c.e = e ∧ s.outcome p op e run = (run u c).settle := by
  have hnew : s.noted (s.newCmd p op e).2 :=
    ⟨⟨⟨_, _, _, rfl⟩, rfl, rfl, fun _ => rfl, rfl⟩, fun _ _ => rfl, rfl⟩
  have hout : s.outcome p op e run = (s.newCmd p op e).2.admitCmd (s.newCmd p op e).1 run := by
    simp only [State.outcome, he]
  refine ⟨_, (s.newCmd p op e).1, ?_, rfl, rfl, hout.trans (admitCmd_immediate run ?_ ?_ ?_ hop)⟩
  · exact (hnew.trans (State.noted.counted _ _ _)).trans (State.noted.incWrap _ (.inr rfl))
  · exact (hnew.alike.mgmtPath_eq p).trans hp
  · exact (modeCode_eq hnew.alike hnew.words p op e).trans hm
  · exact hnew.alike.cmds.trans hq.1.1

/-! ### Entries on an idle session -/

theorem sessOf_modSess {s : State} {p : Path} {f : Session → Session} {x : Session} (hf : ∀ y, (f y).id = y.id)
    (h : s.sessOf p = some x) : (s.modSess p f).sessOf p = some (f x) := by
  cases p with
  | service => cases h
  | session id =>
    have hx : s.session? id = some x := h
    simp [State.sessOf, session?_modSess s hf, hx, session?_id hx]

theorem modSess_modSess (s : State) (p : Path) {f g : Session → Session} (hf : ∀ y, (f y).id = y.id) :
    (s.modSess p f).modSess p g = s.modSess p (g ∘ f) := by
  cases p with
  | service => rfl
  | session id =>
    simp only [State.modSess, List.map_map]
    congr 3
    funext x
    by_cases hx : x.id = id <;> simp [hx, hf]

/-- The consumer index that an entry reports changes no more of the session. -/
theorem noteHead_spec {s : State} {p : Path} (e : Entry) {x : Session} (h : s.sessOf p = some x) :
    s.noted (s.noteHead p e) ∧ ∃ i, (s.noteHead p e).sessOf p = some { x with cqHead := i } := by
  unfold State.noteHead
  split
  · exact ⟨State.noted.modSess _ _ (fun _ => rfl) (fun _ => rfl) fun _ _ => rfl, _, sessOf_modSess (fun _ => rfl) h⟩
  · exact ⟨State.noted.refl s, x.cqHead, h⟩

/-- An entry that joins a session's arrivals. -/
def Session.take (h : Nat × Entry) (x : Session) : Session := { x with arrivals := x.arrivals ++ [h] }

/-- An entry that leaves a session's arrivals for its admission. -/
def Session.leave (h : Nat × Entry) (x : Session) : Session := { x with arrivals := x.arrivals.erase h }

/-- On an idle session an entry that arrives is at once the one to be admitted, and leaves no arrival behind. -/
theorem command_session {s : State} {id : BitVec 14} {op : Nat} {e : Entry} (run : State → Cmd → State)
    (hc : s.clear (.session id)) :
    ∃ u, s.noted u ∧
      s.command (.session id) op e run = State.badHeads 256 (u.outcome (.session id) op e run) (.session id) := by
  obtain ⟨-, hpath, hcmds, hidle⟩ := hc
  obtain ⟨x, hx⟩ : ∃ x, s.sessOf (.session id) = some x := by
    cases hx : s.sessOf (.session id) with
    | none => simp [State.mgmtPath, hx] at hpath
    | some x => exact ⟨x, rfl⟩
  obtain ⟨⟨hfrozen, harr⟩, hdepth⟩ : (x.frozen = false ∧ x.arrivals = []) ∧ 0 < x.depth := by
    simpa [hx] using hidle
  obtain ⟨hhead, i, hsess⟩ := noteHead_spec e hx
  have harrive : s.arrive (.session id) op e = (s.noteHead (.session id) e).modSess (.session id) (Session.take (op, e)) := by
    simp only [State.arrive, hx, State.sessLoad, hcmds, harr, List.length_nil, Nat.add_zero, hdepth, true_or, if_true]
    rfl
  have hnow : (s.arrive (.session id) op e).sessOf (.session id) = some { x with cqHead := i, arrivals := [(op, e)] } := by
    rw [harrive, sessOf_modSess (f := Session.take (op, e)) (fun _ => rfl) hsess]
    simp [Session.take, harr]
  have hflush : (s.arrive (.session id) op e).flushWaits (.session id) = false := by
    have : (s.arrive (.session id) op e).cmdsOf (.session id) = [] := by
      rw [harrive, ← hcmds, ← hhead.alike.cmdsOf_eq]
      rfl
    simp [State.flushWaits, this]
  refine ⟨(s.noteHead (.session id) e).modSess (.session id) (Session.leave (op, e) ∘ Session.take (op, e)),
    hhead.trans (State.noted.modSess _ _ (fun _ => rfl) (fun _ => rfl) fun y hy => ?_), ?_⟩
  · have hy : y.arrivals = [] := by
      rw [hsess] at hy
      simpa [← Option.some.inj hy] using harr
    simp [Session.leave, Session.take, hy]
  · rw [← modSess_modSess (f := Session.take (op, e)) _ _ (fun _ => rfl), ← harrive]
    unfold State.command
    simp only [hx, harr, List.isEmpty_nil, Bool.true_or, if_true, hnow]
    simp [hfrozen, hflush]
    rfl

/-- A management command that nothing refuses, whose opcode queues nothing, runs when it comes to an idle path of a quiet
device: what follows the run is what comes due after it. -/
theorem command_immediate {s : State} {p : Path} {op : Nat} {e : Entry} (run : State → Cmd → State) (hq : s.quiet)
    (hc : s.clear p) (he : s.entryCode p op e = none) (hm : s.modeCode p op e = none) (hop : opQueues op = false) :
    ∃ u c, s.noted u ∧ c.path = p ∧ c.e = e ∧ s.command p op e run = State.badHeads 256 (run u c).settle p := by
  obtain ⟨t, ht, hcmd⟩ : ∃ t, s.noted t ∧ s.command p op e run = State.badHeads 256 (t.outcome p op e run) p := by
    cases p with
    | session id => exact command_session run hc
    | service =>
      refine ⟨_, State.noted.rxMessage s .service (op == opIdentify || op == opRegRead || op == opGetLog), ?_⟩
      rw [badHeads_of_noArrivals fun _ hx => by cases hx]
      simp only [State.command, hc.1]
      rfl
  obtain ⟨u, c, hu, hpath, hent, hout⟩ := outcome_immediate run (ht.alike.quiet hq) ((ht.alike.mgmtPath_eq p).trans hc.2.1)
    ((ht.alike.entryCode_eq p op e).trans he) ((modeCode_eq ht.alike ht.words p op e).trans hm) hop
  exact ⟨u, c, ht.trans hu, hpath, hent, by rw [hcmd, hout]⟩

/-- The end of a command is its reply: one entry more, on its path, with its status and result. -/
theorem replied_finish {s v : State} {c : Cmd} {r : Reply} (hd : v.cmd.done = s.cmd.done) (hc : v.cmd.cmds = []) :
    replied s (v.finish c r) c.path c.e r.status ∧
      ((v.finish c r).lastEntry.map fun k => k.res0) = some (r.res0 % 2 ^ 64) := by
  obtain ⟨-, -, k, hk, hid, hres⟩ := finish_spec c r hc
  have hlast : (v.finish c r).lastEntry = some k := by rw [State.lastEntry, hk, List.getLast?_concat]
  exact ⟨⟨by rw [hk, hd, List.length_append, List.length_singleton], by rw [hlast, Option.map_some, hid]⟩, by
    rw [hlast, Option.map_some, hres]⟩

/-- Such a command whose run ends it at once, beside a change of registers or accounts, has its reply; the words beyond the
host's registers are those of the state in which it ends. -/
theorem command_finishes {s : State} {p : Path} {op : Nat} {e : Entry} (run : State → Cmd → State) (hq : s.quiet)
    (hc : s.clear p) (he : s.entryCode p op e = none) (hm : s.modeCode p op e = none) (hop : opQueues op = false) :
    ∃ u c, s.noted u ∧ c.path = p ∧ c.e = e ∧
      ∀ v r, u.alike v → v.cmd.done = u.cmd.done → run u c = v.finish c r →
        replied s (s.command p op e run) p e r.status ∧
          ((s.command p op e run).lastEntry.map fun k => k.res0) = some (r.res0 % 2 ^ 64) ∧
          sameRegs hostWord v (s.command p op e run) := by
  obtain ⟨u, c, hu, hpath, hent, hcmd⟩ := command_immediate run hq hc he hm hop
  refine ⟨u, c, hu, hpath, hent, fun v r hv hdone hrun => ?_⟩
  have hnone : v.cmd.cmds = [] := hv.cmds.trans (hu.alike.quiet hq).1.1
  obtain ⟨hvend, hwords, -⟩ := finish_spec c r hnone
  have hend : s.alike (v.finish c r) := (hu.alike.trans hv).trans hvend
  have hidle : s.noArrivals p := fun x hx => by
    have := hc.2.2.2
    simp only [hx, Option.all_some, Bool.and_eq_true, List.isEmpty_iff] at this
    exact this.1.2
  rw [hcmd, hrun, settle_of_quiet (hend.quiet hq), badHeads_of_noArrivals (hend.noArrivals hidle), ← hpath, ← hent]
  obtain ⟨hreply, hres⟩ := replied_finish (hdone.trans hu.done) hnone
  exact ⟨hreply, hres, hwords⟩

/-! ### Reads of registers -/

/-- Which addresses are the LO registers of pairs, and which HI registers go with them, does not depend on the state. -/
theorem pairOf_addr (s t : State) (k : PairReg) :
    (s.pairOf k).1 = (t.pairOf k).1 ∧ (s.pairOf k).2.1 = (t.pairOf k).2.1 := by cases k <;> exact ⟨rfl, rfl⟩

/-- Whether a read acts is a matter of its address. -/
theorem readActs_isNone (s t : State) (p : Path) (a : Nat) : (s.readActs p a).isNone = (t.readActs p a).isNone := by
  have hpairs : (fun k => (s.pairOf k).1 == a) = fun k => (t.pairOf k).1 == a := by
    funext k; rw [(pairOf_addr s t k).1]
  simp only [State.readActs, hpairs, Option.orElse_eq_or, Option.isNone_or, Option.isNone_map,
    apply_ite Option.isNone, Option.isNone_some]

/-- What a read that does not act gives below the network's registers. -/
theorem readPlain_below (s : State) {a : Nat} (ha : a < 0x90000) : s.readPlain a =
    if a = TICK_EP_PTP_HI ∧ s.flag TICK_STAT_LOCKED = false then 0
    else if (allPairs.map fun k => (s.pairOf k).2.1).contains a then s.readHigh a
    else if a = PLC_POL_DATA then s.reg (keyPol (s.get PLC_POL_IDX_TENANT))
    else if 0x24000 ≤ a ∧ a < 0x27000 then s.readPage ((a - 0x24000) / 0x100) ((a - 0x24000) % 0x100 / 4)
    else s.reg a := by
  have hne : ∀ b, 0x90000 ≤ b → a ≠ b := fun b hb => by omega
  have hmsr : ¬ (0x120100 ≤ a ∧ a < 0x120300) := by omega
  unfold State.readPlain
  rw [if_neg (hne FLT_SEV_DATA (by decide)), if_neg (hne BIST_UNIT_DATA (by decide)), if_neg (hne TXN_PEEK_ADDR (by decide)),
    if_neg (hne TXN_PEEK_DATA (by decide)), if_neg hmsr]

/-- A read that does not act answers the same word in states that differ in the host's registers alone. -/
theorem readPlain_eq {s t : State} (h : s.alike t) (hw : sameRegs hostWord s t) {a : Nat} (ha : a < 0x90000) :
    t.readPlain a = s.readPlain a := by
  have hhi : (allPairs.map fun k => (t.pairOf k).2.1) = allPairs.map fun k => (s.pairOf k).2.1 :=
    List.map_congr_left fun k _ => (pairOf_addr t s k).2
  have hhigh : t.readHigh a = s.readHigh a := by unfold State.readHigh; rw [h.latch_eq]
  have hpol : t.reg (keyPol (t.get PLC_POL_IDX_TENANT)) = s.reg (keyPol (s.get PLC_POL_IDX_TENANT)) := by
    rw [sameRegs.get_eq hw (by decide)]
    exact hw _ (by simp only [hostWord, inBlock, keyPol]; omega)
  have hself : t.reg a = s.reg a := hw a (by simp only [hostWord, inBlock]; omega)
  have hpage (hp : 0x24000 ≤ a ∧ a < 0x27000) : t.readPage ((a - 0x24000) / 0x100) ((a - 0x24000) % 0x100 / 4) =
      s.readPage ((a - 0x24000) / 0x100) ((a - 0x24000) % 0x100 / 4) := by
    have hword (w : Nat) (hwd : w < 0x40) : t.page ((a - 0x24000) / 0x100) w = s.page ((a - 0x24000) / 0x100) w :=
      hw _ (by simp only [hostWord, inBlock, pageAddr]; omega)
    have hty := sameRegs.get_eq hw (f := CE_PAGE_TYPE ((a - 0x24000) / 0x100))
      (by simp only [hostWord, inBlock, CE_PAGE]; omega)
    unfold State.readPage
    rw [hty, hword 0 (by omega), hword _ (by omega)]
  rw [readPlain_below t ha, readPlain_below s ha, sameRegs.flag_eq hw (by decide), hhi, hhigh, hpol, hself]
  by_cases hp : 0x24000 ≤ a ∧ a < 0x27000
  · rw [hpage hp]
  · rw [if_neg hp, if_neg hp]

/-- A REG_READ ends with the words it read where reading left the state alone. -/
theorem runRegRead_eq {s : State} {c : Cmd} {l : List Word} {ok : Bool}
    (h : State.readWords c.path (max 1 (c.e.len.toNat / 4)) c.e.arg0.toNat s = (l, ok, s)) :
    s.runRegRead c = (s.setReg NET_SVC_STAT (s.reg NET_SVC_STAT)).finish c
      { status := if ok then stOk else stBadAddress, res0 := (l.headD 0).toNat,
        data := if c.e.len = 0 then [] else wordBytes l } := by
  unfold State.runRegRead
  rw [h]

/-- A read of one mapped register whose read does not act. -/
theorem readWords_one {s : State} {p : Path} {a : Nat} (hm : isMapped a = true) (hr : (s.readActs p a).isNone = true) :
    State.readWords p 1 a s = ([s.readPlain a], true, s) := by
  have hnone := Option.isNone_iff_eq_none.mp hr
  simp [State.readWords, hm, State.readReg, hnone]

/-- A read from an unmapped address gives no word. -/
theorem readWords_unmapped (s : State) (p : Path) {n a : Nat} (hm : isMapped a = false) (hn : 1 ≤ n) :
    State.readWords p n a s = ([], false, s) := by
  obtain ⟨n, rfl⟩ := Nat.exists_eq_succ_of_ne_zero (by omega : n ≠ 0)
  simp [State.readWords, hm]

/-! ### Writes of the tick generator's registers -/

/-- The fields lie within a register. -/
abbrev fieldsIn (fs : List FieldRow) : Prop := ∀ f ∈ fs, f.lo ≤ f.hi ∧ f.hi < 32

/-- Replacing fields, one after the other, keeps a word within 32 bits. -/
theorem foldl_putBits_lt {fs : List FieldRow} (h : fieldsIn fs) {g : Nat → FieldRow → Nat}
    (hg : ∀ w f, g w f = w ∨ ∃ v, g w f = putBits w f.hi f.lo v) {n : Nat} (hn : n < 2 ^ 32) : fs.foldl g n < 2 ^ 32 := by
  induction fs generalizing n with
  | nil => exact hn
  | cons f fs ih =>
    obtain ⟨hf, hfs⟩ := List.forall_mem_cons.mp h
    refine ih hfs ?_
    obtain e | ⟨v, e⟩ := hg n f
    · rwa [e]
    · rw [e]; exact putBits_lt hf.1 hf.2 hn

theorem mergeBy_lt {fs : List FieldRow} (h : fieldsIn fs) (acc : Access) {old : Nat} (v : Nat) (hn : old < 2 ^ 32) :
    mergeBy acc fs old v < 2 ^ 32 :=
  foldl_putBits_lt h (fun w f => by split_ifs <;> simp) hn

theorem clearBy_lt {fs : List FieldRow} (h : fieldsIn fs) {old : Nat} (v : Nat) (hn : old < 2 ^ 32) :
    clearBy fs old v < 2 ^ 32 :=
  foldl_putBits_lt h (fun w f => by split_ifs <;> simp) hn

/-- The fields of the tick generator's registers lie within them. -/
theorem fieldsIn_tick {a : Nat} (ha : inBlock 1 a) : fieldsIn (fieldsAt a) := by
  have hrows : ∀ r ∈ rowsTICK, fieldsIn r.fields := by decide
  unfold fieldsAt
  cases hr : findRow a with
  | none => exact List.forall_mem_nil _
  | some r =>
    rw [findRow, ha] at hr
    exact hrows r (List.mem_of_find?_eq_some hr)

/-- The word of a register after a write: its RW fields take their bits and its W1C fields with a 1 are cleared (R11). -/
def State.fieldsWritten (s : State) (a : Nat) (v : Word) : Word :=
  BitVec.ofNat 32 (mergeBy .rw (fieldsAt a) (clearBy (fieldsAt a) (s.reg a).toNat v.toNat) v.toNat)

/-- The fields of a register of the tick generator being within it, that word is what the access codes give. -/
theorem fieldsWritten_tick (s : State) {a : Nat} (v : Word) (ha : inBlock 1 a) :
    (s.fieldsWritten a v).toNat =
      mergeBy .rw (fieldsAt a) (clearBy (fieldsAt a) (s.reg a).toNat v.toNat) v.toNat := by
  have hin := fieldsIn_tick ha
  rw [State.fieldsWritten, BitVec.toNat_ofNat,
    Nat.mod_eq_of_lt (mergeBy_lt hin .rw _ (clearBy_lt hin _ (s.reg a).isLt))]

/-- No register whose first address lies above an address is found at it. -/
theorem inst_above {first stride n a : Nat} (h : a < first) : inst first stride n a = none := by
  unfold inst
  split
  · rw [if_neg (by omega)]
  · rfl

/-- A write of a register of the tick generator acts on its fields alone: no row of another register does it, and no
domain holds its fields. -/
theorem writeReg_tick {s : State} {p : Path} {a : Nat} {v : Word} (hr : s.writeRefusal p = none) (ha : inBlock 1 a)
    (hin : inRange a v = true) :
    s.writeReg p a v = (s.setReg a (s.fieldsWritten a v)).status stOk := by
  have hlo : 0x10000 ≤ a := by simp only [inBlock] at ha; omega
  have hhi : a < 0x20000 := by simp only [inBlock] at ha; omega
  have hne : ∀ b, b < 0x10000 ∨ 0x20000 ≤ b → a ≠ b := fun b hb => by omega
  have hle : ∀ b, 0x20000 ≤ b → ¬ b ≤ a := fun b hb => by omega
  have hinst : ∀ first stride n, 0x20000 ≤ first → inst first stride n a = none :=
    fun _ _ _ h => inst_above (by omega)
  have hindex : indexReg a = none := by simp (disch := decide) only [indexReg, hne, if_false]
  have hkey : s.indexKey a = none := by simp (disch := decide) only [State.indexKey, hne, if_false]
  have hce : s.writeCe p a v = none := by
    simp (disch := decide) only [State.writeCe, hle, hne, false_and, dite_false, if_false]
  have hmotion : s.writeMotion p a v = none := by
    simp (disch := decide) only [State.writeMotion, hinst, hle, hne, false_and, dite_false, if_false, Option.map_none,
      Option.orElse_none, Option.bind_eq_bind, Option.bind_none]
  have hshell : s.writeShell p a v = none := by
    simp (disch := decide) only [State.writeShell, hne, false_or, if_false]
  have hwatch : s.writeWatch p a v = none := by
    simp (disch := decide) only [State.writeWatch, hne, false_or, if_false]
  have hdomain : domainOf a = none := by
    simp (disch := decide) only [domainOf, hne, hle, false_and, false_or, if_false]
  have hplain : s.writeReg p a v = s.plainWrite p a v := by
    simp only [State.writeReg, hindex, hkey, hce, hmotion, hshell, hwatch, Option.orElse_none, Option.getD_none]
  rw [hplain]
  simp only [State.plainWrite, hr, hin, if_true, State.writeFields, hdomain, State.fieldsWritten]

/-- A status of a class other than 0x4 ends a command by itself. -/
theorem finishWith_eq (s : State) (c : Cmd) {status : Nat} (h : status / 4096 ≠ 4) :
    s.finishWith c status = s.finish c { status := status } := if_neg h

/-- A REG_WRITE at an unmapped address ends with BAD_ADDRESS. -/
theorem runRegWrite_unmapped {s : State} {c : Cmd} (hm : isMapped c.e.arg0.toNat = false) :
    s.runRegWrite c = s.finish c { status := stBadAddress } := by
  simp only [State.runRegWrite, hm, Bool.not_false, if_true]
  exact finishWith_eq s c (by decide)

/-- A REG_WRITE of a register of the tick generator within its ranges ends when the register holds what its fields take. -/
theorem runRegWrite_tick {s : State} {c : Cmd} (hr : s.writeRefusal c.path = none) (hm : isMapped c.e.arg0.toNat = true)
    (ha : inBlock 1 c.e.arg0.toNat) (hin : inRange c.e.arg0.toNat c.e.arg1 = true) :
    s.runRegWrite c =
      ((s.setReg c.e.arg0.toNat (s.fieldsWritten c.e.arg0.toNat c.e.arg1)).setReg NET_SVC_STAT
        (s.reg NET_SVC_STAT)).finish c {} := by
  have hrst : c.e.arg0.toNat ≠ SYS_RST := fun h => by rw [h] at ha; exact absurd ha (by decide)
  simp only [State.runRegWrite, hm, Bool.not_true, Bool.false_eq_true, if_false, hrst, writeReg_tick hr ha hin,
    State.status_ce, State.setReg_ce, Nat.lt_irrefl]
  exact finishWith_eq _ c (status := stOk) (by decide)

/-! ### REG_READ and REG_WRITE -/

/-- A state that writes NET_SVC_STAT back is as before beyond the host's registers. -/
theorem State.noted.keepSvc (s : State) : s.noted (s.setReg NET_SVC_STAT (s.reg NET_SVC_STAT)) :=
  State.noted.setReg s _ (.inl rfl)

/-- Settles O13: on an idle path of a quiet device the command runs at its admission and ends at once (`command_finishes`);
what is left is what the run reads (`readWords_one`, `readPlain_eq`) or writes (`runRegWrite_tick`). -/
theorem registerCommandsRead : Obligations.RegisterCommandsRead := by
  refine ⟨?read, ?readUnmapped, ?write, ?writeUnmapped⟩
  case read =>
    intro p e s hq hc he hm hlen ha hmap hacts
    obtain ⟨u, c, hu, rfl, rfl, hend⟩ := command_finishes State.runRegRead hq hc he hm rfl
    have hwords : State.readWords c.path (max 1 (c.e.len.toNat / 4)) c.e.arg0.toNat u =
        ([u.readPlain c.e.arg0.toNat], true, u) := by
      rw [hlen]
      exact readWords_one hmap ((readActs_isNone u s _ _).trans hacts)
    have hkept := State.noted.keepSvc u
    obtain ⟨hreply, hres, hregs⟩ := hend _ _ hkept.alike hkept.done (runRegRead_eq hwords)
    refine ⟨_, rfl, hreply, ?_, fun a ha => ?_⟩
    · have hword : (u.readPlain c.e.arg0.toNat).toNat < 2 ^ 64 := lt_trans (u.readPlain c.e.arg0.toNat).isLt (by norm_num)
      rw [hres, List.headD_cons, Nat.mod_eq_of_lt hword, readPlain_eq hu.alike hu.words ha]
    · exact sameRegs.trans (hu.trans hkept).words hregs a (not_or.mpr ha)
  case readUnmapped =>
    intro p e s hq hc he hm hmap
    obtain ⟨u, c, hu, rfl, rfl, hend⟩ := command_finishes State.runRegRead hq hc he hm rfl
    have hkept := State.noted.keepSvc u
    obtain ⟨hreply, -⟩ := hend _ _ hkept.alike hkept.done
      (runRegRead_eq (readWords_unmapped u _ hmap (Nat.le_max_left _ _)))
    exact ⟨_, rfl, hreply⟩
  case write =>
    intro p e s hq hc he hm hr hblock hmap hin
    obtain ⟨u, c, hu, rfl, rfl, hend⟩ := command_finishes State.runRegWrite hq hc he hm rfl
    have hr' := (writeRefusal_eq hu.alike hu.words c.path).trans hr
    obtain ⟨hreply, -, hregs⟩ := hend _ _ ((State.alike.setReg u _ _).trans (State.alike.setReg _ _ _)) rfl
      (runRegWrite_tick hr' hmap hblock hin)
    have hown : ¬ hostWord c.e.arg0.toNat := by simp only [hostWord, inBlock] at hblock ⊢; omega
    have hsvc : ∀ a, ¬ hostWord a → a ≠ NET_SVC_STAT := by rintro _ ha rfl; exact ha (.inl rfl)
    refine ⟨_, rfl, hreply, ?_, fun a ⟨h9, hA, hne⟩ => ?_⟩
    · rw [hregs _ hown, State.reg_setReg_other _ _ (hsvc _ hown), State.reg_setReg_same, fieldsWritten_tick u _ hblock,
        hu.words _ hown]
    · have ha : ¬ hostWord a := not_or.mpr ⟨h9, hA⟩
      rw [hregs a ha, State.reg_setReg_other _ _ (hsvc a ha), State.reg_setReg_other _ _ hne, hu.words a ha]
  case writeUnmapped =>
    intro p e s hq hc he hm hmap
    obtain ⟨u, c, hu, rfl, rfl, hend⟩ := command_finishes State.runRegWrite hq hc he hm rfl
    obtain ⟨hreply, -, hregs⟩ := hend u _ (State.alike.refl u) rfl (runRegWrite_unmapped hmap)
    exact ⟨_, rfl, hreply, fun a ha => sameRegs.trans hu.words hregs a (not_or.mpr ha)⟩

end Sys2Proof.Machine
end

section
/-!
PROOFS of the statements of 01_architecture.md. Rules of faults and of writes by a path come first (a fault leaves every
word but its count and its latch; a write that the gate lets pass is made), then the front of the queue (O58), mode
requests (O3) and synchronisation with the set-points from outside (O10).
-/

namespace Sys2Proof.Machine

open Sys2Proof

/-! ### Fault messages and registers -/

/-- A message changes the count of its source and, in fall-back, the latch of its source; no other word. -/
theorem State.reg_send_other (s : State) {m : Msg} {a : Nat} (hk : a ≠ keySrc m.src 0) (hl : a ≠ FLT_FB m.src) :
    (s.send m).reg a = s.reg a := by
  unfold State.send
  split
  · rfl
  dsimp only
  split
  · rw [State.reg_set_apart _ _ hl, State.reg_set_apart _ _ hl, State.reg_set_apart _ _ hl]
    exact State.reg_setReg_other s _ hk
  · exact State.reg_setReg_other s _ hk

/-- A fault raised by a source leaves the words that are not its count or its latch. -/
theorem State.reg_raise_other (s : State) {src kind arg a : Nat} (hk : a ≠ keySrc src 0) (hl : a ≠ FLT_FB src) :
    (s.raise src kind arg).reg a = s.reg a := State.reg_send_other s hk hl

/-- A fault leaves every word below the fall-back latches. -/
theorem State.reg_raise_below (s : State) {src kind arg a : Nat} (ha : a < 0xF1000) :
    (s.raise src kind arg).reg a = s.reg a :=
  State.reg_raise_other s (by simp only [keySrc]; omega) (by simp only [FLT_FB]; omega)

theorem State.get_raise_below (s : State) {src kind arg : Nat} {f : Fld} (hf : f.addr < 0xF1000) :
    (s.raise src kind arg).get f = s.get f := by
  simp only [State.get, State.reg_raise_below s hf]

theorem State.flag_raise_below (s : State) {src kind arg : Nat} {f : Fld} (hf : f.addr < 0xF1000) :
    (s.raise src kind arg).flag f = s.flag f := by
  simp only [State.flag, State.get_raise_below s hf]

/-- A fault raises the count of its source by one, up to the greatest count. -/
theorem State.count_raise (s : State) {src kind : Nat} (arg : Nat) (hk : kind ≠ 0x3F) :
    ((s.raise src kind arg).reg (keySrc src 0)).toNat = min 0xFFFFFFFF ((s.reg (keySrc src 0)).toNat + 1) := by
  have hw : ((s.setReg (keySrc src 0) (BitVec.ofNat 32 (min 0xFFFFFFFF ((s.reg (keySrc src 0)).toNat + 1)))).reg
      (keySrc src 0)).toNat = min 0xFFFFFFFF ((s.reg (keySrc src 0)).toNat + 1) := by
    rw [State.reg_setReg_same, BitVec.toNat_ofNat]
    exact Nat.mod_eq_of_lt (by omega)
  have hl : keySrc src 0 ≠ FLT_FB src := by simp only [keySrc, FLT_FB]; omega
  unfold State.raise State.send
  rw [if_neg hk]
  dsimp only
  split
  · rw [State.reg_set_apart _ _ hl, State.reg_set_apart _ _ hl, State.reg_set_apart _ _ hl]
    exact hw
  · exact hw

/-- From `s` to `t` at most registers and what the collector holds have changed. -/
def State.upToFaults (s t : State) : Prop := ∃ regs flt, t = { s with regs := regs, flt := flt }

theorem State.upToFaults.trans {s t u : State} (h : s.upToFaults t) (k : t.upToFaults u) : s.upToFaults u := by
  obtain ⟨_, _, rfl⟩ := h
  obtain ⟨_, _, rfl⟩ := k
  exact ⟨_, _, rfl⟩

theorem State.upToFaults.setReg (s : State) (a : Nat) (v : Word) : s.upToFaults (s.setReg a v) := ⟨_, _, rfl⟩

theorem State.upToFaults.set (s : State) (f : Fld) (v : Nat) : s.upToFaults (s.set f v) := ⟨_, _, rfl⟩

theorem State.upToFaults.flt (s : State) (x : FltSt) : s.upToFaults { s with flt := x } := ⟨_, _, rfl⟩

/-- A fault changes registers and the collector alone. -/
theorem State.upToFaults.raise (s : State) (src kind arg : Nat) : s.upToFaults (s.raise src kind arg) := by
  unfold State.raise State.send
  split
  · exact ⟨_, _, rfl⟩
  · dsimp only
    split
    · exact ((((State.upToFaults.setReg s _ _).trans (State.upToFaults.flt _ _)).trans (State.upToFaults.set _ _ _)).trans
        (State.upToFaults.set _ _ _)).trans (State.upToFaults.set _ _ _)
    · exact (State.upToFaults.setReg s _ _).trans (State.upToFaults.flt _ _)

@[simp] theorem State.raise_sys (s : State) (src kind arg : Nat) : (s.raise src kind arg).sys = s.sys := by
  obtain ⟨_, _, h⟩ := State.upToFaults.raise s src kind arg
  rw [h]

/-! ### Flags -/

theorem State.flag_setFlag_same (s : State) {f : Fld} (b : Bool) (hf : f.ok) : (s.setFlag f b).flag f = b := by
  have hpow : 1 < 2 ^ (f.hi + 1 - f.lo) := Nat.one_lt_two_pow (by have := hf.1; omega)
  simp only [State.flag, State.setFlag, State.get_set_same s _ hf]
  cases b
  · simp
  · simp [Nat.mod_eq_of_lt hpow]

theorem State.flag_set_zero (s : State) {f : Fld} (hf : f.ok) : (s.set f 0).flag f = false := by
  simp [State.flag, State.get_set_same s 0 hf]

theorem State.flag_set_other (s : State) {f g : Fld} (v : Nat) (hg : g.ok) (hd : f.apart g) : (s.set g v).flag f = s.flag f := by
  simp only [State.flag, State.get_set_other s v hg hd]

/-! ### Steps -/

/-- Settles O58: `step` matches on the queue. -/
theorem stepRunsTheFrontCommand : Obligations.StepRunsTheFrontCommand := by
  refine ⟨fun c rest s hq => ?_, fun s hq => ?_, fun c s => rfl⟩
  · unfold step
    rw [hq]
  · unfold step
    rw [hq]

/-! ### Writes by a path -/

/-- A write that the gate lets pass and that is not refused is made, and its status is OK. -/
theorem writeBy_opens {s : State} {p : Path} {ok : Bool} (f : State → State) (h : s.opens p) (hok : ok = true) :
    s.writeBy p ok f = (f (s.rxMessage p false)).status stOk := by
  obtain ⟨hs, hr⟩ := h
  simp only [State.writeBy, hs, hr, hok, Bool.false_eq_true, if_false, if_true]

/-- A write that the gate lets pass but that its conditions refuse only counts its message. -/
theorem writeBy_refused {s : State} {p : Path} {ok : Bool} (f : State → State) (h : s.opens p) (hok : ok = false) :
    s.writeBy p ok f = (s.rxMessage p false).status stRegRefused := by
  obtain ⟨hs, hr⟩ := h
  simp only [State.writeBy, hs, hr, hok, Bool.false_eq_true, if_false]

/-- The count of a service message lies in NET_SVC_STAT alone. -/
theorem State.reg_rxMessage (s : State) (p : Path) (b : Bool) {a : Nat} (ha : a ≠ NET_SVC_STAT) :
    (s.rxMessage p b).reg a = s.reg a := by
  cases p with
  | session id => rfl
  | service =>
    simp only [State.rxMessage]
    split
    · rfl
    · exact State.reg_set_apart _ _ ha

theorem State.get_rxMessage (s : State) (p : Path) (b : Bool) {f : Fld} (hf : f.addr ≠ NET_SVC_STAT) :
    (s.rxMessage p b).get f = s.get f := by
  simp only [State.get, State.reg_rxMessage s p b hf]

/-- Beside that count a message changes nothing. -/
theorem State.rxMessage_eq (s : State) (p : Path) (b : Bool) :
    s.rxMessage p b = { s with regs := (s.rxMessage p b).regs } := by
  cases p with
  | session id => rfl
  | service =>
    simp only [State.rxMessage]
    split <;> rfl

@[simp] theorem State.rxMessage_sys (s : State) (p : Path) (b : Bool) : (s.rxMessage p b).sys = s.sys := by
  rw [State.rxMessage_eq]

@[simp] theorem State.rxMessage_ce (s : State) (p : Path) (b : Bool) : (s.rxMessage p b).ce = s.ce := by
  rw [State.rxMessage_eq]


/-! ### Mode requests (R51) -/

/-- A pending request keeps its number as that of the superseded one; nothing else of SYS_MODE_RES or SYS_MODE changes. -/
theorem modeRequest_spec (s : State) {m : Nat} (hm : m < 16) :
    (s.modeRequest m).get SYS_MODE_RES_TARGET = m ∧ (s.modeRequest m).get SYS_MODE_RES_COND = 0 ∧
      (s.modeRequest m).get SYS_MODE_RES_SEQ =
        (if s.get SYS_MODE_RES_SEQ = 255 then 1 else s.get SYS_MODE_RES_SEQ + 1) ∧
      (s.modeRequest m).get SYS_MODE_RES_RESULT = (if m = s.mode then 0 else 1) ∧
      (s.modeRequest m).sys.reqPending = (m != s.mode) ∧
      (s.sys.reqPending = true → (s.modeRequest m).get SYS_MODE_RES_SUP_SEQ = s.get SYS_MODE_RES_SEQ) ∧
      (s.modeRequest m).mode = s.mode := by
  have hseq : s.get SYS_MODE_RES_SEQ < 256 := State.get_lt s SYS_MODE_RES_SEQ
  have hnext : (if s.get SYS_MODE_RES_SEQ = 255 then 1 else s.get SYS_MODE_RES_SEQ + 1) < 256 := by split <;> omega
  have hsup : ∀ v, (s.set SYS_MODE_RES_SUP_SEQ v).get SYS_MODE_RES_SEQ = s.get SYS_MODE_RES_SEQ :=
    fun v => State.get_set_apart s v (by decide) (by decide) (by decide)
  obtain ⟨s1, hs1, hseq1, hsup1, hmode1⟩ : ∃ s1, s1 =
      (if s.sys.reqPending then s.set SYS_MODE_RES_SUP_SEQ (s.get SYS_MODE_RES_SEQ) else s) ∧
      s1.get SYS_MODE_RES_SEQ = s.get SYS_MODE_RES_SEQ ∧
      (s.sys.reqPending = true → s1.get SYS_MODE_RES_SUP_SEQ = s.get SYS_MODE_RES_SEQ) ∧ s1.mode = s.mode := by
    refine ⟨_, rfl, ?_⟩
    split
    · refine ⟨State.get_set_apart s _ (by decide) (by decide) (by decide), fun _ => ?_,
        State.get_set_apart s _ (by decide) (by decide) (by decide)⟩
      rw [State.get_set_here s _ (by decide) (by decide)]
      exact Nat.mod_eq_of_lt hseq
    next hp => exact ⟨rfl, fun h => absurd h hp, rfl⟩
  unfold State.modeRequest
  dsimp only
  rw [← hs1, hseq1]
  unfold State.mode at *
  generalize (if s.get SYS_MODE_RES_SEQ = 255 then 1 else s.get SYS_MODE_RES_SEQ + 1) = v at *
  generalize s.get SYS_MODE_MODE = k at *
  generalize hnow : (m == k) = now
  simp -implicitDefEqProofs (disch := decide) only [State.modSys_get, State.get_set_apart, State.get_set_here]
  refine ⟨Nat.mod_eq_of_lt hm, rfl, Nat.mod_eq_of_lt hnext, ?_, ?_, hsup1, hmode1⟩
  · subst hnow
    by_cases h : m = k <;> simp [h]
  · rw [bne, hnow]
    rfl

@[simp] theorem State.status_mode (s : State) (code : Nat) : (s.status code).mode = s.mode := rfl

/-- What a mode request leaves, where it is made over a path that the gate lets pass. -/
theorem modeRequest_recorded {s : State} {p : Path} {m : Nat} (h : s.opens p) (hm : m < 16) :
    ∃ t, s.writeBy p true (fun t => t.modeRequest m) = t ∧ t.wstat = stOk ∧ t.get SYS_MODE_RES_TARGET = m ∧
      t.get SYS_MODE_RES_COND = 0 ∧
      t.get SYS_MODE_RES_SEQ = (if s.get SYS_MODE_RES_SEQ = 255 then 1 else s.get SYS_MODE_RES_SEQ + 1) ∧
      t.get SYS_MODE_RES_RESULT = (if m = s.mode then 0 else 1) ∧ t.sys.reqPending = (m != s.mode) ∧
      (s.sys.reqPending = true → t.get SYS_MODE_RES_SUP_SEQ = s.get SYS_MODE_RES_SEQ) ∧ t.mode = s.mode := by
  have hspec := modeRequest_spec (s.rxMessage p false) hm
  have hmode : (s.rxMessage p false).mode = s.mode := State.get_rxMessage s p false (by decide)
  rw [hmode, State.get_rxMessage s p false (by decide), State.rxMessage_sys] at hspec
  refine ⟨_, writeBy_opens _ h rfl, rfl, ?_⟩
  simp -implicitDefEqProofs only [State.status_get, State.status_sys, State.status_mode]
  exact hspec

/-- Settles O3: each row of the request is a write of SYS_MODE_REQ (`modeRequest_recorded`). -/
theorem modeRequestsAreRecorded : Obligations.ModeRequestsAreRecorded := by
  intro p m r s hr hopen
  have hrow : exec r s = .next (s.writeBy p true fun t => t.modeRequest m.toNat) := by
    rcases hr with ⟨rfl, rfl⟩ | ⟨rfl, rfl⟩ | ⟨rfl, rfl⟩ | ⟨rfl, rfl⟩ | rfl <;> rfl
  obtain ⟨t, ht, hspec⟩ := modeRequest_recorded hopen m.isLt
  exact ⟨t, hrow.trans (congrArg _ ht), hspec⟩

/-! ### Counts -/

theorem State.get_addSat_same (s : State) {f : Fld} (n : Nat) (hf : f.ok) :
    (s.addSat f n).get f = min f.top (s.get f + n) := by
  rw [State.addSat, State.get_set_same s _ hf]
  exact Nat.mod_eq_of_lt (lt_of_le_of_lt (min_le_left _ _) (Nat.sub_lt (Nat.two_pow_pos _) Nat.one_pos))

theorem State.get_addSat_other (s : State) {f g : Fld} (n : Nat) (hg : g.ok) (hd : f.apart g) :
    (s.addSat g n).get f = s.get f := State.get_set_other s _ hg hd

theorem State.reg_addSat_other (s : State) {g : Fld} {a : Nat} (n : Nat) (h : a ≠ g.addr) : (s.addSat g n).reg a = s.reg a :=
  State.reg_set_other s _ h

/-! ### Synchronisation (R97, R98) and the words of the control engine -/

theorem State.reg_when (s : State) (b : Bool) (f : State → State) {a : Nat} (hf : (f s).reg a = s.reg a) :
    (s.when b f).reg a = s.reg a := by
  unfold State.when
  split
  · exact hf
  · rfl

/-- The words of mark registration lie behind those of the control engine. -/
theorem State.reg_marUnlock (s : State) (st : Nat) {a : Nat} (ha : a < 0x50000) : (s.marUnlock st).reg a = s.reg a := by
  unfold State.marUnlock
  dsimp only
  split
  · rw [State.reg_when]
    · exact State.reg_set_apart _ _ (by simp only [SPN_MAR_STAT]; omega)
    · exact State.reg_raise_below _ (by omega)
  · rfl

theorem State.reg_marPulse (s : State) (frac st : Nat) {a : Nat} (ha : a < 0x50000) :
    (s.marPulse frac st).reg a = s.reg a := by
  have hne : a ≠ SPN_MAR_STAT st := by simp only [SPN_MAR_STAT]; omega
  have hset : ∀ (t : State) k m v, (t.set ⟨SPN_MAR_STAT st, k, m⟩ v).reg a = t.reg a :=
    fun t k m v => State.reg_set_apart t v hne
  unfold State.marPulse State.setInt State.when
  split
  · rfl
  · simp only [apply_ite (State.reg · a), State.reg_marUnlock _ _ ha, State.modStn_reg, hset, ite_self]

/-- The loss of validity clears VALID and raises a fault; the words before the fault counts keep all else. -/
theorem State.syncLost_eq {s : State} (h : s.flag CE_SYNC_STAT_VALID = true) :
    s.syncLost = (s.set CE_SYNC_STAT_VALID 0).raise 0x002 4 0 := if_pos h

theorem State.reg_syncLost (s : State) {a : Nat} (ha : a < 0x40000) (hne : a ≠ CE_SYNC_STAT) :
    s.syncLost.reg a = s.reg a := by
  unfold State.syncLost
  split
  · rw [State.reg_raise_below _ (by omega)]
    exact State.reg_set_apart s _ hne
  · rfl

theorem State.get_syncLost (s : State) {k m : Nat} (hk : k < 31) :
    s.syncLost.get ⟨CE_SYNC_STAT, k, m⟩ = s.get ⟨CE_SYNC_STAT, k, m⟩ := by
  unfold State.syncLost
  split
  · rw [State.get_raise_below _ (by dsimp only; decide)]
    exact State.get_set_apart s _ (by decide) (by decide) (.inr (.inl hk))
  · rfl

/-- The judgement of a period decides VALID alone. -/
theorem State.reg_syncPeriod (s : State) (n : Nat) {a : Nat} (ha : a < 0x40000) (hne : a ≠ CE_SYNC_STAT) :
    (s.syncPeriod n).reg a = s.reg a := by
  unfold State.syncPeriod
  dsimp only
  split
  · rw [State.reg_when _ _ _ (State.reg_set_apart _ _ hne)]
    rfl
  · rw [State.reg_when _ _ _ (State.reg_syncLost _ ha hne)]
    rfl

theorem State.get_syncPeriod (s : State) (n : Nat) {k m : Nat} (hk : k < 31) :
    (s.syncPeriod n).get ⟨CE_SYNC_STAT, k, m⟩ = s.get ⟨CE_SYNC_STAT, k, m⟩ := by
  unfold State.syncPeriod State.when
  dsimp only
  split_ifs
  · exact State.get_set_apart _ _ (by decide) (by decide) (.inr (.inl hk))
  · rfl
  · exact State.get_syncLost _ hk
  · rfl

/-- The state once a pulse is captured, before its period is judged. -/
def State.captured (s : State) (frac : Nat) : State :=
  ((s.setReg CE_SYNC_TS (BitVec.ofNat 32 s.tick)).set CE_SYNC_STAT_FRAC frac).incWrap CE_SYNC_STAT_PULSES

theorem State.reg_captured (s : State) (frac : Nat) : (s.captured frac).reg CE_SYNC_TS = BitVec.ofNat 32 s.tick := by
  rw [State.captured, State.incWrap, State.reg_set_apart _ _ (by decide), State.reg_set_apart _ _ (by decide),
    State.reg_setReg_same]

theorem State.get_captured_frac (s : State) (frac : Nat) : (s.captured frac).get CE_SYNC_STAT_FRAC = frac % 2 ^ 11 := by
  rw [State.captured, State.incWrap, State.get_set_apart _ _ (by decide) (by decide) (by decide),
    State.get_set_here _ _ (by decide) (by decide)]

theorem State.get_captured_pulses (s : State) (frac : Nat) :
    (s.captured frac).get CE_SYNC_STAT_PULSES = (s.get CE_SYNC_STAT_PULSES + 1) % (CE_SYNC_STAT_PULSES.top + 1) := by
  have hword : ∀ v, (s.setReg CE_SYNC_TS v).get CE_SYNC_STAT_PULSES = s.get CE_SYNC_STAT_PULSES := fun v => by
    simp only [State.get, State.reg_setReg_other s v (show CE_SYNC_STAT ≠ CE_SYNC_TS by decide)]
  rw [State.captured, State.incWrap, State.get_set_here _ _ (by decide) (by decide),
    State.get_set_apart _ _ (by decide) (by decide) (by decide), hword]
  exact Nat.mod_mod _ _

/-- The same with its period judged against the edge before it, if there was one. -/
def State.judged (s : State) (at_ : Nat) : Option Nat → State
  | some last => (s.setReg CE_SYNC_PER (BitVec.ofNat 32 (at_ - last))).syncPeriod (at_ - last)
  | none => s

theorem State.reg_judged (s : State) (at_ : Nat) (last : Option Nat) {a : Nat} (ha : a < 0x40000) (hp : a ≠ CE_SYNC_PER)
    (hs : a ≠ CE_SYNC_STAT) : (s.judged at_ last).reg a = s.reg a := by
  cases last with
  | none => rfl
  | some last => exact (State.reg_syncPeriod _ _ ha hs).trans (State.reg_setReg_other _ _ hp)

theorem State.get_judged (s : State) (at_ : Nat) (last : Option Nat) {k m : Nat} (hk : k < 31) :
    (s.judged at_ last).get ⟨CE_SYNC_STAT, k, m⟩ = s.get ⟨CE_SYNC_STAT, k, m⟩ := by
  cases last with
  | none => rfl
  | some last =>
    refine (State.get_syncPeriod _ _ hk).trans ?_
    simp only [State.get]
    rw [State.reg_setReg_other _ _ (by decide)]

/-- What a pulse of the chosen edge leaves: the captured words, VALID as the period judges it, and mark registration. -/
theorem execSyncInPulse_eq {frac : BitVec 11} {falling : Bool} {s : State} (hen : s.flag CE_SYNC_CTL_EN = true)
    (hedge : s.flag CE_SYNC_CTL_EDGE = falling) :
    execSyncInPulse frac falling s =
      let u := (s.captured frac.toNat).judged (s.ce.cycles + frac.toNat) s.ce.syncAt
      .next (({ u with ce := { u.ce with syncAt := some (s.ce.cycles + frac.toNat) } }.marPulse frac.toNat 0).marPulse
        frac.toNat 1) := by
  unfold execSyncInPulse
  rw [if_neg (by simp [hen, hedge])]
  dsimp only
  cases s.ce.syncAt <;> rfl

/-- The words of the control engine after a pulse are those that the capture and the judgement leave. -/
theorem State.reg_marked (s : State) (x : CeSt) (frac : Nat) {a : Nat} (ha : a < 0x50000) :
    (({ s with ce := x }.marPulse frac 0).marPulse frac 1).reg a = s.reg a := by
  rw [State.reg_marPulse _ _ _ ha, State.reg_marPulse _ _ _ ha]
  rfl

theorem State.get_marked (s : State) (x : CeSt) (frac : Nat) {f : Fld} (hf : f.addr < 0x50000) :
    (({ s with ce := x }.marPulse frac 0).marPulse frac 1).get f = s.get f := by
  simp only [State.get, State.reg_marked s x frac hf]

/-- A page word below the six of the parameters enters the buffer while that has room. -/
theorem writePage_buffers {s : State} {p : Path} {n w : Nat} {v : Word} (h1 : 1 ≤ w) (h5 : w ≤ 5)
    (hroom : s.ce.wbuf.length < 64) :
    s.writePage p n w v = s.bufferPage (pageAddr n w) (pageBits (s.decidingType p n) w v) := by
  have hr : s.bufRoom (pageAddr n w) = true := by simp [State.bufRoom, hroom]
  unfold State.writePage
  rw [if_neg (by omega), if_pos h5, if_pos hr]

theorem pageBits_parameter {ty w : Nat} {v : Word} (h5 : w ≤ 5) : pageBits ty w v = if w = 3 then v else v &&& 0x7FFFFF := by
  have hw : w ≠ 16 := by omega
  simp [pageBits, hw]

/-- A word given to the buffer is in it, whether or not its address was. -/
theorem mem_bufferPage (s : State) (a : Nat) (v : Word) : (a, v) ∈ (s.bufferPage a v).ce.wbuf := by
  simp only [State.bufferPage, State.status_ce, State.wbufUsed, State.set_ce]
  split
  next h =>
    obtain ⟨e, he, hea⟩ := List.any_eq_true.mp h
    exact List.mem_map.mpr ⟨e, he, if_pos (by simpa using hea)⟩
  next => simp

/-- Settles O10: pulses go by `execSyncInPulse_eq`, the registers' writes by the rule of a path that opens or refuses. -/
theorem synchronisationAndExternalSetPoints : Obligations.SynchronisationAndExternalSetPoints := by
  refine ⟨?pulse, ?timeout, ?enable, ?refused, ?page, ?gate⟩
  case pulse =>
    intro frac falling s hen hedge
    refine ⟨_, execSyncInPulse_eq (frac := frac) hen hedge, ?_, ?_, ?_⟩
    · rw [State.reg_marked _ _ _ (by decide), State.reg_judged _ _ _ (by decide) (by decide) (by decide)]
      exact State.reg_captured s _
    · rw [State.get_marked _ _ _ (by decide), State.get_judged _ _ _ (by decide), State.get_captured_frac]
      exact Nat.mod_eq_of_lt frac.isLt
    · rw [State.get_marked _ _ _ (by decide), State.get_judged _ _ _ (by decide)]
      exact State.get_captured_pulses s _
  case timeout =>
    intro s hvalid hover
    refine ⟨_, rfl, ?_⟩
    rw [if_pos hover]
    generalize hu : State.mk .. = u
    have hvalid' : u.flag CE_SYNC_STAT_VALID = true := by rw [← hu]; exact hvalid
    have hcount : s.reg (keySrc 0x002 0) = u.reg (keySrc 0x002 0) := by rw [← hu]; rfl
    rw [State.syncLost_eq hvalid', hcount]
    refine ⟨?_, ?_⟩
    · rw [State.flag_raise_below _ (by decide)]
      exact State.flag_set_zero _ (by decide)
    · rw [State.count_raise _ _ (by decide), State.reg_set_apart _ _ (by decide)]
  case enable =>
    intro p slot s hopen hm
    refine ⟨_, congrArg Host.Outcome.next (writeBy_opens _ hopen (by simp [hm])), rfl, ?_, ?_⟩
    · exact State.flag_setFlag_same _ true (by decide)
    · rw [State.status_get, State.setFlag, State.get_set_apart _ _ (by decide) (by decide) (by decide),
        State.get_set_here _ _ (by decide) (by decide)]
      exact Nat.mod_eq_of_lt slot.isLt
  case refused =>
    intro p slot s hopen hm
    exact ⟨_, congrArg Host.Outcome.next (writeBy_refused _ hopen (by simp [hm])), rfl, fun a ha => State.reg_rxMessage s p false ha⟩
  case page =>
    intro p n w v s hopen h1 h5 hroom
    obtain ⟨hsilent, hrefusal⟩ := hopen
    have hroom' : (s.rxMessage p false).ce.wbuf.length < 64 := by rwa [State.rxMessage_ce]
    refine ⟨(s.rxMessage p false).writePage p n w v, ?_, ?_⟩
    · change execCePageWrite p n w v s = _
      rw [execCePageWrite, hsilent, hrefusal]
      rfl
    · rw [writePage_buffers h1 h5 hroom', pageBits_parameter h5]
      exact ⟨rfl, mem_bufferPage _ _ _⟩
  case gate =>
    intro p gate s hopen
    refine ⟨_, congrArg Host.Outcome.next (writeBy_opens _ hopen rfl), rfl, ?_, ?_⟩
    · exact State.flag_setFlag_same _ gate (by decide)
    · exact State.rxMessage_ce s p false

end Sys2Proof.Machine
end

section
/-!
PROOFS of the statements of 01_architecture.md, continued: writes of SYS_RST with another key (O56).
-/

namespace Sys2Proof.Machine

open Sys2Proof

/-! ### Writes of SYS_RST (R54) -/

/-- Who may write SYS_RST depends on no word of the host's registers. -/
theorem rstRefusal_eq {s t : State} (h : s.alike t) (hw : sameRegs hostWord s t) (p : Path) :
    t.rstRefusal p = s.rstRefusal p := by
  have hsession : ∀ (u : State) (id : BitVec 14), u.rstRefusal (.session id) =
      if ((u.session? id).map Session.mgmt).getD false = false then some stNotPermitted
      else if u.mode = modeBoot then some stMode else none := fun u id => by
    cases hu : u.session? id <;> simp [State.rstRefusal, hu]
  cases p with
  | service =>
    have hup : t.portUp = s.portUp := by
      unfold State.portUp; rw [sameRegs.flag_eq hw (by decide), sameRegs.flag_eq hw (by decide)]
    simp only [State.rstRefusal, sameRegs.jackOnly_eq hw, h.mgmt, hup]
  | session id => rw [hsession, hsession, h.session_mgmt_eq, sameRegs.mode_eq hw]

/-- A command on an idle path of a quiet device whose run only answers leaves a reply and, beyond the bookkeeping of
commands, changes words of the host's registers alone. -/
theorem command_answers {s : State} {p : Path} {op code : Nat} {e : Entry} (run : State → Cmd → State) (hq : s.quiet)
    (hc : s.clear p) (he : s.entryCode p op e = none) (hm : s.modeCode p op e = none) (hop : opQueues op = false)
    (hrun : ∀ u c, s.noted u → c.path = p → c.e = e → run u c = u.finish c { status := code }) :
    replied s (s.command p op e run) p e code ∧ s.alike (s.command p op e run) ∧
      sameRegs hostWord s (s.command p op e run) := by
  obtain ⟨u, c, hu, hpath, hent, hcmd⟩ := command_immediate run hq hc he hm hop
  have hnone : u.cmd.cmds = [] := hu.alike.cmds.trans hq.1.1
  obtain ⟨hfin, hwords, -⟩ := finish_spec c { status := code } hnone
  have hend := hu.alike.trans hfin
  have hidle : s.noArrivals p := fun x hx => by
    have := hc.2.2.2
    simp only [hx, Option.all_some, Bool.and_eq_true, List.isEmpty_iff] at this
    exact this.1.2
  rw [hcmd, hrun u c hu hpath hent, settle_of_quiet (hend.quiet hq), badHeads_of_noArrivals (hend.noArrivals hidle),
    ← hpath, ← hent]
  exact ⟨(replied_finish hu.done hnone).1, hend, sameRegs.trans hu.words hwords⟩

/-- REG_WRITE of SYS_RST with DEV_RST and another key ends with REG_REFUSED. -/
theorem runRegWrite_otherKey {s : State} {c : Cmd} (ha : c.e.arg0.toNat = SYS_RST) (hr : s.rstRefusal c.path = none)
    (hrst : c.e.arg1.getLsbD 0 = true) (hkey : bitsOf c.e.arg1.toNat 31 16 ≠ 0xA5C3) :
    s.runRegWrite c = s.finish c { status := stRegRefused } := by
  have hmap : isMapped SYS_RST = true := by decide
  unfold State.runRegWrite State.runSysRst
  simp only [ha, hmap, hr, hrst, hkey, Bool.not_true, Bool.false_eq_true, Bool.true_eq_false, if_false, if_true]
  exact finishWith_eq s c (by decide)

/-- Settles O56: the row answers and counts its message; REG_WRITE is a command that only answers (`command_answers`). -/
theorem resetWritesWithAnotherKeyDoNothing : Obligations.ResetWritesWithAnotherKeyDoNothing := by
  refine ⟨?row, ?command⟩
  case row =>
    intro p key s hsilent hr hkey
    have hk : key.toNat ≠ 0xA5C3 := fun h => hkey (BitVec.eq_of_toNat_eq h)
    have hrow : s.sysRst p key.toNat true = (s.rxMessage p false).status stRegRefused := by
      simp only [State.sysRst, hsilent, hr, hk, Bool.not_true, Bool.false_eq_true, if_false]
    refine ⟨_, congrArg Host.Outcome.next hrow, show stRegRefused / 0x1000 = 8 by decide, ?_, fun a ha => State.reg_rxMessage s p false ha⟩
    rw [State.rxMessage_eq]
    rfl
  case command =>
    intro p e s hq hc he hm ha hr hrst hkey
    obtain ⟨hreply, hsame, hwords⟩ := command_answers (code := stRegRefused) State.runRegWrite hq hc he hm rfl
      fun u c hu hpath hent => by
        subst hpath hent
        exact runRegWrite_otherKey ha ((rstRefusal_eq hu.alike hu.words _).trans hr) hrst hkey
    refine ⟨_, rfl, hreply, rfl, ?_⟩
    obtain ⟨_, _, _, hframe⟩ := hsame.frame
    have hregs : ∀ a, a / 0x10000 ≠ 9 ∧ a / 0x10000 ≠ 0xA → (s.command p opRegWrite e State.runRegWrite).reg a = s.reg a :=
      fun a ⟨h9, hA⟩ => hwords a (not_or.mpr ⟨h9, hA⟩)
    revert hregs
    rw [hframe]
    exact fun hregs => ⟨rfl, rfl, rfl, rfl, rfl, rfl, rfl, rfl, hregs⟩

end Sys2Proof.Machine
end

section
/-!
PROOFS of the statements of 01_architecture.md, continued: the screen of peer messages, an equation per outcome (O30).
-/

namespace Sys2Proof.Machine

open Sys2Proof

/-! ### The screen of peer messages (R315, R318, R319) -/

/-- Outside SERVE and DRAIN a message changes nothing. -/
theorem peerIn_deaf {s : State} {h : PeerHdr} (act : State → State) (hs : s.mode ≠ modeServe) (hd : s.mode ≠ modeDrain) :
    s.peerIn h act = s := if_pos ⟨hs, hd⟩

/-- The first test of the screen, passed in SERVE and DRAIN. -/
theorem mode_listens {s : State} (hm : s.mode = modeServe ∨ s.mode = modeDrain) :
    ¬ (s.mode ≠ modeServe ∧ s.mode ≠ modeDrain) := fun ⟨hs, hd⟩ => hm.elim hs hd

theorem peerIn_badTag {s : State} {h : PeerHdr} (act : State → State) (hm : s.mode = modeServe ∨ s.mode = modeDrain)
    (ha : h.auth = false) : s.peerIn h act = s.addSat PLC_PEER_CNT_BAD_TAG 1 := by
  simp only [State.peerIn, mode_listens hm, ha, Bool.not_false, if_false, if_true]

theorem peerIn_foreign {s : State} {h : PeerHdr} (act : State → State) (hm : s.mode = modeServe ∨ s.mode = modeDrain)
    (ha : h.auth = true) (hf : s.flag PLC_STAT_DM_VALID = false ∨ h.domain ≠ s.domainId) :
    s.peerIn h act = s.addSat PLC_PEER_CNT_FOREIGN 1 := by
  have hout : (!s.flag PLC_STAT_DM_VALID || h.domain != s.domainId) = true := by
    rcases hf with hf | hf <;> simp [hf]
  simp only [State.peerIn, mode_listens hm, ha, hout, Bool.not_true, Bool.false_eq_true, if_false, if_true]

/-- What the screen does with a message of the own domain under a good tag: it goes by the epoch. -/
theorem peerIn_ours {s : State} {h : PeerHdr} (act : State → State) (hm : s.mode = modeServe ∨ s.mode = modeDrain)
    (ha : h.auth = true) (hv : s.flag PLC_STAT_DM_VALID = true) (hd : h.domain = s.domainId) :
    s.peerIn h act =
      if s.get PLC_DM_EPOCH_EPOCH < h.epoch.toNat then
        act ((((s.seenMap h).set PLC_STAT_STALE 1).set PLC_STAT_PLACE_OK 0).plcFault 1 (h.epoch.toNat % 65536))
      else if h.epoch.toNat < s.get PLC_DM_EPOCH_EPOCH then
        s.tell h.src.toNat pmNack h.xid.toNat [rfStale, s.get PLC_DM_EPOCH_EPOCH, s.mapTag.toNat]
      else if h.tag ≠ s.mapTag then
        act (((((s.seenMap h).set PLC_STAT_STALE 1).set PLC_STAT_PLACE_OK 0).set PLC_STAT_CONFLICT 1).plcFault 2 h.src.toNat)
      else act s := by
  have hin : (!s.flag PLC_STAT_DM_VALID || h.domain != s.domainId) = false := by simp [hv, hd]
  simp only [State.peerIn, mode_listens hm, ha, hin, Bool.not_true, Bool.false_eq_true, if_false]

/-- The words of PLC once a map of a newer epoch is heard of: STALE is set, PLACE_OK clear, the fault counted. -/
def State.outdated (s : State) (h : PeerHdr) (arg : Nat) : State :=
  (((s.seenMap h).set PLC_STAT_STALE 1).set PLC_STAT_PLACE_OK 0).plcFault 1 arg

theorem peerIn_newer {s : State} {h : PeerHdr} (act : State → State) (hm : s.mode = modeServe ∨ s.mode = modeDrain)
    (ha : h.auth = true) (hv : s.flag PLC_STAT_DM_VALID = true) (hd : h.domain = s.domainId)
    (he : s.get PLC_DM_EPOCH_EPOCH < h.epoch.toNat) :
    s.peerIn h act = act (s.outdated h (h.epoch.toNat % 65536)) :=
  (peerIn_ours act hm ha hv hd).trans (if_pos he)

theorem peerIn_older {s : State} {h : PeerHdr} (act : State → State) (hm : s.mode = modeServe ∨ s.mode = modeDrain)
    (ha : h.auth = true) (hv : s.flag PLC_STAT_DM_VALID = true) (hd : h.domain = s.domainId)
    (he : h.epoch.toNat < s.get PLC_DM_EPOCH_EPOCH) :
    s.peerIn h act = s.tell h.src.toNat pmNack h.xid.toNat [rfStale, s.get PLC_DM_EPOCH_EPOCH, s.mapTag.toNat] := by
  rw [peerIn_ours act hm ha hv hd, if_neg (by omega), if_pos he]

/-- A message under the applied map is acted on. -/
theorem peerIn_hears {s : State} {h : PeerHdr} (act : State → State) (hh : s.hears h) : s.peerIn h act = act s := by
  obtain ⟨hm, ha, hv, hd, he, ht⟩ := hh
  rw [peerIn_ours act hm ha hv hd, if_neg (by omega), if_neg (by omega), if_neg (not_not.mpr ht)]

/-- The words that a newer map's epoch and tag are seen in are no words of the fault counts. -/
theorem State.reg_seenMap (s : State) (h : PeerHdr) {a : Nat} (ha : 0xF0000 ≤ a) : (s.seenMap h).reg a = s.reg a := by
  unfold State.seenMap
  split
  · rw [State.reg_set_apart _ _ (by dsimp only [PLC_DM_SEEN_TAG_HI]; omega),
      State.reg_set_apart _ _ (by dsimp only [PLC_DM_SEEN_TAG_LO]; omega),
      State.reg_set_apart _ _ (by dsimp only [PLC_DM_SEEN_TAG]; omega),
      State.reg_set_apart _ _ (by dsimp only [PLC_DM_SEEN_TAG]; omega),
      State.reg_set_apart _ _ (by dsimp only [PLC_DM_SEEN]; omega)]
  · rfl

theorem State.flag_outdated_stale (s : State) (h : PeerHdr) (arg : Nat) :
    (s.outdated h arg).flag PLC_STAT_STALE = true := by
  rw [State.outdated, State.plcFault, State.flag_raise_below _ (by decide),
    State.flag_set_other _ _ (by decide) (by decide), State.flag, State.get_set_here _ _ (by decide) (by decide)]
  rfl

theorem State.flag_outdated_placeOk (s : State) (h : PeerHdr) (arg : Nat) :
    (s.outdated h arg).flag PLC_STAT_PLACE_OK = false := by
  rw [State.outdated, State.plcFault, State.flag_raise_below _ (by decide), State.flag_set_zero _ (by decide)]

theorem State.count_outdated (s : State) (h : PeerHdr) (arg : Nat) :
    ((s.outdated h arg).reg (keySrc 0x060 0)).toNat = min 0xFFFFFFFF ((s.reg (keySrc 0x060 0)).toNat + 1) := by
  rw [State.outdated, State.plcFault, State.count_raise _ _ (by decide), State.reg_set_apart _ _ (by decide),
    State.reg_set_apart _ _ (by decide), State.reg_seenMap s h (by decide)]

theorem State.modPlc_flag (s : State) (f : PlcSt → PlcSt) (x : Fld) : (s.modPlc f).flag x = s.flag x := rfl

/-- A message told is the one more that the peers' queue holds. -/
theorem told_tell (s : State) (dst type xid : Nat) (body : List Nat) : told s (s.tell dst type xid body) [(dst, type)] := by
  simp [told, State.tell, State.modPlc]

/-- The rows of peer messages go through the screen. -/
theorem peerRow_screened {h : PeerHdr} {r : Instr}
    (hr : r = .bid h none 0 0 ∨ r = .award h ∨ r = .dataAck h [] ∨ r = .progress h ∨ r = .peerCommitted h 0 ∨
      r = .peerFailed h 0 ∨ r = .nack h 0 ∨ r = .tombAck h ∨ r = .hint h true 0 0 0 0 ∨ r = .hintReq h [] ∨
      r = .peerData h 0 1 [] 0 0) (s : State) : ∃ act, exec r s = .next (s.peerIn h act) := by
  rcases hr with rfl | rfl | rfl | rfl | rfl | rfl | rfl | rfl | rfl | rfl | rfl <;> exact ⟨_, rfl⟩

theorem State.set_eq (s : State) (f : Fld) (v : Nat) : s.set f v = { s with regs := (s.set f v).regs } := rfl

/-- A count raises its field, up to the greatest value, and changes no other word and nothing but registers. -/
theorem addSat_spec (s : State) {f : Fld} (hf : f.ok) (n : Nat) :
    (s.addSat f n).get f = min f.top (s.get f + n) ∧ s.addSat f n = { s with regs := (s.addSat f n).regs } ∧
      ∀ a, a ≠ f.addr → (s.addSat f n).reg a = s.reg a := by
  refine ⟨State.get_addSat_same s n hf, ?_, fun _ ha => State.reg_addSat_other s n ha⟩
  rw [State.addSat]
  exact State.set_eq s _ _

/-- Settles O30: each clause is a branch of the screen (`peerIn_*`), the last the answer kept for a repeated request. -/
theorem peerMessagesAreScreened : Obligations.PeerMessagesAreScreened := by
  refine ⟨?badTag, ?foreign, ?older, ?deaf, ?newer, ?repeated⟩
  case badTag =>
    intro h r s hr hm ha
    obtain ⟨act, hact⟩ := peerRow_screened hr s
    exact ⟨_, hact.trans (congrArg _ (peerIn_badTag act hm ha)), addSat_spec s (f := PLC_PEER_CNT_BAD_TAG) (by decide) 1⟩
  case foreign =>
    intro h r s hr hm ha hf
    obtain ⟨act, hact⟩ := peerRow_screened hr s
    exact ⟨_, hact.trans (congrArg _ (peerIn_foreign act hm ha hf)), addSat_spec s (f := PLC_PEER_CNT_FOREIGN) (by decide) 1⟩
  case older =>
    intro h r s hr hm ha hv hd he
    obtain ⟨act, hact⟩ := peerRow_screened hr s
    exact ⟨_, hact.trans (congrArg _ (peerIn_older act hm ha hv hd he)), told_tell s _ _ _ _, rfl⟩
  case deaf =>
    intro h r s hr hs hd
    obtain ⟨act, hact⟩ := peerRow_screened hr s
    exact ⟨_, hact.trans (congrArg _ (peerIn_deaf act hs hd)), rfl⟩
  case newer =>
    intro h s hm ha hv hd he
    refine ⟨_, congrArg Host.Outcome.next (peerIn_newer _ (.inl hm) ha hv hd he), ?_⟩
    generalize hu : s.outdated h _ = u
    refine ⟨?_, ?_, ?_⟩
    · rw [State.modPlc_flag, ← hu, State.flag_outdated_stale]
    · rw [State.modPlc_flag, ← hu, State.flag_outdated_placeOk]
    · rw [State.modPlc_reg, ← hu, State.count_outdated]
  case repeated =>
    intro h asks a s hh hfound
    refine ⟨_, congrArg Host.Outcome.next (peerIn_hears _ hh), ?_⟩
    rw [hfound]
    exact ⟨rfl, rfl⟩

end Sys2Proof.Machine
end

section
/-!
PROOFS of the statements of 01_architecture.md, continued: peer data and reads (O32). Each message comes to one operation of
the placement engine (queueing a job, answering a peer, taking a peer off a round, ending a unit); the rule of each comes
first.
-/

namespace Sys2Proof.Machine

open Sys2Proof

/-! ### Jobs of the arbiter -/

theorem State.arbOf_modArb (s : State) {st k : Nat} (f : StnArb → StnArb) (hst : st < 2) :
    (s.modArb st f).arbOf k = if st = k then f (s.arbOf st) else s.arbOf k := by
  by_cases h : st = k
  · subst h
    simp [State.modArb, State.arbOf, hst]
  · simp [State.modArb, State.arbOf, h]

/-- The job that a station works on changed as `modJob` changes it. -/
def State.modGranted (s : State) (id : Nat) (f : Job → Job) (st : Nat) : State :=
  match (s.arbOf st).job with
  | some j => if j.id = id then s.modArb st fun a => { a with job := some (f j) } else s
  | none => s

theorem modJob_eq (s : State) (id : Nat) (f : Job → Job) :
    s.modJob id f =
      (State.modGranted { s with arb := { s.arb with jobs := s.arb.jobs.map fun j => if j.id = id then f j else j } } id f
        0).modGranted id f 1 := rfl

/-- Only the station's own job changes. -/
theorem State.modGranted_spec (s : State) (id : Nat) (f : Job → Job) {st : Nat} (hst : st < 2) :
    (s.modGranted id f st).arb.jobs = s.arb.jobs ∧ (s.modGranted id f st).regs = s.regs ∧
      (s.modGranted id f st).plc = s.plc ∧
      ∀ k, ((s.modGranted id f st).arbOf k).job =
        if st = k then (s.arbOf k).job.map (fun j => if j.id = id then f j else j) else (s.arbOf k).job := by
  unfold State.modGranted
  split
  next j hj =>
    split
    next h =>
      refine ⟨rfl, rfl, rfl, fun k => ?_⟩
      rw [State.arbOf_modArb _ _ hst]
      split
      next hk => simp [← hk, hj, h]
      next => rfl
    next h =>
      refine ⟨rfl, rfl, rfl, fun k => ?_⟩
      split
      next hk => simp [← hk, hj, h]
      next => rfl
  next hj =>
    refine ⟨rfl, rfl, rfl, fun k => ?_⟩
    split
    next hk => simp [← hk, hj]
    next => rfl

theorem mem_allJobs {s : State} {j : Job} : j ∈ s.allJobs ↔ j ∈ s.arb.jobs ∨ ∃ st < 2, (s.arbOf st).job = some j := by
  simp [State.allJobs]

/-- A job changed is held as changed. -/
theorem mem_modJob {s : State} {j : Job} (f : Job → Job) (hj : j ∈ s.allJobs) : f j ∈ (s.modJob j.id f).allJobs := by
  rw [modJob_eq]
  generalize hu : State.mk .. = u
  have harb : ∀ k, (u.arbOf k).job = (s.arbOf k).job := fun k => by rw [← hu]; rfl
  have hjobs : u.arb.jobs = s.arb.jobs.map fun x => if x.id = j.id then f x else x := by rw [← hu]
  obtain ⟨h0, -, -, k0⟩ := State.modGranted_spec u j.id f (st := 0) (by decide)
  obtain ⟨h1, -, -, k1⟩ := State.modGranted_spec (u.modGranted j.id f 0) j.id f (st := 1) (by decide)
  rcases mem_allJobs.mp hj with hj | ⟨st, hst, hj⟩
  · refine mem_allJobs.mpr (.inl ?_)
    rw [h1, h0, hjobs]
    exact List.mem_map.mpr ⟨j, hj, if_pos rfl⟩
  · refine mem_allJobs.mpr (.inr ⟨st, hst, ?_⟩)
    rw [k1, k0, harb, hj]
    have : st = 0 ∨ st = 1 := by omega
    rcases this with rfl | rfl <;> simp

theorem modJob_frame (s : State) (id : Nat) (f : Job → Job) :
    (s.modJob id f).plc = s.plc ∧ (s.modJob id f).regs = s.regs := by
  rw [modJob_eq]
  obtain ⟨-, r1, p1, -⟩ := State.modGranted_spec (State.modGranted _ id f 0) id f (st := 1) (by decide)
  obtain ⟨-, r0, p0, -⟩ := State.modGranted_spec _ id f (st := 0) (by decide)
  exact ⟨p1.trans p0, r1.trans r0⟩

/-- A unit queued stands in a job of its kind for its station and slot, whether that job was there or is new. -/
theorem enqueue_spec (s : State) (k : JobKind) (t : Nat) (cmd : Option Nat) (st slot : Nat) (write : Bool) (u : JobUnit) :
    (∃ j ∈ (s.enqueue k t cmd st slot write u).allJobs, j.kind = k ∧ j.station = st ∧ j.slot = some slot ∧
      j.write = write ∧ u ∈ j.units) ∧
      (s.enqueue k t cmd st slot write u).plc = s.plc ∧ (s.enqueue k t cmd st slot write u).regs = s.regs := by
  unfold State.enqueue
  dsimp only
  split
  next h =>
    obtain ⟨j, hj, hsame⟩ := List.any_eq_true.mp h
    simp only [Bool.and_eq_true, Bool.or_eq_true, beq_iff_eq, List.contains_iff_mem, List.isEmpty_iff] at hsame
    obtain ⟨⟨⟨⟨⟨hk, -⟩, hst⟩, hslot⟩, hw⟩, hmem⟩ := hsame
    exact ⟨⟨j, hj, hk, hst, hslot.resolve_right (List.ne_nil_of_mem hmem), hw, hmem⟩, rfl, rfl⟩
  next =>
    split
    next j hfind =>
      have hsame := List.find?_some hfind
      simp only [Bool.and_eq_true, beq_iff_eq] at hsame
      obtain ⟨⟨⟨⟨⟨hk, -⟩, hst⟩, -⟩, hw⟩, -⟩ := hsame
      exact ⟨⟨_, mem_modJob _ (List.mem_of_find?_eq_some hfind), hk, hst, rfl, hw, by simp⟩, modJob_frame s _ _⟩
    next =>
      refine ⟨⟨_, mem_allJobs.mpr (.inl (List.mem_append_right _ (List.mem_singleton.mpr rfl))), rfl, rfl, rfl, rfl, ?_⟩,
        rfl, rfl⟩
      exact List.mem_singleton.mpr rfl

/-! ### What comes due where no command, version or search is open -/

/-- With no command, open version, search, tombstone or migration, nothing comes due, whatever units are under way. -/
theorem settle_of_still {s : State} (h : s.still) : s.settle = s := by
  obtain ⟨hcmds, hopens, hsearches, htombs, hmig⟩ := h
  have htomb : s.tombsDone = s := by
    simp only [State.tombsDone, htombs, State.modPlc, List.filter_nil, List.foldl_nil]
    rw [← htombs]
  have hone : s.settleOne = none := by simp [State.settleOne, hcmds, hopens, hsearches]
  have hfor : ∀ n, State.settleFor n s = s := fun n => by cases n <;> simp [State.settleFor, hone]
  rw [State.settle, htomb, State.migNext, hmig, hfor]

/-! ### Units under way -/

theorem unitN_modUnit {s : State} {n : Nat} {u : UnitSt} {f : UnitSt → UnitSt} (hu : s.unitN n = some u)
    (hf : ∀ x, (f x).n = x.n) : (s.modUnit n f).unitN n = some (f u) := by
  have hn : ∀ x : UnitSt, (if x.n = n then f x else x).n = x.n := fun x => by split <;> simp [hf]
  have hun : u.n = n := by simpa using List.find?_some hu
  have hfind : (s.plc.units.find? fun u => u.n == n) = some u := hu
  simp [State.unitN, State.modUnit, State.modPlc, List.find?_map, hn, hfind, hun]

theorem still_modUnit {s : State} (h : s.still) (n : Nat) (f : UnitSt → UnitSt) : (s.modUnit n f).still := h

/-! ### Segments sent again -/

/-- What a segment sent again tells its peer, and the time taken anew. -/
def State.resend (s : State) (now : Nat) (x : Sending) : State :=
  (s.modPlc fun p => { p with sending := p.sending.map fun y =>
    if y.xid = x.xid ∧ y.dev = x.dev then { y with at_ := now } else y }).tell x.dev pmData x.xid x.segs

/-- Sent again, every segment named is told to its peer in turn, and the exchanges of those peers take the time. -/
theorem resend_all (now : Nat) (l : List Sending) (s : State) :
    (l.foldl (fun t x => t.resend now x) s).plc.sending =
        s.plc.sending.map (fun y => if ∃ x ∈ l, y.xid = x.xid ∧ y.dev = x.dev then { y with at_ := now } else y) ∧
      (l.foldl (fun t x => t.resend now x) s).plc.out =
        s.plc.out ++ l.map (fun x => { dst := x.dev, type := pmData, xid := x.xid, body := x.segs }) ∧
      (l.foldl (fun t x => t.resend now x) s).regs = s.regs := by
  induction l generalizing s with
  | nil => simp
  | cons x l ih =>
    obtain ⟨hsend, hout, hregs⟩ := ih (s.resend now x)
    refine ⟨?_, ?_, hregs⟩
    · rw [List.foldl_cons, hsend]
      simp only [State.resend, State.tell, State.modPlc, List.map_map]
      refine List.map_congr_left fun y _ => ?_
      dsimp only [Function.comp_apply]
      by_cases hx : y.xid = x.xid ∧ y.dev = x.dev
      · rw [if_pos hx, if_pos (⟨x, List.mem_cons_self, hx⟩ : ∃ z ∈ x :: l, y.xid = z.xid ∧ y.dev = z.dev)]
        exact ite_self _
      · have hiff : (∃ z ∈ x :: l, y.xid = z.xid ∧ y.dev = z.dev) ↔ ∃ z ∈ l, y.xid = z.xid ∧ y.dev = z.dev := by
          simp [hx]
        simp only [if_neg hx, hiff]
    · rw [List.foldl_cons, hout]
      simp [State.resend, State.tell, State.modPlc]

theorem execDataRetransmit_eq (xid : BitVec 32) (s : State) :
    execDataRetransmit xid s = .next ((s.plc.sending.filter fun x => x.xid == xid.toNat &&
      decide (x.at_ + 500 ≤ s.tick)).foldl (fun t x => t.resend s.tick x) s) := rfl

/-! ### What peers answer -/

/-- A request that repeats none of the last second is acted on. -/
theorem peerRequest_fresh {s : State} {h : PeerHdr} (act : State → State) (hh : s.hears h) (hf : s.fresh h) :
    s.peerRequest h act = act s := by
  have hnone : (s.plc.answered.find? fun a => a.1 == h.src.toNat && a.2.1 == h.xid.toNat &&
      decide (s.tick < a.2.2.2 + 500000)) = none := by
    rw [List.find?_eq_none]
    exact List.any_eq_false.mp hf
  rw [State.peerRequest, peerIn_hears _ hh, hnone]

/-- A reply is the one more message, and changes nothing else than what is kept of answers. -/
theorem reply_spec (s : State) (dst type xid : Nat) (body : List Nat) :
    told s (s.reply dst type xid body) [(dst, type)] ∧
      ((s.reply dst type xid body).plc.out.getLast?).map (fun m => m.body) = some body ∧
      (s.reply dst type xid body).plc.reads = s.plc.reads ∧ (s.reply dst type xid body).regs = s.regs := by
  refine ⟨?_, ?_, rfl, rfl⟩ <;> simp [told, State.reply, State.tell, State.modPlc]

/-- Segments acknowledged are told to their sender, and nothing else changes. -/
theorem ackSegs_spec (s : State) (h : PeerHdr) (seg total : Nat) (segs : List Nat) :
    told s (s.ackSegs h seg total segs)
        (if segs.length % 64 = 0 ∨ seg + 1 = total ∨ segs.length = total then [(h.src.toNat, pmDataAck)] else []) ∧
      (s.ackSegs h seg total segs).plc.held = s.plc.held ∧ (s.ackSegs h seg total segs).regs = s.regs := by
  unfold State.ackSegs
  split
  · exact ⟨told_tell s _ _ _ _, rfl, rfl⟩
  · exact ⟨by simp [told], rfl, rfl⟩

/-! ### Refused and failed units -/

/-- A device that none of the units' copies are placed on fails none. -/
theorem copyFailed_none {s : State} {dev : Nat} {f : UnitSt → Bool} (h : (s.plc.units.any fun w => f w) = false) :
    s.copyFailed dev f = s := by
  have hnone : (s.plc.units.find? fun u => f u && u.atts.any fun a => a.dev == dev && a.st == .running) = none := by
    rw [List.find?_eq_none]
    intro u hu
    simp [List.any_eq_false.mp h u hu]
  rw [State.copyFailed, hnone]

/-- A round that still waits for an answer is not decided. -/
theorem bidsIn_waits {s : State} {n e : Nat} {l : List Nat} {u : UnitSt} (hu : s.unitN n = some u) (ha : u.asked = e :: l) :
    s.bidsIn n = s := by
  simp [State.bidsIn, hu, ha]

/-- The only copy under way of the only unit fails, and it is no copy that may be placed again: the unit's end is tested. -/
theorem copyFailed_replaced {s : State} {u : UnitSt} {a : Attempt} {f : UnitSt → Bool} (hu : s.plc.units = [u])
    (hf : f u = true) (hatts : u.atts = [a]) (hst : a.st = .running) (hrepl : u.replaced.contains a.dev = true) :
    s.copyFailed a.dev f =
      (s.modUnit u.n fun x => { x with atts := x.atts.map fun b =>
        if b.dev = a.dev ∧ b.st = .running then { b with st := .failed } else b }).unitCheck u.n := by
  have hfind : (s.plc.units.find? fun x => f x && x.atts.any fun b => b.dev == a.dev && b.st == .running) = some u := by
    simp [hu, hf, hatts, hst]
  simp only [State.copyFailed, hfind, hrepl, true_or, or_true, if_true]

/-- A migration whose only copy failed ends: the unit is left out of the move. -/
theorem unitCheck_migFailed {s : State} {u : UnitSt} {a : Attempt} (hu : s.unitN u.n = some u) (hp : u.phase = .placed)
    (hatts : u.atts = [a]) (hst : a.st = .failed) (hmig : u.mig = true) (hr : u.rerepl = false) (hag : u.again = false) :
    s.unitCheck u.n =
      s.modPlc fun p => { p with units := p.units.filter fun x => x.n != u.n, migSkip := p.migSkip ++ [u.id] } := by
  have hrun : u.running = false := by simp [UnitSt.running, hatts, hst]
  simp [State.unitCheck, hu, hp, hrun, hmig, hr, hag, hatts, hst, State.failUnit]

/-- A refusal that fails no copy, no read and no fetch takes the peer off the round it was asked in. -/
theorem peerRefused_asked {s : State} {dev xid e : Nat} {l : List Nat} {u : UnitSt} (hs : s.still)
    (hfind : (s.plc.units.find? fun u => u.xid == xid && u.asked.contains dev) = some u) (hu : s.unitN u.n = some u)
    (hleft : u.asked.filter (fun d => d != dev) = e :: l) (hcopy : (s.plc.units.any fun w => ofXid dev xid w) = false)
    (hfetch : (s.plc.units.any fun w => w.rerepl && w.phase == .fetch && w.xid == xid) = false) :
    s.peerRefused dev xid = s.modUnit u.n fun x => { x with asked := x.asked.filter fun d => d != dev } := by
  have hnone : (s.plc.units.find? fun u => u.rerepl && u.phase == .fetch && u.xid == xid) = none := by
    rw [List.find?_eq_none]
    exact List.any_eq_false.mp hfetch
  have hmod : (s.modUnit u.n fun x => { x with asked := x.asked.filter fun d => d != dev }).unitN u.n =
      some { u with asked := u.asked.filter fun d => d != dev } := 
    unitN_modUnit hu fun _ => rfl
  have hwaits := bidsIn_waits hmod hleft
  have hcmds := hs.1
  unfold State.peerRefused
  simp only [copyFailed_none hcopy, hcmds, List.findSome?_nil, hnone, hfind, hwaits]
  have hstill := still_modUnit hs u.n fun x => { x with asked := x.asked.filter fun d => d != dev }
  rw [hstill.1, List.foldl_nil, settle_of_still hstill]

/-- The same where the refused copy ends the migration of the only unit. -/
theorem peerRefused_migration {s : State} {u : UnitSt} {a : Attempt} (hs : s.still) (hu : s.plc.units = [u])
    (hp : u.phase = .placed) (hatts : u.atts = [a]) (hst : a.st = .running) (hmig : u.mig = true) (hr : u.rerepl = false)
    (hag : u.again = false) (hrepl : u.replaced.contains a.dev = true) :
    (s.peerRefused a.dev a.xid).plc.units = [] ∧ (s.peerRefused a.dev a.xid).plc.migSkip = s.plc.migSkip ++ [u.id] := by
  have hof : ofXid a.dev a.xid u = true := by simp [ofXid, hatts]
  have hcheck := copyFailed_replaced hu hof hatts hst hrepl
  generalize hw : (s.modUnit u.n fun x => { x with atts := x.atts.map fun b =>
    if b.dev = a.dev ∧ b.st = .running then { b with st := .failed } else b }) = w at hcheck
  have hunits : w.plc.units = [{ u with atts := [{ a with st := .failed }] }] := by
    simp [← hw, State.modUnit, State.modPlc, hu, hatts, hst]
  have hskip : w.plc.migSkip = s.plc.migSkip := by rw [← hw]; rfl
  have hstill : w.still := by rw [← hw]; exact still_modUnit hs _ _
  have hend : w.unitCheck u.n = w.modPlc fun p =>
      { p with units := p.units.filter fun x => x.n != u.n, migSkip := p.migSkip ++ [u.id] } :=
    unitCheck_migFailed (u := { u with atts := [{ a with st := .failed }] }) (by simp [State.unitN, hunits]) hp rfl rfl hmig
      hr hag
  rw [hend] at hcheck
  generalize hv : (w.modPlc fun p => { p with units := p.units.filter fun x => x.n != u.n, migSkip := p.migSkip ++ [u.id] }) = v
    at hcheck
  have hnone : v.plc.units = [] := by simp [← hv, State.modPlc, hunits]
  have hvstill : v.still := by rw [← hv]; exact hstill
  have hres : s.peerRefused a.dev a.xid = v := by
    unfold State.peerRefused
    simp only [hcheck, hvstill.1, hnone, List.findSome?_nil, List.find?_nil, List.foldl_nil]
    exact settle_of_still hvstill
  rw [hres]
  exact ⟨hnone, by rw [← hv, ← hskip]; rfl⟩

/-! ### The records and faults of a failed re-replication -/

/-- A record is put into a log that keeps the last 65,536; beside the log only its words in CMD change. -/
theorem logPut_eq (s : State) (r : LogRec) : ∃ l old, l.length = min 65536 (s.cmd.log.length + 1) ∧
    s.logPut r = ({ s with cmd := { s.cmd with log := l } }.incWrap CMD_LOG_NEXT_SEQ).set CMD_LOG_OLD_SEQ old := by
  unfold State.logPut
  dsimp only
  generalize hl : List.drop _ _ = l
  refine ⟨l, _, ?_, rfl⟩
  rw [← hl, List.length_drop, List.length_append, List.length_singleton]
  omega

/-- What a record leaves: the log is one longer while it has room; no fault is counted. -/
theorem logPut_spec (s : State) (r : LogRec) :
    (s.logPut r).plc = s.plc ∧ (s.logPut r).cmd.cmds = s.cmd.cmds ∧
      (s.logPut r).cmd.log.length = min 65536 (s.cmd.log.length + 1) ∧
      ∀ a, 0xF0000 ≤ a → (s.logPut r).reg a = s.reg a := by
  obtain ⟨l, old, hl, h⟩ := logPut_eq s r
  rw [← hl, h, State.set_plc, State.incWrap_plc, State.set_cmd, State.incWrap_cmd]
  refine ⟨rfl, rfl, rfl, fun a ha => ?_⟩
  rw [State.incWrap, State.reg_set_apart _ _ (by simp only [CMD_LOG_OLD]; omega),
    State.reg_set_apart _ _ (by simp only [CMD_LOG_NEXT]; omega)]
  rfl

theorem State.raise_plc (s : State) (src kind arg : Nat) : (s.raise src kind arg).plc = s.plc := by
  obtain ⟨_, _, h⟩ := State.upToFaults.raise s src kind arg
  rw [h]

theorem State.raise_cmd (s : State) (src kind arg : Nat) : (s.raise src kind arg).cmd = s.cmd := by
  obtain ⟨_, _, h⟩ := State.upToFaults.raise s src kind arg
  rw [h]

/-- A fault of the command engine, after the deferred errors are noted, leaves commands, log and the other faults. -/
theorem raiseDeferred_spec (s : State) (l : List (Nat × Nat × Nat)) (t : Nat) :
    (State.raise { s with cmd := { s.cmd with deferredErr := l } } 0x080 2 t).plc = s.plc ∧
      (State.raise { s with cmd := { s.cmd with deferredErr := l } } 0x080 2 t).cmd.cmds = s.cmd.cmds ∧
      (State.raise { s with cmd := { s.cmd with deferredErr := l } } 0x080 2 t).cmd.log = s.cmd.log ∧
      (State.raise { s with cmd := { s.cmd with deferredErr := l } } 0x080 2 t).reg (keySrc 0x060 0) =
        s.reg (keySrc 0x060 0) := by
  rw [State.raise_plc, State.raise_cmd, State.reg_raise_other _ (by decide) (by decide)]
  exact ⟨rfl, rfl, rfl, rfl⟩

theorem deferError_eq (s : State) (t : Nat) (r : LogRec) : ∃ l, s.deferError t r =
    State.raise { s.logPut { r with type := logDeferred, tenant := t } with
      cmd := { (s.logPut { r with type := logDeferred, tenant := t }).cmd with deferredErr := l } } 0x080 2 t := ⟨_, rfl⟩

/-- An error kept for a tenant is one record and one fault of the command engine. -/
theorem deferError_spec (s : State) (t : Nat) (r : LogRec) :
    (s.deferError t r).plc = s.plc ∧ (s.deferError t r).cmd.cmds = s.cmd.cmds ∧
      (s.deferError t r).cmd.log.length = min 65536 (s.cmd.log.length + 1) ∧
      (s.deferError t r).reg (keySrc 0x060 0) = s.reg (keySrc 0x060 0) := by
  obtain ⟨hplc, hcmds, hlog, hreg⟩ := logPut_spec s { r with type := logDeferred, tenant := t }
  obtain ⟨l, h⟩ := deferError_eq s t r
  obtain ⟨kplc, kcmds, klog, kreg⟩ := raiseDeferred_spec (s.logPut { r with type := logDeferred, tenant := t }) l t
  rw [h]
  exact ⟨kplc.trans hplc, kcmds.trans hcmds, (congrArg List.length klog).trans hlog, kreg.trans (hreg _ (by decide))⟩

/-- A re-replication given up leaves its fault of the placement engine and two records. -/
theorem rereplFail_spec (s : State) (u : UnitSt) :
    (s.rereplFail u).plc = { s.plc with units := s.plc.units.filter fun x => x.n != u.n } ∧
      (s.rereplFail u).cmd.cmds = s.cmd.cmds ∧
      (s.rereplFail u).cmd.log.length = min 65536 (s.cmd.log.length + 2) ∧
      ((s.rereplFail u).reg (keySrc 0x060 0)).toNat = min 0xFFFFFFFF ((s.reg (keySrc 0x060 0)).toNat + 1) := by
  obtain ⟨dev, r, r', h⟩ : ∃ dev r r', s.rereplFail u =
      (((s.modPlc fun p => { p with units := p.units.filter fun x => x.n != u.n }).raise 0x060 6 dev).logPut r).deferError
        u.id.tenant r' := ⟨_, _, _, rfl⟩
  rw [h]
  generalize ht : (s.modPlc fun p => { p with units := p.units.filter fun x => x.n != u.n }) = t
  have htplc : t.plc = { s.plc with units := s.plc.units.filter fun x => x.n != u.n } := by rw [← ht]; rfl
  have htcmd : t.cmd = s.cmd := by rw [← ht]; rfl
  have htreg : t.reg (keySrc 0x060 0) = s.reg (keySrc 0x060 0) := by rw [← ht]; rfl
  generalize hv : t.raise 0x060 6 dev = v
  have hvplc : v.plc = t.plc := by rw [← hv, State.raise_plc]
  have hvcmd : v.cmd = t.cmd := by rw [← hv, State.raise_cmd]
  have hvcount : (v.reg (keySrc 0x060 0)).toNat = min 0xFFFFFFFF ((t.reg (keySrc 0x060 0)).toNat + 1) := by
    rw [← hv, State.count_raise _ _ (by decide)]
  obtain ⟨hplc, hcmds, hlog, hreg⟩ := logPut_spec v r
  obtain ⟨kplc, kcmds, klog, kreg⟩ := deferError_spec (v.logPut r) u.id.tenant r'
  refine ⟨?_, ?_, ?_, ?_⟩
  · rw [kplc, hplc, hvplc, htplc]
  · rw [kcmds, hcmds, hvcmd, htcmd]
  · rw [klog, hlog, hvcmd, htcmd]
    omega
  · rw [kreg, hreg _ (by decide), hvcount, htreg]

/-! ### Reads of re-replications -/

/-- The exchange with the peer asked last ended without an answer: the next holder that is up is asked. -/
theorem rereplNext_asks {s : State} {u : UnitSt} {d : Nat} {l : List Nat}
    (hl : u.cands.filter (fun d => !s.isDown d) = d :: l) :
    s.rereplNext u =
      (s.newXid.2.modUnit u.n fun x => { x with xid := s.newXid.1, cands := l, used := [] }).tell d pmReadReq s.newXid.1
        [u.id.tenant, u.id.key, u.id.ver, u.id.unit, 0, u.len] := by
  simp only [State.rereplNext, hl]

theorem execPeerReadTimeout_rerepl {xid : BitVec 32} {u : UnitSt} {s : State} (hs : s.still)
    (hu : (s.plc.units.find? fun u => u.rerepl && u.phase == .fetch && u.xid == xid.toNat) = some u) :
    execPeerReadTimeout xid s = .next (s.rereplNext u).settle := by
  simp only [execPeerReadTimeout, hs.1, List.findSome?_nil, hu]

/-! ### Segments of a unit held -/

/-- The unit held with one more segment and the length, total and flags that came with it. -/
def Incoming.gather (o : Incoming) (n : Nat) (data : List Byte) (total len flags : Nat) : Incoming :=
  { o with
    segs := if o.segs.contains n then o.segs else o.segs ++ [n]
    parts := if o.segs.contains n then o.parts else o.parts ++ [(n, data)]
    total := total, len := len, flags := flags }

theorem execPeerData_held {h : PeerHdr} {seg total : BitVec 13} {data : List Byte} {len : BitVec 23} {flags : BitVec 8}
    {o : Incoming} {s : State} (hh : s.hears h) (hheld : s.plc.held = [o]) (hsrc : o.src = h.src.toNat)
    (hxid : o.xid = h.xid.toNat) :
    execPeerData h seg total data len flags s =
      .next ((s.modPlc fun p => { p with held := [o.gather seg.toNat data total.toNat len.toNat flags.toNat] }).ackSegs h
        seg.toNat total.toNat (o.gather seg.toNat data total.toNat len.toNat flags.toNat).segs) := by
  have hfind : (s.plc.held.find? fun o => o.src == h.src.toNat && o.xid == h.xid.toNat) = some o := by
    simp [hheld, hsrc, hxid]
  simp only [execPeerData, peerIn_hears _ hh, hfind]
  simp only [State.modPlc, hheld, List.map_cons, List.map_nil, hsrc, hxid, and_self, if_true, Incoming.gather]

/-- Settles O32: each message passes the screen (`peerIn_hears`); what it leaves is the spec of the operation it comes to. -/
theorem peerDataAndReadsAreServed : Obligations.PeerDataAndReadsAreServed := by
  refine ⟨?data, ?ack, ?resend, ?drain, ?noKey, ?served, ?asked, ?migration, ?next, ?failed⟩
  case data =>
    intro h seg total data len flags o s hh hheld hsrc hxid
    refine ⟨_, execPeerData_held hh hheld hsrc hxid, ?_⟩
    obtain ⟨htold, hkept, hregs⟩ := ackSegs_spec
      (s.modPlc fun p => { p with held := [o.gather seg.toNat data total.toNat len.toNat flags.toNat] }) h seg.toNat
      total.toNat (o.gather seg.toNat data total.toNat len.toNat flags.toNat).segs
    exact ⟨by rw [hkept]; rfl, htold, hregs⟩
  case ack =>
    intro h segs s hh
    refine ⟨_, congrArg Host.Outcome.next (peerIn_hears _ hh), ?_, ?_, rfl⟩
    · intro x hx hdev hxid n hn hmem
      obtain ⟨hx, -⟩ := List.mem_filter.mp hx
      obtain ⟨y, -, rfl⟩ := List.mem_map.mp hx
      by_cases hy : y.dev = h.src.toNat ∧ y.xid = h.xid.toNat
      · rw [if_pos hy] at hmem
        have hkept := (List.mem_filter.mp hmem).2
        simp only [Bool.not_eq_true', List.any_eq_false, beq_iff_eq] at hkept
        exact hkept n hn rfl
      · rw [if_neg hy] at hdev hxid
        exact hy ⟨hdev, hxid⟩
    · intro x hx hother hsegs
      refine List.mem_filter.mpr ⟨List.mem_map.mpr ⟨x, hx, if_neg hother⟩, ?_⟩
      simpa using hsegs
  case resend =>
    intro xid s
    refine ⟨_, execDataRetransmit_eq xid s, ?_⟩
    obtain ⟨hsend, hout, hregs⟩ := resend_all s.tick
      (s.plc.sending.filter fun x => x.xid == xid.toNat && decide (x.at_ + 500 ≤ s.tick)) s
    refine ⟨?_, ?_, ?_, hregs⟩
    · intro x hx hxid
      rw [hsend] at hx
      obtain ⟨y, hy, rfl⟩ := List.mem_map.mp hx
      split at hxid
      next h =>
        rw [if_pos h]
        simp
      next h =>
        rw [if_neg h]
        by_contra hold
        exact h ⟨y, List.mem_filter.mpr ⟨hy, by simp [hxid]; omega⟩, rfl, rfl⟩
    · simp [told, hout]
    · rw [hsend, List.map_map]
      refine List.map_congr_left fun y _ => ?_
      dsimp only [Function.comp_apply]
      split <;> rfl
  case drain =>
    intro h u start len s hh hf hm
    refine ⟨_, congrArg Host.Outcome.next (peerRequest_fresh _ hh hf), ?_⟩
    rw [if_pos hm]
    obtain ⟨htold, -, hreads, hregs⟩ := reply_spec s h.src.toNat pmNack h.xid.toNat
      [rfDraining, s.get PLC_DM_EPOCH_EPOCH, s.mapTag.toNat]
    exact ⟨htold, hreads, hregs⟩
  case noKey =>
    intro h u start len s hh hf hm hnew hkey
    have hkey' : s.hasKey (unitRefId u).tenant = false := hkey
    refine ⟨_, congrArg Host.Outcome.next (peerRequest_fresh _ hh hf), ?_⟩
    rw [if_neg (by rw [hm]; decide), hnew, hkey']
    simp only [Bool.false_eq_true, Bool.not_false, if_false, if_true]
    exact reply_spec s h.src.toNat pmFailed h.xid.toNat [rfNoKey]
  case served =>
    intro h u start len m st k s hh hf hm hnew hkey hent hwhere
    have hkey' : s.hasKey (unitRefId u).tenant = true := hkey
    refine ⟨_, congrArg Host.Outcome.next (peerRequest_fresh _ hh hf), ?_⟩
    rw [if_neg (by rw [hm]; decide), hnew, hkey']
    simp only [Bool.false_eq_true, Bool.not_true, if_false, hent, hwhere]
    obtain ⟨hjob, hplc, hregs⟩ := enqueue_spec (s.modPlc fun p => { p with reads := p.reads ++
      [{ src := h.src.toNat, xid := h.xid.toNat, id := unitRefId u, from_ := start.toNat, len := len.toNat }] })
      .peer (unitRefId u).tenant none st m.slot false (readUnit m)
    exact ⟨by rw [hplc]; rfl, hjob, by rw [hplc]; rfl, hregs⟩
  case asked =>
    intro h reason u e l s hh hs hfind hu hleft hcopy hfetch
    refine ⟨_, congrArg Host.Outcome.next ((peerIn_hears _ hh).trans (peerRefused_asked hs hfind hu hleft hcopy hfetch)), ?_,
      rfl⟩
    have hunit := unitN_modUnit (f := fun x => { x with asked := x.asked.filter fun d => d != h.src.toNat }) hu fun _ => rfl
    rw [hunit]
    simp [hleft]
  case migration =>
    intro h reason u a s hh hs hu hp hatts hdev hxid hst hmig hr hag _ hrepl
    refine ⟨_, congrArg Host.Outcome.next (peerIn_hears _ hh), ?_⟩
    rw [← hdev, ← hxid]
    exact peerRefused_migration hs hu hp hatts hst hmig hr hag hrepl
  case next =>
    intro xid u d l s hs hfind hu hl
    have hphase : u.phase = .fetch := by
      have := List.find?_some hfind
      simp only [Bool.and_eq_true, beq_iff_eq] at this
      exact this.1.2
    obtain ⟨t, ht⟩ : ∃ t, t = s.rereplNext u := ⟨_, rfl⟩
    have hstill : t.still := by rw [ht, rereplNext_asks hl]; exact hs
    refine ⟨t, ?_, ?_, ?_, ?_⟩
    · change execPeerReadTimeout xid s = _
      rw [execPeerReadTimeout_rerepl hs hfind, ← ht, settle_of_still hstill]
    · rw [ht, rereplNext_asks hl]
      exact told_tell _ _ _ _ _
    · rw [ht, rereplNext_asks hl]
      have hnew : s.newXid.2.unitN u.n = some u := hu
      have hunit := unitN_modUnit (f := fun x => { x with xid := s.newXid.1, cands := l, used := [] }) hnew fun _ => rfl
      refine (congrArg (Option.map _) hunit).trans ?_
      simp [hphase]
    · rw [ht, rereplNext_asks hl]
      rfl
  case failed =>
    intro xid u s hs hu hr hp hxid hc
    have hfind : (s.plc.units.find? fun u => u.rerepl && u.phase == .fetch && u.xid == xid.toNat) = some u := by
      simp [hu, hr, hp, hxid]
    have hnext : s.rereplNext u = s.rereplFail u := by simp [State.rereplNext, hc]
    obtain ⟨hplc, hcmds, hlog, hcount⟩ := rereplFail_spec s u
    obtain ⟨t, ht⟩ : ∃ t, t = s.rereplFail u := ⟨_, rfl⟩
    rw [← ht] at hnext hplc hcmds hlog hcount
    have hstill : t.still := by
      obtain ⟨h1, h2, h3, h4, h5⟩ := hs
      unfold State.still
      rw [hcmds, hplc]
      exact ⟨h1, h2, h3, h4, h5⟩
    refine ⟨t, ?_, ?_, hcount, hlog⟩
    · change execPeerReadTimeout xid s = _
      rw [execPeerReadTimeout_rerepl hs hfind, hnext, settle_of_still hstill]
    · rw [hplc]
      simp [hu]

end Sys2Proof.Machine
end

section
/-!
SUPPORT. What the operations of a tick leave of the SYS block: an operation that writes registers of other blocks only, and
other records than that of modes, shows the same `State.sysView`. One lemma per operation, in the order of the model's files,
by unfolding it and peeling the operations below it. With
`-implicitDefEqProofs` every step cites its lemma, so that the kernel does not evaluate the states.
-/

namespace Sys2Proof.Machine

open Sys2Proof

/-- What the SYS block shows: the boundary count, the record of modes, the words of its registers. -/
structure SysView where
  tick : Nat
  sys : SysSt
  word : Fin 0x10000 → Word

/-- The view of a state. -/
def State.sysView (s : State) : SysView := ⟨s.tick, s.sys, fun a => s.reg a⟩

@[simp] theorem State.setReg_sysView (s : State) {a : Nat} (v : Word) (h : 0x10000 ≤ a) :
    (s.setReg a v).sysView = s.sysView := by
  have hw : ∀ b : Fin 0x10000, (s.setReg a v).reg b = s.reg b := fun b => State.reg_setReg_other s v (by omega)
  simp only [State.sysView, hw, State.setReg_tick, State.setReg_sys]

@[simp] theorem State.setReg_sysView_at (s : State) {a k : Nat} (v : Word) (h : 0x10000 ≤ a) :
    (s.setReg (a + k) v).sysView = s.sysView := State.setReg_sysView s _ (Nat.le_add_right_of_le h)

@[simp] theorem State.setReg_sysView_at2 (s : State) {a k l : Nat} (v : Word) (h : 0x10000 ≤ a) :
    (s.setReg (a + k + l) v).sysView = s.sysView := State.setReg_sysView s _ (by omega)

@[simp] theorem State.set_sysView (s : State) {f : Fld} (v : Nat) (h : 0x10000 ≤ f.addr) :
    (s.set f v).sysView = s.sysView :=
  State.setReg_sysView s _ h

@[simp] theorem State.set_sysView_at (s : State) {a k hi lo : Nat} (v : Nat) (h : 0x10000 ≤ a) :
    (s.set ⟨a + k, hi, lo⟩ v).sysView = s.sysView := State.setReg_sysView s _ (Nat.le_add_right_of_le h)

@[simp] theorem State.set_sysView_at2 (s : State) {a k l hi lo : Nat} (v : Nat) (h : 0x10000 ≤ a) :
    (s.set ⟨a + k + l, hi, lo⟩ v).sysView = s.sysView := State.setReg_sysView s _ (by dsimp only; omega)

@[simp] theorem foldl_sysView {α : Type} {f : State → α → State} (hf : ∀ t a, (f t a).sysView = t.sysView)
    (l : List α) (s : State) : (l.foldl f s).sysView = s.sysView := by
  induction l generalizing s with
  | nil => rfl
  | cons a l ih => rw [List.foldl_cons, ih, hf]

/-- A change of other records than the count, the registers and the record of modes. -/
@[simp] theorem sysView_mk (s : State) {tick : Nat} {sys : SysSt} {pending : List Instr} {free wstat : Nat}
    {rdata : List Word} {latch : List (Nat × Word)} {ce : CeSt} {pu : Vector PuSt 4} {flt : FltSt} {bist : BistSt}
    {owl : OwlSt} {txn : Vector TxnSt 4} {cal : CalSt} {ax : Vector AxSt 7} {mag : MagSt} {stn : Vector StnSt 2}
    {pwr : PwrSt} {net : NetSt} {cmd : CmdSt} {mem : MemSt} {cch : CchSt} {flash : FlashSt} {plc : PlcSt} {chn : ChnSt}
    {arb : ArbSt} {mtr : MtrSt} {sec : SecSt} (ht : tick = s.tick) (hs : sys = s.sys) :
    (State.mk s.regs tick pending free wstat rdata latch sys ce pu flt bist owl txn cal ax mag stn pwr net cmd mem cch
      flash plc chn arb mtr sec).sysView = s.sysView := by
  subst ht hs
  rfl

@[simp] theorem ite_sysView {c : Prop} [Decidable c] (s t : State) :
    (if c then s else t).sysView = if c then s.sysView else t.sysView := apply_ite _ _ _ _

@[simp] theorem State.setFlag_sysView (s : State) (f : Fld) (b : Bool) :
    (s.setFlag f b).sysView = (s.set f (if b then 1 else 0)).sysView := rfl

@[simp] theorem State.setInt_sysView (s : State) (f : Fld) (i : Int) :
    (s.setInt f i).sysView = (s.set f (unsignedOf (f.hi + 1 - f.lo) i)).sysView := rfl

@[simp] theorem State.addSat_sysView (s : State) (f : Fld) (n : Nat) :
    (s.addSat f n).sysView = (s.set f (min f.top (s.get f + n))).sysView := rfl

@[simp] theorem State.incWrap_sysView (s : State) (f : Fld) :
    (s.incWrap f).sysView = (s.set f ((s.get f + 1) % (f.top + 1))).sysView := rfl

@[simp] theorem State.maxIn_sysView (s : State) (f : Fld) (v : Nat) :
    (s.maxIn f v).sysView = (s.set f (max (s.get f) (min f.top v))).sysView := rfl

@[simp] theorem State.when_sysView (s : State) (b : Bool) (f : State → State) :
    (s.when b f).sysView = if b then (f s).sysView else s.sysView := apply_ite _ _ _ _

/-! ### Ops -/

@[simp] theorem State.capture_sysView (s : State) (kind flags : Nat) (data : Word) :
    (s.capture kind flags data).sysView = s.sysView := by
  have hseq : ∀ t : State, (t.incWrap OWL_STAT_SEQ).sysView = t.sysView := fun t => State.set_sysView t _ (by decide)
  unfold State.capture
  split
  · exact State.set_sysView s _ (by decide)
  · dsimp only
    split
    · rw [hseq, sysView_mk _ rfl rfl]
    · split
      · rw [State.set_sysView _ _ (by decide), sysView_mk _ rfl rfl, hseq, sysView_mk _ rfl rfl]
      · rw [sysView_mk _ rfl rfl, hseq, sysView_mk _ rfl rfl]

@[simp] theorem State.send_sysView (s : State) (m : Msg) : (s.send m).sysView = s.sysView := by
  unfold State.send
  split
  · rfl
  · generalize BitVec.ofNat 32 _ = w
    dsimp only
    split <;> simp -implicitDefEqProofs +decide

@[simp] theorem State.raise_sysView (s : State) (src kind arg : Nat) :
    (s.raise src kind arg).sysView = s.sysView := by
  unfold State.raise
  simp -implicitDefEqProofs +decide

@[simp] theorem State.status_sysView (s : State) (code : Nat) :
    (s.status code).sysView = s.sysView := rfl

/-! ### Regs -/

@[simp] theorem State.setTxn_sysView (s : State) (d : Nat) (t : TxnSt) :
    (s.setTxn d t).sysView = s.sysView := rfl

@[simp] theorem State.putShadow_sysView (s : State) (d key : Nat) (v : Word) :
    (s.putShadow d key v).sysView = s.sysView := by
  unfold State.putShadow
  simp -implicitDefEqProofs +decide

/-! ### CeOps -/

@[simp] theorem State.setSlot_sysView (s : State) (n : Nat) (k : KSlot) :
    (s.setSlot n k).sysView = s.sysView := rfl

@[simp] theorem State.clearEn_sysView (s : State) (n : Nat) :
    (s.clearEn n).sysView = s.sysView := by
  unfold State.clearEn
  simp -implicitDefEqProofs +decide

@[simp] theorem State.setEn_sysView (s : State) (n : Nat) :
    (s.setEn n).sysView = s.sysView := by
  unfold State.setEn
  simp -implicitDefEqProofs +decide

@[simp] theorem State.clearOut_sysView (s : State) (out : Nat) :
    (s.clearOut out).sysView = s.sysView := by
  unfold State.clearOut
  split <;> simp -implicitDefEqProofs +decide

@[simp] theorem State.enableOut_sysView (s : State) (out : Nat) :
    (s.enableOut out).sysView = s.sysView := by
  unfold State.enableOut
  split <;> simp -implicitDefEqProofs +decide

@[simp] theorem State.withOut_sysView (s : State) (out : Nat) (f : KSlot → KSlot) :
    (s.withOut out f).sysView = s.sysView := by
  unfold State.withOut
  split <;> simp -implicitDefEqProofs +decide

@[simp] theorem State.wbufUsed_sysView (s : State) :
    (s.wbufUsed).sysView = s.sysView := by
  unfold State.wbufUsed
  simp -implicitDefEqProofs +decide

@[simp] theorem State.bufferPage_sysView (s : State) (a : Nat) (v : Word) :
    (s.bufferPage a v).sysView = s.sysView := by
  unfold State.bufferPage
  simp -implicitDefEqProofs +decide

@[simp] theorem State.noRoom_sysView (s : State) (p : Path) (a : Nat) (v : Word) :
    (s.noRoom p a v).sysView = s.sysView := by
  unfold State.noRoom
  simp -implicitDefEqProofs +decide

@[simp] theorem State.writeRws_sysView (s : State) (p : Path) (key : Nat) (fs : List FieldRow) (v : Word) :
    (s.writeRws p key fs v).1.sysView = s.sysView := by
  unfold State.writeRws
  split
  · rfl
  · split <;> simp -implicitDefEqProofs +decide

@[simp] theorem State.writePage_sysView (s : State) (p : Path) (n w : Nat) (v : Word) :
    (s.writePage p n w v).sysView = s.sysView := by
  unfold State.writePage
  dsimp only
  split_ifs <;> simp -implicitDefEqProofs +decide

@[simp] theorem State.noteTilt_sysView (s : State) (n : Nat) :
    (s.noteTilt n).sysView = s.sysView := by
  unfold State.noteTilt
  simp -implicitDefEqProofs +decide

@[simp] theorem State.saturated_sysView (s : State) (n : Nat) :
    (s.saturated n).sysView = s.sysView := by
  unfold State.saturated
  simp -implicitDefEqProofs +decide

@[simp] theorem State.putKst_sysView (s : State) (n : Nat) (e sl out : Word) (hold clamp sat q : Bool) :
    (s.putKst n e sl out hold clamp sat q).sysView = s.sysView := by
  unfold State.putKst
  simp -implicitDefEqProofs +decide

@[simp] theorem State.drive_sysView (s : State) (out : Nat) (v : Word) :
    (s.drive out v).sysView = s.sysView := rfl

@[simp] theorem State.undrive_sysView (s : State) (out : Nat) :
    (s.undrive out).sysView = s.sysView := rfl

@[simp] theorem State.smc_sysView (s : State) (x : Samples) (n : Nat) (sp : Rat) (u b : Word) :
    (s.smc x n sp u b).sysView = s.sysView := by
  unfold State.smc
  simp -implicitDefEqProofs +decide

@[simp] theorem State.runLpc_sysView (s : State) (x : Samples) (n : Nat) :
    (s.runLpc x n).sysView = s.sysView := by
  unfold State.runLpc
  simp -implicitDefEqProofs +decide

@[simp] theorem State.runSa_sysView (s : State) (n : Nat) :
    (s.runSa n).sysView = s.sysView := by
  unfold State.runSa
  simp -implicitDefEqProofs +decide

@[simp] theorem State.runObs_sysView (s : State) (x : Samples) (n : Nat) : (s.runObs x n).sysView = s.sysView := by
  unfold State.runObs State.draw
  simp -implicitDefEqProofs +decide

@[simp] theorem State.superviseSlot_sysView (s : State) (n : Nat) :
    (s.superviseSlot n).sysView = s.sysView := by
  unfold State.superviseSlot
  simp -implicitDefEqProofs +decide

@[simp] theorem State.runSup_sysView (s : State) (n : Nat) :
    (s.runSup n).sysView = s.sysView := by
  unfold State.runSup
  simp -implicitDefEqProofs +decide

@[simp] theorem State.slotOff_sysView (s : State) (n : Nat) :
    (s.slotOff n).sysView = s.sysView := by
  unfold State.slotOff
  simp -implicitDefEqProofs +decide

@[simp] theorem State.runKernel_sysView (s : State) (x : Samples) (n : Nat) :
    (s.runKernel x n).sysView = s.sysView := by
  unfold State.runKernel
  simp -implicitDefEqProofs +decide

@[simp] theorem State.runSlot_sysView (x : Samples) (acc : State × Nat × Option Nat) (n : Nat) :
    (State.runSlot x acc n).1.sysView = acc.1.sysView := by
  unfold State.runSlot
  dsimp only
  split_ifs <;> simp -implicitDefEqProofs +decide

@[simp] theorem State.overrun_sysView (s : State) (arg : Nat) :
    (s.overrun arg).sysView = s.sysView := by
  unfold State.overrun
  simp -implicitDefEqProofs +decide

@[simp] theorem State.runSchedule_sysView (s : State) (x : Samples) : (s.runSchedule x).sysView = s.sysView := by
  have hrun : ∀ (l : List Nat) (acc : State × Nat × Option Nat),
      (l.foldl (State.runSlot x) acc).1.sysView = acc.1.sysView := by
    intro l
    induction l with
    | nil => exact fun _ => rfl
    | cons n l ih => exact fun acc => by rw [List.foldl_cons, ih, State.runSlot_sysView]
  unfold State.runSchedule
  dsimp only
  split <;> simp -implicitDefEqProofs +decide [hrun]

@[simp] theorem State.setTrace_sysView (s : State) (n : Nat) (t : Trace) :
    (s.setTrace n t).sysView = s.sysView := rfl

@[simp] theorem State.takeTrigger_sysView (s : State) (n : Nat) :
    (s.takeTrigger n).sysView = s.sysView := by
  unfold State.takeTrigger
  simp -implicitDefEqProofs +decide

@[simp] theorem State.traceTick_sysView (x : Samples) (outs : List (Nat × Word)) (s : State) (e : Nat × Bool) :
    (State.traceTick x outs s e).sysView = s.sysView := by
  unfold State.traceTick
  simp -implicitDefEqProofs +decide

@[simp] theorem State.traceTicks_sysView (s : State) (x : Samples) (outs : List (Nat × Word)) :
    (s.traceTicks x outs).sysView = s.sysView := by
  unfold State.traceTicks
  simp -implicitDefEqProofs +decide

@[simp] theorem State.ptpValidity_sysView (s : State) (valid : Bool) :
    (s.ptpValidity valid).sysView = s.sysView := by
  unfold State.ptpValidity
  simp -implicitDefEqProofs +decide

/-! ### AxOps -/

@[simp] theorem State.setAx_sysView (s : State) (a : Nat) (k : AxSt) :
    (s.setAx a k).sysView = s.sysView := rfl

@[simp] theorem State.modAx_sysView (s : State) (a : Nat) (f : AxSt → AxSt) :
    (s.modAx a f).sysView = s.sysView := by
  unfold State.modAx
  simp -implicitDefEqProofs +decide

@[simp] theorem State.axMove_sysView (s : State) (a : Nat) (dest : Int) :
    (s.axMove a dest).sysView = s.sysView := by
  unfold State.axMove
  simp -implicitDefEqProofs +decide

@[simp] theorem State.axHalt_sysView (s : State) (a : Nat) (emerg : Bool) :
    (s.axHalt a emerg).sysView = s.sysView := by
  unfold State.axHalt
  simp -implicitDefEqProofs +decide

@[simp] theorem State.axOff_sysView (s : State) (a : Nat) :
    (s.axOff a).sysView = s.sysView := by
  unfold State.axOff
  simp -implicitDefEqProofs +decide

@[simp] theorem State.axOn_sysView (s : State) (a : Nat) :
    (s.axOn a).sysView = s.sysView := by
  unfold State.axOn
  simp -implicitDefEqProofs +decide

@[simp] theorem State.axHaltOff_sysView (s : State) (a : Nat) (emerg : Bool) :
    (s.axHaltOff a emerg).sysView = s.sysView := by
  unfold State.axHaltOff
  simp -implicitDefEqProofs +decide

@[simp] theorem State.axHomeStart_sysView (s : State) (a : Nat) :
    (s.axHomeStart a).sysView = s.sysView := by
  unfold State.axHomeStart
  simp -implicitDefEqProofs +decide

@[simp] theorem State.switchTick_sysView (x : Samples) (s : State) (a : Nat) :
    (State.switchTick x s a).sysView = s.sysView := by
  unfold State.switchTick
  split <;> simp -implicitDefEqProofs +decide

@[simp] theorem State.sledPark_sysView (s : State) (n : Nat) :
    (s.sledPark n).sysView = s.sysView := by
  unfold State.sledPark
  simp -implicitDefEqProofs +decide

@[simp] theorem State.axLatch_sysView (s : State) (a : Nat) :
    (s.axLatch a).sysView = s.sysView := by
  unfold State.axLatch
  simp -implicitDefEqProofs +decide

@[simp] theorem State.axStrong_sysView (s : State) (a : Nat) :
    (s.axStrong a).sysView = s.sysView := by
  unfold State.axStrong
  simp -implicitDefEqProofs +decide

@[simp] theorem State.axTick_sysView (x : Samples) (s0 : State) (a : Nat) :
    (State.axTick x s0 a).sysView = s0.sysView := by
  unfold State.axTick
  simp -implicitDefEqProofs +decide

@[simp] theorem State.stepperTick_sysView (s : State) (a : Nat) :
    (s.stepperTick a).sysView = s.sysView := by
  unfold State.stepperTick
  simp -implicitDefEqProofs +decide

@[simp] theorem State.followTick_sysView (s : State) (a : Nat) :
    (s.followTick a).sysView = s.sysView := by
  unfold State.followTick
  split <;> simp -implicitDefEqProofs +decide

@[simp] theorem State.axLoseHome_sysView (s : State) (a : Nat) :
    (s.axLoseHome a).sysView = s.sysView := by
  unfold State.axLoseHome
  simp -implicitDefEqProofs +decide

/-! ### PuOps -/

@[simp] theorem State.setPu_sysView (s : State) (n : Nat) (k : PuSt) :
    (s.setPu n k).sysView = s.sysView := rfl

@[simp] theorem State.modPu_sysView (s : State) (n : Nat) (f : PuSt → PuSt) :
    (s.modPu n f).sysView = s.sysView := by
  unfold State.modPu
  simp -implicitDefEqProofs +decide

@[simp] theorem State.puFault_sysView (s : State) (n kind arg : Nat) :
    (s.puFault n kind arg).sysView = s.sysView := by
  unfold State.puFault
  simp -implicitDefEqProofs +decide

@[simp] theorem State.lasers_sysView (s : State) (n : Nat) :
    (s.lasers n).sysView = s.sysView := by
  unfold State.lasers
  simp -implicitDefEqProofs +decide

@[simp] theorem State.prevLost_sysView (s : State) (n : Nat) :
    (s.prevLost n).sysView = s.sysView := rfl

@[simp] theorem State.dropGate_sysView (s : State) (n : Nat) :
    (s.dropGate n).sysView = s.sysView := by
  unfold State.dropGate
  simp -implicitDefEqProofs +decide

@[simp] theorem State.releaseSlots_sysView (s : State) (n : Nat) :
    (s.releaseSlots n).sysView = s.sysView := by
  unfold State.releaseSlots
  simp -implicitDefEqProofs +decide

@[simp] theorem State.setCur_sysView (s : State) (n layer : Nat) :
    (s.setCur n layer).sysView = s.sysView := by
  unfold State.setCur
  simp -implicitDefEqProofs +decide

@[simp] theorem State.setSa_sysView (s : State) (n layer : Nat) :
    (s.setSa n layer).sysView = s.sysView := by
  unfold State.setSa
  simp -implicitDefEqProofs +decide

@[simp] theorem State.endOp_sysView (s : State) (n result : Nat) :
    (s.endOp n result).sysView = s.sysView := by
  unfold State.endOp
  simp -implicitDefEqProofs +decide

@[simp] theorem State.puRest_sysView (s : State) (n st : Nat) :
    (s.puRest n st).sysView = s.sysView := by
  unfold State.puRest
  simp -implicitDefEqProofs +decide

@[simp] theorem State.puFail_sysView (s : State) (n : Nat) :
    (s.puFail n).sysView = s.sysView := by
  unfold State.puFail
  simp -implicitDefEqProofs +decide

@[simp] theorem State.puTurnOff_sysView (s : State) (n : Nat) :
    (s.puTurnOff n).sysView = s.sysView := by
  unfold State.puTurnOff
  simp -implicitDefEqProofs +decide

@[simp] theorem State.puPark_sysView (s : State) (n result : Nat) :
    (s.puPark n result).sysView = s.sysView := by
  unfold State.puPark
  simp -implicitDefEqProofs +decide

@[simp] theorem State.inhibit_sysView (s : State) (n causes : Nat) :
    (s.inhibit n causes).sysView = s.sysView := by
  unfold State.inhibit
  simp -implicitDefEqProofs +decide

@[simp] theorem State.startAcquire_sysView (s : State) (n layer turn : Nat) (byCmd : Bool) :
    (s.startAcquire n layer turn byCmd).sysView = s.sysView := by
  unfold State.startAcquire
  simp -implicitDefEqProofs +decide

@[simp] theorem State.jumpAttempt_sysView (s : State) (n layer : Nat) :
    (s.jumpAttempt n layer).sysView = s.sysView := by
  unfold State.jumpAttempt
  simp -implicitDefEqProofs +decide

@[simp] theorem State.startJump_sysView (s : State) (n layer turn : Nat) (byCmd acqJump : Bool) :
    (s.startJump n layer turn byCmd acqJump).sysView = s.sysView := by
  unfold State.startJump
  simp -implicitDefEqProofs +decide

@[simp] theorem State.seekMotion_sysView (s : State) (n turn : Nat) :
    (s.seekMotion n turn).sysView = s.sysView := by
  unfold State.seekMotion
  simp -implicitDefEqProofs +decide

@[simp] theorem State.sledThere_sysView (s : State) (n : Nat) :
    (s.sledThere n).sysView = s.sysView := by
  unfold State.sledThere
  simp -implicitDefEqProofs +decide

@[simp] theorem State.startSeek_sysView (s : State) (n turn : Nat) (byCmd : Bool) :
    (s.startSeek n turn byCmd).sysView = s.sysView := by
  unfold State.startSeek
  simp -implicitDefEqProofs +decide

@[simp] theorem State.orderMode_sysView (s : State) (n : Nat) (write byCmd : Bool) :
    (s.orderMode n write byCmd).sysView = s.sysView := by
  unfold State.orderMode
  simp -implicitDefEqProofs +decide

@[simp] theorem State.puBegin_sysView (s0 : State) (n op layer turn : Nat) :
    (s0.puBegin n op layer turn).sysView = s0.sysView := by
  unfold State.puBegin
  simp -implicitDefEqProofs +decide

@[simp] theorem State.spTick_sysView (s : State) (n : Nat) :
    (s.spTick n).sysView = s.sysView := by
  unfold State.spTick
  simp -implicitDefEqProofs +decide

@[simp] theorem State.puAdvance_sysView (s : State) (n : Nat) :
    (s.puAdvance n).sysView = s.sysView := by
  unfold State.puAdvance
  simp -implicitDefEqProofs +decide

@[simp] theorem State.holdTick_sysView (s : State) (n : Nat) :
    (s.holdTick n).sysView = s.sysView := by
  unfold State.holdTick
  simp -implicitDefEqProofs +decide

@[simp] theorem State.depthTick_sysView (s : State) (n : Nat) (rise : Bool) :
    (s.depthTick n rise).sysView = s.sysView := by
  unfold State.depthTick
  simp -implicitDefEqProofs +decide

@[simp] theorem State.rampTick_sysView (s : State) (n : Nat) :
    (s.rampTick n).sysView = s.sysView := by
  unfold State.rampTick
  simp -implicitDefEqProofs +decide

@[simp] theorem State.measureTick_sysView (x : Samples) (s : State) (n : Nat) :
    (State.measureTick x s n).sysView = s.sysView := by
  unfold State.measureTick
  simp -implicitDefEqProofs +decide

@[simp] theorem State.monitorTick_sysView (x : Samples) (s : State) (n : Nat) :
    (State.monitorTick x s n).sysView = s.sysView := by
  unfold State.monitorTick
  simp -implicitDefEqProofs +decide

@[simp] theorem State.inhibitTick_sysView (x : Samples) (s : State) (n : Nat) :
    (State.inhibitTick x s n).sysView = s.sysView := by
  unfold State.inhibitTick
  simp -implicitDefEqProofs +decide

@[simp] theorem State.puTick_sysView (x : Samples) (s0 : State) (n : Nat) :
    (State.puTick x s0 n).sysView = s0.sysView := by
  unfold State.puTick
  dsimp only
  repeat' split
  all_goals simp -implicitDefEqProofs +decide

/-! ### SpnOps -/

@[simp] theorem State.setStn_sysView (s : State) (st : Nat) (k : StnSt) :
    (s.setStn st k).sysView = s.sysView := rfl

@[simp] theorem State.modStn_sysView (s : State) (st : Nat) (f : StnSt → StnSt) :
    (s.modStn st f).sysView = s.sysView := by
  unfold State.modStn
  simp -implicitDefEqProofs +decide

@[simp] theorem State.spnFault_sysView (s : State) (st kind arg : Nat) :
    (s.spnFault st kind arg).sysView = s.sysView := by
  unfold State.spnFault
  simp -implicitDefEqProofs +decide

@[simp] theorem State.refreshSource_sysView (s : State) (st : Nat) :
    (s.refreshSource st).sysView = s.sysView := by
  unfold State.refreshSource
  simp -implicitDefEqProofs +decide

@[simp] theorem State.spnMask_sysView (s : State) (st : Nat) (b : Bool) :
    (s.spnMask st b).sysView = s.sysView := by
  unfold State.spnMask
  simp -implicitDefEqProofs +decide

@[simp] theorem State.spnSetPoint_sysView (s : State) (st : Nat) (v : Rat) :
    (s.spnSetPoint st v).sysView = s.sysView := by
  unfold State.spnSetPoint
  simp -implicitDefEqProofs +decide

@[simp] theorem State.workMeasured_sysView (s : State) (st : Nat) :
    (s.workMeasured st).sysView = s.sysView := by
  unfold State.workMeasured
  simp -implicitDefEqProofs +decide

@[simp] theorem State.spnResult_sysView (s : State) (st result : Nat) :
    (s.spnResult st result).sysView = s.sysView := by
  unfold State.spnResult
  simp -implicitDefEqProofs +decide

@[simp] theorem State.bridgeOff_sysView (s : State) (st : Nat) :
    (s.bridgeOff st).sysView = s.sysView := by
  unfold State.bridgeOff
  simp -implicitDefEqProofs +decide

@[simp] theorem State.spnOff_sysView (s : State) (st : Nat) :
    (s.spnOff st).sysView = s.sysView := by
  unfold State.spnOff
  simp -implicitDefEqProofs +decide

@[simp] theorem State.spinDown_sysView (s : State) (st : Nat) :
    (s.spinDown st).sysView = s.sysView := by
  unfold State.spinDown
  simp -implicitDefEqProofs +decide

@[simp] theorem State.discIndexDue_sysView (s : State) (st : Nat) :
    (s.discIndexDue st).sysView = s.sysView := rfl

@[simp] theorem State.spinAborted_sysView (s : State) (st : Nat) :
    (s.spinAborted st).sysView = s.sysView := by
  unfold State.spinAborted
  simp -implicitDefEqProofs +decide

@[simp] theorem State.spnStop_sysView (s0 : State) (st : Nat) :
    (s0.spnStop st).sysView = s0.sysView := by
  unfold State.spnStop
  simp -implicitDefEqProofs +decide

@[simp] theorem State.spnCoast_sysView (s : State) (st : Nat) :
    (s.spnCoast st).sysView = s.sysView := by
  unfold State.spnCoast
  simp -implicitDefEqProofs +decide

@[simp] theorem State.exchangeRefused_sysView (s : State) (st : Nat) :
    (s.exchangeRefused st).sysView = s.sysView := by
  unfold State.exchangeRefused
  simp -implicitDefEqProofs +decide

@[simp] theorem State.enterAlign_sysView (s : State) (st target : Nat) :
    (s.enterAlign st target).sysView = s.sysView := by
  unfold State.enterAlign
  simp -implicitDefEqProofs +decide

@[simp] theorem State.startRotor_sysView (s : State) (st angle : Nat) :
    (s.startRotor st angle).sysView = s.sysView := by
  unfold State.startRotor
  simp -implicitDefEqProofs +decide

@[simp] theorem State.homeSleds_sysView (s : State) (st : Nat) :
    (s.homeSleds st).sysView = s.sysView := by
  unfold State.homeSleds
  simp -implicitDefEqProofs +decide

@[simp] theorem State.retarget_sysView (s : State) (st target : Nat) :
    (s.retarget st target).sysView = s.sysView := by
  unfold State.retarget
  simp -implicitDefEqProofs +decide

@[simp] theorem State.spin_sysView (s0 : State) (st target : Nat) :
    (s0.spin st target).sysView = s0.sysView := by
  unfold State.spin
  simp -implicitDefEqProofs +decide

@[simp] theorem State.dropStationGates_sysView (s : State) (st : Nat) :
    (s.dropStationGates st).sysView = s.sysView := by
  unfold State.dropStationGates
  simp -implicitDefEqProofs +decide

@[simp] theorem State.spnUnusable_sysView (s : State) (st : Nat) (forGood : Bool) :
    (s.spnUnusable st forGood).sysView = s.sysView := by
  unfold State.spnUnusable
  simp -implicitDefEqProofs +decide

@[simp] theorem State.marUnlock_sysView (s : State) (st : Nat) :
    (s.marUnlock st).sysView = s.sysView := by
  unfold State.marUnlock
  simp -implicitDefEqProofs +decide

@[simp] theorem State.marTick_sysView (s : State) (st : Nat) :
    (s.marTick st).sysView = s.sysView := by
  unfold State.marTick
  simp -implicitDefEqProofs +decide

@[simp] theorem State.alignTick_sysView (s : State) (st : Nat) (l : List LegRead) (now : Vector Int 3) :
    (s.alignTick st l now).sysView = s.sysView := by
  unfold State.alignTick
  simp -implicitDefEqProofs +decide

@[simp] theorem State.phaseTick_sysView (x : Samples) (s : State) (st : Nat) :
    (State.phaseTick x s st).sysView = s.sysView := by
  unfold State.phaseTick
  simp -implicitDefEqProofs +decide

@[simp] theorem State.brakeTick_sysView (s : State) (st : Nat) :
    (s.brakeTick st).sysView = s.sysView := by
  unfold State.brakeTick
  simp -implicitDefEqProofs +decide

@[simp] theorem State.obsTick_sysView (x : Samples) (s : State) (st : Nat) :
    (State.obsTick x s st).sysView = s.sysView := by
  unfold State.obsTick
  simp -implicitDefEqProofs +decide

@[simp] theorem State.keTick_sysView (x : Samples) (s : State) (st : Nat) :
    (State.keTick x s st).sysView = s.sysView := by
  unfold State.keTick
  simp -implicitDefEqProofs +decide

@[simp] theorem State.spnCounts_sysView (x : Samples) (s : State) (st : Nat) :
    (State.spnCounts x s st).sysView = s.sysView := by
  unfold State.spnCounts
  dsimp only
  split <;> simp -implicitDefEqProofs +decide

@[simp] theorem State.spnTick_sysView (x : Samples) (s0 : State) (st : Nat) :
    (State.spnTick x s0 st).sysView = s0.sysView := by
  unfold State.spnTick
  dsimp only
  split <;> simp -implicitDefEqProofs +decide

/-! ### MagOps -/

@[simp] theorem State.modMag_sysView (s : State) (f : MagSt → MagSt) :
    (s.modMag f).sysView = s.sysView := rfl

@[simp] theorem State.magResult_sysView (s : State) (result reason : Nat) :
    (s.magResult result reason).sysView = s.sysView := by
  unfold State.magResult
  split <;> simp -implicitDefEqProofs +decide

@[simp] theorem State.magRest_sysView (s : State) :
    (s.magRest).sysView = s.sysView := by
  unfold State.magRest
  simp -implicitDefEqProofs +decide

@[simp] theorem State.exchStat_sysView (s : State) (outcome reason start : Nat) :
    (s.exchStat outcome reason start).sysView = s.sysView := by
  unfold State.exchStat
  simp -implicitDefEqProofs +decide

@[simp] theorem State.magFail_sysView (s : State) (reason : Nat) :
    (s.magFail reason).sysView = s.sysView := by
  unfold State.magFail
  simp -implicitDefEqProofs +decide

@[simp] theorem State.magHalt_sysView (s : State) (emerg : Bool) :
    (s.magHalt emerg).sysView = s.sysView := by
  unfold State.magHalt
  simp -implicitDefEqProofs +decide

@[simp] theorem State.magHomeNext_sysView (s : State) (a : Nat) :
    (s.magHomeNext a).sysView = s.sysView := by
  unfold State.magHomeNext
  simp -implicitDefEqProofs +decide

@[simp] theorem State.magHomingTick_sysView (s : State) :
    (s.magHomingTick).sysView = s.sysView := by
  unfold State.magHomingTick
  split <;> simp -implicitDefEqProofs +decide

@[simp] theorem State.magHome_sysView (s : State) (state : Nat) :
    (s.magHome state).sysView = s.sysView := by
  unfold State.magHome
  simp -implicitDefEqProofs +decide

@[simp] theorem State.moveZx_sysView (s : State) (z x : Int) :
    (s.moveZx z x).sysView = s.sysView := by
  unfold State.moveZx
  simp -implicitDefEqProofs +decide

@[simp] theorem State.magPlan_sysView (s : State) (ms : List MagMove) :
    (s.magPlan ms).sysView = s.sysView := by
  unfold State.magPlan
  split <;> simp -implicitDefEqProofs +decide

@[simp] theorem State.recover_sysView (s : State) :
    (s.recover).sysView = s.sysView := by
  unfold State.recover
  simp -implicitDefEqProofs +decide

@[simp] theorem State.magDegrade_sysView (s : State) :
    (s.magDegrade).sysView = s.sysView := by
  unfold State.magDegrade
  simp -implicitDefEqProofs +decide

@[simp] theorem State.startStep_sysView (s : State) (o : MagOrder) (step : Nat) :
    (s.startStep o step).sysView = s.sysView := by
  unfold State.startStep
  simp -implicitDefEqProofs +decide

@[simp] theorem State.firstStep_sysView (s : State) (o : MagOrder) :
    (s.firstStep o).sysView = s.sysView := by
  unfold State.firstStep
  simp -implicitDefEqProofs +decide

@[simp] theorem State.probeSlot_sysView (s : State) (k : Nat) :
    (s.probeSlot k).sysView = s.sysView := by
  unfold State.probeSlot
  simp -implicitDefEqProofs +decide

@[simp] theorem State.magStart_sysView (s : State) (o : MagOrder) :
    (s.magStart o).sysView = s.sysView := by
  unfold State.magStart
  dsimp only
  repeat' split
  all_goals simp -implicitDefEqProofs +decide

@[simp] theorem State.exchFail_sysView (s : State) (reason : Nat) :
    (s.exchFail reason).sysView = s.sysView := by
  unfold State.exchFail
  simp -implicitDefEqProofs +decide

@[simp] theorem State.magInputs_sysView (x : Samples) (s : State) :
    (State.magInputs x s).sysView = s.sysView := by
  unfold State.magInputs
  simp -implicitDefEqProofs +decide

@[simp] theorem State.magFocusTick_sysView (s : State) :
    (s.magFocusTick).sysView = s.sysView := by
  unfold State.magFocusTick
  split <;> simp -implicitDefEqProofs +decide

@[simp] theorem State.axesOn_sysView (s : State) :
    (s.axesOn).sysView = s.sysView := by
  unfold State.axesOn
  simp -implicitDefEqProofs +decide

@[simp] theorem State.badgerHoming_sysView (s : State) :
    (s.badgerHoming).sysView = s.sysView := by
  unfold State.badgerHoming
  simp -implicitDefEqProofs +decide

/-! ### EndOps -/

@[simp] theorem State.modSess_sysView (s : State) (p : Path) (f : Session → Session) :
    (s.modSess p f).sysView = s.sysView := by
  unfold State.modSess
  split <;> simp -implicitDefEqProofs +decide

@[simp] theorem State.cmdCounts_sysView (s : State) :
    (s.cmdCounts).sysView = s.sysView := by
  unfold State.cmdCounts
  simp -implicitDefEqProofs +decide

@[simp] theorem State.modCmd_sysView (s : State) (id : Nat) (f : Cmd → Cmd) :
    (s.modCmd id f).sysView = s.sysView := rfl

@[simp] theorem State.modAcct_sysView (s : State) (t : Nat) (f : MeterAcc → MeterAcc) :
    (s.modAcct t f).sysView = s.sysView := by
  unfold State.modAcct
  simp -implicitDefEqProofs +decide

@[simp] theorem State.logPut_sysView (s : State) (r : LogRec) :
    (s.logPut r).sysView = s.sysView := by
  unfold State.logPut
  simp -implicitDefEqProofs +decide

@[simp] theorem State.deferError_sysView (s : State) (t : Nat) (r : LogRec) :
    (s.deferError t r).sysView = s.sysView := by
  unfold State.deferError
  simp -implicitDefEqProofs +decide

@[simp] theorem State.writeEntry_sysView (s : State) (k : Completion) :
    (s.writeEntry k).sysView = s.sysView := by
  unfold State.writeEntry
  split <;> simp -implicitDefEqProofs +decide

@[simp] theorem State.interim_sysView (s : State) (c : Cmd) (r : Reply) :
    (s.interim c r).sysView = s.sysView := by
  unfold State.interim
  split <;> simp -implicitDefEqProofs +decide

@[simp] theorem State.freeze_sysView (s : State) (c : Cmd) (status : Nat) :
    (s.freeze c status).sysView = s.sysView := by
  unfold State.freeze
  simp -implicitDefEqProofs +decide

@[simp] theorem State.finish_sysView (s : State) (c : Cmd) (r : Reply) :
    (s.finish c r).sysView = s.sysView := by
  unfold State.finish
  simp -implicitDefEqProofs +decide

@[simp] theorem State.finishWith_sysView (s : State) (c : Cmd) (status : Nat) :
    (s.finishWith c status).sysView = s.sysView := by
  unfold State.finishWith
  split
  · rw [State.finish_sysView]
    rfl
  · rw [State.finish_sysView]

/-! ### ArbOps -/

@[simp] theorem State.modArb_sysView (s : State) (st : Nat) (f : StnArb → StnArb) :
    (s.modArb st f).sysView = s.sysView := rfl

@[simp] theorem State.grant_sysView (s : State) (st : Nat) (j : Job) :
    (s.grant st j).sysView = s.sysView := by
  unfold State.grant
  simp -implicitDefEqProofs +decide

@[simp] theorem State.idleStn_sysView (s : State) (st : Nat) :
    (s.idleStn st).sysView = s.sysView := by
  unfold State.idleStn
  simp -implicitDefEqProofs +decide

@[simp] theorem State.parkStn_sysView (s : State) (st owner : Nat) (hold : Option Nat) :
    (s.parkStn st owner hold).sysView = s.sysView := by
  unfold State.parkStn
  simp -implicitDefEqProofs +decide

@[simp] theorem State.releaseStn_sysView (s : State) (st : Nat) :
    (s.releaseStn st).sysView = s.sysView := by
  unfold State.releaseStn
  split <;> simp -implicitDefEqProofs +decide

@[simp] theorem State.stnRound_sysView (s : State) (st : Nat) :
    (s.stnRound st).sysView = s.sysView := by
  unfold State.stnRound
  dsimp only
  repeat' split
  all_goals simp -implicitDefEqProofs +decide

@[simp] theorem State.addJob_sysView (s : State) (j : Job) :
    (s.addJob j).sysView = s.sysView := rfl

@[simp] theorem State.dropJobs_sysView (s : State) (f : Job → Bool) :
    (s.dropJobs f).sysView = s.sysView := rfl

@[simp] theorem State.modJob_sysView (s : State) (id : Nat) (f : Job → Job) :
    (s.modJob id f).sysView = s.sysView := by
  unfold State.modJob
  refine (foldl_sysView (fun t st => ?_) _ _).trans rfl
  split <;> simp -implicitDefEqProofs +decide

@[simp] theorem State.askPicker_sysView (s : State) (st : Nat) (j : Job) (slot : Nat) :
    (s.askPicker st j slot).sysView = s.sysView := by
  unfold State.askPicker
  simp -implicitDefEqProofs +decide

@[simp] theorem State.steer_sysView (s : State) (st side : Nat) (j : Job) (u : JobUnit) :
    (s.steer st side j u).sysView = s.sysView := by
  unfold State.steer
  simp -implicitDefEqProofs +decide

@[simp] theorem State.workStn_sysView (s : State) (st : Nat) : (s.workStn st).sysView = s.sysView := by
  unfold State.workStn
  split
  · rfl
  · dsimp only
    split_ifs
    · rfl
    · split <;> rfl
    · split <;> simp -implicitDefEqProofs +decide
    · rfl
    · simp -implicitDefEqProofs +decide
    · rfl
    · refine foldl_sysView (fun t side => ?_) _ _
      repeat' split
      all_goals simp -implicitDefEqProofs +decide
    · rfl

/-! ### CampOps -/

@[simp] theorem State.modCal_sysView (s : State) (f : CalSt → CalSt) :
    (s.modCal f).sysView = s.sysView := rfl

/-- The flag of a station's pending calibration lies beyond the SYS block. -/
theorem calPendFld_beyond (st : Nat) : 0x10000 ≤ (calPendFld st).addr := by
  unfold calPendFld
  split <;> decide

@[simp] theorem State.campEnd_sysView (s : State) (outcome failProc : Nat) :
    (s.campEnd outcome failProc).sysView = s.sysView := by
  unfold State.campEnd
  split
  · rfl
  · simp -implicitDefEqProofs +decide [calPendFld_beyond]

@[simp] theorem State.campAbort_sysView (s : State) :
    (s.campAbort).sysView = s.sysView := by
  unfold State.campAbort
  simp -implicitDefEqProofs +decide

@[simp] theorem State.calQueue_sysView (s : State) (st : Nat) :
    (s.calQueue st).sysView = s.sysView := by
  unfold State.calQueue
  simp -implicitDefEqProofs +decide

/-! ### Power -/

@[simp] theorem State.pwrFault_sysView (s : State) (kind arg : Nat) :
    (s.pwrFault kind arg).sysView = s.sysView := by
  unfold State.pwrFault
  simp -implicitDefEqProofs +decide

@[simp] theorem State.brkFault_sysView (s : State) (arg : Nat) :
    (s.brkFault arg).sysView = s.sysView := by
  unfold State.brkFault
  simp -implicitDefEqProofs +decide

@[simp] theorem State.junction_sysView (s : State) (die : Nat) (t : BitVec 8) :
    (s.junction die t).sysView = s.sysView := by
  unfold State.junction
  split <;> simp -implicitDefEqProofs +decide

@[simp] theorem State.chopTick_sysView (s0 : State) (i : Nat) :
    (s0.chopTick i).sysView = s0.sysView := by
  unfold State.chopTick
  simp -implicitDefEqProofs +decide

@[simp] theorem State.chopSecond_sysView (s : State) :
    (s.chopSecond).sysView = s.sysView := rfl

@[simp] theorem State.ilimFactor_sysView (s : State) : s.ilimFactor.2.sysView = s.sysView := by
  unfold State.ilimFactor
  dsimp only
  split <;> rfl

@[simp] theorem State.ilimTick_sysView (s : State) : s.ilimTick.sysView = s.sysView := by
  unfold State.ilimTick
  simp -implicitDefEqProofs +decide

@[simp] theorem State.inputTick_sysView (s : State) (x : Samples) :
    (s.inputTick x).sysView = s.sysView := rfl

@[simp] theorem State.railTick_sysView (s : State) {e i v : Fld} (x : RailRead) (he : 0x10000 ≤ e.addr)
    (hi : 0x10000 ≤ i.addr) (hv : 0x10000 ≤ v.addr) : (s.railTick (e, i, v) x).sysView = s.sysView := by
  unfold State.railTick State.draw
  simp -implicitDefEqProofs +decide [he, hi, hv]

@[simp] theorem State.pwrTick_sysView (x : Samples) (s0 : State) :
    (State.pwrTick x s0).sysView = s0.sysView := by
  unfold State.pwrTick
  simp -implicitDefEqProofs +decide

/-! ### MemOps -/

@[simp] theorem State.setDramByte_sysView (s : State) (a : Nat) (b : Byte) :
    (s.setDramByte a b).sysView = s.sysView := rfl

@[simp] theorem State.putBytes_sysView (s : State) (a : Nat) (l : List Byte) :
    (s.putBytes a l).sysView = s.sysView := by
  unfold State.putBytes
  simp -implicitDefEqProofs +decide

@[simp] theorem State.putGran_sysView (s : State) (g data chk : Nat) :
    (s.putGran g data chk).sysView = s.sysView := by
  unfold State.putGran
  simp -implicitDefEqProofs +decide

@[simp] theorem State.dramError_sysView (s : State) (g kind : Nat) (scrub : Bool) :
    (s.dramError g kind scrub).sysView = s.sysView := by
  unfold State.dramError
  simp -implicitDefEqProofs +decide

@[simp] theorem State.readGran_sysView (s : State) (g : Nat) (scrub : Bool) :
    (s.readGran g scrub).2.sysView = s.sysView := by
  unfold State.readGran
  dsimp only
  split_ifs <;> simp -implicitDefEqProofs +decide

@[simp] theorem State.sramError_sysView (s : State) (i offset kind : Nat) (scrub : Bool) :
    (s.sramError i offset kind scrub).sysView = s.sysView := by
  unfold State.sramError
  simp -implicitDefEqProofs +decide

@[simp] theorem State.scrubGran_sysView (s : State) : s.scrubGran.sysView = s.sysView := by
  unfold State.scrubGran
  dsimp only
  split <;> simp -implicitDefEqProofs +decide

@[simp] theorem State.setSram_sysView (s : State) (i offset : Nat) (v : BitVec 13) :
    (s.setSram i offset v).sysView = s.sysView := rfl

@[simp] theorem State.owlDamage_sysView (s : State) (offset : Nat) :
    (s.owlDamage offset).sysView = s.sysView := rfl

@[simp] theorem State.dropLine_sysView (s : State) (set way : Nat) :
    (s.dropLine set way).sysView = s.sysView := rfl

@[simp] theorem State.sramLost_sysView (s : State) (i offset : Nat) :
    (s.sramLost i offset).sysView = s.sysView := by
  unfold State.sramLost
  simp -implicitDefEqProofs +decide

@[simp] theorem State.readSram_sysView (s : State) (i offset : Nat) (scrub : Bool) :
    (s.readSram i offset scrub).sysView = s.sysView := by
  unfold State.readSram
  simp -implicitDefEqProofs +decide

@[simp] theorem State.mr4Tick_sysView (x : Samples) (s : State) :
    (State.mr4Tick x s).sysView = s.sysView := by
  unfold State.mr4Tick
  simp -implicitDefEqProofs +decide

@[simp] theorem State.scrubTick_sysView (s : State) :
    (s.scrubTick).sysView = s.sysView := by
  unfold State.scrubTick
  simp -implicitDefEqProofs +decide

@[simp] theorem State.countLocks_sysView (s : State) :
    (s.countLocks).sysView = s.sysView := by
  unfold State.countLocks
  simp -implicitDefEqProofs +decide

@[simp] theorem State.unlockWays_sysView (s : State) (f : CLine → Bool) :
    (s.unlockWays f).sysView = s.sysView := by
  unfold State.unlockWays
  simp -implicitDefEqProofs +decide

/-! ### FlashOps -/

@[simp] theorem State.flFault_sysView (s : State) (kind arg : Nat) :
    (s.flFault kind arg).sysView = s.sysView := by
  unfold State.flFault
  simp -implicitDefEqProofs +decide

@[simp] theorem State.jrnlStat_sysView (s : State) :
    (s.jrnlStat).sysView = s.sysView := by
  unfold State.jrnlStat
  simp -implicitDefEqProofs +decide

@[simp] theorem State.jrnlPut_sysView (s : State) (kind sector : Nat) :
    (s.jrnlPut kind sector).sysView = s.sysView := rfl

@[simp] theorem State.jrnlTurn_sysView (s : State) :
    (s.jrnlTurn).sysView = s.sysView := by
  unfold State.jrnlTurn
  simp -implicitDefEqProofs +decide

@[simp] theorem State.journal_sysView (s : State) (kind sector : Nat) :
    (s.journal kind sector).sysView = s.sysView := by
  unfold State.journal
  simp -implicitDefEqProofs +decide

@[simp] theorem State.imgPut_sysView (s : State) (twinB : Bool) (comps : List (Nat × Nat × Bool)) :
    (s.imgPut twinB comps).sysView = s.sysView := by
  unfold State.imgPut
  simp -implicitDefEqProofs +decide

@[simp] theorem State.refrPut_sysView (s : State) (state sector : Nat) :
    (s.refrPut state sector).sysView = s.sysView := rfl

@[simp] theorem State.refreshShow_sysView (s : State) :
    (s.refreshShow).sysView = s.sysView := by
  unfold State.refreshShow
  simp -implicitDefEqProofs +decide

@[simp] theorem State.eraseSector_sysView (s : State) (n : Nat) :
    (s.eraseSector n).sysView = s.sysView := rfl

@[simp] theorem State.flStat_sysView (s : State) :
    (s.flStat).sysView = s.sysView := by
  unfold State.flStat
  simp -implicitDefEqProofs +decide

@[simp] theorem State.refreshNext_sysView (s : State) :
    (s.refreshNext).sysView = s.sysView := by
  unfold State.refreshNext
  dsimp only
  repeat' split
  all_goals simp -implicitDefEqProofs +decide

@[simp] theorem State.refreshDone_sysView (s : State) (d : FlDesc) :
    (s.refreshDone d).sysView = s.sysView := by
  unfold State.refreshDone
  simp -implicitDefEqProofs +decide

@[simp] theorem State.flushDone_sysView (s : State) (status : Nat) :
    (s.flushDone status).sysView = s.sysView := by
  unfold State.flushDone
  dsimp only
  split <;> simp -implicitDefEqProofs +decide

@[simp] theorem State.flComplete_sysView (s : State) (d : FlDesc) (status : Nat) :
    (s.flComplete d status).sysView = s.sysView := by
  unfold State.flComplete
  simp -implicitDefEqProofs +decide

@[simp] theorem State.startModify_sysView (s : State) (d : FlDesc) :
    (s.startModify d).sysView = s.sysView := by
  unfold State.startModify
  split <;> simp -implicitDefEqProofs +decide

@[simp] theorem State.flAdvance_sysView (s : State) (n : Nat) : (s.flAdvance n).sysView = s.sysView := by
  induction n generalizing s with
  | zero => rfl
  | succ n ih =>
    unfold State.flAdvance
    split
    · split <;> simp -implicitDefEqProofs +decide [ih]
    · dsimp only
      repeat' split
      all_goals simp -implicitDefEqProofs +decide [ih]

@[simp] theorem State.flGo_sysView (s : State) :
    (s.flGo).sysView = s.sysView := by
  unfold State.flGo
  simp -implicitDefEqProofs +decide

@[simp] theorem State.flPush_sysView (s : State) (d : FlDesc) :
    (s.flPush d).sysView = s.sysView := by
  unfold State.flPush
  simp -implicitDefEqProofs +decide

@[simp] theorem State.eraseOwl_sysView (s : State) :
    (s.eraseOwl).sysView = s.sysView := by
  unfold State.eraseOwl
  simp -implicitDefEqProofs +decide

@[simp] theorem State.flEcc_sysView (s : State) (e : Nat × BitVec 137) :
    (s.flEcc e).sysView = s.sysView := by
  unfold State.flEcc
  simp -implicitDefEqProofs +decide

@[simp] theorem State.flMet_sysView (s : State) (a n : Nat) :
    (s.flMet a n).sysView = s.sysView := by
  unfold State.flMet
  simp -implicitDefEqProofs +decide

/-! ### MapOps -/

@[simp] theorem State.modPlc_sysView (s : State) (f : PlcSt → PlcSt) :
    (s.modPlc f).sysView = s.sysView := rfl

@[simp] theorem State.plcFault_sysView (s : State) (kind arg : Nat) :
    (s.plcFault kind arg).sysView = s.sysView := by
  unfold State.plcFault
  simp -implicitDefEqProofs +decide

@[simp] theorem State.setKeys_sysView (s : State) (l : List TenantKey) :
    (s.setKeys l).sysView = s.sysView := by
  unfold State.setKeys
  simp -implicitDefEqProofs +decide

@[simp] theorem State.modPeer_sysView (s : State) (d : Nat) (f : PeerSt → PeerSt) :
    (s.modPeer d f).sysView = s.sysView := by
  unfold State.modPeer
  simp -implicitDefEqProofs +decide

@[simp] theorem State.tell_sysView (s : State) (dst type xid : Nat) (body : List Nat) :
    (s.tell dst type xid body).sysView = s.sysView := by
  unfold State.tell
  simp -implicitDefEqProofs +decide

@[simp] theorem State.reply_sysView (s : State) (dst type xid : Nat) (body : List Nat) :
    (s.reply dst type xid body).sysView = s.sysView := by
  unfold State.reply
  simp -implicitDefEqProofs +decide

@[simp] theorem State.sendData_sysView (s : State) (dst xid : Nat) (segs : List Nat) :
    (s.sendData dst xid segs).sysView = s.sysView := by
  unfold State.sendData
  simp -implicitDefEqProofs +decide

@[simp] theorem State.slotCounts_sysView (s : State) (k : Nat) (live dead : Int) :
    (s.slotCounts k live dead).sysView = s.sysView := by
  unfold State.slotCounts
  simp -implicitDefEqProofs +decide

@[simp] theorem State.mapUsed_sysView (s : State) :
    (s.mapUsed).sysView = s.sysView := by
  unfold State.mapUsed
  simp -implicitDefEqProofs +decide

@[simp] theorem State.mapEnts_sysView (s : State) (f : MapEnt → Bool) (g : MapEnt → MapEnt) :
    (s.mapEnts f g).sysView = s.sysView := by
  unfold State.mapEnts
  simp -implicitDefEqProofs +decide

@[simp] theorem State.supersede_sysView (s : State) (t k : Nat) :
    (s.supersede t k).sysView = s.sysView := by
  unfold State.supersede
  dsimp only
  split <;> simp -implicitDefEqProofs +decide

@[simp] theorem State.applyTomb_sysView (s : State) (b : Tomb) :
    (s.applyTomb b).sysView = s.sysView := by
  unfold State.applyTomb
  simp -implicitDefEqProofs +decide

@[simp] theorem State.modLayer_sysView (s : State) (slot side layer : Nat) (f : LayerSt → LayerSt) :
    (s.modLayer slot side layer f).sysView = s.sysView := by
  unfold State.modLayer
  simp -implicitDefEqProofs +decide

@[simp] theorem State.showFree_sysView (s : State) (slot : Nat) :
    (s.showFree slot).sysView = s.sysView := by
  unfold State.showFree
  simp -implicitDefEqProofs +decide

@[simp] theorem State.enqueue_sysView (s : State) (k : JobKind) (t : Nat) (cmd : Option Nat) (st slot : Nat)
    (write : Bool) (u : JobUnit) :
    (s.enqueue k t cmd st slot write u).sysView = s.sysView := by
  unfold State.enqueue
  dsimp only
  repeat' split
  all_goals simp -implicitDefEqProofs +decide

@[simp] theorem State.dropUnit_sysView (s : State) (id : UnitId) (write : Bool) (cmd : Option Nat) :
    (s.dropUnit id write cmd).sysView = s.sysView := by
  unfold State.dropUnit
  simp -implicitDefEqProofs +decide

/-! ### PlcOps -/

@[simp] theorem State.modUnit_sysView (s : State) (n : Nat) (f : UnitSt → UnitSt) :
    (s.modUnit n f).sysView = s.sysView := by
  unfold State.modUnit
  simp -implicitDefEqProofs +decide

@[simp] theorem State.addUnit_sysView (s : State) (u : UnitSt) :
    (s.addUnit u).sysView = s.sysView := by
  unfold State.addUnit
  simp -implicitDefEqProofs +decide

@[simp] theorem State.modOpen_sysView (s : State) (t k : Nat) (f : OpenVer → OpenVer) :
    (s.modOpen t k f).sysView = s.sysView := by
  unfold State.modOpen
  simp -implicitDefEqProofs +decide

@[simp] theorem State.logUnit_sysView (s : State) (u : UnitSt) (type copies dev code : Nat) :
    (s.logUnit u type copies dev code).sysView = s.sysView := by
  unfold State.logUnit
  simp -implicitDefEqProofs +decide

@[simp] theorem State.showRerepl_sysView (s : State) :
    (s.showRerepl).sysView = s.sysView := by
  unfold State.showRerepl
  simp -implicitDefEqProofs +decide

@[simp] theorem State.queueRerepl_sysView (s : State) (u : UnitSt) (n : Nat) :
    (s.queueRerepl u n).sysView = s.sysView := by
  unfold State.queueRerepl
  simp -implicitDefEqProofs +decide

@[simp] theorem State.giveUpCopy_sysView (s : State) (id : UnitId) (cmd : Option Nat) :
    (s.giveUpCopy id cmd).sysView = s.sysView := by
  unfold State.giveUpCopy
  simp -implicitDefEqProofs +decide

@[simp] theorem State.abandon_sysView (s : State) (id : UnitId) (cause : Nat) :
    (s.abandon id cause).sysView = s.sysView := by
  unfold State.abandon
  dsimp only
  refine (foldl_sysView (fun t a => ?_) _ _).trans (by simp -implicitDefEqProofs +decide)
  repeat' split
  all_goals simp -implicitDefEqProofs +decide

@[simp] theorem State.rereplFail_sysView (s : State) (u : UnitSt) :
    (s.rereplFail u).sysView = s.sysView := by
  unfold State.rereplFail
  simp -implicitDefEqProofs +decide

@[simp] theorem State.failUnit_sysView (s : State) (u : UnitSt) (cause : Nat) :
    (s.failUnit u cause).sysView = s.sysView := by
  unfold State.failUnit
  simp -implicitDefEqProofs +decide

@[simp] theorem State.bidRound_sysView (s : State) (u : UnitSt) (cands : List Nat) (again : Bool) :
    (s.bidRound u cands again).sysView = s.sysView := by
  unfold State.bidRound
  simp -implicitDefEqProofs +decide [State.newXid]

@[simp] theorem State.awardBid_sysView (s : State) (n : Nat) (b : BidRec) (repl : Bool) :
    (s.awardBid n b repl).sysView = s.sysView := by
  unfold State.awardBid
  dsimp only
  repeat' split
  all_goals simp -implicitDefEqProofs +decide

@[simp] theorem State.decideBids_sysView (s : State) (n : Nat) :
    (s.decideBids n).sysView = s.sysView := by
  unfold State.decideBids
  dsimp only
  repeat' split
  all_goals simp -implicitDefEqProofs +decide

@[simp] theorem State.bidsIn_sysView (s : State) (n : Nat) :
    (s.bidsIn n).sysView = s.sysView := by
  unfold State.bidsIn
  split <;> simp -implicitDefEqProofs +decide

@[simp] theorem State.completeUnit_sysView (s : State) (u : UnitSt) :
    (s.completeUnit u).sysView = s.sysView := by
  unfold State.completeUnit
  dsimp only
  repeat' split
  all_goals simp -implicitDefEqProofs +decide

@[simp] theorem State.unitCheck_sysView (s : State) (n : Nat) :
    (s.unitCheck n).sysView = s.sysView := by
  unfold State.unitCheck
  split <;> simp -implicitDefEqProofs +decide

@[simp] theorem State.copyFailed_sysView (s : State) (dev : Nat) (f : UnitSt → Bool) :
    (s.copyFailed dev f).sysView = s.sysView := by
  unfold State.copyFailed
  dsimp only
  repeat' split
  all_goals simp -implicitDefEqProofs +decide

@[simp] theorem State.countUnit_sysView (s : State) (v : OpenVer) (u : UnitSt) :
    (s.countUnit v u).sysView = s.sysView := by
  unfold State.countUnit
  simp -implicitDefEqProofs +decide

@[simp] theorem State.askTier_sysView (s : State) (x : Search) (n : Nat) : (s.askTier x n).sysView = s.sysView := by
  induction n generalizing x with
  | zero => rfl
  | succ n ih =>
    unfold State.askTier
    split
    · simp -implicitDefEqProofs +decide
    · split
      · exact ih _
      · refine (foldl_sysView (fun t d => ?_) _ _).trans rfl
        simp -implicitDefEqProofs +decide [State.newXid]

@[simp] theorem State.startSearch_sysView (s : State) (for_ : SearchFor) (id : UnitId) (skip : List Nat) :
    (s.startSearch for_ id skip).sysView = s.sysView := by
  unfold State.startSearch
  simp -implicitDefEqProofs +decide

@[simp] theorem State.modRead_sysView (s : State) (cmd unit : Nat) (f : RdUnit → RdUnit) :
    (s.modRead cmd unit f).sysView = s.sysView := by
  unfold State.modRead
  simp -implicitDefEqProofs +decide

theorem State.readLocal_sysView {s t : State} {c : Cmd} {unit : Nat} {e : MapEnt} (h : s.readLocal c unit e = some t) :
    t.sysView = s.sysView := by
  unfold State.readLocal at h
  split at h
  · cases h
  · cases h
    simp -implicitDefEqProofs +decide

@[simp] theorem State.readNext_sysView (s : State) (c : Cmd) (r : RdUnit) : (s.readNext c r).sysView = s.sysView := by
  unfold State.readNext
  split <;> simp -implicitDefEqProofs +decide [State.newXid]

@[simp] theorem State.readFailed_sysView (s : State) (c : Cmd) (r : RdUnit) :
    (s.readFailed c r).sysView = s.sysView := by
  unfold State.readFailed
  simp -implicitDefEqProofs +decide

@[simp] theorem State.readDelivered_sysView (s : State) (c : Cmd) (unit len : Nat) :
    (s.readDelivered c unit len).sysView = s.sysView := by
  unfold State.readDelivered
  simp -implicitDefEqProofs +decide

@[simp] theorem State.pendRecord_sysView (s : State) (slot side layer : Nat) (r : IdxRec) :
    (s.pendRecord slot side layer r).sysView = s.sysView := by
  unfold State.pendRecord
  simp -implicitDefEqProofs +decide

@[simp] theorem State.writeTomb_sysView (s : State) (b : Tomb) (cmd : Option Nat) (peer : Option (Nat × Nat)) :
    (s.writeTomb b cmd peer).sysView = s.sysView := by
  unfold State.writeTomb
  refine (foldl_sysView (fun t k => ?_) _ _).trans rfl
  dsimp only
  split <;> simp -implicitDefEqProofs +decide

@[simp] theorem State.tombsDone_sysView (s : State) : (s.tombsDone).sysView = s.sysView := by
  unfold State.tombsDone
  refine (foldl_sysView (fun t j => ?_) _ _).trans rfl
  dsimp only
  repeat' split
  all_goals simp -implicitDefEqProofs +decide

@[simp] theorem State.sendTomb_sysView (s : State) (c : Cmd) (b : Tomb) (d : Nat) :
    (s.sendTomb c b d).sysView = s.sysView := by
  unfold State.sendTomb
  simp -implicitDefEqProofs +decide [State.newXid]

@[simp] theorem State.migRead_sysView (s : State) (slot : Nat) (e : MapEnt) :
    (s.migRead slot e).sysView = s.sysView := by
  unfold State.migRead
  split <;> simp -implicitDefEqProofs +decide

@[simp] theorem State.migNext_sysView (s : State) :
    (s.migNext).sysView = s.sysView := by
  unfold State.migNext
  dsimp only
  repeat' split
  all_goals simp -implicitDefEqProofs +decide

/-! ### CmdOps -/

@[simp] theorem State.openVersion_sysView (s : State) (c : Cmd) (seq : Nat) :
    (s.openVersion c seq).sysView = s.sysView := by
  unfold State.openVersion
  simp -implicitDefEqProofs +decide

@[simp] theorem State.startPut_sysView (s : State) (c : Cmd) :
    (s.startPut c).sysView = s.sysView := by
  unfold State.startPut
  dsimp only
  repeat' split
  all_goals simp -implicitDefEqProofs +decide

@[simp] theorem State.startReads_sysView (s : State) (id : Nat) : (s.startReads id).sysView = s.sysView := by
  unfold State.startReads
  split
  · rfl
  · refine foldl_sysView (fun t r => ?_) _ _
    dsimp only
    repeat' split
    case h_1 h => rw [State.readLocal_sysView h, State.modRead_sysView]
    all_goals simp -implicitDefEqProofs +decide

@[simp] theorem State.startGet_sysView (s : State) (c : Cmd) :
    (s.startGet c).sysView = s.sysView := by
  unfold State.startGet
  simp -implicitDefEqProofs +decide

@[simp] theorem State.startSeal_sysView (s : State) (c : Cmd) :
    (s.startSeal c).sysView = s.sysView := by
  unfold State.startSeal
  split <;> simp -implicitDefEqProofs +decide

@[simp] theorem State.deleteNow_sysView (s : State) (c : Cmd) (ver : Nat) (holders : List Nat) :
    (s.deleteNow c ver holders).sysView = s.sysView := by
  unfold State.deleteNow
  simp -implicitDefEqProofs +decide

@[simp] theorem State.startDelete_sysView (s : State) (c : Cmd) :
    (s.startDelete c).sysView = s.sysView := by
  unfold State.startDelete
  simp -implicitDefEqProofs +decide

@[simp] theorem State.deleteTenant_sysView (s : State) (c : Cmd) :
    (s.deleteTenant c).sysView = s.sysView := by
  unfold State.deleteTenant
  simp -implicitDefEqProofs +decide

@[simp] theorem State.startReserve_sysView (s : State) (c : Cmd) :
    (s.startReserve c).sysView = s.sysView := by
  unfold State.startReserve
  dsimp only
  repeat' split
  all_goals simp -implicitDefEqProofs +decide

@[simp] theorem State.runStat_sysView (s : State) (c : Cmd) :
    (s.runStat c).sysView = s.sysView := by
  unfold State.runStat
  simp -implicitDefEqProofs +decide

@[simp] theorem State.runList_sysView (s : State) (c : Cmd) :
    (s.runList c).sysView = s.sysView := by
  unfold State.runList
  simp -implicitDefEqProofs +decide

@[simp] theorem State.startCmd_sysView (s : State) (c : Cmd) :
    (s.startCmd c).sysView = s.sysView := by
  unfold State.startCmd
  simp -implicitDefEqProofs +decide

@[simp] theorem State.endJobs_sysView (s : State) (id : Nat) :
    (s.endJobs id).sysView = s.sysView := by
  unfold State.endJobs
  simp -implicitDefEqProofs +decide

theorem State.endPut_sysView {s t : State} {c : Cmd} (h : s.endPut c = some t) : t.sysView = s.sysView := by
  unfold State.endPut at h
  dsimp only at h
  split_ifs at h
  all_goals
    cases h
    simp -implicitDefEqProofs +decide

theorem State.endGet_sysView {s t : State} {c : Cmd} (h : s.endGet c = some t) : t.sysView = s.sysView := by
  unfold State.endGet at h
  dsimp only at h
  split_ifs at h
  all_goals
    cases h
    simp -implicitDefEqProofs +decide

theorem State.endDelete_sysView {s t : State} {c : Cmd} (h : s.endDelete c = some t) : t.sysView = s.sysView := by
  unfold State.endDelete at h
  split_ifs at h
  all_goals
    cases h
    simp -implicitDefEqProofs +decide

theorem State.endReserve_sysView {s t : State} {c : Cmd} (h : s.endReserve c = some t) : t.sysView = s.sysView := by
  unfold State.endReserve at h
  repeat' split at h
  all_goals cases h
  simp -implicitDefEqProofs +decide

theorem State.endFlush_sysView {s t : State} {c : Cmd} (h : s.endFlush c = some t) : t.sysView = s.sysView := by
  unfold State.endFlush at h
  split_ifs at h
  all_goals
    cases h
    simp -implicitDefEqProofs +decide

theorem State.endCmd_sysView {s t : State} {c : Cmd} (h : s.endCmd c = some t) : t.sysView = s.sysView := by
  unfold State.endCmd at h
  split_ifs at h
  · exact State.endFlush_sysView h
  · exact State.endPut_sysView h
  · exact State.endGet_sysView h
  · exact State.endDelete_sysView h
  · exact State.endReserve_sysView h

@[simp] theorem State.searchDone_sysView (s : State) (x : Search) :
    (s.searchDone x).sysView = s.sysView := by
  unfold State.searchDone
  dsimp only
  repeat' split
  all_goals simp -implicitDefEqProofs +decide

@[simp] theorem State.tierDone_sysView (s : State) (n : Nat) : (s.tierDone n).sysView = s.sysView := by
  unfold State.tierDone
  split <;> simp -implicitDefEqProofs +decide

theorem State.settleOne_sysView {s t : State} (h : s.settleOne = some t) : t.sysView = s.sysView := by
  unfold State.settleOne at h
  dsimp only at h
  split at h
  next u hu =>
    cases h
    rw [Option.orElse_eq_or, Option.or_eq_some_iff] at hu
    rcases hu with hu | ⟨-, hu⟩
    · obtain ⟨v, -, hv⟩ := List.exists_of_findSome?_eq_some hu
      obtain ⟨w, -, rfl⟩ := Option.map_eq_some_iff.mp hv
      exact State.countUnit_sysView s v w
    · obtain ⟨x, -, rfl⟩ := Option.map_eq_some_iff.mp hu
      exact State.tierDone_sysView s x.n
  next =>
    split at h
    next u hu =>
      cases h
      obtain ⟨c, -, hc⟩ := List.exists_of_findSome?_eq_some hu
      exact State.endCmd_sysView hc
    next =>
      split at h
      · cases h
        exact State.startCmd_sysView s _
      · cases h

@[simp] theorem State.settleFor_sysView (n : Nat) (s : State) : (State.settleFor n s).sysView = s.sysView := by
  induction n generalizing s with
  | zero => rfl
  | succ n ih =>
    unfold State.settleFor
    split
    next t ht => rw [ih, State.settleOne_sysView ht]
    next => rfl

@[simp] theorem State.settle_sysView (s : State) :
    (s.settle).sysView = s.sysView := by
  unfold State.settle
  simp -implicitDefEqProofs +decide

@[simp] theorem State.newCmd_sysView (s : State) (p : Path) (op : Nat) (e : Entry) :
    (s.newCmd p op e).2.sysView = s.sysView := rfl

@[simp] theorem State.dropVersions_sysView (s : State) (keys : List (Nat × Nat)) :
    (s.dropVersions keys).sysView = s.sysView := by
  unfold State.dropVersions
  dsimp only
  refine (foldl_sysView (fun t a => ?_) _ _).trans (by simp -implicitDefEqProofs +decide)
  split <;> simp -implicitDefEqProofs +decide

@[simp] theorem State.sessionReset_sysView (s : State) (p : Path) (dreq : Bool) :
    (s.sessionReset p dreq).sysView = s.sysView := by
  unfold State.sessionReset
  split
  · rfl
  · simp -implicitDefEqProofs +decide

/-! ### Channel -/

@[simp] theorem State.modChn_sysView (s : State) (f : ChnSt → ChnSt) :
    (s.modChn f).sysView = s.sysView := rfl

@[simp] theorem State.gateTick_sysView (s : State) (k : Nat) :
    (s.gateTick k).sysView = s.sysView := by
  unfold State.gateTick
  simp -implicitDefEqProofs +decide

@[simp] theorem State.showSingle_sysView (s : State) (n : Nat) :
    (s.showSingle n).sysView = s.sysView := by
  unfold State.showSingle
  simp -implicitDefEqProofs +decide

@[simp] theorem State.chnTick_sysView (s : State) :
    (s.chnTick).sysView = s.sysView := by
  unfold State.chnTick
  simp -implicitDefEqProofs +decide

@[simp] theorem State.modExt_sysView (s : State) (n : Nat) (x : Option ExtSt) :
    (s.modExt n x).sysView = s.sysView := by
  unfold State.modExt
  simp -implicitDefEqProofs +decide

@[simp] theorem State.copyLost_sysView (s : State) (id : UnitId) (peer : Option (Nat × Nat)) (reason : Nat) :
    (s.copyLost id peer reason).sysView = s.sysView := by
  unfold State.copyLost
  split <;> simp -implicitDefEqProofs +decide

@[simp] theorem State.extEnd_sysView (s : State) (n : Nat) (x : ExtSt) (front : Nat) :
    (s.extEnd n x front).sysView = s.sysView := by
  unfold State.extEnd
  simp -implicitDefEqProofs +decide

@[simp] theorem State.extAbort_sysView (s : State) (n : Nat) (x : ExtSt) :
    (s.extAbort n x).sysView = s.sysView := by
  unfold State.extAbort
  simp -implicitDefEqProofs +decide

/-! ### RebuildOps -/

@[simp] theorem State.settleSlot_sysView (s : State) (k state : Nat) :
    (s.settleSlot k state).sysView = s.sysView := by
  unfold State.settleSlot
  simp -implicitDefEqProofs +decide

@[simp] theorem State.rebuildJob_sysView (s : State) (slot st : Nat) :
    (s.rebuildJob slot st).sysView = s.sysView := by
  unfold State.rebuildJob
  simp -implicitDefEqProofs +decide

@[simp] theorem State.applyRebuilt_sysView (s : State) :
    (s.applyRebuilt).sysView = s.sysView := by
  unfold State.applyRebuilt
  simp -implicitDefEqProofs +decide

@[simp] theorem State.rebuildFailed_sysView (s : State) (slot st : Nat) :
    (s.rebuildFailed slot st).sysView = s.sysView := by
  unfold State.rebuildFailed
  simp -implicitDefEqProofs +decide

/-! ### Placement -/

@[simp] theorem State.rereplNext_sysView (s : State) (u : UnitSt) :
    (s.rereplNext u).sysView = s.sysView := by
  unfold State.rereplNext
  dsimp only
  split <;> simp -implicitDefEqProofs +decide [State.newXid]

/-! ### StnWork -/

@[simp] theorem State.noteGen_sysView (s : State) (id : UnitId) (g : Nat) :
    (s.noteGen id g).sysView = s.sysView := by
  unfold State.noteGen
  simp -implicitDefEqProofs +decide

@[simp] theorem State.readEnd_sysView (s0 : State) (j : Job) (id : UnitId) (gen : Option Nat) :
    (s0.readEnd j id gen).sysView = s0.sysView := by
  unfold State.readEnd
  dsimp only
  repeat' split
  all_goals simp -implicitDefEqProofs +decide

@[simp] theorem State.writeEnd_sysView (s : State) (_j : Job) (id : UnitId) :
    (s.writeEnd _j id).sysView = s.sysView := by
  unfold State.writeEnd
  split <;> simp -implicitDefEqProofs +decide

@[simp] theorem State.cmdRevoked_sysView (s : State) (c : Cmd) :
    (s.cmdRevoked c).sysView = s.sysView := by
  unfold State.cmdRevoked
  simp -implicitDefEqProofs +decide
  split <;> simp -implicitDefEqProofs +decide

@[simp] theorem State.revoke_sysView (s : State) (st : Nat) (watchdog : Bool) :
    (s.revoke st watchdog).sysView = s.sysView := by
  unfold State.revoke
  split
  · rfl
  · dsimp only
    repeat' split
    all_goals
      simp -implicitDefEqProofs +decide
      refine foldl_sysView (fun t i => ?_) _ _
      split <;> simp -implicitDefEqProofs +decide

@[simp] theorem State.endStranded_sysView (s : State) (st : Nat) :
    (s.endStranded st).sysView = s.sysView := by
  unfold State.endStranded
  dsimp only
  refine (foldl_sysView (fun t a => ?_) _ _).trans (by simp -implicitDefEqProofs +decide)
  split <;> simp -implicitDefEqProofs +decide

@[simp] theorem State.rebind_sysView (s : State) (st : Nat) (j : Job) : (s.rebind st j).sysView = s.sysView := by
  unfold State.rebind
  dsimp only
  split
  · rfl
  · split
    · split <;> simp -implicitDefEqProofs +decide
    · split
      · refine foldl_sysView (fun t u => ?_) _ _
        split <;> simp -implicitDefEqProofs +decide
      · rfl

@[simp] theorem State.leaveService_sysView (s : State) (st : Nat) :
    (s.leaveService st).sysView = s.sysView := by
  unfold State.leaveService
  simp -implicitDefEqProofs +decide

@[simp] theorem State.serviceTick_sysView (s : State) (st : Nat) :
    (s.serviceTick st).sysView = s.sysView := by
  unfold State.serviceTick
  simp -implicitDefEqProofs +decide

/-! ### BoardOps -/

@[simp] theorem State.withTlv_sysView (s : State) (b : List Byte) (ty inst : Nat) {f : State → List Byte → State}
    (hf : ∀ v, (f s v).sysView = s.sysView) : (s.withTlv b ty inst f).sysView = s.sysView := by
  unfold State.withTlv
  split
  · exact hf _
  · rfl

/-! ### TxnOps -/

@[simp] theorem State.extendMsr_sysView (s : State) (n : Nat) (data : List Byte) :
    (s.extendMsr n data).sysView = s.sysView := rfl

@[simp] theorem State.closeTxn_sysView (s : State) (d last : Nat) :
    (s.closeTxn d last).sysView = s.sysView := by
  unfold State.closeTxn
  simp -implicitDefEqProofs +decide

@[simp] theorem State.ownerLost_sysView (s : State) (p : Path) :
    (s.ownerLost p).sysView = s.sysView := by
  unfold State.ownerLost
  simp -implicitDefEqProofs +decide

@[simp] theorem State.discardTxns_sysView (s : State) :
    (s.discardTxns).sysView = s.sysView := by
  unfold State.discardTxns
  dsimp only
  refine (foldl_sysView (fun t a => ?_) _ _).trans (by simp -implicitDefEqProofs +decide)
  repeat' split
  all_goals simp -implicitDefEqProofs +decide

@[simp] theorem State.txnDone_sysView (s : State) (d : Nat) (changed : List (Nat × Word)) :
    (s.txnDone d changed).sysView = s.sysView := by
  unfold State.txnDone
  dsimp only
  split <;> simp -implicitDefEqProofs +decide

@[simp] theorem State.retype_sysView (s old : State) (n : Nat) : (s.retype old n).sysView = s.sysView := by
  unfold State.retype
  dsimp only
  split_ifs <;> simp -implicitDefEqProofs +decide [State.draw]

@[simp] theorem State.resetSlot_sysView (s : State) (n : Nat) :
    (s.resetSlot n).sysView = s.sysView := by
  unfold State.resetSlot
  simp -implicitDefEqProofs +decide

@[simp] theorem State.clearCounts_sysView (s : State) (n : Nat) :
    (s.clearCounts n).sysView = s.sysView := by
  unfold State.clearCounts
  simp -implicitDefEqProofs +decide

@[simp] theorem State.applyServo_sysView (old s : State) : (State.applyServo old s).sysView = s.sysView := by
  unfold State.applyServo
  simp -implicitDefEqProofs +decide

@[simp] theorem State.rehint_sysView (s : State) (id : Nat) :
    (s.rehint id).sysView = s.sysView := by
  unfold State.rehint
  dsimp only
  repeat' split
  all_goals simp -implicitDefEqProofs +decide

@[simp] theorem State.reclass_sysView (old s : State) : (State.reclass old s).sysView = s.sysView := by
  unfold State.reclass
  simp -implicitDefEqProofs +decide

@[simp] theorem State.reclassHouse_sysView (s : State) :
    (s.reclassHouse).sysView = s.sysView := rfl

/-! ### NetOps -/

@[simp] theorem State.modNet_sysView (s : State) (f : NetSt → NetSt) :
    (s.modNet f).sysView = s.sysView := rfl

@[simp] theorem State.emit_sysView (s : State) (p : Nat) (prio : Option Nat) (what : NetOut) (event : Bool := false) :
    (s.emit p prio what event).sysView = s.sysView := by
  unfold State.emit
  simp -implicitDefEqProofs +decide

@[simp] theorem State.egress_sysView (s : State) (p k : Nat) :
    (s.egress p k).sysView = s.sysView := by
  unfold State.egress
  simp -implicitDefEqProofs +decide

@[simp] theorem State.egressTick_sysView (s : State) (p : Nat) : (s.egressTick p).sysView = s.sysView := by
  unfold State.egressTick State.draw
  dsimp only
  split <;> simp -implicitDefEqProofs +decide

@[simp] theorem State.sendTo_sysView (s : State) (m : BitVec 48) (prio : Option Nat) (what : NetOut) :
    (s.sendTo m prio what).sysView = s.sysView := by
  unfold State.sendTo
  split <;> simp -implicitDefEqProofs +decide

@[simp] theorem State.sendIp_sysView (s : State) (a : BitVec 128) (prio : Option Nat) (what : NetOut) :
    (s.sendIp a prio what).sysView = s.sysView := by
  unfold State.sendIp
  dsimp only
  split <;> simp -implicitDefEqProofs +decide

@[simp] theorem State.chooseMaster_sysView (s : State) :
    (s.chooseMaster).sysView = s.sysView := by
  unfold State.chooseMaster
  split <;> simp -implicitDefEqProofs +decide

@[simp] theorem State.loseMasters_sysView (s : State) (p : Nat) :
    (s.loseMasters p).sysView = s.sysView := by
  unfold State.loseMasters
  simp -implicitDefEqProofs +decide

@[simp] theorem State.sendSess_sysView (s : State) (sid : BitVec 14) (prio : Option Nat) (what : NetOut) :
    (s.sendSess sid prio what).sysView = s.sysView := by
  unfold State.sendSess
  split <;> simp -implicitDefEqProofs +decide

@[simp] theorem State.netSess_sysView (s : State) :
    (s.netSess).sysView = s.sysView := by
  unfold State.netSess
  split <;> simp -implicitDefEqProofs +decide

@[simp] theorem State.closeSession_sysView (s : State) (sid : BitVec 14) (dreq : Bool) :
    (s.closeSession sid dreq).sysView = s.sysView := by
  unfold State.closeSession
  split <;> simp -implicitDefEqProofs +decide

@[simp] theorem State.disconnect_sysView (s : State) (sid : BitVec 14) :
    (s.disconnect sid).sysView = s.sysView := by
  unfold State.disconnect
  simp -implicitDefEqProofs +decide

@[simp] theorem State.disconnectAll_sysView (s : State) :
    (s.disconnectAll).sysView = s.sysView := by
  unfold State.disconnectAll
  simp -implicitDefEqProofs +decide

@[simp] theorem State.fecTick_sysView (x : Samples) (s : State) (p : Nat) :
    (State.fecTick x s p).sysView = s.sysView := by
  unfold State.fecTick
  simp -implicitDefEqProofs +decide

@[simp] theorem State.netTick_sysView (x : Samples) (s0 : State) :
    (State.netTick x s0).sysView = s0.sysView := by
  unfold State.netTick
  dsimp only
  split <;> simp -implicitDefEqProofs +decide

/-! ### FltOps -/

@[simp] theorem State.faultEvent_sysView (s : State) (m : Msg) (sev : Nat) :
    (s.faultEvent m sev).sysView = s.sysView := by
  unfold State.faultEvent
  simp -implicitDefEqProofs +decide

@[simp] theorem State.logEvent_sysView (s : State) (m : Msg) :
    (s.logEvent m).sysView = s.sysView := by
  unfold State.logEvent
  simp -implicitDefEqProofs +decide

@[simp] theorem State.startPost_sysView (s : State) :
    (s.startPost).sysView = s.sysView := by
  unfold State.startPost
  simp -implicitDefEqProofs +decide

@[simp] theorem State.collectOne_sysView (s : State) (m : Msg) :
    (s.collectOne m).sysView = s.sysView := by
  unfold State.collectOne
  simp -implicitDefEqProofs +decide

@[simp] theorem State.collect_sysView (s : State) :
    (s.collect).sysView = s.sysView := by
  unfold State.collect
  simp -implicitDefEqProofs +decide

@[simp] theorem State.stnShow_sysView (s : State) (st : Nat) :
    (s.stnShow st).sysView = s.sysView := by
  unfold State.stnShow
  dsimp only
  split <;> simp -implicitDefEqProofs +decide

@[simp] theorem State.stationReact_sysView (s : State) (st : Nat) :
    (s.stationReact st).sysView = s.sysView := by
  unfold State.stationReact
  simp -implicitDefEqProofs +decide

@[simp] theorem State.setUnusable_sysView (s : State) (src : Nat) (b : Bool) :
    (s.setUnusable src b).sysView = s.sysView := by
  unfold State.setUnusable
  simp -implicitDefEqProofs +decide

@[simp] theorem State.markUnit_sysView (s0 : State) (src kind : Nat) :
    (s0.markUnit src kind).sysView = s0.sysView := by
  unfold State.markUnit
  simp -implicitDefEqProofs +decide

@[simp] theorem State.degrade_sysView (s : State) (m : Msg) :
    (s.degrade m).sysView = s.sysView := by
  unfold State.degrade
  simp -implicitDefEqProofs +decide

@[simp] theorem State.freezeSession_sysView (s : State) (sid : Nat) :
    (s.freezeSession sid).sysView = s.sysView := by
  unfold State.freezeSession
  dsimp only
  split <;> simp -implicitDefEqProofs +decide

@[simp] theorem State.fallBack_sysView (s : State) :
    (s.fallBack).sysView = s.sysView := by
  unfold State.fallBack
  simp -implicitDefEqProofs +decide

@[simp] theorem State.selfCheck_sysView (s : State) (ok : Bool) :
    (s.selfCheck ok).sysView = s.sysView := by
  unfold State.selfCheck
  simp -implicitDefEqProofs +decide

/-! ### BistOps -/

@[simp] theorem State.modBist_sysView (s : State) (f : BistSt → BistSt) :
    (s.modBist f).sysView = s.sysView := rfl

@[simp] theorem State.bistShow_sysView (s : State) :
    (s.bistShow).sysView = s.sysView := by
  unfold State.bistShow
  simp -implicitDefEqProofs +decide

/-! ### SelfTest -/

@[simp] theorem State.testClear_sysView (s : State) :
    (s.testClear).sysView = s.sysView := by
  unfold State.testClear
  simp -implicitDefEqProofs +decide

@[simp] theorem State.testEnd_sysView (s : State) (t : SelfTest) (outcome : Nat) :
    (s.testEnd t outcome).sysView = s.sysView := by
  unfold State.testEnd
  simp -implicitDefEqProofs +decide

@[simp] theorem State.testAbort_sysView (s : State) :
    (s.testAbort).sysView = s.sysView := by
  unfold State.testAbort
  split <;> simp -implicitDefEqProofs +decide

/-! ### ModeOps -/

@[simp] theorem State.allOff_sysView (s : State) :
    (s.allOff).sysView = s.sysView := by
  unfold State.allOff
  simp -implicitDefEqProofs +decide

@[simp] theorem State.owlCheck_sysView (s : State) :
    (s.owlCheck).sysView = s.sysView := by
  unfold State.owlCheck
  dsimp only
  repeat' split
  all_goals simp -implicitDefEqProofs +decide

@[simp] theorem State.leaveMode_sysView (s : State) :
    (s.leaveMode).sysView = s.sysView := by
  unfold State.leaveMode
  simp -implicitDefEqProofs +decide

@[simp] theorem State.refuseUnstarted_sysView (s : State) (code : Nat) :
    (s.refuseUnstarted code).sysView = s.sysView := by
  unfold State.refuseUnstarted
  simp -implicitDefEqProofs +decide

@[simp] theorem State.indexDue_sysView (s : State) :
    (s.indexDue).sysView = s.sysView := by
  unfold State.indexDue
  simp -implicitDefEqProofs +decide

@[simp] theorem State.drainBegins_sysView (s : State) (cause : DrainCause) :
    (s.drainBegins cause).sysView = s.sysView := by
  unfold State.drainBegins
  split <;> simp -implicitDefEqProofs +decide

@[simp] theorem State.flushAllDone_sysView (s : State) :
    (s.flushAllDone).sysView = s.sysView := by
  unfold State.flushAllDone
  simp -implicitDefEqProofs +decide

@[simp] theorem State.abortCommands_sysView (s : State) (code : Nat) :
    (s.abortCommands code).sysView = s.sysView := by
  unfold State.abortCommands
  simp -implicitDefEqProofs +decide

@[simp] theorem State.startFlush_sysView (s : State) (before : Nat) :
    (s.startFlush before).sysView = s.sysView := by
  unfold State.startFlush
  simp -implicitDefEqProofs +decide

@[simp] theorem State.endCommands_sysView (s : State) : s.endCommands.sysView = s.sysView := by
  unfold State.endCommands
  refine (foldl_sysView (fun t c => ?_) _ _).trans ?_
  · simp -implicitDefEqProofs +decide
  · rw [State.settle_sysView]
    refine foldl_sysView (fun t c => ?_) _ _
    split
    · rfl
    · split <;> simp -implicitDefEqProofs +decide

@[simp] theorem State.safeStation_sysView (s : State) (st : Nat) :
    (s.safeStation st).sysView = s.sysView := by
  unfold State.safeStation
  simp -implicitDefEqProofs +decide

@[simp] theorem State.safeAxes_sysView (s : State) :
    (s.safeAxes).sysView = s.sysView := by
  unfold State.safeAxes
  simp -implicitDefEqProofs +decide

/-! ### SecOps -/

@[simp] theorem State.modSec_sysView (s : State) (f : SecSt → SecSt) :
    (s.modSec f).sysView = s.sysView := rfl

@[simp] theorem State.eraseNow_sysView (s : State) (n : Nat) :
    (s.eraseNow n).sysView = s.sysView := by
  unfold State.eraseNow
  simp -implicitDefEqProofs +decide

@[simp] theorem State.beginComp_sysView (s : State) :
    (s.beginComp).sysView = s.sysView := by
  unfold State.beginComp
  split <;> simp -implicitDefEqProofs +decide

@[simp] theorem State.beginWrite_sysView (s : State) (b : Bundle) :
    (s.beginWrite b).sysView = s.sysView := by
  unfold State.beginWrite
  simp -implicitDefEqProofs +decide

/-! ### TickOps -/

@[simp] theorem State.slotTick_sysView (s : State) :
    (s.slotTick).sysView = s.sysView := by
  unfold State.slotTick
  simp -implicitDefEqProofs +decide

@[simp] theorem State.pickerRequests_sysView (s : State) :
    (s.pickerRequests).sysView = s.sysView := by
  unfold State.pickerRequests
  simp -implicitDefEqProofs +decide

@[simp] theorem State.pickerRound_sysView (s0 : State) :
    (s0.pickerRound).sysView = s0.sysView := by
  unfold State.pickerRound
  dsimp only
  repeat' split
  all_goals simp -implicitDefEqProofs +decide

@[simp] theorem State.maintRound_sysView (s : State) (st : Nat) :
    (s.maintRound st).sysView = s.sysView := by
  unfold State.maintRound
  simp -implicitDefEqProofs +decide

@[simp] theorem State.arbShow_sysView (s : State) :
    (s.arbShow).sysView = s.sysView := by
  unfold State.arbShow
  simp -implicitDefEqProofs +decide

@[simp] theorem State.charge_sysView (s : State) (t : Nat) (e : Rat) :
    (s.charge t e).sysView = s.sysView := by
  unfold State.charge
  simp -implicitDefEqProofs +decide

@[simp] theorem State.meterTick_sysView (x : Samples) (s : State) :
    (State.meterTick x s).sysView = s.sysView := by
  unfold State.meterTick
  simp -implicitDefEqProofs +decide
  repeat' split
  all_goals simp -implicitDefEqProofs +decide

@[simp] theorem State.usedTick_sysView (s : State) :
    (s.usedTick).sysView = s.sysView := by
  unfold State.usedTick
  simp -implicitDefEqProofs +decide
  repeat' split
  all_goals simp -implicitDefEqProofs +decide

@[simp] theorem State.progressTick_sysView (s : State) :
    (s.progressTick).sysView = s.sysView := by
  unfold State.progressTick
  simp -implicitDefEqProofs +decide

@[simp] theorem State.hintOne_sysView (s : State) (c : Cmd) :
    (s.hintOne c).sysView = s.sysView := by
  unfold State.hintOne
  split <;> simp -implicitDefEqProofs +decide

@[simp] theorem State.hintTick_sysView (s : State) :
    (s.hintTick).sysView = s.sysView := by
  unfold State.hintTick
  simp -implicitDefEqProofs +decide

@[simp] theorem State.waitedWrite_sysView (s : State) (w : Path × Nat × Word) :
    (s.waitedWrite w).sysView = s.sysView := by
  unfold State.waitedWrite
  split <;> simp -implicitDefEqProofs +decide

@[simp] theorem State.waitedWrites_sysView (s : State) :
    (s.waitedWrites).sysView = s.sysView := by
  unfold State.waitedWrites
  simp -implicitDefEqProofs +decide

@[simp] theorem State.beginTick_sysView (s : State) (x : Samples) :
    (s.beginTick x).sysView = s.sysView := rfl

@[simp] theorem State.coreTick_sysView (x : Samples) (s : State) :
    (State.coreTick x s).sysView = s.sysView := by
  unfold State.coreTick
  simp -implicitDefEqProofs +decide

end Sys2Proof.Machine
end

section
/-!
SUPPORT. The boundary count through the operations that do write the SYS block: of their view the count alone is kept, up to
the one step of a boundary.
-/

namespace Sys2Proof.Machine

open Sys2Proof

/-! ### The boundary count under operations that write the SYS block -/

@[simp] theorem State.setReg_viewTick (s : State) (a : Nat) (v : Word) : (s.setReg a v).sysView.tick = s.sysView.tick := rfl

@[simp] theorem State.set_viewTick (s : State) (f : Fld) (v : Nat) : (s.set f v).sysView.tick = s.sysView.tick := rfl

@[simp] theorem State.setFlag_viewTick (s : State) (f : Fld) (b : Bool) :
    (s.setFlag f b).sysView.tick = s.sysView.tick := rfl

@[simp] theorem State.incWrap_viewTick (s : State) (f : Fld) : (s.incWrap f).sysView.tick = s.sysView.tick := rfl

@[simp] theorem State.addSat_viewTick (s : State) (f : Fld) (n : Nat) :
    (s.addSat f n).sysView.tick = s.sysView.tick := rfl

@[simp] theorem ite_viewTick {c : Prop} [Decidable c] (s t : State) :
    (if c then s else t).sysView.tick = if c then s.sysView.tick else t.sysView.tick := by split <;> rfl

@[simp] theorem ite_tick {c : Prop} [Decidable c] (v w : SysView) : (if c then v else w).tick = if c then v.tick else w.tick :=
  apply_ite _ _ _ _

@[simp] theorem State.when_viewTick (s : State) (b : Bool) (f : State → State) :
    (s.when b f).sysView.tick = if b then (f s).sysView.tick else s.sysView.tick := by unfold State.when; split <;> rfl

@[simp] theorem viewTick_mk (s : State) {regs : List (Nat × Word)} {pending : List Instr} {free wstat : Nat}
    {rdata : List Word} {latch : List (Nat × Word)} {sys : SysSt} {ce : CeSt} {pu : Vector PuSt 4} {flt : FltSt}
    {bist : BistSt} {owl : OwlSt} {txn : Vector TxnSt 4} {cal : CalSt} {ax : Vector AxSt 7} {mag : MagSt}
    {stn : Vector StnSt 2} {pwr : PwrSt} {net : NetSt} {cmd : CmdSt} {mem : MemSt} {cch : CchSt} {flash : FlashSt}
    {plc : PlcSt} {chn : ChnSt} {arb : ArbSt} {mtr : MtrSt} {sec : SecSt} :
    (State.mk regs s.tick pending free wstat rdata latch sys ce pu flt bist owl txn cal ax mag stn pwr net cmd mem cch
      flash plc chn arb mtr sec).sysView.tick = s.sysView.tick := rfl

@[simp] theorem foldl_viewTick {α : Type} {f : State → α → State} (hf : ∀ t a, (f t a).sysView.tick = t.sysView.tick)
    (l : List α) (s : State) : (l.foldl f s).sysView.tick = s.sysView.tick := by
  induction l generalizing s with
  | nil => rfl
  | cons a l ih => rw [List.foldl_cons, ih, hf]

@[simp] theorem State.modSys_viewTick (s : State) (f : SysSt → SysSt) :
    (s.modSys f).sysView.tick = s.sysView.tick := by
  unfold State.modSys
  simp -implicitDefEqProofs +decide

@[simp] theorem State.prepareOverwrite_viewTick (s : State) :
    (s.prepareOverwrite).sysView.tick = s.sysView.tick := by
  unfold State.prepareOverwrite
  simp -implicitDefEqProofs +decide

@[simp] theorem State.reqResult_viewTick (s : State) (result : Nat) :
    (s.reqResult result).sysView.tick = s.sysView.tick := by
  unfold State.reqResult
  simp -implicitDefEqProofs +decide

@[simp] theorem State.reqSuperseded_viewTick (s : State) :
    (s.reqSuperseded).sysView.tick = s.sysView.tick := by
  unfold State.reqSuperseded
  simp -implicitDefEqProofs +decide

@[simp] theorem State.reqOvertaken_viewTick (s : State) (m : Nat) :
    (s.reqOvertaken m).sysView.tick = s.sysView.tick := by
  unfold State.reqOvertaken
  simp -implicitDefEqProofs +decide

@[simp] theorem State.enterProvision_viewTick (s : State) :
    (s.enterProvision).sysView.tick = s.sysView.tick := by
  unfold State.enterProvision
  simp -implicitDefEqProofs +decide

@[simp] theorem State.startRebuild_viewTick (s : State) :
    (s.startRebuild).sysView.tick = s.sysView.tick := by
  unfold State.startRebuild
  simp -implicitDefEqProofs +decide

@[simp] theorem State.changeMode_viewTick (s : State) (m cause : Nat) :
    (s.changeMode m cause).sysView.tick = s.sysView.tick := by
  unfold State.changeMode
  simp -implicitDefEqProofs +decide

@[simp] theorem State.recoverEnd_viewTick (s : State) :
    (s.recoverEnd).sysView.tick = s.sysView.tick := by
  unfold State.recoverEnd
  simp -implicitDefEqProofs +decide

@[simp] theorem State.actClear_viewTick (s : State) :
    (s.actClear).sysView.tick = s.sysView.tick := by
  unfold State.actClear
  simp -implicitDefEqProofs +decide

@[simp] theorem State.actCancel_viewTick (s : State) (outcome : Nat) :
    (s.actCancel outcome).sysView.tick = s.sysView.tick := by
  unfold State.actCancel
  simp -implicitDefEqProofs +decide

@[simp] theorem State.enterDrain_viewTick (s : State) (cause : DrainCause) (code : Nat) :
    (s.enterDrain cause code).sysView.tick = s.sysView.tick := by
  unfold State.enterDrain
  simp -implicitDefEqProofs +decide

@[simp] theorem State.actOvertakes_viewTick (s : State) :
    (s.actOvertakes).sysView.tick = s.sysView.tick := by
  unfold State.actOvertakes
  simp -implicitDefEqProofs +decide

@[simp] theorem State.activate_viewTick (s : State) :
    (s.activate).sysView.tick = s.sysView.tick := by
  unfold State.activate
  simp -implicitDefEqProofs +decide

@[simp] theorem State.rebuildTick_viewTick (s : State) :
    (s.rebuildTick).sysView.tick = s.sysView.tick := by
  unfold State.rebuildTick
  simp -implicitDefEqProofs +decide

@[simp] theorem State.arbTick_viewTick (s : State) :
    (s.arbTick).sysView.tick = s.sysView.tick := by
  unfold State.arbTick
  simp -implicitDefEqProofs +decide

@[simp] theorem State.linkChange_viewTick (s : State) (p : Nat) (up : Bool) :
    (s.linkChange p up).sysView.tick = s.sysView.tick := by
  unfold State.linkChange
  simp -implicitDefEqProofs +decide

@[simp] theorem State.portDown_viewTick (s : State) (p : Nat) (fault : Bool) :
    (s.portDown p fault).sysView.tick = s.sysView.tick := by
  unfold State.portDown
  simp -implicitDefEqProofs +decide

@[simp] theorem State.writeStart_viewTick (s : State) : s.writeStart.sysView.tick = s.sysView.tick := by
  unfold State.writeStart
  split
  · split <;> simp -implicitDefEqProofs +decide
  · rfl

@[simp] theorem State.shellTick_viewTick (x : Samples) (s : State) :
    (State.shellTick x s).sysView.tick = s.sysView.tick := by
  unfold State.shellTick
  simp -implicitDefEqProofs +decide

@[simp] theorem State.allBridgesOff_viewTick (s : State) :
    (s.allBridgesOff).sysView.tick = s.sysView.tick := by
  unfold State.allBridgesOff
  simp -implicitDefEqProofs +decide

@[simp] theorem State.bridgesEnd_viewTick (s : State) :
    (s.bridgesEnd).sysView.tick = s.sysView.tick := by
  unfold State.bridgesEnd
  simp -implicitDefEqProofs +decide

@[simp] theorem State.bootEnd_viewTick (s : State) :
    (s.bootEnd).sysView.tick = s.sysView.tick := by
  unfold State.bootEnd
  simp -implicitDefEqProofs +decide

@[simp] theorem State.reqGrant_viewTick (s : State) (m : Nat) :
    (s.reqGrant m).sysView.tick = s.sysView.tick := by
  unfold State.reqGrant
  simp -implicitDefEqProofs +decide

@[simp] theorem State.reqLacks_viewTick (s : State) (cond : Nat) :
    (s.reqLacks cond).sysView.tick = s.sysView.tick := by
  unfold State.reqLacks
  simp -implicitDefEqProofs +decide

@[simp] theorem State.decideRequest_viewTick (s : State) :
    (s.decideRequest).sysView.tick = s.sysView.tick := by
  unfold State.decideRequest
  simp -implicitDefEqProofs +decide

@[simp] theorem State.drainComplete_viewTick (s : State) : s.drainComplete.sysView.tick = s.sysView.tick := by
  unfold State.drainComplete
  split
  · split <;> simp -implicitDefEqProofs +decide
  · rfl

@[simp] theorem State.actTimeout_viewTick (s : State) :
    (s.actTimeout).sysView.tick = s.sysView.tick := by
  unfold State.actTimeout
  simp -implicitDefEqProofs +decide

@[simp] theorem State.flushAllDrain_viewTick (s : State) :
    (s.flushAllDrain).sysView.tick = s.sysView.tick := by
  unfold State.flushAllDrain
  simp -implicitDefEqProofs +decide

@[simp] theorem State.safeStop_viewTick (s : State) (cause : Nat) :
    (s.safeStop cause).sysView.tick = s.sysView.tick := by
  unfold State.safeStop
  simp -implicitDefEqProofs +decide

@[simp] theorem State.safeStopTick_viewTick (s : State) : s.safeStopTick.sysView.tick = s.sysView.tick := by
  unfold State.safeStopTick
  split <;> simp -implicitDefEqProofs +decide

@[simp] theorem State.modeTick_viewTick (s : State) :
    (s.modeTick).sysView.tick = s.sysView.tick := by
  unfold State.modeTick
  simp -implicitDefEqProofs +decide

@[simp] theorem State.orderSafeStop_viewTick (s : State) (cause : Nat) :
    (s.orderSafeStop cause).sysView.tick = s.sysView.tick := by
  unfold State.orderSafeStop
  simp -implicitDefEqProofs +decide

@[simp] theorem State.react_viewTick (s0 : State) :
    (s0.react).sysView.tick = s0.sysView.tick := by
  unfold State.react
  simp -implicitDefEqProofs +decide

/-- The state whose reactions run at a boundary has the next count. -/
theorem viewTick_next (s u : State) {flt : FltSt} : ({ u with flt := flt, tick := s.tick + 1 } : State).sysView.tick = s.sysView.tick + 1 := rfl

@[simp] theorem State.boundaryFaults_viewTick (s : State) (ok : Bool) :
    (s.boundaryFaults ok).sysView.tick = s.sysView.tick + 1 := by
  unfold State.boundaryFaults
  simp -implicitDefEqProofs +decide [viewTick_next]

@[simp] theorem State.applyMap_viewTick (s : State) :
    (s.applyMap).sysView.tick = s.sysView.tick := by
  unfold State.applyMap
  simp -implicitDefEqProofs +decide

@[simp] theorem State.applyNet_viewTick (old s : State) (l : List (Nat × Word)) :
    (State.applyNet old s l).sysView.tick = s.sysView.tick := by
  unfold State.applyNet
  simp -implicitDefEqProofs +decide

@[simp] theorem State.applyDomain_viewTick (old s : State) (d : Nat) (l : List (Nat × Word)) :
    (State.applyDomain old s d l).sysView.tick = s.sysView.tick := by
  unfold State.applyDomain
  simp -implicitDefEqProofs +decide

@[simp] theorem State.putWords_viewTick (s : State) (l : List (Nat × Word)) :
    (s.putWords l).sysView.tick = s.sysView.tick := by
  unfold State.putWords
  simp -implicitDefEqProofs +decide

@[simp] theorem State.epochApply_viewTick (s : State) :
    (s.epochApply).sysView.tick = s.sysView.tick := by
  unfold State.epochApply
  simp -implicitDefEqProofs +decide

@[simp] theorem State.applyTxn_viewTick (s : State) (d : Nat) :
    (s.applyTxn d).sysView.tick = s.sysView.tick := by
  unfold State.applyTxn
  simp -implicitDefEqProofs +decide

@[simp] theorem State.applyPage_viewTick (s : State) (a : Nat) (v : Word) :
    (s.applyPage a v).sysView.tick = s.sysView.tick := by
  unfold State.applyPage
  simp -implicitDefEqProofs +decide

@[simp] theorem State.applyWbuf_viewTick (s : State) :
    (s.applyWbuf).sysView.tick = s.sysView.tick := by
  unfold State.applyWbuf
  simp -implicitDefEqProofs +decide

@[simp] theorem State.epochEnd_viewTick (s : State) :
    (s.epochEnd).sysView.tick = s.sysView.tick := by
  unfold State.epochEnd
  simp -implicitDefEqProofs +decide

@[simp] theorem State.boundary_viewTick (s : State) (ok : Bool) : (s.boundary ok).sysView.tick = s.sysView.tick + 1 := by
  unfold State.boundary
  simp -implicitDefEqProofs +decide

theorem State.tickPasses_tick {s : State} (x : Samples) (hb : s.sys.boot ≠ .held) : (s.tickPasses x).tick = s.tick + 1 := by
  change (s.tickPasses x).sysView.tick = s.sysView.tick + 1
  unfold State.tickPasses
  rw [if_neg hb]
  split
  · rfl
  · simp -implicitDefEqProofs +decide

end Sys2Proof.Machine
end

section
/-!
PROOFS of the statements of 01_architecture.md, continued: ticks (O8) and the die-to-die link (O7), from the frame of the
SYS block.
-/

namespace Sys2Proof.Machine

open Sys2Proof

/-! ### Ticks (R58) -/

/-- Settles O8: nothing that a tick runs changes the boundary count but the boundary's own step (`State.tickPasses_tick`). -/
theorem tickBoundaryCountsOneTick : Obligations.TickBoundaryCountsOneTick := by
  refine ⟨fun x s hb => ⟨_, rfl, State.tickPasses_tick x hb⟩, fun x s hb => ⟨_, rfl, ?_⟩⟩
  have hheld : s.sys.boot ≠ .held := by rw [hb]; decide
  rw [State.tickPasses, if_neg hheld, if_pos hb]

/-! ### The die-to-die link (R19 to R23) -/

/-- An event of the Owl is counted in OWL_STAT alone. -/
theorem State.reg_capture (s : State) (kind flags : Nat) (data : Word) {a : Nat} (ha : a ≠ OWL_STAT) :
    (s.capture kind flags data).reg a = s.reg a := by
  unfold State.capture
  split
  · exact State.reg_addSat_other s _ ha
  · dsimp only
    split
    · exact State.reg_set_other _ _ ha
    · split
      · rw [State.reg_set_apart _ _ ha]
        exact State.reg_set_other _ _ ha
      · exact State.reg_set_other _ _ ha

/-- A write drop of a pickup leaves the words behind the Owl's, up to the fault counts. -/
theorem State.reg_inhibit (s : State) {n a : Nat} (c : Nat) (hn : n < 4) (ha : 0x120000 ≤ a) (hk : a < 0x1400000) :
    (s.inhibit n c).reg a = s.reg a := by
  have hset : ∀ (t : State) {b k m : Nat} (v : Nat), b < 0x120000 → (t.set ⟨b, k, m⟩ v).reg a = t.reg a :=
    fun t b k m v hb => State.reg_set_apart t v (by omega)
  have hfault : ∀ (t : State) kind arg, (t.puFault n kind arg).reg a = t.reg a := fun t kind arg =>
    State.reg_raise_other t (by simp only [keySrc]; omega) (by simp only [FLT_FB]; omega)
  have hopu : OPU_WI_TS n < 0x120000 := by simp only [OPU_WI_TS]; omega
  have hstat : OPU_STAT n < 0x120000 := by simp only [OPU_STAT]; omega
  have hwi : OPU_WI_STAT n < 0x120000 := by simp only [OPU_WI_STAT]; omega
  have hdrop : ∀ t : State, (t.dropGate n).reg a = t.reg a := fun t => by
    rw [State.dropGate, hset _ _ hstat, State.reg_when]
    rfl
  unfold State.inhibit
  dsimp only
  split
  · rw [State.reg_when _ _ _ (hfault _ _ _), hfault, State.reg_capture _ _ _ _ (by simp only [OWL_STAT]; omega),
      State.reg_setReg_other _ _ (by omega), State.reg_addSat_other _ _ (by dsimp only; omega), hset _ _ hwi, State.modPu_reg,
      hdrop, State.modPu_reg, hset _ _ hstat, hset _ _ hstat]
  · rw [State.modPu_reg, hset _ _ hstat, hset _ _ hstat]

/-- A word of the SYS block is the same in two states of one view. -/
theorem reg_of_sysView {s t : State} (h : t.sysView = s.sysView) {a : Nat} (ha : a < 0x10000) : t.reg a = s.reg a :=
  congrFun (congrArg SysView.word h) ⟨a, ha⟩

theorem get_of_sysView {s t : State} (h : t.sysView = s.sysView) {f : Fld} (hf : f.addr < 0x10000) : t.get f = s.get f := by
  simp only [State.get, reg_of_sysView h hf]

theorem flag_of_sysView {s t : State} (h : t.sysView = s.sysView) {f : Fld} (hf : f.addr < 0x10000) : t.flag f = s.flag f := by
  simp only [State.flag, get_of_sysView h hf]

theorem mode_of_sysView {s t : State} (h : t.sysView = s.sysView) : t.mode = s.mode := get_of_sysView h (by decide)

theorem sys_of_sysView {s t : State} (h : t.sysView = s.sysView) : t.sys = s.sys := congrArg SysView.sys h

/-- The gates that a lost link drops, of all four pickups. -/
theorem dropGates_spec (s : State) :
    ((List.range 4).foldl (fun t n => t.inhibit n wiLink) s).sysView = s.sysView ∧
      ((List.range 4).foldl (fun t n => t.inhibit n wiLink) s).get UPD_STAT_STATE = s.get UPD_STAT_STATE := by
  have hupd : ∀ (t : State) n, n < 4 → (t.inhibit n wiLink).get UPD_STAT_STATE = t.get UPD_STAT_STATE := fun t n hn => by
    simp only [State.get, State.reg_inhibit t wiLink hn (show 0x120000 ≤ UPD_STAT by decide) (by decide)]
  refine ⟨foldl_sysView (fun t n => State.inhibit_sysView t n wiLink) _ _, ?_⟩
  change (State.inhibit (State.inhibit (State.inhibit (State.inhibit s 0 wiLink) 1 wiLink) 2 wiLink) 3 wiLink).get _ = _
  rw [hupd _ 3 (by decide), hupd _ 2 (by decide), hupd _ 1 (by decide), hupd _ 0 (by decide)]

/-- SAFE_STOP falls due where the mode allows it and it is not due already (R34). -/
theorem orderSafeStop_due {s : State} {cause : Nat} (hm : s.mode ≠ modeBoot ∧ s.mode ≠ modeSafeStop)
    (hw : s.get UPD_STAT_STATE ≠ 5) (hd : s.sys.safeStopDue = none) :
    s.orderSafeStop cause = { s with sys := { s.sys with safeStopDue := some cause } } := by
  simp only [State.orderSafeStop, hm, hw, hd, Option.isSome_none, Bool.false_eq_true, or_self, if_false]


/-- A lost link clears D2D_UP and makes SAFE_STOP due with CAUSE 8. -/
theorem linkLost_spec {s : State} (side : Nat) (hup : s.flag SYS_STAT_D2D_UP = true) (hm : s.mode = modeServe)
    (hw : s.get UPD_STAT_STATE ≠ 5) (hd : s.sys.safeStopDue = none) :
    (s.linkLost side).flag SYS_STAT_D2D_UP = false ∧ (s.linkLost side).sys.safeStopDue = some 8 := by
  obtain ⟨hview, hupd⟩ := dropGates_spec s
  obtain ⟨u, hu⟩ : ∃ u, u = (List.range 4).foldl (fun (t : State) n => t.inhibit n wiLink) s := ⟨_, rfl⟩
  rw [← hu] at hview hupd
  obtain ⟨v, hv⟩ : ∃ v, v = (u.set SYS_STAT_D2D_UP 0).raise 0x0F0 1 side := ⟨_, rfl⟩
  have hget : ∀ f : Fld, f.addr < 0xF1000 → f.addr ≠ SYS_STAT → v.get f = u.get f := fun f hf hne => by
    rw [hv, State.get_raise_below _ hf, State.get_set_other _ _ (by decide) (.inl hne)]
  have hmode : v.mode = modeServe := by
    rw [State.mode, hget _ (by decide) (by decide), ← hm]
    exact mode_of_sysView hview
  have hwriting : v.get UPD_STAT_STATE ≠ 5 := by
    have : v.get UPD_STAT_STATE = u.get UPD_STAT_STATE := by
      simp only [State.get, hv, State.reg_raise_other (u.set SYS_STAT_D2D_UP 0) (src := 0x0F0) (kind := 1) (arg := side)
        (show UPD_STAT ≠ keySrc 0x0F0 0 by decide) (by decide), State.reg_set_apart u 0 (show UPD_STAT ≠ SYS_STAT by decide)]
    rwa [this, hupd]
  have hdue : v.sys.safeStopDue = none := by rw [hv, State.raise_sys, State.set_sys, sys_of_sysView hview, hd]
  have hlost : s.linkLost side = { v with sys := { v.sys with safeStopDue := some 8 } } := by
    rw [State.linkLost, if_pos hup, ← hu, ← hv]
    exact orderSafeStop_due (by rw [hmode]; decide) hwriting hdue
  rw [hlost]
  refine ⟨?_, rfl⟩
  change v.flag SYS_STAT_D2D_UP = false
  rw [hv, State.flag_raise_below _ (by decide), State.flag_set_zero _ (by decide)]

/-- The state once a flit's failures and replays are counted. -/
def State.flitFailed (s : State) (n : Nat) : State :=
  (s.addSat SYS_D2D_CNT_CRC_ERR (1 + n)).addSat SYS_D2D_CNT_REPLAY (min (n + 1) 4)

/-- The failures count as CRC errors, with the flit itself, and as replays (R21). -/
theorem flitFailed_counts (s : State) {n : Nat} (hn : n < 4) :
    (s.flitFailed n).get SYS_D2D_CNT_CRC_ERR =
        min SYS_D2D_CNT_CRC_ERR.top (s.get SYS_D2D_CNT_CRC_ERR + (1 + n)) ∧
      (s.flitFailed n).get SYS_D2D_CNT_REPLAY =
        min SYS_D2D_CNT_REPLAY.top (s.get SYS_D2D_CNT_REPLAY + (n + 1)) := by
  rw [State.flitFailed, Nat.min_eq_left (by omega : n + 1 ≤ 4)]
  constructor
  · rw [State.get_addSat_other _ _ (by decide) (by decide), State.get_addSat_same _ _ (by decide)]
  · rw [State.get_addSat_same _ _ (by decide), State.get_addSat_other _ _ (by decide) (by decide)]

theorem execD2dFlitCrcFail_eq (side : Fin 2) (failed : Fin 5) (s : State) :
    execD2dFlitCrcFail side failed s =
      .next (if failed.val = 4 then (s.flitFailed failed.val).linkLost side else s.flitFailed failed.val) := rfl

/-- Counting a flit changes SYS_D2D_CNT alone. -/
theorem State.flitFailed_spec (s : State) (n : Nat) :
    (s.flitFailed n).sys = s.sys ∧ ∀ a, a ≠ SYS_D2D_CNT → (s.flitFailed n).reg a = s.reg a := by
  refine ⟨?_, fun a ha => ?_⟩
  · rw [State.flitFailed, State.addSat_sys, State.addSat_sys]
  · rw [State.flitFailed, State.reg_addSat_other _ _ ha, State.reg_addSat_other _ _ ha]

/-- Settles O7: a replayed flit is counted (`flitFailed_counts`); a fourth failed replay loses the link as D2D_LINK_LOSS
does (`linkLost_spec`). -/
theorem dieLinkErrorsAreCountedAndLossStops : Obligations.DieLinkErrorsAreCountedAndLossStops := by
  refine ⟨?replayed, ?fourth, ?loss⟩
  case replayed =>
    intro side failed s hf
    obtain ⟨hcrc, hreplay⟩ := flitFailed_counts s hf
    have hrow : execD2dFlitCrcFail side failed s = .next (s.flitFailed failed.val) := by
      rw [execD2dFlitCrcFail_eq, if_neg (by omega)]
    exact ⟨_, hrow, hcrc, hreplay, s.flitFailed_spec _⟩
  case fourth =>
    intro side s hup hm hw hd
    obtain ⟨hsys, hreg⟩ := s.flitFailed_spec (4 : Fin 5).val
    have hget : ∀ f : Fld, f.addr ≠ SYS_D2D_CNT → (s.flitFailed (4 : Fin 5).val).get f = s.get f := fun f hf => by
      simp only [State.get, hreg _ hf]
    have hrow : execD2dFlitCrcFail side 4 s = .next ((s.flitFailed (4 : Fin 5).val).linkLost side) := by
      rw [execD2dFlitCrcFail_eq, if_pos (by decide)]
    refine ⟨_, hrow, linkLost_spec side ?_ ?_ ?_ ?_⟩
    · rw [State.flag, hget _ (by decide)]
      exact hup
    · exact (hget _ (by decide)).trans hm
    · rwa [hget _ (by decide)]
    · rwa [hsys]
  case loss =>
    intro side s hup hm hw hd
    exact ⟨_, rfl, linkLost_spec side hup hm hw hd⟩

end Sys2Proof.Machine
end

section
/-!
PROOFS of the statements of 01_architecture.md, continued: the events that change the mode (O5), from the frame of the SYS
block.
-/

namespace Sys2Proof.Machine

open Sys2Proof

/-! ### Changes of mode (R34 to R38) -/

/-- The result of a request stands in SYS_MODE_RES alone. -/
theorem State.get_reqResult (s : State) (r : Nat) {f : Fld} (hf : f.addr ≠ SYS_MODE_RES) :
    (s.reqResult r).get f = s.get f := by
  rw [State.reqResult, State.modSys_get, State.get_set_other _ _ (by decide) (.inl hf)]

theorem State.get_reqSuperseded (s : State) {f : Fld} (hf : f.addr ≠ SYS_MODE_RES) : s.reqSuperseded.get f = s.get f := by
  rw [State.reqSuperseded, State.get_set_other _ _ (by decide) (.inl hf), State.get_reqResult _ _ hf]

theorem State.get_reqOvertaken (s : State) (m : Nat) {f : Fld} (hf : f.addr ≠ SYS_MODE_RES) :
    (s.reqOvertaken m).get f = s.get f := by
  unfold State.reqOvertaken
  split
  · split
    · exact State.get_reqResult _ _ hf
    · exact State.get_reqSuperseded _ hf
  · rfl

theorem State.get_actOvertakes (s : State) {f : Fld} (hf : f.addr ≠ SYS_MODE_RES) : s.actOvertakes.get f = s.get f := by
  rw [State.actOvertakes, State.modSys_get]
  split
  · exact State.get_reqSuperseded _ hf
  · rfl

/-- The new mode as SYS_MODE shows it, with the mode left and the cause. -/
def State.shownMode (s : State) (m cause : Nat) : State :=
  ((s.leaveMode.set SYS_MODE_PREV s.mode).set SYS_MODE_MODE m).set SYS_MODE_CAUSE cause

theorem State.shownMode_spec (s : State) {m cause : Nat} (hm : m < 16) (hc : cause < 16) :
    (s.shownMode m cause).mode = m ∧ (s.shownMode m cause).get SYS_MODE_PREV = s.mode ∧
      (s.shownMode m cause).get SYS_MODE_CAUSE = cause ∧
      ∀ f : Fld, f.addr < 0x10000 → f.addr ≠ SYS_MODE → (s.shownMode m cause).get f = s.get f := by
  have hlt : s.mode < 16 := State.get_lt s SYS_MODE_MODE
  unfold State.shownMode State.mode at *
  refine ⟨?_, ?_, ?_, fun f hf hne => ?_⟩
  · rw [State.get_set_apart _ _ (by decide) (by decide) (by decide), State.get_set_here _ _ (by decide) (by decide)]
    exact Nat.mod_eq_of_lt hm
  · rw [State.get_set_apart _ _ (by decide) (by decide) (by decide),
      State.get_set_apart _ _ (by decide) (by decide) (by decide), State.get_set_here _ _ (by decide) (by decide)]
    exact Nat.mod_eq_of_lt hlt
  · rw [State.get_set_here _ _ (by decide) (by decide)]
    exact Nat.mod_eq_of_lt hc
  · rw [State.get_set_other _ _ (by decide) (.inl hne), State.get_set_other _ _ (by decide) (.inl hne),
      State.get_set_other _ _ (by decide) (.inl hne)]
    exact get_of_sysView (State.leaveMode_sysView s) hf

/-- Entering MAINTAIN, the SYS block shows the mode, the requests overtaken and no drain done; the axes and Badger come on
after that and leave it. -/
theorem changeMode_maintain (s : State) (cause : Nat) : ∃ (u : State) (f : SysSt → SysSt),
    u.sysView = (s.shownMode modeMaintain cause).sysView ∧
      (s.changeMode modeMaintain cause).sysView =
        (((u.reqOvertaken modeMaintain).set SYS_STAT_DRAIN_DONE 0).modSys f).sysView := by
  refine ⟨(s.shownMode modeMaintain cause).capture evMode 0 (BitVec.ofNat 32
    (bitsOf ((s.shownMode modeMaintain cause).reg SYS_MODE).toNat 11 0)), fun y =>
    { y with changedAt := some s.tick, drain := if modeMaintain = modeDrain then y.drain else .none,
             served := y.served || modeMaintain == modeServe }, State.capture_sysView _ _ _ _, ?_⟩
  unfold State.changeMode
  dsimp only
  rw [if_neg (by decide), if_neg (by decide), if_pos rfl, State.badgerHoming_sysView, State.axesOn_sysView]
  rfl

theorem changeMode_maintain_spec (s : State) {cause : Nat} (hc : cause < 16) :
    (s.changeMode modeMaintain cause).mode = modeMaintain ∧ (s.changeMode modeMaintain cause).get SYS_MODE_PREV = s.mode ∧
      (s.changeMode modeMaintain cause).get SYS_MODE_CAUSE = cause ∧
      (s.changeMode modeMaintain cause).flag SYS_STAT_ACT_PENDING = s.flag SYS_STAT_ACT_PENDING := by
  obtain ⟨u, f, hu, hview⟩ := changeMode_maintain s cause
  obtain ⟨hmode, hprev, hcause, hother⟩ := s.shownMode_spec (m := modeMaintain) (by decide) hc
  have hget : ∀ g : Fld, g.addr < 0x10000 → g.addr ≠ SYS_MODE_RES → g.apart SYS_STAT_DRAIN_DONE →
      (s.changeMode modeMaintain cause).get g = (s.shownMode modeMaintain cause).get g := fun g hg hne hd => by
    rw [get_of_sysView hview hg, State.modSys_get, State.get_set_other _ _ (by decide) hd, State.get_reqOvertaken _ _ hne,
      get_of_sysView hu hg]
  refine ⟨?_, ?_, ?_, ?_⟩
  · exact (hget _ (by decide) (by decide) (by decide)).trans hmode
  · exact (hget _ (by decide) (by decide) (by decide)).trans hprev
  · exact (hget _ (by decide) (by decide) (by decide)).trans hcause
  · rw [State.flag, hget _ (by decide) (by decide) (by decide), hother _ (by decide) (by decide), State.flag]

/-- Preparing the Jack overwrite stops the work of the device; of the SYS block only the mark of the overwrite changes. -/
theorem prepareOverwrite_sysView (s : State) :
    s.prepareOverwrite.sysView = (s.modSys fun y => { y with overwrite := true }).sysView := by
  have hmod : ∀ (t u : State), t.sysView = u.sysView → ∀ f, (t.modSys f).sysView = (u.modSys f).sysView := fun t u h f => by
    change SysView.mk t.sysView.tick (f t.sysView.sys) t.sysView.word = _
    rw [h]
    rfl
  unfold State.prepareOverwrite
  dsimp only
  rw [State.bistShow_sysView]
  refine hmod _ _ ?_ _
  simp -implicitDefEqProofs +decide

theorem prepareOverwrite_spec (s : State) :
    s.prepareOverwrite.sys.overwrite = true ∧ ∀ f : Fld, f.addr < 0x10000 → s.prepareOverwrite.get f = s.get f := by
  have hview := prepareOverwrite_sysView s
  refine ⟨?_, fun f hf => ?_⟩
  · rw [sys_of_sysView hview]
    rfl
  · rw [get_of_sysView hview hf, State.modSys_get]

/-! ### Activations (R44, R565) -/

theorem State.flag_actClear (s : State) : s.actClear.flag SYS_STAT_ACT_PENDING = false := by
  rw [State.flag]
  have hget : s.actClear.get SYS_STAT_ACT_PENDING = (s.set SYS_STAT_ACT_PENDING 0).get SYS_STAT_ACT_PENDING := by
    simp only [State.get, State.actClear]
    rw [State.reg_setReg_other _ _ (by decide), State.reg_setReg_other _ _ (by decide), State.reg_setReg_other _ _ (by decide)]
  rw [hget, ← State.flag, State.flag_set_zero _ (by decide)]

theorem State.get_actClear (s : State) {f : Fld} (hf : f.addr < 0x10000) (hne : f.addr ≠ SYS_STAT) :
    s.actClear.get f = s.get f := by
  simp only [State.get, State.actClear]
  rw [State.reg_setReg_other _ _ (by dsimp only [UPD_ACT_NS]; omega), State.reg_setReg_other _ _ (by dsimp only [UPD_ACT_HI]; omega),
    State.reg_setReg_other _ _ (by dsimp only [UPD_ACT_LO]; omega), State.reg_set_other _ _ hne]

/-- The state once a due activation is taken, before the mode changes. -/
def State.actTaken (s : State) : State :=
  ((s.actClear.set UPD_ACT_STAT_TMO_EXPIRED 0).set UPD_ACT_STAT_ABORTED 0).set UPD_ACT_STAT_OUTCOME 0

theorem State.actTaken_spec (s : State) : s.actTaken.flag SYS_STAT_ACT_PENDING = false ∧ s.actTaken.mode = s.mode := by
  have hset : ∀ (t : State) {k m : Nat} (v : Nat), (t.set ⟨UPD_ACT_STAT, k, m⟩ v).sysView = t.sysView :=
    fun t k m v => State.set_sysView t v (by dsimp only; decide)
  have hview : s.actTaken.sysView = s.actClear.sysView := by
    rw [State.actTaken, hset, hset, hset]
  refine ⟨?_, ?_⟩
  · rw [flag_of_sysView hview (by decide), State.flag_actClear]
  · rw [mode_of_sysView hview, State.mode, State.mode, State.get_actClear s (by decide) (by decide)]

/-- What a due activation does outside SERVE and DRAIN: it is cancelled in SAFE_STOP, PROVISION changes to MAINTAIN, and
MAINTAIN stays. -/
theorem activate_safeStop {s : State} (hdue : s.actDue = true) (hc : s.changed = false) (hm : s.mode = modeSafeStop) :
    s.activate = s.actCancel 3 := by
  rw [State.activate, if_pos (by rw [hdue, hc]; rfl)]
  exact if_pos (.inr hm)

theorem activate_provision {s : State} (hdue : s.actDue = true) (hc : s.changed = false) (hm : s.mode = modeProvision) :
    s.activate = (s.actTaken.changeMode modeMaintain mcActivation).prepareOverwrite := by
  rw [State.activate, if_pos (by rw [hdue, hc]; rfl)]
  dsimp only
  rw [if_neg (by rw [hm]; decide), if_neg (by rw [hm]; decide), if_neg (by rw [hm]; decide), if_pos hm, State.actTaken]

theorem activate_maintain {s : State} (hdue : s.actDue = true) (hc : s.changed = false) (hm : s.mode = modeMaintain) :
    s.activate = s.actTaken.actOvertakes.prepareOverwrite := by
  rw [State.activate, if_pos (by rw [hdue, hc]; rfl)]
  dsimp only
  rw [if_neg (by rw [hm]; decide), if_neg (by rw [hm]; decide), if_neg (by rw [hm]; decide),
    if_neg (by rw [hm]; decide), State.actTaken]

theorem actDue_pending {s : State} (h : s.actDue = true) : s.flag SYS_STAT_ACT_PENDING = true := by
  rw [State.actDue, Bool.and_eq_true] at h
  exact h.1

/-- Cancelling a pending activation clears it and shows why. -/
theorem actCancel_spec {s : State} {outcome : Nat} (hp : s.flag SYS_STAT_ACT_PENDING = true) (ho : outcome < 4) :
    (s.actCancel outcome).flag SYS_STAT_ACT_PENDING = false ∧ (s.actCancel outcome).get UPD_ACT_STAT_OUTCOME = outcome ∧
      (s.actCancel outcome).mode = s.mode := by
  have hraise : ∀ (t : State) (f : Fld), f.addr ≠ keySrc 0x0E1 0 → f.addr ≠ FLT_FB 0x0E1 →
      (t.raise 0x0E1 2 outcome).get f = t.get f := fun t f hk hl => by
    simp only [State.get, State.reg_raise_other t hk hl]
  rw [State.actCancel, if_pos hp]
  refine ⟨?_, ?_, ?_⟩
  · rw [State.flag, hraise _ _ (by decide) (by decide), State.get_set_other _ _ (by decide) (by decide), ← State.flag,
      State.flag_actClear]
  · rw [hraise _ _ (by decide) (by decide), State.get_set_here _ _ (by decide) (by decide)]
    exact Nat.mod_eq_of_lt (by omega)
  · rw [State.mode, hraise _ _ (by decide) (by decide), State.get_set_other _ _ (by decide) (by decide)]
    exact State.get_actClear s (by decide) (by decide)

/-- A drain past its time limit ends the commands, shows that, and enters MAINTAIN. -/
theorem actTimeout_spec {s : State} (h : s.actExpired = true) :
    s.actTimeout.mode = modeMaintain ∧ s.actTimeout.get SYS_MODE_CAUSE = mcActTmo ∧ s.actTimeout.sys.overwrite = true := by
  obtain ⟨u, hu⟩ : ∃ u : State, s.actTimeout = (u.changeMode modeMaintain mcActTmo).prepareOverwrite := by
    rw [State.actTimeout, if_pos h]
    exact ⟨_, rfl⟩
  obtain ⟨hmode, -, hcause, -⟩ := changeMode_maintain_spec u (cause := mcActTmo) (by decide)
  obtain ⟨hover, hget⟩ := prepareOverwrite_spec (u.changeMode modeMaintain mcActTmo)
  rw [hu]
  exact ⟨(hget _ (by decide)).trans hmode, (hget _ (by decide)).trans hcause, hover⟩

/-- The end of a recovery clears RECOVERING, and what comes due then leaves the SYS block. -/
theorem recoverEnd_spec {s : State} (hr : s.flag SYS_STAT_RECOVERING = true) (hb : s.get SYS_STAT_REBUILT = 24) :
    s.recoverEnd.flag SYS_STAT_RECOVERING = false := by
  obtain ⟨u, hu⟩ : ∃ u : State, s.recoverEnd.sysView = (u.set SYS_STAT_RECOVERING 0).sysView := by
    rw [State.recoverEnd, if_pos (by rw [hr, hb]; rfl)]
    dsimp only
    refine ⟨s.applyRebuilt, ?_⟩
    rw [State.settle_sysView, State.cmdCounts_sysView, sysView_mk _ rfl rfl]
  rw [flag_of_sysView hu (by decide), State.flag_set_zero _ (by decide)]

/-- The bridges off leave their mark. -/
theorem bridgesEnd_spec {s : State} (h : s.bridgesDue = true) : s.bridgesEnd.sys.bridgesOff = true := by
  rw [State.bridgesEnd, if_pos h]
  rfl

/-- A host's drain that is over is shown done, where no request waits for MAINTAIN. -/
theorem drainComplete_host {s : State} (hm : s.mode = modeDrain) (hd : s.sys.drain = .host) (hc : s.changed = false)
    (hdone : s.flag SYS_STAT_DRAIN_DONE = false) (hw : s.sys.maintainWaits = false)
    (hcmds : ∀ x ∈ s.cmd.cmds, x.started = false ∧ x.op ≠ opFlush) : s.drainComplete = s.set SYS_STAT_DRAIN_DONE 1 := by
  have hover : s.drainOver = true := by
    rw [State.drainOver, hm, hd]
    simpa using hcmds
  simp only [State.drainComplete, hover, hc, hdone, hd, hw, Bool.not_false, Bool.and_self, Bool.false_eq_true, if_true,
    if_false]

/-- Settles O5: each event is the rule of its operation (`drainComplete_host`, `activate_*`, `actTimeout_spec`,
`recoverEnd_spec`, `bridgesEnd_spec`), where no order of SAFE_STOP goes before it. -/
theorem modesChangeByTheirEvents : Obligations.ModesChangeByTheirEvents := by
  refine ⟨?drain, ?safeStop, ?provision, ?maintain, ?timeout, ?recovering, ?bridges⟩
  case drain =>
    intro s hdue hact hm hd hc hdone hw hcmds
    have hrow : execDrainComplete s = .next (s.set SYS_STAT_DRAIN_DONE 1) := by
      rw [execDrainComplete, if_neg (by rw [hdue, hact]; decide), drainComplete_host hm hd hc hdone hw hcmds]
    refine ⟨_, hrow, ?_, ?_, fun a ha => State.reg_set_apart s 1 ha⟩
    · rw [State.flag, State.get_set_here _ _ (by decide) (by decide)]
      rfl
    · rw [State.mode, State.get_set_other _ _ (by decide) (by decide)]
      exact hm
  case safeStop =>
    intro s hdue hm hc hact
    have hrow : execActivationInstant s = .next (s.actCancel 3) := by
      rw [execActivationInstant, if_neg (by rw [hdue]; decide), activate_safeStop hact hc hm]
    obtain ⟨hpend, hout, hmode⟩ := actCancel_spec (outcome := 3) (actDue_pending hact) (by decide)
    exact ⟨_, hrow, hpend, hout, hmode.trans hm⟩
  case provision =>
    intro s hdue hm hc hact
    obtain ⟨hpend, htaken⟩ := s.actTaken_spec
    obtain ⟨hmode, hprev, hcause, hflag⟩ := changeMode_maintain_spec s.actTaken (cause := mcActivation) (by decide)
    obtain ⟨hover, hget⟩ := prepareOverwrite_spec (s.actTaken.changeMode modeMaintain mcActivation)
    have hrow : execActivationInstant s =
        .next (s.actTaken.changeMode modeMaintain mcActivation).prepareOverwrite := by
      rw [execActivationInstant, if_neg (by rw [hdue]; decide), activate_provision hact hc hm]
    refine ⟨_, hrow, (hget _ (by decide)).trans hmode, ?_, (hget _ (by decide)).trans hcause, hover, ?_⟩
    · rw [hget _ (by decide), hprev, htaken, hm]
    · rw [State.flag, hget _ (by decide), ← State.flag, hflag, hpend]
  case maintain =>
    intro s hdue hm hc hact
    obtain ⟨hpend, htaken⟩ := s.actTaken_spec
    obtain ⟨hover, hget⟩ := prepareOverwrite_spec s.actTaken.actOvertakes
    have hrow : execActivationInstant s = .next s.actTaken.actOvertakes.prepareOverwrite := by
      rw [execActivationInstant, if_neg (by rw [hdue]; decide), activate_maintain hact hc hm]
    refine ⟨_, hrow, ?_, hover, ?_⟩
    · rw [State.mode, hget _ (by decide), State.get_actOvertakes _ (by decide), ← State.mode, htaken, hm]
    · rw [State.flag, hget _ (by decide), State.get_actOvertakes _ (by decide), ← State.flag, hpend]
  case timeout =>
    intro s hdue hexp
    have hrow : execActDrainTmo s = .next s.actTimeout := by
      rw [execActDrainTmo, if_neg (by rw [hdue]; decide)]
    exact ⟨_, hrow, actTimeout_spec hexp⟩
  case recovering =>
    intro s hr hb
    exact ⟨_, rfl, recoverEnd_spec hr hb⟩
  case bridges =>
    intro s h
    exact ⟨_, rfl, bridgesEnd_spec h⟩

end Sys2Proof.Machine
end

section
/-!
PROOFS of the statements of 02_servo_tick.md: the events of time (O9, refuted by a shadow that names TICK_EPOCH).
-/

namespace Sys2Proof.Machine

open Sys2Proof

/-- An epoch is due while the media domain is PENDING_EPOCH, and its shadow holds a word for TICK_EPOCH. -/
def strayShadow : State :=
  { (State.reset.set (TXN_STAT_W0_STATE 1) 2).setTxn 1 { shadow := [(TICK_EPOCH, 7)] } with tick := 500000 }

/-- The epoch boundary counts epoch 1, and then writes the shadow word over it. The state meets the invariant that every
step keeps (O60): that invariant does not say which keys a shadow holds. -/
theorem strayShadow_spec :
    strayShadow.Inv ∧ strayShadow.epochDue = true ∧ strayShadow.get TICK_EPOCH_EPOCH = 0 ∧
      strayShadow.epochEnd.get TICK_EPOCH_EPOCH = 7 := by decide +kernel

/-- Refutes O9, in its clause on EPOCH_BOUNDARY: the end of an epoch writes the shadow words of a commit that waits for it at
whatever keys they have (`State.epochApply`), so a shadow word at TICK_EPOCH replaces the count. The commits of a run leave
ARB_SLOT words alone to wait (R438, `State.applyTxn`), but the statement is about every state. -/
theorem not_timeEventsMoveTheTickGenerator : ¬ Obligations.TimeEventsMoveTheTickGenerator := by
  intro ⟨_, _, _, hepoch, _⟩
  obtain ⟨-, hdue, hbefore, hafter⟩ := strayShadow_spec
  obtain ⟨t, hrow, -, hcount⟩ := hepoch strayShadow hdue
  have ht : strayShadow.epochEnd = t := by
    have hend : exec .epochBoundary strayShadow = .next strayShadow.epochEnd :=
      congrArg Host.Outcome.next (if_pos hdue)
    exact Host.Outcome.next.inj (hend.symm.trans hrow)
  rw [← ht, hafter, hbefore] at hcount
  exact absurd hcount (by decide)

end Sys2Proof.Machine
end

section
/-!
PROOFS of the statements of 02_servo_tick.md, continued: the enable of the auxiliary input (O57), as its row and as REG_WRITE of
CE_AUX_CTL.
-/

namespace Sys2Proof.Machine

open Sys2Proof

/-! ### CE_AUX_CTL (R100) -/

/-- Bookkeeping of commands neither silences a path nor closes it to writes. -/
theorem State.alike.silent_eq {s t : State} (h : s.alike t) (p : Path) : t.silent p = s.silent p := by
  cases p with
  | session id => rfl
  | service => simp only [State.silent, h.sys_eq]

theorem State.noted.opens {s u : State} {p : Path} (h : s.noted u) (ho : s.opens p) : u.opens p :=
  ⟨(h.alike.silent_eq p).trans ho.1, (writeRefusal_eq h.alike h.words p).trans ho.2⟩

/-- A REG_WRITE of a mapped register that changes registers alone ends with the status of the write. -/
theorem runRegWrite_eq {s t : State} {c : Cmd} {code : Nat} (hm : isMapped c.e.arg0.toNat = true)
    (hrst : c.e.arg0.toNat ≠ SYS_RST) (hw : s.writeReg c.path c.e.arg0.toNat c.e.arg1 = t.status code)
    (ht : t = { s with regs := t.regs }) (hcode : code / 4096 ≠ 4) :
    s.runRegWrite c = (t.setReg NET_SVC_STAT (s.reg NET_SVC_STAT)).finish c { status := code } := by
  obtain ⟨regs, rfl⟩ : ∃ regs, t = { s with regs := regs } := ⟨_, ht⟩
  simp only [State.runRegWrite, hm, Bool.not_true, Bool.false_eq_true, if_false, hrst, hw, State.status_ce,
    Nat.lt_irrefl]
  exact finishWith_eq _ c hcode

/-- Such a write changes nothing that an admission reads, and writes no entry. -/
theorem alike_of_regs {s t : State} (ht : t = { s with regs := t.regs }) (w : Word) :
    s.alike (t.setReg NET_SVC_STAT w) ∧ (t.setReg NET_SVC_STAT w).cmd.done = s.cmd.done := by
  rw [ht]
  exact ⟨State.alike.of_regs_mtr s _ s.mtr, rfl⟩

/-- A write of CE_AUX_CTL is the row CE_AUX_ENABLE with the fields of the word. -/
theorem writeReg_auxCtl (s : State) (p : Path) (v : Word) :
    s.writeReg p CE_AUX_CTL v = s.writeBy p (!wbit v 0 || s.mode == modeMaintain) fun t =>
      (t.set CE_AUX_CTL_SLOT (v.extractLsb' 8 6).toNat).setFlag CE_AUX_CTL_EN (wbit v 0) := by
  have hindex : indexReg CE_AUX_CTL = none := by decide
  have hkey : s.indexKey CE_AUX_CTL = none := rfl
  simp only [State.writeReg, hindex, hkey]
  rfl

/-- In MAINTAIN a REG_WRITE that sets EN is made, and ends with status OK. -/
theorem runRegWrite_auxCtl_made {s : State} {c : Cmd} (ho : s.opens c.path) (ha : c.e.arg0.toNat = CE_AUX_CTL)
    (hen : wbit c.e.arg1 0 = true) (hm : s.mode = modeMaintain) :
    ∃ v, s.alike v ∧ v.cmd.done = s.cmd.done ∧ v.flag CE_AUX_CTL_EN = true ∧ s.runRegWrite c = v.finish c {} := by
  have hwrite : s.writeReg c.path c.e.arg0.toNat c.e.arg1 = (((s.rxMessage c.path false).set CE_AUX_CTL_SLOT
      (c.e.arg1.extractLsb' 8 6).toNat).setFlag CE_AUX_CTL_EN true).status stOk := by
    rw [ha, writeReg_auxCtl, writeBy_opens _ ho (by simp [hm]), hen]
  have hregs : ∀ f b g n, ((s.rxMessage c.path false).set g n).setFlag f b =
      { s with regs := (((s.rxMessage c.path false).set g n).setFlag f b).regs } := fun f b g n => by
    rw [State.rxMessage_eq]
    rfl
  obtain ⟨hv, hdone⟩ := alike_of_regs (hregs _ _ _ _) (s.reg NET_SVC_STAT)
  refine ⟨_, hv, hdone, ?_, runRegWrite_eq (ha ▸ by decide) (ha ▸ by decide) hwrite (hregs _ _ _ _) (by decide)⟩
  rw [State.flag, State.get_setReg_other _ _ (by decide)]
  exact State.flag_setFlag_same _ true (by decide)

/-- In every other mode it is refused, and the register keeps its word. -/
theorem runRegWrite_auxCtl_refused {s : State} {c : Cmd} (ho : s.opens c.path) (ha : c.e.arg0.toNat = CE_AUX_CTL)
    (hen : wbit c.e.arg1 0 = true) (hm : s.mode ≠ modeMaintain) :
    ∃ v, s.alike v ∧ v.cmd.done = s.cmd.done ∧ v.reg CE_AUX_CTL = s.reg CE_AUX_CTL ∧
      s.runRegWrite c = v.finish c { status := stRegRefused } := by
  have hwrite : s.writeReg c.path c.e.arg0.toNat c.e.arg1 = (s.rxMessage c.path false).status stRegRefused := by
    rw [ha, writeReg_auxCtl, writeBy_refused _ ho (by rw [hen]; simp [hm])]
  have hregs := State.rxMessage_eq s c.path false
  obtain ⟨hv, hdone⟩ := alike_of_regs hregs (s.reg NET_SVC_STAT)
  refine ⟨_, hv, hdone, ?_, runRegWrite_eq (ha ▸ by decide) (ha ▸ by decide) hwrite hregs (by decide)⟩
  rw [State.reg_setReg_other _ _ (by decide)]
  exact State.reg_rxMessage s c.path false (by decide)

/-- Settles O57: the row is a write by a path that opens or refuses, and REG_WRITE of CE_AUX_CTL does what the row does
(`writeReg_auxCtl`). -/
theorem auxiliaryInputIsEnabledOnlyInMaintain : Obligations.AuxiliaryInputIsEnabledOnlyInMaintain := by
  have hown : ¬ hostWord CE_AUX_CTL := by decide
  refine ⟨?row, ?rowRefused, ?command, ?commandRefused⟩
  case row =>
    intro p slot s ho hm
    exact ⟨_, congrArg Host.Outcome.next (writeBy_opens _ ho (by simp [hm])), rfl,
      State.flag_setFlag_same _ true (by decide)⟩
  case rowRefused =>
    intro p slot s ho hm
    exact ⟨_, congrArg Host.Outcome.next (writeBy_refused _ ho (by simp [hm])),
      show stRegRefused / 0x1000 = 8 by decide, State.reg_rxMessage s p false (by decide)⟩
  case command =>
    intro p e s hq hc he hcode ha hr hen hm
    obtain ⟨u, c, hu, rfl, rfl, hend⟩ := command_finishes State.runRegWrite hq hc he hcode rfl
    obtain ⟨v, hv, hdone, hflag, hrun⟩ := runRegWrite_auxCtl_made (State.noted.opens hu ⟨hc.1, hr⟩) ha hen
      ((sameRegs.mode_eq hu.words).trans hm)
    obtain ⟨hreply, -, hregs⟩ := hend v _ hv hdone hrun
    exact ⟨_, rfl, hreply, (sameRegs.flag_eq hregs hown).trans hflag⟩
  case commandRefused =>
    intro p e s hq hc he hcode ha hr hen hm
    obtain ⟨u, c, hu, rfl, rfl, hend⟩ := command_finishes State.runRegWrite hq hc he hcode rfl
    obtain ⟨v, hv, hdone, hreg, hrun⟩ := runRegWrite_auxCtl_refused (State.noted.opens hu ⟨hc.1, hr⟩) ha hen
      (by rwa [sameRegs.mode_eq hu.words])
    obtain ⟨hreply, -, hregs⟩ := hend v _ hv hdone hrun
    exact ⟨_, rfl, hreply, by decide, (hregs _ hown).trans (hreg.trans (hu.words _ hown))⟩

end Sys2Proof.Machine
end

section
/-!
PROOFS of the statements of 02_servo_tick.md, continued: trace units (O11). Their rows are writes and reads by a path; beside the
path's rule stand the trace units' own records.
-/

namespace Sys2Proof.Machine

open Sys2Proof

/-! ### Reads by a path -/

/-- The state that delivers the words of a read. -/
def State.delivered (s : State) (l : List Word) : State := ({ s with rdata := l } : State).status stOk

@[simp] theorem State.delivered_rdata (s : State) (l : List Word) : (s.delivered l).rdata = l := rfl
@[simp] theorem State.delivered_wstat (s : State) (l : List Word) : (s.delivered l).wstat = stOk := rfl
@[simp] theorem State.delivered_tick (s : State) (l : List Word) : (s.delivered l).tick = s.tick := rfl
@[simp] theorem State.delivered_reg (s : State) (l : List Word) (a : Nat) : (s.delivered l).reg a = s.reg a := rfl
@[simp] theorem State.delivered_get (s : State) (l : List Word) (f : Fld) : (s.delivered l).get f = s.get f := rfl
@[simp] theorem State.delivered_readHigh (s : State) (l : List Word) (a : Nat) : (s.delivered l).readHigh a = s.readHigh a := rfl

/-- A read that nothing refuses delivers the words that it finds once its message is counted, and its status is OK. -/
theorem readBy_opens {s : State} {p : Path} {sys : Bool} (f : State → List Word × State) (hs : s.silent p = false)
    (hr : s.readRefusal p sys = none) :
    s.readBy p sys f = (f (s.rxMessage p sys)).2.delivered (f (s.rxMessage p sys)).1 := by
  simp only [State.readBy, hs, hr, Bool.false_eq_true, if_false, State.delivered]

/-! ### Trace units -/

theorem trace_setTrace (s : State) {n : Nat} (t : Trace) (hn : n < 4) : (s.setTrace n t).trace n = t := by
  simp [State.trace, State.setTrace, hn]

@[simp] theorem State.set_trace (s : State) (f : Fld) (v n : Nat) : (s.set f v).trace n = s.trace n := rfl

@[simp] theorem State.status_trace (s : State) (code n : Nat) : (s.status code).trace n = s.trace n := rfl

@[simp] theorem State.rxMessage_trace (s : State) (p : Path) (b : Bool) (n : Nat) :
    (s.rxMessage p b).trace n = s.trace n := by
  rw [State.trace, State.rxMessage_ce, State.trace]

/-- A message leaves the words of the trace units. -/
theorem get_rxMessage_trc (s : State) (p : Path) (b : Bool) (n : Fin 4) {a hi lo : Nat} (ha : a < 0x21000) :
    (s.rxMessage p b).get ⟨a + 0x40 * n, hi, lo⟩ = s.get ⟨a + 0x40 * n, hi, lo⟩ :=
  State.get_rxMessage s p b (by dsimp only [NET_SVC_STAT]; omega)

/-- A unit in a state of its own, with no samples and its result NOT_READY. -/
def State.traceCleared (s : State) (n v : Nat) : State :=
  ((s.setTrace n {}).set (CE_TRC_STAT_STATE n) v).set (CE_TRC_STAT_RES n) 0

theorem traceCleared_spec (s : State) {n v : Nat} (hn : n < 4) (hv : v < 4) :
    (s.traceCleared n v).get (CE_TRC_STAT_STATE n) = v ∧ (s.traceCleared n v).get (CE_TRC_STAT_RES n) = 0 ∧
      ((s.traceCleared n v).trace n).samples = [] := by
  unfold State.traceCleared
  refine ⟨?_, ?_, ?_⟩
  · rw [State.get_set_apart _ _ (by decide) (by decide) (by omega), State.get_set_here _ _ (by decide) (by decide)]
    exact Nat.mod_eq_of_lt hv
  · rw [State.get_set_here _ _ (by decide) (by decide)]
    rfl
  · rw [State.set_trace, State.set_trace, trace_setTrace s _ hn]

/-- A trigger taken makes the unit TRIGGERED, with the newest PRE samples. -/
theorem takeTrigger_spec (s : State) {n : Nat} (hn : n < 4) (hpre : s.get (CE_TRC_PRE_PRE n) ≤ (s.trace n).samples.length) :
    (s.takeTrigger n).get (CE_TRC_STAT_STATE n) = 2 ∧
      (s.takeTrigger n).get (CE_TRC_STAT_TRIG_IDX n) = s.get (CE_TRC_PRE_PRE n) ∧
      ((s.takeTrigger n).trace n).samples.length = s.get (CE_TRC_PRE_PRE n) := by
  unfold State.takeTrigger
  refine ⟨?_, ?_, ?_⟩
  · rw [State.get_set_apart _ _ (by decide) (by decide) (by omega), State.get_set_here _ _ (by decide) (by decide)]
    rfl
  · rw [State.get_set_here _ _ (by decide) (by decide)]
    exact Nat.mod_eq_of_lt (State.get_lt s (CE_TRC_PRE_PRE n))
  · rw [State.set_trace, State.set_trace, trace_setTrace s _ hn, List.length_drop]
    omega

/-- RDPTR, a step on: 16,384 samples make a round. -/
theorem get_rdptr_set (s : State) (n i : Nat) :
    (s.set (CE_TRC_RDPTR_RDPTR n) ((i + 1) % 16384)).get (CE_TRC_RDPTR_RDPTR n) = (i + 1) % 16384 := by
  rw [State.get_set_here _ _ (by decide) (by decide)]
  exact Nat.mod_mod _ _

/-- Settles O11: ARM, FORCE and ACK are writes by a path, RDATA a read by one; what they leave is the spec of the unit's
operation (`traceCleared_spec`, `takeTrigger_spec`, `get_rdptr_set`). -/
theorem traceUnitsArmTriggerAndDeliver : Obligations.TraceUnitsArmTriggerAndDeliver := by
  refine ⟨?arm, ?force, ?done, ?notReady, ?ready, ?ack⟩
  case arm =>
    intro p n s ho hnode htrig
    have hmade := writeBy_opens (fun t => (t.traceCleared n 1).set (CE_TRC_STAT_TRIG_IDX n) 0) ho
      (show (nodeListed (s.get (CE_TRC_NODE_NODE n)) && nodeListed (s.get (CE_TRC_TRIG_NODE n))) = true by
        rw [hnode, htrig]; rfl)
    obtain ⟨hstate, hres, hsamples⟩ := traceCleared_spec (s.rxMessage p false) (v := 1) n.isLt (by decide)
    refine ⟨_, congrArg Host.Outcome.next hmade, rfl, ?_, ?_, ?_⟩
    · rw [State.status_get, State.get_set_apart _ _ (by decide) (by decide) (by omega), hstate]
    · rw [State.status_get, State.get_set_apart _ _ (by decide) (by decide) (by omega), hres]
    · rw [State.status_trace, State.set_trace, hsamples]
  case force =>
    intro p n s ho hcond hstate hpre
    have hword : ∀ {a hi lo : Nat}, a < 0x21000 →
        (s.rxMessage p false).get ⟨a + 0x40 * n, hi, lo⟩ = s.get ⟨a + 0x40 * n, hi, lo⟩ := get_rxMessage_trc s p false n
    have hpre' : (s.rxMessage p false).get (CE_TRC_PRE_PRE n) ≤ ((s.rxMessage p false).trace n).samples.length := by
      rwa [hword (by decide), State.rxMessage_trace]
    have hready : (s.rxMessage p false).traceReady n = true := by
      rw [State.traceReady, hword (by decide), hstate, decide_eq_true hpre']
      rfl
    have hok : (s.traceIdle n || (s.get (CE_TRC_STAT_STATE n) == 1 && s.get (CE_TRC_TRIG_COND n) == 0)) = true := by
      simp [hstate, hcond]
    have hmade := writeBy_opens
      (fun t => if t.get (CE_TRC_TRIG_COND n) = 0 ∧ t.traceReady n = true then t.takeTrigger n else t) ho hok
    rw [if_pos ⟨(hword (by decide)).trans hcond, hready⟩] at hmade
    obtain ⟨htrig, hidx, hkept⟩ := takeTrigger_spec _ n.isLt hpre'
    rw [hword (by decide)] at hidx hkept
    refine ⟨_, congrArg Host.Outcome.next hmade, rfl, ?_, ?_, ?_⟩
    · rw [State.status_get, htrig]
    · rw [State.status_get, hidx]
    · rw [State.status_trace, hkept]
  case done =>
    intro n s hstate hleft
    have hrow : execTraceDone n s = .next ((s.set (CE_TRC_STAT_STATE n) 3).set (CE_TRC_STAT_RES n) 1) := by
      rw [execTraceDone, if_pos ⟨hstate, hleft⟩]
    refine ⟨_, hrow, ?_, ?_, ?_, fun a ha => ?_⟩
    · rw [State.get_set_apart _ _ (by decide) (by decide) (by omega), State.get_set_here _ _ (by decide) (by decide)]
      rfl
    · rw [State.get_set_here _ _ (by decide) (by decide)]
      rfl
    · rw [State.set_ce, State.set_ce]
    · rw [State.reg_set_apart _ _ ha, State.reg_set_apart _ _ ha]
  case notReady =>
    intro p n s hs hr hres
    refine ⟨_, congrArg Host.Outcome.next (readBy_opens _ hs hr), ?_⟩
    rw [if_pos ((get_rxMessage_trc s p false n (by decide)).trans hres), get_rxMessage_trc s p false n (by decide)]
    refine ⟨State.delivered_rdata _ _, State.delivered_wstat _ _, ?_⟩
    rw [State.delivered_get, get_rdptr_set]
  case ready =>
    intro p n s hs hr hres
    have hready : (s.rxMessage p false).get (CE_TRC_STAT_RES n) ≠ 0 := by
      rw [get_rxMessage_trc s p false n (by decide), hres]
      decide
    refine ⟨_, congrArg Host.Outcome.next (readBy_opens _ hs hr), ?_⟩
    rw [if_neg hready, get_rxMessage_trc s p false n (by decide), State.rxMessage_trace]
    refine ⟨State.delivered_rdata _ _, ?_⟩
    rw [State.delivered_get]
    split
    next =>
      rw [State.get_set_apart _ _ (by decide) (by decide) (.inl (by dsimp only [CE_TRC_RDPTR, CE_TRC_STAT]; omega)),
        get_rdptr_set]
    next => rw [get_rdptr_set]
  case ack =>
    intro p n s ho hstate
    have hmade := writeBy_opens (fun t => t.traceCleared n 0) ho (show s.traceIdle n = true by rw [State.traceIdle, hstate]; rfl)
    obtain ⟨hidle, hres, hsamples⟩ := traceCleared_spec (s.rxMessage p false) (v := 0) n.isLt (by decide)
    refine ⟨_, congrArg Host.Outcome.next hmade, rfl, ?_, ?_, ?_⟩
    · rw [State.status_get, hidle]
    · rw [State.status_get, hres]
    · rw [State.status_trace, hsamples]

end Sys2Proof.Machine
end

section
/-!
PROOFS of the statements of 02_servo_tick.md, continued: latched pairs and index-data registers (O12). A message over the
service port changes no word that they read.
-/

namespace Sys2Proof.Machine

open Sys2Proof

/-! ### Latched pairs (R59) -/

@[simp] theorem State.rxMessage_tick (s : State) (p : Path) (b : Bool) : (s.rxMessage p b).tick = s.tick := by
  rw [State.rxMessage_eq]

@[simp] theorem State.rxMessage_pwr (s : State) (p : Path) (b : Bool) : (s.rxMessage p b).pwr = s.pwr := by
  rw [State.rxMessage_eq]

theorem State.flag_rxMessage (s : State) (p : Path) (b : Bool) {f : Fld} (hf : f.addr ≠ NET_SVC_STAT) :
    (s.rxMessage p b).flag f = s.flag f := by
  simp only [State.flag, State.get_rxMessage s p b hf]

/-- A message changes no pair of registers. -/
theorem pairOf_rxMessage (s : State) (p : Path) (b : Bool) (k : PairReg) : (s.rxMessage p b).pairOf k = s.pairOf k := by
  have hreg : ∀ a, a ≠ NET_SVC_STAT → (s.rxMessage p b).reg a = s.reg a := fun a => State.reg_rxMessage s p b
  cases k <;>
    simp (disch := decide) only [State.pairOf, State.flag_rxMessage, hreg, State.rxMessage_tick, State.rxMessage_ce,
      State.rxMessage_pwr]

/-- A read of a LO register latches the high half of the live value for the HI register, and changes no register. -/
theorem readLow_spec (s : State) (k : PairReg) :
    (s.readLow k).1 = [BitVec.ofNat 32 (s.pairOf k).2.2] ∧
      (s.readLow k).2.readHigh (s.pairOf k).2.1 = BitVec.ofNat 32 ((s.pairOf k).2.2 / 2 ^ 32) ∧
      (s.readLow k).2.tick = s.tick ∧ ∀ a, (s.readLow k).2.reg a = s.reg a :=
  ⟨rfl, sget_sput_same _ _ _ _, rfl, fun _ => rfl⟩

/-! ### Index-data registers (R519) -/

/-- A message changes no word that an index-data register gives. -/
theorem indexWord_rxMessage (s : State) (p : Path) (b : Bool) (r : IndexReg) :
    (s.rxMessage p b).indexWord r = s.indexWord r := by
  have hget : ∀ f : Fld, f.addr ≠ NET_SVC_STAT → (s.rxMessage p b).get f = s.get f := fun f => State.get_rxMessage s p b
  have hreg : ∀ a, a ≠ NET_SVC_STAT → (s.rxMessage p b).reg a = s.reg a := fun a => State.reg_rxMessage s p b
  have hts : ∀ t w, (s.rxMessage p b).tenantWord t w = s.tenantWord t w := fun t w => by
    rw [State.rxMessage_eq]; rfl
  have hss : ∀ t w, (s.rxMessage p b).sessionWord t w = s.sessionWord t w := fun t w => by
    rw [State.rxMessage_eq]; rfl
  have hrun : ∀ t, (s.rxMessage p b).running t = s.running t := fun t => by
    simp (disch := decide) only [State.running, State.flag, hget]
  have hms : ∀ t w, (s.rxMessage p b).meterWord t w = s.meterWord t w := fun t w => by
    rw [State.meterWord, hrun, State.rxMessage_eq]; rfl
  cases r with
  | mapEntry =>
    simp only [State.indexWord, hget PLC_DM_IDX_ENTRY (by decide), hget PLC_DM_IDX_WORD (by decide)]
    exact hreg _ (by dsimp only [keyDm, NET_SVC_STAT]; omega)
  | contract =>
    simp only [State.indexWord, hget CMD_TC_IDX_TENANT (by decide), hget CMD_TC_IDX_WORD (by decide)]
    exact hreg _ (by dsimp only [keyTc, NET_SVC_STAT]; omega)
  | tenantState => simp (disch := decide) only [State.indexWord, hget, hts]
  | sessionState => simp (disch := decide) only [State.indexWord, hget, hss]
  | meterNow => simp (disch := decide) only [State.indexWord, hget, hms]
  | faultSource =>
    have hkey : ∀ src w, (s.rxMessage p b).reg (keySrc src w) = s.reg (keySrc src w) := fun _ _ =>
      hreg _ (by dsimp only [keySrc, NET_SVC_STAT]; omega)
    simp (disch := decide) only [State.indexWord, hget, hkey]

/-- The words of the fault sources belong to no domain of the configuration. -/
theorem domainOf_keySrc (src w : Nat) : domainOf (keySrc src w) = none := by
  have hne : ∀ b, b < 0x1400000 → keySrc src w ≠ b := fun b hb => by dsimp only [keySrc]; omega
  have hlt : ∀ b, b ≤ 0x1400000 → ¬ keySrc src w < b := fun b hb => by dsimp only [keySrc]; omega
  simp (disch := decide) only [domainOf, hne, hlt, and_false, or_false, if_false]

/-- A 1 anywhere in the written word clears a whole word of W1C bits (R11). -/
theorem clearBy_word {old : Nat} {v : Word} (hold : old < 2 ^ 32) (hv : v ≠ 0) : clearBy [⟨31, 0, .w1c⟩] old v.toNat = 0 := by
  have hbits : bitsOf v.toNat 31 0 ≠ 0 := by
    have hnat : v.toNat ≠ 0 := fun h => hv (BitVec.eq_of_toNat_eq h)
    rw [bitsOf, Nat.pow_zero, Nat.div_one, Nat.mod_eq_of_lt v.isLt]
    exact hnat
  rw [clearBy, List.foldl_cons, List.foldl_nil, if_pos ⟨rfl, hbits⟩, putBits, Nat.div_eq_of_lt hold]
  simp [Nat.mod_one]

/-- A write of COUNT of a fault source other than 0 clears it. -/
theorem writeFields_count (s : State) (p : Path) (src : Nat) {v : Word} (hv : v ≠ 0) :
    s.writeFields p (keySrc src 0) [⟨31, 0, .w1c⟩] v = (s.setReg (keySrc src 0) 0).status stOk := by
  simp only [State.writeFields, domainOf_keySrc, clearBy_word (s.reg _).isLt hv]
  rfl

theorem nextIndex_within {n top i w : Nat} (h : w + 1 < n) : nextIndex n top i w = (i, w + 1) := if_pos h

theorem nextIndex_wraps {n top i w : Nat} (h : ¬ w + 1 < n) : nextIndex n top i w = ((i + 1) % top, 0) := if_neg h

/-- After the last word of a contract comes the first one of the next tenant. -/
theorem advance_contract {s : State} (h : s.get CMD_TC_IDX_WORD = 3) :
    (s.advance .contract).get CMD_TC_IDX_WORD = 0 ∧
      (s.advance .contract).get CMD_TC_IDX_TENANT = (s.get CMD_TC_IDX_TENANT + 1) % 4096 ∧
      ∀ a, a ≠ CMD_TC_IDX → (s.advance .contract).reg a = s.reg a := by
  simp only [State.advance, nextIndex_wraps (n := 4) (w := s.get CMD_TC_IDX_WORD) (by omega)]
  refine ⟨?_, ?_, fun a ha => ?_⟩
  · rw [State.get_set_here _ _ (by decide) (by decide), Nat.zero_mod]
  · rw [State.get_set_apart _ _ (by decide) (by decide) (by decide), State.get_set_here _ _ (by decide) (by decide)]
    exact Nat.mod_mod _ _
  · rw [State.reg_set_apart _ _ ha, State.reg_set_apart _ _ ha]

/-- Below the last word of an account the next one is named. -/
theorem advance_meterNow {s : State} (h : s.get MTR_CUR_IDX_WORD < 15) :
    (s.advance .meterNow).get MTR_CUR_IDX_WORD = s.get MTR_CUR_IDX_WORD + 1 ∧
      (s.advance .meterNow).get MTR_CUR_IDX_TENANT = s.get MTR_CUR_IDX_TENANT := by
  simp only [State.advance, nextIndex_within (n := 16) (w := s.get MTR_CUR_IDX_WORD) (by omega)]
  refine ⟨?_, ?_⟩
  · rw [State.get_set_here _ _ (by decide) (by decide)]
    exact Nat.mod_eq_of_lt (by omega)
  · rw [State.get_set_apart _ _ (by decide) (by decide) (by decide), State.get_set_here _ _ (by decide) (by decide)]
    exact Nat.mod_eq_of_lt (State.get_lt s MTR_CUR_IDX_TENANT)

/-- After COUNT of a fault source comes its LAST. -/
theorem advance_faultSource {s : State} (h : s.get FLT_SRC_IDX_WORD = 0) :
    (s.advance .faultSource).get FLT_SRC_IDX_WORD = 1 ∧
      (s.advance .faultSource).get FLT_SRC_IDX_SRC = s.get FLT_SRC_IDX_SRC ∧
      (s.advance .faultSource).wstat = s.wstat ∧ ∀ a, a ≠ FLT_SRC_IDX → (s.advance .faultSource).reg a = s.reg a := by
  simp only [State.advance, h, nextIndex_within (n := 3) (w := 0) (by decide)]
  refine ⟨?_, ?_, ?_, fun a ha => ?_⟩
  · rw [State.get_set_here _ _ (by decide) (by decide)]
    rfl
  · rw [State.get_set_apart _ _ (by decide) (by decide) (by decide), State.get_set_here _ _ (by decide) (by decide)]
    exact Nat.mod_eq_of_lt (State.get_lt s FLT_SRC_IDX_SRC)
  · rw [State.set_wstat, State.set_wstat]
  · rw [State.reg_set_apart _ _ ha, State.reg_set_apart _ _ ha]

/-- A write of COUNT of the source that the index names clears it, and the index advances. -/
theorem indexWrite_count {s : State} {p : Path} {v : Word} (hr : s.writeRefusal p = none)
    (hword : s.get FLT_SRC_IDX_WORD = 0) (hv : v ≠ 0) :
    (s.indexWrite p .faultSource v).wstat = stOk ∧
      (s.indexWrite p .faultSource v).reg (keySrc (s.get FLT_SRC_IDX_SRC) 0) = 0 ∧
      (s.indexWrite p .faultSource v).get FLT_SRC_IDX_WORD = 1 ∧
      (s.indexWrite p .faultSource v).get FLT_SRC_IDX_SRC = s.get FLT_SRC_IDX_SRC := by
  have hkey : s.indexWriteKey .faultSource = some (keySrc (s.get FLT_SRC_IDX_SRC) 0) := by
    rw [State.indexWriteKey, hword]
    rfl
  have hfields : indexFields s .faultSource = [⟨31, 0, .w1c⟩] := if_pos hword
  obtain ⟨t, ht⟩ : ∃ t, t = (s.setReg (keySrc (s.get FLT_SRC_IDX_SRC) 0) 0).status stOk := ⟨_, rfl⟩
  have hstat : t.wstat = stOk := by rw [ht]; rfl
  have hmade : s.indexWrite p .faultSource v = t.advance .faultSource := by
    simp only [State.indexWrite, hr, hkey, hfields, writeFields_count s p _ hv, ← ht]
    exact if_pos hstat
  have hidx : FLT_SRC_IDX ≠ keySrc (s.get FLT_SRC_IDX_SRC) 0 := by dsimp only [FLT_SRC_IDX, keySrc]; omega
  have hget : ∀ k m, t.get ⟨FLT_SRC_IDX, k, m⟩ = s.get ⟨FLT_SRC_IDX, k, m⟩ := fun k m => by
    rw [ht, State.status_get, State.get_setReg_other _ _ hidx]
  obtain ⟨hone, hsrc, hkept, hregs⟩ := advance_faultSource ((hget _ _).trans hword)
  rw [hmade, hkept, hone, hsrc, hget]
  refine ⟨hstat, ?_, rfl, rfl⟩
  rw [hregs _ hidx.symm, ht, State.status_reg, State.reg_setReg_same]

/-- Settles O12: a read by a path delivers what the operation gives after the message is counted, and the message changes no
word that it reads (`pairOf_rxMessage`, `indexWord_rxMessage`); the index moves on as `advance_*` says. -/
theorem registerReadsLatchAndAdvance : Obligations.RegisterReadsLatchAndAdvance := by
  refine ⟨?pair, ?word, ?contract, ?meter, ?count, ?message⟩
  case pair =>
    intro p k s hs hr
    obtain ⟨hlow, hhigh, htick, hregs⟩ := readLow_spec (s.rxMessage p false) k
    rw [pairOf_rxMessage] at hlow hhigh
    refine ⟨_, congrArg Host.Outcome.next (readBy_opens _ hs hr), State.delivered_wstat _ _, ?_, ?_, ?_, fun a ha => ?_⟩
    · rw [State.delivered_rdata, hlow]
    · rw [State.delivered_readHigh, hhigh]
    · rw [State.delivered_tick, htick, State.rxMessage_tick]
    · rw [State.delivered_reg, hregs, State.reg_rxMessage s p false ha]
  case word =>
    intro p r s hs hr
    refine ⟨_, congrArg Host.Outcome.next (readBy_opens _ hs hr), State.delivered_wstat _ _, ?_⟩
    rw [State.delivered_rdata, indexWord_rxMessage]
  case contract =>
    intro p s hs hr hword
    have htenant := State.get_rxMessage s p false (f := CMD_TC_IDX_TENANT) (by decide)
    obtain ⟨hzero, hnext, hregs⟩ := advance_contract ((State.get_rxMessage s p false (by decide)).trans hword)
    refine ⟨_, congrArg Host.Outcome.next (readBy_opens _ hs hr), ?_, ?_, fun a hsvc hidx => ?_⟩
    · rw [State.delivered_get, hzero]
    · rw [State.delivered_get, hnext, htenant]
    · rw [State.delivered_reg, hregs a hidx, State.reg_rxMessage s p false hsvc]
  case meter =>
    intro p s hs hr hword
    have hplace := State.get_rxMessage s p false (f := MTR_CUR_IDX_WORD) (by decide)
    have htenant := State.get_rxMessage s p false (f := MTR_CUR_IDX_TENANT) (by decide)
    obtain ⟨hnext, hsame⟩ := advance_meterNow (hplace ▸ hword)
    refine ⟨_, congrArg Host.Outcome.next (readBy_opens _ hs hr), ?_, ?_⟩
    · rw [State.delivered_get, hnext, hplace]
    · rw [State.delivered_get, hsame, htenant]
  case count =>
    intro p v s ⟨hs, hr⟩ hword hv
    have hnoted := State.noted.rxMessage s p false
    have hcount := indexWrite_count (v := v) ((writeRefusal_eq hnoted.alike hnoted.words p).trans hr)
      ((State.get_rxMessage s p false (by decide)).trans hword) hv
    rw [State.get_rxMessage s p false (by decide)] at hcount
    exact ⟨_, congrArg Host.Outcome.next (if_neg (by rw [hs]; decide)), hcount⟩
  case message =>
    intro s hj
    have hcount : s.rxMessage .service false = s.incWrap NET_SVC_STAT_RX_MSG := by
      rw [State.rxMessage, if_neg (by simp [hj])]
    refine ⟨_, rfl, ?_, State.rxMessage_eq s .service false, fun a ha => State.reg_rxMessage s .service false ha⟩
    rw [hcount, State.incWrap, State.get_set_here _ _ (by decide) (by decide)]
    exact Nat.mod_mod _ _

end Sys2Proof.Machine
end

section
/-!
PROOFS of the statements of 03_optical_servo.md: orders to a pickup (O14, refuted by a jump to the corrected layer).
-/

namespace Sys2Proof.Machine

open Sys2Proof

/-- Slot `n` with the position kernel drives an output, takes its set-point from the sequencer and has its hold enabled. -/
def State.withSlot (s : State) (n out : Nat) : State :=
  (((s.set (CE_PAGE_TYPE n) tyPos).set (CE_PAGE_SP_SRC n) 1).set (CE_PAGE_HOLD_EN n) 1).set (CE_PAGE_OUT_SEL n) out

/-- Four slots of a device in MAINTAIN drive pickup 0, which tracks layer 7; OPU_LAYER.SA is 7 and the correction has settled.
The path of management session 1 is open. -/
def corrected7 : State :=
  let s := (({ State.reset with sys := { boot := .done }, cmd := { sessions := [{ id := 1, mgmt := true, tenant := 0, depth := 16 }] } }
    : State).set SYS_MODE_MODE modeMaintain).set CE_SCHED_LEN_LEN 4
  let u := (((s.withSlot 0 (outFocus 0)).withSlot 1 (outTrack 0)).withSlot 2 (outTilt 0)).withSlot 3 (outSa 0)
  (((u.set (OPU_STAT_STATE 0) puTracking).set (OPU_LAYER_CUR 0) 7).set (OPU_LAYER_SA 0) 7).set (OPU_STAT_SA_READY 0) 1

/-- The state after LAYER_JUMP of pickup 0 to layer 7. -/
def jumped7 : State := corrected7.opuCmd (.session 1) 0 opJump 7 (corrected7.get (OPU_SPIRAL_TURN 0))

/-- The pickup meets what a jump asks for. -/
theorem corrected7_jumps :
    corrected7.opens (.session 1) ∧ corrected7.mode = modeMaintain ∧ (corrected7.puOf 0).op = none ∧
      (corrected7.puOf 0).next = none ∧ corrected7.calHolds 0 = false ∧ corrected7.jumpSlots 0 = true ∧
      corrected7.puState 0 = puTracking ∧ corrected7.flag (OPU_STAT_GATE 0) = false := by decide +kernel

/-- The jump starts, and SA_READY stays set. -/
theorem jumped7_spec :
    jumped7.wstat = stOk ∧ jumped7.puState 0 = puLayerJump ∧ jumped7.flag (OPU_STAT_SA_READY 0) = true := by
  decide +kernel

/-- Refutes O14, in its clause on LAYER_JUMP: SA_READY clears when OPU_LAYER.SA changes (R121, `State.setSa`), and a jump to the
layer that SA holds already, as to the layer the pickup is on, changes nothing there, so SA_READY stays as it was. -/
theorem not_pickupOrdersStartTheirSequences : ¬ Obligations.PickupOrdersStartTheirSequences := by
  intro ⟨_, hjump, _⟩
  obtain ⟨hopen, hmode, hop, hnext, hcal, hslots, hstate, hgate⟩ := corrected7_jumps
  obtain ⟨-, -, hready⟩ := jumped7_spec
  obtain ⟨t, hrow, -, -, -, hclear, -⟩ :=
    hjump (.session 1) 0 7 corrected7 hopen hmode (by decide) hop hnext hcal hslots hstate hgate
  have ht : jumped7 = t := Host.Outcome.next.inj hrow
  rw [← ht] at hclear
  exact absurd (hready.symm.trans hclear) (by decide)

end Sys2Proof.Machine
end

section
/-!
PROOFS of the statements of 03_optical_servo.md: rules of the pickups' operations. For each operation: which fields of a
pickup's registers, written ⟨a + 0x4000 * n, hi, lo⟩, it leaves; what it leaves of the pickups' records; and what it leaves
beyond the pickups (`State.beyondPu`). With `-implicitDefEqProofs` every step cites its lemma, so that the kernel does not
evaluate the states.
-/

namespace Sys2Proof.Machine

open Sys2Proof

/-! ### Slots of the control engine -/

/-- The schedule visits 48 slots at most. -/
theorem slotOf_lt {s : State} {out m : Nat} (h : s.slotOf out = some m) : m < 48 := by
  have hm := List.mem_of_find?_eq_some h
  simp only [State.visited, List.mem_range] at hm
  omega

/-- EN of a slot lies in the slot's page. -/
theorem State.reg_clearEn (s : State) {m a : Nat} (hm : m < 48) (ha : 0x27000 ≤ a) : (s.clearEn m).reg a = s.reg a := by
  unfold State.clearEn
  split
  · rfl
  · exact State.reg_set_apart s 0 (by dsimp only [CE_PAGE]; omega)

theorem State.reg_setEn (s : State) {m a : Nat} (hm : m < 48) (ha : 0x27000 ≤ a) : (s.setEn m).reg a = s.reg a := by
  unfold State.setEn
  split
  · rfl
  · exact State.reg_set_apart s 1 (by dsimp only [CE_PAGE]; omega)

theorem State.reg_clearOut (s : State) (out : Nat) {a : Nat} (ha : 0x27000 ≤ a) : (s.clearOut out).reg a = s.reg a := by
  unfold State.clearOut
  split
  next m hm => exact s.reg_clearEn (slotOf_lt hm) ha
  next => rfl

theorem State.reg_enableOut (s : State) (out : Nat) {a : Nat} (ha : 0x27000 ≤ a) : (s.enableOut out).reg a = s.reg a := by
  unfold State.enableOut
  split
  next m hm => exact s.reg_setEn (slotOf_lt hm) ha
  next => rfl

@[simp] theorem State.withOut_reg (s : State) (out : Nat) (f : KSlot → KSlot) (a : Nat) :
    (s.withOut out f).reg a = s.reg a := by
  unfold State.withOut
  split <;> rfl

@[simp] theorem State.withOut_get (s : State) (out : Nat) (f : KSlot → KSlot) (x : Fld) :
    (s.withOut out f).get x = s.get x := by
  simp only [State.get, State.withOut_reg]

/-! ### The record of a pickup -/

@[simp] theorem State.modPu_puOf (s : State) (n : Fin 4) (f : PuSt → PuSt) : (s.modPu n f).puOf n = f (s.puOf n) := by
  simp [State.modPu, State.setPu, State.puOf]

@[simp] theorem State.set_puOf (s : State) (f : Fld) (v n : Nat) : (s.set f v).puOf n = s.puOf n := rfl
@[simp] theorem State.setReg_puOf (s : State) (a : Nat) (v : Word) (n : Nat) : (s.setReg a v).puOf n = s.puOf n := rfl
@[simp] theorem State.setFlag_puOf (s : State) (f : Fld) (b : Bool) (n : Nat) : (s.setFlag f b).puOf n = s.puOf n := rfl
@[simp] theorem State.addSat_puOf (s : State) (f : Fld) (v n : Nat) : (s.addSat f v).puOf n = s.puOf n := rfl
@[simp] theorem State.incWrap_puOf (s : State) (f : Fld) (n : Nat) : (s.incWrap f).puOf n = s.puOf n := rfl
@[simp] theorem State.modAx_puOf (s : State) (a : Nat) (f : AxSt → AxSt) (n : Nat) : (s.modAx a f).puOf n = s.puOf n := rfl
@[simp] theorem State.prevLost_puOf (s : State) (m n : Nat) : (s.prevLost m).puOf n = s.puOf n := rfl

@[simp] theorem State.withOut_puOf (s : State) (out : Nat) (f : KSlot → KSlot) (n : Nat) :
    (s.withOut out f).puOf n = s.puOf n := by
  unfold State.withOut
  split <;> rfl

@[simp] theorem State.clearOut_puOf (s : State) (out n : Nat) : (s.clearOut out).puOf n = s.puOf n := by
  unfold State.clearOut State.clearEn
  split
  · dsimp only
    split <;> rfl
  · rfl

@[simp] theorem State.enableOut_puOf (s : State) (out n : Nat) : (s.enableOut out).puOf n = s.puOf n := by
  unfold State.enableOut State.setEn
  split
  · split <;> rfl
  · rfl

@[simp] theorem State.puFault_puOf (s : State) (m kind arg n : Nat) : (s.puFault m kind arg).puOf n = s.puOf n := by
  obtain ⟨_, _, h⟩ := State.upToFaults.raise s (0x010 + m) kind arg
  rw [State.puFault, h]
  rfl

@[simp] theorem State.lasers_puOf (s : State) (m n : Nat) : (s.lasers m).puOf n = s.puOf n := rfl

/-! ### Fields of a pickup's registers -/

@[simp] theorem State.prevLost_get (s : State) (m : Nat) (x : Fld) : (s.prevLost m).get x = s.get x := rfl

@[simp] theorem State.when_get (s : State) (b : Bool) (f : State → State) (x : Fld) :
    (s.when b f).get x = if b then (f s).get x else s.get x := apply_ite (State.get · x) _ _ _

@[simp] theorem State.when_puOf (s : State) (b : Bool) (f : State → State) (n : Nat) :
    (s.when b f).puOf n = if b then (f s).puOf n else s.puOf n := apply_ite (State.puOf · n) _ _ _

@[simp] theorem State.modPu_flag (s : State) (n : Nat) (f : PuSt → PuSt) (x : Fld) : (s.modPu n f).flag x = s.flag x := rfl

/-- Another field of a pickup reads as before. -/
@[simp] theorem State.puGet_set (s : State) {n a b h l k m : Nat} (v : Nat) (hm : m ≤ k) (hk : k < 32)
    (hd : a ≠ b ∨ h < m ∨ k < l) :
    (s.set ⟨b + 0x4000 * n, k, m⟩ v).get ⟨a + 0x4000 * n, h, l⟩ = s.get ⟨a + 0x4000 * n, h, l⟩ :=
  State.get_set_apart s v hm hk (by omega)

@[simp] theorem State.puGet_set_spot (s : State) {n a b c h l k m : Nat} (v : Nat) (hm : m ≤ k) (hk : k < 32)
    (hd : a ≠ b + c) :
    (s.set ⟨b + 0x4000 * n + c, k, m⟩ v).get ⟨a + 0x4000 * n, h, l⟩ = s.get ⟨a + 0x4000 * n, h, l⟩ :=
  State.get_set_apart s v hm hk (by omega)

@[simp] theorem State.puGet_set_axis (s : State) {n : Fin 4} {a b h l k m : Nat} (v : Nat) (hm : m ≤ k) (hk : k < 32)
    (ha : a < 0x34000) (hb : 0x60000 ≤ b) :
    (s.set ⟨b + 0x1000 * n, k, m⟩ v).get ⟨a + 0x4000 * n, h, l⟩ = s.get ⟨a + 0x4000 * n, h, l⟩ :=
  State.get_set_apart s v hm hk (by omega)

@[simp] theorem State.puGet_clearOut (s : State) (out : Nat) {n a h l : Nat} (ha : 0x30000 ≤ a) :
    (s.clearOut out).get ⟨a + 0x4000 * n, h, l⟩ = s.get ⟨a + 0x4000 * n, h, l⟩ := by
  simp only [State.get, State.reg_clearOut s out (show 0x27000 ≤ a + 0x4000 * n by omega)]

@[simp] theorem State.puGet_enableOut (s : State) (out : Nat) {n a h l : Nat} (ha : 0x30000 ≤ a) :
    (s.enableOut out).get ⟨a + 0x4000 * n, h, l⟩ = s.get ⟨a + 0x4000 * n, h, l⟩ := by
  simp only [State.get, State.reg_enableOut s out (show 0x27000 ≤ a + 0x4000 * n by omega)]

@[simp] theorem State.puGet_puFault (s : State) {n : Fin 4} {m a h l : Nat} (kind arg : Nat) (ha : a < 0x34000) :
    (s.puFault m kind arg).get ⟨a + 0x4000 * n, h, l⟩ = s.get ⟨a + 0x4000 * n, h, l⟩ :=
  State.get_raise_below s (by dsimp only; omega)

@[simp] theorem State.puGet_lasers (s : State) {n a h l : Nat} (ha : a ≠ 0x30068) :
    (s.lasers n).get ⟨a + 0x4000 * n, h, l⟩ = s.get ⟨a + 0x4000 * n, h, l⟩ := by
  simp -implicitDefEqProofs [State.lasers, State.setFlag, ha]

@[simp] theorem State.puGet_axMove (s : State) {n : Fin 4} (dest : Int) {a h l : Nat} (ha : a < 0x34000) :
    (s.axMove n dest).get ⟨a + 0x4000 * n, h, l⟩ = s.get ⟨a + 0x4000 * n, h, l⟩ := by
  simp -implicitDefEqProofs [State.axMove, ha]

@[simp] theorem State.axMove_puOf (s : State) (m : Nat) (dest : Int) (n : Nat) : (s.axMove m dest).puOf n = s.puOf n := by
  simp -implicitDefEqProofs [State.axMove]

@[simp] theorem State.puGet_sledPark (s : State) {n : Fin 4} {a h l : Nat} (ha : a < 0x34000) :
    (s.sledPark n).get ⟨a + 0x4000 * n, h, l⟩ = s.get ⟨a + 0x4000 * n, h, l⟩ := by
  unfold State.sledPark
  split <;> simp -implicitDefEqProofs [ha]

@[simp] theorem State.sledPark_puOf (s : State) (m n : Nat) : (s.sledPark m).puOf n = s.puOf n := by
  unfold State.sledPark
  split <;> simp -implicitDefEqProofs

@[simp] theorem State.releaseSlots_get (s : State) (n : Nat) (x : Fld) : (s.releaseSlots n).get x = s.get x := by
  simp -implicitDefEqProofs [State.releaseSlots]

@[simp] theorem State.releaseSlots_puOf (s : State) (m n : Nat) : (s.releaseSlots m).puOf n = s.puOf n := by
  simp -implicitDefEqProofs [State.releaseSlots]

/-- GATE alone of OPU_STAT. -/
@[simp] theorem State.puGet_dropGate (s : State) {n a h l : Nat} (hd : a ≠ 0x30004 ∨ h < 8 ∨ 8 < l) :
    (s.dropGate n).get ⟨a + 0x4000 * n, h, l⟩ = s.get ⟨a + 0x4000 * n, h, l⟩ := by
  simp -implicitDefEqProofs [State.dropGate, hd]

/-- A sequence that ends writes its RESULT alone of the pickup's registers. -/
@[simp] theorem State.puGet_endOp (s : State) {n : Fin 4} (result : Nat) {a h l : Nat} (ha : a < 0x34000)
    (hd : a ≠ 0x3000C ∨ h < 20 ∨ 23 < l) :
    (s.endOp n result).get ⟨a + 0x4000 * n, h, l⟩ = s.get ⟨a + 0x4000 * n, h, l⟩ := by
  simp -implicitDefEqProofs [State.endOp, ha, hd]

theorem State.endOp_op (s : State) (n : Fin 4) (result : Nat) : ((s.endOp n result).puOf n).op = none := by
  simp -implicitDefEqProofs [State.endOp]

/-- CUR, ON_LAYER and the positions of the spots take part in a change of layer. -/
@[simp] theorem State.puGet_setCur (s : State) {n : Nat} (layer : Nat) {a h l : Nat} (ha : a < 0x30034 ∨ 0x30040 < a)
    (hs : a ≠ 0x30004 ∨ h < 5 ∨ 5 < l) (hl : a ≠ 0x30010 ∨ 4 < l) :
    (s.setCur n layer).get ⟨a + 0x4000 * n, h, l⟩ = s.get ⟨a + 0x4000 * n, h, l⟩ := by
  rw [State.setCur, State.puGet_set_spot _ _ (by decide) (by decide) (by omega),
    State.puGet_set_spot _ _ (by decide) (by decide) (by omega), State.puGet_set_spot _ _ (by decide) (by decide) (by omega),
    State.puGet_set_spot _ _ (by decide) (by decide) (by omega), State.puGet_set _ _ (by decide) (by decide) hs,
    State.puGet_set _ _ (by decide) (by decide) (by omega)]

@[simp] theorem State.setCur_puOf (s : State) (m layer n : Nat) : (s.setCur m layer).puOf n = s.puOf n := by
  simp -implicitDefEqProofs only [State.setCur, State.set_puOf]

/-- CUR takes a layer, and ON_LAYER clears. -/
theorem State.setCur_spec (s : State) (n : Nat) {layer : Nat} (hl : layer < 32) :
    (s.setCur n layer).get (OPU_LAYER_CUR n) = layer ∧ (s.setCur n layer).get (OPU_STAT_ON_LAYER n) = 0 := by
  simp -implicitDefEqProofs [State.setCur, State.get_set_here, Nat.mod_eq_of_lt hl]

@[simp] theorem State.puGet_setSa (s : State) {n : Nat} (layer : Nat) {a h l : Nat} (hs : a ≠ 0x30004 ∨ h < 6 ∨ 6 < l)
    (hl : a ≠ 0x30010 ∨ h < 8 ∨ 12 < l) :
    (s.setSa n layer).get ⟨a + 0x4000 * n, h, l⟩ = s.get ⟨a + 0x4000 * n, h, l⟩ := by
  unfold State.setSa
  split <;> simp -implicitDefEqProofs [hs, hl]

/-- A pickup at rest in state `st` shows it. -/
@[simp] theorem State.puState_puRest (s : State) (n : Fin 4) {st : Nat} (hst : st < 16) :
    (s.puRest n st).get (OPU_STAT_STATE n) = st := by
  simp -implicitDefEqProofs [State.puRest, State.get_set_here, Nat.mod_eq_of_lt hst]

theorem State.get_addSat_here (s : State) {b k m : Nat} (v : Nat) (h1 : m ≤ k) (h2 : k < 32) :
    (s.addSat ⟨b, k, m⟩ v).get ⟨b, k, m⟩ = min (2 ^ (k + 1 - m) - 1) (s.get ⟨b, k, m⟩ + v) :=
  State.get_addSat_same s v ⟨h1, h2⟩

@[simp] theorem State.puGet_addSat (s : State) {n a b h l k m : Nat} (v : Nat) (hm : m ≤ k) (hk : k < 32)
    (hd : a ≠ b ∨ h < m ∨ k < l) :
    (s.addSat ⟨b + 0x4000 * n, k, m⟩ v).get ⟨a + 0x4000 * n, h, l⟩ = s.get ⟨a + 0x4000 * n, h, l⟩ :=
  State.puGet_set s _ hm hk hd

/-- A pickup that enters REACQ: the re-acquisition is counted and the turn kept (R153). -/
theorem State.enterReacq_spec (s : State) (n : Fin 4) :
    (s.enterReacq n).get (OPU_STAT_STATE n) = puReacq ∧
      (s.enterReacq n).get (OPU_DEF_STAT_REACQ n) = min (OPU_DEF_STAT_REACQ n).top (s.get (OPU_DEF_STAT_REACQ n) + 1) ∧
      ((s.enterReacq n).puOf n).turn = s.get (OPU_SPIRAL_TURN n) := by
  refine ⟨?_, ?_, ?_⟩
  · simp -implicitDefEqProofs [State.enterReacq, State.get_set_here, puReacq]
  · simp -implicitDefEqProofs [State.enterReacq, State.get_addSat_here, Fld.top]
  · simp -implicitDefEqProofs [State.enterReacq]

@[simp] theorem State.puGet_enterReacq (s : State) {n : Fin 4} {a h l : Nat} (ha : 0x30000 ≤ a) (ha' : a < 0x34000)
    (hs : a ≠ 0x30004 ∨ 3 < l) (hc : a ≠ 0x3000C) (hd : a ≠ 0x3004C) (hr : a ≠ 0x30068) :
    (s.enterReacq n).get ⟨a + 0x4000 * n, h, l⟩ = s.get ⟨a + 0x4000 * n, h, l⟩ := by
  simp -implicitDefEqProofs [State.enterReacq, ha, ha', hs, hc, hd, hr]

/-! ### What lies beyond the pickups' sequences -/

/-- What the sequences of the pickups leave: the records beside those of the pickups, the control engine, the axes and the
channels, and the words outside CE, OPU and AX. -/
structure BeyondPu where
  rest : State
  word : (a : Nat) → a / 0x10000 ∉ [2, 3, 6] → Word

def State.beyondPu (s : State) : BeyondPu where
  rest := { s with regs := [], pu := Vector.replicate 4 {}, ce := {}, ax := Vector.replicate 7 {}, chn := {} }
  word := fun a _ => s.reg a

theorem reg_of_beyondPu {s t : State} (h : t.beyondPu = s.beyondPu) {a : Nat} (ha : a / 0x10000 ∉ [2, 3, 6]) :
    t.reg a = s.reg a := congrFun (congrFun (congrArg BeyondPu.word h) a) ha

theorem eq_of_beyondPu {s t : State} (h : t.beyondPu = s.beyondPu) :
    t = { s with regs := t.regs, pu := t.pu, ce := t.ce, ax := t.ax, chn := t.chn } := by
  have hrest := congrArg BeyondPu.rest h
  calc t = { t.beyondPu.rest with regs := t.regs, pu := t.pu, ce := t.ce, ax := t.ax, chn := t.chn } := rfl
    _ = _ := by rw [hrest]; rfl

theorem State.setReg_beyondPu (s : State) {a : Nat} (v : Word) (ha : a / 0x10000 ∈ [2, 3, 6]) :
    (s.setReg a v).beyondPu = s.beyondPu := by
  have hword : (s.setReg a v).beyondPu.word = s.beyondPu.word := by
    funext b hb
    exact State.reg_setReg_other s v (fun e => hb (e ▸ ha))
  exact congrArg (BeyondPu.mk s.beyondPu.rest) hword

@[simp] theorem State.set_beyondPu_pickup (s : State) {n : Fin 4} {a h l : Nat} (v : Nat) (ha : 0x30000 ≤ a) (hb : a < 0x34000) :
    (s.set ⟨a + 0x4000 * n, h, l⟩ v).beyondPu = s.beyondPu :=
  State.setReg_beyondPu s _ (by simp only [List.mem_cons]; omega)

@[simp] theorem State.set_beyondPu_spot (s : State) {n : Fin 4} {a k h l : Nat} (v : Nat) (ha : 0x30000 ≤ a) (hb : a + k < 0x34000) :
    (s.set ⟨a + 0x4000 * n + k, h, l⟩ v).beyondPu = s.beyondPu :=
  State.setReg_beyondPu s _ (by simp only [List.mem_cons]; omega)

@[simp] theorem State.set_beyondPu_axis (s : State) {n : Fin 4} {a h l : Nat} (v : Nat) (ha : 0x60000 ≤ a) (hb : a < 0x61000) :
    (s.set ⟨a + 0x1000 * n, h, l⟩ v).beyondPu = s.beyondPu :=
  State.setReg_beyondPu s _ (by simp only [List.mem_cons]; omega)

@[simp] theorem State.setFlag_beyondPu (s : State) (f : Fld) (b : Bool) :
    (s.setFlag f b).beyondPu = (s.set f (if b then 1 else 0)).beyondPu := rfl

@[simp] theorem State.addSat_beyondPu (s : State) (f : Fld) (v : Nat) :
    (s.addSat f v).beyondPu = (s.set f (min f.top (s.get f + v))).beyondPu := rfl

@[simp] theorem State.incWrap_beyondPu (s : State) (f : Fld) :
    (s.incWrap f).beyondPu = (s.set f ((s.get f + 1) % (f.top + 1))).beyondPu := rfl

@[simp] theorem State.when_beyondPu (s : State) (b : Bool) (f : State → State) :
    (s.when b f).beyondPu = if b then (f s).beyondPu else s.beyondPu := apply_ite _ _ _ _

@[simp] theorem State.modPu_beyondPu (s : State) (n : Nat) (f : PuSt → PuSt) : (s.modPu n f).beyondPu = s.beyondPu := rfl
@[simp] theorem State.modAx_beyondPu (s : State) (a : Nat) (f : AxSt → AxSt) : (s.modAx a f).beyondPu = s.beyondPu := rfl
@[simp] theorem State.setSlot_beyondPu (s : State) (m : Nat) (k : KSlot) : (s.setSlot m k).beyondPu = s.beyondPu := rfl
@[simp] theorem State.prevLost_beyondPu (s : State) (n : Nat) : (s.prevLost n).beyondPu = s.beyondPu := rfl

theorem State.set_beyondPu_en (s : State) {m : Nat} (v : Nat) (hm : m < 48) : (s.set (CE_PAGE_EN m) v).beyondPu = s.beyondPu :=
  State.setReg_beyondPu s _ (by simp only [CE_PAGE, List.mem_cons]; omega)

theorem State.clearEn_beyondPu (s : State) {m : Nat} (hm : m < 48) : (s.clearEn m).beyondPu = s.beyondPu := by
  have hen : (if s.get (CE_PAGE_TYPE m) = tySup then s else s.set (CE_PAGE_EN m) 0).beyondPu = s.beyondPu := by
    split
    · rfl
    · exact s.set_beyondPu_en 0 hm
  exact hen

theorem State.setEn_beyondPu (s : State) {m : Nat} (hm : m < 48) : (s.setEn m).beyondPu = s.beyondPu := by
  unfold State.setEn
  split
  · rfl
  · exact (State.setSlot_beyondPu _ _ _).trans (s.set_beyondPu_en 1 hm)

@[simp] theorem State.clearOut_beyondPu (s : State) (out : Nat) : (s.clearOut out).beyondPu = s.beyondPu := by
  unfold State.clearOut
  split
  next m hm => exact s.clearEn_beyondPu (slotOf_lt hm)
  next => rfl

@[simp] theorem State.enableOut_beyondPu (s : State) (out : Nat) : (s.enableOut out).beyondPu = s.beyondPu := by
  unfold State.enableOut
  split
  next m hm => exact s.setEn_beyondPu (slotOf_lt hm)
  next => rfl

@[simp] theorem State.withOut_beyondPu (s : State) (out : Nat) (f : KSlot → KSlot) :
    (s.withOut out f).beyondPu = s.beyondPu := by
  unfold State.withOut
  split <;> rfl

@[simp] theorem State.lasers_beyondPu (s : State) (n : Fin 4) : (s.lasers n).beyondPu = s.beyondPu := by
  simp -implicitDefEqProofs [State.lasers]

@[simp] theorem State.dropGate_beyondPu (s : State) (n : Fin 4) : (s.dropGate n).beyondPu = s.beyondPu := by
  simp -implicitDefEqProofs [State.dropGate]

@[simp] theorem State.releaseSlots_beyondPu (s : State) (n : Nat) : (s.releaseSlots n).beyondPu = s.beyondPu := by
  simp -implicitDefEqProofs [State.releaseSlots]

@[simp] theorem State.setCur_beyondPu (s : State) (n : Fin 4) (layer : Nat) : (s.setCur n layer).beyondPu = s.beyondPu := by
  simp -implicitDefEqProofs [State.setCur]

@[simp] theorem State.setSa_beyondPu (s : State) (n : Fin 4) (layer : Nat) : (s.setSa n layer).beyondPu = s.beyondPu := by
  unfold State.setSa
  split <;> simp -implicitDefEqProofs

@[simp] theorem State.axMove_beyondPu (s : State) (n : Fin 4) (dest : Int) : (s.axMove n dest).beyondPu = s.beyondPu := by
  simp -implicitDefEqProofs [State.axMove]

@[simp] theorem State.sledPark_beyondPu (s : State) (n : Fin 4) : (s.sledPark n).beyondPu = s.beyondPu := by
  unfold State.sledPark
  split <;> simp -implicitDefEqProofs

@[simp] theorem State.endOp_beyondPu (s : State) (n : Fin 4) (result : Nat) : (s.endOp n result).beyondPu = s.beyondPu := by
  simp -implicitDefEqProofs [State.endOp]

@[simp] theorem State.puRest_beyondPu (s : State) (n : Fin 4) (st : Nat) : (s.puRest n st).beyondPu = s.beyondPu := by
  simp -implicitDefEqProofs [State.puRest]

@[simp] theorem State.puFail_beyondPu (s : State) (n : Fin 4) : (s.puFail n).beyondPu = s.beyondPu := by
  simp -implicitDefEqProofs [State.puFail]

@[simp] theorem State.enterReacq_beyondPu (s : State) (n : Fin 4) : (s.enterReacq n).beyondPu = s.beyondPu := by
  simp -implicitDefEqProofs [State.enterReacq]

@[simp] theorem State.jumpAttempt_beyondPu (s : State) (n : Fin 4) (layer : Nat) :
    (s.jumpAttempt n layer).beyondPu = s.beyondPu := by
  simp -implicitDefEqProofs [State.jumpAttempt]

@[simp] theorem State.startJump_beyondPu (s : State) (n : Fin 4) (layer turn : Nat) (byCmd acqJump : Bool) :
    (s.startJump n layer turn byCmd acqJump).beyondPu = s.beyondPu := by
  simp -implicitDefEqProofs [State.startJump]

@[simp] theorem State.jumpStat_beyondPu (s : State) (n : Fin 4) (outcome : Nat) : (s.jumpStat n outcome).beyondPu = s.beyondPu := by
  simp -implicitDefEqProofs [State.jumpStat]

/-! ### Steps of the pickups' sequences -/

/-- From `s` to `t` at most what the sequences of the pickups and the faults that they raise write has changed. -/
def State.upToPu (s t : State) : Prop :=
  t = { s with regs := t.regs, pu := t.pu, ce := t.ce, ax := t.ax, flt := t.flt, chn := t.chn } ∧
    ∀ a, outside [2, 3, 6] a → t.reg a = s.reg a

namespace State.upToPu

variable {s t u : State}

theorem of_beyondPu (h : t.beyondPu = s.beyondPu) : s.upToPu t := by
  refine ⟨?_, fun a ha => reg_of_beyondPu h ha.1⟩
  have hrest := eq_of_beyondPu h
  generalize t.regs = regs, t.pu = pu, t.ce = ce, t.ax = ax, t.chn = chn at hrest
  subst hrest
  rfl

theorem refl (s : State) : s.upToPu s := of_beyondPu rfl

theorem trans (h : s.upToPu t) (k : t.upToPu u) : s.upToPu u := by
  obtain ⟨hst, hregs⟩ := h
  obtain ⟨htu, kregs⟩ := k
  refine ⟨?_, fun a ha => (kregs a ha).trans (hregs a ha)⟩
  rw [htu, hst]

theorem puFault (s : State) (n : Fin 4) (kind arg : Nat) : s.upToPu (s.puFault n kind arg) := by
  obtain ⟨regs, flt, h⟩ := State.upToFaults.raise s (0x010 + n) kind arg
  refine ⟨?_, fun a ha => ?_⟩
  · rw [State.puFault, h]
  · obtain ⟨-, hfault⟩ := ha
    simp only [faultWord, inBlock] at hfault
    exact State.reg_raise_other s (by dsimp only [keySrc]; omega) (by dsimp only [FLT_FB]; omega)

theorem ite {c : Prop} [Decidable c] (ht : s.upToPu t) (hu : s.upToPu u) : s.upToPu (if c then t else u) := by
  split <;> assumption

theorem when (b : Bool) {f : State → State} (h : s.upToPu (f s)) : s.upToPu (s.when b f) := ite h (refl s)

end State.upToPu

/-- A move to a turn writes the pickup's registers and its sled's, and raises LJ_OFFTRACK at most. -/
theorem State.upToPu.seekMotion (s : State) (n : Fin 4) (turn : Nat) : s.upToPu (s.seekMotion n turn) := by
  unfold State.seekMotion
  dsimp only
  refine State.upToPu.trans (.of_beyondPu ?_) (.when _ (.puFault _ n _ _))
  simp -implicitDefEqProofs

theorem State.upToPu.seekEnd {s : State} {n : Fin 4} {done : State → State} (hdone : s.upToPu (done s)) :
    s.upToPu (s.seekEnd n done) := by
  have hseen : ∀ v, s.upToPu (s.set (OPU_SPIRAL_TURN n) v) := fun v => .of_beyondPu (by simp -implicitDefEqProofs)
  unfold State.seekEnd
  refine .ite (.refl s) (.ite (.ite ?_ ?_) (.ite hdone (.refl s)))
  · exact (hseen _).trans (.trans (.puFault _ n _ _) (.of_beyondPu (State.enterReacq_beyondPu _ n)))
  · exact (hseen _).trans (.trans (.of_beyondPu (State.modPu_beyondPu _ _ _)) (.seekMotion _ n _))

/-- A row that acts under a condition and otherwise does nothing. -/
theorem eq_of_row {c : Prop} [Decidable c] {a b t : State}
    (h : (if c then Host.Outcome.next a else Host.Outcome.next b : Out) = .next t) : t = if c then a else b := by
  have hrow : (Host.Outcome.next (if c then a else b) : Out) = .next t := (apply_ite _ _ _ _).trans h
  exact (Host.Outcome.next.inj hrow).symm


end Sys2Proof.Machine
end

section
/-!
PROOFS of the statements of 03_optical_servo.md, continued: focus, layer jumps and seeks (O15).
-/

namespace Sys2Proof.Machine

open Sys2Proof

theorem State.jumpDone_beyondPu (s : State) (n : Fin 4) : (s.jumpDone n).beyondPu = s.beyondPu := by
  simp -implicitDefEqProofs [State.jumpDone]

theorem State.seekDone_beyondPu (s : State) (n : Fin 4) : (s.seekDone n).beyondPu = s.beyondPu := by
  unfold State.seekDone
  dsimp only
  split <;> simp -implicitDefEqProofs

theorem State.ramp0_beyondPu (s : State) (n : Fin 4) : (s.ramp0 n).beyondPu = s.beyondPu := by
  simp -implicitDefEqProofs [State.ramp0]

theorem State.upToPu.reacqFails (s : State) (n : Fin 4) : s.upToPu (s.reacqFails n) := by
  unfold State.reacqFails
  refine .ite (.ite ?_ ?_) (.ite ?_ ?_)
  · exact .of_beyondPu (State.ramp0_beyondPu _ n)
  · exact (State.upToPu.puFault s n _ _).trans (.of_beyondPu (State.puFail_beyondPu _ n))
  · exact .of_beyondPu (State.ramp0_beyondPu _ n)
  · refine .of_beyondPu ((State.ramp0_beyondPu _ n).trans ?_)
    simp -implicitDefEqProofs

/-! ### The rows that advance a sequence -/

theorem execFocusCapture_upToPu {n : Fin 4} {s t : State} (h : execFocusCapture n s = .next t) : s.upToPu t := by
  refine eq_of_row h ▸ .ite (.of_beyondPu ?_) (.refl s)
  split <;> simp -implicitDefEqProofs

theorem execFocusSweepEnd_upToPu {n : Fin 4} {s t : State} (h : execFocusSweepEnd n s = .next t) : s.upToPu t := by
  unfold execFocusSweepEnd at h
  split_ifs at h <;> obtain rfl := Host.Outcome.next.inj h
  · exact .refl s
  · exact .of_beyondPu (State.ramp0_beyondPu _ n)
  · exact (State.upToPu.puFault s n _ _).trans (.of_beyondPu (State.puFail_beyondPu _ n))
  · exact .reacqFails s n
  · exact .refl s

theorem execSaSettleDone_upToPu {n : Fin 4} {s t : State} (h : execSaSettleDone n s = .next t) : s.upToPu t := by
  unfold execSaSettleDone at h
  split at h
  · split at h <;> obtain rfl := Host.Outcome.next.inj h
    · exact .of_beyondPu (by simp -implicitDefEqProofs)
    · exact .refl s
  · obtain rfl := Host.Outcome.next.inj h
    exact .refl s

theorem execLjCapture_upToPu {n : Fin 4} {s t : State} (h : execLjCapture n s = .next t) : s.upToPu t := by
  exact eq_of_row h ▸ .ite (.of_beyondPu (by simp -implicitDefEqProofs)) (.refl s)

theorem execLayerJumpDone_upToPu {n : Fin 4} {s t : State} (h : execLayerJumpDone n s = .next t) : s.upToPu t := by
  obtain rfl := Host.Outcome.next.inj h
  exact .ite (.seekEnd (.of_beyondPu (s.jumpDone_beyondPu n))) (.refl s)

theorem execLjTimeout_upToPu {n : Fin 4} {s t : State} (h : execLjTimeout n s = .next t) : s.upToPu t := by
  unfold execLjTimeout at h
  dsimp only at h
  split_ifs at h <;> obtain rfl := Host.Outcome.next.inj h
  · exact (State.upToPu.puFault s n _ _).trans
      (.of_beyondPu ((State.modPu_beyondPu _ _ _).trans (State.jumpAttempt_beyondPu _ n _)))
  · exact (State.upToPu.puFault s n _ _).trans
      (.of_beyondPu ((State.enterReacq_beyondPu _ n).trans (State.jumpStat_beyondPu _ n _)))
  · exact .refl s

theorem execSeekComplete_upToPu {n : Fin 4} {s t : State} (h : execSeekComplete n s = .next t) : s.upToPu t := by
  obtain rfl := Host.Outcome.next.inj h
  exact .ite (.seekEnd (.of_beyondPu (s.seekDone_beyondPu n))) (.refl s)

/-- The word that counts the faults of a pickup. -/
theorem count_of_beyondPu {s t : State} (h : t.beyondPu = s.beyondPu) (n : Fin 4) :
    t.reg (keySrc (0x010 + n) 0) = s.reg (keySrc (0x010 + n) 0) :=
  reg_of_beyondPu h (by simp only [keySrc, List.mem_cons, List.not_mem_nil, or_false]; omega)

/-- A fault of a pickup is counted, whatever its sequences do then. -/
theorem count_puFault {s t : State} {n : Fin 4} {kind arg : Nat} (h : t.beyondPu = (s.puFault n kind arg).beyondPu)
    (hk : kind ≠ 0x3F) :
    (t.reg (keySrc (0x010 + n) 0)).toNat = min 0xFFFFFFFF ((s.reg (keySrc (0x010 + n) 0)).toNat + 1) := by
  rw [count_of_beyondPu h]
  exact State.count_raise s arg hk

/-- A seek that ends on its turn, with tracking settled, is done. -/
theorem seekEnd_settled {s : State} {n : Nat} (done : State → State) (hp : (s.puOf n).profileDone = true)
    (hturn : (s.puOf n).seen = (s.puOf n).turn) (hok : s.get (OPU_TRK_CFG_TRK_SETTLE n) ≤ (s.puOf n).trkOk) :
    s.seekEnd n done = done s := by
  simp only [State.seekEnd, hp, hturn, hok, Bool.true_eq_false, ne_eq, not_true, and_false, if_false, if_true]

/-- After three seeks made again one that ends off its turn fails (R150). -/
theorem seekEnd_fails {s : State} {n : Nat} (done : State → State) (hp : (s.puOf n).profileDone = true)
    (hj : (s.puOf n).thenJump = none) (hturn : (s.puOf n).seen ≠ (s.puOf n).turn) (hseeks : (s.puOf n).seeks = 3) :
    s.seekEnd n done =
      ((s.set (OPU_SPIRAL_TURN n) (s.puOf n).seen).puFault n 6 ((s.puOf n).turn % 65536)).enterReacq n := by
  simp only [State.seekEnd, hp, hj, hturn, hseeks, Bool.true_eq_false, Option.isNone_none, ne_eq, not_false_eq_true, and_self,
    if_false, if_true]

theorem puFail_spec (s : State) (n : Fin 4) : (s.puFail n).puState n = puUnusable :=
  State.puState_puRest _ n (by decide)

theorem jumpDone_spec (s : State) (n : Fin 4) :
    (s.jumpDone n).puState n = puTracking ∧ (s.jumpDone n).flag (OPU_STAT_ON_LAYER n) = true ∧
      (s.jumpDone n).get (OPU_LJ_STAT_OUTCOME n) = (if (s.puOf n).tries = 0 then 1 else 2) ∧
      ((s.jumpDone n).puOf n).op = none := by
  have hout : (if (s.puOf n).tries = 0 then 1 else 2) < 8 := by split <;> decide
  refine ⟨?_, ?_, ?_, ?_⟩
  · simp -implicitDefEqProofs [State.puState, State.jumpDone, State.get_set_here, puTracking]
  · simp -implicitDefEqProofs [State.flag, State.jumpDone, State.get_set_here]
  · simp -implicitDefEqProofs [State.jumpDone, State.jumpStat, State.get_set_here, Nat.mod_eq_of_lt hout]
  · simp -implicitDefEqProofs [State.jumpDone, State.endOp_op]

theorem seekDone_spec {s : State} {n : Fin 4} (hj : (s.puOf n).thenJump = none) (hseen : (s.puOf n).seen < 2 ^ 18) :
    (s.seekDone n).puState n = puTracking ∧ (s.seekDone n).get (OPU_SPIRAL_TURN n) = (s.puOf n).seen ∧
      ((s.seekDone n).puOf n).op = none := by
  unfold State.seekDone
  dsimp only
  rw [hj]
  refine ⟨?_, ?_, ?_⟩
  · simp -implicitDefEqProofs [State.puState, State.get_set_here, puTracking]
  · simpa -implicitDefEqProofs [State.get_set_here] using hseen
  · simp -implicitDefEqProofs [State.endOp_op]

/-- Settles O15: the captures are a change of layer (`State.setCur_spec`), a failed sweep ends in `puFail_spec`, a jump and a seek
end by `seekEnd_settled` or `seekEnd_fails`, and a lost one enters REACQ (`State.enterReacq_spec`); a fault is counted whatever
follows it (`count_puFault`). -/
theorem focusAndJumpsAdvance : Obligations.FocusAndJumpsAdvance := by
  refine ⟨?capture, ?retry, ?unusable, ?lost, ?settled, ?jumpCapture, ?jumpDone, ?timeout, ?seekDone, ?seekFails, ?frame⟩
  case capture =>
    intro n s hc hst hl
    refine ⟨_, if_pos hc, ?_⟩
    rw [if_neg (by simp [hst])]
    obtain ⟨hcur, hon⟩ := s.setCur_spec n hl
    refine ⟨?_, ?_, ?_, ?_⟩
    · simp -implicitDefEqProofs [hcur]
    · simp -implicitDefEqProofs [State.flag, hon]
    · simp -implicitDefEqProofs
    · simpa -implicitDefEqProofs [State.puState] using hst
  case retry =>
    intro n s hst hc hover htries
    refine ⟨_, (if_neg (by simp [hc, hover])).trans ((if_pos hst).trans (if_pos htries)), ?_, ?_, ?_⟩
    · simp -implicitDefEqProofs [State.ramp0]
    · simpa -implicitDefEqProofs [State.ramp0, State.puState] using hst
    · simp -implicitDefEqProofs [State.ramp0]
  case unusable =>
    intro n s hst hc hover htries
    refine ⟨_, (if_neg (by simp [hc, hover])).trans ((if_pos hst).trans (if_neg (by omega))), puFail_spec _ n, ?_⟩
    exact count_puFault (State.puFail_beyondPu _ n) (by decide)
  case lost =>
    intro n s hst hc hover hfull htries
    have hfails : s.reacqFails n = (s.puFault n 2 (s.get (OPU_LAYER_CUR n))).puFail n :=
      (if_pos hfull).trans (if_neg (by omega))
    refine ⟨_, (if_neg (by simp [hc, hover])).trans ((if_neg (by simp [hst])).trans (if_pos hst)), ?_⟩
    rw [hfails]
    exact ⟨puFail_spec _ n, count_puFault (State.puFail_beyondPu _ n) (by decide)⟩
  case settled =>
    intro n k s hk hsettle
    have hrow : execSaSettleDone n s = .next (s.set (OPU_STAT_SA_READY n) 1) := by
      rw [execSaSettleDone, hk]
      exact if_pos hsettle
    refine ⟨_, hrow, ?_, fun a ha => State.reg_set_apart s 1 ha⟩
    rw [State.flag, State.get_set_here _ _ (by decide) (by decide)]
    rfl
  case jumpCapture =>
    intro n s hc
    have hst : s.puState n = puLayerJump := by
      simp only [State.jumpCaptures, Bool.and_eq_true, beq_iff_eq] at hc
      obtain ⟨⟨⟨⟨hst, -⟩, -⟩, -⟩, -⟩ := hc
      exact hst
    obtain ⟨hcur, -⟩ := s.setCur_spec n (layer := s.get (OPU_LAYER_TARGET n)) (State.get_lt s (OPU_LAYER_TARGET n))
    refine ⟨_, if_pos hc, ?_, ?_, ?_⟩
    · simp -implicitDefEqProofs [hcur]
    · simp -implicitDefEqProofs
    · simpa -implicitDefEqProofs [State.puState] using hst
  case jumpDone =>
    intro n s hst hc hconf hp hturn hok
    have hend := seekEnd_settled (fun t => t.jumpDone n) hp hturn hok
    exact ⟨_, congrArg Host.Outcome.next ((if_pos ⟨hst, hc, hconf⟩).trans hend), jumpDone_spec s n⟩
  case timeout =>
    intro n s hst htmo htries
    refine ⟨_, (if_pos ⟨hst, htmo⟩).trans (if_neg (by omega)), ?_⟩
    obtain ⟨hreacq, hcount, -⟩ := State.enterReacq_spec ((s.puFault n 3 (s.get (OPU_LAYER_TARGET n))).jumpStat n 3) n
    refine ⟨hreacq, ?_, ?_, ?_⟩
    · simp -implicitDefEqProofs [State.jumpStat, State.get_set_here]
    · rw [hcount]
      simp -implicitDefEqProofs [State.jumpStat]
    · exact count_puFault ((State.enterReacq_beyondPu _ n).trans (State.jumpStat_beyondPu _ n _)) (by decide)
  case seekDone =>
    intro n s hst hj hlt hp hturn hok
    have hend := seekEnd_settled (fun t => t.seekDone n) hp hturn hok
    obtain ⟨htrack, hat, hop⟩ := seekDone_spec hj (hturn ▸ hlt)
    exact ⟨_, congrArg Host.Outcome.next ((if_pos hst).trans hend), htrack, hat.trans hturn, hop⟩
  case seekFails =>
    intro n s hst hj hp hturn hseeks
    have hend := seekEnd_fails (fun t => t.seekDone n) hp hj hturn hseeks
    refine ⟨_, congrArg Host.Outcome.next ((if_pos hst).trans hend), (State.enterReacq_spec _ n).1, ?_⟩
    rw [count_puFault (State.enterReacq_beyondPu _ n) (by decide)]
    rw [count_of_beyondPu (s := s) (by simp -implicitDefEqProofs)]
  case frame =>
    intro n s t h
    have hstep : s.upToPu t := by
      rcases h with h | h | h | h | h | h | h
      · exact execFocusCapture_upToPu h
      · exact execFocusSweepEnd_upToPu h
      · exact execSaSettleDone_upToPu h
      · exact execLjCapture_upToPu h
      · exact execLayerJumpDone_upToPu h
      · exact execLjTimeout_upToPu h
      · exact execSeekComplete_upToPu h
    exact hstep

end Sys2Proof.Machine
end

section
/-!
PROOFS of the statements of 03_optical_servo.md, continued: the write gate and the lasers (O17).
-/

namespace Sys2Proof.Machine

open Sys2Proof

/-! ### What lies beyond the write gate -/

/-- From `s` to `t` at most registers and the Owl have changed. -/
def State.upToOwl (s t : State) : Prop := ∃ regs owl, t = { s with regs := regs, owl := owl }

theorem State.upToOwl.trans {s t u : State} (h : s.upToOwl t) (k : t.upToOwl u) : s.upToOwl u := by
  obtain ⟨_, _, rfl⟩ := h
  obtain ⟨_, _, rfl⟩ := k
  exact ⟨_, _, rfl⟩

theorem State.upToOwl.set (s : State) (f : Fld) (v : Nat) : s.upToOwl (s.set f v) := ⟨_, _, rfl⟩

theorem State.upToOwl.owl (s : State) (x : OwlSt) : s.upToOwl { s with owl := x } := ⟨_, _, rfl⟩

/-- An event changes registers and the Owl alone. -/
theorem State.upToOwl.capture (s : State) (kind flags : Nat) (data : Word) : s.upToOwl (s.capture kind flags data) := by
  have hpush : ∀ x, s.upToOwl (State.incWrap { s with owl := x } OWL_STAT_SEQ) := fun x => (owl s x).trans (set _ _ _)
  unfold State.capture
  split
  · exact set _ _ _
  · dsimp only
    split
    · exact hpush _
    · split
      · exact (hpush _).trans ((owl _ _).trans (set _ _ _))
      · exact (hpush _).trans (owl _ _)

/-- From `s` to `t` at most what a write inhibit writes has changed: words of OPU and of the Owl, the pickups' records, the Owl and
the faults. -/
def State.upToGate (s t : State) : Prop :=
  t = { s with regs := t.regs, pu := t.pu, flt := t.flt, owl := t.owl } ∧ ∀ a, outside [3, 0x11] a → t.reg a = s.reg a

namespace State.upToGate

variable {s t u : State}

theorem refl (s : State) : s.upToGate s := ⟨rfl, fun _ _ => rfl⟩

theorem trans (h : s.upToGate t) (k : t.upToGate u) : s.upToGate u := by
  obtain ⟨hst, hregs⟩ := h
  obtain ⟨htu, kregs⟩ := k
  refine ⟨?_, fun a ha => (kregs a ha).trans (hregs a ha)⟩
  rw [htu, hst]

theorem setReg (s : State) {n : Fin 4} {a : Nat} (v : Word) (ha : 0x30000 ≤ a) (hb : a < 0x34000) :
    s.upToGate (s.setReg (a + 0x4000 * n) v) := by
  refine ⟨rfl, fun b hb => State.reg_setReg_other s v ?_⟩
  rintro rfl
  obtain ⟨hblock, -⟩ := hb
  simp only [List.mem_cons] at hblock
  omega

theorem set (s : State) {n : Fin 4} {a h l : Nat} (v : Nat) (ha : 0x30000 ≤ a) (hb : a < 0x34000) :
    s.upToGate (s.set ⟨a + 0x4000 * n, h, l⟩ v) := setReg s _ ha hb

theorem modPu (s : State) (n : Nat) (f : PuSt → PuSt) : s.upToGate (s.modPu n f) := ⟨rfl, fun _ _ => rfl⟩

theorem puFault (s : State) (n : Fin 4) (kind arg : Nat) : s.upToGate (s.puFault n kind arg) := by
  obtain ⟨regs, flt, h⟩ := State.upToFaults.raise s (0x010 + n) kind arg
  refine ⟨?_, fun a ha => ?_⟩
  · rw [State.puFault, h]
  · obtain ⟨-, hfault⟩ := ha
    simp only [faultWord, inBlock] at hfault
    exact State.reg_raise_other s (by dsimp only [keySrc]; omega) (by dsimp only [FLT_FB]; omega)

theorem capture (s : State) (kind flags : Nat) (data : Word) : s.upToGate (s.capture kind flags data) := by
  refine ⟨?_, fun a ha => State.reg_capture s kind flags data ?_⟩
  · obtain ⟨_, _, h⟩ := State.upToOwl.capture s kind flags data
    rw [h]
  · rintro rfl
    exact ha.1 (by decide)

theorem ite {c : Prop} [Decidable c] (ht : s.upToGate t) (hu : s.upToGate u) : s.upToGate (if c then t else u) := by
  split <;> assumption

theorem when (b : Bool) {f : State → State} (h : s.upToGate (f s)) : s.upToGate (s.when b f) := ite h (refl s)

theorem dropGate (s : State) (n : Fin 4) : s.upToGate (s.dropGate n) :=
  (when _ (modPu s n _)).trans (set _ _ (by decide) (by decide))

end State.upToGate

/-! ### Write inhibit (R154 to R157) -/

/-- An inhibit condition shows in OPU_STAT and is noted with its tick. -/
def State.inhibited (s : State) (n causes : Nat) : State :=
  ((s.set (OPU_STAT_WI_ACTIVE n) 1).set (OPU_STAT_WRITE_READY n) 0).modPu n fun k =>
    { k with inhibit := k.inhibit ||| causes, clearSince := s.tick }

/-- The raised gate of an inhibited pickup drops: the drop is counted, with its causes and its tick. -/
def State.gateDropped (s : State) (n causes drops : Nat) : State :=
  ((((s.dropGate n).modPu n fun k => { k with drops := drops }).set (OPU_WI_STAT_CAUSE n) causes).addSat
    (OPU_WI_STAT_COUNT n) 1).setReg (OPU_WI_TS n) (BitVec.ofNat 32 s.tick)

theorem State.inhibit_down {s : State} {n causes : Nat} (hg : s.flag (OPU_STAT_GATE n) = false) :
    s.inhibit n causes = s.inhibited n causes := if_neg (by simp [hg])

theorem State.inhibit_up {s : State} {n causes : Nat} (hg : s.flag (OPU_STAT_GATE n) = true) :
    s.inhibit n causes =
      ((((s.inhibited n causes).gateDropped n causes ((s.puOf n).drops + 1)).capture evWriteDrop 0
        (BitVec.ofNat 32 (n + 256 * causes))).puFault n 0x0A causes).when
          ((s.puOf n).drops + 1 == s.get (OPU_WI_CFG_REP_MAX n) + 1) fun t => t.puFault n 0x0B ((s.puOf n).drops + 1) :=
  if_pos hg

theorem State.upToGate.inhibited (s : State) (n : Fin 4) (causes : Nat) : s.upToGate (s.inhibited n causes) :=
  (set s 1 (by decide) (by decide)).trans ((set _ 0 (by decide) (by decide)).trans (modPu _ n _))

theorem State.upToGate.gateDropped (s : State) (n : Fin 4) (causes drops : Nat) :
    s.upToGate (s.gateDropped n causes drops) :=
  (dropGate s n).trans ((modPu _ n _).trans ((set _ _ (by decide) (by decide)).trans
    ((set _ _ (by decide) (by decide)).trans (setReg _ _ (by decide) (by decide)))))

theorem State.upToGate.inhibit (s : State) (n : Fin 4) (causes : Nat) : s.upToGate (s.inhibit n causes) := by
  cases hg : s.flag (OPU_STAT_GATE n) with
  | false =>
    rw [State.inhibit_down hg]
    exact inhibited s n causes
  | true =>
    rw [State.inhibit_up hg]
    exact (inhibited s n causes).trans ((gateDropped _ n _ _).trans
      ((capture _ _ _ _).trans ((puFault _ n _ _).trans (when _ (puFault _ n _ _)))))

@[simp] theorem State.puGet_setReg (s : State) {n a b h l : Nat} (v : Word) (hd : a ≠ b) :
    (s.setReg (b + 0x4000 * n) v).get ⟨a + 0x4000 * n, h, l⟩ = s.get ⟨a + 0x4000 * n, h, l⟩ :=
  State.get_setReg_other s v (by dsimp only; omega)

theorem State.inhibited_spec (s : State) (n : Fin 4) (causes : Nat) :
    (s.inhibited n causes).flag (OPU_STAT_WI_ACTIVE n) = true ∧ (s.inhibited n causes).flag (OPU_STAT_WRITE_READY n) = false ∧
      ∀ a, a ≠ OPU_STAT n → (s.inhibited n causes).reg a = s.reg a := by
  refine ⟨?_, ?_, fun a ha => ?_⟩
  · simp -implicitDefEqProofs [State.inhibited, State.flag, State.get_set_here]
  · simp -implicitDefEqProofs [State.inhibited, State.flag, State.get_set_here]
  · rw [State.inhibited, State.modPu_reg, State.reg_set_apart _ _ ha, State.reg_set_apart _ _ ha]

theorem State.gateDropped_spec (s : State) (n : Fin 4) (causes drops : Nat) :
    (s.gateDropped n causes drops).get (OPU_STAT_GATE n) = 0 ∧
      (s.gateDropped n causes drops).get (OPU_WI_STAT_CAUSE n) = causes % 64 ∧
      (s.gateDropped n causes drops).get (OPU_WI_STAT_COUNT n) =
        min (OPU_WI_STAT_COUNT n).top (s.get (OPU_WI_STAT_COUNT n) + 1) ∧
      (s.gateDropped n causes drops).reg (OPU_WI_TS n) = BitVec.ofNat 32 s.tick ∧
      (s.flag (OPU_STAT_GATE n) = true → ((s.gateDropped n causes drops).puOf n).rewriteMark = true) := by
  refine ⟨?_, ?_, ?_, State.reg_setReg_same _ _ _, fun hg => ?_⟩
  · simp -implicitDefEqProofs [State.gateDropped, State.dropGate, State.get_set_here]
  · simp -implicitDefEqProofs [State.gateDropped, State.get_set_here]
  · simp -implicitDefEqProofs [State.gateDropped, State.get_addSat_here, Fld.top]
  · simp -implicitDefEqProofs [State.gateDropped, State.dropGate, hg]

@[simp] theorem State.capture_puOf (s : State) (kind flags : Nat) (data : Word) (n : Nat) :
    (s.capture kind flags data).puOf n = s.puOf n := by
  obtain ⟨_, _, h⟩ := State.upToOwl.capture s kind flags data
  rw [h]
  rfl

/-- What follows a drop, the event and the faults, leaves the pickups' registers and records. -/
theorem State.inhibit_up_opu {s : State} {n : Fin 4} {causes : Nat} (hg : s.flag (OPU_STAT_GATE n) = true) :
    (∀ a, a < 0x40000 → (s.inhibit n causes).reg a =
        ((s.inhibited n causes).gateDropped n causes ((s.puOf n).drops + 1)).reg a) ∧
      (s.inhibit n causes).puOf n = ((s.inhibited n causes).gateDropped n causes ((s.puOf n).drops + 1)).puOf n := by
  rw [State.inhibit_up hg]
  refine ⟨fun a ha => ?_, ?_⟩
  · have hfault : ∀ (t : State) kind arg, (t.puFault n kind arg).reg a = t.reg a := fun t kind arg =>
      State.reg_raise_below t (by omega)
    rw [State.reg_when _ _ _ (hfault _ _ _), hfault, State.reg_capture _ _ _ _ (by dsimp only [OWL_STAT]; omega)]
  · rw [State.when_puOf, State.puFault_puOf, State.puFault_puOf, ite_self, State.capture_puOf]

/-- A write inhibit with the gate raised: the gate drops, and the drop is recorded (R156). -/
theorem State.inhibit_raised {s : State} {n : Fin 4} (causes : Nat) (hg : s.flag (OPU_STAT_GATE n) = true) :
    (s.inhibit n causes).flag (OPU_STAT_WI_ACTIVE n) = true ∧ (s.inhibit n causes).flag (OPU_STAT_WRITE_READY n) = false ∧
      (s.inhibit n causes).flag (OPU_STAT_GATE n) = false ∧ (s.inhibit n causes).get (OPU_WI_STAT_CAUSE n) = causes % 64 ∧
      (s.inhibit n causes).get (OPU_WI_STAT_COUNT n) = min (OPU_WI_STAT_COUNT n).top (s.get (OPU_WI_STAT_COUNT n) + 1) ∧
      (s.inhibit n causes).reg (OPU_WI_TS n) = BitVec.ofNat 32 s.tick ∧
      ((s.inhibit n causes).puOf n).rewriteMark = true := by
  obtain ⟨hregs, hpu⟩ := State.inhibit_up_opu (causes := causes) hg
  obtain ⟨hactive, hready, -⟩ := s.inhibited_spec n causes
  obtain ⟨hgate, hcause, hcount, hts, hmark⟩ :=
    (s.inhibited n causes).gateDropped_spec n causes ((s.puOf n).drops + 1)
  have hget : ∀ {a h l : Nat}, a < 0x34000 → (s.inhibit n causes).get ⟨a + 0x4000 * n, h, l⟩ =
      ((s.inhibited n causes).gateDropped n causes ((s.puOf n).drops + 1)).get ⟨a + 0x4000 * n, h, l⟩ :=
    fun {a h l} ha => by simp only [State.get, hregs _ (show a + 0x4000 * n.val < 0x40000 by omega)]
  have hstat : ∀ {h l : Nat}, h < 8 ∨ 8 < l → (s.inhibit n causes).get ⟨OPU_STAT n, h, l⟩ =
      (s.inhibited n causes).get ⟨OPU_STAT n, h, l⟩ := fun hd => by
    rw [hget (by decide)]
    simp -implicitDefEqProofs [State.gateDropped, hd]
  refine ⟨?_, ?_, ?_, ?_, ?_, ?_, ?_⟩
  · rw [State.flag, hstat (by decide)]
    exact hactive
  · rw [State.flag, hstat (by decide)]
    exact hready
  · rw [State.flag, hget (by decide), hgate]
    rfl
  · exact (hget (by decide)).trans hcause
  · rw [hget (by decide), hcount]
    simp -implicitDefEqProofs [State.inhibited]
  · exact (hregs _ (by dsimp only [OPU_WI_TS]; omega)).trans hts
  · rw [hpu]
    refine hmark ?_
    simpa -implicitDefEqProofs [State.inhibited, State.flag] using hg

/-! ### The rows of the write gate and the lasers -/

/-- From `s` to `t` at most what a write inhibit, a service message and the status of a register access write has changed. -/
def State.upToGuards (s t : State) : Prop :=
  t = { s with regs := t.regs, wstat := t.wstat, pu := t.pu, flt := t.flt, owl := t.owl } ∧
    ∀ a, outside [3, 9, 0x11] a → t.reg a = s.reg a

namespace State.upToGuards

variable {s t u : State}

theorem trans (h : s.upToGuards t) (k : t.upToGuards u) : s.upToGuards u := by
  obtain ⟨hst, hregs⟩ := h
  obtain ⟨htu, kregs⟩ := k
  refine ⟨?_, fun a ha => (kregs a ha).trans (hregs a ha)⟩
  rw [htu, hst]

theorem of_upToGate (h : s.upToGate t) : s.upToGuards t := by
  obtain ⟨hst, hregs⟩ := h
  refine ⟨?_, fun a ⟨hblock, hfault⟩ => hregs a ⟨fun h => hblock ?_, hfault⟩⟩
  · generalize t.regs = regs, t.pu = pu, t.flt = flt, t.owl = owl at hst
    subst hst
    rfl
  · simp only [List.mem_cons, List.not_mem_nil, or_false] at h ⊢
    omega

theorem status (s : State) (code : Nat) : s.upToGuards (s.status code) := ⟨rfl, fun _ _ => rfl⟩

theorem rxMessage (s : State) (p : Path) (b : Bool) : s.upToGuards (s.rxMessage p b) := by
  refine ⟨?_, fun a ha => State.reg_rxMessage s p b ?_⟩
  · rw [State.rxMessage_eq]
  · rintro rfl
    exact ha.1 (by decide)

theorem writeBy (p : Path) (ok : Bool) {f : State → State} (h : ∀ u : State, u.upToGuards (f u)) : s.upToGuards (s.writeBy p ok f) := by
  unfold State.writeBy
  split
  · exact of_upToGate (.refl s)
  · split
    · exact (rxMessage s p false).trans (status _ _)
    · split
      · exact (rxMessage s p false).trans ((h _).trans (status _ _))
      · exact (rxMessage s p false).trans (status _ _)

end State.upToGuards

theorem execWriteInhibit_upToGate {n : Fin 4} {pp : BitVec 16} {x y : BitVec 12} {s t : State}
    (h : execWriteInhibit n pp x y s = .next t) : s.upToGate t :=
  eq_of_row h ▸ .ite (.refl s) (.inhibit s n _)

theorem execWriteInhibitRearm_upToGate {n : Fin 4} {s t : State} (h : execWriteInhibitRearm n s = .next t) :
    s.upToGate t :=
  eq_of_row h ▸ .ite ((State.upToGate.set s 0 (by decide) (by decide)).trans (.modPu _ n _)) (.refl s)

theorem execLaserFault_upToGate {n : Fin 4} {write : Bool} {s t : State} (h : execLaserFault n write s = .next t) :
    s.upToGate t :=
  eq_of_row h ▸ .ite (.puFault s n _ _) (.refl s)

theorem execPuOvertemp_upToGate {n : Fin 4} {s t : State} (h : execPuOvertemp n s = .next t) : s.upToGate t :=
  eq_of_row h ▸ .ite (.puFault s n _ _) (.refl s)

/-- Settles O17: with the gate raised an inhibit is `State.inhibit_raised`, with the gate down `State.inhibited_spec`; the other rows
raise one fault each, or clear WI_ACTIVE. -/
theorem writeGateAndLaserGuards : Obligations.WriteGateAndLaserGuards := by
  refine ⟨?force, ?raised, ?down, ?rearm, ?laser, ?temperature, ?frame⟩
  case force =>
    intro p n s ho hg
    have hg' : (s.rxMessage p false).flag (OPU_STAT_GATE n) = true := by
      rw [State.flag_rxMessage s p false (by dsimp only [OPU_STAT, NET_SVC_STAT]; omega)]
      exact hg
    obtain ⟨hactive, -, hgate, hcause, -, hts, -⟩ := State.inhibit_raised wiSoft hg'
    refine ⟨_, congrArg Host.Outcome.next (writeBy_opens _ ho rfl), rfl, hactive, hgate, hcause, ?_⟩
    rw [State.status_reg, hts, State.rxMessage_tick]
  case raised =>
    intro n pp x y v s hv hne hg
    obtain ⟨hactive, hready, hgate, hcause, hcount, hts, hmark⟩ := State.inhibit_raised v hg
    subst hv
    exact ⟨_, if_neg hne, hactive, hready, hgate, hcause, hcount, hts, hmark⟩
  case down =>
    intro n pp x y v s hv hne hg
    subst hv
    refine ⟨_, if_neg hne, ?_⟩
    rw [State.inhibit_down hg]
    exact s.inhibited_spec n _
  case rearm =>
    intro n s ha hr
    refine ⟨_, if_pos ⟨ha, hr⟩, ?_, ?_, fun a hne => State.reg_set_apart s 0 hne⟩
    · rw [State.modPu_flag, State.flag, State.get_set_here _ _ (by decide) (by decide)]
      rfl
    · rw [State.modPu_puOf]
  case laser =>
    intro n write s hrun
    exact ⟨_, if_pos hrun, State.count_raise s _ (by decide)⟩
  case temperature =>
    intro n s htemp
    exact ⟨_, if_pos htemp, State.count_raise s _ (by decide)⟩
  case frame =>
    intro p n pp x y write s t h
    have hstep : s.upToGuards t := by
      rcases h with h | h | h | h | h
      · obtain rfl := Host.Outcome.next.inj h
        exact .writeBy p true fun u => .of_upToGate (.inhibit u n wiSoft)
      · exact .of_upToGate (execWriteInhibit_upToGate h)
      · exact .of_upToGate (execWriteInhibitRearm_upToGate h)
      · exact .of_upToGate (execLaserFault_upToGate h)
      · exact .of_upToGate (execPuOvertemp_upToGate h)
    exact hstep

end Sys2Proof.Machine
end

section
/-!
PROOFS of the statements of 03_optical_servo.md, continued: servo fields, dropouts and lost tracks (O16).
-/

namespace Sys2Proof.Machine

open Sys2Proof

/-! ### The stages of a servo field -/

/-- Where a field places its spot on the layer of CUR. -/
def State.fieldPos (s : State) (n : Nat) (r : FieldRead) : Option Int :=
  match s.fieldPlace n r with
  | some e => if e.1 = s.get (OPU_LAYER_CUR n) then some e.2 else none
  | none => none

/-- A field is counted as valid or invalid. -/
def State.fieldCounted (s : State) (n : Nat) (valid : Bool) : State :=
  if valid then s.incWrap (OPU_SF_CNT_VALID n) else s.addSat (OPU_SF_CNT_INVALID n) 1

/-- OPU_SF_STAT shows the last field of spot 0. -/
def State.fieldShown (s : State) (n k : Nat) (r : FieldRead) (valid : Bool) : State :=
  s.when (k == 0) fun t =>
    (((t.setFlag (OPU_SF_STAT_VALID n) valid).setFlag (OPU_SF_STAT_PAR_OK n) (fieldLayer r).isSome).set (OPU_SF_STAT_LAYER n)
      ((fieldCode r).getD 0 / 2)).set (OPU_SF_STAT_TURN n) ((fieldGray r).getD 0)

/-- The pickup's record notes a field read at CE cycle `at_`. -/
def State.fieldNoted (s : State) (n k : Fin 4) (r : FieldRead) (valid : Bool) (at_ : Nat) : State :=
  s.modPu n fun u =>
    { u with
      miss := u.miss.setIfInBounds k (if valid then 0 else (u.miss[k.val]) + 1)
      seen := if valid && k.val == 0 then (fieldGray r).getD 0 else u.seen
      fields := if valid then u.fields + 1 else if u.op = some .acquire then 0 else u.fields
      fieldAt := if valid then some at_ else u.fieldAt
      freshAt := if valid then u.freshAt.setIfInBounds k true else u.freshAt }

/-- The spot's position takes what a valid field gives. -/
def State.fieldPut (s : State) (n k : Nat) : Option Int → State
  | some v => ((s.set (OPU_SPOT_POS_VALID n k) 1).set (OPU_SPOT_POS_TURN n k) (unsignedOf 26 v / 256)).set
      (OPU_SPOT_POS_FINE n k) (unsignedOf 26 v % 256)
  | none => s

/-- A field judged: counted, shown, noted and put. -/
def State.fieldJudged (s : State) (n k : Fin 4) (r : FieldRead) : State :=
  let pos := s.fieldPos n r
  (((s.fieldCounted n pos.isSome).fieldShown n k r pos.isSome).fieldNoted n k r pos.isSome
    (s.ce.cycles + r.cycle.toNat)).fieldPut n k pos

/-- What a field of another layer than `cur` does after a capture, by the pickup's record `q` before the field. -/
def State.fieldElsewhere (s : State) (n cur : Nat) (q : PuSt) : Option (Nat × Int) → State
  | some e => s.when (decide (e.1 ≠ cur) && q.captured && (decide (q.op = some PuOp.jump) || !q.confirmed)) fun t =>
      t.wrongLayer n e.1
  | none => s

/-- The index field, and the work of the revolution. -/
def State.fieldRevolved (s : State) (n k : Nat) (r : FieldRead) (win : Nat) (tracking : Bool) : State :=
  let u := s.when (k == 0 && fieldMark r win == some true) fun t => t.indexField n r.field.toNat
  let f := (r.field.toNat + 2880 - (u.puOf n).indexRef) % 2880
  (u.when (tracking && f == 0) fun t => t.fieldZero n).when (tracking && f == 2856) fun t => t.fieldSpiral n

/-- PES_F of a valid field of spot 0, with the limit `lim` in 1/1000 tp. -/
def State.fieldFar (s : State) (n k lim : Nat) : Option Int → State
  | some v =>
    if k = 0 then
      let far := decide (((lim : Nat) : Rat) / 1000
        < ratAbs ((v : Rat) / 256 - ((s.get (OPU_SPIRAL_TURN n) : Nat) : Rat)))
      (s.modPu n fun u => { u with pesF := far }).when far fun t => t.inhibit n wiPesF
    else s
  | none => s

/-- The stages after the channel clock. -/
def State.fieldRun (s : State) (n k : Fin 4) (r : FieldRead) : State :=
  (((s.fieldJudged n k r).fieldElsewhere n (s.get (OPU_LAYER_CUR n)) (s.puOf n) (s.fieldPlace n r)).fieldRevolved n k r
    (s.get (OPU_SF_CFG_WIN n)) (k.val == 0 && s.puState n == puTracking)).fieldFar n k
    (s.get (OPU_WI_CFG_PES n)) (s.fieldPos n r)

theorem execServoField_eq (n k : Fin 4) (r : FieldRead) (s : State) :
    execServoField n k r s = .next ((s.clockField (4 * n + k) r.gap.toNat).fieldRun n k r) := by
  unfold execServoField
  extract_lets u cur win place q pos valid s1 s2 s3 s4 s5 s6 f tracking s7 s8
  have hpos : pos = u.fieldPos n r := rfl
  have h1 : s1 = u.fieldCounted n pos.isSome := rfl
  have h2 : s2 = s1.fieldShown n k r pos.isSome := rfl
  have h3 : s3 = s2.fieldNoted n k r pos.isSome (u.ce.cycles + r.cycle.toNat) := rfl
  have h4 : s4 = s3.fieldPut n k pos := rfl
  have h5 : s5 = s4.fieldElsewhere n cur q place := rfl
  have h8 : s8 = s5.fieldRevolved n k r win tracking := rfl
  have hjudged : s4 = u.fieldJudged n k r := by rw [h4, h3, h2, h1, hpos]; rfl
  have hrun : u.fieldRun n k r = s8.fieldFar n k (u.get (OPU_WI_CFG_PES n)) pos := by rw [h8, h5, hjudged, hpos]; rfl
  rw [hrun]
  rfl

/-! ### What lies beyond the servo fields -/

/-- From `s` to `t` at most what the servo fields and the sequences of the pickups write has changed. -/
def State.upToServo (s t : State) : Prop :=
  t = { s with regs := t.regs, pu := t.pu, ce := t.ce, ax := t.ax, flt := t.flt, owl := t.owl, chn := t.chn } ∧
    ∀ a, outside [2, 3, 4, 6, 0x11] a → t.reg a = s.reg a

namespace State.upToServo

variable {s t u : State}

theorem trans (h : s.upToServo t) (k : t.upToServo u) : s.upToServo u := by
  obtain ⟨hst, hregs⟩ := h
  obtain ⟨htu, kregs⟩ := k
  refine ⟨?_, fun a ha => (kregs a ha).trans (hregs a ha)⟩
  rw [htu, hst]

theorem of_upToPu (h : s.upToPu t) : s.upToServo t := by
  obtain ⟨hst, hregs⟩ := h
  refine ⟨?_, fun a ⟨hblock, hfault⟩ => hregs a ⟨fun h => hblock ?_, hfault⟩⟩
  · generalize t.regs = regs, t.pu = pu, t.ce = ce, t.ax = ax, t.flt = flt, t.chn = chn at hst
    subst hst
    rfl
  · simp only [List.mem_cons, List.not_mem_nil, or_false] at h ⊢
    omega

theorem of_upToGate (h : s.upToGate t) : s.upToServo t := by
  obtain ⟨hst, hregs⟩ := h
  refine ⟨?_, fun a ⟨hblock, hfault⟩ => hregs a ⟨fun h => hblock ?_, hfault⟩⟩
  · generalize t.regs = regs, t.pu = pu, t.flt = flt, t.owl = owl at hst
    subst hst
    rfl
  · simp only [List.mem_cons, List.not_mem_nil, or_false] at h ⊢
    omega

theorem of_beyondPu (h : t.beyondPu = s.beyondPu) : s.upToServo t := of_upToPu (.of_beyondPu h)

theorem refl (s : State) : s.upToServo s := of_beyondPu rfl

theorem ite {c : Prop} [Decidable c] (ht : s.upToServo t) (hu : s.upToServo u) : s.upToServo (if c then t else u) := by
  split <;> assumption

theorem when (b : Bool) {f : State → State} (h : s.upToServo (f s)) : s.upToServo (s.when b f) := ite h (refl s)

/-- The words and the records of a channel's clock, and its fault. -/
theorem clockField (s : State) {k : Nat} (hk : k < 16) (gap : Nat) : s.upToServo (s.clockField k gap) := by
  have hlock : ∀ (g : ChnSt) b, s.upToServo (State.setFlag { s with chn := g } (CHN_SPOT_STAT_LOCK k) b) := fun g b =>
    ⟨rfl, fun a ha => State.reg_set_apart { s with chn := g } _ fun h => ha.1 (by
      subst h
      simp only [CHN_SPOT_STAT, List.mem_cons]
      omega)⟩
  have hfault : ∀ (t : State), t.upToServo (t.raise (0x020 + k) 1 k) := fun t => by
    obtain ⟨regs, flt, h⟩ := State.upToFaults.raise t (0x020 + k) 1 k
    refine ⟨by rw [h], fun a ha => ?_⟩
    obtain ⟨-, hfault⟩ := ha
    simp only [faultWord, inBlock] at hfault
    exact State.reg_raise_other t (by dsimp only [keySrc]; omega) (by dsimp only [FLT_FB]; omega)
  unfold State.clockField
  exact (hlock _ _).trans (.when _ (hfault _))

theorem wrongLayer (s : State) (n : Fin 4) (layer : Nat) : s.upToServo (s.wrongLayer n layer) := by
  unfold State.wrongLayer
  refine .ite (.ite ?_ ?_) (.ite (.ite ?_ ?_) (.ite ?_ (.refl s)))
  · exact of_beyondPu (State.ramp0_beyondPu _ n)
  · exact of_beyondPu (State.modPu_beyondPu _ _ _)
  · exact of_upToPu ((State.upToPu.puFault s n _ _).trans (.of_beyondPu (State.modPu_beyondPu _ _ _)))
  · refine of_upToPu ((State.upToPu.puFault s n 4 layer).trans (.of_beyondPu ?_))
    exact (State.enterReacq_beyondPu _ n).trans ((State.jumpStat_beyondPu _ n _).trans (State.modPu_beyondPu _ _ _))
  · exact of_upToPu (.reacqFails s n)

theorem indexField (s : State) (n : Fin 4) (field : Nat) : s.upToServo (s.indexField n field) :=
  ite (of_upToPu ((State.upToPu.of_beyondPu (State.modPu_beyondPu s n _)).trans (.puFault _ n _ _)))
    (of_beyondPu (State.modPu_beyondPu s n _))

end State.upToServo

theorem State.ladderTurn_beyondPu (s : State) (n : Nat) : (s.ladderTurn n).beyondPu = s.beyondPu := rfl

theorem State.fieldZero_beyondPu (s : State) (n : Fin 4) : (s.fieldZero n).beyondPu = s.beyondPu := by
  unfold State.fieldZero
  dsimp only
  split <;> simp -implicitDefEqProofs [State.ladderTurn_beyondPu]

theorem State.fieldSpiral_beyondPu (s : State) (n : Nat) : (s.fieldSpiral n).beyondPu = s.beyondPu := by
  unfold State.fieldSpiral
  split_ifs <;> rfl

theorem State.fieldJudged_beyondPu (s : State) (n k : Fin 4) (r : FieldRead) : (s.fieldJudged n k r).beyondPu = s.beyondPu := by
  have hput : ∀ (t : State) (pos : Option Int), (t.fieldPut n k pos).beyondPu = t.beyondPu := fun t pos => by
    cases pos with
    | none => rfl
    | some v =>
      have hset : ∀ (t : State) h l w, (t.set ⟨OPU_SPOT_POS n k, h, l⟩ w).beyondPu = t.beyondPu := fun t h l w =>
        State.setReg_beyondPu t _ (by simp only [OPU_SPOT_POS, List.mem_cons]; omega)
      exact (hset _ _ _ _).trans ((hset _ _ _ _).trans (hset _ _ _ _))
  have hnoted : ∀ (t : State) valid at_, (t.fieldNoted n k r valid at_).beyondPu = t.beyondPu := fun _ _ _ => rfl
  have hshown : ∀ (t : State) valid, (t.fieldShown n k r valid).beyondPu = t.beyondPu := fun t valid => by
    simp -implicitDefEqProofs [State.fieldShown]
  have hcounted : ∀ (t : State) valid, (t.fieldCounted n valid).beyondPu = t.beyondPu := fun t valid => by
    unfold State.fieldCounted
    split <;> simp -implicitDefEqProofs
  exact (hput _ _).trans ((hnoted _ _ _).trans ((hshown _ _).trans (hcounted _ _)))

theorem State.upToServo.fieldRun (s : State) (n k : Fin 4) (r : FieldRead) : s.upToServo (s.fieldRun n k r) := by
  have helse : ∀ (t : State) cur q place, t.upToServo (t.fieldElsewhere n cur q place) := fun t cur q place => by
    cases place with
    | none => exact refl t
    | some e =>
      unfold State.fieldElsewhere
      exact when _ (wrongLayer t n _)
  have hrev : ∀ (t : State) win tracking, t.upToServo (t.fieldRevolved n k r win tracking) := fun t win tracking => by
    unfold State.fieldRevolved
    exact (when _ (indexField t n _)).trans ((when _ (of_beyondPu (State.fieldZero_beyondPu _ n))).trans
      (when _ (of_beyondPu (State.fieldSpiral_beyondPu _ n))))
  have hfar : ∀ (t : State) lim pos, t.upToServo (t.fieldFar n k lim pos) := fun t lim pos => by
    cases pos with
    | none => exact refl t
    | some v =>
      unfold State.fieldFar
      exact ite ((of_beyondPu (State.modPu_beyondPu t n _)).trans (when _ (of_upToGate (.inhibit _ n _)))) (refl t)
  exact (of_beyondPu (s.fieldJudged_beyondPu n k r)).trans ((helse _ _ _ _).trans ((hrev _ _ _).trans (hfar _ _ _)))

/-! ### What a field leaves of the pickup's registers -/

@[simp] theorem State.puGet_inhibit (s : State) {n : Fin 4} (causes : Nat) {a h l : Nat} (ha : a < 0x34000)
    (hs : a ≠ 0x30004) (hw : a ≠ 0x30054) (ht : a ≠ 0x30058) :
    (s.inhibit n causes).get ⟨a + 0x4000 * n, h, l⟩ = s.get ⟨a + 0x4000 * n, h, l⟩ := by
  cases hg : s.flag (OPU_STAT_GATE n) with
  | false =>
    rw [State.inhibit_down hg]
    simp -implicitDefEqProofs [State.inhibited, hs]
  | true =>
    obtain ⟨hregs, -⟩ := State.inhibit_up_opu (causes := causes) hg
    rw [State.get, hregs _ (by dsimp only; omega), ← State.get]
    simp -implicitDefEqProofs [State.gateDropped, State.inhibited, hs, hw, ht]

/-- At rest elsewhere than PARKED the pickup's layer and the positions of its spots stay. -/
@[simp] theorem State.puGet_puRest (s : State) {n : Fin 4} {st : Nat} (hst : st ≠ puParked) {a h l : Nat} (ha : 0x30000 ≤ a)
    (ha' : a < 0x34000) (hs : a ≠ 0x30004) (hr : a ≠ 0x30068) :
    (s.puRest n st).get ⟨a + 0x4000 * n, h, l⟩ = s.get ⟨a + 0x4000 * n, h, l⟩ := by
  simp -implicitDefEqProofs [State.puRest, hst, ha, ha', hs, hr]

/-- The words of the servo fields: the positions of the spots and the counts of fields. -/
abbrev fieldWord (a : Nat) : Prop := 0x30034 ≤ a ∧ a ≤ 0x30044

theorem State.puGet_puFail (s : State) {n : Fin 4} {a h l : Nat} (ha : fieldWord a) :
    (s.puFail n).get ⟨a + 0x4000 * n, h, l⟩ = s.get ⟨a + 0x4000 * n, h, l⟩ := by
  rw [State.puFail, State.puGet_puRest _ (by decide) (by omega) (by omega) (by omega) (by omega),
    State.puGet_endOp _ _ (by omega) (by omega)]

theorem State.puGet_ramp0 (s : State) {n : Fin 4} {a h l : Nat} (ha : fieldWord a) :
    (s.ramp0 n).get ⟨a + 0x4000 * n, h, l⟩ = s.get ⟨a + 0x4000 * n, h, l⟩ := by
  rw [State.ramp0, State.modPu_get, State.puGet_clearOut _ _ (by omega)]

theorem State.puGet_reacqFails (s : State) {n : Fin 4} {a h l : Nat} (ha : fieldWord a) :
    (s.reacqFails n).get ⟨a + 0x4000 * n, h, l⟩ = s.get ⟨a + 0x4000 * n, h, l⟩ := by
  unfold State.reacqFails
  dsimp only
  split_ifs
  · rw [State.puGet_ramp0 _ ha, State.modPu_get]
  · rw [State.puGet_puFail _ ha, State.puGet_puFault _ _ _ (by omega)]
  · rw [State.puGet_ramp0 _ ha, State.modPu_get]
  · rw [State.puGet_ramp0 _ ha, State.modPu_get, State.puGet_enableOut _ _ (by omega),
      State.puGet_setSa _ _ (by omega) (by omega), State.puGet_set _ _ (by decide) (by decide) (by omega)]

theorem State.puGet_wrongLayer (s : State) {n : Fin 4} (layer : Nat) {a h l : Nat} (ha : fieldWord a) :
    (s.wrongLayer n layer).get ⟨a + 0x4000 * n, h, l⟩ = s.get ⟨a + 0x4000 * n, h, l⟩ := by
  have hstat : ∀ (t : State) o, (t.jumpStat n o).get ⟨a + 0x4000 * n, h, l⟩ = t.get ⟨a + 0x4000 * n, h, l⟩ := fun t o => by
    rw [State.jumpStat, State.puGet_set _ _ (by decide) (by decide) (by omega),
      State.puGet_set _ _ (by decide) (by decide) (by omega)]
  unfold State.wrongLayer
  dsimp only
  split_ifs
  · rw [State.puGet_ramp0 _ ha, State.modPu_get]
  · rw [State.modPu_get]
  · rw [State.modPu_get, State.puGet_puFault _ _ _ (by omega)]
  · rw [State.puGet_enterReacq _ (by omega) (by omega) (by omega) (by omega) (by omega) (by omega), hstat, State.modPu_get,
      State.puGet_puFault _ _ _ (by omega)]
  · rw [State.puGet_reacqFails _ ha]
  · rfl

@[simp] theorem State.ladderTurn_get (s : State) (n : Nat) (x : Fld) : (s.ladderTurn n).get x = s.get x := rfl

@[simp] theorem State.puGet_indexField (s : State) {n : Fin 4} (field : Nat) {a h l : Nat} (ha : a < 0x34000) :
    (s.indexField n field).get ⟨a + 0x4000 * n, h, l⟩ = s.get ⟨a + 0x4000 * n, h, l⟩ := by
  unfold State.indexField
  extract_lets ofs
  split
  · rw [State.puGet_puFault _ _ _ ha, State.modPu_get]
  · rw [State.modPu_get]

@[simp] theorem State.fieldSpiral_get (s : State) (n : Nat) (x : Fld) : (s.fieldSpiral n).get x = s.get x := by
  unfold State.fieldSpiral
  split_ifs <;> rfl

/-- Field 0 writes SPIRAL, WRITE_MODE, the result of an ordered mode and the lasers. -/
@[simp] theorem State.puGet_fieldZero (s : State) {n : Fin 4} {a h l : Nat} (ha : a < 0x34000) (hs : a ≠ 0x30004 ∨ h < 11 ∨ 11 < l)
    (hc : a ≠ 0x3000C) (hr : a ≠ 0x30068) (ht : a ≠ 0x30070) :
    (s.fieldZero n).get ⟨a + 0x4000 * n, h, l⟩ = s.get ⟨a + 0x4000 * n, h, l⟩ := by
  unfold State.fieldZero
  dsimp only
  split <;> simp -implicitDefEqProofs [State.setFlag, ha, hs, hc, hr, ht]

@[simp] theorem State.puGet_fieldRevolved (s : State) {n : Fin 4} (k : Nat) (r : FieldRead) (win : Nat) (tracking : Bool)
    {a h l : Nat} (ha : a < 0x34000) (hs : a ≠ 0x30004 ∨ h < 11 ∨ 11 < l) (hc : a ≠ 0x3000C) (hr : a ≠ 0x30068)
    (ht : a ≠ 0x30070) :
    (s.fieldRevolved n k r win tracking).get ⟨a + 0x4000 * n, h, l⟩ = s.get ⟨a + 0x4000 * n, h, l⟩ := by
  simp -implicitDefEqProofs [State.fieldRevolved, ha, hs, hc, hr, ht]

theorem State.puGet_fieldFar (s : State) {n : Fin 4} (k lim : Nat) (pos : Option Int) {a h l : Nat} (ha : fieldWord a) :
    (s.fieldFar n k lim pos).get ⟨a + 0x4000 * n, h, l⟩ = s.get ⟨a + 0x4000 * n, h, l⟩ := by
  cases pos with
  | none => rfl
  | some v =>
    unfold State.fieldFar
    dsimp only
    split
    · rw [State.when_get, State.puGet_inhibit _ _ (by omega) (by omega) (by omega) (by omega), ite_self, State.modPu_get]
    · rfl

/-- After it is judged a field leaves the words of the servo fields. -/
theorem State.puGet_fieldRun (s : State) {n : Fin 4} (k : Fin 4) (r : FieldRead) {a h l : Nat} (ha : fieldWord a) :
    (s.fieldRun n k r).get ⟨a + 0x4000 * n, h, l⟩ = (s.fieldJudged n k r).get ⟨a + 0x4000 * n, h, l⟩ := by
  have helse : ∀ (t : State) cur q place,
      (t.fieldElsewhere n cur q place).get ⟨a + 0x4000 * n, h, l⟩ = t.get ⟨a + 0x4000 * n, h, l⟩ := fun t cur q place => by
    cases place with
    | none => rfl
    | some e => rw [State.fieldElsewhere, State.when_get, State.puGet_wrongLayer _ _ ha, ite_self]
  rw [State.fieldRun, State.puGet_fieldFar _ _ _ _ ha,
    State.puGet_fieldRevolved _ _ _ _ _ (by omega) (by omega) (by omega) (by omega) (by omega), helse]

/-! ### A field judged -/

theorem State.puGet_clockField (s : State) {n : Fin 4} (k gap : Nat) {a h l : Nat} (ha : a < 0x34000) :
    (s.clockField k gap).get ⟨a + 0x4000 * n, h, l⟩ = s.get ⟨a + 0x4000 * n, h, l⟩ := by
  have hfault : ∀ t : State, (t.raise (0x020 + k) 1 k).get ⟨a + 0x4000 * n, h, l⟩ = t.get ⟨a + 0x4000 * n, h, l⟩ := fun t =>
    State.get_raise_below t (by dsimp only; omega)
  unfold State.clockField
  dsimp only
  rw [State.when_get, hfault, ite_self, State.setFlag, State.get_set_apart _ _ (by decide) (by decide)
    (.inl (by dsimp only [CHN_SPOT_STAT]; omega))]
  rfl

theorem fieldPlace_clockField (s : State) (n : Fin 4) (k gap : Nat) (r : FieldRead) :
    (s.clockField k gap).fieldPlace n r = s.fieldPlace n r := by
  unfold State.fieldPlace
  rw [State.puGet_clockField s k gap (by decide), State.puGet_clockField s k gap (by decide)]

theorem fieldPos_clockField (s : State) (n : Fin 4) (k gap : Nat) (r : FieldRead) :
    (s.clockField k gap).fieldPos n r = s.fieldPos n r := by
  unfold State.fieldPos
  rw [fieldPlace_clockField, State.puGet_clockField s k gap (by decide)]

/-- The counts of a field: one of the two rises. -/
theorem State.fieldJudged_counts (s : State) (n k : Fin 4) (r : FieldRead) :
    (s.fieldPos n r = none →
        (s.fieldJudged n k r).get (OPU_SF_CNT_INVALID n) =
            min (OPU_SF_CNT_INVALID n).top (s.get (OPU_SF_CNT_INVALID n) + 1) ∧
          (s.fieldJudged n k r).get (OPU_SF_CNT_VALID n) = s.get (OPU_SF_CNT_VALID n)) ∧
      ∀ v, s.fieldPos n r = some v →
        (s.fieldJudged n k r).get (OPU_SF_CNT_VALID n) =
            (s.get (OPU_SF_CNT_VALID n) + 1) % ((OPU_SF_CNT_VALID n).top + 1) ∧
          (s.fieldJudged n k r).get (OPU_SF_CNT_INVALID n) = s.get (OPU_SF_CNT_INVALID n) := by
  have hput : ∀ (t : State) (pos : Option Int) {h l : Nat},
      (t.fieldPut n k pos).get ⟨OPU_SF_CNT n, h, l⟩ = t.get ⟨OPU_SF_CNT n, h, l⟩ := fun t pos h l => by
    have hne : OPU_SF_CNT n ≠ OPU_SPOT_POS n k := by dsimp only [OPU_SF_CNT, OPU_SPOT_POS]; omega
    cases pos with
    | none => rfl
    | some v => simp only [State.fieldPut, State.get, State.reg_set_apart _ _ hne]
  have hjudged : ∀ {h l : Nat}, (s.fieldJudged n k r).get ⟨OPU_SF_CNT n, h, l⟩ =
      (s.fieldCounted n (s.fieldPos n r).isSome).get ⟨OPU_SF_CNT n, h, l⟩ := fun {h l} => by
    rw [State.fieldJudged, hput, State.fieldNoted, State.modPu_get, State.fieldShown]
    simp -implicitDefEqProofs [State.setFlag]
  rw [hjudged, hjudged]
  refine ⟨fun hpos => ?_, fun v hpos => ?_⟩
  · simp -implicitDefEqProofs [hpos, State.fieldCounted, State.get_addSat_here, Fld.top]
  · simp -implicitDefEqProofs [hpos, State.fieldCounted, State.incWrap, State.get_set_here, Fld.top]

/-- A valid field puts its spot's position. -/
theorem State.fieldJudged_position {s : State} {n : Fin 4} (k : Fin 4) {r : FieldRead} {v : Int} (hpos : s.fieldPos n r = some v) :
    (s.fieldJudged n k r).get (OPU_SPOT_POS_VALID n k) = 1 ∧
      (s.fieldJudged n k r).get (OPU_SPOT_POS_FINE n k) = unsignedOf 26 v % 256 := by
  rw [State.fieldJudged, hpos]
  dsimp only [State.fieldPut]
  refine ⟨?_, ?_⟩
  · rw [State.get_set_apart _ _ (by decide) (by decide) (by omega), State.get_set_apart _ _ (by decide) (by decide) (by omega),
      State.get_set_here _ _ (by decide) (by decide)]
    rfl
  · rw [State.get_set_here _ _ (by decide) (by decide)]
    exact Nat.mod_mod _ _

/-- A field placed nowhere leaves the pickup's state. -/
theorem State.puState_fieldRun {s : State} {n : Fin 4} (k : Fin 4) {r : FieldRead} (hp : s.fieldPlace n r = none) :
    (s.fieldRun n k r).puState n = s.puState n := by
  have hpos : s.fieldPos n r = none := by rw [State.fieldPos, hp]
  have hjudged : (s.fieldJudged n k r).puState n = s.puState n := by
    rw [State.fieldJudged, hpos]
    simp -implicitDefEqProofs [State.puState, State.fieldPut, State.fieldNoted, State.fieldShown, State.fieldCounted,
      State.setFlag]
  rw [State.fieldRun, hpos, hp]
  refine Eq.trans ?_ hjudged
  simp -implicitDefEqProofs [State.puState, State.fieldFar, State.fieldElsewhere]

/-! ### Re-acquisitions -/

theorem reacqDone_spec {s : State} {n : Fin 4} (hturn : (s.puOf n).turn < 2 ^ 18) :
    (s.reacqDone n).puState n = puTracking ∧ (s.reacqDone n).flag (OPU_STAT_ON_LAYER n) = true ∧
      (s.reacqDone n).get (OPU_SPIRAL_TURN n) = (s.puOf n).turn := by
  refine ⟨?_, ?_, ?_⟩
  · simp -implicitDefEqProofs [State.puState, State.reacqDone, State.get_set_here, puTracking]
  · simp -implicitDefEqProofs [State.flag, State.reacqDone, State.get_set_here]
  · simpa -implicitDefEqProofs [State.reacqDone, State.get_set_here] using hturn

theorem State.reacqDone_beyondPu (s : State) (n : Fin 4) : (s.reacqDone n).beyondPu = s.beyondPu := by
  simp -implicitDefEqProofs [State.reacqDone]

/-- A lost track: the fault is counted and the pickup enters REACQ with its turn kept (R125, R152). -/
theorem lost_spec (s : State) (n : Fin 4) (arg : Nat) :
    ((s.puFault n 7 arg).enterReacq n).puState n = puReacq ∧
      ((s.puFault n 7 arg).enterReacq n).get (OPU_DEF_STAT_REACQ n) =
        min (OPU_DEF_STAT_REACQ n).top (s.get (OPU_DEF_STAT_REACQ n) + 1) ∧
      (((s.puFault n 7 arg).enterReacq n).puOf n).turn = s.get (OPU_SPIRAL_TURN n) ∧
      (((s.puFault n 7 arg).enterReacq n).reg (keySrc (0x010 + n) 0)).toNat =
        min 0xFFFFFFFF ((s.reg (keySrc (0x010 + n) 0)).toNat + 1) := by
  obtain ⟨hst, hcount, hturn⟩ := (s.puFault n 7 arg).enterReacq_spec n
  refine ⟨hst, hcount.trans ?_, hturn.trans ?_, count_puFault (State.enterReacq_beyondPu _ n) (by decide)⟩
  · rw [State.puGet_puFault s 7 arg (by decide)]
  · rw [State.puGet_puFault s 7 arg (by decide)]

/-- Settles O16: a servo field runs by its stages (`execServoField_eq`); its judgement counts and places it
(`State.fieldJudged_counts`, `State.fieldJudged_position`), and the later stages leave those words (`State.puGet_fieldRun`). A track
that is lost is `lost_spec`, one that is found again `reacqDone_spec`. -/
theorem servoFieldsAndDefects : Obligations.ServoFieldsAndDefects := by
  refine ⟨?invalid, ?nowhere, ?valid, ?loss, ?noSpot, ?dropout, ?dropoutEnd, ?expiry, ?recovered, ?lens, ?frame⟩
  case invalid =>
    intro n k r s hp
    have hget : ∀ {h l : Nat}, (s.clockField (4 * n + k) r.gap.toNat).get ⟨OPU_SF_CNT n, h, l⟩ = s.get ⟨OPU_SF_CNT n, h, l⟩ :=
      State.puGet_clockField s _ _ (by decide)
    have hpos : (s.clockField (4 * n + k) r.gap.toNat).fieldPos n r = none := by
      rw [fieldPos_clockField, State.fieldPos]
      cases he : s.fieldPlace n r with
      | none => rfl
      | some e => exact if_neg fun h => hp (by rw [he, ← h]; rfl)
    obtain ⟨hinvalid, hvalid⟩ := (State.fieldJudged_counts _ n k r).1 hpos
    refine ⟨_, execServoField_eq n k r s, ?_, ?_⟩
    · rw [State.puGet_fieldRun _ k r (by decide), hinvalid, hget]
    · rw [State.puGet_fieldRun _ k r (by decide), hvalid, hget]
  case nowhere =>
    intro n k r s hp
    refine ⟨_, execServoField_eq n k r s, ?_⟩
    rw [State.puState_fieldRun k ((fieldPlace_clockField s n _ _ r).trans hp)]
    exact State.puGet_clockField s _ _ (by decide)
  case valid =>
    intro n k r v s hp
    have hget : ∀ {h l : Nat}, (s.clockField (4 * n + k) r.gap.toNat).get ⟨OPU_SF_CNT n, h, l⟩ = s.get ⟨OPU_SF_CNT n, h, l⟩ :=
      State.puGet_clockField s _ _ (by decide)
    have hpos : (s.clockField (4 * n + k) r.gap.toNat).fieldPos n r = some v := by
      rw [fieldPos_clockField, State.fieldPos, hp]
      exact if_pos rfl
    obtain ⟨hvalid, hinvalid⟩ := (State.fieldJudged_counts _ n k r).2 v hpos
    obtain ⟨hput, hfine⟩ := State.fieldJudged_position k hpos
    have hspot : ∀ (t : State) {h l : Nat},
        (t.fieldRun n k r).get ⟨OPU_SPOT_POS n k, h, l⟩ = (t.fieldJudged n k r).get ⟨OPU_SPOT_POS n k, h, l⟩ := fun t h l => by
      have haddr : OPU_SPOT_POS n k = (0x30034 + 4 * k) + 0x4000 * n := by dsimp only [OPU_SPOT_POS]; omega
      rw [haddr, State.puGet_fieldRun t k r (by omega)]
    refine ⟨_, execServoField_eq n k r s, ?_, ?_, ?_, ?_⟩
    · rw [State.puGet_fieldRun _ k r (by decide), hvalid, hget]
    · rw [State.puGet_fieldRun _ k r (by decide), hinvalid, hget]
    · rw [State.flag, hspot, hput]
      rfl
    · rw [hspot, hfine]
  case loss =>
    intro n s hst hall
    exact ⟨_, if_pos (.inl ⟨hst, hall⟩), lost_spec s n _⟩
  case noSpot =>
    intro n s hst hnone
    obtain ⟨hreacq, -, hturn, hcount⟩ := lost_spec s n (s.get (OPU_TRK_CFG_SPOT_MASK n))
    exact ⟨_, if_pos (.inr ⟨hst, hnone⟩), hreacq, hturn, hcount⟩
  case dropout =>
    intro n env s hd henv
    refine ⟨_, if_pos ⟨hd, henv⟩, ?_, ?_, ?_, fun a ha => State.reg_addSat_other _ _ ha⟩
    · simp -implicitDefEqProofs [State.get_addSat_here, Fld.top]
    · simp -implicitDefEqProofs
    · simp -implicitDefEqProofs
  case dropoutEnd =>
    intro n env s henv
    refine ⟨_, if_pos henv, ?_, rfl⟩
    rw [State.modPu_puOf]
  case expiry =>
    intro n s hst hd hhold
    obtain ⟨hreacq, -, hturn⟩ := s.enterReacq_spec n
    exact ⟨_, if_pos ⟨hst, hd, hhold⟩, hreacq, hturn⟩
  case recovered =>
    intro n s hst hc hconf hlt hp hturn hok
    have hend := seekEnd_settled (fun t => t.reacqDone n) hp hturn hok
    exact ⟨_, congrArg Host.Outcome.next ((if_pos ⟨hst, hc, hconf⟩).trans hend), reacqDone_spec hlt⟩
  case lens =>
    intro n s hrun
    exact ⟨_, if_pos hrun, State.count_raise s _ (by decide)⟩
  case frame =>
    intro n k r env s t h
    have hstep : s.upToServo t := by
      rcases h with h | h | h | h | h | h | h
      · obtain rfl := Host.Outcome.next.inj ((execServoField_eq n k r s).symm.trans h)
        exact (State.upToServo.clockField s (by omega) _).trans (.fieldRun _ n k r)
      · exact eq_of_row h ▸ .ite (.of_upToPu ((State.upToPu.puFault s n _ _).trans
          (.of_beyondPu (State.enterReacq_beyondPu _ n)))) (.refl s)
      · exact eq_of_row h ▸ .ite (.of_beyondPu (by simp -implicitDefEqProofs)) (.refl s)
      · exact eq_of_row h ▸ .ite (.of_beyondPu (State.modPu_beyondPu s n _)) (.refl s)
      · exact eq_of_row h ▸ .ite (.of_beyondPu (State.enterReacq_beyondPu s n)) (.refl s)
      · obtain rfl := Host.Outcome.next.inj h
        exact .ite (.of_upToPu (.seekEnd (.of_beyondPu (s.reacqDone_beyondPu n)))) (.refl s)
      · exact eq_of_row h ▸ .ite (.of_upToPu (.puFault s n _ _)) (.refl s)
    exact hstep

end Sys2Proof.Machine
end

section
/-!
PROOFS of the statements of 04_channel_and_media.md: frames read (O18, refuted by a frame whose attempt is broken).
-/

namespace Sys2Proof.Machine

open Sys2Proof

/-- Engine 0 of spot 0 decodes a frame when an uncorrectable byte of its working memory is met (R461). -/
def struckFrame : State :=
  State.sramLost { State.reset with
    tick := 5000, chn := { frames := (Vector.replicate 32 none).setIfInBounds 0 (some { frame := 300000 }) } } 7 0

/-- The decoder converges in its first iteration. -/
def convergedAtOnce : LdpcResult := { ok := true, iter := 1 }

/-- The state after LDPC_ATTEMPT_DONE. -/
def struckFrameEnd : State := outState (execLdpcAttemptDone 0 0 convergedAtOnce struckFrame) struckFrame

/-- The attempt under way is broken. The state meets the invariant that every step keeps (O60). -/
theorem struckFrame_broken :
    struckFrame.Inv ∧ (struckFrame.chn.frames[0]?).getD none = some { frame := 300000, broken := true } ∧
      (struckFrame.chn.queued[0]?).getD [] = [] ∧ struckFrame.get (CHN_LDPC_CFG_ITER_MAX 0) = 20 ∧
      struckFrame.get (CHN_FRM_CNT_0_OK 0) = 0 := by decide +kernel

/-- The frame counts FAILED, and OK stays as it was. -/
theorem struckFrameEnd_counts :
    struckFrameEnd.get (CHN_FRM_CNT_0_OK 0) = 0 ∧ struckFrameEnd.get (CHN_FRM_CNT_1_FAILED 0) = 1 := by decide +kernel

/-- Refutes O18, in its clause on an attempt that converges: an attempt in which an uncorrectable byte of the working memory was met
fails whatever its decoder reports (R461, `FrameSt.broken`), and the clause does not leave it out. Its frame counts FAILED. -/
theorem not_framesAndBlocksAreRead : ¬ Obligations.FramesAndBlocksAreRead := by
  intro ⟨_, _, _, _, _, _, _, hconverges, _⟩
  obtain ⟨-, hframe, hqueue, hmax, hbefore⟩ := struckFrame_broken
  obtain ⟨hafter, -⟩ := struckFrameEnd_counts
  obtain ⟨t, hrow, hcount, -⟩ := hconverges 0 0 convergedAtOnce { frame := 300000, broken := true } struckFrame hframe rfl
    (hmax.symm ▸ by decide) (by decide) rfl (by decide) hqueue
  have ht : struckFrameEnd = t := congrArg (outState · struckFrame) hrow
  rw [← ht, Fin.val_zero, hafter, hbefore] at hcount
  exact absurd hcount (by decide)

end Sys2Proof.Machine
end

section
/-!
PROOFS of the statements of 04_channel_and_media.md, continued: extents written (O19, refuted by a calibration of a layer that no disc has).
-/

namespace Sys2Proof.Machine

open Sys2Proof

/-- Disc 3 is clamped in station 0, and write channel 0 runs OPC for layer 1,016; a disc side has 24. -/
def strayOpc : State :=
  { ((State.reset.set MAG_STAT_CLAMP_0 1).set MAG_STN_SRC_VALID_0 1).set MAG_STN_SRC_SLOT_0 3 with
    chn := { opc := (Vector.replicate 4 none).setIfInBounds 0 (some 1016) } }

/-- Bit errors of the eleven steps of a run: the sixth has the fewest. -/
def stepErrors : List (BitVec 16) := [900, 800, 700, 600, 500, 12, 500, 600, 700, 800, 900]

/-- A layer control frame of which every byte is 1. -/
def controlOnes : List Byte := List.replicate 64 1

/-- The state after OPC_DONE. -/
def strayOpcEnd : State := outState (execOpcDone 0 stepErrors true controlOnes strayOpc) strayOpc

/-- The run succeeds, and the control frame's strategy lands in the spindle's control word. The state before it meets the invariant
that every step keeps (O60): that invariant does not bound the layer of a run. -/
theorem strayOpc_writes :
    strayOpc.Inv ∧ strayOpcEnd.get (CHN_OPC_STAT_RES 0) = 1 ∧ strayOpc.reg (SPN_CTL 0) = 1 ∧
      strayOpcEnd.reg (SPN_CTL 0) = 0x01010101 := by decide +kernel

theorem execOpcDone_goes (n : Fin 4) (errors : List (BitVec 16)) (area : Bool) (control : List Byte) (s : State) :
    ∃ t, execOpcDone n errors area control s = .next t := by
  unfold execOpcDone
  split
  · dsimp only
    split
    · exact ⟨_, rfl⟩
    · split <;> exact ⟨_, rfl⟩
  · exact ⟨_, rfl⟩

/-- Refutes O19, in its last clause: OPC_DONE writes the strategy of the layer whose run has ended at that layer's place in
CHN_WS, and for layer 1,016 that place lies beyond the channel's registers, in the spindle's block. The runs that
EXTENT_WRITE_START begins are for the layer a pickup is on (R205), but the clause is about every state and, unlike the clauses on
what OPC_DONE writes, does not ask for a layer below 24. -/
theorem not_extentsAreWrittenAndCommitted : ¬ Obligations.ExtentsAreWrittenAndCommitted := by
  intro ⟨_, _, _, _, _, _, _, _, _, _, _, _, _, _, _, hframe⟩
  obtain ⟨-, -, hbefore, hafter⟩ := strayOpc_writes
  obtain ⟨t, hrow⟩ := execOpcDone_goes 0 stepErrors true controlOnes strayOpc
  have ht : strayOpcEnd = t := congrArg (outState · strayOpc) hrow
  obtain ⟨-, hregs⟩ := hframe .service 0 stepErrors true controlOnes strayOpc t (.inl hrow)
  have hword := hregs (SPN_CTL 0) (by decide)
  rw [← ht, hafter, hbefore] at hword
  exact absurd hword (by decide)

end Sys2Proof.Machine
end

section
/-!
PROOFS of the statements of 04_channel_and_media.md, continued: write fronts, index frames and relocations (O20).
-/

namespace Sys2Proof.Machine

open Sys2Proof

/-! ### Layers -/

theorem State.layerOf_eq {s t : State} (h : t.plc.layers = s.plc.layers) (slot side layer : Nat) :
    t.layerOf slot side layer = s.layerOf slot side layer := by
  rw [State.layerOf, State.layerOf, h]

@[simp] theorem State.layerOf_set (s : State) (f : Fld) (v slot side layer : Nat) :
    (s.set f v).layerOf slot side layer = s.layerOf slot side layer := State.layerOf_eq (congrArg _ (s.set_plc f v)) _ _ _

@[simp] theorem State.layerOf_showFree (s : State) (k slot side layer : Nat) :
    (s.showFree k).layerOf slot side layer = s.layerOf slot side layer := State.layerOf_set _ _ _ _ _ _

/-- What the device knows of a layer carries the layer's own slot, side and number. -/
theorem State.layerOf_key (s : State) (slot side layer : Nat) :
    (s.layerOf slot side layer).slot = slot ∧ (s.layerOf slot side layer).side = side ∧
      (s.layerOf slot side layer).layer = layer := by
  unfold State.layerOf
  cases h : s.plc.layers.find? fun l => l.slot == slot && l.side == side && l.layer == layer with
  | none => exact ⟨rfl, rfl, rfl⟩
  | some l => simpa [and_assoc] using List.find?_some h

/-- A change of a layer's record leaves its slot, side and number. -/
abbrev keepsKey (f : LayerSt → LayerSt) : Prop := ∀ y, (f y).slot = y.slot ∧ (f y).side = y.side ∧ (f y).layer = y.layer

theorem State.layerOf_modLayer (s : State) {slot side layer : Nat} {f : LayerSt → LayerSt} (hf : keepsKey f) :
    (s.modLayer slot side layer f).layerOf slot side layer = f (s.layerOf slot side layer) := by
  obtain ⟨hslot, hside, hlayer⟩ := s.layerOf_key slot side layer
  obtain ⟨kslot, kside, klayer⟩ := hf (s.layerOf slot side layer)
  have hold : (s.plc.layers.filter fun l => !(l.slot == slot && l.side == side && l.layer == layer)).find?
      (fun l => l.slot == slot && l.side == side && l.layer == layer) = none := by
    refine List.find?_eq_none.mpr fun l hl hkey => ?_
    simp only [List.mem_filter, hkey, Bool.not_true, Bool.false_eq_true, and_false] at hl
  unfold State.layerOf State.modLayer State.modPlc
  dsimp only
  rw [List.find?_append, hold, Option.none_or, List.find?_cons_of_pos]
  · rfl
  · simp only [kslot, kside, klayer, hslot, hside, hlayer, beq_self_eq_true, Bool.and_self]

theorem State.layerOf_pendRecord (s : State) (slot side layer : Nat) (r : IdxRec) :
    (s.pendRecord slot side layer r).layerOf slot side layer =
      { s.layerOf slot side layer with
        pending := (s.layerOf slot side layer).pending ++ [{ r with at_ := s.tick }],
        due := (s.layerOf slot side layer).due || decide (31 ≤ (s.layerOf slot side layer).pending.length + 1) } :=
  s.layerOf_modLayer fun _ => ⟨rfl, rfl, rfl⟩

/-! ### What lies beyond the channel and the map -/

/-- From `s` to `t` at most what the channel and the placement hold has changed: words of CHN and of PLC, the records of both, and
the faults. -/
def State.upToMedia (s t : State) : Prop :=
  t = { s with regs := t.regs, chn := t.chn, plc := t.plc, flt := t.flt } ∧ ∀ a, outside [4, 8] a → t.reg a = s.reg a

namespace State.upToMedia

variable {s t u : State}

theorem refl (s : State) : s.upToMedia s := ⟨rfl, fun _ _ => rfl⟩

theorem trans (h : s.upToMedia t) (k : t.upToMedia u) : s.upToMedia u := by
  obtain ⟨hst, hregs⟩ := h
  obtain ⟨htu, kregs⟩ := k
  refine ⟨?_, fun a ha => (kregs a ha).trans (hregs a ha)⟩
  rw [htu, hst]

theorem set (s : State) {f : Fld} (v : Nat) (hf : f.addr / 0x10000 ∈ [4, 8]) : s.upToMedia (s.set f v) :=
  ⟨rfl, fun _ ha => State.reg_set_other s v fun h => ha.1 (h ▸ hf)⟩

theorem modChn (s : State) (f : ChnSt → ChnSt) : s.upToMedia (s.modChn f) := ⟨rfl, fun _ _ => rfl⟩

theorem modPlc (s : State) (f : PlcSt → PlcSt) : s.upToMedia (s.modPlc f) := ⟨rfl, fun _ _ => rfl⟩

theorem modLayer (s : State) (slot side layer : Nat) (f : LayerSt → LayerSt) : s.upToMedia (s.modLayer slot side layer f) :=
  modPlc s _

theorem raise (s : State) {src : Nat} (kind arg : Nat) (hs : src < 0x1000) : s.upToMedia (s.raise src kind arg) := by
  obtain ⟨regs, flt, h⟩ := State.upToFaults.raise s src kind arg
  refine ⟨by rw [h], fun a ha => ?_⟩
  obtain ⟨-, hfault⟩ := ha
  simp only [faultWord, inBlock] at hfault
  exact State.reg_raise_other s (by dsimp only [keySrc]; omega) (by dsimp only [FLT_FB]; omega)

theorem ite {c : Prop} [Decidable c] (ht : s.upToMedia t) (hu : s.upToMedia u) : s.upToMedia (if c then t else u) := by
  split <;> assumption

theorem foldl {α : Type} {f : State → α → State} (hf : ∀ (t : State) (a : α), t.upToMedia (f t a)) (l : List α) :
    s.upToMedia (l.foldl f s) := by
  induction l generalizing s with
  | nil => exact refl s
  | cons a l ih => exact (hf s a).trans ih

theorem slotCounts (s : State) {k : Nat} (live dead : Int) (hk : k < 32) : s.upToMedia (s.slotCounts k live dead) := by
  have hblock : ∀ w < 0x10, (0x80200 + w + 0x10 * k) / 0x10000 ∈ [4, 8] := fun w hw => by
    simp only [List.mem_cons]
    omega
  exact (set s _ (hblock 8 (by decide))).trans (set _ _ (hblock 0xC (by decide)))

theorem showFree (s : State) {slot : Nat} (hk : slot < 32) : s.upToMedia (s.showFree slot) :=
  set s _ (by simp only [PLC_SLOT_W1, List.mem_cons]; omega)

end State.upToMedia

/-! ### The translation map -/

@[simp] theorem State.slotCounts_plc (s : State) (k : Nat) (live dead : Int) : (s.slotCounts k live dead).plc = s.plc :=
  (State.set_plc _ _ _).trans (State.set_plc _ _ _)

@[simp] theorem State.slotCounts_cmd (s : State) (k : Nat) (live dead : Int) : (s.slotCounts k live dead).cmd = s.cmd :=
  (State.set_cmd _ _ _).trans (State.set_cmd _ _ _)

/-- What holds of a state holds after a change of map entries, where it outlives another map and the counts of the slots of
entries that become live or cease to be. -/
theorem State.mapEnts_induct {P : State → Prop} {s : State} (f : MapEnt → Bool) {g : MapEnt → MapEnt} (hs : P s)
    (hmap : ∀ (t : State) (map : List MapEnt), P t → P { t with plc := { t.plc with map := map } })
    (hcount : ∀ (t : State) (e : MapEnt) (live dead : Int), (g e).live ≠ e.live → P t → P (t.slotCounts e.slot live dead)) :
    P (s.mapEnts f g) := by
  unfold State.mapEnts
  refine List.foldlRecOn _ _ hs fun t ht e _ => ?_
  have hput := hmap t (t.plc.map.map fun x => if x = e then g e else x) ht
  dsimp only
  split
  · split
    · next h => exact hcount _ e _ _ (by rintro h'; simp [h'] at h) hput
    · split
      · next h => exact hcount _ e _ _ (by rintro h'; simp [h'] at h) hput
      · exact hput
  · exact ht

/-- A relocation changes the map alone, or raises MAP_FULL (R324). -/
theorem State.enterMove_cases (s : State) (which : MapEnt → Bool) (b addr : Nat) :
    s.enterMove which b addr = s.plcFault 4 3 ∨
      ∃ map, s.enterMove which b addr = { s with plc := { s.plc with map := map } } := by
  unfold State.enterMove
  split
  · exact .inl rfl
  · refine .inr (State.mapEnts_induct (P := fun t => ∃ map, t = { s with plc := { s.plc with map := map } }) which ⟨_, rfl⟩ ?_ ?_)
    · rintro _ map ⟨_, rfl⟩
      exact ⟨map, rfl⟩
    · exact fun t e live dead hlive => absurd rfl hlive

/-- The records that an index frame carries leave the layers as they are and nothing due among the commands. -/
theorem State.indexed_spec {s : State} (slot side : Nat) (l : List IdxRec) (hs : s.still) :
    (s.indexed slot side l).still ∧ (s.indexed slot side l).plc.layers = s.plc.layers := by
  unfold State.indexed
  refine List.foldlRecOn (motive := fun t : State => t.still ∧ t.plc.layers = s.plc.layers) _ _ ⟨hs, rfl⟩ fun t ht r _ => ?_
  split
  · refine State.mapEnts_induct (P := fun t => t.still ∧ t.plc.layers = s.plc.layers) _ ht (fun _ _ h => h) fun t e _ _ _ h => ?_
    rwa [State.still, State.slotCounts_plc, State.slotCounts_cmd]
  · split
    · obtain ⟨⟨hcmds, hopens, hsearches, htombs, hmig⟩, hlayers⟩ := ht
      refine ⟨⟨hcmds, hopens, hsearches, ?_, hmig⟩, hlayers⟩
      simp only [State.modPlc, htombs, List.map_nil]
    · exact ht

theorem State.upToMedia.enterMove (s : State) (which : MapEnt → Bool) (b addr : Nat) : s.upToMedia (s.enterMove which b addr) := by
  obtain h | ⟨map, h⟩ := s.enterMove_cases which b addr
  · exact h ▸ .raise s 4 3 (by decide)
  · exact h ▸ ⟨rfl, fun _ _ => rfl⟩

theorem State.upToMedia.enterUnit (s : State) {e : MapEnt} (hk : e.slot < 32) : s.upToMedia (s.enterUnit e) := by
  unfold State.enterUnit
  refine .ite (.raise s _ _ (by decide)) (.ite (.raise s _ _ (by decide)) ?_)
  exact ((State.upToMedia.modPlc s _).trans (.slotCounts _ _ _ hk)).trans (.set _ _ (by decide))

/-- An extent that the search of a layer passes changes the map, the layer's record and the slot's counts (R186). -/
theorem State.upToMedia.enterSearched (s : State) {slot : Nat} (side layer : Nat) (x : FoundExt) (hk : slot < 32) :
    s.upToMedia (s.enterSearched slot side layer x) := by
  unfold State.enterSearched
  have hrecord : ∀ r v, s.upToMedia ((s.pendRecord slot side layer r).setExtSeq slot side v) :=
    fun _ _ => (State.upToMedia.modLayer s slot side layer _).trans (.modPlc _ _)
  exact .ite (hrecord _ _) (.ite ((hrecord _ _).trans (.enterUnit _ hk)) ((hrecord _ _).trans (.slotCounts _ _ _ hk)))

/-! ### The rows of a layer -/

/-- A station's disc comes from one of the slots that MAG_STN_SRC can name. -/
theorem discAt_lt {s : State} {n slot : Nat} (h : s.discAt n = some slot) : slot < 32 := by
  unfold State.discAt State.view State.srcOf at h
  dsimp only at h
  repeat' split at h
  all_goals simp only [Option.some.injEq, reduceCtorEq] at h
  all_goals exact h ▸ s.get_lt _

theorem execWriteFrontSearch_upToMedia {n : Fin 4} {layer : BitVec 5} {reads : List FrameSeen} {s t : State}
    (h : execWriteFrontSearch n layer reads s = .next t) : s.upToMedia t := by
  unfold execWriteFrontSearch at h
  split at h
  · exact Host.Outcome.next.inj h ▸ .refl s
  · next slot hdisc =>
    have hk := discAt_lt hdisc
    dsimp only at h
    split at h
    · exact Host.Outcome.next.inj h ▸ .refl s
    · refine Host.Outcome.next.inj h ▸ State.upToMedia.trans ?_ (.showFree _ hk)
      exact (State.upToMedia.foldl (fun t x => .enterSearched t _ _ x hk) _).trans (.modLayer _ _ _ _ _)

theorem execWriteFrontSearch_located {n : Fin 4} {layer : BitVec 5} (reads : List FrameSeen) {slot : Nat} {s : State}
    (hdisc : s.discAt n = some slot) (hlayer : layer.toNat < 24) (htrack : s.puState n = puTracking)
    (hcur : s.get (OPU_LAYER_CUR n) = layer.toNat) (hfound : (s.layerOf slot (n.val % 2) layer.toNat).found = false) :
    ∃ t, exec (.writeFrontSearch n layer reads) s = .next t ∧ (t.layerOf slot (n.val % 2) layer.toNat).found = true ∧
      (t.layerOf slot (n.val % 2) layer.toNat).front = (searchFront true reads (reads.length + 1) (searchFrom reads) []).1 := by
  have hgo : ¬ (24 ≤ layer.toNat ∨ s.puState n ≠ puTracking ∨ s.get (OPU_LAYER_CUR n) ≠ layer.toNat ∨
      (s.layerOf slot (n.val % 2) layer.toNat).found = true) := by
    simp [hlayer, htrack, hcur, hfound]
  show ∃ t, execWriteFrontSearch n layer reads s = .next t ∧ _
  simp only [execWriteFrontSearch, hdisc, if_neg hgo]
  refine ⟨_, rfl, ?_⟩
  rw [State.layerOf_showFree, State.layerOf_modLayer]
  · exact ⟨rfl, rfl⟩
  · exact fun _ => ⟨rfl, rfl, rfl⟩

/-! ### Index frames (R184, R185) -/

/-- A layer's record once its next index frame is written, in the area or at the top of the spare area; one that verified takes 31
records along. -/
def LayerSt.frameWritten (l : LayerSt) (side layer : Nat) (ok : Bool) (y : LayerSt) : LayerSt :=
  let z := { y with idxUsed := y.idxUsed + 1, idxFull := decide (147072 ≤ l.idxUsed), spareLow := l.idxAt.2 }
  if ok then
    { z with
      idxSeq := y.idxSeq + 1, idxPrev := some (frameAddr side layer l.idxAt.1), pending := l.pending.drop 31
      due := decide (31 ≤ (l.pending.drop 31).length) }
  else z

theorem LayerSt.frameWritten_keepsKey (l : LayerSt) (side layer : Nat) (ok : Bool) : keepsKey (l.frameWritten side layer ok) := by
  intro y
  cases ok <;> exact ⟨rfl, rfl, rfl⟩

/-- The first frame in a full area is reported. -/
def State.areaNoted (s : State) (n side layer : Nat) (l : LayerSt) : State :=
  if decide (147072 ≤ l.idxUsed) && !l.idxFull then s.chnFault (n / 2) 6 (32 * side + layer) else s

theorem State.areaNoted_plc (s : State) (n side layer : Nat) (l : LayerSt) : (s.areaNoted n side layer l).plc = s.plc := by
  unfold State.areaNoted
  split
  · exact State.raise_plc s _ _ _
  · rfl

theorem State.areaNoted_cmd (s : State) (n side layer : Nat) (l : LayerSt) : (s.areaNoted n side layer l).cmd = s.cmd := by
  unfold State.areaNoted
  split
  · exact State.raise_cmd s _ _ _
  · rfl

/-- The next index frame of a layer is written. -/
def State.frameTried (s : State) (n slot side layer : Nat) (ok : Bool) : State :=
  (s.areaNoted n side layer (s.layerOf slot side layer)).modLayer slot side layer
    ((s.layerOf slot side layer).frameWritten side layer ok)

theorem State.layerOf_frameTried (s : State) (n slot side layer : Nat) (ok : Bool) :
    (s.frameTried n slot side layer ok).layerOf slot side layer =
      (s.layerOf slot side layer).frameWritten side layer ok (s.layerOf slot side layer) := by
  rw [State.frameTried, State.layerOf_modLayer _ (LayerSt.frameWritten_keepsKey _ side layer ok),
    State.layerOf_eq (congrArg _ (s.areaNoted_plc n side layer _))]

theorem State.still_frameTried {s : State} (hs : s.still) (n slot side layer : Nat) (ok : Bool) :
    (s.frameTried n slot side layer ok).still := by
  rw [State.frameTried, State.modLayer, State.modPlc, State.still, s.areaNoted_plc, s.areaNoted_cmd]
  exact hs

theorem execIndexFrameWrite_due {n : Fin 4} {layer : BitVec 5} (r : FrameCheck) {slot : Nat} {s : State}
    (hdisc : s.discAt n = some slot) (hlayer : layer.toNat < 24)
    (hpending : (s.layerOf slot (n.val % 2) layer.toNat).pending ≠ [])
    (hdue : (s.layerOf slot (n.val % 2) layer.toNat).due = true) :
    execIndexFrameWrite n layer r s =
      let t := s.frameTried n slot (n.val % 2) layer.toNat (s.checkFrame n r)
      .next (if s.checkFrame n r then
        (t.indexed slot (n.val % 2) ((s.layerOf slot (n.val % 2) layer.toNat).pending.take 31)).settle else t) := by
  have hgo : ¬ ((s.layerOf slot (n.val % 2) layer.toNat).pending.isEmpty ∨ 24 ≤ layer.toNat ∨
      (s.layerOf slot (n.val % 2) layer.toNat).due = false) := by
    simp [hpending, hlayer, hdue]
  simp only [execIndexFrameWrite, hdisc, if_neg hgo]
  rfl

theorem execIndexFrameWrite_verified {n : Fin 4} {layer : BitVec 5} {r : FrameCheck} {slot : Nat} {s : State} (hs : s.still)
    (hdisc : s.discAt n = some slot) (hlayer : layer.toNat < 24)
    (hpending : (s.layerOf slot (n.val % 2) layer.toNat).pending ≠ [])
    (hdue : (s.layerOf slot (n.val % 2) layer.toNat).due = true) (hok : s.checkFrame n r = true) :
    ∃ t, execIndexFrameWrite n layer r s = .next t ∧ t.layerOf slot (n.val % 2) layer.toNat =
      (s.layerOf slot (n.val % 2) layer.toNat).frameWritten (n.val % 2) layer.toNat true
        (s.layerOf slot (n.val % 2) layer.toNat) := by
  have hrow := execIndexFrameWrite_due r hdisc hlayer hpending hdue
  simp only [hok, if_true] at hrow
  obtain ⟨hstill, hlayers⟩ := State.indexed_spec slot (n.val % 2) ((s.layerOf slot (n.val % 2) layer.toNat).pending.take 31)
    (State.still_frameTried hs n slot (n.val % 2) layer.toNat true)
  rw [settle_of_still hstill] at hrow
  exact ⟨_, hrow, (State.layerOf_eq hlayers _ _ _).trans (s.layerOf_frameTried _ _ _ _ _)⟩

theorem execIndexFrameWrite_failed {n : Fin 4} {layer : BitVec 5} {r : FrameCheck} {slot : Nat} {s : State}
    (hdisc : s.discAt n = some slot) (hlayer : layer.toNat < 24)
    (hpending : (s.layerOf slot (n.val % 2) layer.toNat).pending ≠ [])
    (hdue : (s.layerOf slot (n.val % 2) layer.toNat).due = true) (hfail : s.checkFrame n r = false) :
    execIndexFrameWrite n layer r s = .next (s.frameTried n slot (n.val % 2) layer.toNat false) := by
  have hrow := execIndexFrameWrite_due r hdisc hlayer hpending hdue
  simp only [hfail, Bool.false_eq_true, if_false] at hrow
  exact hrow

theorem execIndexAgeExpiry_due {slot : BitVec 5} {side : Fin 2} {layer : BitVec 5} {r : IdxRec} {s : State}
    (hfirst : (s.layerOf slot.toNat side layer.toNat).pending.head? = some r)
    (hold : s.get CHN_IDX_CFG_AGE * 500000 ≤ s.tick - r.at_) :
    execIndexAgeExpiry slot side layer s =
      .next (s.modLayer slot.toNat side layer.toNat fun y => { y with due := true }) := by
  unfold execIndexAgeExpiry
  dsimp only
  rw [hfirst]
  exact if_pos hold

theorem execIndexAgeExpiry_upToMedia {slot : BitVec 5} {side : Fin 2} {layer : BitVec 5} {s t : State}
    (h : execIndexAgeExpiry slot side layer s = .next t) : s.upToMedia t := by
  unfold execIndexAgeExpiry at h
  dsimp only at h
  split at h
  · split at h
    · exact Host.Outcome.next.inj h ▸ .modLayer s _ _ _ _
    · exact Host.Outcome.next.inj h ▸ .refl s
  · exact Host.Outcome.next.inj h ▸ .refl s

/-! ### Relocations (R216, R217) -/

/-- A relocation leaves the layers and the channel, and every register but those of the faults. -/
theorem State.enterMove_spec (s : State) (which : MapEnt → Bool) (b addr : Nat) :
    (s.enterMove which b addr).plc.layers = s.plc.layers ∧ (s.enterMove which b addr).chn = s.chn ∧
      ∀ f : Fld, f.addr < 0xF1000 → (s.enterMove which b addr).get f = s.get f := by
  obtain h | ⟨map, h⟩ := s.enterMove_cases which b addr
  · obtain ⟨regs, flt, hraise⟩ := State.upToFaults.raise s 0x060 4 3
    rw [h]
    refine ⟨congrArg _ (State.raise_plc s _ _ _), ?_, fun f hf => State.get_raise_below s hf⟩
    rw [State.plcFault, hraise]
  · rw [h]
    exact ⟨rfl, rfl, fun _ _ => rfl⟩

/-- The relocation leaves the queue. -/
def State.relocTaken (s : State) (r : RelocSt) : State :=
  (s.modChn fun c => { c with reloc := c.reloc.erase r }).set CHN_RELOC_PENDING (s.chn.reloc.erase r).length

/-- The block is written to 18 frames of the spare area of layer `l`, and its record is queued. -/
def State.relocWritten (s : State) (slot : Nat) (r : RelocSt) (l at_ : Nat) : State :=
  let addr := frameAddr r.side l at_
  ((((s.modLayer slot r.side l fun y => { y with spareLow := at_ }).incWrap CHN_RELOC_DONE).enterMove
    (fun e => e.id == r.id && e.hdr == r.hdr && e.slot == slot) r.block addr).pendRecord slot r.side r.layer
      { type := 3, id := r.id, hdr := r.hdr, block := r.block, addr := addr }).showFree slot

theorem State.get_incWrap_same (s : State) {f : Fld} (hf : f.ok) : (s.incWrap f).get f = (s.get f + 1) % (f.top + 1) := by
  have hpow := Nat.two_pow_pos (f.hi + 1 - f.lo)
  rw [State.incWrap, State.get_set_same s _ hf, Fld.top, Nat.sub_add_cancel hpow, Nat.mod_mod]

theorem State.relocWritten_spec (s : State) (slot : Nat) (r : RelocSt) (at_ : Nat) :
    (s.relocWritten slot r r.layer at_).get CHN_RELOC_DONE = (s.get CHN_RELOC_DONE + 1) % (CHN_RELOC_DONE.top + 1) ∧
      (s.relocWritten slot r r.layer at_).chn = s.chn ∧
      ((s.relocWritten slot r r.layer at_).layerOf slot r.side r.layer).spareLow = at_ := by
  obtain ⟨hlayers, hchn, hget⟩ :=
    ((s.modLayer slot r.side r.layer fun y => { y with spareLow := at_ }).incWrap CHN_RELOC_DONE).enterMove_spec
      (fun e => e.id == r.id && e.hdr == r.hdr && e.slot == slot) r.block (frameAddr r.side r.layer at_)
  unfold State.relocWritten
  dsimp only
  refine ⟨?_, ?_, ?_⟩
  · have hfree : CHN_RELOC ≠ PLC_SLOT_W1 slot := by simp only [CHN_RELOC, PLC_SLOT_W1]; omega
    rw [State.showFree, State.get_set_apart _ _ (by decide) (by decide) (.inl hfree), State.pendRecord, State.modLayer,
      State.modPlc_get, hget _ (by decide), State.get_incWrap_same _ (by decide), State.modLayer, State.modPlc_get]
  · rw [State.showFree, State.set_chn, State.pendRecord, State.modLayer, State.modPlc_chn, hchn, State.incWrap_chn,
      State.modLayer, State.modPlc_chn]
  · rw [State.layerOf_showFree, State.layerOf_pendRecord]
    dsimp only
    rw [State.layerOf_eq hlayers, State.incWrap, State.layerOf_set, State.layerOf_modLayer]
    exact fun _ => ⟨rfl, rfl, rfl⟩

theorem State.upToMedia.relocTaken (s : State) (r : RelocSt) : s.upToMedia (s.relocTaken r) :=
  (modChn s _).trans (.set _ _ (by decide))

theorem State.upToMedia.relocWritten (s : State) {slot : Nat} (r : RelocSt) (l at_ : Nat) (hk : slot < 32) :
    s.upToMedia (s.relocWritten slot r l at_) :=
  ((((modLayer s _ _ _ _).trans (.set _ _ (by decide))).trans (.enterMove _ _ _ _)).trans (.modLayer _ _ _ _ _)).trans
    (.showFree _ hk)

theorem execRelocationWrite_upToMedia {n : Fin 4} {s t : State} (h : execRelocationWrite n s = .next t) : s.upToMedia t := by
  unfold execRelocationWrite at h
  dsimp only at h
  split at h
  · next slot r hdisc _ =>
    split at h
    · exact Host.Outcome.next.inj h ▸ .refl s
    · have htaken : s.upToMedia (if decide ((s.layerOf slot r.side r.layer).front + 18 ≤ (s.layerOf slot r.side r.layer).spareRun)
          then s.relocTaken r else (s.relocTaken r).chnFault (n.val / 2) 5 (32 * r.side + r.layer)) :=
        .ite (.relocTaken s r) ((State.upToMedia.relocTaken s r).trans (.raise _ _ _ (by omega)))
      split at h
      · exact Host.Outcome.next.inj h ▸ htaken
      · exact Host.Outcome.next.inj h ▸ htaken.trans (.relocWritten _ r _ _ (discAt_lt hdisc))
  · exact Host.Outcome.next.inj h ▸ .refl s

theorem execRelocationWrite_fits {n : Fin 4} {slot : Nat} {r : RelocSt} {s : State} (hdisc : s.discAt n = some slot)
    (hmode : s.flag (OPU_STAT_WRITE_MODE n) = true) (htrack : s.puState n = puTracking)
    (hidle : (s.chn.ext[n.val]?).getD none = none)
    (hfirst : s.chn.reloc.find? (fun r => some r.slot == s.discAt n && r.side == n.val % 2) = some r)
    (hfits : (s.layerOf slot r.side r.layer).front + 18 ≤ (s.layerOf slot r.side r.layer).spareRun) (hlayer : r.layer < 24) :
    execRelocationWrite n s =
      .next ((s.relocTaken r).relocWritten slot r r.layer ((s.layerOf slot r.side r.layer).spareRun - 18)) := by
  have hmod : (r.layer + 0) % 24 = r.layer := Nat.mod_eq_of_lt hlayer
  have hown : (List.range 24).find? (fun i => decide ((s.layerOf slot r.side ((r.layer + i) % 24)).front + 18 ≤
      (s.layerOf slot r.side ((r.layer + i) % 24)).spareRun)) = some 0 := by
    refine List.find?_range_eq_some.mpr ⟨?_, by decide, fun j hj => absurd hj (Nat.not_lt_zero j)⟩
    rw [hmod]
    exact decide_eq_true hfits
  unfold execRelocationWrite
  rw [hfirst, hdisc]
  dsimp only
  rw [if_neg (by rw [hmode, htrack, hidle]; decide), hown]
  dsimp only
  rw [if_pos (decide_eq_true hfits), hmod]
  rfl

/-- Settles O20: a layer's record reads back what the row puts into it (`State.layerOf_modLayer`), the other steps of a row leave
the layers alone; what a row changes beyond is followed step by step (`State.upToMedia`). -/
theorem layersKeepTheirFrontsAndRecords : Obligations.LayersKeepTheirFrontsAndRecords := by
  unfold Obligations.LayersKeepTheirFrontsAndRecords
  refine ⟨?search, ?verified, ?failed, ?full, ?notDue, ?age, ?relocation, ?frame⟩
  case search => exact fun n layer reads slot s => execWriteFrontSearch_located reads
  case verified =>
    intro n layer r slot s hquiet hdisc hlayer hpending hdue hok _
    obtain ⟨t, hrow, hl⟩ := execIndexFrameWrite_verified hquiet.1 hdisc hlayer hpending hdue hok
    exact ⟨t, hrow, by rw [hl]; rfl, by rw [hl]; rfl, by rw [hl]; rfl, by rw [hl]; rfl⟩
  case failed =>
    intro n layer r slot s hdisc hlayer hpending hdue hfail
    refine ⟨_, execIndexFrameWrite_failed hdisc hlayer hpending hdue hfail, ?_⟩
    rw [State.layerOf_frameTried]
    exact ⟨rfl, hdue, rfl, rfl⟩
  case full =>
    intro n layer r slot s hdisc hlayer hpending hdue hfail hused hfirst
    refine ⟨_, execIndexFrameWrite_failed hdisc hlayer hpending hdue hfail, ?_, ?_⟩
    · rw [State.layerOf_frameTried]
      exact decide_eq_true hused
    · rw [State.frameTried, State.modLayer, State.modPlc_reg, State.areaNoted, if_pos (by rw [hfirst, decide_eq_true hused]; rfl)]
      exact State.count_raise s _ (by decide)
  case notDue =>
    intro n layer r slot s hdisc hrest
    refine ⟨s, ?_, rfl⟩
    show execIndexFrameWrite n layer r s = _
    unfold execIndexFrameWrite
    rw [hdisc]
    refine if_pos ?_
    rcases hrest with h | h
    · exact .inl (by rw [h]; rfl)
    · exact .inr (.inr h)
  case age =>
    intro slot side layer r s hfirst hold
    refine ⟨_, execIndexAgeExpiry_due hfirst hold, ?_, ?_, rfl⟩
    all_goals
      rw [State.layerOf_modLayer]
      exact fun _ => ⟨rfl, rfl, rfl⟩
  case relocation =>
    intro n slot r s hdisc hmode htrack hidle hfirst hfits hlayer
    obtain ⟨hdone, hchn, hlow⟩ := (s.relocTaken r).relocWritten_spec slot r ((s.layerOf slot r.side r.layer).spareRun - 18)
    have hmem : r ∈ s.chn.reloc := List.mem_of_find?_eq_some hfirst
    refine ⟨_, execRelocationWrite_fits hdisc hmode htrack hidle hfirst hfits hlayer, ?_, ?_, hlow⟩
    · rw [hdone, State.relocTaken, State.get_set_apart _ _ (by decide) (by decide) (by decide), State.modChn_get]
    · rw [hchn]
      exact List.length_erase_add_one hmem
  case frame =>
    intro n layer reads slot side s t h
    have hstep : s.upToMedia t := by
      rcases h with h | h | h
      · exact execWriteFrontSearch_upToMedia h
      · exact execIndexAgeExpiry_upToMedia h
      · exact execRelocationWrite_upToMedia h
    exact hstep

end Sys2Proof.Machine
end

section
/-!
PROOFS of the statements of 05_spindle.md: orders to a spindle (O21, refuted by the index frames that a stop makes due).
-/

namespace Sys2Proof.Machine

open Sys2Proof

/-- A layer of disc 3 with one record that waits for an index frame. -/
def pendingLayer : LayerSt where
  slot := 3
  side := 0
  layer := 5
  pending := [{ type := 1, id := { tenant := 1, key := 2, ver := 1, unit := 0 } }]

/-- Station 0 of a device in MAINTAIN turns disc 3. The path of management session 1 is open. -/
def turningDisc : State :=
  ((((({ State.reset with
    sys := { boot := .done }, cmd := { sessions := [{ id := 1, mgmt := true, tenant := 0, depth := 16 }] },
    plc := { layers := [pendingLayer] } } : State).set SYS_MODE_MODE modeMaintain).set (SPN_STAT_STATE 0) spRun).set
    MAG_STAT_CLAMP_0 1).set MAG_STN_SRC_VALID_0 1).set MAG_STN_SRC_SLOT_0 3

/-- The state after STOP of station 0. -/
def stoppedDisc : State := turningDisc.spnCmd (.session 1) 0 2 0

/-- STOP is accepted. The state meets the invariant that every step keeps (O60). -/
theorem turningDisc_stops :
    turningDisc.Inv ∧ turningDisc.opens (.session 1) ∧ turningDisc.mode = modeMaintain ∧ turningDisc.calHolds 0 = false ∧
      turningDisc.spnState 0 = spRun ∧ stoppedDisc.wstat = stOk ∧ stoppedDisc.spnState 0 = spDown := by decide +kernel

/-- The stop makes the layer's index frame due. -/
theorem stoppedDisc_due :
    turningDisc.plc.layers.map LayerSt.due = [false] ∧ stoppedDisc.plc.layers.map LayerSt.due = [true] := by decide +kernel

theorem plc_of_spindleFrame {s t : State}
    (h : t = { s with regs := t.regs, wstat := t.wstat, stn := t.stn, ce := t.ce, ax := t.ax, pu := t.pu, flt := t.flt }) :
    t.plc = s.plc := by
  rw [h]

/-- Refutes O21, in its last clause: the clause lists the records that an order may change and leaves out the placement's, but a
disc that is about to be spun down has its index frames due on every layer with pending records (R184,
`State.discIndexDue`), so a STOP in RUN changes what the device keeps of that layer. -/
theorem not_spindleOrders : ¬ Obligations.SpindleOrders := by
  intro ⟨_, _, _, _, _, _, _, _, _, hframe⟩
  obtain ⟨hbefore, hafter⟩ := stoppedDisc_due
  obtain ⟨hrest, -⟩ := hframe (.session 1) 0 0 true turningDisc stoppedDisc (.inr (.inl rfl))
  have hplc : stoppedDisc.plc = turningDisc.plc := plc_of_spindleFrame hrest
  rw [hplc, hbefore] at hafter
  exact absurd hafter (by decide)

end Sys2Proof.Machine
end

section
/-!
PROOFS of the statements of 05_spindle.md, continued: rules of a station's operations. For each operation: which fields of a
station's registers, written ⟨a + 0x8000 * st, hi, lo⟩, it leaves; what it leaves of the station's record; and what it leaves
beyond the stations (`State.beyondSpn`). With `-implicitDefEqProofs` every step cites its lemma, so that the kernel does not
evaluate the states.
-/

namespace Sys2Proof.Machine

open Sys2Proof

/-! ### The record of a station -/

@[simp] theorem State.modStn_stnOf (s : State) (st : Fin 2) (f : StnSt → StnSt) :
    (s.modStn st f).stnOf st = f (s.stnOf st) := by
  rw [State.modStn, State.setStn, State.stnOf, Vector.getElem?_setIfInBounds_self_of_lt st.isLt]
  rfl

@[simp] theorem State.set_stnOf (s : State) (f : Fld) (v st : Nat) : (s.set f v).stnOf st = s.stnOf st := rfl
@[simp] theorem State.setInt_stnOf (s : State) (f : Fld) (i : Int) (st : Nat) : (s.setInt f i).stnOf st = s.stnOf st := rfl
@[simp] theorem State.incWrap_stnOf (s : State) (f : Fld) (st : Nat) : (s.incWrap f).stnOf st = s.stnOf st := rfl

@[simp] theorem State.when_stnOf (s : State) (b : Bool) (f : State → State) (st : Nat) :
    (s.when b f).stnOf st = if b then (f s).stnOf st else s.stnOf st := apply_ite (State.stnOf · st) _ _ _

@[simp] theorem State.withOut_stnOf (s : State) (out : Nat) (f : KSlot → KSlot) (st : Nat) :
    (s.withOut out f).stnOf st = s.stnOf st := by
  unfold State.withOut
  split <;> rfl

@[simp] theorem State.clearOut_stnOf (s : State) (out st : Nat) : (s.clearOut out).stnOf st = s.stnOf st := by
  unfold State.clearOut State.clearEn
  split
  · dsimp only
    split <;> rfl
  · rfl

@[simp] theorem State.enableOut_stnOf (s : State) (out st : Nat) : (s.enableOut out).stnOf st = s.stnOf st := by
  unfold State.enableOut State.setEn
  split
  · split <;> rfl
  · rfl

@[simp] theorem State.spnFault_stnOf (s : State) (m kind arg st : Nat) : (s.spnFault m kind arg).stnOf st = s.stnOf st := by
  obtain ⟨_, _, h⟩ := State.upToFaults.raise s (0x040 + m) kind arg
  rw [State.spnFault, h]
  rfl

@[simp] theorem State.refreshSource_stnOf (s : State) (m st : Nat) : (s.refreshSource m).stnOf st = s.stnOf st := by
  unfold State.refreshSource
  dsimp only
  split <;> rfl

/-! ### Fields of a station's registers -/

/-- Another field of a station reads as before. -/
@[simp] theorem State.spnGet_set (s : State) {st a b h l k m : Nat} (v : Nat) (hm : m ≤ k) (hk : k < 32)
    (hd : a ≠ b ∨ h < m ∨ k < l) :
    (s.set ⟨b + 0x8000 * st, k, m⟩ v).get ⟨a + 0x8000 * st, h, l⟩ = s.get ⟨a + 0x8000 * st, h, l⟩ :=
  State.get_set_apart s v hm hk (by omega)

@[simp] theorem State.spnGet_setInt (s : State) {st a b h l k m : Nat} (i : Int) (hm : m ≤ k) (hk : k < 32)
    (hd : a ≠ b ∨ h < m ∨ k < l) :
    (s.setInt ⟨b + 0x8000 * st, k, m⟩ i).get ⟨a + 0x8000 * st, h, l⟩ = s.get ⟨a + 0x8000 * st, h, l⟩ :=
  State.spnGet_set s _ hm hk hd

@[simp] theorem State.spnGet_incWrap (s : State) {st a b h l k m : Nat} (hm : m ≤ k) (hk : k < 32)
    (hd : a ≠ b ∨ h < m ∨ k < l) :
    (s.incWrap ⟨b + 0x8000 * st, k, m⟩).get ⟨a + 0x8000 * st, h, l⟩ = s.get ⟨a + 0x8000 * st, h, l⟩ :=
  State.spnGet_set s _ hm hk hd

@[simp] theorem State.spnGet_clearOut (s : State) (out : Nat) {st a h l : Nat} (ha : 0x50000 ≤ a) :
    (s.clearOut out).get ⟨a + 0x8000 * st, h, l⟩ = s.get ⟨a + 0x8000 * st, h, l⟩ := by
  simp only [State.get, State.reg_clearOut s out (show 0x27000 ≤ a + 0x8000 * st by omega)]

@[simp] theorem State.spnGet_enableOut (s : State) (out : Nat) {st a h l : Nat} (ha : 0x50000 ≤ a) :
    (s.enableOut out).get ⟨a + 0x8000 * st, h, l⟩ = s.get ⟨a + 0x8000 * st, h, l⟩ := by
  simp only [State.get, State.reg_enableOut s out (show 0x27000 ≤ a + 0x8000 * st by omega)]

@[simp] theorem State.spnGet_spnFault (s : State) {st : Fin 2} {m a h l : Nat} (kind arg : Nat) (ha : a < 0x58000) :
    (s.spnFault m kind arg).get ⟨a + 0x8000 * st, h, l⟩ = s.get ⟨a + 0x8000 * st, h, l⟩ :=
  State.get_raise_below s (by dsimp only; omega)

theorem State.get_incWrap_here (s : State) {b k m : Nat} (h1 : m ≤ k) (h2 : k < 32) :
    (s.incWrap ⟨b, k, m⟩).get ⟨b, k, m⟩ = (s.get ⟨b, k, m⟩ + 1) % ((⟨b, k, m⟩ : Fld).top + 1) :=
  State.get_incWrap_same s ⟨h1, h2⟩

/-- SRC alone of SPN_STAT. -/
@[simp] theorem State.spnGet_refreshSource (s : State) {st a h l : Nat} (hd : a ≠ 0x50004 ∨ h < 14 ∨ 15 < l) :
    (s.refreshSource st).get ⟨a + 0x8000 * st, h, l⟩ = s.get ⟨a + 0x8000 * st, h, l⟩ := by
  unfold State.refreshSource
  dsimp only
  split
  · exact State.spnGet_set s _ (by decide) (by decide) hd
  · rfl

/-! ### Ends of orders, and stations at rest -/

/-- An order of SPN_CMD that ends shows its RESULT alone. -/
@[simp] theorem State.spnGet_spnResult (s : State) {st a h l : Nat} (result : Nat) (hd : a ≠ 0x5000C ∨ h < 20 ∨ 23 < l) :
    (s.spnResult st result).get ⟨a + 0x8000 * st, h, l⟩ = s.get ⟨a + 0x8000 * st, h, l⟩ := by
  unfold State.spnResult
  split <;> simp -implicitDefEqProofs [hd]

theorem State.result_spnResult (s : State) (st : Nat) {result : Nat} (hr : result < 16) :
    (s.spnResult st result).get (SPN_CMD_STAT_RESULT st) =
      if (s.stnOf st).running = true then result else s.get (SPN_CMD_STAT_RESULT st) := by
  unfold State.spnResult
  split
  · simp -implicitDefEqProofs [State.get_set_here, Nat.mod_eq_of_lt hr]
  · rfl

@[simp] theorem State.spnResult_stnOf (s : State) (st : Fin 2) (result : Nat) :
    (s.spnResult st result).stnOf st = { s.stnOf st with running := false } := by
  unfold State.spnResult
  split
  · simp -implicitDefEqProofs
  next h => rw [← Bool.eq_false_of_not_eq_true h]

/-- A station that goes OFF: STATE, SRC, BRAKE and AT_SPEED of SPN_STAT, and the target. -/
theorem State.spnOff_spec (s : State) (st : Nat) :
    (s.spnOff st).spnState st = spOff ∧ (s.spnOff st).get (SPN_STAT_SRC st) = 0 := by
  constructor <;> simp -implicitDefEqProofs [State.spnState, State.spnOff, State.bridgeOff, State.get_set_here]

@[simp] theorem State.spnGet_spnOff (s : State) {st a h l : Nat} (ha : 0x50000 ≤ a) (ht : a ≠ 0x50010)
    (hs : a ≠ 0x50004 ∨ 10 < l ∧ h < 14 ∨ 3 < l ∧ h < 10) :
    (s.spnOff st).get ⟨a + 0x8000 * st, h, l⟩ = s.get ⟨a + 0x8000 * st, h, l⟩ := by
  have hstate : a ≠ 0x50004 ∨ h < 0 ∨ 3 < l := by omega
  have hspeed : a ≠ 0x50004 ∨ h < 10 ∨ 10 < l := by omega
  have hsrc : a ≠ 0x50004 ∨ h < 14 ∨ 15 < l := by omega
  have hbrake : a ≠ 0x50004 ∨ h < 16 ∨ 19 < l := by omega
  have htarget : a ≠ 0x50010 ∨ h < 16 ∨ 31 < l := .inl ht
  rw [State.spnOff, State.modStn_get, State.spnGet_set _ _ (by decide) (by decide) hspeed,
    State.spnGet_set _ _ (by decide) (by decide) htarget, State.spnGet_set _ _ (by decide) (by decide) hbrake,
    State.spnGet_set _ _ (by decide) (by decide) hsrc, State.spnGet_set _ _ (by decide) (by decide) hstate,
    State.bridgeOff, State.spnGet_clearOut _ _ ha]

theorem State.spnOff_stnOf (s : State) (st : Fin 2) :
    (s.spnOff st).stnOf st =
      { s.stnOf st with orderAt := none, spinAt := none, recaught := false, holdup := false, fallAt := none } := by
  simp -implicitDefEqProofs [State.spnOff, State.bridgeOff]

/-- A station that becomes UNUSABLE: beside what OFF changes, its STATE and the RESULT of its order. -/
theorem State.spnUnusable_spec (s : State) (st : Fin 2) (forGood : Bool) :
    (s.spnUnusable st forGood).spnState st = spUnusable ∧
      ((s.spnUnusable st forGood).stnOf st).forGood = (forGood || (s.stnOf st).forGood) := by
  constructor
  · simp -implicitDefEqProofs [State.spnState, State.spnUnusable, State.get_set_here, spUnusable]
  · simp -implicitDefEqProofs [State.spnUnusable, State.spnOff_stnOf]

@[simp] theorem State.spnGet_spnUnusable (s : State) {st a h l : Nat} (forGood : Bool) (ha : 0x50000 ≤ a) (ht : a ≠ 0x50010)
    (hr : a ≠ 0x5000C) (hs : a ≠ 0x50004 ∨ 10 < l ∧ h < 14 ∨ 3 < l ∧ h < 10) :
    (s.spnUnusable st forGood).get ⟨a + 0x8000 * st, h, l⟩ = s.get ⟨a + 0x8000 * st, h, l⟩ := by
  have hstate : a ≠ 0x50004 ∨ h < 0 ∨ 3 < l := by omega
  rw [State.spnUnusable, State.modStn_get, State.spnGet_spnResult _ _ (.inl hr),
    State.spnGet_set _ _ (by decide) (by decide) hstate, State.spnGet_spnOff _ ha ht hs]

/-! ### What lies beyond a station -/

/-- What the operations of a station leave: the records beside those of the stations and of the control engine, and the words
outside CE and SPN. -/
structure BeyondSpn where
  rest : State
  word : (a : Nat) → a / 0x10000 ∉ [2, 5] → Word

def State.beyondSpn (s : State) : BeyondSpn where
  rest := { s with regs := [], stn := Vector.replicate 2 {}, ce := {} }
  word := fun a _ => s.reg a

theorem reg_of_beyondSpn {s t : State} (h : t.beyondSpn = s.beyondSpn) {a : Nat} (ha : a / 0x10000 ∉ [2, 5]) :
    t.reg a = s.reg a := congrFun (congrFun (congrArg BeyondSpn.word h) a) ha

theorem State.setReg_beyondSpn (s : State) {a : Nat} (v : Word) (ha : a / 0x10000 ∈ [2, 5]) :
    (s.setReg a v).beyondSpn = s.beyondSpn := by
  have hword : (s.setReg a v).beyondSpn.word = s.beyondSpn.word := by
    funext b hb
    exact State.reg_setReg_other s v (fun e => hb (e ▸ ha))
  exact congrArg (BeyondSpn.mk s.beyondSpn.rest) hword

@[simp] theorem State.set_beyondSpn (s : State) {st : Fin 2} {a h l : Nat} (v : Nat) (ha : 0x50000 ≤ a) (hb : a < 0x58000) :
    (s.set ⟨a + 0x8000 * st, h, l⟩ v).beyondSpn = s.beyondSpn :=
  State.setReg_beyondSpn s _ (by simp only [List.mem_cons]; omega)

@[simp] theorem State.setInt_beyondSpn (s : State) (f : Fld) (i : Int) :
    (s.setInt f i).beyondSpn = (s.set f (unsignedOf (f.hi + 1 - f.lo) i)).beyondSpn := rfl

@[simp] theorem State.incWrap_beyondSpn (s : State) (f : Fld) :
    (s.incWrap f).beyondSpn = (s.set f ((s.get f + 1) % (f.top + 1))).beyondSpn := rfl

@[simp] theorem State.addSat_beyondSpn (s : State) (f : Fld) (v : Nat) :
    (s.addSat f v).beyondSpn = (s.set f (min f.top (s.get f + v))).beyondSpn := rfl

@[simp] theorem State.when_beyondSpn (s : State) (b : Bool) (f : State → State) :
    (s.when b f).beyondSpn = if b then (f s).beyondSpn else s.beyondSpn := apply_ite _ _ _ _

@[simp] theorem State.modStn_beyondSpn (s : State) (st : Nat) (f : StnSt → StnSt) : (s.modStn st f).beyondSpn = s.beyondSpn := rfl
@[simp] theorem State.setSlot_beyondSpn (s : State) (m : Nat) (k : KSlot) : (s.setSlot m k).beyondSpn = s.beyondSpn := rfl

theorem State.set_beyondSpn_en (s : State) {m : Nat} (v : Nat) (hm : m < 48) : (s.set (CE_PAGE_EN m) v).beyondSpn = s.beyondSpn :=
  State.setReg_beyondSpn s _ (by simp only [CE_PAGE, List.mem_cons]; omega)

theorem State.ce_beyondSpn (s : State) (x : CeSt) : State.beyondSpn { s with ce := x } = s.beyondSpn := rfl

theorem State.clearEn_beyondSpn (s : State) {m : Nat} (hm : m < 48) : (s.clearEn m).beyondSpn = s.beyondSpn := by
  unfold State.clearEn
  dsimp only
  rw [State.ce_beyondSpn, State.setSlot_beyondSpn]
  split
  · rfl
  · exact s.set_beyondSpn_en 0 hm

@[simp] theorem State.clearOut_beyondSpn (s : State) (out : Nat) : (s.clearOut out).beyondSpn = s.beyondSpn := by
  unfold State.clearOut
  split
  next m hm => exact s.clearEn_beyondSpn (slotOf_lt hm)
  next => rfl

@[simp] theorem State.enableOut_beyondSpn (s : State) (out : Nat) : (s.enableOut out).beyondSpn = s.beyondSpn := by
  unfold State.enableOut
  split
  next m hm =>
    unfold State.setEn
    split
    · rfl
    · exact (State.setSlot_beyondSpn _ _ _).trans (s.set_beyondSpn_en 1 (slotOf_lt hm))
  next => rfl

@[simp] theorem State.withOut_beyondSpn (s : State) (out : Nat) (f : KSlot → KSlot) :
    (s.withOut out f).beyondSpn = s.beyondSpn := by
  unfold State.withOut
  split <;> rfl

@[simp] theorem State.refreshSource_beyondSpn (s : State) (st : Fin 2) : (s.refreshSource st).beyondSpn = s.beyondSpn := by
  unfold State.refreshSource
  dsimp only
  split <;> simp -implicitDefEqProofs

@[simp] theorem State.spnResult_beyondSpn (s : State) (st : Fin 2) (result : Nat) :
    (s.spnResult st result).beyondSpn = s.beyondSpn := by
  unfold State.spnResult
  split <;> simp -implicitDefEqProofs

@[simp] theorem State.spnOff_beyondSpn (s : State) (st : Fin 2) : (s.spnOff st).beyondSpn = s.beyondSpn := by
  simp -implicitDefEqProofs [State.spnOff, State.bridgeOff]

@[simp] theorem State.spnUnusable_beyondSpn (s : State) (st : Fin 2) (forGood : Bool) :
    (s.spnUnusable st forGood).beyondSpn = s.beyondSpn := by
  simp -implicitDefEqProofs [State.spnUnusable]

@[simp] theorem State.startRotor_beyondSpn (s : State) (st : Fin 2) (angle : Nat) :
    (s.startRotor st angle).beyondSpn = s.beyondSpn := by
  simp -implicitDefEqProofs [State.startRotor, State.spnSetPoint]

/-- Beyond the stations `t` is as after one fault of station `st`, raised in a state that is there as `s`. -/
def State.spnFaulted (s : State) (st : Fin 2) (t : State) : Prop :=
  ∃ (r : State) (kind arg : Nat), r.beyondSpn = s.beyondSpn ∧ kind ≠ 0x3F ∧ t.beyondSpn = (r.spnFault st kind arg).beyondSpn

/-- The word that counts the faults of a station lies beyond the stations. -/
theorem count_of_beyondSpn {s t : State} (h : t.beyondSpn = s.beyondSpn) (st : Fin 2) :
    t.reg (keySrc (0x040 + st) 0) = s.reg (keySrc (0x040 + st) 0) :=
  reg_of_beyondSpn h (by simp only [keySrc, List.mem_cons, List.not_mem_nil, or_false]; omega)

/-- A fault of a station is counted, whatever its operations did before and do then. -/
theorem State.spnFaulted.count {s t : State} {st : Fin 2} (h : s.spnFaulted st t) :
    (t.reg (keySrc (0x040 + st) 0)).toNat = min 0xFFFFFFFF ((s.reg (keySrc (0x040 + st) 0)).toNat + 1) := by
  obtain ⟨r, kind, arg, hr, hk, ht⟩ := h
  rw [count_of_beyondSpn ht, ← count_of_beyondSpn hr]
  exact State.count_raise r arg hk

/-! ### Steps that leave a part of the state -/

/-- From `s` to `t` what `rest` keeps of a state has stayed, and so have the words of `kept`. -/
def State.stays (rest : State → State) (kept : Nat → Prop) (s t : State) : Prop :=
  rest t = rest s ∧ ∀ a, kept a → t.reg a = s.reg a

namespace State.stays

variable {rest : State → State} {kept : Nat → Prop} {s t u : State}

theorem refl (s : State) : s.stays rest kept s := ⟨rfl, fun _ _ => rfl⟩

theorem trans (h : s.stays rest kept t) (k : t.stays rest kept u) : s.stays rest kept u :=
  ⟨k.1.trans h.1, fun a ha => (k.2 a ha).trans (h.2 a ha)⟩

theorem ite {c : Prop} [Decidable c] (ht : s.stays rest kept t) (hu : s.stays rest kept u) :
    s.stays rest kept (if c then t else u) := by
  split <;> assumption

theorem when (b : Bool) {f : State → State} (h : s.stays rest kept (f s)) : s.stays rest kept (s.when b f) := ite h (refl s)

/-- Less may be kept. -/
theorem mono {rest' : State → State} {kept' : Nat → Prop} (h : s.stays rest kept t) (hrest : ∀ u, rest' (rest u) = rest' u)
    (hkept : ∀ a, kept' a → kept a) : s.stays rest' kept' t :=
  ⟨by rw [← hrest t, h.1, hrest], fun a ha => h.2 a (hkept a ha)⟩

/-- A fault leaves the words that are not of the faults, and the records beside the collector's. -/
theorem raise (s : State) {src kind arg : Nat} (hrest : ∀ regs flt, rest { s with regs := regs, flt := flt } = rest s)
    (hkept : ∀ a, kept a → ¬ faultWord a) (hsrc : src < 0x1000) : s.stays rest kept (s.raise src kind arg) := by
  obtain ⟨regs, flt, h⟩ := State.upToFaults.raise s src kind arg
  refine ⟨by rw [h, hrest], fun a ha => ?_⟩
  have hfault := hkept a ha
  simp only [faultWord, inBlock] at hfault
  exact State.reg_raise_other s (by dsimp only [keySrc]; omega) (by dsimp only [FLT_FB]; omega)

end State.stays

/-- The state without what the operations of a station and their faults write. -/
def State.offSpn (s : State) : State := { s with regs := [], stn := Vector.replicate 2 {}, ce := {}, flt := {} }

/-- From `s` to `t` at most what the operations of a station and their faults write has changed. -/
abbrev State.upToSpn (s t : State) : Prop := s.stays State.offSpn (outside [2, 5]) t

namespace State.stays

variable {s t : State}

theorem of_beyondSpn (h : t.beyondSpn = s.beyondSpn) : s.upToSpn t := by
  have hrest : t.beyondSpn.rest.offSpn = s.beyondSpn.rest.offSpn := by rw [h]
  exact ⟨hrest, fun a ha => reg_of_beyondSpn h ha.1⟩

theorem of_spnFaulted {st : Fin 2} (h : s.spnFaulted st t) : s.upToSpn t := by
  obtain ⟨r, kind, arg, hr, -, ht⟩ := h
  exact (of_beyondSpn hr).trans ((raise r (fun _ _ => rfl) (fun _ ha => ha.2) (by omega)).trans (of_beyondSpn ht))

theorem spnFrame (h : s.upToSpn t) :
    t = { s with regs := t.regs, stn := t.stn, ce := t.ce, flt := t.flt } ∧ ∀ a, outside [2, 5] a → t.reg a = s.reg a := by
  obtain ⟨hrest, hregs⟩ := h
  refine ⟨?_, hregs⟩
  calc t = { t.offSpn with regs := t.regs, stn := t.stn, ce := t.ce, flt := t.flt } := rfl
    _ = _ := by rw [hrest]; rfl

end State.stays

end Sys2Proof.Machine
end

section
/-!
PROOFS of the statements of 05_spindle.md, continued: alignment, encoder index, speed and stop (O22).
-/

namespace Sys2Proof.Machine

open Sys2Proof

/-! ### Alignment (R229 to R231) -/

/-- The share of a difference from a value that is not negative, in percent. -/
theorem percent_le {a b : Int} (ha : 0 ≤ a) (hb : 0 ≤ b) : 100 * (a - b) / a ≤ 100 := by
  rcases ha.eq_or_lt with rfl | hpos
  · rw [Int.ediv_zero]
    decide
  · exact Int.ediv_le_of_le_mul hpos (by omega)

/-- The angle is below 360° and the quality at most 100%: both fit their fields. -/
theorem alignAngle_bounds (slopes : Vector (BitVec 16) 6) : (alignAngle slopes).1 < 360 ∧ (alignAngle slopes).2 ≤ 100 := by
  unfold alignAngle
  extract_lets slope k bend ofs quality
  have hslope : ∀ i, 0 ≤ slope i := fun i => Int.natCast_nonneg _
  have hquality : quality ≤ 100 := by
    unfold quality
    split
    · decide
    · exact percent_le (hslope _) (hslope _)
  dsimp only
  omega

/-- The station starts with the angle found. -/
theorem State.startRotor_spec (s : State) (st : Nat) {angle : Nat} (ha : angle < 512) :
    (s.startRotor st angle).spnState st = spStart ∧ (s.startRotor st angle).flag (SPN_INIT_STAT_VALID st) = true ∧
      (s.startRotor st angle).get (SPN_INIT_STAT_ANGLE st) = angle ∧
      (s.startRotor st angle).get (SPN_INIT_STAT_QUALITY st) = s.get (SPN_INIT_STAT_QUALITY st) := by
  refine ⟨?_, ?_, ?_, ?_⟩
  · simp -implicitDefEqProofs [State.spnState, State.startRotor, State.spnSetPoint, State.get_set_here, spStart]
  · simp -implicitDefEqProofs [State.flag, State.startRotor, State.spnSetPoint, State.get_set_here]
  · simp -implicitDefEqProofs [State.startRotor, State.spnSetPoint, State.get_set_here, Nat.mod_eq_of_lt ha]
  · simp -implicitDefEqProofs [State.startRotor, State.spnSetPoint]

/-- The slopes of a pass of a station in ALIGN are about to be judged. -/
abbrev State.passEnded (s : State) (st : Nat) : Prop :=
  s.spnState st = spAlign ∧ (s.stnOf st).fallAt = none ∧ (s.stnOf st).vec = 6

/-- Both passes have failed: the fault, and the fallback to 0°. -/
def State.alignAtZero (s : State) (st quality : Nat) : State :=
  ((((s.set (SPN_INIT_STAT_QUALITY st) quality).spnFault st 7 quality).set (SPN_INIT_STAT_FALLBACK st) 1).set
    (SPN_INIT_STAT_ANGLE st) 0).modStn st fun k => { k with fallAt := some s.tick }

theorem State.alignAtZero_spec (s : State) (st : Fin 2) (quality : Nat) :
    (s.alignAtZero st quality).spnState st = s.spnState st ∧ ((s.alignAtZero st quality).stnOf st).fallAt = some s.tick ∧
      (s.alignAtZero st quality).flag (SPN_INIT_STAT_FALLBACK st) = true ∧
      (s.alignAtZero st quality).get (SPN_INIT_STAT_ANGLE st) = 0 := by
  refine ⟨?_, ?_, ?_, ?_⟩
  · simp -implicitDefEqProofs [State.spnState, State.alignAtZero]
  · simp -implicitDefEqProofs [State.alignAtZero]
  · simp -implicitDefEqProofs [State.flag, State.alignAtZero, State.get_set_here]
  · simp -implicitDefEqProofs [State.alignAtZero, State.get_set_here]

theorem State.alignAtZero_faulted (s : State) (st : Fin 2) (quality : Nat) : s.spnFaulted st (s.alignAtZero st quality) :=
  ⟨s.set (SPN_INIT_STAT_QUALITY st) quality, 7, quality, by simp -implicitDefEqProofs, by decide,
    by simp -implicitDefEqProofs [State.alignAtZero]⟩

section
variable {s : State} {st : Fin 2} {slopes : Vector (BitVec 16) 6}

theorem execAlignDone_found (h : s.passEnded st) (hq : s.get (SPN_INIT_MIN_DIFF st) ≤ (alignAngle slopes).2) :
    execAlignDone st slopes s =
      .next ((s.set (SPN_INIT_STAT_QUALITY st) (alignAngle slopes).2).startRotor st (alignAngle slopes).1) :=
  (if_pos h).trans (if_pos hq)

theorem execAlignDone_repeats (h : s.passEnded st) (hq : (alignAngle slopes).2 < s.get (SPN_INIT_MIN_DIFF st))
    (hpass : (s.stnOf st).pass2 = false) :
    execAlignDone st slopes s =
      .next ((s.set (SPN_INIT_STAT_QUALITY st) (alignAngle slopes).2).modStn st fun k =>
        { k with pass2 := true, vec := 0, vecAt := s.tick, vecOff := false }) :=
  (if_pos h).trans ((if_neg hq.not_ge).trans (if_neg (by rw [hpass]; decide)))

theorem execAlignDone_fallsBack (h : s.passEnded st) (hq : (alignAngle slopes).2 < s.get (SPN_INIT_MIN_DIFF st))
    (hpass : (s.stnOf st).pass2 = true) :
    execAlignDone st slopes s = .next (s.alignAtZero st (alignAngle slopes).2) :=
  (if_pos h).trans ((if_neg hq.not_ge).trans (if_pos hpass))

end

theorem execAlignDone_upToSpn {st : Fin 2} {slopes : Vector (BitVec 16) 6} {s t : State}
    (h : execAlignDone st slopes s = .next t) : s.upToSpn t := by
  unfold execAlignDone at h
  dsimp only at h
  split_ifs at h <;> obtain rfl := Host.Outcome.next.inj h
  · exact .of_beyondSpn (by simp -implicitDefEqProofs)
  · exact .of_spnFaulted (s.alignAtZero_faulted st _)
  · exact .of_beyondSpn (by simp -implicitDefEqProofs)
  · exact .refl s

/-! ### The encoder index (R226, R227) -/

section
variable {s : State} {st : Fin 2} {count : BitVec 17}

/-- The first index since the stop. -/
def State.firstIndex (s : State) (st count : Nat) : State :=
  (((((s.incWrap (SPN_ANGLE_REVS st)).set (SPN_STAT_INDEXED st) 1).set (SPN_ANGLE_COUNT st) 0).modStn st fun k =>
    { k with indexOfs := (k.indexOfs + count) % 131072 }).when (s.spnState st == spStart) fun t =>
      t.set (SPN_STAT_STATE st) spRun).refreshSource st

theorem execEncoderIndex_first (h : s.flag (SPN_STAT_INDEXED st) = false) :
    execEncoderIndex st count s = .next (s.firstIndex st count.toNat) := if_pos h

theorem State.firstIndex_spec (s : State) (st count : Nat) :
    (s.firstIndex st count).flag (SPN_STAT_INDEXED st) = true ∧ (s.firstIndex st count).get (SPN_ANGLE_COUNT st) = 0 ∧
      (s.firstIndex st count).spnState st = (if s.spnState st = spStart then spRun else s.spnState st) ∧
      (s.firstIndex st count).get (SPN_ANGLE_REVS st) =
        (s.get (SPN_ANGLE_REVS st) + 1) % ((SPN_ANGLE_REVS st).top + 1) := by
  refine ⟨?_, ?_, ?_, ?_⟩
  · simp -implicitDefEqProofs [State.flag, State.firstIndex, State.get_set_here]
  · simp -implicitDefEqProofs [State.firstIndex, State.get_set_here]
  · by_cases h : s.get (SPN_STAT_STATE st) = spStart <;>
      simp -implicitDefEqProofs [State.spnState, State.firstIndex, State.get_set_here, h, spRun]
  · simp -implicitDefEqProofs [State.firstIndex, State.get_incWrap_here]

/-- A later index where it belongs. -/
theorem execEncoderIndex_inside (h : s.flag (SPN_STAT_INDEXED st) = true)
    (hc : count.toNat ≤ s.get (SPN_ENC_CFG_INDEX_TOL st) ∨ 131072 ≤ count.toNat + s.get (SPN_ENC_CFG_INDEX_TOL st)) :
    execEncoderIndex st count s = .next (s.incWrap (SPN_ANGLE_REVS st)) :=
  (if_neg (by rw [h]; decide)).trans (if_pos hc)

/-- A later index elsewhere. -/
def State.strayIndex (s : State) (st count : Nat) : State :=
  ((((s.incWrap (SPN_ANGLE_REVS st)).spnFault st 2 (count % 65536)).set (SPN_STAT_ENC_VALID st) 0).modStn st fun k =>
    { k with indexBad := true }).refreshSource st

theorem execEncoderIndex_outside (h : s.flag (SPN_STAT_INDEXED st) = true)
    (hlo : s.get (SPN_ENC_CFG_INDEX_TOL st) < count.toNat) (hhi : count.toNat + s.get (SPN_ENC_CFG_INDEX_TOL st) < 131072) :
    execEncoderIndex st count s = .next (s.strayIndex st count.toNat) :=
  (if_neg (by rw [h]; decide)).trans (if_neg (by omega))

theorem State.strayIndex_spec (s : State) (st : Fin 2) (count : Nat) :
    (s.strayIndex st count).flag (SPN_STAT_ENC_VALID st) = false ∧ (s.strayIndex st count).spnState st = s.spnState st ∧
      (s.strayIndex st count).get (SPN_ANGLE_REVS st) =
        (s.get (SPN_ANGLE_REVS st) + 1) % ((SPN_ANGLE_REVS st).top + 1) := by
  refine ⟨?_, ?_, ?_⟩
  · simp -implicitDefEqProofs [State.flag, State.strayIndex, State.get_set_here]
  · simp -implicitDefEqProofs [State.spnState, State.strayIndex]
  · simp -implicitDefEqProofs [State.strayIndex, State.get_incWrap_here]

theorem State.strayIndex_faulted (s : State) (st : Fin 2) (count : Nat) : s.spnFaulted st (s.strayIndex st count) :=
  ⟨s.incWrap (SPN_ANGLE_REVS st), 2, count % 65536, by simp -implicitDefEqProofs, by decide,
    by simp -implicitDefEqProofs [State.strayIndex]⟩

theorem execEncoderIndex_upToSpn {t : State} (h : execEncoderIndex st count s = .next t) : s.upToSpn t := by
  unfold execEncoderIndex at h
  dsimp only at h
  split_ifs at h <;> obtain rfl := Host.Outcome.next.inj h
  · refine .of_beyondSpn ?_
    simp -implicitDefEqProofs
  · exact .of_beyondSpn (by simp -implicitDefEqProofs)
  · exact .of_spnFaulted (s.strayIndex_faulted st _)

end

/-! ### Speed and standstill (R236, R241, R243) -/

/-- The station is near its target long enough. -/
def State.atTarget (s : State) (st : Nat) : State :=
  ((s.set (SPN_STAT_AT_SPEED st) 1).modStn st fun k => { k with orderAt := none }).spnResult st resDone

theorem State.atTarget_spec (s : State) (st : Fin 2) :
    (s.atTarget st).flag (SPN_STAT_AT_SPEED st) = true ∧
      (s.atTarget st).get (SPN_CMD_STAT_RESULT st) =
        (if (s.stnOf st).running = true then 0 else s.get (SPN_CMD_STAT_RESULT st)) ∧
      ((s.atTarget st).stnOf st).orderAt = none ∧ (s.atTarget st).spnState st = s.spnState st := by
  refine ⟨?_, ?_, ?_, ?_⟩
  · simp -implicitDefEqProofs [State.flag, State.atTarget, State.get_set_here]
  · simp -implicitDefEqProofs [State.atTarget, State.result_spnResult]
  · simp -implicitDefEqProofs [State.atTarget]
  · simp -implicitDefEqProofs [State.spnState, State.atTarget]

theorem execAtSpeed_upToSpn {st : Fin 2} {s t : State} (h : execAtSpeed st s = .next t) : s.upToSpn t :=
  eq_of_row h ▸ .ite (.of_beyondSpn (by simp -implicitDefEqProofs)) (.refl s)

/-- The station stands: its next spin needs an index again. -/
def State.standing (s : State) (st : Nat) : State :=
  ((s.set (SPN_STAT_STOPPED st) 1).set (SPN_STAT_INDEXED st) 0).modStn st fun k =>
    { k with indexBad := false, holdup := false }

theorem State.standing_spec (s : State) (st : Nat) :
    (s.standing st).get (SPN_STAT_STOPPED st) = 1 ∧ (s.standing st).get (SPN_STAT_INDEXED st) = 0 := by
  constructor <;> simp -implicitDefEqProofs [State.standing, State.get_set_here]

@[simp] theorem State.standing_beyondSpn (s : State) (st : Fin 2) : (s.standing st).beyondSpn = s.beyondSpn := by
  simp -implicitDefEqProofs [State.standing]

section
variable {s : State} {st : Fin 2}

theorem execStopped_off (hslow : 25000 ≤ (s.stnOf st).slowRun) (hst : s.spnState st = spDown ∨ s.spnState st = spCoast)
    (hre : (s.stnOf st).recaught = false) :
    execStopped st s = .next (((s.standing st).spnOff st).spnResult st resDone) :=
  (if_neg hslow.not_gt).trans ((if_neg (by simp [hre])).trans (if_pos hst))

theorem execStopped_unusable (hslow : 25000 ≤ (s.stnOf st).slowRun) (hst : s.spnState st = spDown)
    (hre : (s.stnOf st).recaught = true) : execStopped st s = .next ((s.standing st).spnUnusable st true) :=
  (if_neg hslow.not_gt).trans (if_pos ⟨hst, hre⟩)

theorem execStopped_upToSpn {t : State} (h : execStopped st s = .next t) : s.upToSpn t := by
  have hstand : s.upToSpn (s.standing st) := .of_beyondSpn (s.standing_beyondSpn st)
  unfold execStopped at h
  dsimp only at h
  split_ifs at h <;> obtain rfl := Host.Outcome.next.inj h
  · exact .refl s
  · exact hstand.trans (.of_beyondSpn (State.spnUnusable_beyondSpn _ st true))
  · exact hstand.trans (.of_beyondSpn (by simp -implicitDefEqProofs))
  · exact hstand

end

/-- A spin order that has not been done in time fails. -/
def State.spinLate (s : State) (st : Nat) : State :=
  ((s.spnFault st 0x0A (s.rpm st)).modStn st fun k => { k with orderAt := none, spinAt := none }).spnResult st resFailed

theorem State.spinLate_spec (s : State) (st : Fin 2) :
    (s.spinLate st).get (SPN_CMD_STAT_RESULT st) =
        (if (s.stnOf st).running = true then 4 else s.get (SPN_CMD_STAT_RESULT st)) ∧
      ((s.spinLate st).stnOf st).orderAt = none := by
  constructor
  · simp -implicitDefEqProofs [State.spinLate, State.result_spnResult, resFailed]
  · simp -implicitDefEqProofs [State.spinLate]

theorem State.spinLate_faulted (s : State) (st : Fin 2) : s.spnFaulted st (s.spinLate st) :=
  ⟨s, 0x0A, s.rpm st, rfl, by decide, by simp -implicitDefEqProofs [State.spinLate]⟩

theorem execSpinTmo_late {s : State} {st : Fin 2} {k : Nat} (hk : (s.stnOf st).orderAt = some k)
    (hlate : 1250000 ≤ s.tick - k) : execSpinTmo st s = .next (s.spinLate st) := by
  unfold execSpinTmo
  rw [hk]
  exact if_pos hlate

theorem execSpinTmo_upToSpn {st : Fin 2} {s t : State} (h : execSpinTmo st s = .next t) : s.upToSpn t := by
  unfold execSpinTmo at h
  split at h
  · exact eq_of_row h ▸ .ite (.of_spnFaulted (s.spinLate_faulted st)) (.refl s)
  · obtain rfl := Host.Outcome.next.inj h
    exact .refl s

/-! ### The Ke window (R245) -/

/-- The deviation of a measured constant from its nominal value, in percent. -/
def keDeviation (meas nom : Nat) : Int := if (nom : Int) = 0 then 0 else (100 * ((meas : Int) - nom)).tdiv nom

/-- A Ke window has ended and shows what it measured. -/
def State.keShown (s : State) (st : Nat) : State :=
  (((s.modStn st fun k => { k with keN := 0, keE := 0, keV := 0 }).set (SPN_KE_MEAS st) (s.stnOf st).ke).incWrap
    (SPN_KE_STAT_CHECKS st)).setInt (SPN_KE_STAT_DEV st)
      (max (-128) (min 127 (keDeviation (s.stnOf st).ke (s.get (SPN_KE_NOM st)))))

theorem State.keShown_spec (s : State) (st : Fin 2) :
    (s.keShown st).get (SPN_KE_MEAS st) = (s.stnOf st).ke % ((SPN_KE_MEAS st).top + 1) ∧
      (s.keShown st).get (SPN_KE_STAT_CHECKS st) =
        (s.get (SPN_KE_STAT_CHECKS st) + 1) % ((SPN_KE_STAT_CHECKS st).top + 1) ∧ ((s.keShown st).stnOf st).keN = 0 := by
  refine ⟨?_, ?_, ?_⟩
  · simp -implicitDefEqProofs [State.keShown, State.get_set_here, Fld.top]
  · simp -implicitDefEqProofs [State.keShown, State.get_incWrap_here]
  · simp -implicitDefEqProofs [State.keShown]

theorem execKeCheck_ended {s : State} {st : Fin 2} (hn : 50000 ≤ (s.stnOf st).keN) :
    execKeCheck st s = .next ((s.keShown st).when
      (decide (15 * (s.get (SPN_KE_NOM st) : Int) < (100 * (((s.stnOf st).ke : Int) - s.get (SPN_KE_NOM st))).natAbs))
        fun t => t.spnFault st 6 (unsignedOf 16 (keDeviation (s.stnOf st).ke (s.get (SPN_KE_NOM st))))) := if_pos hn

theorem execKeCheck_upToSpn {st : Fin 2} {s t : State} (h : execKeCheck st s = .next t) : s.upToSpn t := by
  by_cases hn : 50000 ≤ (s.stnOf st).keN
  · have hshown : s.upToSpn (s.keShown st) := .of_beyondSpn (by simp -implicitDefEqProofs [State.keShown])
    rw [execKeCheck_ended hn] at h
    obtain rfl := Host.Outcome.next.inj h
    exact hshown.trans (.when _ (.of_spnFaulted ⟨_, 6, _, rfl, by decide, rfl⟩))
  · obtain rfl := Host.Outcome.next.inj ((if_neg hn).symm.trans h)
    exact .refl s

/-- Settles O22: alignment ends in `State.startRotor_spec` or `State.alignAtZero_spec`, an index in `State.firstIndex_spec` or
`State.strayIndex_spec`, a stop in `State.spnOff_spec` or `State.spnUnusable_spec`; a fault is counted whatever a row writes
beside it (`State.spnFaulted.count`). -/
theorem spindleStartsAndTurns : Obligations.SpindleStartsAndTurns := by
  refine ⟨?found, ?repeated, ?failed, ?first, ?inside, ?outside, ?atSpeed, ?off, ?unusable, ?late, ?ke, ?frame⟩
  case found =>
    intro st slopes s hst hfall hvec hq
    obtain ⟨hangle, hquality⟩ := alignAngle_bounds slopes
    obtain ⟨hstart, hvalid, hat, hsame⟩ :=
      (s.set (SPN_INIT_STAT_QUALITY st) (alignAngle slopes).2).startRotor_spec st (show (alignAngle slopes).1 < 512 by omega)
    refine ⟨_, execAlignDone_found ⟨hst, hfall, hvec⟩ hq, hstart, hvalid, hat, hsame.trans ?_⟩
    rw [State.get_set_here _ _ (by decide) (by decide)]
    exact Nat.mod_eq_of_lt (by omega)
  case repeated =>
    intro st slopes s hst hfall hvec hq hpass
    refine ⟨_, execAlignDone_repeats ⟨hst, hfall, hvec⟩ hq hpass, ?_, ?_⟩
    · simpa -implicitDefEqProofs [State.spnState] using hst
    · simp -implicitDefEqProofs
  case failed =>
    intro st slopes s hst hfall hvec hq hpass
    obtain ⟨hstate, hat, hflag, hangle⟩ := s.alignAtZero_spec st (alignAngle slopes).2
    exact ⟨_, execAlignDone_fallsBack ⟨hst, hfall, hvec⟩ hq hpass, hstate.trans hst, hat, hflag, hangle,
      (s.alignAtZero_faulted st _).count⟩
  case first => exact fun st count s h => ⟨_, execEncoderIndex_first h, s.firstIndex_spec st _⟩
  case inside =>
    intro st count s h hc
    exact ⟨_, execEncoderIndex_inside h hc, State.get_incWrap_here s (by decide) (by decide),
      fun a ha => State.reg_set_apart s _ ha⟩
  case outside =>
    intro st count s h hlo hhi
    obtain ⟨hvalid, hstate, hrevs⟩ := s.strayIndex_spec st count.toNat
    exact ⟨_, execEncoderIndex_outside h hlo hhi, hvalid, hstate, hrevs, (s.strayIndex_faulted st _).count⟩
  case atSpeed =>
    intro st s hst ht hn
    obtain ⟨hflag, hresult, horder, hstate⟩ := s.atTarget_spec st
    exact ⟨s.atTarget st, if_pos ⟨hst, ht, hn⟩, hflag, hresult, horder, hstate.trans hst⟩
  case off =>
    intro st s hslow hst hre
    obtain ⟨hstop, hindexed⟩ := s.standing_spec st
    obtain ⟨hoff, hsrc⟩ := (s.standing st).spnOff_spec st
    refine ⟨_, execStopped_off hslow hst hre, ?_, ?_, ?_, ?_⟩
    · simp -implicitDefEqProofs [State.flag, hstop]
    · simp -implicitDefEqProofs [State.flag, hindexed]
    · exact (State.spnGet_spnResult _ _ (by decide)).trans hoff
    · exact (State.spnGet_spnResult _ _ (by decide)).trans hsrc
  case unusable =>
    intro st s hslow hst hre
    obtain ⟨hstop, hindexed⟩ := s.standing_spec st
    refine ⟨_, execStopped_unusable hslow hst hre, ?_, ?_, ((s.standing st).spnUnusable_spec st true).1⟩
    · simp -implicitDefEqProofs [State.flag, hstop]
    · simp -implicitDefEqProofs [State.flag, hindexed]
  case late =>
    intro st k s hk hlate
    exact ⟨_, execSpinTmo_late hk hlate, (s.spinLate_faulted st).count, s.spinLate_spec st⟩
  case ke =>
    intro st s hn
    obtain ⟨hmeas, hchecks, hwindow⟩ := s.keShown_spec st
    refine ⟨_, execKeCheck_ended hn, ?_, ?_, ?_⟩
    · rw [State.when_get, State.spnGet_spnFault _ _ _ (by decide), ite_self]
      exact hmeas
    · rw [State.when_get, State.spnGet_spnFault _ _ _ (by decide), ite_self]
      exact hchecks
    · rw [State.when_stnOf, State.spnFault_stnOf, ite_self]
      exact hwindow
  case frame =>
    intro st slopes count s t h
    refine State.stays.spnFrame ?_
    rcases h with h | h | h | h | h | h
    · exact execAlignDone_upToSpn h
    · exact execEncoderIndex_upToSpn h
    · exact execAtSpeed_upToSpn h
    · exact execStopped_upToSpn h
    · exact execSpinTmo_upToSpn h
    · exact execKeCheck_upToSpn h

end Sys2Proof.Machine
end

section
/-!
PROOFS of the statements of 05_spindle.md, continued: lost sources, re-catch, and over-currents (O23).
-/

namespace Sys2Proof.Machine

open Sys2Proof

/-! ### Spinning down and coasting -/

theorem State.spinDown_spec (s : State) (st : Fin 2) :
    (s.spinDown st).spnState st = spDown ∧
      (s.spinDown st).stnOf st = { s.stnOf st with orderAt := none, spinAt := none, changedAt := s.tick } := by
  constructor
  · simp -implicitDefEqProofs [State.spnState, State.spinDown, State.spnMask, State.spnSetPoint, State.get_set_here, spDown]
  · simp -implicitDefEqProofs [State.spinDown, State.spnMask, State.spnSetPoint]

@[simp] theorem State.spnGet_spinDown (s : State) {st a h l : Nat} (ht : a ≠ 0x50010) (hs : a ≠ 0x50004) :
    (s.spinDown st).get ⟨a + 0x8000 * st, h, l⟩ = s.get ⟨a + 0x8000 * st, h, l⟩ := by
  simp -implicitDefEqProofs [State.spinDown, State.spnMask, State.spnSetPoint, ht, hs]

@[simp] theorem State.spinDown_beyondSpn (s : State) (st : Fin 2) : (s.spinDown st).beyondSpn = s.beyondSpn := by
  simp -implicitDefEqProofs [State.spinDown, State.spnMask, State.spnSetPoint]

theorem State.spnCoast_spec (s : State) (st : Fin 2) :
    (s.spnCoast st).spnState st = spCoast ∧ (s.spnCoast st).get (SPN_STAT_BRAKE st) = 4 ∧
      (s.spnCoast st).get (SPN_SPEED_TARGET st) = 0 ∧
      (s.spnCoast st).stnOf st = { s.stnOf st with orderAt := none, spinAt := none } := by
  refine ⟨?_, ?_, ?_, ?_⟩
  · simp -implicitDefEqProofs [State.spnState, State.spnCoast, State.bridgeOff, State.get_set_here, spCoast]
  · simp -implicitDefEqProofs [State.spnCoast, State.bridgeOff, State.get_set_here, brCoast]
  · simp -implicitDefEqProofs [State.spnCoast, State.bridgeOff, State.get_set_here, brCoast]
  · simp -implicitDefEqProofs [State.spnCoast, State.bridgeOff]

@[simp] theorem State.spnGet_spnCoast (s : State) {st a h l : Nat} (ha : 0x50000 ≤ a) (ht : a ≠ 0x50010) (hs : a ≠ 0x50004) :
    (s.spnCoast st).get ⟨a + 0x8000 * st, h, l⟩ = s.get ⟨a + 0x8000 * st, h, l⟩ := by
  simp -implicitDefEqProofs [State.spnCoast, State.bridgeOff, ha, ht, hs]

@[simp] theorem State.spnCoast_beyondSpn (s : State) (st : Fin 2) : (s.spnCoast st).beyondSpn = s.beyondSpn := by
  simp -implicitDefEqProofs [State.spnCoast, State.bridgeOff]

@[simp] theorem State.bridgeOff_beyondSpn (s : State) (st : Nat) : (s.bridgeOff st).beyondSpn = s.beyondSpn :=
  State.clearOut_beyondSpn _ _

/-! ### The pickups of a station park (R137, R154) -/

@[simp] theorem State.puPark_beyondPu (s : State) (n : Fin 4) (result : Nat) : (s.puPark n result).beyondPu = s.beyondPu := by
  unfold State.puPark
  split <;> simp -implicitDefEqProofs

@[simp] theorem State.withOut_chn (s : State) (out : Nat) (f : KSlot → KSlot) : (s.withOut out f).chn = s.chn := by
  unfold State.withOut
  split <;> rfl

@[simp] theorem State.clearOut_chn (s : State) (out : Nat) : (s.clearOut out).chn = s.chn := by
  unfold State.clearOut State.clearEn
  split
  · dsimp only
    split <;> rfl
  · rfl

@[simp] theorem State.when_chn (s : State) (b : Bool) (f : State → State) :
    (s.when b f).chn = if b then (f s).chn else s.chn := apply_ite State.chn _ _ _

@[simp] theorem State.sledPark_chn (s : State) (n : Nat) : (s.sledPark n).chn = s.chn := by
  unfold State.sledPark
  split <;> simp -implicitDefEqProofs [State.axMove]

@[simp] theorem State.dropGate_chn (s : State) (n : Nat) : (s.dropGate n).chn = s.chn := by
  simp -implicitDefEqProofs [State.dropGate]

@[simp] theorem State.puPark_chn (s : State) (n result : Nat) : (s.puPark n result).chn = s.chn := by
  unfold State.puPark
  split <;> simp -implicitDefEqProofs [State.puRest, State.endOp, State.releaseSlots, State.setCur, State.lasers]

/-- What a sled's park writes lies behind the words of the pickups. -/
theorem State.reg_sledPark (s : State) (n : Nat) {a : Nat} (ha : a < 0x60000) : (s.sledPark n).reg a = s.reg a := by
  have hset : ∀ (t : State) {b k m : Nat} (v : Nat), 0x60000 ≤ b → (t.set ⟨b, k, m⟩ v).reg a = t.reg a :=
    fun t b k m v hb => State.reg_set_apart t v (by omega)
  have hstat : 0x60000 ≤ AX_STAT n := Nat.le_add_right_of_le (by decide)
  have hctl : 0x60000 ≤ AX_CTL n := Nat.le_add_right_of_le (by decide)
  unfold State.sledPark State.axMove
  split
  · rfl
  · rw [State.reg_when _ _ _ (hset _ _ hstat), hset _ _ hstat, hset _ _ hstat, State.modAx_reg, hset _ _ hctl]

section
variable (s : State) {m n : Nat}

/-- Another field of a pickup's registers than its GATE. -/
theorem State.gate_set {b k l : Nat} (v : Nat) (hl : l ≤ k) (hk : k < 32) (hb : 0x30000 ≤ b) (hb' : b < 0x34000)
    (hd : b ≠ 0x30004 ∨ k < 8 ∨ 8 < l) :
    (s.set ⟨b + 0x4000 * n, k, l⟩ v).get (OPU_STAT_GATE m) = s.get (OPU_STAT_GATE m) :=
  State.get_set_apart s v hl hk (by dsimp only [OPU_STAT]; omega)

theorem State.gate_set_spot {b c k l : Nat} (v : Nat) (hl : l ≤ k) (hk : k < 32) (hb : 0x30004 < b) (hb' : b + c < 0x34000) :
    (s.set ⟨b + 0x4000 * n + c, k, l⟩ v).get (OPU_STAT_GATE m) = s.get (OPU_STAT_GATE m) :=
  State.get_set_apart s v hl hk (by dsimp only [OPU_STAT]; omega)

theorem State.gate_set_axis {b k l : Nat} (v : Nat) (hm : m < 4) (hl : l ≤ k) (hk : k < 32) (hb : 0x60000 ≤ b) :
    (s.set ⟨b + 0x1000 * n, k, l⟩ v).get (OPU_STAT_GATE m) = s.get (OPU_STAT_GATE m) :=
  State.get_set_apart s v hl hk (by dsimp only [OPU_STAT]; omega)

theorem State.gate_endOp (result : Nat) (hm : m < 4) :
    (s.endOp n result).get (OPU_STAT_GATE m) = s.get (OPU_STAT_GATE m) := by
  simp -implicitDefEqProofs [State.endOp, State.gate_set, State.gate_set_axis, hm]

theorem State.gate_dropGate : (s.dropGate n).get (OPU_STAT_GATE n) = 0 := by
  simp -implicitDefEqProofs [State.dropGate, State.get_set_here]

/-- A gate that is down stays down when another drops. -/
theorem State.gate_dropGate_down (h : s.get (OPU_STAT_GATE m) = 0) : (s.dropGate n).get (OPU_STAT_GATE m) = 0 := by
  by_cases hn : m = n
  · rw [hn]
    exact s.gate_dropGate
  · rw [State.dropGate, State.get_set_apart _ _ (by decide) (by decide) (by dsimp only [OPU_STAT]; omega),
      State.when_get, State.modPu_get, ite_self]
    exact h

theorem State.gate_puRest_down (st : Nat) (hm : m < 4) (h : s.get (OPU_STAT_GATE m) = 0) :
    (s.puRest n st).get (OPU_STAT_GATE m) = 0 := by
  have hsled : ∀ t : State, (t.sledPark n).get (OPU_STAT_GATE m) = t.get (OPU_STAT_GATE m) := fun t => by
    simp only [State.get, t.reg_sledPark n (show OPU_STAT m < 0x60000 by dsimp only [OPU_STAT]; omega)]
  simp -implicitDefEqProofs [State.puRest, State.lasers, State.setFlag, State.setCur, State.gate_set, State.gate_set_spot, hsled,
    s.gate_dropGate_down h]

/-- A gate that is down stays down when a pickup parks. -/
theorem State.gate_puPark_down (result : Nat) (hm : m < 4) (h : s.get (OPU_STAT_GATE m) = 0) :
    (s.puPark n result).get (OPU_STAT_GATE m) = 0 := by
  unfold State.puPark
  split
  · exact h
  · exact State.gate_puRest_down _ _ hm ((s.gate_endOp result hm).trans h)

end

/-- The gates of a station's pickups drop, and the pickups park. -/
def State.pickupsParked (s : State) (st : Nat) : State :=
  ((s.dropStationGates st).puPark (2 * st) resAborted).puPark (2 * st + 1) resAborted

theorem State.gate_pickupsParked (s : State) (st : Fin 2) :
    (s.pickupsParked st).get (OPU_STAT_GATE (2 * st)) = 0 ∧ (s.pickupsParked st).get (OPU_STAT_GATE (2 * st + 1)) = 0 := by
  have hfirst : (s.dropStationGates st).get (OPU_STAT_GATE (2 * st)) = 0 := State.gate_dropGate_down _ s.gate_dropGate
  have hsecond : (s.dropStationGates st).get (OPU_STAT_GATE (2 * st + 1)) = 0 := State.gate_dropGate _
  exact ⟨State.gate_puPark_down _ _ (by omega) (State.gate_puPark_down _ _ (by omega) hfirst),
    State.gate_puPark_down _ _ (by omega) (State.gate_puPark_down _ _ (by omega) hsecond)⟩

theorem State.dropStationGates_beyondPu (s : State) (st : Fin 2) : (s.dropStationGates st).beyondPu = s.beyondPu :=
  (State.dropGate_beyondPu _ ⟨2 * st + 1, by omega⟩).trans (State.dropGate_beyondPu s ⟨2 * st, by omega⟩)

theorem State.pickupsParked_beyondPu (s : State) (st : Fin 2) : (s.pickupsParked st).beyondPu = s.beyondPu :=
  (State.puPark_beyondPu _ ⟨2 * st + 1, by omega⟩ _).trans
    ((State.puPark_beyondPu _ ⟨2 * st, by omega⟩ _).trans (s.dropStationGates_beyondPu st))

theorem State.pickupsParked_chn (s : State) (st : Nat) : (s.pickupsParked st).chn = s.chn := by
  simp -implicitDefEqProofs [State.pickupsParked, State.dropStationGates]

@[simp] theorem State.spnGet_pickupsParked (s : State) {st : Fin 2} {a h l : Nat} (ha : 0x50000 ≤ a) (hb : a < 0x58000) :
    (s.pickupsParked st).get ⟨a + 0x8000 * st, h, l⟩ = s.get ⟨a + 0x8000 * st, h, l⟩ := by
  have hreg := reg_of_beyondPu (s.pickupsParked_beyondPu st) (a := a + 0x8000 * st) (by
    simp only [List.mem_cons, List.not_mem_nil, or_false]
    omega)
  simp only [State.get, hreg]

@[simp] theorem State.pickupsParked_stnOf (s : State) (st : Fin 2) (k : Nat) : (s.pickupsParked st).stnOf k = s.stnOf k := by
  rw [eq_of_beyondPu (s.pickupsParked_beyondPu st)]
  rfl

/-! ### What lies beyond a lost rotor -/

/-- The state without what the bridges, the pickups and the sleds write. -/
def State.offBridges (s : State) : State :=
  { s with regs := [], stn := Vector.replicate 2 {}, ce := {}, pu := Vector.replicate 4 {}, ax := Vector.replicate 7 {} }

/-- From `s` to `t` at most what the bridges, the pickups and the sleds write has changed. -/
abbrev State.upToBridges (s t : State) : Prop := s.stays State.offBridges (fun a => a / 0x10000 ∉ [2, 3, 5, 6]) t

/-- The state without that and what the faults write. -/
def State.offRotor (s : State) : State := { s.offBridges with flt := {} }

/-- From `s` to `t` at most that and the faults have changed. -/
abbrev State.upToRotor (s t : State) : Prop := s.stays State.offRotor (outside [2, 3, 5, 6]) t

namespace State.stays

variable {s t : State}

theorem bridges_of_beyondSpn (h : t.beyondSpn = s.beyondSpn) : s.upToBridges t := by
  have hrest : t.beyondSpn.rest.offBridges = s.beyondSpn.rest.offBridges := by rw [h]
  exact ⟨hrest, fun a ha => reg_of_beyondSpn h fun hm => ha ((show [2, 5] ⊆ [2, 3, 5, 6] by decide) hm)⟩

theorem bridges_of_beyondPu (h : t.beyondPu = s.beyondPu) (hchn : t.chn = s.chn) : s.upToBridges t := by
  refine ⟨?_, fun a ha => reg_of_beyondPu h fun hm => ha ((show [2, 3, 6] ⊆ [2, 3, 5, 6] by decide) hm)⟩
  calc t.offBridges = { t.beyondPu.rest.offBridges with chn := t.chn } := rfl
    _ = s.offBridges := by rw [h, hchn]; rfl

theorem rotor_of_upToSpn (h : s.upToSpn t) : s.upToRotor t :=
  h.mono (fun _ => rfl) fun _ ha => ⟨fun hm => ha.1 ((show [2, 5] ⊆ [2, 3, 5, 6] by decide) hm), ha.2⟩

theorem rotor_of_upToBridges (h : s.upToBridges t) : s.upToRotor t := h.mono (fun _ => rfl) fun _ ha => ha.1

theorem rotorFrame (h : s.upToRotor t) :
    t = { s with regs := t.regs, stn := t.stn, ce := t.ce, pu := t.pu, ax := t.ax, flt := t.flt } ∧
      ∀ a, outside [2, 3, 5, 6] a → t.reg a = s.reg a := by
  obtain ⟨hrest, hregs⟩ := h
  refine ⟨?_, hregs⟩
  calc t = { t.offRotor with regs := t.regs, stn := t.stn, ce := t.ce, pu := t.pu, ax := t.ax, flt := t.flt } := rfl
    _ = _ := by rw [hrest]; rfl

end State.stays

/-! ### The rotor is lost (R246) -/

/-- The loss is recorded and the bridge switched off. -/
def State.lossRecorded (s : State) (st : Nat) : State :=
  (((s.spnFault st 5 (s.rpm st)).set (SPN_LOST_STAT_SPEED st) (s.rpm st)).set (SPN_LOST_STAT_OUTCOME st) 0).bridgeOff st

/-- The station waits for a re-catch. -/
def State.recatching (s : State) (st tick : Nat) : State :=
  (((((s.set (SPN_STAT_STATE st) spRecatch).set (SPN_STAT_BRAKE st) brCoast).set (SPN_SPEED_TARGET st) 0).set
    (SPN_STAT_AT_SPEED st) 0).spnResult st resFailed).modStn st fun k =>
    { k with lostAt := tick, orderAt := none, noRecatch := false }

theorem State.rotorLost_eq (s : State) (st : Nat) :
    s.rotorLost st = ((s.lossRecorded st).pickupsParked st).recatching st s.tick := rfl

theorem State.recatching_beyondSpn (s : State) (st : Fin 2) (tick : Nat) : (s.recatching st tick).beyondSpn = s.beyondSpn := by
  simp -implicitDefEqProofs [State.recatching]

theorem State.lossRecorded_faulted (s : State) (st : Fin 2) : s.spnFaulted st (s.lossRecorded st) :=
  ⟨s, 5, s.rpm st, rfl, by decide, by simp -implicitDefEqProofs [State.lossRecorded]⟩

theorem State.recatching_spec (s : State) (st : Fin 2) (tick : Nat) :
    (s.recatching st tick).spnState st = spRecatch ∧ ((s.recatching st tick).stnOf st).lostAt = tick ∧
      (s.recatching st tick).get (SPN_LOST_STAT_SPEED st) = s.get (SPN_LOST_STAT_SPEED st) ∧
      (s.recatching st tick).get (SPN_STAT_BRAKE st) = 4 := by
  refine ⟨?_, ?_, ?_, ?_⟩
  · simp -implicitDefEqProofs [State.spnState, State.recatching, State.get_set_here, spRecatch]
  · simp -implicitDefEqProofs [State.recatching]
  · simp -implicitDefEqProofs [State.recatching]
  · simp -implicitDefEqProofs [State.recatching, State.get_set_here, brCoast]

theorem State.lossRecorded_speed (s : State) (st : Fin 2) :
    (s.lossRecorded st).get (SPN_LOST_STAT_SPEED st) = s.rpm st % ((SPN_LOST_STAT_SPEED st).top + 1) := by
  simp -implicitDefEqProofs [State.lossRecorded, State.bridgeOff, State.get_set_here, Fld.top]

theorem State.rotorLost_spec (s : State) (st : Fin 2) :
    (s.rotorLost st).spnState st = spRecatch ∧ ((s.rotorLost st).stnOf st).lostAt = s.tick ∧
      (s.rotorLost st).get (SPN_LOST_STAT_SPEED st) = s.rpm st % ((SPN_LOST_STAT_SPEED st).top + 1) ∧
      (s.rotorLost st).get (SPN_STAT_BRAKE st) = 4 := by
  obtain ⟨hstate, hat, hspeed, hbrake⟩ := ((s.lossRecorded st).pickupsParked st).recatching_spec st s.tick
  rw [State.rotorLost_eq]
  refine ⟨hstate, hat, ?_, hbrake⟩
  rw [hspeed, State.spnGet_pickupsParked _ (by decide) (by decide), State.lossRecorded_speed]

theorem State.rotorLost_gates (s : State) (st : Fin 2) :
    (s.rotorLost st).flag (OPU_STAT_GATE (2 * st)) = false ∧ (s.rotorLost st).flag (OPU_STAT_GATE (2 * st + 1)) = false := by
  obtain ⟨hfirst, hsecond⟩ := (s.lossRecorded st).gate_pickupsParked st
  have hget : ∀ m, m < 4 → (s.rotorLost st).get (OPU_STAT_GATE m) =
      ((s.lossRecorded st).pickupsParked st).get (OPU_STAT_GATE m) := fun m hm => by
    rw [State.rotorLost_eq, State.get, State.get, reg_of_beyondSpn (State.recatching_beyondSpn _ st _) (by
      simp only [OPU_STAT, List.mem_cons, List.not_mem_nil, or_false]
      omega)]
  rw [State.flag, State.flag, hget _ (by omega), hget _ (by omega), hfirst, hsecond]
  exact ⟨rfl, rfl⟩

theorem State.rotorLost_count (s : State) (st : Fin 2) :
    ((s.rotorLost st).reg (keySrc (0x040 + st) 0)).toNat =
      min 0xFFFFFFFF ((s.reg (keySrc (0x040 + st) 0)).toNat + 1) := by
  rw [State.rotorLost_eq, count_of_beyondSpn (State.recatching_beyondSpn _ st _),
    reg_of_beyondPu (State.pickupsParked_beyondPu _ st) (by
      simp only [keySrc, List.mem_cons, List.not_mem_nil, or_false]
      omega)]
  exact (s.lossRecorded_faulted st).count

theorem State.stays.rotorLost (s : State) (st : Fin 2) : s.upToRotor (s.rotorLost st) := by
  have hparked : (s.lossRecorded st).upToBridges ((s.lossRecorded st).pickupsParked st) :=
    .bridges_of_beyondPu (State.pickupsParked_beyondPu _ st) (State.pickupsParked_chn _ st)
  rw [State.rotorLost_eq]
  exact (rotor_of_upToSpn (.of_spnFaulted (s.lossRecorded_faulted st))).trans
    (rotor_of_upToBridges (hparked.trans (.bridges_of_beyondSpn (State.recatching_beyondSpn _ st _))))

/-! ### Sources that fail (R226, R232, R233) -/

/-- The encoder's amplitude is lost. -/
def State.encDropped (s : State) (st : Nat) : State := ((s.spnFault st 1 0).set (SPN_STAT_ENC_VALID st) 0).refreshSource st

theorem State.encDropped_spec (s : State) (st : Fin 2) :
    (s.encDropped st).flag (SPN_STAT_ENC_VALID st) = false ∧ (s.encDropped st).spnState st = s.spnState st := by
  constructor
  · simp -implicitDefEqProofs [State.flag, State.encDropped, State.get_set_here]
  · simp -implicitDefEqProofs [State.spnState, State.encDropped]

theorem State.encDropped_faulted (s : State) (st : Fin 2) : s.spnFaulted st (s.encDropped st) :=
  ⟨s, 1, 0, rfl, by decide, by simp -implicitDefEqProofs [State.encDropped]⟩

theorem State.reg_refreshSource (s : State) {st a : Nat} (ha : a ≠ SPN_STAT st) : (s.refreshSource st).reg a = s.reg a := by
  unfold State.refreshSource
  dsimp only
  split
  · exact State.reg_set_apart s _ ha
  · rfl

/-- Encoder and observer are apart: counted, and both faults raised. -/
def State.sourcesApart (s : State) (st : Nat) : State :=
  ((s.addSat (SPN_DIS_CNT_DISAGREE st) 1).spnFault st 4 ((s.getInt (SPN_OBS_DIFF st)).natAbs / 10)).spnFault st 3 0

theorem State.sourcesApart_count (s : State) (st : Fin 2) :
    ((s.sourcesApart st).reg (keySrc (0x040 + st) 0)).toNat =
      min 0xFFFFFFFF ((s.reg (keySrc (0x040 + st) 0)).toNat + 2) := by
  have hcounted : (s.addSat (SPN_DIS_CNT_DISAGREE st) 1).beyondSpn = s.beyondSpn := by simp -implicitDefEqProofs
  have hfirst := State.count_raise (s.addSat (SPN_DIS_CNT_DISAGREE st) 1) (src := 0x040 + st) (kind := 4)
    ((s.getInt (SPN_OBS_DIFF st)).natAbs / 10) (by decide)
  rw [State.sourcesApart, State.spnFault, State.count_raise _ _ (by decide), State.spnFault, hfirst,
    count_of_beyondSpn hcounted]
  omega

theorem State.stays.sourcesApart (s : State) (st : Fin 2) : s.upToSpn (s.sourcesApart st) := by
  have hfirst : s.spnFaulted st ((s.addSat (SPN_DIS_CNT_DISAGREE st) 1).spnFault st 4
      ((s.getInt (SPN_OBS_DIFF st)).natAbs / 10)) := ⟨_, 4, _, by simp -implicitDefEqProofs, by decide, rfl⟩
  exact (of_spnFaulted hfirst).trans (of_spnFaulted ⟨_, 3, 0, rfl, by decide, rfl⟩)

/-! ### The re-catch (R246) -/

/-- The station turns again on the back-EMF angle. -/
def State.recaughtNow (s : State) (st : Nat) : State :=
  (((((s.set (SPN_LOST_STAT_OUTCOME st) 1).spinDown st).set (SPN_STAT_SRC st) 3).enableOut (outSpin st)).workMeasured st).modStn
    st fun k => { k with recaught := true }

theorem State.recaughtNow_spec (s : State) (st : Fin 2) :
    (s.recaughtNow st).spnState st = spDown ∧ (s.recaughtNow st).get (SPN_STAT_SRC st) = 3 ∧
      (s.recaughtNow st).get (SPN_LOST_STAT_OUTCOME st) = 1 ∧ ((s.recaughtNow st).stnOf st).recaught = true := by
  have hdown : ((s.set (SPN_LOST_STAT_OUTCOME st) 1).spinDown st).get (SPN_STAT_STATE st) = spDown :=
    (State.spinDown_spec _ st).1
  refine ⟨?_, ?_, ?_, ?_⟩
  · simp -implicitDefEqProofs [State.spnState, State.recaughtNow, State.workMeasured, hdown]
  · simp -implicitDefEqProofs [State.recaughtNow, State.workMeasured, State.get_set_here]
  · simp -implicitDefEqProofs [State.recaughtNow, State.workMeasured, State.get_set_here]
  · simp -implicitDefEqProofs [State.recaughtNow]

theorem State.recaughtNow_beyondSpn (s : State) (st : Fin 2) : (s.recaughtNow st).beyondSpn = s.beyondSpn := by
  simp -implicitDefEqProofs [State.recaughtNow, State.workMeasured]

/-- The three speeds lie near the one at the loss. -/
theorem execRecatchSuccess_near {st : Fin 2} {speeds : Vector (BitVec 16) 3} {agree : BitVec 8} {s : State}
    (hst : s.spnState st = spRecatch) (hre : (s.stnOf st).noRecatch = false) (ht : s.tick - (s.stnOf st).lostAt ≤ 25000)
    (hagree : 8 ≤ agree.toNat)
    (hnear : ∀ i : Fin 3, 95 * s.get (SPN_LOST_STAT_SPEED st) ≤ 100 * speeds[i].toNat ∧
      100 * speeds[i].toNat ≤ 105 * s.get (SPN_LOST_STAT_SPEED st)) :
    execRecatchSuccess st speeds agree s = .next (s.recaughtNow st) := by
  refine if_pos ⟨?_, hagree, hst, hre, ht⟩
  refine List.all_eq_true.mpr fun w hw => ?_
  obtain ⟨i, hi, rfl⟩ := Vector.mem_iff_getElem.mp (Vector.mem_toList_iff.mp hw)
  simpa using hnear ⟨i, hi⟩

/-! ### The rows -/

/-- A short brake that has brought the rotor to rest: the station stays UNUSABLE. -/
def State.shortEnded (s : State) (st : Nat) : State := (s.set (SPN_LOST_STAT_OUTCOME st) 2).spnUnusable st true

theorem State.shortEnded_spec (s : State) (st : Fin 2) :
    (s.shortEnded st).spnState st = spUnusable ∧ (s.shortEnded st).get (SPN_LOST_STAT_OUTCOME st) = 2 ∧
      ((s.shortEnded st).stnOf st).forGood = true := by
  obtain ⟨hstate, hgood⟩ := (s.set (SPN_LOST_STAT_OUTCOME st) 2).spnUnusable_spec st true
  refine ⟨hstate, ?_, hgood.trans (Bool.true_or _)⟩
  simp -implicitDefEqProofs [State.shortEnded, State.get_set_here]

/-- The fault of an over-current, with the bridge off. -/
def State.tripped (s : State) (st leg : Nat) : State := (s.spnFault st 9 leg).bridgeOff st

theorem State.tripped_faulted (s : State) (st : Fin 2) (leg : Nat) {t : State}
    (h : t.beyondSpn = (s.tripped st leg).beyondSpn) : s.spnFaulted st t :=
  ⟨s, 9, leg, rfl, by decide, h.trans (State.bridgeOff_beyondSpn _ st)⟩

theorem State.tripped_spec (s : State) (st : Fin 2) (leg : Nat) :
    (s.tripped st leg).get (SPN_CMD_STAT_RESULT st) = s.get (SPN_CMD_STAT_RESULT st) ∧
      (s.tripped st leg).stnOf st = s.stnOf st := by
  constructor <;> simp -implicitDefEqProofs [State.tripped, State.bridgeOff]

section
variable {s : State} {st : Fin 2} {leg : Fin 3}

theorem execSpnOvercurrent_turning (h : s.spnState st = spRun ∨ s.spnState st = spDown ∨ s.spnState st = spStart) :
    execSpnOvercurrent st leg s = .next (((s.tripped st leg).spnCoast st).spnResult st resFailed) := if_pos h

theorem execSpnOvercurrent_align (h : s.spnState st = spAlign) :
    execSpnOvercurrent st leg s = .next (((s.tripped st leg).spnOff st).spnResult st resFailed) :=
  (if_neg (by simp [h])).trans (if_pos h)

theorem execSpnOvercurrent_upToSpn {t : State} (h : execSpnOvercurrent st leg s = .next t) : s.upToSpn t := by
  unfold execSpnOvercurrent at h
  dsimp only at h
  split_ifs at h <;> obtain rfl := Host.Outcome.next.inj h <;>
    exact .of_spnFaulted (s.tripped_faulted st leg (by simp -implicitDefEqProofs [State.tripped]))

end

/-- Settles O23: a failing source is dropped and counted (`State.encDropped_spec`, `State.sourcesApart_count`); a lost rotor is
recorded, parks the pickups and waits (`State.rotorLost_spec`, `State.rotorLost_gates`); a re-catch, a short brake and an
over-current end in `State.recaughtNow_spec`, `State.shortEnded_spec`, and `State.spnCoast_spec` or `State.spnOff_spec`. -/
theorem rotorLossAndCurrentTrips : Obligations.RotorLossAndCurrentTrips := by
  refine ⟨?encoder, ?observer, ?disagree, ?lost, ?recatch, ?timeout, ?short, ?shortEnd, ?turning, ?align, ?frame⟩
  case encoder =>
    intro st s hamp
    obtain ⟨hvalid, hstate⟩ := s.encDropped_spec st
    exact ⟨s.encDropped st, if_neg hamp.not_gt, hvalid, (s.encDropped_faulted st).count, hstate⟩
  case observer =>
    intro st s hres
    refine ⟨_, if_neg hres.not_gt, ?_, fun a ha => ?_⟩
    · simp -implicitDefEqProofs [State.flag, State.get_set_here]
    · rw [State.reg_refreshSource _ ha, State.reg_set_apart _ _ ha]
  case disagree =>
    intro st s henc hobs hdis
    refine ⟨s.sourcesApart st, if_pos ⟨henc, hobs, hdis⟩, ?_, s.sourcesApart_count st⟩
    simp -implicitDefEqProofs [State.sourcesApart, State.get_addSat_here, Fld.top]
  case lost =>
    intro st s hst hsrc
    obtain ⟨hstate, hat, hspeed, hbrake⟩ := s.rotorLost_spec st
    obtain ⟨hfirst, hsecond⟩ := s.rotorLost_gates st
    exact ⟨_, if_pos ⟨hst, hsrc⟩, hstate, hat, hspeed, hbrake, hfirst, hsecond, s.rotorLost_count st⟩
  case recatch =>
    exact fun st speeds agree s hst hre ht hagree hnear =>
      ⟨_, execRecatchSuccess_near hst hre ht hagree hnear, s.recaughtNow_spec st⟩
  case timeout =>
    intro st s hst ht
    refine ⟨_, if_pos ⟨hst, ht⟩, ?_, ?_⟩
    · simpa -implicitDefEqProofs [State.spnState, State.bridgeOff] using hst
    · simp -implicitDefEqProofs
  case short =>
    intro st s hst ht
    refine ⟨_, if_pos ⟨hst, ht⟩, ?_, ?_, fun a ha => ?_⟩
    · simp -implicitDefEqProofs [State.spnState, State.get_set_here, spShort]
    · simp -implicitDefEqProofs [State.get_set_here, brShort]
    · rw [State.reg_set_apart _ _ ha, State.reg_set_apart _ _ ha]
  case shortEnd => exact fun st s hst hslow => ⟨_, if_pos ⟨hst, hslow⟩, s.shortEnded_spec st⟩
  case turning =>
    intro st leg s hst
    obtain ⟨hcoast, hbrake, htarget, hk⟩ := (s.tripped st leg).spnCoast_spec st
    obtain ⟨hresult, hrun⟩ := s.tripped_spec st leg
    refine ⟨_, execSpnOvercurrent_turning hst, ?_, ?_, ?_, ?_, ?_⟩
    · exact (State.spnGet_spnResult _ _ (by decide)).trans hcoast
    · exact (State.spnGet_spnResult _ _ (by decide)).trans hbrake
    · exact (State.spnGet_spnResult _ _ (by decide)).trans htarget
    · rw [State.result_spnResult _ _ (by decide), hk, hrun,
        State.spnGet_spnCoast _ (by decide) (by decide) (by decide), hresult]
    · exact (s.tripped_faulted st leg (by simp -implicitDefEqProofs)).count
  case align =>
    intro st leg s hst
    obtain ⟨hoff, -⟩ := (s.tripped st leg).spnOff_spec st
    obtain ⟨hresult, hrun⟩ := s.tripped_spec st leg
    refine ⟨_, execSpnOvercurrent_align hst, ?_, ?_, ?_⟩
    · exact (State.spnGet_spnResult _ _ (by decide)).trans hoff
    · rw [State.result_spnResult _ _ (by decide), State.spnOff_stnOf, hrun,
        State.spnGet_spnOff _ (by decide) (by decide) (by decide), hresult]
    · exact (s.tripped_faulted st leg (by simp -implicitDefEqProofs)).count
  case frame =>
    intro st leg speeds agree s t h
    have hrow : ∀ {c : Prop} [Decidable c] {u : State}, s.upToSpn u →
        (if c then Host.Outcome.next u else Host.Outcome.next s : Out) = .next t → s.upToRotor t :=
      fun hu h => .rotor_of_upToSpn (eq_of_row h ▸ .ite hu (.refl s))
    refine State.stays.rotorFrame ?_
    rcases h with h | h | h | h | h | h | h | h | h
    · exact .rotor_of_upToSpn (eq_of_row h ▸ .ite (.refl s) (.of_spnFaulted (s.encDropped_faulted st)))
    · exact .rotor_of_upToSpn (eq_of_row h ▸ .ite (.refl s) (.of_beyondSpn (by simp -implicitDefEqProofs)))
    · exact hrow (.sourcesApart s st) h
    · exact eq_of_row h ▸ .ite (.rotorLost s st) (.refl s)
    · exact hrow (.of_beyondSpn (s.recaughtNow_beyondSpn st)) h
    · exact hrow (.of_beyondSpn (by simp -implicitDefEqProofs)) h
    · exact hrow (.of_beyondSpn (by simp -implicitDefEqProofs)) h
    · exact hrow (.of_beyondSpn (by simp -implicitDefEqProofs)) h
    · exact .rotor_of_upToSpn (execSpnOvercurrent_upToSpn h)

end Sys2Proof.Machine
end

section
/-!
PROOFS of the statements of 05_spindle.md, continued: VBUS, the chopper, the input and the rails (O24).
-/

namespace Sys2Proof.Machine

open Sys2Proof

/-! ### Words and records beside events and faults of the power block -/

theorem State.reg_pwrFault (s : State) (kind arg : Nat) {a : Nat} (ha : ¬ faultWord a) :
    (s.pwrFault kind arg).reg a = s.reg a := by
  simp only [faultWord, inBlock] at ha
  exact State.reg_raise_other s (by dsimp only [keySrc]; omega) (by dsimp only [FLT_FB]; omega)

theorem State.get_of_reg {s t : State} {f : Fld} (h : t.reg f.addr = s.reg f.addr) : t.get f = s.get f := by
  rw [State.get, State.get, h]

theorem State.reg_of_regs {s t : State} (h : t.regs = s.regs) (a : Nat) : t.reg a = s.reg a := by
  rw [State.reg, State.reg, h]

theorem State.get_pwrFault (s : State) (kind arg : Nat) {f : Fld} (hf : ¬ faultWord f.addr) :
    (s.pwrFault kind arg).get f = s.get f := by
  simp only [State.get, State.reg_pwrFault s kind arg hf]

/-- A fault of the power block is counted. -/
theorem State.count_pwrFault {s t : State} {kind : Nat} (arg : Nat) (hk : kind ≠ 0x3F)
    (h : t.reg (keySrc 0x0C0 0) = s.reg (keySrc 0x0C0 0)) :
    ((t.pwrFault kind arg).reg (keySrc 0x0C0 0)).toNat = min 0xFFFFFFFF ((s.reg (keySrc 0x0C0 0)).toNat + 1) :=
  h ▸ State.count_raise t arg hk

theorem State.get_vbusEvent (s : State) (row v : Nat) {f : Fld} (hf : f.addr ≠ OWL_STAT) :
    (s.vbusEvent row v).get f = s.get f := by
  simp only [State.get, State.vbusEvent, State.reg_capture s _ _ _ hf]

@[simp] theorem State.pwrFault_pwr (s : State) (kind arg : Nat) : (s.pwrFault kind arg).pwr = s.pwr := by
  obtain ⟨_, _, h⟩ := State.upToFaults.raise s 0x0C0 kind arg
  rw [State.pwrFault, h]

@[simp] theorem State.vbusEvent_pwr (s : State) (row v : Nat) : (s.vbusEvent row v).pwr = s.pwr := by
  obtain ⟨_, _, h⟩ := State.upToOwl.capture s evVbus 0 (BitVec.ofNat 32 (row + 65536 * v))
  rw [State.vbusEvent, h]

theorem State.reg_setBand (s : State) (v : Nat) {a : Nat} (ha : a ≠ PWR_STAT) : (s.setBand v).reg a = s.reg a :=
  State.reg_set_apart s _ ha

/-- BAND alone of PWR_STAT. -/
theorem State.get_setBand (s : State) (v : Nat) {f : Fld} (hf : f.apart PWR_STAT_BAND) : (s.setBand v).get f = s.get f :=
  State.get_set_other s _ (by decide) hf

theorem State.band_setBand (s : State) {v : Nat} (hv : 820 ≤ v) :
    (s.setBand v).get PWR_STAT_BAND = if 900 ≤ v then 6 else 5 := by
  rw [State.setBand, State.get_set_here _ _ (by decide) (by decide), if_pos hv]
  split <;> rfl

/-! ### Steps of the power block -/

/-- The state without what the power block, its events and its faults write. -/
def State.offPwr (s : State) : State := { s with regs := [], pwr := {}, flt := {}, owl := {} }

/-- From `s` to `t` at most what the power block, its events and its faults write has changed. -/
abbrev State.upToPwr (s t : State) : Prop := s.stays State.offPwr (outside [0x11, 0x16]) t

namespace State.stays

variable {s t : State}

theorem pwrReg (s : State) {f : Fld} (v : Nat) (hf : f.addr / 0x10000 ∈ [0x11, 0x16]) : s.upToPwr (s.set f v) :=
  ⟨rfl, fun _ ha => State.reg_set_other s v fun h => ha.1 (h ▸ hf)⟩

theorem pwrRecord (s : State) (x : PwrSt) : s.upToPwr { s with pwr := x } := ⟨rfl, fun _ _ => rfl⟩

theorem pwrFault (s : State) (kind arg : Nat) : s.upToPwr (s.pwrFault kind arg) :=
  raise s (fun _ _ => rfl) (fun _ ha => ha.2) (by decide)

theorem vbusEvent (s : State) (row v : Nat) : s.upToPwr (s.vbusEvent row v) := by
  refine ⟨?_, fun a ha => State.reg_capture s _ _ _ fun h => ha.1 (h ▸ by decide)⟩
  obtain ⟨_, _, h⟩ := State.upToOwl.capture s evVbus 0 (BitVec.ofNat 32 (row + 65536 * v))
  rw [State.vbusEvent, h]
  rfl

theorem vbusEvents (s : State) (rows : List Nat) (v : Nat) :
    s.upToPwr (rows.foldl (fun (t : State) r => t.vbusEvent r v) s) := by
  induction rows generalizing s with
  | nil => exact refl s
  | cons r rows ih => exact (vbusEvent s r v).trans (ih _)

theorem setBand (s : State) (v : Nat) : s.upToPwr (s.setBand v) := pwrReg s _ (by decide)

theorem uvWarn (s : State) (v : Nat) : s.upToPwr (s.uvWarn v) := by
  have hwarn : s.upToPwr ((s.set PWR_STAT_UV_WARN 1).addSat PWR_CNT_UV_WARNS 1) :=
    (pwrReg s 1 (by decide)).trans (pwrReg _ _ (by decide))
  exact .ite (hwarn.trans ((vbusEvent _ _ _).trans (pwrFault _ _ _))) (.ite (pwrReg s 0 (by decide)) (.refl s))

theorem brkFault (s : State) (arg : Nat) : s.upToPwr (s.brkFault arg) :=
  .ite (.refl s) ((pwrReg s 1 (by decide)).trans ((pwrReg _ 0 (by decide)).trans (pwrFault _ _ _)))

theorem pwr_get (h : s.upToPwr t) {f : Fld} (hf : outside [0x11, 0x16] f.addr) : t.get f = s.get f := by
  simp only [State.get, h.2 _ hf]

theorem pwr_sys (h : s.upToPwr t) : t.sys = s.sys := by
  rw [show t.sys = t.offPwr.sys from rfl, h.1]
  rfl

theorem pwrFrame (h : s.upToPwr t) :
    t = { s with regs := t.regs, pwr := t.pwr, flt := t.flt, owl := t.owl } ∧
      ∀ a, outside [0x11, 0x16] a → t.reg a = s.reg a := by
  obtain ⟨hrest, hregs⟩ := h
  refine ⟨?_, hregs⟩
  calc t = { t.offPwr with regs := t.regs, pwr := t.pwr, flt := t.flt, owl := t.owl } := rfl
    _ = _ := by rw [hrest]; rfl

end State.stays

/-! ### Thresholds of VBUS (R250, R615) -/

/-- VBUS and the row in force are shown. -/
def State.vbusShown (s : State) (v z : Nat) : State := { s.set PWR_VBUS_VBUS v with pwr := { s.pwr with zone := z } }

theorem State.stays.vbusShown (s : State) (v z : Nat) : s.upToPwr (s.vbusShown v z) :=
  (pwrReg s v (by decide)).trans (pwrRecord _ _)

theorem State.reg_vbusShown (s : State) (v z : Nat) {a : Nat} (ha : a ≠ PWR_VBUS) : (s.vbusShown v z).reg a = s.reg a :=
  State.reg_set_apart s v ha

theorem State.get_vbusShown (s : State) (v z : Nat) {f : Fld} (hf : f.addr ≠ PWR_VBUS) :
    (s.vbusShown v z).get f = s.get f := by
  simp only [State.get, State.reg_vbusShown s v z hf]

theorem State.vbus_vbusShown (s : State) (v : BitVec 16) (z : Nat) : (s.vbusShown v.toNat z).get PWR_VBUS_VBUS = v.toNat :=
  (State.get_set_here s _ (by decide) (by decide)).trans (Nat.mod_eq_of_lt v.isLt)

/-- An entry into the 82 V row is counted and raised. -/
def State.over82 (s : State) : State := (s.addSat PWR_CNT_OV_82 1).pwrFault 5 0

/-- PWR_STAT follows VBUS. -/
def State.statShown (s : State) (v : Nat) : State := ((s.uvWarn v).setFlag PWR_STAT_BRK_ON s.chopperOn).setBand v

theorem execVbusThreshold_eq (vbus : BitVec 16) (s : State) :
    execVbusThreshold vbus s = .next ((((rowsCrossed s.pwr.zone (brakeZone s.pwr.zone vbus.toNat)).foldl
      (fun (t : State) r => t.vbusEvent r vbus.toNat) (s.vbusShown vbus.toNat (brakeZone s.pwr.zone vbus.toNat))).when
        (decide (s.pwr.zone < 4 ∧ brakeZone s.pwr.zone vbus.toNat = 4)) State.over82).statShown vbus.toNat) := rfl

theorem execVbusThreshold_upToPwr {vbus : BitVec 16} {s t : State} (h : execVbusThreshold vbus s = .next t) : s.upToPwr t := by
  have hover : ∀ u : State, u.upToPwr u.over82 := fun u => (State.stays.pwrReg u _ (by decide)).trans (.pwrFault _ _ _)
  have hstat : ∀ u : State, u.upToPwr (u.statShown vbus.toNat) := fun u =>
    (State.stays.uvWarn u _).trans ((State.stays.pwrReg _ _ (by decide)).trans (.setBand _ _))
  rw [execVbusThreshold_eq] at h
  obtain rfl := Host.Outcome.next.inj h
  exact (State.stays.vbusShown s _ _).trans ((State.stays.vbusEvents _ _ _).trans ((State.stays.when _ (hover _)).trans (hstat _)))

/-- Above the UV warning's threshold PWR_STAT alone changes. -/
theorem State.statShown_spec (s : State) {v : Nat} (hv : 340 < v) :
    (∀ a, a ≠ PWR_STAT → (s.statShown v).reg a = s.reg a) ∧ (s.statShown v).pwr = s.pwr ∧ (s.statShown v).owl = s.owl := by
  have huv : s.uvWarn v = if 350 ≤ v then s.set PWR_STAT_UV_WARN 0 else s := if_neg (by omega)
  rw [State.statShown, huv]
  refine ⟨fun a ha => ?_, ?_, ?_⟩
  · rw [State.reg_setBand _ _ ha, State.setFlag, State.reg_set_apart _ _ ha]
    split
    · exact State.reg_set_apart s 0 ha
    · rfl
  · split <;> rfl
  · split <;> rfl

theorem State.get_statShown (s : State) {v : Nat} (hv : 340 < v) {f : Fld} (hf : f.addr ≠ PWR_STAT) :
    (s.statShown v).get f = s.get f := by
  simp only [State.get, (s.statShown_spec hv).1 _ hf]

/-- Between 34 V and 76 V no row is crossed. -/
theorem execVbusThreshold_normal {vbus : BitVec 16} {s : State} (hz : s.pwr.zone = 0) (hv : vbus.toNat < 760) :
    execVbusThreshold vbus s = .next ((s.vbusShown vbus.toNat 0).statShown vbus.toNat) := by
  have hzone : brakeZone 0 vbus.toNat = 0 := by
    rw [brakeZone, if_neg (by omega), if_neg (by omega), if_neg (by omega), if_neg (by omega)]
  rw [execVbusThreshold_eq, hz, hzone]
  rfl

/-- From 78 V the 82 V row is entered. -/
theorem execVbusThreshold_over {vbus : BitVec 16} {s : State} (hz : s.pwr.zone = 3) (hv : 820 ≤ vbus.toNat) :
    execVbusThreshold vbus s =
      .next (((s.vbusShown vbus.toNat 4).vbusEvent 6 vbus.toNat).over82.statShown vbus.toNat) := by
  have hzone : brakeZone 3 vbus.toNat = 4 := if_pos (.inl hv)
  rw [execVbusThreshold_eq, hz, hzone]
  rfl

theorem State.over82_spec (s : State) :
    s.over82.get PWR_CNT_OV_82 = min PWR_CNT_OV_82.top (s.get PWR_CNT_OV_82 + 1) ∧ s.over82.pwr = s.pwr ∧
      (s.over82.reg (keySrc 0x0C0 0)).toNat = min 0xFFFFFFFF ((s.reg (keySrc 0x0C0 0)).toNat + 1) ∧
      s.over82.get PWR_VBUS_VBUS = s.get PWR_VBUS_VBUS := by
  refine ⟨?_, ?_, State.count_pwrFault 0 (by decide) (State.reg_addSat_other s 1 (by decide)), ?_⟩
  · rw [State.over82, State.get_pwrFault _ _ _ (by decide), State.get_addSat_same _ _ (by decide)]
  · rw [State.over82, State.pwrFault_pwr, State.addSat_pwr]
  · rw [State.over82, State.get_pwrFault _ _ _ (by decide), State.get_addSat_other _ _ (by decide) (by decide)]

/-! ### Every bridge off (R250, R625) -/

namespace State.stays

variable {s t : State}

theorem bridgesReg (s : State) {f : Fld} (v : Nat) (hf : f.addr / 0x10000 ∈ [2, 3, 5, 6]) : s.upToBridges (s.set f v) :=
  ⟨rfl, fun _ ha => State.reg_set_other s v fun h => ha (h ▸ hf)⟩

theorem bridges_sys (h : s.upToBridges t) : t.sys = s.sys := by
  rw [show t.sys = t.offBridges.sys from rfl, h.1]
  rfl

theorem axOff (s : State) {a : Nat} (ha : a < 7) : s.upToBridges (s.axOff a) := by
  have hblock : ∀ b, b < 0x1000 → (0x60000 + b + 0x1000 * a) / 0x10000 ∈ [2, 3, 5, 6] := fun b hb => by
    simp only [List.mem_cons, List.not_mem_nil, or_false]
    omega
  have hrec : ∀ f, s.upToBridges (s.modAx a f) := fun f => ⟨rfl, fun _ _ => rfl⟩
  exact (hrec _).trans ((bridgesReg _ _ (hblock 4 (by decide))).trans ((bridgesReg _ _ (hblock 4 (by decide))).trans
    (bridgesReg _ _ (hblock 0x14 (by decide)))))

end State.stays

/-- The hardware path takes a station's bridge off. -/
def State.stationOff (s : State) (st : Nat) : State :=
  if s.spnState st = spAlign then s.spnOff st
  else if s.spnState st = spStart ∨ s.spnState st = spRun ∨ s.spnState st = spDown then (s.dropStationGates st).spnCoast st
  else s

theorem State.stays.stationOff (s : State) (st : Fin 2) : s.upToBridges (s.stationOff st) := by
  have hgates : s.upToBridges (s.dropStationGates st) :=
    .bridges_of_beyondPu (s.dropStationGates_beyondPu st) (by simp -implicitDefEqProofs [State.dropStationGates])
  exact .ite (.bridges_of_beyondSpn (s.spnOff_beyondSpn st))
    (.ite (hgates.trans (.bridges_of_beyondSpn (State.spnCoast_beyondSpn _ st))) (.refl s))

/-- The bridges of the stations and of the axes are off. -/
def State.bridgesDown (s : State) : State := (List.range 7).foldl (fun (t : State) a => t.axOff a) ((s.stationOff 0).stationOff 1)

/-- Nothing is driven. -/
def State.driveNothing (s : State) : State := { s with ce := { s.ce with outs := [] }, sys := { s.sys with bridgesOff := true } }

theorem State.driveNothing_reg (s : State) (a : Nat) : s.driveNothing.reg a = s.reg a := rfl

theorem State.allBridgesOff_eq (s : State) : s.allBridgesOff = s.bridgesDown.driveNothing := rfl

theorem State.stays.bridgesDown (s : State) : s.upToBridges s.bridgesDown := by
  have haxes : ∀ (l : List Nat) (u : State), (∀ a ∈ l, a < 7) → u.upToBridges (l.foldl (fun (t : State) a => t.axOff a) u) := by
    intro l
    induction l with
    | nil => exact fun u _ => refl u
    | cons a l ih =>
      intro u ha
      rw [List.foldl_cons]
      exact (axOff u (ha a List.mem_cons_self)).trans (ih _ fun b hb => ha b (List.mem_cons_of_mem a hb))
  exact (stationOff s 0).trans ((stationOff _ 1).trans (haxes _ _ fun a ha => List.mem_range.mp ha))

theorem State.allBridgesOff_spec (s : State) :
    (∀ a, a / 0x10000 ∉ [2, 3, 5, 6] → s.allBridgesOff.reg a = s.reg a) ∧
      s.allBridgesOff.sys = { s.sys with bridgesOff := true } ∧ s.allBridgesOff.ce.outs = [] := by
  have hdown := State.stays.bridgesDown s
  rw [State.allBridgesOff_eq, ← hdown.bridges_sys]
  exact ⟨fun a ha => (State.driveNothing_reg _ a).trans (hdown.2 a ha), rfl, rfl⟩

/-- VBUS at 90 V or more, before the bridges go off. -/
def State.vbusHigh (s : State) (v : Nat) : State := (((s.vbusShown v 4).vbusEvent 7 v).setBand v).pwrFault 5 1

theorem State.stays.vbusHigh (s : State) (v : Nat) : s.upToPwr (s.vbusHigh v) :=
  (vbusShown s v 4).trans ((vbusEvent _ 7 v).trans ((setBand _ v).trans (pwrFault _ 5 1)))

theorem State.vbusHigh_spec (s : State) {v : Nat} (hv : 900 ≤ v) :
    (s.vbusHigh v).get PWR_STAT_BAND = 6 ∧
      ((s.vbusHigh v).reg (keySrc 0x0C0 0)).toNat = min 0xFFFFFFFF ((s.reg (keySrc 0x0C0 0)).toNat + 1) := by
  constructor
  · rw [State.vbusHigh, State.get_pwrFault _ _ _ (by decide), State.band_setBand _ (by omega), if_pos hv]
  · refine State.count_pwrFault 1 (by decide) ?_
    rw [State.reg_setBand _ _ (by decide), State.vbusEvent, State.reg_capture _ _ _ _ (by decide),
      State.reg_vbusShown _ _ _ (by decide)]

theorem execVbus90v_high {vbus : BitVec 16} {s : State} (hv : 900 ≤ vbus.toNat) :
    execVbus90v vbus s = .next ((s.vbusHigh vbus.toNat).allBridgesOff.orderSafeStop 6) := if_pos hv

/-- An order of SAFE_STOP that is heeded shows in the sequencer's record alone. -/
theorem orderSafeStop_spec {s : State} {cause : Nat} (hm : s.mode = modeServe) (hw : s.get UPD_STAT_STATE ≠ 5)
    (hd : s.sys.safeStopDue = none) :
    (s.orderSafeStop cause).sys = { s.sys with safeStopDue := some cause } ∧ (s.orderSafeStop cause).ce = s.ce ∧
      (s.orderSafeStop cause).regs = s.regs := by
  rw [orderSafeStop_due (by rw [hm]; decide) hw hd]
  exact ⟨rfl, rfl, rfl⟩

/-- With the bridges off SAFE_STOP falls due as before. -/
theorem orderSafeStop_of_bridgesOff {s : State} {cause : Nat} (hm : s.mode = modeServe) (hw : s.get UPD_STAT_STATE ≠ 5)
    (hd : s.sys.safeStopDue = none) :
    (s.allBridgesOff.orderSafeStop cause).sys = { s.sys with bridgesOff := true, safeStopDue := some cause } ∧
      (s.allBridgesOff.orderSafeStop cause).ce.outs = [] ∧
      ∀ a, a / 0x10000 ∉ [2, 3, 5, 6] → (s.allBridgesOff.orderSafeStop cause).reg a = s.reg a := by
  obtain ⟨hregs, hsys, houts⟩ := s.allBridgesOff_spec
  generalize s.allBridgesOff = u at hregs hsys houts ⊢
  have hmode : u.mode = modeServe := (State.get_of_reg (hregs _ (by decide))).trans hm
  have hwriting : u.get UPD_STAT_STATE ≠ 5 := by rwa [State.get_of_reg (hregs _ (by decide))]
  obtain ⟨osys, oce, oregs⟩ := orderSafeStop_spec (cause := cause) hmode hwriting (by rw [hsys]; exact hd)
  refine ⟨by rw [osys, hsys], by rw [oce, houts], fun a ha => ?_⟩
  rw [State.reg_of_regs oregs, hregs a ha]

/-! ### UVLO (R253) -/

/-- UVLO is latched, with its event and its fault. -/
def State.uvloLatched (s : State) (v : Nat) : State :=
  (((((s.set PWR_VBUS_VBUS v).uvWarn v).set PWR_STAT_UVLO 1).setBand v).vbusEvent 1 v).pwrFault 4 v

theorem State.stays.uvloLatched (s : State) (v : Nat) : s.upToPwr (s.uvloLatched v) :=
  (pwrReg s v (by decide)).trans ((uvWarn _ v).trans ((pwrReg _ 1 (by decide)).trans
    ((setBand _ v).trans ((vbusEvent _ 1 v).trans (pwrFault _ 4 v)))))

/-- A one-bit field that is not 0 is 1. -/
theorem State.get_of_flag_ne_false {s : State} {f : Fld} (h : s.flag f ≠ false) : s.get f = 1 := by
  simpa [State.flag] using h

/-- At 34 V or below the UV warning stands. -/
theorem State.uvWarn_warns (s : State) {v : Nat} (hv : v ≤ 340) : (s.uvWarn v).get PWR_STAT_UV_WARN = 1 := by
  unfold State.uvWarn
  by_cases h : s.flag PWR_STAT_UV_WARN = false
  · rw [if_pos ⟨hv, h⟩, State.get_pwrFault _ _ _ (by decide), State.get_vbusEvent _ _ _ (by decide),
      State.get_addSat_other _ _ (by decide) (by decide), State.get_set_here _ _ (by decide) (by decide)]
    rfl
  · rw [if_neg (fun hc => h hc.2), if_neg (by omega)]
    exact State.get_of_flag_ne_false h

theorem State.uvloLatched_spec (s : State) {v : Nat} (hv : v ≤ 340) :
    (s.uvloLatched v).get PWR_STAT_UVLO = 1 ∧ (s.uvloLatched v).get PWR_STAT_UV_WARN = 1 := by
  have hlatch : ∀ {f : Fld}, f.addr = PWR_STAT → f.apart PWR_STAT_BAND →
      (s.uvloLatched v).get f = (((s.set PWR_VBUS_VBUS v).uvWarn v).set PWR_STAT_UVLO 1).get f := fun hf hd => by
    rw [State.uvloLatched, State.get_pwrFault _ _ _ (by rw [hf]; decide), State.get_vbusEvent _ _ _ (by rw [hf]; decide),
      State.get_setBand _ _ hd]
  constructor
  · rw [hlatch rfl (by decide), State.get_set_here _ _ (by decide) (by decide)]
    rfl
  · rw [hlatch rfl (by decide), State.get_set_apart _ _ (by decide) (by decide) (by decide), State.uvWarn_warns _ hv]

/-- Both stations enter hold-up where they turn. -/
def State.heldUp (s : State) : State := (s.holdUp 0).holdUp 1

/-- The Owl's flush falls due where the watchdog of Jack is armed. -/
def State.flushOrdered (s : State) : State := { s with owl := { s.owl with flushDue := s.sys.wdogArmed, flushed := false } }

theorem State.flushOrdered_get (s : State) (f : Fld) : s.flushOrdered.get f = s.get f := rfl

theorem execUvlo_latches {vbus : BitVec 16} {s : State} (hv : vbus.toNat ≤ 310) (hu : s.flag PWR_STAT_UVLO = false) :
    execUvlo vbus s = .next ((s.uvloLatched vbus.toNat).orderSafeStop 7).heldUp.flushOrdered := if_pos ⟨hv, hu⟩

theorem State.holdUp_regs (s : State) (st : Nat) : (s.holdUp st).regs = s.regs ∧ (s.holdUp st).sys = s.sys := by
  unfold State.holdUp
  split <;> exact ⟨rfl, rfl⟩

/-- A station in RUN is held up, whatever the other one does. -/
theorem State.heldUp_first {s : State} (h : s.spnState 0 = spRun) : (s.heldUp.stnOf 0).holdup = true := by
  have hfirst : ((s.holdUp 0).stnOf 0).holdup = true := by
    rw [State.holdUp, if_pos (.inl h)]
    exact congrArg StnSt.holdup (State.modStn_stnOf s 0 _)
  have hother : ∀ (u : State) f, (u.modStn 1 f).stnOf 0 = u.stnOf 0 := fun u f => by
    rw [State.modStn, State.setStn, State.stnOf, Vector.getElem?_setIfInBounds_ne (by decide)]
    rfl
  rw [State.heldUp, State.holdUp]
  split
  · rwa [hother]
  · exact hfirst

/-- The order and the hold-up leave the words, and the order alone shows in the sequencer's record. -/
theorem State.heldUp_of_order {s : State} {cause : Nat} (hm : s.mode = modeServe) (hw : s.get UPD_STAT_STATE ≠ 5)
    (hd : s.sys.safeStopDue = none) :
    (s.orderSafeStop cause).heldUp.regs = s.regs ∧
      (s.orderSafeStop cause).heldUp.sys = { s.sys with safeStopDue := some cause } ∧
      (s.spnState 0 = spRun → ((s.orderSafeStop cause).heldUp.stnOf 0).holdup = true) := by
  obtain ⟨osys, -, oregs⟩ := orderSafeStop_spec (cause := cause) hm hw hd
  obtain ⟨hregs, hsys⟩ := (s.orderSafeStop cause).holdUp_regs 0
  obtain ⟨kregs, ksys⟩ := ((s.orderSafeStop cause).holdUp 0).holdUp_regs 1
  exact ⟨kregs.trans (hregs.trans oregs), ksys.trans (hsys.trans osys),
    fun hrun => State.heldUp_first ((State.get_of_reg (State.reg_of_regs oregs _)).trans hrun)⟩

/-! ### The chopper (R251, R252, R617), VIN and the rails (R614, R619) -/

/-- A test pulse shows its current and the expected one. -/
def State.pulseShown (s : State) (i : Nat) : State :=
  ((s.incWrap PWR_BRK_E_TESTS).set PWR_BRK_I_MEAS i).set PWR_BRK_I_EXP s.chopperExpect

/-- The chopper is marked faulty. -/
def State.chopperMarked (s : State) (arg : Nat) : State := ((s.set PWR_STAT_BRK_FAULT 1).set PWR_STAT_BRK_ON 0).pwrFault 1 arg

theorem execChopperTestPulse_outOfBand {i : BitVec 16} {s : State} (hf : s.flag PWR_STAT_BRK_FAULT = false)
    (hon : s.flag PWR_STAT_BRK_ON = false) (hlast : s.pwr.choppedLast = false) (hv : s.get PWR_VBUS_VBUS < 760)
    (hres : s.get PWR_BRK_CFG_RES ≠ 0) (hout : outOfBand i.toNat s.chopperExpect = true) :
    execChopperTestPulse i s = .next ((s.pulseShown i.toNat).chopperMarked 0) := by
  have hflag : (s.pulseShown i.toNat).flag PWR_STAT_BRK_FAULT = false := by
    rw [State.pulseShown, State.flag_set_other _ _ (by decide) (by decide), State.flag_set_other _ _ (by decide) (by decide),
      State.incWrap, State.flag_set_other _ _ (by decide) (by decide)]
    exact hf
  have hmark : (s.pulseShown i.toNat).brkFault 0 = (s.pulseShown i.toNat).chopperMarked 0 := if_neg (by rw [hflag]; decide)
  have hpulse : execChopperTestPulse i s =
      .next ((s.pulseShown i.toNat).when (outOfBand i.toNat s.chopperExpect) fun t => t.brkFault 0) := by
    unfold execChopperTestPulse
    rw [if_neg (by simp -implicitDefEqProofs [hf, hon, hlast, hv, hres]), State.pulseShown]
  rw [hpulse, hout, ← hmark, State.when, if_pos rfl]

theorem State.reg_pulseShown_fault (s : State) (i : Nat) :
    (s.pulseShown i).reg (keySrc 0x0C0 0) = s.reg (keySrc 0x0C0 0) := by
  rw [State.pulseShown, State.reg_set_apart _ _ (by decide), State.reg_set_apart _ _ (by decide)]
  exact State.reg_set_apart s _ (by decide)

theorem State.pulseShown_spec (s : State) (i : BitVec 16) (he : s.chopperExpect < 65536) :
    (s.pulseShown i.toNat).get PWR_BRK_I_MEAS = i.toNat ∧ (s.pulseShown i.toNat).get PWR_BRK_I_EXP = s.chopperExpect ∧
      (s.pulseShown i.toNat).get PWR_BRK_E_TESTS = (s.get PWR_BRK_E_TESTS + 1) % (PWR_BRK_E_TESTS.top + 1) := by
  refine ⟨?_, ?_, ?_⟩
  · rw [State.pulseShown, State.get_set_apart _ _ (by decide) (by decide) (by decide),
      State.get_set_here _ _ (by decide) (by decide)]
    exact Nat.mod_eq_of_lt i.isLt
  · rw [State.pulseShown, State.get_set_here _ _ (by decide) (by decide)]
    exact Nat.mod_eq_of_lt he
  · rw [State.pulseShown, State.get_set_apart _ _ (by decide) (by decide) (by decide),
      State.get_set_apart _ _ (by decide) (by decide) (by decide), State.get_incWrap_here _ (by decide) (by decide)]

theorem State.chopperMarked_spec (s : State) (arg : Nat) :
    (s.chopperMarked arg).flag PWR_STAT_BRK_FAULT = true ∧
      (∀ f : Fld, f.addr ≠ PWR_STAT → ¬ faultWord f.addr → (s.chopperMarked arg).get f = s.get f) ∧
      ((s.chopperMarked arg).reg (keySrc 0x0C0 0)).toNat = min 0xFFFFFFFF ((s.reg (keySrc 0x0C0 0)).toNat + 1) := by
  refine ⟨?_, fun f hf hw => ?_, State.count_pwrFault arg (by decide) ?_⟩
  · rw [State.flag, State.chopperMarked, State.get_pwrFault _ _ _ (by decide),
      State.get_set_apart _ _ (by decide) (by decide) (by decide), State.get_set_here _ _ (by decide) (by decide)]
    rfl
  · rw [State.chopperMarked, State.get_pwrFault _ _ _ hw, State.get_set_other _ _ (by decide) (.inl hf),
      State.get_set_other _ _ (by decide) (.inl hf)]
  · rw [State.reg_set_apart _ _ (by decide), State.reg_set_apart _ _ (by decide)]

theorem execChopperTestPulse_upToPwr {i : BitVec 16} {s t : State} (h : execChopperTestPulse i s = .next t) : s.upToPwr t := by
  have hshown : s.upToPwr (s.pulseShown i.toNat) :=
    (State.stays.pwrReg s _ (by decide)).trans ((State.stays.pwrReg _ _ (by decide)).trans (.pwrReg _ _ (by decide)))
  exact eq_of_row h ▸ .ite (.refl s) (hshown.trans (.when _ (.brkFault _ 0)))

/-- A flag of PWR_STAT that sets raises a fault; `kind` is the row of Table: Power faults. -/
def State.pwrFlagged (s : State) (f : Fld) (kind arg : Nat) : State := (s.set f 1).pwrFault kind arg

/-- A one-bit field of PWR_STAT. -/
abbrev Fld.pwrBit (f : Fld) : Prop := f.addr = PWR_STAT ∧ f.hi = f.lo ∧ f.hi < 32

theorem State.pwrFlagged_spec (s : State) {f : Fld} {kind : Nat} (arg : Nat) (hf : f.pwrBit) (hk : kind ≠ 0x3F) :
    (s.pwrFlagged f kind arg).flag f = true ∧
      (∀ a, a ≠ PWR_STAT → ¬ faultWord a → (s.pwrFlagged f kind arg).reg a = s.reg a) ∧
      ((s.pwrFlagged f kind arg).reg (keySrc 0x0C0 0)).toNat = min 0xFFFFFFFF ((s.reg (keySrc 0x0C0 0)).toNat + 1) := by
  obtain ⟨haddr, hbit, hlt⟩ := hf
  refine ⟨?_, fun a ha hw => ?_, State.count_pwrFault arg hk ?_⟩
  · rw [State.flag, State.pwrFlagged, State.get_pwrFault _ _ _ (by rw [haddr]; decide),
      State.get_set_same _ _ ⟨hbit.ge, hlt⟩, hbit, Nat.add_sub_cancel_left]
    rfl
  · rw [State.pwrFlagged, State.reg_pwrFault _ _ _ hw, State.reg_set_other _ _ (by rwa [haddr])]
  · exact State.reg_set_other s 1 (by rw [haddr]; decide)

theorem State.stays.pwrFlagged (s : State) {f : Fld} (kind arg : Nat) (hf : f.addr / 0x10000 ∈ [0x11, 0x16]) :
    s.upToPwr (s.pwrFlagged f kind arg) := (pwrReg s 1 hf).trans (pwrFault _ _ _)

theorem execVinReverse_eq (s : State) :
    execVinReverse s = .next (if s.pwr.reverseFor < 8 ∨ s.flag PWR_STAT_VIN_REVERSE = true then s
      else s.pwrFlagged PWR_STAT_VIN_REVERSE 7 s.pwr.reverse) := rfl

theorem execBrkHot_upToPwr {s t : State} (h : execBrkHot s = .next t) : s.upToPwr t := by
  unfold execBrkHot at h
  dsimp only at h
  split at h <;> obtain rfl := Host.Outcome.next.inj h
  · exact .ite (.pwrReg s 0 (by decide)) (.refl s)
  · exact .ite (.pwrFlagged s 6 _ (by decide)) (.refl s)

/-- Settles O24: a crossing is shown by `State.over82_spec` and `State.statShown_spec`, 90 V by `State.vbusHigh_spec` with
every bridge off (`State.allBridgesOff_spec`), UVLO by `State.uvloLatched_spec`; a flag that sets counts its fault
(`State.pwrFlagged_spec`, `State.chopperMarked_spec`). -/
theorem busVoltageRowsTakeEffect : Obligations.BusVoltageRowsTakeEffect := by
  refine ⟨?entered, ?normal, ?high, ?uvlo, ?holdup, ?pulse, ?stuck, ?reverse, ?noReverse, ?clear, ?hot, ?cool, ?rail, ?frame⟩
  case entered =>
    intro vbus s hz hlo hhi _
    obtain ⟨hcount, hpwr, hfault, hvbus⟩ := ((s.vbusShown vbus.toNat 4).vbusEvent 6 vbus.toNat).over82_spec
    have hv : 340 < vbus.toNat := by omega
    obtain ⟨hregs, hzone, -⟩ := (((s.vbusShown vbus.toNat 4).vbusEvent 6 vbus.toNat).over82).statShown_spec hv
    refine ⟨_, execVbusThreshold_over hz hlo, ?_, ?_, ?_, ?_, ?_⟩
    · rw [State.get_statShown _ hv (by decide), hvbus, State.get_vbusEvent _ _ _ (by decide), State.vbus_vbusShown]
    · rw [hzone, hpwr, State.vbusEvent_pwr]
      rfl
    · rw [State.statShown, State.band_setBand _ hlo, if_neg hhi.not_ge]
    · rw [State.get_statShown _ hv (by decide), hcount, State.get_vbusEvent _ _ _ (by decide),
        State.get_vbusShown _ _ _ (by decide)]
    · rw [hregs _ (by decide), hfault, State.vbusEvent, State.reg_capture _ _ _ _ (by decide),
        State.reg_vbusShown _ _ _ (by decide)]
  case normal =>
    intro vbus s hz hlo hhi
    obtain ⟨hregs, hpwr, howl⟩ := (s.vbusShown vbus.toNat 0).statShown_spec hlo
    refine ⟨_, execVbusThreshold_normal hz hhi, ?_, ?_, ?_, fun a hv hs => ?_⟩
    · rw [State.get_statShown _ hlo (by decide), State.vbus_vbusShown]
    · rw [hpwr]
      rfl
    · rw [howl]
      rfl
    · rw [hregs _ hs, State.reg_vbusShown _ _ _ hv]
  case high =>
    intro vbus s hv hm hw hd _
    have hstep := State.stays.vbusHigh s vbus.toNat
    obtain ⟨hband, hfault⟩ := s.vbusHigh_spec hv
    obtain ⟨hsys, houts, hregs⟩ := orderSafeStop_of_bridgesOff (cause := 6) ((hstep.pwr_get (by decide)).trans hm)
      (by rwa [hstep.pwr_get (by decide)]) (by rw [hstep.pwr_sys]; exact hd)
    refine ⟨_, execVbus90v_high hv, ?_, ?_, houts, ?_, ?_⟩
    · rw [hsys]
    · rw [hsys]
    · rw [State.get_of_reg (hregs _ (by decide)), hband]
    · rw [hregs _ (by decide), hfault]
  case uvlo =>
    intro vbus s hv hu hm hw hd
    have hstep := State.stays.uvloLatched s vbus.toNat
    obtain ⟨huvlo, hwarn⟩ := s.uvloLatched_spec (v := vbus.toNat) (by omega)
    have hmode : (s.uvloLatched vbus.toNat).mode = modeServe := (hstep.pwr_get (by decide)).trans hm
    obtain ⟨hregs, hsys, hheld⟩ := State.heldUp_of_order (cause := 7) hmode (by rwa [hstep.pwr_get (by decide)])
      (by rw [hstep.pwr_sys]; exact hd)
    have hexec := execUvlo_latches hv hu
    generalize ((s.uvloLatched vbus.toNat).orderSafeStop 7).heldUp = w at hregs hsys hheld hexec
    refine ⟨_, hexec, ?_, ?_, ?_, fun hrun => hheld ((hstep.pwr_get (by decide)).trans hrun), ?_⟩
    · rw [State.flag, State.flushOrdered_get, State.get_of_reg (State.reg_of_regs hregs _), huvlo]
      rfl
    · exact congrArg SysSt.safeStopDue hsys
    · rw [State.flag, State.flushOrdered_get, State.get_of_reg (State.reg_of_regs hregs _), hwarn]
      rfl
    · rw [State.flushOrdered, hsys, hstep.pwr_sys]
  case holdup =>
    intro st s hh hlow
    refine ⟨_, if_pos ⟨hh, .inl hlow⟩, ?_, rfl⟩
    rw [State.modStn_stnOf]
  case pulse =>
    intro ma s hf hon hlast hv hres he hout
    obtain ⟨hmeas, hexp, htests⟩ := s.pulseShown_spec ma he
    obtain ⟨hflag, hget, hfault⟩ := (s.pulseShown ma.toNat).chopperMarked_spec 0
    refine ⟨_, execChopperTestPulse_outOfBand hf hon hlast hv hres hout, ?_, ?_, hflag, ?_, ?_⟩
    · rw [hget _ (by decide) (by decide), hmeas]
    · rw [hget _ (by decide) (by decide), hexp]
    · rw [hget _ (by decide) (by decide), htests]
    · rw [hfault, State.reg_pulseShown_fault]
  case stuck =>
    intro ma s hon
    obtain ⟨hflag, -, hfault⟩ := s.pwrFlagged_spec (f := PWR_STAT_BRK_STUCK) (kind := 2) ma.toNat (by decide) (by decide)
    obtain ⟨regs, flt, h⟩ := State.upToFaults.raise (s.set PWR_STAT_BRK_STUCK 1) 0x0C0 2 ma.toNat
    refine ⟨s.pwrFlagged PWR_STAT_BRK_STUCK 2 ma.toNat, if_neg (by rw [hon]; decide), hflag, hfault, ?_⟩
    rw [State.pwrFlagged, State.pwrFault, h]
    rfl
  case reverse =>
    intro s hrev hflag
    obtain ⟨hset, hregs, hfault⟩ :=
      s.pwrFlagged_spec (f := PWR_STAT_VIN_REVERSE) (kind := 7) s.pwr.reverse (by decide) (by decide)
    refine ⟨_, (execVinReverse_eq s).trans (congrArg _ (if_neg ?_)), hset, hregs, hfault⟩
    exact not_or.mpr ⟨hrev.not_gt, by rw [hflag]; decide⟩
  case noReverse => exact fun s hrev => ⟨_, (execVinReverse_eq s).trans (congrArg _ (if_pos (.inl hrev))), rfl⟩
  case clear =>
    intro s hflag ht
    exact ⟨_, if_pos ⟨hflag, ht⟩, State.flag_set_zero s (by decide), fun a ha => State.reg_set_apart s 0 ha⟩
  case hot =>
    intro s hcold hrating he
    obtain ⟨hset, hregs, hfault⟩ :=
      s.pwrFlagged_spec (f := PWR_STAT_BRK_HOT) (kind := 6) (s.get PWR_BRK_E_E60) (by decide) (by decide)
    refine ⟨s.pwrFlagged PWR_STAT_BRK_HOT 6 (s.get PWR_BRK_E_E60), ?_, hset, hregs, hfault⟩
    exact (if_neg (by rw [hcold]; decide)).trans (congrArg _ (if_pos ⟨he, hrating⟩))
  case cool =>
    intro s hhot he
    exact ⟨_, (if_pos hhot).trans (congrArg _ (if_pos he)), State.flag_set_zero s (by decide),
      fun a ha => State.reg_set_apart s 0 ha⟩
  case rail =>
    intro rail s hbad
    obtain ⟨regs, flt, h⟩ := State.upToFaults.raise s 0x0C0 0x0B rail
    refine ⟨s.pwrFault 0x0B rail, congrArg _ (if_neg hbad.not_gt), State.count_raise s _ (by decide),
      fun a ha => State.reg_pwrFault s _ _ ha, ?_⟩
    rw [State.pwrFault, h]
  case frame =>
    intro vbus ma rail s t h
    refine State.stays.pwrFrame ?_
    rcases h with h | h | h | h | h | h | h
    · exact execVbusThreshold_upToPwr h
    · exact execChopperTestPulse_upToPwr h
    · exact eq_of_row h ▸ .ite (.refl s) (.pwrFlagged s 2 _ (by decide))
    · obtain rfl := Host.Outcome.next.inj h
      exact .ite (.refl s) (.pwrFlagged s 7 _ (by decide))
    · exact eq_of_row h ▸ .ite (.pwrReg s 0 (by decide)) (.refl s)
    · exact execBrkHot_upToPwr h
    · obtain rfl := Host.Outcome.next.inj h
      exact .ite (.refl s) (.pwrFault s _ _)

end Sys2Proof.Machine
end

section
/-!
PROOFS of the statements of 06_axes_and_picker.md: rules of an axis's operations. For each operation: which fields of an axis's
registers, written ⟨b + 0x1000 * a, hi, lo⟩, it leaves; what it leaves of the axis's record; and what it leaves beyond the axis
(`State.upToAxis`).
-/

namespace Sys2Proof.Machine

open Sys2Proof

/-! ### The record of an axis -/

@[simp] theorem State.modAx_axOf (s : State) (a : Fin 7) (f : AxSt → AxSt) : (s.modAx a f).axOf a = f (s.axOf a) := by
  rw [State.modAx, State.setAx, State.axOf, Vector.getElem?_setIfInBounds_self_of_lt a.isLt]
  rfl

@[simp] theorem State.modAx_flag (s : State) (a : Nat) (f : AxSt → AxSt) (x : Fld) : (s.modAx a f).flag x = s.flag x := rfl

@[simp] theorem State.set_axOf (s : State) (f : Fld) (v a : Nat) : (s.set f v).axOf a = s.axOf a := rfl
@[simp] theorem State.setReg_axOf (s : State) (b : Nat) (v : Word) (a : Nat) : (s.setReg b v).axOf a = s.axOf a := rfl
@[simp] theorem State.setInt_axOf (s : State) (f : Fld) (i : Int) (a : Nat) : (s.setInt f i).axOf a = s.axOf a := rfl
@[simp] theorem State.setFlag_axOf (s : State) (f : Fld) (b : Bool) (a : Nat) : (s.setFlag f b).axOf a = s.axOf a := rfl
@[simp] theorem State.incWrap_axOf (s : State) (f : Fld) (a : Nat) : (s.incWrap f).axOf a = s.axOf a := rfl
@[simp] theorem State.addSat_axOf (s : State) (f : Fld) (v a : Nat) : (s.addSat f v).axOf a = s.axOf a := rfl
@[simp] theorem State.status_axOf (s : State) (code a : Nat) : (s.status code).axOf a = s.axOf a := rfl
@[simp] theorem State.axLoseHome_axOf (s : State) (b a : Nat) : (s.axLoseHome b).axOf a = s.axOf a := rfl

@[simp] theorem State.when_axOf (s : State) (b : Bool) (f : State → State) (a : Nat) :
    (s.when b f).axOf a = if b then (f s).axOf a else s.axOf a := apply_ite (State.axOf · a) _ _ _

@[simp] theorem State.axFault_axOf (s : State) (b kind arg a : Nat) : (s.axFault b kind arg).axOf a = s.axOf a := by
  obtain ⟨_, _, h⟩ := State.upToFaults.raise s (0x050 + b) kind arg
  rw [State.axFault, h]
  rfl

@[simp] theorem State.rxMessage_axOf (s : State) (p : Path) (b : Bool) (a : Nat) : (s.rxMessage p b).axOf a = s.axOf a := by
  rw [State.rxMessage_eq]
  rfl

/-! ### Fields of an axis's registers -/

/-- Another field of an axis reads as before. -/
@[simp] theorem State.axGet_set (s : State) {a b c h l k m : Nat} (v : Nat) (hm : m ≤ k) (hk : k < 32)
    (hd : b ≠ c ∨ h < m ∨ k < l) :
    (s.set ⟨c + 0x1000 * a, k, m⟩ v).get ⟨b + 0x1000 * a, h, l⟩ = s.get ⟨b + 0x1000 * a, h, l⟩ :=
  State.get_set_apart s v hm hk (by omega)

theorem State.axFlag_set (s : State) {a b c h l k m : Nat} (v : Nat) (hm : m ≤ k) (hk : k < 32)
    (hd : b ≠ c ∨ h < m ∨ k < l) :
    (s.set ⟨c + 0x1000 * a, k, m⟩ v).flag ⟨b + 0x1000 * a, h, l⟩ = s.flag ⟨b + 0x1000 * a, h, l⟩ :=
  congrArg (· == 1) (State.axGet_set s v hm hk hd)

@[simp] theorem State.axGet_setFlag (s : State) {a b c h l k m : Nat} (v : Bool) (hm : m ≤ k) (hk : k < 32)
    (hd : b ≠ c ∨ h < m ∨ k < l) :
    (s.setFlag ⟨c + 0x1000 * a, k, m⟩ v).get ⟨b + 0x1000 * a, h, l⟩ = s.get ⟨b + 0x1000 * a, h, l⟩ :=
  State.axGet_set s _ hm hk hd

@[simp] theorem State.axGet_setInt (s : State) {a b c h l k m : Nat} (i : Int) (hm : m ≤ k) (hk : k < 32)
    (hd : b ≠ c ∨ h < m ∨ k < l) :
    (s.setInt ⟨c + 0x1000 * a, k, m⟩ i).get ⟨b + 0x1000 * a, h, l⟩ = s.get ⟨b + 0x1000 * a, h, l⟩ :=
  State.axGet_set s _ hm hk hd

@[simp] theorem State.axGet_addSat (s : State) {a b c h l k m : Nat} (v : Nat) (hm : m ≤ k) (hk : k < 32)
    (hd : b ≠ c ∨ h < m ∨ k < l) :
    (s.addSat ⟨c + 0x1000 * a, k, m⟩ v).get ⟨b + 0x1000 * a, h, l⟩ = s.get ⟨b + 0x1000 * a, h, l⟩ :=
  State.axGet_set s _ hm hk hd

@[simp] theorem State.axGet_incWrap (s : State) {a b c h l k m : Nat} (hm : m ≤ k) (hk : k < 32)
    (hd : b ≠ c ∨ h < m ∨ k < l) :
    (s.incWrap ⟨c + 0x1000 * a, k, m⟩).get ⟨b + 0x1000 * a, h, l⟩ = s.get ⟨b + 0x1000 * a, h, l⟩ :=
  State.axGet_set s _ hm hk hd

@[simp] theorem State.axGet_axFault (s : State) {a : Fin 7} {b h l : Nat} (n kind arg : Nat) (hb : b < 0x61000) :
    (s.axFault n kind arg).get ⟨b + 0x1000 * a, h, l⟩ = s.get ⟨b + 0x1000 * a, h, l⟩ :=
  State.get_raise_below s (by dsimp only; omega)

/-- The count of messages lies beyond the axes. -/
@[simp] theorem State.axGet_rxMessage (s : State) (p : Path) (x : Bool) {a b h l : Nat} (hb : b % 0x1000 ≠ 0xA4) :
    (s.rxMessage p x).get ⟨b + 0x1000 * a, h, l⟩ = s.get ⟨b + 0x1000 * a, h, l⟩ :=
  State.get_rxMessage s p x (by dsimp only [NET_SVC_STAT]; omega)

theorem State.flag_setFlag_here (s : State) {b k : Nat} (v : Bool) (hk : k < 32) : (s.setFlag ⟨b, k, k⟩ v).flag ⟨b, k, k⟩ = v :=
  State.flag_setFlag_same s v ⟨le_rfl, hk⟩

theorem State.flag_set_one_here (s : State) {b k : Nat} (hk : k < 32) : (s.set ⟨b, k, k⟩ 1).flag ⟨b, k, k⟩ = true :=
  s.flag_setFlag_here true hk

theorem State.flag_set_zero_here (s : State) {b k : Nat} (hk : k < 32) : (s.set ⟨b, k, k⟩ 0).flag ⟨b, k, k⟩ = false :=
  s.flag_setFlag_here false hk

/-! ### What an order reports -/

theorem State.axReport_spec (s : State) (a : Fin 7) {op result : Nat} (hop : op < 16) (hres : result < 16) :
    (s.axReport a op result).get (AX_RES_RESULT a) = result ∧ (s.axReport a op result).get (AX_RES_OP a) = op ∧
      (s.axReport a op result).get (AX_RES_SEQ a) = (s.get (AX_RES_SEQ a) + 1) % ((AX_RES_SEQ a).top + 1) := by
  refine ⟨?_, ?_, ?_⟩
  · simp -implicitDefEqProofs [State.axReport, State.get_set_here, Nat.mod_eq_of_lt hres]
  · simp -implicitDefEqProofs [State.axReport, State.get_set_here, Nat.mod_eq_of_lt hop]
  · simp -implicitDefEqProofs [State.axReport, State.get_incWrap_here]

/-- AX_RES alone. -/
@[simp] theorem State.axGet_axReport (s : State) {a b h l : Nat} (op result : Nat) (hb : b ≠ 0x60008) :
    (s.axReport a op result).get ⟨b + 0x1000 * a, h, l⟩ = s.get ⟨b + 0x1000 * a, h, l⟩ := by
  simp -implicitDefEqProofs [State.axReport, hb]

@[simp] theorem State.axReport_axOf (s : State) (a : Fin 7) (op result : Nat) :
    (s.axReport a op result).axOf a = { s.axOf a with running := decide (result = resRunning) } := by
  simp -implicitDefEqProofs [State.axReport]

/-- RESULT alone of AX_RES. -/
@[simp] theorem State.axGet_axResult (s : State) {a b h l : Nat} (result : Nat) (hb : b ≠ 0x60008) :
    (s.axResult a result).get ⟨b + 0x1000 * a, h, l⟩ = s.get ⟨b + 0x1000 * a, h, l⟩ := by
  unfold State.axResult
  split <;> simp -implicitDefEqProofs [hb]

@[simp] theorem State.axResult_axOf (s : State) (a : Fin 7) (result : Nat) :
    (s.axResult a result).axOf a = { s.axOf a with running := false } := by
  unfold State.axResult
  split
  · simp -implicitDefEqProofs
  next h => rw [← Bool.eq_false_of_not_eq_true h]

/-! ### Moves, stops, homing, gearing and the bridge -/

theorem State.axMove_spec (s : State) (a : Fin 7) (dest : Int) :
    (s.axMove a dest).axState a = axMoving ∧ ((s.axMove a dest).axOf a).dest = some dest := by
  constructor <;> simp -implicitDefEqProofs [State.axMove, State.axState, State.get_set_here, axMoving]

/-- STATE, DETENT and DEC_HELD of AX_STAT. -/
@[simp] theorem State.axGet_axMove (s : State) {a b h l : Nat} (dest : Int) (hb : b ≠ 0x60004) :
    (s.axMove a dest).get ⟨b + 0x1000 * a, h, l⟩ = s.get ⟨b + 0x1000 * a, h, l⟩ := by
  simp -implicitDefEqProofs [State.axMove, hb]

/-- An axis in motion stops. -/
theorem State.axHalt_moving {s : State} {a : Fin 7} (emerg : Bool) (h : s.axInMotion a = true) :
    (s.axHalt a emerg).axState a = axStopping ∧ ((s.axHalt a emerg).axOf a).dest = none ∧
      ((s.axHalt a emerg).axOf a).emerg = (emerg || (s.axOf a).emerg) := by
  refine ⟨?_, ?_, ?_⟩ <;> simp -implicitDefEqProofs [State.axHalt, h, State.axState, State.get_set_here, axStopping]

/-- STATE of AX_STAT, and MODE of AX_CTL. -/
@[simp] theorem State.axGet_axHalt (s : State) {a b h l : Nat} (emerg : Bool) (hb : b ≠ 0x60004 ∨ 3 < l) (hc : b ≠ 0x60000) :
    (s.axHalt a emerg).get ⟨b + 0x1000 * a, h, l⟩ = s.get ⟨b + 0x1000 * a, h, l⟩ := by
  unfold State.axHalt
  split
  · simp -implicitDefEqProofs [hb]
  · split <;> simp -implicitDefEqProofs [hb, hc]

theorem State.axHomeStart_spec (s : State) (a : Fin 7) :
    (s.axHomeStart a).axState a = axHoming ∧ ((s.axHomeStart a).axOf a).home = s.homeSearch a ∧
      (s.axHomeStart a).flag (AX_STAT_HOME_REV a) = s.endActive a (s.homeDir a) := by
  refine ⟨?_, ?_, ?_⟩
  · simp -implicitDefEqProofs [State.axHomeStart, State.axState, State.get_set_here, axHoming]
  · simp -implicitDefEqProofs [State.axHomeStart]
  · rw [State.axHomeStart, State.flag, State.axGet_set _ _ (by decide) (by decide) (by decide)]
    exact State.flag_setFlag_here _ _ (by decide)

@[simp] theorem State.axGet_axHomeStart (s : State) {a b h l : Nat} (hb : b ≠ 0x60004) :
    (s.axHomeStart a).get ⟨b + 0x1000 * a, h, l⟩ = s.get ⟨b + 0x1000 * a, h, l⟩ := by
  simp -implicitDefEqProofs [State.axHomeStart, hb]

theorem State.axGear_spec (s : State) (a : Fin 7) :
    (s.axGear a).axState a = axGeared ∧ (s.axGear a).get (AX_CTL_MODE a) = 1 := by
  constructor <;> simp -implicitDefEqProofs [State.axGear, State.axState, State.get_set_here, axGeared]

theorem State.axStandAt_spec (s : State) (a : Fin 7) {x : Int} (hlo : -(2 ^ 31) ≤ x) (hhi : x < 2 ^ 31) :
    (s.axStandAt a x).axPos a = x ∧ (s.axStandAt a x).get (AX_VEL_VEL a) = 0 ∧
      ((s.axStandAt a x).axOf a).dest = none := by
  refine ⟨?_, ?_, ?_⟩
  · simp -implicitDefEqProofs [State.axStandAt, State.axPos, State.getInt, State.get_set_here, State.setInt]
    simp only [signedOf, unsignedOf]
    omega
  · simp -implicitDefEqProofs [State.axStandAt, State.get_set_here]
  · simp -implicitDefEqProofs [State.axStandAt]

/-- POS and VEL. -/
@[simp] theorem State.axGet_axStandAt (s : State) {a b h l : Nat} (x : Int) (hp : b ≠ 0x6000C) (hv : b ≠ 0x60014) :
    (s.axStandAt a x).get ⟨b + 0x1000 * a, h, l⟩ = s.get ⟨b + 0x1000 * a, h, l⟩ := by
  simp -implicitDefEqProofs [State.axStandAt, hp, hv]

theorem State.axOff_state (s : State) (a : Fin 7) : (s.axOff a).axState a = axDisabled := by
  simp -implicitDefEqProofs [State.axOff, State.axState, State.get_set_here]

/-- STATE and STRONG of AX_STAT, and VEL. -/
@[simp] theorem State.axGet_axOff (s : State) {a b h l : Nat} (hv : b ≠ 0x60014) (hs : b ≠ 0x60004 ∨ 3 < l ∧ (h < 5 ∨ 5 < l)) :
    (s.axOff a).get ⟨b + 0x1000 * a, h, l⟩ = s.get ⟨b + 0x1000 * a, h, l⟩ := by
  have hstate : b ≠ 0x60004 ∨ h < 0 ∨ 3 < l := by omega
  have hstrong : b ≠ 0x60004 ∨ h < 5 ∨ 5 < l := by omega
  rw [State.axOff, State.axGet_set _ _ (by decide) (by decide) (.inl hv), State.axGet_set _ _ (by decide) (by decide) hstrong,
    State.axGet_set _ _ (by decide) (by decide) hstate, State.modAx_get]

@[simp] theorem State.axGet_axHaltOff (s : State) {a b h l : Nat} (emerg : Bool) (hv : b ≠ 0x60014) (hc : b ≠ 0x60000)
    (hs : b ≠ 0x60004 ∨ 3 < l ∧ (h < 5 ∨ 5 < l)) :
    (s.axHaltOff a emerg).get ⟨b + 0x1000 * a, h, l⟩ = s.get ⟨b + 0x1000 * a, h, l⟩ := by
  have hstate : b ≠ 0x60004 ∨ 3 < l := by omega
  unfold State.axHaltOff
  split
  · rw [State.modAx_get, State.axGet_axHalt _ _ hstate hc]
  · exact State.axGet_axOff s hv hs

theorem State.axHaltOff_standing {s : State} {a : Nat} (emerg : Bool) (h : s.axState a = axIdle) :
    s.axHaltOff a emerg = s.axOff a := if_neg (by simp [State.axInMotion, h])

theorem State.axHalt_standing {s : State} {a : Nat} (emerg : Bool) (h : s.axState a = axIdle) : s.axHalt a emerg = s := by
  unfold State.axHalt
  rw [if_neg (by simp [State.axInMotion, h]), if_neg (by simp [h])]

/-! ### What lies beyond an axis -/

/-- The state without what the operations of an axis write. -/
def State.offAxes (s : State) : State := { s with regs := [], ax := Vector.replicate 7 {} }

/-- From `s` to `t` at most the records of the axes and the words of axis `a` have changed. -/
abbrev State.upToAxis (s : State) (a : Nat) (t : State) : Prop := s.stays State.offAxes (fun b => b / 0x1000 ≠ 0x60 + a) t

namespace State.stays

variable {s : State}

theorem axWord (s : State) {a b : Nat} (v : Word) (hb : 0x60000 ≤ b ∧ b < 0x61000) : s.upToAxis a (s.setReg (b + 0x1000 * a) v) :=
  ⟨rfl, fun c hc => State.reg_setReg_other s v (by rintro rfl; omega)⟩

theorem axField (s : State) {a b h l : Nat} (v : Nat) (hb : 0x60000 ≤ b ∧ b < 0x61000) :
    s.upToAxis a (s.set ⟨b + 0x1000 * a, h, l⟩ v) := axWord s _ hb

theorem axFlag (s : State) {a b h l : Nat} (v : Bool) (hb : 0x60000 ≤ b ∧ b < 0x61000) :
    s.upToAxis a (s.setFlag ⟨b + 0x1000 * a, h, l⟩ v) := axField s _ hb

theorem axCount (s : State) {a b h l : Nat} (hb : 0x60000 ≤ b ∧ b < 0x61000) :
    s.upToAxis a (s.incWrap ⟨b + 0x1000 * a, h, l⟩) := axField s _ hb

theorem axRecord (s : State) (a : Nat) (f : AxSt → AxSt) : s.upToAxis a (s.modAx a f) := ⟨rfl, fun _ _ => rfl⟩

theorem axReport (s : State) (a op result : Nat) : s.upToAxis a (s.axReport a op result) :=
  (axCount s (by decide)).trans ((axField _ _ (by decide)).trans ((axField _ _ (by decide)).trans (axRecord _ a _)))

theorem axResult (s : State) (a result : Nat) : s.upToAxis a (s.axResult a result) :=
  .ite ((axField s _ (by decide)).trans (axRecord _ a _)) (.refl s)

theorem axMove (s : State) (a : Nat) (dest : Int) : s.upToAxis a (s.axMove a dest) :=
  (axRecord s a _).trans ((axField _ _ (by decide)).trans ((axField _ _ (by decide)).trans
    (when (f := fun t => t.set (AX_STAT_DEC_HELD a) 0) _ (axField _ _ (by decide)))))

theorem axHalt (s : State) (a : Nat) (emerg : Bool) : s.upToAxis a (s.axHalt a emerg) :=
  .ite ((axRecord s a _).trans (axField _ _ (by decide)))
    (.ite ((axRecord s a _).trans ((axField _ _ (by decide)).trans (axField _ _ (by decide)))) (.refl s))

theorem axisOff (s : State) (a : Nat) : s.upToAxis a (s.axOff a) :=
  (axRecord s a _).trans ((axField _ _ (by decide)).trans ((axField _ _ (by decide)).trans (axField _ _ (by decide))))

theorem axOn (s : State) (a : Nat) : s.upToAxis a (s.axOn a) :=
  .ite (.refl s) (.ite ((axRecord s a _).trans (axField _ _ (by decide))) (axRecord s a _))

theorem axHaltOff (s : State) (a : Nat) (emerg : Bool) : s.upToAxis a (s.axHaltOff a emerg) :=
  .ite ((axHalt s a emerg).trans (axRecord _ a _)) (axisOff s a)

theorem axHomeStart (s : State) (a : Nat) : s.upToAxis a (s.axHomeStart a) :=
  (axRecord s a _).trans ((axField _ _ (by decide)).trans ((axFlag _ _ (by decide)).trans (axField _ _ (by decide))))

theorem axStandAt (s : State) (a : Nat) (x : Int) : s.upToAxis a (s.axStandAt a x) :=
  (axRecord s a _).trans ((axField _ _ (by decide)).trans (axField _ _ (by decide)))

theorem axGear (s : State) (a : Nat) : s.upToAxis a (s.axGear a) :=
  (axRecord s a _).trans ((axField _ _ (by decide)).trans ((axField _ _ (by decide)).trans (axField _ _ (by decide))))

/-- A write by a path leaves what its operation leaves, but for the count of messages and the status. -/
theorem writeBy {rest : State → State} {kept : Nat → Prop} {f : State → State} (s : State) (p : Path) (ok : Bool)
    (hrest : ∀ (u : State) regs wstat, rest { u with regs := regs, wstat := wstat } = rest u)
    (hkept : ∀ a, kept a → a ≠ NET_SVC_STAT) (hf : ∀ u : State, u.stays rest kept (f u)) :
    s.stays rest kept (s.writeBy p ok f) := by
  have hcount : s.stays rest kept (s.rxMessage p false) := by
    refine ⟨?_, fun a ha => State.reg_rxMessage s p false (hkept a ha)⟩
    rw [State.rxMessage_eq]
    exact hrest s _ _
  have hstatus : ∀ (u : State) code, u.stays rest kept (u.status code) := fun u code => ⟨hrest u _ _, fun _ _ => rfl⟩
  unfold State.writeBy
  split
  · exact refl s
  · split
    · exact hcount.trans (hstatus _ _)
    · exact .ite ((hcount.trans (hf _)).trans (hstatus _ _)) (hcount.trans (hstatus _ _))

end State.stays

end Sys2Proof.Machine
end

section
/-!
PROOFS of the statements of 06_axes_and_picker.md, continued: orders to an axis (O26).
-/

namespace Sys2Proof.Machine

open Sys2Proof

/-! ### What a counted message leaves of an order's conditions -/

section
variable (s : State) (p : Path) (x : Bool)

@[simp] theorem State.axGetInt_rxMessage {a b h l : Nat} (hb : b % 0x1000 ≠ 0xA4) :
    (s.rxMessage p x).getInt ⟨b + 0x1000 * a, h, l⟩ = s.getInt ⟨b + 0x1000 * a, h, l⟩ := by
  simp -implicitDefEqProofs [State.getInt, hb]

@[simp] theorem State.axState_rxMessage (a : Nat) : (s.rxMessage p x).axState a = s.axState a :=
  s.axGet_rxMessage p x (by decide)

@[simp] theorem State.axHomed_rxMessage (a : Nat) : (s.rxMessage p x).axHomed a = s.axHomed a :=
  congrArg (· == 1) (s.axGet_rxMessage p x (by decide))

@[simp] theorem State.axPos_rxMessage (a : Nat) : (s.rxMessage p x).axPos a = s.axPos a :=
  s.axGetInt_rxMessage p x (by decide)

@[simp] theorem State.axInMotion_rxMessage (a : Nat) : (s.rxMessage p x).axInMotion a = s.axInMotion a := by
  simp -implicitDefEqProofs only [State.axInMotion, State.axState_rxMessage]

@[simp] theorem State.sledHeld_rxMessage (a : Nat) : (s.rxMessage p x).sledHeld a = s.sledHeld a := by
  rw [State.rxMessage_eq]
  rfl

@[simp] theorem State.axBadParam_rxMessage (a : Nat) (target : Int) :
    (s.rxMessage p x).axBadParam a target = s.axBadParam a target := by
  simp -implicitDefEqProofs [State.axBadParam]

@[simp] theorem State.awayFromTrip_rxMessage (a : Nat) (target : Int) :
    (s.rxMessage p x).awayFromTrip a target = s.awayFromTrip a target := by
  rw [State.awayFromTrip, State.awayFromTrip, State.rxMessage_axOf, State.axPos_rxMessage]

theorem State.geom_rxMessage {b : Nat} (hb : b ≠ NET_SVC_STAT) : (s.rxMessage p x).geom b = s.geom b := by
  rw [State.geom, State.geom, State.reg_rxMessage s p x hb]

@[simp] theorem State.inCorridor_rxMessage (i : Int) : (s.rxMessage p x).inCorridor i = s.inCorridor i := by
  rw [State.inCorridor, State.inCorridor, State.geom_rxMessage _ _ _ (by decide), State.geom_rxMessage _ _ _ (by decide)]

@[simp] theorem State.xInCorridor_rxMessage : (s.rxMessage p x).xInCorridor = s.xInCorridor := by
  simp -implicitDefEqProofs only [State.xInCorridor, State.axHomed_rxMessage, State.axState_rxMessage, State.axPos_rxMessage,
    State.inCorridor_rxMessage]

@[simp] theorem State.sledParked_rxMessage (n : Nat) : (s.rxMessage p x).sledParked n = s.sledParked n := by
  simp -implicitDefEqProofs [State.sledParked]

theorem State.spnGet_rxMessage {st b h l : Nat} (hb : b % 0x8000 ≠ 0x20A4) :
    (s.rxMessage p x).get ⟨b + 0x8000 * st, h, l⟩ = s.get ⟨b + 0x8000 * st, h, l⟩ :=
  State.get_rxMessage s p x (by dsimp only [NET_SVC_STAT]; omega)

@[simp] theorem State.mayEnter_rxMessage (st : Nat) : (s.rxMessage p x).mayEnter st = s.mayEnter st := by
  simp -implicitDefEqProofs only [State.mayEnter, State.flag, State.spnGet_rxMessage s p x (show 0x50004 % 0x8000 ≠ 0x20A4 by decide),
    State.sledParked_rxMessage]

@[simp] theorem State.slotZ_rxMessage (k : Nat) : (s.rxMessage p x).slotZ k = s.slotZ k := by
  rw [State.slotZ, State.slotZ, State.geom_rxMessage _ _ _ (by decide), State.geom_rxMessage _ _ _ (by decide)]

@[simp] theorem State.stnZ_rxMessage (st : Nat) : (s.rxMessage p x).stnZ st = s.stnZ st := by
  rw [State.stnZ, State.stnZ, State.geom_rxMessage _ _ _ (by decide), State.geom_rxMessage _ _ _ (by decide)]

/-- The rule of the corridor reads axes, stations and the magazine's geometry. -/
@[simp] theorem State.zxRule_rxMessage (a : Nat) (target : Int) : (s.rxMessage p x).zxRule a target = s.zxRule a target := by
  have hlo := s.geom_rxMessage p x (show MAG_X_CORR_LO ≠ NET_SVC_STAT by decide)
  have hhi := s.geom_rxMessage p x (show MAG_X_CORR_HI ≠ NET_SVC_STAT by decide)
  simp -implicitDefEqProofs only [State.zxRule, State.xOrderOk, State.zStands, hlo, hhi, State.xInCorridor_rxMessage,
    State.axHomed_rxMessage, State.axState_rxMessage, State.axPos_rxMessage, State.slotZ_rxMessage, State.stnZ_rxMessage,
    State.mayEnter_rxMessage]

end

/-! ### Orders taken -/

@[simp] theorem State.status_axState (s : State) (code a : Nat) : (s.status code).axState a = s.axState a := rfl

@[simp] theorem State.status_flag (s : State) (code : Nat) (f : Fld) : (s.status code).flag f = s.flag f := rfl

/-- A position order whose conditions hold is reported RUNNING, and the axis moves. -/
theorem State.axOrderTo_starts {s : State} {a op : Nat} {target : Int} (hheld : s.sledHeld a = false)
    (hparam : s.axBadParam a target = false) (hidle : s.axState a = axIdle) (hzx : s.zxRule a target = true)
    (haway : s.awayFromTrip a target = true) : s.axOrderTo a op target = (s.axReport a op resRunning).axMove a target := by
  unfold State.axOrderTo
  simp [hheld, hparam, hidle, hzx, haway]

theorem State.axOrderTo_badParam {s : State} {a op : Nat} {target : Int} (hheld : s.sledHeld a = false)
    (hparam : s.axBadParam a target = true) : s.axOrderTo a op target = s.axReport a op resRefusedParam := by
  unfold State.axOrderTo
  simp [hheld, hparam]

/-- A stop of an axis in motion is reported RUNNING, and the axis brakes. -/
theorem State.axStopOrder_moving {s : State} {a : Nat} (op : Nat) (emerg : Bool) (hheld : s.sledHeld a = false)
    (hmoves : s.axInMotion a = true) : s.axStopOrder a op emerg = (s.axReport a op resRunning).axHalt a emerg := by
  unfold State.axStopOrder
  simp [hheld, hmoves]

@[simp] theorem State.axInMotion_axReport (s : State) (a op result : Nat) :
    (s.axReport a op result).axInMotion a = s.axInMotion a := by
  simp -implicitDefEqProofs [State.axInMotion, State.axState]

/-- What the order of a move leaves: STATE, the target, and the report. -/
theorem moveOrder_spec {s : State} {p : Path} {a : Fin 7} {op : Nat} {target : Int} {f : State → State} (hopen : s.opens p)
    (hmode : s.mode = modeMaintain) (hop : op < 16)
    (hf : f (s.rxMessage p false) = ((s.rxMessage p false).axReport a op resRunning).axMove a target) :
    ∃ t, (.next (s.writeBy p (s.mode == modeMaintain) f) : Out) = .next t ∧ t.wstat = stOk ∧ t.axState a = axMoving ∧
      (t.axOf a).dest = some target ∧ t.get (AX_RES_RESULT a) = 1 ∧ t.get (AX_RES_OP a) = op ∧
      t.get (AX_RES_SEQ a) = (s.get (AX_RES_SEQ a) + 1) % ((AX_RES_SEQ a).top + 1) := by
  obtain ⟨hstate, hdest⟩ := ((s.rxMessage p false).axReport a op resRunning).axMove_spec a target
  obtain ⟨hresult, hshown, hseq⟩ := (s.rxMessage p false).axReport_spec a hop (show resRunning < 16 by decide)
  rw [State.axGet_rxMessage _ _ _ (by decide)] at hseq
  refine ⟨_, congrArg _ (writeBy_opens _ hopen (by simp [hmode])), rfl, ?_⟩
  rw [hf, State.status_axState, State.status_axOf, State.status_get, State.status_get, State.status_get]
  refine ⟨hstate, hdest, ?_, ?_, ?_⟩
  · exact (State.axGet_axMove _ _ (by decide)).trans hresult
  · exact (State.axGet_axMove _ _ (by decide)).trans hshown
  · exact (State.axGet_axMove _ _ (by decide)).trans hseq

/-- What the order of a stop leaves of a moving axis. -/
theorem stopOrder_spec {s : State} {p : Path} {a : Fin 7} {op : Nat} (emerg : Bool) (hopen : s.opens p)
    (hmode : s.mode = modeMaintain) (hheld : s.sledHeld a = false) (hmoves : s.axState a = axMoving) (hop : op < 16) :
    ∃ t, (.next (s.writeBy p (s.mode == modeMaintain) fun t => t.axStopOrder a op emerg) : Out) = .next t ∧ t.wstat = stOk ∧
      t.axState a = axStopping ∧ (t.axOf a).dest = none ∧ (t.axOf a).emerg = (emerg || (s.axOf a).emerg) ∧
      t.get (AX_RES_RESULT a) = 1 ∧ t.get (AX_RES_OP a) = op := by
  have hmotion : (s.rxMessage p false).axInMotion a = true := by
    rw [State.axInMotion_rxMessage, State.axInMotion, hmoves]
    rfl
  obtain ⟨hstate, hdest, hemerg⟩ := State.axHalt_moving emerg
    ((State.axInMotion_axReport (s.rxMessage p false) a op resRunning).trans hmotion)
  rw [State.axReport_axOf, State.rxMessage_axOf] at hemerg
  obtain ⟨hresult, hshown, -⟩ := (s.rxMessage p false).axReport_spec a hop (show resRunning < 16 by decide)
  refine ⟨_, congrArg _ (writeBy_opens _ hopen (by simp [hmode])), rfl, ?_⟩
  rw [State.axStopOrder_moving op emerg ((s.sledHeld_rxMessage p false a).trans hheld) hmotion, State.status_axState,
    State.status_axOf, State.status_get, State.status_get]
  refine ⟨hstate, hdest, hemerg, ?_, ?_⟩
  · exact (State.axGet_axHalt _ _ (by decide) (by decide)).trans hresult
  · exact (State.axGet_axHalt _ _ (by decide) (by decide)).trans hshown

/-! ### What an order leaves beside its axis -/

/-- The state without what an order to an axis writes. -/
def State.offOrder (s : State) : State := { s.offAxes with wstat := 0 }

/-- From `s` to `t` at most the records of the axes, the status and the words of axis `a` and of the count of messages have
changed. -/
abbrev State.upToOrder (s : State) (a : Nat) (t : State) : Prop :=
  s.stays State.offOrder (fun b => b / 0x1000 ≠ 0x60 + a ∧ b ≠ NET_SVC_STAT) t

namespace State.stays

variable {s t : State} {a : Nat}

theorem ofAxis (h : s.upToAxis a t) : s.upToOrder a t := h.mono (fun _ => rfl) fun _ hb => hb.1

theorem orderWrite (s : State) (p : Path) (ok : Bool) {f : State → State} (hf : ∀ u : State, u.upToAxis a (f u)) :
    s.upToOrder a (s.writeBy p ok f) :=
  writeBy s p ok (fun _ _ _ => rfl) (fun _ hb => hb.2) fun u => ofAxis (hf u)

theorem orderFrame (h : s.upToOrder a t) :
    t = { s with regs := t.regs, wstat := t.wstat, ax := t.ax } ∧
      ∀ b, b / 0x1000 ≠ 0x60 + a → b ≠ NET_SVC_STAT → t.reg b = s.reg b := by
  obtain ⟨hrest, hregs⟩ := h
  refine ⟨?_, fun b hb hb' => hregs b ⟨hb, hb'⟩⟩
  calc t = { t.offOrder with regs := t.regs, wstat := t.wstat, ax := t.ax } := rfl
    _ = _ := by rw [hrest]; rfl

theorem axOrderTo (s : State) (a op : Nat) (target : Int) : s.upToAxis a (s.axOrderTo a op target) :=
  .ite (axReport s a _ _) (.ite (axReport s a _ _) (.ite ((axReport s a _ _).trans (axMove _ a _)) (axReport s a _ _)))

theorem axStopOrder (s : State) (a op : Nat) (emerg : Bool) : s.upToAxis a (s.axStopOrder a op emerg) :=
  .ite (axReport s a _ _) (.ite ((axReport s a _ _).trans (axHalt _ a _)) (axReport s a _ _))

/-- An axis leaves GEARED where it stands. -/
theorem axUngear (s : State) (a : Nat) :
    s.upToAxis a (((s.axStandAt a (s.axPos a)).set (AX_STAT_STATE a) axIdle).set (AX_CTL_MODE a) 0) :=
  (axStandAt s a _).trans ((axField _ _ (by decide)).trans (axField _ _ (by decide)))

end State.stays

theorem execAxStart_upToOrder {p : Path} {a : Fin 7} {s t : State} (h : execAxStart p a s = .next t) : s.upToOrder a t :=
  Host.Outcome.next.inj h ▸ .orderWrite s p _ fun u => .axOrderTo u a _ _

theorem execAxPark_upToOrder {p : Path} {a : Fin 7} {s t : State} (h : execAxPark p a s = .next t) : s.upToOrder a t :=
  Host.Outcome.next.inj h ▸ .orderWrite s p _ fun u =>
    (State.stays.ite (.axUngear u a) (.refl u)).trans (.axOrderTo _ a _ _)

theorem execAxStop_upToOrder {p : Path} {a : Fin 7} {s t : State} (h : execAxStop p a s = .next t) : s.upToOrder a t :=
  Host.Outcome.next.inj h ▸ .orderWrite s p _ fun u => .axStopOrder u a _ _

theorem execEstop_upToOrder {p : Path} {a : Fin 7} {s t : State} (h : execEstop p a s = .next t) : s.upToOrder a t :=
  Host.Outcome.next.inj h ▸ .orderWrite s p _ fun u => .axStopOrder u a _ _

theorem execAxHome_upToOrder {p : Path} {a : Fin 7} {s t : State} (h : execAxHome p a s = .next t) : s.upToOrder a t :=
  Host.Outcome.next.inj h ▸ .orderWrite s p _ fun u =>
    .ite (.axReport u a _ _) (.ite (.axReport u a _ _) (.ite ((State.stays.axReport u a _ _).trans (.axHomeStart _ a))
      (.axReport u a _ _)))

theorem execAxMode_upToOrder {p : Path} {a : Fin 7} {m : BitVec 2} {s t : State} (h : execAxMode p a m s = .next t) :
    s.upToOrder a t :=
  Host.Outcome.next.inj h ▸ .orderWrite s p _ fun u =>
    .ite (.axReport u a _ _) (.ite
      (.ite ((State.stays.axUngear u a).trans (.axReport _ a _ _)) ((State.stays.axField u _ (by decide)).trans (.axReport _ a _ _)))
      (.ite ((State.stays.axGear u a).trans (.axReport _ a _ _)) (.ite (.axReport u a _ _) (.axReport u a _ _))))

theorem execAxEnable_upToOrder {p : Path} {a : Fin 7} {en : Bool} {s t : State} (h : execAxEnable p a en s = .next t) :
    s.upToOrder a t :=
  Host.Outcome.next.inj h ▸ .orderWrite s p _ fun u =>
    (State.stays.axFlag u en (by decide)).trans (.ite
      ((State.stays.axField _ _ (by decide)).trans ((State.stays.axRecord _ a _).trans (.axOn _ a)))
      (.axHaltOff _ a _))

/-! ### The rows of an axis -/

/-- A report leaves the axis as it was. -/
theorem State.axState_axReport (s : State) (a op result : Nat) : (s.axReport a op result).axState a = s.axState a :=
  State.axGet_axReport s op result (by decide)

/-- The search of a homing and its side are those of the axis before the report. -/
theorem State.axReport_home (s : State) (a : Fin 7) (op result : Nat) :
    (s.axReport a op result).homeSearch a = s.homeSearch a ∧
      (s.axReport a op result).endActive a ((s.axReport a op result).homeDir a) = s.endActive a (s.homeDir a) := by
  constructor
  · simp -implicitDefEqProofs [State.homeSearch, State.flag]
  · simp -implicitDefEqProofs [State.endActive, State.homeDir, State.flag]

theorem State.rxMessage_home (s : State) (p : Path) (x : Bool) (a : Nat) :
    (s.rxMessage p x).homeSearch a = s.homeSearch a ∧
      (s.rxMessage p x).endActive a ((s.rxMessage p x).homeDir a) = s.endActive a (s.homeDir a) := by
  constructor
  · simp -implicitDefEqProofs [State.homeSearch, State.flag]
  · simp -implicitDefEqProofs [State.endActive, State.homeDir, State.flag]

/-- An axis that is not geared parks as any other position order. -/
theorem execAxPark_idle {p : Path} {a : Fin 7} {s : State} (hopen : s.opens p) (hmode : s.mode = modeMaintain)
    (hidle : s.axState a = axIdle) :
    execAxPark p a s =
      .next (s.writeBy p (s.mode == modeMaintain) fun t => t.axOrderTo a opPark (t.getInt (AX_SLIM_LO_LIM a))) := by
  unfold execAxPark
  rw [writeBy_opens _ hopen (by simp [hmode]), writeBy_opens _ hopen (by simp [hmode])]
  rw [if_neg (by simp [hidle])]

/-- The order of a homing, where its conditions hold. -/
theorem execAxHome_starts {p : Path} {a : Fin 7} {s : State} (hopen : s.opens p) (hmode : s.mode = modeMaintain)
    (hheld : s.sledHeld a = false) (hparam : s.axBadParam a (s.getInt (AX_SLIM_LO_LIM a)) = false)
    (hidle : s.axState a = axIdle) (hcorr : a.val = axZ → s.xInCorridor = true) :
    execAxHome p a s =
      .next ((((s.rxMessage p false).axReport a opHome resRunning).axHomeStart a).status stOk) := by
  unfold execAxHome
  rw [writeBy_opens _ hopen (by simp [hmode]), State.sledHeld_rxMessage, State.axGetInt_rxMessage _ _ _ (by decide),
    State.axBadParam_rxMessage, State.axState_rxMessage, State.xInCorridor_rxMessage, hheld, hparam]
  simp only [Bool.false_eq_true, if_false]
  rw [if_pos ⟨hidle, hcorr⟩]

/-- The order to leave GEARED. -/
def State.ungeared (s : State) (a : Nat) : State :=
  if s.axState a = axGeared then ((s.axStandAt a (s.axPos a)).set (AX_STAT_STATE a) axIdle).set (AX_CTL_MODE a) 0
  else s.set (AX_CTL_MODE a) 0

theorem State.ungeared_spec (s : State) (a : Fin 7) :
    (s.ungeared a).axState a = (if s.axState a = axGeared then axIdle else s.axState a) ∧
      (s.ungeared a).get (AX_CTL_MODE a) = 0 := by
  unfold State.ungeared
  split
  · constructor <;> simp -implicitDefEqProofs [State.axState, State.get_set_here, axIdle]
  · constructor <;> simp -implicitDefEqProofs [State.axState, State.get_set_here]

theorem execAxMode_ungears {p : Path} {a : Fin 7} {s : State} (hopen : s.opens p) (hmode : s.mode = modeMaintain)
    (hheld : s.sledHeld a = false) :
    execAxMode p a 0 s = .next ((((s.rxMessage p false).ungeared a).axReport a opMode resDone).status stOk) := by
  unfold execAxMode State.ungeared
  rw [writeBy_opens _ hopen (by simp [hmode]), State.sledHeld_rxMessage, hheld]
  simp only [Bool.false_eq_true, if_false, if_true, apply_ite (State.axReport · a opMode resDone)]

theorem execAxMode_gears {p : Path} {a : Fin 7} {s : State} (hopen : s.opens p) (hmode : s.mode = modeMaintain)
    (hheld : s.sledHeld a = false) (hsled : a.val < 4) (hidle : s.axState a = axIdle) :
    execAxMode p a 1 s = .next ((((s.rxMessage p false).axGear a).axReport a opMode resDone).status stOk) := by
  unfold execAxMode
  rw [writeBy_opens _ hopen (by simp [hmode, hsled]), State.sledHeld_rxMessage, hheld]
  simp only [Bool.false_eq_true, if_false]
  rw [if_neg (by decide), State.axState_rxMessage, if_pos hidle]

/-- A report of MODE leaves what gearing shows. -/
theorem State.axReport_mode (s : State) (a : Fin 7) (op : Nat) {result : Nat} (hres : result < 16) :
    (s.axReport a op result).axState a = s.axState a ∧ (s.axReport a op result).get (AX_CTL_MODE a) = s.get (AX_CTL_MODE a) ∧
      (s.axReport a op result).get (AX_RES_RESULT a) = result :=
  ⟨State.axGet_axReport s _ _ (by decide), State.axGet_axReport s _ _ (by decide), by
    simp -implicitDefEqProofs [State.axReport, State.get_set_here, Nat.mod_eq_of_lt hres]⟩

/-- ENABLE is shown, and what kept the axis off is forgotten. -/
def State.enabled (s : State) (a : Nat) : State :=
  ((s.setFlag (AX_CTL_ENABLE a) true).set (AX_STAT_CHATTER a) 0).modAx a fun k => { k with blown := false }

theorem State.enabled_spec (s : State) (a : Fin 7) :
    (s.enabled a).flag (AX_CTL_ENABLE a) = true ∧ (s.enabled a).flag (AX_STAT_CHATTER a) = false ∧
      (s.enabled a).axState a = s.axState a ∧ ((s.enabled a).axOf a).blown = false := by
  refine ⟨?_, State.flag_set_zero_here _ (by decide), ?_, ?_⟩
  · rw [State.flag, State.enabled, State.modAx_get, State.axGet_set _ _ (by decide) (by decide) (by decide)]
    exact State.flag_setFlag_here s true (by decide)
  · simp -implicitDefEqProofs [State.enabled, State.axState]
  · simp -implicitDefEqProofs [State.enabled]

/-- An enabled axis that nothing keeps off comes on in IDLE. -/
theorem State.axOn_disabled {s : State} {a : Nat} (hen : s.flag (AX_CTL_ENABLE a) = true)
    (hchat : s.flag (AX_STAT_CHATTER a) = false) (hblown : (s.axOf a).blown = false) (hoff : s.axState a = axDisabled) :
    s.axOn a = (s.modAx a fun k => { k with since := s.tick }).set (AX_STAT_STATE a) axIdle := by
  unfold State.axOn
  rw [if_neg (by simp [hen, hchat, hblown]), if_pos hoff]

theorem execAxEnable_on {p : Path} {a : Fin 7} {s : State} (hopen : s.opens p) :
    execAxEnable p a true s = .next ((((s.rxMessage p false).enabled a).axOn a).status stOk) := by
  unfold execAxEnable
  rw [writeBy_opens _ hopen rfl, State.enabled]
  simp only [if_true]

theorem execAxEnable_off {p : Path} {a : Fin 7} {s : State} (hopen : s.opens p) :
    execAxEnable p a false s =
      .next ((((s.rxMessage p false).setFlag (AX_CTL_ENABLE a) false).axHaltOff a false).status stOk) := by
  unfold execAxEnable
  rw [writeBy_opens _ hopen rfl]
  simp only [Bool.false_eq_true, if_false]

/-- Settles O26: an order that is taken is `moveOrder_spec` or `stopOrder_spec`, or one rule of the axis (`State.axHomeStart_spec`,
`State.axGear_spec`) beside its report; what each leaves alone is put together from the axis's operations. In the last clause `b`
elaborates as a `Fin 7`; `State.stays.orderFrame` says it of every word. -/
theorem axisOrdersAreReported : Obligations.AxisOrdersAreReported := by
  refine ⟨?start, ?badParam, ?park, ?stop, ?estop, ?home, ?gear, ?ungear, ?enable, ?disable, ?refused, ?frame⟩
  case start =>
    intro p a s hopen hmode hheld hparam hidle hzx haway
    refine moveOrder_spec hopen hmode (by decide) ?_
    rw [State.axGetInt_rxMessage _ _ _ (by decide)]
    exact State.axOrderTo_starts (by simpa using hheld) (by simpa using hparam) (by simpa using hidle) (by simpa using hzx)
      (by simpa using haway)
  case badParam =>
    intro p a s hopen hmode hheld hparam
    obtain ⟨hresult, -⟩ := (s.rxMessage p false).axReport_spec a (op := opStart) (result := resRefusedParam) (by decide) (by decide)
    refine ⟨_, congrArg Host.Outcome.next (writeBy_opens _ hopen (by simp [hmode])), rfl, ?_⟩
    rw [State.axOrderTo_badParam (by simpa using hheld) (by simpa using hparam), State.status_get, State.status_axState,
      State.axState_axReport, State.axState_rxMessage]
    exact ⟨hresult, rfl⟩
  case park =>
    intro p a s hopen hmode hheld hparam hidle hzx haway
    obtain ⟨t, hrow, hok, hstate, hdest, hresult, -⟩ := moveOrder_spec (a := a) (op := opPark)
      (target := s.getInt (AX_SLIM_LO_LIM a)) (f := fun t => t.axOrderTo a opPark (t.getInt (AX_SLIM_LO_LIM a))) hopen hmode
      (by decide) (by
        rw [State.axGetInt_rxMessage _ _ _ (by decide)]
        exact State.axOrderTo_starts (by simpa using hheld) (by simpa using hparam) (by simpa using hidle) (by simpa using hzx)
          (by simpa using haway))
    exact ⟨t, (execAxPark_idle hopen hmode hidle).trans hrow, hok, hstate, hdest, hresult⟩
  case stop =>
    intro p a s hopen hmode hheld hmoves
    obtain ⟨t, hrow, hok, hstate, hdest, -, hresult, hop⟩ :=
      stopOrder_spec (op := opStop) false hopen hmode hheld hmoves (by decide)
    exact ⟨t, hrow, hok, hstate, hdest, hresult, hop⟩
  case estop =>
    intro p a s hopen hmode hheld hmoves
    obtain ⟨t, hrow, hok, hstate, -, hemerg, hresult, hop⟩ :=
      stopOrder_spec (op := opEstop) true hopen hmode hheld hmoves (by decide)
    exact ⟨t, hrow, hok, hstate, hemerg, hresult, hop⟩
  case home =>
    intro p a s hopen hmode hheld hparam hidle hcorr
    obtain ⟨hstate, hhome, hrev⟩ := ((s.rxMessage p false).axReport a opHome resRunning).axHomeStart_spec a
    obtain ⟨hresult, -⟩ := (s.rxMessage p false).axReport_spec a (op := opHome) (result := resRunning) (by decide) (by decide)
    obtain ⟨hsearch, hend⟩ := (s.rxMessage p false).axReport_home a opHome resRunning
    obtain ⟨hsearch', hend'⟩ := s.rxMessage_home p false a
    refine ⟨_, execAxHome_starts hopen hmode hheld hparam hidle hcorr, rfl, ?_⟩
    rw [State.status_axState, State.status_axOf, State.status_flag, State.status_get, State.axGet_axHomeStart _ (by decide)]
    exact ⟨hstate, hhome.trans (hsearch.trans hsearch'), hrev.trans (hend.trans hend'), hresult⟩
  case gear =>
    intro p a s hopen hmode hheld hsled hidle
    obtain ⟨hstate, hgear⟩ := (s.rxMessage p false).axGear_spec a
    obtain ⟨hstate', hgear', hresult⟩ := ((s.rxMessage p false).axGear a).axReport_mode a opMode (show resDone < 16 by decide)
    refine ⟨_, execAxMode_gears hopen hmode hheld hsled hidle, rfl, ?_⟩
    rw [State.status_axState, State.status_get, State.status_get]
    exact ⟨hstate'.trans hstate, hgear'.trans hgear, hresult⟩
  case ungear =>
    intro p a s hopen hmode hheld
    obtain ⟨hstate, hgear⟩ := (s.rxMessage p false).ungeared_spec a
    obtain ⟨hstate', hgear', hresult⟩ := ((s.rxMessage p false).ungeared a).axReport_mode a opMode (show resDone < 16 by decide)
    rw [State.axState_rxMessage] at hstate
    refine ⟨_, execAxMode_ungears hopen hmode hheld, rfl, ?_⟩
    rw [State.status_axState, State.status_get, State.status_get]
    exact ⟨hstate'.trans hstate, hgear'.trans hgear, hresult⟩
  case enable =>
    intro p a s hopen hoff
    obtain ⟨hen, hchat, hstate, hblown⟩ := (s.rxMessage p false).enabled_spec a
    have hon := State.axOn_disabled hen hchat hblown (hstate.trans ((s.axState_rxMessage p false a).trans hoff))
    refine ⟨_, execAxEnable_on hopen, rfl, ?_⟩
    rw [hon, State.status_axState, State.status_flag, State.status_flag]
    refine ⟨?_, ?_, ?_⟩
    · simp -implicitDefEqProofs [State.axState, State.get_set_here, axIdle]
    · rw [State.axFlag_set _ _ (by decide) (by decide) (by decide), State.modAx_flag]
      exact hen
    · rw [State.axFlag_set _ _ (by decide) (by decide) (by decide), State.modAx_flag]
      exact hchat
  case disable =>
    intro p a s hopen hidle
    have hstand : ((s.rxMessage p false).setFlag (AX_CTL_ENABLE a) false).axState a = axIdle := by
      simpa -implicitDefEqProofs [State.axState] using hidle
    refine ⟨_, execAxEnable_off hopen, rfl, ?_⟩
    rw [State.axHaltOff_standing false hstand, State.status_axState, State.status_flag, State.flag,
      State.axGet_axOff _ (by decide) (by decide)]
    exact ⟨State.axOff_state _ a, State.flag_setFlag_here _ false (by decide)⟩
  case refused =>
    intro p a s hopen hmode
    exact ⟨_, congrArg Host.Outcome.next (writeBy_refused _ hopen (by simp [hmode])), rfl,
      fun b hb => State.reg_rxMessage s p false hb⟩
  case frame =>
    intro p a m en s t h
    have hstep : s.upToOrder a t := by
      rcases h with h | h | h | h | h | h | h
      · exact execAxStart_upToOrder h
      · exact execAxPark_upToOrder h
      · exact execAxStop_upToOrder h
      · exact execEstop_upToOrder h
      · exact execAxHome_upToOrder h
      · exact execAxMode_upToOrder h
      · exact execAxEnable_upToOrder h
    obtain ⟨hrest, hregs⟩ := hstep.orderFrame
    exact ⟨hrest, fun b _ hb => hregs b (by omega) hb⟩

end Sys2Proof.Machine
end

section
/-!
PROOFS of the statements of 06_axes_and_picker.md, continued: profile words, arrivals, trips, switches and the change of gear (O27).
-/

namespace Sys2Proof.Machine

open Sys2Proof

/-! ### Faults of an axis -/

/-- A fault of an axis is counted, whatever the axis's operations do then. -/
theorem State.count_axFault {s t : State} {a : Fin 7} (kind arg : Nat) (hk : kind ≠ 0x3F)
    (h : (s.axFault a kind arg).upToAxis a t) :
    (t.reg (keySrc (0x050 + a) 0)).toNat = min 0xFFFFFFFF ((s.reg (keySrc (0x050 + a) 0)).toNat + 1) := by
  rw [h.2 _ (by dsimp only [keySrc]; omega)]
  exact State.count_raise s arg hk

namespace State.stays

variable {s t : State} {a : Nat}

theorem axLoseHome (s : State) (a : Nat) : s.upToAxis a (s.axLoseHome a) := axField s _ (by decide)

theorem axTally (s : State) {a b h l : Nat} (n : Nat) (hb : 0x60000 ≤ b ∧ b < 0x61000) :
    s.upToAxis a (s.addSat ⟨b + 0x1000 * a, h, l⟩ n) := axField s _ hb

theorem homeStep (s : State) (a : Nat) (at_ : HomeAt) (dest : Option Int) : s.upToAxis a (s.homeStep a at_ dest) :=
  (axRecord s a _).trans (axField _ _ (by decide))

theorem axArrive (s : State) (a : Nat) : s.upToAxis a (s.axArrive a) := by
  unfold State.axArrive
  dsimp only
  split
  · refine (axStandAt s a _).trans ((axRecord _ a _).trans ((axField _ _ (by decide)).trans ((axField _ _ (by decide)).trans
      ((axResult _ a _).trans (.ite (axisOff _ a) (.ite (axGear _ a) ?_))))))
    exact (axRecord _ a _).trans (axField _ _ (by decide))
  · exact (axStandAt s a _).trans ((axRecord _ a _).trans (.ite (homeStep _ a _ _) (homeStep _ a _ _)))
  · exact (axStandAt s a _).trans ((axRecord _ a _).trans ((axField _ _ (by decide)).trans (axField _ _ (by decide))))
  · exact (axStandAt s a _).trans (homeStep _ a _ _)
  · exact refl s

end State.stays

/-! ### Profile words (R268, R277) -/

/-- A moving axis that follows no other latches its profile words. -/
def State.profileLatched (s : State) (a : Nat) : State :=
  if s.axInMotion a ∧ s.flag (AX_STAT_INTERP a) = false then s.modAx a fun k => { k with latched := true } else s

theorem State.profileLatched_reg (s : State) (a b : Nat) : (s.profileLatched a).reg b = s.reg b := by
  unfold State.profileLatched
  split <;> rfl

theorem State.profileLatched_axOf {s : State} {a : Fin 7} (hmoves : s.axInMotion a = true)
    (hlead : s.flag (AX_STAT_INTERP a) = false) : ((s.profileLatched a).axOf a).latched = true := by
  rw [State.profileLatched, if_pos ⟨hmoves, hlead⟩, State.modAx_axOf]

theorem execAxProfileWrite_eq {p : Path} {a : Fin 7} {w : Fin 5} {v : Word} {s : State} (hopen : s.opens p) (hw : w.val < 4) :
    execAxProfileWrite p a w v s =
      .next ((((s.rxMessage p false).setReg (AX_VSS a + 4 * w.val) v).profileLatched a).status stOk) := by
  unfold execAxProfileWrite State.profileLatched
  rw [writeBy_opens _ hopen rfl]
  simp only [if_neg (show ¬ w.val = 4 by omega)]

/-- The profile words are not AX_STAT. -/
theorem State.axStat_setProfile (s : State) {a w h l : Nat} (v : Word) :
    (s.setReg (AX_VSS a + 4 * w) v).get ⟨AX_STAT a, h, l⟩ = s.get ⟨AX_STAT a, h, l⟩ :=
  State.get_setReg_other s v (by dsimp only [AX_STAT, AX_VSS]; omega)

/-! ### Arrivals (R266) -/

/-- A position move that has arrived: the axis stands on its target, and its order is done. -/
theorem State.axArrive_move {s : State} {a : Nat} {d : Int} (hmoves : s.axState a = axMoving) (hhome : (s.axOf a).home = .no)
    (hdest : (s.axOf a).dest = some d) (hoff : (s.axOf a).offAfter = false) (hcoarse : (s.axOf a).coarse = false) :
    s.axArrive a =
      (((((((s.axStandAt a d).modAx a fun q => { q with since := (s.axOf a).since, line := none }).set (AX_STAT_LEAD a) 0).set
        (AX_STAT_INTERP a) 0).axResult a resDone).modAx a fun k => { k with emerg := false, latched := false }).set
          (AX_STAT_STATE a) axIdle) := by
  unfold State.axArrive
  simp [hmoves, hhome, hdest, hoff, hcoarse]

theorem State.axArrive_move_spec {s : State} {a : Fin 7} {d : Int} (hmoves : s.axState a = axMoving)
    (hhome : (s.axOf a).home = .no) (hdest : (s.axOf a).dest = some d) (hoff : (s.axOf a).offAfter = false)
    (hcoarse : (s.axOf a).coarse = false) (hlo : -(2 ^ 31) ≤ d) (hhi : d < 2 ^ 31) :
    (s.axArrive a).axState a = axIdle ∧ (s.axArrive a).axPos a = d ∧ (s.axArrive a).get (AX_VEL_VEL a) = 0 ∧
      ((s.axArrive a).axOf a).dest = none := by
  obtain ⟨hpos, hvel, hnone⟩ := s.axStandAt_spec a hlo hhi
  rw [State.axArrive_move hmoves hhome hdest hoff hcoarse]
  refine ⟨?_, ?_, ?_, ?_⟩
  · simp -implicitDefEqProofs [State.axState, State.get_set_here, axIdle]
  · simpa -implicitDefEqProofs [State.axPos, State.getInt] using hpos
  · simpa -implicitDefEqProofs using hvel
  · simpa -implicitDefEqProofs using hnone

/-! ### Over-current, chatter and end-of-travel switches (R262, R280, R281) -/

theorem State.axTripped_sled (s : State) {a : Nat} (ha : a < 4) : s.axTripped a = s := if_neg (by omega)

theorem State.axHomed_axLoseHome (s : State) (a : Nat) : (s.axLoseHome a).axHomed a = false :=
  State.flag_set_zero_here s (by decide)

/-- HOMED is left by what an axis does after it has lost its reference. -/
theorem State.axHomed_of_get {s t : State} {a : Nat} (h : t.get (AX_STAT_HOMED a) = s.get (AX_STAT_HOMED a)) :
    t.axHomed a = s.axHomed a := congrArg (· == 1) h

@[simp] theorem State.axGet_axLoseHome (s : State) {a b h l : Nat} (hd : b ≠ 0x60004 ∨ h < 4 ∨ 4 < l) :
    (s.axLoseHome a).get ⟨b + 0x1000 * a, h, l⟩ = s.get ⟨b + 0x1000 * a, h, l⟩ :=
  State.axGet_set s 0 (by decide) (by decide) hd

/-- The axis after an over-current, before Badger reacts. -/
def State.overcurrent (s : State) (a : Nat) : State :=
  ((((s.axFault a 4 a).axLoseHome a).axResult a resFailed).axOff a).modAx a fun k => { k with blown := true }

theorem State.overcurrent_spec (s : State) (a : Fin 7) :
    (s.overcurrent a).axState a = axDisabled ∧ (s.overcurrent a).axHomed a = false ∧
      ((s.overcurrent a).reg (keySrc (0x050 + a) 0)).toNat = min 0xFFFFFFFF ((s.reg (keySrc (0x050 + a) 0)).toNat + 1) := by
  refine ⟨?_, ?_, State.count_axFault 4 a (by decide) ?_⟩
  · rw [State.overcurrent, State.axState, State.modAx_get]
    exact State.axOff_state _ a
  · rw [State.axHomed_of_get (s := (s.axFault a 4 a).axLoseHome a) (by simp -implicitDefEqProofs [State.overcurrent]),
      State.axHomed_axLoseHome]
  · exact (State.stays.axLoseHome _ a).trans ((State.stays.axResult _ a _).trans
      ((State.stays.axisOff _ a).trans (.axRecord _ a _)))

/-- The count of chatter rises, and CHATTER is shown. -/
def State.chatterShown (s : State) (a : Nat) (input : Nat) : State :=
  (((s.axFault a 2 (a + 16 * input)).addSat (AX_SW_CHAT_CNT a) 1).set (AX_STAT_CHATTER a) 1).axLoseHome a

/-- The axis after chatter, before Badger reacts. -/
def State.chattered (s : State) (a : Nat) (input : Nat) : State :=
  (((s.chatterShown a input).axResult a resFailed).modAx a fun k => k.calm input).axHaltOff a true

theorem execLimitChatter_sled {a : Fin 7} {i : Fin 3} {s : State} (ha : a.val < 4)
    (hmany : s.get (AX_LIM_CFG_CHAT_N a) < s.transOf a i) : execLimitChatter a i s = .next (s.chattered a i) :=
  (if_pos hmany).trans (congrArg _ (State.axTripped_sled _ ha))

/-- What follows leaves CHATTER, HOMED and the count. -/
theorem State.axGet_chattered (s : State) {a i b h l : Nat} (hb : b = 0x6003C ∨ b = 0x60004 ∧ 3 < l ∧ (h < 5 ∨ 5 < l)) :
    (s.chattered a i).get ⟨b + 0x1000 * a, h, l⟩ = (s.chatterShown a i).get ⟨b + 0x1000 * a, h, l⟩ := by
  rw [State.chattered, State.axGet_axHaltOff _ _ (by omega) (by omega) (by omega), State.modAx_get,
    State.axGet_axResult _ _ (by omega)]

theorem State.chattered_spec (s : State) (a : Fin 7) (i : Nat) :
    (s.chattered a i).flag (AX_STAT_CHATTER a) = true ∧ (s.chattered a i).axHomed a = false ∧
      (s.chattered a i).get (AX_SW_CHAT_CNT a) = min (AX_SW_CHAT_CNT a).top (s.get (AX_SW_CHAT_CNT a) + 1) ∧
      ((s.chattered a i).reg (keySrc (0x050 + a) 0)).toNat = min 0xFFFFFFFF ((s.reg (keySrc (0x050 + a) 0)).toNat + 1) := by
  refine ⟨?_, ?_, ?_, State.count_axFault 2 (a + 16 * i) (by decide) ?_⟩
  · rw [State.flag, State.axGet_chattered _ (by decide), State.chatterShown, State.axGet_axLoseHome _ (by decide)]
    exact State.flag_set_one_here _ (by decide)
  · rw [State.axHomed_of_get (State.axGet_chattered s (by decide)), State.chatterShown, State.axHomed_axLoseHome]
  · rw [State.axGet_chattered _ (by decide)]
    simp -implicitDefEqProofs [State.chatterShown, State.get_addSat_here, Fld.top]
  · exact (State.stays.axTally _ 1 (by decide)).trans ((State.stays.axField _ 1 (by decide)).trans
      ((State.stays.axLoseHome _ a).trans ((State.stays.axResult _ a _).trans
        ((State.stays.axRecord _ a _).trans (.axHaltOff _ a true)))))

/-- An end trips on a sled that stands. -/
theorem State.limitHit_standing {s : State} {a : Fin 7} {pos : Bool} (ha : a.val < 4) (hidle : s.axState a = axIdle) :
    s.limitHit a pos =
      (((s.axFault a 1 (a + (if pos then 128 else 0))).axResult a resFailed).axLoseHome a).modAx a fun k =>
        { k with tripped := some pos } := by
  have hstand : ((s.axFault a 1 (a + (if pos then 128 else 0))).axResult a resFailed).axState a = axIdle := by
    simpa -implicitDefEqProofs [State.axState] using hidle
  rw [State.limitHit, State.axTripped_sled _ ha, State.axHalt_standing true hstand]

theorem State.limitHit_spec {s : State} {a : Fin 7} {pos : Bool} (ha : a.val < 4) (hidle : s.axState a = axIdle) :
    (s.limitHit a pos).axHomed a = false ∧ ((s.limitHit a pos).axOf a).tripped = some pos ∧
      (s.limitHit a pos).axState a = axIdle ∧
      (s.limitHit a pos).get (AX_STAT_LIM_POS a) = s.get (AX_STAT_LIM_POS a) ∧
      ((s.limitHit a pos).reg (keySrc (0x050 + a) 0)).toNat = min 0xFFFFFFFF ((s.reg (keySrc (0x050 + a) 0)).toNat + 1) := by
  rw [State.limitHit_standing ha hidle]
  refine ⟨?_, ?_, ?_, ?_, State.count_axFault 1 (a + (if pos then 128 else 0)) (by decide) ?_⟩
  · exact State.axHomed_axLoseHome _ a
  · simp -implicitDefEqProofs
  · simpa -implicitDefEqProofs [State.axState] using hidle
  · simp -implicitDefEqProofs
  · exact (State.stays.axResult _ a _).trans ((State.stays.axLoseHome _ a).trans (.axRecord _ a _))

/-- EOT_POS becomes active outside homing. -/
theorem execLimitSwitchChange_eotPos {a : Fin 7} {s : State} (hidle : s.axState a = axIdle) (hdeb : s.debounced a 2 true = true) :
    execLimitSwitchChange a 2 true s =
      .next (((s.setFlag (swDeb a 2) true).setFlag (AX_STAT_LIM_POS a) true).limitHit a true) := by
  unfold execLimitSwitchChange
  simp [hidle, hdeb]

/-- HOME changes outside homing. -/
theorem execLimitSwitchChange_home {a : Fin 7} {active : Bool} {s : State} (hstate : s.axState a ≠ axHoming)
    (hdeb : s.debounced a 0 active = true) :
    execLimitSwitchChange a 0 active s = .next ((s.setFlag (swDeb a 0) active).setFlag (AX_STAT_HOME_SW a) active) := by
  unfold execLimitSwitchChange
  simp [hstate, hdeb]

/-! ### The change of gear (R274) -/

/-- NEXT is the ratio, and ARM is clear. -/
def State.gearChanged (s : State) (a : Nat) : State :=
  ((if s.axState a = axGeared then s.gearRebase a else s).setReg (AX_GEAR_RATIO a) (s.reg (AX_GEAR_NEXT a))).set
    (AX_GEAR_AT_ARM a) 0

theorem State.gearChanged_reg (s : State) (a b : Nat) (hr : b ≠ AX_GEAR_RATIO a) (hg : b ≠ AX_GEAR_AT a) :
    (s.gearChanged a).reg b = s.reg b := by
  rw [State.gearChanged, State.reg_set_apart _ _ hg, State.reg_setReg_other _ _ hr]
  split <;> rfl

/-! ### What the rows leave beside the axes -/

theorem execAxProfileWrite_upToOrder {p : Path} {a : Fin 7} {w : Fin 5} {v : Word} {s t : State}
    (h : execAxProfileWrite p a w v s = .next t) : s.upToOrder a t := by
  refine Host.Outcome.next.inj h ▸ .orderWrite s p _ fun u => ?_
  have hword : ∀ keep, u.upToAxis a (u.setReg (AX_VSS a + 4 * w.val) keep) := fun keep =>
    ⟨rfl, fun b hb => State.reg_setReg_other u keep (by dsimp only [AX_VSS]; omega)⟩
  exact (hword _).trans (.ite (.axRecord _ a _) (.refl _))

theorem execAxMoveDone_upToOrder {a : Fin 7} {s t : State} (h : execAxMoveDone a s = .next t) : s.upToOrder a t :=
  eq_of_row h ▸ .ite (.ofAxis (.axArrive s a)) (.refl s)

theorem execAxDetent_upToOrder {a : Fin 7} {s t : State} (h : execAxDetent a s = .next t) : s.upToOrder a t :=
  eq_of_row h ▸ .ite (.ofAxis ((State.stays.axRecord s a _).trans ((State.stays.axField _ 1 (by decide)).trans
    (.axField _ 0 (by decide))))) (.refl s)

theorem execGearChange_upToOrder {a : Fin 4} {s t : State} (h : execGearChange a s = .next t) : s.upToOrder a t :=
  eq_of_row h ▸ .ite (.ofAxis ((State.stays.ite (.axRecord s a _) (.refl s)).trans ((State.stays.axWord _ _ (by decide)).trans
    (.axField _ 0 (by decide))))) (.refl s)

/-- Settles O27: each row is the rule of its operation (`State.axArrive_move_spec`, `State.overcurrent_spec`,
`State.chattered_spec`, `State.limitHit_spec`); what the rows leave alone is put together from the axis's operations. -/
theorem axesMoveHomeAndTrip : Obligations.AxesMoveHomeAndTrip := by
  refine ⟨?profile, ?arrive, ?overcurrent, ?chatter, ?trip, ?home, ?detent, ?gear, ?frame⟩
  case profile =>
    intro p a w v s hopen hw
    refine ⟨_, execAxProfileWrite_eq hopen hw, rfl, ?_⟩
    rw [State.status_reg, State.status_axOf, State.profileLatched_reg]
    refine ⟨State.reg_setReg_same _ _ _, fun hmoves hlead => State.profileLatched_axOf ?_ ?_, fun b hb hw' => ?_⟩
    · rw [State.axInMotion, State.axState, State.axStat_setProfile]
      exact (s.axInMotion_rxMessage p false a).trans hmoves
    · rw [State.flag, State.axStat_setProfile, State.axGet_rxMessage _ _ _ (by decide)]
      exact hlead
    · rw [State.status_reg, State.profileLatched_reg, State.reg_setReg_other _ _ hw', State.reg_rxMessage _ _ _ hb]
  case arrive =>
    intro a d s hmoves hhome hdest hoff hcoarse hrest hlo hhi
    have hmotion : s.axInMotion a = true := by simp [State.axInMotion, hmoves]
    exact ⟨_, if_pos ⟨hmotion, hrest⟩, State.axArrive_move_spec hmoves hhome hdest hoff hcoarse hlo hhi⟩
  case overcurrent =>
    intro a s ha
    exact ⟨s.overcurrent a, congrArg Host.Outcome.next (State.axTripped_sled _ ha), s.overcurrent_spec a⟩
  case chatter =>
    intro a i s ha hmany
    exact ⟨s.chattered a i, execLimitChatter_sled ha hmany, s.chattered_spec a i⟩
  case trip =>
    intro a s ha hidle hdeb
    have hstand : ((s.setFlag (swDeb a 2) true).setFlag (AX_STAT_LIM_POS a) true).axState a = axIdle := by
      simpa -implicitDefEqProofs [State.axState] using hidle
    obtain ⟨hhomed, htripped, hstate, hlim, hcount⟩ := State.limitHit_spec (pos := true) ha hstand
    refine ⟨_, execLimitSwitchChange_eotPos hidle hdeb, ?_, hhomed, htripped, hstate, ?_⟩
    · rw [State.flag, hlim]
      exact State.flag_setFlag_here _ true (by decide)
    · rw [hcount, ((State.stays.axFlag s true (by decide)).trans (.axFlag _ true (by decide))).2 (keySrc (0x050 + a) 0)
        (by dsimp only [keySrc]; omega)]
  case home =>
    intro a active s hstate hdeb
    refine ⟨_, execLimitSwitchChange_home hstate hdeb, State.flag_setFlag_here _ active (by decide), rfl, fun b hsw hstat => ?_⟩
    rw [State.setFlag, State.setFlag, State.reg_set_apart _ _ hstat, State.reg_set_apart _ _ hsw]
  case detent =>
    intro a s hidle hauto hfull hlong
    refine ⟨_, if_pos ⟨hidle, hauto, hfull, hlong⟩, ?_, State.flag_set_zero_here _ (by decide), fun b hb => ?_⟩
    · rw [State.axFlag_set _ _ (by decide) (by decide) (by decide)]
      exact State.flag_set_one_here _ (by decide)
    · rw [State.reg_set_apart _ _ hb, State.reg_set_apart _ _ hb, State.modAx_reg]
  case gear =>
    intro a s harm hat
    refine ⟨s.gearChanged a, if_pos ⟨harm, hat⟩, ?_, State.flag_set_zero_here _ (by decide), ?_, s.gearChanged_reg a⟩
    · rw [State.gearChanged, State.reg_set_apart _ _ (by dsimp only [AX_GEAR_RATIO, AX_GEAR_AT]; omega), State.reg_setReg_same]
    · exact State.get_of_reg (s.gearChanged_reg a _ (by dsimp only [AX_STAT, AX_GEAR_RATIO]; omega)
        (by dsimp only [AX_STAT, AX_GEAR_AT]; omega))
  case frame =>
    intro p a g w v s t h
    have hstep : ∃ n, n < 7 ∧ s.upToOrder n t := by
      rcases h with h | h | h | h
      · exact ⟨a, a.isLt, execAxProfileWrite_upToOrder h⟩
      · exact ⟨a, a.isLt, execAxMoveDone_upToOrder h⟩
      · exact ⟨a, a.isLt, execAxDetent_upToOrder h⟩
      · exact ⟨g, by omega, execGearChange_upToOrder h⟩
    obtain ⟨n, hn, hstep⟩ := hstep
    obtain ⟨hrest, hregs⟩ := hstep.orderFrame
    refine ⟨hrest, fun b hb => ?_⟩
    obtain ⟨hblock, -⟩ := hb
    simp only [List.mem_cons, List.not_mem_nil, or_false, not_or] at hblock
    exact hregs b (by omega) (by dsimp only [NET_SVC_STAT]; omega)

end Sys2Proof.Machine
end

section
/-!
PROOFS of the statements of 06_axes_and_picker.md, continued: orders to the picker (O28).
-/

namespace Sys2Proof.Machine

open Sys2Proof

/-! ### What lies beyond an order of MAG_CMD -/

/-- The state without what an order to the picker writes. -/
def State.offPicker (s : State) : State := { s.offOrder with mag := {} }

/-- From `s` to `t` at most the picker's record, the records of the axes, the status, and words of AX, MAG and the count of messages
have changed. -/
abbrev State.upToPicker (s t : State) : Prop :=
  s.stays State.offPicker (fun a => a / 0x10000 ≠ 6 ∧ a / 0x10000 ≠ 7 ∧ a ≠ NET_SVC_STAT) t

namespace State.stays

variable {s t : State}

theorem magField (s : State) {f : Fld} (v : Nat) (hf : f.addr / 0x10000 = 7) : s.upToPicker (s.set f v) :=
  ⟨rfl, fun _ hb => State.reg_set_other s v fun h => hb.2.1 (h ▸ hf)⟩

theorem magRecord (s : State) (f : MagSt → MagSt) : s.upToPicker (s.modMag f) := ⟨rfl, fun _ _ => rfl⟩

theorem sledPark (s : State) (n : Nat) : s.upToAxis n (s.sledPark n) :=
  .ite (.refl s) ((axField s 0 (by decide)).trans (axMove _ n _))

end State.stays

/-- The sleds of a station that are not parked park (R285). -/
def State.sledsAside (s : State) (st : Nat) : State :=
  [2 * st, 2 * st + 1].foldl (fun (t : State) n => if t.sledParked n then t else t.sledPark n) s

theorem State.stays.sledsAside (s : State) {st : Nat} (hst : st < 2) :
    s.stays State.offAxes (fun b => b / 0x10000 ≠ 6) (s.sledsAside st) := by
  have hsled : ∀ (u : State) n, n < 4 → u.stays State.offAxes (fun b => b / 0x10000 ≠ 6) (if u.sledParked n then u else u.sledPark n) :=
    fun u n hn => .ite (.refl u) ((State.stays.sledPark u n).mono (fun _ => rfl) fun b hb => by omega)
  exact (hsled s _ (by omega)).trans (hsled _ _ (by omega))

/-! ### What an order of MAG_CMD leaves -/

/-- An order of MAG_CMD is numbered and shown, in place of one that waits. -/
def State.magShown (s : State) (op : Nat) : State :=
  (((s.incWrap MAG_CMD_STAT_SEQ).set MAG_CMD_STAT_OP op).set MAG_CMD_STAT_REASON 0).modMag fun m =>
    { m with waiting := m.waiting.filter fun w => w.by_ != .maint }

/-- The order of MAG_CMD as it waits. -/
def State.magOrder (s : State) (op st slot : Nat) : MagOrder := { by_ := .maint, op := op, stn := st, slot := slot, at_ := s.tick }

/-- The order waits for the picker. -/
def State.magWaits (s : State) (op st slot : Nat) : State :=
  ((s.magShown op).set MAG_CMD_STAT_RESULT resRunning).modMag fun m => { m with waiting := m.waiting ++ [s.magOrder op st slot] }

theorem State.magCommand_accepted {s : State} {op st slot : Nat} (h : s.magAccepts op st slot = true) :
    s.magCommand op st slot =
      if 3 ≤ op ∧ op ≤ 5 then (s.magWaits op st slot).sledsAside st else s.magWaits op st slot := if_pos h

theorem State.magCommand_refused {s : State} {op st slot : Nat} (h : s.magAccepts op st slot = false) :
    s.magCommand op st slot = (s.magShown op).set MAG_CMD_STAT_RESULT resRefusedState := if_neg (by simp [h])

/-- Another field of MAG_CMD_STAT reads as before. -/
theorem State.magGet_set (s : State) {h l k m : Nat} (v : Nat) (hm : m ≤ k) (hk : k < 32) (hd : h < m ∨ k < l) :
    (s.set ⟨MAG_CMD_STAT, k, m⟩ v).get ⟨MAG_CMD_STAT, h, l⟩ = s.get ⟨MAG_CMD_STAT, h, l⟩ :=
  State.get_set_apart s v hm hk (.inr hd)

theorem State.magShown_spec (s : State) {op : Nat} (hop : op < 16) :
    (s.magShown op).get MAG_CMD_STAT_OP = op ∧
      (s.magShown op).get MAG_CMD_STAT_SEQ = (s.get MAG_CMD_STAT_SEQ + 1) % (MAG_CMD_STAT_SEQ.top + 1) := by
  constructor
  · rw [State.magShown, State.modMag_get, State.magGet_set _ _ (by decide) (by decide) (by decide),
      State.get_set_here _ _ (by decide) (by decide)]
    exact Nat.mod_eq_of_lt hop
  · rw [State.magShown, State.modMag_get, State.magGet_set _ _ (by decide) (by decide) (by decide),
      State.magGet_set _ _ (by decide) (by decide) (by decide), State.get_incWrap_here _ (by decide) (by decide)]

theorem State.magWaits_spec (s : State) {op : Nat} (st slot : Nat) (hop : op < 16) :
    (s.magWaits op st slot).get MAG_CMD_STAT_RESULT = 1 ∧ (s.magWaits op st slot).get MAG_CMD_STAT_OP = op ∧
      (s.magWaits op st slot).get MAG_CMD_STAT_SEQ = (s.get MAG_CMD_STAT_SEQ + 1) % (MAG_CMD_STAT_SEQ.top + 1) ∧
      (s.magWaits op st slot).mag.waiting.getLast? = some (s.magOrder op st slot) := by
  obtain ⟨hshown, hseq⟩ := s.magShown_spec hop
  refine ⟨?_, ?_, ?_, List.getLast?_concat⟩
  · rw [State.magWaits, State.modMag_get, State.get_set_here _ _ (by decide) (by decide)]
    rfl
  · rw [State.magWaits, State.modMag_get, State.magGet_set _ _ (by decide) (by decide) (by decide), hshown]
  · rw [State.magWaits, State.modMag_get, State.magGet_set _ _ (by decide) (by decide) (by decide), hseq]

/-- The sleds that stand aside leave the picker's report and its queue. -/
theorem State.magCommand_spec {s : State} {op st slot : Nat} (hop : op < 16) (hst : st < 2)
    (h : s.magAccepts op st slot = true) :
    (s.magCommand op st slot).get MAG_CMD_STAT_RESULT = 1 ∧ (s.magCommand op st slot).get MAG_CMD_STAT_OP = op ∧
      (s.magCommand op st slot).get MAG_CMD_STAT_SEQ = (s.get MAG_CMD_STAT_SEQ + 1) % (MAG_CMD_STAT_SEQ.top + 1) ∧
      (s.magCommand op st slot).mag.waiting.getLast? = some (s.magOrder op st slot) := by
  have haside : (s.magWaits op st slot).stays State.offAxes (fun b => b / 0x10000 ≠ 6) (s.magCommand op st slot) := by
    rw [State.magCommand_accepted h]
    exact .ite (.sledsAside _ hst) (.refl _)
  obtain ⟨hrest, hregs⟩ := haside
  have hmag : (s.magCommand op st slot).mag = (s.magWaits op st slot).mag := by
    rw [show (s.magCommand op st slot).mag = (s.magCommand op st slot).offAxes.mag from rfl, hrest]
    rfl
  have hget : ∀ h l, (s.magCommand op st slot).get ⟨MAG_CMD_STAT, h, l⟩ = (s.magWaits op st slot).get ⟨MAG_CMD_STAT, h, l⟩ :=
    fun h l => State.get_of_reg (hregs MAG_CMD_STAT (by decide))
  rw [hget, hget, hget, hmag]
  exact s.magWaits_spec st slot hop

theorem State.magShown_ax (s : State) (op : Nat) : (s.magShown op).ax = s.ax := by
  rw [State.magShown, State.modMag_ax, State.set_ax, State.set_ax, State.incWrap_ax]

/-! ### The conditions of an order and a counted message -/

theorem State.rxMessage_ax (s : State) (p : Path) (x : Bool) : (s.rxMessage p x).ax = s.ax := by
  rw [State.rxMessage_eq]

/-- The conditions read axes, stations and the picker's own words. -/
theorem State.magAccepts_rxMessage (s : State) (p : Path) (x : Bool) (op st slot : Nat) :
    (s.rxMessage p x).magAccepts op st slot = s.magAccepts op st slot := by
  have hget : ∀ {f : Fld}, f.addr ≠ NET_SVC_STAT → (s.rxMessage p x).get f = s.get f := fun hf => State.get_rxMessage s p x hf
  have hflag : ∀ {f : Fld}, f.addr ≠ NET_SVC_STAT → (s.rxMessage p x).flag f = s.flag f := fun hf => congrArg (· == 1) (hget hf)
  have hstate : (s.rxMessage p x).magState = s.magState := hget (by decide)
  have hspun : (s.rxMessage p x).spunNow st = s.spunNow st := by rw [State.rxMessage_eq]; rfl
  have hspn : (s.rxMessage p x).spnState st = s.spnState st := s.spnGet_rxMessage p x (by decide)
  have hstopped : (s.rxMessage p x).flag (SPN_STAT_STOPPED st) = s.flag (SPN_STAT_STOPPED st) :=
    congrArg (· == 1) (s.spnGet_rxMessage p x (by decide))
  have hclamped : ∀ k, (s.rxMessage p x).clamped k = s.clamped k := fun k => by
    rw [State.clamped, State.clamped, hflag (by decide), hflag (by decide)]
  have hsrc : ∀ k, (s.rxMessage p x).srcOf k = s.srcOf k := fun k => by
    rw [State.srcOf, State.srcOf, hflag (by decide), hflag (by decide), hget (by decide), hget (by decide)]
  have htarget : (s.rxMessage p x).getInt (AX_TGT_TGT axX) = s.getInt (AX_TGT_TGT axX) := s.axGetInt_rxMessage p x (by decide)
  simp -implicitDefEqProofs only [State.magAccepts, hstate, hspun, hspn, hstopped, State.sledsHomed, State.axHomed_rxMessage,
    hclamped, hsrc, State.xInCorridor_rxMessage, State.inCorridor_rxMessage, htarget]

/-- A write of MAG_CMD in MAINTAIN behind which no order runs is taken. -/
theorem State.magCmd_taken {s : State} {p : Path} {op st slot : Nat} (hopen : s.opens p) (hmode : s.mode = modeMaintain)
    (hfree : (s.mag.run.any fun o => o.by_ == .maint) = false) (hop : 1 ≤ op ∧ op ≤ 6) (hslot : slot ≤ 23) :
    s.magCmd p op st slot = ((s.rxMessage p false).magCommand op st slot).status stOk := by
  unfold State.magCmd
  refine writeBy_opens _ hopen ?_
  cases hrun : s.mag.run with
  | none => simp [hmode, hop, hslot]
  | some o =>
    rw [hrun, Option.any_some] at hfree
    simp [hmode, hop, hslot, hfree]

theorem State.magCmd_refused {s : State} {p : Path} {op st slot : Nat} (hopen : s.opens p) (hmode : s.mode ≠ modeMaintain) :
    s.magCmd p op st slot = (s.rxMessage p false).status stRegRefused := by
  unfold State.magCmd
  exact writeBy_refused _ hopen (by simp [hmode])

/-- What an order that is accepted leaves. -/
theorem magCmd_spec {s : State} {p : Path} {op st slot : Nat} (hopen : s.opens p) (hmode : s.mode = modeMaintain)
    (hfree : (s.mag.run.any fun o => o.by_ == .maint) = false) (hop : 1 ≤ op ∧ op ≤ 6) (hst : st < 2) (hslot : slot ≤ 23)
    (haccepts : s.magAccepts op st slot = true) :
    ∃ t, (.next (s.magCmd p op st slot) : Out) = .next t ∧ t.wstat = stOk ∧ t.get MAG_CMD_STAT_RESULT = 1 ∧
      t.get MAG_CMD_STAT_OP = op ∧ t.get MAG_CMD_STAT_SEQ = (s.get MAG_CMD_STAT_SEQ + 1) % (MAG_CMD_STAT_SEQ.top + 1) ∧
      t.mag.waiting.getLast? = some (s.magOrder op st slot) := by
  obtain ⟨hresult, hshown, hseq, hlast⟩ := State.magCommand_spec (by omega) hst
    ((s.magAccepts_rxMessage p false op st slot).trans haccepts)
  have hcount : (s.rxMessage p false).get MAG_CMD_STAT_SEQ = s.get MAG_CMD_STAT_SEQ := State.get_rxMessage s p false (by decide)
  have horder : (s.rxMessage p false).magOrder op st slot = s.magOrder op st slot := by rw [State.rxMessage_eq]; rfl
  rw [hcount] at hseq
  rw [horder] at hlast
  refine ⟨_, congrArg _ (State.magCmd_taken hopen hmode hfree hop hslot), rfl, ?_⟩
  rw [State.status_get, State.status_get, State.status_get, State.status_mag]
  exact ⟨hresult, hshown, hseq, hlast⟩

theorem State.stays.magShown (s : State) (op : Nat) : s.upToPicker (s.magShown op) := by
  have hcount : s.upToPicker (s.incWrap MAG_CMD_STAT_SEQ) := magField s _ (by decide)
  exact hcount.trans ((magField _ op (by decide)).trans ((magField _ 0 (by decide)).trans (magRecord _ _)))

theorem State.stays.magCommand (s : State) (op : Nat) {st : Nat} (slot : Nat) (hst : st < 2) :
    s.upToPicker (s.magCommand op st slot) := by
  have hwaits : s.upToPicker (s.magWaits op st slot) :=
    (magShown s op).trans ((magField _ resRunning (by decide)).trans (magRecord _ _))
  cases haccepts : s.magAccepts op st slot with
  | false =>
    rw [State.magCommand_refused haccepts]
    exact (magShown s op).trans (magField _ _ (by decide))
  | true =>
    rw [State.magCommand_accepted haccepts]
    exact .ite (hwaits.trans ((sledsAside _ hst).mono (fun _ => rfl) fun _ hb => hb.1)) hwaits

theorem State.stays.magCmd (s : State) (p : Path) (op : Nat) {st : Nat} (slot : Nat) (hst : st < 2) :
    s.upToPicker (s.magCmd p op st slot) := by
  unfold State.magCmd
  exact writeBy s p _ (fun _ _ _ => rfl) (fun _ hb => hb.2.2) fun u => magCommand u op slot hst

/-- Settles O28: an order that is accepted is `magCmd_spec`; what any order leaves alone is `State.stays.magCmd`. -/
theorem pickerOrdersWaitForTheGrant : Obligations.PickerOrdersWaitForTheGrant := by
  refine ⟨?homeAll, ?moveZx, ?load, ?refused, ?unload, ?exchange, ?recover, ?mode, ?frame⟩
  case homeAll =>
    intro p s hopen hmode hfree haccepts
    obtain ⟨t, hrow, hok, hresult, hop, hseq, hlast⟩ :=
      magCmd_spec hopen hmode hfree (by decide) (by decide) (by decide) haccepts
    exact ⟨t, hrow, hok, hresult, hop, hseq, by rw [hlast]; rfl⟩
  case moveZx =>
    intro p s hopen hmode hfree haccepts
    obtain ⟨t, hrow, hok, hresult, hop, hseq, hlast⟩ :=
      magCmd_spec hopen hmode hfree (by decide) (by decide) (by decide) haccepts
    exact ⟨t, hrow, hok, hresult, hop, hseq, by rw [hlast]; rfl⟩
  case load =>
    intro p st slot s hopen hmode hfree hslot haccepts
    obtain ⟨t, hrow, hok, hresult, hop, hseq, hlast⟩ := magCmd_spec hopen hmode hfree (by decide) st.isLt hslot haccepts
    exact ⟨t, hrow, hok, hresult, hop, hseq, by rw [hlast]; rfl⟩
  case refused =>
    intro p st slot s hopen hmode hfree hslot haccepts
    have hrefused := State.magCommand_refused ((s.magAccepts_rxMessage p false 3 st slot.toNat).trans haccepts)
    refine ⟨_, congrArg Host.Outcome.next (State.magCmd_taken hopen hmode hfree (by decide) hslot), rfl, ?_⟩
    rw [hrefused, State.status_get, State.status_ax, State.get_set_here _ _ (by decide) (by decide)]
    exact ⟨rfl, by rw [State.set_ax, State.magShown_ax, State.rxMessage_ax]⟩
  case unload =>
    intro p st s hopen hmode hfree haccepts
    obtain ⟨t, hrow, hok, hresult, hop, hseq, hlast⟩ := magCmd_spec hopen hmode hfree (by decide) st.isLt (by decide) haccepts
    exact ⟨t, hrow, hok, hresult, hop, hseq, by rw [hlast]; rfl⟩
  case exchange =>
    intro p st slot s hopen hmode hfree hslot haccepts
    obtain ⟨t, hrow, hok, hresult, hop, hseq, hlast⟩ := magCmd_spec hopen hmode hfree (by decide) st.isLt hslot haccepts
    exact ⟨t, hrow, hok, hresult, hop, hseq, by rw [hlast]; rfl⟩
  case recover =>
    intro p s hopen hmode hfree husable
    have haccepts : s.magAccepts 6 0 0 = true := by
      unfold State.magAccepts
      simpa using husable
    obtain ⟨t, hrow, hok, hresult, hop, hseq, hlast⟩ :=
      magCmd_spec hopen hmode hfree (by decide) (by decide) (by decide) haccepts
    exact ⟨t, hrow, hok, hresult, hop, hseq, by rw [hlast]; rfl⟩
  case mode =>
    intro p s hopen hmode
    exact ⟨_, congrArg Host.Outcome.next (State.magCmd_refused hopen hmode), rfl, fun a ha => State.reg_rxMessage s p false ha⟩
  case frame =>
    intro p st slot s t h
    obtain ⟨op, st', slot', hst, rfl⟩ : ∃ op st' slot', st' < 2 ∧ s.magCmd p op st' slot' = t := by
      rcases h with h | h | h | h | h | h
      · exact ⟨1, 0, 0, by decide, Host.Outcome.next.inj h⟩
      · exact ⟨2, 0, 0, by decide, Host.Outcome.next.inj h⟩
      · exact ⟨3, st, slot.toNat, st.isLt, Host.Outcome.next.inj h⟩
      · exact ⟨4, st, 0, st.isLt, Host.Outcome.next.inj h⟩
      · exact ⟨5, st, slot.toNat, st.isLt, Host.Outcome.next.inj h⟩
      · exact ⟨6, 0, 0, by decide, Host.Outcome.next.inj h⟩
    obtain ⟨hrest, hregs⟩ := State.stays.magCmd s p op slot' hst
    refine ⟨?_, fun a hax hmag hnet => hregs a ⟨hax, hmag, hnet⟩⟩
    generalize s.magCmd p op st' slot' = t at hrest hregs
    calc t = { t.offPicker with regs := t.regs, wstat := t.wstat, mag := t.mag, ax := t.ax } := rfl
      _ = _ := by rw [hrest]; rfl

end Sys2Proof.Machine
end

section
/-!
PROOFS of the statements of 06_axes_and_picker.md, continued: exchange steps (O29, refuted by the load of a disc whose write front
is known).
-/

namespace Sys2Proof.Machine

open Sys2Proof

/-- A layer of disc 3 whose write front has been located. -/
def locatedLayer : LayerSt where
  slot := 3
  side := 0
  layer := 5
  found := true

/-- The exchange that loads the disc of slot 3 into station 0 stands in step 14: Badger has put the disc down, the clamp holds it, and
the magazine axes stand. -/
def disc3Put : State :=
  ((((((({ State.reset with
    tick := 1000000, sys := { boot := .done }, plc := { layers := [locatedLayer] },
    mag := { stage := .exchange, started := true, holding := true, held := some 3, run := some { by_ := .stn0, op := 3, slot := 3 } } } :
    State).set SYS_MODE_MODE modeServe).set MAG_STAT_STATE mgExchange).set MAG_STAT_STEP 14).set MAG_STAT_CLAMP_0 1).set
    (AX_STAT_STATE axZ) axIdle).set (AX_STAT_STATE axX) axIdle).set (AX_STAT_STATE axG) axIdle

/-- The state after EXCHANGE_STEP_DONE. -/
def disc3Loaded : State := disc3Put.magStep

/-- The step ends, and step 15 starts. The state before it meets the invariant that every step keeps (O60). -/
theorem disc3Put_goes :
    disc3Put.Inv ∧ disc3Put.magSettled = true ∧ disc3Put.get MAG_STAT_STEP = 14 ∧ disc3Loaded.get MAG_STAT_STEP = 15 ∧
      disc3Loaded.srcOf 0 = some 3 := by decide +kernel

/-- The write front is to be located anew. -/
theorem disc3Loaded_front :
    disc3Put.plc.layers.map LayerSt.found = [true] ∧ disc3Loaded.plc.layers.map LayerSt.found = [false] := by decide +kernel

theorem plc_of_exchangeFrame {s t : State}
    (h : t = { s with regs := t.regs, mag := t.mag, ax := t.ax, stn := t.stn, ce := t.ce, chn := t.chn, flt := t.flt }) :
    t.plc = s.plc := by
  rw [h]

/-- Refutes O29, in its last clause: the clause lists the records that a step may change and leaves out the placement's, but the step
that loads a disc has the write fronts of that disc's layers located anew (R186, R205, R206, `State.newDisc`), so the end of step 14
changes what the device keeps of them. -/
theorem not_exchangesStepAndFail : ¬ Obligations.ExchangesStepAndFail := by
  intro ⟨_, _, _, _, _, hframe⟩
  obtain ⟨hbefore, hafter⟩ := disc3Loaded_front
  obtain ⟨hrest, -⟩ := hframe disc3Put disc3Loaded (.inl rfl)
  have hplc : disc3Loaded.plc = disc3Put.plc := plc_of_exchangeFrame hrest
  rw [hplc, hbefore] at hafter
  exact absurd hafter (by decide)

end Sys2Proof.Machine
end

section
/-!
PROOFS of the statements of 07_placement.md: placement by bids (O31, refuted by a unit of a tenant that no contract has).
-/

namespace Sys2Proof.Machine

open Sys2Proof

/-- A number that is no tenant: its policy word, were there one, would be the fault count of PLC. -/
def noTenant : Nat := 0xC0180

/-- A unit of that tenant with two copies under way, on devices 2 and 3; both are to commit. -/
def twoCopies : UnitSt where
  id := { tenant := noTenant, key := 7, ver := 513, unit := 0 }
  cmd := none
  len := 4194304
  flags := 0
  phase := .placed
  ack := 2
  reps := 2
  atts := [{ dev := 2, xid := 9, seen := 0 }, { dev := 3, xid := 9, seen := 0 }]

/-- Device 1, alone in its domain map, in SERVE: disc 3 turns in station 0 at the speed of writing and takes units of the tenant. The
time-out of the copy on device 2 has passed, and PLC has counted 0xFFFFFF faults. -/
def copiesUnderWay : State :=
  (([(SYS_MODE_MODE, modeServe), (PLC_STAT_DM_VALID, 1), (PLC_DM_SELF_SELF, 1), (PLC_PEER_CFG_CAND, 4), (SPN_CTL_ENABLE 0, 1),
    (SYS_STAT_CAL_STN_0, 1), (PLC_SLOT_W0_STATE 3, 1), (MAG_STAT_CLAMP_0, 1), (MAG_STN_SRC_VALID_0, 1), (MAG_STN_SRC_SLOT_0, 3),
    (SPN_SPEED_MEAS 0, 43200)].foldl (fun (t : State) e => t.set e.1 e.2)
    ({ State.reset with
      tick := 400000000, sys := { boot := .done }, plc := { units := [twoCopies] },
      sec := { keys := [{ tenant := noTenant, gen := 1, key := 9 }] } } : State)).setReg (keyDm 1 0) 0x40000000).setReg
        (keySrc 0x060 0) 0xFFFFFF

/-- The state after PROG_TMO of the copy on device 2. -/
def copyTimedOut : State := outState (execProgTmo 9 2 copiesUnderWay) copiesUnderWay

/-- The attempt on device 2 is due, that on device 3 runs, and REPL_WAIT reads 0. The state meets the invariant that every step keeps
(O60). -/
theorem copiesUnderWay_due :
    copiesUnderWay.Inv ∧ copiesUnderWay.self = 1 ∧ copiesUnderWay.still ∧ copiesUnderWay.plc.units = [twoCopies] ∧
      (twoCopies.atts.any fun a => a.dev == 2 && a.xid == 9 && a.st == .running &&
        decide (a.seen + 500 * copiesUnderWay.get PLC_PEER_CFG_PROG_TMO ≤ copiesUnderWay.tick)) = true ∧
      copiesUnderWay.polWait noTenant = 0 ∧ copiesUnderWay.isDown 2 = false := by decide +kernel

/-- A third attempt is under way, on this device. -/
theorem copyTimedOut_attempts :
    ((copyTimedOut.unitN twoCopies.n).map fun u => u.atts.map fun a => (a.dev, a.st)) =
      some [(2, .failed), (3, .running), (1, .running)] := by decide +kernel

/-- Refutes O31, in its clause on PROG_TMO of a first placing under REPL_WAIT 0: the clause takes any number for the tenant, where a
tenant ID is at most 4,095 (CMD_TC_IDX). The policy word of the number 0xC0180 lies in the word that counts the faults of PLC;
PEER_DOWN raises that count before REPL_WAIT is read (`State.peerDown`, `State.copyFailed`), so the failed copy is placed again. -/
theorem not_unitsArePlacedByBids : ¬ Obligations.UnitsArePlacedByBids := by
  intro ⟨_, _, _, _, _, _, _, _, _, _, _, _, _, _, _, htimeout, _⟩
  obtain ⟨-, hself, hstill, hunits, hdue, hwait, hup⟩ := copiesUnderWay_due
  obtain ⟨t, hrow, -, hatts, -⟩ := htimeout 9 2 twoCopies copiesUnderWay (by rw [hself]; decide) hstill hunits hdue rfl rfl rfl
    hwait hup (by decide) (by decide)
  have ht : copyTimedOut = t := congrArg (outState · copiesUnderWay) hrow
  have hthree := congrArg (Option.map List.length) copyTimedOut_attempts
  have htwo := congrArg (Option.map List.length) hatts
  rw [← ht] at htwo
  simp only [Option.map_map, Function.comp_def, List.length_map, Option.map_some] at hthree htwo
  rw [hthree] at htwo
  exact absurd htwo (by decide)

end Sys2Proof.Machine
end

section
/-!
PROOFS of the statements of 07_placement.md, continued: what data commands do (O38, refuted by an object of 2^32 units).
-/

namespace Sys2Proof.Machine

open Sys2Proof

/-- A data session of tenant 1. -/
def tenantSession : Session := { id := 5, mgmt := false, tenant := 1, depth := 16 }

/-- The last unit of version 513 of object 7: its number is the greatest that the 32 bits of UNIT hold. -/
def lastOfAll : MapEnt where
  id := { tenant := 1, key := 7, ver := 513, unit := 0xFFFFFFFF }
  hdr := 0
  slot := 3
  len := 4194304
  flags := 3

/-- A device in SERVE with that session, whose tenant has a contract, and with that unit in its map. -/
def fullObject : State :=
  (({ State.reset with
    sys := { boot := .done }, cmd := { sessions := [tenantSession] }, plc := { map := [lastOfAll] } } :
      State).set SYS_MODE_MODE modeServe).setReg (keyTc 1 0) 0x80000000

/-- STAT of version 513 of object 7. -/
def statOfFull : Entry := { objKey := 7, objVer := 513 }

/-- The state after STAT. -/
def fullObjectStat : State := fullObject.command (.session 5) opStat statOfFull held

/-- STAT may be given, and the version has 2^32 units. The state meets the invariant that every step keeps (O60). -/
theorem fullObject_sealed :
    fullObject.Inv ∧ fullObject.serves tenantSession ∧ fullObject.entryCode (.session 5) opStat statOfFull = none ∧
      fullObject.settleOne = none ∧ (fullObject.sealedVers 1 7).contains 513 = true ∧
      fullObject.verSize 1 7 513 = (2 ^ 54, 2 ^ 32) := by decide +kernel

/-- RESULT1 shows the version and no units. -/
theorem fullObjectStat_result :
    (fullObjectStat.lastEntry.map fun k => (k.res0, k.res1)) = some (2 ^ 54, 513) := by decide +kernel

/-- Refutes O38, in its clause on STAT of a version sealed here: the clause gives RESULT1 as OBJ_VER + units * 2^32 without a bound,
but RESULT1 is a field of 64 bits (Table: Completion entry, `Cmd.entry`) whose bits 63:32 give the units. A version whose last unit
is 0xFFFFFFFF, the greatest number that the 32-bit field UNIT of an extent gives, has 2^32 units, which do not fit. -/
theorem not_dataCommandsStartTheirWork : ¬ Obligations.DataCommandsStartTheirWork := by
  intro ⟨_, _, _, _, _, _, hstat, _⟩
  obtain ⟨-, hserves, hentry, hdue, hsealed, hsize⟩ := fullObject_sealed
  obtain ⟨t, hrow, -, hresult, -⟩ := hstat tenantSession statOfFull fullObject hserves hentry hdue (by decide) hsealed
  have ht : fullObjectStat = t := Host.Outcome.next.inj hrow
  have hversion : fullObject.verSize tenantSession.tenant statOfFull.objKey.toNat statOfFull.objVer.toNat = (2 ^ 54, 2 ^ 32) := hsize
  rw [← ht, fullObjectStat_result, hversion] at hresult
  exact absurd hresult (by decide)

end Sys2Proof.Machine
end

section
/-!
PROOFS of the statements of 07_placement.md, continued: lookups (O33, refuted by a question to a device ID that no domain has).
-/

namespace Sys2Proof.Machine

open Sys2Proof

/-- A number that is no device ID: its bit of PLC_PEER_DOWN, were there one, would lie in the fault count of PLC. -/
def noDevice : Nat := 0x9C02800

/-- A device in SERVE with one question outstanding, long due, to that number, which has missed two. -/
def askedNobody : State :=
  ({ State.reset with
    tick := 100000000, sys := { boot := .done },
    plc := { asks := [{ dev := noDevice, xid := 9, srch := 1, at_ := 0 }], peers := [{ dev := noDevice, misses := 2 }] } } :
      State).set SYS_MODE_MODE modeServe

/-- The state after HINT_TIMEOUT. -/
def nobodyMissed : State := outState (execHintTimeout 9 askedNobody) askedNobody

/-- The question is due, and the miss is the third. The state meets the invariant that every step keeps (O60). -/
theorem askedNobody_due :
    askedNobody.Inv ∧ askedNobody.still ∧ askedNobody.plc.units = [] ∧
      (askedNobody.plc.asks.find? fun a => a.xid == 9 && decide (a.at_ + 500 * askedNobody.get PLC_PEER_TMO_HINT ≤ askedNobody.tick)) =
        some { dev := noDevice, xid := 9, srch := 1, at_ := 0 } ∧
      2 ≤ (askedNobody.peerOf noDevice).misses ∧ askedNobody.isDown noDevice = false ∧
      (askedNobody.peerOf noDevice).dev = noDevice ∧ askedNobody.reg (keySrc 0x060 0) = 0 := by decide +kernel

/-- The count shows two faults more. -/
theorem nobodyMissed_count : nobodyMissed.reg (keySrc 0x060 0) = 2 := by decide +kernel

/-- Refutes O33, in its clause on the third HINT_TIMEOUT: the clause takes any number for the device asked, where a device ID is
below 512 (Table: Domain map entry) and the questions that searches put (`State.tierOf`) keep that bound. PLC_PEER_DOWN has 16
words; the bit of the number 0x9C02800 lies in the word that counts the faults of PLC, which then rises by two. -/
theorem not_lookupsAndTombstones : ¬ Obligations.LookupsAndTombstones := by
  intro ⟨_, _, _, hthird, _⟩
  obtain ⟨-, hstill, hunits, hfind, hmisses, hup, hdev, hbefore⟩ := askedNobody_due
  obtain ⟨t, hrow, -, -, hcount⟩ := hthird 9 _ askedNobody hstill hunits hfind hmisses hup hdev
  have ht : nobodyMissed = t := congrArg (outState · askedNobody) hrow
  rw [← ht, nobodyMissed_count, hbefore] at hcount
  exact absurd hcount (by decide)

end Sys2Proof.Machine
end

section
/-!
PROOFS of the statements of 07_placement.md, continued: migration (O34, refuted by a migration of a slot that no magazine has).
-/

namespace Sys2Proof.Machine

open Sys2Proof

/-- A device in SERVE whose migration works on slot 4,065. -/
def migratesNoSlot : State :=
  ({ State.reset with sys := { boot := .done }, plc := { mig := some 4065 } } : State).set SYS_MODE_MODE modeServe

/-- The state after the write of PLC_MIG_CTL that starts the migration of slot 3. -/
def migratesThree : State := outState (execMigrationStart .service 3 migratesNoSlot) migratesNoSlot

/-- The write is made. The state before it meets the invariant that every step keeps (O60). -/
theorem migratesNoSlot_opens : migratesNoSlot.Inv ∧ migratesNoSlot.opens .service ∧ migratesThree.wstat = stOk := by decide +kernel

/-- A register of the network block changes. -/
theorem migratesThree_word : migratesNoSlot.reg 0x90010 = 0 ∧ migratesThree.reg 0x90010 = 1 := by decide +kernel

/-- Refutes O34, in its last clause: the clause leaves only words of PLC and of the arbiter to a write of PLC_MIG_CTL, and takes any
number for the slot under migration, where the magazine has 24 slots and PLC_MIG_CTL takes no other (`execMigrationStart`). The write
shows the slot under migration readable again (R333), and the state word of a slot 4,065 would lie in the network block. -/
theorem not_copiesAreRestoredAndMoved : ¬ Obligations.CopiesAreRestoredAndMoved := by
  intro ⟨_, _, _, _, _, _, _, _, _, _, _, _, hframe⟩
  obtain ⟨hbefore, hafter⟩ := migratesThree_word
  obtain ⟨hregs, -⟩ := hframe .service 3 migratesNoSlot migratesThree (.inr rfl)
  have hword := hregs 0x90010 (by decide) (by decide) (by decide)
  rw [hbefore, hafter] at hword
  exact absurd hword (by decide)

end Sys2Proof.Machine
end

section
/-!
PROOFS of the statements of 08_ethernet_chain.md: host ports and the service port (O6). First what each part of a port's change leaves
of the registers: the time client, the link events, the port at rest; then a port that goes down (`State.portDown_spec`).
-/

namespace Sys2Proof.Machine

open Sys2Proof

/-! ### Records that are no registers -/

@[simp] theorem State.emit_reg (s : State) (p : Nat) (prio : Option Nat) (what : NetOut) (event : Bool) (a : Nat) :
    (s.emit p prio what event).reg a = s.reg a := rfl

theorem State.reg_withCe (s : State) (x : CeSt) (a : Nat) : State.reg { s with ce := x } a = s.reg a := rfl

/-! ### The time client (R360, R361) -/

/-- The words in which the time client shows its master and whether PTP time is valid. -/
abbrev clientWord (a : Nat) : Prop := a = NET_PTP_STAT ∨ a = NET_PTP_GM_LO ∨ a = NET_PTP_GM_HI ∨ a = TICK_STAT

/-- Validity lies in NET_PTP_STAT and TICK_STAT; its loss raises a fault. -/
theorem State.reg_ptpValidity (s : State) (valid : Bool) {a : Nat} (hp : a ≠ NET_PTP_STAT) (ht : a ≠ TICK_STAT)
    (ha : a < 0xF1000) : (s.ptpValidity valid).reg a = s.reg a := by
  have hset : (s.setFlag NET_PTP_STAT_VALID valid).reg a = s.reg a := State.reg_set_apart _ _ hp
  unfold State.ptpValidity
  dsimp only
  split_ifs
  · rw [State.reg_set_apart _ _ ht, State.reg_set_apart _ _ ht, hset]
  · rw [State.reg_raise_below _ ha, State.reg_withCe,
      State.reg_set_apart _ _ ht, State.reg_set_apart _ _ ht, State.reg_set_apart _ _ ht, hset]
  · exact hset

/-- The words of NET once they show a master. -/
def State.masterShown (s : State) (b : Master) : State :=
  ((s.set NET_PTP_STAT_PORT b.port).setReg NET_PTP_GM_LO (b.id.setWidth 32)).setReg NET_PTP_GM_HI ((b.id >>> 32).setWidth 32)

theorem State.reg_masterShown (s : State) (b : Master) {a : Nat} (ha : ¬ clientWord a) : (s.masterShown b).reg a = s.reg a := by
  rw [clientWord, not_or, not_or, not_or] at ha
  obtain ⟨hstat, hlo, hhi, -⟩ := ha
  rw [State.masterShown, State.reg_setReg_other _ _ hhi, State.reg_setReg_other _ _ hlo, State.reg_set_apart _ _ hstat]

/-- The choice of a master lies in its three words of NET. -/
theorem State.reg_chooseMaster (s : State) {a : Nat} (ha : ¬ clientWord a) : s.chooseMaster.reg a = s.reg a := by
  unfold State.chooseMaster
  split
  · rfl
  next b _ =>
    have hshown := s.reg_masterShown b ha
    dsimp only
    split
    · rw [State.modNet_reg]
      exact hshown
    · rw [State.emit_reg, State.modNet_reg]
      exact hshown

theorem State.reg_loseMasters (s : State) (p : Nat) {a : Nat} (ha : ¬ clientWord a) (hb : a < 0xF1000) :
    (s.loseMasters p).reg a = s.reg a := by
  have hstat : a ≠ NET_PTP_STAT := fun h => ha (.inl h)
  have htick : a ≠ TICK_STAT := fun h => ha (.inr (.inr (.inr h)))
  unfold State.loseMasters
  dsimp only
  split_ifs
  · rw [State.reg_ptpValidity _ _ hstat htick hb, State.reg_chooseMaster _ ha]
    rfl
  · rw [State.reg_chooseMaster _ ha]
    rfl
  · rfl

/-! ### Link events (R341) -/

/-- The LINK bit of a host port in SYS_STAT. -/
def linkBit (p : Nat) : Fld := if p = 0 then SYS_STAT_LINK_A else SYS_STAT_LINK_B

theorem linkBit_fin (port : Fin 2) : (if port = 0 then SYS_STAT_LINK_A else SYS_STAT_LINK_B) = linkBit port := by
  simp only [linkBit, Fin.ext_iff, Fin.val_zero]

theorem linkBit_ok (p : Nat) : (linkBit p).ok := by
  unfold linkBit
  split <;> decide

theorem linkBit_addr (p : Nat) : (linkBit p).addr = SYS_STAT := by
  unfold linkBit
  split <;> rfl

/-- A link event lies in SYS_STAT and in the Owl's count. -/
theorem State.reg_linkChange (s : State) (p : Nat) (up : Bool) {a : Nat} (hs : a ≠ SYS_STAT) (ho : a ≠ OWL_STAT) :
    (s.linkChange p up).reg a = s.reg a :=
  (State.reg_capture _ _ _ _ ho).trans (State.reg_set_other s _ (by rw [← linkBit_addr p] at hs; exact hs))

/-- The LINK bit follows the port. -/
theorem State.flag_linkChange (s : State) (p : Nat) (up : Bool) : (s.linkChange p up).flag (linkBit p) = up := by
  have hreg : (s.linkChange p up).reg (linkBit p).addr = (s.setFlag (linkBit p) up).reg (linkBit p).addr :=
    State.reg_capture _ _ _ _ (by rw [linkBit_addr]; decide)
  rw [State.flag, State.get, hreg]
  exact State.flag_setFlag_same s up (linkBit_ok p)

/-! ### A port that goes down (R339, R341, R351) -/

/-- A port that is not UP does not restart into UP. -/
theorem State.restartCode_lt (s : State) (p : Nat) : s.restartCode p < portUpCode := by
  unfold State.restartCode
  dsimp only
  split_ifs <;> decide

/-- A port at rest: it stands where it restarts, its locks and holds are gone, and what waited to leave it is lost. -/
def State.portRests (s : State) (p : Nat) : State :=
  ((((((s.set (NET_PORT_STAT_STATE p) (s.restartCode p)).set (NET_PORT_STAT_FEC_LOCK p) 0).set (NET_PORT_STAT_PCS_LOCK p) 0).set
    (NET_PORT_STAT_PFC_HELD p) 0).modNet fun n => { n with out := n.out.filter fun x => x.port != p }).addSat (NET_PORT_DROP_DOWN p)
    (s.net.out.filter fun x => x.port == p && x.transit).length)

/-- Its loss is counted and shown. -/
def State.portLost (s : State) (p : Nat) (fault : Bool) : State :=
  let t := ((s.addSat (NET_PORT_DOWNS_COUNT p) 1).linkChange p false).modNet
    fun n => { n with flush := n.flush.setIfInBounds p true }
  (if fault then t.raise 0x070 1 p else t).loseMasters p

/-- Going down is coming to rest, and being lost where the port was UP. -/
theorem State.portDown_eq (s : State) (p : Nat) (fault : Bool) :
    s.portDown p fault = if s.isUp p then (s.portRests p).portLost p fault else s.portRests p := by
  unfold State.portDown State.portLost State.portRests
  rfl

theorem State.reg_portRests (s : State) {p a : Nat} (hs : a ≠ NET_PORT_STAT p) (hd : a ≠ NET_PORT_DROP p) :
    (s.portRests p).reg a = s.reg a := by
  rw [State.portRests, State.reg_addSat_other _ _ hd, State.modNet_reg,
    State.reg_set_apart _ _ hs, State.reg_set_apart _ _ hs, State.reg_set_apart _ _ hs, State.reg_set_apart _ _ hs]

/-- Of the port's status, a port at rest shows its STATE and loses its locks and its hold. -/
theorem State.get_portRests (s : State) (p h l : Nat) : (s.portRests p).get ⟨NET_PORT_STAT p, h, l⟩ =
    ((((s.set (NET_PORT_STAT_STATE p) (s.restartCode p)).set (NET_PORT_STAT_FEC_LOCK p) 0).set (NET_PORT_STAT_PCS_LOCK p) 0).set
      (NET_PORT_STAT_PFC_HELD p) 0).get ⟨NET_PORT_STAT p, h, l⟩ := by
  rw [State.portRests, State.get_addSat_other _ _ ⟨by norm_num, by norm_num⟩
    (.inl (by dsimp only [NET_PORT_STAT, NET_PORT_DROP]; omega)),
    State.modNet_get]

theorem State.portState_portRests (s : State) (p : Nat) : (s.portRests p).portState p = s.restartCode p := by
  have hlt := s.restartCode_lt p
  rw [State.portState, State.get_portRests, State.get_set_apart _ _ (by decide) (by decide) (.inr (by decide)),
    State.get_set_apart _ _ (by decide) (by decide) (.inr (by decide)),
    State.get_set_apart _ _ (by decide) (by decide) (.inr (by decide)),
    State.get_set_here _ _ (by decide) (by decide), Nat.mod_eq_of_lt (by simp only [portUpCode] at hlt; omega)]

theorem State.hiSer_portRests (s : State) (p : Nat) :
    (s.portRests p).flag (NET_PORT_STAT_HI_SER p) = s.flag (NET_PORT_STAT_HI_SER p) := by
  rw [State.flag, State.get_portRests, State.get_set_apart _ _ (by decide) (by decide) (.inr (by decide)),
    State.get_set_apart _ _ (by decide) (by decide) (.inr (by decide)),
    State.get_set_apart _ _ (by decide) (by decide) (.inr (by decide)),
    State.get_set_apart _ _ (by decide) (by decide) (.inr (by decide)), State.flag]

/-- The words that show the loss of a port: its count, SYS_STAT, the Owl's count, the time client's. -/
abbrev lossWord (p a : Nat) : Prop := a = NET_PORT_DOWNS p ∨ a = SYS_STAT ∨ a = OWL_STAT ∨ clientWord a

/-- Raised or not, the fault of a loss leaves the words below the latches. -/
theorem State.reg_portLost_linkChange (s : State) (p : Nat) (fault : Bool) {a : Nat} (ha : ¬ clientWord a) (hb : a < 0xF1000) :
    (s.portLost p fault).reg a = ((s.addSat (NET_PORT_DOWNS_COUNT p) 1).linkChange p false).reg a := by
  unfold State.portLost
  dsimp only
  rw [State.reg_loseMasters _ _ ha hb]
  split
  · exact State.reg_raise_below _ hb
  · rfl

theorem State.reg_portLost (s : State) {p a : Nat} (fault : Bool) (ha : ¬ lossWord p a) (hb : a < 0xF1000) :
    (s.portLost p fault).reg a = s.reg a := by
  rw [lossWord, not_or, not_or, not_or] at ha
  obtain ⟨hdowns, hsys, howl, hclient⟩ := ha
  rw [State.reg_portLost_linkChange s p fault hclient hb, State.reg_linkChange _ _ _ hsys howl,
    State.reg_addSat_other _ _ hdowns]

theorem stat_not_lossWord : ∀ port : Fin 2, ¬ lossWord port (NET_PORT_STAT port) ∧ NET_PORT_STAT port < 0xF1000 := by decide

theorem ctl_not_lossWord : ∀ port : Fin 2, ¬ lossWord port (NET_PORT_CTL port) ∧ NET_PORT_CTL port < 0xF1000 ∧
    NET_PORT_CTL port ≠ NET_PORT_STAT port ∧ NET_PORT_CTL port ≠ NET_PORT_DROP port := by decide

theorem downs_not_clientWord : ∀ port : Fin 2, ¬ clientWord (NET_PORT_DOWNS port) ∧ NET_PORT_DOWNS port < 0xF1000 ∧
    NET_PORT_DOWNS port ≠ SYS_STAT ∧ NET_PORT_DOWNS port ≠ OWL_STAT ∧ NET_PORT_DOWNS port ≠ NET_PORT_STAT port ∧
    NET_PORT_DOWNS port ≠ NET_PORT_DROP port := by decide

/-- Going down leaves of the port's status what coming to rest leaves. -/
theorem State.reg_stat_portDown (s : State) (port : Fin 2) (fault : Bool) :
    (s.portDown port fault).reg (NET_PORT_STAT port) = (s.portRests port).reg (NET_PORT_STAT port) := by
  obtain ⟨hloss, hlow⟩ := stat_not_lossWord port
  rw [State.portDown_eq]
  split
  · exact State.reg_portLost _ _ hloss hlow
  · rfl

theorem State.isUp_portDown (s : State) (port : Fin 2) (fault : Bool) : (s.portDown port fault).isUp port = false := by
  have hstate : (s.portDown port fault).portState port = s.restartCode port := by
    rw [← s.portState_portRests, State.portState, State.get, State.reg_stat_portDown, State.portState, State.get]
  have hlt := s.restartCode_lt port
  rw [State.isUp, hstate, beq_eq_false_iff_ne]
  omega

theorem State.hiSer_portDown (s : State) (port : Fin 2) (fault : Bool) :
    (s.portDown port fault).flag (NET_PORT_STAT_HI_SER port) = s.flag (NET_PORT_STAT_HI_SER port) := by
  rw [← s.hiSer_portRests, State.flag, State.get, State.reg_stat_portDown, State.flag, State.get]

/-- ENABLE is the host's alone. -/
theorem State.enable_portDown (s : State) (port : Fin 2) (fault : Bool) :
    (s.portDown port fault).flag (NET_PORT_CTL_ENABLE port) = s.flag (NET_PORT_CTL_ENABLE port) := by
  obtain ⟨hloss, hlow, hstat, hdrop⟩ := ctl_not_lossWord port
  have hrests : (s.portRests port).reg (NET_PORT_CTL port) = s.reg (NET_PORT_CTL port) := State.reg_portRests s hstat hdrop
  have hreg : (s.portDown port fault).reg (NET_PORT_CTL port) = s.reg (NET_PORT_CTL port) := by
    rw [State.portDown_eq]
    split
    · rw [State.reg_portLost _ _ hloss hlow, hrests]
    · exact hrests
  rw [State.flag, State.get, hreg, State.flag, State.get]

/-- An UP port that goes down clears its LINK bit and counts its loss. -/
theorem State.portDown_of_up {s : State} {port : Fin 2} (fault : Bool) (h : s.isUp port = true) :
    (s.portDown port fault).flag (linkBit port) = false ∧
      (s.portDown port fault).get (NET_PORT_DOWNS_COUNT port) =
        min (NET_PORT_DOWNS_COUNT port).top (s.get (NET_PORT_DOWNS_COUNT port) + 1) := by
  obtain ⟨hclient, hlow, hsys, howl, hstat, hdrop⟩ := downs_not_clientWord port
  rw [State.portDown_eq, if_pos h]
  constructor
  · rw [State.flag, State.get, linkBit_addr, State.reg_portLost_linkChange _ _ _ (by decide) (by decide), ← linkBit_addr port]
    exact State.flag_linkChange _ _ _
  · rw [State.get, State.reg_portLost_linkChange _ _ _ hclient hlow, State.reg_linkChange _ _ _ hsys howl]
    have hrests : (s.portRests port).get (NET_PORT_DOWNS_COUNT port) = s.get (NET_PORT_DOWNS_COUNT port) := by
      rw [State.get, State.reg_portRests s hstat hdrop, State.get]
    rw [← hrests]
    exact State.get_addSat_here _ 1 (by decide) (by decide)

/-! ### A port that comes UP (R339, R341) -/

theorem State.reg_stat_portComes (s : State) (port : Fin 2) : (s.portComes port).reg (NET_PORT_STAT port) =
    (((((s.set (NET_PORT_STAT_STATE port) portUpCode).set (NET_PORT_STAT_FEC_LOCK port) 1).set (NET_PORT_STAT_PCS_LOCK port) 1).set
      (NET_PORT_STAT_HI_SER port) 0).set (NET_PORT_STAT_AN_FAIL port) 0).reg (NET_PORT_STAT port) := by
  obtain ⟨hloss, -⟩ := stat_not_lossWord port
  exact State.reg_linkChange _ _ _ (fun h => hloss (.inr (.inl h))) (fun h => hloss (.inr (.inr (.inl h))))

theorem State.portComes_spec (s : State) (port : Fin 2) :
    (s.portComes port).isUp port = true ∧ (s.portComes port).flag (NET_PORT_STAT_HI_SER port) = false ∧
      (s.portComes port).flag (linkBit port) = true := by
  refine ⟨?_, ?_, State.flag_linkChange _ _ _⟩
  · rw [State.isUp, State.portState, State.get, State.reg_stat_portComes]
    change (State.get _ (NET_PORT_STAT_STATE port) == _) = _
    rw [State.get_set_apart _ _ (by decide) (by decide) (.inr (by decide)),
      State.get_set_apart _ _ (by decide) (by decide) (.inr (by decide)),
      State.get_set_apart _ _ (by decide) (by decide) (.inr (by decide)),
      State.get_set_apart _ _ (by decide) (by decide) (.inr (by decide)),
      State.get_set_here _ _ (by decide) (by decide)]
    rfl
  · rw [State.flag, State.get, State.reg_stat_portComes]
    change State.flag _ (NET_PORT_STAT_HI_SER port) = _
    rw [State.flag_set_other _ _ ⟨by norm_num, by norm_num⟩ (.inr (by norm_num))]
    exact State.flag_set_zero_here _ (by decide)

theorem State.annAt_portComes (s : State) (p : Nat) : (s.portComes p).net.annAt = s.tick := by
  simp only [State.portComes, State.linkChange, State.modNet, State.set_tick]

/-! ### The statement -/

/-- Settles O6: each row of a port is one of the port's changes, coming UP (`State.portComes_spec`) or going down
(`State.portDown_of_up`, `State.isUp_portDown`), or writes its status alone. -/
theorem hostPortsComeUpAndGoDown : Obligations.HostPortsComeUpAndGoDown := by
  refine ⟨?negotiated, ?failed, ?trained, ?up, ?down, ?hiSer, ?enable, ?phy, ?plca⟩
  case negotiated =>
    intro port s h
    refine ⟨_, if_pos h, ?_, State.get_set_here _ _ (by decide) (by decide)⟩
    exact (State.get_set_apart _ _ (by decide) (by decide) (.inr (by decide))).trans
      (State.get_set_here _ _ (by decide) (by decide))
  case failed =>
    intro port s h
    refine ⟨_, if_pos h, ?_, State.get_set_here _ _ (by decide) (by decide)⟩
    exact (State.get_set_apart _ _ (by decide) (by decide) (.inr (by decide))).trans h
  case trained =>
    intro port s h
    have hrow : exec (.linkTrainingDone port) s = .next (s.set (NET_PORT_STAT_STATE port) 3) :=
      congrArg Host.Outcome.next (if_pos h)
    exact ⟨_, hrow, State.get_set_here _ _ (by decide) (by decide), fun a ha => State.reg_set_apart s _ ha⟩
  case up =>
    intro port s h
    obtain ⟨hup, hser, hlink⟩ := s.portComes_spec port
    exact ⟨_, if_pos h, hup, by rw [linkBit_fin]; exact hlink, hser, s.annAt_portComes port⟩
  case down =>
    intro port s h
    have hrow : exec (.portLinkDown port) s = .next (s.portDown port true) := congrArg Host.Outcome.next (if_pos h)
    obtain ⟨hlink, hcount⟩ := State.portDown_of_up true h
    exact ⟨_, hrow, State.isUp_portDown _ _ _, by rw [linkBit_fin]; exact hlink, hcount⟩
  case hiSer =>
    intro port s h hrun
    obtain ⟨-, hlow⟩ := stat_not_lossWord port
    have hrow : exec (.linkHiSer port) s =
        .next (((s.set (NET_PORT_STAT_HI_SER port) 1).raise 0x070 2 port).portDown port true) :=
      congrArg Host.Outcome.next (if_pos ⟨h, hrun⟩)
    refine ⟨_, hrow, State.isUp_portDown _ _ _, ?_⟩
    rw [State.hiSer_portDown, State.flag_raise_below _ hlow]
    exact State.flag_set_one_here _ (by decide)
  case enable =>
    intro p port en s hopen hen
    have hsvc : NET_PORT_CTL port ≠ NET_SVC_STAT := by simp only [NET_PORT_CTL, NET_SVC_STAT]; omega
    have hnew : (s.rxMessage p false).flag (NET_PORT_CTL_ENABLE port) ≠ en := by rwa [State.flag_rxMessage s p false hsvc]
    have hrow : exec (.portEnable p port en) s =
        .next ((((s.rxMessage p false).setFlag (NET_PORT_CTL_ENABLE port) en).portDown port false).status stOk) :=
      congrArg Host.Outcome.next ((writeBy_opens (State.portEnable · port en) hopen rfl).trans
        (congrArg (State.status · stOk) (if_neg hnew)))
    refine ⟨_, hrow, rfl, ?_, State.isUp_portDown _ _ _⟩
    exact (State.enable_portDown _ _ _).trans (State.flag_setFlag_here _ en (by decide))
  case phy =>
    intro up s
    refine ⟨_, rfl, ?_, State.flag_setFlag_here _ _ (by decide), fun a ha => ?_⟩
    · rw [State.setFlag, State.flag_set_other _ _ ⟨by decide, by decide⟩ (.inr (by decide))]
      exact State.flag_setFlag_here _ _ (by decide)
    · exact (State.reg_set_apart _ _ ha).trans (State.reg_set_apart _ _ ha)
  case plca =>
    intro clash s h
    have hrow : exec (.svcPlca clash) s = .next (s.raise 0x070 5 (if clash then 1 else 0)) :=
      congrArg Host.Outcome.next (if_pos h)
    refine ⟨_, hrow, State.count_raise s _ (by decide), fun a ha => ?_⟩
    simp only [faultWord, inBlock] at ha
    exact State.reg_raise_other s (by simp only [keySrc]; omega) (by simp only [FLT_FB]; omega)

end Sys2Proof.Machine
end

section
/-!
PROOFS of the statements of 08_ethernet_chain.md, continued: frames (O35, refuted by a frame that leaves through a buffer with an
uncorrectable byte).
-/

namespace Sys2Proof.Machine

open Sys2Proof

/-- A port's transit buffer with an uncorrectable byte taken out of it. -/
def State.ramTaken (s : State) (o : Nat) : State := s.modNet fun n => { n with ramBad := n.ramBad.setIfInBounds o false }

/-- A transit frame that is no PTP event message and bears no ECN mark, and that meets an uncorrectable byte of its buffer, is counted
STOMPED and waits to leave with its FCS complemented (R351, R461). -/
theorem forward_ramBad {s : State} {i o : Nat} {f : Frame} (hup : s.isUp o = true)
    (hfits : s.transitBytes o + f.len.toNat ≤ 524288) (hram : (s.net.ramBad[o]?).getD false = true) (hecn : f.ecn = 0)
    (hkind : f.kind = .other) :
    s.forward i o f = ((s.ramTaken o).addSat (NET_PORT_DROP_STOMPED o) 1).emit o (f.tag.map fun x => x.2.toNat)
      (.fwd f.len.toNat false true none) := by
  have hmark : (decide (s.get NET_FWD_CFG_ECN_THR * 1024 ≤ s.transitBytes o) &&
      ((0 : BitVec 2) == 1 || (0 : BitVec 2) == 2)) = false :=
    Bool.and_false _
  unfold State.forward
  rw [hup, hram, hkind, hecn, Bool.not_true, if_neg Bool.false_ne_true, if_neg (Nat.not_lt.mpr hfits)]
  dsimp only
  rw [Bool.or_true, if_pos rfl, hmark]
  rfl

/-- With PFC off, a frame for another address that is no group of the device is a transit frame and nothing else (R347). -/
theorem frameRx_transit {s : State} {p : Nat} {f : Frame} (hup : s.isUp p = true) (hsrc : f.src ≠ s.mac) (hdst : f.dst ≠ s.mac)
    (hpause : f.dst ≠ 0x0180C2000001) (hall : f.dst ≠ 0xFFFFFFFFFFFF) (hgroup : s.groups.contains f.dst = false)
    (hpfc : (s.forward p (1 - p) f).flag NET_PFC_CFG_EN = false) : s.frameRx p f = s.forward p (1 - p) f := by
  have hmine : (f.dst == s.mac) = false := beq_false_of_ne hdst
  have hother : (f.dst == 0xFFFFFFFFFFFF || s.groups.contains f.dst) = false := by
    rw [hgroup, Bool.or_false]; exact beq_false_of_ne hall
  unfold State.frameRx
  rw [hup, Bool.not_true, if_neg Bool.false_ne_true, if_neg hsrc, if_neg hpause]
  dsimp only
  rw [hmine, hother, Bool.or_false, Bool.false_and, Bool.false_and, if_neg Bool.false_ne_true, if_neg Bool.false_ne_true,
    State.pfcSend, hpfc]
  rfl

/-- A device in SERVE with both host ports UP, after an uncorrectable byte was read in the frame buffer of port B. -/
def bufferHurt : State :=
  (((({ State.reset with sys := { boot := .done } } : State).set SYS_MODE_MODE modeServe).set (NET_PORT_STAT_STATE 0)
    portUpCode).set (NET_PORT_STAT_STATE 1) portUpCode).sramLost 8 524288

/-- The same with 0x000600000005 as its own address. -/
def bufferHurtAt : State := (bufferHurt.setReg NET_MAC_LO 5).setReg NET_MAC_HI 6

/-- A frame of 64 bytes from another address to a third. -/
def passing : Frame := { dst := 8, src := 2 }

theorem bufferHurt_words : bufferHurt.Inv ∧ bufferHurt.isUp 0 = true ∧ bufferHurt.isUp 1 = true ∧
    bufferHurt.flag NET_PFC_CFG_EN = false ∧ (∀ k < 4, bufferHurt.reg (NET_IP6 k) = 0) ∧
    (bufferHurt.net.ramBad[1]?).getD false = true ∧ bufferHurt.net.out = [] := by decide +kernel

/-- Beside its address the device is as before. -/
theorem reg_bufferHurtAt {a : Nat} (hlo : a ≠ NET_MAC_LO) (hhi : a ≠ NET_MAC_HI) : bufferHurtAt.reg a = bufferHurt.reg a := by
  rw [bufferHurtAt, State.reg_setReg_other _ _ hhi, State.reg_setReg_other _ _ hlo]

theorem get_bufferHurtAt {f : Fld} (hlo : f.addr ≠ NET_MAC_LO) (hhi : f.addr ≠ NET_MAC_HI) :
    bufferHurtAt.get f = bufferHurt.get f := by
  rw [State.get, reg_bufferHurtAt hlo hhi, State.get]

/-- It meets the invariant that every step keeps (O60). -/
theorem bufferHurtAt_inv : bufferHurtAt.Inv := by
  obtain ⟨⟨hregs, hrest⟩, -⟩ := bufferHurt_words
  exact ⟨State.setReg_swf _ _ _ (State.setReg_swf _ _ _ hregs), hrest⟩

theorem bufferHurtAt_mac : bufferHurtAt.mac = 0x000600000005 := by
  rw [State.mac, bufferHurtAt, State.reg_setReg_same, State.reg_setReg_other _ _ (by decide), State.reg_setReg_same]
  decide

theorem bufferHurtAt_groups : bufferHurtAt.groups.contains passing.dst = false := by
  obtain ⟨-, -, -, -, hip, -⟩ := bufferHurt_words
  have hword (k : Nat) (hk : k < 4) : bufferHurtAt.reg (NET_IP6 k) = 0 := by
    rw [reg_bufferHurtAt (by dsimp only [NET_IP6, NET_MAC_LO]; omega) (by dsimp only [NET_IP6, NET_MAC_HI]; omega), hip k hk]
  have hnone : bufferHurtAt.globalIp = none := by
    rw [State.globalIp, hword 0 (by decide), hword 1 (by decide), hword 2 (by decide),
      hword 3 (by decide)]
    decide
  rw [State.groups, State.ip6s, hnone, bufferHurtAt_mac]
  decide

/-- Refutes O35, in its clause on transit frames: the clause has the frame leave as it came, but one that meets an uncorrectable byte of
its frame buffer leaves with its FCS complemented and is counted STOMPED (R351, R461). -/
theorem not_framesAreForwardedOrCounted : ¬ Obligations.FramesAreForwardedOrCounted := by
  intro ⟨_, _, _, hforward, _⟩
  obtain ⟨-, hA, hB, hpfc, -, hram, hout⟩ := bufferHurt_words
  have hupA : bufferHurtAt.isUp 0 = true := by rw [State.isUp, State.portState, get_bufferHurtAt (by decide) (by decide)]; exact hA
  have hupB : bufferHurtAt.isUp 1 = true := by rw [State.isUp, State.portState, get_bufferHurtAt (by decide) (by decide)]; exact hB
  have hoff : bufferHurtAt.flag NET_PFC_CFG_EN = false := by rw [State.flag, get_bufferHurtAt (by decide) (by decide)]; exact hpfc
  have hnone : bufferHurtAt.net.out = [] := hout
  have hfits : bufferHurtAt.transitBytes 1 + passing.len.toNat ≤ 524288 := by rw [State.transitBytes, hnone]; decide
  have hsrc : passing.src ≠ bufferHurtAt.mac := by rw [bufferHurtAt_mac]; decide
  have hdst : passing.dst ≠ bufferHurtAt.mac := by rw [bufferHurtAt_mac]; decide
  have hsent := forward_ramBad (i := 0) hupB hfits hram (f := passing) rfl rfl
  obtain ⟨t, hrow, hsame, -⟩ := hforward 0 passing bufferHurtAt hupA hupB
    hsrc hdst (by decide) (by decide) bufferHurtAt_groups rfl rfl
    (by decide) rfl hfits hoff
  have hrun : bufferHurtAt.frameRx 0 passing = bufferHurtAt.forward 0 1 passing :=
    frameRx_transit hupA hsrc hdst (by decide) (by decide) bufferHurtAt_groups (by
      rw [hsent, State.flag, State.get, State.emit_reg, State.reg_addSat_other _ _ (by decide)]
      exact hoff)
  have ht : bufferHurtAt.forward 0 1 passing = t := hrun.symm.trans (congrArg (outState · bufferHurtAt) hrow)
  rw [← ht, hsent] at hsame
  exact absurd (List.append_cancel_left hsame) (by decide)

end Sys2Proof.Machine
end

section
/-!
PROOFS of the statements of 08_ethernet_chain.md, continued: rules of the transport. What the device sends changes the frames that wait
and the neighbours alone (`State.upToSends`); a session reset and the end of a transaction leave the network's record and the word that
counts connections (`State.netView`), which gives what is left of a session that closes (`closeSession_spec`).
-/

namespace Sys2Proof.Machine

open Sys2Proof

/-! ### Sending (R344, R345) -/

/-- From `s` to `t` at most the frames that wait and the neighbour cache have changed. -/
def State.upToSends (s t : State) : Prop :=
  ∃ out neigh wait, t = { s with net := { s.net with out := out, neigh := neigh, wait := wait } }

namespace State.upToSends

variable {s t u : State}

theorem refl (s : State) : s.upToSends s := ⟨_, _, _, rfl⟩

theorem trans (h : s.upToSends t) (k : t.upToSends u) : s.upToSends u := by
  obtain ⟨_, _, _, rfl⟩ := h
  obtain ⟨_, _, _, rfl⟩ := k
  exact ⟨_, _, _, rfl⟩

theorem foldl {α : Type} {f : State → α → State} (hf : ∀ (t : State) a, t.upToSends (f t a)) (l : List α) (s : State) :
    s.upToSends (l.foldl f s) := by
  induction l generalizing s with
  | nil => exact refl s
  | cons a l ih => exact (hf s a).trans (ih (f s a))

theorem emit (s : State) (p : Nat) (prio : Option Nat) (what : NetOut) (event : Bool) : s.upToSends (s.emit p prio what event) :=
  ⟨_, _, _, rfl⟩

theorem sendTo (s : State) (m : BitVec 48) (prio : Option Nat) (what : NetOut) : s.upToSends (s.sendTo m prio what) := by
  unfold State.sendTo
  split
  · exact emit s _ _ _ _
  · exact refl s

theorem sendIp (s : State) (a : BitVec 128) (prio : Option Nat) (what : NetOut) : s.upToSends (s.sendIp a prio what) := by
  unfold State.sendIp
  dsimp only
  split
  · exact trans ⟨_, _, _, rfl⟩ (sendTo _ _ _ _)
  · refine trans ⟨_, _, _, rfl⟩ (foldl (fun t p => ?_) _ _)
    split
    · exact emit t _ _ _ _
    · exact refl t

theorem sendSess (s : State) (sid : BitVec 14) (prio : Option Nat) (what : NetOut) : s.upToSends (s.sendSess sid prio what) := by
  unfold State.sendSess
  split
  · exact sendIp s _ _ _
  · exact refl s

theorem noteNeighbour (s : State) (a : BitVec 128) (m : BitVec 48) : s.upToSends (s.noteNeighbour a m) :=
  trans ⟨_, _, _, rfl⟩ (foldl (fun t _ => sendTo t _ _ _) _ _)

theorem regs_eq (h : s.upToSends t) : t.regs = s.regs := by obtain ⟨_, _, _, rfl⟩ := h; rfl
theorem cmd_eq (h : s.upToSends t) : t.cmd = s.cmd := by obtain ⟨_, _, _, rfl⟩ := h; rfl
theorem conns_eq (h : s.upToSends t) : t.net.conns = s.net.conns := by obtain ⟨_, _, _, rfl⟩ := h; rfl
theorem freed_eq (h : s.upToSends t) : t.net.freed = s.net.freed := by obtain ⟨_, _, _, rfl⟩ := h; rfl
theorem reg_eq (h : s.upToSends t) (a : Nat) : t.reg a = s.reg a := State.reg_of_regs h.regs_eq a
theorem get_eq (h : s.upToSends t) (f : Fld) : t.get f = s.get f := by rw [State.get, h.reg_eq, State.get]
theorem session?_eq (h : s.upToSends t) (sid : BitVec 14) : t.session? sid = s.session? sid := by
  rw [State.session?, h.cmd_eq, State.session?]

end State.upToSends

/-! ### Connections (R365, R371) -/

/-- A connection looked up after a change of one connection that keeps its ID. -/
theorem connOf_modConn {s : State} {sid : BitVec 14} {f : Conn → Conn} (hf : ∀ c, (f c).sid = c.sid) :
    (s.modConn sid f).connOf sid = (s.connOf sid).map f := by
  have hid : ∀ c : Conn, (if c.sid = sid then f c else c).sid = c.sid := fun c => by split <;> simp [hf]
  have hfind : (s.modConn sid f).connOf sid = (s.connOf sid).map fun c => if c.sid = sid then f c else c := by
    simp only [State.connOf, State.modConn, State.modNet, List.find?_map, Function.comp_def, hid]
  rw [hfind]
  cases hc : s.connOf sid with
  | none => rfl
  | some c =>
    have hsid : c.sid = sid := by simpa using List.find?_some hc
    rw [Option.map_some, Option.map_some, if_pos hsid]

/-- Connections without the ID hold none of that ID. -/
theorem connOf_filtered {s : State} {sid : BitVec 14} {l : List Conn} (h : s.net.conns = l.filter fun c => c.sid != sid) :
    (s.connOf sid).isSome = false := by
  rw [State.connOf, h]
  simp

/-! ### What closing a session leaves of the network -/

/-- The network's record, and the word that counts rejected and lost connections. -/
def State.netView (s : State) : NetSt × Word := (s.net, s.reg NET_CM_CNT)

theorem State.set_netView (s : State) {f : Fld} (v : Nat) (h : NET_CM_CNT ≠ f.addr) : (s.set f v).netView = s.netView :=
  Prod.ext rfl (State.reg_set_other s v h)

theorem foldl_netView {α : Type} {f : State → α → State} {l : List α}
    (hf : ∀ t, ∀ a ∈ l, (f t a).netView = t.netView) (s : State) :
    (l.foldl f s).netView = s.netView := by
  induction l generalizing s with
  | nil => rfl
  | cons a l ih =>
    rw [List.foldl_cons, ih fun t b hb => hf t b (List.mem_cons_of_mem a hb), hf s a List.mem_cons_self]

theorem netView_of_beyondSpn {s t : State} (h : t.beyondSpn = s.beyondSpn) : t.netView = s.netView :=
  Prod.ext (congrArg (fun b => b.rest.net) h) (reg_of_beyondSpn h (by decide))

theorem State.withCmd_netView (s : State) (x : CmdSt) : State.netView { s with cmd := x } = s.netView := rfl
theorem State.withArb_netView (s : State) (x : ArbSt) : State.netView { s with arb := x } = s.netView := rfl
theorem State.withChn_netView (s : State) (x : ChnSt) : State.netView { s with chn := x } = s.netView := rfl
theorem State.withCch_netView (s : State) (x : CchSt) : State.netView { s with cch := x } = s.netView := rfl
theorem State.modPlc_netView (s : State) (f : PlcSt → PlcSt) : (s.modPlc f).netView = s.netView := rfl
theorem State.modArb_netView (s : State) (st : Nat) (f : StnArb → StnArb) : (s.modArb st f).netView = s.netView := rfl
theorem State.dropJobs_netView (s : State) (f : Job → Bool) : (s.dropJobs f).netView = s.netView := rfl
theorem State.draw_netView (s : State) : s.draw.2.netView = s.netView := rfl

theorem State.modSess_netView (s : State) (p : Path) (f : Session → Session) : (s.modSess p f).netView = s.netView := by
  cases p <;> rfl

/-! #### Stations released -/

theorem State.idleStn_netView (s : State) (st : Nat) : (s.idleStn st).netView = s.netView := by
  have h : NET_CM_CNT ≠ ARB_STN_W0 st := by simp only [NET_CM_CNT, ARB_STN_W0]; omega
  rw [State.idleStn, State.set_netView _ _ h, State.set_netView _ _ h, State.set_netView _ _ h, State.set_netView _ _ h,
    State.modArb_netView]

theorem State.parkStn_netView (s : State) (st owner : Nat) (hold : Option Nat) : (s.parkStn st owner hold).netView = s.netView := by
  have h : NET_CM_CNT ≠ ARB_STN_W0 st := by simp only [NET_CM_CNT, ARB_STN_W0]; omega
  rw [State.parkStn, State.set_netView _ _ h, State.set_netView _ _ h, State.set_netView _ _ h, State.modArb_netView]

theorem State.spinAborted_netView (s : State) (st : Fin 2) : (s.spinAborted st).netView = s.netView := by
  unfold State.spinAborted
  split
  · exact netView_of_beyondSpn (State.spnResult_beyondSpn s st _)
  · rfl

theorem State.spnStop_netView (s : State) (st : Fin 2) : (s.spnStop st).netView = s.netView := by
  have hindex : (s.discIndexDue st).netView = s.netView := rfl
  have hstop (f : StnSt → StnSt) : (((s.discIndexDue st).spinAborted st).modStn st f).netView = s.netView := by
    rw [netView_of_beyondSpn (State.modStn_beyondSpn _ _ _), State.spinAborted_netView, hindex]
  unfold State.spnStop
  dsimp only
  split_ifs
  · rw [netView_of_beyondSpn (State.spnOff_beyondSpn _ _), hstop]
  · rw [netView_of_beyondSpn (State.spinDown_beyondSpn _ _), hstop]
  · exact hstop _

theorem State.releaseStn_netView (s : State) (st : Fin 2) : (s.releaseStn st).netView = s.netView := by
  unfold State.releaseStn
  split
  · split_ifs
    · rw [State.spnStop_netView, State.idleStn_netView]
    · exact State.parkStn_netView s st _ _
    · exact State.idleStn_netView s st
  · rfl

theorem State.endJobs_netView (s : State) (id : Nat) : (s.endJobs id).netView = s.netView := by
  refine (foldl_netView (fun t st hst => ?_) _).trans (State.dropJobs_netView s _)
  split
  · exact State.releaseStn_netView t ⟨st, List.mem_range.mp hst⟩
  · rfl

/-! #### Entries and records -/

theorem State.cmdCounts_netView (s : State) : s.cmdCounts.netView = s.netView := by
  rw [State.cmdCounts, State.set_netView _ _ (by decide), State.set_netView _ _ (by decide)]

theorem State.logPut_netView (s : State) (r : LogRec) : (s.logPut r).netView = s.netView := by
  unfold State.logPut
  dsimp only
  rw [State.set_netView _ _ (by decide), State.incWrap, State.set_netView _ _ (by decide), State.withCmd_netView]

theorem State.writeEntry_netView (s : State) (k : Completion) : (s.writeEntry k).netView = s.netView := by
  unfold State.writeEntry
  split
  · dsimp only
    rw [State.modSess_netView, State.withCmd_netView]
  · rfl

theorem State.freeze_netView (s : State) (c : Cmd) (status : Nat) : (s.freeze c status).netView = s.netView := by
  unfold State.freeze
  dsimp only
  rw [State.modSess_netView, State.logPut_netView]

theorem State.finish_netView (s : State) (c : Cmd) (r : Reply) : (s.finish c r).netView = s.netView := by
  unfold State.finish
  dsimp only
  generalize (freezes r.status && _) = b
  cases b
  · rw [if_neg Bool.false_ne_true, State.writeEntry_netView, State.cmdCounts_netView, State.withCmd_netView]
  · rw [if_pos rfl, State.writeEntry_netView, State.freeze_netView, State.cmdCounts_netView, State.withCmd_netView]

theorem State.finishWith_netView (s : State) (c : Cmd) (status : Nat) : (s.finishWith c status).netView = s.netView := by
  unfold State.finishWith
  split
  · rw [State.finish_netView, State.draw_netView]
  · exact State.finish_netView s c _

/-! #### Versions abandoned -/

theorem State.slotCounts_netView (s : State) (k : Nat) (live dead : Int) : (s.slotCounts k live dead).netView = s.netView := by
  rw [State.slotCounts, State.set_netView _ _ (by simp only [NET_CM_CNT, PLC_SLOT_W3]; omega),
    State.set_netView _ _ (by simp only [NET_CM_CNT, PLC_SLOT_W2]; omega)]

theorem State.mapEnts_netView (s : State) (f : MapEnt → Bool) (g : MapEnt → MapEnt) : (s.mapEnts f g).netView = s.netView := by
  refine foldl_netView (fun t e _ => ?_) s
  dsimp only
  split_ifs
  · rw [State.slotCounts_netView, State.modPlc_netView]
  · rw [State.slotCounts_netView, State.modPlc_netView]
  · rfl
  · rfl

theorem State.giveUpCopy_netView (s : State) (id : UnitId) (cmd : Option Nat) : (s.giveUpCopy id cmd).netView = s.netView := by
  unfold State.giveUpCopy State.dropUnit
  dsimp only
  rw [State.withChn_netView, foldl_netView (fun t st _ => State.modArb_netView t st _), State.withArb_netView]

theorem State.dropVersions_netView (s : State) (keys : List (Nat × Nat)) : (s.dropVersions keys).netView = s.netView := by
  have hunits (l : List UnitSt) (t : State) :
      (l.foldl (fun (w : State) u => w.giveUpCopy u.id u.cmd) t).netView = t.netView := by
    refine foldl_netView (fun w u _ => ?_) t
    exact State.giveUpCopy_netView w u.id u.cmd
  refine foldl_netView (fun t k _ => ?_) s
  split
  · rfl
  · dsimp only
    rw [State.modPlc_netView, State.mapEnts_netView, hunits]

/-! #### The session and its transactions -/

theorem State.sessionReset_netView (s : State) (p : Path) (dreq : Bool) : (s.sessionReset p dreq).netView = s.netView := by
  unfold State.sessionReset
  split
  · rfl
  dsimp only
  rw [State.cmdCounts_netView, State.modSess_netView, State.withCmd_netView, State.modPlc_netView,
    foldl_netView (fun t i _ => State.endJobs_netView t i), State.dropVersions_netView]
  refine (foldl_netView (fun t h _ => ?held) _).trans (foldl_netView (fun t c _ => ?unstarted) s)
  case held =>
    split
    · rw [State.finishWith_netView]
      exact State.modSess_netView t p _
    · exact State.logPut_netView t _
  case unstarted =>
    split
    · rw [State.finishWith_netView, State.dropJobs_netView]
    · rw [State.logPut_netView, State.dropJobs_netView]

theorem State.closeTxn_netView (s : State) (d last : Nat) : (s.closeTxn d last).netView = s.netView := by
  have h0 : NET_CM_CNT ≠ TXN_STAT_W0 d := by simp only [NET_CM_CNT, TXN_STAT_W0]; omega
  have h2 : NET_CM_CNT ≠ TXN_STAT_W2 d := by simp only [NET_CM_CNT, TXN_STAT_W2]; omega
  have htxn : (s.setTxn d {}).netView = s.netView := rfl
  unfold State.closeTxn
  dsimp only
  rw [State.set_netView _ _ h2, State.set_netView _ _ h2, State.set_netView _ _ h0, State.set_netView _ _ h0,
    State.set_netView _ _ h0, State.set_netView _ _ h0, htxn]

theorem State.ownerLost_netView (s : State) (p : Path) : (s.ownerLost p).netView = s.netView := by
  refine foldl_netView (fun t d _ => ?_) s
  split
  · exact State.closeTxn_netView t d _
  · rfl

theorem State.countLocks_netView (s : State) : s.countLocks.netView = s.netView := by
  unfold State.countLocks
  dsimp only
  rw [State.set_netView _ _ (by decide), State.set_netView _ _ (by decide)]

theorem State.unlockWays_netView (s : State) (f : CLine → Bool) : (s.unlockWays f).netView = s.netView := by
  rw [State.unlockWays, State.countLocks_netView, State.withCch_netView]

/-! ### Sessions that close (R365, R371, R415) -/

/-- NET_SESS alone follows the sessions; OPEN is their number. -/
theorem netSess_spec (s : State) :
    s.netSess.get NET_SESS_OPEN = s.cmd.sessions.length % (NET_SESS_OPEN.top + 1) ∧ s.netSess.net = s.net ∧
      s.netSess.cmd = s.cmd ∧ ∀ a, a ≠ NET_SESS → s.netSess.reg a = s.reg a := by
  have htop : NET_SESS_OPEN.top + 1 = 2 ^ (30 + 1 - 16) := by decide
  have hopen (v w : Nat) : (((s.set NET_SESS_OPEN s.cmd.sessions.length).set NET_SESS_MGMT_VALID v).set NET_SESS_MGMT_ID w).get
      NET_SESS_OPEN = s.cmd.sessions.length % (NET_SESS_OPEN.top + 1) := by
    rw [State.get_set_apart _ _ (by decide) (by decide) (by decide), State.get_set_apart _ _ (by decide) (by decide) (by decide),
      State.get_set_here _ _ (by decide) (by decide), htop]
  have hother (v w a : Nat) (ha : a ≠ NET_SESS) : (((s.set NET_SESS_OPEN s.cmd.sessions.length).set NET_SESS_MGMT_VALID v).set
      NET_SESS_MGMT_ID w).reg a = s.reg a := by
    rw [State.reg_set_apart _ _ ha, State.reg_set_apart _ _ ha, State.reg_set_apart _ _ ha]
  have hnet (v w : Nat) : (((s.set NET_SESS_OPEN s.cmd.sessions.length).set NET_SESS_MGMT_VALID v).set NET_SESS_MGMT_ID w).net =
      s.net := by
    rw [State.set_net, State.set_net, State.set_net]
  have hcmd (v w : Nat) : (((s.set NET_SESS_OPEN s.cmd.sessions.length).set NET_SESS_MGMT_VALID v).set NET_SESS_MGMT_ID w).cmd =
      s.cmd := by
    rw [State.set_cmd, State.set_cmd, State.set_cmd]
  unfold State.netSess
  dsimp only
  split
  · exact ⟨hopen _ _, hnet _ _, hcmd _ _, hother _ _⟩
  · exact ⟨hopen _ _, hnet _ _, hcmd _ _, hother _ _⟩

/-- A session without the ID is none of that ID. -/
theorem session?_filtered {s : State} {sid : BitVec 14} {l : List Session} (h : s.cmd.sessions = l.filter fun y => y.id != sid) :
    (s.session? sid).isSome = false := by
  rw [State.session?, h]
  simp

/-- A session is taken out of the open ones; its quotes end, but for one being signed. -/
def State.sessionUnlisted (s : State) (sid : BitVec 14) : State :=
  let kept := s.sec.quotes.filter fun q => q.path != .session sid || q.state == 1
  { s with
    cmd := { s.cmd with sessions := s.cmd.sessions.filter fun y => y.id != sid }
    sec := { s.sec with quotes := kept.map fun (q : Quote) => if q.path = .session sid then { q with dropped := true } else q } }

/-- The end of a session's connection: its ID is freed at a tick. -/
def State.connFreed (s : State) (sid : BitVec 14) (tick : Nat) : State :=
  s.modNet fun n => { n with conns := n.conns.filter fun c => c.sid != sid, freed := n.freed ++ [(sid, tick)] }

/-- A session that closes is unlisted and its connection freed, after its reset. -/
theorem closeSession_eq {s : State} {sid : BitVec 14} (dreq : Bool) (h : (s.session? sid).isSome = true) :
    ∃ t : State, t.netView = s.netView ∧ s.closeSession sid dreq = ((t.sessionUnlisted sid).connFreed sid s.tick).netSess := by
  obtain ⟨x, hx⟩ := Option.isSome_iff_exists.mp h
  have hreset : ((s.sessionReset (.session sid) dreq).ownerLost (.session sid)).netView = s.netView := by
    rw [State.ownerLost_netView, State.sessionReset_netView]
  refine ⟨if x.mgmt then (((s.sessionReset (.session sid) dreq).ownerLost (.session sid)).unlockWays fun w =>
    (contextLines sid.toNat).contains w.tag).countLocks else (s.sessionReset (.session sid) dreq).ownerLost (.session sid), ?_, ?_⟩
  · split
    · rw [State.countLocks_netView, State.unlockWays_netView, hreset]
    · exact hreset
  · unfold State.closeSession State.sessionUnlisted State.connFreed
    rw [hx]

/-- A session that closes is none of the open ones any more, its connection is gone, its ID is freed at this tick, and NET_SESS shows
how many remain; of NET_CM_CNT nothing changes. -/
theorem closeSession_spec {s : State} {sid : BitVec 14} (dreq : Bool) (h : (s.session? sid).isSome = true) :
    (s.closeSession sid dreq).net =
        { s.net with conns := s.net.conns.filter fun c => c.sid != sid, freed := s.net.freed ++ [(sid, s.tick)] } ∧
      ((s.closeSession sid dreq).session? sid).isSome = false ∧
      (s.closeSession sid dreq).get NET_SESS_OPEN = (s.closeSession sid dreq).cmd.sessions.length % (NET_SESS_OPEN.top + 1) ∧
      (s.closeSession sid dreq).reg NET_CM_CNT = s.reg NET_CM_CNT := by
  obtain ⟨t, hview, heq⟩ := closeSession_eq dreq h
  obtain ⟨hopen, hnet, hcmd, hreg⟩ := netSess_spec ((t.sessionUnlisted sid).connFreed sid s.tick)
  have htnet : t.net = s.net := congrArg Prod.fst hview
  have htreg : t.reg NET_CM_CNT = s.reg NET_CM_CNT := congrArg Prod.snd hview
  rw [heq]
  refine ⟨?_, session?_filtered (congrArg CmdSt.sessions hcmd), by rw [hopen, hcmd], ?_⟩
  · rw [hnet, State.connFreed, State.modNet, State.sessionUnlisted, htnet]
  · rw [hreg _ (by decide), State.connFreed, State.modNet_reg, ← htreg]
    rfl

end Sys2Proof.Machine
end

section
/-!
PROOFS of the statements of 08_ethernet_chain.md, continued: the time client and the transport (O36).
-/

namespace Sys2Proof.Machine

open Sys2Proof

/-! ### The time client (R360, R361) -/

theorem State.raise_net (s : State) (src kind arg : Nat) : (s.raise src kind arg).net = s.net := by
  obtain ⟨_, _, h⟩ := State.upToFaults.raise s src kind arg
  rw [h]

theorem State.flag_withCe (s : State) (x : CeSt) (f : Fld) : State.flag { s with ce := x } f = s.flag f := rfl

/-- Validity of PTP time leaves the network's record; an end of it clears VALID and PTP_VALID. -/
theorem State.ptpValidity_net (s : State) (valid : Bool) : (s.ptpValidity valid).net = s.net := by
  unfold State.ptpValidity
  dsimp only
  split_ifs
  · rw [State.set_net, State.set_net, State.setFlag_net]
  · rw [State.raise_net, State.set_net, State.set_net, State.set_net, State.setFlag_net]
  · exact State.setFlag_net s _ _

theorem State.flags_ptpValidity_false (s : State) :
    (s.ptpValidity false).flag NET_PTP_STAT_VALID = false ∧ (s.ptpValidity false).flag TICK_STAT_PTP_VALID = false := by
  have hvalid : (s.setFlag NET_PTP_STAT_VALID false).flag NET_PTP_STAT_VALID = false := State.flag_setFlag_here s false (by decide)
  unfold State.ptpValidity
  dsimp only
  rw [if_neg Bool.false_ne_true]
  split
  · constructor
    · rw [State.flag_raise_below _ (by decide), State.flag_withCe, State.flag_set_other _ _ (by decide) (by decide),
        State.flag_set_other _ _ (by decide) (by decide), State.flag_set_other _ _ (by decide) (by decide), hvalid]
    · rw [State.flag_raise_below _ (by decide), State.flag_withCe, State.flag_set_other _ _ (by decide) (by decide),
        State.flag_set_other _ _ (by decide) (by decide), State.flag_set_zero_here _ (by decide)]
  next hoff => exact ⟨hvalid, Bool.eq_false_of_not_eq_true hoff⟩

/-- The data set of an Announce message heard on a port (R360). -/
def masterHeard (port : Nat) (prio1 cls acc : BitVec 8) (var : BitVec 16) (prio2 : BitVec 8) (id : BitVec 64) (steps : BitVec 16) :
    Master where
  port := port
  prio1 := prio1.toNat
  cls := cls.toNat
  acc := acc.toNat
  var := var.toNat
  prio2 := prio2.toNat
  id := id
  steps := steps.toNat

/-- The client takes part in its domain: the first Announce on a port that is UP enters the masters heard, and the best is taken. -/
theorem ptpMessage_firstAnnounce {s : State} {p : Nat} {d prio1 cls acc prio2 : BitVec 8} {var steps : BitVec 16} {id : BitVec 64}
    (hup : s.isUp p = true) (hen : s.flag NET_PTP_CFG_CLIENT_EN = true) (hdom : d.toNat = s.get NET_PTP_CFG_DOMAIN)
    (hnone : s.net.masters = []) :
    s.ptpMessage p (.announce d prio1 cls acc var prio2 id steps) =
      (s.modNet fun n => { n with masters := [masterHeard p prio1 cls acc var prio2 id steps] }).chooseMaster := by
  have hfirst : (s.modNet fun n => { n with masters := (n.masters.filter fun a => !(a.port == p && a.id == id)) ++
      [masterHeard p prio1 cls acc var prio2 id steps] }) =
      s.modNet fun n => { n with masters := [masterHeard p prio1 cls acc var prio2 id steps] } := by
    rw [State.modNet, hnone, List.filter_nil, List.nil_append, State.modNet]
  unfold State.ptpMessage
  rw [hup, hen, Bool.not_true, Bool.or_false, if_neg Bool.false_ne_true]
  dsimp only
  rw [if_neg (not_not.mpr hdom)]
  exact congrArg State.chooseMaster hfirst

/-- The words of NET that show a master. -/
theorem masterShown_spec (s : State) {b : Master} (hport : b.port < 2) :
    (s.masterShown b).get NET_PTP_STAT_PORT = b.port ∧ (s.masterShown b).reg NET_PTP_GM_LO = b.id.setWidth 32 := by
  constructor
  · rw [State.masterShown, State.get_setReg_other _ _ (by decide), State.get_setReg_other _ _ (by decide),
      State.get_set_here _ _ (by decide) (by decide)]
    exact Nat.mod_eq_of_lt hport
  · rw [State.masterShown, State.reg_setReg_other _ _ (by decide), State.reg_setReg_same]

/-- The first master taken is shown, and four delay exchanges start. -/
theorem chooseMaster_first {s : State} {b : Master} (hbest : bestMaster s.net.masters = some b) (hnone : s.net.master = none)
    (hport : b.port < 2) :
    s.chooseMaster.net.master = some b ∧ s.chooseMaster.net.delays = 4 ∧ s.chooseMaster.get NET_PTP_STAT_PORT = b.port ∧
      s.chooseMaster.reg NET_PTP_GM_LO = b.id.setWidth 32 := by
  obtain ⟨hshown, hid⟩ := masterShown_spec s hport
  have hchosen : s.chooseMaster =
      ((s.masterShown b).modNet fun n => { n with master := some b, delays := 4, good := 0 }).emit b.port
      ((s.masterShown b).ownPrio 0) .delayReq := by
    unfold State.chooseMaster State.masterShown
    rw [hbest, hnone]
    dsimp only
    rw [Option.any_none, if_neg Bool.false_ne_true]
  rw [hchosen, State.get, State.emit_reg, State.emit_reg, State.modNet_reg, State.modNet_reg]
  exact ⟨rfl, rfl, hshown, hid⟩

/-- With no master heard the client has none. -/
theorem chooseMaster_none {s : State} (h : s.net.masters = []) : s.chooseMaster = s.modNet fun n => { n with master := none } := by
  unfold State.chooseMaster
  rw [h]
  rfl

/-- The only master is given up: the client has none, and PTP time is invalid. -/
theorem loseMasters_only {s : State} {p : Nat} {m : Master}
    (hheard : s.net.masters = [m]) (hm : s.net.master = some m) (hp : m.port = p) :
    s.loseMasters p = (s.modNet fun n => { n with masters := [], master := none }).ptpValidity false := by
  have hmaster : (s.modNet fun n => { n with masters := [] }).chooseMaster =
      s.modNet fun n => { n with masters := [], master := none } := chooseMaster_none rfl
  have hgone : (s.modNet fun n => { n with masters := [], master := none }).net.master.isNone = true := rfl
  have hused : (s.net.master.any fun a => a.port == p) = true := by rw [hm, Option.any_some, hp, beq_self_eq_true]
  have hnone : (s.net.masters.filter fun a => a.port != p) = [] := by simp [hheard, hp]
  have hleft : (s.modNet fun n => { n with masters := n.masters.filter fun a => a.port != p }) =
      s.modNet fun n => { n with masters := [] } := by
    rw [State.modNet, hnone, State.modNet]
  unfold State.loseMasters
  dsimp only
  rw [hused, if_pos rfl, hleft, hmaster, if_pos hgone]

/-! ### Transport (R362, R370, R373) -/

/-- A retry with retries left is counted, and the packets are sent again. -/
theorem retry_counts {s : State} {sid : BitVec 14} {c : Conn}
    (hc : s.connOf sid = some c) (ho : c.opened = true) (hr : c.used < c.retry) :
    (s.modConn sid fun x => { x with used := x.used + 1 }).upToSends (s.retry sid) := by
  unfold State.retry
  rw [hc]
  dsimp only
  rw [ho, Bool.not_true, if_neg Bool.false_ne_true, if_pos hr]
  exact State.upToSends.sendSess _ _ _ _

/-- A session that the device disconnects is closed and waits for its DREP; of NET_CM_CNT nothing changes. -/
theorem disconnect_spec {s : State} {sid : BitVec 14} (h : (s.session? sid).isSome = true) :
    ((s.disconnect sid).session? sid).isSome = false ∧ ((s.disconnect sid).connOf sid).isSome = false ∧
      sid ∈ (s.disconnect sid).net.closing ∧
      (s.disconnect sid).get NET_SESS_OPEN = (s.disconnect sid).cmd.sessions.length % (NET_SESS_OPEN.top + 1) ∧
      (s.disconnect sid).reg NET_CM_CNT = s.reg NET_CM_CNT := by
  have hsends := State.upToSends.sendSess s sid (s.ownPrio 0) (.dreq sid)
  obtain ⟨hnet, hgone, hopen, hcount⟩ := closeSession_spec false
    (show ((s.sendSess sid (s.ownPrio 0) (.dreq sid)).session? sid).isSome =
    true by rw [hsends.session?_eq, h])
  have hdisc : s.disconnect sid = ((s.sendSess sid (s.ownPrio 0) (.dreq sid)).closeSession sid false).modNet fun n =>
      { n with closing := n.closing ++ [sid] } := if_pos h
  rw [hdisc]
  refine ⟨hgone, connOf_filtered (by rw [State.modNet, hnet]), List.mem_append_right _ (List.mem_singleton.mpr rfl), ?_, ?_⟩
  · rw [State.modNet_get]
    exact hopen
  · rw [State.modNet_reg, hcount, hsends.reg_eq]

/-- A session that has exhausted its retries is disconnected and counted, and the fault is raised. -/
theorem transportFail_spec {s : State} {sid : BitVec 14} (h : (s.session? sid).isSome = true) :
    ((s.transportFail sid).session? sid).isSome = false ∧ ((s.transportFail sid).connOf sid).isSome = false ∧
      sid ∈ (s.transportFail sid).net.closing ∧
      (s.transportFail sid).get NET_SESS_OPEN = (s.transportFail sid).cmd.sessions.length % (NET_SESS_OPEN.top + 1) ∧
      (s.transportFail sid).get NET_CM_CNT_TRANSPORT = min NET_CM_CNT_TRANSPORT.top (s.get NET_CM_CNT_TRANSPORT + 1) := by
  obtain ⟨hgone, hconn, hclosing, hopen, hcount⟩ := disconnect_spec h
  have hfail : s.transportFail sid = ((s.disconnect sid).addSat NET_CM_CNT_TRANSPORT 1).raise 0x070 4 sid.toNat := if_pos h
  have hcmd : (s.transportFail sid).cmd = (s.disconnect sid).cmd := by rw [hfail, State.raise_cmd, State.addSat_cmd]
  have hnet : (s.transportFail sid).net = (s.disconnect sid).net := by rw [hfail, State.raise_net, State.addSat_net]
  have hbefore : (s.disconnect sid).get NET_CM_CNT_TRANSPORT = s.get NET_CM_CNT_TRANSPORT := by rw [State.get, hcount, State.get]
  refine ⟨?_, ?_, hnet ▸ hclosing, ?_, ?_⟩
  · rw [State.session?, hcmd]
    exact hgone
  · rw [State.connOf, hnet]
    exact hconn
  · rw [hcmd, hfail, State.get_raise_below _ (by decide), State.get_addSat_other _ _ (by decide) (by decide), hopen]
  · rw [hfail, State.get_raise_below _ (by decide), ← hbefore]
    exact State.get_addSat_here _ 1 (by decide) (by decide)

/-- The first stages of recovery are fast: the rate goes half the way to its target (R373). -/
theorem rateStage_fast (s : State) {c : Conn} (ht : c.tStage < fastStages) (hb : c.bStage < fastStages) :
    s.rateStage c = { c with rate := max s.rateFloor (min lineRate ((c.target + c.rate) / 2)) } := by
  unfold State.rateStage
  dsimp only
  rw [if_pos (max_lt ht hb)]

/-- A connection after its rate timer, with no 10 MiB sent in the period. -/
def State.rateElapsed (s : State) (c : Conn) : Conn :=
  if 2 * c.rateAt + s.get NET_RC_CFG_RATE_T ≤ 2 * s.tick then s.rateStage { c with tStage := c.tStage + 1, rateAt := s.tick } else c

/-! ### The statement -/

/-- Settles O36: the first Announce makes its sender the master (`chooseMaster_first`), the loss of the only master ends validity
(`loseMasters_only`); an end for exhausted retries is a session that closes (`transportFail_spec`); the timers change the connection alone. -/
theorem timeClientAndTransport : Obligations.TimeClientAndTransport := by
  refine ⟨?announce, ?timeout, ?ack, ?retry, ?exhausted, ?cnp, ?alpha, ?rate⟩
  case announce =>
    intro port p1 cl ac p2 var st gid d s hup hen hdom hmasters hmaster
    obtain ⟨htaken, hdelays, hshown, hid⟩ := chooseMaster_first
      (s := s.modNet fun n => { n with masters := [masterHeard port p1 cl ac var p2 gid st] }) rfl hmaster port.isLt
    refine ⟨_, congrArg Host.Outcome.next (ptpMessage_firstAnnounce hup hen hdom hmasters), ?_, hdelays, hshown, hid⟩
    rw [htaken]
    rfl
  case timeout =>
    intro port m s hmasters hmaster hport
    refine ⟨_, congrArg Host.Outcome.next (loseMasters_only hmasters hmaster hport), ?_, ?_, State.flags_ptpValidity_false _⟩
    · rw [State.ptpValidity_net]
      rfl
    · rw [State.ptpValidity_net]
      rfl
  case ack => exact fun sid s => ⟨_, rfl, rfl, rfl⟩
  case retry =>
    intro sid c s hc ho hr
    have hsends := retry_counts hc ho hr
    exact ⟨_, rfl, hsends.conns_eq, hsends.regs_eq⟩
  case exhausted => exact fun sid s h => ⟨_, rfl, transportFail_spec h⟩
  case cnp => exact fun sid s => ⟨_, rfl, rfl, rfl⟩
  case alpha =>
    intro sid s
    refine ⟨_, rfl, List.map_congr_left fun c _ => ?_, rfl⟩
    rw [ite_and]
  case rate =>
    intro sid c s hc ht hb hdue
    refine ⟨_, rfl, ?_, fun x hx hne => ?_, rfl⟩
    · have hsid (x : Conn) : (s.rateElapsed x).sid = x.sid := by
        unfold State.rateElapsed
        split <;> rfl
      refine (connOf_modConn hsid).trans ?_
      rw [hc, Option.map_some, State.rateElapsed, if_pos hdue]
      exact congrArg some (rateStage_fast s (c := { c with tStage := c.tStage + 1, rateAt := s.tick }) (Nat.succ_lt_succ ht) hb)
    · exact List.mem_map.mpr ⟨x, hx, if_neg hne⟩

end Sys2Proof.Machine
end

section
/-!
PROOFS of the statements of 08_ethernet_chain.md, continued: connections, entries and write data (O37).
-/

namespace Sys2Proof.Machine

open Sys2Proof

/-! ### Requests (R364 to R369) -/

theorem execCmReq_rejected {r : ConnReq} {code : Nat} {s : State} (hm : s.mode ≠ modeBoot) (hr : s.connRefusal r = some code) :
    execCmReq r s = .next ((s.addSat NET_CM_CNT_REJ 1).sendTo r.mac (s.ownPrio 0) (.rej code)) := by
  unfold execCmReq
  rw [if_neg hm, hr]

/-- The connection that a REQ is granted under an ID. -/
def State.connGranted (s : State) (r : ConnReq) (sid : BitVec 14) : Conn :=
  { sid := sid, mgmt := r.kind == 1, tenant := r.tenant.toNat, depth := min r.depth.toNat 256, cqEntries := r.cqEntries.toNat,
    cqAddr := r.cqAddr, mac := r.mac, ip := r.ip, alphaAt := s.tick, rateAt := s.tick,
    mtu := min r.mtu.toNat (([1024, 2048, 4096][s.get NET_MTU_MTU]?).getD 4096), retry := r.retry.toNat, rnr := r.rnr.toNat }

theorem execCmReq_granted {r : ConnReq} {sid : BitVec 14} {s : State} (hm : s.mode ≠ modeBoot) (hr : s.connRefusal r = none)
    (hfree : s.freeSid = some sid) :
    execCmReq r s = .next (((s.noteNeighbour (s.nextHop r.ip) r.mac).modNet fun n =>
      { n with conns := n.conns ++ [s.connGranted r sid], freed := n.freed.filter fun e => e.1 != sid }).sendTo r.mac (s.ownPrio 0)
        (.rep sid (min r.depth.toNat 256))) := by
  unfold execCmReq
  rw [if_neg hm, hr, hfree]
  rfl

/-- A request that no check refuses asks for at most 256 entries. -/
theorem depth_of_connRefusal_none {r : ConnReq} {s : State} (h : s.connRefusal r = none) : r.depth.toNat ≤ 256 := by
  have hvalid : connReqValid r = true := by
    by_contra hbad
    have hcode : s.connRefusal r = some 1 := if_pos (by rw [Bool.eq_false_of_not_eq_true hbad]; rfl)
    rw [hcode] at h
    exact Option.some_ne_none _ h
  simp only [connReqValid, Bool.and_eq_true, decide_eq_true_eq] at hvalid
  tauto

/-! ### Sessions that open and connections that end (R365, R371) -/

/-- The session of a connection joins the open ones, and the connection is open. -/
def State.sessionOpened (s : State) (sid : BitVec 14) (c : Conn) : State :=
  State.modConn { s with cmd := { s.cmd with sessions := s.cmd.sessions ++
    [{ id := sid, mgmt := c.mgmt, tenant := c.tenant, depth := c.depth, cqEntries := c.cqEntries, cqAddr := c.cqAddr }] } } sid
    fun y => { y with opened := true }

theorem execCmRtu_data {s : State} {sid : BitVec 14} {c : Conn} (hc : s.connOf sid = some c) (ho : c.opened = false)
    (hm : s.mode ≠ modeBoot) (hk : c.mgmt = false) : execCmRtu sid s = .next (s.sessionOpened sid c).netSess := by
  have hwaits : ¬ (c.opened = true ∨ s.mode = modeBoot) := by rw [ho]; exact not_or.mpr ⟨Bool.false_ne_true, hm⟩
  unfold execCmRtu State.sessionOpened
  rw [hc]
  dsimp only
  rw [if_neg hwaits, hk, if_neg Bool.false_ne_true]

theorem execCmDreq_waiting {s : State} {sid : BitVec 14} {c : Conn} (hc : s.connOf sid = some c) (ho : c.opened = false) :
    execCmDreq sid s = .next ((s.connFreed sid s.tick).sendIp c.ip (s.ownPrio 0) (.drep sid)) := by
  unfold execCmDreq State.connFreed
  rw [hc]
  dsimp only
  rw [ho, if_neg Bool.false_ne_true]

theorem execCmDreq_open {s : State} {sid : BitVec 14} {c : Conn} (hc : s.connOf sid = some c) (ho : c.opened = true) :
    execCmDreq sid s = .next ((s.closeSession sid true).sendIp c.ip (s.ownPrio 0) (.drep sid)) := by
  unfold execCmDreq
  rw [hc]
  dsimp only
  rw [ho, if_pos rfl]

/-! ### Entries (R363, R381, R385) -/

/-- An entry joins a session's arrivals. -/
def Session.joined (a : Nat × Entry) (x : Session) : Session := { x with arrivals := x.arrivals ++ [a] }

/-- An entry that finds room on a session joins its arrivals. -/
theorem arrive_room {s : State} {sid : BitVec 14} {op : Nat} {e : Entry} {x : Session} (hx : s.session? sid = some x)
    (hroom : s.sessLoad (.session sid) < x.depth) :
    s.arrive (.session sid) op e = (s.noteHead (.session sid) e).modSess (.session sid) (Session.joined (op, e)) := by
  have hsess : s.sessOf (.session sid) = some x := hx
  unfold State.arrive
  rw [hsess]
  dsimp only
  rw [if_pos (.inl hroom)]
  rfl

/-- The host's index changes nothing of a session but its record of that index. -/
theorem session?_noteHead (s : State) (sid : BitVec 14) (e : Entry) :
    ∃ f : Session → Session, (∀ x, (f x).arrivals = x.arrivals ∧ (f x).id = x.id) ∧
      (s.noteHead (.session sid) e).session? sid = (s.session? sid).map f ∧ (s.noteHead (.session sid) e).regs = s.regs := by
  unfold State.noteHead
  split
  · refine ⟨_, fun x => ?_, session?_modSess s (f := fun x => { x with cqHead := e.cqHead.toNat % 4096 % max 1 x.cqEntries })
      (fun x => rfl) sid sid, rfl⟩
    split <;> exact ⟨rfl, rfl⟩
  · exact ⟨id, fun _ => ⟨rfl, rfl⟩, by rw [Option.map_id, id], rfl⟩

/-- A session that an entry arrives on keeps it behind those that wait; no register changes. -/
theorem session?_arrive {s : State} {sid : BitVec 14} {op : Nat} {e : Entry} {x : Session} (hx : s.session? sid = some x)
    (hroom : s.sessLoad (.session sid) < x.depth) :
    ∃ y, (s.arrive (.session sid) op e).session? sid = some y ∧ y.arrivals = x.arrivals ++ [(op, e)] ∧
      (s.arrive (.session sid) op e).regs = s.regs := by
  obtain ⟨f, hf, hnoted, hregs⟩ := session?_noteHead s sid e
  obtain ⟨harr, hid⟩ := hf x
  have hjoined := session?_modSess (s.noteHead (.session sid) e) (f := Session.joined (op, e)) (fun _ => rfl) sid sid
  rw [hnoted, hx, Option.map_some, Option.map_some, if_pos (hid.trans (session?_id hx))] at hjoined
  rw [arrive_room hx hroom]
  exact ⟨_, hjoined, by rw [Session.joined, harr], hregs⟩

/-- An entry of a listed opcode stays at the head of the arrivals. -/
theorem badHeads_listed {s : State} {p : Path} {x : Session} {op : Nat} {e : Entry}
    {l : List (Nat × Entry)} (hx : s.sessOf p = some x)
    (ha : x.arrivals = (op, e) :: l) (hop : opListed op = true) (n : Nat) : State.badHeads n s p = s := by
  cases n with
  | zero => rfl
  | succ n =>
    unfold State.badHeads
    rw [hx]
    dsimp only
    rw [ha]
    dsimp only
    rw [if_pos hop]

theorem execRoceSend_badLength {s : State} {sid : BitVec 14} {len : BitVec 16} {items : List (BitVec 8 × Entry)}
    (hs : (s.session? sid).isSome = true) (hlen : sendItems len.toNat items = false) :
    execRoceSend sid len items s = .next (s.sendSess sid s.dataPrio (.nak sid false)) := by
  obtain ⟨x, hx⟩ := Option.isSome_iff_exists.mp hs
  unfold execRoceSend
  rw [hx, Option.isNone_some, if_neg Bool.false_ne_true, hlen, Bool.not_false, if_pos rfl]

/-- One entry of a listed opcode on a session where it then waits alone: it arrives, and stays. -/
theorem execRoceSend_one {s : State} {sid : BitVec 14} {op : BitVec 8} {e : Entry} {x y : Session} (hx : s.session? sid = some x)
    (hy : (s.arrive (.session sid) op.toNat e).session? sid = some y) (harr : y.arrivals = [(op.toNat, e)])
    (hop : opListed op.toNat = true) : execRoceSend sid 64 [(op, e)] s = .next (s.arrive (.session sid) op.toNat e) := by
  have hone : sendItems (64 : BitVec 16).toNat [(op, e)] = true := rfl
  have hstays := badHeads_listed (s := s.arrive (.session sid) op.toNat e) (p := .session sid) hy harr hop 65
  unfold execRoceSend
  rw [hx, Option.isNone_some, if_neg Bool.false_ne_true, hone, Bool.not_true, if_neg Bool.false_ne_true]
  exact congrArg Host.Outcome.next hstays

/-! ### Write data (R362) -/

/-- Nothing comes due among the commands: no version, search, tombstone or migration is open, and the commands held have started and do
not end. -/
theorem settle_of_held {s : State} (hopens : s.plc.opens = []) (hsearches : s.plc.searches = []) (htombs : s.plc.tombJobs = [])
    (hmig : s.plc.mig = none) (hcmds : ∀ c ∈ s.cmd.cmds, c.started = true ∧ s.endCmd c = none) : s.settle = s := by
  have htomb : s.tombsDone = s := by
    simp only [State.tombsDone, htombs, State.modPlc, List.filter_nil, List.foldl_nil]
    rw [← htombs]
  have hends : (s.cmd.cmds.findSome? fun c => s.endCmd c) = none := List.findSome?_eq_none_iff.mpr fun c hc => (hcmds c hc).2
  have hstarts : (s.cmd.cmds.find? fun c => !c.started && !c.deferred && c.op != opFlush && s.mayStart c) = none :=
    List.find?_eq_none.mpr fun c hc => by simp [(hcmds c hc).1]
  have hone : s.settleOne = none := by simp [State.settleOne, hopens, hsearches, hends, hstarts]
  have hfor : ∀ n, State.settleFor n s = s := fun n => by cases n <;> simp [State.settleFor, hone]
  rw [State.settle, htomb, State.migNext, hmig, hfor]

/-- A PUT with a unit neither counted nor failed goes on. -/
theorem endCmd_put_none {s : State} {k : Cmd} {u : UnitSt} (hop : k.op = opPut) (hstart : k.started = true) (hu : u ∈ s.plc.units)
    (hcmd : u.cmd = some k.id) (hcount : u.counted = false) (hphase : u.phase ≠ .failed) : s.endCmd k = none := by
  have hmine : u ∈ s.plc.units.filter fun u => u.cmd == some k.id := List.mem_filter.mpr ⟨hu, by simp [hcmd]⟩
  have hwaits : ((s.plc.units.filter fun u => u.cmd == some k.id).any fun u => !u.counted && u.phase != .failed) = true :=
    List.any_eq_true.mpr ⟨u, hmine, by simp [hcount, hphase]⟩
  have hput : s.endPut k = none := by
    unfold State.endPut
    dsimp only
    rw [hwaits, Bool.or_true, if_pos rfl]
  unfold State.endCmd
  rw [hop, if_neg (by decide), hstart, Bool.not_true, if_neg Bool.false_ne_true, if_pos (.inl rfl), hput]

/-- A unit with bytes fetched for it. -/
def UnitSt.fetched (u : UnitSt) (data : List Byte) : UnitSt :=
  { u with
    got := u.got + data.length
    data := u.data ++ data
    phase := if u.got + data.length = u.len ∧ u.id.ver ≠ 0 then .ready else .fetch }

theorem fillUnits_one {u : UnitSt} {cmd : Nat} {data : List Byte} (hcmd : u.cmd = some cmd) (hphase : u.phase = .fetch)
    (hre : u.rerepl = false) (hfits : u.got + data.length ≤ u.len) : fillUnits cmd data [u] = [u.fetched data] := by
  have hall : min data.length (u.len - u.got) = data.length := by omega
  unfold fillUnits
  rw [if_pos ⟨hcmd, hphase, hre⟩, hall]
  dsimp only
  rw [List.take_length, fillUnits, UnitSt.fetched]

/-- Write data for the one PUT held, whose only unit is being fetched, joins that unit, and nothing comes due. -/
theorem execRdmaReadResponse_one {s : State} {sid : BitVec 14} {data : List Byte} {k : Cmd} {u : UnitSt} (hk : s.cmd.cmds = [k])
    (hpath : k.path = .session sid) (hop : k.op = opPut) (hstart : k.started = true) (hunits : s.plc.units = [u])
    (hcmd : u.cmd = some k.id) (hphase : u.phase = .fetch) (hre : u.rerepl = false) (hopens : s.plc.opens = [])
    (hsearches : s.plc.searches = []) (htombs : s.plc.tombJobs = []) (hmig : s.plc.mig = none) (hcount : u.counted = false)
    (hfits : u.got + data.length ≤ u.len) :
    execRdmaReadResponse sid k.e.cid data true s = .next (s.modPlc fun p => { p with units := [u.fetched data] }) := by
  have hmine : ((s.cmdsOf (.session sid)).find? fun c => c.e.cid == k.e.cid && c.op == opPut) = some k := by
    simp [State.cmdsOf, hk, hpath, hop]
  have hfill : (s.modPlc fun p => { p with units := fillUnits k.id data p.units }) =
      s.modPlc fun p => { p with units := [u.fetched data] } := by
    rw [State.modPlc, hunits, fillUnits_one hcmd hphase hre hfits, State.modPlc]
  have hgoes : (s.modPlc fun p => { p with units := [u.fetched data] }).endCmd k = none :=
    endCmd_put_none hop hstart (u := u.fetched data) (List.mem_singleton.mpr rfl) hcmd hcount (by
      unfold UnitSt.fetched
      dsimp only
      split <;> decide)
  have hsettle : (s.modPlc fun p => { p with units := [u.fetched data] }).settle =
      s.modPlc fun p => { p with units := [u.fetched data] } :=
    settle_of_held hopens hsearches htombs hmig fun c hc => by
      obtain rfl : c = k := List.mem_singleton.mp (hk ▸ hc)
      exact ⟨hstart, hgoes⟩
  unfold execRdmaReadResponse
  rw [Bool.not_true, if_neg Bool.false_ne_true, hmine]
  dsimp only
  rw [hfill, hsettle]

/-! ### The statement -/

/-- Settles O37: a REQ is granted or rejected (`execCmReq_granted`, `execCmReq_rejected`), a session opens and closes with NET_SESS (`netSess_spec`,
`closeSession_spec`), an entry arrives and stays (`session?_arrive`, `badHeads_listed`), and write data joins its unit
(`execRdmaReadResponse_one`); what is sent beside changes no register and no connection. -/
theorem connectionsOpenCarryEntriesAndClose : Obligations.ConnectionsOpenCarryEntriesAndClose := by
  refine ⟨?granted, ?rejected, ?opened, ?badLength, ?entry, ?full, ?more, ?cancelled, ?closed, fun sid s => ⟨_, rfl, rfl⟩⟩
  case granted =>
    intro r sid s hm hr hfree
    have hsends := State.upToSends.sendTo ((s.noteNeighbour (s.nextHop r.ip) r.mac).modNet fun n =>
      { n with conns := n.conns ++ [s.connGranted r sid], freed := n.freed.filter fun e => e.1 != sid }) r.mac (s.ownPrio 0)
      (.rep sid (min r.depth.toNat 256))
    have hnoted := State.upToSends.noteNeighbour s (s.nextHop r.ip) r.mac
    have hconns := hsends.conns_eq.trans (congrArg (· ++ [s.connGranted r sid]) hnoted.conns_eq)
    refine ⟨_, execCmReq_granted hm hr hfree, ?_, ?_, hsends.regs_eq.trans hnoted.regs_eq⟩
    · rw [hconns, List.getLast?_append_of_ne_nil _ (List.cons_ne_nil _ _), List.getLast?_singleton, Option.map_some]
      have hdepth := Nat.min_eq_left (depth_of_connRefusal_none hr)
      simp only [State.connGranted, hdepth]
    · rw [hconns, List.length_append, List.length_singleton]
  case rejected =>
    intro r code s hm hr
    have hsends := State.upToSends.sendTo (s.addSat NET_CM_CNT_REJ 1) r.mac (s.ownPrio 0) (.rej code)
    refine ⟨_, execCmReq_rejected hm hr, ?_, ?_, fun a ha => ?_⟩
    · rw [hsends.get_eq]
      exact State.get_addSat_here s 1 (by decide) (by decide)
    · rw [hsends.conns_eq, State.addSat_net]
    · rw [hsends.reg_eq]
      exact State.reg_addSat_other s 1 ha
  case opened =>
    intro sid c s hc ho hm hk
    obtain ⟨hopen, hnet, hcmd, -⟩ := netSess_spec (s.sessionOpened sid c)
    refine ⟨_, execCmRtu_data hc ho hm hk, congrArg NetSt.conns hnet, ?_, ?_⟩
    · have hlast : (s.sessionOpened sid c).netSess.cmd.sessions = s.cmd.sessions ++ [_] := congrArg CmdSt.sessions hcmd
      rw [hlast, List.getLast?_append_of_ne_nil _ (List.cons_ne_nil _ _), List.getLast?_singleton, Option.map_some, hk]
    · have hcount : (s.sessionOpened sid c).cmd.sessions.length = s.cmd.sessions.length + 1 := List.length_append
      rw [hopen, hcount]
  case badLength =>
    intro sid len items s hs hlen
    have hsends := State.upToSends.sendSess s sid s.dataPrio (.nak sid false)
    exact ⟨_, execRoceSend_badLength hs hlen, hsends.cmd_eq, hsends.regs_eq⟩
  case entry =>
    intro sid op e x s hx harr hroom hop
    obtain ⟨y, hy, hyarr, hyregs⟩ := session?_arrive (op := op.toNat) (e := e) hx hroom
    rw [harr, List.nil_append] at hyarr
    refine ⟨_, execRoceSend_one hx hy hyarr hop, ?_, hyregs⟩
    rw [hy, Option.map_some, hyarr]
  case full =>
    intro sid data k u v s hk hpath hcid hop hstart hunits hcmd hphase hre hver hopens hsearches htombs hmig hcount hlen
    subst hcid
    refine ⟨_, execRdmaReadResponse_one hk hpath hop hstart hunits hcmd hphase hre
      hopens hsearches htombs hmig hcount hlen.le, ?_, rfl⟩
    rw [State.modPlc, UnitSt.fetched, if_pos ⟨hlen, hver⟩, hlen]
  case more =>
    intro sid data k u v s hk hpath hcid hop hstart hunits hcmd hphase hre hver hopens hsearches htombs hmig hcount hlen
    subst hcid
    refine ⟨_, execRdmaReadResponse_one hk hpath hop hstart hunits hcmd hphase hre
      hopens hsearches htombs hmig hcount hlen.le, ?_, rfl⟩
    rw [State.modPlc, UnitSt.fetched, if_neg fun h => hlen.ne h.1, hphase]
  case cancelled =>
    intro sid c s hc ho
    have hsends := State.upToSends.sendIp (s.connFreed sid s.tick) c.ip (s.ownPrio 0) (.drep sid)
    exact ⟨_, execCmDreq_waiting hc ho, hsends.conns_eq, hsends.freed_eq, hsends.regs_eq⟩
  case closed =>
    intro sid c s hc ho hs
    have hsends := State.upToSends.sendIp (s.closeSession sid true) c.ip (s.ownPrio 0) (.drep sid)
    obtain ⟨hnet, hgone, hopen, -⟩ := closeSession_spec true hs
    refine ⟨_, execCmDreq_open hc ho, ?_, connOf_filtered (by rw [hsends.conns_eq, hnet]), by rw [hsends.freed_eq, hnet], ?_⟩
    · rw [hsends.session?_eq]
      exact hgone
    · rw [hsends.get_eq, hsends.cmd_eq]
      exact hopen

end Sys2Proof.Machine
end

section
/-!
PROOFS of the statements of 09_commands.md, continued: self-tests (O40). What the admission of a command leaves of the
test comes first, then the start of a test, its parts and its end, each as one equation, and the statement.
-/

namespace Sys2Proof.Machine

open Sys2Proof

/-! ### What the admission of a command leaves of the self-test -/

/-- From `s` to `t` no entry was written, the test that runs is the same one, and so is the result shown. -/
structure State.untested (s t : State) : Prop where
  noted : s.noted t
  test : t.cmd.test = s.cmd.test
  shown : t.reg CMD_ST_STAT = s.reg CMD_ST_STAT

namespace State.untested

variable {s t u : State}

theorem refl (s : State) : s.untested s := ⟨State.noted.refl s, rfl, rfl⟩

theorem trans (h : s.untested t) (k : t.untested u) : s.untested u :=
  ⟨h.noted.trans k.noted, k.test.trans h.test, k.shown.trans h.shown⟩

theorem modSess (s : State) (p : Path) {f : Session → Session} (hid : ∀ x, (f x).id = x.id)
    (hm : ∀ x, (f x).mgmt = x.mgmt) (ha : ∀ x, s.sessOf p = some x → (f x).arrivals = x.arrivals) :
    s.untested (s.modSess p f) :=
  ⟨State.noted.modSess s p hid hm ha, by cases p <;> rfl, modSess_reg s p f _⟩

theorem noteHead (s : State) (p : Path) (e : Entry) : s.untested (s.noteHead p e) := by
  unfold State.noteHead
  split
  · exact modSess s p (fun _ => rfl) (fun _ => rfl) fun _ _ => rfl
  · exact refl s

theorem rxMessage (s : State) (p : Path) (b : Bool) : s.untested (s.rxMessage p b) :=
  ⟨State.noted.rxMessage s p b, by rw [State.rxMessage_eq], State.reg_rxMessage s p b (by decide)⟩

theorem newCmd (s : State) (p : Path) (op : Nat) (e : Entry) : s.untested (s.newCmd p op e).2 :=
  ⟨⟨⟨⟨_, _, _, rfl⟩, rfl, rfl, fun _ => rfl, rfl⟩, fun _ _ => rfl, rfl⟩, rfl, rfl⟩

theorem counted (s : State) (n : Nat) (f : MeterAcc → MeterAcc) : s.untested (s.counted n f) :=
  ⟨State.noted.counted s n f, by rw [counted_cmd], counted_reg s n f _⟩

theorem accepted (s : State) : s.untested (s.incWrap CMD_CNT_ACC_COUNT) :=
  ⟨State.noted.incWrap s (.inr rfl), by rw [State.incWrap_cmd],
    by rw [State.incWrap, State.reg_set_apart _ _ (by decide)]⟩

end State.untested

/-- An entry that comes to an idle session stands there alone. -/
theorem arrive_idle {s : State} {p : Path} {x : Session} (op : Nat) (e : Entry) (hx : s.sessOf p = some x)
    (hcmds : s.cmdsOf p = []) (harr : x.arrivals = []) (hdepth : 0 < x.depth) :
    s.arrive p op e = (s.noteHead p e).modSess p (Session.take (op, e)) := by
  have hload : s.sessLoad p = 0 := by simp [State.sessLoad, hcmds, hx, harr]
  simp only [State.arrive, hx, hload, hdepth, true_or, if_true]
  rfl

/-- An entry of an idle session is at once the one to be admitted, and leaves no arrival behind. -/
theorem command_of_idle {s : State} {id : BitVec 14} {op : Nat} {e : Entry} (run : State → Cmd → State)
    (hc : s.clear (.session id)) :
    s.command (.session id) op e run =
      State.badHeads 256 (((s.noteHead (.session id) e).modSess (.session id)
        (Session.leave (op, e) ∘ Session.take (op, e))).outcome (.session id) op e run) (.session id) := by
  obtain ⟨-, hpath, hcmds, hidle⟩ := hc
  obtain ⟨x, hx⟩ : ∃ x, s.sessOf (.session id) = some x := by
    cases hx : s.sessOf (.session id) with
    | none => simp [State.mgmtPath, hx] at hpath
    | some x => exact ⟨x, rfl⟩
  obtain ⟨⟨hfrozen, harr⟩, hdepth⟩ : (x.frozen = false ∧ x.arrivals = []) ∧ 0 < x.depth := by
    simpa [hx] using hidle
  obtain ⟨hhead, i, hsess⟩ := noteHead_spec e hx
  have hnow : (s.arrive (.session id) op e).sessOf (.session id) = some { x with cqHead := i, arrivals := [(op, e)] } := by
    rw [arrive_idle op e hx hcmds harr hdepth, sessOf_modSess (f := Session.take (op, e)) (fun _ => rfl) hsess]
    simp [Session.take, harr]
  have hflush : (s.arrive (.session id) op e).flushWaits (.session id) = false := by
    have hnone : (s.arrive (.session id) op e).cmdsOf (.session id) = [] := by
      rw [arrive_idle op e hx hcmds harr hdepth, ← hcmds, ← hhead.alike.cmdsOf_eq]
      rfl
    simp [State.flushWaits, hnone]
  rw [← modSess_modSess (f := Session.take (op, e)) _ _ (fun _ => rfl), ← arrive_idle op e hx hcmds harr hdepth]
  unfold State.command
  simp only [hx, harr, List.isEmpty_nil, Bool.true_or, if_true, hnow]
  simp [hfrozen, hflush]
  rfl

/-- An entry of a clear path comes to its outcome in a state that differs from the present one in its bookkeeping alone. -/
theorem command_comes {s : State} {p : Path} {op : Nat} {e : Entry} (run : State → Cmd → State) (hc : s.clear p) :
    ∃ u, s.untested u ∧ s.command p op e run = State.badHeads 256 (u.outcome p op e run) p := by
  cases p with
  | service =>
    refine ⟨_, .rxMessage s .service (op == opIdentify || op == opRegRead || op == opGetLog), ?_⟩
    rw [badHeads_of_noArrivals fun _ hx => by cases hx]
    unfold State.command
    dsimp only
    rw [hc.1, if_neg Bool.false_ne_true]
  | session id =>
    suffices h : (s.noteHead (.session id) e).untested ((s.noteHead (.session id) e).modSess (.session id)
        (Session.leave (op, e) ∘ Session.take (op, e))) from
      ⟨_, (State.untested.noteHead s _ e).trans h, command_of_idle run hc⟩
    refine .modSess _ _ (fun _ => rfl) (fun _ => rfl) fun y hy => ?_
    have hy : y.arrivals = [] := by
      have hidle : s.noArrivals (.session id) := fun x hx => by
        have hclear := hc.2.2.2
        simp only [hx, Option.all_some, Bool.and_eq_true, List.isEmpty_iff] at hclear
        exact hclear.1.2
      exact (State.untested.noteHead s _ e).noted.alike.noArrivals hidle y hy
    simp [Session.leave, Session.take, hy]

/-- A management command that nothing refuses, whose opcode queues nothing, runs as it comes to a clear path of a quiet
device. -/
theorem command_runs {s : State} {p : Path} {op : Nat} {e : Entry} (run : State → Cmd → State) (hq : s.quiet)
    (hc : s.clear p) (he : s.entryCode p op e = none) (hm : s.modeCode p op e = none) (hop : opQueues op = false) :
    ∃ u c, s.untested u ∧ c.path = p ∧ c.e = e ∧ s.command p op e run = State.badHeads 256 (run u c).settle p := by
  obtain ⟨t, ht, hcmd⟩ := command_comes (op := op) (e := e) run hc
  have hnew := State.untested.newCmd t p op e
  have hsn := (ht.trans hnew).noted
  have hentry : t.entryCode p op e = none := (ht.noted.alike.entryCode_eq p op e).trans he
  have hout : t.outcome p op e run = (t.newCmd p op e).2.admitCmd (t.newCmd p op e).1 run := by
    simp only [State.outcome, hentry]
  refine ⟨_, (t.newCmd p op e).1, ((ht.trans hnew).trans (.counted _ (t.newCmd p op e).1.tenant id)).trans (.accepted _),
    rfl, rfl, ?_⟩
  rw [hcmd, hout, admitCmd_immediate run ((hsn.alike.mgmtPath_eq p).trans hc.2.1)
    ((modeCode_eq hsn.alike hsn.words p op e).trans hm) (hsn.alike.cmds.trans hq.1.1) hop]

/-! ### Commands that change the self-test and end -/

/-- From `s` to `t` at most registers, the Hedgehog and the self-test have changed. -/
def State.upToTest (s t : State) : Prop :=
  ∃ regs bist test, t = { s with regs := regs, bist := bist, cmd := { s.cmd with test := test } }

/-- With no command held, a command that ends with OK is counted and its entry written. -/
theorem finish_ok {s : State} (c : Cmd) (hc : s.cmd.cmds = []) :
    s.finish c {} = s.cmdCounts.writeEntry (c.entry {} false) := by
  have hcut : ({ s with cmd := { s.cmd with cmds := s.cmd.cmds.filter fun x => x.id != c.id } } : State) = s := by
    rw [hc, List.filter_nil, ← hc]
  unfold State.finish
  rw [hcut]
  rfl

/-- Such an end leaves the Hedgehog, the self-test and the result shown. -/
theorem finish_ok_spec {s : State} (c : Cmd) (hc : s.cmd.cmds = []) :
    (s.finish c {}).cmd.test = s.cmd.test ∧ (s.finish c {}).bist = s.bist ∧ (s.finish c {}).arb = s.arb ∧
      (s.finish c {}).reg CMD_ST_STAT = s.reg CMD_ST_STAT := by
  have htest (u : State) (k : Completion) : (u.writeEntry k).cmd.test = u.cmd.test := by
    unfold State.writeEntry
    split
    · dsimp only
      cases k.path <;> rfl
    · rfl
  obtain ⟨regs, cmd, mtr, hframe⟩ := (finish_spec c {} hc).1.frame
  refine ⟨by rw [finish_ok c hc, htest]; rfl, by rw [hframe], by rw [hframe], ?_⟩
  rw [finish_ok c hc, (writeEntry_spec _ _).2.1, State.cmdCounts, State.reg_set_apart _ _ (by decide),
    State.reg_set_apart _ _ (by decide)]

/-- A command whose run changes the self-test and ends with OK has its reply, and leaves what its run made of the test. -/
theorem command_tests {s : State} {p : Path} {op : Nat} {e : Entry} (run : State → Cmd → State) (hq : s.quiet)
    (hc : s.clear p) (he : s.entryCode p op e = none) (hm : s.modeCode p op e = none) (hop : opQueues op = false) :
    ∃ u c, s.untested u ∧ c.e = e ∧ ∀ v, u.upToTest v → run u c = v.finish c {} →
      replied s (s.command p op e run) p e stOk ∧ (s.command p op e run).cmd.test = v.cmd.test ∧
        (s.command p op e run).bist = v.bist ∧ (s.command p op e run).arb = v.arb ∧
        (s.command p op e run).reg CMD_ST_STAT = v.reg CMD_ST_STAT := by
  obtain ⟨u, c, hu, hpath, hent, hcmd⟩ := command_runs run hq hc he hm hop
  refine ⟨u, c, hu, hent, fun v hv hrun => ?_⟩
  have huq : u.quiet := hu.noted.alike.quiet hq
  have hidle : s.noArrivals p := fun x hx => by
    have hclear := hc.2.2.2
    simp only [hx, Option.all_some, Bool.and_eq_true, List.isEmpty_iff] at hclear
    exact hclear.1.2
  have hui : u.noArrivals p := hu.noted.alike.noArrivals hidle
  obtain ⟨hvq, hvi, hdone⟩ : v.quiet ∧ v.noArrivals p ∧ v.cmd.done = s.cmd.done := by
    obtain ⟨_, _, _, rfl⟩ := hv
    exact ⟨huq, hui, hu.noted.done⟩
  have hend := (finish_spec c {} hvq.1.1).1
  rw [hcmd, hrun, settle_of_quiet (hend.quiet hvq), badHeads_of_noArrivals (hend.noArrivals hvi), ← hpath, ← hent]
  exact ⟨(replied_finish hdone hvq.1.1).1, finish_ok_spec c hvq.1.1⟩

/-! ### What the start of a test reads -/

/-- A word of the host's registers, or the one that shows the Hedgehog. -/
abbrev testWord (a : Nat) : Prop := hostWord a ∨ a = BIST_STAT

section
variable {s t : State}

theorem get_of_testWords (hw : sameRegs testWord s t) {f : Fld} (hf : ¬ testWord f.addr) : t.get f = s.get f :=
  State.get_of_reg (hw _ hf)

theorem flag_of_testWords (hw : sameRegs testWord s t) {f : Fld} (hf : ¬ testWord f.addr) : t.flag f = s.flag f := by
  rw [State.flag, get_of_testWords hw hf, State.flag]

theorem hedgehogOn_eq (hw : sameRegs testWord s t) (hsys : t.sys = s.sys) : t.hedgehogOn = s.hedgehogOn := by
  have hmode : t.mode = s.mode := get_of_testWords hw (by decide)
  rw [State.hedgehogOn, flag_of_testWords hw (by decide), hsys, hmode, State.hedgehogOn]

theorem inService_eq (hw : sameRegs testWord s t) (hcal : t.cal = s.cal) (st : Nat) (hst : st < 2) :
    t.inService st = s.inService st := by
  have hmode : t.mode = s.mode := get_of_testWords hw (by decide)
  have hctl : t.flag (SPN_CTL_ENABLE st) = s.flag (SPN_CTL_ENABLE st) :=
    flag_of_testWords hw (by simp only [testWord, hostWord, inBlock, SPN_CTL, BIST_STAT]; omega)
  have hstate : t.spnState st = s.spnState st :=
    get_of_testWords hw (by simp only [testWord, hostWord, inBlock, SPN_STAT, BIST_STAT]; omega)
  have hhold : t.stnHold st = s.stnHold st := by
    rw [State.stnHold, get_of_testWords hw (by simp only [testWord, hostWord, inBlock, FLT_STN, BIST_STAT]; omega),
      State.stnHold]
  rw [State.inService, hctl, hstate, hhold, hcal, hmode, State.inService]

theorem slotFull_eq (hw : sameRegs testWord s t) (k : Nat) : t.slotFull k = s.slotFull k := by
  rw [State.slotFull, get_of_testWords hw (by decide), State.slotFull]

end

/-! ### The start of a test (R418) -/

/-- No station is in service, and for the extended test no slot holds a disc: a test finds nothing to read. -/
structure State.discless (s : State) (kind : Nat) : Prop where
  first : s.inService 0 = false
  second : s.inService 1 = false
  slots : kind = stExtended → ∀ k < 24, s.slotFull k = false

theorem State.discless.of_testWords {s t : State} {kind : Nat} (h : s.discless kind) (hw : sameRegs testWord s t)
    (hcal : t.cal = s.cal) : t.discless kind where
  first := (inService_eq hw hcal 0 (by decide)).trans h.first
  second := (inService_eq hw hcal 1 (by decide)).trans h.second
  slots hk k hlt := (slotFull_eq hw k).trans (h.slots hk k hlt)

/-- A test makes no job where there is nothing to read. -/
theorem testJobs_none {s : State} {kind : Nat} (h : s.discless kind) : s.testJobs kind = s := by
  have hslots (hk : kind = stExtended) : ((List.range 24).filter fun k => s.slotFull k && (s.stationOf k).isNone) = [] :=
    List.filter_eq_nil_iff.mpr fun k hlt => by simp [h.slots hk k (List.mem_range.mp hlt)]
  unfold State.testJobs
  simp only [List.foldl_cons, List.foldl_nil, h.first, h.second, Bool.false_and, Bool.false_eq_true, if_false]
  split
  next hk => rw [hslots hk, List.foldl_nil]
  next => rfl

/-- What follows the Hedgehog cycle where there is nothing to read: the extended test moves every axis. -/
def axisParts (kind : Nat) : List TestPart :=
  if kind = stExtended then (List.range 7).flatMap fun a => (List.range 3).map fun k => TestPart.axis a k else []

theorem testParts_discless {s : State} {kind : Nat} (h : s.discless kind) (hrun : s.bist.running = true)
    (hjobs : (s.arb.jobs.all fun j => j.kind != .selftest) = true) : s.testParts kind = .cycle :: axisParts kind := by
  have hmine : (s.arb.jobs.filter fun j => j.kind == .selftest) = [] :=
    List.filter_eq_nil_iff.mpr fun j hj => by simpa using List.all_eq_true.mp hjobs j hj
  have hspins : ((List.range 2).filter fun st => s.inService st) = [] := by
    rw [show List.range 2 = [0, 1] from rfl]
    simp [h.first, h.second]
  unfold State.testParts axisParts
  simp [hmine, hspins, hrun]

/-- A test begun: its old result gone, a fast Hedgehog cycle started, the cycle its first part. -/
def State.testBegun (s : State) (kind : Nat) : State :=
  let t := (s.setReg CMD_ST_STAT 0).cycleStart true
  { t with cmd := { t.cmd with test := some { kind := kind, left := .cycle :: axisParts kind } } }

/-- A cycle that starts: the Hedgehog's state, and nothing else but registers. -/
theorem cycleStart_frame (s : State) (fast : Bool) :
    ∃ regs, s.cycleStart fast = { s with
      regs := regs
      bist := { s.bist with running := true, fast := fast, rest := allUnits, skipped := [], start := some s.tick } } := by
  unfold State.cycleStart State.bistShow
  rw [State.set_eq _ BIST_STAT_STATE, State.set_eq _ BIST_STAT_PROGRESS]
  exact ⟨_, rfl⟩

theorem State.upToTest.testBegun (s : State) (kind : Nat) : s.upToTest (s.testBegun kind) := by
  obtain ⟨regs, hframe⟩ := cycleStart_frame (s.setReg CMD_ST_STAT 0) true
  unfold State.testBegun
  rw [hframe]
  exact ⟨_, _, _, rfl⟩

/-- A cycle that starts writes BIST_STAT alone. -/
theorem reg_cycleStart (s : State) (fast : Bool) {a : Nat} (ha : a ≠ BIST_STAT) :
    (s.cycleStart fast).reg a = s.reg a := by
  rw [State.cycleStart, State.bistShow, State.reg_set_apart _ _ ha, State.reg_set_apart _ _ ha, State.modBist_reg]

theorem reg_withCmd (s : State) (c : CmdSt) (a : Nat) : ({ s with cmd := c } : State).reg a = s.reg a := rfl

theorem State.testBegun_spec (s : State) (kind : Nat) :
    (s.testBegun kind).cmd.test = some { kind := kind, left := .cycle :: axisParts kind } ∧
      (s.testBegun kind).reg CMD_ST_STAT = 0 ∧ (s.testBegun kind).bist.running = true ∧
      (s.testBegun kind).bist.fast = true ∧ (s.testBegun kind).bist.rest = List.range 117 ∧
      (s.testBegun kind).arb = s.arb := by
  obtain ⟨regs, hcycle⟩ := cycleStart_frame (s.setReg CMD_ST_STAT 0) true
  have hshown : (s.testBegun kind).reg CMD_ST_STAT = 0 := by
    rw [State.testBegun, reg_withCmd, reg_cycleStart _ true (by decide), State.reg_setReg_same]
  refine ⟨?_, hshown, ?_, ?_, ?_, ?_⟩
  · rw [State.testBegun]
  · rw [State.testBegun, hcycle]
  · rw [State.testBegun, hcycle]
  · rw [State.testBegun, hcycle, allUnits]
  · rw [State.testBegun, hcycle, State.setReg_arb]

/-- A cycle under way and a disc to be read begin with nothing more. -/
theorem partBegin_cycle (s : State) : s.partBegin .cycle = s := rfl

theorem partBegin_read (s : State) (st : Nat) (slot : Option Nat) (side layer : Nat) :
    s.partBegin (.read st slot side layer) = s := rfl

/-- A test starts with a Hedgehog cycle and makes no job where there is nothing to read. -/
theorem testStart_eq {s : State} {kind : Nat} (hon : s.hedgehogOn = true) (h : s.discless kind)
    (hjobs : (s.arb.jobs.all fun j => j.kind != .selftest) = true) : s.testStart kind = s.testBegun kind := by
  have hshown : sameRegs testWord s (s.setReg CMD_ST_STAT 0) := sameRegs.setReg s 0 (.inl (.inr (by decide)))
  have hwords : sameRegs testWord s ((s.setReg CMD_ST_STAT 0).cycleStart true) := fun a ha =>
    (reg_cycleStart _ true fun e => ha (.inr e)).trans (hshown a ha)
  obtain ⟨regs, hframe⟩ := cycleStart_frame (s.setReg CMD_ST_STAT 0) true
  have hnothing := h.of_testWords hwords (by rw [hframe, State.setReg_cal])
  have hparts := testParts_discless hnothing (by rw [hframe]) (by rw [hframe, State.setReg_arb]; exact hjobs)
  unfold State.testStart State.testBegun
  dsimp only
  rw [(hedgehogOn_eq hshown (State.setReg_sys s _ _)).trans hon, if_pos rfl, testJobs_none hnothing, hparts]
  dsimp only
  rw [partBegin_cycle]

/-- A SELF_TEST command of a kind, with no test running, starts the test and ends. -/
theorem runSelfTest_starts {s : State} {c : Cmd} (hkind : c.e.arg0.toNat ≠ stAbort) (hnone : s.cmd.test = none) :
    s.runSelfTest c = (s.testStart c.e.arg0.toNat).finish c {} := by
  rw [State.runSelfTest, if_neg hkind, hnone]

/-- A self-test command that starts a test where there is nothing to read leaves the test begun. -/
theorem selfTest_starts {s : State} {p : Path} {e : Entry} {kind : Nat} (hq : s.quiet) (hc : s.clear p)
    (hkind : e.arg0.toNat = kind) (hne : kind ≠ stAbort) (he : s.entryCode p opSelfTest e = none)
    (hm : s.modeCode p opSelfTest e = none) (hnone : s.cmd.test = none) (hon : s.hedgehogOn = true) (h : s.discless kind)
    (hjobs : (s.arb.jobs.all fun j => j.kind != .selftest) = true) :
    ∃ t, s.command p opSelfTest e State.runSelfTest = t ∧ replied s t p e stOk ∧
      t.cmd.test = some { kind := kind, left := .cycle :: axisParts kind } ∧ t.reg CMD_ST_STAT = 0 ∧
      t.bist.running = true ∧ t.bist.fast = true ∧ t.bist.rest = List.range 117 ∧ t.arb = s.arb := by
  obtain ⟨u, c, hu, hent, hends⟩ := command_tests State.runSelfTest hq hc he hm rfl
  obtain ⟨regs, cmd, mtr, hframe⟩ := hu.noted.alike.frame
  have harb : u.arb = s.arb := by rw [hframe]
  have hsys : u.sys = s.sys := by rw [hframe]
  have hcal : u.cal = s.cal := by rw [hframe]
  have hwords : sameRegs testWord s u := fun a ha => hu.noted.words a fun hh => ha (.inl hh)
  have hrun : State.runSelfTest u c = (u.testBegun kind).finish c {} := by
    have harg : c.e.arg0.toNat = kind := by rw [hent, hkind]
    rw [runSelfTest_starts (by rw [harg]; exact hne) (hu.test.trans hnone), harg,
      testStart_eq ((hedgehogOn_eq hwords hsys).trans hon) (h.of_testWords hwords hcal) (by rw [harb]; exact hjobs)]
  obtain ⟨hreply, htest, hbist, harbs, hshown⟩ := hends _ (.testBegun u kind) hrun
  obtain ⟨btest, bshown, brun, bfast, brest, barb⟩ := State.testBegun_spec u kind
  exact ⟨_, rfl, hreply, htest.trans btest, hshown.trans bshown, (congrArg _ hbist).trans brun,
    (congrArg _ hbist).trans bfast, (congrArg _ hbist).trans brest, harbs.trans (barb.trans harb)⟩

/-! ### Parts and the end of a test (R419) -/

/-- No job waits and none holds a station. -/
structure State.jobless (s : State) : Prop where
  jobs : s.arb.jobs = []
  first : (s.arbOf 0).job = none
  second : (s.arbOf 1).job = none

theorem State.jobless.of_arb {s t : State} (h : s.jobless) (harb : t.arb = s.arb) : t.jobless where
  jobs := by rw [harb, h.jobs]
  first := by rw [State.arbOf, harb]; exact h.first
  second := by rw [State.arbOf, harb]; exact h.second

/-- A record of the log leaves the arbiter. -/
theorem logPut_arb (s : State) (r : LogRec) : (s.logPut r).arb = s.arb := by
  unfold State.logPut
  dsimp only
  rw [State.set_arb, State.incWrap_arb]

section
variable {s : State}

theorem dropJobs_of_nil (f : Job → Bool) (h : s.arb.jobs = []) : s.dropJobs f = s := by
  rw [State.dropJobs, h, List.filter_nil, ← h]

theorem testYield_jobless (h : s.jobless) : s.testYield = s := by
  rw [State.testYield, List.foldl_cons, h.first, List.foldl_cons, h.second, List.foldl_nil]

theorem testClear_jobless (h : s.jobless) : s.testClear = s := by
  have h0 : ((s.arbOf 0).job.any fun j => j.kind == .selftest) = false := by rw [h.first]; rfl
  have h1 : ((s.arbOf 1).job.any fun j => j.kind == .selftest) = false := by rw [h.second]; rfl
  rw [State.testClear, dropJobs_of_nil _ h.jobs]
  simp only [List.foldl_cons, List.foldl_nil, h0, h1, Bool.false_eq_true, if_false]

/-- A part that is no spindle's ends without a trace where no job works for the test. -/
theorem partDone_jobless (h : s.jobless) {p : TestPart} (hp : ∀ st, p ≠ .spin st) (rest : List TestPart) :
    s.partDone p rest = s := by
  have h0 (f : Job → Bool) : ((s.arbOf 0).job.any f) = false := by rw [h.first]; rfl
  have h1 (f : Job → Bool) : ((s.arbOf 1).job.any f) = false := by rw [h.second]; rfl
  unfold State.partDone
  simp only [dropJobs_of_nil _ h.jobs, List.foldl_cons, List.foldl_nil, h0, h1, Bool.false_eq_true, if_false]

end

/-- The result of a test shown: READY, with its kind, its outcome and its first failure. -/
def State.testShown (s : State) (t : SelfTest) (outcome : Nat) : State :=
  (((s.set CMD_ST_STAT_RES 1).set CMD_ST_STAT_KIND t.kind).set CMD_ST_STAT_OUTCOME outcome).set
    CMD_ST_STAT_FAIL_SRC (t.fail.getD 0)

/-- A result shown is one word of the registers. -/
theorem State.testShown_frame (s : State) (t : SelfTest) (outcome : Nat) :
    s.testShown t outcome = { s with regs := (s.testShown t outcome).regs } := by
  unfold State.testShown
  rw [State.set_eq _ CMD_ST_STAT_FAIL_SRC, State.set_eq _ CMD_ST_STAT_OUTCOME, State.set_eq _ CMD_ST_STAT_KIND,
    State.set_eq _ CMD_ST_STAT_RES]

theorem State.testShown_spec (s : State) (t : SelfTest) {outcome : Nat} (ho : outcome < 4) :
    (s.testShown t outcome).get CMD_ST_STAT_RES = 1 ∧ (s.testShown t outcome).get CMD_ST_STAT_OUTCOME = outcome ∧
      (s.testShown t outcome).get CMD_ST_STAT_KIND = t.kind % 4 ∧
      (s.testShown t outcome).get CMD_ST_STAT_FAIL_SRC = t.fail.getD 0 % 1024 ∧
      (s.testShown t outcome).get CMD_ST_STAT_PROGRESS = s.get CMD_ST_STAT_PROGRESS ∧
      ∀ a, a ≠ CMD_ST_STAT → (s.testShown t outcome).reg a = s.reg a := by
  unfold State.testShown
  refine ⟨?_, ?_, ?_, ?_, ?_, fun a ha => ?_⟩
  · simp -implicitDefEqProofs (disch := decide) only [State.get_set_apart, State.get_set_here]
    rfl
  · simp -implicitDefEqProofs (disch := decide) only [State.get_set_apart, State.get_set_here]
    exact Nat.mod_eq_of_lt ho
  · simp -implicitDefEqProofs (disch := decide) only [State.get_set_apart, State.get_set_here]
    rfl
  · simp -implicitDefEqProofs (disch := decide) only [State.get_set_here]
    rfl
  · simp -implicitDefEqProofs (disch := decide) only [State.get_set_apart]
  · rw [State.reg_set_apart _ _ ha, State.reg_set_apart _ _ ha, State.reg_set_apart _ _ ha, State.reg_set_apart _ _ ha]

theorem State.testShown_cmd (s : State) (t : SelfTest) (outcome : Nat) : (s.testShown t outcome).cmd = s.cmd := by
  rw [State.testShown_frame]

theorem State.testShown_arb (s : State) (t : SelfTest) (outcome : Nat) : (s.testShown t outcome).arb = s.arb := by
  rw [State.testShown_frame]

/-- No test runs any more. -/
def State.testGone (s : State) : State := { s with cmd := { s.cmd with test := none } }

theorem State.upToTest.testShown (s : State) (t : SelfTest) (outcome : Nat) :
    s.upToTest (s.testGone.testShown t outcome) := by
  rw [State.testShown_frame]
  exact ⟨_, _, _, rfl⟩

theorem State.testGone_log (s : State) : s.testGone.cmd.log = s.cmd.log := rfl

theorem State.jobless.testGone {s : State} (h : s.jobless) : s.testGone.jobless := ⟨h.jobs, h.first, h.second⟩

/-- An aborted test shows how far it has come. -/
theorem testEnd_aborted {s : State} (h : s.jobless) (t : SelfTest) : s.testEnd t 2 = s.testGone.testShown t 2 := by
  unfold State.testEnd
  rw [show ({ s with cmd := { s.cmd with test := none } } : State) = s.testGone from rfl, testClear_jobless h.testGone]
  rfl

/-- A test that comes to its end has made its whole way. -/
theorem testEnd_done {s : State} (h : s.jobless) (t : SelfTest) {outcome : Nat} (ho : outcome ≠ 2) :
    s.testEnd t outcome = (s.testGone.set CMD_ST_STAT_PROGRESS 100).testShown t outcome := by
  unfold State.testEnd
  dsimp only
  rw [show ({ s with cmd := { s.cmd with test := none } } : State) = s.testGone from rfl, testClear_jobless h.testGone,
    if_neg ho]
  rfl

theorem exec_selfTestStep {s : State} {t : SelfTest} {ok finished : Bool} {src : BitVec 10} {bad : List UnitRef}
    (htest : s.cmd.test = some t) :
    exec (.selfTestStep ok src finished bad) s = .next (s.testStep t ok src.toNat finished bad) := by
  rw [show exec (.selfTestStep ok src finished bad) s = execSelfTestStep ok src finished bad s from rfl, execSelfTestStep,
    htest]

/-- The last part of a test ends, and the test with it. -/
theorem testStep_last {s : State} {t : SelfTest} {p : TestPart} {ok : Bool} {src : Nat} {bad : List UnitRef} (h : s.jobless)
    (hleft : t.left = [p]) (hready : s.partReady p = true) (hspin : ∀ st, p ≠ .spin st)
    (hread : ∀ st slot side layer, p ≠ .read st slot side layer) :
    s.testStep t ok src true bad =
      (if ok then s else s.logPut { seq := 0, type := logSelfTest, arg := src }).testEnd
        { t with fail := if ok then t.fail else some (t.fail.getD src), left := [] }
        (if (if ok then t.fail else some (t.fail.getD src)).isSome then 1 else 0) := by
  have hbad (u : State) : u.testBad p bad = u := by
    cases p with
    | read st slot side layer => exact absurd rfl (hread st slot side layer)
    | cycle => rfl
    | axis a k => rfl
    | spin st => rfl
  have hstill : (if ok then s else s.logPut { seq := 0, type := logSelfTest, arg := src }).jobless := by
    cases ok
    · exact h.of_arb (logPut_arb s _)
    · exact h
  unfold State.testStep
  rw [hleft]
  dsimp only
  rw [hready, Bool.not_true, if_neg Bool.false_ne_true, if_neg Bool.false_ne_true, if_pos rfl, hbad,
    partDone_jobless hstill hspin]

/-- The record of a failed part is the newest of the log. -/
theorem logPut_last (s : State) (r : LogRec) :
    ((s.logPut r).cmd.log.getLast?.map fun x => (x.type, x.arg)) = some (r.type, r.arg) := by
  unfold State.logPut
  dsimp only
  rw [State.set_cmd, State.incWrap_cmd, List.getLast?_drop, List.length_append, List.length_singleton, if_neg (by omega),
    List.getLast?_concat, Option.map_some]

/-- A part still under way is stepped again later. -/
theorem testStep_waits {s : State} {t : SelfTest} {p : TestPart} {rest : List TestPart} {ok finished : Bool}
    {src : Nat} {bad : List UnitRef} (h : s.jobless) (hleft : t.left = p :: rest) (hready : s.partReady p = false) :
    s.testStep t ok src finished bad = s := by
  unfold State.testStep
  rw [hleft]
  dsimp only
  rw [hready, Bool.not_false, if_pos rfl, testYield_jobless h]

/-- The test that runs, at a part. -/
def State.testAt (s : State) (t : SelfTest) : State := { s with cmd := { s.cmd with test := some t } }

/-- The cycle ends without fault before the reading of a disc: that part is the next under way. -/
theorem testStep_cycleDone {s : State} {t : SelfTest} {src st side layer : Nat} {slot : Option Nat} (h : s.jobless)
    (hleft : t.left = [.cycle, .read st slot side layer]) (hrun : s.bist.running = false) :
    (s.testStep t true src true []).cmd.test = some { t with left := [.read st slot side layer] } ∧
      (s.testStep t true src true []).bist = s.bist := by
  have hready : s.partReady .cycle = true := by rw [State.partReady, hrun, Bool.not_false]
  have hstep : s.testStep t true src true [] =
      (((s.testAt { t with left := [.read st slot side layer] }).draw.2.set CMD_ST_STAT_PROGRESS
        (s.draw.1.toNat % 101)).testYield).partBegin (.read st slot side layer) := by
    unfold State.testStep
    rw [hleft]
    dsimp only
    rw [hready, Bool.not_true, if_neg Bool.false_ne_true, if_neg Bool.false_ne_true, if_pos rfl,
      show s.testBad .cycle [] = s from rfl, partDone_jobless (p := .cycle) h (fun _ => nofun)]
    rfl
  have hyield (w : Nat) := testYield_jobless (s := (s.testAt { t with left := [.read st slot side layer] }).draw.2.set
    CMD_ST_STAT_PROGRESS w) (h.of_arb (State.set_arb ..))
  rw [hstep, hyield, partBegin_read, State.set_cmd, State.set_bist]
  exact ⟨rfl, rfl⟩

/-! ### The statement -/

/-- Settles O40: a test starts with its cycle (`selfTest_starts`), its steps end a part or the test (`testStep_last`,
`testStep_waits`, `testStep_cycleDone`), an abort ends it at once, and its acknowledgement is a register write. -/
theorem selfTestsRunAndReport : Obligations.SelfTestsRunAndReport := by
  refine ⟨?short, ?extended, ?abort, ?passes, ?fails, ?waits, ?next, ?ack⟩
  case short =>
    intro p e s hq hc he hm hnone hon h0 h1 hjobs
    obtain ⟨t, ht, hreply, htest, hshown, hrun, hfast, hrest, harb⟩ :=
      selfTest_starts (kind := stShort) hq hc rfl (by decide) he hm hnone hon ⟨h0, h1, nofun⟩ hjobs
    exact ⟨t, congrArg _ ht, hreply, htest, hshown, hrun, hfast, hrest, harb⟩
  case extended =>
    intro p e s hq hc he hm hnone hon h0 h1 hslots hjobs
    obtain ⟨t, ht, hreply, htest, hshown, hrun, hfast, -, harb⟩ :=
      selfTest_starts (kind := stExtended) hq hc rfl (by decide) he hm hnone hon ⟨h0, h1, fun _ => hslots⟩ hjobs
    exact ⟨t, congrArg _ ht, hreply, by rw [htest]; rfl, hshown, hrun, hfast, harb⟩
  case abort =>
    intro p e x s hq hc he hm htest hfail hkind hjobs h0 h1
    obtain ⟨u, c, hu, hent, hends⟩ := command_tests State.runSelfTest hq hc he hm rfl
    obtain ⟨regs, cmd, mtr, hframe⟩ := hu.noted.alike.frame
    have hless : u.jobless := by rw [hframe]; exact ⟨hjobs, h0, h1⟩
    have hrun : State.runSelfTest u c = (u.testGone.testShown x 2).finish c {} := by
      rw [State.runSelfTest, if_pos (by rw [hent]; rfl), State.testAbort, hu.test, htest, ← testEnd_aborted hless]
    obtain ⟨hreply, hgone, -, -, hshown⟩ := hends _ (.testShown u x 2) hrun
    obtain ⟨hres, hout, hkinds, -, hprog, -⟩ := State.testShown_spec u.testGone x (outcome := 2) (by decide)
    refine ⟨_, rfl, hreply, hgone, ?_, ?_, ?_, ?_⟩
    · exact (State.get_of_reg hshown).trans hres
    · exact (State.get_of_reg hshown).trans hout
    · exact (State.get_of_reg hshown).trans (hkinds.trans (Nat.mod_eq_of_lt hkind))
    · exact ((State.get_of_reg hshown).trans hprog).trans (State.get_of_reg hu.shown)
  case passes =>
    intro src dmg n x s htest hfail hkind hleft hmoves hjobs h0 h1
    have hless : s.jobless := ⟨hjobs, h0, h1⟩
    have hready : s.partReady (.axis n 2) = true := by rw [State.partReady, hmoves, Bool.not_false]
    have hstep := testStep_last (ok := true) (src := src.toNat) (bad := dmg) hless hleft hready
      (fun _ => nofun) fun _ _ _ _ => nofun
    rw [if_pos rfl, if_pos rfl, hfail, Option.isSome_none, if_neg Bool.false_ne_true,
      testEnd_done hless _ (by decide)] at hstep
    obtain ⟨hres, hout, hkinds, -, hprog, hregs⟩ := State.testShown_spec (s.testGone.set CMD_ST_STAT_PROGRESS 100)
      { x with fail := none, left := [] } (outcome := 0) (by decide)
    refine ⟨_, (exec_selfTestStep htest).trans (congrArg _ hstep),
      by rw [State.testShown_cmd, State.set_cmd, State.testGone], hres, hout, ?_, ?_, fun a ha => ?_,
      by rw [State.testShown_cmd, State.set_cmd, State.testGone]⟩
    · rw [hprog, State.get_set_here _ _ (by decide) (by decide)]
      rfl
    · rw [hkinds]
      exact Nat.mod_eq_of_lt hkind
    · rw [hregs a ha, State.reg_set_apart _ _ ha]
      rfl
  case fails =>
    intro src dmg x s htest hfail hleft hrun hjobs h0 h1
    have hless : s.jobless := ⟨hjobs, h0, h1⟩
    have hready : s.partReady .cycle = true := by rw [State.partReady, hrun, Bool.not_false]
    have hstep := testStep_last (ok := false) (src := src.toNat) (bad := dmg) hless hleft hready
      (fun _ => nofun) fun _ _ _ _ => nofun
    rw [if_neg Bool.false_ne_true, if_neg Bool.false_ne_true, hfail, Option.getD_none, Option.isSome_some, if_pos rfl,
      testEnd_done (hless.of_arb (logPut_arb s _)) _ (by decide)] at hstep
    obtain ⟨hres, hout, -, hsrc, -, -⟩ := State.testShown_spec
      ((s.logPut { seq := 0, type := logSelfTest, arg := src.toNat }).testGone.set CMD_ST_STAT_PROGRESS 100)
      { x with fail := some src.toNat, left := [] } (outcome := 1) (by decide)
    refine ⟨_, (exec_selfTestStep htest).trans (congrArg _ hstep),
      by rw [State.testShown_cmd, State.set_cmd, State.testGone], hres, hout, hsrc.trans (Nat.mod_eq_of_lt src.isLt), ?_⟩
    rw [State.testShown_cmd, State.set_cmd, State.testGone_log, logPut_last]
  case waits =>
    intro ok src finished dmg x rest s htest hleft hrun hjobs h0 h1
    have hready : s.partReady .cycle = false := by rw [State.partReady, hrun, Bool.not_true]
    refine ⟨_, exec_selfTestStep htest, ?_⟩
    exact testStep_waits ⟨hjobs, h0, h1⟩ hleft hready
  case next =>
    intro src st slot side layer x s htest hleft hrun hjobs h0 h1
    refine ⟨_, exec_selfTestStep htest, ?_⟩
    exact testStep_cycleDone ⟨hjobs, h0, h1⟩ hleft hrun
  case ack =>
    intro p s hopen hnone
    have hmsg : (s.rxMessage p false).cmd = s.cmd := by rw [State.rxMessage_eq]
    have hack : (s.rxMessage p false).testAck = (s.rxMessage p false).setReg CMD_ST_STAT 0 := by
      rw [State.testAck, hmsg, hnone]
      rfl
    refine ⟨_, congrArg Host.Outcome.next (writeBy_opens _ hopen rfl), rfl, ?_, fun a ha hsvc => ?_, ?_⟩
    · rw [State.status_reg, hack, State.reg_setReg_same]
    · rw [State.status_reg, hack, State.reg_setReg_other _ _ ha, State.reg_rxMessage s p false hsvc]
    · rw [State.status_cmd, hack, State.setReg_cmd, hmsg]

end Sys2Proof.Machine
end

section
/-!
PROOFS of the statements of 09_commands.md, continued: grants and the commands they serve (O44). What comes due among the commands
and the end of the last one held come first, then one lemma per operation of the arbiter: which grant it changes and what it
leaves. Each clause of the statement is then one event.
-/

namespace Sys2Proof.Machine

open Sys2Proof

/-! ### What comes due among the commands -/

theorem settleFor_of_none {s : State} (h : s.settleOne = none) (n : Nat) : State.settleFor n s = s := by
  cases n <;> simp only [State.settleFor, h]

/-- With no tombstone and no migration under way only the commands come due. -/
theorem settle_eq {s : State} (htombs : s.plc.tombJobs = []) (hmig : s.plc.mig = none) :
    s.settle = State.settleFor (2 * s.cmd.cmds.length + s.plc.units.length + 2 * s.plc.searches.length + 256) s := by
  have htomb : s.tombsDone = s := by
    simp only [State.tombsDone, htombs, State.modPlc, List.filter_nil, List.foldl_nil]
    rw [← htombs]
  rw [State.settle, htomb, State.migNext, hmig]

/-- The one command held ends, and nothing comes due after it. -/
theorem settle_ends {s t : State} {c : Cmd} (hopens : s.plc.opens = []) (hsearches : s.plc.searches = [])
    (htombs : s.plc.tombJobs = []) (hmig : s.plc.mig = none) (hcmds : s.cmd.cmds = [c]) (hend : s.endCmd c = some t)
    (ht : t.still) : s.settle = t := by
  obtain ⟨tcmds, topens, tsearches, -, -⟩ := ht
  have hone : s.settleOne = some t := by simp [State.settleOne, hopens, hsearches, hcmds, hend]
  have hnone : t.settleOne = none := by simp [State.settleOne, topens, tsearches, tcmds]
  obtain ⟨n, hn⟩ : ∃ n, 2 * s.cmd.cmds.length + s.plc.units.length + 2 * s.plc.searches.length + 256 = n + 1 := ⟨_, rfl⟩
  rw [settle_eq htombs hmig, hn]
  simp only [State.settleFor, hone, settleFor_of_none hnone]

/-- Nothing comes due where no unit is complete and every command goes on. -/
theorem settle_of_fetching {s : State} (hunits : ∀ u ∈ s.plc.units, u.phase = .fetch) (hsearches : s.plc.searches = [])
    (htombs : s.plc.tombJobs = []) (hmig : s.plc.mig = none)
    (hcmds : ∀ c ∈ s.cmd.cmds, c.started = true ∧ s.endCmd c = none) : s.settle = s := by
  have hcount : (s.plc.opens.findSome? fun v =>
      (s.plc.units.find? fun u => u.id.tenant == v.tenant && u.id.key == v.key && u.id.ver == v.ver && u.phase == .complete &&
        !u.counted && (u.id.unit == v.counted || u.sealing)).map fun u => s.countUnit v u) = none :=
    List.findSome?_eq_none_iff.mpr fun v _ => by
      rw [List.find?_eq_none.mpr fun u hu => by simp [hunits u hu], Option.map_none]
  have hends : (s.cmd.cmds.findSome? fun c => s.endCmd c) = none := List.findSome?_eq_none_iff.mpr fun c hc => (hcmds c hc).2
  have hstarts : (s.cmd.cmds.find? fun c => !c.started && !c.deferred && c.op != opFlush && s.mayStart c) = none :=
    List.find?_eq_none.mpr fun c hc => by simp [(hcmds c hc).1]
  have hone : s.settleOne = none := by simp only [State.settleOne, hcount, hsearches, hends, hstarts]; rfl
  rw [settle_eq htombs hmig, settleFor_of_none hone]

/-! ### The end of the last command held -/

/-- The state that holds no command. -/
def State.unheld (s : State) : State := { s with cmd := { s.cmd with cmds := [] } }

/-- The end of the one command held is its end where none is held. -/
theorem finish_unheld {s : State} {k c : Cmd} (r : Reply) (hcmds : s.cmd.cmds = [k]) (hid : k.id = c.id) :
    s.finish c r = s.unheld.finish c r := by
  have hcut : (s.cmd.cmds.filter fun x => x.id != c.id) = [] := by simp [hcmds, hid]
  unfold State.finish
  rw [hcut]
  rfl

/-- The one command held ends with its reply; beside the host's words and the commands nothing that a grant reads changes. -/
theorem finish_last {s v : State} {k c : Cmd} (r : Reply) (hcmds : v.cmd.cmds = [k]) (hid : k.id = c.id)
    (hdone : v.cmd.done = s.cmd.done) :
    (replied s (v.finish c r) c.path c.e r.status ∧
      ((v.finish c r).lastEntry.map fun x => x.res0) = some (r.res0 % 2 ^ 64)) ∧
      sameRegs hostWord v (v.finish c r) ∧ (v.finish c r).cmd.cmds = [] ∧ (v.finish c r).plc = v.plc ∧
      (v.finish c r).arb = v.arb := by
  obtain ⟨hkept, hwords, -⟩ := finish_spec (s := v.unheld) c r rfl
  obtain ⟨_, _, _, hframe⟩ := hkept.frame
  rw [finish_unheld r hcmds hid]
  exact ⟨replied_finish hdone rfl, hwords, hkept.cmds, by rw [hframe]; rfl, by rw [hframe]; rfl⟩

/-! ### Grants that end -/

/-- From `s` to `t` at most the grant of a station changed: its record of the arbiter and its word STN_W0. -/
structure State.upToGrant (i : Nat) (s t : State) : Prop where
  frame : ∃ regs arb, t = { s with regs := regs, arb := arb }
  jobs : t.arb.jobs = s.arb.jobs
  others : ∀ k, k ≠ i → t.arbOf k = s.arbOf k
  words : ∀ a, a ≠ ARB_STN_W0 i → t.reg a = s.reg a

theorem State.upToGrant.refl (i : Nat) (s : State) : s.upToGrant i s := ⟨⟨_, _, rfl⟩, rfl, fun _ _ => rfl, fun _ _ => rfl⟩

theorem State.upToGrant.trans {i : Nat} {s t u : State} (h : s.upToGrant i t) (k : t.upToGrant i u) : s.upToGrant i u := by
  obtain ⟨⟨regs, arb, rfl⟩, hjobs, hothers, hwords⟩ := h
  obtain ⟨⟨regs', arb', rfl⟩, kjobs, kothers, kwords⟩ := k
  exact ⟨⟨_, _, rfl⟩, kjobs.trans hjobs, fun n hn => (kothers n hn).trans (hothers n hn),
    fun a ha => (kwords a ha).trans (hwords a ha)⟩

section
variable (s : State) (i : Fin 2)

theorem State.upToGrant.modArb (f : StnArb → StnArb) : s.upToGrant i (s.modArb i f) :=
  ⟨⟨_, _, rfl⟩, rfl, fun _ hk => (State.arbOf_modArb s f i.isLt).trans (if_neg hk.symm), fun _ _ => rfl⟩

theorem State.upToGrant.set {h l : Nat} (v : Nat) : s.upToGrant i (s.set ⟨ARB_STN_W0 i, h, l⟩ v) :=
  ⟨⟨_, _, State.set_eq s _ v⟩, rfl, fun _ _ => rfl, fun _ ha => State.reg_set_apart s v ha⟩

theorem State.upToGrant.idleStn : s.upToGrant i (s.idleStn i) := by
  rw [State.idleStn]
  exact ((((modArb s i _).trans (set _ i _)).trans (set _ i _)).trans (set _ i _)).trans (set _ i _)

theorem State.upToGrant.parkStn (owner : Nat) (hold : Option Nat) : s.upToGrant i (s.parkStn i owner hold) := by
  rw [State.parkStn]
  exact (((modArb s i _).trans (set _ i _)).trans (set _ i _)).trans (set _ i _)

/-- A grant made idle serves nobody. -/
theorem State.idleStn_spec :
    (s.idleStn i).grantState i = stnIdle ∧ (s.idleStn i).get (ARB_STN_W0_TENANT i) = 0 ∧ (s.idleStn i).arbOf i = {} := by
  refine ⟨?_, ?_, ?_⟩
  · rw [State.grantState, State.idleStn, State.get_set_apart _ _ (by decide) (by decide) (.inr (by decide)),
      State.get_set_apart _ _ (by decide) (by decide) (.inr (by decide)),
      State.get_set_apart _ _ (by decide) (by decide) (.inr (by decide)), State.get_set_here _ _ (by decide) (by decide)]
    rfl
  · rw [State.idleStn, State.get_set_apart _ _ (by decide) (by decide) (.inr (by decide)),
      State.get_set_apart _ _ (by decide) (by decide) (.inr (by decide)), State.get_set_here _ _ (by decide) (by decide)]
    rfl
  · rw [State.idleStn, State.arbOf, State.set_arb, State.set_arb, State.set_arb, State.set_arb, ← State.arbOf,
      State.arbOf_modArb s _ i.isLt, if_pos rfl]

/-- A parked grant keeps its owner. -/
theorem State.parkStn_spec (owner : Nat) (hold : Option Nat) :
    (s.parkStn i owner hold).grantState i = stnParked ∧
      (s.parkStn i owner hold).arbOf i = { parked := some owner, hold := hold, since := s.tick } := by
  constructor
  · rw [State.grantState, State.parkStn, State.get_set_apart _ _ (by decide) (by decide) (.inr (by decide)),
      State.get_set_apart _ _ (by decide) (by decide) (.inr (by decide)), State.get_set_here _ _ (by decide) (by decide)]
    rfl
  · rw [State.parkStn, State.arbOf, State.set_arb, State.set_arb, State.set_arb, ← State.arbOf,
      State.arbOf_modArb s _ i.isLt, if_pos rfl]

/-- A spindle's stop leaves the grants and their words. -/
theorem State.spnStop_grant :
    (s.spnStop i).arb = s.arb ∧ ∀ k : Fin 2, (s.spnStop i).reg (ARB_STN_W0 k) = s.reg (ARB_STN_W0 k) := by
  have habort : ((s.discIndexDue i).spinAborted i).beyondSpn = (s.discIndexDue i).beyondSpn := by
    unfold State.spinAborted
    split
    · exact State.spnResult_beyondSpn _ i _
    · rfl
  have hstop : (s.spnStop i).beyondSpn = (s.discIndexDue i).beyondSpn := by
    unfold State.spnStop
    dsimp only
    split_ifs
    · rw [State.spnOff_beyondSpn, State.modStn_beyondSpn, habort]
    · rw [State.spinDown_beyondSpn, State.modStn_beyondSpn, habort]
    · rw [State.modStn_beyondSpn, habort]
  exact ⟨congrArg (fun b => b.rest.arb) hstop,
    fun k => reg_of_beyondSpn hstop (by simp only [ARB_STN_W0, List.mem_cons, List.not_mem_nil, or_false]; omega)⟩

end

/-- A parked grant that is made idle stops its spindle and stays idle. -/
theorem idleStn_spnStop (s : State) (i : Fin 2) :
    ((s.idleStn i).spnStop i).grantState i = stnIdle ∧ (((s.idleStn i).spnStop i).arbOf i).parked = none ∧
      ((s.idleStn i).spnStop i).get (ARB_STN_W0_TENANT i) = 0 := by
  obtain ⟨hstate, htenant, hgrant⟩ := State.idleStn_spec s i
  obtain ⟨harb, hword⟩ := State.spnStop_grant (s.idleStn i) i
  refine ⟨(State.get_of_reg (hword i)).trans hstate, ?_, (State.get_of_reg (hword i)).trans htenant⟩
  rw [State.arbOf, harb, ← State.arbOf, hgrant]

/-- A job that nobody waits behind leaves its grant parked (R443). -/
theorem releaseStn_parks {s : State} {i : Nat} {j : Job} (hjob : (s.arbOf i).job = some j) (hjobs : s.arb.jobs = [])
    (hpark : 0 < s.get ARB_PARK_PARK_TMO) : s.releaseStn i = s.parkStn i j.owner j.hold := by
  have hwait : s.waiting i = [] := by rw [State.waiting, hjobs, List.filter_nil]
  rw [State.releaseStn, hjob]
  dsimp only
  rw [hwait, List.isEmpty_nil, if_pos rfl, if_neg (by omega)]

/-- The job of a command leaves the grant of a station. -/
def State.endJobAt (s : State) (id k : Nat) : State :=
  if (s.arbOf k).job.any fun j => j.cmd == some id then s.releaseStn k else s

theorem endJobs_eq (s : State) (id : Nat) :
    s.endJobs id = ((s.dropJobs fun j => j.cmd == some id).endJobAt id 0).endJobAt id 1 := rfl

theorem endJobAt_idle {s : State} {k : Nat} (id : Nat) (h : (s.arbOf k).job = none) : s.endJobAt id k = s := by
  rw [State.endJobAt, h]
  rfl

theorem endJobAt_parks {s : State} (id : Nat) (k : Fin 2) (hjobs : s.arb.jobs = []) (hpark : 0 < s.get ARB_PARK_PARK_TMO) :
    s.upToGrant k (s.endJobAt id k) := by
  cases hk : (s.arbOf k).job with
  | none =>
    rw [endJobAt_idle id hk]
    exact .refl k s
  | some j =>
    rw [State.endJobAt, releaseStn_parks hk hjobs hpark]
    split
    · exact .parkStn s k _ _
    · exact .refl k s

/-- The jobs of a command leave their grants, beside one that has no job. -/
theorem endJobs_spares {s : State} (i : Fin 2) (id : Nat) (hidle : (s.arbOf i).job = none) (hjobs : s.arb.jobs = [])
    (hpark : 0 < s.get ARB_PARK_PARK_TMO) : ∃ k : Fin 2, i.val ≠ k.val ∧ s.upToGrant k (s.endJobs id) := by
  rw [endJobs_eq, dropJobs_of_nil _ hjobs]
  match i with
  | 0 =>
    rw [endJobAt_idle (k := 0) id hidle]
    exact ⟨1, by decide, endJobAt_parks id 1 hjobs hpark⟩
  | 1 =>
    have hfirst := endJobAt_parks id 0 hjobs hpark
    have hsecond := (congrArg StnArb.job (hfirst.others 1 (by decide))).trans hidle
    rw [show (s.endJobAt id 0).endJobAt id 1 = s.endJobAt id 0 from endJobAt_idle id hsecond]
    exact ⟨0, by decide, hfirst⟩

/-- Where no station works, the jobs of a command are waiting jobs only. -/
theorem endJobs_ungranted {s : State} (id : Nat) (h : ∀ k : Fin 2, (s.arbOf k).job = none) :
    s.endJobs id = s.dropJobs fun j => j.cmd == some id := by
  have h0 : (s.dropJobs fun j => j.cmd == some id).endJobAt id 0 = s.dropJobs fun j => j.cmd == some id :=
    endJobAt_idle id (h 0)
  rw [endJobs_eq, h0]
  exact endJobAt_idle id (h 1)

/-! ### A deferred PUT that starts (R394) -/

/-- A change of a job is a change of the arbiter's record. -/
theorem modJob_arb (s : State) (id : Nat) (f : Job → Job) : ∃ arb, s.modJob id f = { s with arb := arb } := by
  have hgranted (t : State) (i : Nat) : ∃ arb, t.modGranted id f i = { t with arb := arb } := by
    unfold State.modGranted
    split
    · split
      · exact ⟨_, rfl⟩
      · exact ⟨_, rfl⟩
    · exact ⟨_, rfl⟩
  rw [modJob_eq]
  obtain ⟨first, hfirst⟩ :=
    hgranted { s with arb := { s.arb with jobs := s.arb.jobs.map fun j => if j.id = id then f j else j } } 0
  rw [hfirst]
  exact hgranted _ 1

/-- A range that begins with a unit and lies in it is that unit. -/
theorem rangeUnits_one {offset len : Nat} (haligned : offset % unitBytes = 0) (hpos : 0 < len) (hlen : len ≤ unitBytes) :
    rangeUnits offset len = (offset / unitBytes, 1) := by
  have hlast : (offset + len - 1) / unitBytes = offset / unitBytes := by
    simp only [unitBytes] at *
    omega
  rw [rangeUnits, if_neg (by omega), hlast, Nat.add_sub_cancel_left]

/-- A PUT that has begun with its one unit. -/
def Cmd.putBegan (ver first : Nat) (c : Cmd) : Cmd :=
  { c with started := true, deferred := false, ver := ver, first := first, units := 1 }

/-- A PUT of one unit of an open version, from its counted units on, adds that unit and begins. -/
theorem startPut_continues {s : State} {c : Cmd} {v : OpenVer} (hpol : s.polValid c.tenant = true)
    (hkey : s.hasKey c.tenant = true) (hopens : s.plc.opens = [v]) (htenant : v.tenant = c.tenant)
    (hobj : v.key = c.e.objKey.toNat) (hcount : v.counted ≤ c.e.offset.toNat / unitBytes)
    (haligned : c.e.offset.toNat % unitBytes = 0) (hpos : 0 < c.e.len.toNat) (hlen : c.e.len.toNat ≤ unitBytes) :
    ∃ u : UnitSt, u.cmd = some c.id ∧ u.phase = .fetch ∧ u.len = c.e.len.toNat ∧ u.counted = false ∧
      s.startPut c = (s.addUnit u).modCmd c.id (Cmd.putBegan v.ver (c.e.offset.toNat / unitBytes)) := by
  have hopen : s.openOf c.tenant c.e.objKey.toNat = some v := by
    rw [State.openOf, hopens, List.find?_cons_of_pos (by simp [htenant, hobj])]
  unfold State.startPut
  simp only [rangeUnits_one haligned hpos hlen, hpol, hkey, hopen, Bool.not_true, Bool.false_eq_true, if_false,
    if_neg (Nat.not_lt.mpr hcount)]
  exact ⟨_, rfl, rfl, by simp, rfl, rfl⟩

/-- The start of the one command held, a deferred PUT of one unit: its job's placeholder gives way, and the unit is to be fetched. -/
theorem deferredPut_starts {s : State} {k : Cmd} {v : OpenVer} (hcmds : s.cmd.cmds = [k]) (hop : k.op = opPut)
    (hpol : s.polValid k.tenant = true) (hkey : s.hasKey k.tenant = true) (hopens : s.plc.opens = [v])
    (htenant : v.tenant = k.tenant) (hobj : v.key = k.e.objKey.toNat) (hcount : v.counted ≤ k.e.offset.toNat / unitBytes)
    (haligned : k.e.offset.toNat % unitBytes = 0) (hpos : 0 < k.e.len.toNat) (hlen : k.e.len.toNat ≤ unitBytes)
    (hunits : s.plc.units = []) :
    ∃ u : UnitSt, u.cmd = some k.id ∧ u.phase = .fetch ∧ u.len = k.e.len.toNat ∧ u.counted = false ∧
      ∃ t, (s.modCmd k.id fun x => { x with deferred := false }).startCmd { k with deferred := false } = t ∧
        t.plc.units = [u] ∧ t.cmd.cmds = [k.putBegan v.ver (k.e.offset.toNat / unitBytes)] ∧
        t.plc.searches = s.plc.searches ∧ t.plc.tombJobs = s.plc.tombJobs ∧ t.plc.mig = s.plc.mig ∧
        t.cmd.done = s.cmd.done := by
  obtain ⟨u, hcmd, hphase, hulen, hcounted, hstart⟩ := startPut_continues
    (s := s.modCmd k.id fun x => { x with deferred := false }) (c := { k with deferred := false }) hpol hkey hopens htenant hobj
    hcount haligned hpos hlen
  refine ⟨{ u with n := s.plc.nextUnit }, hcmd, hphase, hulen, hcounted, _, (if_pos hop).trans hstart, ?_, ?_, rfl, rfl, rfl, rfl⟩
  · simp [State.modCmd, State.addUnit, State.modPlc, hunits]
  · simp [State.modCmd, State.addUnit, State.modPlc, hcmds, Cmd.putBegan]

/-! ### A read that ends with its command (R404, R443) -/

theorem noteGen_unmapped {s : State} (h : s.plc.map = []) (id : UnitId) (g : Nat) : s.noteGen id g = s := by
  rw [State.noteGen, State.mapEnts, h, List.foldl_nil]

/-- A unit delivered with a loaded generation serves the read that waits for it. -/
theorem readEnd_delivers {s : State} {j : Job} {id : UnitId} {k : Cmd} {r : RdUnit} {g : Nat} (hkind : j.kind = .tenant)
    (hmap : s.plc.map = []) (hkey : (s.sec.keys.any fun x => x.tenant == id.tenant && x.gen == g) = true)
    (hread : s.readOf j id = some (k, r)) : s.readEnd j id (some g) = s.readDelivered k r.unit r.len := by
  unfold State.readEnd
  dsimp only
  rw [noteGen_unmapped hmap, hkind]
  dsimp only
  rw [hread]
  dsimp only
  rw [Option.any_some, hkey, if_pos rfl]

/-- The one command held has the one read that a job ends. -/
theorem readOf_only {s : State} {j : Job} {id : UnitId} {k : Cmd} {r : RdUnit} (hj : j.cmd = some k.id) (hcmds : s.cmd.cmds = [k])
    (hreads : k.reads = [r]) (hnow : r.now = some s.self) (hdone : r.done = false) (hid : k.unitId r.unit = id) :
    s.readOf j id = some (k, r) := by
  simp [State.readOf, State.cmdOf, hj, hcmds, hreads, hnow, hdone, hid]

/-- A read served. -/
def RdUnit.served (r : RdUnit) : RdUnit := { r with done := true, now := none }

theorem modRead_only {s : State} {k : Cmd} {r : RdUnit} (f : RdUnit → RdUnit) (hcmds : s.cmd.cmds = [k])
    (hreads : k.reads = [r]) :
    s.modRead k.id r.unit f = { s with cmd := { s.cmd with cmds := [{ k with reads := [f r] }] } } := by
  unfold State.modRead State.modCmd
  rw [hcmds, List.map_singleton, if_pos rfl]
  dsimp only
  rw [hreads, List.map_singleton, if_pos rfl]

theorem modAcct_frame (s : State) (t : Nat) (f : MeterAcc → MeterAcc) : ∃ mtr, s.modAcct t f = { s with mtr := mtr } := by
  unfold State.modAcct
  split
  · exact ⟨_, rfl⟩
  · exact ⟨_, rfl⟩

/-- The one read of the one command held is served; only the command and the accounts change. -/
theorem readDelivered_only {s : State} {k : Cmd} {r : RdUnit} (hcmds : s.cmd.cmds = [k]) (hreads : k.reads = [r]) :
    ∃ mtr, s.readDelivered k r.unit r.len =
      { s with cmd := { s.cmd with cmds := [{ k with reads := [r.served] }] }, mtr := mtr } := by
  rw [State.readDelivered, modRead_only _ hcmds hreads]
  exact modAcct_frame _ _ _

/-- The job of one read that nobody else works on ends: the station is released, the read gets its unit, and what comes due is
done. -/
theorem jobEnd_read {s : State} {i : Nat} {j : Job} {u : JobUnit} {w : Word} (hjob : (s.arbOf i).job = some j)
    (hjobs : s.arb.jobs = []) (hkind : j.kind = .tenant) (hwrite : j.write = false) (hhold : j.hold = none)
    (hunits : j.units = [u]) (hlost : s.chn.lost = []) (hext0 : (s.chn.ext[2 * i]?).getD none = none)
    (hext1 : (s.chn.ext[2 * i + 1]?).getD none = none) :
    ∃ chn, s.jobEnd i [some w] = ({ (s.releaseStn i).readEnd j u.id (some w.toNat) with chn := chn } : State).settle := by
  have hwriting : ((List.range 2).any fun n => ((s.chn.ext[2 * i + n]?).getD none).isSome) = false := by
    rw [show List.range 2 = [0, 1] from rfl]
    simp [hext0, hext1]
  have hnext : s.joinNext j = s := by rw [State.joinNext, hjobs, List.find?_nil]
  unfold State.jobEnd
  rw [hjob]
  dsimp only
  rw [hwriting, hkind, hhold, if_neg (by decide), hunits, hnext, hlost]
  simp only [List.length_singleton, List.range_one, List.zip_cons_cons, List.zip_nil_left, List.foldl_cons, List.foldl_nil, hwrite]
  exact ⟨_, rfl⟩

/-- Such a job leaves its station parked on the tenant. -/
theorem jobEnd_parks {s : State} {i : Fin 2} {j : Job} {u : JobUnit} {w : Word} (hjob : (s.arbOf i).job = some j)
    (hjobs : s.arb.jobs = []) (hkind : j.kind = .tenant) (hwrite : j.write = false) (hhold : j.hold = none)
    (hunits : j.units = [u]) (hlost : s.chn.lost = []) (hext0 : (s.chn.ext[2 * i.val]?).getD none = none)
    (hext1 : (s.chn.ext[2 * i.val + 1]?).getD none = none) (hpark : 0 < s.get ARB_PARK_PARK_TMO) :
    ∃ p chn, s.upToGrant i p ∧ p.grantState i = stnParked ∧
      p.arbOf i = { parked := some j.tenant, hold := none, since := s.tick } ∧
      s.jobEnd i [some w] = ({ p.readEnd j u.id (some w.toNat) with chn := chn } : State).settle := by
  obtain ⟨chn, hend⟩ := jobEnd_read (w := w) hjob hjobs hkind hwrite hhold hunits hlost hext0 hext1
  obtain ⟨hstate, hrec⟩ := State.parkStn_spec s i j.tenant none
  have howner : j.owner = j.tenant := by rw [Job.owner, hkind]; rfl
  refine ⟨s.parkStn i j.tenant none, chn, .parkStn s i _ _, hstate, hrec, ?_⟩
  rw [hend, releaseStn_parks hjob hjobs hpark, howner, hhold]

/-- A GET whose one read is served ends with its bytes. -/
theorem endGet_served {s : State} {c : Cmd} {r : RdUnit} (hreads : c.reads = [r.served]) (hfailed : r.failed = false) :
    s.endGet c = some ((s.endJobs c.id).finish c { res0 := r.len, res1 := c.ver }) := by
  have hup : upToEnd c.reads = [r.served] := by
    rw [hreads, upToEnd]
    split <;> rfl
  unfold State.endGet
  rw [hup]
  simp [RdUnit.served, hfailed]

/-- The one command held, a GET whose read is served, ends beside a grant without a job, which stays as it is. -/
theorem settle_served {s z : State} {c : Cmd} {r : RdUnit} (i : Fin 2) (hcmds : z.cmd.cmds = [c]) (hop : c.op = opGet)
    (hstarted : c.started = true) (hreads : c.reads = [r.served]) (hfailed : r.failed = false) (hjobs : z.arb.jobs = [])
    (hidle : (z.arbOf i).job = none) (hpark : 0 < z.get ARB_PARK_PARK_TMO) (hopens : z.plc.opens = [])
    (hsearches : z.plc.searches = []) (htombs : z.plc.tombJobs = []) (hmig : z.plc.mig = none)
    (hdone : z.cmd.done = s.cmd.done) :
    (replied s z.settle c.path c.e stOk ∧ (z.settle.lastEntry.map fun x => x.res0) = some (r.len % 2 ^ 64)) ∧
      z.settle.cmd.cmds = [] ∧ z.settle.arbOf i = z.arbOf i ∧ z.settle.grantState i = z.grantState i := by
  obtain ⟨n, hn, ⟨⟨regs, arb, hframe⟩, -, hothers, hwords⟩⟩ := endJobs_spares i c.id hidle hjobs hpark
  have hget : z.endCmd c = some ((z.endJobs c.id).finish c { res0 := r.len, res1 := c.ver }) := by
    rw [State.endCmd, hop, if_neg (by decide), hstarted, Bool.not_true, if_neg Bool.false_ne_true, if_neg (by decide), if_pos rfl,
      endGet_served hreads hfailed]
  obtain ⟨hreply, hhost, hnone, hplc, harb⟩ := finish_last (s := s) (v := z.endJobs c.id) (k := c) (c := c)
    { res0 := r.len, res1 := c.ver } (by rw [hframe]; exact hcmds) rfl (by rw [hframe]; exact hdone)
  have hstill : ((z.endJobs c.id).finish c { res0 := r.len, res1 := c.ver }).still := by
    rw [State.still, hplc, hframe]
    exact ⟨by rw [← hframe]; exact hnone, hopens, hsearches, htombs, hmig⟩
  rw [settle_ends hopens hsearches htombs hmig hcmds hget hstill]
  have hown : (z.endJobs c.id).reg (ARB_STN_W0 i) = z.reg (ARB_STN_W0 i) :=
    hwords _ (by simp only [ARB_STN_W0]; omega)
  have hword : ¬ hostWord (ARB_STN_W0 i) := by simp only [hostWord, inBlock, ARB_STN_W0]; omega
  refine ⟨hreply, hnone, ?_, State.get_of_reg ((hhost _ hword).trans hown)⟩
  rw [State.arbOf, harb]
  exact hothers i hn

/-! ### A grant that the watchdog ends (R445, R447) -/

/-- The watchdog's fault and its count. -/
def State.wdogCounted (s : State) (st : Nat) : State := (s.raise 0x090 1 st).addSat ARB_CNT_EVT_WDOG 1

theorem State.wdogCounted_spec (s : State) (st : Nat) :
    (∃ regs flt, s.wdogCounted st = { s with regs := regs, flt := flt }) ∧
      (s.wdogCounted st).get ARB_CNT_EVT_WDOG = min ARB_CNT_EVT_WDOG.top (s.get ARB_CNT_EVT_WDOG + 1) ∧
      ((s.wdogCounted st).reg (keySrc 0x090 0)).toNat = min 0xFFFFFFFF ((s.reg (keySrc 0x090 0)).toNat + 1) := by
  obtain ⟨regs, flt, hraised⟩ := State.upToFaults.raise s 0x090 1 st
  refine ⟨⟨(s.wdogCounted st).regs, flt, ?_⟩, ?_, ?_⟩
  · rw [State.wdogCounted, State.addSat, State.set_eq, hraised]
  · rw [State.wdogCounted, State.get_addSat_same _ _ ⟨by decide, by decide⟩, State.get_raise_below s (by decide)]
  · rw [State.wdogCounted, State.reg_addSat_other _ _ (by decide), State.count_raise s _ (by decide)]

/-- A DELETE whose grant is revoked ends (R447). -/
theorem cmdRevoked_delete {s : State} {k : Cmd} (hop : k.op = opDelete) :
    s.cmdRevoked k = (s.endJobs k.id).finish k { status := 0x800B } := by
  rw [State.cmdRevoked, hop, if_neg (by decide), if_neg (by decide), finishWith_eq _ k (by decide)]

/-- A tenant's grant is revoked from the one command held, a DELETE, with no extent under way: the grant is idle and the command
ends. -/
theorem revoke_ends {s : State} {i : Nat} {j : Job} {k : Cmd} (wd : Bool) (hjob : (s.arbOf i).job = some j)
    (hkind : j.kind = .tenant) (hj : j.cmd = some k.id) (hcmds : s.cmd.cmds = [k]) (hop : k.op = opDelete)
    (hext0 : (s.chn.ext[2 * i]?).getD none = none) (hext1 : (s.chn.ext[2 * i + 1]?).getD none = none) :
    ∃ chn, s.revoke i wd =
      (((({ s with chn := chn } : State).idleStn i).endJobs k.id).finish k { status := 0x800B }).settle := by
  have hcmd (chn : ChnSt) : (({ s with chn := chn } : State).idleStn i).cmdOf k.id = some k := by
    rw [State.cmdOf, State.idleStn, State.set_cmd, State.set_cmd, State.set_cmd, State.set_cmd, State.modArb_cmd, hcmds,
      List.find?_cons_of_pos (by simp)]
  unfold State.revoke
  rw [hjob, show List.range 2 = [0, 1] from rfl, List.foldl_cons, List.foldl_cons, List.foldl_nil]
  simp only [Nat.add_zero, State.modChn, hext0, hext1, hkind, hj, Option.bind_some, hcmd, cmdRevoked_delete hop]
  exact ⟨_, rfl⟩

/-- The one command held ends where no station works, and nothing comes due after it. -/
theorem settle_ended {s z : State} {k : Cmd} (r : Reply) (hcmds : z.cmd.cmds = [k]) (hidle : ∀ n : Fin 2, (z.arbOf n).job = none)
    (hopens : z.plc.opens = []) (hsearches : z.plc.searches = []) (htombs : z.plc.tombJobs = []) (hmig : z.plc.mig = none)
    (hdone : z.cmd.done = s.cmd.done) :
    ∃ t, ((z.endJobs k.id).finish k r).settle = t ∧ replied s t k.path k.e r.status ∧ t.cmd.cmds = [] ∧ sameRegs hostWord z t ∧
      ∀ n, t.arbOf n = z.arbOf n := by
  obtain ⟨⟨hreply, -⟩, hwords, hnone, hplc, harb⟩ :=
    finish_last (s := s) (v := z.dropJobs fun j => j.cmd == some k.id) (k := k) (c := k) r hcmds rfl hdone
  rw [endJobs_ungranted k.id hidle]
  refine ⟨_, settle_of_still ?_, hreply, hnone, hwords, fun n => ?_⟩
  · rw [State.still, hplc]
    exact ⟨hnone, hopens, hsearches, htombs, hmig⟩
  · rw [State.arbOf, harb]
    rfl

/-! ### The statement -/

/-- Settles O44: a deferred command starts (`deferredPut_starts`), a job ends with its command (`jobEnd_read`, `endGet_served`), a
parked grant becomes idle (`idleStn_spnStop`), and the watchdog revokes a grant (`revoke_ends`). -/
theorem grantsServeAndEnd : Obligations.GrantsServeAndEnd := by
  refine ⟨?start, ?served, ?parked, ?watchdog⟩
  case start =>
    intro st j k v s hjob hj hhold hcmds hop hdeferred hstarted hholds hspeed hmay hopens htenant hobj hcount haligned hpos hlen
      hpol hkey hunits hsearches htombs hmig
    obtain ⟨arb, harb⟩ := modJob_arb s j.id fun x => { x with units := [] }
    obtain ⟨u, hucmd, hphase, hulen, hcounted, t, ht, tunits, tcmds, tsearches, ttombs, tmig, tdone⟩ :=
      deferredPut_starts (s := { s with arb := arb }) hcmds hop hpol hkey hopens htenant hobj hcount haligned hpos hlen hunits
    have hcmd : (j.cmd.bind fun n => s.cmdOf n) = some k := by simp [hj, State.cmdOf, hcmds]
    have hexec : exec (.deferredCommandStart st) s = .next t.cmdCounts.settle := by
      rw [show exec (.deferredCommandStart st) s = execDeferredCommandStart st s from rfl, execDeferredCommandStart, hjob]
      dsimp only
      rw [hcmd]
      dsimp only
      rw [if_pos ⟨hdeferred, hstarted, hholds, hspeed, hmay⟩, hhold, Option.isSome_none, if_neg Bool.false_ne_true, harb, ht]
    have hcalm : t.cmdCounts.settle = t.cmdCounts := by
      refine settle_of_fetching ?_ (tsearches.trans hsearches) (ttombs.trans htombs) (tmig.trans hmig) ?_
      · intro x hx
        rw [State.cmdCounts, State.set_plc, State.set_plc, tunits, List.mem_singleton] at hx
        rw [hx, hphase]
      · intro c hc
        rw [State.cmdCounts, State.set_cmd, State.set_cmd, tcmds, List.mem_singleton] at hc
        subst hc
        refine ⟨rfl, endCmd_put_none (u := u) hop rfl ?_ hucmd hcounted (by rw [hphase]; decide)⟩
        rw [State.cmdCounts, State.set_plc, State.set_plc, tunits]
        exact List.mem_singleton_self u
    refine ⟨_, hexec, ?_⟩
    rw [hcalm]
    refine ⟨?_, ?_, ?_, ?_⟩
    · rw [State.cmdCounts, State.set_cmd, State.set_cmd, tcmds]
      rfl
    · rw [State.cmdCounts, State.set_plc, State.set_plc, tunits, List.map_singleton, hucmd, hphase, hulen]
    · rw [State.cmdCounts, tcmds, State.get_set_here _ _ (by decide) (by decide)]
      rfl
    · rw [State.cmdCounts, State.set_cmd, State.set_cmd, tdone]
  case served =>
    intro st j k u r w s hjob hjobs hkind hwrite hhold hunits hj hcmds hop hstarted hreads hnow hdone hfailed hid hkey hmap hlost
      hext0 hext1 hpark hopens hsearches htombs hmig
    obtain ⟨p, chn, ⟨⟨regs, arb, hframe⟩, gjobs, -, gwords⟩, hstate, hrec, hend⟩ :=
      jobEnd_parks (w := w) hjob hjobs hkind hwrite hhold hunits hlost hext0 hext1 hpark
    have gpark : 0 < p.get ARB_PARK_PARK_TMO := by
      rwa [State.get_of_reg (gwords _ (by simp only [ARB_PARK, ARB_STN_W0]; omega))]
    have hself : p.self = s.self := State.get_of_reg (gwords _ (by simp only [PLC_DM_SELF, ARB_STN_W0]; omega))
    have pcmds : p.cmd.cmds = [k] := by rw [hframe]; exact hcmds
    have hread : p.readOf j u.id = some (k, r) := readOf_only hj pcmds hreads (by rw [hself, hnow]) hdone hid
    obtain ⟨mtr, hserved⟩ := readDelivered_only (s := p) pcmds hreads
    rw [readEnd_delivers hkind (by rw [hframe]; exact hmap) (by rw [hframe]; exact hkey) hread, hserved] at hend
    obtain ⟨⟨hreply, hres⟩, hnone, hgrant, hshown⟩ := settle_served (s := s) (r := r)
      (z := { p with cmd := { p.cmd with cmds := [{ k with reads := [r.served] }] }, mtr := mtr, chn := chn }) st rfl hop hstarted rfl
      hfailed (gjobs.trans hjobs) (congrArg StnArb.job hrec) gpark (by rw [hframe]; exact hopens) (by rw [hframe]; exact hsearches)
      (by rw [hframe]; exact htombs) (by rw [hframe]; exact hmig) (by rw [hframe])
    refine ⟨_, congrArg Host.Outcome.next hend, hreply, hres, hnone, ?_, ?_, hshown.trans hstate⟩
    · rw [hgrant]
      exact congrArg StnArb.job hrec
    · rw [hgrant]
      exact congrArg StnArb.parked hrec
  case parked =>
    intro st s hstate htime
    refine ⟨_, ?_, idleStn_spnStop s st⟩
    rw [show exec (.parkTimeout st) s = execParkTimeout st s from rfl, execParkTimeout]
    exact if_pos ⟨hstate, htime⟩
  case watchdog =>
    intro st j k s hjob hkind hj hcmds hop _ hext0 hext1 htime hother hopens hsearches htombs hmig
    obtain ⟨⟨regs, flt, hcounted⟩, hevents, hfault⟩ := State.wdogCounted_spec s st
    have hexec : exec (.stnWdog st) s = .next ((s.wdogCounted st).revoke st true) := by
      rw [show exec (.stnWdog st) s = execStnWdog st s from rfl, execStnWdog, hjob]
      exact if_pos ⟨by rw [hkind]; decide, htime⟩
    generalize s.wdogCounted st = p at *
    have parb (n : Nat) : p.arbOf n = s.arbOf n := by rw [hcounted]; rfl
    obtain ⟨chn, hrevoke⟩ := revoke_ends (s := p) true (by rw [parb, hjob]) hkind hj (by rw [hcounted]; exact hcmds) hop
      (by rw [hcounted]; exact hext0) (by rw [hcounted]; exact hext1)
    obtain ⟨hstate, -, hrec⟩ := State.idleStn_spec { p with chn := chn } st
    obtain ⟨⟨iregs, iarb, hframe⟩, -, hothers, hwords⟩ := State.upToGrant.idleStn { p with chn := chn } st
    generalize State.idleStn { p with chn := chn } st = z at *
    have hidle (n : Fin 2) : (z.arbOf n).job = none := by
      by_cases hn : n = st
      · rw [hn, hrec]
      · rw [hothers n fun h => hn (Fin.ext h)]
        exact (congrArg StnArb.job (parb n)).trans (hother n hn)
    obtain ⟨t, hend, hreply, hnone, hkept, harb⟩ := settle_ended (s := s) (z := z) (k := k) { status := 0x800B }
      (by rw [hframe, hcounted]; exact hcmds) hidle (by rw [hframe, hcounted]; exact hopens)
      (by rw [hframe, hcounted]; exact hsearches) (by rw [hframe, hcounted]; exact htombs) (by rw [hframe, hcounted]; exact hmig)
      (by rw [hframe, hcounted])
    have hword : ¬ hostWord (ARB_STN_W0 st) := by simp only [hostWord, inBlock, ARB_STN_W0]; omega
    have hown (a : Nat) (ha : ¬ hostWord a) (hst : a ≠ ARB_STN_W0 st) : t.reg a = p.reg a := (hkept a ha).trans (hwords a hst)
    refine ⟨t, hexec.trans (congrArg _ (hrevoke.trans hend)), (State.get_of_reg (hkept _ hword)).trans hstate, ?_, ?_,
      hreply, hnone, ?_⟩
    · rw [harb, hrec]
    · exact (State.get_of_reg (hown ARB_CNT_EVT (by decide) (by simp only [ARB_CNT_EVT, ARB_STN_W0]; omega))).trans hevents
    · rw [hown _ (by decide) (by simp only [keySrc, ARB_STN_W0]; omega), hfault]

end Sys2Proof.Machine
end
